-- ==== Sys2Proof/Word.lean ====
section
/-! DEFINITION. The words the block handles, the names of its parts, interfaces, links and lanes, and the payloads
of the Gyelou flits (R454 to R457 and the rules that give each payload). -/

namespace Sys2Proof

/-- One register (R503). -/
abbrev Word := BitVec 64

/-- A hall tick (R54). -/
abbrev Tick := BitVec 64

/-- The two deliverables of the device (R1 to R4): the hub and the TSU. -/
inductive Part where
  | hub
  | tsu
  deriving DecidableEq, Repr

/-- A plane of the hall (R19). -/
inductive Plane where
  | a
  | b
  deriving DecidableEq, Repr

/-- The interfaces that reach registers (R507). -/
inductive Iface where
  | pcie
  | mgmt
  | jtag
  | port (p : BitVec 7)
  | host
  | linkA
  | linkB
  deriving DecidableEq, Repr

/-- The part an interface belongs to (R507). -/
def Iface.part : Iface → Part
  | .host | .linkA | .linkB => .tsu
  | _ => .hub

/-- The place of an interface's copies in the table of copies (R507). -/
def Iface.key : Iface → Nat
  | .pcie => 0
  | .mgmt => 1
  | .jtag => 2
  | .host => 3
  | .linkA => 4
  | .linkB => 5
  | .port p => 6 + p.toNat

/-- A link of a part: hub port 0 to 71 and sub-port position, or TSU link 0 (A) or 1 (B) (R25, R182). -/
structure LinkId where
  part : Part
  port : BitVec 7
  sub : BitVec 2
  deriving DecidableEq, Repr

/-- A link's place in its part's table: bit 4 × port + sub-port (R530). -/
def LinkId.key (l : LinkId) : Nat := 4 * l.port.toNat + l.sub.toNat

/-- TSU link A (R29). -/
def linkA : LinkId := ⟨.tsu, 0, 0⟩

/-- TSU link B (R29). -/
def linkB : LinkId := ⟨.tsu, 1, 0⟩

/-- Where a step program runs: the TSU's sequencer, or the home engine of a job (R275). -/
inductive Site where
  | tsu
  | home (job : BitVec 12)
  deriving DecidableEq, Repr

/-- The classes of flits (R456). -/
inductive FlitClass where
  | ctrl
  | time
  | up
  | down
  | signal
  | mgmt
  | result
  | mirror
  deriving DecidableEq, Repr

/-- Where a routed message is going: a rank before edge translation, an endpoint after it (R44). -/
inductive Dest where
  | rank (r : BitVec 20)
  | endpoint (ep : BitVec 24)
  deriving DecidableEq, Repr

/-- The target that a PREPARE is for (R422, R426). The flit of R457 has no field for it: it goes with the message, as the
sender of an upward flit does. -/
inductive TxnTarget where
  | hub (a : BitVec 16)
  | endpoint (ep : BitVec 24)
  deriving DecidableEq, Repr

/-- What a time flit's boundary carries, so that its stamp finds its exchange (R96, R98). -/
inductive FlitTag where
  | sync (seq : BitVec 16)
  | dreq (dseq : BitVec 16)
  | dresp (dseq : BitVec 16)
  | probe (tsid : BitVec 8) (echo : Bool)
  /-- A calibration marker on a folded lane (R112): its transmit edge and its edge at the pad-sense comparator. -/
  | calMark (lane : BitVec 3)
  /-- The same marker at the folded lane's receiver. -/
  | calFold (lane : BitVec 3)
  /-- An edge of an event engine's source, rising or falling. -/
  | edge (rising : Bool)
  deriving DecidableEq, Repr

/-- Whether an edge rises: that of a flit does. -/
def FlitTag.rising : FlitTag → Bool
  | .edge r => r
  | _ => true

/-- A region tap's own time at an edge: the strobe edges since its anchor, and the phase of its delay line (R192). -/
structure TapTime where
  edges : BitVec 32
  phase : BitVec 9
  deriving DecidableEq, Repr

/-- A stamping point: a link's transmit or receive point, or input A or B of an engine (R78, R82, R96). -/
inductive Point where
  | linkTx (l : LinkId)
  | linkRx (l : LinkId)
  | engineA (p : Part) (e : BitVec 2)
  | engineB (p : Part) (e : BitVec 2)
  deriving DecidableEq, Repr

/-- The part a stamping point belongs to. -/
def Point.part : Point → Part
  | .linkTx l => l.part
  | .linkRx l => l.part
  | .engineA p _ => p
  | .engineB p _ => p

/-- A stamping point's place in its part's table. -/
def Point.key : Point → Nat
  | .linkTx l => 2 * l.key
  | .linkRx l => 2 * l.key + 1
  | .engineA _ e => 1024 + 2 * e.toNat
  | .engineB _ e => 1025 + 2 * e.toNat

/-- The lock cluster of a stamping point (R78). -/
def Point.cluster : Point → Nat
  | .linkTx l => match l.part with | .hub => l.port.toNat / 4 | .tsu => 0
  | .linkRx l => match l.part with | .hub => l.port.toNat / 4 | .tsu => 0
  | .engineA .hub _ => 18
  | .engineB .hub _ => 18
  | .engineA .tsu _ => 0
  | .engineB .tsu _ => 0

/-- The register pages of the two parts, by the names of R513 and R514. -/
inductive Page where
  | hubid
  | mod
  | fw
  | intc
  | mgmt
  | timebase
  | vernier
  | emu (i : BitVec 2)
  | servo
  | ref
  | xlat
  | ladle
  | synch
  | steph
  | late
  | progh
  | stock
  | digh
  | audit
  | deth
  | evh
  | flt
  | txn
  | memc (i : BitVec 6)
  | link (i : BitVec 7)
  | phy (i : BitVec 7)
  | root
  | evtrig
  | dfc
  | tap
  | sync
  | step
  | seq
  | spt
  | digt
  | det
  | evq
  | txnt
  deriving DecidableEq, Repr

/-- The ordinal of a page in the map of a part (R513, R514); none where the part has no such page. -/
def Page.ordinal (p : Part) : Page → Option Nat
  | .hubid => if p = .hub then some 0 else none
  | .mod => if p = .hub then some 1 else none
  | .fw => if p = .hub then some 2 else none
  | .intc => match p with | .hub => some 3 | .tsu => some 1
  | .mgmt => if p = .hub then some 4 else none
  | .timebase => match p with | .hub => some 5 | .tsu => some 2
  | .vernier => match p with | .hub => some 6 | .tsu => some 3
  | .emu i => match p with | .hub => some (7 + i.toNat) | .tsu => if i.toNat < 2 then some (5 + i.toNat) else none
  | .servo => match p with | .hub => some 11 | .tsu => some 4
  | .ref => if p = .hub then some 12 else none
  | .xlat => if p = .hub then some 13 else none
  | .ladle => if p = .hub then some 14 else none
  | .synch => if p = .hub then some 15 else none
  | .steph => if p = .hub then some 16 else none
  | .late => if p = .hub then some 17 else none
  | .progh => if p = .hub then some 18 else none
  | .stock => if p = .hub then some 19 else none
  | .digh => if p = .hub then some 20 else none
  | .audit => if p = .hub then some 21 else none
  | .deth => if p = .hub then some 22 else none
  | .evh => if p = .hub then some 23 else none
  | .flt => if p = .hub then some 24 else none
  | .txn => if p = .hub then some 25 else none
  | .memc i => if p = .hub then some (26 + i.toNat) else none
  | .link i => match p with
    | .hub => if i.toNat < 72 then some (90 + i.toNat) else none
    | .tsu => if i.toNat < 2 then some (7 + i.toNat) else none
  | .phy i => match p with
    | .hub => if i.toNat < 72 then some (162 + i.toNat) else none
    | .tsu => if i.toNat < 2 then some (9 + i.toNat) else none
  | .root => if p = .tsu then some 0 else none
  | .evtrig => if p = .tsu then some 11 else none
  | .dfc => if p = .tsu then some 12 else none
  | .tap => if p = .tsu then some 13 else none
  | .sync => if p = .tsu then some 14 else none
  | .step => if p = .tsu then some 15 else none
  | .seq => if p = .tsu then some 16 else none
  | .spt => if p = .tsu then some 17 else none
  | .digt => if p = .tsu then some 18 else none
  | .det => if p = .tsu then some 19 else none
  | .evq => if p = .tsu then some 20 else none
  | .txnt => if p = .tsu then some 21 else none

/-- The BLOCK code of a page (R513, R514). -/
def Page.block : Page → BitVec 16
  | .hubid => 0x0001
  | .mod => 0x0002
  | .fw => 0x0003
  | .intc => 0x0004
  | .mgmt => 0x0005
  | .timebase => 0x0010
  | .vernier => 0x0011
  | .emu _ => 0x0012
  | .servo => 0x0013
  | .ref => 0x0014
  | .xlat => 0x0020
  | .ladle => 0x0021
  | .synch => 0x0022
  | .steph => 0x0023
  | .late => 0x0024
  | .progh => 0x0025
  | .stock => 0x0026
  | .digh => 0x0027
  | .audit => 0x0028
  | .deth => 0x0029
  | .evh => 0x002A
  | .flt => 0x002B
  | .txn => 0x002C
  | .memc _ => 0x0030
  | .link _ => 0x0040
  | .phy _ => 0x0041
  | .root => 0x0101
  | .evtrig => 0x0102
  | .dfc => 0x0103
  | .tap => 0x0104
  | .sync => 0x0105
  | .step => 0x0106
  | .seq => 0x0107
  | .spt => 0x0108
  | .digt => 0x0109
  | .det => 0x010A
  | .evq => 0x010B
  | .txnt => 0x010C

/-- The INSTANCE of a page (R513, R514). -/
def Page.inst : Page → Nat
  | .emu i => i.toNat
  | .memc i => i.toNat
  | .link i => i.toNat
  | .phy i => i.toNat
  | _ => 0

/-- The page at a page number (byte offset / 0x1000) of a part's address space (R513, R514). -/
def Page.atNumber (p : Part) (n : Nat) : Option Page :=
  match p with
  | .hub =>
    match n with
    | 0 => some .hubid
    | 1 => some .mod
    | 2 => some .fw
    | 3 => some .intc
    | 4 => some .mgmt
    | 5 => some .timebase
    | 6 => some .vernier
    | 7 => some (.emu 0)
    | 8 => some (.emu 1)
    | 9 => some (.emu 2)
    | 10 => some (.emu 3)
    | 11 => some .servo
    | 12 => some .ref
    | 13 => some .xlat
    | 14 => some .ladle
    | 15 => some .synch
    | 16 => some .steph
    | 17 => some .late
    | 18 => some .progh
    | 19 => some .stock
    | 20 => some .digh
    | 21 => some .audit
    | 22 => some .deth
    | 23 => some .evh
    | 24 => some .flt
    | 25 => some .txn
    | n =>
      if 0x20 ≤ n ∧ n < 0x60 then some (.memc (BitVec.ofNat 6 (n - 0x20)))
      else if 0x100 ≤ n ∧ n < 0x148 then some (.link (BitVec.ofNat 7 (n - 0x100)))
      else if 0x200 ≤ n ∧ n < 0x248 then some (.phy (BitVec.ofNat 7 (n - 0x200)))
      else none
  | .tsu =>
    match n with
    | 0 => some .root
    | 1 => some .intc
    | 2 => some .timebase
    | 3 => some .vernier
    | 4 => some .servo
    | 5 => some (.emu 0)
    | 6 => some (.emu 1)
    | 7 => some (.link 0)
    | 8 => some (.link 1)
    | 9 => some (.phy 0)
    | 10 => some (.phy 1)
    | 11 => some .evtrig
    | 12 => some .dfc
    | 13 => some .tap
    | 14 => some .sync
    | 15 => some .step
    | 16 => some .seq
    | 17 => some .spt
    | 18 => some .digt
    | 19 => some .det
    | 20 => some .evq
    | 21 => some .txnt
    | _ => none

/-- How the master's three time-path units stood on a value (R391): agreed, one disagreed, or all three differed. -/
inductive TimeVote where
  | agree
  | odd (unit : BitVec 2)
  | split
  deriving DecidableEq, Repr

/-- What every PTP message carries that the port looks at (R152). -/
structure PtpHead where
  /-- messageType: 0xB Announce, 0x0 Sync, 0x8 Follow_Up, 0x9 Delay_Resp. PRESUMED: log entry 62. -/
  kind : BitVec 4
  domain : BitVec 8
  version : BitVec 4
  minor : BitVec 4
  unicast : Bool
  tlv : Bool
  identity : BitVec 64
  port : BitVec 16
  seq : BitVec 16
  /-- correctionField, in units of 2^-16 ns. -/
  corr : BitVec 64
  deriving DecidableEq, Repr

/-- What an Announce ranks its master by (R152), as one number that orders as the ranking does, and its logMessageInterval. -/
structure PtpRank where
  key : BitVec 128
  logInterval : BitVec 8
  deriving DecidableEq, Repr

/-- requestingPortIdentity of a Delay_Resp (R152): a clock's identity and the number of its port. -/
structure PtpPortId where
  identity : BitVec 64
  number : BitVec 16
  deriving DecidableEq, Repr

/-- A PTP timestamp (R51): seconds and nanoseconds. -/
structure PtpStamp where
  sec : BitVec 48
  ns : BitVec 32
  deriving DecidableEq, Repr

/-- A fold, rounding or finish stage whose check disagreed, and how its reruns came out (R390): lane A and its checker, the
lanes C and D of the reruns, and the element. -/
structure FoldFault where
  lane : BitVec 16
  checker : BitVec 16
  c : BitVec 16
  elem : BitVec 16
  /-- C's result equals A's. -/
  cIsA : Bool
  /-- C's result agrees with the checker. -/
  cIsChecker : Bool
  /-- D's result equals A's, or C's. -/
  dIsA : Bool
  dIsC : Bool
  deriving DecidableEq, Repr

/-- An Egg timer of a wait: a host wait's, the step program's, or a home engine's (R241, R292). -/
inductive EggTimer where
  | host (w : BitVec 4)
  | program
  | home (job : BitVec 12)
  deriving DecidableEq, Repr

/-- The errors one converter of a stamping point showed in a calibration, one for each of the 16 phases (R80). -/
structure CalResult where
  point : Point
  conv1 : Bool
  errors : List Int
  deriving DecidableEq, Repr

/-- An access of the PCIe host (R510, R511): memory reads and writes of BAR0, which holds the pages, and of BAR2, the mailbox, by
byte address and length or bytes in address order; and MSI-X Enable in the configuration space. -/
inductive PcieAccess where
  | read0 (addr : BitVec 24) (len : BitVec 13)
  | write0 (addr : BitVec 24) (data : List (BitVec 8))
  | read2 (addr : BitVec 16) (len : BitVec 13)
  | write2 (addr : BitVec 16) (data : List (BitVec 8))
  | msixControl (enable : Bool)
  deriving DecidableEq, Repr

/-- What an uncorrectable read of on-package memory held (R524): elements of a spilled buffer, a job's state held in both hubs
of a twin pair, or a record of the audit log, the replay ring or the event ring by its index. -/
inductive HbmRegion where
  | spill (job ctx : BitVec 12) (second : Bool) (elems : List (BitVec 16))
  | jobState (job : BitVec 12)
  | audit (idx : BitVec 64)
  | replay (idx : BitVec 64)
  | event (idx : BitVec 64)
  deriving DecidableEq, Repr

/-- Payload of hello (R457). -/
structure HelloP where
  ver : BitVec 8
  verMin : BitVec 8
  kind : Bool
  addr : BitVec 16
  role : BitVec 3
  subport : BitVec 2
  ep : BitVec 24
  ident : BitVec 32
  fw : BitVec 64
  cred : BitVec 72
  spw : Bool
  deriving DecidableEq, Repr

/-- Payload of lack (R457). -/
structure LackP where
  lseq : BitVec 12
  deriving DecidableEq, Repr

/-- Payload of lnak (R457). -/
structure LnakP where
  lseq : BitVec 12
  deriving DecidableEq, Repr

/-- Payload of credit (R457). -/
structure CreditP where
  cred : BitVec 72
  full : Bool
  deriving DecidableEq, Repr

/-- Payload of notReady (R457). -/
structure NotReadyP where
  cause : BitVec 2
  deriving DecidableEq, Repr

/-- Payload of heartbeat (R457). -/
structure HeartbeatP where
  origin : BitVec 32
  heard : BitVec 288
  deriving DecidableEq, Repr

/-- Payload of dack (R457). -/
structure DackP where
  sender : BitVec 32
  dsn : BitVec 32
  deriving DecidableEq, Repr

/-- Payload of remapReq (R457). -/
structure RemapReqP where
  id : BitVec 8
  llane : BitVec 2
  victim : BitVec 3
  deriving DecidableEq, Repr

/-- Payload of remapAck (R457). -/
structure RemapAckP where
  id : BitVec 8
  result : BitVec 2
  deriving DecidableEq, Repr

/-- Payload of remapAt (R457). -/
structure RemapAtP where
  id : BitVec 8
  cwc : BitVec 14
  deriving DecidableEq, Repr

/-- Payload of sync (R98). -/
structure SyncP where
  seq : BitVec 16
  deriving DecidableEq, Repr

/-- Payload of syncFu (R98). -/
structure SyncFuP where
  seq : BitVec 16
  hops : BitVec 4
  bad : Bool
  srcValid : Bool
  srcHoldover : Bool
  master : BitVec 16
  originTick : BitVec 32
  originFrac : BitVec 16
  corr : BitVec 48
  deriving DecidableEq, Repr

/-- Payload of dreq (R98). -/
structure DreqP where
  dseq : BitVec 16
  deriving DecidableEq, Repr

/-- Payload of dresp (R98). -/
structure DrespP where
  dseq : BitVec 16
  deriving DecidableEq, Repr

/-- Payload of drespFu (R98). -/
structure DrespFuP where
  dseq : BitVec 16
  bad : Bool
  turn : BitVec 32
  deriving DecidableEq, Repr

/-- Payload of announce (R98, R137). -/
structure AnnounceP where
  seq : BitVec 16
  origin64 : BitVec 64
  epochS : BitVec 48
  master : BitVec 16
  kind : Bool
  cls : BitVec 2
  prio : BitVec 8
  gen : BitVec 16
  nextMaster : BitVec 16
  handoverTick : BitVec 32
  utcOffset : BitVec 16
  utcValid : Bool
  li61 : Bool
  li59 : Bool
  deriving DecidableEq, Repr

/-- Payload of probe (R98). -/
structure ProbeP where
  tsid : BitVec 8
  echo : Bool
  deriving DecidableEq, Repr

/-- Payload of probeEcho (R98). -/
structure ProbeEchoP where
  tsid : BitVec 8
  rxTick : BitVec 32
  rxFrac : BitVec 16
  deriving DecidableEq, Repr

/-- Payload of arrive (R221). -/
structure ArriveP where
  job : BitVec 12
  epoch : Bool
  obj : BitVec 16
  gen : BitVec 16
  step : BitVec 24
  count : BitVec 19
  deriving DecidableEq, Repr

/-- Payload of contrib (R310). -/
structure ContribP where
  job : BitVec 12
  epoch : Bool
  rank : BitVec 20
  ctx : BitVec 12
  step : BitVec 24
  elem : BitVec 16
  ne : BitVec 5
  ovf : Bool
  fonly : Bool
  data : BitVec 256
  deriving DecidableEq, Repr

/-- Payload of partl (R311). -/
structure PartlP where
  job : BitVec 12
  epoch : Bool
  ctx : BitVec 12
  step : BitVec 24
  elem : BitVec 16
  n : BitVec 19
  flags : BitVec 5
  acc : BitVec 320
  deriving DecidableEq, Repr

/-- Payload of dgp (R337). -/
structure DgpP where
  job : BitVec 12
  epoch : Bool
  step : BitVec 24
  members : BitVec 19
  n : BitVec 27
  nc : BitVec 27
  d0 : BitVec 127
  d1 : BitVec 127
  deriving DecidableEq, Repr

/-- Payload of vmap (R337). -/
structure VmapP where
  job : BitVec 12
  epoch : Bool
  step : BitVec 24
  members : BitVec 19
  vcount : BitVec 27
  map : BitVec 256
  deriving DecidableEq, Repr

/-- Payload of check (R340). -/
structure CheckP where
  job : BitVec 12
  epoch : Bool
  step : BitVec 24
  rank : BitVec 20
  did : BitVec 8
  kind : BitVec 2
  shard : BitVec 23
  value : BitVec 128
  deriving DecidableEq, Repr

/-- Payload of vrec (R369). -/
structure VrecP where
  job : BitVec 12
  epoch : Bool
  rank : BitVec 20
  step : BitVec 24
  launch : BitVec 32
  vidx : BitVec 8
  value : BitVec 64
  deriving DecidableEq, Repr

/-- Payload of evrec (R379, R457). -/
structure EvrecP where
  record : BitVec 512
  deriving DecidableEq, Repr

/-- Payload of vote (R457). -/
structure VoteP where
  coord : BitVec 16
  tid : BitVec 16
  kind : BitVec 8
  partition : BitVec 13
  reason : BitVec 8
  yes : BitVec 19
  origin : BitVec 32
  mv : Bool
  ident : BitVec 32
  fw : BitVec 64
  unitmap : BitVec 256
  deriving DecidableEq, Repr

/-- Payload of done (R457). -/
structure DoneP where
  coord : BitVec 16
  tid : BitVec 16
  kind : BitVec 8
  partition : BitVec 13
  deriving DecidableEq, Repr

/-- Payload of drained (R457). -/
structure DrainedP where
  coord : BitVec 16
  tid : BitVec 16
  kind : BitVec 8
  partition : BitVec 13
  deriving DecidableEq, Repr

/-- Payload of pauseReply (R457). -/
structure PauseReplyP where
  job : BitVec 12
  epoch : Bool
  rank : BitVec 20
  deriving DecidableEq, Repr

/-- Payload of rereq (R457). -/
structure RereqP where
  job : BitVec 12
  epoch : Bool
  ctx : BitVec 12
  step : BitVec 24
  elem : BitVec 16
  rank : BitVec 20
  deriving DecidableEq, Repr

/-- Payload of report (R457). -/
structure ReportP where
  job : BitVec 12
  epoch : Bool
  step : BitVec 24
  kind : BitVec 3
  detail : BitVec 8
  deriving DecidableEq, Repr

/-- Payload of release (R221). -/
structure ReleaseP where
  job : BitVec 12
  epoch : Bool
  obj : BitVec 16
  gen : BitVec 16
  step : BitVec 24
  timed : Bool
  tick : BitVec 32
  deriving DecidableEq, Repr

/-- Payload of stepRelease (R259). -/
structure StepReleaseP where
  job : BitVec 12
  epoch : Bool
  step : BitVec 24
  tick : BitVec 32
  late : Bool
  rebased : Bool
  lag : BitVec 40
  deriving DecidableEq, Repr

/-- Payload of stepPoison (R457). -/
structure StepPoisonP where
  job : BitVec 12
  epoch : Bool
  step : BitVec 24
  target : BitVec 16
  deriving DecidableEq, Repr

/-- Payload of prepare (R457). -/
structure PrepareP where
  coord : BitVec 16
  tid : BitVec 16
  kind : BitVec 8
  partition : BitVec 13
  commit : BitVec 32
  voteBy : BitVec 32
  len : BitVec 32
  share : List (BitVec 8)
  target : TxnTarget
  deriving DecidableEq, Repr

/-- Payload of commit (R457). -/
structure CommitP where
  coord : BitVec 16
  tid : BitVec 16
  kind : BitVec 8
  partition : BitVec 13
  deriving DecidableEq, Repr

/-- Payload of abort (R457). -/
structure AbortP where
  coord : BitVec 16
  tid : BitVec 16
  kind : BitVec 8
  partition : BitVec 13
  deriving DecidableEq, Repr

/-- Payload of jobAbort (R457). -/
structure JobAbortP where
  job : BitVec 12
  epoch : Bool
  cause : BitVec 3
  deriving DecidableEq, Repr

/-- Payload of pauseMark (R457). -/
structure PauseMarkP where
  job : BitVec 12
  epoch : Bool
  step : BitVec 24
  deriving DecidableEq, Repr

/-- Payload of refuse (R457). -/
structure RefuseP where
  job : BitVec 12
  epoch : Bool
  ctx : BitVec 12
  step : BitVec 24
  rank : BitVec 20
  deriving DecidableEq, Repr

/-- Payload of signal (R235). -/
structure SignalP where
  job : BitVec 12
  epoch : Bool
  rank : BitVec 20
  obj : BitVec 16
  amount : BitVec 16
  chan : BitVec 2
  window : BitVec 6
  bytes : BitVec 40
  dest : Dest
  deriving DecidableEq, Repr

/-- Payload of regRd (R457). -/
structure RegRdP where
  tag : BitVec 4
  offset : BitVec 24
  deriving DecidableEq, Repr

/-- Payload of regWr (R457). -/
structure RegWrP where
  tag : BitVec 4
  offset : BitVec 24
  data : BitVec 64
  deriving DecidableEq, Repr

/-- Payload of regRsp (R457). -/
structure RegRspP where
  tag : BitVec 4
  err : Bool
  data : BitVec 64
  deriving DecidableEq, Repr

/-- Payload of result (R323). -/
structure ResultP where
  job : BitVec 12
  epoch : Bool
  ctx : BitVec 12
  step : BitVec 24
  elem : BitVec 16
  ne : BitVec 5
  flags : BitVec 6
  rank : BitVec 20
  rres : BitVec 16
  data : BitVec 256
  deriving DecidableEq, Repr

/-- Payload of mirror (R457). -/
structure MirrorP where
  job : BitVec 12
  item : BitVec 8
  len : BitVec 16
  key : BitVec 64
  value : List (BitVec 8)
  deriving DecidableEq, Repr

/-- A flit's message by type, with its payload (R456). -/
inductive Msg where
  | idle
  | calMark
  | hello (p : HelloP)
  | lack (p : LackP)
  | lnak (p : LnakP)
  | credit (p : CreditP)
  | notReady (p : NotReadyP)
  | heartbeat (p : HeartbeatP)
  | dack (p : DackP)
  | remapReq (p : RemapReqP)
  | remapAck (p : RemapAckP)
  | remapAt (p : RemapAtP)
  | sync (p : SyncP)
  | syncFu (p : SyncFuP)
  | dreq (p : DreqP)
  | dresp (p : DrespP)
  | drespFu (p : DrespFuP)
  | announce (p : AnnounceP)
  | probe (p : ProbeP)
  | probeEcho (p : ProbeEchoP)
  | arrive (p : ArriveP)
  | contrib (p : ContribP)
  | partl (p : PartlP)
  | dgp (p : DgpP)
  | vmap (p : VmapP)
  | check (p : CheckP)
  | vrec (p : VrecP)
  | evrec (p : EvrecP)
  | vote (p : VoteP)
  | done (p : DoneP)
  | drained (p : DrainedP)
  | pauseReply (p : PauseReplyP)
  | rereq (p : RereqP)
  | report (p : ReportP)
  | release (p : ReleaseP)
  | stepRelease (p : StepReleaseP)
  | stepPoison (p : StepPoisonP)
  | prepare (p : PrepareP)
  | commit (p : CommitP)
  | abort (p : AbortP)
  | jobAbort (p : JobAbortP)
  | pauseMark (p : PauseMarkP)
  | refuse (p : RefuseP)
  | signal (p : SignalP)
  | regRd (p : RegRdP)
  | regWr (p : RegWrP)
  | regRsp (p : RegRspP)
  | result (p : ResultP)
  | mirror (p : MirrorP)
  deriving DecidableEq, Repr
end Sys2Proof
end

