-- ==== Sys2Proof/Syntax.lean ====
section
/-! DEFINITION. The commands of the block: one constructor per row of the opcode table, in the table's order. -/

namespace Sys2Proof

/-- A command sent to the block. -/
inductive Instr where
  /-- REGISTER_WRITE (R170): A write to a register that has no row of its own takes effect once at the serialisation point, or is refused and counted in PAGE_ERR_COUNT. -/
  | registerWrite (i : Iface) (a : BitVec 24) (data : Word)
  /-- REGISTER_READ_CLEAR (R72): A read of a register that holds clear-on-read counters returns them and clears them in the same access. -/
  | registerReadClear (i : Iface) (a : BitVec 24)
  /-- PORT_ROLE_WRITE (R26): A write of PORT_ROLE is accepted only while ROLE reads OFF, and is otherwise refused and counted. -/
  | portRoleWrite (i : Iface) (port : BitVec 7) (data : Word)
  /-- EDGE_TRANSLATE (R44): A leaf hub translates a rank-addressed message from its TSU to an endpoint, refusing ranks outside the job. -/
  | edgeTranslate (l : LinkId) (sender : BitVec 32) (dsn : Option (BitVec 32)) (m : SignalP)
  /-- ISLAND_CYCLE (R59): Each 1 GHz island cycle adds 2^48 plus the rate word to the hall tick and fraction. -/
  | islandCycle (p : Part)
  /-- SCHEDULED_ACTION_FIRE (R65): An action scheduled at a hall tick fires in the first island cycle in which target minus now is at least zero. -/
  | scheduledActionFire (p : Part)
  /-- ISLAND_LOCK (R57): The island synthesiser locks and sets ISLAND_LOCK. -/
  | islandLock (p : Part)
  /-- ISLAND_LOCK_LOSS (R58): Loss of synthesiser lock clears VALID within 1 µs and raises EV_REF_LOSS. -/
  | islandLockLoss (p : Part)
  /-- HALL_EPOCH_WRITE (R55): A write of HALL_EPOCH on the idle master moves the tick by whole seconds and clears VALID; every other write is refused. -/
  | hallEpochWrite (i : Iface) (data : Word)
  /-- EPOCH_REVALID (R55): 10 ms after an epoch change, or after an alignment step back, the master sets VALID again. -/
  | epochRevalid
  /-- NOW_LO_READ (R71): A read of NOW_LO latches NOW_HI, NOW_TICK and NOW_FRAC for that interface. -/
  | nowLoRead (i : Iface)
  /-- STAMP_EDGE (R76): An edge reaching a stamping point starts an armed converter, or is counted as MISSED. -/
  | stampEdge (k : Point) (tag : FlitTag)
  /-- CONVERSION_DONE (R75): A vernier conversion completes and delivers its stamp T, with UNCAL while the cluster is not READY. -/
  | conversionDone (k : Point) (second : Bool) (n : BitVec 10)
  /-- LOCK_GATE_END (R78): At the end of each 131,328-cycle gate, the cluster loop updates its integrators and trims, setting READY or FAULT. -/
  | lockGateEnd (p : Part) (c : BitVec 5) (fast slow : BitVec 18)
  /-- CAL_NOW (R80): A write of VERN_CTRL.CAL_NOW starts calibration of every cluster. -/
  | calNow (i : Iface) (data : Word)
  /-- CLUSTER_CAL_PERIOD (R80): The CAL_PERIOD_MS timer starts a periodic cluster calibration. -/
  | clusterCalPeriod (p : Part)
  /-- CLUSTER_CAL_DONE (R80): A cluster calibration completes and passes or fails its converters on offset and INL. -/
  | clusterCalDone (p : Part) (c : BitVec 5) (results : List CalResult)
  /-- EMU_START (R92): A write of EMU_CTRL.START begins a measurement set unless one of the refusal cases applies. -/
  | emuStart (i : Iface) (e : BitVec 2) (data : Word)
  /-- EMU_ABORT (R92): A write of EMU_CTRL.ABORT ends the set in progress and sets CAUSE 3. -/
  | emuAbort (i : Iface) (e : BitVec 2) (data : Word)
  /-- EMU_INTERVAL_TIMEOUT (R89): No B stamp within TIMEOUT_NS of T_A discards the sample and counts TIMEOUT. -/
  | emuIntervalTimeout (p : Part) (e : BitVec 2)
  /-- EMU_SET_DONE (R93): After N samples the engine writes MEAN, STDEV, MIN and MAX as one update and sets SET_DONE. -/
  | emuSetDone (p : Part) (e : BitVec 2)
  /-- EMU_MEAN_READ (R93): A read of EMU_MEAN latches EMU_STDEV, EMU_MIN and EMU_MAX of the same set. -/
  | emuMeanRead (i : Iface) (e : BitVec 2)
  /-- EMU_LAST_TICK_READ (R93): A read of EMU_LAST_TICK latches EMU_LAST_FRAC. -/
  | emuLastTickRead (i : Iface) (e : BitVec 2)
  /-- SYNC_ORIGIN (R103): The master originates a SYNC at each of 65,536 origin instants per second. -/
  | syncOrigin (vote : TimeVote)
  /-- SYNC_RECEIVE (R104): A SYNC on the time-parent port is stamped and forwarded, decimated, to the ports that the tier lists. -/
  | syncReceive (l : LinkId) (m : SyncP)
  /-- SYNC_FU_RECEIVE (R107): A SYNC_FU on a port matches a held stamp and forms an offset sample, or is dropped by the Colander. -/
  | syncFuReceive (l : LinkId) (m : SyncFuP)
  /-- SYNC_FU_FORWARD (R105): Once both the incoming SYNC_FU and the outgoing stamp are held, the part sends SYNC_FU with the corrected CORR. -/
  | syncFuForward (l : LinkId) (seq : BitVec 16) (vote : TimeVote)
  /-- FU_TIMEOUT (R106): No SYNC_FU within 12 µs of a SYNC discards its stamp as FU_LOST. -/
  | fuTimeout (l : LinkId) (seq : BitVec 16)
  /-- DREQ_SEND (R101): A port sends a DREQ at its exchange rate, or at the backoff interval while NOT_READY stands. -/
  | dreqSend (l : LinkId)
  /-- DREQ_RECEIVE (R101): The partner answers a DREQ with a DRESP at most 2 µs after its receive stamp. -/
  | dreqReceive (l : LinkId) (m : DreqP)
  /-- DRESP_FU_SEND (R101): Once both stamps have converted, the partner sends DRESP_FU with TURN. -/
  | drespFuSend (l : LinkId) (dseq : BitVec 16)
  /-- DRESP_RECEIVE (R101): The initiator stamps the DRESP receive. -/
  | drespReceive (l : LinkId) (m : DrespP)
  /-- DRESP_FU_RECEIVE (R102): The initiator forms a delay sample and updates the filtered delay D. -/
  | drespFuReceive (l : LinkId) (m : DrespFuP)
  /-- DELAY_RESTART (R102): After 64 consecutive gate drops, the port clears SETTLED and restarts the mean. -/
  | delayRestart (l : LinkId)
  /-- ANNOUNCE_SEND (R109): The master sends a master ANNOUNCE 16 times per second. -/
  | announceSend
  /-- ANNOUNCE_RECEIVE (R109): An ANNOUNCE is held, forwarded, and used for epoch, master, k and GEN decisions. -/
  | announceReceive (l : LinkId) (m : AnnounceP)
  /-- LANE_CAL_PERIOD (R111): The CAL_PERIOD_S timer starts a periodic lane calibration, with the spare standing in. -/
  | laneCalPeriod (p : Part) (port : BitVec 7)
  /-- PT_CAL_NOW (R111): A write of PT_CTRL.CAL_NOW calibrates every lane of the port. -/
  | ptCalNow (i : Iface) (port : BitVec 7) (data : Word)
  /-- LANE_CAL_DONE (R113): A lane calibration ends, and the lane passes or fails on TX_CAL, RX_CAL and STDEV. -/
  | laneCalDone (p : Part) (port : BitVec 7) (lane : BitVec 3) (txCal rxCal : Int) (txDev rxDev : Nat)
  /-- PT_PROBE_WRITE (R118): A write of PT_PROBE sends one PROBE that carries the written TSID. -/
  | ptProbeWrite (i : Iface) (port : BitVec 7) (data : Word)
  /-- PROBE_RECEIVE (R118): A partner stamps a PROBE and answers with PROBE_ECHO when ECHO is 1. -/
  | probeReceive (l : LinkId) (m : ProbeP)
  /-- PROBE_ECHO_RECEIVE (R118): A PROBE_ECHO places a KIND 1 entry holding the partner's receive stamp. -/
  | probeEchoReceive (l : LinkId) (m : ProbeEchoP)
  /-- PT_TSQ_HEAD_READ (R119): A read of PT_TSQ_HEAD pops the head entry and latches PT_TSQ_TICK. -/
  | ptTsqHeadRead (i : Iface) (port : BitVec 7)
  /-- HOLDOVER_ENTER (R129): A lost or silent servo input freezes the rate word; a TSU first tries a lead-plane move. -/
  | holdoverEnter (p : Part)
  /-- HOLD_LIMIT_EXPIRE (R130): HOLDOVER longer than HOLD_LIMIT_MS clears VALID, enters FREE and raises EV_TIME_FAULT. -/
  | holdLimitExpire (p : Part)
  /-- OFFSET_GATE_RUN (R131): 256 consecutive OFFSET_GATE drops raise EV_TIME_FAULT and act as a return sample. -/
  | offsetGateRun (p : Part)
  /-- SERVO_MODE_AUTO (R133): Writing MODE AUTO returns the servo from FREEZE or MANUAL. -/
  | servoModeAuto (i : Iface) (data : Word)
  /-- SERVO_MODE_FREEZE (R133): Writing MODE FREEZE enters HOLDOVER with no holdover limit. -/
  | servoModeFreeze (i : Iface) (data : Word)
  /-- SERVO_MODE_MANUAL (R133): Writing MODE MANUAL clears VALID and runs on RATE_MANUAL. -/
  | servoModeManual (i : Iface) (data : Word)
  /-- REACQUIRE (R133): A write of REACQUIRE clears VALID and enters FREE. -/
  | reacquire (i : Iface) (data : Word)
  /-- CANDIDATE_ANNOUNCE_SEND (R138): A hall hub that is not master sends a candidate ANNOUNCE 16 times per second. -/
  | candidateAnnounceSend (refOk : Bool)
  /-- MASTER_ELECT (R140): After 100 ms of listening, a hall hub with no master and the best key becomes master. -/
  | masterElect
  /-- MASTER_HANDOVER (R141): A write of MASTER_CFG.HANDOVER starts a planned handover to TARGET, or is refused. -/
  | masterHandover (i : Iface) (data : Word)
  /-- HANDOVER_AUTO (R141): A candidate whose CLASS has been better for 2 s becomes the handover target. -/
  | handoverAuto
  /-- HANDOVER_TICK_REACHED (R141): At HANDOVER_TICK the target originates with GEN + 1 and row hubs move their servo input. -/
  | handoverTickReached
  /-- MASTER_LOSS_DETECT (R142): 1 ms with no sample and no SYNC_FU from the master detects master loss. -/
  | masterLossDetect
  /-- MASTER_TAKEOVER (R142): After its wait of p ms, a hall hub becomes master with GEN + 1 and raises EV_TIME_FAULT. -/
  | masterTakeover
  /-- PPS_EDGE (R146): A 1PPS input edge forms θ_pps, loads REF_TOD, or is dropped as INCOHERENT. -/
  | ppsEdge (t : BitVec 80) (uncal : Bool) (vote : TimeVote)
  /-- F10M_SAMPLE (R146): A 10 MHz phase sample forms the PPS_10M reference sample. -/
  | f10mSample (phase : BitVec 32) (vote : TimeVote)
  /-- REF_TOD_WRITE (R147): A write of REF_TOD.SEC names the next 1PPS second and sets PENDING. -/
  | refTodWrite (i : Iface) (data : Word)
  /-- REF_ALIGN (R148): A write of REF_ALIGN steps the master onto its reference. -/
  | refAlign (i : Iface) (data : Word)
  /-- REF_LOSS (R149): A silent reference raises EV_REF_LOSS, freezes the rate word and moves the master to CLASS 1. -/
  | refLoss
  /-- REF_HOLD_EXPIRE (R149): After REF_HOLD_S in CLASS 1, the master moves to CLASS 2. -/
  | refHoldExpire
  /-- REFERENCE_OUTPUT_EDGE (R150): The hub places a 1PPS or 10 MHz output edge from its hall time. -/
  | referenceOutputEdge (pps rising : Bool)
  /-- PTP_ANNOUNCE_RECEIVE (R152): A PTP Announce updates the foreign masters and the UTC fields. -/
  | ptpAnnounceReceive (h : PtpHead) (rank : PtpRank) (utcOffset : BitVec 16) (utcValid leap61 leap59 : Bool)
  /-- PTP_SYNC_RECEIVE (R152): A two-step PTP Sync is stamped at the PCS as t2. -/
  | ptpSyncReceive (h : PtpHead) (twoStep : Bool) (logInterval : BitVec 8) (t2 : BitVec 80) (uncal : Bool)
  /-- PTP_FOLLOW_UP_RECEIVE (R153): A Follow_Up supplies t1 and forms offsetFromMaster. -/
  | ptpFollowUpReceive (h : PtpHead) (sec : BitVec 48) (ns : BitVec 32) (vote : TimeVote)
  /-- PTP_DELAY_REQ_SEND (R153): The PTP port sends a Delay_Req per logMinDelayReqInterval. -/
  | ptpDelayReqSend (t3 : BitVec 80)
  /-- PTP_DELAY_RESP_RECEIVE (R153): A Delay_Resp supplies t4 and updates meanPathDelay. -/
  | ptpDelayRespReceive (h : PtpHead) (requester : PtpPortId) (receipt : PtpStamp) (logInterval : BitVec 8)
  /-- TSU_RESET (R164): tsu_rst_n low clears all TSU state, holds links down and drives triggers inactive. -/
  | tsuReset
  /-- TSU_RESET_RELEASE (R166): The release of tsu_rst_n samples the straps and starts TSU bring-up. -/
  | tsuResetRelease (dieType : BitVec 16) (ref156 : Bool) (taps : BitVec 7)
  /-- HOST_PORT_RESET (R165): hp_rst_n resets only the host port; accepted requests complete with their responses discarded. -/
  | hostPortReset
  /-- HOST_PORT_REQUEST (R169): A request transfers on the host port and is accepted, or refused for a reused tag. -/
  | hostPortRequest (write : Bool) (addr : BitVec 15) (data : Word) (tag : BitVec 4)
  /-- HOST_PORT_RESPONSE (R172): The TSU returns the response to a request in request order, with rsp_err as R171 gives. -/
  | hostPortResponse
  /-- EVENT_INPUT_EDGE (R175): An enabled edge on evt_in records a coarse stamp, sets the bit and increments EDGES. -/
  | eventInputEdge (n : BitVec 4) (falling : Bool)
  /-- TRIGGER_PULSE_START (R176): A scheduled trigger pulse drives its leading edge at its hall tick less IO_ADJ. -/
  | triggerPulseStart (n : BitVec 4)
  /-- TRIGGER_PULSE_END (R176): The trigger output returns inactive TRIG_WIDTH after its latest start. -/
  | triggerPulseEnd (n : BitVec 4)
  /-- WC_ISSUED_BEAT (R179): A wci beat adds its bytes to WC_ISSUED. -/
  | wcIssuedBeat (w : BitVec 2) (bytes : BitVec 16)
  /-- WC_DONE_BEAT (R179): A wcd beat adds its bytes to WC_DONE, which may satisfy fences. -/
  | wcDoneBeat (w : BitVec 2) (bytes : BitVec 16)
  /-- INGRESS_BEAT (R179): An ing beat adds its bytes to INGRESS, which may satisfy arrival tokens. -/
  | ingressBeat (g : BitVec 2) (bytes : BitVec 16)
  /-- ROOT_TIME_FRAME_SEND (R189): The root sends a broadcast TIME frame every sixteenth frame. -/
  | rootTimeFrameSend
  /-- TAP_DLL_LOCK (R191): A tap's DLL locks, and the tap moves from LOCKING to WAIT_TIME. -/
  | tapDllLock (t : BitVec 7)
  /-- STROBE_LOSS (R191): Absence of the strobe puts the tap in OFF. -/
  | strobeLoss (t : BitVec 7)
  /-- TAP_IDLE_FRAME (R188): A tap accepts an IDLE frame, which carries no payload. -/
  | tapIdleFrame (t : BitVec 7) (f : BitVec 128)
  /-- TAP_TIME_FRAME (R190): A TIME frame anchors the strobe count, or reports STROBE_SLIP when it disagrees. -/
  | tapTimeFrame (t : BitVec 7) (f : BitVec 128) (edges : BitVec 32)
  /-- TAP_FRAME_DROP_RUN (R190): Three TIME frames dropped in a row report STROBE_SLIP and return the tap to WAIT_TIME. -/
  | tapFrameDropRun (t : BitVec 7)
  /-- TAP_LAUNCH_FRAME (R194): A tap queues a LAUNCH, or refuses it as LATE when less than 1,024 ns ahead. -/
  | tapLaunchFrame (t : BitVec 7) (f : BitVec 128) (edges : BitVec 32)
  /-- TAP_CANCEL_FRAME (R188): A CANCEL frame removes the named launch, or every queued launch. -/
  | tapCancelFrame (t : BitVec 7) (f : BitVec 128)
  /-- TAP_CFG_FRAME (R212): A CFG frame writes a tap register and answers with a CFG_ACK report. -/
  | tapCfgFrame (t : BitVec 7) (f : BitVec 128)
  /-- TAP_NB_TEST_FRAME (R188): The addressed tap drives its notice output for 64 strobe periods. -/
  | tapNbTestFrame (t : BitVec 7) (f : BitVec 128)
  /-- ROOT_HELD_LAUNCH_SEND (R194): The root sends a held launch as soon as an entry leaves the tap's queue. -/
  | rootHeldLaunchSend (t : BitVec 7)
  /-- LAUNCH_HOLD_EXPIRE (R194): A held launch that can no longer be sent 2 µs ahead is counted MISSED and raises EV_LAUNCH_MISS. -/
  | launchHoldExpire (t : BitVec 7)
  /-- TAP_ARM (R195): The tap raises its armed level when its time reaches TARGET plus FRAC. -/
  | tapArm (t : BitVec 7) (time : TapTime)
  /-- TAP_LAUNCH_EDGE (R196): The first region edge that samples the armed level drives launch_out, and the tap reports LAUNCHED. -/
  | tapLaunchEdge (t : BitVec 7) (time : TapTime) (n : BitVec 64)
  /-- STRETCH_INDICATION_RISE (R201): The tap samples a stretch indication and raises hold and notice out. -/
  | stretchIndicationRise (t : BitVec 7)
  /-- STRETCH_INDICATION_FALL (R201): The indication falls; notice out falls, the episode ends, and S is updated and reported. -/
  | stretchIndicationFall (t : BitVec 7) (time : TapTime) (n : BitVec 64)
  /-- HOLD_EXT_EXPIRE (R201): HOLD_EXT edges after the notice fall, hold falls. -/
  | holdExtExpire (t : BitVec 7)
  /-- NEIGHBOUR_NOTICE_RISE (R201): A synchronised rise on an enabled notice input raises hold. -/
  | neighbourNoticeRise (t : BitVec 7) (input : BitVec 3)
  /-- NEIGHBOUR_NOTICE_FALL (R201): A synchronised fall on a notice input starts the hold extension. -/
  | neighbourNoticeFall (t : BitVec 7) (input : BitVec 3)
  /-- PNOM_MEASURED (R199): After 64 cycles the tap sets P_NOM and enters ALIGNED, or REALIGNED after a frequency change. -/
  | pnomMeasured (t : BitVec 7) (cycles : List (BitVec 24 × Bool))
  /-- NB_CHECK (R203): A write of TAP_GLOBAL.NB_CHECK runs the neighbour check when every launch queue is empty. -/
  | nbCheck (i : Iface) (data : Word)
  /-- NB_TEST_NOTICE_SEEN (R203): A tap that sees an NB_TEST pulse on an enabled input reports NB_SEEN. -/
  | nbTestNoticeSeen (t : BitVec 7) (input : BitVec 3) (sender : BitVec 7)
  /-- NB_CHECK_DONE (R203): The root compares the NB_SEEN reports with NB_ID and sets NB_MISMATCH and NB_DONE. -/
  | nbCheckDone
  /-- FC_REQUEST (R204): fc_req rises; the tap acknowledges within 16 ns and enters FC, unless a launch defers it. -/
  | fcRequest (t : BitVec 7) (time : TapTime)
  /-- FC_ACK_DEFER_END (R205): A deferred fc_ack rises after the near launch edge, or after 10 µs. -/
  | fcAckDeferEnd (t : BitVec 7)
  /-- FC_REQUEST_DROP (R204): At restart fc_req falls, and the tap drops fc_ack and reports FC RESTARTED. -/
  | fcRequestDrop (t : BitVec 7)
  /-- FC_STOP_OVERRUN (R206): A frequency-change stop beyond 2 µs gives OVERRUN FC_STOP. -/
  | fcStopOverrun (t : BitVec 7)
  /-- REGION_STOP (R207): No region edge for 1 µs, or 20 µs in a frequency change, gives a REGION_STOP loss. -/
  | regionStop (t : BitVec 7)
  /-- REGION_FREQ_WINDOW (R207): At the end of each 65.536 µs window, the tap tests REGION_FREQ and clears standing losses. -/
  | regionFreqWindow (t : BitVec 7) (mean : BitVec 40) (stopped : Bool)
  /-- TAP_SILENT (R207): No report from a tap for 24.576 µs makes the root treat it as OFF. -/
  | tapSilent (t : BitVec 7)
  /-- REPLICA_WINDOW_END (R209): At the end of a 4,096-cycle window, the tap stores C and sets or clears MARGIN LOW. -/
  | replicaWindowEnd (t : BitVec 7) (count : BitVec 32)
  /-- TAP_REPORT_SEND (R210): A tap sends its queued reports on the report line, dropping the newest when the queue is full. -/
  | tapReportSend (t : BitVec 7)
  /-- HEARTBEAT_REPORT (R211): The root receives a HEARTBEAT report and updates its copy of the tap state. -/
  | heartbeatReport (t : BitVec 7) (r : BitVec 64)
  /-- LAUNCHED_REPORT (R197): The root receives LAUNCHED, updates TAP_LAUNCH, and raises EV_STRETCH_OVERRUN on LATE. -/
  | launchedReport (t : BitVec 7) (r : BitVec 64)
  /-- SLACK_REPORT (R198): The root receives SLACK and updates TAP_SLACK. -/
  | slackReport (t : BitVec 7) (r : BitVec 64)
  /-- OVERRUN_REPORT (R200): The root receives OVERRUN and raises EV_STRETCH_OVERRUN. -/
  | overrunReport (t : BitVec 7) (r : BitVec 64)
  /-- FC_REPORT (R204): The root receives an FC report of ACKED, RESTARTED or REALIGNED. -/
  | fcReport (t : BitVec 7) (r : BitVec 64)
  /-- MARGIN_REPORT (R209): The root receives MARGIN and raises EV_MARGIN_LOW when it is low. -/
  | marginReport (t : BitVec 7) (r : BitVec 64)
  /-- REF_LOSS_REPORT (R207): The root receives REF_LOSS and raises EV_REF_LOSS within 2 µs. -/
  | refLossReport (t : BitVec 7) (r : BitVec 64)
  /-- CFG_ACK_REPORT (R212): The root receives CFG_ACK and releases the held write response. -/
  | cfgAckReport (t : BitVec 7) (r : BitVec 64)
  /-- NB_SEEN_REPORT (R203): The root receives NB_SEEN for the neighbour check. -/
  | nbSeenReport (t : BitVec 7) (r : BitVec 64)
  /-- TAP_REGISTER_WRITE (R212): A write of a tap register goes out as a CFG frame, and its response waits for CFG_ACK. -/
  | tapRegisterWrite (i : Iface) (reg : BitVec 4) (data : Word)
  /-- TAP_LAUNCH_READ (R212): A read of TAP_LAUNCH latches TAP_LAUNCH_TICK. -/
  | tapLaunchRead (i : Iface)
  /-- SO_CFG_WRITE (R217): An SO_CFG write creates, reconfigures or frees a slot, or is refused. -/
  | soCfgWrite (i : Iface) (data : Word)
  /-- SO_OP_ARRIVE (R220): SO_OP ARRIVE sets ARRIVED and sends an ARRIVE flit, or is refused. -/
  | soOpArrive (i : Iface) (data : Word)
  /-- SO_OP_ADD (R230): SO_OP ADD adds to VALUE, saturating. -/
  | soOpAdd (i : Iface) (data : Word)
  /-- SO_OP_SET (R230): SO_OP SET sets VALUE. -/
  | soOpSet (i : Iface) (data : Word)
  /-- SO_OP_CLEAR (R230): SO_OP CLEAR sets VALUE to zero. -/
  | soOpClear (i : Iface) (data : Word)
  /-- SO_OP_SEND (R232): SO_OP SEND queues a signal with its fence cover, or is held while the queue is full. -/
  | soOpSend (i : Iface) (data : Word)
  /-- SO_OP_OPEN_WINDOW (R237): SO_OP OPEN_WINDOW sets WBASE to INGRESS and opens the window. -/
  | soOpOpenWindow (i : Iface) (data : Word)
  /-- ARRIVE_RECEIVE (R222): A leaf hub checks a TSU's ARRIVE for fencing and duplication, records it and forwards it upward. -/
  | arriveReceive (l : LinkId) (sender : BitVec 32) (dsn : Option (BitVec 32)) (m : ArriveP)
  /-- ARRIVE_PARTIAL_FORWARD (R223): An intermediate hub forwards an arrival partial, folding it into a queued one. -/
  | arrivePartialForward (l : LinkId) (sender : BitVec 32) (dsn : Option (BitVec 32)) (m : ArriveP)
  /-- BARRIER_PARTIAL_FOLD (R224): The lead adds a partial to COUNT, drops it as STALE or EXCESS, and mirrors the new COUNT. -/
  | barrierPartialFold (l : LinkId) (sender : BitVec 32) (dsn : Option (BitVec 32)) (m : ArriveP)
  /-- TWIN_RELEASE_RECEIVE (R225): The other home member applies GEN and COUNT and sends the RELEASE down its own plane. -/
  | twinReleaseReceive (l : LinkId) (m : ReleaseP)
  /-- RELEASE_REPLICATE (R408): The Ladle replicates a downward RELEASE to its group mask, less the fenced ports. -/
  | releaseReplicate (l : LinkId) (m : Msg)
  /-- RELEASE_RECEIVE (R226): A TSU completes, schedules, or drops a barrier RELEASE. -/
  | releaseReceive (l : LinkId) (m : ReleaseP)
  /-- TIMED_RELEASE_COMPLETE (R226): A TIMED release completes at its tick, incrementing GEN and clearing ARRIVED. -/
  | timedReleaseComplete (slot : BitVec 12)
  /-- SEND_FENCE_MET (R233): When WC_DONE covers every fenced channel, the queued SEND leaves as a SIGNAL. -/
  | sendFenceMet
  /-- SEND_QUEUE_SPACE (R234): A SEND held for space enters the queue when an entry frees, and its response leaves. -/
  | sendQueueSpace
  /-- SEND_TIMEOUT (R234): A queued SEND's Egg timer expires; the SEND is discarded and EV_WAIT_TIMEOUT SUB 1 is raised. -/
  | sendTimeout (k : BitVec 4)
  /-- SIGNAL_RECEIVE (R238): A TSU takes a SIGNAL into effect or pending, or refuses it as REMOTE_REFUSED. -/
  | signalReceive (l : LinkId) (m : SignalP)
  /-- SIGNAL_TAKE_EFFECT (R238): A pending signal takes effect once its window's ingress progress reaches BYTES. -/
  | signalTakeEffect
  /-- WAIT_ARM (R244): WAIT_ARM.ARM arms host wait i, or is refused when it is already armed. -/
  | waitArm (i : Iface) (data : Word)
  /-- WAIT_CANCEL (R244): WAIT_ARM.CANCEL ends an armed host wait with RESULT 0. -/
  | waitCancel (i : Iface) (data : Word)
  /-- WAIT_COMPLETE (R240): A wait on a sync object completes when its condition holds. -/
  | waitComplete (w : Option (BitVec 4))
  /-- FLAG_AUTOCLR (R231): An AUTOCLR flag clears in the cycle after a wait on it completes. -/
  | flagAutoclr (slot : BitVec 12)
  /-- WAIT_TIMEOUT (R243): An Egg timer expires, the wait ends as timed out, and EV_WAIT_TIMEOUT is raised. -/
  | waitTimeout (t : EggTimer)
  /-- SO_VAL_WRITE (R247): An SO_VAL write sets VALUE while paused, and otherwise acts only on SATURATED. -/
  | soValWrite (i : Iface) (data : Word)
  /-- SO_GEN_WRITE (R247): An SO_GEN write is accepted only while the job is paused. -/
  | soGenWrite (i : Iface) (data : Word)
  /-- WIN_PROGRESS_WRITE (R247): A PROGRESS write while paused sets WBASE and opens the window. -/
  | winProgressWrite (i : Iface) (data : Word)
  /-- SH_GEN_WRITE (R247): An SH_GEN write is accepted only while paused, on a hub that holds the entry. -/
  | shGenWrite (i : Iface) (data : Word)
  /-- SH_COUNT_WRITE (R247): An SH_COUNT write is accepted only while paused, on a hub that holds the entry, with a legal value. -/
  | shCountWrite (i : Iface) (data : Word)
  /-- RELEASE_LEAD_NS_WRITE (R249): A write of SH_JOB.RELEASE_LEAD_NS on a home member takes effect on both members. -/
  | releaseLeadNsWrite (i : Iface) (data : Word)
  /-- LAUNCH_GUARD_MISS (R252): No authority held at target minus GUARD_NS: the TSU does not launch and raises EV_LAUNCH_MISS. -/
  | launchGuardMiss
  /-- JOB_LAUNCH (R254): At L0 every member launches the first step and the home sets PLAN_BASE. -/
  | jobLaunch (site : Site)
  /-- STEP_LAUNCH (R261): At L_next the TSU increments its step index, records STEP_LAST and starts the sequencer and STEP triggers. -/
  | stepLaunch
  /-- STEP_RELEASE_RECEIVE (R260): A TSU schedules the next launch from a STEP_RELEASE, or drops, refuses or counts it. -/
  | stepReleaseReceive (l : LinkId) (m : StepReleaseP)
  /-- TRIG_MODE_WRITE (R266): A TRIG_MODE write is accepted only with the output disabled and the period test passed. -/
  | trigModeWrite (i : Iface) (data : Word)
  /-- TRIG_PARAM_WRITE (R266): A write of TRIG_OFFSET, TRIG_PERIOD or TRIG_PHASE is refused while the output is enabled. -/
  | trigParamWrite (i : Iface) (which : BitVec 2) (data : Word)
  /-- TRIG_ONESHOT_WRITE (R266): A TRIG_ONESHOT write schedules one pulse after the R64 test. -/
  | trigOneshotWrite (i : Iface) (data : Word)
  /-- LATENESS_SET_END (R269): A completed set of 2^K lateness samples is reduced to MEAN, STDEV, MIN and MAX. -/
  | latenessSetEnd (job : BitVec 12) (rank : BitVec 20)
  /-- LATENESS_BLOCK_END (R270): A 256-sample block mean flags a straggler with EV_STRAGGLER, or clears the flag. -/
  | latenessBlockEnd (job : BitVec 12) (rank : BitVec 20)
  /-- LT_CFG_WRITE (R269): A change to LT_CFG restarts the lateness statistics. -/
  | ltCfgWrite (i : Iface) (data : Word)
  /-- LT_MEAN_READ (R274): A read of LT_MEAN latches LT_STDEV, LT_MIN and LT_MAX. -/
  | ltMeanRead (i : Iface)
  /-- PROG_BEGIN (R277): PROG_CTRL.BEGIN discards the program and enters LOADING, or is refused. -/
  | progBegin (i : Iface) (data : Word)
  /-- PROG_COMMIT (R277): PROG_CTRL.COMMIT starts the check of the loaded words. -/
  | progCommit (i : Iface) (data : Word)
  /-- PROG_DATA_WRITE (R277): A PROG_DATA write stores a word and advances PROG_ADDR, or is refused. -/
  | progDataWrite (i : Iface) (data : Word)
  /-- PROG_ADDR_WRITE (R277): A PROG_ADDR write sets the load address, or is refused. -/
  | progAddrWrite (i : Iface) (data : Word)
  /-- PROG_CHECK_DONE (R278): The check ends in LOADED with the SHA-384 digest, or in EMPTY with a RESULT. -/
  | progCheckDone (site : Site)
  /-- HOME_PASS_START (R286): Both home members start a pass of the home section at the launch tick. -/
  | homePassStart (job : BitVec 12)
  /-- NOP (R282): No effect. -/
  | nop (site : Site)
  /-- END (R284): Ends the home pass, updates the VARY maps and frees unreleased buffers. -/
  | endPass (site : Site)
  /-- JMP (R282): Jumps to the target. -/
  | jmp (site : Site)
  /-- BR (R282): Jumps when the condition holds. -/
  | br (site : Site)
  /-- LOOP (R282): Decrements X[A] and jumps when it is not zero. -/
  | loop (site : Site)
  /-- LDI (R282): Loads a sign-extended immediate. -/
  | ldi (site : Site)
  /-- LDHI (R282): Loads the top 20 bits of X[A]. -/
  | ldhi (site : Site)
  /-- ALU (R282): Applies FN to X[A] and v. -/
  | alu (site : Site)
  /-- LDSTEP (R282): Loads the pass's step index. -/
  | ldstep (site : Site)
  /-- LDRANK (R282): Loads the die's logical rank. -/
  | ldrank (site : Site)
  /-- WHISK (R365): Loads the low 64 bits of Whisk. -/
  | whisk (site : Site)
  /-- LDTIME (R282): Loads the hall tick at issue (VARY). -/
  | ldtime (site : Site)
  /-- LDLAUNCH (R282): Loads the pass's launch tick (VARY). -/
  | ldlaunch (site : Site)
  /-- LDEVT (R282): Loads the last coarse stamp of an event input (VARY). -/
  | ldevt (site : Site)
  /-- LDSO (R282): Loads a slot's VALUE or GEN (VARY). -/
  | ldso (site : Site)
  /-- LDBUF (R282): Loads an XBUF word. -/
  | ldbuf (site : Site)
  /-- STBUF (R290): Stores to an XBUF word, waiting while the word is held. -/
  | stbuf (site : Site)
  /-- ARRIVE (R220): Arrives on a barrier slot. -/
  | arrive (site : Site)
  /-- SOADD (R230): Adds v to a slot. -/
  | soadd (site : Site)
  /-- SOSET (R230): Sets a slot. -/
  | soset (site : Site)
  /-- SOCLR (R230): Clears a slot. -/
  | soclr (site : Site)
  /-- OPENWIN (R237): Opens an ingress window. -/
  | openwin (site : Site)
  /-- FENCE (R282): Takes the write-completion covers and waits for them. -/
  | fence (site : Site)
  /-- FENCE_COMPLETE (R282): WC_DONE covers every masked channel, and the sequencer continues. -/
  | fenceComplete
  /-- SEND (R234): Issues a SEND from registers, waiting only for queue space. -/
  | send (site : Site)
  /-- WAIT (R240): Arms a step-program wait on a slot. -/
  | wait (site : Site)
  /-- WAITEVT (R282): Waits for the next recorded edge on an event input. -/
  | waitevt (site : Site)
  /-- WAITEVT_COMPLETE (R282): An edge is recorded after issue, and the sequencer continues. -/
  | waitevtComplete
  /-- WAITTICK (R282): Waits until the launch tick plus v. -/
  | waittick (site : Site)
  /-- WAITTICK_COMPLETE (R528): The WAITTICK target is reached, and the sequencer continues. -/
  | waittickComplete
  /-- TRIG (R265): Schedules a PROGRAM-mode pulse at the launch tick plus v. -/
  | trig (site : Site)
  /-- STEPEND (R337): Sends DGP and VMAP, arrives on STEP_OBJ, and ends the pass. -/
  | stepend (site : Site)
  /-- CONTRIB (R309): Sends XBUF elements to a context as CONTRIB flits, dropping elements beyond L. -/
  | contrib (site : Site)
  /-- RESULT (R324): Waits for result elements and copies them to XBUF. -/
  | result (site : Site)
  /-- RESULT_COMPLETE (R324): The awaited result elements are held, and RESULT or RESULTX completes. -/
  | resultComplete
  /-- RESULTX (R282): Waits, then loads one result element into X[A]. -/
  | resultx (site : Site)
  /-- DIGEST (R336): Folds a 128-bit value into the lane accumulators, sending a CHECK flit where required. -/
  | digest (site : Site)
  /-- HWAIT (R282): Waits until a context is complete for the pass's step. -/
  | hwait (site : Site)
  /-- HWAIT_COMPLETE (R308): The context completes, and the home engine continues. -/
  | hwaitComplete (job : BitVec 12)
  /-- FINISH (R319): Applies the context's finish chain with the run-time operand. -/
  | finish (site : Site) (faults : List FoldFault)
  /-- HRELEASE (R322): Rounds and releases the context's result flits to the Ladle or to the ranks. -/
  | hrelease (site : Site) (faults : List FoldFault)
  /-- HDIGEST (R338): Starts the close of the step's digests. -/
  | hdigest (site : Site)
  /-- HDIGEST_FOLDS_COMPLETE (R338): With every fold and CHECK flit held, the lead checks counts, groups and provenance. -/
  | hdigestFoldsComplete (job : BitVec 12)
  /-- TWIN_CLOSE_RECEIVE (R338): The lead compares the other member's close, raises the mismatches and appends the STEP record. -/
  | twinCloseReceive (l : LinkId) (d : DgpP) (v : VmapP)
  /-- TWIN_CLOSE_TIMEOUT (R338): No close within 20 µs flags TWIN_MISSING, and the lead completes. -/
  | twinCloseTimeout (job : BitVec 12)
  /-- XBUF_HOST_WRITE (R290): A host write to XBUF is refused for a held word, and otherwise stored. -/
  | xbufHostWrite (i : Iface) (word : BitVec 13) (data : Word)
  /-- RESULT_FLIT_RECEIVE (R291): A TSU checks RRES and keeps a result flit in its store, or drops it as stale or bad. -/
  | resultFlitReceive (l : LinkId) (m : ResultP)
  /-- CONTRIB_RECEIVE (R311): A hub below the home folds a CONTRIB into a PARTIAL, or forwards it unchanged. -/
  | contribReceive (l : LinkId) (sender : BitVec 32) (dsn : Option (BitVec 32)) (m : ContribP) (faults : List FoldFault)
  /-- PARTIAL_RECEIVE (R311): A hub folds a received PARTIAL into a queued one, or forwards it. -/
  | partialReceive (l : LinkId) (sender : BitVec 32) (dsn : Option (BitVec 32)) (m : PartlP) (faults : List FoldFault)
  /-- HOME_CONTRIB_FOLD (R312): A home member folds a contribution into its step buffer and copies it to the twin. -/
  | homeContribFold (l : LinkId) (sender : BitVec 32) (dsn : Option (BitVec 32)) (m : Msg) (faults : List FoldFault)
  /-- REFUSE_RECEIVE (R314): A TSU receives REFUSE, halts with RESERVATION, and counts it. -/
  | refuseReceive (l : LinkId) (m : RefuseP)
  /-- REREQ_RECEIVE (R322): A home member re-sends a kept result flit, or counts the request as STALE. -/
  | rereqReceive (l : LinkId) (m : RereqP)
  /-- RESULT_REREQUEST_TIMER (R392): A RESULT waiting 50 µs re-requests its elements on the other link. -/
  | resultRerequestTimer
  /-- TWIN_RRES_COMPARE (R393): The other member compares a released RRES with its own and poisons the step on a difference. -/
  | twinRresCompare (l : LinkId) (m : ResultP)
  /-- DGP_RECEIVE (R337): A hub folds a DGP partial, or drops it as stale. -/
  | dgpReceive (l : LinkId) (sender : BitVec 32) (dsn : Option (BitVec 32)) (m : DgpP)
  /-- VMAP_RECEIVE (R337): A hub folds a VMAP, or drops it as stale. -/
  | vmapReceive (l : LinkId) (sender : BitVec 32) (dsn : Option (BitVec 32)) (m : VmapP)
  /-- CHECK_RECEIVE (R342): The home stores a CHECK value, completes groups, or drops it as stray or out of range. -/
  | checkReceive (l : LinkId) (sender : BitVec 32) (dsn : Option (BitVec 32)) (m : CheckP)
  /-- STEP_POISON_RECEIVE (R394): A member TSU raises a STEP_POISON record and sets EQ_POISON and STEP_FAULT. -/
  | stepPoisonReceive (l : LinkId) (m : StepPoisonP)
  /-- AUD_TAIL_WRITE (R355): A write of AUD_TAIL frees records, or is refused. -/
  | audTailWrite (i : Iface) (data : Word)
  /-- AUD_CFG_WRITE (R349): A SIZE_GIB change frees every record held; it is refused while EN is 1. -/
  | audCfgWrite (i : Iface) (data : Word)
  /-- AUD_CTRL_WRITE (R354): A write of AUD_CTRL enables or disables record writing and export. -/
  | audCtrlWrite (i : Iface) (data : Word)
  /-- AUD_RD0_READ (R358): A read of AUD_RD0 latches the rest of the record. -/
  | audRd0Read (i : Iface)
  /-- AUDIT_EXPORT_SEND (R356): The controller sends audit records in index order over UDP. -/
  | auditExportSend
  /-- VREC_RECEIVE (R369): A leaf hub appends a VREC to its replay ring and mirrors it. -/
  | vrecReceive (l : LinkId) (sender : BitVec 32) (dsn : Option (BitVec 32)) (m : VrecP)
  /-- RQ_PUSH (R371): A write of RQ_PUSH pushes a replay entry, or is refused when the queue is full. -/
  | rqPush (i : Iface) (data : Word)
  /-- RQ_FLUSH (R377): A write of RQ_STATUS.FLUSH empties the replay queue unless a pass runs. -/
  | rqFlush (i : Iface) (data : Word)
  /-- HQ_PUSH (R372): A write of HQ_PUSH pushes a home replay entry. -/
  | hqPush (i : Iface) (data : Word)
  /-- REPLAY_WAIT_SERVED (R371): A VARY word waiting on an empty replay queue takes the pushed entry. -/
  | replayWaitServed (site : Site)
  /-- RL_TAIL_WRITE (R378): A write of RL_TAIL frees replay entries, or is refused. -/
  | rlTailWrite (i : Iface) (data : Word)
  /-- RL_RD0_READ (R378): A read of RL_RD0 latches the rest of the entry. -/
  | rlRd0Read (i : Iface)
  /-- DET_FW_WRITE (R361): A DET_FW or DET_UNITMAP write is refused while the die's job is not paused. -/
  | detFwWrite (i : Iface) (which : BitVec 3) (data : Word)
  /-- COALESCE_WINDOW_END (R383): At the end of a 1 ms window, pending identical events form one record with COALESCED. -/
  | coalesceWindowEnd (p : Part)
  /-- EVREC_RECEIVE (R385): A leaf hub writes a received event record to its event ring. -/
  | evrecReceive (l : LinkId) (sender : BitVec 32) (dsn : Option (BitVec 32)) (m : EvrecP)
  /-- EVENT_EXPORT_SEND (R386): The controller exports event records in index order, counting those overwritten as LOST. -/
  | eventExportSend
  /-- EVENT_REREQUEST_RECEIVE (R387): A re-request datagram re-sends the records still held, or is dropped. -/
  | eventRerequestReceive (ip : BitVec 32) (port : BitVec 16) (data : List (BitVec 8))
  /-- EQ_W0_READ (R411): A read of EQ_W0 pops the head record and latches the rest of it. -/
  | eqW0Read (i : Iface)
  /-- EV_RD0_READ (R412): A read of EV_RD0 latches the rest of the record, or counts a bad index. -/
  | evRd0Read (i : Iface)
  /-- HISTORY_APPEND (R396): The controller appends a history entry to flash within 1 s, compacting when full. -/
  | historyAppend
  /-- KAT_RUN_DONE (R398): A lane's known-answer run completes, and the lane enters SHADOW or is charged. -/
  | katRunDone (unit : BitVec 16) (pass : Bool)
  /-- ROTATION_START (R399): The ROT_PERIOD_S timer starts a rotation. -/
  | rotationStart
  /-- ROT_NOW (R399): A write of ROT_NOW starts a rotation. -/
  | rotNow (i : Iface) (data : Word)
  /-- SHADOW_END (R400): After 64 consecutive clean steps, a shadow unit carries results. -/
  | shadowEnd (unit : BitVec 16)
  /-- DACK_RECEIVE (R401): A cumulative DACK frees acknowledged flits at the sender. -/
  | dackReceive (l : LinkId) (m : DackP)
  /-- TWIN_HEARTBEAT_SEND (R403): A hub sends HEARTBEAT on each TWIN port in each microsecond without traffic. -/
  | twinHeartbeatSend
  /-- HEARTBEAT_RECEIVE (R403): A HEARTBEAT updates the heard-neighbour state, and a TSU heartbeat feeds the detector. -/
  | heartbeatReceive (l : LinkId) (m : HeartbeatP)
  /-- LEAD_TAKEOVER (R404): A silent lead, confirmed by the shared neighbours, is replaced by its twin with LEAD_GEN + 1. -/
  | leadTakeover
  /-- SHADOW_COPY_DONE (R405): A rejoining hub finishes copying job state from its twin and computes alongside. -/
  | shadowCopyDone
  /-- TSU_HEARTBEAT_SEND (R406): A TSU sends a heartbeat on both links every 10 µs. -/
  | tsuHeartbeatSend
  /-- HEARTBEAT_LOSS (R406): No heartbeat, or both links down, for HB_LOSS_US declares the die dead. -/
  | heartbeatLoss (l : LinkId)
  /-- ARRIVAL_TIMEOUT (R406): A missing STEP_OBJ arrival at ARR_TIMEOUT_US accrues a timeout; the third declares the die dead. -/
  | arrivalTimeout (job : BitVec 12) (rank : BitVec 20)
  /-- TXN_SUBMIT (R425): TXN_CTRL.SUBMIT checks the body and assigns a TID, or refuses it. -/
  | txnSubmit (i : Iface) (data : Word)
  /-- TXN_APPEND (R420): TXN_CTRL.APPEND appends a mailbox chunk to the body and mirrors it. -/
  | txnAppend (i : Iface) (data : Word)
  /-- TXN_CANCEL (R434): TXN_CTRL.CANCEL aborts a queued or uncommitted transaction. -/
  | txnCancel (i : Iface) (data : Word)
  /-- TXN_RESET_BODY (R420): TXN_CTRL.RESET_BODY discards the body being built. -/
  | txnResetBody (i : Iface) (data : Word)
  /-- TXN_LOCK_TAKE (R426): A transaction takes its partition's lock and sends PREPARE, or aborts as TICK_PASSED. -/
  | txnLockTake (tid : BitVec 16)
  /-- PREPARE_RECEIVE (R426): A target stages the actions and votes, or defers its vote. -/
  | prepareReceive (l : LinkId) (m : PrepareP)
  /-- DEFERRED_VOTE (R428): When the blocking drain ends, the deferred target votes on the freed state. -/
  | deferredVote (p : Part) (partition : BitVec 13)
  /-- VOTE_RECEIVE (R429): Votes are folded and counted; all yes sends COMMIT, and a no sends ABORT. -/
  | voteReceive (l : LinkId) (m : VoteP) (arrived : List (BitVec 20 × BitVec 16)) (passed : List (BitVec 20 × BitVec 12 × BitVec 64))
  /-- VOTE_TIMEOUT (R429): VOTE_BY passing with a vote missing aborts the transaction. -/
  | voteTimeout (tid : BitVec 16)
  /-- COMMIT_RECEIVE (R430): A target holds COMMIT for its commit tick, dropping a duplicate. -/
  | commitReceive (l : LinkId) (m : CommitP)
  /-- TXN_COMMIT_APPLY (R430): At COMMIT_TICK the target flips to the staged version and reports DONE. -/
  | txnCommitApply (p : Part) (partition : BitVec 13)
  /-- NO_COMMIT (R431): A target with no COMMIT by COMMIT_TICK minus GUARD does not apply and raises EV_TXN_ABORT. -/
  | noCommit (p : Part) (partition : BitVec 13)
  /-- ABORT_RECEIVE (R429): A target discards its staging version and returns its reservations. -/
  | abortReceive (l : LinkId) (m : AbortP)
  /-- DONE_RECEIVE (R432): The coordinator collects DONE or DRAINED and releases the lock. -/
  | doneReceive (l : LinkId) (m : DoneP) (drained : Bool)
  /-- TXN_REPORT_TIMEOUT (R432): 100 µs after COMMIT_TICK with a report missing, the coordinator shows PARTIAL. -/
  | txnReportTimeout (tid : BitVec 16)
  /-- GRACE_END (R416): 50 µs after a flip, previous-epoch flits stop being accepted. -/
  | graceEnd (p : Part) (job : BitVec 12)
  /-- PAUSE_MARK_RECEIVE (R437): A member TSU receives PAUSE_MARK and waits until it is quiescent. -/
  | pauseMarkReceive (l : LinkId) (m : PauseMarkP)
  /-- PAUSE_REPLY_SEND (R437): A quiescent member sends PAUSE_REPLY. -/
  | pauseReplySend
  /-- PAUSE_REPLY_RECEIVE (R437): When every member has replied and the home pass has ended, the lead sets PAUSED. -/
  | pauseReplyReceive (l : LinkId) (m : PauseReplyP)
  /-- DRAIN_DONE (R440): A TEARDOWN drain ends: resources are freed, the partition is NONE and DRAINED is reported. -/
  | drainDone (p : Part) (job : BitVec 12)
  /-- ABORT_CMD (R442): A write of ABORT_CMD aborts the job, or forwards the command to the lead. -/
  | abortCmd (i : Iface) (data : Word)
  /-- JOB_ABORT_RECEIVE (R442): A part enters ABORTED, ends its waits and passes, discards its queues and acknowledges. -/
  | jobAbortReceive (l : LinkId) (m : JobAbortP)
  /-- ABORT_ACK_RECEIVE (R443): The lead counts abort acknowledgements and sets ABORT_DONE. -/
  | abortAckReceive (l : LinkId) (m : DoneP) (member : Bool)
  /-- REPORT_RECEIVE (R252): The home receives a REPORT of a launch miss, halt, no-commit or endpoint conflict, and acts. -/
  | reportReceive (l : LinkId) (m : ReportP)
  /-- CODEWORD_RECEIVE (R453): A lane receives a codeword; an uncorrectable one drops its flits, and bad flits are dropped. -/
  | codewordReceive (p : Part) (port : BitVec 7) (lane : BitVec 3) (bad corrected : Bool) (slots : List (BitVec 512))
  /-- LACK_RECEIVE (R458): A cumulative LACK frees flits from the replay buffer. -/
  | lackReceive (l : LinkId) (m : LackP)
  /-- LNAK_RECEIVE (R458): An LNAK replays from the named LSEQ; eight on one LSEQ enter RETRAIN. -/
  | lnakReceive (l : LinkId) (m : LnakP)
  /-- RETRY_STALL (R459): Retried flits unacknowledged for 100 µs put the link into RETRAIN. -/
  | retryStall (l : LinkId)
  /-- CREDIT_RECEIVE (R460): A CREDIT flit adds credit, or sets it absolutely with FULL. -/
  | creditReceive (l : LinkId) (m : CreditP)
  /-- NOT_READY_SEND (R461): A part with VALID 0, or a hub not READY, sends NOT_READY every 10 µs. -/
  | notReadySend (p : Part)
  /-- NOT_READY_RECEIVE (R461): NOT_READY zeroes non-MGMT credit and starts the DREQ backoff. -/
  | notReadyReceive (l : LinkId) (m : NotReadyP)
  /-- LANE_LOCK_LOSS (R462): A data lane loses lock and triggers a spare-lane remap. -/
  | laneLockLoss (p : Part) (port : BitVec 7) (lane : BitVec 3)
  /-- SER_LIMIT_EXCEEDED (R462): Corrected symbols beyond SER_LIMIT over 2^20 codewords trigger a remap. -/
  | serLimitExceeded (p : Part) (port : BitVec 7) (lane : BitVec 3)
  /-- REMAP_NOW (R462): A write of LK_CTRL.REMAP_NOW remaps REMAP_LANE. -/
  | remapNow (i : Iface) (port : BitVec 7) (data : Word)
  /-- REMAP_REQ_RECEIVE (R464): The partner accepts, answers BUSY, or resolves a collision. -/
  | remapReqReceive (l : LinkId) (m : RemapReqP)
  /-- REMAP_ACK_RECEIVE (R463): On ACCEPT the initiator sends REMAP_AT with a future CWC. -/
  | remapAckReceive (l : LinkId) (m : RemapAckP)
  /-- REMAP_AT_RECEIVE (R463): The partner holds the switch codeword. -/
  | remapAtReceive (l : LinkId) (m : RemapAtP)
  /-- SPW_ACK_RISE (R463): The optics module raises SPW_ACK for the spare wavelength. -/
  | spwAckRise (p : Part) (port : BitVec 7)
  /-- SPARE_CLEAN (R463): The spare receiver decodes 64 clean codewords in step. -/
  | spareClean (p : Part) (port : BitVec 7) (cwc : BitVec 14)
  /-- REMAP_SWITCH (R463): At the named CWC, both ends take the logical lane from the spare and raise EV_LANE_SPARED. -/
  | remapSwitch (p : Part) (port : BitVec 7) (cwc : BitVec 14)
  /-- SPW_TIMEOUT (R464): No SPW_ACK within 100 µs abandons the remap. -/
  | spwTimeout (p : Part) (port : BitVec 7)
  /-- PORT_ADMIT (R477): Every 10 ms the hub admits up to 8 waiting ports from DETECT into TRAIN. -/
  | portAdmit (signal : BitVec 72)
  /-- TRAIN_COMPLETE (R465): Training completes on every lane, and the link moves to ALIGN. -/
  | trainComplete (l : LinkId)
  /-- TRAIN_TIMEOUT (R465): Training beyond 250 ms returns to DETECT and counts RETRAINS. -/
  | trainTimeout (l : LinkId)
  /-- ALIGN_COMPLETE (R465): Codeword lock and deskew complete, and the link moves to CAL. -/
  | alignComplete (l : LinkId)
  /-- HELLO_RECEIVE (R466): HELLO negotiates the version, endpoint and roles, and the link becomes ACTIVE or stays in IDENT. -/
  | helloReceive (l : LinkId) (m : HelloP)
  /-- LK_RETRAIN (R465): A write of LK_CTRL.RETRAIN puts an ACTIVE link into RETRAIN. -/
  | lkRetrain (i : Iface) (port : BitVec 7) (data : Word)
  /-- LINK_LEAVE_SERVICE (R465): A link leaves ACTIVE, and its per-interface copies reset. -/
  | linkLeaveService (l : LinkId)
  /-- REG_RD_RECEIVE (R467): A part serves a link partner's REG_RD and answers with REG_RSP. -/
  | regRdReceive (l : LinkId) (m : RegRdP)
  /-- REG_WR_RECEIVE (R467): A part serves REG_WR when REMOTE_WR is 1, and otherwise answers ERR. -/
  | regWrReceive (l : LinkId) (m : RegWrP)
  /-- REG_RSP_RECEIVE (R468): A REG_RSP fills LK_REG_DATA and ERR and clears BUSY. -/
  | regRspReceive (l : LinkId) (m : RegRspP)
  /-- LK_REG_GO (R468): LK_REG_CTRL.GO sends a REG_RD or REG_WR, or is refused while BUSY. -/
  | lkRegGo (i : Iface) (port : BitVec 7) (data : Word)
  /-- MIRROR_RECEIVE (R457): A twin applies a mirrored item of state. -/
  | mirrorReceive (l : LinkId) (m : MirrorP)
  /-- POWER_INPUT_RISE (R469): The input rises above 670 V and conversion starts. -/
  | powerInputRise (vin : BitVec 16)
  /-- POWER_UNDERVOLTAGE (R469): The input falls below 640 V and conversion stops. -/
  | powerUndervoltage (vin : BitVec 16)
  /-- POWER_OVERVOLTAGE (R469): The input rises above 880 V and conversion stops. -/
  | powerOvervoltage (vin : BitVec 16)
  /-- PWR_WARN (R469): The input enters or leaves a warning band, and PWR_WARN is set or cleared. -/
  | pwrWarn (vin pin pkg aux : BitVec 16)
  /-- POWER_INTERRUPTION (R470): An interruption beyond 2 ms gives 5 ms of warning; links stop and the cause is latched. -/
  | powerInterruption
  /-- THERM_WARN (R472): The junction reaches WARN_C and sets THERM_WARN. -/
  | thermWarn (tj inlet : BitVec 16)
  /-- THERMAL_TRIP (R472): The junction reaches 115 °C, or the inlet exceeds 50 °C for 10 s, and conversion stops. -/
  | thermalTrip (tj inlet : BitVec 16) (sec : BitVec 16)
  /-- BOOT_ROM_START (R496): On core reset release, the boot ROM selects and boots a valid slot, or enters ROM recovery. -/
  | bootRomStart
  /-- BOOT_DONE (R476): Boot completes, BOOT_DONE is set, and all pages answer. -/
  | bootDone (ms : BitVec 32)
  /-- MOD_RST_N (R482): MOD_RST_N low for at least 1 µs causes a cold reset. -/
  | modRstN (ns : BitVec 32) (low : Bool)
  /-- MOD_RESET_COLD (R483): MOD_RESET.COLD with KEY 0xA5 causes a cold reset. -/
  | modResetCold (i : Iface) (data : Word)
  /-- MOD_RESET_WARM (R483): MOD_RESET.WARM with KEY 0xA5 causes a warm reset. -/
  | modResetWarm (i : Iface) (data : Word)
  /-- MOD_RESET_MC (R482): MOD_RESET.MC resets the management controller only. -/
  | modResetMc (i : Iface) (data : Word)
  /-- PERST (R482): PERST# low resets the PCIe endpoint. -/
  | perst
  /-- TRST (R482): TRST# low resets the JTAG TAP. -/
  | trst
  /-- JTAG_BYPASS (R485): BYPASS as IEEE 1149.1. -/
  | jtagBypass
  /-- JTAG_SAMPLE_PRELOAD (R485): SAMPLE/PRELOAD as IEEE 1149.1. -/
  | jtagSamplePreload (pins load : List Bool)
  /-- JTAG_IDCODE (R485): IDCODE reads 0x2BD7_2A6F. -/
  | jtagIdcode
  /-- JTAG_EXTEST (R485): EXTEST runs while MOD_RST_N is low, and otherwise selects BYPASS. -/
  | jtagExtest (pins load : List Bool)
  /-- JTAG_REGACC (R485): REGACC issues a BAR0 access at Update-DR, with writes only while DEBUG_EN is high. -/
  | jtagRegacc (debugEn : Bool) (data : BitVec 89)
  /-- FW_HEADER (R491): FW_CTRL.HEADER checks an image header and, if it passes, erases the inactive slot and starts receiving. -/
  | fwHeader (i : Iface) (data : Word)
  /-- FW_BLOCK (R492): FW_CTRL.BLOCK accepts, drops or ignores a payload block. -/
  | fwBlock (i : Iface) (data : Word)
  /-- FW_APPLY_DONE (R493): After the last block, the image is patched and digested, then STAGED or refused. -/
  | fwApplyDone
  /-- FW_ABORT (R495): FW_CTRL.ABORT discards the transfer unless APPLYING. -/
  | fwAbort (i : Iface) (data : Word)
  /-- FW_ACTIVATE (R497): FW_CTRL.ACTIVATE starts a trial by controller reset, or is refused. -/
  | fwActivate (i : Iface) (data : Word) (twinVer : BitVec 64) (twinState : BitVec 3)
  /-- FW_CONFIRM (R498): The trial firmware confirms its slot, raises MIN_SEC and returns to IDLE. -/
  | fwConfirm
  /-- FW_TRIAL_TIMEOUT (R498): A watchdog or 10 s trial limit resets the controller, and the ROM falls back. -/
  | fwTrialTimeout
  /-- FW_RECOVER (R500): FW_CTRL.RECOVER arms ROM recovery for the next cold reset. -/
  | fwRecover (i : Iface) (data : Word)
  /-- FW_REVOKE (R488): FW_CTRL.REVOKE blows the fuse of a signing key, unless it signs a confirmed slot. -/
  | fwRevoke (i : Iface) (data : Word)
  /-- ERR_CLR (R504): PAGE_CTRL.ERR_CLR clears PAGE_ERR_COUNT. -/
  | errClr (i : Iface) (page : BitVec 12) (data : Word)
  /-- INT_FORCE (R505): PAGE_CTRL.INT_FORCE sets the named PAGE_INT_STATUS bit, or is refused for an undefined bit. -/
  | intForce (i : Iface) (page : BitVec 12) (data : Word)
  /-- PAGE_INT_STATUS_WRITE (R509): A W1C write clears interrupt causes, except a bit set in the same cycle. -/
  | pageIntStatusWrite (i : Iface) (page : BitVec 12) (data : Word)
  /-- PAGE_INT_ENABLE_WRITE (R506): Setting an enable bit over a set cause makes the page pending at once. -/
  | pageIntEnableWrite (i : Iface) (page : BitVec 12) (data : Word)
  /-- PCIE_ACCESS (R511): A PCIe access to BAR0 is split into register accesses, or refused for size or alignment. -/
  | pcieAccess (x : PcieAccess)
  /-- INT_EOI (R527): A write of INT_EOI re-arms vectors, sending at once when pages are still pending. -/
  | intEoi (i : Iface) (data : Word)
  /-- MSIX_UNMASK (R527): Unmasking a vector with its pending bit set sends the message, or clears the bit. -/
  | msixUnmask (v : BitVec 6)
  /-- HUB_ADDR_WRITE (R516): A HUB_ADDR write is accepted only with every port OFF and a legal value, and is stored in flash. -/
  | hubAddrWrite (i : Iface) (data : Word)
  /-- MGMT_CONFIG_WRITE (R518): A write of MG_IPV4, MG_GATEWAY or MG_QUERY takes effect at once and is stored. -/
  | mgmtConfigWrite (i : Iface) (which : BitVec 2) (data : Word)
  /-- ARP_RECEIVE (R518): The management port answers ARP for its address. -/
  | arpReceive (target sender : BitVec 32) (mac : BitVec 48)
  /-- ICMP_ECHO_RECEIVE (R518): The management port answers ICMP echo. -/
  | icmpEchoReceive (dst src : BitVec 32) (data : List (BitVec 8))
  /-- REGISTER_QUERY (R519): A register query datagram is answered with values or REFUSED, or dropped. -/
  | registerQuery (ip : BitVec 32) (src dst : BitVec 16) (data : List (BitVec 8))
  /-- HBM_UNCORRECTABLE_READ (R524): An uncorrectable read is handled by region: fail the element, fetch from the twin, or read zero. -/
  | hbmUncorrectableRead (channel : BitVec 6) (addr : BitVec 40) (region : HbmRegion)
  /-- TWIN_FETCH_TIMEOUT (R524): A twin that cannot supply the item within 20 µs leads to STEP_POISON SUB 1. -/
  | twinFetchTimeout (job : BitVec 12)
  /-- LINK_SIGNAL_DETECT (R465): Signal appears on a TSU link in DETECT, and the link moves into TRAIN. -/
  | linkSignalDetect (l : LinkId)
  /-- REGION_LONG_CYCLE (R200): A region clock cycle longer than 2 × P_NOM outside a frequency change gives OVERRUN with cause LONG_CYCLE. -/
  | regionLongCycle (t : BitVec 7)
  /-- PERST_RELEASE (R476): PERST# rises, the PCIe endpoint leaves reset, and configuration space answers within 100 ms. -/
  | perstRelease
  /-- MGMT_LINK_STATE_CHANGE (R517): The 1000BASE-X management link comes up or goes down, and MG_STATUS.LINK_UP follows. -/
  | mgmtLinkStateChange (up : Bool)
  deriving DecidableEq, Repr

end Sys2Proof
end

