-- ==== Sys2Proof/Machine/Bits.lean ====
section
/-! DEFINITION. Bit fields of registers, saturating counts, signed differences (R62), byte order, and the checks that
frames and flits carry (CRC-8, CRC-16, CRC-32). -/

namespace Sys2Proof.Machine

/-- A field of a register, moved to its place at bit `lo`. -/
def putF (lo : Nat) {w : Nat} (x : BitVec w) : Word := x.setWidth 64 <<< lo

/-- A one-bit field of a register, moved to bit `i`. -/
def putB (i : Nat) (b : Bool) : Word := if b then 1#64 <<< i else 0

/-- The field of `w` bits that starts at bit `lo`. -/
def getF (v : Word) (lo w : Nat) : BitVec w := v.extractLsb' lo w

/-- Bit `i` of a register. -/
def getB (v : Word) (i : Nat) : Bool := v.getLsbD i

/-- A saturating counter takes one more (R14). -/
def satInc {w : Nat} (x : BitVec w) : BitVec w := if x = BitVec.allOnes w then x else x + 1

/-- A saturating counter takes `n` more (R14). -/
def satAdd {w : Nat} (x : BitVec w) (n : Nat) : BitVec w :=
  if x.toNat + n < 2 ^ w then BitVec.ofNat w (x.toNat + n) else BitVec.allOnes w

/-- A number shown in a field of `w` bits, stopping at all ones. -/
def satNat (w : Nat) (n : Nat) : BitVec w := if n < 2 ^ w then BitVec.ofNat w n else BitVec.allOnes w

/-- A signed number shown in a field of `w` bits, stopping at the ends of its range. -/
def satInt (w : Nat) (n : Int) : BitVec w :=
  if n ≥ 2 ^ (w - 1) then BitVec.ofInt w (2 ^ (w - 1) - 1)
  else if n < -(2 ^ (w - 1)) then BitVec.ofInt w (-(2 ^ (w - 1)))
  else BitVec.ofInt w n

/-- The signed difference of two wire values (R62). -/
def signedDiff {w : Nat} (a b : BitVec w) : Int := (a - b).toInt

/-- A wire value extended against the receiver's own count; none when the result would be negative (R63). -/
def extendWire {w : Nat} (x : BitVec w) (now : BitVec 64) : Option (BitVec 64) :=
  let full : Int := now.toNat + signedDiff x (now.setWidth w)
  if full < 0 then none else some (BitVec.ofInt 64 full)

/-- Whether a counter value is later than another by the signed difference (R62). -/
def laterThan {w : Nat} (a b : BitVec w) : Bool := decide (0 < signedDiff a b)

/-- The number that bytes give, most significant byte first (R379). -/
def bytesToNat (bs : List (BitVec 8)) : Nat := bs.foldl (fun n b => n * 256 + b.toNat) 0

/-- The last `k` bytes of a number, most significant byte first. -/
def natToBytes : Nat → Nat → List (BitVec 8)
  | 0, _ => []
  | k + 1, n => natToBytes k (n / 256) ++ [BitVec.ofNat 8 n]

/-- Fields packed one after another, the first in the most significant place: the number and its width. -/
def packFields : List (Nat × Nat) → Nat × Nat
  | [] => (0, 0)
  | (w, x) :: rest =>
    let (n, k) := packFields rest
    ((x % 2 ^ w) * 2 ^ k + n, w + k)

/-- One step of a cyclic redundancy check of `w` bits over one message bit, most significant bit first. -/
def crcStep {w : Nat} (poly : BitVec w) (r : BitVec w) (b : Bool) : BitVec w :=
  if r.msb != b then (r <<< 1) ^^^ poly else r <<< 1

/-- A cyclic redundancy check over the lowest `n` bits of a number, most significant bit first. -/
def crcBits {w : Nat} (poly : BitVec w) (r : BitVec w) : Nat → Nat → BitVec w
  | 0, _ => r
  | n + 1, x => crcBits poly (crcStep poly r (x.testBit n)) n x

/-- The CRC-32 of IEEE 802.3 over `n` bits taken most significant bit first: all-ones start, complemented end, no
reflection (R454, R396). DEDUCED: log entry 30. -/
def crc32 (n x : Nat) : BitVec 32 := ~~~ (crcBits 0x04C11DB7#32 0xFFFFFFFF#32 n x)

/-- Bytes of memory read from a canonical list of cells; a byte not listed reads zero. -/
def byteAt : List Host.Cell → Nat → BitVec 8
  | [], _ => 0
  | (a, b) :: rest, k => if a = k then b else byteAt rest k

end Sys2Proof.Machine
end

