-- ==== Sys2Proof/Machine/Crypto.lean ====
section
/-! DEFINITION. Whisk (R365 to R367), SHA-384 (R279, R350, R360; FIPS 180-4), and arithmetic in the field of the digest
folds (R335, R336). -/

namespace Sys2Proof.Machine

/-! ## Whisk -/

/-- The rotation schedule A, B of a round (R366); it repeats after 8 rounds. -/
def whiskRot (r : Nat) : Nat × Nat :=
  [(7, 16), (13, 5), (24, 19), (9, 27), (17, 8), (3, 21), (22, 14), (11, 2)].getD (r % 8) (0, 0)

/-- The state of Whisk: four 32-bit words. -/
abbrev WhiskSt := BitVec 32 × BitVec 32 × BitVec 32 × BitVec 32

/-- Word `i` of four. -/
def pick4 (k : WhiskSt) (i : Nat) : BitVec 32 :=
  match i with | 0 => k.1 | 1 => k.2.1 | 2 => k.2.2.1 | _ => k.2.2.2

/-- One round (R366). -/
def whiskRound (k : WhiskSt) (x : WhiskSt) (r : Nat) : WhiskSt :=
  let (x0, x1, x2, x3) := x
  let (a, b) := whiskRot r
  let rk := pick4 k (r % 4) + (0x5CA70F1D + BitVec.ofNat 32 (r * 0x01010101))
  let u := (x0 + x1).rotateLeft a
  let v := x2 + x3.rotateLeft b
  (x1, x2, x3, u ^^^ v ^^^ rk)

/-- Whisk of a seed, a step, a stream and an index: the 128-bit output O (R365, R367). -/
def whisk (seed step : BitVec 64) (stream : BitVec 16) (index : BitVec 64) : BitVec 128 :=
  let k : WhiskSt := (seed.extractLsb' 0 32, seed.extractLsb' 32 32, 0x7E290000 + stream.setWidth 32, 0x4F1BA3C7)
  let x : WhiskSt := (index.extractLsb' 0 32, index.extractLsb' 32 32, step.extractLsb' 0 32, step.extractLsb' 32 32)
  let (x0, x1, x2, x3) := (List.range 16).foldl (whiskRound k) x
  (x3 + k.2.2.2) ++ (x2 + k.2.2.1) ++ (x1 + k.2.1) ++ (x0 + k.1)

/-- W, the low 64 bits of Whisk (R367). -/
def whiskLow (seed step : BitVec 64) (stream : BitVec 16) (index : BitVec 64) : Word :=
  (whisk seed step stream index).extractLsb' 0 64

/-! ## SHA-384 -/

/-- The round constants of FIPS 180-4. -/
def shaK : List (BitVec 64) :=
    [0x428A2F98D728AE22, 0x7137449123EF65CD, 0xB5C0FBCFEC4D3B2F, 0xE9B5DBA58189DBBC, 0x3956C25BF348B538, 0x59F111F1B605D019, 0x923F82A4AF194F9B, 0xAB1C5ED5DA6D8118] ++
    [0xD807AA98A3030242, 0x12835B0145706FBE, 0x243185BE4EE4B28C, 0x550C7DC3D5FFB4E2, 0x72BE5D74F27B896F, 0x80DEB1FE3B1696B1, 0x9BDC06A725C71235, 0xC19BF174CF692694] ++
    [0xE49B69C19EF14AD2, 0xEFBE4786384F25E3, 0x0FC19DC68B8CD5B5, 0x240CA1CC77AC9C65, 0x2DE92C6F592B0275, 0x4A7484AA6EA6E483, 0x5CB0A9DCBD41FBD4, 0x76F988DA831153B5] ++
    [0x983E5152EE66DFAB, 0xA831C66D2DB43210, 0xB00327C898FB213F, 0xBF597FC7BEEF0EE4, 0xC6E00BF33DA88FC2, 0xD5A79147930AA725, 0x06CA6351E003826F, 0x142929670A0E6E70] ++
    [0x27B70A8546D22FFC, 0x2E1B21385C26C926, 0x4D2C6DFC5AC42AED, 0x53380D139D95B3DF, 0x650A73548BAF63DE, 0x766A0ABB3C77B2A8, 0x81C2C92E47EDAEE6, 0x92722C851482353B] ++
    [0xA2BFE8A14CF10364, 0xA81A664BBC423001, 0xC24B8B70D0F89791, 0xC76C51A30654BE30, 0xD192E819D6EF5218, 0xD69906245565A910, 0xF40E35855771202A, 0x106AA07032BBD1B8] ++
    [0x19A4C116B8D2D0C8, 0x1E376C085141AB53, 0x2748774CDF8EEB99, 0x34B0BCB5E19B48A8, 0x391C0CB3C5C95A63, 0x4ED8AA4AE3418ACB, 0x5B9CCA4F7763E373, 0x682E6FF3D6B2B8A3] ++
    [0x748F82EE5DEFB2FC, 0x78A5636F43172F60, 0x84C87814A1F0AB72, 0x8CC702081A6439EC, 0x90BEFFFA23631E28, 0xA4506CEBDE82BDE9, 0xBEF9A3F7B2C67915, 0xC67178F2E372532B] ++
    [0xCA273ECEEA26619C, 0xD186B8C721C0C207, 0xEADA7DD6CDE0EB1E, 0xF57D4F7FEE6ED178, 0x06F067AA72176FBA, 0x0A637DC5A2C898A6, 0x113F9804BEF90DAE, 0x1B710B35131C471B] ++
    [0x28DB77F523047D84, 0x32CAAB7B40C72493, 0x3C9EBE0A15C9BEBC, 0x431D67C49C100D4C, 0x4CC5D4BECB3E42B6, 0x597F299CFC657E2A, 0x5FCB6FAB3AD6FAEC, 0x6C44198C4A475817]

/-- The initial hash value of SHA-384. -/
def shaInit : List (BitVec 64) :=
    [0xCBBB9D5DC1059ED8, 0x629A292A367CD507, 0x9159015A3070DD17, 0x152FECD8F70E5939, 0x67332667FFC00B31, 0x8EB44A8768581511, 0xDB0C2E0D64F98FA7, 0x47B5481DBEFA4FA4]

/-- The 64-bit words that a list of bytes gives, most significant byte first. -/
def bytesToWords : List (BitVec 8) → List (BitVec 64)
  | a :: b :: c :: d :: e :: f :: g :: h :: rest => (a ++ b ++ c ++ d ++ e ++ f ++ g ++ h) :: bytesToWords rest
  | _ => []

/-- A message padded to whole blocks of 128 bytes. -/
def shaPad (m : List (BitVec 8)) : List (BitVec 8) :=
  m ++ [0x80] ++ List.replicate ((239 - m.length % 128) % 128) 0 ++ natToBytes 16 (8 * m.length)

/-- The message schedule, `n` more words after the last sixteen, newest first. -/
def shaSchedule : Nat → List (BitVec 64) → List (BitVec 64)
  | 0, w => w
  | n + 1, w =>
    let s0 (x : BitVec 64) := x.rotateRight 1 ^^^ x.rotateRight 8 ^^^ (x >>> 7)
    let s1 (x : BitVec 64) := x.rotateRight 19 ^^^ x.rotateRight 61 ^^^ (x >>> 6)
    shaSchedule n ((s1 (w.getD 1 0) + w.getD 6 0 + s0 (w.getD 14 0) + w.getD 15 0) :: w)

/-- One round of SHA-512 on the eight working words. -/
def shaRound (v : List (BitVec 64)) (kw : BitVec 64 × BitVec 64) : List (BitVec 64) :=
  match v with
  | [a, b, c, d, e, f, g, h] =>
    let s1 := e.rotateRight 14 ^^^ e.rotateRight 18 ^^^ e.rotateRight 41
    let ch := (e &&& f) ^^^ (~~~e &&& g)
    let t1 := h + s1 + ch + kw.1 + kw.2
    let s0 := a.rotateRight 28 ^^^ a.rotateRight 34 ^^^ a.rotateRight 39
    let maj := (a &&& b) ^^^ (a &&& c) ^^^ (b &&& c)
    [t1 + s0 + maj, a, b, c, d + t1, e, f, g]
  | v => v

/-- The compression of one block of sixteen words. -/
def shaBlock (h w : List (BitVec 64)) : List (BitVec 64) :=
  let sched := (shaSchedule 64 w.reverse).reverse
  List.zipWith (· + ·) h ((shaK.zip sched).foldl shaRound h)

/-- The blocks of a padded message, `fuel` at most. -/
def shaBlocks : Nat → List (BitVec 64) → List (BitVec 64) → List (BitVec 64)
  | 0, h, _ => h
  | n + 1, h, w => match w with
    | [] => h
    | _ => shaBlocks n (shaBlock h (w.take 16)) (w.drop 16)

/-- SHA-384 of a message. -/
def sha384 (m : List (BitVec 8)) : BitVec 384 :=
  let w := bytesToWords (shaPad m)
  match shaBlocks w.length shaInit w with
  | [a, b, c, d, e, f, _, _] => a ++ b ++ c ++ d ++ e ++ f
  | _ => 0

/-- The bytes of a number of `8 * k` bits, most significant first. -/
def bvBytes {w : Nat} (k : Nat) (x : BitVec w) : List (BitVec 8) := natToBytes k x.toNat

/-! ## The field of the digest folds (R335, R336) -/

/-- p = 2^127 − 1. -/
def dgP : Nat := 2 ^ 127 - 1

/-- The key of a lane for a contribution (R335). -/
def dgKey (seed step : BitVec 64) (lane : Nat) (kind : Nat) (did : Nat) (rank : Nat) : Nat :=
  let idx := kind * 2 ^ 28 + did * 2 ^ 20 + rank
  let w (i : Nat) : Nat := (whiskLow seed step (BitVec.ofNat 16 (0xFFFE + lane)) (BitVec.ofNat 64 i)).toNat
  let k := (w idx % 2 ^ 63 * 2 ^ 64 + w (2 ^ 63 + idx)) % dgP
  if k = 0 then 1 else k

/-- The term of a lane (R336). -/
def dgTerm (k vhi vlo : Nat) : Nat := (vhi * k ^ 3 + vlo * k ^ 2 + k) % dgP

/-- The sum of two lane values modulo p. -/
def dgAdd (a : BitVec 127) (n : Nat) : BitVec 127 := BitVec.ofNat 127 ((a.toNat + n) % dgP)

end Sys2Proof.Machine
end

