-- ==== Sys2Proof/Config.lean ====
section
/-! DEFINITION. The values the spec leaves open, as constants without a body: nothing can be proved about which value one
is. Each is applied to what it depends on, or to the counter of free values that State holds. -/

namespace Sys2Proof

/-- What a hub's salted hash gives for a flow key (R39). The salt is drawn from the hub's own entropy at every reset and
never leaves it; the first argument numbers the draw, the second is the flow key. Log entry 10. -/
opaque Config.routeHash : Nat → Nat → Nat

/-- Whether a hub takes the neighbour of a link for one in SHADOW: no flit says so (R39). The arguments are the hub's island cycle
and the link's place in its table. Log entry 10. -/
opaque Config.inShadow : Nat → Nat → Bool

/-- Hall tick and fraction after the island has lost lock, which hold no meaning (R58). Log entry 11. -/
opaque Config.lostTime : Nat → BitVec 112

/-- SEQ and ORIGIN64 of a candidate ANNOUNCE, which no rule gives (R138). Log entry 12. -/
opaque Config.candidateOrigin : Nat → BitVec 80

/-- How far beyond 64 ms a handover is planned (R141), in ns. Log entry 13. -/
opaque Config.handoverSlack : Nat → BitVec 24

/-- When a 10 MHz output edge falls that runs from the island without VALID: its phase is undefined (R150). Log entry 14. -/
opaque Config.freeEdge : Nat → BitVec 112

/-- G and SUSPECT of a PROVENANCE record, which no rule gives (R353). Log entry 41. -/
opaque Config.provGroup : Nat → BitVec 16

/-- SUB of the STEP_POISON record that a member TSU raises: the flit does not carry it (R380, R394, R457). Log entry 42. -/
opaque Config.poisonSub : Nat → BitVec 16

/-- SUB and PAYLOAD of the EV_WAIT_TIMEOUT record of a VARY word that waited on an empty replay queue: R532 lists no such wait
(R292, R371). Log entry 43. -/
opaque Config.replayTimeout : Nat → BitVec 208

/-- Which entry leaves the on-die cache of the edge translation when it is full: the spec gives no rule (R44). Log entry 44. -/
opaque Config.cacheVictim : Nat → Nat

/-- The epoch bit of a job on a part that joins it by a remap: no flit of the transaction carries it (R46, R415, R529). Log
entry 45. -/
opaque Config.joinEpoch : Nat → BitVec 1

/-- The parameters of a job on a hub that joins it by a remap: MEMBERS, PEAK_CTX, PEAK_SLOTS, STEP_OBJ, DEF_TIMEOUT, ARR_TIMEOUT_US
and RELEASE_LEAD_NS, from bit 0 upward. No action of a REMAP carries them (R46, R423, R529). Log entry 45. -/
opaque Config.joinHubPart : Nat → BitVec 179

/-- The same on a TSU that joins: MEMBERS, GUARD_NS, DEF_TIMEOUT, STEP_OBJ, the seed, the replay mode and UNITMAP_INDEPENDENT. Log
entry 45. -/
opaque Config.joinTsuPart : Nat → BitVec 166

/-- The four AES image keys of the fuse block, which no interface reads (R488). Log entry 46. -/
opaque Config.imageKey : Nat → BitVec 256

/-- Whether a header's signature verifies under the public key of a signing slot whose hash the fuses hold: the public key and
its hash stand nowhere in the spec (R487, R488, R491). Log entry 47. -/
opaque Config.signatureOk : Nat → List (BitVec 8) → Bool

/-- A slot nonce drawn from the hub's entropy source (R494). Log entry 48. -/
opaque Config.slotNonce : Nat → BitVec 64

/-- FW_RUNNING and FW_STATUS.STATE that a hub reads from its twin when ACTIVATE is written by an access that does not show what
the twin answered (R497). Log entry 49. -/
opaque Config.twinFw : Nat → BitVec 67

/-- The settings that training reaches for a physical lane, TXEQ in the upper 32 bits and RXEQ in the lower 16 (R448, R522). Log
entry 50. -/
opaque Config.phySettings : Nat → BitVec 48

/-- The decision SNR of a lane that carries codewords (R522). Log entry 51. -/
opaque Config.phySnr : Nat → BitVec 16

/-- The stack temperature at an HBM3E channel (R523). Log entry 52. -/
opaque Config.stackTemp : Nat → BitVec 16

/-- TARGET of the STEP_POISON that a home issues when its twin cannot supply an item: the spec names none (R394, R524). Log
entry 53. -/
opaque Config.fetchTarget : Nat → BitVec 16

/-- UNIT of the EV_RESIDUE record of an element that an uncorrectable read of the spill area has lost: no unit has failed there
(R380, R524). Log entry 54. -/
opaque Config.lostUnit : Nat → BitVec 16

/-- Where the prescalers of an engine stand among their input edges at START (R83). Log entry 67. -/
opaque Config.prescalePhase : Nat → BitVec 12

/-- The trim code that a locking loop drives from an integrator (R78). Log entry 67. -/
opaque Config.trimCode : Int → BitVec 16

/-- The logical lane and the slot of a codeword that carry a flit which may take any slot (R452). Log entry 68. -/
opaque Config.flitSlot : Nat → BitVec 6

end Sys2Proof
end

