-- ==== Sys2Proof/Machine/Flits.lean ====
section
/-! DEFINITION. How a message is laid out in a flit: type codes and classes (R456), payloads packed from bit 447 downward
(R457), continuation flits, and the flit with its CHECK (R454). -/

namespace Sys2Proof.Machine

/-- TYPE of each message (R456). -/
def msgTypeCode : Msg → BitVec 8
  | .idle => 0x00
  | .calMark => 0x18
  | .hello _ => 0x01
  | .lack _ => 0x02
  | .lnak _ => 0x03
  | .credit _ => 0x04
  | .notReady _ => 0x05
  | .heartbeat _ => 0x06
  | .dack _ => 0x07
  | .remapReq _ => 0x08
  | .remapAck _ => 0x09
  | .remapAt _ => 0x0A
  | .sync _ => 0x10
  | .syncFu _ => 0x11
  | .dreq _ => 0x12
  | .dresp _ => 0x13
  | .drespFu _ => 0x14
  | .announce _ => 0x15
  | .probe _ => 0x16
  | .probeEcho _ => 0x17
  | .arrive _ => 0x20
  | .contrib _ => 0x21
  | .partl _ => 0x22
  | .dgp _ => 0x23
  | .vmap _ => 0x24
  | .check _ => 0x25
  | .vrec _ => 0x26
  | .evrec _ => 0x27
  | .vote _ => 0x28
  | .done _ => 0x29
  | .drained _ => 0x2A
  | .pauseReply _ => 0x2B
  | .rereq _ => 0x2C
  | .report _ => 0x2D
  | .release _ => 0x30
  | .stepRelease _ => 0x31
  | .stepPoison _ => 0x32
  | .prepare _ => 0x33
  | .commit _ => 0x34
  | .abort _ => 0x35
  | .jobAbort _ => 0x36
  | .pauseMark _ => 0x37
  | .refuse _ => 0x38
  | .signal _ => 0x40
  | .regRd _ => 0x50
  | .regWr _ => 0x51
  | .regRsp _ => 0x52
  | .result _ => 0x60
  | .mirror _ => 0x70

/-- The class of each message (R456). -/
def msgCls : Msg → FlitClass
  | .idle => .ctrl
  | .calMark => .time
  | .hello _ => .ctrl
  | .lack _ => .ctrl
  | .lnak _ => .ctrl
  | .credit _ => .ctrl
  | .notReady _ => .ctrl
  | .heartbeat _ => .ctrl
  | .dack _ => .ctrl
  | .remapReq _ => .ctrl
  | .remapAck _ => .ctrl
  | .remapAt _ => .ctrl
  | .sync _ => .time
  | .syncFu _ => .time
  | .dreq _ => .time
  | .dresp _ => .time
  | .drespFu _ => .time
  | .announce _ => .time
  | .probe _ => .time
  | .probeEcho _ => .time
  | .arrive _ => .up
  | .contrib _ => .up
  | .partl _ => .up
  | .dgp _ => .up
  | .vmap _ => .up
  | .check _ => .up
  | .vrec _ => .up
  | .evrec _ => .up
  | .vote _ => .up
  | .done _ => .up
  | .drained _ => .up
  | .pauseReply _ => .up
  | .rereq _ => .up
  | .report _ => .up
  | .release _ => .down
  | .stepRelease _ => .down
  | .stepPoison _ => .down
  | .prepare _ => .down
  | .commit _ => .down
  | .abort _ => .down
  | .jobAbort _ => .down
  | .pauseMark _ => .down
  | .refuse _ => .down
  | .signal _ => .signal
  | .regRd _ => .mgmt
  | .regWr _ => .mgmt
  | .regRsp _ => .mgmt
  | .result _ => .result
  | .mirror _ => .mirror

/-- The payload fields of a message with their widths, from bit 447 downward (R457 and the rules that give each payload). -/
def msgFields : Msg → List (Nat × Nat)
  | .idle => []
  | .calMark => []
  | .hello p => [(8, p.ver.toNat), (8, p.verMin.toNat), (1, p.kind.toNat), (16, p.addr.toNat), (3, p.role.toNat), (2, p.subport.toNat), (24, p.ep.toNat), (32, p.ident.toNat), (64, p.fw.toNat), (72, p.cred.toNat), (1, p.spw.toNat)]
  | .lack p => [(12, p.lseq.toNat)]
  | .lnak p => [(12, p.lseq.toNat)]
  | .credit p => [(72, p.cred.toNat), (1, p.full.toNat)]
  | .notReady p => [(2, p.cause.toNat)]
  | .heartbeat p => [(32, p.origin.toNat), (288, p.heard.toNat)]
  | .dack p => [(32, p.sender.toNat), (32, p.dsn.toNat)]
  | .remapReq p => [(8, p.id.toNat), (2, p.llane.toNat), (3, p.victim.toNat)]
  | .remapAck p => [(8, p.id.toNat), (2, p.result.toNat)]
  | .remapAt p => [(8, p.id.toNat), (14, p.cwc.toNat)]
  | .sync p => [(16, p.seq.toNat)]
  | .syncFu p => [(16, p.seq.toNat), (4, p.hops.toNat), (1, p.bad.toNat), (1, p.srcValid.toNat), (1, p.srcHoldover.toNat), (16, p.master.toNat), (32, p.originTick.toNat), (16, p.originFrac.toNat), (48, p.corr.toNat)]
  | .dreq p => [(16, p.dseq.toNat)]
  | .dresp p => [(16, p.dseq.toNat)]
  | .drespFu p => [(16, p.dseq.toNat), (1, p.bad.toNat), (32, p.turn.toNat)]
  | .announce p => [(16, p.seq.toNat), (64, p.origin64.toNat), (48, p.epochS.toNat), (16, p.master.toNat), (1, p.kind.toNat), (2, p.cls.toNat), (8, p.prio.toNat), (16, p.gen.toNat), (16, p.nextMaster.toNat), (32, p.handoverTick.toNat), (16, p.utcOffset.toNat), (1, p.utcValid.toNat), (1, p.li61.toNat), (1, p.li59.toNat)]
  | .probe p => [(8, p.tsid.toNat), (1, p.echo.toNat)]
  | .probeEcho p => [(8, p.tsid.toNat), (32, p.rxTick.toNat), (16, p.rxFrac.toNat)]
  | .arrive p => [(12, p.job.toNat), (1, p.epoch.toNat), (16, p.obj.toNat), (16, p.gen.toNat), (24, p.step.toNat), (19, p.count.toNat)]
  | .contrib p => [(12, p.job.toNat), (1, p.epoch.toNat), (20, p.rank.toNat), (12, p.ctx.toNat), (24, p.step.toNat), (16, p.elem.toNat), (5, p.ne.toNat), (1, p.ovf.toNat), (1, p.fonly.toNat), (256, p.data.toNat)]
  | .partl p => [(12, p.job.toNat), (1, p.epoch.toNat), (12, p.ctx.toNat), (24, p.step.toNat), (16, p.elem.toNat), (19, p.n.toNat), (5, p.flags.toNat), (320, p.acc.toNat)]
  | .dgp p => [(12, p.job.toNat), (1, p.epoch.toNat), (24, p.step.toNat), (19, p.members.toNat), (27, p.n.toNat), (27, p.nc.toNat), (127, p.d0.toNat), (127, p.d1.toNat)]
  | .vmap p => [(12, p.job.toNat), (1, p.epoch.toNat), (24, p.step.toNat), (19, p.members.toNat), (27, p.vcount.toNat), (256, p.map.toNat)]
  | .check p => [(12, p.job.toNat), (1, p.epoch.toNat), (24, p.step.toNat), (20, p.rank.toNat), (8, p.did.toNat), (2, p.kind.toNat), (23, p.shard.toNat), (128, p.value.toNat)]
  | .vrec p => [(12, p.job.toNat), (1, p.epoch.toNat), (20, p.rank.toNat), (24, p.step.toNat), (32, p.launch.toNat), (8, p.vidx.toNat), (64, p.value.toNat)]
  | .evrec p => [(416, (p.record >>> 96).toNat)]
  | .vote p => [(16, p.coord.toNat), (16, p.tid.toNat), (8, p.kind.toNat), (13, p.partition.toNat), (8, p.reason.toNat), (19, p.yes.toNat), (32, p.origin.toNat), (1, p.mv.toNat)]
  | .done p => [(16, p.coord.toNat), (16, p.tid.toNat), (8, p.kind.toNat), (13, p.partition.toNat)]
  | .drained p => [(16, p.coord.toNat), (16, p.tid.toNat), (8, p.kind.toNat), (13, p.partition.toNat)]
  | .pauseReply p => [(12, p.job.toNat), (1, p.epoch.toNat), (20, p.rank.toNat)]
  | .rereq p => [(12, p.job.toNat), (1, p.epoch.toNat), (12, p.ctx.toNat), (24, p.step.toNat), (16, p.elem.toNat), (20, p.rank.toNat)]
  | .report p => [(12, p.job.toNat), (1, p.epoch.toNat), (24, p.step.toNat), (3, p.kind.toNat), (8, p.detail.toNat)]
  | .release p => [(12, p.job.toNat), (1, p.epoch.toNat), (16, p.obj.toNat), (16, p.gen.toNat), (24, p.step.toNat), (1, p.timed.toNat), (32, p.tick.toNat)]
  | .stepRelease p => [(12, p.job.toNat), (1, p.epoch.toNat), (24, p.step.toNat), (32, p.tick.toNat), (1, p.late.toNat), (1, p.rebased.toNat), (40, p.lag.toNat)]
  | .stepPoison p => [(12, p.job.toNat), (1, p.epoch.toNat), (24, p.step.toNat), (16, p.target.toNat)]
  | .prepare p => [(16, p.coord.toNat), (16, p.tid.toNat), (8, p.kind.toNat), (13, p.partition.toNat), (32, p.commit.toNat), (32, p.voteBy.toNat), (32, p.len.toNat)]
  | .commit p => [(16, p.coord.toNat), (16, p.tid.toNat), (8, p.kind.toNat), (13, p.partition.toNat)]
  | .abort p => [(16, p.coord.toNat), (16, p.tid.toNat), (8, p.kind.toNat), (13, p.partition.toNat)]
  | .jobAbort p => [(12, p.job.toNat), (1, p.epoch.toNat), (3, p.cause.toNat)]
  | .pauseMark p => [(12, p.job.toNat), (1, p.epoch.toNat), (24, p.step.toNat)]
  | .refuse p => [(12, p.job.toNat), (1, p.epoch.toNat), (12, p.ctx.toNat), (24, p.step.toNat), (20, p.rank.toNat)]
  | .signal p => [(12, p.job.toNat), (1, p.epoch.toNat), (20, p.rank.toNat), (16, p.obj.toNat), (16, p.amount.toNat), (2, p.chan.toNat), (6, p.window.toNat), (40, p.bytes.toNat)]
  | .regRd p => [(4, p.tag.toNat), (24, p.offset.toNat)]
  | .regWr p => [(4, p.tag.toNat), (24, p.offset.toNat), (64, p.data.toNat)]
  | .regRsp p => [(4, p.tag.toNat), (1, p.err.toNat), (64, p.data.toNat)]
  | .result p => [(12, p.job.toNat), (1, p.epoch.toNat), (12, p.ctx.toNat), (24, p.step.toNat), (16, p.elem.toNat), (5, p.ne.toNat), (6, p.flags.toNat), (20, p.rank.toNat), (16, p.rres.toNat), (256, p.data.toNat)]
  | .mirror p => [(12, p.job.toNat), (8, p.item.toNat), (16, p.len.toNat), (64, p.key.toNat), (304, bytesToNat (p.value.take 38) * 256 ^ (38 - (p.value.take 38).length))]
/-- The payload of a message, 416 bits, its fields from bit 447 of the flit downward and zeros below (R454, R457). -/
def msgPayload (m : Msg) : Nat :=
  let (n, w) := packFields (msgFields m)
  n * 2 ^ (416 - w)

/-- The data of a message's continuation flits (R455, R457). -/
def msgTail : Msg → List (BitVec 8)
  | .prepare p => p.share
  | .mirror p => p.value.drop 38
  | .evrec p => natToBytes 12 (p.record.toNat % 2 ^ 96)
  | .vote p => if p.mv then natToBytes 44 ((p.ident.toNat * 2 ^ 64 + p.fw.toNat) * 2 ^ 256 + p.unitmap.toNat) else []
  | _ => []

/-- How many flits a message takes: its own and a continuation for each 52 bytes of data (R457). -/
def msgFlits (m : Msg) : Nat := 1 + ((msgTail m).length + 51) / 52

/-- Whether link-level retry covers a message (R458). -/
def msgRetried (m : Msg) : Bool :=
  match msgCls m with
  | .up | .down | .signal | .mgmt | .result | .mirror => true
  | .time => false
  | .ctrl =>
    match m with
    | .credit _ | .dack _ | .remapReq _ | .remapAck _ | .remapAt _ => true
    | _ => false

/-- Whether a transaction kind is a reserved value (R421). -/
def kindReserved (k : BitVec 8) : Bool := k == 0 || decide (8 < k.toNat)

/-- Whether a field of a message holds a reserved value: one that its table does not list, or 0 in a field that holds a count
itself (R11, R13, R332, R421, R427, R445, R457). -/
def msgReserved : Msg → Bool
  | .hello p => decide (5 ≤ p.role.toNat)
  | .notReady p => decide (2 ≤ p.cause.toNat)
  | .remapAck p => p.result == 3
  | .announce p => p.cls == 3
  | .arrive p => p.count == 0
  | .partl p => p.n == 0
  | .dgp p => p.members == 0
  | .vmap p => p.members == 0
  | .check p => decide (2 ≤ p.kind.toNat)
  | .vote p => kindReserved p.kind || decide (10 < p.reason.toNat)
  | .done p => kindReserved p.kind && p.tid != 0xFFFF
  | .drained p => kindReserved p.kind
  | .report p => decide (3 < p.kind.toNat)
  | .prepare p => kindReserved p.kind
  | .commit p => kindReserved p.kind
  | .abort p => kindReserved p.kind
  | .jobAbort p => decide (4 < p.cause.toNat)
  | .mirror p => decide (11 < p.item.toNat)
  | _ => false

/-- Whether a message carries a delivery sequence (R401). -/
def msgHasDsn : Msg → Bool
  | .arrive _ | .contrib _ | .partl _ | .dgp _ | .vmap _ | .check _ | .vrec _ | .signal _ | .evrec _ => true
  | _ => false

/-- The flit of a message's first 416 payload bits: header, payload and CRC-32 (R454). -/
def flitBits (m : Msg) (cont : Bool) (lseq : BitVec 12) (dsn : Option (BitVec 32)) : BitVec 512 :=
  let head : Nat := (packFields [(8, (msgTypeCode m).toNat), (1, cont.toNat), (1, dsn.isSome.toNat), (2, 0),
    (12, lseq.toNat), (8, 0), (32, (dsn.getD 0).toNat), (416, msgPayload m)]).1
  BitVec.ofNat 512 (head * 2 ^ 32 + (crc32 480 head).toNat)

/-- The TYPE codes that R456 lists. -/
def flitTypeKnown (t : BitVec 8) : Bool :=
  let n := t.toNat
  n ≤ 0x0A || (0x10 ≤ n && n ≤ 0x18) || (0x20 ≤ n && n ≤ 0x2D) || (0x30 ≤ n && n ≤ 0x38) || n = 0x40 ||
    (0x50 ≤ n && n ≤ 0x52) || n = 0x60 || n = 0x70

/-- The credited class of a TYPE code (R456, R460). -/
def typeCls (t : BitVec 8) : Option FlitClass :=
  match t.toNat / 16 with
  | 2 => some .up
  | 3 => some .down
  | 4 => some .signal
  | 5 => some .mgmt
  | 6 => some .result
  | 7 => some .mirror
  | _ => none

/-- Whether link-level retry covers a TYPE code (R458). -/
def typeRetried (t : BitVec 8) : Bool :=
  let n := t.toNat
  (0x20 ≤ n && n ≤ 0x70) || n = 0x04 || (0x07 ≤ n && n ≤ 0x0A)

end Sys2Proof.Machine
end

