-- ==== Sys2Proof/Machine/Table.lean ====
section
/-! DEFINITION. Tables by number in one canonical form: the numbers strictly rise and no entry equals what an unlisted
number reads as, so that equal tables are equal data. Banks of registers, buffers, jobs, rings and byte memories are held
so. -/

namespace Sys2Proof.Machine

/-- A table by number. -/
abbrev Tbl (α : Type) := List (Nat × α)

/-- The entry at a number, `d` when none is listed. -/
def tget {α : Type} (d : α) : Tbl α → Nat → α
  | [], _ => d
  | (j, v) :: rest, k => if j = k then v else tget d rest k

/-- An entry is put before the first of a higher number. -/
def tput {α : Type} (k : Nat) (v : α) : Tbl α → Tbl α
  | [] => [(k, v)]
  | (j, u) :: rest => if k < j then (k, v) :: (j, u) :: rest else (j, u) :: tput k v rest

/-- The table without the entry of a number. -/
def tdel {α : Type} (k : Nat) (t : Tbl α) : Tbl α := t.filter fun e => e.1 != k

/-- The entry at a number takes a value. -/
def tset {α : Type} [DecidableEq α] (d : α) (t : Tbl α) (k : Nat) (v : α) : Tbl α :=
  if v = d then tdel k t else tput k v (tdel k t)

/-- The entry at a number goes through a function. -/
def tmod {α : Type} [DecidableEq α] (d : α) (t : Tbl α) (k : Nat) (f : α → α) : Tbl α := tset d t k (f (tget d t k))

/-- Whether every number listed lies above `k` and the numbers rise, and no entry is `d`. -/
def tabove {α : Type} [DecidableEq α] (d : α) : Nat → Tbl α → Bool
  | _, [] => true
  | k, (j, v) :: rest => decide (k < j) && decide (v ≠ d) && tabove d j rest

/-- The canonical form. -/
def twf {α : Type} [DecidableEq α] (d : α) : Tbl α → Bool
  | [] => true
  | (j, v) :: rest => decide (v ≠ d) && tabove d j rest

/-- Every entry goes through a function of its number and value; entries that become `d` leave the table. -/
def tmap {α : Type} [DecidableEq α] (d : α) (f : Nat → α → α) (t : Tbl α) : Tbl α :=
  t.filterMap fun (k, v) => let v' := f k v; if v' = d then none else some (k, v')

end Sys2Proof.Machine
end

