-- ==== Sys2Proof/Machine/Regs.lean ====
section
/-! DEFINITION. The registers of every page as the spec's register tables give them: one field per register field that
holds a value, its reset value, and reads, writes and clears by page offset. Fields that only show other state (depths,
live copies, constants) are not held here: Access.lean adds them. -/

namespace Sys2Proof.Machine

/-- The header registers a page holds (R504). -/
structure PageHdr where
  pageCtrlForceBit : BitVec 6 := 0
  pageCtrlVector : BitVec 6 := 0
  pageIntStatus : BitVec 64 := 0
  pageIntEnable : BitVec 64 := 0
  pageErrCount : BitVec 32 := 0
  pageScratch : BitVec 64 := 0
  deriving DecidableEq, Repr

/-- What the stored fields of these registers read as, by page offset. -/
def PageHdr.read (r : PageHdr) : Nat → Word
  | 0x010 => putF 16 r.pageCtrlForceBit ||| putF 0 r.pageCtrlVector
  | 0x020 => putF 0 r.pageIntStatus
  | 0x028 => putF 0 r.pageIntEnable
  | 0x030 => putF 0 r.pageErrCount
  | 0x038 => putF 0 r.pageScratch
  | _ => 0

/-- A write by page offset: RW fields take their bits, W1C fields clear where a one is written. -/
def PageHdr.write (r : PageHdr) (off : Nat) (v : Word) : PageHdr :=
  match off with
  | 0x010 => { r with pageCtrlForceBit := getF v 16 6, pageCtrlVector := getF v 0 6 }
  | 0x020 => { r with pageIntStatus := r.pageIntStatus &&& ~~~ getF v 0 64 }
  | 0x028 => { r with pageIntEnable := getF v 0 64 }
  | 0x038 => { r with pageScratch := getF v 0 64 }
  | _ => r

/-- HUBID registers held (R515). -/
structure HubidRegs where
  linkVersionVer : BitVec 8 := 4
  linkVersionVerMin : BitVec 8 := 3
  hubAddr : BitVec 16 := 0xffff
  deriving DecidableEq, Repr

/-- What the stored fields of these registers read as, by page offset. -/
def HubidRegs.read (r : HubidRegs) : Nat → Word
  | 0x050 => putF 8 r.linkVersionVer ||| putF 0 r.linkVersionVerMin
  | 0x058 => putF 0 r.hubAddr
  | _ => 0

/-- A write by page offset: RW fields take their bits, W1C fields clear where a one is written. -/
def HubidRegs.write (r : HubidRegs) (off : Nat) (v : Word) : HubidRegs :=
  match off with
  | 0x058 => { r with hubAddr := getF v 0 16 }
  | _ => r

/-- MGMT registers held (R517). -/
structure MgmtRegs where
  mgIpv4Addr : BitVec 32 := 0
  mgIpv4Prefix : BitVec 6 := 0
  mgGateway : BitVec 32 := 0
  mgMac : BitVec 48 := 0
  mgQuery : BitVec 16 := 0x5251
  mgStatusRxDrop : BitVec 16 := 0
  mgStatusTxDrop : BitVec 16 := 0
  mgStatusLinkUp : Bool := false
  deriving DecidableEq, Repr

/-- What the stored fields of these registers read as, by page offset. -/
def MgmtRegs.read (r : MgmtRegs) : Nat → Word
  | 0x040 => putF 32 r.mgIpv4Addr ||| putF 0 r.mgIpv4Prefix
  | 0x048 => putF 0 r.mgGateway
  | 0x050 => putF 0 r.mgMac
  | 0x058 => putF 0 r.mgQuery
  | 0x060 => putF 48 r.mgStatusRxDrop ||| putF 32 r.mgStatusTxDrop ||| putB 0 r.mgStatusLinkUp
  | _ => 0

/-- A write by page offset: RW fields take their bits, W1C fields clear where a one is written. -/
def MgmtRegs.write (r : MgmtRegs) (off : Nat) (v : Word) : MgmtRegs :=
  match off with
  | 0x040 => { r with mgIpv4Addr := getF v 32 32, mgIpv4Prefix := getF v 0 6 }
  | 0x048 => { r with mgGateway := getF v 0 32 }
  | 0x058 => { r with mgQuery := getF v 0 16 }
  | _ => r

/-- A read that clears, by page offset: the RC fields return to zero (R9 notation, R170). -/
def MgmtRegs.clear (r : MgmtRegs) (off : Nat) : MgmtRegs :=
  match off with
  | 0x060 => { r with mgStatusRxDrop := 0, mgStatusTxDrop := 0 }
  | _ => r

/-- PORT_ROLE of a hub port (R25). -/
structure PortRoleRegs where
  portRoleCableMismatch : Bool := false
  portRoleSeenHub : BitVec 16 := 0xffff
  portRoleExpectHub : BitVec 16 := 0xffff
  portRoleSubEn : BitVec 4 := 0
  portRoleSplit : Bool := false
  portRole : BitVec 3 := 0
  deriving DecidableEq, Repr

/-- What the stored fields of these registers read as, by page offset. -/
def PortRoleRegs.read (r : PortRoleRegs) : Nat → Word
  | 0x040 => putB 48 r.portRoleCableMismatch ||| putF 32 r.portRoleSeenHub ||| putF 16 r.portRoleExpectHub ||| putF 4 r.portRoleSubEn ||| putB 3 r.portRoleSplit ||| putF 0 r.portRole
  | _ => 0

/-- A write by page offset: RW fields take their bits, W1C fields clear where a one is written. -/
def PortRoleRegs.write (r : PortRoleRegs) (off : Nat) (v : Word) : PortRoleRegs :=
  match off with
  | 0x040 => { r with portRoleExpectHub := getF v 16 16, portRoleSubEn := getF v 4 4, portRoleSplit := getB v 3, portRole := getF v 0 3 }
  | _ => r

/-- ROOT registers held (R31, R159). -/
structure RootRegs where
  endpointEpConflict : Bool := false
  endpointEpValid : Bool := false
  endpointEp : BitVec 24 := 0
  integDieType : BitVec 16 := 0
  integRef156 : Bool := false
  integTaps : BitVec 7 := 0
  deriving DecidableEq, Repr

/-- What the stored fields of these registers read as, by page offset. -/
def RootRegs.read (r : RootRegs) : Nat → Word
  | 0x040 => putB 25 r.endpointEpConflict ||| putB 24 r.endpointEpValid ||| putF 0 r.endpointEp
  | 0x050 => putF 48 r.integDieType ||| putB 8 r.integRef156 ||| putF 0 r.integTaps
  | _ => 0

/-- TIMEBASE registers held (R72). -/
structure TimebaseRegs where
  hallEpoch : BitVec 48 := 0
  rateNow : BitVec 40 := 0
  statusEpochLearnt : Bool := false
  statusIslandLock : Bool := false
  statusHoldover : Bool := false
  statusValid : Bool := false
  wireRefusePast : BitVec 16 := 0
  wireRefuseTooFar : BitVec 16 := 0
  wireRefuseStepFar : BitVec 16 := 0
  wireRefuseNotValid : BitVec 16 := 0
  deriving DecidableEq, Repr

/-- What the stored fields of these registers read as, by page offset. -/
def TimebaseRegs.read (r : TimebaseRegs) : Nat → Word
  | 0x060 => putF 0 r.hallEpoch
  | 0x068 => putF 0 r.rateNow
  | 0x070 => putB 3 r.statusEpochLearnt ||| putB 2 r.statusIslandLock ||| putB 1 r.statusHoldover ||| putB 0 r.statusValid
  | 0x078 => putF 48 r.wireRefusePast ||| putF 32 r.wireRefuseTooFar ||| putF 16 r.wireRefuseStepFar ||| putF 0 r.wireRefuseNotValid
  | _ => 0

/-- A write by page offset: RW fields take their bits, W1C fields clear where a one is written. -/
def TimebaseRegs.write (r : TimebaseRegs) (off : Nat) (v : Word) : TimebaseRegs :=
  match off with
  | 0x060 => { r with hallEpoch := getF v 0 48 }
  | _ => r

/-- A read that clears, by page offset: the RC fields return to zero (R9 notation, R170). -/
def TimebaseRegs.clear (r : TimebaseRegs) (off : Nat) : TimebaseRegs :=
  match off with
  | 0x078 => { r with wireRefusePast := 0, wireRefuseTooFar := 0, wireRefuseStepFar := 0, wireRefuseNotValid := 0 }
  | _ => r

/-- EMU registers of one engine (R94). -/
structure EmuRegs where
  emuCtrlContinuous : Bool := false
  emuCtrlEdgeB : Bool := false
  emuCtrlEdgeA : Bool := false
  emuCtrlPrescale : BitVec 2 := 0
  emuCtrlK : BitVec 5 := 0
  emuCtrlMode : BitVec 2 := 0
  emuSrcBClass : BitVec 3 := 0
  emuSrcBIndex : BitVec 9 := 0
  emuSrcAClass : BitVec 3 := 0
  emuSrcAIndex : BitVec 9 := 0
  emuGateTimeoutNs : BitVec 32 := 0x400
  emuGateGateNs : BitVec 32 := 0x400
  emuNominalPNum : BitVec 32 := 0
  emuNominalPDen : BitVec 8 := 0
  emuStatusSetSeq : BitVec 16 := 0
  emuStatusSamples : BitVec 21 := 0
  emuStatusCause : BitVec 3 := 0
  emuStatusStepped : Bool := false
  emuStatusFailed : Bool := false
  emuStatusValidAll : Bool := false
  emuStatusBusy : Bool := false
  emuDiscardMissed : BitVec 16 := 0
  emuDiscardTimeout : BitVec 16 := 0
  emuDiscardOverrange : BitVec 16 := 0
  emuDiscardStepped : BitVec 16 := 0
  emuMean : BitVec 64 := 0
  emuStdev : BitVec 64 := 0
  emuMin : BitVec 64 := 0
  emuMax : BitVec 64 := 0
  emuLastTick : BitVec 64 := 0
  emuLastFrac : BitVec 16 := 0
  deriving DecidableEq, Repr

/-- What the stored fields of these registers read as, by page offset. -/
def EmuRegs.read (r : EmuRegs) : Nat → Word
  | 0x040 => putB 15 r.emuCtrlContinuous ||| putB 14 r.emuCtrlEdgeB ||| putB 13 r.emuCtrlEdgeA ||| putF 11 r.emuCtrlPrescale ||| putF 6 r.emuCtrlK ||| putF 0 r.emuCtrlMode
  | 0x048 => putF 25 r.emuSrcBClass ||| putF 16 r.emuSrcBIndex ||| putF 9 r.emuSrcAClass ||| putF 0 r.emuSrcAIndex
  | 0x050 => putF 32 r.emuGateTimeoutNs ||| putF 0 r.emuGateGateNs
  | 0x058 => putF 8 r.emuNominalPNum ||| putF 0 r.emuNominalPDen
  | 0x060 => putF 48 r.emuStatusSetSeq ||| putF 8 r.emuStatusSamples ||| putF 4 r.emuStatusCause ||| putB 3 r.emuStatusStepped ||| putB 2 r.emuStatusFailed ||| putB 1 r.emuStatusValidAll ||| putB 0 r.emuStatusBusy
  | 0x068 => putF 48 r.emuDiscardMissed ||| putF 32 r.emuDiscardTimeout ||| putF 16 r.emuDiscardOverrange ||| putF 0 r.emuDiscardStepped
  | 0x070 => putF 0 r.emuMean
  | 0x090 => putF 0 r.emuLastTick
  | _ => 0

/-- A write by page offset: RW fields take their bits, W1C fields clear where a one is written. -/
def EmuRegs.write (r : EmuRegs) (off : Nat) (v : Word) : EmuRegs :=
  match off with
  | 0x040 => { r with emuCtrlContinuous := getB v 15, emuCtrlEdgeB := getB v 14, emuCtrlEdgeA := getB v 13, emuCtrlPrescale := getF v 11 2, emuCtrlK := getF v 6 5, emuCtrlMode := getF v 0 2 }
  | 0x048 => { r with emuSrcBClass := getF v 25 3, emuSrcBIndex := getF v 16 9, emuSrcAClass := getF v 9 3, emuSrcAIndex := getF v 0 9 }
  | 0x050 => { r with emuGateTimeoutNs := getF v 32 32, emuGateGateNs := getF v 0 32 }
  | 0x058 => { r with emuNominalPNum := getF v 8 32, emuNominalPDen := getF v 0 8 }
  | _ => r

/-- A read that clears, by page offset: the RC fields return to zero (R9 notation, R170). -/
def EmuRegs.clear (r : EmuRegs) (off : Nat) : EmuRegs :=
  match off with
  | 0x068 => { r with emuDiscardMissed := 0, emuDiscardTimeout := 0, emuDiscardOverrange := 0, emuDiscardStepped := 0 }
  | _ => r

/-- The EMU values an interface has latched for one engine (R93). -/
structure EmuLatch where
  emuStdev : BitVec 64 := 0
  emuMin : BitVec 64 := 0
  emuMax : BitVec 64 := 0
  emuLastFrac : BitVec 16 := 0
  deriving DecidableEq, Repr

/-- What the stored fields of these registers read as, by page offset. -/
def EmuLatch.read (r : EmuLatch) : Nat → Word
  | 0x078 => putF 0 r.emuStdev
  | 0x080 => putF 0 r.emuMin
  | 0x088 => putF 0 r.emuMax
  | 0x098 => putF 0 r.emuLastFrac
  | _ => 0

/-- VERNIER registers held (R95). -/
structure VernierRegs where
  vernCtrlCalPeriodMs : BitVec 16 := 0x3e8
  vernReady : BitVec 19 := 0
  vernFault : BitVec 19 := 0
  vernSel : BitVec 5 := 0
  deriving DecidableEq, Repr

/-- What the stored fields of these registers read as, by page offset. -/
def VernierRegs.read (r : VernierRegs) : Nat → Word
  | 0x040 => putF 0 r.vernCtrlCalPeriodMs
  | 0x048 => putF 0 r.vernReady
  | 0x050 => putF 0 r.vernFault
  | 0x058 => putF 0 r.vernSel
  | _ => 0

/-- A write by page offset: RW fields take their bits, W1C fields clear where a one is written. -/
def VernierRegs.write (r : VernierRegs) (off : Nat) (v : Word) : VernierRegs :=
  match off with
  | 0x040 => { r with vernCtrlCalPeriodMs := getF v 0 16 }
  | 0x050 => { r with vernFault := r.vernFault &&& ~~~ getF v 0 19 }
  | 0x058 => { r with vernSel := getF v 0 5 }
  | _ => r

/-- What VERN_RESULT shows of one cluster (R95). -/
structure ClusterRegs where
  vernResultCalCount : BitVec 32 := 0
  vernResultInlMax : BitVec 16 := 0
  vernResultOffsetMax : BitVec 16 := 0
  deriving DecidableEq, Repr

/-- What the stored fields of these registers read as, by page offset. -/
def ClusterRegs.read (r : ClusterRegs) : Nat → Word
  | 0x060 => putF 32 r.vernResultCalCount ||| putF 16 r.vernResultInlMax ||| putF 0 r.vernResultOffsetMax
  | _ => 0

/-- Registers of a link page that are one per page (R121, R468). -/
structure LinkPageRegs where
  ptTsqStatusOvfCount : BitVec 16 := 0
  ptTsqStatusOvf : Bool := false
  ptTsqTick : BitVec 64 := 0
  lkStateSpareFor : BitVec 3 := 7
  lkLaneSel : BitVec 3 := 0
  lkRemapRemaps : BitVec 16 := 0
  lkRemapRemapFail : BitVec 16 := 0
  lkRemapCollisions : BitVec 16 := 0
  lkRemapSpwTimeout : BitVec 16 := 0
  deriving DecidableEq, Repr

/-- What the stored fields of these registers read as, by page offset. -/
def LinkPageRegs.read (r : LinkPageRegs) : Nat → Word
  | 0x160 => putF 48 r.ptTsqStatusOvfCount ||| putB 8 r.ptTsqStatusOvf
  | 0x170 => putF 0 r.ptTsqTick
  | 0x180 => putF 16 r.lkStateSpareFor
  | 0x190 => putF 0 r.lkLaneSel
  | 0x1B0 => putF 48 r.lkRemapRemaps ||| putF 32 r.lkRemapRemapFail ||| putF 16 r.lkRemapCollisions ||| putF 0 r.lkRemapSpwTimeout
  | _ => 0

/-- A write by page offset: RW fields take their bits, W1C fields clear where a one is written. -/
def LinkPageRegs.write (r : LinkPageRegs) (off : Nat) (v : Word) : LinkPageRegs :=
  match off with
  | 0x160 => { r with ptTsqStatusOvf := r.ptTsqStatusOvf && !getB v 8 }
  | 0x190 => { r with lkLaneSel := getF v 0 3 }
  | _ => r

/-- A read that clears, by page offset: the RC fields return to zero (R9 notation, R170). -/
def LinkPageRegs.clear (r : LinkPageRegs) (off : Nat) : LinkPageRegs :=
  match off with
  | 0x160 => { r with ptTsqStatusOvfCount := 0 }
  | 0x1B0 => { r with lkRemapRemaps := 0, lkRemapRemapFail := 0, lkRemapCollisions := 0, lkRemapSpwTimeout := 0 }
  | _ => r

/-- Registers of a link page that PT_SEL banks by sub-port (R121, R468). -/
structure LinkSubRegs where
  ptCtrlCalPeriodS : BitVec 16 := 0x3c
  ptCtrlFilt : BitVec 4 := 4
  ptCtrlRateExp : BitVec 4 := 0xe
  ptCtrlTimeEn : Bool := true
  ptExtExtTx : BitVec 32 := 0
  ptExtExtRx : BitVec 32 := 0
  ptCalStatusCalCount : BitVec 16 := 0
  ptCalStatusCalFail : Bool := false
  ptDelaySettled : Bool := false
  ptDelay : BitVec 48 := 0
  ptOffset : BitVec 48 := 0
  ptGatesOffsetGate : BitVec 16 := 0x140
  ptGatesDelayGate : BitVec 16 := 0x20
  ptGatesResMax : BitVec 16 := 0x1f40
  ptGatesTurnMax : BitVec 16 := 0xfa0
  ptCol0Malformed : BitVec 16 := 0
  ptCol0Uncal : BitVec 16 := 0
  ptCol0Missed : BitVec 16 := 0
  ptCol0FuLost : BitVec 16 := 0
  ptCol1Stepped : BitVec 16 := 0
  ptCol1Remap : BitVec 16 := 0
  ptCol1UpstreamBad : BitVec 16 := 0
  ptCol1ResGate : BitVec 16 := 0
  ptCol2NotSettled : BitVec 16 := 0
  ptCol2TurnGate : BitVec 16 := 0
  ptCol2DelayGate : BitVec 16 := 0
  ptCol2OffsetGate : BitVec 16 := 0
  lkStateRetrains : BitVec 16 := 0
  lkStateNotReady : Bool := false
  lkStateVersion : BitVec 8 := 0
  lkState : BitVec 3 := 0
  lkCtrlSerLimit : BitVec 16 := 0x400
  lkCtrlPmd : Bool := false
  lkCtrlRemoteWr : Bool := false
  lkCtrlSpwEn : Bool := false
  lkCtrlRemapLane : BitVec 3 := 0
  lkFlitCrcDrop : BitVec 16 := 0
  lkFlitReplayDiscard : BitVec 16 := 0
  lkFlitMalformed : BitVec 16 := 0
  lkFlitRetries : BitVec 16 := 0
  lkCreditNotReadyRx : BitVec 16 := 0
  lkCreditNotReadyTx : BitVec 16 := 0
  lkCreditStallUs : BitVec 32 := 0
  lkRegCtrlWrite : Bool := false
  lkRegCtrlOffset : BitVec 24 := 0
  lkRegData : BitVec 64 := 0
  lkRegStatusErr : Bool := false
  lkRegStatusBusy : Bool := false
  deriving DecidableEq, Repr

/-- What the stored fields of these registers read as, by page offset. -/
def LinkSubRegs.read (r : LinkSubRegs) : Nat → Word
  | 0x108 => putF 16 r.ptCtrlCalPeriodS ||| putF 8 r.ptCtrlFilt ||| putF 4 r.ptCtrlRateExp ||| putB 0 r.ptCtrlTimeEn
  | 0x110 => putF 32 r.ptExtExtTx ||| putF 0 r.ptExtExtRx
  | 0x128 => putF 48 r.ptCalStatusCalCount ||| putB 0 r.ptCalStatusCalFail
  | 0x130 => putB 63 r.ptDelaySettled ||| putF 0 r.ptDelay
  | 0x138 => putF 0 r.ptOffset
  | 0x140 => putF 48 r.ptGatesOffsetGate ||| putF 32 r.ptGatesDelayGate ||| putF 16 r.ptGatesResMax ||| putF 0 r.ptGatesTurnMax
  | 0x148 => putF 48 r.ptCol0Malformed ||| putF 32 r.ptCol0Uncal ||| putF 16 r.ptCol0Missed ||| putF 0 r.ptCol0FuLost
  | 0x150 => putF 48 r.ptCol1Stepped ||| putF 32 r.ptCol1Remap ||| putF 16 r.ptCol1UpstreamBad ||| putF 0 r.ptCol1ResGate
  | 0x158 => putF 48 r.ptCol2NotSettled ||| putF 32 r.ptCol2TurnGate ||| putF 16 r.ptCol2DelayGate ||| putF 0 r.ptCol2OffsetGate
  | 0x180 => putF 48 r.lkStateRetrains ||| putB 21 r.lkStateNotReady ||| putF 8 r.lkStateVersion ||| putF 0 r.lkState
  | 0x188 => putF 32 r.lkCtrlSerLimit ||| putB 10 r.lkCtrlPmd ||| putB 9 r.lkCtrlRemoteWr ||| putB 8 r.lkCtrlSpwEn ||| putF 2 r.lkCtrlRemapLane
  | 0x1A0 => putF 48 r.lkFlitCrcDrop ||| putF 32 r.lkFlitReplayDiscard ||| putF 16 r.lkFlitMalformed ||| putF 0 r.lkFlitRetries
  | 0x1A8 => putF 48 r.lkCreditNotReadyRx ||| putF 32 r.lkCreditNotReadyTx ||| putF 0 r.lkCreditStallUs
  | 0x1B8 => putB 62 r.lkRegCtrlWrite ||| putF 0 r.lkRegCtrlOffset
  | 0x1C0 => putF 0 r.lkRegData
  | 0x1C8 => putB 1 r.lkRegStatusErr ||| putB 0 r.lkRegStatusBusy
  | _ => 0

/-- A write by page offset: RW fields take their bits, W1C fields clear where a one is written. -/
def LinkSubRegs.write (r : LinkSubRegs) (off : Nat) (v : Word) : LinkSubRegs :=
  match off with
  | 0x108 => { r with ptCtrlCalPeriodS := getF v 16 16, ptCtrlFilt := getF v 8 4, ptCtrlRateExp := getF v 4 4, ptCtrlTimeEn := getB v 0 }
  | 0x110 => { r with ptExtExtTx := getF v 32 32, ptExtExtRx := getF v 0 32 }
  | 0x128 => { r with ptCalStatusCalFail := r.ptCalStatusCalFail && !getB v 0 }
  | 0x140 => { r with ptGatesOffsetGate := getF v 48 16, ptGatesDelayGate := getF v 32 16, ptGatesResMax := getF v 16 16, ptGatesTurnMax := getF v 0 16 }
  | 0x188 => { r with lkCtrlSerLimit := getF v 32 16, lkCtrlPmd := getB v 10, lkCtrlRemoteWr := getB v 9, lkCtrlSpwEn := getB v 8, lkCtrlRemapLane := getF v 2 3 }
  | 0x1B8 => { r with lkRegCtrlWrite := getB v 62, lkRegCtrlOffset := getF v 0 24 }
  | 0x1C0 => { r with lkRegData := getF v 0 64 }
  | _ => r

/-- A read that clears, by page offset: the RC fields return to zero (R9 notation, R170). -/
def LinkSubRegs.clear (r : LinkSubRegs) (off : Nat) : LinkSubRegs :=
  match off with
  | 0x148 => { r with ptCol0Malformed := 0, ptCol0Uncal := 0, ptCol0Missed := 0, ptCol0FuLost := 0 }
  | 0x150 => { r with ptCol1Stepped := 0, ptCol1Remap := 0, ptCol1UpstreamBad := 0, ptCol1ResGate := 0 }
  | 0x158 => { r with ptCol2NotSettled := 0, ptCol2TurnGate := 0, ptCol2DelayGate := 0, ptCol2OffsetGate := 0 }
  | 0x180 => { r with lkStateRetrains := 0 }
  | 0x1A0 => { r with lkFlitCrcDrop := 0, lkFlitReplayDiscard := 0, lkFlitMalformed := 0, lkFlitRetries := 0 }
  | 0x1A8 => { r with lkCreditNotReadyRx := 0, lkCreditNotReadyTx := 0, lkCreditStallUs := 0 }
  | _ => r

/-- LK_FEC of one physical lane (R468). -/
structure LaneFecRegs where
  lkFecCorrCw : BitVec 32 := 0
  lkFecUncorrCw : BitVec 16 := 0
  lkFecLockLoss : BitVec 16 := 0
  deriving DecidableEq, Repr

/-- What the stored fields of these registers read as, by page offset. -/
def LaneFecRegs.read (r : LaneFecRegs) : Nat → Word
  | 0x198 => putF 32 r.lkFecCorrCw ||| putF 16 r.lkFecUncorrCw ||| putF 0 r.lkFecLockLoss
  | _ => 0

/-- A read that clears, by page offset: the RC fields return to zero (R9 notation, R170). -/
def LaneFecRegs.clear (r : LaneFecRegs) (off : Nat) : LaneFecRegs :=
  match off with
  | 0x198 => { r with lkFecCorrCw := 0, lkFecUncorrCw := 0, lkFecLockLoss := 0 }
  | _ => r

/-- SERVO registers held (R156). -/
structure ServoRegs where
  servoCtrlHoldLimitMs : BitVec 16 := 0x3e8
  servoCtrlLossSamples : BitVec 8 := 3
  servoCtrlLockThresh : BitVec 16 := 0x10
  servoCtrlLeadForceEn : Bool := false
  servoCtrlLeadForce : Bool := false
  servoCtrlMode : BitVec 2 := 0
  servoKp : BitVec 32 := 0x10dddf0
  servoKi : BitVec 48 := 0x108f2838
  servoInteg : BitVec 64 := 0
  rateManual : BitVec 40 := 0
  servoStatusLockCount : BitVec 16 := 0
  servoStatusFreqSat : Bool := false
  servoStatusFaultB : Bool := false
  servoStatusFaultA : Bool := false
  servoStatusLead : Bool := false
  servoStatusState : BitVec 3 := 0
  servoTheta : BitVec 48 := 0
  planeCmpFaults : BitVec 16 := 0
  planeCmpDiff : BitVec 48 := 0
  servoUtcUtcValid : Bool := false
  servoUtcLi61 : Bool := false
  servoUtcLi59 : Bool := false
  servoUtcUtcOffset : BitVec 16 := 0
  servoMasterGen : BitVec 16 := 0
  servoMaster : BitVec 16 := 0xffff
  servoMasterPrio : BitVec 8 := 0
  servoMasterClass : BitVec 2 := 0
  deriving DecidableEq, Repr

/-- What the stored fields of these registers read as, by page offset. -/
def ServoRegs.read (r : ServoRegs) : Nat → Word
  | 0x040 => putF 48 r.servoCtrlHoldLimitMs ||| putF 32 r.servoCtrlLossSamples ||| putF 16 r.servoCtrlLockThresh ||| putB 6 r.servoCtrlLeadForceEn ||| putB 5 r.servoCtrlLeadForce ||| putF 0 r.servoCtrlMode
  | 0x048 => putF 0 r.servoKp
  | 0x050 => putF 0 r.servoKi
  | 0x058 => putF 0 r.servoInteg
  | 0x060 => putF 0 r.rateManual
  | 0x068 => putF 48 r.servoStatusLockCount ||| putB 8 r.servoStatusFreqSat ||| putB 7 r.servoStatusFaultB ||| putB 6 r.servoStatusFaultA ||| putB 5 r.servoStatusLead ||| putF 0 r.servoStatusState
  | 0x070 => putF 0 r.servoTheta
  | 0x078 => putF 48 r.planeCmpFaults ||| putF 0 r.planeCmpDiff
  | 0x080 => putB 48 r.servoUtcUtcValid ||| putB 47 r.servoUtcLi61 ||| putB 46 r.servoUtcLi59 ||| putF 0 r.servoUtcUtcOffset
  | 0x088 => putF 48 r.servoMasterGen ||| putF 32 r.servoMaster ||| putF 24 r.servoMasterPrio ||| putF 20 r.servoMasterClass
  | _ => 0

/-- A write by page offset: RW fields take their bits, W1C fields clear where a one is written. -/
def ServoRegs.write (r : ServoRegs) (off : Nat) (v : Word) : ServoRegs :=
  match off with
  | 0x040 => { r with servoCtrlHoldLimitMs := getF v 48 16, servoCtrlLossSamples := getF v 32 8, servoCtrlLockThresh := getF v 16 16, servoCtrlLeadForceEn := getB v 6, servoCtrlLeadForce := getB v 5, servoCtrlMode := getF v 0 2 }
  | 0x048 => { r with servoKp := getF v 0 32 }
  | 0x050 => { r with servoKi := getF v 0 48 }
  | 0x060 => { r with rateManual := getF v 0 40 }
  | _ => r

/-- A read that clears, by page offset: the RC fields return to zero (R9 notation, R170). -/
def ServoRegs.clear (r : ServoRegs) (off : Nat) : ServoRegs :=
  match off with
  | 0x078 => { r with planeCmpFaults := 0 }
  | _ => r

/-- REF registers held (R157). -/
structure RefRegs where
  masterCfgPrio : BitVec 8 := 0x80
  masterCfgTarget : BitVec 2 := 0
  masterStatusGen : BitVec 16 := 0
  masterStatusHandovers : BitVec 16 := 0
  masterStatusClass : BitVec 2 := 2
  masterStatusIsMaster : Bool := false
  refCtrlRefStepNs : BitVec 32 := 0x3e8
  refCtrlRefHoldS : BitVec 16 := 0xe10
  refCtrlRefSel : BitVec 3 := 0
  refKp : BitVec 32 := 0x2b2dc
  refKi : BitVec 48 := 0x6c86
  refInDelayPpsDelay : BitVec 32 := 0
  refInDelayF10mDelay : BitVec 32 := 0
  refTodPending : Bool := false
  refTodSec : BitVec 48 := 0
  refStatusIncoherent : BitVec 16 := 0
  refStatusLosses : BitVec 16 := 0
  refStatusMisaligned : Bool := false
  refStatusRefOk : Bool := false
  refUtcUtcValid : Bool := false
  refUtcLi61 : Bool := false
  refUtcLi59 : Bool := false
  refUtcUtcOffset : BitVec 16 := 0
  outAdjPpsAdj : BitVec 32 := 0
  outAdjF10mAdj : BitVec 32 := 0
  outCtrlFree10 : Bool := false
  outCtrlEn : Bool := true
  ptpCtrlFilt : BitVec 4 := 4
  ptpCtrlDomain : BitVec 7 := 0
  ptpCtrlEn : Bool := false
  ptpAsym : BitVec 64 := 0
  ptpStatusDropped : BitVec 16 := 0
  ptpStatusPortState : BitVec 4 := 1
  ptpStatusForeign : BitVec 4 := 0
  ptpStatusMeanPath : BitVec 40 := 0
  deriving DecidableEq, Repr

/-- What the stored fields of these registers read as, by page offset. -/
def RefRegs.read (r : RefRegs) : Nat → Word
  | 0x040 => putF 8 r.masterCfgPrio ||| putF 0 r.masterCfgTarget
  | 0x048 => putF 48 r.masterStatusGen ||| putF 32 r.masterStatusHandovers ||| putF 4 r.masterStatusClass ||| putB 3 r.masterStatusIsMaster
  | 0x050 => putF 32 r.refCtrlRefStepNs ||| putF 16 r.refCtrlRefHoldS ||| putF 0 r.refCtrlRefSel
  | 0x058 => putF 0 r.refKp
  | 0x060 => putF 0 r.refKi
  | 0x068 => putF 32 r.refInDelayPpsDelay ||| putF 0 r.refInDelayF10mDelay
  | 0x070 => putB 48 r.refTodPending ||| putF 0 r.refTodSec
  | 0x078 => putF 48 r.refStatusIncoherent ||| putF 32 r.refStatusLosses ||| putB 3 r.refStatusMisaligned ||| putB 2 r.refStatusRefOk
  | 0x080 => putB 48 r.refUtcUtcValid ||| putB 47 r.refUtcLi61 ||| putB 46 r.refUtcLi59 ||| putF 0 r.refUtcUtcOffset
  | 0x088 => putF 32 r.outAdjPpsAdj ||| putF 0 r.outAdjF10mAdj
  | 0x090 => putB 1 r.outCtrlFree10 ||| putB 0 r.outCtrlEn
  | 0x098 => putF 12 r.ptpCtrlFilt ||| putF 1 r.ptpCtrlDomain ||| putB 0 r.ptpCtrlEn
  | 0x0A0 => putF 0 r.ptpAsym
  | 0x0A8 => putF 48 r.ptpStatusDropped ||| putF 44 r.ptpStatusPortState ||| putF 40 r.ptpStatusForeign ||| putF 0 r.ptpStatusMeanPath
  | _ => 0

/-- A write by page offset: RW fields take their bits, W1C fields clear where a one is written. -/
def RefRegs.write (r : RefRegs) (off : Nat) (v : Word) : RefRegs :=
  match off with
  | 0x040 => { r with masterCfgPrio := getF v 8 8, masterCfgTarget := getF v 0 2 }
  | 0x050 => { r with refCtrlRefStepNs := getF v 32 32, refCtrlRefHoldS := getF v 16 16, refCtrlRefSel := getF v 0 3 }
  | 0x058 => { r with refKp := getF v 0 32 }
  | 0x060 => { r with refKi := getF v 0 48 }
  | 0x068 => { r with refInDelayPpsDelay := getF v 32 32, refInDelayF10mDelay := getF v 0 32 }
  | 0x070 => { r with refTodSec := getF v 0 48 }
  | 0x080 => { r with refUtcUtcValid := getB v 48, refUtcLi61 := getB v 47, refUtcLi59 := getB v 46, refUtcUtcOffset := getF v 0 16 }
  | 0x088 => { r with outAdjPpsAdj := getF v 32 32, outAdjF10mAdj := getF v 0 32 }
  | 0x090 => { r with outCtrlFree10 := getB v 1, outCtrlEn := getB v 0 }
  | 0x098 => { r with ptpCtrlFilt := getF v 12 4, ptpCtrlDomain := getF v 1 7, ptpCtrlEn := getB v 0 }
  | 0x0A0 => { r with ptpAsym := getF v 0 64 }
  | _ => r

/-- A read that clears, by page offset: the RC fields return to zero (R9 notation, R170). -/
def RefRegs.clear (r : RefRegs) (off : Nat) : RefRegs :=
  match off with
  | 0x078 => { r with refStatusIncoherent := 0, refStatusLosses := 0 }
  | 0x0A8 => { r with ptpStatusDropped := 0 }
  | _ => r

/-- EVTRIG registers of the page (R177). -/
structure EvtrigRegs where
  evtCtrlEdge : BitVec 16 := 0
  evtCtrlEn : BitVec 16 := 0
  trigCtrlPol : BitVec 16 := 0
  trigCtrlEn : BitVec 16 := 0
  deriving DecidableEq, Repr

/-- What the stored fields of these registers read as, by page offset. -/
def EvtrigRegs.read (r : EvtrigRegs) : Nat → Word
  | 0x040 => putF 16 r.evtCtrlEdge ||| putF 0 r.evtCtrlEn
  | 0x048 => putF 16 r.trigCtrlPol ||| putF 0 r.trigCtrlEn
  | _ => 0

/-- A write by page offset: RW fields take their bits, W1C fields clear where a one is written. -/
def EvtrigRegs.write (r : EvtrigRegs) (off : Nat) (v : Word) : EvtrigRegs :=
  match off with
  | 0x040 => { r with evtCtrlEdge := getF v 16 16, evtCtrlEn := getF v 0 16 }
  | 0x048 => { r with trigCtrlPol := getF v 16 16, trigCtrlEn := getF v 0 16 }
  | _ => r

/-- EVTRIG registers of one event input (R177). -/
structure EvtLineRegs where
  ioAdj : BitVec 32 := 0
  evtLast : BitVec 64 := 0
  evtCount : BitVec 32 := 0
  deriving DecidableEq, Repr

/-- What the stored fields of these registers read as, by page offset. -/
def EvtLineRegs.read (r : EvtLineRegs) : Nat → Word
  | 0x058 => putF 0 r.ioAdj
  | 0x060 => putF 0 r.evtLast
  | 0x068 => putF 32 r.evtCount
  | _ => 0

/-- A write by page offset: RW fields take their bits, W1C fields clear where a one is written. -/
def EvtLineRegs.write (r : EvtLineRegs) (off : Nat) (v : Word) : EvtLineRegs :=
  match off with
  | 0x058 => { r with ioAdj := getF v 0 32 }
  | _ => r

/-- A read that clears, by page offset: the RC fields return to zero (R9 notation, R170). -/
def EvtLineRegs.clear (r : EvtLineRegs) (off : Nat) : EvtLineRegs :=
  match off with
  | 0x068 => { r with evtCount := 0 }
  | _ => r

/-- EVTRIG registers of one trigger output (R177, R273). -/
structure TrigLineRegs where
  ioAdj : BitVec 32 := 0
  trigWidth : BitVec 16 := 0x63
  trigModeDiv : BitVec 16 := 0
  trigMode : BitVec 3 := 0
  trigOffset : BitVec 32 := 0
  trigPeriodNum : BitVec 32 := 0
  trigPeriodDen : BitVec 8 := 0
  trigPhase : BitVec 64 := 0
  trigStatusDropped : BitVec 16 := 0
  deriving DecidableEq, Repr

/-- What the stored fields of these registers read as, by page offset. -/
def TrigLineRegs.read (r : TrigLineRegs) : Nat → Word
  | 0x058 => putF 0 r.ioAdj
  | 0x078 => putF 0 r.trigWidth
  | 0x080 => putF 8 r.trigModeDiv ||| putF 0 r.trigMode
  | 0x088 => putF 0 r.trigOffset
  | 0x090 => putF 8 r.trigPeriodNum ||| putF 0 r.trigPeriodDen
  | 0x098 => putF 0 r.trigPhase
  | 0x0A8 => putF 48 r.trigStatusDropped
  | _ => 0

/-- A write by page offset: RW fields take their bits, W1C fields clear where a one is written. -/
def TrigLineRegs.write (r : TrigLineRegs) (off : Nat) (v : Word) : TrigLineRegs :=
  match off with
  | 0x058 => { r with ioAdj := getF v 0 32 }
  | 0x078 => { r with trigWidth := getF v 0 16 }
  | 0x080 => { r with trigModeDiv := getF v 8 16, trigMode := getF v 0 3 }
  | 0x088 => { r with trigOffset := getF v 0 32 }
  | 0x090 => { r with trigPeriodNum := getF v 8 32, trigPeriodDen := getF v 0 8 }
  | 0x098 => { r with trigPhase := getF v 0 64 }
  | _ => r

/-- A read that clears, by page offset: the RC fields return to zero (R9 notation, R170). -/
def TrigLineRegs.clear (r : TrigLineRegs) (off : Nat) : TrigLineRegs :=
  match off with
  | 0x0A8 => { r with trigStatusDropped := 0 }
  | _ => r

/-- The totals of the data-fabric completion port (R179, R181). -/
structure DfcRegs where
  wcIssued0 : BitVec 64 := 0
  wcIssued1 : BitVec 64 := 0
  wcIssued2 : BitVec 64 := 0
  wcIssued3 : BitVec 64 := 0
  wcDone0 : BitVec 64 := 0
  wcDone1 : BitVec 64 := 0
  wcDone2 : BitVec 64 := 0
  wcDone3 : BitVec 64 := 0
  ingress0 : BitVec 64 := 0
  ingress1 : BitVec 64 := 0
  ingress2 : BitVec 64 := 0
  ingress3 : BitVec 64 := 0
  deriving DecidableEq, Repr

/-- What the stored fields of these registers read as, by page offset. -/
def DfcRegs.read (r : DfcRegs) : Nat → Word
  | 0x040 => putF 0 r.wcIssued0
  | 0x048 => putF 0 r.wcIssued1
  | 0x050 => putF 0 r.wcIssued2
  | 0x058 => putF 0 r.wcIssued3
  | 0x060 => putF 0 r.wcDone0
  | 0x068 => putF 0 r.wcDone1
  | 0x070 => putF 0 r.wcDone2
  | 0x078 => putF 0 r.wcDone3
  | 0x080 => putF 0 r.ingress0
  | 0x088 => putF 0 r.ingress1
  | 0x090 => putF 0 r.ingress2
  | 0x098 => putF 0 r.ingress3
  | _ => 0

/-- TAP registers of the page (R212). -/
structure TapPageRegs where
  tapGlobalEn : Bool := true
  tapFaultLo : BitVec 64 := 0
  tapFaultHi : BitVec 64 := 0
  tapQfullMissed : BitVec 16 := 0
  tapQfullHeld : BitVec 16 := 0
  deriving DecidableEq, Repr

/-- What the stored fields of these registers read as, by page offset. -/
def TapPageRegs.read (r : TapPageRegs) : Nat → Word
  | 0x048 => putB 0 r.tapGlobalEn
  | 0x050 => putF 0 r.tapFaultLo
  | 0x058 => putF 0 r.tapFaultHi
  | 0x0B0 => putF 16 r.tapQfullMissed ||| putF 0 r.tapQfullHeld
  | _ => 0

/-- A write by page offset: RW fields take their bits, W1C fields clear where a one is written. -/
def TapPageRegs.write (r : TapPageRegs) (off : Nat) (v : Word) : TapPageRegs :=
  match off with
  | 0x048 => { r with tapGlobalEn := getB v 0 }
  | 0x050 => { r with tapFaultLo := r.tapFaultLo &&& ~~~ getF v 0 64 }
  | 0x058 => { r with tapFaultHi := r.tapFaultHi &&& ~~~ getF v 0 64 }
  | _ => r

/-- A read that clears, by page offset: the RC fields return to zero (R9 notation, R170). -/
def TapPageRegs.clear (r : TapPageRegs) (off : Nat) : TapPageRegs :=
  match off with
  | 0x0B0 => { r with tapQfullMissed := 0, tapQfullHeld := 0 }
  | _ => r

/-- TAP registers of one tap, as the root shows them (R212). -/
structure TapRegs where
  tapCtrlHoldExt : BitVec 4 := 2
  tapCtrlNbEn : BitVec 6 := 0
  tapCtrlRepPrescale : BitVec 2 := 0
  tapCtrlRepEn : Bool := false
  tapCtrlLorTol : BitVec 16 := 0x1f4
  tapCtrlParked : Bool := false
  tapCtrlLaunchEn : Bool := true
  tapDelay : BitVec 32 := 0
  tapStatusState : BitVec 3 := 0
  tapStatusDepth : BitVec 3 := 0
  tapStatusLossCause : BitVec 2 := 0
  tapStatusLoss : Bool := false
  tapStatusMarginLow : Bool := false
  tapStatusHold : Bool := false
  tapStatusPNom : BitVec 24 := 0
  tapLaunchLid : BitVec 8 := 0
  tapLaunchLate : Bool := false
  tapLaunchMerged : Bool := false
  tapLaunchPhase : BitVec 32 := 0
  tapLaunchTick : BitVec 64 := 0
  tapSlackValid : Bool := false
  tapSlackAtLaunch : BitVec 31 := 0
  tapSlackNow : BitVec 31 := 0
  tapSlackMax : BitVec 31 := 0
  tapMarginThresh : BitVec 20 := 0
  tapMarginC : BitVec 20 := 0
  tapNbNbMismatch : BitVec 6 := 0
  tapNbNbId : BitVec 48 := 0xffffffffffff
  tapCountFrameErr : BitVec 16 := 0
  tapCountRptDrop : BitVec 16 := 0
  tapCountEpisodes : BitVec 16 := 0
  tapCountFcCount : BitVec 16 := 0
  deriving DecidableEq, Repr

/-- What the stored fields of these registers read as, by page offset. -/
def TapRegs.read (r : TapRegs) : Nat → Word
  | 0x060 => putF 60 r.tapCtrlHoldExt ||| putF 48 r.tapCtrlNbEn ||| putF 40 r.tapCtrlRepPrescale ||| putB 39 r.tapCtrlRepEn ||| putF 16 r.tapCtrlLorTol ||| putB 1 r.tapCtrlParked ||| putB 0 r.tapCtrlLaunchEn
  | 0x068 => putF 0 r.tapDelay
  | 0x070 => putF 61 r.tapStatusState ||| putF 56 r.tapStatusDepth ||| putF 54 r.tapStatusLossCause ||| putB 53 r.tapStatusLoss ||| putB 51 r.tapStatusMarginLow ||| putB 50 r.tapStatusHold ||| putF 0 r.tapStatusPNom
  | 0x078 => putF 56 r.tapLaunchLid ||| putB 55 r.tapLaunchLate ||| putB 54 r.tapLaunchMerged ||| putF 0 r.tapLaunchPhase
  | 0x088 => putB 63 r.tapSlackValid ||| putF 32 r.tapSlackAtLaunch ||| putF 0 r.tapSlackNow
  | 0x090 => putF 0 r.tapSlackMax
  | 0x098 => putF 44 r.tapMarginThresh ||| putF 0 r.tapMarginC
  | 0x0A0 => putF 56 r.tapNbNbMismatch ||| putF 0 r.tapNbNbId
  | 0x0A8 => putF 48 r.tapCountFrameErr ||| putF 32 r.tapCountRptDrop ||| putF 16 r.tapCountEpisodes ||| putF 0 r.tapCountFcCount
  | _ => 0

/-- A write by page offset: RW fields take their bits, W1C fields clear where a one is written. -/
def TapRegs.write (r : TapRegs) (off : Nat) (v : Word) : TapRegs :=
  match off with
  | 0x060 => { r with tapCtrlHoldExt := getF v 60 4, tapCtrlNbEn := getF v 48 6, tapCtrlRepPrescale := getF v 40 2, tapCtrlRepEn := getB v 39, tapCtrlLorTol := getF v 16 16, tapCtrlParked := getB v 1, tapCtrlLaunchEn := getB v 0 }
  | 0x068 => { r with tapDelay := getF v 0 32 }
  | 0x090 => { r with tapSlackMax := getF v 0 31 }
  | 0x098 => { r with tapMarginThresh := getF v 44 20 }
  | 0x0A0 => { r with tapNbNbId := getF v 0 48 }
  | _ => r

/-- A read that clears, by page offset: the RC fields return to zero (R9 notation, R170). -/
def TapRegs.clear (r : TapRegs) (off : Nat) : TapRegs :=
  match off with
  | 0x0A8 => { r with tapCountFrameErr := 0, tapCountRptDrop := 0, tapCountEpisodes := 0, tapCountFcCount := 0 }
  | _ => r

/-- SYNC registers of the page (R248). -/
structure SyncRegs where
  syncJobDefTimeout : BitVec 32 := 0x98967f
  sigDestRank : BitVec 20 := 0
  sigDestObj : BitVec 16 := 0
  sigDestAmount : BitVec 16 := 0
  sigDestFmask : BitVec 4 := 0
  sigTokenChan : BitVec 2 := 0
  sigTokenWindow : BitVec 6 := 0
  sigTokenBytes : BitVec 40 := 0
  syncErrRemoteRefused : BitVec 16 := 0
  syncErrStale : BitVec 16 := 0
  syncErrDupRelease : BitVec 16 := 0
  syncErrLateRelease : BitVec 16 := 0
  deriving DecidableEq, Repr

/-- What the stored fields of these registers read as, by page offset. -/
def SyncRegs.read (r : SyncRegs) : Nat → Word
  | 0x040 => putF 0 r.syncJobDefTimeout
  | 0x070 => putF 44 r.sigDestRank ||| putF 28 r.sigDestObj ||| putF 12 r.sigDestAmount ||| putF 0 r.sigDestFmask
  | 0x078 => putF 62 r.sigTokenChan ||| putF 56 r.sigTokenWindow ||| putF 0 r.sigTokenBytes
  | 0x0B8 => putF 48 r.syncErrRemoteRefused ||| putF 32 r.syncErrStale ||| putF 16 r.syncErrDupRelease ||| putF 0 r.syncErrLateRelease
  | _ => 0

/-- A write by page offset: RW fields take their bits, W1C fields clear where a one is written. -/
def SyncRegs.write (r : SyncRegs) (off : Nat) (v : Word) : SyncRegs :=
  match off with
  | 0x040 => { r with syncJobDefTimeout := getF v 0 32 }
  | 0x070 => { r with sigDestRank := getF v 44 20, sigDestObj := getF v 28 16, sigDestAmount := getF v 12 16, sigDestFmask := getF v 0 4 }
  | 0x078 => { r with sigTokenChan := getF v 62 2, sigTokenWindow := getF v 56 6, sigTokenBytes := getF v 0 40 }
  | _ => r

/-- A read that clears, by page offset: the RC fields return to zero (R9 notation, R170). -/
def SyncRegs.clear (r : SyncRegs) (off : Nat) : SyncRegs :=
  match off with
  | 0x0B8 => { r with syncErrRemoteRefused := 0, syncErrStale := 0, syncErrDupRelease := 0, syncErrLateRelease := 0 }
  | _ => r

/-- SYNC registers of one slot (R248). -/
structure SlotRegs where
  soCfgType : BitVec 3 := 0
  soCfgAutoclr : Bool := false
  soCfgEvtEn : Bool := false
  soCfgEvtIdx : BitVec 4 := 0
  soCfgTimed : Bool := false
  soCfgObj : BitVec 16 := 0
  soValSaturated : Bool := false
  soValArrived : Bool := false
  soValValue : BitVec 48 := 0
  soGen : BitVec 64 := 0
  deriving DecidableEq, Repr

/-- What the stored fields of these registers read as, by page offset. -/
def SlotRegs.read (r : SlotRegs) : Nat → Word
  | 0x050 => putF 61 r.soCfgType ||| putB 60 r.soCfgAutoclr ||| putB 59 r.soCfgEvtEn ||| putF 55 r.soCfgEvtIdx ||| putB 54 r.soCfgTimed ||| putF 32 r.soCfgObj
  | 0x058 => putB 63 r.soValSaturated ||| putB 61 r.soValArrived ||| putF 0 r.soValValue
  | 0x060 => putF 0 r.soGen
  | _ => 0

/-- A write by page offset: RW fields take their bits, W1C fields clear where a one is written. -/
def SlotRegs.write (r : SlotRegs) (off : Nat) (v : Word) : SlotRegs :=
  match off with
  | 0x050 => { r with soCfgType := getF v 61 3, soCfgAutoclr := getB v 60, soCfgEvtEn := getB v 59, soCfgEvtIdx := getF v 55 4, soCfgObj := getF v 32 16 }
  | 0x058 => { r with soValSaturated := r.soValSaturated && !getB v 63, soValValue := getF v 0 48 }
  | 0x060 => { r with soGen := getF v 0 64 }
  | _ => r

/-- SYNC registers of one host wait (R248). -/
structure WaitRegs where
  waitArmSlot : BitVec 12 := 0
  waitArmTarget : BitVec 48 := 0
  waitTimeout : BitVec 32 := 0
  waitStatusResult : BitVec 2 := 0
  waitStatusAborted : Bool := false
  deriving DecidableEq, Repr

/-- What the stored fields of these registers read as, by page offset. -/
def WaitRegs.read (r : WaitRegs) : Nat → Word
  | 0x088 => putF 48 r.waitArmSlot ||| putF 0 r.waitArmTarget
  | 0x090 => putF 0 r.waitTimeout
  | 0x098 => putF 62 r.waitStatusResult ||| putB 61 r.waitStatusAborted
  | _ => 0

/-- A write by page offset: RW fields take their bits, W1C fields clear where a one is written. -/
def WaitRegs.write (r : WaitRegs) (off : Nat) (v : Word) : WaitRegs :=
  match off with
  | 0x088 => { r with waitArmSlot := getF v 48 12, waitArmTarget := getF v 0 48 }
  | 0x090 => { r with waitTimeout := getF v 0 32 }
  | _ => r

/-- SYNCH registers of the page (R249). -/
structure SynchRegs where
  shErrStale : BitVec 16 := 0
  shErrExcess : BitVec 16 := 0
  shErrDuplicate : BitVec 16 := 0
  shErrFenced : BitVec 16 := 0
  deriving DecidableEq, Repr

/-- What the stored fields of these registers read as, by page offset. -/
def SynchRegs.read (r : SynchRegs) : Nat → Word
  | 0x068 => putF 48 r.shErrStale ||| putF 32 r.shErrExcess ||| putF 16 r.shErrDuplicate ||| putF 0 r.shErrFenced
  | _ => 0

/-- A read that clears, by page offset: the RC fields return to zero (R9 notation, R170). -/
def SynchRegs.clear (r : SynchRegs) (off : Nat) : SynchRegs :=
  match off with
  | 0x068 => { r with shErrStale := 0, shErrExcess := 0, shErrDuplicate := 0, shErrFenced := 0 }
  | _ => r

/-- SYNCH registers of one barrier entry (R249). -/
structure BarrierRegs where
  shCfgTimed : Bool := false
  shCfgPart : BitVec 19 := 0
  shCfgGroup : BitVec 12 := 0
  shGen : BitVec 64 := 0
  shCount : BitVec 19 := 0
  deriving DecidableEq, Repr

/-- What the stored fields of these registers read as, by page offset. -/
def BarrierRegs.read (r : BarrierRegs) : Nat → Word
  | 0x048 => putB 61 r.shCfgTimed ||| putF 32 r.shCfgPart ||| putF 0 r.shCfgGroup
  | 0x050 => putF 0 r.shGen
  | 0x058 => putF 0 r.shCount
  | _ => 0

/-- A write by page offset: RW fields take their bits, W1C fields clear where a one is written. -/
def BarrierRegs.write (r : BarrierRegs) (off : Nat) (v : Word) : BarrierRegs :=
  match off with
  | 0x050 => { r with shGen := getF v 0 64 }
  | 0x058 => { r with shCount := getF v 0 19 }
  | _ => r

/-- STEPH registers of one job (R271). -/
structure StephRegs where
  sthPeriodPMinNs : BitVec 32 := 0
  sthPeriodPeriodNs : BitVec 32 := 0
  sthGapGuardNs : BitVec 32 := 0
  sthGapMinGapNs : BitVec 32 := 0
  sthCatchupCatchupMax : BitVec 16 := 0x3ff
  sthCatchupCount : BitVec 16 := 0
  sthLagLate : Bool := false
  sthLagRebased : Bool := false
  sthLagLagNs : BitVec 40 := 0
  sthPlan : BitVec 64 := 0
  sthLast : BitVec 64 := 0
  sthCountLateSteps : BitVec 16 := 0
  sthCountCatchupSteps : BitVec 16 := 0
  sthCountRebases : BitVec 16 := 0
  sthCountLaunchMiss : BitVec 16 := 0
  deriving DecidableEq, Repr

/-- What the stored fields of these registers read as, by page offset. -/
def StephRegs.read (r : StephRegs) : Nat → Word
  | 0x048 => putF 32 r.sthPeriodPMinNs ||| putF 0 r.sthPeriodPeriodNs
  | 0x050 => putF 32 r.sthGapGuardNs ||| putF 0 r.sthGapMinGapNs
  | 0x058 => putF 48 r.sthCatchupCatchupMax ||| putF 32 r.sthCatchupCount
  | 0x060 => putB 41 r.sthLagLate ||| putB 40 r.sthLagRebased ||| putF 0 r.sthLagLagNs
  | 0x068 => putF 0 r.sthPlan
  | 0x070 => putF 0 r.sthLast
  | 0x078 => putF 48 r.sthCountLateSteps ||| putF 32 r.sthCountCatchupSteps ||| putF 16 r.sthCountRebases ||| putF 0 r.sthCountLaunchMiss
  | _ => 0

/-- A read that clears, by page offset: the RC fields return to zero (R9 notation, R170). -/
def StephRegs.clear (r : StephRegs) (off : Nat) : StephRegs :=
  match off with
  | 0x078 => { r with sthCountLateSteps := 0, sthCountCatchupSteps := 0, sthCountRebases := 0, sthCountLaunchMiss := 0 }
  | _ => r

/-- STEP registers held (R272). -/
structure StepRegs where
  stepNow : BitVec 64 := 0
  stepLast : BitVec 64 := 0
  stepNext : BitVec 64 := 0
  stepStatusNextValid : Bool := false
  stepStatusLate : Bool := false
  stepStatusRebased : Bool := false
  stepStatusLagNs : BitVec 40 := 0
  stepCfg : BitVec 32 := 0
  stepErrLaunchMiss : BitVec 16 := 0
  stepErrDup : BitVec 16 := 0
  stepErrConflict : BitVec 16 := 0
  stepErrStale : BitVec 16 := 0
  deriving DecidableEq, Repr

/-- What the stored fields of these registers read as, by page offset. -/
def StepRegs.read (r : StepRegs) : Nat → Word
  | 0x040 => putF 0 r.stepNow
  | 0x048 => putF 0 r.stepLast
  | 0x050 => putF 0 r.stepNext
  | 0x058 => putB 63 r.stepStatusNextValid ||| putB 62 r.stepStatusLate ||| putB 61 r.stepStatusRebased ||| putF 0 r.stepStatusLagNs
  | 0x060 => putF 0 r.stepCfg
  | 0x068 => putF 48 r.stepErrLaunchMiss ||| putF 32 r.stepErrDup ||| putF 16 r.stepErrConflict ||| putF 0 r.stepErrStale
  | _ => 0

/-- A read that clears, by page offset: the RC fields return to zero (R9 notation, R170). -/
def StepRegs.clear (r : StepRegs) (off : Nat) : StepRegs :=
  match off with
  | 0x068 => { r with stepErrLaunchMiss := 0, stepErrDup := 0, stepErrConflict := 0, stepErrStale := 0 }
  | _ => r

/-- LATE registers of one rank (R274). -/
structure LateRegs where
  ltCfgThreshNs : BitVec 32 := 0
  ltCfgK : BitVec 5 := 0xa
  ltStatusStraggler : Bool := false
  ltStatusSetSeq : BitVec 16 := 0
  ltStatusSamples : BitVec 21 := 0
  ltMean : BitVec 32 := 0
  ltStdev : BitVec 32 := 0
  ltMin : BitVec 32 := 0
  ltMax : BitVec 32 := 0
  ltBlockFill : BitVec 9 := 0
  ltBlockBlockMean : BitVec 32 := 0
  deriving DecidableEq, Repr

/-- What the stored fields of these registers read as, by page offset. -/
def LateRegs.read (r : LateRegs) : Nat → Word
  | 0x048 => putF 32 r.ltCfgThreshNs ||| putF 0 r.ltCfgK
  | 0x050 => putB 62 r.ltStatusStraggler ||| putF 32 r.ltStatusSetSeq ||| putF 0 r.ltStatusSamples
  | 0x058 => putF 0 r.ltMean
  | 0x078 => putF 32 r.ltBlockFill ||| putF 0 r.ltBlockBlockMean
  | _ => 0

/-- A write by page offset: RW fields take their bits, W1C fields clear where a one is written. -/
def LateRegs.write (r : LateRegs) (off : Nat) (v : Word) : LateRegs :=
  match off with
  | 0x048 => { r with ltCfgThreshNs := getF v 32 32, ltCfgK := getF v 0 5 }
  | _ => r

/-- LATE registers of the page (R274). -/
structure LatePageRegs where
  ltErr : BitVec 16 := 0
  deriving DecidableEq, Repr

/-- What the stored fields of these registers read as, by page offset. -/
def LatePageRegs.read (r : LatePageRegs) : Nat → Word
  | 0x080 => putF 48 r.ltErr
  | _ => 0

/-- A read that clears, by page offset: the RC fields return to zero (R9 notation, R170). -/
def LatePageRegs.clear (r : LatePageRegs) (off : Nat) : LatePageRegs :=
  match off with
  | 0x080 => { r with ltErr := 0 }
  | _ => r

/-- SEQ or PROGH registers of one program section (R296). -/
structure SeqRegs where
  progAddr : BitVec 15 := 0
  progStatusState : BitVec 2 := 0
  progStatusResult : BitVec 4 := 0
  progStatusFaultAddr : BitVec 14 := 0
  progStatusVaryCount : BitVec 9 := 0
  progStatusWords : BitVec 15 := 0
  seqStatusState : BitVec 2 := 0
  seqStatusHaltCause : BitVec 3 := 0
  seqStatusHaltPc : BitVec 14 := 0
  seqStatusPc : BitVec 14 := 0
  seqErrBusyLaunch : BitVec 16 := 0
  seqErrHalts : BitVec 16 := 0
  seqErrStaleResult : BitVec 16 := 0
  seqErrHostHeld : BitVec 16 := 0
  deriving DecidableEq, Repr

/-- What the stored fields of these registers read as, by page offset. -/
def SeqRegs.read (r : SeqRegs) : Nat → Word
  | 0x050 => putF 0 r.progAddr
  | 0x060 => putF 62 r.progStatusState ||| putF 56 r.progStatusResult ||| putF 32 r.progStatusFaultAddr ||| putF 16 r.progStatusVaryCount ||| putF 0 r.progStatusWords
  | 0x098 => putF 62 r.seqStatusState ||| putF 56 r.seqStatusHaltCause ||| putF 32 r.seqStatusHaltPc ||| putF 0 r.seqStatusPc
  | 0x0A0 => putF 48 r.seqErrBusyLaunch ||| putF 32 r.seqErrHalts ||| putF 16 r.seqErrStaleResult ||| putF 0 r.seqErrHostHeld
  | _ => 0

/-- A write by page offset: RW fields take their bits, W1C fields clear where a one is written. -/
def SeqRegs.write (r : SeqRegs) (off : Nat) (v : Word) : SeqRegs :=
  match off with
  | 0x050 => { r with progAddr := getF v 0 15 }
  | _ => r

/-- A read that clears, by page offset: the RC fields return to zero (R9 notation, R170). -/
def SeqRegs.clear (r : SeqRegs) (off : Nat) : SeqRegs :=
  match off with
  | 0x0A0 => { r with seqErrBusyLaunch := 0, seqErrHalts := 0, seqErrStaleResult := 0, seqErrHostHeld := 0 }
  | _ => r

/-- STOCK registers of one context (R330). -/
structure StockCtxRegs where
  spCfg : BitVec 64 := 0
  spK : BitVec 64 := 0
  spErrExcess : BitVec 16 := 0
  spErrStale : BitVec 16 := 0
  spErrUnreleased : BitVec 16 := 0
  spErrReservation : BitVec 16 := 0
  spAllotDropTotal : BitVec 32 := 0
  spAllotDropLast : BitVec 32 := 0
  deriving DecidableEq, Repr

/-- What the stored fields of these registers read as, by page offset. -/
def StockCtxRegs.read (r : StockCtxRegs) : Nat → Word
  | 0x048 => putF 0 r.spCfg
  | 0x050 => putF 0 r.spK
  | 0x068 => putF 48 r.spErrExcess ||| putF 32 r.spErrStale ||| putF 16 r.spErrUnreleased ||| putF 0 r.spErrReservation
  | 0x070 => putF 32 r.spAllotDropTotal ||| putF 0 r.spAllotDropLast
  | _ => 0

/-- A read that clears, by page offset: the RC fields return to zero (R9 notation, R170). -/
def StockCtxRegs.clear (r : StockCtxRegs) (off : Nat) : StockCtxRegs :=
  match off with
  | 0x068 => { r with spErrExcess := 0, spErrStale := 0, spErrUnreleased := 0, spErrReservation := 0 }
  | 0x070 => { r with spAllotDropTotal := 0 }
  | _ => r

/-- STOCK registers of the page (R330). -/
structure StockRegs where
  spSpillSpills : BitVec 16 := 0
  deriving DecidableEq, Repr

/-- What the stored fields of these registers read as, by page offset. -/
def StockRegs.read (r : StockRegs) : Nat → Word
  | 0x080 => putF 0 r.spSpillSpills
  | _ => 0

/-- A read that clears, by page offset: the RC fields return to zero (R9 notation, R170). -/
def StockRegs.clear (r : StockRegs) (off : Nat) : StockRegs :=
  match off with
  | 0x080 => { r with spSpillSpills := 0 }
  | _ => r

/-- SPT registers of the page (R331). -/
structure SptRegs where
  sptErrOvfElems : BitVec 16 := 0
  sptErrClamped : BitVec 16 := 0
  sptErrRefused : BitVec 16 := 0
  deriving DecidableEq, Repr

/-- What the stored fields of these registers read as, by page offset. -/
def SptRegs.read (r : SptRegs) : Nat → Word
  | 0x058 => putF 48 r.sptErrOvfElems ||| putF 32 r.sptErrClamped ||| putF 16 r.sptErrRefused
  | _ => 0

/-- A read that clears, by page offset: the RC fields return to zero (R9 notation, R170). -/
def SptRegs.clear (r : SptRegs) (off : Nat) : SptRegs :=
  match off with
  | 0x058 => { r with sptErrOvfElems := 0, sptErrClamped := 0, sptErrRefused := 0 }
  | _ => r

/-- DIGH registers of one job (R357). -/
structure DighRegs where
  dgJobOnMismatch : Bool := false
  dgJobProvCount : BitVec 24 := 0
  dgJobProvBase : BitVec 23 := 0
  dgLastStep : BitVec 64 := 0
  dgLastN : BitVec 27 := 0
  dgLastNE : BitVec 27 := 0
  dgErrStale : BitVec 16 := 0
  dgErrStray : BitVec 16 := 0
  dgErrProvRange : BitVec 16 := 0
  dgErrTwinMissing : BitVec 16 := 0
  deriving DecidableEq, Repr

/-- What the stored fields of these registers read as, by page offset. -/
def DighRegs.read (r : DighRegs) : Nat → Word
  | 0x050 => putB 63 r.dgJobOnMismatch ||| putF 32 r.dgJobProvCount ||| putF 0 r.dgJobProvBase
  | 0x058 => putF 0 r.dgLastStep
  | 0x060 => putF 32 r.dgLastN ||| putF 0 r.dgLastNE
  | 0x088 => putF 48 r.dgErrStale ||| putF 32 r.dgErrStray ||| putF 16 r.dgErrProvRange ||| putF 0 r.dgErrTwinMissing
  | _ => 0

/-- A read that clears, by page offset: the RC fields return to zero (R9 notation, R170). -/
def DighRegs.clear (r : DighRegs) (off : Nat) : DighRegs :=
  match off with
  | 0x088 => { r with dgErrStale := 0, dgErrStray := 0, dgErrProvRange := 0, dgErrTwinMissing := 0 }
  | _ => r

/-- AUDIT registers of the page (R358). -/
structure AuditRegs where
  audCtrlExportFrees : Bool := false
  audCtrlExportEn : Bool := false
  audCtrlEn : Bool := true
  audCfg : BitVec 8 := 4
  audHead : BitVec 64 := 0
  audTail : BitVec 64 := 0
  audExported : BitVec 64 := 0
  audDrop : BitVec 32 := 0
  audDestIpv4 : BitVec 32 := 0
  audDestPort : BitVec 16 := 0
  deriving DecidableEq, Repr

/-- What the stored fields of these registers read as, by page offset. -/
def AuditRegs.read (r : AuditRegs) : Nat → Word
  | 0x040 => putB 2 r.audCtrlExportFrees ||| putB 1 r.audCtrlExportEn ||| putB 0 r.audCtrlEn
  | 0x048 => putF 0 r.audCfg
  | 0x050 => putF 0 r.audHead
  | 0x058 => putF 0 r.audTail
  | 0x060 => putF 0 r.audExported
  | 0x068 => putF 0 r.audDrop
  | 0x070 => putF 32 r.audDestIpv4 ||| putF 0 r.audDestPort
  | _ => 0

/-- A write by page offset: RW fields take their bits, W1C fields clear where a one is written. -/
def AuditRegs.write (r : AuditRegs) (off : Nat) (v : Word) : AuditRegs :=
  match off with
  | 0x040 => { r with audCtrlExportFrees := getB v 2, audCtrlExportEn := getB v 1, audCtrlEn := getB v 0 }
  | 0x048 => { r with audCfg := getF v 0 8 }
  | 0x058 => { r with audTail := getF v 0 64 }
  | 0x070 => { r with audDestIpv4 := getF v 32 32, audDestPort := getF v 0 16 }
  | _ => r

/-- A read that clears, by page offset: the RC fields return to zero (R9 notation, R170). -/
def AuditRegs.clear (r : AuditRegs) (off : Nat) : AuditRegs :=
  match off with
  | 0x068 => { r with audDrop := 0 }
  | _ => r

/-- DIGT registers of the page (R359). -/
structure DigtRegs where
  dgtPassNc : BitVec 9 := 0
  dgtPassN : BitVec 9 := 0
  deriving DecidableEq, Repr

/-- What the stored fields of these registers read as, by page offset. -/
def DigtRegs.read (r : DigtRegs) : Nat → Word
  | 0x040 => putF 32 r.dgtPassNc ||| putF 0 r.dgtPassN
  | _ => 0

/-- DET registers held (R377). -/
structure DetRegs where
  detFw : BitVec 64 := 0
  detModeUnitmapIndep : Bool := false
  detMode : BitVec 2 := 0
  rqStep : BitVec 64 := 0
  rqValue : BitVec 64 := 0
  deriving DecidableEq, Repr

/-- What the stored fields of these registers read as, by page offset. -/
def DetRegs.read (r : DetRegs) : Nat → Word
  | 0x040 => putF 0 r.detFw
  | 0x068 => putB 2 r.detModeUnitmapIndep ||| putF 0 r.detMode
  | 0x070 => putF 0 r.rqStep
  | 0x078 => putF 0 r.rqValue
  | _ => 0

/-- A write by page offset: RW fields take their bits, W1C fields clear where a one is written. -/
def DetRegs.write (r : DetRegs) (off : Nat) (v : Word) : DetRegs :=
  match off with
  | 0x040 => { r with detFw := getF v 0 64 }
  | 0x070 => { r with rqStep := getF v 0 64 }
  | 0x078 => { r with rqValue := getF v 0 64 }
  | _ => r

/-- DETH registers of one job (R378). -/
structure DethJobRegs where
  dhJobMode : BitVec 2 := 0
  dhJobUnitmapIndep : Bool := false
  dhJobEnvStrict : Bool := false
  dhSeed : BitVec 64 := 0
  dhEnvStatChanges : BitVec 16 := 0
  dhEnvStatLastBasis : Bool := false
  dhEnvStatLastMask : BitVec 8 := 0
  deriving DecidableEq, Repr

/-- What the stored fields of these registers read as, by page offset. -/
def DethJobRegs.read (r : DethJobRegs) : Nat → Word
  | 0x048 => putF 62 r.dhJobMode ||| putB 61 r.dhJobUnitmapIndep ||| putB 60 r.dhJobEnvStrict
  | 0x050 => putF 0 r.dhSeed
  | 0x0B8 => putF 48 r.dhEnvStatChanges ||| putB 8 r.dhEnvStatLastBasis ||| putF 0 r.dhEnvStatLastMask
  | _ => 0

/-- A read that clears, by page offset: the RC fields return to zero (R9 notation, R170). -/
def DethJobRegs.clear (r : DethJobRegs) (off : Nat) : DethJobRegs :=
  match off with
  | 0x0B8 => { r with dhEnvStatChanges := 0 }
  | _ => r

/-- DETH registers of the page (R378). -/
structure DethRegs where
  rlCfgEn : Bool := true
  rlCfgSizeGib : BitVec 8 := 4
  rlHead : BitVec 64 := 0
  rlTail : BitVec 64 := 0
  rlDrop : BitVec 32 := 0
  hqJobBound : Bool := false
  hqJob : BitVec 12 := 0
  hqStep : BitVec 64 := 0
  hqValue : BitVec 64 := 0
  deriving DecidableEq, Repr

/-- What the stored fields of these registers read as, by page offset. -/
def DethRegs.read (r : DethRegs) : Nat → Word
  | 0x0C0 => putB 8 r.rlCfgEn ||| putF 0 r.rlCfgSizeGib
  | 0x0C8 => putF 0 r.rlHead
  | 0x0D0 => putF 0 r.rlTail
  | 0x0D8 => putF 0 r.rlDrop
  | 0x108 => putB 63 r.hqJobBound ||| putF 0 r.hqJob
  | 0x110 => putF 0 r.hqStep
  | 0x118 => putF 0 r.hqValue
  | _ => 0

/-- A write by page offset: RW fields take their bits, W1C fields clear where a one is written. -/
def DethRegs.write (r : DethRegs) (off : Nat) (v : Word) : DethRegs :=
  match off with
  | 0x0C0 => { r with rlCfgEn := getB v 8, rlCfgSizeGib := getF v 0 8 }
  | 0x0D0 => { r with rlTail := getF v 0 64 }
  | 0x110 => { r with hqStep := getF v 0 64 }
  | 0x118 => { r with hqValue := getF v 0 64 }
  | _ => r

/-- A read that clears, by page offset: the RC fields return to zero (R9 notation, R170). -/
def DethRegs.clear (r : DethRegs) (off : Nat) : DethRegs :=
  match off with
  | 0x0D8 => { r with rlDrop := 0 }
  | _ => r

/-- EVQ registers held (R411). -/
structure EvqRegs where
  eqStatusOvfCount : BitVec 16 := 0
  eqStatusOvf : Bool := false
  eqPoison : BitVec 64 := 0
  eqPoisonTgtValid : Bool := false
  eqPoisonTgtTarget : BitVec 16 := 0
  resCheckBadCopy : BitVec 16 := 0
  resCheckRereq : BitVec 16 := 0
  deriving DecidableEq, Repr

/-- What the stored fields of these registers read as, by page offset. -/
def EvqRegs.read (r : EvqRegs) : Nat → Word
  | 0x040 => putF 48 r.eqStatusOvfCount ||| putB 8 r.eqStatusOvf
  | 0x088 => putF 0 r.eqPoison
  | 0x090 => putB 16 r.eqPoisonTgtValid ||| putF 0 r.eqPoisonTgtTarget
  | 0x098 => putF 48 r.resCheckBadCopy ||| putF 32 r.resCheckRereq
  | _ => 0

/-- A write by page offset: RW fields take their bits, W1C fields clear where a one is written. -/
def EvqRegs.write (r : EvqRegs) (off : Nat) (v : Word) : EvqRegs :=
  match off with
  | 0x040 => { r with eqStatusOvf := r.eqStatusOvf && !getB v 8 }
  | _ => r

/-- A read that clears, by page offset: the RC fields return to zero (R9 notation, R170). -/
def EvqRegs.clear (r : EvqRegs) (off : Nat) : EvqRegs :=
  match off with
  | 0x040 => { r with eqStatusOvfCount := 0 }
  | 0x098 => { r with resCheckBadCopy := 0, resCheckRereq := 0 }
  | _ => r

/-- EVH registers held (R412). -/
structure EvhRegs where
  evCtrl : Bool := true
  evDestIpv4 : BitVec 32 := 0
  evDestListen : BitVec 16 := 0x4556
  evDestPort : BitVec 16 := 0x4556
  evHead : BitVec 64 := 0
  evExported : BitVec 64 := 0
  evStatLost : BitVec 32 := 0
  evStatReqDrop : BitVec 16 := 0
  deriving DecidableEq, Repr

/-- What the stored fields of these registers read as, by page offset. -/
def EvhRegs.read (r : EvhRegs) : Nat → Word
  | 0x040 => putB 0 r.evCtrl
  | 0x048 => putF 32 r.evDestIpv4 ||| putF 16 r.evDestListen ||| putF 0 r.evDestPort
  | 0x050 => putF 0 r.evHead
  | 0x058 => putF 0 r.evExported
  | 0x060 => putF 32 r.evStatLost ||| putF 0 r.evStatReqDrop
  | _ => 0

/-- A write by page offset: RW fields take their bits, W1C fields clear where a one is written. -/
def EvhRegs.write (r : EvhRegs) (off : Nat) (v : Word) : EvhRegs :=
  match off with
  | 0x040 => { r with evCtrl := getB v 0 }
  | 0x048 => { r with evDestIpv4 := getF v 32 32, evDestListen := getF v 16 16, evDestPort := getF v 0 16 }
  | _ => r

/-- A read that clears, by page offset: the RC fields return to zero (R9 notation, R170). -/
def EvhRegs.clear (r : EvhRegs) (off : Nat) : EvhRegs :=
  match off with
  | 0x060 => { r with evStatLost := 0, evStatReqDrop := 0 }
  | _ => r

/-- FLT registers of the page (R413). -/
structure FltRegs where
  fltCtrlHistWindowH : BitVec 16 := 0x2d0
  fltCtrlRotPeriodS : BitVec 16 := 0x3c
  fltHb : BitVec 16 := 0xc8
  voteCountChecker : BitVec 16 := 0
  voteCountLane : BitVec 16 := 0
  voteCountTwoOfThree : BitVec 16 := 0
  voteCountUnresolved : BitVec 16 := 0
  rotStatusActive : Bool := false
  rotStatusWaiting : Bool := false
  rotStatusRotations : BitVec 16 := 0
  rotStatusKatFails : BitVec 16 := 0
  rotStatusNext : BitVec 10 := 0
  hubRole : BitVec 2 := 0
  hubRoleCleanSteps : BitVec 16 := 0
  dlvErrDuplicate : BitVec 16 := 0
  dlvErrLadleFenced : BitVec 16 := 0
  dlvErrResent : BitVec 16 := 0
  dlvErrCopyRereq : BitVec 16 := 0
  deriving DecidableEq, Repr

/-- What the stored fields of these registers read as, by page offset. -/
def FltRegs.read (r : FltRegs) : Nat → Word
  | 0x040 => putF 48 r.fltCtrlHistWindowH ||| putF 32 r.fltCtrlRotPeriodS
  | 0x048 => putF 0 r.fltHb
  | 0x068 => putF 48 r.voteCountChecker ||| putF 32 r.voteCountLane ||| putF 16 r.voteCountTwoOfThree ||| putF 0 r.voteCountUnresolved
  | 0x070 => putB 63 r.rotStatusActive ||| putB 62 r.rotStatusWaiting ||| putF 32 r.rotStatusRotations ||| putF 16 r.rotStatusKatFails ||| putF 0 r.rotStatusNext
  | 0x078 => putF 62 r.hubRole ||| putF 32 r.hubRoleCleanSteps
  | 0x0C0 => putF 48 r.dlvErrDuplicate ||| putF 32 r.dlvErrLadleFenced ||| putF 16 r.dlvErrResent ||| putF 0 r.dlvErrCopyRereq
  | _ => 0

/-- A write by page offset: RW fields take their bits, W1C fields clear where a one is written. -/
def FltRegs.write (r : FltRegs) (off : Nat) (v : Word) : FltRegs :=
  match off with
  | 0x040 => { r with fltCtrlHistWindowH := getF v 48 16, fltCtrlRotPeriodS := getF v 32 16 }
  | 0x048 => { r with fltHb := getF v 0 16 }
  | _ => r

/-- A read that clears, by page offset: the RC fields return to zero (R9 notation, R170). -/
def FltRegs.clear (r : FltRegs) (off : Nat) : FltRegs :=
  match off with
  | 0x068 => { r with voteCountChecker := 0, voteCountLane := 0, voteCountTwoOfThree := 0, voteCountUnresolved := 0 }
  | 0x070 => { r with rotStatusKatFails := 0 }
  | 0x0C0 => { r with dlvErrDuplicate := 0, dlvErrLadleFenced := 0, dlvErrResent := 0, dlvErrCopyRereq := 0 }
  | _ => r

/-- FLT registers of one unit (R413). -/
structure UnitRegs where
  unitState : BitVec 3 := 0
  unitStateShadowSteps : BitVec 16 := 0
  unitStateStandin : BitVec 16 := 0xffff
  unitStateEvents : BitVec 16 := 0
  deriving DecidableEq, Repr

/-- What the stored fields of these registers read as, by page offset. -/
def UnitRegs.read (r : UnitRegs) : Nat → Word
  | 0x058 => putF 61 r.unitState ||| putF 32 r.unitStateShadowSteps ||| putF 16 r.unitStateStandin ||| putF 0 r.unitStateEvents
  | _ => 0

/-- FLT registers of one job (R413). -/
structure FltJobRegs where
  detCfgArrTimeoutUs : BitVec 32 := 0
  detCfgDeclared : BitVec 16 := 0
  leadStatLeadGen : BitVec 16 := 0
  deriving DecidableEq, Repr

/-- What the stored fields of these registers read as, by page offset. -/
def FltJobRegs.read (r : FltJobRegs) : Nat → Word
  | 0x088 => putF 32 r.detCfgArrTimeoutUs ||| putF 0 r.detCfgDeclared
  | 0x090 => putF 32 r.leadStatLeadGen
  | _ => 0

/-- A read that clears, by page offset: the RC fields return to zero (R9 notation, R170). -/
def FltJobRegs.clear (r : FltJobRegs) (off : Nat) : FltJobRegs :=
  match off with
  | 0x088 => { r with detCfgDeclared := 0 }
  | _ => r

/-- TXN registers of the page (R446). -/
structure TxnRegs where
  txnCtrlChunk : BitVec 16 := 0xffff
  txnSubmittedSubmitResult : BitVec 8 := 0
  txnSubmittedTid : BitVec 16 := 0
  txnErrSubmitRefused : BitVec 16 := 0
  txnErrDeferred : BitVec 16 := 0
  txnErrNoCommit : BitVec 16 := 0
  txnErrGraceAccepted : BitVec 16 := 0
  abortCmdJob : BitVec 12 := 0
  deriving DecidableEq, Repr

/-- What the stored fields of these registers read as, by page offset. -/
def TxnRegs.read (r : TxnRegs) : Nat → Word
  | 0x040 => putF 0 r.txnCtrlChunk
  | 0x050 => putF 56 r.txnSubmittedSubmitResult ||| putF 0 r.txnSubmittedTid
  | 0x088 => putF 48 r.txnErrSubmitRefused ||| putF 32 r.txnErrDeferred ||| putF 16 r.txnErrNoCommit ||| putF 0 r.txnErrGraceAccepted
  | 0x0A0 => putF 0 r.abortCmdJob
  | _ => 0

/-- A write by page offset: RW fields take their bits, W1C fields clear where a one is written. -/
def TxnRegs.write (r : TxnRegs) (off : Nat) (v : Word) : TxnRegs :=
  match off with
  | 0x040 => { r with txnCtrlChunk := getF v 0 16 }
  | 0x0A0 => { r with abortCmdJob := getF v 0 12 }
  | _ => r

/-- A read that clears, by page offset: the RC fields return to zero (R9 notation, R170). -/
def TxnRegs.clear (r : TxnRegs) (off : Nat) : TxnRegs :=
  match off with
  | 0x088 => { r with txnErrSubmitRefused := 0, txnErrDeferred := 0, txnErrNoCommit := 0, txnErrGraceAccepted := 0 }
  | _ => r

/-- TXN registers of one transaction (R446). -/
structure TxnEntryRegs where
  txnStatusPhase : BitVec 4 := 0
  txnStatusKind : BitVec 4 := 0
  txnStatusPartition : BitVec 13 := 0
  txnStatusReason : BitVec 8 := 0
  txnStatusVoter : BitVec 32 := 0
  txnTick : BitVec 64 := 0
  txnVotesYes : BitVec 32 := 0
  txnVotesExpected : BitVec 32 := 0
  txnTag : BitVec 64 := 0
  deriving DecidableEq, Repr

/-- What the stored fields of these registers read as, by page offset. -/
def TxnEntryRegs.read (r : TxnEntryRegs) : Nat → Word
  | 0x060 => putF 60 r.txnStatusPhase ||| putF 56 r.txnStatusKind ||| putF 40 r.txnStatusPartition ||| putF 32 r.txnStatusReason ||| putF 0 r.txnStatusVoter
  | 0x068 => putF 0 r.txnTick
  | 0x070 => putF 32 r.txnVotesYes ||| putF 0 r.txnVotesExpected
  | 0x078 => putF 0 r.txnTag
  | _ => 0

/-- JOB_STATUS of one job (R446). -/
structure TxnJobRegs where
  jobStatusState : BitVec 4 := 0
  jobStatusEpoch : Bool := false
  jobStatusGrace : Bool := false
  jobStatusAbortDone : Bool := false
  jobStatusLastTid : BitVec 16 := 0
  jobStatusAbortPending : BitVec 19 := 0
  deriving DecidableEq, Repr

/-- What the stored fields of these registers read as, by page offset. -/
def TxnJobRegs.read (r : TxnJobRegs) : Nat → Word
  | 0x098 => putF 60 r.jobStatusState ||| putB 59 r.jobStatusEpoch ||| putB 58 r.jobStatusGrace ||| putB 57 r.jobStatusAbortDone ||| putF 32 r.jobStatusLastTid ||| putF 0 r.jobStatusAbortPending
  | _ => 0

/-- TXNT registers held (R447). -/
structure TxntRegs where
  ttJobState : BitVec 4 := 0
  ttJobEpoch : Bool := false
  ttJobGrace : Bool := false
  ttJob : BitVec 12 := 0
  ttVoteTid : BitVec 16 := 0
  ttVoteCoord : BitVec 16 := 0xffff
  ttVoteReason : BitVec 8 := 0
  ttVoteKind : BitVec 4 := 0
  ttErrNoCommit : BitVec 16 := 0
  ttErrGraceAccepted : BitVec 16 := 0
  ttErrDeferred : BitVec 16 := 0
  ttErrAborts : BitVec 16 := 0
  deriving DecidableEq, Repr

/-- What the stored fields of these registers read as, by page offset. -/
def TxntRegs.read (r : TxntRegs) : Nat → Word
  | 0x040 => putF 60 r.ttJobState ||| putB 59 r.ttJobEpoch ||| putB 58 r.ttJobGrace ||| putF 0 r.ttJob
  | 0x048 => putF 48 r.ttVoteTid ||| putF 32 r.ttVoteCoord ||| putF 24 r.ttVoteReason ||| putF 20 r.ttVoteKind
  | 0x050 => putF 48 r.ttErrNoCommit ||| putF 32 r.ttErrGraceAccepted ||| putF 16 r.ttErrDeferred ||| putF 0 r.ttErrAborts
  | _ => 0

/-- A read that clears, by page offset: the RC fields return to zero (R9 notation, R170). -/
def TxntRegs.clear (r : TxntRegs) (off : Nat) : TxntRegs :=
  match off with
  | 0x050 => { r with ttErrNoCommit := 0, ttErrGraceAccepted := 0, ttErrDeferred := 0, ttErrAborts := 0 }
  | _ => r

/-- MOD registers held (R486). -/
structure ModRegs where
  modStatusReady : Bool := false
  modStatusBootDone : Bool := false
  modStatusRomRecovery : Bool := false
  modStatusPwrWarn : Bool := false
  modStatusThermWarn : Bool := false
  modStatusAdmitted : BitVec 7 := 0
  modStatusPhase : BitVec 4 := 0
  modPowerVin : BitVec 16 := 0
  modPowerPin : BitVec 16 := 0
  modPowerPkg : BitVec 16 := 0
  modPowerAux : BitVec 16 := 0
  modTempTj : BitVec 16 := 0
  modTempInlet : BitVec 16 := 0
  modTempWarnC : BitVec 16 := 0x64
  modResetCauseBoots : BitVec 16 := 0
  modResetCause : BitVec 4 := 0
  modTimesBootMs : BitVec 32 := 0
  modTimesReadyMs : BitVec 32 := 0
  deriving DecidableEq, Repr

/-- What the stored fields of these registers read as, by page offset. -/
def ModRegs.read (r : ModRegs) : Nat → Word
  | 0x040 => putB 63 r.modStatusReady ||| putB 62 r.modStatusBootDone ||| putB 61 r.modStatusRomRecovery ||| putB 60 r.modStatusPwrWarn ||| putB 59 r.modStatusThermWarn ||| putF 48 r.modStatusAdmitted ||| putF 0 r.modStatusPhase
  | 0x048 => putF 48 r.modPowerVin ||| putF 32 r.modPowerPin ||| putF 16 r.modPowerPkg ||| putF 0 r.modPowerAux
  | 0x050 => putF 48 r.modTempTj ||| putF 32 r.modTempInlet ||| putF 0 r.modTempWarnC
  | 0x060 => putF 48 r.modResetCauseBoots ||| putF 0 r.modResetCause
  | 0x068 => putF 32 r.modTimesBootMs ||| putF 0 r.modTimesReadyMs
  | _ => 0

/-- A write by page offset: RW fields take their bits, W1C fields clear where a one is written. -/
def ModRegs.write (r : ModRegs) (off : Nat) (v : Word) : ModRegs :=
  match off with
  | 0x050 => { r with modTempWarnC := getF v 0 16 }
  | _ => r

/-- FW registers held (R502). -/
structure FwRegs where
  fwCtrlIndex : BitVec 15 := 0
  fwStatusState : BitVec 3 := 0
  fwStatusResult : BitVec 4 := 0
  fwStatusRolledBack : Bool := false
  fwStatusAccepted : BitVec 15 := 0
  fwStatusNextMissing : BitVec 15 := 0
  fwRunning : BitVec 64 := 0
  fwStaged : BitVec 64 := 0
  fwSlotsS0State : BitVec 2 := 0
  fwSlotsS0Running : Bool := false
  fwSlotsS1State : BitVec 2 := 0
  fwSlotsS1Running : Bool := false
  fwSlotsRevoked : BitVec 4 := 0
  fwSlotsMinSec : BitVec 32 := 0
  fwErrTagFail : BitVec 16 := 0
  fwErrDup : BitVec 16 := 0
  fwErrRange : BitVec 16 := 0
  fwErrRefused : BitVec 16 := 0
  deriving DecidableEq, Repr

/-- What the stored fields of these registers read as, by page offset. -/
def FwRegs.read (r : FwRegs) : Nat → Word
  | 0x040 => putF 0 r.fwCtrlIndex
  | 0x048 => putF 61 r.fwStatusState ||| putF 56 r.fwStatusResult ||| putB 55 r.fwStatusRolledBack ||| putF 32 r.fwStatusAccepted ||| putF 0 r.fwStatusNextMissing
  | 0x050 => putF 0 r.fwRunning
  | 0x058 => putF 0 r.fwStaged
  | 0x060 => putF 62 r.fwSlotsS0State ||| putB 61 r.fwSlotsS0Running ||| putF 58 r.fwSlotsS1State ||| putB 57 r.fwSlotsS1Running ||| putF 48 r.fwSlotsRevoked ||| putF 0 r.fwSlotsMinSec
  | 0x068 => putF 48 r.fwErrTagFail ||| putF 32 r.fwErrDup ||| putF 16 r.fwErrRange ||| putF 0 r.fwErrRefused
  | _ => 0

/-- A write by page offset: RW fields take their bits, W1C fields clear where a one is written. -/
def FwRegs.write (r : FwRegs) (off : Nat) (v : Word) : FwRegs :=
  match off with
  | 0x040 => { r with fwCtrlIndex := getF v 0 15 }
  | 0x048 => { r with fwStatusRolledBack := r.fwStatusRolledBack && !getB v 55 }
  | _ => r

/-- A read that clears, by page offset: the RC fields return to zero (R9 notation, R170). -/
def FwRegs.clear (r : FwRegs) (off : Nat) : FwRegs :=
  match off with
  | 0x068 => { r with fwErrTagFail := 0, fwErrDup := 0, fwErrRange := 0, fwErrRefused := 0 }
  | _ => r

/-- XLAT registers of the page (R520). -/
structure XlatRegs where
  xlCountMisses : BitVec 16 := 0
  deriving DecidableEq, Repr

/-- What the stored fields of these registers read as, by page offset. -/
def XlatRegs.read (r : XlatRegs) : Nat → Word
  | 0x050 => putF 32 r.xlCountMisses
  | _ => 0

/-- A read that clears, by page offset: the RC fields return to zero (R9 notation, R170). -/
def XlatRegs.clear (r : XlatRegs) (off : Nat) : XlatRegs :=
  match off with
  | 0x050 => { r with xlCountMisses := 0 }
  | _ => r

/-- LADLE registers of the page (R521). -/
structure LadleRegs where
  ldCount : BitVec 32 := 0
  deriving DecidableEq, Repr

/-- What the stored fields of these registers read as, by page offset. -/
def LadleRegs.read (r : LadleRegs) : Nat → Word
  | 0x078 => putF 0 r.ldCount
  | _ => 0

/-- A read that clears, by page offset: the RC fields return to zero (R9 notation, R170). -/
def LadleRegs.clear (r : LadleRegs) (off : Nat) : LadleRegs :=
  match off with
  | 0x078 => { r with ldCount := 0 }
  | _ => r

/-- PHY registers of one lane (R522). -/
structure PhyLaneRegs where
  phyTxeqPre2 : BitVec 8 := 0
  phyTxeqPre1 : BitVec 8 := 0
  phyTxeqMain : BitVec 8 := 0
  phyTxeqPost1 : BitVec 8 := 0
  phyRxeqCtle : BitVec 8 := 0
  phyRxeqVga : BitVec 8 := 0
  phySnr : BitVec 16 := 0
  deriving DecidableEq, Repr

/-- What the stored fields of these registers read as, by page offset. -/
def PhyLaneRegs.read (r : PhyLaneRegs) : Nat → Word
  | 0x048 => putF 24 r.phyTxeqPre2 ||| putF 16 r.phyTxeqPre1 ||| putF 8 r.phyTxeqMain ||| putF 0 r.phyTxeqPost1
  | 0x050 => putF 16 r.phyRxeqCtle ||| putF 0 r.phyRxeqVga
  | 0x058 => putF 0 r.phySnr
  | _ => 0

/-- MEMC registers of one pseudo-channel (R523). -/
structure MemcRegs where
  mcEccCorrected : BitVec 32 := 0
  mcEccUncorrected : BitVec 16 := 0
  mcErrAddr : BitVec 40 := 0
  mcTemp : BitVec 16 := 0
  mcRepair : BitVec 8 := 0
  deriving DecidableEq, Repr

/-- What the stored fields of these registers read as, by page offset. -/
def MemcRegs.read (r : MemcRegs) : Nat → Word
  | 0x040 => putF 32 r.mcEccCorrected ||| putF 16 r.mcEccUncorrected
  | 0x048 => putF 0 r.mcErrAddr
  | 0x050 => putF 0 r.mcTemp
  | 0x058 => putF 0 r.mcRepair
  | _ => 0

/-- A read that clears, by page offset: the RC fields return to zero (R9 notation, R170). -/
def MemcRegs.clear (r : MemcRegs) (off : Nat) : MemcRegs :=
  match off with
  | 0x040 => { r with mcEccCorrected := 0, mcEccUncorrected := 0 }
  | _ => r

/-- INTC registers held by the hub (R526). -/
structure IntcRegs where
  intArmed : BitVec 64 := 0xffffffffffffffff
  intSent : BitVec 32 := 0
  deriving DecidableEq, Repr

/-- What the stored fields of these registers read as, by page offset. -/
def IntcRegs.read (r : IntcRegs) : Nat → Word
  | 0x068 => putF 0 r.intArmed
  | 0x078 => putF 0 r.intSent
  | _ => 0

/-- A read that clears, by page offset: the RC fields return to zero (R9 notation, R170). -/
def IntcRegs.clear (r : IntcRegs) (off : Nat) : IntcRegs :=
  match off with
  | 0x078 => { r with intSent := 0 }
  | _ => r

/-- The selects and latches that each interface holds for itself (R507). -/
structure IfaceRegs where
  nowHi : BitVec 32 := 0
  nowTick : BitVec 64 := 0
  nowFrac : BitVec 48 := 0
  ioSelDir : Bool := false
  ioSelIndex : BitVec 4 := 0
  tapSel : BitVec 7 := 0
  tapLaunchTick : BitVec 64 := 0
  soSel : BitVec 12 := 0
  waitSel : BitVec 4 := 0
  winSelChan : BitVec 2 := 0
  winSelWindow : BitVec 6 := 0
  shSelJob : BitVec 12 := 0
  shSelObj : BitVec 16 := 0
  sthSel : BitVec 12 := 0
  ltSelRank : BitVec 20 := 0
  ltSelJob : BitVec 12 := 0
  ltStdev : BitVec 32 := 0
  ltMin : BitVec 32 := 0
  ltMax : BitVec 32 := 0
  seqSel : BitVec 12 := 0
  spSelJob : BitVec 12 := 0
  spSelCtx : BitVec 12 := 0
  sptSel : BitVec 12 := 0
  dgSelJob : BitVec 12 := 0
  dgSelDid : BitVec 8 := 0
  pvSel : BitVec 23 := 0
  audRdIdx : BitVec 64 := 0
  dgtSel : BitVec 8 := 0
  dhSel : BitVec 12 := 0
  rlRdIdx : BitVec 64 := 0
  evRdIdx : BitVec 64 := 0
  unitSel : BitVec 16 := 0
  fltJobSel : BitVec 12 := 0
  txnSel : BitVec 16 := 0
  txnJobSel : BitVec 12 := 0
  xlSelRank : BitVec 20 := 0
  xlSelJob : BitVec 12 := 0
  ldSel : BitVec 12 := 0
  deriving DecidableEq, Repr

/-- What the stored fields of these registers read as, by page offset. -/
def IfaceRegs.readTimebase (r : IfaceRegs) : Nat → Word
  | 0x048 => putF 0 r.nowHi
  | 0x050 => putF 0 r.nowTick
  | 0x058 => putF 0 r.nowFrac
  | _ => 0

/-- What the stored fields of these registers read as, by page offset. -/
def IfaceRegs.readEvtrig (r : IfaceRegs) : Nat → Word
  | 0x050 => putB 4 r.ioSelDir ||| putF 0 r.ioSelIndex
  | _ => 0

/-- A write by page offset: RW fields take their bits, W1C fields clear where a one is written. -/
def IfaceRegs.writeEvtrig (r : IfaceRegs) (off : Nat) (v : Word) : IfaceRegs :=
  match off with
  | 0x050 => { r with ioSelDir := getB v 4, ioSelIndex := getF v 0 4 }
  | _ => r

/-- What the stored fields of these registers read as, by page offset. -/
def IfaceRegs.readTap (r : IfaceRegs) : Nat → Word
  | 0x040 => putF 0 r.tapSel
  | 0x080 => putF 0 r.tapLaunchTick
  | _ => 0

/-- A write by page offset: RW fields take their bits, W1C fields clear where a one is written. -/
def IfaceRegs.writeTap (r : IfaceRegs) (off : Nat) (v : Word) : IfaceRegs :=
  match off with
  | 0x040 => { r with tapSel := getF v 0 7 }
  | _ => r

/-- What the stored fields of these registers read as, by page offset. -/
def IfaceRegs.readSync (r : IfaceRegs) : Nat → Word
  | 0x048 => putF 0 r.soSel
  | 0x080 => putF 0 r.waitSel
  | 0x0A0 => putF 6 r.winSelChan ||| putF 0 r.winSelWindow
  | _ => 0

/-- A write by page offset: RW fields take their bits, W1C fields clear where a one is written. -/
def IfaceRegs.writeSync (r : IfaceRegs) (off : Nat) (v : Word) : IfaceRegs :=
  match off with
  | 0x048 => { r with soSel := getF v 0 12 }
  | 0x080 => { r with waitSel := getF v 0 4 }
  | 0x0A0 => { r with winSelChan := getF v 6 2, winSelWindow := getF v 0 6 }
  | _ => r

/-- What the stored fields of these registers read as, by page offset. -/
def IfaceRegs.readSynch (r : IfaceRegs) : Nat → Word
  | 0x040 => putF 16 r.shSelJob ||| putF 0 r.shSelObj
  | _ => 0

/-- A write by page offset: RW fields take their bits, W1C fields clear where a one is written. -/
def IfaceRegs.writeSynch (r : IfaceRegs) (off : Nat) (v : Word) : IfaceRegs :=
  match off with
  | 0x040 => { r with shSelJob := getF v 16 12, shSelObj := getF v 0 16 }
  | _ => r

/-- What the stored fields of these registers read as, by page offset. -/
def IfaceRegs.readSteph (r : IfaceRegs) : Nat → Word
  | 0x040 => putF 0 r.sthSel
  | _ => 0

/-- A write by page offset: RW fields take their bits, W1C fields clear where a one is written. -/
def IfaceRegs.writeSteph (r : IfaceRegs) (off : Nat) (v : Word) : IfaceRegs :=
  match off with
  | 0x040 => { r with sthSel := getF v 0 12 }
  | _ => r

/-- What the stored fields of these registers read as, by page offset. -/
def IfaceRegs.readLate (r : IfaceRegs) : Nat → Word
  | 0x040 => putF 32 r.ltSelRank ||| putF 0 r.ltSelJob
  | 0x060 => putF 0 r.ltStdev
  | 0x068 => putF 0 r.ltMin
  | 0x070 => putF 0 r.ltMax
  | _ => 0

/-- A write by page offset: RW fields take their bits, W1C fields clear where a one is written. -/
def IfaceRegs.writeLate (r : IfaceRegs) (off : Nat) (v : Word) : IfaceRegs :=
  match off with
  | 0x040 => { r with ltSelRank := getF v 32 20, ltSelJob := getF v 0 12 }
  | _ => r

/-- What the stored fields of these registers read as, by page offset. -/
def IfaceRegs.readSeqProgh (r : IfaceRegs) : Nat → Word
  | 0x040 => putF 0 r.seqSel
  | _ => 0

/-- A write by page offset: RW fields take their bits, W1C fields clear where a one is written. -/
def IfaceRegs.writeSeqProgh (r : IfaceRegs) (off : Nat) (v : Word) : IfaceRegs :=
  match off with
  | 0x040 => { r with seqSel := getF v 0 12 }
  | _ => r

/-- What the stored fields of these registers read as, by page offset. -/
def IfaceRegs.readStock (r : IfaceRegs) : Nat → Word
  | 0x040 => putF 16 r.spSelJob ||| putF 0 r.spSelCtx
  | _ => 0

/-- A write by page offset: RW fields take their bits, W1C fields clear where a one is written. -/
def IfaceRegs.writeStock (r : IfaceRegs) (off : Nat) (v : Word) : IfaceRegs :=
  match off with
  | 0x040 => { r with spSelJob := getF v 16 12, spSelCtx := getF v 0 12 }
  | _ => r

/-- What the stored fields of these registers read as, by page offset. -/
def IfaceRegs.readSpt (r : IfaceRegs) : Nat → Word
  | 0x040 => putF 0 r.sptSel
  | _ => 0

/-- A write by page offset: RW fields take their bits, W1C fields clear where a one is written. -/
def IfaceRegs.writeSpt (r : IfaceRegs) (off : Nat) (v : Word) : IfaceRegs :=
  match off with
  | 0x040 => { r with sptSel := getF v 0 12 }
  | _ => r

/-- What the stored fields of these registers read as, by page offset. -/
def IfaceRegs.readDigh (r : IfaceRegs) : Nat → Word
  | 0x040 => putF 32 r.dgSelJob ||| putF 0 r.dgSelDid
  | 0x090 => putF 0 r.pvSel
  | _ => 0

/-- A write by page offset: RW fields take their bits, W1C fields clear where a one is written. -/
def IfaceRegs.writeDigh (r : IfaceRegs) (off : Nat) (v : Word) : IfaceRegs :=
  match off with
  | 0x040 => { r with dgSelJob := getF v 32 12, dgSelDid := getF v 0 8 }
  | 0x090 => { r with pvSel := getF v 0 23 }
  | _ => r

/-- What the stored fields of these registers read as, by page offset. -/
def IfaceRegs.readAudit (r : IfaceRegs) : Nat → Word
  | 0x078 => putF 0 r.audRdIdx
  | _ => 0

/-- A write by page offset: RW fields take their bits, W1C fields clear where a one is written. -/
def IfaceRegs.writeAudit (r : IfaceRegs) (off : Nat) (v : Word) : IfaceRegs :=
  match off with
  | 0x078 => { r with audRdIdx := getF v 0 64 }
  | _ => r

/-- What the stored fields of these registers read as, by page offset. -/
def IfaceRegs.readDigt (r : IfaceRegs) : Nat → Word
  | 0x068 => putF 0 r.dgtSel
  | _ => 0

/-- A write by page offset: RW fields take their bits, W1C fields clear where a one is written. -/
def IfaceRegs.writeDigt (r : IfaceRegs) (off : Nat) (v : Word) : IfaceRegs :=
  match off with
  | 0x068 => { r with dgtSel := getF v 0 8 }
  | _ => r

/-- What the stored fields of these registers read as, by page offset. -/
def IfaceRegs.readDeth (r : IfaceRegs) : Nat → Word
  | 0x040 => putF 0 r.dhSel
  | 0x0E0 => putF 0 r.rlRdIdx
  | _ => 0

/-- A write by page offset: RW fields take their bits, W1C fields clear where a one is written. -/
def IfaceRegs.writeDeth (r : IfaceRegs) (off : Nat) (v : Word) : IfaceRegs :=
  match off with
  | 0x040 => { r with dhSel := getF v 0 12 }
  | 0x0E0 => { r with rlRdIdx := getF v 0 64 }
  | _ => r

/-- What the stored fields of these registers read as, by page offset. -/
def IfaceRegs.readEvh (r : IfaceRegs) : Nat → Word
  | 0x068 => putF 0 r.evRdIdx
  | _ => 0

/-- A write by page offset: RW fields take their bits, W1C fields clear where a one is written. -/
def IfaceRegs.writeEvh (r : IfaceRegs) (off : Nat) (v : Word) : IfaceRegs :=
  match off with
  | 0x068 => { r with evRdIdx := getF v 0 64 }
  | _ => r

/-- What the stored fields of these registers read as, by page offset. -/
def IfaceRegs.readFlt (r : IfaceRegs) : Nat → Word
  | 0x050 => putF 0 r.unitSel
  | 0x080 => putF 0 r.fltJobSel
  | _ => 0

/-- A write by page offset: RW fields take their bits, W1C fields clear where a one is written. -/
def IfaceRegs.writeFlt (r : IfaceRegs) (off : Nat) (v : Word) : IfaceRegs :=
  match off with
  | 0x050 => { r with unitSel := getF v 0 16 }
  | 0x080 => { r with fltJobSel := getF v 0 12 }
  | _ => r

/-- What the stored fields of these registers read as, by page offset. -/
def IfaceRegs.readTxn (r : IfaceRegs) : Nat → Word
  | 0x058 => putF 0 r.txnSel
  | 0x090 => putF 0 r.txnJobSel
  | _ => 0

/-- A write by page offset: RW fields take their bits, W1C fields clear where a one is written. -/
def IfaceRegs.writeTxn (r : IfaceRegs) (off : Nat) (v : Word) : IfaceRegs :=
  match off with
  | 0x058 => { r with txnSel := getF v 0 16 }
  | 0x090 => { r with txnJobSel := getF v 0 12 }
  | _ => r

/-- What the stored fields of these registers read as, by page offset. -/
def IfaceRegs.readXlat (r : IfaceRegs) : Nat → Word
  | 0x040 => putF 32 r.xlSelRank ||| putF 0 r.xlSelJob
  | _ => 0

/-- A write by page offset: RW fields take their bits, W1C fields clear where a one is written. -/
def IfaceRegs.writeXlat (r : IfaceRegs) (off : Nat) (v : Word) : IfaceRegs :=
  match off with
  | 0x040 => { r with xlSelRank := getF v 32 20, xlSelJob := getF v 0 12 }
  | _ => r

/-- What the stored fields of these registers read as, by page offset. -/
def IfaceRegs.readLadle (r : IfaceRegs) : Nat → Word
  | 0x040 => putF 0 r.ldSel
  | _ => 0

/-- A write by page offset: RW fields take their bits, W1C fields clear where a one is written. -/
def IfaceRegs.writeLadle (r : IfaceRegs) (off : Nat) (v : Word) : IfaceRegs :=
  match off with
  | 0x040 => { r with ldSel := getF v 0 12 }
  | _ => r

/-- The selects that each interface holds for one link page (R120, R522). -/
structure IfPortRegs where
  ptSel : BitVec 2 := 0
  phyLaneSel : BitVec 3 := 0
  deriving DecidableEq, Repr

/-- What the stored fields of these registers read as, by page offset. -/
def IfPortRegs.readLink (r : IfPortRegs) : Nat → Word
  | 0x100 => putF 0 r.ptSel
  | _ => 0

/-- A write by page offset: RW fields take their bits, W1C fields clear where a one is written. -/
def IfPortRegs.writeLink (r : IfPortRegs) (off : Nat) (v : Word) : IfPortRegs :=
  match off with
  | 0x100 => { r with ptSel := getF v 0 2 }
  | _ => r

/-- What the stored fields of these registers read as, by page offset. -/
def IfPortRegs.readPhy (r : IfPortRegs) : Nat → Word
  | 0x040 => putF 0 r.phyLaneSel
  | _ => 0

/-- A write by page offset: RW fields take their bits, W1C fields clear where a one is written. -/
def IfPortRegs.writePhy (r : IfPortRegs) (off : Nat) (v : Word) : IfPortRegs :=
  match off with
  | 0x040 => { r with phyLaneSel := getF v 0 3 }
  | _ => r

end Sys2Proof.Machine
end

