-- ==== Sys2Proof/Machine/State.lean ====
section
/-! DEFINITION. The state of the device: one hub and one TSU with every register, queue, buffer and counter the spec gives
them, the commands waiting (first in, first out), what has crossed the boundary, and the counter that free values take.
A structure's field defaults are its values after reset. -/

namespace Sys2Proof.Machine

/-! ## Time (chapters 2 to 5) -/

/-- The time-base island (R54, R57, R59). -/
structure Timebase where
  regs : TimebaseRegs := {}
  tick : Tick := 0
  frac : BitVec 48 := 0
  /-- Island cycles since reset: TICK of a record while VALID is 0 (R379). -/
  cycles : BitVec 64 := 0
  /-- How often the hall tick has been stepped, so that a step between two stamps is seen (R90, R106). -/
  stepGen : Nat := 0
  /-- VALID has been 0 since the last cycle in which kept actions were looked at (R528). -/
  resolve : Bool := true
  /-- A new epoch has been learnt while VALID was 0 (R528). -/
  epochMoved : Bool := false
  /-- VALID is to be set again 10 ms after an epoch change or a step back (R55, R148). -/
  revalid : Bool := false
  deriving DecidableEq, Repr

/-- A stamp as its consumer holds it (R75, R76). -/
structure Stamp where
  /-- The stamp, in units of 2^-16 ns. -/
  t : Int := 0
  uncal : Bool := false
  missed : Bool := false
  stepGen : Nat := 0
  moveGen : Nat := 0
  /-- The move count of the link on which a forwarded SYNC came in, at its transmit stamp (R106). -/
  inGen : Nat := 0
  /-- VALID at the stamp (R94). -/
  valid : Bool := false
  /-- Edges offered to the point before this one. -/
  edge : Nat := 0
  deriving DecidableEq, Repr

/-- A conversion in progress: what it stamps, and, once the first island edge after the stamped edge has come, the time and rate
word the island held there (R73, R75). -/
structure Conv where
  tag : FlitTag
  edge : Nat
  moveGen : Nat := 0
  inGen : Nat := 0
  started : Bool := false
  tick : Tick := 0
  frac : BitVec 48 := 0
  rate : BitVec 40 := 0
  stepGen : Nat := 0
  valid : Bool := false
  deriving DecidableEq, Repr

/-- A stamping point: its two converters and their offsets (R73, R80). -/
structure PointSt where
  conv0 : Option Conv := none
  conv1 : Option Conv := none
  off0 : Int := 0
  off1 : Int := 0
  edges : Nat := 0
  deriving DecidableEq, Repr

/-- A lock cluster (R78 to R81). -/
structure Cluster where
  shown : ClusterRegs := {}
  fast : Int := 0
  slow : Int := 0
  /-- Consecutive gates with both integrators within one cycle. -/
  held : Nat := 0
  /-- The trim codes driven from the integrators (R78). -/
  trimFast : BitVec 16 := 0
  trimSlow : BitVec 16 := 0
  locked : Bool := false
  calibrating : Bool := false
  calibrated : Bool := false
  deriving DecidableEq, Repr

/-- The VERNIER page with its clusters and stamping points. -/
structure Vernier where
  regs : VernierRegs := {}
  clusters : Tbl Cluster := []
  points : Tbl PointSt := []
  deriving DecidableEq, Repr

/-- A measurement engine with the running figures of its set (R85 to R93). -/
structure Engine where
  regs : EmuRegs := {}
  /-- The first stamp of the sample being formed. -/
  first : Option Stamp := none
  /-- In INTERVAL mode, stamps on B that have converted while a stamp on A may still be converting (R86). -/
  bs : List Stamp := []
  /-- T_B of the last INTERVAL sample. -/
  doneAt : Option Stamp := none
  /-- Edges on A below this number begin no sample (R88, R93). -/
  after : Nat := 0
  /-- Stamps on A and on B that wait for an earlier edge's conversion. -/
  qA : List Stamp := []
  qB : List Stamp := []
  /-- Where the prescalers of A and B stand (R83). -/
  preA : Nat := 0
  preB : Nat := 0
  s1 : Int := 0
  sumY : Int := 0
  sumY2 : Int := 0
  lo : Int := 0
  hi : Int := 0
  stepped : Bool := false
  validAll : Bool := true
  deriving DecidableEq, Repr

/-- The running sums of R91 over a calibration's samples (R112). -/
structure CalSum where
  n : Nat := 0
  s1 : Int := 0
  sumY : Int := 0
  sumY2 : Int := 0
  deriving DecidableEq, Repr

/-- The calibration results a port keeps for one physical lane (R112 to R114), and the calibration it is in. -/
structure LaneCal where
  txCal : Int := 0
  rxCal : Int := 0
  have_ : Bool := false
  passed : Bool := false
  /-- The lane is folded and being calibrated; one that carries traffic waits for the spare to stand in (R111). -/
  busy : Bool := false
  want : Bool := false
  /-- The slots of the codeword that the folded lane carries (R452). -/
  word : List Msg := []
  /-- The stamps of the marker on its way: T_tx, T_pad and T_rx (R112). -/
  tTx : Option Stamp := none
  tPad : Option Stamp := none
  tRx : Option Stamp := none
  /-- The samples T_pad − T_tx and T_rx − T_pad of the markers so far (R91, R112). -/
  tx : CalSum := {}
  rx : CalSum := {}
  deriving DecidableEq, Repr

/-- An entry of a transmit stamp queue (R118, R119). -/
structure TsqEntry where
  kind : Bool
  sub : BitVec 2
  tsid : BitVec 8
  tick : Tick
  frac : BitVec 16
  deriving DecidableEq, Repr

/-- A place in the order of a transmit stamp queue: the sub-port and the number of the PROBE's edge, and the entry once it is
there (R119). -/
structure TsqSlot where
  sub : BitVec 2
  edge : Nat
  entry : Option TsqEntry
  deriving DecidableEq, Repr

/-- A SYNC sent on a link: the move count of the link then, and the link it came in on, none at the master (R105, R106). -/
structure FwdSync where
  seq : BitVec 16
  gen : Nat
  via : Option LinkId := none
  deriving DecidableEq, Repr

/-- An incoming SYNC_FU held for forwarding, with the receive stamp of its SYNC (R105). -/
structure FwdFu where
  fu : SyncFuP
  r : Stamp
  dIn : Int
  badIn : Bool
  /-- The time-parent link, none where this hub originated the SYNC. -/
  via : Option LinkId := none
  deriving DecidableEq, Repr

/-- A spare-lane remap in progress (R463). -/
structure Remap where
  id : BitVec 8
  llane : BitVec 2
  victim : BitVec 3
  initiator : Bool
  ack : Bool := false
  clean : Bool := false
  accepted : Bool := false
  sent : Bool := false
  at_ : Option (BitVec 14) := none
  /-- The move is for a periodic calibration (R111): it waits where the lane cannot be covered. -/
  cal : Bool := false
  deriving DecidableEq, Repr

/-- One link of a part: its banked registers, its time exchange and its flit layer. -/
structure Link where
  regs : LinkSubRegs := {}
  /-- Receive and transmit stamps held, newest first. -/
  rx : List (FlitTag × Stamp) := []
  tx : List (FlitTag × Stamp) := []
  /-- SYNCs still waiting for their SYNC_FU, oldest first; at most 2 (R110). -/
  syncs : List (BitVec 16) := []
  /-- SYNCs sent on this link whose SYNC_FU has not left (R105, R106). -/
  fwd : List FwdSync := []
  /-- Messages that wait for the stamp of the flit they follow to be converted (R101, R105, R118). -/
  waitFu : List SyncFuP := []
  waitDresp : List DrespFuP := []
  waitProbe : List ProbeP := []
  dseq : BitVec 16 := 0
  exch : Option (BitVec 16) := none
  /-- The DRESP of the outstanding exchange has arrived. -/
  exchAnswered : Bool := false
  resp : List (BitVec 16) := []
  dcount : Nat := 0
  dsum : Int := 0
  gateDrops : Nat := 0
  /-- PT_STAT.RESTARTS of R102, which no register of R121 shows. -/
  restarts : BitVec 16 := 0
  win : List Int := []
  latest : Option (Int × Tick) := none
  /-- Consecutive samples dropped under OFFSET_GATE, and the last of them (R128, R131). -/
  offRun : Nat := 0
  lastDropped : Int := 0
  moveGen : Nat := 0
  /-- KIND of the partner's HELLO: a TSU. -/
  peerTsu : Bool := false
  /-- ADDR of the partner's HELLO (R457): PORT_ROLE.SEEN_HUB shows the last that the port's links have learnt. -/
  peer : BitVec 16 := 0xFFFF
  /-- VER of the partner's HELLO (R491). -/
  peerVer : BitVec 8 := 0
  txSeq : BitVec 12 := 0
  rxSeq : BitVec 12 := 0
  replay : List (BitVec 12 × Option (BitVec 32) × Msg) := []
  /-- The LSEQ of the oldest flit sent that is not acknowledged (R458). -/
  ackSeq : BitVec 12 := 0
  hold : List (Option (BitVec 32) × Msg) := []
  /-- Credit held for UP, DOWN, SIGNAL, MGMT, RESULT and MIRROR (R460). -/
  credit : List Nat := [0, 0, 0, 0, 0, 0]
  /-- How many flits of the first held message of each of these classes have left (R455, R460). -/
  begun : List Nat := [0, 0, 0, 0, 0, 0]
  /-- Island cycles held for credit since LK_CREDIT.STALL_US last counted (R460). -/
  stall : Nat := 0
  nakSeq : BitVec 12 := 0
  nakRun : Nat := 0
  helloSent : Bool := false
  regTag : BitVec 4 := 0
  cwc : BitVec 14 := 0
  /-- Island cycle at which the last flit came in (R403). -/
  lastRx : Option (BitVec 64) := none
  /-- Classes of which a continuation flit comes next (R455), and the cycle of the last LNAK sent (R458). -/
  cont : BitVec 8 := 0
  nakAt : Option (BitVec 64) := none
  deriving DecidableEq, Repr

/-- One link page: a hub port, or a TSU link. -/
structure LinkPage where
  regs : LinkPageRegs := {}
  role : PortRoleRegs := {}
  tsq : List TsqEntry := []
  /-- PROBEs sent whose stamps are still being converted, in the order sent, and what waits behind them (R119). -/
  tsqWait : List TsqSlot := []
  fec : Tbl LaneFecRegs := []
  /-- The flits of the last codeword that each data lane has brought (R400). -/
  words : Tbl (List (BitVec 512)) := []
  cal : Tbl LaneCal := []
  /-- The physical lane that carries each data lane (R451, R464). -/
  lanes : List (BitVec 3) := [0, 1, 2, 3]
  spare : BitVec 3 := 4
  /-- The lane whose periodic calibration comes next. -/
  nextCal : BitVec 3 := 0
  remap : Option Remap := none
  remapId : BitVec 8 := 0
  spwReq : Bool := false
  spwSel : BitVec 3 := 7
  deriving DecidableEq, Repr

/-- The servo with what it remembers between samples (R124 to R136). -/
structure Servo where
  regs : ServoRegs := {}
  /-- Consecutive accepted samples within LOCK_THRESH (R127). -/
  good : Nat := 0
  /-- The tick of the acquisition step while the second sample is awaited (R127). -/
  stepAt : Option Tick := none
  /-- Whether both steps of R127 are done. -/
  tracking : Bool := false
  /-- Consecutive comparisons within 1.5 ns (R135, R136). -/
  agree : Nat := 0
  /-- HOLDOVER was entered by the row vote, or held by FREEZE. -/
  voted : Bool := false
  /-- A lead plane has been chosen since reset (R134). -/
  led : Bool := false
  /-- The island cycle at which a first sample chose the lead plane (R134). -/
  ledAt : Option (BitVec 64) := none
  /-- The island cycle count at which the present HOLDOVER began. -/
  holdAt : BitVec 64 := 0
  deriving DecidableEq, Repr

/-- A candidate or master ANNOUNCE heard from a hall hub (R138 to R144). -/
structure Heard where
  cls : BitVec 2
  prio : BitVec 8
  gen : BitVec 16
  at_ : Tick
  deriving DecidableEq, Repr

/-- A foreign PTP master (R152). -/
structure Foreign where
  identity : BitVec 64 := 0
  port : BitVec 16 := 0
  /-- The data set that the default comparison ranks: priority1, clock quality, priority2, stepsRemoved. -/
  rank : BitVec 128 := 0
  /-- The island cycle of its latest Announce, and that frame's logMessageInterval. -/
  at_ : BitVec 64 := 0
  logInterval : Int := 0
  utcOffset : BitVec 16 := 0
  utcValid : Bool := false
  leap61 : Bool := false
  leap59 : Bool := false
  deriving DecidableEq, Repr

/-- The PTP port's exchange (R152, R153). -/
structure Ptp where
  foreign : List Foreign := []
  syncSeq : Option (BitVec 16) := none
  corrSync : Int := 0
  t1 : Int := 0
  t2 : Int := 0
  t3 : Int := 0
  delaySeq : BitVec 16 := 0
  logSync : Int := 0
  logDelay : Int := 0
  delayPending : Bool := false
  havePair : Bool := false
  pathCount : Nat := 0
  pathSum : Int := 0
  deriving DecidableEq, Repr

/-- The REF page of a hub with the master's own state (R137 to R151). -/
structure Ref where
  regs : RefRegs := {}
  seq : BitVec 16 := 0
  heard : Tbl (Option Heard) := []
  /-- The hall tick of the last SYNC this hub originated as master (R98). -/
  lastOrigin : Option Tick := none
  nextMaster : BitVec 16 := 0xFFFF
  handoverAt : Tick := 0
  /-- The held θ_pps, and the latest 10 MHz phase (R146). -/
  pps : Option Int := none
  phi : Option Int := none
  /-- The latest sample of the reference (R148). -/
  last : Option Int := none
  lossDetected : Bool := false
  outPps : Bool := false
  outF10 : Bool := false
  /-- The time-path units have all differed: origination has stopped (R391). -/
  halted : Bool := false
  /-- This hub has been master or VALID since reset (R147). -/
  started : Bool := false
  deriving DecidableEq, Repr

/-! ## What both parts have (chapters 14, 16, 19) -/

/-- An event before it is laid out as a record (R379). -/
structure Ev where
  code : BitVec 16
  sub : BitVec 16
  sev : BitVec 2
  job : BitVec 16
  rank : BitVec 32
  step : BitVec 64
  payload : BitVec 192
  tickValid : Bool := false
  tick : BitVec 64 := 0
  deriving DecidableEq, Repr

/-- A folding window of identical events (R383). -/
structure EvWindow where
  ev : Ev
  count : Nat
  deriving DecidableEq, Repr

/-- A sender of upward collective flits toward one twin pair (R401, R402). -/
structure UpSender where
  dsn : BitVec 32 := 0
  unacked : List (BitVec 32 × Msg) := []
  waiting : List Msg := []
  deriving DecidableEq, Repr

/-- What an interface holds for itself (R507). -/
structure IfaceCopy where
  regs : IfaceRegs := {}
  ports : Tbl IfPortRegs := []
  emu : Tbl EmuLatch := []
  evq : BitVec 512 := 0
  ev : BitVec 512 := 0
  audit : List (BitVec 8) := []
  replay : BitVec 256 := 0
  deriving DecidableEq, Repr

/-- The blocks that the hub and the TSU both have. -/
structure Shared where
  hdr : Tbl PageHdr := []
  ifaces : Tbl IfaceCopy := []
  tb : Timebase := {}
  vern : Vernier := {}
  emus : Tbl Engine := []
  servo : Servo := {}
  pages : Tbl LinkPage := []
  links : Tbl Link := []
  phy : Tbl PhyLaneRegs := []
  evSeq : BitVec 32 := 0
  windows : List EvWindow := []
  /-- The latest master ANNOUNCE held (R108, R109). -/
  ann : Option AnnounceP := none
  /-- Incoming SYNC_FUs held for forwarding, by SEQ, newest first (R105). -/
  fus : List FwdFu := []
  deriving DecidableEq, Repr
/-- Who is waiting for the answer to a write whose response is held (R172, R212, R234). -/
inductive Waiter where
  | row (i : Iface)
  | hp (id : Nat)
  | reg (l : LinkId) (tag : BitVec 4)
  /-- No answer is owed: a posted PCIe write, or one of JTAG. -/
  | silent
  deriving DecidableEq, Repr

/-- A request of the host port that has been accepted and not yet answered (R169). -/
structure HpEntry where
  id : Nat
  tag : BitVec 4
  write : Bool
  /-- Whether the request was refused, and the read data, once both are known. -/
  done : Option (Bool × Word)
  deriving DecidableEq, Repr

/-- An access of the host port that gives way to others in its island cycle (R170, R288): the request's number, and the access. -/
structure LateHost where
  id : Nat
  write : Bool
  addr : BitVec 24
  data : Word
  deriving DecidableEq, Repr

/-- An event input (R175, R177). -/
structure EvtLine where
  regs : EvtLineRegs := {}
  /-- Island cycle of the last recorded edge. -/
  lastCyc : Option (BitVec 64) := none
  /-- Edges recorded, for WAITEVT (R282). -/
  edges : Nat := 0
  deriving DecidableEq, Repr

/-- Which mode scheduled a trigger pulse (R265); one of STEP mode belongs to a launch, and its tick says which (R262). -/
inductive PulseKind where
  | step (launch : Tick)
  | oneshot
  | program
  deriving DecidableEq, Repr

/-- A trigger output (R176, R265 to R267). -/
structure TrigLine where
  regs : TrigLineRegs := { trigWidth := 0x63 }
  pend : List (PulseKind × Tick) := []
  active : Bool := false
  /-- When the present pulse ends, in units of 2^-16 ns. -/
  endAt : Int := 0
  /-- The hall tick at which the output was enabled, or went on after VALID had been 0, and the last k of PERIODIC mode placed
  since (R265, R528). -/
  enAt : Tick := 0
  lastK : Option Int := none
  deriving DecidableEq, Repr

/-- A launch of a region tap (R188, R194). -/
structure TapLaunch where
  target : Tick
  frac : BitVec 16
  lid : BitVec 8
  armed : Bool := false
  deriving DecidableEq, Repr

/-- A region tap: the root's copy of its registers and what the root keeps of it, and the tap itself (R186 to R212). -/
structure Tap where
  regs : TapRegs := {}
  /-- Launches the root has sent and counts in the tap's queue, and those it holds (R194). -/
  sent : List TapLaunch := []
  held : List TapLaunch := []
  /-- The losses that stand, as the root has heard of them. -/
  losses : BitVec 4 := 0
  seenDrop : BitVec 16 := 0
  seenErr : BitVec 16 := 0
  /-- The tap's own registers. -/
  own : TapRegs := {}
  queue : List TapLaunch := []
  anchor : Tick := 0
  tval : Bool := false
  dropRun : Nat := 0
  stretching : Bool := false
  /-- The notice output but for NB_TEST (R201). -/
  notice : Bool := false
  nbIn : BitVec 6 := 0
  /-- The extensions of hold that run (R201). -/
  ext : Nat := 0
  stop : Bool := false
  freq : Bool := false
  /-- fc_req, whose acknowledgement may be deferred, and fc_ack; a frequency change is in progress until the tap has measured 64
  new cycles (R204, R205). -/
  fcReq : Bool := false
  fcDefer : Bool := false
  fcAck : Bool := false
  fcRun : Bool := false
  /-- The tap measures P_NOM over 64 cycles (R199). -/
  measuring : Bool := false
  launched : Option Int := none
  overs : BitVec 4 := 0
  /-- Where the replica's prescaler stands, and runs of low and of good windows (R209). -/
  repPre : Nat := 0
  lowRun : Nat := 0
  highRun : Nat := 0
  /-- The tick at which NB_TEST began to drive the notice output, in the check in progress (R188, R203). -/
  nbTest : Option Tick := none
  rpt : List (BitVec 64) := []
  deriving DecidableEq, Repr
/-- A slot of a TSU (R213, R214). -/
structure Slot where
  regs : SlotRegs := {}
  /-- The tick of a TIMED completion that is scheduled (R226). -/
  due : Option Tick := none
  /-- An AUTOCLR flag clears in the next cycle (R231). -/
  clr : Bool := false
  deriving DecidableEq, Repr

/-- A window of an ingress channel (R237). -/
structure Window where
  isOpen : Bool := false
  base : BitVec 64 := 0
  deriving DecidableEq, Repr

/-- A queued SEND with its fence covers (R232, R233). -/
structure SendE where
  rank : BitVec 20
  obj : BitVec 16
  /-- AMOUNT minus one. -/
  amount : BitVec 16
  fmask : BitVec 4
  chan : BitVec 2
  window : BitVec 6
  bytes : BitVec 40
  cover : List (BitVec 64)
  deriving DecidableEq, Repr
/-- What the step sequencer or a home engine waits for (R282, R290, R371). -/
inductive SeqWait where
  | fence (mask : BitVec 4) (cover : List (BitVec 64))
  | send
  | slot (k : BitVec 12) (target : BitVec 64)
  | evt (n : BitVec 4) (issued : Tick) (edges : Nat)
  | tick (target : Tick)
  | result (ctx : BitVec 12) (first : BitVec 64) (count buf : Nat)
  | resultx (a : BitVec 4) (ctx : BitVec 12) (elem : BitVec 64)
  | replay
  | hwait (ctx : BitVec 12)
  | hdigest
  deriving DecidableEq, Repr

/-- A program with the engine that runs it: the TSU's step sequencer, or the home engine of a job (R275 to R296). -/
structure Seq where
  regs : SeqRegs := {}
  /-- The words of the load stream; none where no word has been written (R278). -/
  words : Tbl (Option Word) := []
  tooLong : Bool := false
  /-- PROG_DIGEST (R279). -/
  digest : BitVec 384 := 0
  /-- X1 to X15 (R281). -/
  xs : Tbl Word := []
  /-- Step index and launch tick of the pass. -/
  step : BitVec 64 := 0
  launch : Tick := 0
  wait : Option SeqWait := none
  /-- The pass map, VARY_STEP, VARY_RUN and the number of VARY words issued in the pass (R284). -/
  map : BitVec 256 := 0
  mapStep : BitVec 256 := 0
  mapRun : BitVec 256 := 0
  vcount : Nat := 0
  /-- The next pass of a home engine, waiting for END (R294). -/
  next : Option (BitVec 64 × Tick) := none
  deriving DecidableEq, Repr

/-- A descriptor of a reduction context (R304); CFG 0 means not installed. -/
structure CtxDesc where
  cfg : Word := 0
  k : Word := 0
  deriving DecidableEq, Repr

/-- A result flit that the TSU keeps, with the elements that RESULT words have copied (R291). -/
structure HeldResult where
  via : LinkId
  res : ResultP
  copied : BitVec 32 := 0
  deriving DecidableEq, Repr

/-- An entry of a replay queue (R371). -/
structure RqEntry where
  step : BitVec 64
  vidx : BitVec 8
  value : Word
  deriving DecidableEq, Repr

/-- A launch whose authority the TSU holds (R251, R261). -/
structure HeldLaunch where
  tick : Tick
  step : BitVec 64
  /-- The first launch of a LAUNCH transaction (R254). -/
  first : Bool := false
  deriving DecidableEq, Repr

/-- A transaction staged on a part (R415, R426). -/
structure Staged where
  coord : BitVec 16
  tid : BitVec 16
  kind : BitVec 8
  partition : BitVec 13
  commit : Tick
  voteBy : Tick
  /-- This part's share of the actions. -/
  share : List (BitVec 8)
  /-- The link the PREPARE came on, where the vote goes back. -/
  via : Option LinkId
  deferred : Bool := false
  committed : Bool := false
  /-- The arrivals of fenced dies that this hub's own vote, and the votes that it has passed on, report (R227). -/
  arrived : List (BitVec 20 × BitVec 16) := []
  deriving DecidableEq, Repr

/-- An element of a step buffer (R301, R308). For MIN to ARGMAX, `acc` holds the best value's bits and `rank` its rank. -/
structure Elem where
  n : Nat := 0
  acc : Int := 0
  rank : BitVec 20 := 0
  nan : Bool := false
  pinf : Bool := false
  ninf : Bool := false
  anynz : Bool := false
  deriving DecidableEq, Repr

/-- A step buffer of a context (R313, R327): STATE as SP_STATE gives it, and its place, 0 reserved slots, 1 unreserved on-die
slots, 2 spill area. -/
structure StepBuf where
  state : BitVec 3 := 0
  place : BitVec 2 := 0
  step : BitVec 64 := 0
  elems : Tbl Elem := []
  /-- Staging entries of SCAN and ALLOT, by 2^16 × rank + element (R307). -/
  staging : Tbl (Option Word) := []
  ovf : Bool := false
  excess : Bool := false
  range : Bool := false
  /-- The result elements once finished (R321). -/
  fin : Tbl Word := []
  deriving DecidableEq, Repr

/-- A context on a hub: its registers with the descriptor, the participants' ranks and the two step buffers. -/
structure HubCtx where
  regs : StockCtxRegs := {}
  parts : List (BitVec 20) := []
  a : StepBuf := {}
  b : StepBuf := {}
  deriving DecidableEq, Repr

/-- A barrier entry of a home member, with its participants' ranks and slots (R216, R218). -/
structure Barrier where
  regs : BarrierRegs := {}
  parts : List (BitVec 20 × BitVec 16) := []
  deriving DecidableEq, Repr

/-- The lateness statistics of a rank on a leaf hub (R268 to R270). -/
structure LateSt where
  regs : LateRegs := { ltCfgK := 0x0A }
  /-- The samples of the set in progress, oldest first. -/
  set : List (BitVec 32) := []
  blockSum : Nat := 0
  /-- Step index of the block's last sample. -/
  lastStep : BitVec 64 := 0
  deriving DecidableEq, Repr

/-- The folds of a step's digests and VARY maps, with the CHECK values held (R337 to R342). -/
structure StepFold where
  step : BitVec 64
  members : Nat := 0
  n : Nat := 0
  nc : Nat := 0
  d0 : BitVec 127 := 0
  d1 : BitVec 127 := 0
  vmembers : Nat := 0
  vcount : Nat := 0
  map : BitVec 256 := 0
  checks : List CheckP := []
  /-- CHECK flits for the step that were dropped as stray or out of range. -/
  dropped : Nat := 0
  /-- The step is flagged COUNT. -/
  count : Bool := false
  deriving DecidableEq, Repr

/-- A mismatch that a step calls for (R339): CAUSE, DID and the first suspect rank. -/
structure Mismatch where
  cause : BitVec 16
  did : BitVec 8
  suspect : BitVec 20
  deriving DecidableEq, Repr

/-- A step's close at the lead, from step 5 of R338 on. -/
structure Closing where
  fold : StepFold
  expect : Nat
  groups : Nat
  events : List Mismatch
  /-- The SUSPECT field of the STEP record. -/
  suspect : BitVec 32
  deriving DecidableEq, Repr

/-- Records of a job that the audit log has dropped (R354). -/
structure AudGap where
  first : BitVec 64
  count : Nat
  step : BitVec 64
  chain : BitVec 384
  deriving DecidableEq, Repr

/-- What a member's vote carried (R361). -/
structure MemberVals where
  ident : BitVec 32 := 0
  fw : BitVec 64 := 0
  unitmap : BitVec 256 := 0
  deriving DecidableEq, Repr

/-- The items of the envelope, each with its content as a digest or number (R360). -/
structure EnvItems where
  bytes : List (List (BitVec 8)) := []
  deriving DecidableEq, Repr

/-- A leaf hub's failure detector for a rank: timeouts accrued for a step (R406). -/
structure Arrivals where
  step : BitVec 64 := 0
  counted : Bool := false
  timeouts : Nat := 0
  deriving DecidableEq, Repr

/-- A launch tick that a hub keeps, with the flags of its release (R268, R352). -/
structure LaunchRec where
  step : BitVec 64
  tick : Tick
  late : Bool
  rebased : Bool
  /-- Taken from a STEP_RELEASE, and not from the LAUNCH action (R268). -/
  released : Bool := true
  deriving DecidableEq, Repr

/-- A message for which no link in service leads on (R402): the link it came on, its job, and the destination in its flow key. -/
structure Stranded where
  via : LinkId
  job : BitVec 12
  dst : Nat
  msg : Msg
  deriving DecidableEq, Repr

/-- The envelope in force at the launch of a step, and whether a STEP record has yet to show that it changed (R352, R364). -/
structure EnvRec where
  step : BitVec 64
  env : BitVec 384
  changed : Bool
  deriving DecidableEq, Repr

/-- What a hub holds of a job. -/
structure HubJob where
  regs : TxnJobRegs := {}
  /-- The active tables come from a job partition that this hub holds (R414). -/
  flt : FltJobRegs := {}
  steph : StephRegs := { sthCatchupCatchupMax := 0x03FF }
  digh : DighRegs := {}
  deth : DethJobRegs := {}
  members : BitVec 19 := 0
  lead : BitVec 16 := 0xFFFF
  other : BitVec 16 := 0xFFFF
  /-- This hub, and not its twin, leads the home pair that the two are, of the job or of barriers of it (R218, R404). -/
  leads : Bool := false
  stepObj : BitVec 16 := 0
  defTimeout : BitVec 32 := 0
  peakCtx : BitVec 16 := 0
  peakSlots : BitVec 32 := 0
  releaseLead : BitVec 32 := 0x0FA0
  /-- The hub's current step of the job, for wire forms (R63). -/
  step : BitVec 64 := 0
  ranks : Tbl (Option (BitVec 24)) := []
  /-- The hubs in the job's span, fixed at admission and joined by a remap (R529). -/
  spanSet : List (BitVec 16) := []
  xlRefused : BitVec 16 := 0
  /-- The multicast group of each barrier on this hub (R218). -/
  objGroup : Tbl (Option (BitVec 12)) := []
  fence : BitVec 288 := 0
  fenced : List (BitVec 24) := []
  barriers : Tbl (Option Barrier) := []
  /-- Arrival records: the GEN of the last arrival, by 2^16 × die slot + OBJ (R222). -/
  arrivals : Tbl (Option (BitVec 16)) := []
  /-- The GEN of the last RELEASE that the hub has seen, by OBJ: an arrival of that GEN counts no more (R227). -/
  lastRel : Tbl (Option (BitVec 16)) := []
  detect : Tbl Arrivals := []
  /-- Launch ticks of the last steps forwarded, newest first (R268). -/
  launches : List LaunchRec := []
  late : Tbl LateSt := []
  ctxs : Tbl HubCtx := []
  /-- Contexts and steps for which a contribution has been refused (R314). -/
  refused : List (BitVec 12 × BitVec 64) := []
  /-- Contributions that have passed this leaf hub, for the votes of R409. -/
  passed : List (BitVec 20 × BitVec 12 × BitVec 64) := []
  /-- Released results with their steps (R322). -/
  kept : List (BitVec 64 × ResultP) := []
  /-- On the member that does not lead: its results whose residues are still to be compared, and flits of the lead's that came before
  its own release (R393). -/
  rresDue : List (BitVec 64 × ResultP) := []
  rresIn : List ResultP := []
  seq : Seq := {}
  /-- The launch that the home holds: its tick and step. -/
  nextLaunch : Option HeldLaunch := none
  plan : Tbl Word := []
  folds : List StepFold := []
  closing : Option Closing := none
  /-- The step of the present pass has closed (R352). -/
  closed : Bool := false
  /-- The other member's close, when it came before the lead's own. -/
  twinClose : Option (DgpP × VmapP) := none
  dgD0 : BitVec 127 := 0
  dgD1 : BitVec 127 := 0
  audSeq : BitVec 64 := 0
  audChain : BitVec 384 := 0
  gap : Option AudGap := none
  weights : BitVec 384 := 0
  inputs : BitVec 384 := 0
  expect : BitVec 384 := 0
  /-- The envelope in force and its items; whether one has been computed since admission (R363). -/
  env : BitVec 384 := 0
  envItems : EnvItems := {}
  envNext : BitVec 384 := 0
  envNextItems : EnvItems := {}
  /-- A step has launched since admission. -/
  envSet : Bool := false
  /-- The hall tick of the last change of an item (R363). -/
  envAt : Tick := 0
  /-- The envelopes at the last launches, newest first (R352, R364). -/
  envs : List EnvRec := []
  memberVals : Tbl MemberVals := []
  hubFw : Tbl (BitVec 64) := []
  /-- The TSU digest that the last LAUNCH named (R279, R360). -/
  tsuDigest : BitVec 384 := 0
  lastFlip : Option Tick := none
  /-- PAUSE_MARK has been sent; the ranks that have replied (R437). -/
  marked : Bool := false
  replied : List (BitVec 20) := []
  /-- Hubs of the span yet to acknowledge an abort (R443). -/
  hubsPending : Nat := 0
  deriving DecidableEq, Repr

/-- A multicast group of the Ladle (R521). -/
structure Group where
  owner : Option (BitVec 12) := none
  mask : BitVec 288 := 0
  deriving DecidableEq, Repr

/-- A transaction on its coordinator (R425 to R434). -/
structure Txn where
  regs : TxnEntryRegs := {}
  voteBy : Tick := 0
  body : List (BitVec 8) := []
  /-- The targets (R422, R529). -/
  hubs : List (BitVec 16) := []
  eps : List (BitVec 24) := []
  /-- Targets that have reported DONE or DRAINED. -/
  reports : Nat := 0
  /-- Ranks and objects whose arrivals, and ranks' contexts and steps whose contributions, the votes report (R227, R409). -/
  arrived : List (BitVec 20 × BitVec 16) := []
  passed : List (BitVec 20 × BitVec 12 × BitVec 64) := []
  /-- What the votes carried, by ORIGIN (R361, R426). -/
  vals : List (BitVec 32 × MemberVals) := []
  deriving DecidableEq, Repr

/-- What a receiver pair keeps of a sender's delivery sequence (R401): the next DSN expected, and those beyond it that have
been folded. -/
structure DsnSeen where
  next : BitVec 32 := 0
  ahead : List (BitVec 32) := []
  deriving DecidableEq, Repr

/-- A slot of the flash but for its STATE, which FW_SLOTS holds (R494): whether it has been tried, CONFIRM_SEQ, the accepted
header, the slot nonce and the image. -/
structure FwSlot where
  tried : Bool := false
  confirmSeq : Nat := 0
  hdr : List (BitVec 8) := []
  nonce : BitVec 64 := 0
  image : List (BitVec 8) := []
  deriving DecidableEq, Repr

/-- The identity and configuration region and the image slots of the module's flash (R474, R516, R518), with the boots counted
there (R486). -/
structure Flash where
  hubAddr : BitVec 16 := 0xFFFF
  ipv4 : BitVec 32 := 0
  prefixLen : BitVec 6 := 0
  gateway : BitVec 32 := 0
  mac : BitVec 48 := 0
  query : BitVec 16 := 0x5251
  boots : BitVec 16 := 0
  slot0 : FwSlot := {}
  slot1 : FwSlot := {}
  deriving DecidableEq, Repr

/-- The image being received (R491 to R493): its slot, its header, and the plaintext of the blocks accepted. -/
structure Transfer where
  slot : Bool
  hdr : List (BitVec 8)
  blocks : Tbl (Option (List (BitVec 8))) := []
  deriving DecidableEq, Repr

/-- The instruction in the JTAG TAP (R485). -/
inductive JtagIr where
  | bypass
  | samplePreload
  | idcode
  | extest
  | regacc
  deriving DecidableEq, Repr

/-- The module's power and reset inputs as the hub sees them (R469 to R484). -/
structure Power where
  /-- The converters run. -/
  on : Bool := true
  /-- The cause that the power controller has latched for the next power-up (R470). -/
  latch : Option (BitVec 4) := none
  /-- MOD_RST_N, and PERST#, is low. -/
  rstLow : Bool := false
  perst : Bool := false
  /-- The core reset has not been followed by the boot ROM; the management controller was reset with it. -/
  coldBoot : Bool := true
  /-- FW_CTRL.RECOVER has been written; the cold reset that follows enters ROM recovery (R500). -/
  recover : Bool := false
  recoverNow : Bool := false
  /-- Island cycle at which BOOT_DONE was set. -/
  bootAt : BitVec 64 := 0
  deriving DecidableEq, Repr

/-- The JTAG TAP (R485): its instruction, the boundary register and the data register of REGACC. -/
structure Jtag where
  ir : JtagIr := .idcode
  boundary : List Bool := []
  data : BitVec 89 := 0
  deriving DecidableEq, Repr

/-- A history entry of one of the hub's units (R396). -/
structure HistEntry where
  unit : BitVec 16
  kind : BitVec 8
  verdict : BitVec 8
  opsec : Nat
  tai : BitVec 64
  fwLow : BitVec 32
  deriving DecidableEq, Repr

/-- What the device has driven across its boundary, oldest first. -/
inductive Out where
  /-- A flit, with the logical lane and the slot of the codeword that carry it (R452). -/
  | flit (l : LinkId) (lseq : BitVec 12) (dsn : Option (BitVec 32)) (m : Msg) (lane : BitVec 2) (slot : BitVec 4)
  | readData (i : Iface) (v : Word)
  | writeAck (i : Iface) (err : Bool)
  | refEdge (pps : Bool) (level : Bool) (tick : Tick) (frac : BitVec 48)
  | ptpDelayReq (identity : BitVec 64) (port seq : BitVec 16)
  | msix (v : BitVec 6)
  | hpResponse (tag : BitVec 4) (err : Bool) (data : Word)
  | trig (n : BitVec 4) (level : Bool) (at_ : BitVec 80)
  | strobe (rising : Bool) (tick : Tick)
  | tapFrame (frame : BitVec 128)
  | tapReport (tap : BitVec 7) (report : BitVec 64)
  | launchOut (tap : BitVec 7)
  | udp (ip : BitVec 32) (port : BitVec 16) (data : List (BitVec 8))
  | jtag (bits : List Bool)
  | jtagPins (bits : List Bool)
  | arpReply (ip : BitVec 32) (mac : BitVec 48)
  | icmpReply (ip : BitVec 32) (data : List (BitVec 8))
  | pcieReply (unsupported : Bool) (data : List (BitVec 8))
  deriving DecidableEq, Repr

/-- The TSU. -/
structure Tsu where
  sh : Shared := { servo := { regs := { servoCtrlHoldLimitMs := 0x40 } } }
  root : RootRegs := {}
  /-- The endpoints that the latest HELLO on link A and on link B gave (R30), and a conflict that has yet to be reported. -/
  epA : Option (BitVec 24) := none
  epB : Option (BitVec 24) := none
  epReport : Bool := false
  up : UpSender := {}
  evq : List (BitVec 512) := []
  evqRegs : EvqRegs := {}
  txnt : TxntRegs := {}
  step : StepRegs := {}
  /-- The die's rank, and the number of members of its job (R34, R424). -/
  rank : BitVec 20 := 0
  members : BitVec 19 := 0
  pend : List (LinkId × SignalP) := []
  /-- tsu_rst_n is low (R164). -/
  inReset : Bool := false
  hp : List HpEntry := []
  hpNext : Nat := 0
  evt : EvtrigRegs := {}
  evts : Tbl EvtLine := []
  /-- The inputs on which an edge has been recorded in this island cycle: a write does not clear their bits (R175). -/
  evtNew : BitVec 16 := 0
  /-- Sequencer words, by opcode, and accesses of the host port that give way in this island cycle (R170, R288). -/
  lateWords : List Nat := []
  lateHost : List LateHost := []
  trigs : Tbl TrigLine := []
  dfc : DfcRegs := {}
  tapPage : TapPageRegs := {}
  taps : Tbl Tap := []
  lid : BitVec 8 := 0
  tapWrites : List (BitVec 7 × BitVec 8 × Waiter) := []
  /-- The neighbour check that is in progress, and what its taps have reported (R203). -/
  nbCheck : Bool := false
  nbSeen : List (BitVec 7 × BitVec 3 × BitVec 7) := []
  sync : SyncRegs := {}
  slots : Tbl Slot := []
  wins : Tbl Window := []
  waits : Tbl WaitRegs := []
  sends : List SendE := []
  /-- SENDs held because the queue is full, in order; those of the step program have no waiter (R234). -/
  heldSends : List (SendE × Option Waiter) := []
  seq : Seq := {}
  /-- XBUF, and its words that a CONTRIB or DIGEST reads in this island cycle, by first word and count (R290). -/
  xbuf : Tbl Word := []
  xhold : List (Nat × Nat) := []
  spt : SptRegs := {}
  ctxs : Tbl CtxDesc := []
  /-- Contexts on which an element beyond the vector has been dropped in this step (R309). -/
  ovf : List (BitVec 12) := []
  store : List HeldResult := []
  /-- FLAGS of the latest result of each context (R324). -/
  resFlags : Tbl (BitVec 6) := []
  /-- Bad copies by context and first element (R392), and which link the next re-request takes. -/
  badCopies : List (BitVec 12 × BitVec 16) := []
  rereqB : Bool := false
  plan : Tbl Word := []
  digt : DigtRegs := {}
  issued : BitVec 256 := 0
  acc0 : BitVec 127 := 0
  acc1 : BitVec 127 := 0
  det : DetRegs := {}
  unitmap : BitVec 256 := 0
  rq : List RqEntry := []
  seed : Word := 0
  stepObj : BitVec 16 := 0
  /-- The first copy of the next step's STEP_RELEASE (R260). -/
  rel : Option StepReleaseP := none
  launch : Option HeldLaunch := none
  /-- Staged transactions by partition: one of the die's job, and one deferred (R428). -/
  staged : Tbl (Option Staged) := []
  lastFlip : Option Tick := none
  /-- A PAUSE_MARK has been received and not yet answered (R437). -/
  pauseMark : Bool := false
  /-- The die has joined its job by a remap and launched no step since: it knows no current step (R436, R529). -/
  joined : Bool := false
  /-- The tick of the launch that the last accepted STEP_RELEASE named, when it was missed for want of VALID (R262, R528). -/
  missed : Option Tick := none
  /-- A step of the job has launched since the die was admitted to it (R277). -/
  launched : Bool := false
  deriving DecidableEq, Repr

/-- The hub. -/
structure Hub where
  sh : Shared := {}
  id : HubidRegs := {}
  mod_ : ModRegs := {}
  /-- Which draw of the route salt is in use: one per reset (R39). -/
  salt : Nat := 0
  units : Tbl UnitRegs := []
  history : List HistEntry := []
  histQueue : List HistEntry := []
  /-- Powered seconds accumulated before this power-up (R396). -/
  opsecBase : Nat := 0
  flt : FltRegs := {}
  fw : FwRegs := {}
  ref : Ref := {}
  ptp : Ptp := {}
  ups : Tbl UpSender := []
  ring : Tbl (BitVec 512) := []
  evh : EvhRegs := {}
  jobs : Tbl HubJob := []
  intc : IntcRegs := {}
  msixEnable : Bool := false
  /-- The mask bit of each vector, in the MSI-X table (R510). -/
  msixMasked : BitVec 64 := 0xFFFFFFFFFFFFFFFF
  msixPending : BitVec 64 := 0
  /-- Address and data words of the MSI-X table. -/
  msixTable : Tbl Word := []
  synch : SynchRegs := {}
  late : LatePageRegs := {}
  stock : StockRegs := {}
  aud : AuditRegs := { audCtrlEn := true, audCfg := 0x04 }
  audRing : Tbl (BitVec 2048) := []
  deth : DethRegs := { rlCfgEn := true, rlCfgSizeGib := 0x04 }
  rlRing : Tbl (BitVec 256) := []
  hq : List RqEntry := []
  /-- The weight-provenance register (R347). -/
  prov : Tbl (BitVec 512) := []
  groups : Tbl Group := []
  ladle : LadleRegs := {}
  xlat : XlatRegs := {}
  /-- The ranks in the on-die cache of the edge translation, by job and rank (R44). -/
  xlCache : List (BitVec 12 × BitVec 20) := []
  txn : TxnRegs := { txnCtrlChunk := 0xFFFF }
  nextTid : BitVec 16 := 0
  txns : Tbl Txn := []
  /-- Transactions queued or in progress in TID order, and the finished ones, newest first. -/
  queue : List (BitVec 16) := []
  finished : List (BitVec 16) := []
  /-- The TID that holds each partition's lock. -/
  locks : Tbl (Option (BitVec 16)) := []
  body : List (BitVec 8) := []
  /-- The mailbox in BAR2 (R420). -/
  bar2 : Tbl (BitVec 8) := []
  staged : Tbl (Option Staged) := []
  fabric : Bool := false
  /-- The routing table: port mask by destination hub (R423). -/
  routes : Tbl (BitVec 72) := []
  /-- The link that each flow has taken, by its key (R39). -/
  flows : Tbl (Option LinkId) := []
  /-- Messages for which no link in service leads on, oldest first (R402). -/
  stranded : List Stranded := []
  dsnSeen : Tbl DsnSeen := []
  /-- Island cycle of the last heartbeat of each die, by 2 × die slot, plus 1 for those its twin has heard (R406). -/
  hbSeen : Tbl (BitVec 64) := []
  declared : List (BitVec 24) := []
  /-- HEARD of the last heartbeat from each origin (R403). -/
  heard : Tbl (BitVec 288) := []
  mgmt : MgmtRegs := { mgQuery := 0x5251 }
  /-- Units whose first run of a leaving test has passed (R398). -/
  katPassed : List (BitVec 16) := []
  /-- The narrow and the wide lane that the rotation has out, and the next wide lane (R399). -/
  rotN : Option (BitVec 16) := none
  rotW : Option (BitVec 16) := none
  rotWide : Nat := 0
  /-- The twin's transactions, as mirrored (R433). -/
  mtxns : Tbl Txn := []
  /-- The links over which a PREPARE for another target has gone on, by coordinator and TID: its COMMIT or ABORT follows. -/
  relays : List (BitVec 16 × BitVec 16 × LinkId) := []
  /-- The body that the twin is being given (R420), and the twin's unacknowledged flits by DSN, newest last (R402). -/
  mbody : List (BitVec 8) := []
  twinUp : List (BitVec 32 × Msg) := []
  /-- Ports waiting for admission, in order (R477, R478). -/
  admitQ : List (BitVec 7) := []
  flash : Flash := {}
  transfer : Option Transfer := none
  power : Power := {}
  jtag : Jtag := {}
  memc : Tbl MemcRegs := []
  deriving DecidableEq, Repr

/-- Why a command stops the block with a fault. No command does: every row of the table has an effect the spec gives, which
may be none, so this type is empty. Safe: nothing is kept from running. -/
inductive Fault where
  deriving DecidableEq, Repr

/-- Why the model has no meaning for a command. -/
inductive Refusal where
  /-- Raised by an arm of `exec` whose row has no meaning yet, which no arm is any more. Safe: the command has no next state. -/
  | notModelled (mnemonic : String)
  deriving DecidableEq, Repr

/-- The whole block. -/
structure State where
  pending : List Instr
  hub : Hub
  tsu : Tsu
  out : List Out
  free : Nat
  deriving DecidableEq, Repr

/-- The block after reset. -/
def State.reset : State := { pending := [], hub := {}, tsu := {}, out := [], free := 0 }

end Sys2Proof.Machine
end

