-- ==== Sys2Proof/Machine/Ops.lean ====
section
/-! DEFINITION. The operations that every family shares: reading and changing a part's blocks, counting refusals and
setting interrupt causes (R504 to R506), free values, sending flits on a link (R454 to R460), forming event records
(R379 to R385), sending upward under the delivery rule (R401, R402), and hall-tick tests (R62 to R68). -/

namespace Sys2Proof.Machine

/-! ## Parts of the state -/

/-- The blocks both parts have, of one part. -/
def State.sh (s : State) : Part → Shared
  | .hub => s.hub.sh
  | .tsu => s.tsu.sh

/-- A part's shared blocks go through a function. -/
def modSh (s : State) (p : Part) (f : Shared → Shared) : State :=
  match p with
  | .hub => { s with hub := { s.hub with sh := f s.hub.sh } }
  | .tsu => { s with tsu := { s.tsu with sh := f s.tsu.sh } }

/-- The hub goes through a function. -/
def modHub (s : State) (f : Hub → Hub) : State := { s with hub := f s.hub }

/-- The TSU goes through a function. -/
def modTsu (s : State) (f : Tsu → Tsu) : State := { s with tsu := f s.tsu }

/-- Something crosses the boundary outward. -/
def emit (s : State) (o : Out) : State := { s with out := s.out ++ [o] }

/-- A part's time-base island goes through a function. -/
def modTb (s : State) (p : Part) (f : Timebase → Timebase) : State := modSh s p fun h => { h with tb := f h.tb }

/-- A part's time-base registers go through a function. -/
def modTbRegs (s : State) (p : Part) (f : TimebaseRegs → TimebaseRegs) : State :=
  modTb s p fun t => { t with regs := f t.regs }

/-- A part's servo goes through a function. -/
def modServo (s : State) (p : Part) (f : Servo → Servo) : State := modSh s p fun h => { h with servo := f h.servo }

/-- A part's servo registers go through a function. -/
def modServoRegs (s : State) (p : Part) (f : ServoRegs → ServoRegs) : State :=
  modServo s p fun v => { v with regs := f v.regs }

/-- What a link holds after reset: REMOTE_WR is 1 on the TSU and 0 on the hub (R468), and a TSU whose reset has been released
is in DETECT (R465). -/
def linkReset : Part → Link
  | .hub => {}
  | .tsu => { regs := { lkCtrlRemoteWr := true, lkState := 1 } }

/-- What a link page holds after reset: the TSU's links have data lane 0 and spare lane 1 (R522). -/
def pageReset : Part → LinkPage
  | .hub => {}
  | .tsu => { lanes := [0, 0, 0, 0], spare := 1 }

/-- A link. -/
def State.link (s : State) (l : LinkId) : Link := tget (linkReset l.part) (s.sh l.part).links l.key

/-- A link goes through a function. -/
def modLink (s : State) (l : LinkId) (f : Link → Link) : State :=
  modSh s l.part fun h => { h with links := tmod (linkReset l.part) h.links l.key f }

/-- A link's banked registers go through a function. -/
def modLinkRegs (s : State) (l : LinkId) (f : LinkSubRegs → LinkSubRegs) : State :=
  modLink s l fun k => { k with regs := f k.regs }

/-- A link page. -/
def State.page (s : State) (p : Part) (i : BitVec 7) : LinkPage := tget (pageReset p) (s.sh p).pages i.toNat

/-- A link page goes through a function. -/
def modPage (s : State) (p : Part) (i : BitVec 7) (f : LinkPage → LinkPage) : State :=
  modSh s p fun h => { h with pages := tmod (pageReset p) h.pages i.toNat f }

/-- An interface's copies. -/
def State.iface (s : State) (i : Iface) : IfaceCopy := tget {} (s.sh i.part).ifaces i.key

/-- An interface's copies go through a function. -/
def modIface (s : State) (i : Iface) (f : IfaceCopy → IfaceCopy) : State :=
  modSh s i.part fun h => { h with ifaces := tmod {} h.ifaces i.key f }

/-- An interface's selects and latches go through a function. -/
def modIfaceRegs (s : State) (i : Iface) (f : IfaceRegs → IfaceRegs) : State :=
  modIface s i fun c => { c with regs := f c.regs }

/-- A stamping point. -/
def State.point (s : State) (k : Point) : PointSt := tget {} (s.sh k.part).vern.points k.key

/-- A stamping point goes through a function. -/
def modPoint (s : State) (k : Point) (f : PointSt → PointSt) : State :=
  modSh s k.part fun h => { h with vern := { h.vern with points := tmod {} h.vern.points k.key f } }

/-- An engine. -/
def State.emu (s : State) (p : Part) (e : BitVec 2) : Engine := tget {} (s.sh p).emus e.toNat

/-- An engine goes through a function. -/
def modEmu (s : State) (p : Part) (e : BitVec 2) (f : Engine → Engine) : State :=
  modSh s p fun h => { h with emus := tmod {} h.emus e.toNat f }

/-- A lock cluster. -/
def State.cluster (s : State) (p : Part) (c : BitVec 5) : Cluster := tget {} (s.sh p).vern.clusters c.toNat

/-- A lock cluster goes through a function. -/
def modCluster (s : State) (p : Part) (c : BitVec 5) (f : Cluster → Cluster) : State :=
  modSh s p fun h => { h with vern := { h.vern with clusters := tmod {} h.vern.clusters c.toNat f } }

/-- Bit `i` of a word of bits takes a value. -/
def setBit {w : Nat} (x : BitVec w) (i : Nat) (b : Bool) : BitVec w :=
  if b then x ||| (1#w <<< i) else x &&& ~~~ (1#w <<< i)

/-! ## Page headers (R504 to R506) -/

/-- The header registers of a page. -/
def State.hdr (s : State) (p : Part) (g : Page) : PageHdr :=
  match g.ordinal p with
  | some k => tget {} (s.sh p).hdr k
  | none => {}

/-- The header registers of a page go through a function. -/
def modHdr (s : State) (p : Part) (g : Page) (f : PageHdr → PageHdr) : State :=
  match g.ordinal p with
  | some k => modSh s p fun h => { h with hdr := tmod {} h.hdr k f }
  | none => s

/-- A refusal is counted in PAGE_ERR_COUNT of a page (R13, R14). -/
def refuse (s : State) (p : Part) (g : Page) : State :=
  modHdr s p g fun h => { h with pageErrCount := satInc h.pageErrCount }

/-- An interrupt cause of a page is set (R504). -/
def setCause (s : State) (p : Part) (g : Page) (b : Nat) : State :=
  modHdr s p g fun h => { h with pageIntStatus := setBit h.pageIntStatus b true }

/-- Whether a page is pending (R506). -/
def State.pending? (s : State) (p : Part) (g : Page) : Bool :=
  (s.hdr p g).pageIntStatus &&& (s.hdr p g).pageIntEnable != 0

/-- The interrupt causes that a page's chapter names (R505). -/
def causesOf : Page → Word
  | .emu _ => 0x3
  | .link _ => 0xFF00
  | .servo => 0x1F
  | .ref => 0x3
  | .evtrig => 0xFFFF
  | .tap => 0x3F
  | .sync => 0x3FFFF
  | .synch => 0x1
  | .steph => 0x7
  | .step => 0x3
  | .seq => 0x1F
  | .progh => 0x1F
  | .stock => 0xF
  | .spt => 0x3
  | .audit => 0x7
  | .digh => 0xF
  | .det => 0x1
  | .deth => 0x7
  | .evq => 0x7
  | .evh => 0x3
  | .flt => 0x1F
  | .txn => 0xF
  | .txnt => 0x3
  | .mod => 0x7
  | .fw => 0x7
  | .memc _ => 0x3
  | _ => 0

/-! ## Answers to register accesses (R168 to R171, R512) -/

/-- Whether a part's pages other than MOD, and FW in ROM recovery, do not answer an interface: to PCIe before BOOT_DONE (R476),
and to all in ROM recovery (R500). -/
def closed (s : State) (i : Iface) : Bool :=
  i.part == .hub && ((i == .pcie && !s.hub.mod_.modStatusBootDone) || s.hub.mod_.modStatusRomRecovery)

/-- Whether an interface reaches a hub that has no power (R469), or a TSU that is held in reset (R164). -/
def unpowered (s : State) (i : Iface) : Bool :=
  match i.part with
  | .hub => !s.hub.power.on
  | .tsu => s.tsu.inReset

/-- A write of the MOD page is answered: that page always answers (R476, R500). -/
def ackMod (i : Iface) (s : State) (r : Bool × State) : Host.Outcome State Fault Refusal :=
  if unpowered s i then .next s else .next (emit r.2 (.writeAck i r.1))

/-- A write of the FW page is answered: that page also answers in ROM recovery (R500). -/
def ackFw (i : Iface) (s : State) (r : Bool × State) : Host.Outcome State Fault Refusal :=
  if unpowered s i then .next s
  else if i == .pcie && !s.hub.mod_.modStatusBootDone && !s.hub.mod_.modStatusRomRecovery then
    .next (emit (refuse s .hub .mod) (.writeAck i true))
  else .next (emit r.2 (.writeAck i r.1))

/-- A write is answered: whether it was refused, after its effect; a part whose pages do not answer refuses it, counted in MOD
(R476, R500). -/
def ackWrite (i : Iface) (s : State) (r : Bool × State) : Host.Outcome State Fault Refusal :=
  if unpowered s i then .next s
  else if closed s i then .next (emit (refuse s .hub .mod) (.writeAck i true)) else .next (emit r.2 (.writeAck i r.1))

/-- A read is answered with its value, after its side effects; a part whose pages do not answer reads zero (R476, R500). -/
def ackRead (i : Iface) (s : State) (r : Word × State) : Host.Outcome State Fault Refusal :=
  if unpowered s i then .next s
  else if closed s i then .next (emit s (.readData i 0)) else .next (emit r.2 (.readData i r.1))

/-- A write that is accepted. -/
def accept (s : State) : Bool × State := (false, s)

/-- A write that a rule refuses, counted in the page written (R171). -/
def refused (s : State) (p : Part) (g : Page) : Bool × State := (true, refuse s p g)

/-- The page that counts an access to no register of the part (R171, R512). -/
def strayPage : Part → Page
  | .hub => .hubid
  | .tsu => .root

/-- A write of a register that only one part has: through an interface of the other part it lies at no register
(R171, R512). -/
def onPart (p : Part) (i : Iface) (s : State) (f : State → Bool × State) : Bool × State :=
  if i.part = p then f s else refused s i.part (strayPage i.part)

/-- A read of a register that only one part has. -/
def onPartRead (p : Part) (i : Iface) (s : State) (f : State → Word × State) : Word × State :=
  if i.part = p then f s else (0, refuse s i.part (strayPage i.part))

/-! ## Free values -/

/-- The number of the next free value, and the state that has given it out. -/
def State.fresh (s : State) : Nat × State := (s.free, { s with free := s.free + 1 })

/-! ## Hall tick tests -/

/-- The part's hall tick. -/
def State.now (s : State) (p : Part) : Tick := (s.sh p).tb.tick

/-- VALID of the part's time word (R53). -/
def State.valid (s : State) (p : Part) : Bool := (s.sh p).tb.regs.statusValid

/-- Whether a part carries out what it has scheduled at a hall tick (R528): VALID is 1, and the actions kept while it was 0 have
been looked at. -/
def State.acting (s : State) (p : Part) : Bool := s.valid p && !(s.sh p).tb.resolve

/-- The part's hall time in units of 2^-16 ns: the tick and the upper 16 bits of the fraction (R54). -/
def State.timeU (s : State) (p : Part) : Int :=
  ((s.sh p).tb.tick.toNat * 65536 + (s.sh p).tb.frac.toNat / 2 ^ 32 : Nat)

/-- How a target stands to the present tick (R64). -/
inductive TickTest where
  | past
  | inWindow
  | tooFar
  deriving DecidableEq, Repr

/-- The test of a target tick (R64). -/
def tickTest (target now : Tick) : TickTest :=
  if target.toNat < now.toNat then .past
  else if target.toNat - now.toNat ≤ 2000000000 then .inWindow
  else .tooFar

/-- A request refused as PAST is counted (R63, R64). -/
def countPast (s : State) (p : Part) : State := modTbRegs s p fun r => { r with wireRefusePast := satInc r.wireRefusePast }

/-- A request refused as TOO_FAR is counted (R64). -/
def countTooFar (s : State) (p : Part) : State :=
  modTbRegs s p fun r => { r with wireRefuseTooFar := satInc r.wireRefuseTooFar }

/-- A step message refused is counted (R67). -/
def countStepFar (s : State) (p : Part) : State :=
  modTbRegs s p fun r => { r with wireRefuseStepFar := satInc r.wireRefuseStepFar }

/-- A tick-bearing message refused while VALID is 0 is counted (R68). -/
def countNotValid (s : State) (p : Part) : State :=
  modTbRegs s p fun r => { r with wireRefuseNotValid := satInc r.wireRefuseNotValid }

/-- A wire step extended against the part's own step index, and whether it lies within 2^22 steps (R63, R67). -/
def extendStep (w : BitVec 24) (own : BitVec 64) : Option (BitVec 64) :=
  let d := signedDiff w (own.setWidth 24)
  if d > 4194304 ∨ d < -4194304 then none else extendWire w own

/-- A wire step that does not extend is refused (R63, R67): as PAST where the full step would be negative, and otherwise as too
far. -/
def countStepRefused (s : State) (p : Part) (w : BitVec 24) (own : BitVec 64) : State :=
  if (extendWire w own).isNone then countPast s p else countStepFar s p

/-! ## Sending on a link -/

/-- The place of a credited class in a link's credit list (R459 order, R460). -/
def creditIdx : FlitClass → Option Nat
  | .up => some 0
  | .down => some 1
  | .signal => some 2
  | .mgmt => some 3
  | .result => some 4
  | .mirror => some 5
  | .ctrl => none
  | .time => none

/-- How many flits a replay buffer holds (R458): those sent and not acknowledged. -/
def replayFlits (k : Link) : Nat := (k.txSeq - k.ackSeq).toNat

/-- Whether a link can send a message of `n` flits now: credit of its class for each flit, and room in the replay buffer
of 512 flits when it is retried (R458, R460). -/
def canSend (k : Link) (m : Msg) : Bool :=
  let room := !msgRetried m || decide (replayFlits k + msgFlits m ≤ 512)
  match creditIdx (msgCls m) with
  | none => room
  | some i => room && decide (msgFlits m ≤ k.credit.getD i 0)

/-- A link after sending a message: its LSEQ, replay buffer and credit (R458, R460). -/
def afterSend (k : Link) (dsn : Option (BitVec 32)) (m : Msg) : Link :=
  let k := match creditIdx (msgCls m) with
    | none => k
    | some i => { k with credit := k.credit.set i (k.credit.getD i 0 - msgFlits m) }
  if msgRetried m then
    { k with txSeq := k.txSeq + BitVec.ofNat 12 (msgFlits m), replay := k.replay ++ [(k.txSeq, dsn, m)] }
  else k

/-- Where a flit stands in a codeword, the logical lane and the slot (R97, R451, R452): SYNC, DREQ, DRESP and PROBE in slot 0 of
logical lane 0, every other flit in any slot of a lane in service, which is a free value. -/
def flitPlace (s : State) (l : LinkId) (m : Msg) : BitVec 2 × BitVec 4 :=
  let x := Config.flitSlot s.out.length
  let wide := match l.part with | .hub => !(s.page .hub l.port).role.portRoleSplit | .tsu => false
  match m with
  | .sync _ => (0, 0)
  | .dreq _ => (0, 0)
  | .dresp _ => (0, 0)
  | .probe _ => (0, 0)
  | _ => (if wide then x.extractLsb' 4 2 else 0, x.extractLsb' 0 4 % 10)

/-- A flit crosses the boundary outward. -/
def emitFlit (s : State) (l : LinkId) (lseq : BitVec 12) (dsn : Option (BitVec 32)) (m : Msg) : State :=
  emit s (.flit l lseq dsn m (flitPlace s l m).1 (flitPlace s l m).2)

/-- Whether a link is in service (R465). -/
def Link.active (k : Link) : Bool := k.regs.lkState == 6

/-- How many of a message's flits have left already (R460). -/
def Link.begunOf (k : Link) (m : Msg) : Nat := match creditIdx (msgCls m) with | some i => k.begun.getD i 0 | none => 0

/-- How many of the flits of a held message that are left can leave now: each costs one credit of its class, and a retried one a
place of the replay buffer (R458, R460). -/
def flitsNow (k : Link) (m : Msg) : Nat :=
  let left := msgFlits m - k.begunOf m
  let room := if msgRetried m then 512 - replayFlits k else left
  match creditIdx (msgCls m) with
  | none => min left room
  | some i => min left (min room (k.credit.getD i 0))

/-- A link after `n` flits of the first held message of a class have left. -/
def sendFlits (k : Link) (m : Msg) (n : Nat) : Link :=
  let k := if msgRetried m then { k with txSeq := k.txSeq + BitVec.ofNat 12 n } else k
  match creditIdx (msgCls m) with
  | none => k
  | some i => { k with credit := k.credit.set i (k.credit.getD i 0 - n), begun := k.begun.set i (k.begunOf m + n) }

/-- A link after the last flit of a held message has left: the message stands in the replay buffer when it is retried, under the
LSEQ that counts back from its last flit. -/
def endHeld (k : Link) (dsn : Option (BitVec 32)) (m : Msg) : Link :=
  let k := match creditIdx (msgCls m) with | none => k | some i => { k with begun := k.begun.set i 0 }
  if msgRetried m then { k with replay := k.replay ++ [(k.txSeq - BitVec.ofNat 12 (msgFlits m), dsn, m)] } else k

/-- The flits of a link's held messages that credit and replay space now allow leave in order, each class by itself (R455, R460):
the messages of which flits are left, the link, and the messages that have left whole. -/
def releaseHeld : List (Option (BitVec 32) × Msg) → Link → List FlitClass →
    List (Option (BitVec 32) × Msg) × Link × List (BitVec 12 × Option (BitVec 32) × Msg)
  | [], k, _ => ([], k, [])
  | (d, m) :: rest, k, blocked =>
    if blocked.contains (msgCls m) then
      let (h, k', o) := releaseHeld rest k blocked
      ((d, m) :: h, k', o)
    else
      let n := flitsNow k m
      let all := k.begunOf m + n == msgFlits m
      let k := sendFlits k m n
      if all then
        let (h, k', o) := releaseHeld rest (endHeld k d m) blocked
        (h, k', (if msgRetried m then k.txSeq - BitVec.ofNat 12 (msgFlits m) else 0, d, m) :: o)
      else
        let (h, k', o) := releaseHeld rest k (msgCls m :: blocked)
        ((d, m) :: h, k', o)

/-- A link sends what it held, as far as credit and replay space now allow (R460). -/
def drainLink (s : State) (l : LinkId) : State :=
  let k := s.link l
  let (h, k', o) := releaseHeld k.hold k []
  o.foldl (fun s e => emitFlit s l e.1 e.2.1 e.2.2) (modLink s l fun _ => { k' with hold := h })

/-- A message goes out on a link: at once when credit and replay space allow and no message of its class is held, and otherwise
held, for credit of one class never blocks another (R458, R460, R461, R465). On a link that is not in service nothing is sent but
flits of class CTRL: a flit with a DSN is kept by its sender, and a credited one without is dropped and counted in PAGE_ERR_COUNT
of the link's page (R17, R402). -/
def sendLink (s : State) (l : LinkId) (dsn : Option (BitVec 32)) (m : Msg) : State :=
  let k := s.link l
  if !k.active && msgCls m != .ctrl then
    if dsn.isNone && (creditIdx (msgCls m)).isSome then refuse s l.part (.link l.port) else s
  else if canSend k m && (creditIdx (msgCls m) == none || k.hold.all fun e => msgCls e.2 != msgCls m) then
    emitFlit (modLink s l fun k => afterSend k dsn m) l (if msgRetried m then k.txSeq else 0) dsn m
  else drainLink (modLink s l fun k => { k with hold := k.hold ++ [(dsn, m)] }) l

/-! ## The TSU's way up (R38, R401, R402) -/

/-- The TSU's lead link, or the other one while the lead link is out of service (R38). -/
def State.upLink (s : State) : LinkId :=
  let lead := if s.tsu.sh.servo.regs.servoStatusLead then linkB else linkA
  let other := if s.tsu.sh.servo.regs.servoStatusLead then linkA else linkB
  if (s.link lead).active then lead else if (s.link other).active then other else lead

/-- The TSU sends an upward collective flit under its next DSN and keeps it until it is acknowledged; with 64 flits
unacknowledged it sends nothing more and drops nothing (R401, R402). -/
def tsuSendUp (s : State) (m : Msg) : State :=
  if s.tsu.up.unacked.length < 64 ∧ s.tsu.up.waiting = [] then
    let d := s.tsu.up.dsn
    let s := modTsu s fun t => { t with up := { t.up with dsn := d + 1, unacked := t.up.unacked ++ [(d, m)] } }
    sendLink s s.upLink (some d) m
  else modTsu s fun t => { t with up := { t.up with waiting := t.up.waiting ++ [m] } }

/-- The TSU sends an upward message that carries no DSN (R38). -/
def tsuSend (s : State) (m : Msg) : State := sendLink s s.upLink none m

/-! ## Events (R379 to R385) -/

/-- The events that are never folded (R383): EV_LAUNCH_MISS, EV_DIGEST_MISMATCH, STEP_POISON and EV_TXN_ABORT. -/
def neverFolded (c : BitVec 16) : Bool := c == 0x0003 || c == 0x0011 || c == 0x0012 || c == 0x0025

/-- Whether two events are identical: CODE, SUB, JOB, RANK and PAYLOAD bytes 0 to 3 (R383). -/
def sameEv (a b : Ev) : Bool :=
  a.code == b.code && a.sub == b.sub && a.job == b.job && a.rank == b.rank &&
    a.payload.extractLsb' 160 32 == b.payload.extractLsb' 160 32

/-- ORIGIN of a part's records: the hub's address, or bit 31 and the TSU's endpoint (R379). -/
def State.origin (s : State) : Part → BitVec 32
  | .hub => s.hub.id.hubAddr.setWidth 32
  | .tsu => 0x80000000 ||| s.tsu.root.endpointEp.setWidth 32

/-- The 64-byte record of an event (R379). -/
def encodeRecord (e : Ev) (origin seq coalesced : BitVec 32) : BitVec 512 :=
  BitVec.ofNat 512 (packFields [(16, e.code.toNat), (8, 0x01), (1, e.tickValid.toNat), (5, 0), (2, e.sev.toNat),
    (32, origin.toNat), (16, e.job.toNat), (16, e.sub.toNat), (32, e.rank.toNat), (64, e.step.toNat), (64, e.tick.toNat),
    (32, seq.toNat), (32, coalesced.toNat), (192, e.payload.toNat)]).1

/-- An event's PAYLOAD from its fields in order, each with its width in bits, zeros after them (R380). -/
def evPayload (fs : List (Nat × Nat)) : BitVec 192 :=
  let (n, w) := packFields fs
  BitVec.ofNat 192 (n * 2 ^ (192 - w))

/-- How many records the hub's event ring holds (R385). -/
def ringSize : Nat := 4194304

/-- A record is written to the hub's event ring, over the oldest when the ring is full (R385). -/
def ringWrite (s : State) (r : BitVec 512) : State :=
  let i := s.hub.evh.evHead
  let s := modHub s fun h => { h with
    ring := tset 0 h.ring (i.toNat % ringSize) r, evh := { h.evh with evHead := i + 1 } }
  setCause s .hub .evh 0

/-- A record enters the TSU's event queue of 32, or is dropped and counted (R384). -/
def evqPut (s : State) (r : BitVec 512) : State :=
  if s.tsu.evq.length < 32 then setCause (modTsu s fun t => { t with evq := t.evq ++ [r] }) .tsu .evq 0
  else setCause (modTsu s fun t => { t with evqRegs := { t.evqRegs with
    eqStatusOvfCount := satInc t.evqRegs.eqStatusOvfCount, eqStatusOvf := true } }) .tsu .evq 1

/-- A record is formed at its origin and reported: the hub's own ring, or the TSU's queue and an EVREC upward (R384,
R385). -/
def formRecord (s : State) (p : Part) (e : Ev) (coalesced : BitVec 32) : State :=
  let r := encodeRecord e (s.origin p) (s.sh p).evSeq coalesced
  let s := modSh s p fun h => { h with evSeq := h.evSeq + 1 }
  match p with
  | .hub => ringWrite s r
  | .tsu => tsuSendUp (evqPut s r) (.evrec ⟨r⟩)

/-- The window of an identical event counts it, with the latest event's fields (R383). -/
def foldWindow (e : Ev) : List EvWindow → List EvWindow
  | [] => []
  | w :: rest => if sameEv w.ev e then { ev := e, count := w.count + 1 } :: rest else w :: foldWindow e rest

/-- A part raises an event: its record is formed at once and opens a 1 ms window, or the open window of an identical event
counts it (R383). -/
def raise (s : State) (p : Part) (e : Ev) : State :=
  let tb := (s.sh p).tb
  let e := { e with tickValid := tb.regs.statusValid, tick := if tb.regs.statusValid then tb.tick else tb.cycles }
  if neverFolded e.code then formRecord s p e 0
  else if (s.sh p).windows.any (fun w => sameEv w.ev e) then
    modSh s p fun h => { h with windows := foldWindow e h.windows }
  else formRecord (modSh s p fun h => { h with windows := h.windows ++ [{ ev := e, count := 0 }] }) p e 0

/-- The JOB field of a record (R379): EPOCH, NONE clear, and the job. -/
def evJob (job : BitVec 12) (epoch : Bool) : BitVec 16 := (if epoch then 0x8000 else 0) ||| job.setWidth 16

/-- The JOB field of a record that concerns no job (R379). -/
def evNoJob : BitVec 16 := 0x4000

/-- An event that concerns no job, no rank and no step. -/
def plainEv (code sub : BitVec 16) (sev : BitVec 2) (fs : List (Nat × Nat)) : Ev :=
  { code := code, sub := sub, sev := sev, job := evNoJob, rank := 0xFFFFFFFF, step := 0, payload := evPayload fs }

/-- Whether the TSU holds a job (R418: STATE is not NONE). -/
def State.tsuHasJob (s : State) : Bool := s.tsu.txnt.ttJobState != 0

/-- An event of the TSU: with a job it names the job, its epoch and step and the die's own rank (R379, R380). -/
def tsuEv (s : State) (code sub : BitVec 16) (sev : BitVec 2) (fs : List (Nat × Nat)) : Ev :=
  if s.tsuHasJob then
    { code := code, sub := sub, sev := sev, job := evJob s.tsu.txnt.ttJob s.tsu.txnt.ttJobEpoch,
      rank := s.tsu.rank.setWidth 32, step := s.tsu.step.stepNow, payload := evPayload fs }
  else plainEv code sub sev fs

/-- A part raises an event of its time path, its links or its lanes, which concerns no job; for a TSU that holds one
RANK is the die's own (R380, R381). -/
def raisePlain (s : State) (p : Part) (code sub : BitVec 16) (sev : BitVec 2) (fs : List (Nat × Nat)) : State :=
  let e := plainEv code sub sev fs
  raise s p (if p = .tsu ∧ s.tsuHasJob then { e with rank := s.tsu.rank.setWidth 32 } else e)

/-- EV_TIME_FAULT (R381). -/
def timeFault (s : State) (p : Part) (sub : BitVec 16) (fs : List (Nat × Nat)) : State :=
  raisePlain s p 0x0004 sub 1 fs

/-- A signed number as a field of `w` bits in a payload. -/
def sField (w : Nat) (n : Int) : Nat × Nat := (w, (satInt w n).toNat)

/-! ## Held answers (R169, R172) -/

/-- A write whose answer was held is answered. -/
def answer (s : State) (w : Waiter) (err : Bool) : State :=
  match w with
  | .row i => emit s (.writeAck i err)
  | .hp id => modTsu s fun t => { t with
      hp := t.hp.map fun e => if e.id = id then { e with done := some (err, 0) } else e }
  | .reg l tag => sendLink s l none (.regRsp { tag := tag, err := err, data := 0 })
  | .silent => s

/-- A tick that a part is asked to schedule an action at, tested at the part (R64, R68): whether it is accepted, and the
state that has counted a refusal. -/
def schedTest (s : State) (p : Part) (target : Tick) : Bool × State :=
  if !s.valid p then (false, countNotValid s p)
  else match tickTest target (s.now p) with
    | .inWindow => (true, s)
    | .past => (false, countPast s p)
    | .tooFar => (false, countTooFar s p)

/-- A wire tick of a message, extended and tested (R63, R64, R68). -/
def schedWire (s : State) (p : Part) (w : BitVec 32) : Option Tick × State :=
  if !s.valid p then (none, countNotValid s p)
  else match extendWire w (s.now p) with
    | none => (none, countPast s p)
    | some t => match tickTest t (s.now p) with
      | .inWindow => (some t, s)
      | .past => (none, countPast s p)
      | .tooFar => (none, countTooFar s p)

/-! ## The slots, waits and region taps of the TSU -/

/-- A slot of the TSU. -/
def State.slot (s : State) (k : BitVec 12) : Slot := tget {} s.tsu.slots k.toNat

/-- A slot goes through a function. -/
def modSlot (s : State) (k : BitVec 12) (f : Slot → Slot) : State :=
  modTsu s fun t => { t with slots := tmod {} t.slots k.toNat f }

/-- A slot's registers go through a function. -/
def modSlotRegs (s : State) (k : BitVec 12) (f : SlotRegs → SlotRegs) : State :=
  modSlot s k fun x => { x with regs := f x.regs }

/-- A region tap. -/
def State.tap (s : State) (t : BitVec 7) : Tap := tget {} s.tsu.taps t.toNat

/-- A region tap goes through a function. -/
def modTap (s : State) (t : BitVec 7) (f : Tap → Tap) : State :=
  modTsu s fun h => { h with taps := tmod {} h.taps t.toNat f }

/-- A trigger output. -/
def State.trig (s : State) (n : BitVec 4) : TrigLine := tget {} s.tsu.trigs n.toNat

/-- A trigger output goes through a function. -/
def modTrig (s : State) (n : BitVec 4) (f : TrigLine → TrigLine) : State :=
  modTsu s fun h => { h with trigs := tmod {} h.trigs n.toNat f }

end Sys2Proof.Machine
end

