-- ==== Sys2Proof/Machine/Topology.lean ====
section
/-! DEFINITION. Where a hub stands in the hall and which of its links lead where (R19 to R43), the per-flow choice (R39),
the twin link and mirrored state (R457), and credit that a receiver grants (R460). -/

namespace Sys2Proof.Machine

/-- A hub's tier (R33): 0 leaf, 1 row, 2 hall. -/
def tierOf (a : BitVec 16) : Nat := a.toNat / 2 ^ 14

/-- A hub's plane (R33). -/
def planeOf (a : BitVec 16) : Bool := a.getLsbD 13

/-- The hall-hub index k: 0 A0, 1 A1, 2 B0, 3 B1 (R21). -/
def hallIndex (a : BitVec 16) : BitVec 2 := BitVec.ofBool (planeOf a) ++ BitVec.ofBool (a.getLsbD 0)

/-- The address of the hall hub of index k (R21, R33). -/
def hallAddr (k : BitVec 2) : BitVec 16 :=
  0x8000 ||| (if k.getLsbD 1 then 0x2000 else 0) ||| (if k.getLsbD 0 then 1 else 0)

/-- The hub in the other plane that is this hub's twin (R20). -/
def twinOf (a : BitVec 16) : BitVec 16 := a ^^^ 0x2000

/-- Whether a value follows the layout of a hub address (R33). -/
def hubAddrLegal (a : BitVec 16) : Bool :=
  let tier := tierOf a
  (a != 0xFFFF) && decide (tier < 3) && (a.extractLsb' 1 2 == 0) &&
    (if tier = 2 then a.extractLsb' 3 10 == 0 else a.getLsbD 0 == false) &&
    (if tier = 1 then a.extractLsb' 3 4 == 0 else true)

/-- Whether a bit of a port mask names a sub-port: on a port in 4-lane mode only bit 4 × port does (R530). -/
def State.bitLegal (s : State) (k : Nat) : Bool := k % 4 == 0 || (s.page .hub (BitVec.ofNat 7 (k / 4))).role.portRoleSplit

/-- A port mask as the hub forms or shows it: without the bits that a port in 4-lane mode reserves (R530). -/
def State.legalMask (s : State) (m : BitVec 288) : BitVec 288 :=
  (List.range 288).foldl (fun m k => if s.bitLegal k then m else setBit m k false) m

/-- The hub's own tier. -/
def State.tier (s : State) : Nat := tierOf s.hub.id.hubAddr

/-- The link of a part at a place of its table. -/
def linkOfKey (p : Part) (k : Nat) : LinkId := ⟨p, BitVec.ofNat 7 (k / 4), BitVec.ofNat 2 (k % 4)⟩

/-- The links of a part that are in service, in ascending order. -/
def State.activeLinks (s : State) (p : Part) : List LinkId :=
  ((s.sh p).links.filter fun e => e.2.active).map fun e => linkOfKey p e.1

/-- The role of the port a hub link belongs to (R25). -/
def State.role (s : State) (l : LinkId) : BitVec 3 := (s.page .hub l.port).role.portRole

/-- The neighbour that a hub link has learnt (R25, R466): each sub-port of a split port has its own. -/
def State.seen (s : State) (l : LinkId) : BitVec 16 := (s.link l).peer

/-- The hub's links in service whose port has a role: 1 DOWN, 2 UP, 3 TWIN, 4 PEER (R25). -/
def State.roleLinks (s : State) (r : BitVec 3) : List LinkId := (s.activeLinks .hub).filter fun l => s.role l == r

/-- Whether a route choice may take a link (R39): its neighbour is neither in SHADOW nor, by a NOT_READY that stands, resetting. -/
def State.mayChoose (s : State) (l : LinkId) : Bool :=
  !(s.link l).regs.lkStateNotReady && !Config.inShadow s.hub.sh.tb.cycles.toNat l.key

/-- The choices of R39 among a list: where there are several, those that may be chosen. -/
def State.choices (s : State) (ls : List LinkId) : List LinkId :=
  let ok := ls.filter s.mayChoose
  if ls.length ≤ 1 || ok.isEmpty then ls else ok

/-- The member of a list that a flow takes (R39): the one it has taken before, while that one is in service and may be chosen, and
otherwise the one that the salted hash of its key gives. -/
def flowChoice (s : State) (key : Nat) (ls : List LinkId) : Option LinkId :=
  let ls := s.choices ls
  match (tget none s.hub.flows key).filter fun l => ls.contains l with
  | some l => some l
  | none => ls[(Config.routeHash s.hub.salt key) % ls.length]?

/-- A flow keeps the link it has taken (R39). -/
def keepFlow (s : State) (key : Nat) (l : LinkId) : State := modHub s fun h => { h with flows := tset none h.flows key (some l) }

/-- A message for which no link in service leads on is dropped, and counted in PAGE_ERR_COUNT of HUBID (R17). -/
def noRoute (s : State) : State := refuse s .hub .hubid

/-- A message for which no link in service leads on, and which its sender will not send again once it is acknowledged, waits for a
link (R401, R402). -/
def strand (s : State) (l : LinkId) (j : BitVec 12) (dst : Nat) (m : Msg) : State :=
  modHub s fun h => { h with stranded := h.stranded ++ [{ via := l, job := j, dst := dst, msg := m }] }

/-- A flow takes its route, which it keeps (R39), or meets none. -/
def onRoute (s : State) (key : Nat) (l : Option LinkId) (none_ : State → State) (act : LinkId → State → State) : State :=
  match l with
  | some l => act l (keepFlow s key l)
  | none => none_ s

/-- The TWIN link that a flow takes (R28, R39). -/
def State.twinLink (s : State) (key : Nat) : Option LinkId := flowChoice s key (s.roleLinks 3)

/-- The hub sends a message to its twin (R28). -/
def sendTwin (s : State) (key : Nat) (m : Msg) : State :=
  onRoute s key (s.twinLink key) id fun l s => sendLink s l none m

/-- The hub mirrors an item of state to its twin (R457, MIRROR). -/
def mirror (s : State) (job : BitVec 12) (item : BitVec 8) (key : BitVec 64) (value : List (BitVec 8)) : State :=
  sendTwin s job.toNat (.mirror { job := job, item := item, len := BitVec.ofNat 16 (value.length - 1), key := key, value := value })

/-- The credit a receiver grants at full: the classes UP, DOWN, SIGNAL, MGMT, RESULT and MIRROR (R460). A TSU's pending queue
and result store are shared by its two links, each of which is granted half (DESIGN CHOICE, log 70). -/
def fullCredit (s : State) (l : LinkId) : List Nat :=
  match l.part with
  | .hub => [512, 256, 128, 8, 256, if s.role l == 3 then 1024 else 0]
  | .tsu =>
    [0, 64, 32 - (s.tsu.pend.filter fun e => e.1 == l).length, 8, 512 - (s.tsu.store.filter fun h => h.via == l).length, 0]

/-- The 72-bit CRED field of six grants (R457). -/
def credField (c : List Nat) : BitVec 72 := BitVec.ofNat 72 (packFields (c.map fun n => (12, n))).1

/-- The six grants of a CRED field (R457). -/
def credList (c : BitVec 72) : List Nat :=
  [60, 48, 36, 24, 12, 0].map fun i => (c.extractLsb' i 12).toNat

/-- A receiver returns the credit of `n` flits of a class as their space frees (R460). -/
def returnCredit (s : State) (l : LinkId) (c : FlitClass) (n : Nat) : State :=
  match creditIdx c with
  | none => s
  | some i => sendLink s l none (.credit { cred := credField ((List.replicate 6 0).set i n), full := false })

/-- A flit has come in on a link (R403). -/
def heardOn (s : State) (l : LinkId) : State := modLink s l fun k => { k with lastRx := some (s.sh l.part).tb.cycles }

/-- Whether a flit has come in on a link within the last 10 µs (R403). -/
def heardLately (s : State) (l : LinkId) : Bool :=
  match (s.link l).lastRx with
  | some c => decide (((s.sh l.part).tb.cycles - c).toNat < 10000)
  | none => false

/-- A message has been taken from a link, and the space of a credited one is free again (R403, R460). -/
def taken (s : State) (l : LinkId) (m : Msg) : State := returnCredit (heardOn s l) l (msgCls m) (msgFlits m)

/-- A field of a received flit holds a reserved value: the flit is dropped, counted as MALFORMED and refused (R13, R455). -/
def malformedFlit (s : State) (l : LinkId) : State :=
  refuse (modLinkRegs s l fun r => { r with lkFlitMalformed := satInc r.lkFlitMalformed }) l.part (.link l.port)

/-- A message that carries no DSN reaches a part on a link: one with a reserved value is dropped, and any other is acted on
(R13, R403, R455, R460). -/
def onMsg (s : State) (l : LinkId) (m : Msg) (act : State → State) : State :=
  if msgReserved m then malformedFlit (taken s l m) l else act (taken s l m)

/-- CREDIT with FULL = 1 on every link of a part that is in service (R461, R479). -/
def creditFull (s : State) (p : Part) : State :=
  (s.activeLinks p).foldl (fun s l => sendLink s l none (.credit { cred := credField (fullCredit s l), full := true })) s

/-- Whether every cluster that serves a port in service is READY (R479). -/
def clustersReady (s : State) : Bool :=
  (s.activeLinks .hub).all fun l => s.hub.sh.vern.regs.vernReady.getLsbD (l.port.toNat / 4)

/-- Whether the hub's READY conditions hold (R479). -/
def readyHolds (s : State) : Bool := s.hub.mod_.modStatusBootDone && s.valid .hub && clustersReady s

/-- READY follows its conditions: as it begins, the bit, the cause, CREDIT with FULL, and the first time READY_MS; as it ends,
the bit clears (R479, R486). -/
def updReady (s : State) : State :=
  let r := readyHolds s
  if r && !s.hub.mod_.modStatusReady then
    creditFull (setCause (modHub s fun h => { h with mod_ := { h.mod_ with
      modStatusReady := true
      modStatusPhase := 4
      modTimesReadyMs := if h.mod_.modTimesReadyMs = 0 then
          satNat 32 (h.mod_.modTimesBootMs.toNat + (h.sh.tb.cycles - h.power.bootAt).toNat / 1000000)
        else h.mod_.modTimesReadyMs } }) .hub .mod 0) .hub
  else if !r && s.hub.mod_.modStatusReady then
    modHub s fun h => { h with mod_ := { h.mod_ with modStatusReady := false, modStatusPhase := 3 } }
  else s

/-- Whether a part is ready for its partners: VALID, and on the hub READY (R461). -/
def State.partReady (s : State) : Part → Bool
  | .hub => s.hub.mod_.modStatusReady
  | .tsu => s.valid .tsu

end Sys2Proof.Machine
end

