-- ==== Sys2Proof/Machine/Units.lean ====
section
/-! DEFINITION. The hub's units: their states, their history, and what charging one does (R382, R396 to R400). -/

namespace Sys2Proof.Machine

/-- The class of a unit (R382): 0 narrow lane, 1 wide lane, 2 checker, 3 link lane, 4 time-path unit, 5 the hub. -/
def unitClass (u : BitVec 16) : Nat := (u.extractLsb' 12 4).toNat

/-- The index of a unit (R382). -/
def unitIndex (u : BitVec 16) : Nat := (u.extractLsb' 0 12).toNat

/-- A unit's state as delivered: narrow lanes 512 to 527 and wide lanes 64 and 65 stand by (R382). -/
def unitReset (k : Nat) : UnitRegs :=
  if (512 ≤ k ∧ k < 528) ∨ (0x1000 + 64 ≤ k ∧ k < 0x1000 + 66) then { unitState := 1 } else {}

/-- A unit's registers. -/
def State.unit (s : State) (u : BitVec 16) : UnitRegs := tget (unitReset u.toNat) s.hub.units u.toNat

/-- A unit's registers go through a function. -/
def modUnit (s : State) (u : BitVec 16) (f : UnitRegs → UnitRegs) : State :=
  modHub s fun h => { h with units := tmod (unitReset u.toNat) h.units u.toNat f }

/-- How many units of a class the hub has (R382). -/
def unitCount : Nat → Nat
  | 0 => 528
  | 1 => 66
  | 2 => 594
  | 3 => 360
  | 4 => 3
  | _ => 1

/-- The units of a class in index order. -/
def unitsOf (c : Nat) : List (BitVec 16) := (List.range (unitCount c)).map fun i => BitVec.ofNat 16 (4096 * c + i)

/-- The lowest free standby lane of a class: its state is STANDBY (R398). -/
def freeStandby (s : State) (c : Nat) : Option (BitVec 16) := (unitsOf c).find? fun u => (s.unit u).unitState == 1

/-- The hub's accumulated powered seconds (R396). -/
def State.opsec (s : State) : Nat := s.hub.opsecBase + s.hub.sh.tb.cycles.toNat / 1000000000

/-- EV_LANE_SPARED (R380): the unit and the unit standing in. -/
def laneSpared (s : State) (p : Part) (sub u v : BitVec 16) : State :=
  raisePlain s p 0x0024 sub 0 [(16, u.toNat), (16, v.toNat)]

/-- A narrow or wide lane leaves service: a free standby lane takes its elements, or the hub runs with fewer lanes
(R398). A lane that carries nothing needs no stand-in, and one that is under test or in shadow keeps its own. -/
def laneLeaves (s : State) (u : BitVec 16) (st : BitVec 3) : State :=
  if (s.unit u).unitState != 0 then modUnit s u fun r => { r with unitState := st, unitStateShadowSteps := 0 }
  else match freeStandby s (unitClass u) with
  | some v =>
    let s := modUnit s u fun r => { r with unitState := st, unitStateShadowSteps := 0, unitStateStandin := v }
    laneSpared (modUnit s v fun r => { r with unitState := 0 }) .hub 0 u v
  | none =>
    let s := modUnit s u fun r => { r with unitState := st, unitStateShadowSteps := 0, unitStateStandin := 0xFFFF }
    setCause (laneSpared s .hub 3 u 0xFFFF) .hub .flt 1

/-- The lane a residue checker belongs to (R382). -/
def laneOfChecker (i : Nat) : BitVec 16 := if i < 528 then BitVec.ofNat 16 i else BitVec.ofNat 16 (4096 + (i - 528))

/-- A unit leaves service for its test (state 2) or for good (state 4) (R397, R398). -/
def unitLeaves (s : State) (u : BitVec 16) (st : BitVec 3) : State :=
  match unitClass u with
  | 0 => laneLeaves s u st
  | 1 => laneLeaves s u st
  | 2 =>
    let s := modUnit s u fun r => { r with unitState := st, unitStateShadowSteps := 0 }
    if st == 4 then laneLeaves s (laneOfChecker (unitIndex u)) 4 else s
  | _ => modUnit s u fun r => { r with unitState := st, unitStateShadowSteps := 0 }

/-- A history entry is to be appended to flash (R396). -/
def queueHistory (s : State) (u : BitVec 16) (kind verdict : BitVec 8) : State :=
  modHub s fun h => { h with histQueue := h.histQueue ++ [{
    unit := u, kind := kind, verdict := verdict, opsec := s.opsec,
    tai := if s.valid .hub then h.sh.tb.regs.hallEpoch.setWidth 64 + BitVec.ofNat 64 (h.sh.tb.tick.toNat / 1000000000)
      else 0,
    fwLow := h.fw.fwRunning.setWidth 32 }] }

/-- Whether the history of a unit holds a TRANSIENT or KAT_FAIL entry within the window (R397). -/
def hasPrior (s : State) (u : BitVec 16) : Bool :=
  (s.hub.history ++ s.hub.histQueue).any fun e =>
    e.unit == u && (e.kind == 0 || e.kind == 2) &&
      decide (s.opsec ≤ e.opsec + 3600 * s.hub.flt.fltCtrlHistWindowH.toNat)

/-- A unit is charged (R397), `prior` saying whether its history within the window holds a TRANSIENT or KAT_FAIL entry:
without one it leaves service for its test, and with one it is retired for good. -/
def chargeAs (s : State) (u : BitVec 16) (verdict : BitVec 8) (prior : Bool) : State :=
  if (s.unit u).unitState == 4 then s
  else if prior then
    let s := queueHistory (unitLeaves s u 4) u 1 verdict
    setCause (laneSpared s .hub 1 u (s.unit u).unitStateStandin) .hub .flt 0
  else queueHistory (unitLeaves s u 2) u 0 verdict

/-- A unit is charged by what its history holds (R397). -/
def chargeUnit (s : State) (u : BitVec 16) (verdict : BitVec 8) : State := chargeAs s u verdict (hasPrior s u)

/-- Every unit in SHADOW has computed one more clean step, and the hub itself while it is in SHADOW: after 64 it is active
(R400, R405). -/
def shadowStep (s : State) : State :=
  let s := modHub s fun h => { h with units := h.units.map fun e =>
    (e.1, if e.2.unitState == 3 then
        { e.2 with unitStateShadowSteps := if e.2.unitStateShadowSteps.toNat < 64 then e.2.unitStateShadowSteps + 1 else 64 }
      else e.2) }
  if s.hub.flt.hubRole == 1 then
    let n := s.hub.flt.hubRoleCleanSteps + 1
    if n.toNat < 64 then modHub s fun h => { h with flt := { h.flt with hubRoleCleanSteps := n } }
    else laneSpared (modHub s fun h => { h with flt := { h.flt with hubRoleCleanSteps := n, hubRole := 0 } }) .hub 6 0x5000 0xFFFF
  else s

end Sys2Proof.Machine
end

