-- ==== Sys2Proof/Machine/Time.lean ====
section
/-! DEFINITION. The hall tick and VALID as operations (R54 to R59), the PI servo and its states (R124 to R134), and the
servo input of a part (R122). -/

namespace Sys2Proof.Machine

/-! ## The hall tick -/

/-- Tick and fraction as one number in units of 2^-48 ns (R59). -/
def tbTime (t : Timebase) : BitVec 112 := t.tick ++ t.frac

/-- Tick and fraction take one number in units of 2^-48 ns. -/
def tbSet (t : Timebase) (q : BitVec 112) : Timebase := { t with tick := q.extractLsb' 48 64, frac := q.extractLsb' 0 48 }

/-- One island cycle (R59). -/
def tbCycle (t : Timebase) : Timebase :=
  { tbSet t (tbTime t + 0x1000000000000#112 + t.regs.rateNow.signExtend 112) with cycles := t.cycles + 1 }

/-- The hall tick and fraction are stepped by a number of units of 2^-16 ns (R127, R148). -/
def stepTick (s : State) (p : Part) (du : Int) : State :=
  modTb s p fun t => { tbSet t (tbTime t + BitVec.ofInt 112 (du * 2 ^ 32)) with stepGen := t.stepGen + 1 }

/-- NS of the time word (R54). -/
def State.ns (s : State) (p : Part) : Nat := (s.now p).toNat % 1000000000

/-- SEC of the time word (R54). -/
def State.sec (s : State) (p : Part) : BitVec 48 :=
  (s.sh p).tb.regs.hallEpoch + BitVec.ofNat 48 ((s.now p).toNat / 1000000000)

/-- VALID falls (R53): the loss is an interrupt cause of SERVO, kept actions wait (R528), the hub leaves READY,
and its 1PPS and 10 MHz outputs go low (R150); the TSU's trigger outputs go inactive (R176). -/
def clearValid (s : State) (p : Part) : State :=
  let was := s.valid p
  let s := modTb s p fun t => { t with
    regs := { t.regs with statusValid := false, statusHoldover := false }, resolve := true }
  let s := if was then setCause s p .servo 2 else s
  match p with
  | .hub => updReady (modHub s fun h => { h with ref := { h.ref with
      outPps := false, outF10 := h.ref.outF10 && h.ref.regs.outCtrlFree10 } })
  | .tsu => modTsu s fun t => { t with trigs := tmap {} (fun _ k => { k with active := false }) t.trigs }

/-- VALID rises (R53): the hub may become READY, and the TSU grants its credit again (R461). -/
def becomeValid (s : State) (p : Part) (holdover : Bool) : State :=
  let was := s.valid p
  let s := modTb s p fun t => { t with regs := { t.regs with statusValid := true, statusHoldover := holdover } }
  match p with
  | .hub => updReady s
  | .tsu => if was then s else creditFull s .tsu

/-! ## The servo -/

/-- The servo's state (R126). -/
def State.servoState (s : State) (p : Part) : BitVec 3 := (s.sh p).servo.regs.servoStatusState

/-- The servo enters FREE: VALID is 0, nothing steers it (R126), and no timer sets VALID again (R55, R148). -/
def enterFree (s : State) (p : Part) : State :=
  modTb (clearValid (modServo s p fun v => { v with
    regs := { v.regs with servoStatusState := 0 }, good := 0, stepAt := none, tracking := false, voted := false }) p) p fun t =>
      { t with revalid := false }

/-- The part's time has lost its meaning (R55, R58): VALID is cleared and the servo starts from FREE, but in MANUAL the host's
mode, and with it STATE, stays (R133). -/
def loseTime (s : State) (p : Part) : State := if s.servoState p == 4 then clearValid s p else enterFree s p

/-- The servo enters LOCKED (R126, R127). -/
def enterLocked (s : State) (p : Part) : State :=
  let s := modServo s p fun v => { v with
    regs := { v.regs with servoStatusState := 2, servoStatusLockCount := satInc v.regs.servoStatusLockCount },
    good := 0, stepAt := none, tracking := false, voted := false }
  setCause (becomeValid s p false) p .servo 0

/-- The integrator and rate word limits (R124). -/
def rateMax : Int := 2 ^ 39 - 1

/-- A number held within limits, and whether a limit acted (R124). -/
def clampTo (m x : Int) : Int × Bool := if x > m then (m, true) else if x < -m then (-m, true) else (x, false)

/-- The part's rate word takes a value (R60). -/
def setRate (s : State) (p : Part) (x : Int) : State := modTbRegs s p fun r => { r with rateNow := BitVec.ofInt 40 x }

/-- The rate word that the integrator alone gives (R129). -/
def frozenRate (i : Int) : Int := (clampTo rateMax (-(i / 65536))).1

/-- The servo enters HOLDOVER: the rate word is frozen at what the integrator gives (R129). -/
def enterHoldover (s : State) (p : Part) : State :=
  let cyc := (s.sh p).tb.cycles
  let s := setRate s p (frozenRate (s.sh p).servo.regs.servoInteg.toInt)
  let s := modServo s p fun v => { v with regs := { v.regs with servoStatusState := 3 }, holdAt := cyc }
  setCause (becomeValid s p true) p .servo 1

/-- FREQ_SAT follows the clamps, and its rise raises EV_TIME_FAULT once (R125). -/
def setFreqSat (s : State) (p : Part) (b : Bool) : State :=
  let was := (s.sh p).servo.regs.servoStatusFreqSat
  let s := modServoRegs s p fun r => { r with servoStatusFreqSat := b }
  if b && !was then timeFault s p 2 [] else s

/-- One servo update (R124): the integrator, then the rate word. -/
def piUpdate (s : State) (p : Part) (kp ki : Nat) (e : Nat) (theta : Int) : State :=
  let r := (s.sh p).servo.regs
  let (i, c1) := clampTo (rateMax * 65536) (r.servoInteg.toInt + theta * ki / 2 ^ e)
  let (x, c2) := clampTo rateMax (-((theta * kp + i) / 65536))
  let s := modServoRegs s p fun r => { r with servoInteg := BitVec.ofInt 64 i }
  setFreqSat (setRate s p x) p (c1 || c2)

/-- The lock threshold in units of 2^-16 ns (R156: units of 2^-4 ns). -/
def lockThresh (r : ServoRegs) : Int := r.servoCtrlLockThresh.toNat * 4096

/-- What a return sample does in HOLDOVER (R130). -/
def holdReturn (s : State) (p : Part) (gate : Int) (theta : Int) : State :=
  if theta ≤ gate ∧ -gate ≤ theta then enterLocked s p
  else if theta < -gate then enterLocked (stepTick s p (-theta)) p
  else enterFree s p

/-- An accepted sample θ of the servo input acquires (R127): the first steps the tick by −θ; the first at least 62.5 ms later
raises the integrator by the drift seen and steps again; after that 64 in a row within LOCK_THRESH lock. `e` is the rate
exponent. -/
def servoAcquire (s : State) (p : Part) (e kp ki : Nat) (theta : Int) : State :=
  let v := (s.sh p).servo
  let r := v.regs
  if r.servoStatusState == 0 then
    if r.servoCtrlMode == 0 then
      let s := stepTick s p (-theta)
      let now := s.now p
      modServo s p fun v => { v with
        regs := { v.regs with servoStatusState := 1 }, stepAt := some now, tracking := false, good := 0 }
    else s
  else match v.stepAt with
    | some t0 =>
      let d : Int := (s.now p).toNat - t0.toNat
      if d ≥ 62500000 then
        let i := (clampTo (rateMax * 65536) (r.servoInteg.toInt + theta * 2 ^ 48 / d)).1
        let s := setRate (modServoRegs s p fun r => { r with servoInteg := BitVec.ofInt 64 i }) p (frozenRate i)
        modServo (stepTick s p (-theta)) p fun v => { v with stepAt := none, tracking := true, good := 0 }
      else s
    | none =>
      let s := piUpdate s p kp ki e theta
      if theta ≤ lockThresh r ∧ -lockThresh r ≤ theta then
        if v.good + 1 ≥ 64 then enterLocked s p else modServo s p fun v => { v with good := v.good + 1 }
      else modServo s p fun v => { v with good := 0 }

/-- An accepted sample of a link input steers the servo by its state (R126, R127, R130). `gate` is the OFFSET_GATE value
in units of 2^-16 ns, `e` the rate exponent. -/
def servoSample (s : State) (p : Part) (e : Nat) (gate theta : Int) : State :=
  let s := modServoRegs s p fun r => { r with servoTheta := BitVec.ofInt 48 theta }
  let v := (s.sh p).servo
  let r := v.regs
  match r.servoStatusState.toNat with
  | 0 => servoAcquire s p e r.servoKp.toNat r.servoKi.toNat theta
  | 1 => servoAcquire s p e r.servoKp.toNat r.servoKi.toNat theta
  | 2 => piUpdate s p r.servoKp.toNat r.servoKi.toNat e theta
  | 3 => if r.servoCtrlMode == 1 || v.voted then s else holdReturn s p gate theta
  | _ => s

/-! ## The servo input (R122) -/

/-- What steers a part. -/
inductive TimeInput where
  | ref
  | link (l : LinkId)
  deriving DecidableEq, Repr

/-- The servo input of a part (R122, R134, R143): none while there is none in service. -/
def State.servoInput (s : State) (p : Part) : Option TimeInput :=
  let up (port : BitVec 7) (sub : BitVec 2) : Option TimeInput :=
    if (s.link ⟨.hub, port, sub⟩).active then some (.link ⟨.hub, port, sub⟩) else none
  match p with
  | .tsu => if s.tsu.sh.servo.led then some (.link (if s.tsu.sh.servo.regs.servoStatusLead then linkB else linkA)) else none
  | .hub =>
    let m := s.hub.sh.servo.regs.servoMaster
    match s.tier with
    | 0 => (up 64 0).or (up 65 0)
    | 1 => if m = 0xFFFF then none else up (64 + (hallIndex m).setWidth 7) 0
    | 2 =>
      if s.hub.ref.regs.masterStatusIsMaster then some .ref
      else if m = 0xFFFF then none
      else if m = twinOf s.hub.id.hubAddr then (s.roleLinks 3)[0]?.map .link
      else ((s.roleLinks 4).filter fun l => s.seen l == m)[0]?.map .link
    | _ => none

/-- Whether a link is the servo input of its part. -/
def State.isInput (s : State) (l : LinkId) : Bool := s.servoInput l.part == some (.link l)

/-- The sample-rate exponent of a link (R122). -/
def State.rateExp (s : State) (l : LinkId) : Nat := (s.link l).regs.ptCtrlRateExp.toNat

/-- Sample intervals before loss: LOSS_SAMPLES holds one less (R9, R156). -/
def lossIntervals (r : ServoRegs) : Nat := r.servoCtrlLossSamples.toNat + 1

/-- Whether a link's latest accepted sample is no older than LOSS_SAMPLES intervals (R134, R135). -/
def State.fresh? (s : State) (l : LinkId) : Option Int :=
  match (s.link l).latest with
  | some (th, t) =>
    if ((s.now l.part).toNat - t.toNat) * 2 ^ s.rateExp l ≤ lossIntervals (s.sh l.part).servo.regs * 1000000000
    then some th else none
  | none => none

/-- The lead plane moves to the other plane when that is allowed (R134): whether it moved, and the state. -/
def leadMove (s : State) : Bool × State :=
  let r := s.tsu.sh.servo.regs
  let toB := !r.servoStatusLead
  let other := if toB then linkB else linkA
  let faulty := if toB then r.servoStatusFaultB else r.servoStatusFaultA
  if r.servoCtrlLeadForceEn || faulty || (s.fresh? other).isNone then (false, s)
  else (true, setCause (modServoRegs s .tsu fun r => { r with servoStatusLead := toB }) .tsu .servo 4)

/-- The TSU leaves a lead plane that is out of service, silent or marked faulty, when the other can lead (R134). -/
def leadCheck (s : State) : State :=
  let r := s.tsu.sh.servo.regs
  let lead := if r.servoStatusLead then linkB else linkA
  let faulty := if r.servoStatusLead then r.servoStatusFaultB else r.servoStatusFaultA
  if s.tsu.sh.servo.led && (!(s.link lead).active || (s.fresh? lead).isNone || faulty) then (leadMove s).2 else s

/-! ## The strobe (R191) -/

/-- The taps the die has, in order. -/
def State.tapIds (s : State) : List (BitVec 7) := (List.range (s.tsu.root.integTaps.toNat + 1)).map fun i => BitVec.ofNat 7 i

/-- Taps that are OFF with the strobe present and not parked begin to lock (R191). -/
def tapStrobe (s : State) : State :=
  if s.tsu.tapPage.tapGlobalEn && s.tsu.sh.tb.regs.statusIslandLock then
    s.tapIds.foldl (fun s t => modTap s t fun k =>
      if k.own.tapStatusState == 0 && !k.own.tapCtrlParked then { k with own := { k.own with tapStatusState := 1 } } else k) s
  else s

end Sys2Proof.Machine
end

