-- ==== Sys2Proof/Machine/Edge.lean ====
section
/-! DEFINITION. The edge measurement unit: stamping points and conversions (R73 to R76), the lock clusters (R78 to R81),
and the measurement engines (R82 to R93). -/

namespace Sys2Proof.Machine

/-! ## Stamps -/

/-- The move count of the link a stamping point belongs to, so that a stamp across a move of logical lane 0 or a write of
PT_EXT is seen (R114). -/
def State.pointMove (s : State) : Point → Nat
  | .linkTx l => (s.link l).moveGen
  | .linkRx l => (s.link l).moveGen
  | _ => 0

/-- The stamp of a conversion, in units of 2^-16 ns, rounded toward negative infinity (R75): `n` is the coincidence count,
`off` the converter's offset. -/
def stampOf (c : Conv) (n : Nat) (off : Int) : Int :=
  let h : Int := c.tick.toNat * 2 ^ 48 + c.frac.toNat
  (h * 1024 - (2 * (n : Int) - 1) * (2 ^ 48 + c.rate.toInt)) / 2 ^ 42 - off

/-! ## Measurement engines -/

/-- The prescaler's divisor (R83). -/
def prescaleOf (p : BitVec 2) : Nat := match p.toNat with | 0 => 1 | 1 => 8 | _ => 64

/-- The class of source A or B of an engine (R82). -/
def Engine.cls (g : Engine) (onB : Bool) : BitVec 3 := if onB then g.regs.emuSrcBClass else g.regs.emuSrcAClass

/-- The stamping point that source A or B of an engine reads: a link's, or the engine's own (R82). -/
def Engine.source (g : Engine) (p : Part) (e : BitVec 2) (onB : Bool) : Point :=
  let i := (if onB then g.regs.emuSrcBIndex else g.regs.emuSrcAIndex).toNat
  let l : LinkId := match p with | .hub => linkOfKey .hub i | .tsu => ⟨.tsu, BitVec.ofNat 7 i, 0⟩
  match (g.cls onB).toNat with
  | 3 => .linkTx l
  | 4 => .linkRx l
  | _ => if onB then .engineB p e else .engineA p e

/-- Whether source A or B of an engine delivers an edge of this direction to the engine's own stamping point (R82): CAL and
REPLICA deliver rising edges, REF and EVENT those that EDGE_A or EDGE_B names. -/
def Engine.takes (g : Engine) (onB rising : Bool) : Bool :=
  let falling := if onB then g.regs.emuCtrlEdgeB else g.regs.emuCtrlEdgeA
  match (g.cls onB).toNat with
  | 1 => rising
  | 2 => rising != falling
  | 5 => rising != falling
  | 6 => rising
  | _ => false

/-- The divisor of the engine's own prescaler before source A or B: a REPLICA's prescaler sits in the tap (R82, R83). -/
def Engine.divides (g : Engine) (onB : Bool) : Nat := if g.cls onB == 6 then 1 else prescaleOf g.regs.emuCtrlPrescale

/-- The D of a PERIOD sample: the engine's prescaler, or that of the tap whose replica is measured (R83, R86). -/
def State.periodD (s : State) (g : Engine) : Nat :=
  prescaleOf (if g.regs.emuSrcAClass == 6 then (s.tap (g.regs.emuSrcAIndex.setWidth 7)).own.tapCtrlRepPrescale
    else g.regs.emuCtrlPrescale)

/-- An edge at the input of an engine's source A or B (R82, R83): whether the prescaler lets it through, and the state. -/
def prescale (s : State) (p : Part) (e : BitVec 2) (onB rising : Bool) : Bool × State :=
  let g := s.emu p e
  let n := (if onB then g.preB else g.preA) + 1
  if !g.takes onB rising then (false, s)
  else
    let full := decide (g.divides onB ≤ n)
    let n := if full then 0 else n
    (full, modEmu s p e fun g => if onB then { g with preB := n } else { g with preA := n })

/-- A set's running figures return to their start, EMU_STATUS.SAMPLES among them, when a set begins, completes, fails or is
aborted. DESIGN CHOICE: log entry 63. -/
def clearSet (g : Engine) : Engine :=
  { g with regs := { g.regs with emuStatusSamples := 0 }, first := none, bs := [], doneAt := none, s1 := 0, sumY := 0,
           sumY2 := 0, lo := 0, hi := 0, stepped := false, validAll := true }

/-- The next set begins at the first edge on A from here on (R93). -/
def beginSet (s : State) (p : Part) (e : BitVec 2) : State :=
  let n := (s.point ((s.emu p e).source p e false)).edges
  modEmu s p e fun g => { clearSet g with after := n }

/-- A set fails with a cause (R90, R93): its results stay, SET_FAILED is set, and a continuous engine begins again. -/
def failSet (s : State) (p : Part) (e : BitVec 2) (cause : BitVec 3) (again : Bool) : State :=
  setCause (modEmu (beginSet s p e) p e fun g => { g with regs := { g.regs with
    emuStatusBusy := again && g.regs.emuCtrlContinuous, emuStatusCause := cause, emuStatusFailed := true } }) p (.emu e) 1

/-- Whether a set has its 2^K samples (R91). -/
def Engine.full (g : Engine) : Bool := decide (2 ^ g.regs.emuCtrlK.toNat ≤ g.regs.emuStatusSamples.toNat)

/-- A sample counts toward the set: the first sample, the shifted sums and the extremes (R91). -/
def addSample (g : Engine) (x : Int) (valid : Bool) : Engine :=
  if g.full then g
  else
    let n := g.regs.emuStatusSamples
    let s1 := if n = 0 then x else g.s1
    let y := x - s1
    { g with regs := { g.regs with emuStatusSamples := n + 1 }, s1 := s1, sumY := g.sumY + y, sumY2 := g.sumY2 + y * y,
             lo := if n = 0 ∨ x < g.lo then x else g.lo, hi := if n = 0 ∨ x > g.hi then x else g.hi,
             validAll := g.validAll && valid }

/-- The phase of a stamp against the grid of period P_NUM / (P_DEN + 1) ns (R87). -/
def phaseOf (t : Int) (pNum pDen : Nat) : Int :=
  let r := (t * (pDen + 1)) % (pNum * 65536)
  let q := r / (pDen + 1)
  if 2 * r ≥ pNum * 65536 then q - (pNum * 65536) / (pDen + 1) else q

/-- A sample whose two stamps lie on both sides of a tick step is discarded and counted (R90). -/
def discardStepped (g : Engine) : Engine :=
  { g with regs := { g.regs with emuDiscardStepped := satInc g.regs.emuDiscardStepped }, stepped := true, first := none }

/-- Whether a stamp on B is at or after one on A (R86): later in ticks, or taken after a step that lies between them. -/
def notBefore (a b : Stamp) : Bool := decide (a.stepGen < b.stepGen) || (a.stepGen == b.stepGen && decide (a.t ≤ b.t))

/-- An INTERVAL sample T_B − T_A ends (R86): a missed T_B discards it, an UNCAL stamp fails the set, a tick step between the two
discards it (R90). An edge that the engine's own point missed is counted there already (R76). -/
def intervalSample (s : State) (p : Part) (e : BitVec 2) (a b : Stamp) : State :=
  let s := modEmu s p e fun g => { g with first := none, doneAt := some b }
  if b.missed then modEmu s p e fun g =>
    if g.cls true == 3 || g.cls true == 4 then
      { g with regs := { g.regs with emuDiscardMissed := satInc g.regs.emuDiscardMissed } }
    else g
  else if a.uncal || b.uncal then failSet s p e 2 true
  else modEmu s p e fun g =>
    if a.stepGen = b.stepGen then addSample g (b.t - a.t) (a.valid && b.valid) else discardStepped g

/-- The stamps of a point that are still being converted. -/
def PointSt.pending (q : PointSt) : List Conv := q.conv0.toList ++ q.conv1.toList

/-- Whether a stamp on A may still come for an edge that has been taken (R86). -/
def awaitsA (s : State) (p : Part) (e : BitVec 2) : Bool :=
  let g := s.emu p e
  !(s.point (g.source p e false)).pending.isEmpty || !g.qA.isEmpty

/-- A stamp reaches an engine in INTERVAL mode (R86): T_A is a stamp on A that no earlier sample covers, T_B the first on B that is
at least T_A. Stamps on B are kept while one on A is still being converted. -/
def intervalStamp (s : State) (p : Part) (e : BitVec 2) (onB : Bool) (st : Stamp) : State :=
  let g := s.emu p e
  match onB, g.first with
  | true, some a => if notBefore a st then intervalSample s p e a st else s
  | true, none => if awaitsA s p e then modEmu s p e fun g => { g with bs := g.bs ++ [st] } else s
  | false, some _ => s
  | false, none =>
    let covered := match g.doneAt with | some d => !notBefore d st | none => false
    if st.missed || decide (st.edge < g.after) || covered then s
    else match g.bs.dropWhile fun b => !notBefore st b with
      | b :: rest => intervalSample (modEmu s p e fun g => { g with bs := rest }) p e st b
      | [] => modEmu s p e fun g => { g with first := some st, bs := [] }

/-- A stamp on A reaches an engine in PERIOD mode (R86, R90): T_0, or T_m once the gate has passed, which is the next T_0. -/
def periodStamp (s : State) (p : Part) (e : BitVec 2) (st : Stamp) : State :=
  let g := s.emu p e
  match g.first with
  | none => if st.uncal then failSet s p e 2 true else modEmu s p e fun g => { g with first := some st }
  | some a =>
    if st.stepGen ≠ a.stepGen then
      if st.uncal then failSet s p e 2 true else modEmu s p e fun g => { discardStepped g with first := some st }
    else if st.t - a.t ≥ g.regs.emuGateGateNs.toNat * 65536 then
      if st.uncal then failSet s p e 2 true
      else modEmu s p e fun g =>
        addSample { g with first := some st } ((st.t - a.t) / (((st.edge - a.edge) * s.periodD g : Nat) : Int)) (a.valid && st.valid)
    else s

/-- A stamp on source A or B forms samples by the engine's MODE (R86 to R90). -/
def emuStamp (s : State) (p : Part) (e : BitVec 2) (onB : Bool) (st : Stamp) : State :=
  let s := if onB || st.missed then s else modEmu s p e fun g => { g with regs := { g.regs with
    emuLastTick := BitVec.ofInt 64 (st.t / 65536), emuLastFrac := BitVec.ofInt 16 st.t } }
  let g := s.emu p e
  if !g.regs.emuStatusBusy || g.full then s
  else if g.regs.emuCtrlMode == 0 then intervalStamp s p e onB st
  else if onB || st.missed || decide (st.edge < g.after) then s
  else match g.regs.emuCtrlMode.toNat with
    | 1 => periodStamp s p e st
    | 2 =>
      if st.uncal then failSet s p e 2 true
      else modEmu s p e fun g => addSample g (phaseOf st.t g.regs.emuNominalPNum.toNat g.regs.emuNominalPDen.toNat) st.valid
    | _ => s

/-- A stamp enters a queue in the order of its point's edges. -/
def insertStamp (st : Stamp) : List Stamp → List Stamp
  | [] => [st]
  | x :: rest => if st.edge < x.edge then st :: x :: rest else x :: insertStamp st rest

/-- A stamp on source A or B is taken by an engine once no earlier edge of its point is still being converted. -/
def emuOffer (s : State) (p : Part) (e : BitVec 2) (onB : Bool) (st : Stamp) : State :=
  let g := s.emu p e
  let q := insertStamp st (if onB then g.qB else g.qA)
  let pend := (s.point (g.source p e onB)).pending
  let (ready, wait) := q.partition fun x => pend.all fun c => decide (x.edge ≤ c.edge)
  ready.foldl (fun s x => emuStamp s p e onB x)
    (modEmu s p e fun g => if onB then { g with qB := wait } else { g with qA := wait })

/-- The engines whose source A or B is a stamping point take its stamp: a copy, where the point is a link's (R82). -/
def toEngines (s : State) (k : Point) (st : Stamp) : State :=
  [0, 1, 2, 3].foldl (fun s e =>
    let g := s.emu k.part e
    let s := if g.source k.part e false = k then emuOffer s k.part e false st else s
    if g.source k.part e true = k then emuOffer s k.part e true st else s) s

/-- In PERIOD mode an edge beyond 2^24 − 1 after T_0 ends the sample, which starts again at the next edge on A (R88). -/
def overrange (s : State) (k : Point) (edge : Nat) : State :=
  match k with
  | .engineA p e =>
    match (s.emu p e).first with
    | some a =>
      if (s.emu p e).regs.emuStatusBusy && (s.emu p e).regs.emuCtrlMode == 1 && decide (edge - a.edge > 2 ^ 24 - 1) then
        modEmu s p e fun g => { g with
          first := none, after := edge + 1, regs := { g.regs with emuDiscardOverrange := satInc g.regs.emuDiscardOverrange } }
      else s
    | none => s
  | _ => s

/-- The calibration of a physical lane. -/
def State.laneCal (s : State) (p : Part) (port : BitVec 7) (lane : BitVec 3) : LaneCal :=
  tget {} (s.page p port).cal lane.toNat

/-- A lane's calibration goes through a function. -/
def modLaneCal (s : State) (p : Part) (port : BitVec 7) (lane : BitVec 3) (f : LaneCal → LaneCal) : State :=
  modPage s p port fun g => { g with cal := tmod {} g.cal lane.toNat f }

/-- The slots of a codeword on a folded lane (R452): a marker stands in slot 0, and every other slot carries IDLE. -/
def foldedWord (marker : Bool) : List Msg := (if marker then Msg.calMark else Msg.idle) :: List.replicate 9 .idle

/-- A new marker goes out on a folded lane: nothing of an earlier one is awaited (R112). -/
def newMarker (c : LaneCal) : LaneCal :=
  if c.busy then { c with word := foldedWord true, tTx := none, tPad := none, tRx := none } else c

/-- A sample joins the sums of R91. -/
def CalSum.add (c : CalSum) (x : Int) : CalSum :=
  let s1 := if c.n = 0 then x else c.s1
  { n := c.n + 1, s1 := s1, sumY := c.sumY + (x - s1), sumY2 := c.sumY2 + (x - s1) * (x - s1) }

/-- A marker whose three stamps are there gives its two samples (R112). One with a stamp that is missed, UNCAL or on the other side
of a tick step gives none, and the calibration goes on until 1,024 have given theirs. DESIGN CHOICE: log entry 68. -/
def takeMarker (c : LaneCal) : LaneCal :=
  match c.tTx, c.tPad, c.tRx with
  | some a, some b, some r =>
    let c := { c with tTx := none, tPad := none, tRx := none }
    let bad := a.uncal || b.uncal || r.uncal || a.missed || b.missed || r.missed || a.stepGen != b.stepGen || b.stepGen != r.stepGen
    if bad || decide (1024 ≤ c.tx.n) then c else { c with tx := c.tx.add (b.t - a.t), rx := c.rx.add (r.t - b.t) }
  | _, _, _ => c

/-- A stamp of a marker reaches the calibration of its lane (R112). -/
def markerStamp (s : State) (k : Point) (tag : FlitTag) (st : Stamp) : State :=
  match k, tag with
  | .linkTx l, .calMark lane => modLaneCal s l.part l.port lane fun c => if c.busy then takeMarker { c with tTx := some st } else c
  | .linkRx l, .calMark lane => modLaneCal s l.part l.port lane fun c => if c.busy then takeMarker { c with tPad := some st } else c
  | .linkRx l, .calFold lane => modLaneCal s l.part l.port lane fun c => if c.busy then takeMarker { c with tRx := some st } else c
  | _, _ => s

/-- A stamp held for a flit, newest first: only flits whose stamp something waits for are held. -/
def keepStamp (tag : FlitTag) (st : Stamp) (ls : List (FlitTag × Stamp)) : List (FlitTag × Stamp) :=
  match tag with
  | .sync _ => (tag, st) :: ls
  | .dreq _ => (tag, st) :: ls
  | .dresp _ => (tag, st) :: ls
  | .probe _ _ => (tag, st) :: ls
  | _ => ls

/-- The move count of the link on which a forwarded SYNC came in, as its transmit stamp finds it (R106). -/
def State.movesIn (s : State) (k : Point) (tag : FlitTag) : Nat :=
  match k, tag with
  | .linkTx l, .sync q =>
    match ((s.link l).fwd.find? fun f => f.seq == q).bind fun f => f.via with
    | some v => (s.link v).moveGen
    | none => 0
  | _, _ => 0

/-- An edge that finds neither converter armed is missed (R76): its point's owner counts it, a link that waits for the stamp holds
it as missed, and the engines that read the point see that a stamp is gone. -/
def countMissed (s : State) (k : Point) (tag : FlitTag) : State :=
  let gone : Stamp := {
    t := s.timeU k.part, missed := true, stepGen := (s.sh k.part).tb.stepGen, moveGen := s.pointMove k
    inGen := s.movesIn k tag, edge := (s.point k).edges }
  let s := match k with
    | .linkTx l => modLink s l fun n => { n with
        regs := { n.regs with ptCol0Missed := satInc n.regs.ptCol0Missed }, tx := keepStamp tag gone n.tx }
    | .linkRx l => modLink s l fun n => { n with
        regs := { n.regs with ptCol0Missed := satInc n.regs.ptCol0Missed }, rx := keepStamp tag gone n.rx }
    | .engineA p e =>
      modEmu s p e fun g => { g with regs := { g.regs with emuDiscardMissed := satInc g.regs.emuDiscardMissed } }
    | .engineB p e =>
      modEmu s p e fun g => { g with regs := { g.regs with emuDiscardMissed := satInc g.regs.emuDiscardMissed } }
  toEngines (markerStamp s k tag gone) k gone

/-- An edge is offered to a stamping point (R73, R76): it starts the converter that is armed, converter 0 when both are; the next
island edge starts the fast ring. With neither armed it is missed. -/
def offerEdge (s : State) (k : Point) (tag : FlitTag) : State :=
  let pt := s.point k
  let c : Conv := { tag := tag, edge := pt.edges, moveGen := s.pointMove k, inGen := s.movesIn k tag }
  let s := if pt.conv0.isNone then modPoint s k fun q => { q with conv0 := some c }
    else if pt.conv1.isNone then modPoint s k fun q => { q with conv1 := some c }
    else countMissed s k tag
  overrange (modPoint s k fun q => { q with edges := q.edges + 1 }) k pt.edges

/-- What the transmit edge of a flit begins: a PROBE that the point takes holds its place in the transmit stamp queue until it is
converted (R119), and a marker is the next of its folded lane (R112). -/
def noteSent (s : State) (l : LinkId) (tag : FlitTag) : State :=
  let q := s.point (.linkTx l)
  match tag with
  | .probe _ _ =>
    if q.conv0.isNone || q.conv1.isNone then
      modPage s l.part l.port fun g => { g with tsqWait := g.tsqWait ++ [⟨l.sub, q.edges, none⟩] }
    else s
  | .calMark lane => modLaneCal s l.part l.port lane newMarker
  | _ => s

/-- STAMP_EDGE (R73, R76, R82, R83): an edge at a stamping point. At an engine's own point it is an edge of the engine's source,
taken in the direction that the engine asks for and after its prescaler. -/
def execStampEdge (k : Point) (tag : FlitTag) (s : State) : Host.Outcome State Fault Refusal :=
  match k with
  | .linkTx l => .next (offerEdge (noteSent s l tag) k tag)
  | .linkRx _ => .next (offerEdge s k tag)
  | .engineA p e => let (b, s) := prescale s p e false tag.rising; .next (if b then offerEdge s k tag else s)
  | .engineB p e => let (b, s) := prescale s p e true tag.rising; .next (if b then offerEdge s k tag else s)

/-- A conversion that no island edge has started yet takes the hall tick, fraction and rate word of this one (R73, R75). -/
def startConv (t : Timebase) (c : Conv) : Conv :=
  if c.started then c
  else { c with started := true, tick := t.tick, frac := t.frac, rate := t.regs.rateNow, stepGen := t.stepGen
                valid := t.regs.statusValid }

/-- An island edge starts the fast ring of every conversion of a part that waits for it (R73). -/
def startConvs (s : State) (p : Part) : State :=
  modSh s p fun h => { h with vern := { h.vern with points := tmap {} (fun _ q => { q with
    conv0 := q.conv0.map (startConv h.tb), conv1 := q.conv1.map (startConv h.tb) }) h.vern.points } }

/-- An entry enters a port's transmit stamp queue of 16, or is dropped with OVF (R119). -/
def tsqPut (s : State) (p : Part) (port : BitVec 7) (en : TsqEntry) : State :=
  let g := s.page p port
  if g.tsq.length < 16 then setCause (modPage s p port fun g => { g with tsq := g.tsq ++ [en] }) p (.link port) 8
  else
    let was := g.regs.ptTsqStatusOvf
    let s := modPage s p port fun g => { g with regs := { g.regs with
      ptTsqStatusOvf := true, ptTsqStatusOvfCount := satInc g.regs.ptTsqStatusOvfCount } }
    let s := setCause s p (.link port) 9
    if was then s else raisePlain s p 0x0023 0 0 [(8, port.toNat)]

/-- The physical lane that carries logical lane 0 of a link (R114, R451). -/
def State.lane0 (s : State) (l : LinkId) : BitVec 3 :=
  let g := s.page l.part l.port
  match l.part with
  | .hub => g.lanes.getD (if g.role.portRoleSplit then l.sub.toNat else 0) 0
  | .tsu => g.lanes.getD 0 0

/-- Nominal TX_CAL and RX_CAL in units of 2^-16 ns (R100): 4-lane 37.500 and 71.250 ns, sub-port 41.600 and 78.200 ns, TSU
40.900 and 77.500 ns, rounded toward negative infinity. -/
def nominalCal (s : State) (p : Part) (port : BitVec 7) : Int × Int :=
  match p with
  | .tsu => (40900 * 65536 / 1000, 77500 * 65536 / 1000)
  | .hub =>
    if (s.page .hub port).role.portRoleSplit then (41600 * 65536 / 1000, 78200 * 65536 / 1000)
    else (37500 * 65536 / 1000, 71250 * 65536 / 1000)

/-- The spare lane's number as delivered: lane 4 of a hub port, lane 1 of a TSU link (R451, R522). -/
def spareLane : Part → BitVec 3
  | .hub => 4
  | .tsu => 1

/-- The fixed correction of a lane (R100), in units of 2^-16 ns. -/
def fixedCorr (p : Part) (lane : BitVec 3) : Int :=
  match p with
  | .hub => if lane == spareLane .hub then 16384 else 8192
  | .tsu => if lane == spareLane .tsu then 60 * 65536 / 1000 else 0

/-- L_tx and L_rx of a link in units of 2^-16 ns (R99). -/
def State.latency (s : State) (l : LinkId) : Int × Int :=
  let lane := s.lane0 l
  let c := s.laneCal l.part l.port lane
  let (tx, rx) := if c.have_ then (c.txCal, c.rxCal) else nominalCal s l.part l.port
  let r := (s.link l).regs
  let f := fixedCorr l.part lane
  (tx + f + r.ptExtExtTx.toInt, rx + f + r.ptExtExtRx.toInt)

/-- The entries at the front of the order that are there enter a port's transmit stamp queue (R119). -/
def tsqFlush (s : State) (p : Part) (port : BitVec 7) : State :=
  let w := (s.page p port).tsqWait
  (w.takeWhile fun x => x.entry.isSome).foldl (fun s x => match x.entry with | some e => tsqPut s p port e | none => s)
    (modPage s p port fun g => { g with tsqWait := w.dropWhile fun x => x.entry.isSome })

/-- The stamp of a PROBE sent takes its place in the transmit stamp queue (R118, R119). -/
def probeStamp (s : State) (l : LinkId) (tsid : BitVec 8) (st : Stamp) : State :=
  let t := st.t + (s.latency l).1
  let e : TsqEntry := { kind := false, sub := l.sub, tsid := tsid, tick := BitVec.ofInt 64 (t / 65536), frac := BitVec.ofInt 16 t }
  tsqFlush (modPage s l.part l.port fun g => { g with
    tsqWait := g.tsqWait.map fun x => if x.sub = l.sub ∧ x.edge = st.edge then { x with entry := some e } else x }) l.part l.port

/-- A conversion's stamp reaches what waits for it (R75, R112, R119): a link holds it for the flits that follow, a PROBE's enters the
transmit stamp queue, a marker's its lane's calibration. -/
def keepFor (s : State) (k : Point) (tag : FlitTag) (st : Stamp) : State :=
  match k, tag with
  | .linkTx l, .probe tsid _ => probeStamp s l tsid st
  | .linkTx l, _ => markerStamp (modLink s l fun n => { n with tx := keepStamp tag st n.tx }) k tag st
  | .linkRx l, _ => markerStamp (modLink s l fun n => { n with rx := keepStamp tag st n.rx }) k tag st
  | _, _ => s

/-! ## Clusters -/

/-- A cluster becomes READY or leaves READY (R79, R81). -/
def setReady (s : State) (p : Part) (c : BitVec 5) (b : Bool) : State :=
  let s := modSh s p fun h => { h with vern := { h.vern with regs := { h.vern.regs with
    vernReady := setBit h.vern.regs.vernReady c.toNat b } } }
  match p with
  | .hub => updReady s
  | .tsu => s

/-- The trim codes that a locking loop drives from its integrators, fast and slow, and every converter ring of the cluster takes
(R78). -/
def trimmed (k : Cluster) : Cluster := { k with trimFast := Config.trimCode k.fast, trimSlow := Config.trimCode k.slow }

/-- The trim codes of a stamping point's converter rings, fast and slow (R78). -/
def State.ringTrim (s : State) (k : Point) : BitVec 16 × BitVec 16 :=
  let c := s.cluster k.part (BitVec.ofNat 5 k.cluster)
  (c.trimFast, c.trimSlow)

/-- A cluster's loop has left its range, or its calibration has failed (R81). Its fresh lock begins with both integrators at 0.
DESIGN CHOICE: log entry 63. -/
def clusterFault (s : State) (p : Part) (c : BitVec 5) : State :=
  let s := setReady s p c false
  let s := modSh s p fun h => { h with vern := { h.vern with regs := { h.vern.regs with
    vernFault := setBit h.vern.regs.vernFault c.toNat true } } }
  let s := modCluster s p c fun k => trimmed { k with
    locked := false, held := 0, fast := 0, slow := 0, calibrated := false, calibrating := false }
  timeFault s p 0 [(8, c.toNat)]

/-- Whether a part has a cluster (R78). -/
def hasCluster : Part → BitVec 5 → Bool
  | .hub, c => decide (c.toNat ≤ 18)
  | .tsu, c => c == 0

/-- LOCK_GATE_END (R78, R79, R81): the gate's counts of fast and slow reference-ring cycles go against 131,328 and 131,072;
four gates with both integrators within 1 cycle lock the loop and start the first calibration; an integrator beyond 8
cycles is a fault. A loop runs while the island is locked. -/
def execLockGateEnd (p : Part) (c : BitVec 5) (fast slow : BitVec 18) (s : State) : Host.Outcome State Fault Refusal :=
  if !hasCluster p c || !(s.sh p).tb.regs.statusIslandLock then .next s
  else
    let k := s.cluster p c
    let f := k.fast + ((fast.toNat : Int) - 131328)
    let w := k.slow + ((slow.toNat : Int) - 131072)
    if f > 8 ∨ f < -8 ∨ w > 8 ∨ w < -8 then .next (clusterFault s p c)
    else
      let ok := decide (-1 ≤ f ∧ f ≤ 1 ∧ -1 ≤ w ∧ w ≤ 1)
      let held := if ok then k.held + 1 else 0
      let locked := k.locked || decide (held ≥ 4)
      .next (modCluster s p c fun k => trimmed { k with
        fast := f, slow := w, held := held, locked := locked, calibrating := k.calibrating || (locked && !k.calibrated) })

/-- Every cluster of a part starts a calibration (R80, R95). -/
def calibrateAll (s : State) (p : Part) : State :=
  (List.range (match p with | .hub => 19 | .tsu => 1)).foldl (fun s c =>
    modCluster s p (BitVec.ofNat 5 c) fun k => { k with calibrating := true }) s

/-- A write of VERN_CTRL (R95): CAL_PERIOD_MS takes its bits, and CAL_NOW calibrates every cluster. -/
def vernCtrlWrite (i : Iface) (v : Word) (s : State) : Bool × State :=
  let s := modSh s i.part fun h => { h with vern := { h.vern with regs := h.vern.regs.write 0x040 v } }
  accept (if getB v 16 then calibrateAll s i.part else s)

/-- CAL_NOW (R80): a write of VERN_CTRL with CAL_NOW set. -/
def execCalNow (i : Iface) (data : Word) (s : State) : Host.Outcome State Fault Refusal :=
  ackWrite i s (vernCtrlWrite i (data ||| putB 16 true) s)

/-- CLUSTER_CAL_PERIOD (R80): the CAL_PERIOD_MS timer has run; 0 disables it. -/
def execClusterCalPeriod (p : Part) (s : State) : Host.Outcome State Fault Refusal :=
  if (s.sh p).vern.regs.vernCtrlCalPeriodMs = 0 then .next s else .next (calibrateAll s p)

/-- A converter's offset and integral nonlinearity from its 16 phase errors (R80). -/
def calFigures (errors : List Int) : Int × Int :=
  let off := errors.foldl (· + ·) 0 / 16
  (off, errors.foldl (fun m x => max m (Int.natAbs (x - off))) 0)

/-- Whether a converter passes: offset within 2,048 units and nonlinearity within 192 (R80). -/
def calPasses (r : CalResult) : Bool :=
  let (off, inl) := calFigures r.errors
  decide (off.natAbs ≤ 2048) && decide (inl ≤ 192)

/-- The converters of a cluster, in the order in which a calibration takes them (R78, R80): each stamping point's converter 0, then
its converter 1. -/
def clusterConverters (p : Part) (c : BitVec 5) : List (Point × Bool) :=
  let links : List LinkId := match p with
    | .hub => if c = 18 then [] else (List.range 16).map fun i => linkOfKey .hub (16 * c.toNat + i)
    | .tsu => [linkA, linkB]
  let engines : List (BitVec 2) := match p with | .hub => if c = 18 then [0, 1, 2, 3] else [] | .tsu => [0, 1]
  let points := links.flatMap (fun l => [Point.linkTx l, Point.linkRx l]) ++
    engines.flatMap fun e => [Point.engineA p e, Point.engineB p e]
  points.flatMap fun k => [(k, false), (k, true)]

/-- Whether a calibration's results cover every converter of the cluster, each with its 16 phases (R80). -/
def calComplete (p : Part) (c : BitVec 5) (results : List CalResult) : Bool :=
  results.map (fun r => (r.point, r.conv1)) == clusterConverters p c && results.all fun r => r.errors.length == 16

/-- CLUSTER_CAL_DONE (R80, R81): the calibration's figures are shown; with every converter passing the offsets are taken
and a locked cluster is READY; otherwise it is a fault. -/
def execClusterCalDone (p : Part) (c : BitVec 5) (results : List CalResult) (s : State) : Host.Outcome State Fault Refusal :=
  if !hasCluster p c || !(s.cluster p c).calibrating || !calComplete p c results then .next s
  else
    let figs := results.map fun r => calFigures r.errors
    let inl := figs.foldl (fun m x => max m x.2) 0
    let off := figs.foldl (fun m x => if x.1.natAbs > m.natAbs then x.1 else m) 0
    let s := modCluster s p c fun k => { k with
      calibrating := false
      shown := { k.shown with vernResultInlMax := satNat 16 inl.toNat, vernResultOffsetMax := satInt 16 off } }
    if results.all calPasses then
      let s := modCluster s p c fun k => { k with
        calibrated := k.locked, shown := { k.shown with vernResultCalCount := satInc k.shown.vernResultCalCount } }
      let s := results.foldl (fun s r => modPoint s r.point fun q =>
        if r.conv1 then { q with off1 := (calFigures r.errors).1 } else { q with off0 := (calFigures r.errors).1 }) s
      .next (if (s.cluster p c).locked then setReady s p c true else s)
    else .next (clusterFault s p c)

/-! ## Sets -/

/-- Whether a source is present on a part and allowed in a mode (R82): a die of 16 or fewer regions has no replicas (R208). -/
def sourceOk (s : State) (p : Part) (cls : BitVec 3) (idx : BitVec 9) (mode : BitVec 2) : Bool :=
  let i := idx.toNat
  match cls.toNat, p with
  | 1, _ => decide (i < 16) && (mode == 0 || mode == 2)
  | 2, .hub => decide (i < 7) && decide (mode.toNat < 3)
  | 2, .tsu => decide (i = 0) && decide (mode.toNat < 3)
  | 3, .hub => decide (i < 288) && mode == 0
  | 3, .tsu => decide (i < 2) && mode == 0
  | 4, .hub => decide (i < 288) && mode == 0
  | 4, .tsu => decide (i < 2) && mode == 0
  | 5, .tsu => decide (i < 16) && decide (mode.toNat < 3)
  | 6, .tsu => decide (16 ≤ s.tsu.root.integTaps.toNat) && decide (i ≤ s.tsu.root.integTaps.toNat) && mode == 1
  | _, _ => false

/-- Whether a time in ns lies within 1,024 to 2,000,000,000 (R92). -/
def gateLegal (n : BitVec 32) : Bool := decide (1024 ≤ n.toNat ∧ n.toNat ≤ 2000000000)

/-- Whether the START of a set is allowed with the registers an engine would then hold (R92). -/
def startOk (s : State) (p : Part) (r : EmuRegs) : Bool :=
  let m := r.emuCtrlMode
  !r.emuStatusBusy && m != 3 && r.emuCtrlPrescale != 3 && decide (r.emuCtrlK.toNat ≤ 20) && r.emuSrcAClass != 0 &&
    r.emuSrcBClass != 7 &&
    sourceOk s p r.emuSrcAClass r.emuSrcAIndex m &&
    (match m.toNat with
      | 0 => r.emuSrcBClass != 0 && sourceOk s p r.emuSrcBClass r.emuSrcBIndex 0 &&
          !(r.emuSrcBClass == r.emuSrcAClass && r.emuSrcBIndex == r.emuSrcAIndex) && gateLegal r.emuGateTimeoutNs
      | 1 => gateLegal r.emuGateGateNs
      | _ => r.emuNominalPNum != 0)

/-- A set starts with the registers as written (R83, R92): the prescalers stand at phases that are free values. -/
def startSet (s : State) (p : Part) (e : BitVec 2) (r : EmuRegs) : State :=
  let x := (Config.prescalePhase s.free).toNat
  let s := beginSet (modEmu s.fresh.2 p e fun g => { g with regs := r }) p e
  modEmu s p e fun g => { g with
    qA := [], qB := [], preA := x % g.divides false, preB := x / 64 % g.divides true
    regs := { g.regs with emuStatusBusy := true } }

/-- A write of EMU_CTRL (R92): while BUSY only ABORT is taken, and it ends the set; otherwise the fields are taken and START
begins a set, unless a refusal case applies, which leaves everything as it was. Of START and ABORT in one write the ABORT acts
while BUSY and the START while idle. DESIGN CHOICE: log entry 19. -/
def emuCtrlWrite (i : Iface) (e : BitVec 2) (v : Word) (s : State) : Bool × State :=
  let p := i.part
  let r := (s.emu p e).regs
  let start := getB v 63
  let abort := getB v 62
  if r.emuStatusBusy then
    if abort then accept (failSet s p e 3 false) else refused s p (.emu e)
  else
    let r' := r.write 0x040 v
    if start then
      if startOk s p r' then
        accept (startSet s p e r')
      else refused s p (.emu e)
    else if r'.emuCtrlMode == 3 || r'.emuCtrlPrescale == 3 || decide (r'.emuCtrlK.toNat > 20) then refused s p (.emu e)
    else accept (modEmu s p e fun g => { g with regs := r' })

/-- A write of a page the part does not have is counted (R171, R512). -/
def onEmu (i : Iface) (e : BitVec 2) (s : State) (f : Bool × State) : Bool × State :=
  match (Page.emu e).ordinal i.part with
  | some _ => f
  | none => refused s i.part (strayPage i.part)

/-- EMU_START (R92): a write of EMU_CTRL with START set. -/
def execEmuStart (i : Iface) (e : BitVec 2) (data : Word) (s : State) : Host.Outcome State Fault Refusal :=
  ackWrite i s (onEmu i e s (emuCtrlWrite i e (data ||| putB 63 true) s))

/-- EMU_ABORT (R92): a write of EMU_CTRL with ABORT set and START clear. -/
def execEmuAbort (i : Iface) (e : BitVec 2) (data : Word) (s : State) : Host.Outcome State Fault Refusal :=
  ackWrite i s (onEmu i e s (emuCtrlWrite i e ((data &&& ~~~ putB 63 true) ||| putB 62 true) s))

/-- EMU_INTERVAL_TIMEOUT (R89): no stamp on B within TIMEOUT_NS of T_A; the sample is discarded and counted. -/
def execEmuIntervalTimeout (p : Part) (e : BitVec 2) (s : State) : Host.Outcome State Fault Refusal :=
  let g := s.emu p e
  if g.regs.emuStatusBusy && g.regs.emuCtrlMode == 0 && g.first.isSome then
    let n := (s.point (g.source p e false)).edges
    .next (modEmu s p e fun g => { g with
      regs := { g.regs with emuDiscardTimeout := satInc g.regs.emuDiscardTimeout }, first := none, after := n })
  else .next s

/-- The integer square root, one bit of the root after another, from bit `k - 1` down. -/
def isqrtBits (n : Nat) : Nat → Nat → Nat
  | 0, r => r
  | k + 1, r => isqrtBits n k (if (r + 2 ^ k) * (r + 2 ^ k) ≤ n then r + 2 ^ k else r)

/-- The floor of the square root. -/
def isqrt (n : Nat) : Nat := isqrtBits n 80 0

/-- MEAN, STDEV, MIN and MAX of a set of `n` samples in exact integers (R91). -/
def setResults (n : Nat) (s1 sumY sumY2 lo hi : Int) : Int × Nat × Int × Int :=
  let mean := (n * s1 + sumY) / n
  let v := (n * sumY2 - sumY * sumY) / (n * n)
  (mean, isqrt v.toNat, lo, hi)

/-- EMU_SET_DONE (R91, R93): the results of 2^K samples are written as one update, SET_SEQ counts, SET_DONE is set, and a
continuous engine begins its next set. -/
def execEmuSetDone (p : Part) (e : BitVec 2) (s : State) : Host.Outcome State Fault Refusal :=
  let g := s.emu p e
  let n := 2 ^ g.regs.emuCtrlK.toNat
  if g.regs.emuStatusBusy && g.regs.emuStatusSamples.toNat == n then
    let (mean, sd, lo, hi) := setResults n g.s1 g.sumY g.sumY2 g.lo g.hi
    .next (setCause (modEmu (beginSet s p e) p e fun g' => { g' with regs := { g'.regs with
        emuMean := BitVec.ofInt 64 mean, emuStdev := BitVec.ofNat 64 sd, emuMin := BitVec.ofInt 64 lo,
        emuMax := BitVec.ofInt 64 hi, emuStatusSetSeq := g.regs.emuStatusSetSeq + 1, emuStatusFailed := false,
        emuStatusStepped := g.stepped, emuStatusValidAll := g.validAll, emuStatusBusy := g.regs.emuCtrlContinuous } })
      p (.emu e) 0)
  else .next s

/-- A read of EMU_MEAN latches EMU_STDEV, EMU_MIN and EMU_MAX of the same set for the interface (R93). -/
def emuMeanRead (i : Iface) (e : BitVec 2) (s : State) : Word × State :=
  let r := (s.emu i.part e).regs
  (r.emuMean, modIface s i fun c => { c with
    emu := tmod {} c.emu e.toNat fun l => { l with emuStdev := r.emuStdev, emuMin := r.emuMin, emuMax := r.emuMax } })

/-- EMU_MEAN_READ (R93). -/
def execEmuMeanRead (i : Iface) (e : BitVec 2) (s : State) : Host.Outcome State Fault Refusal :=
  ackRead i s (emuMeanRead i e s)

/-- A read of EMU_LAST_TICK latches EMU_LAST_FRAC for the interface (R93). -/
def emuLastTickRead (i : Iface) (e : BitVec 2) (s : State) : Word × State :=
  let r := (s.emu i.part e).regs
  (r.emuLastTick, modIface s i fun c => { c with emu := tmod {} c.emu e.toNat fun l => { l with emuLastFrac := r.emuLastFrac } })

/-- EMU_LAST_TICK_READ (R93). -/
def execEmuLastTickRead (i : Iface) (e : BitVec 2) (s : State) : Host.Outcome State Fault Refusal :=
  ackRead i s (emuLastTickRead i e s)

end Sys2Proof.Machine
end

