-- ==== Sys2Proof/Machine/LinkTime.lean ====
section
/-! DEFINITION. Carrying time over a link (R96 to R119): delay exchanges, SYNC and its follow-ups, the Colander for time
samples, loop-fold calibration, probes and the transmit stamp queue; and what a part does with an accepted offset sample
(R128, R134 to R136). -/

namespace Sys2Proof.Machine

/-! ## Held stamps -/

/-- The stamp held for a flit, when one is. -/
def findStamp (tag : FlitTag) : List (FlitTag × Stamp) → Option Stamp
  | [] => none
  | (g, st) :: rest => if g = tag then some st else findStamp tag rest

/-- The stamps held for a flit leave. -/
def dropStamp (tag : FlitTag) (ls : List (FlitTag × Stamp)) : List (FlitTag × Stamp) := ls.filter fun e => e.1 != tag

/-! ## The Colander (R116) -/

/-- The causes for which a time sample is dropped, in the order in which they apply (R116). -/
inductive Drop where
  | malformed
  | uncal
  | missed
  | fuLost
  | stepped
  | remap
  | upstreamBad
  | resGate
  | notSettled
  | turnGate
  | delayGate
  | offsetGate
  deriving DecidableEq, Repr

/-- The drop counter of a cause counts (R116, R121). -/
def countDrop (r : LinkSubRegs) : Drop → LinkSubRegs
  | .malformed => { r with ptCol0Malformed := satInc r.ptCol0Malformed }
  | .uncal => { r with ptCol0Uncal := satInc r.ptCol0Uncal }
  | .missed => { r with ptCol0Missed := satInc r.ptCol0Missed }
  | .fuLost => { r with ptCol0FuLost := satInc r.ptCol0FuLost }
  | .stepped => { r with ptCol1Stepped := satInc r.ptCol1Stepped }
  | .remap => { r with ptCol1Remap := satInc r.ptCol1Remap }
  | .upstreamBad => { r with ptCol1UpstreamBad := satInc r.ptCol1UpstreamBad }
  | .resGate => { r with ptCol1ResGate := satInc r.ptCol1ResGate }
  | .notSettled => { r with ptCol2NotSettled := satInc r.ptCol2NotSettled }
  | .turnGate => { r with ptCol2TurnGate := satInc r.ptCol2TurnGate }
  | .delayGate => { r with ptCol2DelayGate := satInc r.ptCol2DelayGate }
  | .offsetGate => { r with ptCol2OffsetGate := satInc r.ptCol2OffsetGate }

/-- A time sample is dropped and counted once (R116). -/
def dropSample (s : State) (l : LinkId) (d : Drop) : State := modLinkRegs s l fun r => countDrop r d

/-- The first cause in a list whose condition holds. -/
def firstCause : List (Bool × Drop) → Option Drop
  | [] => none
  | (b, d) :: rest => if b then some d else firstCause rest

/-- What is wrong with a single stamp (R116). -/
def stampCauses (st : Option Stamp) : List (Bool × Drop) :=
  match st with
  | none => [(true, .missed)]
  | some st => [(st.uncal, .uncal), (st.missed, .missed)]

/-- The causes of two stamps in the order of R116: a tick step, a move of logical lane 0 or a write of PT_EXT that lies between
them, wherever the present tick and lane stand. -/
def pairCauses (a b : Option Stamp) : List (Bool × Drop) :=
  let gone (x : Option Stamp) : Bool := match x with | none => true | some st => st.missed
  let un (x : Option Stamp) : Bool := match x with | none => false | some st => st.uncal
  let sg (x : Option Stamp) : Nat := match x with | none => 0 | some st => st.stepGen
  let mg (x : Option Stamp) : Nat := match x with | none => 0 | some st => st.moveGen
  [(un a || un b, .uncal), (gone a || gone b, .missed), (sg a != sg b, .stepped), (mg a != mg b, .remap)]

/-- Whether the lane that carries logical lane 0 holds a passed calibration (R113). -/
def State.laneReady (s : State) (l : LinkId) : Bool := (s.laneCal l.part l.port (s.lane0 l)).passed

/-- A time flit that comes in while the lane of logical lane 0 has no passed calibration is dropped as NOT_SETTLED, with the stamp
of it where it has one (R113). -/
def onTime (s : State) (l : LinkId) (tag : Option FlitTag) (f : State → State) : State :=
  if s.laneReady l then f s
  else modLink (dropSample s l .notSettled) l fun k => { k with rx := match tag with | some g => dropStamp g k.rx | none => k.rx }

/-- Whether a stamping point is still converting the edge of a flit. -/
def converting (s : State) (k : Point) (tag : FlitTag) : Bool := (s.point k).pending.any fun c => c.tag == tag

/-- An offset sample of a link is dropped; any cause but OFFSET_GATE ends the run of R131. -/
def dropOffset (s : State) (l : LinkId) (d : Drop) : State := modLink (dropSample s l d) l fun k => { k with offRun := 0 }

/-! ## Accepted offset samples -/

/-- The OFFSET_GATE value of a link in units of 2^-16 ns (R121: units of 2^-4 ns). -/
def offsetGate (r : LinkSubRegs) : Int := r.ptGatesOffsetGate.toNat * 4096

/-- 3 ns and 1.5 ns in units of 2^-16 ns (R135, R136). -/
def ns3 : Int := 196608

def ns15 : Int := 98304

/-- The TSU compares the planes at an accepted sample (R135): a difference beyond 3 ns marks the plane farther from zero, on
a tie plane B; 1,024 comparisons within 1.5 ns clear the mark. A marked lead plane is left when it can be (R134). -/
def planeCompare (s : State) : State :=
  match s.fresh? linkA, s.fresh? linkB with
  | some a, some b =>
    let d := a - b
    let s := modServoRegs s .tsu fun r => { r with planeCmpDiff := BitVec.ofInt 48 d }
    if d.natAbs > 196608 then
      let onB := decide (b.natAbs ≥ a.natAbs)
      let s := modServo s .tsu fun v => { v with
        agree := 0
        regs := { v.regs with planeCmpFaults := satInc v.regs.planeCmpFaults
                              servoStatusFaultA := v.regs.servoStatusFaultA || !onB
                              servoStatusFaultB := v.regs.servoStatusFaultB || onB } }
      let s := setCause s .tsu .servo 3
      let s := timeFault s .tsu 5 [sField 64 a, sField 64 b, (8, onB.toNat)]
      if s.tsu.sh.servo.regs.servoStatusLead = onB then (leadMove s).2 else s
    else if d.natAbs ≤ 98304 then
      modServo s .tsu fun v =>
        if v.agree + 1 ≥ 1024 then
          { v with agree := 0, regs := { v.regs with servoStatusFaultA := false, servoStatusFaultB := false } }
        else { v with agree := v.agree + 1 }
    else modServo s .tsu fun v => { v with agree := 0 }
  | _, _ => s

/-- The latest accepted samples of a row hub's UP ports other than its input (R136). -/
def otherUps (s : State) (l : LinkId) : List (LinkId × Int) :=
  ((s.roleLinks 2).filter (· != l)).filterMap fun k => (s.link k).latest.map fun x => (k, x.1)

/-- A port that the vote finds wrong is counted and named in EV_TIME_FAULT (R136). -/
def votedOut (s : State) (port : BitVec 7) : State :=
  setCause (timeFault (modServoRegs s .hub fun r => { r with planeCmpFaults := satInc r.planeCmpFaults }) .hub 6
    [(8, port.toNat)]) .hub .servo 3

/-- The row hub's vote at an accepted sample on its input (R136): its two cases are looked at on their own, and an outvoted input
takes a hub in AUTO to HOLDOVER from whatever state it is in. -/
def rowVote (s : State) (l : LinkId) (th : Int) : State :=
  let os := otherUps s l
  let far (a b : Int) : Bool := decide ((a - b).natAbs > 196608)
  let near (a b : Int) : Bool := decide ((a - b).natAbs ≤ 98304)
  let outvoted := os.any fun x => os.any fun y => x.1 != y.1 && far th x.2 && far th y.2 && near x.2 y.2
  let bad := os.filter fun x => far th x.2 && os.any fun y => x.1 != y.1 && far x.2 y.2 && near th y.2
  let s := if outvoted then
      let s := votedOut (modServo s .hub fun v => { v with agree := 0, voted := true }) l.port
      if s.hub.sh.servo.regs.servoCtrlMode == 0 && s.servoState .hub != 3 then enterHoldover s .hub else s
    else modServo s .hub fun v =>
      if v.voted then
        if os.all (fun x => near th x.2) then
          if v.agree + 1 ≥ 1024 then { v with agree := 0, voted := false } else { v with agree := v.agree + 1 }
        else { v with agree := 0 }
      else v
  bad.foldl (fun s x => votedOut s x.1.port) s

/-- The TSU's lead plane after reset (R134): that of the first accepted sample, but A where A's first sample follows B's within one
sample interval. -/
def chooseLead (s : State) (l : LinkId) (first : Bool) : State :=
  let v := s.tsu.sh.servo
  let cyc := s.tsu.sh.tb.cycles
  let same := first && l.port == 0 && v.regs.servoStatusLead && !v.regs.servoCtrlLeadForceEn &&
    v.ledAt.any fun c => decide ((cyc - c).toNat * 2 ^ s.rateExp l < 1000000000)
  if v.led && !same then s
  else modServo s .tsu fun v => { v with
    led := true, ledAt := some cyc, regs := { v.regs with servoStatusLead := l.port == 1 } }

/-- An accepted offset sample of a link (R107, R127, R128, R134 to R136): it is kept, it enters the gate's window while the
part is LOCKED, planes are compared or voted on, and on the servo input it steers the servo. PT_OFFSET shows the low 48 bits of
one that does not fit. DESIGN CHOICE for that: log entry 69. -/
def acceptTheta (s : State) (l : LinkId) (th : Int) : State :=
  let p := l.part
  let now := s.now p
  let locked := s.servoState p == 2
  let first := (s.link l).latest.isNone
  let s := modLink s l fun k => { k with
    regs := { k.regs with ptOffset := BitVec.ofInt 48 th }
    latest := some (th, now)
    offRun := 0
    win := if locked then (k.win ++ [th]).drop (if k.win.length < 16 then 0 else 1) else k.win }
  let s := match p with
    | .tsu => leadCheck (planeCompare (chooseLead s l first))
    | .hub => if s.tier == 1 && s.isInput l then rowVote s l th else s
  if s.isInput l then servoSample s p (s.rateExp l) (offsetGate (s.link l).regs) th else s

/-! ## Delay exchange (R101, R102) -/

/-- Whether a link's port receives SYNC from its partner (R101, R104): a TSU link, a leaf hub's UP port to a row hub of its plane,
a row hub's UP port, and a hall hub's port to the master. -/
def State.receivesSync (s : State) (l : LinkId) : Bool :=
  match l.part, s.tier with
  | .tsu, _ => true
  | .hub, 0 => s.role l == 2 && planeOf (s.seen l) == planeOf s.hub.id.hubAddr
  | .hub, 1 => s.role l == 2
  | .hub, 2 => !s.hub.ref.regs.masterStatusIsMaster && (s.role l == 3 || s.role l == 4) &&
      s.seen l == s.hub.sh.servo.regs.servoMaster
  | .hub, _ => false

/-- DREQ_SEND (R101): a port that receives SYNC sends a DREQ. -/
def execDreqSend (l : LinkId) (s : State) : Host.Outcome State Fault Refusal :=
  let k := s.link l
  if k.active && k.regs.ptCtrlTimeEn && s.receivesSync l then
    let s := modLink s l fun k => { k with exch := some k.dseq, exchAnswered := false, dseq := k.dseq + 1 }
    .next (sendLink s l none (.dreq ⟨k.dseq⟩))
  else .next s

/-- DREQ_RECEIVE (R101, R461): a part that is ready answers with DRESP, on a link with TIME_EN = 0 too. DESIGN CHOICE for that:
log entry 69. -/
def execDreqReceive (l : LinkId) (m : DreqP) (s : State) : Host.Outcome State Fault Refusal :=
  .next (onTime s l (some (.dreq m.dseq)) fun s =>
    if s.partReady l.part then
      sendLink (modLink s l fun k => { k with resp := k.resp ++ [m.dseq] }) l none (.dresp ⟨m.dseq⟩)
    else s)

/-- DRESP_FU_SEND (R101): once both stamps have converted, the partner sends TURN, the corrected turnaround, with BAD when
its stamps are not usable. -/
def execDrespFuSend (l : LinkId) (dseq : BitVec 16) (s : State) : Host.Outcome State Fault Refusal :=
  let k := s.link l
  match findStamp (.dreq dseq) k.rx, findStamp (.dresp dseq) k.tx with
  | some a, some b =>
    if k.resp.contains dseq then
      let bad := (firstCause (pairCauses (some a) (some b))).isSome
      let (ltx, lrx) := s.latency l
      let turn : Int := (b.t + ltx) - (a.t - lrx)
      let s := modLink s l fun k => { k with
        resp := k.resp.filter (· != dseq), rx := dropStamp (.dreq dseq) k.rx, tx := dropStamp (.dresp dseq) k.tx }
      .next (sendLink s l none (.drespFu { dseq := dseq, bad := bad, turn := BitVec.ofInt 32 turn }))
    else .next s
  | _, _ => .next s

/-- DRESP_RECEIVE (R101): the answer to the outstanding DREQ has arrived; its stamp is the receive point's. -/
def execDrespReceive (l : LinkId) (m : DrespP) (s : State) : Host.Outcome State Fault Refusal :=
  .next (onTime s l (some (.dresp m.dseq)) fun s =>
    if (s.link l).exch = some m.dseq then modLink s l fun k => { k with exchAnswered := true } else s)

/-- The delay filter takes a sample (R102). -/
def delayUpdate (k : Link) (d : Int) : Link :=
  let f := 2 ^ k.regs.ptCtrlFilt.toNat
  if k.regs.ptDelaySettled then
    let old := k.regs.ptDelay.toInt
    { k with regs := { k.regs with ptDelay := BitVec.ofInt 48 (old + (d - old) / f) }, gateDrops := 0 }
  else
    let n := k.dcount + 1
    let sum := k.dsum + d
    { k with dcount := n, dsum := sum, gateDrops := 0,
             regs := { k.regs with ptDelay := BitVec.ofInt 48 (sum / n), ptDelaySettled := decide (n ≥ f) } }

/-- The initiator forms a delay sample, which the Colander drops or the filter takes (R102, R116). A drop for a cause other than
the gate leaves the run of gate drops as it stands. DESIGN CHOICE for that: log entry 69. -/
def takeDrespFu (s : State) (l : LinkId) (m : DrespFuP) : State :=
  let k := s.link l
  if k.exch = some m.dseq then
    let t3 := findStamp (.dreq m.dseq) k.tx
    let t6 := findStamp (.dresp m.dseq) k.rx
    let (ltx, lrx) := s.latency l
    let d : Int := match t3, t6 with
      | some a, some b => (((b.t - lrx) - (a.t + ltx)) - m.turn.toNat) / 2
      | _, _ => 0
    let r := k.regs
    let gate : Int := r.ptGatesDelayGate.toNat * 4096
    let cause := firstCause (pairCauses t3 t6 ++
      [(m.bad, .upstreamBad), (!s.laneReady l, .notSettled),
       (r.ptGatesTurnMax != 0 && decide (m.turn.toNat > r.ptGatesTurnMax.toNat * 65536), .turnGate),
       (r.ptDelaySettled && r.ptGatesDelayGate != 0 && decide ((d - r.ptDelay.toInt).natAbs > gate.natAbs), .delayGate)])
    let s := modLink s l fun k => { k with
      exch := none, exchAnswered := false, tx := dropStamp (.dreq m.dseq) k.tx, rx := dropStamp (.dresp m.dseq) k.rx }
    match cause with
    | none => modLink s l fun k => delayUpdate k d
    | some .delayGate => modLink (dropSample s l .delayGate) l fun k => { k with gateDrops := k.gateDrops + 1 }
    | some c => dropSample s l c
  else dropSample s l .missed

/-- DRESP_FU_RECEIVE (R102, R116): it waits while a stamp of its exchange is still being converted. -/
def execDrespFuReceive (l : LinkId) (m : DrespFuP) (s : State) : Host.Outcome State Fault Refusal :=
  .next (onTime s l (some (.dresp m.dseq)) fun s =>
    if converting s (.linkTx l) (.dreq m.dseq) || converting s (.linkRx l) (.dresp m.dseq) then
      modLink s l fun k => { k with waitDresp := k.waitDresp ++ [m] }
    else takeDrespFu s l m)

/-- DELAY_RESTART (R102): after 64 consecutive gate drops the port clears SETTLED and restarts the mean. -/
def execDelayRestart (l : LinkId) (s : State) : Host.Outcome State Fault Refusal :=
  if (s.link l).gateDrops ≥ 64 then
    .next (modLink s l fun k => { k with
      regs := { k.regs with ptDelaySettled := false }, dcount := 0, dsum := 0, gateDrops := 0,
      restarts := satInc k.restarts })
  else .next s

/-! ## SYNC (R103 to R110) -/

/-- The ports on which a part forwards (R104), all of them for ANNOUNCE (R109). -/
def treeLinks (s : State) : List LinkId :=
  let down := s.roleLinks 1
  match s.tier with
  | 2 => if s.hub.ref.regs.masterStatusIsMaster then down ++ s.roleLinks 3 ++ s.roleLinks 4 else down
  | 1 => down.filter fun l => decide (s.seen l != 0xFFFF) && tierOf (s.seen l) == 0 &&
      planeOf (s.seen l) == planeOf s.hub.id.hubAddr
  | _ => down

/-- The links on which a part forwards SYNC and SYNC_FU: those of R104 with TIME_EN set (R121). -/
def forwardLinks (s : State) : List LinkId := (treeLinks s).filter fun l => (s.link l).regs.ptCtrlTimeEn

/-- Whether a SYNC goes out on a link: its SEQ is a multiple of 2^(16 − RATE_EXP) (R104). -/
def seqForwarded (s : State) (l : LinkId) (seq : BitVec 16) : Bool := seq.toNat % 2 ^ (16 - s.rateExp l) == 0

/-- A SYNC that came in on `via` goes out on every forwarding link that its SEQ allows; its transmit stamp is awaited (R104,
R105). -/
def forwardSync (s : State) (seq : BitVec 16) (via : Option LinkId) : State :=
  (forwardLinks s).foldl (fun s l =>
    if seqForwarded s l seq then
      sendLink (modLink s l fun k => { k with
        fwd := (k.fwd ++ [({ seq := seq, gen := k.moveGen, via := via } : FwdSync)]).drop (if k.fwd.length < 4 then 0 else 1) }) l none (.sync ⟨seq⟩)
    else s) s

/-- The time-path units' vote on a value of the master (R391): one that disagrees is charged with EV_TIME_FAULT SUB 10; when
all differ the master stops originating. -/
def timePathVote (s : State) (v : TimeVote) : State :=
  match v with
  | .agree => s
  | .odd u =>
    let unit : BitVec 16 := 0x4000 ||| u.setWidth 16
    chargeUnit (timeFault s .hub 10 [(16, unit.toNat)]) unit 0xFF
  | .split => modHub (timeFault s .hub 10 [(16, 0xFFFF)]) fun h => { h with ref := { h.ref with halted := true } }

/-- Whether a master has reached the tick of a handover it plans, from which it originates nothing (R141). -/
def handedOver (s : State) : Bool :=
  s.hub.ref.nextMaster != 0xFFFF && decide (s.hub.ref.handoverAt.toNat ≤ (s.now .hub).toNat)

/-- SYNC_ORIGIN (R103, R105, R141): the master originates a SYNC at the present island cycle, with SRC_VALID 0 while its VALID is 0
(R98). -/
def execSyncOrigin (vote : TimeVote) (s : State) : Host.Outcome State Fault Refusal :=
  if s.hub.ref.regs.masterStatusIsMaster && !s.hub.ref.halted && !handedOver s then
    let s := timePathVote s vote
    if s.hub.ref.halted then .next s
    else
      let tb := s.hub.sh.tb
      let seq := s.hub.ref.seq
      let fu : SyncFuP := {
        seq := seq, hops := 0, bad := false, srcValid := tb.regs.statusValid
        srcHoldover := tb.regs.statusHoldover, master := s.hub.id.hubAddr, originTick := tb.tick.setWidth 32
        originFrac := tb.frac.extractLsb' 32 16, corr := 0 }
      let r : Stamp := { t := s.timeU .hub, stepGen := tb.stepGen }
      let s := modHub s fun h => { h with
        ref := { h.ref with seq := seq + 1, lastOrigin := some tb.tick }
        sh := { h.sh with fus := ({ fu := fu, r := r, dIn := 0, badIn := false } :: h.sh.fus).take 8 } }
      .next (forwardSync s seq none)
  else .next s

/-- A SYNC that waits for its SYNC_FU is forgotten with its stamp (R106, R110, R116). -/
def forgetSync (s : State) (l : LinkId) (seq : BitVec 16) : State :=
  modLink s l fun k => { k with
    syncs := k.syncs.filter (· != seq), rx := dropStamp (.sync seq) k.rx, waitFu := k.waitFu.filter fun m => m.seq != seq }

/-- SYNC_RECEIVE (R104, R110, R132): the port holds the SYNC's stamp for its SYNC_FU, at most two at once, and on the time
parent a LOCKED hub forwards it. -/
def execSyncReceive (l : LinkId) (m : SyncP) (s : State) : Host.Outcome State Fault Refusal :=
  .next (onTime s l (some (.sync m.seq)) fun s =>
    let k := s.link l
    let old := k.syncs.headD 0
    let s := if k.syncs.length < 2 then s
      else if old = m.seq then dropOffset (modLink s l fun k => { k with syncs := k.syncs.drop 1 }) l .fuLost
      else dropOffset (forgetSync s l old) l .fuLost
    let s := modLink s l fun k => { k with syncs := k.syncs ++ [m.seq] }
    if l.part = .hub && s.isInput l && s.servoState .hub == 2 then forwardSync s m.seq (some l) else s)

/-- What a part extends ORIGIN_TICK against (R108): its own tick while VALID is 1, else ORIGIN64 of the latest ANNOUNCE, if it
holds one. -/
def fuBase (s : State) (p : Part) : Option Tick :=
  if s.valid p then some (s.now p) else (s.sh p).ann.map fun a => a.origin64

/-- The origin of a SYNC_FU in units of 2^-16 ns (R63, R108): none while nothing is held to extend it against, or where the full
tick would be negative. -/
def fuOrigin (s : State) (p : Part) (m : SyncFuP) : Option Int :=
  (fuBase s p).bind fun b => (extendWire m.originTick b).map fun t => (t.toNat : Int) * 65536 + m.originFrac.toNat

/-- The value that the OFFSET_GATE test expects on a link (R128): the mean of its last 16 samples, none until it holds 16.
-/
def expectedTheta (k : Link) : Option Int := if k.win.length < 16 then none else some (k.win.foldl (· + ·) 0 / 16)

/-- The follow-up of a held SYNC (R105 to R108, R116): on the time parent it is held for forwarding; the part forms an offset sample,
which the Colander drops under its first cause, or R63 refuses as PAST, or the part accepts. -/
def takeSyncFu (s : State) (l : LinkId) (m : SyncFuP) : State :=
  let p := l.part
  let k := s.link l
  let st := findStamp (.sync m.seq) k.rx
  let d := k.regs.ptDelay.toInt
  let (_, lrx) := s.latency l
  let r : Stamp := match st with
    | some x => { x with t := x.t - lrx }
    | none => { missed := true }
  let s := forgetSync s l m.seq
  let s := if p = .hub && s.isInput l then
      modSh s .hub fun h => { h with
        fus := ({ fu := m, r := r, dIn := d, badIn := !k.regs.ptDelaySettled, via := some l } :: h.fus).take 8 }
    else s
  let origin := fuOrigin s p m
  let th : Int := r.t - (origin.getD 0 + m.corr.toInt + d)
  let off : Bool := match expectedTheta k with
    | some x => s.servoState p == 2 && k.regs.ptGatesOffsetGate != 0 && decide ((th - x).natAbs > (offsetGate k.regs).natAbs)
    | none => false
  let cause := firstCause (stampCauses st ++
    [(m.bad || !m.srcValid, .upstreamBad), (!k.regs.ptDelaySettled || !s.laneReady l || (fuBase s p).isNone, .notSettled),
     (origin.isSome && off, .offsetGate)])
  match cause with
  | none => if origin.isSome then acceptTheta s l th else countPast s p
  | some .offsetGate => modLink (dropSample s l .offsetGate) l fun k => { k with offRun := k.offRun + 1, lastDropped := th }
  | some c => dropOffset s l c

/-- SYNC_FU_RECEIVE (R105 to R108, R110, R116): it waits while the stamp of its SYNC is still being converted. -/
def execSyncFuReceive (l : LinkId) (m : SyncFuP) (s : State) : Host.Outcome State Fault Refusal :=
  .next (onTime s l none fun s =>
    if m.hops.toNat > 6 then dropOffset (forgetSync s l m.seq) l .malformed
    else if !(s.link l).syncs.contains m.seq then dropOffset s l .fuLost
    else if converting s (.linkRx l) (.sync m.seq) then modLink s l fun k => { k with waitFu := k.waitFu ++ [m] }
    else takeSyncFu s l m)

/-- SYNC_FU_FORWARD (R105, R106): once the stamp of a forwarded SYNC has converted, its follow-up leaves with the outgoing
correction and one more hop; BAD is set, and its cause counted, when the correction cannot be formed. A hub that is no longer
LOCKED sends none (R132). -/
def execSyncFuForward (l : LinkId) (seq : BitVec 16) (vote : TimeVote) (s : State) : Host.Outcome State Fault Refusal :=
  let k := s.link l
  let master := s.hub.ref.regs.masterStatusIsMaster
  match s.hub.sh.fus.find? (fun f => f.fu.seq == seq), k.fwd.find? (fun w => w.seq == seq), findStamp (.sync seq) k.tx with
  | some f, some w, some x =>
    let s := modLink s l fun k => { k with fwd := k.fwd.filter fun w => w.seq != seq, tx := dropStamp (.sync seq) k.tx }
    if l.part = .tsu || !(master || s.servoState .hub == 2) then .next s
    else
      let res : Int := (x.t + (s.latency l).1) - f.r.t
      let moved := (f.via.isSome && x.inGen != f.r.moveGen) || x.moveGen != w.gen
      let cause := firstCause [(f.r.uncal || x.uncal, .uncal), (f.r.missed || x.missed, .missed),
        (x.stepGen != f.r.stepGen, .stepped), (moved, .remap),
        (k.regs.ptGatesResMax != 0 && decide (res > k.regs.ptGatesResMax.toNat * 65536), .resGate), (f.badIn, .notSettled)]
      let s := timePathVote s (if master then vote else .agree)
      let s := match cause with | some c => dropSample s l c | none => s
      .next (sendLink s l none (.syncFu { f.fu with
        hops := if f.fu.master = s.hub.id.hubAddr then 0 else f.fu.hops + 1
        bad := f.fu.bad || cause.isSome
        corr := BitVec.ofInt 48 (f.fu.corr.toInt + f.dIn + res) }))
  | _, _, _ => .next s

/-- FU_TIMEOUT (R106): no SYNC_FU within 12 µs of a SYNC; its stamp is discarded as FU_LOST. -/
def execFuTimeout (l : LinkId) (seq : BitVec 16) (s : State) : Host.Outcome State Fault Refusal :=
  let k := s.link l
  if k.syncs.contains seq && !k.waitFu.any (fun m => m.seq == seq) then .next (dropOffset (forgetSync s l seq) l .fuLost)
  else .next s

/-! ## Calibration (R111 to R114) -/

/-- The physical lanes a link page has: five on a hub port, two on a TSU link (R522). -/
def lanesOf : Part → List (BitVec 3)
  | .hub => [0, 1, 2, 3, 4]
  | .tsu => [0, 1]

/-- A lane is folded and its calibration begins (R111, R112). -/
def startCal (c : LaneCal) : LaneCal :=
  { c with busy := true, want := false, word := foldedWord false, tTx := none, tPad := none, tRx := none, tx := {}, rx := {} }

/-- The sub-port position whose registers show a lane's calibration: the lane's own position on a split port, position 0
otherwise. DESIGN CHOICE: log entry 15. -/
def calSub (s : State) (p : Part) (port : BitVec 7) (lane : BitVec 3) : LinkId :=
  let g := s.page p port
  ⟨p, port, if p = .hub && g.role.portRoleSplit && decide (lane.toNat < 4) then lane.setWidth 2 else 0⟩

/-- Whether a part has a link page. -/
def onLinkPage (i : Iface) (port : BitVec 7) (s : State) (f : Bool × State) : Bool × State :=
  match (Page.link port).ordinal i.part with
  | some _ => f
  | none => refused s i.part (strayPage i.part)

/-- A link in IDENT sends HELLO (R466, R457). -/
def sendHello (s : State) (l : LinkId) : State :=
  let tsuEnd := l.part = .tsu
  let ident : BitVec 32 := if tsuEnd then 0x00030001 else 0xBD72B120
  let ep : BitVec 24 := (s.hub.id.hubAddr.extractLsb' 7 6 ++ s.hub.id.hubAddr.extractLsb' 3 4 ++
    (BitVec.ofNat 8 (4 * l.port.toNat + l.sub.toNat)) ++ (0 : BitVec 6)).setWidth 24
  let s := modLink s l fun k => { k with helloSent := true }
  sendLink s l none (.hello {
    ver := if tsuEnd then 4 else s.hub.id.linkVersionVer
    verMin := if tsuEnd then 3 else s.hub.id.linkVersionVerMin
    kind := decide tsuEnd
    addr := if tsuEnd then 0xFFFF else s.hub.id.hubAddr
    role := if tsuEnd then 0 else s.role l
    subport := l.sub
    ep := if tsuEnd then 0 else ep
    ident := ident
    fw := if tsuEnd then 0 else s.hub.fw.fwRunning
    cred := credField (fullCredit s l)
    spw := (s.link l).regs.lkCtrlSpwEn })

/-- The links of a port that are in a training state. -/
def portLinks (p : Part) (port : BitVec 7) : List LinkId :=
  match p with
  | .hub => [⟨.hub, port, 0⟩, ⟨.hub, port, 1⟩, ⟨.hub, port, 2⟩, ⟨.hub, port, 3⟩]
  | .tsu => [⟨.tsu, port, 0⟩]

/-! ## Probes (R118, R119) -/

/-- The sub-port that an interface's PT_SEL names on a page (R120): a port that is not split has position 0 only.
-/
def State.ptLink (s : State) (i : Iface) (port : BitVec 7) : LinkId :=
  ⟨i.part, port, if i.part = .hub && (s.page .hub port).role.portRoleSplit then (tget {} (s.iface i).ports port.toNat).ptSel else 0⟩

/-- PT_PROBE_WRITE (R118, R466): the port sends one PROBE with the written TSID, on the sub-port that PT_SEL names; on a
link that negotiated version 3 the write is refused, on one that is not in service it is accepted and nothing is sent. DESIGN
CHOICE for that: log entry 69. -/
def ptProbeWrite (i : Iface) (port : BitVec 7) (v : Word) (s : State) : Bool × State :=
  let p := i.part
  let l := s.ptLink i port
  if (s.link l).regs.lkStateVersion == 3 then refused s p (.link port)
  else accept (sendLink s l none (.probe { tsid := getF v 0 8, echo := getB v 8 }))

/-- PT_PROBE_WRITE (R118). -/
def execPtProbeWrite (i : Iface) (port : BitVec 7) (data : Word) (s : State) : Host.Outcome State Fault Refusal :=
  ackWrite i s (onLinkPage i port s (ptProbeWrite i port data s))

/-- With ECHO the partner answers a PROBE with its corrected receive stamp (R118). -/
def takeProbe (s : State) (l : LinkId) (m : ProbeP) : State :=
  let tag : FlitTag := .probe m.tsid m.echo
  match findStamp tag (s.link l).rx with
  | some st =>
    let s := modLink s l fun k => { k with rx := dropStamp tag k.rx }
    if m.echo && !st.missed then
      let t := st.t - (s.latency l).2
      sendLink s l none (.probeEcho { tsid := m.tsid, rxTick := BitVec.ofInt 32 (t / 65536), rxFrac := BitVec.ofInt 16 t })
    else s
  | none => s

/-- PROBE_RECEIVE (R118): the answer waits while the PROBE's stamp is still being converted. -/
def execProbeReceive (l : LinkId) (m : ProbeP) (s : State) : Host.Outcome State Fault Refusal :=
  .next (onTime s l (some (.probe m.tsid m.echo)) fun s =>
    if converting s (.linkRx l) (.probe m.tsid m.echo) then modLink s l fun k => { k with waitProbe := k.waitProbe ++ [m] }
    else takeProbe s l m)

/-- PROBE_ECHO_RECEIVE (R118, R119): the partner's stamp, extended to 64 bits, enters the queue as KIND 1. -/
def execProbeEchoReceive (l : LinkId) (m : ProbeEchoP) (s : State) : Host.Outcome State Fault Refusal :=
  .next (onTime s l none fun s =>
    match extendWire m.rxTick (s.now l.part) with
    | some t =>
      let e : TsqEntry := { kind := true, sub := l.sub, tsid := m.tsid, tick := t, frac := m.rxFrac }
      tsqFlush (modPage s l.part l.port fun g => { g with tsqWait := g.tsqWait ++ [⟨l.sub, 0, some e⟩] }) l.part l.port
    | none => countPast s l.part)

/-- A read of PT_TSQ_HEAD pops the head entry and latches PT_TSQ_TICK; an empty queue reads zero (R119, R121). -/
def ptTsqHeadRead (i : Iface) (port : BitVec 7) (s : State) : Word × State :=
  match (s.page i.part port).tsq with
  | [] => (0, s)
  | e :: rest =>
    (putB 63 true ||| putB 62 e.kind ||| putF 60 e.sub ||| putF 16 e.tsid ||| putF 0 e.frac,
     modPage s i.part port fun g => { g with tsq := rest, regs := { g.regs with ptTsqTick := e.tick } })

/-- PT_TSQ_HEAD_READ (R119). -/
def execPtTsqHeadRead (i : Iface) (port : BitVec 7) (s : State) : Host.Outcome State Fault Refusal :=
  ackRead i s (ptTsqHeadRead i port s)

/-! ## Conversions (R74, R75) -/

/-- What waited on a link for a stamp that has now been converted goes on (R101, R105, R118). -/
def wake (s : State) (l : LinkId) : State :=
  let k := s.link l
  let fu := k.waitFu.partition fun m => converting s (.linkRx l) (.sync m.seq)
  let dr := k.waitDresp.partition fun m =>
    converting s (.linkTx l) (.dreq m.dseq) || converting s (.linkRx l) (.dresp m.dseq)
  let pr := k.waitProbe.partition fun m => converting s (.linkRx l) (.probe m.tsid m.echo)
  let s := modLink s l fun k => { k with waitFu := fu.1, waitDresp := dr.1, waitProbe := pr.1 }
  let s := fu.2.foldl (fun s m => takeSyncFu s l m) s
  let s := dr.2.foldl (fun s m => takeDrespFu s l m) s
  pr.2.foldl (fun s m => takeProbe s l m) s

/-- A conversion's stamp is delivered (R75, R82, R119). -/
def deliverStamp (s : State) (k : Point) (tag : FlitTag) (st : Stamp) : State :=
  let s := keepFor s k tag st
  toEngines (match k with
    | .linkTx l => wake s l
    | .linkRx l => wake s l
    | _ => s) k st

/-- CONVERSION_DONE (R74, R75): converter 0 or 1 of a point, started by an island edge, has counted `n` fast cycles (1 to 512); its
stamp is delivered, with UNCAL while the cluster is not READY, and the converter is armed again. -/
def execConversionDone (k : Point) (second : Bool) (n : BitVec 10) (s : State) : Host.Outcome State Fault Refusal :=
  let pt := s.point k
  match if second then pt.conv1 else pt.conv0 with
  | none => .next s
  | some c =>
    if !c.started || n == 0 || decide (512 < n.toNat) then .next s
    else
      let ready := (s.sh k.part).vern.regs.vernReady.getLsbD k.cluster
      let st : Stamp := { t := stampOf c n.toNat (if second then pt.off1 else pt.off0), uncal := !ready, missed := false,
                          stepGen := c.stepGen, moveGen := c.moveGen, inGen := c.inGen, valid := c.valid, edge := c.edge }
      let s := modPoint s k fun q => if second then { q with conv1 := none } else { q with conv0 := none }
      .next (deliverStamp s k c.tag st)

end Sys2Proof.Machine
end

