-- ==== Sys2Proof/Machine/Servo.lean ====
section
/-! DEFINITION. The servo's modes and losses (R129 to R133), the time master among the hall hubs (R137 to R144), the
building reference (R145 to R151) and the PTP port (R152, R153). -/

namespace Sys2Proof.Machine

/-! ## Modes and losses of the servo -/

/-- HOLDOVER_ENTER (R129): the servo input of a LOCKED part is out of service or silent. A TSU first tries to move its lead
plane; otherwise the part enters HOLDOVER. The master's own loss is R149's. -/
def execHoldoverEnter (p : Part) (s : State) : Host.Outcome State Fault Refusal :=
  if s.servoState p != 2 then .next s
  else match p with
    | .tsu => let r := leadMove s; .next (if r.1 then r.2 else enterHoldover s .tsu)
    | .hub => .next (if s.hub.ref.regs.masterStatusIsMaster then s else enterHoldover s .hub)

/-- HOLD_LIMIT_EXPIRE (R130): HOLDOVER has lasted longer than HOLD_LIMIT_MS. The limit is not applied in FREEZE (R133) nor
to the master (R149). -/
def execHoldLimitExpire (p : Part) (s : State) : Host.Outcome State Fault Refusal :=
  let master := match p with | .hub => s.hub.ref.regs.masterStatusIsMaster | .tsu => false
  if s.servoState p == 3 && (s.sh p).servo.regs.servoCtrlMode != 1 && !master then
    .next (timeFault (enterFree s p) p 3 [])
  else .next s

/-- OFFSET_GATE_RUN (R131): after 256 consecutive OFFSET_GATE drops on its servo input a LOCKED part raises EV_TIME_FAULT
and acts on the last of them as on a return sample. -/
def execOffsetGateRun (p : Part) (s : State) : Host.Outcome State Fault Refusal :=
  match s.servoInput p with
  | some (.link l) =>
    let k := s.link l
    if s.servoState p == 2 && decide (k.offRun ≥ 256) then
      let s := modLink s l fun k => { k with offRun := 0 }
      .next (holdReturn (timeFault s p 4 [sField 64 k.lastDropped]) p (offsetGate k.regs) k.lastDropped)
    else .next s
  | _ => .next s

/-- What a new SERVO_CTRL.MODE does (R133): the mode before and the mode written. -/
def modeChange (s : State) (p : Part) (old new : BitVec 2) : State :=
  if old = new then s
  else match new.toNat with
    | 0 => if old = 2 then enterFree s p else s
    | 1 => enterHoldover s p
    | _ =>
      let s := modServo (clearValid s p) p fun v => { v with
        regs := { v.regs with servoStatusState := 4 }, good := 0, stepAt := none, tracking := false, voted := false }
      setRate s p (s.sh p).servo.regs.rateManual.toInt

/-- The lead plane that LEAD_FORCE fixes (R134). -/
def forceLead (s : State) (p : Part) : State :=
  let r := (s.sh p).servo.regs
  match p with
  | .hub => s
  | .tsu =>
    if r.servoCtrlLeadForceEn then
      let moved := r.servoStatusLead != r.servoCtrlLeadForce
      let s := modServo s .tsu fun v => { v with
        led := true, regs := { v.regs with servoStatusLead := v.regs.servoCtrlLeadForce } }
      if moved then setCause s .tsu .servo 4 else s
    else s

/-- A write of SERVO_CTRL (R133, R156): MODE 3, a HOLD_LIMIT_MS of 0 and a LOCK_THRESH of 0 are refused; LEAD_FORCE and
LEAD_FORCE_EN are the TSU's. -/
def servoCtrlWrite (i : Iface) (v : Word) (s : State) : Bool × State :=
  let p := i.part
  if getF v 0 2 = 3 ∨ getF v 48 16 = 0 ∨ getF v 16 16 = 0 then refused s p .servo
  else
    let old := (s.sh p).servo.regs.servoCtrlMode
    let v := match p with | .hub => v &&& ~~~(0x60#64) | .tsu => v
    let s := modServoRegs s p fun r => r.write 0x040 v
    let s := forceLead (modeChange s p old (getF v 0 2)) p
    let s := match p with | .tsu => leadCheck s | .hub => s
    accept (if getB v 7 then enterFree s p else s)

/-- SERVO_CTRL with MODE in place. -/
def withMode (v : Word) (m : BitVec 2) : Word := (v &&& ~~~3#64) ||| m.setWidth 64

/-- SERVO_MODE_AUTO (R133). -/
def execServoModeAuto (i : Iface) (data : Word) (s : State) : Host.Outcome State Fault Refusal :=
  ackWrite i s (servoCtrlWrite i (withMode data 0) s)

/-- SERVO_MODE_FREEZE (R133). -/
def execServoModeFreeze (i : Iface) (data : Word) (s : State) : Host.Outcome State Fault Refusal :=
  ackWrite i s (servoCtrlWrite i (withMode data 1) s)

/-- SERVO_MODE_MANUAL (R133). -/
def execServoModeManual (i : Iface) (data : Word) (s : State) : Host.Outcome State Fault Refusal :=
  ackWrite i s (servoCtrlWrite i (withMode data 2) s)

/-- REACQUIRE (R133): a write of SERVO_CTRL with REACQUIRE set. -/
def execReacquire (i : Iface) (data : Word) (s : State) : Host.Outcome State Fault Refusal :=
  ackWrite i s (servoCtrlWrite i (data ||| putB 7 true) s)

/-- A write of RATE_MANUAL (R156): the most negative word is refused; in MANUAL the rate word follows it (R126). -/
def rateManualWrite (i : Iface) (v : Word) (s : State) : Bool × State :=
  let p := i.part
  if getF v 0 40 = 0x8000000000 then refused s p .servo
  else
    let s := modServoRegs s p fun r => r.write 0x060 v
    accept (if s.servoState p == 4 then setRate s p (getF v 0 40).toInt else s)

/-! ## The time master (R137 to R144) -/

/-- The ranking key of a hall hub as one number: CLASS, then PRIO, then k (R139). -/
def rankKey (cls : BitVec 2) (prio : BitVec 8) (k : BitVec 2) : Nat := (cls.toNat * 256 + prio.toNat) * 4 + k.toNat

/-- The hub's own key. -/
def State.ownKey (s : State) : Nat :=
  rankKey s.hub.ref.regs.masterStatusClass s.hub.ref.regs.masterCfgPrio (hallIndex s.hub.id.hubAddr)

/-- The candidates heard, with their index k. -/
def State.candidates (s : State) : List (BitVec 2 × Heard) :=
  s.hub.ref.heard.filterMap fun e => e.2.map fun h => (BitVec.ofNat 2 e.1, h)

/-- The candidate heard with the best key (R139): a PRIO of 0xFF never becomes master. -/
def bestCandidate (cs : List (BitVec 2 × Heard)) : Option (BitVec 2 × Heard) :=
  cs.foldl (fun b c =>
    if c.2.prio = 0xFF then b
    else match b with
      | none => some c
      | some d => if rankKey c.2.cls c.2.prio c.1 < rankKey d.2.cls d.2.prio d.1 then some c else b) none

/-- The UTC fields that the master carries (R151): from the PTP Announce, or from REF_UTC. -/
def State.masterUtc (s : State) : BitVec 16 × Bool × Bool × Bool :=
  let r := s.hub.ref.regs
  match (if r.refCtrlRefSel = 3 then s.hub.ptp.foreign.head? else none) with
  | some f => (f.utcOffset, f.utcValid, f.leap61, f.leap59)
  | none => (r.refUtcUtcOffset, r.refUtcUtcValid, r.refUtcLi61, r.refUtcLi59)

/-- The SEQ and ORIGIN64 of an ANNOUNCE (R98): those of the last SYNC originated, and free while there is none. -/
def announceOrigin (s : State) : BitVec 16 × BitVec 64 × State :=
  match s.hub.ref.lastOrigin with
  | some t => (s.hub.ref.seq - 1, t, s)
  | none =>
    let (n, s) := s.fresh
    let x := Config.candidateOrigin n
    (x.extractLsb' 64 16, x.extractLsb' 0 64, s)

/-- The master's ANNOUNCE as its fields stand (R98, R137, R141). -/
def masterAnnounce (s : State) (seq : BitVec 16) (t : BitVec 64) : AnnounceP :=
  let r := s.hub.ref
  let (utc, uv, l61, l59) := s.masterUtc
  { seq := seq, origin64 := t, epochS := s.hub.sh.tb.regs.hallEpoch, master := s.hub.id.hubAddr, kind := false
    cls := r.regs.masterStatusClass, prio := r.regs.masterCfgPrio, gen := r.regs.masterStatusGen
    nextMaster := r.nextMaster, handoverTick := if r.nextMaster = 0xFFFF then 0 else r.handoverAt.setWidth 32
    utcOffset := utc, utcValid := uv, li61 := l61, li59 := l59 }

/-- A message goes out on every link of a list. -/
def sendAll (s : State) (ls : List LinkId) (m : Msg) : State := ls.foldl (fun s l => sendLink s l none m) s

/-- The master sends its ANNOUNCE on the ports of R104 and shows its own values in SERVO_MASTER and SERVO_UTC (R109,
R151). -/
def announceNow (s : State) : State :=
  let (seq, t, s) := announceOrigin s
  let a := masterAnnounce s seq t
  let s := modServoRegs s .hub fun r => { r with
    servoMaster := a.master, servoMasterGen := a.gen, servoMasterPrio := a.prio, servoMasterClass := a.cls
    servoUtcUtcValid := a.utcValid, servoUtcLi61 := a.li61, servoUtcLi59 := a.li59, servoUtcUtcOffset := a.utcOffset }
  sendAll s (treeLinks s) (.announce a)

/-- ANNOUNCE_SEND (R109): the master sends ANNOUNCE 16 times per second; one that R391 has stopped from originating sends none.
DESIGN CHOICE for that: log entry 69. -/
def execAnnounceSend (s : State) : Host.Outcome State Fault Refusal :=
  .next (if s.hub.ref.regs.masterStatusIsMaster && !s.hub.ref.halted then announceNow s else s)

/-- CANDIDATE_ANNOUNCE_SEND (R138): a hall hub that is not master sends its candidate ANNOUNCE on its PEER and TWIN ports.
`refOk` says whether its own reference has delivered accepted samples for the last 10 s. -/
def execCandidateAnnounceSend (refOk : Bool) (s : State) : Host.Outcome State Fault Refusal :=
  if s.tier == 2 && !s.hub.ref.regs.masterStatusIsMaster then
    let s := modHub s fun h => { h with ref := { h.ref with
      regs := { h.ref.regs with masterStatusClass := if refOk && h.ref.regs.refCtrlRefSel != 0 then 0 else 2 } } }
    let (n, s) := s.fresh
    let x := Config.candidateOrigin n
    let a := { masterAnnounce s (x.extractLsb' 64 16) (x.extractLsb' 0 64) with
      kind := true, nextMaster := 0xFFFF, handoverTick := 0 }
    .next (sendAll s (s.roleLinks 4 ++ s.roleLinks 3) (.announce a))
  else .next s

/-- The hub becomes master with a generation (R140, R141, R142). -/
def becomeMaster (s : State) (gen : BitVec 16) : State :=
  let s := modHub s fun h => { h with ref := { h.ref with
    regs := { h.ref.regs with masterStatusIsMaster := true, masterStatusGen := gen }
    lastOrigin := none, nextMaster := 0xFFFF, lossDetected := false, halted := false, started := true } }
  let s := modSh s .hub fun h => { h with ann := none }
  modServoRegs s .hub fun r => { r with
    servoMaster := s.hub.id.hubAddr, servoMasterGen := gen, servoMasterPrio := s.hub.ref.regs.masterCfgPrio
    servoMasterClass := s.hub.ref.regs.masterStatusClass }

/-- The hub stops being master and follows another hub (R141, R144). -/
def followMaster (s : State) (m : BitVec 16) (gen : BitVec 16) : State :=
  let s := modHub s fun h => { h with ref := { h.ref with
    regs := { h.ref.regs with masterStatusIsMaster := false, masterStatusGen := gen }, nextMaster := 0xFFFF } }
  modServoRegs s .hub fun r => { r with servoMaster := m, servoMasterGen := gen }

/-- A new master initialises its time (R147): PTP gives its seconds when a sample is held; otherwise it continues its own
count, from hall tick 0 when it starts from reset, that is when its tick has never been set. A step back happens with VALID 0
(R56). REF_TOD acts at the next 1PPS edge. -/
def initTime (s : State) : State :=
  let r := s.hub.ref
  match (if r.regs.refCtrlRefSel = 3 then r.last else none) with
  | some th =>
    let s := modHub s fun h => { h with ref := { h.ref with last := none } }
    stepTick (if s.valid .hub && decide (0 < th) then clearValid s .hub else s) .hub (-th)
  | none =>
    if r.started || s.hub.sh.tb.stepGen != 0 then s
    else modTb (clearValid s .hub) .hub fun t => { tbSet t 0 with stepGen := t.stepGen + 1 }

/-- The highest GEN among the candidates heard, in the order of 16-bit differences; 0 when none has been heard (R140). -/
def highestGen : List (BitVec 2 × Heard) → BitVec 16
  | [] => 0
  | c :: cs => cs.foldl (fun g c => if laterThan c.2.gen g then c.2.gen else g) c.2.gen

/-- MASTER_ELECT (R140): after its 100 ms of listening a hall hub whose island has locked, which holds no master ANNOUNCE and
whose key beats every candidate's, becomes master. -/
def execMasterElect (s : State) : Host.Outcome State Fault Refusal :=
  let r := s.hub.ref.regs
  let own := s.ownKey
  if s.tier == 2 && s.hub.sh.tb.regs.statusIslandLock && s.hub.sh.ann.isNone && r.masterCfgPrio != 0xFF &&
      s.candidates.all (fun c => decide (own < rankKey c.2.cls c.2.prio c.1)) &&
      !(r.masterStatusIsMaster && s.valid .hub) then
    let s := enterLocked (becomeMaster (initTime s) (highestGen s.candidates + 1)) .hub
    .next (announceNow s)
  else .next s

/-- The master plans a handover to a hall hub (R141): the tick is at least 64 ms ahead. -/
def planHandover (s : State) (k : BitVec 2) : State :=
  let (n, s) := s.fresh
  let t := s.now .hub + 64000000 + (Config.handoverSlack n).setWidth 64
  announceNow (modHub s fun h => { h with ref := { h.ref with nextMaster := hallAddr k, handoverAt := t } })

/-- Whether a handover to a hall hub is allowed: its candidate ANNOUNCE is at most 250 ms old and its PRIO is not 0xFF
(R141). -/
def handoverOk (s : State) (k : BitVec 2) : Bool :=
  match tget none s.hub.ref.heard k.toNat with
  | some h => h.prio != 0xFF && decide ((s.now .hub).toNat ≤ h.at_.toNat + 250000000)
  | none => false

/-- A write of MASTER_CFG (R141, R157). -/
def masterCfgWrite (i : Iface) (v : Word) (s : State) : Bool × State :=
  onPart .hub i s fun s =>
    let handover := getB v 2 && s.hub.ref.regs.masterStatusIsMaster
    if handover && !handoverOk s (getF v 0 2) then refused s .hub .ref
    else
      let s := modHub s fun h => { h with ref := { h.ref with regs := h.ref.regs.write 0x040 v } }
      accept (if handover then planHandover s (getF v 0 2) else s)

/-- MASTER_HANDOVER (R141): a write of MASTER_CFG with HANDOVER set. -/
def execMasterHandover (i : Iface) (data : Word) (s : State) : Host.Outcome State Fault Refusal :=
  ackWrite i s (masterCfgWrite i (data ||| putB 2 true) s)

/-- HANDOVER_AUTO (R141): a candidate's CLASS has been strictly better than the master's for 2 s; the candidate with the best
key becomes the target. -/
def execHandoverAuto (s : State) : Host.Outcome State Fault Refusal :=
  let r := s.hub.ref
  match bestCandidate s.candidates with
  | some c =>
    .next (if r.regs.masterStatusIsMaster && r.nextMaster == 0xFFFF && decide (c.2.cls.toNat < r.regs.masterStatusClass.toNat)
      then planHandover s c.1 else s)
  | none => .next s

/-- A planned handover is counted (R141). -/
def countHandover (s : State) : State :=
  modHub s fun h => { h with ref := { h.ref with
    regs := { h.ref.regs with masterStatusHandovers := satInc h.ref.regs.masterStatusHandovers } } }

/-- A planned handover whose tick has come (R141): the old master follows the new one, the target becomes master unless its PRIO
is 0xFF (R139), and a row hub moves its servo input. -/
def handoverReached (s : State) : State :=
  let r := s.hub.ref
  let now := s.now .hub
  if r.regs.masterStatusIsMaster then
    if r.nextMaster != 0xFFFF && decide (now.toNat ≥ r.handoverAt.toNat) then
      countHandover (followMaster s r.nextMaster (r.regs.masterStatusGen + 1))
    else s
  else match s.hub.sh.ann with
    | some a =>
      if a.nextMaster != 0xFFFF && decide (0 ≤ signedDiff (now.setWidth 32) a.handoverTick) && a.gen == r.regs.masterStatusGen then
        if a.nextMaster == s.hub.id.hubAddr && s.tier == 2 then
          if r.regs.masterCfgPrio = 0xFF then s else announceNow (countHandover (becomeMaster s (a.gen + 1)))
        else if s.tier == 1 then
          modHub (modServoRegs s .hub fun v => { v with servoMaster := a.nextMaster, servoMasterGen := a.gen + 1 })
            fun h => { h with ref := { h.ref with regs := { h.ref.regs with masterStatusGen := a.gen + 1 } } }
        else s
      else s
    | none => s

/-- HANDOVER_TICK_REACHED (R141). -/
def execHandoverTickReached (s : State) : Host.Outcome State Fault Refusal := .next (handoverReached s)

/-- MASTER_LOSS_DETECT (R142): for 1 ms neither an accepted sample nor a SYNC_FU of the master has arrived. -/
def execMasterLossDetect (s : State) : Host.Outcome State Fault Refusal :=
  if s.tier == 2 && !s.hub.ref.regs.masterStatusIsMaster && s.hub.sh.servo.regs.servoMaster != 0xFFFF then
    .next (modHub s fun h => { h with ref := { h.ref with lossDetected := true } })
  else .next s

/-- MASTER_TAKEOVER (R142): no ANNOUNCE of higher GEN came in the wait; the hub becomes master, announces at once and raises
EV_TIME_FAULT naming the lost master. -/
def execMasterTakeover (s : State) : Host.Outcome State Fault Refusal :=
  let r := s.hub.ref
  if r.lossDetected && !r.regs.masterStatusIsMaster && r.regs.masterCfgPrio != 0xFF then
    let lost := s.hub.sh.servo.regs.servoMaster
    let s := enterLocked (becomeMaster s (r.regs.masterStatusGen + 1)) .hub
    .next (timeFault (announceNow s) .hub 7 [(16, lost.toNat)])
  else .next s

/-- A part learns the epoch from its time parent (R55): a different one clears VALID until the part has locked under it. -/
def learnEpoch (s : State) (p : Part) (e : BitVec 48) : State :=
  let s := modTbRegs s p fun r => { r with statusEpochLearnt := true }
  if (s.sh p).tb.regs.hallEpoch = e then s
  else
    let s := loseTime s p
    modTb s p fun t => { t with epochMoved := true, regs := { t.regs with hallEpoch := e } }

/-- What a part shows of the master it follows (R151, R156). A hall hub that waits after a loss stops waiting only for a higher
GEN (R142). -/
def showMaster (s : State) (p : Part) (m : AnnounceP) : State :=
  let higher := laterThan m.gen (s.sh p).servo.regs.servoMasterGen
  let s := modSh s p fun h => { h with ann := some m }
  let s := modServoRegs s p fun r => { r with
    servoMaster := m.master, servoMasterGen := m.gen, servoMasterPrio := m.prio, servoMasterClass := m.cls
    servoUtcUtcValid := m.utcValid, servoUtcLi61 := m.li61, servoUtcLi59 := m.li59, servoUtcUtcOffset := m.utcOffset }
  match p with
  | .tsu => s
  | .hub => modHub s fun h => { h with ref := { h.ref with
      regs := { h.ref.regs with masterStatusGen := m.gen }, lossDetected := h.ref.lossDetected && !higher
      heard := if s.tier = 2 then tset none h.ref.heard (hallIndex m.master).toNat none else h.ref.heard } }

/-- A part that is not master takes a master ANNOUNCE (R55, R109, R143): one of no older generation than it follows. -/
def takeAnnounce (s : State) (l : LinkId) (m : AnnounceP) : State :=
  let p := l.part
  let old := decide (signedDiff m.gen (s.sh p).servo.regs.servoMasterGen < 0)
  if (s.sh p).servo.regs.servoMaster != 0xFFFF && old then s
  else
    let s := showMaster s p m
    let parent := s.isInput l || (p == .tsu && !s.tsu.sh.servo.led)
    if parent then
      let s := learnEpoch s p m.epochS
      match p with
      | .hub => sendAll s (treeLinks s) (.announce m)
      | .tsu => s
    else s

/-- A master hears another master's ANNOUNCE (R144): the planned successor takes over without an event; otherwise the lower
GEN, or at equal GEN the worse key, yields and raises EV_TIME_FAULT. -/
def masterHears (s : State) (l : LinkId) (m : AnnounceP) : State :=
  let r := s.hub.ref
  if m.master == r.nextMaster && m.gen == r.regs.masterStatusGen + 1 && decide ((s.now .hub).toNat ≥ r.handoverAt.toNat) then
    takeAnnounce (countHandover (followMaster s m.master m.gen)) l m
  else
    let d := signedDiff m.gen r.regs.masterStatusGen
    if d > 0 || (d == 0 && decide (rankKey m.cls m.prio (hallIndex m.master) < s.ownKey)) then
      takeAnnounce (timeFault (followMaster s m.master m.gen) .hub 8 [(16, m.master.toNat)]) l m
    else s

/-- ANNOUNCE_RECEIVE (R109, R138, R142 to R144, R151): a candidate's key is kept by a hall hub; a master's ANNOUNCE is
followed, forwarded, or contested by another master. A reserved CLASS is refused. -/
def execAnnounceReceive (l : LinkId) (m : AnnounceP) (s : State) : Host.Outcome State Fault Refusal :=
  if m.cls = 3 then .next (malformedFlit s l)
  else if !s.laneReady l then .next (dropSample s l .notSettled)
  else if m.kind then
    .next (match l.part with
      | .tsu => s
      | .hub =>
        if s.tier = 2 then
          let e : Heard := { cls := m.cls, prio := m.prio, gen := m.gen, at_ := s.now .hub }
          modHub s fun h => { h with ref := { h.ref with
            heard := tset none h.ref.heard (hallIndex m.master).toNat (some e) } }
        else s)
  else if l.part = .hub && s.hub.ref.regs.masterStatusIsMaster then
    .next (if m.master = s.hub.id.hubAddr then s else masterHears s l m)
  else .next (takeAnnounce s l m)

/-! ## Building reference (R145 to R150) -/

/-- The whole second nearest to a time in units of 2^-16 ns. -/
def nearestSecond (t : Int) : Int := (t + 32768000000000) / 65536000000000 * 65536000000000

/-- 100 ns in units of 2^-16 ns. -/
def ns100 : Int := 6553600

/-- The integer nearest to a time in periods of 100 ns (R146). -/
def nearest100 (t : Int) : Int := (t + 3276800) / 6553600

/-- The hub's own CLASS (R137). -/
def setClass (s : State) (c : BitVec 2) : State :=
  modHub s fun h => { h with ref := { h.ref with regs := { h.ref.regs with masterStatusClass := c } } }

/-- The master returns to CLASS 0 once its reference steers it: in AUTO, with its servo LOCKED (R149). -/
def steered (s : State) : State :=
  if s.hub.sh.servo.regs.servoCtrlMode == 0 && s.servoState .hub == 2 then setClass s 0 else s

/-- A sample of the selected reference (R124, R127, R145, R148, R149, R391): the master steers by it within REF_STEP_NS, and is
misaligned beyond; another hall hub only notes that its reference delivers. -/
def refSample (s : State) (e : Nat) (th : Int) (vote : TimeVote) : State :=
  let s := modHub s fun h => { h with ref := { h.ref with
    last := some th, regs := { h.ref.regs with refStatusRefOk := true } } }
  let r := s.hub.ref.regs
  if !r.masterStatusIsMaster then s
  else if th.natAbs > r.refCtrlRefStepNs.toNat * 65536 then
    let s := setClass (modHub s fun h => { h with ref := { h.ref with
      regs := { h.ref.regs with refStatusMisaligned := true } } }) 2
    timeFault (setCause s .hub .ref 1) .hub 9 [sField 64 th]
  else
    let s := timePathVote s vote
    let s := modHub s fun h => { h with ref := { h.ref with regs := { h.ref.regs with refStatusMisaligned := false } } }
    let s := modServoRegs s .hub fun v => { v with servoTheta := BitVec.ofInt 48 th }
    if s.hub.sh.servo.regs.servoCtrlMode != 0 then s
    else
      let s := if s.servoState .hub == 3 then enterLocked s .hub else s
      steered (if s.servoState .hub == 2 then piUpdate s .hub r.refKp.toNat r.refKi.toNat e th
        else if s.servoState .hub == 0 || s.servoState .hub == 1 then servoAcquire s .hub e r.refKp.toNat r.refKi.toNat th
        else s)

/-- REF_TOD names the TAI second of a 1PPS edge (R147): the master's tick moves by whole seconds, forward with VALID kept, or back
as R148 steps back, with VALID cleared for 10 ms (R56). A second before the hall epoch is refused as PAST (R69). -/
def loadTod (s : State) (edge : Int) : State :=
  let r := s.hub.ref.regs
  if r.refTodPending && r.masterStatusIsMaster && r.refCtrlRefSel != 3 then
    let want : Int := ((r.refTodSec.toNat : Int) - s.hub.sh.tb.regs.hallEpoch.toNat) * 65536000000000
    let s := modHub s fun h => { h with ref := { h.ref with regs := { h.ref.regs with refTodPending := false } } }
    if want < 0 then countPast s .hub
    else if want = edge then s
    else if edge < want || !s.valid .hub then stepTick s .hub (want - edge)
    else modTb (stepTick (clearValid s .hub) .hub (want - edge)) .hub fun t => { t with revalid := true }
  else s

/-- Whether a 1PPS edge disagrees with the 10 MHz phase held by more than 25 ns (R146). -/
def incoherent (phi : Option Int) (th : Int) : Bool :=
  match phi with
  | some phi => decide ((th - phi - ns100 * nearest100 (th - phi)).natAbs > 1638400)
  | none => false

/-- PPS_EDGE (R146, R147): the stamp of a 1PPS rising edge at a hall hub (R157). A stamp with UNCAL forms no sample, and an
edge that disagrees with the 10 MHz phase is dropped whole, REF_TOD with it. -/
def execPpsEdge (t : BitVec 80) (uncal : Bool) (vote : TimeVote) (s : State) : Host.Outcome State Fault Refusal :=
  let r := s.hub.ref.regs
  let x : Int := t.toNat - r.refInDelayPpsDelay.toInt
  let edge := nearestSecond x
  let th := x - edge
  if uncal || s.tier != 2 then .next s
  else if r.refCtrlRefSel = 1 && incoherent s.hub.ref.phi th then
    .next (modHub s fun h => { h with ref := { h.ref with
      regs := { h.ref.regs with refStatusIncoherent := satInc h.ref.regs.refStatusIncoherent } } })
  else
    let s := loadTod s edge
    if r.refCtrlRefSel = 2 then .next (refSample s 0 th vote)
    else if r.refCtrlRefSel = 1 then .next (modHub s fun h => { h with ref := { h.ref with pps := some th } })
    else .next s

/-- F10M_SAMPLE (R146): a 10 MHz phase in units of 2^-16 ns at a hall hub (R157). With PPS_10M the held 1PPS edge resolves its
period. -/
def execF10mSample (phase : BitVec 32) (vote : TimeVote) (s : State) : Host.Outcome State Fault Refusal :=
  let r := s.hub.ref.regs
  if r.refCtrlRefSel = 1 && s.tier == 2 then
    let phi := phase.toInt - r.refInDelayF10mDelay.toInt
    let s := modHub s fun h => { h with ref := { h.ref with phi := some phi } }
    match s.hub.ref.pps with
    | some pps => .next (refSample s 10 (phi + ns100 * nearest100 (pps - phi)) vote)
    | none => .next s
  else .next s

/-- REF_TOD_WRITE (R147): the TAI second of the next 1PPS edge; the write sets PENDING. -/
def refTodWrite (i : Iface) (v : Word) (s : State) : Bool × State :=
  onPart .hub i s fun s => accept (modHub s fun h => { h with ref := { h.ref with
    regs := { h.ref.regs.write 0x070 v with refTodPending := true } } })

/-- REF_TOD_WRITE (R147). -/
def execRefTodWrite (i : Iface) (data : Word) (s : State) : Host.Outcome State Fault Refusal :=
  ackWrite i s (refTodWrite i data s)

/-- The master steps onto its reference (R148): forward with VALID kept, or back with VALID cleared for 10 ms. -/
def refAlign (s : State) : State :=
  match s.hub.ref.last with
  | some th =>
    if s.hub.ref.regs.masterStatusIsMaster then
      let s := modHub s fun h => { h with ref := { h.ref with last := none } }
      if th < 0 then stepTick s .hub (-th)
      else if th > 0 then modTb (stepTick (clearValid s .hub) .hub (-th)) .hub fun t => { t with revalid := true }
      else s
    else s
  | none => s

/-- A reference newly selected has delivered nothing yet, and with none selected a hall hub is of CLASS 2 (R145). -/
def selectRef (s : State) : State :=
  let s := modHub s fun h => { h with ref := { h.ref with
    pps := none, phi := none, last := none, regs := { h.ref.regs with refStatusRefOk := false } } }
  if s.tier == 2 && s.hub.ref.regs.refCtrlRefSel == 0 then setClass s 2 else s

/-- A write of REF_CTRL (R145, R148, R157): REF_SEL 4 to 7 is reserved. -/
def refCtrlWrite (i : Iface) (v : Word) (s : State) : Bool × State :=
  onPart .hub i s fun s =>
    if getB v 2 then refused s .hub .ref
    else
      let was := s.hub.ref.regs.refCtrlRefSel
      let s := modHub s fun h => { h with ref := { h.ref with regs := h.ref.regs.write 0x050 v } }
      let s := if s.hub.ref.regs.refCtrlRefSel = was then s else selectRef s
      accept (if getB v 3 then refAlign s else s)

/-- REF_ALIGN (R148): a write of REF_CTRL with REF_ALIGN set. -/
def execRefAlign (i : Iface) (data : Word) (s : State) : Host.Outcome State Fault Refusal :=
  ackWrite i s (refCtrlWrite i (data ||| putB 3 true) s)

/-- REF_LOSS (R149): the selected reference is silent. The master raises EV_REF_LOSS, freezes its rate word, sets HOLDOVER,
keeps VALID and moves to CLASS 1. A master of CLASS 0 loses a reference newly selected that never delivers, too. -/
def execRefLoss (s : State) : Host.Outcome State Fault Refusal :=
  let r := s.hub.ref.regs
  if r.refStatusRefOk || (r.masterStatusIsMaster && r.masterStatusClass == 0 && r.refCtrlRefSel != 0) then
    let s := modHub s fun h => { h with
      ref := { h.ref with
        pps := none, phi := none, last := none
        regs := { h.ref.regs with
          refStatusRefOk := false, ptpStatusPortState := if r.refCtrlRefSel = 3 then 4 else h.ref.regs.ptpStatusPortState } }
      ptp := { h.ptp with havePair := false, syncSeq := none, pathCount := 0, pathSum := 0 } }
    if r.masterStatusIsMaster then
      let s := setClass (modHub s fun h => { h with ref := { h.ref with
        regs := { h.ref.regs with refStatusLosses := satInc h.ref.regs.refStatusLosses } } }) 1
      let s := setCause (raisePlain s .hub 0x0005 5 1 []) .hub .ref 0
      if s.servoState .hub == 2 then
        let valid := s.valid .hub
        let s := setRate s .hub (frozenRate s.hub.sh.servo.regs.servoInteg.toInt)
        let cyc := s.hub.sh.tb.cycles
        let s := modServo s .hub fun v => { v with regs := { v.regs with servoStatusState := 3 }, holdAt := cyc }
        .next (setCause (modTbRegs s .hub fun t => { t with statusHoldover := valid }) .hub .servo 1)
      else .next s
    else .next s
  else .next s

/-- REF_HOLD_EXPIRE (R149): after REF_HOLD_S in CLASS 1 the master moves to CLASS 2. -/
def execRefHoldExpire (s : State) : Host.Outcome State Fault Refusal :=
  let r := s.hub.ref.regs
  .next (if r.masterStatusIsMaster && r.masterStatusClass == 1 then setClass s 2 else s)

/-- The next multiple of a period at or after a time, both in units of 2^-16 ns. -/
def nextMultiple (t per : Int) : Int := -((-t) / per) * per

/-- Where an output edge falls, in units of 2^-16 ns (R150): the 1PPS edge on a whole second, its fall 100 µs later, the
10 MHz edges on multiples of 50 ns; advanced by OUT_ADJ and placed in steps of 1/512 ns. -/
def outEdgeAt (s : State) (pps rising : Bool) : Int :=
  let now := s.timeU .hub
  let r := s.hub.ref.regs
  let per : Int := if pps then 65536000000000 else 6553600
  let off : Int := if rising then 0 else if pps then 6553600000 else 3276800
  let adj := if pps then r.outAdjPpsAdj.toInt else r.outAdjF10mAdj.toInt
  let at_ := nextMultiple (now - off) per + off
  (at_ - adj) / 128 * 128

/-- An output pin takes a level, and its edge crosses the boundary. -/
def driveOut (s : State) (pps level : Bool) (tick : Tick) (frac : BitVec 48) : State :=
  emit (modHub s fun h => { h with ref := if pps then { h.ref with outPps := level } else { h.ref with outF10 := level } })
    (.refEdge pps level tick frac)

/-- REFERENCE_OUTPUT_EDGE (R150): the hub places an edge of its 1PPS or 10 MHz output from its own hall time. While VALID is
0 the outputs are low, but for a free-running 10 MHz output, whose phase is undefined. -/
def execReferenceOutputEdge (pps rising : Bool) (s : State) : Host.Outcome State Fault Refusal :=
  let r := s.hub.ref.regs
  if !r.outCtrlEn then .next s
  else if s.valid .hub then
    let t := outEdgeAt s pps rising
    .next (driveOut s pps rising (BitVec.ofInt 64 (t / 65536)) (BitVec.ofInt 48 (t * 2 ^ 32)))
  else if !pps && r.outCtrlFree10 then
    let (n, s) := s.fresh
    let x := Config.freeEdge n
    .next (driveOut s false rising (x.extractLsb' 48 64) (x.extractLsb' 0 48))
  else .next s

/-- A write of OUT_CTRL (R150, R157): outputs that are not enabled are low, and so is the 10 MHz output that no longer runs free
while VALID is 0. -/
def outCtrlWrite (i : Iface) (v : Word) (s : State) : Bool × State :=
  onPart .hub i s fun s => accept (modHub s fun h =>
    let r := h.ref.regs.write 0x090 v
    { h with ref := { h.ref with
      regs := r, outPps := h.ref.outPps && r.outCtrlEn
      outF10 := h.ref.outF10 && r.outCtrlEn && (s.valid .hub || r.outCtrlFree10) } })

/-! ## The PTP port (R152, R153) -/

/-- A PTP frame outside the supported subset is dropped and counted (R152). -/
def ptpDrop (s : State) : State :=
  modHub s fun h => { h with ref := { h.ref with
    regs := { h.ref.regs with ptpStatusDropped := satInc h.ref.regs.ptpStatusDropped } } }

/-- Whether a frame is of the kind a row takes and its common fields are within the subset (R152): a Pdelay, Signaling,
Management or other frame comes with a kind that no row takes. -/
def ptpOk (s : State) (kind : BitVec 4) (h : PtpHead) : Bool :=
  h.kind == kind && decide (h.domain.toNat = s.hub.ref.regs.ptpCtrlDomain.toNat) && h.version == 2 &&
    decide (h.minor.toNat ≤ 1) && !h.unicast && !h.tlv

/-- The port's clockIdentity: the EUI-64 of the module's MAC address, FF FE in its middle (R152). PRESUMED: log entry 62. -/
def State.clockIdentity (s : State) : BitVec 64 :=
  s.hub.mgmt.mgMac.extractLsb' 24 24 ++ (0xFFFE : BitVec 16) ++ s.hub.mgmt.mgMac.extractLsb' 0 24

/-- The foreign masters whose last Announce is not older than announceReceiptTimeout (3) of its intervals stay (R149, R152);
with none left the port listens again. -/
def ptpExpire (s : State) : State :=
  let now := s.hub.sh.tb.cycles
  let ls := s.hub.ptp.foreign.filter fun f =>
    decide ((now - f.at_).toNat * 2 ^ (-f.logInterval).toNat < 3000000000 * 2 ^ f.logInterval.toNat)
  if ls.length = s.hub.ptp.foreign.length then s
  else modHub s fun h => { h with
    ptp := { h.ptp with foreign := ls }
    ref := { h.ref with regs := { h.ref.regs with
      ptpStatusForeign := BitVec.ofNat 4 ls.length
      ptpStatusPortState := if ls.isEmpty then 4 else h.ref.regs.ptpStatusPortState } } }

/-- Whether a frame comes from the selected master: the first of the foreign masters, which are kept best first. -/
def fromParent (s : State) (h : PtpHead) : Bool :=
  match s.hub.ptp.foreign with
  | f :: _ => f.identity == h.identity && f.port == h.port
  | [] => false

/-- Whether a foreign master ranks before another in the default data-set comparison: the data set, then the sender. -/
def foreignBefore (a b : Foreign) : Bool :=
  decide (a.rank.toNat < b.rank.toNat) ||
    (a.rank == b.rank && decide (a.identity.toNat * 65536 + a.port.toNat < b.identity.toNat * 65536 + b.port.toNat))

/-- A foreign master enters the list in rank order. -/
def insertForeign (a : Foreign) : List Foreign → List Foreign
  | [] => [a]
  | b :: rest => if foreignBefore a b then a :: b :: rest else b :: insertForeign a rest

/-- A timestamp of the PTP timescale as hall time in units of 2^-16 ns (R69). -/
def ptpTime (s : State) (sec : BitVec 48) (ns : BitVec 32) : Int :=
  (((sec.toNat : Int) - s.hub.sh.tb.regs.hallEpoch.toNat) * 1000000000 + ns.toNat) * 65536

/-- Whether a timestamp can be converted: its nanoseconds are below a second (R51), its seconds not before the epoch (R69). -/
def ptpStampOk (s : State) (sec : BitVec 48) (ns : BitVec 32) : Bool :=
  decide (ns.toNat < 1000000000) && decide (s.hub.sh.tb.regs.hallEpoch.toNat ≤ sec.toNat)

/-- A frame whose timestamp cannot be converted is dropped and counted, as PAST too where it lies before the epoch (R51, R69). -/
def ptpBadStamp (s : State) (ns : BitVec 32) : State :=
  ptpDrop (if ns.toNat < 1000000000 then countPast s .hub else s)

/-- PTP_ANNOUNCE_RECEIVE (R151, R152): at most four foreign masters are tracked, best first. -/
def execPtpAnnounceReceive (h : PtpHead) (rank : PtpRank) (utcOffset : BitVec 16) (utcValid leap61 leap59 : Bool)
    (s : State) : Host.Outcome State Fault Refusal :=
  let s := ptpExpire s
  if !s.hub.ref.regs.ptpCtrlEn then .next s
  else if !ptpOk s 0xB h then .next (ptpDrop s)
  else
    let others := s.hub.ptp.foreign.filter fun f => !(f.identity == h.identity && f.port == h.port)
    if others.length ≥ 4 then .next (ptpDrop s)
    else
      let f : Foreign := {
        identity := h.identity, port := h.port, rank := rank.key, utcOffset := utcOffset
        at_ := s.hub.sh.tb.cycles, logInterval := rank.logInterval.toInt
        utcValid := utcValid, leap61 := leap61, leap59 := leap59 }
      let ls := insertForeign f others
      .next (modHub s fun hb => { hb with
        ptp := { hb.ptp with foreign := ls }
        ref := { hb.ref with regs := { hb.ref.regs with
          ptpStatusForeign := BitVec.ofNat 4 ls.length
          ptpStatusPortState := if hb.ref.regs.ptpStatusPortState = 4 then 8 else hb.ref.regs.ptpStatusPortState } } })

/-- PTP_SYNC_RECEIVE (R152, R153): a two-step Sync of the selected master is stamped as t2. -/
def execPtpSyncReceive (h : PtpHead) (twoStep : Bool) (logInterval : BitVec 8) (t2 : BitVec 80) (uncal : Bool) (s : State) :
    Host.Outcome State Fault Refusal :=
  let s := ptpExpire s
  if !s.hub.ref.regs.ptpCtrlEn then .next s
  else if !ptpOk s 0 h || !twoStep || decide (logInterval.toInt < -7 ∨ logInterval.toInt > 0) then .next (ptpDrop s)
  else if !fromParent s h || uncal then .next s
  else .next (modHub s fun hb => { hb with ptp := { hb.ptp with
    syncSeq := some h.seq, corrSync := h.corr.toInt, t2 := t2.toNat, logSync := logInterval.toInt } })

/-- PTP_FOLLOW_UP_RECEIVE (R153): t1, and offsetFromMaster once a path delay is held. -/
def execPtpFollowUpReceive (h : PtpHead) (sec : BitVec 48) (ns : BitVec 32) (vote : TimeVote) (s : State) :
    Host.Outcome State Fault Refusal :=
  let s := ptpExpire s
  if !s.hub.ref.regs.ptpCtrlEn then .next s
  else if !ptpOk s 8 h then .next (ptpDrop s)
  else if !ptpStampOk s sec ns then .next (ptpBadStamp s ns)
  else if fromParent s h && s.hub.ptp.syncSeq == some h.seq then
    let t1 := ptpTime s sec ns + s.hub.ptp.corrSync + h.corr.toInt
    let s := modHub s fun hb => { hb with ptp := { hb.ptp with t1 := t1, havePair := true, syncSeq := none } }
    let r := s.hub.ref.regs
    if s.hub.ptp.pathCount > 0 ∧ r.refCtrlRefSel = 3 then
      let th := (s.hub.ptp.t2 - t1) - r.ptpStatusMeanPath.toInt - r.ptpAsym.toInt
      let s := modHub s fun hb => { hb with ref := { hb.ref with regs := { hb.ref.regs with ptpStatusPortState := 9 } } }
      .next (refSample s (-s.hub.ptp.logSync).toNat th vote)
    else .next s
  else .next s

/-- PTP_DELAY_REQ_SEND (R153): a Delay_Req leaves under the port's own identity and port number 1 (R152), stamped as t3. -/
def execPtpDelayReqSend (t3 : BitVec 80) (s : State) : Host.Outcome State Fault Refusal :=
  let s := ptpExpire s
  if s.hub.ref.regs.ptpCtrlEn && !s.hub.ptp.foreign.isEmpty then
    let q := s.hub.ptp.delaySeq + 1
    .next (emit (modHub s fun hb => { hb with ptp := { hb.ptp with delaySeq := q, t3 := t3.toNat, delayPending := true } })
      (.ptpDelayReq s.clockIdentity 1 q))
  else .next s

/-- PTP_DELAY_RESP_RECEIVE (R153): t4, a sample of meanPathDelay, and its filter, as R102's with PTP_CTRL.FILT. An answer to
another requester says nothing to this port (R152). -/
def execPtpDelayRespReceive (h : PtpHead) (requester : PtpPortId) (receipt : PtpStamp) (logInterval : BitVec 8)
    (s : State) : Host.Outcome State Fault Refusal :=
  let s := ptpExpire s
  if !s.hub.ref.regs.ptpCtrlEn then .next s
  else if !ptpOk s 9 h then .next (ptpDrop s)
  else if !ptpStampOk s receipt.sec receipt.ns then .next (ptpBadStamp s receipt.ns)
  else if fromParent s h && requester == ⟨s.clockIdentity, 1⟩ && s.hub.ptp.delayPending &&
      s.hub.ptp.delaySeq == h.seq then
    let t4 := ptpTime s receipt.sec receipt.ns + h.corr.toInt
    let s := modHub s fun hb => { hb with ptp := { hb.ptp with delayPending := false, logDelay := logInterval.toInt } }
    let q := s.hub.ptp
    if q.havePair then
      let d := ((q.t2 - q.t1) + (t4 - q.t3)) / 2
      let f := 2 ^ s.hub.ref.regs.ptpCtrlFilt.toNat
      let old := s.hub.ref.regs.ptpStatusMeanPath.toInt
      let first := decide (q.pathCount < f)
      let new := if first then (q.pathSum + d) / (q.pathCount + 1) else old + (d - old) / f
      .next (modHub s fun hb => { hb with
        ptp := { hb.ptp with
          pathCount := if first then q.pathCount + 1 else q.pathCount, pathSum := if first then q.pathSum + d else q.pathSum }
        ref := { hb.ref with regs := { hb.ref.regs with ptpStatusMeanPath := BitVec.ofInt 40 new } } })
    else .next s
  else .next s

/-- A write of PTP_CTRL (R157): FILT 9 to 15 is reserved; enabling the port leads it to LISTENING, disabling it to
INITIALIZING with no foreign master (R152). -/
def ptpCtrlWrite (i : Iface) (v : Word) (s : State) : Bool × State :=
  onPart .hub i s fun s =>
    if (getF v 12 4).toNat > 8 then refused s .hub .ref
    else
      let was := s.hub.ref.regs.ptpCtrlEn
      let s := modHub s fun h => { h with ref := { h.ref with regs := h.ref.regs.write 0x098 v } }
      accept (if was = getB v 0 then s
        else modHub s fun h => { h with
          ptp := {}
          ref := { h.ref with regs := { h.ref.regs with
            ptpStatusForeign := 0, ptpStatusPortState := if getB v 0 then 4 else 1 } } })

end Sys2Proof.Machine
end

