-- ==== Sys2Proof/Machine/Taps.lean ====
section
/-! DEFINITION. The region time bus and the region taps (R186 to R212): the frames the root sends, what a tap does with
them, its launches, stretches and frequency changes, and the reports the root receives. -/

namespace Sys2Proof.Machine

/-! ## Frames (R187 to R189) -/

/-- The CRC-16 of a frame over its upper 112 bits (R187). -/
def frameCrc (x : Nat) : BitVec 16 := crcBits 0x1021#16 0xFFFF#16 112 x

/-- A frame from its type, tap and payload (R187). -/
def mkFrame (ty : BitVec 4) (tap : BitVec 8) (payload : BitVec 96) : BitVec 128 :=
  let x : BitVec 112 := (0xA : BitVec 4) ++ ty ++ tap ++ payload
  x ++ frameCrc x.toNat

/-- TYPE of a frame. -/
def frameType (f : BitVec 128) : BitVec 4 := f.extractLsb' 120 4

/-- PAYLOAD of a frame. -/
def framePayload (f : BitVec 128) : BitVec 96 := f.extractLsb' 16 96

/-- Whether a CFG frame's payload carries a reserved encoding (R189, R212): a REG that names no register of a tap, or
REP_PRESCALE 3. -/
def cfgReserved (p : BitVec 96) : Bool :=
  let reg : BitVec 8 := p.extractLsb' 88 8
  decide (9 < reg.toNat) || (reg == 0 && (p.extractLsb' 40 2 : BitVec 2) == 3)

/-- A frame that is well formed: START, CRC, a listed TYPE and a listed TAP, and no reserved encoding (R187 to R189). -/
def frameOk (f : BitVec 128) : Bool :=
  let tap := f.extractLsb' 112 8
  f.extractLsb' 124 4 == 0xA && f.extractLsb' 0 16 == frameCrc (f.extractLsb' 16 112).toNat &&
    decide ((frameType f).toNat ≤ 5) && (tap == 0xFF || decide (tap.toNat ≤ 127)) &&
    !(frameType f == 4 && cfgReserved (framePayload f))

/-- Whether a frame is addressed to a tap. -/
def frameFor (f : BitVec 128) (t : BitVec 7) : Bool := f.extractLsb' 112 8 == 0xFF || f.extractLsb' 112 8 == t.setWidth 8

/-- The root drives a frame while TAP_GLOBAL.EN is 1 (R186). -/
def sendFrame (s : State) (f : BitVec 128) : State := if s.tsu.tapPage.tapGlobalEn then emit s (.tapFrame f) else s

/-- The strobe edge that the root places in an island cycle, as its tick has gone on from `old` (R186): rising at a whole multiple
of 8 ns, falling 4 ns later. A rising edge shows the taps a strobe (R191). -/
def placeStrobe (s : State) (old : Tick) : State :=
  let t := s.now .tsu - s.now .tsu % 4
  let rising := t % 8 == 0
  if s.tsu.tapPage.tapGlobalEn && s.tsu.sh.tb.regs.statusIslandLock && decide (old.toNat < t.toNat) then
    let s := emit s (.strobe rising t)
    if rising then tapStrobe s else s
  else s

/-! ## Reports (R210, R211) -/

/-- The CRC-8 of a report over its upper 56 bits (R210). -/
def reportCrc (x : Nat) : BitVec 8 := crcBits 0x07#8 0x00#8 56 x

/-- A report from its code and payload fields, packed from bit 57 downward (R210). -/
def mkReport (code : BitVec 4) (fs : List (Nat × Nat)) : BitVec 64 :=
  let (n, w) := packFields fs
  let x : BitVec 56 := (2 : BitVec 2) ++ code ++ BitVec.ofNat 50 (n * 2 ^ (50 - w))
  x ++ reportCrc x.toNat

/-- A field of a report's payload: `hi` bits from bit 57 down, and its width. -/
def reportField (r : BitVec 64) (hi w : Nat) : BitVec w := r.extractLsb' (58 - hi - w) w

/-- A tap queues a report; with 8 queued the newest is dropped and counted (R210). -/
def queueReport (k : Tap) (r : BitVec 64) : Tap :=
  if k.rpt.length < 8 then { k with rpt := k.rpt ++ [r] }
  else { k with own := { k.own with tapCountRptDrop := satInc k.own.tapCountRptDrop } }

/-- A tap drops a frame and counts it (R189). -/
def frameDrop (k : Tap) : Tap := { k with own := { k.own with tapCountFrameErr := satInc k.own.tapCountFrameErr } }

/-- The hold output of a tap (R201). -/
def Tap.holdOut (k : Tap) : Bool :=
  k.stretching || k.ext != 0 || k.nbIn != 0 || k.stop || k.freq ||
    (k.own.tapStatusState != 3 && !(k.own.tapStatusState == 0 && k.own.tapCtrlParked))

/-- The notice output of a tap at a tick (R201); NB_TEST drives it for 64 strobe periods (R188). -/
def Tap.noticeOut (k : Tap) (now : Tick) : Bool :=
  k.notice || (match k.nbTest with | some t => decide ((now - t).toNat < 512) | none => false)

/-- An extension of hold begins, unless HOLD_EXT is 0 (R201). -/
def extendHold (k : Tap) : Tap := if k.own.tapCtrlHoldExt = 0 then k else { k with ext := k.ext + 1 }

/-- HEARTBEAT (R211). -/
def heartbeatReport (k : Tap) : BitVec 64 :=
  mkReport 0 [(3, k.own.tapStatusState.toNat), (1, k.holdOut.toNat), (3, k.queue.length), (16, k.own.tapCountRptDrop.toNat),
    (16, k.own.tapCountFrameErr.toNat)]

/-- LAUNCHED (R211). -/
def launchedReport (lid : BitVec 8) (late merged : Bool) (phase : BitVec 32) : BitVec 64 :=
  mkReport 1 [(8, lid.toNat), (1, late.toNat), (1, merged.toNat), (32, phase.toNat)]

/-- OVERRUN (R200, R211), at most once for each cause in a launch interval. -/
def overrun (k : Tap) (cause : BitVec 2) : Tap :=
  if k.overs.getLsbD cause.toNat then k
  else queueReport { k with overs := setBit k.overs cause.toNat true }
    (mkReport 3 [(2, cause.toNat), (31, k.own.tapSlackNow.toNat)])

/-- The slack consumed takes a value (R198), and the SLACK overrun applies (R200). -/
def setSlack (k : Tap) (tE : Int) (n : Nat) : Tap :=
  match k.launched with
  | some tL =>
    if k.own.tapSlackValid then
      let x : Int := max 0 (tE - tL - n * k.own.tapStatusPNom.toNat)
      let k := { k with own := { k.own with tapSlackNow := satNat 31 x.toNat } }
      if k.own.tapSlackMax != 0 && decide (x > k.own.tapSlackMax.toNat) then overrun k 0 else k
    else k
  | none => k

/-! ## The root's frames and launches (R189, R194) -/

/-- ROOT_TIME_FRAME_SEND (R188, R189): a broadcast TIME frame. One with VALID 0 empties every tap's queue, and the root's
count with it (R194). -/
def execRootTimeFrameSend (s : State) : Host.Outcome State Fault Refusal :=
  if s.tsu.tapPage.tapGlobalEn then
    let tick := BitVec.ofNat 64 ((s.now .tsu).toNat / 512 * 512)
    let v := s.valid .tsu
    let s := if v then s else modTsu s fun t => { t with taps := tmap {} (fun _ k => { k with sent := [] }) t.taps }
    .next (sendFrame s (mkFrame 1 0xFF (tick ++ BitVec.ofBool v ++ BitVec.ofBool s.tsu.sh.tb.regs.statusHoldover ++ (0 : BitVec 30))))
  else .next s

/-- The LAUNCH frame of a launch for a tap (R188). -/
def launchFrame (t : BitVec 7) (x : TapLaunch) : BitVec 128 := mkFrame 2 (t.setWidth 8) (x.target ++ x.frac ++ x.lid ++ (0 : BitVec 8))

/-- The entries that the root counts in a tap's queue (R194): what it has sent and not seen leave. A launch that has fallen due for
a tap out of service counts no more (DEDUCED, log 71). -/
def State.inQueue (s : State) (t : BitVec 7) : List TapLaunch :=
  let k := s.tap t
  if k.regs.tapStatusState == 3 || k.regs.tapStatusState == 4 then k.sent
  else k.sent.filter fun x => decide ((s.now .tsu).toNat ≤ x.target.toNat)

/-- The root sends a launch to a tap and counts it in the tap's queue. -/
def sendLaunch (s : State) (t : BitVec 7) (x : TapLaunch) : State :=
  let q := s.inQueue t
  modTap (sendFrame s (launchFrame t x)) t fun k => { k with sent := q ++ [x] }

/-- A launch goes into the held launches of a tap in order of target (R194). -/
def insertHeld (x : TapLaunch) : List TapLaunch → List TapLaunch
  | [] => [x]
  | y :: rest => if x.target.toNat < y.target.toNat then x :: y :: rest else y :: insertHeld x rest

/-- EV_LAUNCH_MISS for a launch of a tap (R194, R380). -/
def tapLaunchMiss (s : State) (sub : BitVec 16) (t : BitVec 7) (x : TapLaunch) : State :=
  raise s .tsu (tsuEv s 0x0003 sub 2 [(64, x.target.toNat), (8, t.toNat), (8, x.lid.toNat)])

/-- A launch that the root did not send to a tap whose queue stayed full (R194). -/
def launchUnsent (s : State) (t : BitVec 7) (x : TapLaunch) : State :=
  tapLaunchMiss (modTsu s fun h => { h with tapPage := { h.tapPage with
    tapQfullMissed := satInc h.tapPage.tapQfullMissed } }) 4 t x

/-- A launch goes to one tap, at least 2 µs before its target: sent, held while the tap's queue holds four, or missed (R194). One
that comes later than that is missed too (DESIGN CHOICE, log 71). -/
def launchTap (x : TapLaunch) (s : State) (t : BitVec 7) : State :=
  let k := s.tap t
  let soon := decide (x.target.toNat < (s.now .tsu).toNat + 2000)
  if !k.regs.tapCtrlLaunchEn then s
  else if (s.inQueue t).any (fun y => y.lid == x.lid) then s
  else if !soon && decide ((s.inQueue t).length < 4) && k.held.isEmpty then sendLaunch s t x
  else if !soon && decide (k.held.length < 4) then
    modTap (modTsu s fun h => { h with tapPage := { h.tapPage with tapQfullHeld := satInc h.tapPage.tapQfullHeld } }) t
      fun k => { k with held := insertHeld x k.held }
  else launchUnsent s t x

/-- The root gives a launch to every tap that receives launches, under the next launch identifier (R194, R253). -/
def launchTaps (s : State) (target : Tick) : State :=
  let lid := s.tsu.lid
  let s := modTsu s fun t => { t with lid := lid + 1 }
  s.tapIds.foldl (launchTap { target := target, frac := 0, lid := lid }) s

/-- When a launch falls due, each tap that receives launches and is not ALIGNED misses it (R194). -/
def launchDue (s : State) (target : Tick) : State :=
  let x : TapLaunch := { target := target, frac := 0, lid := s.tsu.lid - 1 }
  s.tapIds.foldl (fun s t =>
    if (s.tap t).regs.tapCtrlLaunchEn && (s.tap t).regs.tapStatusState != 3 then tapLaunchMiss s 3 t x else s) s

/-- The root cancels every queued launch of every tap (R188, R262). -/
def cancelTaps (s : State) : State :=
  let s := modTsu s fun t => { t with taps := tmap {} (fun _ k => { k with sent := [], held := [] }) t.taps }
  sendFrame s (mkFrame 3 0xFF ((0 : BitVec 8) ++ (1 : BitVec 1) ++ (0 : BitVec 87)))

/-- ROOT_HELD_LAUNCH_SEND (R194): an entry has left the tap's queue, and the first held launch goes out. -/
def execRootHeldLaunchSend (t : BitVec 7) (s : State) : Host.Outcome State Fault Refusal :=
  match (s.tap t).held with
  | x :: rest =>
    if (s.inQueue t).length < 4 ∧ x.target.toNat ≥ (s.now .tsu).toNat + 2000 then
      .next (sendLaunch (modTap s t fun k => { k with held := rest }) t x)
    else .next s
  | [] => .next s

/-- LAUNCH_HOLD_EXPIRE (R194): a held launch that cannot go out 2 µs before its target is not sent. -/
def execLaunchHoldExpire (t : BitVec 7) (s : State) : Host.Outcome State Fault Refusal :=
  match (s.tap t).held with
  | x :: rest =>
    if x.target.toNat < (s.now .tsu).toNat + 2000 then .next (launchUnsent (modTap s t fun k => { k with held := rest }) t x)
    else .next s
  | [] => .next s

/-! ## The tap's states (R190, R191) -/

/-- A tap goes to OFF: its launches and its sense of time are gone (R191). A frequency change that is in progress goes on
(DESIGN CHOICE, log 72). -/
def tapOff (k : Tap) : Tap :=
  { k with own := { k.own with tapStatusState := 0 }, queue := [], tval := false, dropRun := 0 }

/-- STROBE_SLIP (R190, R207): the tap reports it, empties its queue and returns to WAIT_TIME. -/
def strobeSlip (k : Tap) : Tap :=
  queueReport { k with
    own := { k.own with tapStatusState := 2 }, queue := [], tval := false, dropRun := 0 } (mkReport 6 [(2, 0), (1, 0)])

/-- TAP_DLL_LOCK (R191): LOCKING ends and the tap waits for a TIME frame. -/
def execTapDllLock (t : BitVec 7) (s : State) : Host.Outcome State Fault Refusal :=
  .next (modTap s t fun k =>
    if k.own.tapStatusState == 1 then { k with own := { k.own with tapStatusState := 2 } } else k)

/-- STROBE_LOSS (R191): with no strobe the tap is OFF; the next strobe edge that the root places lets it lock again. -/
def execStrobeLoss (t : BitVec 7) (s : State) : Host.Outcome State Fault Refusal := .next (modTap s t tapOff)

/-- What a tap does with a frame of one type (R189): a bad frame is dropped and counted, and a frame for another tap, of
another type, or at a tap that is OFF or LOCKING has no effect. -/
def onFrame (s : State) (t : BitVec 7) (f : BitVec 128) (ty : BitVec 4) (act : State → Host.Outcome State Fault Refusal) :
    Host.Outcome State Fault Refusal :=
  if (s.tap t).own.tapStatusState.toNat < 2 then .next s
  else if !frameOk f then .next (modTap s t frameDrop)
  else if frameFor f t && frameType f == ty then act s
  else .next s

/-- TAP_IDLE_FRAME (R188): an IDLE frame carries nothing. -/
def execTapIdleFrame (t : BitVec 7) (f : BitVec 128) (s : State) : Host.Outcome State Fault Refusal :=
  onFrame s t f 0 fun s => .next s

/-- The configuration that the host has written reaches a tap that aligns (R212). -/
def takeConfig (own root : TapRegs) : TapRegs :=
  { own with
    tapCtrlHoldExt := root.tapCtrlHoldExt, tapCtrlNbEn := root.tapCtrlNbEn, tapCtrlRepPrescale := root.tapCtrlRepPrescale
    tapCtrlRepEn := root.tapCtrlRepEn, tapCtrlLorTol := root.tapCtrlLorTol, tapCtrlLaunchEn := root.tapCtrlLaunchEn
    tapDelay := root.tapDelay, tapSlackMax := root.tapSlackMax, tapMarginThresh := root.tapMarginThresh
    tapNbNbId := root.tapNbNbId }

/-- A tap takes a TIME frame (R190, R192, R194): the first anchors the count; a later one agrees with it or reports
STROBE_SLIP. `edges` is the number of strobe edges the tap has counted since its anchor. -/
def tapTime (k : Tap) (tick : Tick) (valid : Bool) (edges : BitVec 32) : Tap :=
  let k :=
    if k.own.tapStatusState == 2 then
      { k with
        own := { takeConfig k.own k.regs with tapStatusState := if k.fcRun then 4 else 3 }
        anchor := tick, tval := valid, dropRun := 0, measuring := true }
    else if k.anchor + 8 * edges.setWidth 64 = tick then { k with anchor := tick, tval := valid, dropRun := 0 }
    else strobeSlip k
  let k := if k.tval then k else { k with queue := [] }
  queueReport k (heartbeatReport k)

/-- TAP_TIME_FRAME (R188 to R190): a frame in the place of a TIME frame. -/
def execTapTimeFrame (t : BitVec 7) (f : BitVec 128) (edges : BitVec 32) (s : State) : Host.Outcome State Fault Refusal :=
  if (s.tap t).own.tapStatusState.toNat ≥ 2 && !frameOk f then
    .next (modTap s t fun k => { frameDrop k with dropRun := k.dropRun + 1 })
  else onFrame s t f 1 fun s =>
    let p := framePayload f
    .next (modTap s t fun k => tapTime k (p.extractLsb' 32 64) (p.getLsbD 31) edges)

/-- TAP_FRAME_DROP_RUN (R190): three TIME frames in a row were dropped. -/
def execTapFrameDropRun (t : BitVec 7) (s : State) : Host.Outcome State Fault Refusal :=
  .next (modTap s t fun k => if k.dropRun ≥ 3 && decide (k.own.tapStatusState.toNat ≥ 3) then strobeSlip k else k)

/-- The tap's own time, in units of 2^-16 ns, at a phase of the DLL after a strobe edge (R192). -/
def Tap.timeAt (k : Tap) (x : TapTime) : Int :=
  (k.anchor.toNat + 8 * x.edges.toNat) * 65536 + k.own.tapDelay.toInt + x.phase.toNat * 1024

/-- A queued launch's target in units of 2^-16 ns. -/
def TapLaunch.at (x : TapLaunch) : Int := x.target.toNat * 65536 + x.frac.toNat

/-- TAP_LAUNCH_FRAME (R194): a launch at least 1,024 ns ahead at the frame's end is queued; another is refused and reported
LATE with PHASE saturated. -/
def execTapLaunchFrame (t : BitVec 7) (f : BitVec 128) (edges : BitVec 32) (s : State) : Host.Outcome State Fault Refusal :=
  onFrame s t f 2 fun s =>
    let p := framePayload f
    let x : TapLaunch := { target := p.extractLsb' 32 64, frac := p.extractLsb' 16 16, lid := p.extractLsb' 8 8 }
    .next (modTap s t fun k =>
      if k.own.tapStatusState.toNat < 3 || !k.tval then k
      else if x.at - k.timeAt ⟨edges, 0⟩ < 67108864 then queueReport k (launchedReport x.lid true false 0x7FFFFFFF)
      else if k.queue.length < 4 then { k with queue := k.queue ++ [x] } else k)

/-- TAP_CANCEL_FRAME (R188, R194): the named launch, or every launch, leaves the queue. -/
def execTapCancelFrame (t : BitVec 7) (f : BitVec 128) (s : State) : Host.Outcome State Fault Refusal :=
  onFrame s t f 3 fun s =>
    let p := framePayload f
    .next (modTap s t fun k => { k with
      queue := if p.getLsbD 87 then [] else k.queue.filter fun x => x.lid != p.extractLsb' 88 8 })

/-- A tap takes a value of one of its registers, by index from 0x060 (R212). -/
def tapConfig (k : Tap) (reg : BitVec 8) (v : Word) : Tap :=
  let k := { k with own := k.own.write (0x060 + 8 * reg.toNat) v }
  let k := if k.own.tapCtrlRepEn then k else { k with lowRun := 0, highRun := 0 }
  if k.own.tapCtrlParked then tapOff k else k

/-- TAP_CFG_FRAME (R188, R212): a register is written, and CFG_ACK answers. -/
def execTapCfgFrame (t : BitVec 7) (f : BitVec 128) (s : State) : Host.Outcome State Fault Refusal :=
  onFrame s t f 4 fun s =>
    let p := framePayload f
    let reg : BitVec 8 := p.extractLsb' 88 8
    .next (modTap s t fun k => queueReport (tapConfig k reg (p.extractLsb' 0 64)) (mkReport 7 [(8, reg.toNat)]))

/-- TAP_NB_TEST_FRAME (R188, R203): the addressed tap drives its notice output for 64 strobe periods. -/
def execTapNbTestFrame (t : BitVec 7) (f : BitVec 128) (s : State) : Host.Outcome State Fault Refusal :=
  onFrame s t f 5 fun s => .next (modTap s t fun k => { k with nbTest := some (s.now .tsu) })

/-! ## Launch edges (R195 to R199) -/

/-- TAP_ARM (R192, R195): the tap's own time reaches the target of queued launches. -/
def execTapArm (t : BitVec 7) (time : TapTime) (s : State) : Host.Outcome State Fault Refusal :=
  .next (modTap s t fun k =>
    if k.own.tapStatusState.toNat ≥ 3 && k.tval then
      { k with queue := k.queue.map fun x => if x.at ≤ k.timeAt time then { x with armed := true } else x }
    else k)

/-- What one launch reports at its edge (R197). -/
def launchReport (k : Tap) (tE : Int) (merged : Bool) (x : TapLaunch) : BitVec 64 :=
  let ph := tE - x.at
  launchedReport x.lid (decide (ph > 2 * (k.own.tapStatusPNom.toNat : Int))) merged (satInt 32 ph)

/-- A launch edge (R196 to R198): every armed launch takes it, each is reported, and the slack count restarts. -/
def launchEdge (k : Tap) (tE : Int) (n : Nat) : Tap :=
  let now := k.queue.filter fun x => x.armed
  if now = [] then k
  else
    let k := setSlack k tE n
    let rs := now.map (launchReport k tE (decide (now.length > 1)))
    let k := rs.foldl queueReport k
    { k with
      queue := k.queue.filter (fun x => !x.armed), launched := some tE, overs := 0
      own := { k.own with tapSlackAtLaunch := k.own.tapSlackNow, tapSlackNow := 0, tapSlackValid := true } }

/-- Whether region edges can take a launch (R191, R205): in ALIGNED, and in a frequency change once the clock runs again. -/
def Tap.launches (k : Tap) : Bool := k.own.tapStatusState == 3 || (k.own.tapStatusState == 4 && k.fcRun && !k.fcReq)

/-- TAP_LAUNCH_EDGE (R195 to R198, R205): the first region edge that samples the armed level, with the tap's time at it, and the
edges since the last launch edge. -/
def execTapLaunchEdge (t : BitVec 7) (time : TapTime) (n : BitVec 64) (s : State) : Host.Outcome State Fault Refusal :=
  let k := s.tap t
  if k.launches && k.queue.any (fun x => x.armed) then
    .next (emit (modTap s t fun k => launchEdge k (k.timeAt time) n.toNat) (.launchOut t))
  else .next s

/-- The shortest cycle of a list that was not stretched (R199). -/
def shortest (cycles : List (BitVec 24 × Bool)) : Option (BitVec 24) :=
  (cycles.filter fun c => !c.2).foldl (fun b c => match b with
    | none => some c.1
    | some p => some (if c.1.toNat < p.toNat then c.1 else p)) none

/-- The tap has P_NOM of 64 new cycles (R199, R204): a frequency change ends, its notice and hold fall as R201 gives, and a tap in FC
enters ALIGNED again and reports it. -/
def takePnom (k : Tap) (p : BitVec 24) : Tap :=
  let k := { k with measuring := false, own := { k.own with tapStatusPNom := p } }
  if !k.fcRun then k
  else
    let k := extendHold { k with fcRun := false, notice := k.stretching }
    if k.own.tapStatusState == 4 then
      queueReport { k with own := { k.own with tapStatusState := 3 } } (mkReport 4 [(2, 2), (24, p.toNat)])
    else k

/-- PNOM_MEASURED (R199, R204): the first 64 cycles after the tap has aligned, or its region's clock has restarted, each with its
period and whether it was stretched. While a frequency change has not restarted the clock there are none. -/
def execPnomMeasured (t : BitVec 7) (cycles : List (BitVec 24 × Bool)) (s : State) : Host.Outcome State Fault Refusal :=
  .next (modTap s t fun k =>
    match shortest cycles with
    | some p => if k.measuring && !(k.fcRun && k.fcReq) then takePnom k p else k
    | none => k)

/-! ## Stretches, notices and neighbours (R198, R201, R203) -/

/-- STRETCH_INDICATION_RISE (R201): an own edge samples the indication as 1; hold and notice rise. -/
def execStretchIndicationRise (t : BitVec 7) (s : State) : Host.Outcome State Fault Refusal :=
  .next (modTap s t fun k => { k with stretching := true, notice := true })

/-- STRETCH_INDICATION_FALL (R198, R201): an edge samples the indication as 0; the episode ends, S is updated and reported.
`time` is the tap's time at the edge, `n` is its number since the last launch edge. -/
def execStretchIndicationFall (t : BitVec 7) (time : TapTime) (n : BitVec 64) (s : State) : Host.Outcome State Fault Refusal :=
  .next (modTap s t fun k =>
    if k.stretching then
      let k := extendHold { k with stretching := false, notice := k.fcRun }
      let k := setSlack k (k.timeAt time) n.toNat
      queueReport { k with own := { k.own with tapCountEpisodes := satInc k.own.tapCountEpisodes } }
        (mkReport 2 [(1, k.own.tapSlackValid.toNat), (31, k.own.tapSlackNow.toNat)])
    else k)

/-- HOLD_EXT_EXPIRE (R201): HOLD_EXT edges after a fall, its extension of hold ends; those of later falls run on. -/
def execHoldExtExpire (t : BitVec 7) (s : State) : Host.Outcome State Fault Refusal :=
  .next (modTap s t fun k => { k with ext := k.ext - 1 })

/-- NEIGHBOUR_NOTICE_RISE (R201): a synchronised rise on an enabled notice input raises hold. -/
def execNeighbourNoticeRise (t : BitVec 7) (input : BitVec 3) (s : State) : Host.Outcome State Fault Refusal :=
  .next (modTap s t fun k =>
    if k.own.tapCtrlNbEn.getLsbD input.toNat then { k with nbIn := setBit k.nbIn input.toNat true } else k)

/-- NEIGHBOUR_NOTICE_FALL (R201): a synchronised fall starts the extension of hold. -/
def execNeighbourNoticeFall (t : BitVec 7) (input : BitVec 3) (s : State) : Host.Outcome State Fault Refusal :=
  .next (modTap s t fun k =>
    if k.nbIn.getLsbD input.toNat then extendHold { k with nbIn := setBit k.nbIn input.toNat false } else k)

/-- A page cause of TAP set by a tap, with its bit of TAP_FAULT (R212). -/
def tapCause (s : State) (t : BitVec 7) (b : Nat) : State :=
  let s := setCause s .tsu .tap b
  modTsu s fun h => { h with tapPage :=
    if t.toNat < 64 then { h.tapPage with tapFaultLo := setBit h.tapPage.tapFaultLo t.toNat true }
    else { h.tapPage with tapFaultHi := setBit h.tapPage.tapFaultHi (t.toNat - 64) true } }

/-- A write of TAP_GLOBAL (R203, R212): the neighbour check needs every launch queue empty. -/
def tapGlobalWrite (i : Iface) (v : Word) (s : State) : Bool × State :=
  onPart .tsu i s fun s =>
    if getB v 1 && s.tsu.taps.any (fun e => !e.2.sent.isEmpty || !e.2.held.isEmpty) then refused s .tsu .tap
    else
      let s := tapStrobe (modTsu s fun t => { t with tapPage := t.tapPage.write 0x048 v })
      accept (if getB v 1 then
        s.tapIds.foldl (fun s t => sendFrame s (mkFrame 5 (t.setWidth 8) 0)) (modTsu s fun t => { t with
          nbCheck := true, nbSeen := [], taps := tmap {} (fun _ k => { k with nbTest := none }) t.taps })
      else s)

/-- NB_CHECK (R203): a write of TAP_GLOBAL with NB_CHECK set. -/
def execNbCheck (i : Iface) (data : Word) (s : State) : Host.Outcome State Fault Refusal :=
  ackWrite i s (tapGlobalWrite i (data ||| putB 1 true) s)

/-- NB_TEST_NOTICE_SEEN (R203): a tap sees the pulse that a tap addressed in the check drives, on an enabled input, and reports
it. -/
def execNbTestNoticeSeen (t : BitVec 7) (input : BitVec 3) (sender : BitVec 7) (s : State) :
    Host.Outcome State Fault Refusal :=
  let sent := (s.tap sender).nbTest.isSome
  .next (modTap s t fun k =>
    if sent && k.own.tapStatusState.toNat ≥ 2 && k.own.tapCtrlNbEn.getLsbD input.toNat then
      queueReport k (mkReport 8 [(3, input.toNat), (7, sender.toNat)])
    else k)

/-- The tap that NB_ID names for an input (R212): 0xFF for none. -/
def nbId (k : Tap) (i : Nat) : BitVec 8 := k.regs.tapNbNbId.extractLsb' (8 * i) 8

/-- Whether an input of a tap disagrees in the neighbour check (R203): what was seen against NB_ID, and the symmetry of
R185. -/
def nbWrong (s : State) (t : BitVec 7) (i : Nat) : Bool :=
  let seen := (s.tsu.nbSeen.filter fun x => x.1 == t && x.2.1.toNat == i).map fun x => x.2.2
  let id := nbId (s.tap t) i
  if id = 0xFF then !seen.isEmpty
  else seen.isEmpty || seen.any (fun x => x.setWidth 8 != id) ||
    !((List.range 6).any fun j => nbId (s.tap (id.setWidth 7)) j == t.setWidth 8)

/-- What the neighbour check has found for a tap is kept: NB_MISMATCH and its cause (R203). -/
def nbResult (found : State) (s : State) (t : BitVec 7) : State :=
  let m : BitVec 6 := (List.range 6).foldl (fun m i => setBit m i (nbWrong found t i)) 0
  let s := modTap s t fun k => { k with regs := { k.regs with tapNbNbMismatch := m } }
  if m = 0 then s else tapCause s t 5

/-- NB_CHECK_DONE (R203): the check in progress ends; the root compares the reports with the maps, and sets NB_MISMATCH and
NB_DONE. -/
def execNbCheckDone (s : State) : Host.Outcome State Fault Refusal :=
  if s.tsu.nbCheck then
    let s := modTsu s fun h => { h with nbCheck := false, taps := tmap {} (fun _ k => { k with nbTest := none }) h.taps }
    .next (setCause (s.tapIds.foldl (nbResult s) s) .tsu .tap 4)
  else .next s

/-! ## Frequency changes (R204 to R206) -/

/-- The tap raises fc_ack (R204). One that is not ALIGNED stays in its state, and enters FC as it aligns while the change is still
in progress (DESIGN CHOICE, log 72). -/
def fcAck (k : Tap) : Tap :=
  queueReport { k with
    own := { k.own with
      tapStatusState := if k.own.tapStatusState == 3 then 4 else k.own.tapStatusState
      tapSlackValid := false, tapCountFcCount := satInc k.own.tapCountFcCount }
    notice := true, fcDefer := false, fcAck := true, fcRun := true, measuring := false }
    (mkReport 4 [(2, 0), (24, k.own.tapStatusPNom.toNat)])

/-- FC_REQUEST (R204, R205): fc_req rises; the acknowledgement is deferred while a queued launch lies less than 2.5 µs ahead of the
tap's time. -/
def execFcRequest (t : BitVec 7) (time : TapTime) (s : State) : Host.Outcome State Fault Refusal :=
  .next (modTap s t fun k =>
    if k.fcReq then k
    else if k.queue.any (fun x => decide (x.at - k.timeAt time < 163840000)) then { k with fcReq := true, fcDefer := true }
    else fcAck { k with fcReq := true })

/-- FC_ACK_DEFER_END (R205): the near launch edge has passed, or 10 µs have. -/
def execFcAckDeferEnd (t : BitVec 7) (s : State) : Host.Outcome State Fault Refusal :=
  .next (modTap s t fun k => if k.fcDefer then fcAck k else k)

/-- FC_REQUEST_DROP (R204): fc_req falls at restart, and fc_ack with it; or it falls before it was acknowledged. -/
def execFcRequestDrop (t : BitVec 7) (s : State) : Host.Outcome State Fault Refusal :=
  .next (modTap s t fun k =>
    if k.fcAck then
      queueReport { k with fcReq := false, fcAck := false, measuring := true } (mkReport 4 [(2, 1), (24, k.own.tapStatusPNom.toNat)])
    else { k with fcReq := false, fcDefer := false })

/-- FC_STOP_OVERRUN (R206): a stop during a frequency change has lasted longer than 2 µs. -/
def execFcStopOverrun (t : BitVec 7) (s : State) : Host.Outcome State Fault Refusal :=
  .next (modTap s t fun k => if k.fcRun then overrun k 2 else k)

/-- REGION_LONG_CYCLE (R200): a cycle longer than twice P_NOM outside a frequency change. -/
def execRegionLongCycle (t : BitVec 7) (s : State) : Host.Outcome State Fault Refusal :=
  .next (modTap s t fun k => if k.own.tapStatusState == 3 && !k.fcRun then overrun k 1 else k)

/-! ## Losses and margin (R207 to R209) -/

/-- REGION_STOP (R207): no region edge for the limit that applies; not while PARKED. -/
def execRegionStop (t : BitVec 7) (s : State) : Host.Outcome State Fault Refusal :=
  .next (modTap s t fun k =>
    if k.stop || k.own.tapCtrlParked || decide (k.own.tapStatusState.toNat < 2) then k
    else queueReport { k with stop := true } (mkReport 6 [(2, 1), (1, 0)]))

/-- REGION_FREQ_WINDOW (R207): at the end of a window, the mean period of unstretched cycles in units of 2^-32 ns, and whether
the region stopped within it. Causes whose condition was absent clear, each with a report. -/
def execRegionFreqWindow (t : BitVec 7) (mean : BitVec 40) (stopped : Bool) (s : State) : Host.Outcome State Fault Refusal :=
  .next (modTap s t fun k =>
    if k.own.tapCtrlParked || decide (k.own.tapStatusState.toNat < 2) then k
    else
      let p := k.own.tapStatusPNom.toNat * 65536
      let tol := k.own.tapCtrlLorTol.toNat
      let off := tol != 0 && decide (((mean.toNat : Int) - p).natAbs * 1000000 > tol * p)
      let k := if k.stop && !stopped then queueReport { k with stop := false } (mkReport 6 [(2, 1), (1, 1)]) else k
      if off then (if k.freq then k else queueReport { k with freq := true } (mkReport 6 [(2, 2), (1, 0)]))
      else if k.freq then queueReport { k with freq := false } (mkReport 6 [(2, 2), (1, 1)])
      else k)

/-- EV_REF_LOSS of a tap (R207, R380). -/
def tapLossEvent (s : State) (t : BitVec 7) (cause : BitVec 2) (clear : Bool) : State :=
  raise s .tsu (tsuEv s 0x0005 (cause.setWidth 16) 1 [(8, t.toNat), (8, clear.toNat)])

/-- The root notes a loss of a tap, or its end (R207, R212). -/
def noteLoss (s : State) (t : BitVec 7) (cause : BitVec 2) (clear : Bool) : State :=
  modTap s t fun k =>
    let ls := setBit k.losses cause.toNat (!clear)
    { k with losses := ls, regs := { k.regs with
        tapStatusLoss := ls != 0, tapStatusLossCause := if clear then k.regs.tapStatusLossCause else cause } }

/-- Held responses of a tap's writes leave (R212). -/
def releaseTapWrites (s : State) (t : BitVec 7) : State :=
  let mine := s.tsu.tapWrites.filter fun x => x.1 == t
  let s := modTsu s fun h => { h with tapWrites := h.tapWrites.filter fun x => x.1 != t }
  mine.foldl (fun s x => answer s x.2.2 false) s

/-- TAP_SILENT (R207): no report for three TIME frames; the root treats the tap as OFF. -/
def execTapSilent (t : BitVec 7) (s : State) : Host.Outcome State Fault Refusal :=
  let s := noteLoss (modTap s t fun k => { k with sent := [], regs := { k.regs with tapStatusState := 0 } }) t 3 false
  .next (releaseTapWrites (tapLossEvent (tapCause s t 0) t 3 false) t)

/-- A replica window ends with a count (R209): the margin flag after 2 low or 16 good windows. -/
def replicaWindow (k : Tap) (count : Nat) : Tap :=
  let c : BitVec 20 := satNat 20 count
  let low := decide (c.toNat < k.own.tapMarginThresh.toNat)
  let k := { k with
    own := { k.own with tapMarginC := c }
    lowRun := if low then k.lowRun + 1 else 0, highRun := if low then 0 else k.highRun + 1 }
  if !k.own.tapStatusMarginLow && decide (k.lowRun ≥ 2) then
    queueReport { k with own := { k.own with tapStatusMarginLow := true } } (mkReport 5 [(1, 1), (20, c.toNat)])
  else if k.own.tapStatusMarginLow && decide (k.highRun ≥ 16) then
    queueReport { k with own := { k.own with tapStatusMarginLow := false } } (mkReport 5 [(1, 0), (20, c.toNat)])
  else k

/-- The replica's prescaler (R83, R209). -/
def repDivide (k : Tap) : Nat := match k.own.tapCtrlRepPrescale.toNat with | 0 => 1 | 1 => 8 | _ => 64

/-- REPLICA_WINDOW_END (R209): the replica's edges over 4,096 unstretched cycles, which its prescaler divides. -/
def execReplicaWindowEnd (t : BitVec 7) (count : BitVec 32) (s : State) : Host.Outcome State Fault Refusal :=
  .next (modTap s t fun k =>
    if k.own.tapCtrlRepEn then
      let n := k.repPre + count.toNat
      replicaWindow { k with repPre := n % repDivide k } (n / repDivide k)
    else k)

/-! ## Reports at the root (R197, R210 to R212) -/

/-- TAP_REPORT_SEND (R210): the head of a tap's queue goes out on its report line. -/
def execTapReportSend (t : BitVec 7) (s : State) : Host.Outcome State Fault Refusal :=
  match (s.tap t).rpt with
  | r :: rest => .next (emit (modTap s t fun k => { k with rpt := rest }) (.tapReport t r))
  | [] => .next s

/-- A report is well formed: START, CRC and a listed CODE (R210, R211). -/
def reportOk (r : BitVec 64) : Bool :=
  r.extractLsb' 62 2 == 2 && r.extractLsb' 0 8 == reportCrc (r.extractLsb' 8 56).toNat && decide ((r.extractLsb' 58 4).toNat ≤ 8)

/-- What the root does with a report of one code (R210): a bad report is dropped and counted in the tap's FRAME_ERR. -/
def onReport (s : State) (t : BitVec 7) (r : BitVec 64) (code : BitVec 4) (act : State → Host.Outcome State Fault Refusal) :
    Host.Outcome State Fault Refusal :=
  if !reportOk r then
    .next (modTap s t fun k => { k with regs := { k.regs with tapCountFrameErr := satInc k.regs.tapCountFrameErr } })
  else if r.extractLsb' 58 4 == code then act s
  else .next s

/-- HEARTBEAT_REPORT (R211): the root's copy of the tap's state and counts. An empty queue holds none of the launches that have
fallen due (DEDUCED, log 71). -/
def execHeartbeatReport (t : BitVec 7) (r : BitVec 64) (s : State) : Host.Outcome State Fault Refusal :=
  onReport s t r 0 fun s =>
    let st : BitVec 3 := reportField r 0 3
    let drop : BitVec 16 := reportField r 7 16
    let err : BitVec 16 := reportField r 23 16
    let now := s.now .tsu
    let empty := (reportField r 4 3 : BitVec 3) == 0
    let s := modTap s t fun k => { k with
      sent := if empty then k.sent.filter fun x => decide (now.toNat ≤ x.target.toNat) else k.sent
      seenDrop := drop, seenErr := err
      regs := { k.regs with
        tapStatusState := st, tapStatusHold := (reportField r 3 1 : BitVec 1) == 1, tapStatusDepth := reportField r 4 3
        tapCountRptDrop := satAdd k.regs.tapCountRptDrop (drop.toNat - k.seenDrop.toNat)
        tapCountFrameErr := satAdd k.regs.tapCountFrameErr (err.toNat - k.seenErr.toNat) } }
    let s := noteLoss s t 3 true
    .next (if st.toNat ≥ 3 then noteLoss s t 0 true else s)

/-- EV_STRETCH_OVERRUN (R197, R200, R380). -/
def stretchOverrun (s : State) (t : BitVec 7) (cause : BitVec 2) (x : BitVec 31) : State :=
  tapCause (raise s .tsu (tsuEv s 0x0007 (cause.setWidth 16) 1 [(8, t.toNat), (24, 0), (32, x.toNat)])) t 2

/-- LAUNCHED_REPORT (R197, R198, R212): an entry has left the tap's queue; the launch edge is shown, and a LATE one raises
EV_STRETCH_OVERRUN. -/
def execLaunchedReport (t : BitVec 7) (r : BitVec 64) (s : State) : Host.Outcome State Fault Refusal :=
  onReport s t r 1 fun s =>
    let lid : BitVec 8 := reportField r 0 8
    let late := (reportField r 8 1 : BitVec 1) == 1
    let merged := (reportField r 9 1 : BitVec 1) == 1
    let phase : BitVec 32 := reportField r 10 32
    let k := s.tap t
    let slack := k.regs.tapSlackNow
    let tick : Tick := match k.sent.find? (fun x => x.lid == lid) with
      | some x => BitVec.ofInt 64 ((x.at + phase.toInt) / 65536)
      | none => k.regs.tapLaunchTick
    let refusal := late && phase == 0x7FFFFFFF
    let s := modTap s t fun k => { k with
      sent := k.sent.filter fun x => x.lid != lid
      regs := { k.regs with
        tapLaunchLid := lid, tapLaunchLate := late, tapLaunchMerged := merged, tapLaunchPhase := phase, tapLaunchTick := tick
        tapSlackAtLaunch := if refusal then k.regs.tapSlackAtLaunch else k.own.tapSlackAtLaunch
        tapSlackValid := k.regs.tapSlackValid || !refusal } }
    .next (if late then tapCause (stretchOverrun s t 3 slack) t 3 else s)

/-- SLACK_REPORT (R198, R212). -/
def execSlackReport (t : BitVec 7) (r : BitVec 64) (s : State) : Host.Outcome State Fault Refusal :=
  onReport s t r 2 fun s =>
    .next (modTap s t fun k => { k with regs := { k.regs with
      tapSlackValid := (reportField r 0 1 : BitVec 1) == 1, tapSlackNow := reportField r 1 31
      tapCountEpisodes := satInc k.regs.tapCountEpisodes } })

/-- OVERRUN_REPORT (R200). -/
def execOverrunReport (t : BitVec 7) (r : BitVec 64) (s : State) : Host.Outcome State Fault Refusal :=
  onReport s t r 3 fun s => .next (stretchOverrun s t (reportField r 0 2) (reportField r 2 31))

/-- FC_REPORT (R204): ACKED, RESTARTED or REALIGNED, each with P_NOM. -/
def execFcReport (t : BitVec 7) (r : BitVec 64) (s : State) : Host.Outcome State Fault Refusal :=
  onReport s t r 4 fun s =>
    let ph : BitVec 2 := reportField r 0 2
    .next (modTap s t fun k =>
      let k := { k with regs := { k.regs with tapStatusPNom := reportField r 2 24 } }
      if ph = 0 then { k with regs := { k.regs with
        tapStatusState := if k.regs.tapStatusState == 3 then 4 else k.regs.tapStatusState
        tapSlackValid := false, tapCountFcCount := satInc k.regs.tapCountFcCount } }
      else if ph = 2 then { k with regs := { k.regs with tapStatusState := 3 } }
      else k)

/-- MARGIN_REPORT (R209): a low margin raises EV_MARGIN_LOW with the tap and C. -/
def execMarginReport (t : BitVec 7) (r : BitVec 64) (s : State) : Host.Outcome State Fault Refusal :=
  onReport s t r 5 fun s =>
    let low := (reportField r 0 1 : BitVec 1) == 1
    let c : BitVec 20 := reportField r 1 20
    let s := modTap s t fun k => { k with regs := { k.regs with tapStatusMarginLow := low, tapMarginC := c } }
    .next (if low then tapCause (raise s .tsu (tsuEv s 0x0006 0 1 [(8, t.toNat), (24, 0), (32, c.toNat)])) t 1 else s)

/-- REF_LOSS_REPORT (R207): the root raises EV_REF_LOSS with the tap, the cause and CLEAR. -/
def execRefLossReport (t : BitVec 7) (r : BitVec 64) (s : State) : Host.Outcome State Fault Refusal :=
  onReport s t r 6 fun s =>
    let cause : BitVec 2 := reportField r 0 2
    let clear := (reportField r 2 1 : BitVec 1) == 1
    let s := noteLoss s t cause clear
    let s := if cause = 0 then modTap s t fun k => { k with sent := [], regs := { k.regs with tapStatusState := 2 } } else s
    .next (tapLossEvent (if clear then s else tapCause s t 0) t cause clear)

/-- NB_SEEN_REPORT (R203). -/
def execNbSeenReport (t : BitVec 7) (r : BitVec 64) (s : State) : Host.Outcome State Fault Refusal :=
  onReport s t r 8 fun s =>
    .next (if s.tsu.nbCheck then
        modTsu s fun h => { h with nbSeen := h.nbSeen ++ [(t, reportField r 0 3, reportField r 3 7)] }
      else s)

/-! ## Tap registers (R208, R212) -/

/-- Whether a tap register takes a value: REP_PRESCALE 3 is reserved, and monitoring needs more than 16 regions (R208). -/
def tapValueOk (s : State) (off : Nat) (v : Word) : Bool :=
  off != 0x060 || (getF v 40 2 != 3 && (!getB v 39 || decide (s.tsu.root.integTaps.toNat ≥ 16)))

/-- Whether a register of a tap can be written (R212). -/
def tapWritable (off : Nat) : Bool := off == 0x060 || off == 0x068 || off == 0x090 || off == 0x098 || off == 0x0A0

/-- A tap that is OFF and no longer parked begins to lock (R191). -/
def unpark (root : State) (k : Tap) : Tap :=
  if k.own.tapStatusState == 0 && !k.regs.tapCtrlParked then
    let k := { k with own := { k.own with tapCtrlParked := false } }
    if root.tsu.tapPage.tapGlobalEn && root.tsu.sh.tb.regs.statusIslandLock then
      { k with own := { k.own with tapStatusState := 1 } } else k
  else { k with own := { k.own with tapCtrlParked := k.regs.tapCtrlParked } }

/-- The tap has taken PARKED and is OFF, and the root knows it: the responses of later writes leave at once, and the tap goes by what
the host has written last (R191, R212). -/
def tapParked (s : State) (t : BitVec 7) : State :=
  let root := s
  releaseTapWrites (modTap s t fun k =>
    unpark root { k with sent := [], regs := { k.regs with tapStatusState := 0 } }) t

/-- CFG_ACK_REPORT (R212): the response of the write that the tap has taken leaves. -/
def execCfgAckReport (t : BitVec 7) (r : BitVec 64) (s : State) : Host.Outcome State Fault Refusal :=
  onReport s t r 7 fun s =>
    let reg : BitVec 8 := reportField r 0 8
    let s := match s.tsu.tapWrites.find? (fun x => x.1 == t && x.2.1 == reg) with
      | some x => answer (modTsu s fun h => { h with tapWrites := h.tapWrites.erase x }) x.2.2 false
      | none => s
    let k := s.tap t
    .next (if reg = 0 ∧ k.own.tapStatusState = 0 ∧ k.own.tapCtrlParked then tapParked s t else s)

/-- A write of a tap register by offset (R212): the root's copy takes it and a CFG frame goes out, its response held for
CFG_ACK; for a tap in OFF the response leaves at once. -/
def tapWrite (w : Waiter) (t : BitVec 7) (off : Nat) (v : Word) (s : State) : State :=
  if !tapWritable off then answer s w false
  else if !tapValueOk s off v then answer (refuse s .tsu .tap) w true
  else
    let root := s
    let off? := (s.tap t).regs.tapStatusState == 0
    let s := modTap s t fun k => { k with regs := k.regs.write off v }
    if off? then
      answer (modTap s t fun k => if k.own.tapStatusState == 0 then unpark root k else k) w false
    else
      let reg : BitVec 8 := BitVec.ofNat 8 ((off - 0x060) / 8)
      let s := modTsu s fun h => { h with tapWrites := h.tapWrites ++ [(t, reg, w)] }
      sendFrame s (mkFrame 4 (t.setWidth 8) (reg ++ (0 : BitVec 24) ++ v))

/-- TAP_REGISTER_WRITE (R212): a write of the register at an index from 0x060 of the tap that TAP_SEL selects. -/
def execTapRegisterWrite (i : Iface) (reg : BitVec 4) (data : Word) (s : State) : Host.Outcome State Fault Refusal :=
  match i.part with
  | .hub => ackWrite i s (refused s .hub .hubid)
  | .tsu =>
    if unpowered s i then .next s
    else .next (tapWrite (.row i) (s.iface i).regs.tapSel (0x060 + 8 * reg.toNat) data s)

/-- A read of TAP_LAUNCH latches TAP_LAUNCH_TICK for the interface (R212). -/
def tapLaunchRead (i : Iface) (s : State) : Word × State :=
  onPartRead .tsu i s fun s =>
    let k := s.tap (s.iface i).regs.tapSel
    (k.regs.read 0x078, modIfaceRegs s i fun r => { r with tapLaunchTick := k.regs.tapLaunchTick })

/-- TAP_LAUNCH_READ (R212). -/
def execTapLaunchRead (i : Iface) (s : State) : Host.Outcome State Fault Refusal := ackRead i s (tapLaunchRead i s)

end Sys2Proof.Machine
end

