-- ==== Sys2Proof/Machine/Slots.lean ====
section
/-! DEFINITION. Sync objects on the TSU (R213 to R248): slots, barriers as a participant sees them, counters and flags,
signals with their fences and arrival tokens, and host waits. -/

namespace Sys2Proof.Machine

/-! ## The job as the TSU sees it -/

/-- Whether the die's job is paused (R247). -/
def State.tsuPaused (s : State) : Bool := s.tsu.txnt.ttJobState == 4

/-- Whether a flit's job and epoch are the TSU's (R416): the previous epoch counts as the current one in the grace time, and
is counted. -/
def tsuJobOk (s : State) (job : BitVec 12) (epoch : Bool) : Bool × State :=
  let t := s.tsu.txnt
  if !s.tsuHasJob || t.ttJob != job then (false, s)
  else if t.ttJobEpoch == epoch then (true, s)
  else if t.ttJobGrace then
    (true, modTsu s fun h => { h with txnt := { h.txnt with ttErrGraceAccepted := satInc h.txnt.ttErrGraceAccepted } })
  else (false, s)

/-- A message whose wire step lies too far from the TSU's own is refused (R63, R67). -/
def tsuNearStep (s : State) (w : BitVec 24) (act : State → State) : State :=
  if (extendStep w s.tsu.step.stepNow).isSome then act s else countStepRefused s .tsu w s.tsu.step.stepNow

/-- Whether the TSU's part of a job drains: it refuses the job's later flits, counted on the page that receives them (R440). -/
def State.tsuDrains (s : State) (job : BitVec 12) : Bool := s.tsu.txnt.ttJobState == 6 && s.tsu.txnt.ttJob == job

/-- SYNC_ERR counts (R248). -/
def modSync (s : State) (f : SyncRegs → SyncRegs) : State := modTsu s fun t => { t with sync := f t.sync }

/-! ## Types (R213) -/

/-- The type codes BARRIER, COUNTER, FLAG and SIGNAL (R213). -/
def tyBarrier : BitVec 3 := 1

def tyCounter : BitVec 3 := 2

def tyFlag : BitVec 3 := 3

def tySignal : BitVec 3 := 4

/-- The slot that an OBJ is bound to under a type (R215). -/
def State.slotOf (s : State) (ty : BitVec 3) (obj : BitVec 16) : Option (BitVec 12) :=
  (s.tsu.slots.find? fun e => e.2.regs.soCfgType == ty && e.2.regs.soCfgObj == obj).map fun e => BitVec.ofNat 12 e.1

/-- Whether an OBJ is bound to some slot (R215). -/
def State.objBound (s : State) (obj : BitVec 16) : Bool :=
  s.tsu.slots.any fun e => e.2.regs.soCfgType != 0 && e.2.regs.soCfgObj == obj

/-- Whether a pending signal names a slot (R217, R248). -/
def State.slotPending (s : State) (k : BitVec 12) : Bool :=
  let r := (s.slot k).regs
  r.soCfgType == tySignal && s.tsu.pend.any fun e => e.2.obj == r.soCfgObj

/-- Whether a queued SEND names a slot of this TSU (R217). -/
def State.slotSent (s : State) (k : BitVec 12) : Bool :=
  let r := (s.slot k).regs
  r.soCfgType != 0 && s.tsu.sends.any fun e => e.rank == s.tsu.rank && e.obj == r.soCfgObj

/-- Whether a host wait is armed on a slot (R248). -/
def State.hostWaits (s : State) (k : BitVec 12) : Bool :=
  s.tsu.waits.any fun e => e.2.waitStatusResult == 1 && e.2.waitArmSlot == k

/-- Whether the step program waits on a slot (R217, R248). -/
def State.progWaits (s : State) (k : BitVec 12) : Bool :=
  match s.tsu.seq.wait with
  | some (.slot j _) => j == k
  | _ => false

/-- Whether a wait's condition holds on a slot (R213): GEN by signed difference, VALUE plainly. -/
def waitHolds (r : SlotRegs) (target : BitVec 64) : Bool :=
  match r.soCfgType.toNat with
  | 1 => decide (0 ≤ signedDiff r.soGen target)
  | 2 => decide (target.toNat ≤ r.soValValue.toNat)
  | 3 => r.soValValue.getLsbD 0
  | 4 => decide (target.toNat ≤ r.soValValue.toNat)
  | _ => false

/-! ## Creating and freeing (R217) -/

/-- A write of SO_CFG (R217). -/
def soCfgWrite (i : Iface) (v : Word) (s : State) : Bool × State :=
  onPart .tsu i s fun s =>
    let k := (s.iface i).regs.soSel
    let r := (s.slot k).regs
    let ty : BitVec 3 := getF v 61 3
    let obj : BitVec 16 := getF v 32 16
    if r.soCfgType = 0 then
      if ty = 0 then accept s
      else if (ty = tyCounter ∨ ty = tyFlag ∨ ty = tySignal) ∧ s.tsuHasJob ∧ !s.objBound obj then
        accept (modSlot s k fun _ => { regs := ({} : SlotRegs).write 0x050 v })
      else refused s .tsu .sync
    else if r.soCfgType = tyBarrier then refused s .tsu .sync
    else if ty = 0 then
      if s.hostWaits k || s.slotPending k || s.slotSent k || s.progWaits k then refused s .tsu .sync
      else accept (modSlot s k fun _ => {})
    else if ty = r.soCfgType ∧ obj = r.soCfgObj then accept (modSlotRegs s k fun r => r.write 0x050 v)
    else refused s .tsu .sync

/-- SO_CFG_WRITE (R217). -/
def execSoCfgWrite (i : Iface) (data : Word) (s : State) : Host.Outcome State Fault Refusal :=
  ackWrite i s (soCfgWrite i data s)

/-! ## Operations (R220, R230, R245) -/

/-- An arrival on a slot (R220): whether it is refused; ARRIVED is set and an ARRIVE goes up with GEN. -/
def slotArrive (s : State) (k : BitVec 12) : Bool × State :=
  let r := (s.slot k).regs
  if r.soCfgType = tyBarrier ∧ !r.soValArrived then
    let s := modSlotRegs s k fun r => { r with soValArrived := true }
    accept (tsuSendUp s (.arrive {
      job := s.tsu.txnt.ttJob, epoch := s.tsu.txnt.ttJobEpoch, obj := r.soCfgObj, gen := r.soGen.setWidth 16
      step := s.tsu.step.stepNow.setWidth 24, count := 1 }))
  else refused s .tsu .sync

/-- VALUE of a slot takes a number, saturating at 2^48 − 1 (R245): the operation that reaches the maximum sets SATURATED and
the page's cause, and its rise raises EV_SATURATED. -/
def setValue (s : State) (k : BitVec 12) (n : Nat) : State :=
  let was := (s.slot k).regs.soValSaturated
  let obj := (s.slot k).regs.soCfgObj
  if n < 2 ^ 48 - 1 then modSlotRegs s k fun r => { r with soValValue := BitVec.ofNat 48 n }
  else
    let s := setCause (modSlotRegs s k fun r => { r with soValValue := BitVec.allOnes 48, soValSaturated := true }) .tsu .sync 16
    if was then s else raise s .tsu (tsuEv s 0x0002 0 0 [(16, obj.toNat), (16, k.toNat)])

/-- ADD on a slot (R230). -/
def slotAdd (s : State) (k : BitVec 12) (n : BitVec 48) : Bool × State :=
  let r := (s.slot k).regs
  if r.soCfgType = tyCounter ∨ r.soCfgType = tySignal then accept (setValue s k (r.soValValue.toNat + n.toNat))
  else refused s .tsu .sync

/-- SET on a slot (R230). -/
def slotSet (s : State) (k : BitVec 12) (n : BitVec 48) : Bool × State :=
  let r := (s.slot k).regs
  if r.soCfgType = tyCounter then accept (setValue s k n.toNat)
  else if r.soCfgType = tyFlag then accept (modSlotRegs s k fun r => { r with soValValue := 1 })
  else refused s .tsu .sync

/-- CLEAR on a slot (R230, R245). -/
def slotClear (s : State) (k : BitVec 12) : Bool × State :=
  let r := (s.slot k).regs
  if r.soCfgType = tyCounter ∨ r.soCfgType = tyFlag ∨ r.soCfgType = tySignal then
    accept (modSlotRegs s k fun r => { r with soValValue := 0, soValSaturated := false })
  else refused s .tsu .sync

/-- The total of an ingress channel (R179). -/
def State.ingress (s : State) (g : BitVec 2) : BitVec 64 :=
  let d := s.tsu.dfc
  match g.toNat with | 0 => d.ingress0 | 1 => d.ingress1 | 2 => d.ingress2 | _ => d.ingress3

/-- The place of a window in the table of windows (R237). -/
def winKey (g : BitVec 2) (w : BitVec 6) : Nat := 64 * g.toNat + w.toNat

/-- A window. -/
def State.window (s : State) (g : BitVec 2) (w : BitVec 6) : Window := tget {} s.tsu.wins (winKey g w)

/-- How many pending signals name a window (R248). -/
def State.winPending (s : State) (g : BitVec 2) (w : BitVec 6) : Nat :=
  (s.tsu.pend.filter fun e => e.2.chan == g && e.2.window == w).length

/-- A window takes a base and is open (R237, R247). -/
def openWindow (s : State) (g : BitVec 2) (w : BitVec 6) (base : BitVec 64) : State :=
  modTsu s fun t => { t with wins := tset {} t.wins (winKey g w) { isOpen := true, base := base } }

/-- OPEN_WINDOW (R237): refused on a window that a pending signal names. -/
def slotOpenWindow (s : State) (g : BitVec 2) (w : BitVec 6) : Bool × State :=
  if s.winPending g w > 0 then refused s .tsu .sync else accept (openWindow s g w (s.ingress g))

/-! ## SENDs (R232 to R235) -/

/-- The total of bytes issued on a write-completion channel (R179). -/
def State.wcIssued (s : State) (w : Nat) : BitVec 64 :=
  let d := s.tsu.dfc
  match w with | 0 => d.wcIssued0 | 1 => d.wcIssued1 | 2 => d.wcIssued2 | _ => d.wcIssued3

/-- The total of bytes complete on a write-completion channel (R179). -/
def State.wcDone (s : State) (w : Nat) : BitVec 64 :=
  let d := s.tsu.dfc
  match w with | 0 => d.wcDone0 | 1 => d.wcDone1 | 2 => d.wcDone2 | _ => d.wcDone3

/-- The covers of every channel at this moment (R233). -/
def State.covers (s : State) : List (BitVec 64) := [0, 1, 2, 3].map s.wcIssued

/-- Whether a channel's cover is met (R233). -/
def State.covered (s : State) (cover : List (BitVec 64)) (w : Nat) : Bool :=
  decide (0 ≤ signedDiff (s.wcDone w) (cover.getD w 0))

/-- The channels of a mask whose covers are not met, as bits. -/
def State.uncovered (s : State) (fmask : BitVec 4) (cover : List (BitVec 64)) : BitVec 4 :=
  [0, 1, 2, 3].foldl (fun m w => setBit m w (fmask.getLsbD w && !s.covered cover w)) 0

/-- Whether a SEND is refused (R232): the die has no job, a token without a fence, or a rank outside the job. -/
def sendRefused (s : State) (e : SendE) : Bool :=
  !s.tsuHasJob || (e.fmask == 0 && e.bytes != 0) || decide (e.rank.toNat ≥ s.tsu.members.toNat)

/-- A SEND is queued, or held while 16 are queued (R234). -/
def issueSend (s : State) (w : Option Waiter) (e : SendE) : State :=
  if s.tsu.sends.length < 16 ∧ s.tsu.heldSends = [] then
    let s := modTsu s fun t => { t with sends := t.sends ++ [e] }
    match w with
    | some w => answer s w false
    | none => s
  else modTsu s fun t => { t with heldSends := t.heldSends ++ [(e, w)] }

/-- The SEND that SIG_DEST and SIG_TOKEN give, with its covers (R232, R233). -/
def State.sendOf (s : State) : SendE :=
  let r := s.tsu.sync
  { rank := r.sigDestRank, obj := r.sigDestObj, amount := r.sigDestAmount, fmask := r.sigDestFmask
    chan := r.sigTokenChan, window := r.sigTokenWindow, bytes := r.sigTokenBytes, cover := s.covers }

/-- A SEND of the host port or a link (R232, R234), answered once it is queued. -/
def hostSend (w : Waiter) (s : State) : State :=
  let e := s.sendOf
  if sendRefused s e then answer (refuse s .tsu .sync) w true else issueSend s (some w) e

/-- A write of SO_OP (R220, R230, R232, R237, R248): OP 0 and 7 to 15 are reserved. -/
def soOpWrite (w : Waiter) (slot : BitVec 12) (v : Word) (s : State) : State :=
  let arg : BitVec 48 := getF v 0 48
  let done (r : Bool × State) : State := answer r.2 w r.1
  match (getF v 60 4 : BitVec 4).toNat with
  | 1 => done (slotArrive s slot)
  | 2 => done (slotAdd s slot arg)
  | 3 => done (slotSet s slot arg)
  | 4 => done (slotClear s slot)
  | 5 => hostSend w s
  | 6 => done (slotOpenWindow s (getF v 6 2) (getF v 0 6))
  | _ => done (refused s .tsu .sync)

/-- A write of SO_OP with an operation in place, through an interface. -/
def soOpRow (op : BitVec 4) (i : Iface) (v : Word) (s : State) : Host.Outcome State Fault Refusal :=
  match i.part with
  | .hub => ackWrite i s (refused s .hub .hubid)
  | .tsu =>
    if unpowered s i then .next s
    else .next (soOpWrite (.row i) (s.iface i).regs.soSel ((v &&& 0x0FFFFFFFFFFFFFFF) ||| putF 60 op) s)

/-- SO_OP_ARRIVE (R220). -/
def execSoOpArrive (i : Iface) (data : Word) (s : State) : Host.Outcome State Fault Refusal := soOpRow 1 i data s

/-- SO_OP_ADD (R230). -/
def execSoOpAdd (i : Iface) (data : Word) (s : State) : Host.Outcome State Fault Refusal := soOpRow 2 i data s

/-- SO_OP_SET (R230). -/
def execSoOpSet (i : Iface) (data : Word) (s : State) : Host.Outcome State Fault Refusal := soOpRow 3 i data s

/-- SO_OP_CLEAR (R230). -/
def execSoOpClear (i : Iface) (data : Word) (s : State) : Host.Outcome State Fault Refusal := soOpRow 4 i data s

/-- SO_OP_SEND (R232, R234). -/
def execSoOpSend (i : Iface) (data : Word) (s : State) : Host.Outcome State Fault Refusal := soOpRow 5 i data s

/-- SO_OP_OPEN_WINDOW (R237). -/
def execSoOpOpenWindow (i : Iface) (data : Word) (s : State) : Host.Outcome State Fault Refusal := soOpRow 6 i data s

/-- A SEND whose channels are covered leaves the queue as a SIGNAL (R233). -/
def sendLeaves (s : State) (k : Nat) (e : SendE) : State :=
  let s := modTsu s fun t => { t with sends := t.sends.eraseIdx k }
  tsuSendUp s (.signal {
    job := s.tsu.txnt.ttJob, epoch := s.tsu.txnt.ttJobEpoch, rank := s.tsu.rank, obj := e.obj, amount := e.amount
    chan := e.chan, window := e.window, bytes := e.bytes, dest := .rank e.rank })

/-- SEND_FENCE_MET (R233): every channel of the oldest SEND is covered, and its SIGNAL leaves. -/
def execSendFenceMet (s : State) : Host.Outcome State Fault Refusal :=
  match s.tsu.sends with
  | e :: _ => if s.uncovered e.fmask e.cover = 0 then .next (sendLeaves s 0 e) else .next s
  | [] => .next s

/-- SEND_QUEUE_SPACE (R234): an entry has freed, and the first held SEND enters the queue. -/
def execSendQueueSpace (s : State) : Host.Outcome State Fault Refusal :=
  match s.tsu.heldSends with
  | (e, w) :: rest =>
    if s.tsu.sends.length < 16 then
      let s := modTsu s fun t => { t with sends := t.sends ++ [e], heldSends := rest }
      .next (match w with
        | some w => answer s w false
        | none => modTsu s fun t =>
          if t.seq.wait = some .send then
            { t with seq := { t.seq with wait := none, regs := { t.seq.regs with seqStatusState := 1 } } }
          else t)
    else .next s
  | [] => .next s

/-- EV_WAIT_TIMEOUT (R380, R532). -/
def waitTimeoutEv (s : State) (sub : BitVec 16) (obj slot : BitVec 16) (ty : BitVec 8) (kind : BitVec 2) (idx : BitVec 4)
    (byte6 : BitVec 8) (target value : BitVec 64) : State :=
  raise s .tsu (tsuEv s 0x0001 sub 1 [(16, obj.toNat), (16, slot.toNat), (8, ty.toNat), (2, kind.toNat), (2, 0), (4, idx.toNat),
    (8, byte6.toNat), (8, 0), (64, target.toNat), (64, value.toNat)])

/-- SEND_TIMEOUT (R234, R242): the Egg timer of a queued SEND expires; it is discarded, and EV_WAIT_TIMEOUT SUB 1 names it. The
oldest SEND, when its channels are covered, leaves instead. -/
def execSendTimeout (k : BitVec 4) (s : State) : Host.Outcome State Fault Refusal :=
  match s.tsu.sends[k.toNat]? with
  | some e =>
    let left := s.uncovered e.fmask e.cover
    if k = 0 ∧ left = 0 then .next (sendLeaves s 0 e)
    else
      let s := modTsu s fun t => { t with sends := t.sends.eraseIdx k.toNat }
      .next (waitTimeoutEv s 1 e.obj 0xFFFF 4 2 0 (left ++ (0 : BitVec 4)) (e.rank.setWidth 64) (e.amount.setWidth 64 + 1))
  | none => .next s

/-! ## Signals at the receiver (R236, R238) -/

/-- Whether a signal's token is satisfied (R238). -/
def signalMet (s : State) (m : SignalP) : Bool :=
  let w := s.window m.chan m.window
  m.bytes == 0 || (w.isOpen && decide ((m.bytes.toNat : Int) ≤ signedDiff (s.ingress m.chan) w.base))

/-- A signal takes effect on the slot its OBJ is bound to (R238). -/
def signalEffect (s : State) (m : SignalP) : State :=
  match s.slotOf tySignal m.obj with
  | some k => (slotAdd s k (m.amount.setWidth 48 + 1)).2
  | none => s

/-- SIGNAL_RECEIVE (R236, R238, R440): refused for another job, epoch or OBJ; taken at once when its token is satisfied, and
otherwise pending. A signal beyond the credit of a full queue is refused and counted. -/
def execSignalReceive (l : LinkId) (m : SignalP) (s : State) : Host.Outcome State Fault Refusal :=
  if 64 ≤ s.tsu.pend.length then .next (refuse s .tsu .sync)
  else if s.tsuDrains m.job then .next (taken (refuse s .tsu .sync) l (.signal m))
  else
    let (ok, s) := tsuJobOk s m.job m.epoch
    if ok && (s.slotOf tySignal m.obj).isSome then
      if signalMet s m then .next (taken (signalEffect s m) l (.signal m))
      else .next (modTsu s fun t => { t with pend := t.pend ++ [(l, m)] })
    else
      let s := setCause (modSync s fun r => { r with syncErrRemoteRefused := satInc r.syncErrRemoteRefused }) .tsu .sync 17
      .next (taken s l (.signal m))

/-- SIGNAL_TAKE_EFFECT (R238): every pending signal whose token is satisfied takes effect in the cycle. -/
def execSignalTakeEffect (s : State) : Host.Outcome State Fault Refusal :=
  let now := s.tsu.pend.filter fun e => signalMet s e.2
  let s' := modTsu s fun t => { t with pend := t.pend.filter fun e => !signalMet s e.2 }
  .next (now.foldl (fun s e => taken (signalEffect s e.2) e.1 (.signal e.2)) s')

/-! ## Releases (R226) -/

/-- A barrier slot completes: GEN rises and ARRIVED clears (R226). -/
def completeSlot (s : State) (k : BitVec 12) : State :=
  modSlot s k fun x => { x with due := none, regs := { x.regs with soGen := x.regs.soGen + 1, soValArrived := false } }

/-- What a TSU does with a RELEASE, by the first row that applies (R226). -/
def releaseTake (s : State) (m : ReleaseP) : State :=
  let stale (s : State) : State := modSync s fun r => { r with syncErrStale := satInc r.syncErrStale }
  let dup (s : State) : State := modSync s fun r => { r with syncErrDupRelease := satInc r.syncErrDupRelease }
  if s.tsuDrains m.job then refuse s .tsu .sync
  else
    let (ok, s) := tsuJobOk s m.job m.epoch
    match (if ok then s.slotOf tyBarrier m.obj else none) with
    | none => stale s
    | some k => tsuNearStep s m.step fun s =>
      let x := s.slot k
      let own : BitVec 16 := x.regs.soGen.setWidth 16
      if m.timed && x.due.isSome && m.gen == own then dup s
      else if m.gen == own && x.regs.soValArrived then
        if m.timed then
          match schedWire s .tsu m.tick with
          | (some t, s) => modSlot s k fun x => { x with due := some t }
          | (none, s) => completeSlot (modSync s fun r => { r with syncErrLateRelease := satInc r.syncErrLateRelease }) k
        else completeSlot s k
      else if signedDiff m.gen own < 0 then dup s
      else stale s

/-- RELEASE_RECEIVE (R68, R226): a TIMED release is refused while VALID is 0. -/
def execReleaseReceive (l : LinkId) (m : ReleaseP) (s : State) : Host.Outcome State Fault Refusal :=
  if m.timed && !s.valid .tsu then
    .next (sendLink (countNotValid (taken s l (.release m)) .tsu) l none (.notReady { cause := 0 }))
  else .next (taken (releaseTake s m) l (.release m))

/-- TIMED_RELEASE_COMPLETE (R65, R226, R528): a scheduled completion is reached. -/
def timedComplete (s : State) (k : BitVec 12) : State :=
  match (s.slot k).due with
  | some t => if s.acting .tsu && decide (t.toNat ≤ (s.now .tsu).toNat) then completeSlot s k else s
  | none => s

/-- TIMED_RELEASE_COMPLETE (R226). -/
def execTimedReleaseComplete (slot : BitVec 12) (s : State) : Host.Outcome State Fault Refusal := .next (timedComplete s slot)

/-! ## Host waits (R240 to R244) -/

/-- A host wait. -/
def State.hostWait (s : State) (w : BitVec 4) : WaitRegs := tget {} s.tsu.waits w.toNat

/-- A host wait goes through a function. -/
def modWait (s : State) (w : BitVec 4) (f : WaitRegs → WaitRegs) : State :=
  modTsu s fun t => { t with waits := tmod {} t.waits w.toNat f }

/-- A wait on a slot has completed; an AUTOCLR flag clears in the next cycle (R231). -/
def waitDone (s : State) (k : BitVec 12) : State :=
  modSlot s k fun x => if x.regs.soCfgType == tyFlag && x.regs.soCfgAutoclr then { x with clr := true } else x

/-- A host wait completes when its condition holds (R240). -/
def hostWaitComplete (s : State) (w : BitVec 4) : State :=
  let r := s.hostWait w
  if r.waitStatusResult == 1 && waitHolds (s.slot r.waitArmSlot).regs (r.waitArmTarget.setWidth 64) then
    setCause (waitDone (modWait s w fun r => { r with waitStatusResult := 2 }) r.waitArmSlot) .tsu .sync w.toNat
  else s

/-- A write of WAIT_ARM (R240, R244): CANCEL first, then ARM; an ARM of an armed wait is refused. A wait on a FREE slot is not
possible (R213). -/
def waitArmWrite (i : Iface) (v : Word) (s : State) : Bool × State :=
  onPart .tsu i s fun s =>
    let w := (s.iface i).regs.waitSel
    let arm := getB v 63
    let cancel := getB v 62
    let slot : BitVec 12 := getF v 48 12
    if arm && (!cancel && (s.hostWait w).waitStatusResult == 1) then refused s .tsu .sync
    else if arm && (s.slot slot).regs.soCfgType == 0 then refused s .tsu .sync
    else
      let s := if cancel && (s.hostWait w).waitStatusResult == 1 then modWait s w fun r => { r with waitStatusResult := 0 } else s
      if arm then
        let s := modWait s w fun r => { r.write 0x088 v with waitStatusResult := 1, waitStatusAborted := false }
        accept (hostWaitComplete s w)
      else if (s.hostWait w).waitStatusResult == 1 then accept s
      else accept (modWait s w fun r => r.write 0x088 v)

/-- WAIT_ARM (R240, R244): a write of WAIT_ARM with ARM set. -/
def execWaitArm (i : Iface) (data : Word) (s : State) : Host.Outcome State Fault Refusal :=
  ackWrite i s (waitArmWrite i (data ||| putB 63 true) s)

/-- WAIT_CANCEL (R244): a write of WAIT_ARM with CANCEL set and ARM clear. -/
def execWaitCancel (i : Iface) (data : Word) (s : State) : Host.Outcome State Fault Refusal :=
  ackWrite i s (waitArmWrite i ((data &&& ~~~(putB 63 true)) ||| putB 62 true) s)

/-- What a host wait is on, as EV_WAIT_TIMEOUT SUB 0 gives it (R243, R532). -/
def slotTimeoutEv (s : State) (k : BitVec 12) (target : BitVec 64) (kind : BitVec 2) (idx : BitVec 4) : State :=
  let r := (s.slot k).regs
  let v : BitVec 64 := if r.soCfgType = tyBarrier then r.soGen else r.soValValue.setWidth 64
  let b : BitVec 8 := BitVec.ofNat 8 (r.soValArrived.toNat + 2 * (s.slotPending k).toNat)
  waitTimeoutEv s 0 r.soCfgObj (k.setWidth 16) (r.soCfgType.setWidth 8) kind idx b target v

/-- The Egg timer of a host wait expires (R241 to R243): when its condition holds, the wait completes instead. -/
def hostWaitTimeout (s : State) (w : BitVec 4) : State :=
  let r := s.hostWait w
  if r.waitStatusResult == 1 then
    if waitHolds (s.slot r.waitArmSlot).regs (r.waitArmTarget.setWidth 64) then hostWaitComplete s w
    else
      let s := setCause (modWait s w fun r => { r with waitStatusResult := 3 }) .tsu .sync w.toNat
      slotTimeoutEv s r.waitArmSlot (r.waitArmTarget.setWidth 64) 0 w
  else s

/-! ## Context writes (R247) -/

/-- A write of SO_VAL (R247): VALUE only while paused, SATURATED always. -/
def soValWrite (i : Iface) (v : Word) (s : State) : Bool × State :=
  onPart .tsu i s fun s =>
    accept (modSlotRegs s (s.iface i).regs.soSel fun r =>
      if s.tsuPaused then r.write 0x058 v else { r with soValSaturated := r.soValSaturated && !getB v 63 })

/-- SO_VAL_WRITE (R247). -/
def execSoValWrite (i : Iface) (data : Word) (s : State) : Host.Outcome State Fault Refusal :=
  ackWrite i s (soValWrite i data s)

/-- A write of SO_GEN (R247): only while paused; it reads zero for other types than BARRIER (R248). -/
def soGenWrite (i : Iface) (v : Word) (s : State) : Bool × State :=
  onPart .tsu i s fun s =>
    if s.tsuPaused then
      accept (modSlotRegs s (s.iface i).regs.soSel fun r => if r.soCfgType = tyBarrier then r.write 0x060 v else r)
    else refused s .tsu .sync

/-- SO_GEN_WRITE (R247). -/
def execSoGenWrite (i : Iface) (data : Word) (s : State) : Host.Outcome State Fault Refusal :=
  ackWrite i s (soGenWrite i data s)

/-- A write of WIN_STATE (R247): while paused PROGRESS gives WBASE and opens the window. -/
def winStateWrite (i : Iface) (v : Word) (s : State) : Bool × State :=
  onPart .tsu i s fun s =>
    let r := (s.iface i).regs
    if s.tsuPaused then
      accept (openWindow s r.winSelChan r.winSelWindow (s.ingress r.winSelChan - (getF v 0 48 : BitVec 48).setWidth 64))
    else refused s .tsu .sync

/-- WIN_PROGRESS_WRITE (R247). -/
def execWinProgressWrite (i : Iface) (data : Word) (s : State) : Host.Outcome State Fault Refusal :=
  ackWrite i s (winStateWrite i data s)

end Sys2Proof.Machine
end

