-- ==== Sys2Proof/Machine/TsuIo.lean ====
section
/-! DEFINITION. The TSU's boundary (R164 to R181): resets, the host port's responses, event inputs, trigger outputs with
their scheduling (R176, R265 to R267), and the data-fabric completion port. -/

namespace Sys2Proof.Machine

/-! ## Resets and the host port (R164 to R172) -/

/-- TSU_RESET (R164): tsu_rst_n is low; all state of the TSU is cleared. -/
def execTsuReset (s : State) : Host.Outcome State Fault Refusal := .next { s with tsu := { inReset := true } }

/-- TSU_RESET_RELEASE (R160, R164, R166): the TSU, whose state has been held clear, samples the straps and starts. -/
def execTsuResetRelease (dieType : BitVec 16) (ref156 : Bool) (taps : BitVec 7) (s : State) :
    Host.Outcome State Fault Refusal :=
  if s.tsu.inReset then
    .next { s with tsu := { root := { integDieType := dieType, integRef156 := ref156, integTaps := taps } } }
  else .next s

/-- HOST_PORT_RESET (R165, R507): responses not yet returned are discarded, and what the host port holds for itself returns to
its reset values; nothing else changes. -/
def execHostPortReset (s : State) : Host.Outcome State Fault Refusal :=
  .next (modTsu s fun t => { t with hp := [], sh := { t.sh with ifaces := tset {} t.sh.ifaces Iface.host.key {} } })

/-- HOST_PORT_RESPONSE (R169, R171, R172): the oldest request's response leaves once it is known. -/
def execHostPortResponse (s : State) : Host.Outcome State Fault Refusal :=
  match s.tsu.hp with
  | e :: rest =>
    match e.done with
    | some (err, v) =>
      .next (emit (modTsu s fun t => { t with hp := rest }) (.hpResponse e.tag err (if err || e.write then 0 else v)))
    | none => .next s
  | [] => .next s

/-! ## Event inputs (R175, R231) -/

/-- EVENT_INPUT_EDGE (R175, R231): an edge of the enabled direction, at least 4 ns after the last, gives a coarse stamp, sets
the input's cause, counts, and sets every FLAG slot bound to the input. -/
def execEventInputEdge (n : BitVec 4) (falling : Bool) (s : State) : Host.Outcome State Fault Refusal :=
  let c := s.tsu.evt
  let e := tget {} s.tsu.evts n.toNat
  let cyc := s.tsu.sh.tb.cycles
  let near := match e.lastCyc with | some x => decide ((cyc - x).toNat < 4) | none => false
  if s.tsu.inReset || !c.evtCtrlEn.getLsbD n.toNat || c.evtCtrlEdge.getLsbD n.toNat != falling || near then .next s
  else
    let at_ : Int := ((s.now .tsu).toNat : Int) * 65536 - 196608 - e.regs.ioAdj.toInt
    let s := modTsu s fun t => { t with
      evtNew := setBit t.evtNew n.toNat true
      evts := tset {} t.evts n.toNat { lastCyc := some cyc, edges := e.edges + 1, regs := { e.regs with
        evtLast := BitVec.ofInt 64 (at_ / 65536), evtCount := satInc e.regs.evtCount } }
      slots := tmap {} (fun _ x =>
        if x.regs.soCfgType == tyFlag && x.regs.soCfgEvtEn && x.regs.soCfgEvtIdx == n then
          { x with regs := { x.regs with soValValue := 1 } }
        else x) t.slots }
    .next (setCause s .tsu .evtrig n.toNat)

/-! ## Trigger outputs (R176, R265 to R267) -/

/-- A pulse is scheduled on an output; a fifth pending pulse is dropped and counted (R267). -/
def addPulse (s : State) (n : BitVec 4) (k : PulseKind) (t : Tick) : State :=
  modTrig s n fun x =>
    if x.pend.length < 4 then { x with pend := x.pend ++ [(k, t)] }
    else { x with regs := { x.regs with trigStatusDropped := satInc x.regs.trigStatusDropped } }

/-- A pulse is dropped and counted (R265, R528). -/
def dropPulse (s : State) (n : BitVec 4) : State :=
  modTrig s n fun x => { x with regs := { x.regs with trigStatusDropped := satInc x.regs.trigStatusDropped } }

/-- The trigger outputs. -/
def trigIds : List (BitVec 4) := (List.range 16).map fun i => BitVec.ofNat 4 i

/-- The STEP-mode pulses of a launch are scheduled (R265): each output whose DIV the step's index meets, tested by R64. -/
def schedStepPulses (s : State) (launch : Tick) (step : BitVec 64) : State :=
  trigIds.foldl (fun s n =>
    let r := (s.trig n).regs
    if r.trigMode == 1 && step.toNat % (r.trigModeDiv.toNat + 1) == 0 then
      let t := launch + r.trigOffset.setWidth 64
      match schedTest s .tsu t with
      | (true, s) => addPulse s n (.step launch) t
      | (false, s) => dropPulse s n
    else s) s

/-- The STEP-mode pulses that a release has scheduled are dropped with its launch (R262); those of other steps stay. -/
def dropStepPulses (s : State) (launch : Tick) : State :=
  modTsu s fun t => { t with trigs := tmap {} (fun _ x => { x with pend := x.pend.filter fun p => p.1 != .step launch }) t.trigs }

/-- A time over `d` in units of 2^-16 ns, at the nearest 1/512 ns (R265). -/
def place512 (num : Int) (d : Int) : Int := (2 * num + 128 * d) / (256 * d) * 128

/-- The least integer at or above a quotient. -/
def ceilDiv (a b : Int) : Int := -((-a) / b)

/-- The next pulse of a PERIODIC output (R265, R528): k, and its place less IO_ADJ in units of 2^-16 ns. -/
def nextPeriodic (x : TrigLine) : Int × Int :=
  let r := x.regs
  let d : Int := r.trigPeriodDen.toNat + 1
  let num : Int := r.trigPeriodNum.toNat
  let k := match x.lastK with
    | some l => l + 1
    | none => ceilDiv (((x.enAt.toNat : Int) - r.trigPhase.toNat) * d) num
  (k, place512 ((r.trigPhase.toNat * 65536 - r.ioAdj.toInt) * d + k * num * 65536) d)

/-- An output starts a pulse at a time, or lengthens the pulse in progress (R176). -/
def startPulse (s : State) (n : BitVec 4) (t : Int) : State :=
  let x := s.trig n
  let s := modTrig s n fun x => { x with active := true, endAt := t + (x.regs.trigWidth.toNat + 1) * 65536 }
  if x.active then s else emit s (.trig n (!s.tsu.evt.trigCtrlPol.getLsbD n.toNat) (BitVec.ofInt 80 t))

/-- The earliest pending pulse of a list. -/
def firstPulse (ps : List (PulseKind × Tick)) : Option (PulseKind × Tick) :=
  ps.foldl (fun b p => match b with
    | none => some p
    | some q => if p.2.toNat < q.2.toNat then some p else some q) none

/-- The place of a scheduled pulse of an output, in units of 2^-16 ns: its tick less IO_ADJ, to the nearest 1/512 ns (R265). -/
def pulsePlace (x : TrigLine) (t : Tick) : Int := place512 (t.toNat * 65536 - x.regs.ioAdj.toInt) 1

/-- A scheduled pulse of an output starts; a disabled output holds its inactive level (R176). -/
def startPend (s : State) (n : BitVec 4) (p : PulseKind × Tick) : State :=
  let t := pulsePlace (s.trig n) p.2
  let s := modTrig s n fun x => { x with pend := x.pend.erase p }
  if s.tsu.evt.trigCtrlEn.getLsbD n.toNat then startPulse s n t else s

/-- TRIGGER_PULSE_START (R65, R176, R265, R528): the output's next pulse, scheduled or PERIODIC, once its place is reached. -/
def pulseStart (s : State) (n : BitVec 4) : State :=
  let x := s.trig n
  let horizon : Int := ((s.now .tsu).toNat + 1) * 65536
  let pend := (firstPulse x.pend).filter fun p => decide (pulsePlace x p.2 < horizon)
  let per := if s.tsu.evt.trigCtrlEn.getLsbD n.toNat && x.regs.trigMode == 2 && x.regs.trigPeriodNum != 0 then
      (some (nextPeriodic x)).filter fun q => decide (q.2 < horizon)
    else none
  if !s.acting .tsu then s
  else match pend, per with
    | some p, some q =>
      if pulsePlace x p.2 ≤ q.2 then startPend s n p else startPulse (modTrig s n fun x => { x with lastK := some q.1 }) n q.2
    | some p, none => startPend s n p
    | none, some q => startPulse (modTrig s n fun x => { x with lastK := some q.1 }) n q.2
    | none, none => s

/-- TRIGGER_PULSE_START (R176, R265). -/
def execTriggerPulseStart (n : BitVec 4) (s : State) : Host.Outcome State Fault Refusal := .next (pulseStart s n)

/-- TRIGGER_PULSE_END (R176): TRIG_WIDTH after the latest start the output is inactive. -/
def execTriggerPulseEnd (n : BitVec 4) (s : State) : Host.Outcome State Fault Refusal :=
  let x := s.trig n
  if x.active && decide (x.endAt < ((s.now .tsu).toNat + 1) * 65536) then
    .next (emit (modTrig s n fun x => { x with active := false })
      (.trig n (s.tsu.evt.trigCtrlPol.getLsbD n.toNat) (BitVec.ofInt 80 x.endAt)))
  else .next s

/-- Whether an output's settings pass the period test (R266). -/
def periodOk (r : TrigLineRegs) : Bool :=
  r.trigMode != 2 ||
    (decide (8 * (r.trigPeriodDen.toNat + 1) ≤ r.trigPeriodNum.toNat) &&
     decide ((r.trigWidth.toNat + 1) * (r.trigPeriodDen.toNat + 1) < r.trigPeriodNum.toNat))

/-- Whether a value is within its register's range (R13, R273). -/
def trigValueOk (off : Nat) (v : Word) : Bool :=
  (off != 0x080 || decide ((getF v 0 3 : BitVec 3).toNat ≤ 4)) &&
    (off != 0x088 || decide ((getF v 0 32 : BitVec 32).toNat ≤ 1000000000))

/-- A write of TRIG_MODE, TRIG_OFFSET, TRIG_PERIOD or TRIG_PHASE (R266). -/
def trigWrite (off : Nat) (i : Iface) (v : Word) (s : State) : Bool × State :=
  onPart .tsu i s fun s =>
    let r := (s.iface i).regs
    let n := r.ioSelIndex
    if !r.ioSelDir || s.tsu.evt.trigCtrlEn.getLsbD n.toNat || !trigValueOk off v || !periodOk ((s.trig n).regs.write off v) then
      refused s .tsu .evtrig
    else accept (modTrig s n fun x => { x with regs := x.regs.write off v, lastK := none })

/-- TRIG_MODE_WRITE (R266). -/
def execTrigModeWrite (i : Iface) (data : Word) (s : State) : Host.Outcome State Fault Refusal :=
  ackWrite i s (trigWrite 0x080 i data s)

/-- TRIG_PARAM_WRITE (R266): `which` 0 is TRIG_OFFSET, 1 TRIG_PERIOD, 2 and 3 TRIG_PHASE. -/
def execTrigParamWrite (i : Iface) (which : BitVec 2) (data : Word) (s : State) : Host.Outcome State Fault Refusal :=
  ackWrite i s (trigWrite (match which.toNat with | 0 => 0x088 | 1 => 0x090 | _ => 0x098) i data s)

/-- A write of TRIG_WIDTH (R177, R266). -/
def trigWidthWrite (i : Iface) (v : Word) (s : State) : Bool × State :=
  onPart .tsu i s fun s =>
    let r := (s.iface i).regs
    let n := r.ioSelIndex
    if !r.ioSelDir || !periodOk ((s.trig n).regs.write 0x078 v) then refused s .tsu .evtrig
    else accept (modTrig s n fun x => { x with regs := x.regs.write 0x078 v })

/-- A write of TRIG_ONESHOT (R266): tested by R64, it replaces a ONESHOT pulse still pending. -/
def oneshotWrite (i : Iface) (v : Word) (s : State) : Bool × State :=
  onPart .tsu i s fun s =>
    let r := (s.iface i).regs
    let n := r.ioSelIndex
    if !r.ioSelDir || (s.trig n).regs.trigMode != 3 then refused s .tsu .evtrig
    else match schedTest s .tsu v with
      | (true, s) =>
        accept (addPulse (modTrig s n fun x => { x with pend := x.pend.filter fun p => p.1 != .oneshot }) n .oneshot v)
      | (false, s) => refused s .tsu .evtrig

/-- TRIG_ONESHOT_WRITE (R266). -/
def execTrigOneshotWrite (i : Iface) (data : Word) (s : State) : Host.Outcome State Fault Refusal :=
  ackWrite i s (oneshotWrite i data s)

/-- A write of TRIG_CTRL (R176, R177, R265): an output that is enabled counts its PERIODIC pulses from here; one that is
disabled goes inactive. -/
def trigCtrlWrite (i : Iface) (v : Word) (s : State) : Bool × State :=
  onPart .tsu i s fun s =>
    let old := s.tsu.evt.trigCtrlEn
    let new : BitVec 16 := getF v 0 16
    let now := s.now .tsu
    let s := modTsu s fun t => { t with evt := t.evt.write 0x048 v }
    accept (trigIds.foldl (fun s n =>
      if new.getLsbD n.toNat && !old.getLsbD n.toNat then modTrig s n fun x => { x with enAt := now, lastK := none }
      else if !new.getLsbD n.toNat then modTrig s n fun x => { x with active := false }
      else s) s)

/-! ## The data-fabric completion port (R178, R179) -/

/-- WC_ISSUED_BEAT (R179): a beat carries its byte count minus one. -/
def execWcIssuedBeat (w : BitVec 2) (bytes : BitVec 16) (s : State) : Host.Outcome State Fault Refusal :=
  let n : BitVec 64 := bytes.setWidth 64 + 1
  if s.tsu.inReset then .next s
  else .next (modTsu s fun t => { t with dfc := match w.toNat with
    | 0 => { t.dfc with wcIssued0 := t.dfc.wcIssued0 + n }
    | 1 => { t.dfc with wcIssued1 := t.dfc.wcIssued1 + n }
    | 2 => { t.dfc with wcIssued2 := t.dfc.wcIssued2 + n }
    | _ => { t.dfc with wcIssued3 := t.dfc.wcIssued3 + n } })

/-- WC_DONE_BEAT (R179). -/
def execWcDoneBeat (w : BitVec 2) (bytes : BitVec 16) (s : State) : Host.Outcome State Fault Refusal :=
  let n : BitVec 64 := bytes.setWidth 64 + 1
  if s.tsu.inReset then .next s
  else .next (modTsu s fun t => { t with dfc := match w.toNat with
    | 0 => { t.dfc with wcDone0 := t.dfc.wcDone0 + n }
    | 1 => { t.dfc with wcDone1 := t.dfc.wcDone1 + n }
    | 2 => { t.dfc with wcDone2 := t.dfc.wcDone2 + n }
    | _ => { t.dfc with wcDone3 := t.dfc.wcDone3 + n } })

/-- INGRESS_BEAT (R179). -/
def execIngressBeat (g : BitVec 2) (bytes : BitVec 16) (s : State) : Host.Outcome State Fault Refusal :=
  let n : BitVec 64 := bytes.setWidth 64 + 1
  if s.tsu.inReset then .next s
  else .next (modTsu s fun t => { t with dfc := match g.toNat with
    | 0 => { t.dfc with ingress0 := t.dfc.ingress0 + n }
    | 1 => { t.dfc with ingress1 := t.dfc.ingress1 + n }
    | 2 => { t.dfc with ingress2 := t.dfc.ingress2 + n }
    | _ => { t.dfc with ingress3 := t.dfc.ingress3 + n } })

end Sys2Proof.Machine
end

