-- ==== Sys2Proof/Machine/Jobs.lean ====
section
/-! DEFINITION. What a hub does for the jobs it holds: finding a job and its home pair (R43, R529), routes up and down (R39
to R42), the Ladle (R407, R408, R521), the delivery rule at the receiver (R401), mirrors (R457) and epoch tests (R416). -/

namespace Sys2Proof.Machine

/-! ## Jobs -/

/-- What the hub holds of a job. -/
def State.job (s : State) (j : BitVec 12) : HubJob := tget {} s.hub.jobs j.toNat

/-- A job goes through a function. -/
def modJob (s : State) (j : BitVec 12) (f : HubJob → HubJob) : State :=
  modHub s fun h => { h with jobs := tmod {} h.jobs j.toNat f }

/-- Whether the hub holds the job's partition (R418: STATE is not NONE). -/
def State.holds (s : State) (j : BitVec 12) : Bool := (s.job j).regs.jobStatusState != 0

/-- Whether the hub is a member of the job's home pair (R43). -/
def State.isHome (s : State) (j : BitVec 12) : Bool :=
  s.holds j && ((s.job j).lead == s.hub.id.hubAddr || (s.job j).other == s.hub.id.hubAddr)

/-- Whether the hub leads the job's home pair (R404). -/
def State.isLead (s : State) (j : BitVec 12) : Bool := s.isHome j && (s.job j).leads

/-- An event of the hub about a job (R379). -/
def jobEv (s : State) (j : BitVec 12) (code sub : BitVec 16) (sev : BitVec 2) (rank : BitVec 32) (step : BitVec 64)
    (fs : List (Nat × Nat)) : Ev :=
  { code := code, sub := sub, sev := sev, job := evJob j (s.job j).regs.jobStatusEpoch, rank := rank, step := step
    payload := evPayload fs }

/-- The row, rack and slot of an endpoint (R32). -/
def epRow (e : BitVec 24) : BitVec 6 := e.extractLsb' 18 6

def epRack (e : BitVec 24) : BitVec 4 := e.extractLsb' 14 4

def epSlot (e : BitVec 24) : BitVec 8 := e.extractLsb' 6 8

/-- The row and rack of a hub address (R33). -/
def hubRow (a : BitVec 16) : BitVec 6 := a.extractLsb' 7 6

def hubRack (a : BitVec 16) : BitVec 4 := a.extractLsb' 3 4

/-- The leaf hub of a plane over an endpoint (R29, R33). -/
def leafOf (plane : Bool) (e : BitVec 24) : BitVec 16 :=
  BitVec.ofNat 16 (plane.toNat * 0x2000 + (epRow e).toNat * 128 + (epRack e).toNat * 8)

/-- The row hub of a plane over an endpoint (R33). -/
def rowOf (plane : Bool) (e : BitVec 24) : BitVec 16 := BitVec.ofNat 16 (0x4000 + plane.toNat * 0x2000 + (epRow e).toNat * 128)

/-- The endpoint that a leaf hub's link serves (R21, R29). -/
def State.epOf (s : State) (l : LinkId) : BitVec 24 :=
  BitVec.ofNat 24 ((hubRow s.hub.id.hubAddr).toNat * 2 ^ 18 + (hubRack s.hub.id.hubAddr).toNat * 2 ^ 14 +
    (4 * l.port.toNat + l.sub.toNat) * 64)

/-- Whether a leaf hub serves an endpoint. -/
def State.serves (s : State) (e : BitVec 24) : Bool :=
  s.tier == 0 && hubRow s.hub.id.hubAddr == epRow e && hubRack s.hub.id.hubAddr == epRack e

/-- The endpoint of a rank in a job's rank table (R44). -/
def State.rankEp (s : State) (j : BitVec 12) (r : BitVec 20) : Option (BitVec 24) := tget none (s.job j).ranks r.toNat

/-- The rank of an endpoint in a job's rank table. -/
def State.epRank (s : State) (j : BitVec 12) (e : BitVec 24) : Option (BitVec 20) :=
  ((s.job j).ranks.find? fun x => x.2 == some e).map fun x => BitVec.ofNat 20 x.1

/-- Endpoints of a job's members. -/
def State.memberEps (s : State) (j : BitVec 12) : List (BitVec 24) := (s.job j).ranks.filterMap fun x => x.2

/-- A list without repeats. -/
def dedup {α : Type} [DecidableEq α] : List α → List α
  | [] => []
  | a :: as => if a ∈ as then dedup as else a :: dedup as

/-- The hubs in the span of a job with these members and this home pair (R529). -/
def spanHubs (eps : List (BitVec 24)) (lead other : BitVec 16) : List (BitVec 16) :=
  let leaves := dedup (eps.flatMap fun e => [leafOf false e, leafOf true e])
  let rows := dedup (eps.flatMap fun e => [rowOf false e, rowOf true e])
  match tierOf lead with
  | 0 => [lead, other]
  | 1 => [lead, other] ++ leaves
  | _ => [lead, other] ++ rows ++ leaves

/-- The hubs in a job's span: the set is fixed when the job is admitted, and a remap can only add to it (R529). -/
def State.span (s : State) (j : BitVec 12) : List (BitVec 16) := (s.job j).spanSet

/-! ## Routes (R39, R40, R42) -/

/-- The flow key of R39: the job, the source, and the destination. Endpoints stand below 2^24, and what follows gives hubs, objects
and contexts places of their own. -/
def flowKey (job : BitVec 12) (src dst : Nat) : Nat := (job.toNat * 2 ^ 32 + src) * 2 ^ 32 + dst

def flowHub (a : BitVec 16) : Nat := 2 ^ 24 + a.toNat

def flowObj (o : BitVec 16) : Nat := 2 ^ 25 + o.toNat

def flowCtx (c : BitVec 12) : Nat := 2 ^ 26 + c.toNat

/-- The key of a flow of a job that this hub sends. -/
def State.ownFlow (s : State) (j : BitVec 12) (dst : Nat) : Nat := flowKey j (flowHub s.hub.id.hubAddr) dst

/-- The flows of a job end with it, and with them the messages that wait for a link (R39, R402). -/
def endFlows (s : State) (j : BitVec 12) : State :=
  modHub s fun h => { h with
    flows := h.flows.filter fun e => e.1 / 2 ^ 64 != j.toNat, stranded := h.stranded.filter fun e => e.job != j }

/-- The links of a list over which a neighbour is seen that a test accepts. -/
def State.linksTo (s : State) (ls : List LinkId) (p : BitVec 16 → Bool) : List LinkId := ls.filter fun l => p (s.seen l)

/-- The links of a list in the hub's own plane, or all of them when there is none (R42). -/
def State.ownPlane (s : State) (ls : List LinkId) : List LinkId :=
  let own := s.linksTo ls fun a => planeOf a == planeOf s.hub.id.hubAddr
  if own.isEmpty then ls else own

/-- The link that leads down to an endpoint, where the hub has one below it (R42). -/
def State.downTo (s : State) (key : Nat) (e : BitVec 24) : Option LinkId :=
  let down := s.roleLinks 1
  match s.tier with
  | 0 => if s.serves e then down.find? fun l => s.epOf l == e else none
  | 1 => flowChoice s key (s.ownPlane (s.linksTo down fun a => a == leafOf false e || a == leafOf true e))
  | _ => flowChoice s key (s.ownPlane (s.linksTo down fun a => a == rowOf false e || a == rowOf true e))

/-- The link that leads up for a job's traffic (R40): a row hub of a hall-span job it holds takes a member of its home
pair, and no other hall hub. -/
def State.upFor (s : State) (key : Nat) (j : BitVec 12) : Option LinkId :=
  let up := s.roleLinks 2
  let home := s.linksTo up fun a => a == (s.job j).lead || a == (s.job j).other
  flowChoice s key (if s.tier == 1 && s.holds j && tierOf (s.job j).lead == 2 then home else up)

/-- The link toward an endpoint: down where it lies below, and otherwise up (R40, R42). -/
def State.toEp (s : State) (key : Nat) (j : BitVec 12) (e : BitVec 24) : Option LinkId :=
  match s.downTo key e with
  | some l => some l
  | none => s.upFor key j

/-- The links in service on the ports that the routing table gives for a hub (R414, R423). -/
def State.routed (s : State) (a : BitVec 16) : List LinkId :=
  let mask := tget 0 s.hub.routes a.toNat
  if mask = 0 then [] else (s.activeLinks .hub).filter fun l => mask.getLsbD l.port.toNat

/-- The link toward a hub: one that the routing table gives, or one on which it is seen, or else one toward its rack or row,
or up. -/
def State.toHub (s : State) (key : Nat) (j : BitVec 12) (a : BitVec 16) : Option LinkId :=
  let routed := s.routed a
  let direct := if routed.isEmpty then s.linksTo (s.activeLinks .hub) fun x => x == a else routed
  if direct.isEmpty then
    match s.tier with
    | 2 => flowChoice s key (s.ownPlane (s.linksTo (s.roleLinks 1) fun x => hubRow x == hubRow a))
    | _ => s.upFor key j
  else flowChoice s key direct

/-- A message goes toward a hub. -/
def sendHub (s : State) (j : BitVec 12) (a : BitVec 16) (m : Msg) : State :=
  let key := s.ownFlow j (flowHub a)
  onRoute s key (s.toHub key j a) noRoute fun l s => sendLink s l none m

/-- A message goes toward an endpoint. -/
def sendEp (s : State) (j : BitVec 12) (e : BitVec 24) (m : Msg) : State :=
  let key := s.ownFlow j e.toNat
  onRoute s key (s.toEp key j e) noRoute fun l s => sendLink s l none m

/-- Flows of which each keeps its route, and the links that they take, each once; one that meets none is counted. -/
def takeRoutes (s : State) (rs : List (Nat × Option LinkId)) : List LinkId × State :=
  (dedup (rs.filterMap fun r => r.2), rs.foldl (fun s r => onRoute s r.1 r.2 noRoute fun _ s => s) s)

/-- A message goes once over each link that leads to a list of hubs and endpoints. -/
def sendTargets (s : State) (j : BitVec 12) (hubs : List (BitVec 16)) (eps : List (BitVec 24)) (m : Msg) : State :=
  let hs := (hubs.filter fun a => a != s.hub.id.hubAddr).map fun a =>
    let key := s.ownFlow j (flowHub a)
    (key, s.toHub key j a)
  let es := eps.map fun e =>
    let key := s.ownFlow j e.toNat
    (key, s.toEp key j e)
  let (ls, s) := takeRoutes s (hs ++ es)
  ls.foldl (fun s l => sendLink s l none m) s

/-! ## The Ladle (R408, R521) -/

/-- The ports of a mask as links (R530). -/
def maskLinks (m : BitVec 288) : List LinkId :=
  ((List.range 288).filter fun i => m.getLsbD i).map fun i => linkOfKey .hub i

/-- How many bits of a mask are set. -/
def popCount (m : BitVec 288) : Nat := ((List.range 288).filter fun i => m.getLsbD i).length

/-- The hub at the far end of a row or hall hub's DOWN link: the one it has learnt, or the one that the port map puts there (R22,
R23). -/
def State.childOf (s : State) (l : LinkId) : BitVec 16 :=
  let a := s.hub.id.hubAddr
  let p := l.port.toNat
  let pl := (planeOf a).toNat
  if s.seen l != 0xFFFF then s.seen l
  else if s.tier = 1 then BitVec.ofNat 16 (((pl + p / 2) % 2) * 0x2000 + (hubRow a).toNat * 128 + p / 4 * 8)
  else
    let sub := 4 * p + l.sub.toNat
    BitVec.ofNat 16 (0x4000 + sub % 2 * 0x2000 + sub / 2 * 128)

/-- The link that carries a Ladle copy for a link of the mask (R42): that one; while it is out of service, another to the same
child, or else one to the child in the other plane. A leaf hub delivers on its own links only. -/
def State.ladleLink (s : State) (key : Nat) (l : LinkId) : Option LinkId :=
  if (s.link l).active then some l
  else if s.tier = 0 || s.role l != 1 then none
  else
    let down := s.roleLinks 1
    let c := s.childOf l
    let same := s.linksTo down fun a => a == c
    flowChoice s key (if same.isEmpty then s.linksTo down fun a => a == twinOf c else same)

/-- The Ladle replicates a message to a group, less the job's fenced ports, and counts the copies sent, those to fenced ports, and
those for which no link is in service (R17, R42, R408, R521); a hub in SHADOW sends no release or result (R405). -/
def ladle (s : State) (j : BitVec 12) (g : BitVec 12) (m : Msg) : State :=
  let mask := (tget {} s.hub.groups g.toNat).mask
  let fence := (s.job j).fence
  let rs := (if s.hub.flt.hubRole == 1 then [] else maskLinks (mask &&& ~~~fence)).map fun l =>
    let key := s.ownFlow j (2 ^ 27 + l.key)
    (key, s.ladleLink key l)
  let (ls, s) := takeRoutes s (rs.filter fun r => r.2.isSome)
  let s := (rs.filter fun r => r.2.isNone).foldl (fun s _ => refuse s .hub .ladle) s
  let s := modHub s fun h => { h with
    flt := { h.flt with dlvErrLadleFenced := satAdd h.flt.dlvErrLadleFenced (popCount (mask &&& fence)) }
    ladle := { h.ladle with ldCount := satAdd h.ladle.ldCount ls.length } }
  ls.foldl (fun s l => sendLink s l none m) s

/-- The Ladle replicates a message on the group of a barrier (R218). -/
def ladleObj (s : State) (j : BitVec 12) (obj : BitVec 16) (m : Msg) : State :=
  match tget none (s.job j).objGroup obj.toNat with
  | some g => ladle s j g m
  | none => s

/-- A message goes on the job's all-members group (R533). -/
def ladleAll (s : State) (j : BitVec 12) (m : Msg) : State := ladleObj s j (s.job j).stepObj m

/-- A message goes on the all-members group of both planes: this hub's Ladle, and the twin's over TWIN (R225, R533). -/
def bothPlanes (s : State) (j : BitVec 12) (m : Msg) : State := sendTwin (ladleAll s j m) j.toNat m

/-! ## The delivery rule (R401, R402) -/

/-- The DSNs beyond the next expected that have become contiguous. -/
def dsnAbsorb : Nat → DsnSeen → DsnSeen
  | 0, e => e
  | n + 1, e => if e.next ∈ e.ahead then dsnAbsorb n { next := e.next + 1, ahead := e.ahead.erase e.next } else e

/-- A flit's DSN at the receiver: whether it is new, and what the pair keeps of the sender (R401). -/
def dsnTake (e : DsnSeen) (d : BitVec 32) : Bool × DsnSeen :=
  if signedDiff d e.next < 0 ∨ d ∈ e.ahead then (false, e)
  else if d = e.next then (true, dsnAbsorb e.ahead.length { e with next := e.next + 1 })
  else (true, { e with ahead := d :: e.ahead })

/-- A flit with a DSN is taken or dropped as a duplicate; flits over TWIN carry none. -/
def dsnCheck (s : State) (sender : BitVec 32) (d : Option (BitVec 32)) : Bool × State :=
  match d with
  | none => (true, s)
  | some d =>
    match dsnTake (tget {} s.hub.dsnSeen sender.toNat) d with
    | (true, e) => (true, modHub s fun h => { h with dsnSeen := tset {} h.dsnSeen sender.toNat e })
    | (false, _) => (false, modHub s fun h => { h with flt := { h.flt with dlvErrDuplicate := satInc h.flt.dlvErrDuplicate } })

/-- The receiver mirrors what it keeps of a sender and acknowledges cumulatively (R401). -/
def dsnAck (s : State) (l : LinkId) (sender : BitVec 32) (d : Option (BitVec 32)) : State :=
  match d with
  | none => s
  | some _ =>
    let c := (tget {} s.hub.dsnSeen sender.toNat).next - 1
    sendLink (mirror s 0 4 (sender.setWidth 64) (bvBytes 4 c)) l none (.dack { sender := sender, dsn := c })

/-- An upward collective flit reaches the hub: its credit returns, one with a reserved value is dropped, its DSN is looked at,
and a new one is acted on and acknowledged (R13, R401, R455, R460). -/
def onUp (s : State) (l : LinkId) (sender : BitVec 32) (d : Option (BitVec 32)) (m : Msg) (act : State → State) : State :=
  if msgReserved m then malformedFlit (taken s l m) l
  else match dsnCheck (taken s l m) sender d with
    | (true, s) => dsnAck (act s) l sender d
    | (false, s) => dsnAck s l sender d

/-- The twin pair a link leads to: its hub's address without the plane (R401). -/
def State.pairKey (s : State) (l : LinkId) : Nat := (s.seen l &&& 0xDFFF).toNat

/-- The hub's sender toward a twin pair. -/
def State.upSender (s : State) (k : Nat) : UpSender := tget {} s.hub.ups k

/-- An upward collective flit leaves on a link under the next DSN of its pair, kept until acknowledged and mirrored; with
4,096 unacknowledged the hub sends nothing more (R401, R402). -/
def hubSendUp (s : State) (l : LinkId) (m : Msg) : State :=
  let k := s.pairKey l
  let u := s.upSender k
  if u.unacked.length < 4096 ∧ u.waiting = [] then
    let s := modHub s fun h => { h with
      ups := tset {} h.ups k { u with dsn := u.dsn + 1, unacked := u.unacked ++ [(u.dsn, m)] } }
    let s := mirror s 0 5 (u.dsn.setWidth 64) ((msgTypeCode m) :: natToBytes 52 (msgPayload m) ++ msgTail m)
    sendLink s l (some u.dsn) m
  else modHub s fun h => { h with ups := tset {} h.ups k { u with waiting := u.waiting ++ [m] } }

/-- A message without DSN goes up for a job (R40). -/
def sendUp (s : State) (j : BitVec 12) (dst : Nat) (m : Msg) : State :=
  let key := s.ownFlow j dst
  onRoute s key (s.upFor key j) noRoute fun l s => sendLink s l none m

/-- A message with a DSN goes up for a job unchanged, or waits for a link (R40, R401). -/
def passUp (s : State) (j : BitVec 12) (dst : Nat) (m : Msg) : State :=
  let key := s.ownFlow j dst
  onRoute s key (s.upFor key j) (fun s => strand s ⟨.hub, 0, 0⟩ j dst m) fun l s => hubSendUp s l m

/-- The message of a list that a test finds takes another value; none when no message is found. -/
def foldFirst (f : Msg → Option Msg) : List (Option (BitVec 32) × Msg) → Option (List (Option (BitVec 32) × Msg))
  | [] => none
  | (d, m) :: rest =>
    match f m with
    | some m' => some ((d, m') :: rest)
    | none => (foldFirst f rest).map fun r => (d, m) :: r

/-- The same over messages without DSN. -/
def foldFirstMsg (f : Msg → Option Msg) : List Msg → Option (List Msg)
  | [] => none
  | m :: rest =>
    match f m with
    | some m' => some (m' :: rest)
    | none => (foldFirstMsg f rest).map fun r => m :: r

/-- A partial goes up on a link: into one for the same item that is still queued on that output, and otherwise by itself; a
hub never holds a partial back (R41, R223, R311, R337). -/
def foldUp (s : State) (l : LinkId) (m : Msg) (f : Msg → Option Msg) : State :=
  let u := s.upSender (s.pairKey l)
  match foldFirstMsg f u.waiting with
  | some w => modHub s fun h => { h with ups := tset {} h.ups (s.pairKey l) { u with waiting := w } }
  | none =>
    match foldFirst f (s.link l).hold with
    | some hold =>
      let d := ((s.link l).hold.find? fun e => (f e.2).isSome).bind fun e => e.1
      let s := modLink s l fun k => { k with hold := hold }
      -- the kept copy of the queued flit takes the same value
      modHub s fun h => { h with
        ups := tmod {} h.ups (s.pairKey l) fun u => { u with
          unacked := u.unacked.map fun e => (e.1, if some e.1 = d then (f e.2).getD e.2 else e.2) } }
    | none => hubSendUp s l m

/-- A partial goes to the twin: into one for the same item that is still queued on that output, and otherwise by itself (R41,
R223). -/
def foldTwin (s : State) (key : Nat) (m : Msg) (f : Msg → Option Msg) : State :=
  onRoute s key (s.twinLink key) id fun l s =>
    match foldFirst f (s.link l).hold with
    | some hold => modLink s l fun k => { k with hold := hold }
    | none => sendLink s l none m

/-- A partial goes up for a job, or waits for a link (R40, R41). -/
def foldOn (s : State) (j : BitVec 12) (dst : Nat) (m : Msg) (f : Msg → Option Msg) : State :=
  let key := s.ownFlow j dst
  onRoute s key (s.upFor key j) (fun s => strand s ⟨.hub, 0, 0⟩ j dst m) fun l s => foldUp s l m f

/-! ## Signals on their way (R40, R42) -/

/-- The source in a flow's key (R39): the endpoint at a leaf hub's own TSU link, and elsewhere the neighbour it comes from. -/
def State.flowSrc (s : State) (l : LinkId) : Nat :=
  if s.tier == 0 && s.role l == 1 then (s.epOf l).toNat else flowHub (s.seen l)

/-- Whether an endpoint lies below the hub (R40): in a leaf hub's rack, in a row hub's row, or anywhere under a hall hub. -/
def State.below (s : State) (e : BitVec 24) : Bool :=
  match s.tier with
  | 0 => s.serves e
  | 1 => hubRow s.hub.id.hubAddr == epRow e
  | _ => true

/-- A signal whose endpoint is known goes on: down where the endpoint lies below, and otherwise up; one that came down to a hub
below which its endpoint does not lie is refused (R17, R40, R42). -/
def signalOn (s : State) (l : LinkId) (m : SignalP) (e : BitVec 24) : State :=
  let key := flowKey m.job (s.flowSrc l) e.toNat
  let m' : Msg := .signal { m with dest := .endpoint e }
  let wait := fun s => strand s l m.job e.toNat m'
  if s.below e then onRoute s key (s.downTo key e) wait fun l s => sendLink s l none m'
  else if s.role l == 2 then refuse s .hub .xlat
  else onRoute s key (flowChoice s key (s.roleLinks 2)) wait fun l s => hubSendUp s l m'

/-- A message that waited for a link tries again (R402). -/
def unstrandOne (s : State) (x : Stranded) : State :=
  match x.msg with
  | .signal m => match m.dest with
    | .endpoint e => signalOn s x.via m e
    | .rank _ => s
  | m => passUp s x.job x.dst m

/-- A link is in service again: the messages that waited for one try again, in their order (R402). -/
def unstrand (s : State) : State :=
  s.hub.stranded.foldl unstrandOne (modHub s fun h => { h with stranded := [] })

/-! ## Epochs and fences (R416, R407) -/

/-- Whether a flit's job and epoch are the job's current ones on the hub (R416); a job that is ABORTED or DRAINING refuses its
flits and counts them (R440, R442). -/
def hubJobOk (s : State) (j : BitVec 12) (epoch : Bool) (g : Page) : Bool × State :=
  let r := (s.job j).regs
  if r.jobStatusState == 0 then (false, s)
  else if r.jobStatusState == 5 || r.jobStatusState == 6 then (false, refuse s .hub g)
  else if r.jobStatusEpoch == epoch then (true, s)
  else if r.jobStatusGrace then
    (true, modHub s fun h => { h with txn := { h.txn with txnErrGraceAccepted := satInc h.txn.txnErrGraceAccepted } })
  else (false, s)

/-- A flit that is not of its job's current epoch is dropped (R17, R416): counted as the kind of flit says where the hub holds the
job, and in the page's refusals where it does not. An ABORTED or DRAINING job has counted it. -/
def dropOld (s : State) (j : BitVec 12) (g : Page) (count : State → State) : State :=
  match (s.job j).regs.jobStatusState.toNat with
  | 0 => refuse s .hub g
  | 5 => s
  | 6 => s
  | _ => count s

/-- A message whose wire step lies too far from the hub's own step of a job that it holds is refused (R63, R67). -/
def nearStep (s : State) (j : BitVec 12) (w : BitVec 24) (act : State → State) : State :=
  if !s.holds j || (extendStep w (s.job j).step).isSome then act s else countStepRefused s .hub w (s.job j).step

/-- A hub whose VALID is 0 refuses a message that names a hall tick: it is counted, and NOT_READY answers it (R68). -/
def ifValid (l : LinkId) (act : State → State) (s : State) : State :=
  if s.valid .hub then act s else sendLink (countNotValid s .hub) l none (.notReady { cause := 0 })

/-- A refusal at the edge (R45, R520). -/
def refuseXlat (s : State) (j : BitVec 12) : State :=
  modJob (refuse s .hub .xlat) j fun b => { b with xlRefused := satInc b.xlRefused }

/-- A message from one of a leaf hub's own TSUs that carries a rank at or above the membership is refused at the edge (R45). -/
def atEdge (s : State) (l : LinkId) (j : BitVec 12) (r : BitVec 20) (act : State → State) : State :=
  if s.tier == 0 && s.role l == 1 && s.holds j && decide ((s.job j).members.toNat ≤ r.toNat) then refuseXlat s j else act s

/-- Whether an endpoint is fenced for a job (R47, R407). -/
def State.isFenced (s : State) (j : BitVec 12) (e : BitVec 24) : Bool := (s.job j).fenced.contains e || s.hub.declared.contains e

/-- Whether a link leads to the twin. -/
def State.isTwin (s : State) (l : LinkId) : Bool := s.role l == 3

/-- SH_ERR counts (R249). -/
def modSynch (s : State) (f : SynchRegs → SynchRegs) : State := modHub s fun h => { h with synch := f h.synch }

/-- A flit of a fenced die is rejected: counted in SH_ERR.FENCED and reported by EV_FENCED with SUB 1 (R222, R345, R407). -/
def rejectFenced (s : State) (j : BitVec 12) (e : BitVec 24) : State :=
  let s := modSynch s fun r => { r with shErrFenced := satInc r.shErrFenced }
  let rank : BitVec 32 := match s.epRank j e with | some r => r.setWidth 32 | none => 0xFFFFFFFF
  raise s .hub (jobEv s j 0x0020 1 1 rank (s.job j).step [(32, e.toNat)])

end Sys2Proof.Machine
end

