-- ==== Sys2Proof/Machine/Audit.lean ====
section
/-! DEFINITION. The audit log with its chain and gaps (R349 to R358), the replay ring (R369, R370, R378), and datagrams of
the management port (R518). -/

namespace Sys2Proof.Machine

/-- Bytes of fields in order, each with its size in bytes, most significant byte first. -/
def fieldBytes (fs : List (Nat × Nat)) : List (BitVec 8) := fs.flatMap fun f => natToBytes f.1 f.2

/-- Bytes extended with zeros to a length. -/
def padTo (n : Nat) (bs : List (BitVec 8)) : List (BitVec 8) := bs ++ List.replicate (n - bs.length) 0

/-- The word that bytes `8 i` to `8 i + 7` give, most significant byte first. -/
def byteWord (bs : List (BitVec 8)) (i : Nat) : Word := BitVec.ofNat 64 (bytesToNat ((bs.drop (8 * i)).take 8))

/-! ## Datagrams (R518) -/

/-- Whether an address lies within the management port's prefix. -/
def inPrefix (r : MgmtRegs) (ip : BitVec 32) : Bool :=
  (ip >>> (32 - r.mgIpv4Prefix.toNat)) == (r.mgIpv4Addr >>> (32 - r.mgIpv4Prefix.toNat))

/-- The management port sends a datagram (R518). -/
def udpSend (s : State) (ip : BitVec 32) (port : BitVec 16) (data : List (BitVec 8)) : State :=
  let r := s.hub.mgmt
  if r.mgIpv4Addr = 0 then s
  else if !inPrefix r ip && r.mgGateway == 0 then
    modHub s fun h => { h with mgmt := { h.mgmt with mgStatusTxDrop := satInc h.mgmt.mgStatusTxDrop } }
  else emit s (.udp ip port data)

/-! ## Records (R349 to R354) -/

/-- A record's common fields and body (R350). -/
structure AudRec where
  type : Nat
  flags : Nat
  step : BitVec 64
  body : List (BitVec 8)
  deriving DecidableEq, Repr

/-- How many records a ring of the given GiB holds (R349). -/
def audCap (r : AuditRegs) : Nat := r.audCfg.toNat * 4194304

/-- Bytes 0x00 to 0xCF of a record. -/
def audBytes (s : State) (j : BitVec 12) (r : AudRec) : List (BitVec 8) :=
  fieldBytes [(2, r.type), (1, 1), (1, r.flags), (2, (evJob j (s.job j).regs.jobStatusEpoch).toNat),
    (2, s.hub.id.hubAddr.toNat), (8, r.step.toNat), (8, (s.now .hub).toNat)] ++ padTo 176 r.body ++
    natToBytes 8 (s.job j).audSeq.toNat

/-- The next CHAIN of a job over a record (R350). -/
def audChain (s : State) (j : BitVec 12) (bytes : List (BitVec 8)) : BitVec 384 := sha384 (bvBytes 48 (s.job j).audChain ++ bytes)

/-- Whether the ring takes a record now (R354). -/
def audOpen (r : AuditRegs) : Bool := r.audCtrlEn && decide ((r.audHead - r.audTail).toNat < audCap r)

/-- The page's HALF_FULL cause (R355). -/
def audLevel (s : State) : State :=
  let r := s.hub.aud
  if decide (audCap r / 2 ≤ (r.audHead - r.audTail).toNat) then setCause s .hub .audit 2 else s

/-- The job's SEQ and CHAIN advance and are mirrored (R350, R351). -/
def audAdvance (s : State) (j : BitVec 12) (chain : BitVec 384) : State :=
  let q := (s.job j).audSeq
  mirror (modJob s j fun b => { b with audSeq := q + 1, audChain := chain }) j 6 0 (natToBytes 8 (q + 1).toNat ++ bvBytes 48 chain)

/-- A record is written to the ring (R349, R355). -/
def audPut (s : State) (j : BitVec 12) (r : AudRec) : State :=
  let bytes := audBytes s j r
  let chain := audChain s j bytes
  let rec_ : BitVec 2048 := BitVec.ofNat 2048 (bytesToNat (bytes ++ bvBytes 48 chain))
  let s := modHub s fun h => { h with
    audRing := tset 0 h.audRing (h.aud.audHead.toNat % audCap h.aud) rec_
    aud := { h.aud with audHead := h.aud.audHead + 1 } }
  audLevel (setCause (audAdvance s j chain) .hub .audit 0)

/-- A record is dropped: SEQ and CHAIN advance as if it had been written (R354). -/
def audDrop (s : State) (j : BitVec 12) (r : AudRec) : State :=
  let chain := audChain s j (audBytes s j r)
  let b := s.job j
  let gap : AudGap := match b.gap with
    | some g => { g with count := g.count + 1, step := r.step, chain := chain }
    | none => { first := b.audSeq, count := 1, step := r.step, chain := chain }
  let s := modJob s j fun b => { b with gap := some gap }
  let s := modHub s fun h => { h with aud := { h.aud with audDrop := satInc h.aud.audDrop } }
  setCause (audAdvance s j chain) .hub .audit 1

/-- The GAP record of a job, once the ring takes records again (R353, R354). -/
def audGap (s : State) (j : BitVec 12) : State :=
  match (s.job j).gap with
  | some g =>
    if audOpen s.hub.aud then
      let body := fieldBytes [(8, g.first.toNat), (8, g.count), (8, g.step.toNat)] ++ bvBytes 48 g.chain
      audPut (modJob s j fun b => { b with gap := none }) j { type := 3, flags := 0, step := g.step, body := body }
    else s
  | none => s

/-- The GAP records of all jobs, as far as the ring takes them (R354). -/
def audFlush (s : State) : State := (s.hub.jobs.map fun e => BitVec.ofNat 12 e.1).foldl audGap s

/-- A record of a job is written, after its GAP record, or dropped (R354). -/
def audit (s : State) (j : BitVec 12) (r : AudRec) : State :=
  let s := audGap s j
  if audOpen s.hub.aud then audPut s j r else audDrop s j r

/-! ## The AUDIT page (R355, R358) -/

/-- A write of AUD_TAIL (R355). -/
def audTailWrite (i : Iface) (v : Word) (s : State) : Bool × State :=
  onPart .hub i s fun s =>
    if v.toNat < s.hub.aud.audTail.toNat ∨ s.hub.aud.audHead.toNat < v.toNat then refused s .hub .audit
    else accept (audFlush (modHub s fun h => { h with aud := { h.aud with audTail := v } }))

/-- AUD_TAIL_WRITE (R355). -/
def execAudTailWrite (i : Iface) (data : Word) (s : State) : Host.Outcome State Fault Refusal :=
  ackWrite i s (audTailWrite i data s)

/-- A write of AUD_CFG (R349, R358). -/
def audCfgWrite (i : Iface) (v : Word) (s : State) : Bool × State :=
  onPart .hub i s fun s =>
    let n : BitVec 8 := getF v 0 8
    if s.hub.aud.audCtrlEn || n == 0 || decide (16 < n.toNat) then refused s .hub .audit
    else if n = s.hub.aud.audCfg then accept s
    else accept (modHub s fun h => { h with
      audRing := [], aud := { h.aud with audCfg := n, audTail := h.aud.audHead, audExported := h.aud.audHead } })

/-- AUD_CFG_WRITE (R349). -/
def execAudCfgWrite (i : Iface) (data : Word) (s : State) : Host.Outcome State Fault Refusal :=
  ackWrite i s (audCfgWrite i data s)

/-- A write of AUD_CTRL (R354, R358). -/
def audCtrlWrite (i : Iface) (v : Word) (s : State) : Bool × State :=
  onPart .hub i s fun s => accept (audFlush (modHub s fun h => { h with aud := h.aud.write 0x040 v }))

/-- AUD_CTRL_WRITE (R354). -/
def execAudCtrlWrite (i : Iface) (data : Word) (s : State) : Host.Outcome State Fault Refusal :=
  ackWrite i s (audCtrlWrite i data s)

/-- A read of AUD_RD0 (R355, R358): the rest of the record is latched for the interface. -/
def audRd0Read (i : Iface) (s : State) : Word × State :=
  onPartRead .hub i s fun s =>
    let r := s.hub.aud
    let k := (s.iface i).regs.audRdIdx
    if r.audTail.toNat ≤ k.toNat ∧ k.toNat < r.audHead.toNat then
      let bs := bvBytes 256 (tget 0 s.hub.audRing (k.toNat % audCap r))
      (byteWord bs 0, modIface s i fun c => { c with audit := bs })
    else (0, refuse (modIface s i fun c => { c with audit := [] }) .hub .audit)

/-- AUD_RD0_READ (R358). -/
def execAudRd0Read (i : Iface) (s : State) : Host.Outcome State Fault Refusal := ackRead i s (audRd0Read i s)

/-- The 16-byte header of an export datagram (R356, R386). -/
def exportHeader (s : State) (magic count : Nat) (first : BitVec 64) : List (BitVec 8) :=
  fieldBytes [(2, magic), (1, 1), (1, count), (2, s.hub.id.hubAddr.toNat), (2, 0), (8, first.toNat)]

/-- How many of `n` records from an index on the audit ring holds: one lost to an uncorrectable read has become zero (R524). -/
def audRun (s : State) : Nat → Nat → Nat
  | 0, _ => 0
  | n + 1, k => if tget 0 s.hub.audRing (k % audCap s.hub.aud) = 0 then 0 else 1 + audRun s n (k + 1)

/-- AUDIT_EXPORT_SEND (R356): up to 4 records leave in index order, and are freed when EXPORT_FREES is 1; a record that an
uncorrectable read has lost is passed over (R524). -/
def execAuditExportSend (s : State) : Host.Outcome State Fault Refusal :=
  let r := s.hub.aud
  let first : BitVec 64 := if r.audExported.toNat < r.audTail.toNat then r.audTail else r.audExported
  let n := min 4 (r.audHead.toNat - first.toNat)
  if !r.audCtrlExportEn || n == 0 then .next s
  else
    let m := audRun s n first.toNat
    let recs := (List.range m).flatMap fun i => bvBytes 256 (tget 0 s.hub.audRing ((first.toNat + i) % audCap r))
    let s := if m = 0 then s else udpSend s r.audDestIpv4 r.audDestPort (exportHeader s 0x4155 m first ++ recs)
    let next := first + BitVec.ofNat 64 (max m 1)
    .next (audFlush (modHub s fun h => { h with aud := { h.aud with
      audExported := next, audTail := if r.audCtrlExportFrees then next else h.aud.audTail } }))

/-! ## The replay ring (R369, R370) -/

/-- How many entries the replay ring holds (R370). -/
def rlCap (r : DethRegs) : Nat := r.rlCfgSizeGib.toNat * 33554432

/-- An entry of the replay ring (R370). -/
def rlEntry (step : BitVec 64) (launch : Tick) (value : Word) (job : BitVec 16) (vidx : BitVec 8) (home : Bool) (rank : BitVec 32) :
    BitVec 256 :=
  step ++ launch ++ value ++ job ++ vidx ++ (BitVec.ofNat 8 home.toNat) ++ rank

/-- An entry is appended, or dropped and counted when the ring is full (R370). -/
def rlAppend (s : State) (e : BitVec 256) : State :=
  let r := s.hub.deth
  if !r.rlCfgEn then s
  else if (r.rlHead - r.rlTail).toNat < rlCap r then
    modHub s fun h => { h with
      rlRing := tset 0 h.rlRing (r.rlHead.toNat % rlCap r) e, deth := { h.deth with rlHead := r.rlHead + 1 } }
  else setCause (modHub s fun h => { h with deth := { h.deth with rlDrop := satInc h.deth.rlDrop } }) .hub .deth 1

/-- VREC_RECEIVE (R369): the leaf hub extends STEP and LAUNCH, appends the entry and mirrors it. -/
def vrecTake (m : VrecP) (s : State) : State :=
  match hubJobOk s m.job m.epoch .deth with
  | (false, s) => dropOld s m.job .deth fun s => refuse s .hub .deth
  | (true, s) =>
    match extendStep m.step (s.job m.job).step, extendWire m.launch (s.now .hub) with
    | some st, some la =>
      let e := rlEntry st la m.value (evJob m.job m.epoch) m.vidx false (m.rank.setWidth 32)
      mirror (rlAppend s e) m.job 7 (m.rank.setWidth 64) (bvBytes 32 e)
    | none, _ => countStepRefused s .hub m.step (s.job m.job).step
    | some _, none => countPast s .hub

/-- VREC_RECEIVE (R45, R68, R369). -/
def execVrecReceive (l : LinkId) (sender : BitVec 32) (dsn : Option (BitVec 32)) (m : VrecP) (s : State) :
    Host.Outcome State Fault Refusal :=
  .next (onUp s l sender dsn (.vrec m) fun s =>
    if s.valid .hub then atEdge s l m.job m.rank (vrecTake m)
    else sendLink (countNotValid s .hub) l none (.notReady { cause := 0 }))

/-- A write of RL_TAIL (R355, R378). -/
def rlTailWrite (i : Iface) (v : Word) (s : State) : Bool × State :=
  onPart .hub i s fun s =>
    if v.toNat < s.hub.deth.rlTail.toNat ∨ s.hub.deth.rlHead.toNat < v.toNat then refused s .hub .deth
    else accept (modHub s fun h => { h with deth := { h.deth with rlTail := v } })

/-- RL_TAIL_WRITE (R378). -/
def execRlTailWrite (i : Iface) (data : Word) (s : State) : Host.Outcome State Fault Refusal :=
  ackWrite i s (rlTailWrite i data s)

/-- A write of RL_CFG (R378): a size out of range, or another size while EN is 1, is refused; a new size frees every entry. -/
def rlCfgWrite (i : Iface) (v : Word) (s : State) : Bool × State :=
  onPart .hub i s fun s =>
    let n : BitVec 8 := getF v 0 8
    let r := s.hub.deth
    if n = 0 ∨ 16 < n.toNat ∨ (r.rlCfgEn ∧ n ≠ r.rlCfgSizeGib) then refused s .hub .deth
    else if n = r.rlCfgSizeGib then accept (modHub s fun h => { h with deth := { h.deth with rlCfgEn := getB v 8 } })
    else accept (modHub s fun h => { h with
      rlRing := [], deth := { h.deth with rlCfgEn := getB v 8, rlCfgSizeGib := n, rlTail := h.deth.rlHead } })

/-- A read of RL_RD0 (R378). -/
def rlRd0Read (i : Iface) (s : State) : Word × State :=
  onPartRead .hub i s fun s =>
    let r := s.hub.deth
    let k := (s.iface i).regs.rlRdIdx
    if r.rlTail.toNat ≤ k.toNat ∧ k.toNat < r.rlHead.toNat then
      let e := tget 0 s.hub.rlRing (k.toNat % rlCap r)
      (e.extractLsb' 192 64, modIface s i fun c => { c with replay := e })
    else (0, refuse (modIface s i fun c => { c with replay := 0 }) .hub .deth)

/-- RL_RD0_READ (R378). -/
def execRlRd0Read (i : Iface) (s : State) : Host.Outcome State Fault Refusal := ackRead i s (rlRd0Read i s)

end Sys2Proof.Machine
end

