-- ==== Sys2Proof/Machine/Abort.lean ====
section
/-! DEFINITION. Ending a job (R442 to R445): what each part does, the lead's decision, and what a coordinator does with a
transaction that is aborted; the STEP record (R352); launch misses and halts as they are reported (R252, R293). -/

namespace Sys2Proof.Machine

/-! ## The STEP record (R352) -/

/-- E: the contributions a step should have (R338). -/
def digestExpect (plan : Tbl Word) : Nat :=
  plan.foldl (fun n e => if getB e.2 63 then n + ((getF e.2 0 18 : BitVec 18).toNat + 1) else n) 0

/-- The launch that a hub keeps of a step. -/
def launchOf (b : HubJob) (step : BitVec 64) : LaunchRec :=
  (b.launches.find? fun r => r.step == step).getD { step := step, tick := 0, late := false, rebased := false }

/-- The folds that a home member holds of a step. -/
def foldOf (b : HubJob) (step : BitVec 64) : StepFold := (b.folds.find? fun f => f.step == step).getD { step := step }

/-- A change of the envelope up to a step is shown by the step's record (R352). -/
def shownEnv (b : HubJob) (step : BitVec 64) : HubJob :=
  { b with envs := b.envs.map fun e => { e with changed := e.changed && decide (step.toNat < e.step.toNat) } }

/-- The lead writes the STEP record of a close (R352): FLAGS bits 2 to 6 are given, the others follow from the launch and from the
envelope that was in force at it; VMAP_HOME is VARY_STEP as it stands, the map of the last completed pass (R284, R296). -/
def stepRecord (s : State) (j : BitVec 12) (c : Closing) (flags : Nat) : State :=
  let b := s.job j
  let f := c.fold
  let la := launchOf b f.step
  let env := ((b.envs.find? fun e => e.step == f.step).map EnvRec.env).getD b.env
  let changed := b.envs.any fun e => e.changed && decide (e.step.toNat ≤ f.step.toNat)
  let fl := flags + la.late.toNat + 2 * la.rebased.toNat + 128 * changed.toNat
  let body := fieldBytes [(8, la.tick.toNat), (4, f.n), (4, c.expect), (4, f.vcount + b.seq.vcount), (4, c.groups),
    (16, f.d0.toNat), (16, f.d1.toNat), (48, env.toNat), (32, f.map.toNat), (32, b.seq.mapStep.toNat), (4, c.suspect.toNat)]
  audit (modJob s j fun b => shownEnv b f.step) j { type := 1, flags := fl, step := f.step, body := body }

/-- The INCOMPLETE record of a pass that an abort stops before HDIGEST has completed (R352). -/
def incompleteRecord (s : State) (j : BitVec 12) : State :=
  let b := s.job j
  if b.seq.regs.seqStatusState != 0 && !b.closed then
    stepRecord s j { fold := foldOf b b.seq.step, expect := digestExpect b.plan, groups := 0, events := []
                     suspect := 0xFFFFFFFF } 16
  else s

/-! ## Parts enter ABORTED (R442) -/

/-- An upward message that belongs to the die's job. -/
def ofJob : Msg → Bool
  | .evrec _ => false
  | _ => true

/-- The TSU takes a launch back (R262), also one that it has missed: its STEP-mode pulses are dropped. -/
def cancelLaunch (s : State) : State :=
  match (s.tsu.launch.map fun h => h.tick).or s.tsu.missed with
  | some tick =>
    dropStepPulses (cancelTaps (modTsu s fun t => { t with
      launch := none, rel := none, missed := none, step := { t.step with stepStatusNextValid := false } })) tick
  | none => modTsu s fun t => { t with rel := none }

/-- The sequencer stops and is IDLE (R295). -/
def idleSeq (q : Seq) : Seq := { q with wait := none, next := none, regs := { q.regs with seqStatusState := 0 } }

/-- Every armed host wait ends aborted (R240, R241). -/
def abortWaits (s : State) : State :=
  (List.range 16).foldl (fun s w =>
    let w := BitVec.ofNat 4 w
    if (s.hostWait w).waitStatusResult == 1 then
      setCause (modWait s w fun r => { r with waitStatusResult := 0, waitStatusAborted := true }) .tsu .sync w.toNat
    else s) s

/-- The queued SENDs are discarded; one of the host port that is held for space is answered (R234). -/
def discardSends (s : State) : State :=
  let held := s.tsu.heldSends
  let s := modTsu s fun t => { t with sends := [], heldSends := [] }
  held.foldl (fun s e => match e.2 with
    | some w => answer s w false
    | none => s) s

/-- The TSU enters ABORTED (R241, R262, R295, R442, R444). -/
def tsuAbort (s : State) : State :=
  let s := discardSends (abortWaits (cancelLaunch s))
  let s := modTsu s fun t => { t with
    seq := idleSeq t.seq, xhold := []
    up := { t.up with unacked := t.up.unacked.filter fun e => !ofJob e.2, waiting := t.up.waiting.filter fun m => !ofJob m }
    staged := tmod none t.staged t.txnt.ttJob.toNat fun g => g.filter fun g => g.kind == 7 && !g.committed
    pauseMark := false
    txnt := { t.txnt with ttJobState := 5, ttErrAborts := satInc t.txnt.ttErrAborts } }
  setCause s .tsu .txnt 0

/-- The hub enters ABORTED for a job (R295, R442, R444). -/
def hubAbort (s : State) (j : BitVec 12) : State :=
  modHub (modJob s j fun b => { b with
    regs := { b.regs with jobStatusState := 5 }, seq := idleSeq b.seq, nextLaunch := none, closing := none, marked := false })
    fun h => { h with staged := tmod none h.staged j.toNat fun g => g.filter fun g => g.kind == 7 && !g.committed }

/-- A message goes on down toward every member that lies below the hub (R42). -/
def forwardDown (s : State) (j : BitVec 12) (eps : List (BitVec 24)) (m : Msg) : State :=
  let (ls, s) := takeRoutes s ((eps.map fun e => let key := s.ownFlow j e.toNat; (key, s.downTo key e)).filter fun r => r.2.isSome)
  ls.foldl (fun s l => sendLink s l none m) s

/-! ## Transactions that end (R429, R434, R444, R445) -/

/-- A transaction that the coordinator holds. -/
def State.txn (s : State) (tid : BitVec 16) : Txn := tget {} s.hub.txns tid.toNat

/-- A transaction goes through a function. -/
def modTxn (s : State) (tid : BitVec 16) (f : Txn → Txn) : State :=
  modHub s fun h => { h with txns := tmod {} h.txns tid.toNat f }

/-- TXN_ERR and the other registers of the TXN page. -/
def modTxnRegs (s : State) (f : TxnRegs → TxnRegs) : State := modHub s fun h => { h with txn := f h.txn }

/-! ## Mirrored transactions (R433, R457) -/

/-- The phase and votes of a transaction go to the twin, with a vote's values where one has just come. -/
def mirrorTxn (s : State) (tid : BitVec 16) (v : Option (BitVec 32 × MemberVals)) : State :=
  let x := s.txn tid
  let r := x.regs
  mirror s (r.txnStatusPartition.setWidth 12) 8 (tid.setWidth 64)
    (bvBytes 1 (r.txnStatusPhase.setWidth 8) ++ bvBytes 1 (r.txnStatusKind.setWidth 8) ++
      bvBytes 2 (r.txnStatusPartition.setWidth 16) ++ bvBytes 4 r.txnVotesYes ++ bvBytes 4 r.txnVotesExpected ++
      bvBytes 8 r.txnTick ++ bvBytes 8 r.txnTag ++
      match v with
      | some (o, m) => bvBytes 4 o ++ bvBytes 4 m.ident ++ bvBytes 8 m.fw ++ bvBytes 32 m.unitmap
      | none => [])

/-- A transaction has finished: its partition's lock is free, the twin is told, and the status of the last 256 is kept (R432,
R433, R446). -/
def finishTxn (s : State) (tid : BitVec 16) : State :=
  let p := (s.txn tid).regs.txnStatusPartition.toNat
  let fin := tid :: s.hub.finished
  let s := modHub s fun h => { h with
    queue := h.queue.erase tid
    finished := fin.take 256
    locks := if tget none h.locks p == some tid then tset none h.locks p none else h.locks }
  let s := mirrorTxn s tid none
  (fin.drop 256).foldl (fun s t => modTxn s t fun _ => {}) s

/-- EV_TXN_ABORT (R445). -/
def txnAbortEv (s : State) (sub : BitVec 16) (part : BitVec 13) (tid : BitVec 16) (kind : BitVec 8) (cause : BitVec 8)
    (voter : BitVec 32) (commit : Tick) (tag : Word) : State :=
  let fs := [(16, tid.toNat), (8, kind.toNat), (8, cause.toNat), (32, voter.toNat), (64, commit.toNat), (64, tag.toNat)]
  let j : BitVec 12 := part.setWidth 12
  if part.getLsbD 12 then raise s .hub (plainEv 0x0025 sub 2 fs)
  else raise s .hub (jobEv s j 0x0025 sub 2 0xFFFFFFFF (s.job j).step fs)

/-- The transaction fields of a flit (R457). -/
def State.abortMsg (s : State) (tid : BitVec 16) : Msg :=
  let r := (s.txn tid).regs
  .abort { coord := s.hub.id.hubAddr, tid := tid, kind := r.txnStatusKind.setWidth 8, partition := r.txnStatusPartition }

/-- What a part has staged for a partition (R415, R426). -/
def State.stagedAt (s : State) (p : Part) (part : BitVec 13) : Option Staged :=
  match p with
  | .hub => tget none s.hub.staged part.toNat
  | .tsu => tget none s.tsu.staged part.toNat

/-- A part stages a transaction of a partition, or discards what it has staged. -/
def setStaged (s : State) (p : Part) (part : BitVec 13) (g : Option Staged) : State :=
  match p with
  | .hub => modHub s fun h => { h with staged := tset none h.staged part.toNat g }
  | .tsu => modTsu s fun t => { t with staged := tset none t.staged part.toNat g }

/-- A target discards its staging version, unless it holds the COMMIT (R429). -/
def unstage (s : State) (p : Part) (part : BitVec 13) (coord tid : BitVec 16) : State :=
  match s.stagedAt p part with
  | some g => if g.coord = coord ∧ g.tid = tid ∧ !g.committed then setStaged s p part none else s
  | none => s

/-- The coordinator aborts a transaction (R429, R434, R444): ABORT to every target that has its PREPARE, the event, and the
lock is free. -/
def txnAbort (s : State) (tid : BitVec 16) (sub : BitVec 16) (cause : BitVec 8) : State :=
  let x := s.txn tid
  let r := x.regs
  let part := r.txnStatusPartition
  let s := if r.txnStatusPhase = 2 then
      unstage (sendTargets s (part.setWidth 12) x.hubs x.eps (s.abortMsg tid)) .hub part s.hub.id.hubAddr tid
    else s
  let s := modTxn s tid fun x => { x with regs := { x.regs with txnStatusPhase := 5 } }
  let s := txnAbortEv s sub part tid (r.txnStatusKind.setWidth 8) cause (if sub = 0 then r.txnStatusVoter else 0) r.txnTick r.txnTag
  finishTxn (setCause s .hub .txn 1) tid

/-! ## The lead aborts a job (R442) -/

/-- The lead of the home pair aborts a job with a cause of R445: 0 HOST, 1 LAUNCH_MISS, 2 HALT, 3 POISON, 4 NO_COMMIT. -/
def abortJob (s : State) (j : BitVec 12) (cause : BitVec 3) : State :=
  let b := s.job j
  if !s.isLead j || b.regs.jobStatusState == 5 || b.regs.jobStatusState == 6 then s
  else
    let s := txnAbortEv s 7 (j.setWidth 13) 0xFFFF 0 (cause.setWidth 8) 0 0 0
    let s := setCause s .hub .txn 2
    let m : Msg := .jobAbort { job := j, epoch := b.regs.jobStatusEpoch, cause := cause }
    let s := sendTwin (forwardDown s j (s.memberEps j) m) j.toNat m
    let s := hubAbort (incompleteRecord s j) j
    let n := ((s.memberEps j).filter fun e => !s.isFenced j e).length
    let s := modJob s j fun b => { b with
      hubsPending := (dedup (s.span j)).length - 1
      regs := { b.regs with jobStatusAbortPending := BitVec.ofNat 19 n
                            jobStatusAbortDone := decide (n = 0) && decide ((dedup (s.span j)).length ≤ 1) } }
    (s.hub.queue.filter fun t =>
        let r := (s.txn t).regs
        r.txnStatusPartition == j.setWidth 13 && r.txnStatusKind != 7 && decide (r.txnStatusPhase.toNat ≤ 2)).foldl
      (fun s t => txnAbort s t 5 0) s

/-- The lead poisons a step (R394): the record, STEP_POISON on both planes, the POISON audit record, and the abort. SUB names
the cause (R380); the target is a context, or 0x0F00 + DID. -/
def poison (s : State) (j : BitVec 12) (step : BitVec 64) (sub target : BitVec 16) : State :=
  if !s.isLead j then s
  else
    let s := raise s .hub (jobEv s j 0x0012 sub 2 0xFFFFFFFF step [(16, target.toNat)])
    let s := bothPlanes s j (.stepPoison {
      job := j, epoch := (s.job j).regs.jobStatusEpoch, step := step.setWidth 24, target := target })
    let s := audit s j { type := 4, flags := 0, step := step, body := bvBytes 8 step ++ bvBytes 2 target }
    abortJob s j 3

/-- JOB_ABORT reaches a part (R442): it enters ABORTED, passes the message on down and acknowledges; at the lead it is another
hub's forwarded command. -/
def jobAbortTake (l : LinkId) (m : JobAbortP) (s : State) : State :=
  let ack : Msg := .done { coord := 0xFFFF, tid := 0xFFFF, kind := 0, partition := m.job.setWidth 13 }
  match l.part with
  | .tsu =>
    if s.tsuHasJob && s.tsu.txnt.ttJob == m.job && s.tsu.txnt.ttJobState != 5 then tsuSend (tsuAbort s) ack
    else if s.tsuHasJob && s.tsu.txnt.ttJob == m.job then
      modTsu s fun t => { t with txnt := { t.txnt with ttErrAborts := satInc t.txnt.ttErrAborts } }
    else s
  | .hub =>
    if s.isLead m.job then abortJob s m.job m.cause
    else if s.holds m.job && (s.job m.job).regs.jobStatusState != 5 then
      sendHub (hubAbort (forwardDown s m.job (s.memberEps m.job) (.jobAbort m)) m.job) m.job (s.job m.job).lead ack
    else s

/-- JOB_ABORT_RECEIVE (R442). -/
def execJobAbortReceive (l : LinkId) (m : JobAbortP) (s : State) : Host.Outcome State Fault Refusal :=
  .next (onMsg s l (.jobAbort m) (jobAbortTake l m))

/-- An acknowledgement of an abort (R443): the lead counts a member's or a hub's; a hub on the way passes it on up. -/
def abortAckTake (m : DoneP) (member : Bool) (s : State) : State :=
  let j : BitVec 12 := m.partition.setWidth 12
  if s.isLead j then
    modJob s j fun b =>
      let left := if member then b.regs.jobStatusAbortPending - (if b.regs.jobStatusAbortPending = 0 then 0 else 1)
        else b.regs.jobStatusAbortPending
      let hubs := if member then b.hubsPending else b.hubsPending - 1
      { b with
        hubsPending := hubs
        regs := { b.regs with jobStatusAbortPending := left
                              jobStatusAbortDone := b.regs.jobStatusState == 5 && left == 0 && hubs == 0 } }
  else sendHub s j (s.job j).lead (.done m)

/-- ABORT_ACK_RECEIVE (R443). -/
def execAbortAckReceive (l : LinkId) (m : DoneP) (member : Bool) (s : State) : Host.Outcome State Fault Refusal :=
  .next (onMsg s l (.done m) (abortAckTake m member))

/-- A write of ABORT_CMD (R442): the lead aborts the job; another hub of the span forwards the command to the lead. -/
def abortCmdWrite (i : Iface) (v : Word) (s : State) : Bool × State :=
  onPart .hub i s fun s =>
    let j : BitVec 12 := getF v 0 12
    let s := modTxnRegs s fun r => { r with abortCmdJob := j }
    if !getB v 63 then accept s
    else if s.isLead j then accept (abortJob s j 0)
    else if s.holds j then
      accept (sendHub s j (s.job j).lead (.jobAbort { job := j, epoch := (s.job j).regs.jobStatusEpoch, cause := 0 }))
    else refused s .hub .txn

/-- ABORT_CMD (R442): a write of ABORT_CMD with ABORT set. -/
def execAbortCmd (i : Iface) (data : Word) (s : State) : Host.Outcome State Fault Refusal :=
  ackWrite i s (abortCmdWrite i (data ||| putB 63 true) s)

/-! ## Misses and halts (R252, R293) -/

/-- The TSU reports upward (R252, R293, R431). -/
def tsuReport (s : State) (kind : BitVec 3) (detail : BitVec 8) : State :=
  tsuSend s (.report {
    job := s.tsu.txnt.ttJob, epoch := s.tsu.txnt.ttJobEpoch, step := s.tsu.step.stepNow.setWidth 24, kind := kind, detail := detail })

/-- A launch is missed (R252): the event, the count, the cause and the report. -/
def launchMiss (s : State) (step : BitVec 64) (target : Tick) (cause : BitVec 16) : State :=
  let s := raise s .tsu { tsuEv s 0x0003 cause 2 [(64, target.toNat)] with step := step }
  let s := modTsu s fun t => { t with step := { t.step with stepErrLaunchMiss := satInc t.step.stepErrLaunchMiss } }
  tsuReport (setCause s .tsu .step 1) 0 (cause.setWidth 8)

/-- REPORT reaches a hub (R252, R293, R431): the lead counts a miss and aborts the job; another hub passes it on. -/
def reportTake (m : ReportP) (s : State) : State :=
  if s.isLead m.job then
    match m.kind.toNat with
    | 0 =>
      let s := modJob s m.job fun b => { b with
        steph := { b.steph with sthCountLaunchMiss := satInc b.steph.sthCountLaunchMiss } }
      abortJob (setCause s .hub .steph 2) m.job 1
    | 1 => abortJob s m.job 2
    | 2 => abortJob s m.job 4
    | _ => s
  else if s.isHome m.job then sendTwin s m.job.toNat (.report m)
  else sendUp s m.job 0 (.report m)

/-- REPORT_RECEIVE (R31, R252, R293, R431): an endpoint conflict (KIND 3) concerns no job. -/
def execReportReceive (l : LinkId) (m : ReportP) (s : State) : Host.Outcome State Fault Refusal :=
  .next (onMsg s l (.report m) fun s => if m.kind == 3 then s else nearStep s m.job m.step (reportTake m))

end Sys2Proof.Machine
end

