-- ==== Sys2Proof/Machine/Aes.lean ====
section
/-! DEFINITION. AES-256-GCM (FIPS 197, NIST SP 800-38D) as the image blocks use it (R489). -/

namespace Sys2Proof.Machine

/-- A byte of the AES field times x. -/
def xtime (b : BitVec 8) : BitVec 8 := (b <<< 1) ^^^ (if b.msb then 0x1B else 0)

/-- A byte of the AES field times x to the power `n`. -/
def xtimes : Nat → BitVec 8 → BitVec 8
  | 0, b => b
  | n + 1, b => xtimes n (xtime b)

/-- The product in the AES field. -/
def aesMul (a b : BitVec 8) : BitVec 8 :=
  (List.range 8).foldl (fun r i => if b.getLsbD i then r ^^^ xtimes i a else r) 0

/-- The inverse in the AES field, zero for zero: a to the power 254. -/
def aesInv (a : BitVec 8) : BitVec 8 :=
  ((List.range 7).foldl (fun (p : BitVec 8 × BitVec 8) _ =>
    let sq := aesMul p.2 p.2
    (aesMul p.1 sq, sq)) (1, a)).1

/-- The substitution of a byte (SubBytes). -/
def aesSub (a : BitVec 8) : BitVec 8 :=
  let b := aesInv a
  b ^^^ b.rotateLeft 1 ^^^ b.rotateLeft 2 ^^^ b.rotateLeft 3 ^^^ b.rotateLeft 4 ^^^ 0x63

/-- Two lists of bytes, byte by byte. -/
def xorBytes (a b : List (BitVec 8)) : List (BitVec 8) := (a.zip b).map fun p => p.1 ^^^ p.2

/-- The words of the key schedule after the first eight, newest first, from word number `i` on. -/
def aesWords : Nat → Nat → List (List (BitVec 8)) → List (List (BitVec 8))
  | 0, _, ws => ws
  | n + 1, i, ws =>
    let t := ws.headD []
    let t := if i % 8 = 0 then xorBytes ((t.drop 1 ++ t.take 1).map aesSub) [xtimes (i / 8 - 1) 1, 0, 0, 0]
      else if i % 8 = 4 then t.map aesSub else t
    aesWords n (i + 1) (xorBytes (ws.getD 7 []) t :: ws)

/-- The fifteen round keys of a 256-bit key, 16 bytes each. -/
def aesKeys (key : BitVec 256) : List (List (BitVec 8)) :=
  let bs := bvBytes 32 key
  let first := (List.range 8).map fun i => (bs.drop (4 * i)).take 4
  let ws := (aesWords 52 8 first.reverse).reverse
  (List.range 15).map fun r => ((ws.drop (4 * r)).take 4).flatten

/-- The rows of the state shift (ShiftRows). -/
def aesShift (st : List (BitVec 8)) : List (BitVec 8) :=
  (List.range 16).map fun k => st.getD (k % 4 + 4 * ((k / 4 + k % 4) % 4)) 0

/-- The columns of the state mix (MixColumns). -/
def aesMix (st : List (BitVec 8)) : List (BitVec 8) :=
  (List.range 16).map fun k =>
    let b (i : Nat) : BitVec 8 := st.getD (k / 4 * 4 + (k + i) % 4) 0
    xtime (b 0) ^^^ xtime (b 1) ^^^ b 1 ^^^ b 2 ^^^ b 3

/-- One block under the round keys (FIPS 197). -/
def aesBlock (ks : List (List (BitVec 8))) (x : List (BitVec 8)) : List (BitVec 8) :=
  let st := ((List.range 13).foldl (fun st r => xorBytes (aesMix (aesShift (st.map aesSub))) (ks.getD (r + 1) [])) (xorBytes x (ks.getD 0 [])))
  xorBytes (aesShift (st.map aesSub)) (ks.getD 14 [])

/-- One step of the product in the field of GHASH. -/
def ghashStep (x : BitVec 128) (p : BitVec 128 × BitVec 128) (i : Nat) : BitVec 128 × BitVec 128 :=
  (if x.getMsbD i then p.1 ^^^ p.2 else p.1,
   if p.2.getLsbD 0 then (p.2 >>> 1) ^^^ 0xE1000000000000000000000000000000 else p.2 >>> 1)

/-- The product in the field of GHASH. -/
def ghashMul (x y : BitVec 128) : BitVec 128 := ((List.range 128).foldl (ghashStep x) (0, y)).1

/-- GHASH over whole blocks. -/
def ghash (h : BitVec 128) : Nat → BitVec 128 → List (BitVec 8) → BitVec 128
  | 0, y, _ => y
  | n + 1, y, bs => ghash h n (ghashMul (y ^^^ BitVec.ofNat 128 (bytesToNat (bs.take 16))) h) (bs.drop 16)

/-- Zeros up to a whole number of 16-byte blocks. -/
def padBlock (bs : List (BitVec 8)) : List (BitVec 8) := bs ++ List.replicate ((16 - bs.length % 16) % 16) 0

/-- The counter-mode stream over a message, from counter `c` on. -/
def gcmStream (ks : List (List (BitVec 8))) (iv : List (BitVec 8)) : Nat → Nat → List (BitVec 8) → List (BitVec 8)
  | 0, _, _ => []
  | n + 1, c, bs =>
    xorBytes (bs.take 16) (aesBlock ks (iv ++ natToBytes 4 c)) ++ gcmStream ks iv n (c + 1) (bs.drop 16)

/-- The tag over the additional data and the ciphertext (SP 800-38D). -/
def gcmTag (ks : List (List (BitVec 8))) (iv aad ct : List (BitVec 8)) : List (BitVec 8) :=
  let h := BitVec.ofNat 128 (bytesToNat (aesBlock ks (List.replicate 16 0)))
  let m := padBlock aad ++ padBlock ct ++ natToBytes 8 (8 * aad.length) ++ natToBytes 8 (8 * ct.length)
  xorBytes (bvBytes 16 (ghash h (m.length / 16) 0 m)) (aesBlock ks (iv ++ natToBytes 4 1))

/-- A block opened under a key, 96-bit IV and additional data: its plaintext, or none when the tag fails (R489, R492). -/
def gcmOpen (key : BitVec 256) (iv aad ct tag : List (BitVec 8)) : Option (List (BitVec 8)) :=
  let ks := aesKeys key
  if gcmTag ks iv aad ct = tag then some (gcmStream ks iv (ct.length / 16 + 1) 2 ct) else none

end Sys2Proof.Machine
end

