-- ==== Sys2Proof/Machine/Envelope.lean ====
section
/-! DEFINITION. The determinism envelope (R360 to R364, R374): its items, its digest, and the event of a change. -/

namespace Sys2Proof.Machine

/-- Insertion of a number into an ascending list. -/
def insertNat (n : Nat) : List Nat → List Nat
  | [] => [n]
  | m :: ms => if n ≤ m then n :: m :: ms else m :: insertNat n ms

/-- A list in ascending order. -/
def sortNat (ns : List Nat) : List Nat := ns.foldr insertNat []

/-- The content of item 3 for one context (R360). -/
def ctxItem (b : HubJob) (c : Nat) : List (BitVec 8) :=
  let x := tget {} b.ctxs c
  if x.regs.spCfg = 0 then List.replicate 16 0
  else bvBytes 8 x.regs.spCfg ++ bvBytes 8 x.regs.spK ++ (sortNat (x.parts.map BitVec.toNat)).flatMap (natToBytes 4)

/-- The content of item 8 for one rank (R360, R362). -/
def memberItem (b : HubJob) (r : Nat) : List (BitVec 8) :=
  let m := tget {} b.memberVals r
  bvBytes 4 m.ident ++ bvBytes 8 m.fw ++ bvBytes 32 (if b.deth.dhJobUnitmapIndep then 0 else m.unitmap)

/-- The contents of items 1 to 8 of a job's envelope (R360). -/
def envContents (b : HubJob) (span : List (BitVec 16)) : List (List (BitVec 8)) :=
  [ bvBytes 48 b.tsuDigest ++ bvBytes 48 b.seq.digest,
    bvBytes 8 b.deth.dhSeed,
    (List.range b.peakCtx.toNat).flatMap (ctxItem b),
    ((List.range 256).flatMap fun d => bvBytes 8 (tget 0 b.plan d)) ++ natToBytes 1 b.digh.dgJobOnMismatch.toNat,
    bvBytes 48 b.weights,
    bvBytes 48 b.inputs,
    (sortNat ((dedup span).map BitVec.toNat)).flatMap fun a => natToBytes 2 a ++ List.replicate 6 0 ++ bvBytes 8 (tget 0 b.hubFw a),
    (List.range b.members.toNat).flatMap (memberItem b) ]

/-- The envelope digest over the items (R360). -/
def envDigest (items : List (List (BitVec 8))) : BitVec 384 :=
  sha384 ((items.zip (List.range items.length)).flatMap fun e => natToBytes 4 (e.2 + 1) ++ natToBytes 4 e.1.length ++ e.1)

/-- The lead computes the envelope for the next launch and mirrors it (R363). -/
def computeEnv (s : State) (j : BitVec 12) : State :=
  let b := s.job j
  if s.isHome j then
    let items := envContents b (s.span j)
    let d := envDigest items
    let s := modJob s j fun b => { b with
      envNext := d, envNextItems := { bytes := items }
      env := if b.envSet then b.env else d, envItems := if b.envSet then b.envItems else { bytes := items } }
    if s.isLead j then mirror s j 9 0 (bvBytes 48 d) else s
  else s

/-- An item of the envelope may have changed (R363): the time of the change is kept and the envelope computed again. -/
def envChange (s : State) (j : BitVec 12) : State :=
  let now := s.now .hub
  computeEnv (modJob s j fun b => { b with envAt := now }) j

/-- CHANGED of R364: a bit for each item that differs. -/
def envMask (old new : List (List (BitVec 8))) : BitVec 8 :=
  (List.range 8).foldl (fun m i => setBit m i (old.getD i [] != new.getD i [])) 0

/-- EV_ENVELOPE_CHANGED (R364, R374, R378). -/
def envEvent (s : State) (j : BitVec 12) (step : BitVec 64) (mask : BitVec 8) (basis : Bool) (old new : BitVec 384) : State :=
  let s := raise s .hub (jobEv s j 0x0022 0 0 0xFFFFFFFF step
    [(8, mask.toNat), (64, (old.extractLsb' 320 64).toNat), (64, (new.extractLsb' 320 64).toNat), (8, basis.toNat)])
  let s := modJob s j fun b => { b with
    deth := { b.deth with dhEnvStatChanges := satInc b.deth.dhEnvStatChanges, dhEnvStatLastBasis := basis
                          dhEnvStatLastMask := mask } }
  setCause s .hub .deth 0

/-- The envelopes of the launches from a new one on: the last four, with a change that no STEP record has shown kept. -/
def pushEnv (e : EnvRec) (es : List EnvRec) : List EnvRec :=
  (e :: es.take 3).mapIdx fun i x => { x with changed := x.changed || (i == 3 && (es.drop 3).any EnvRec.changed) }

/-- The envelope comes into force at the launch of a step (R364, R374). Both members keep whether it has changed; the lead raises
the event. -/
def envLaunch (s : State) (j : BitVec 12) (step : BitVec 64) : State :=
  let b := s.job j
  let basis := !b.envSet
  let old := if basis then b.expect else b.env
  let changed := decide (old ≠ b.envNext) && (b.envSet || b.expect != 0)
  let s := modJob s j fun b => { b with
    env := b.envNext, envItems := b.envNextItems, envSet := true
    envs := pushEnv { step := step, env := b.envNext, changed := changed } b.envs }
  if changed && s.isLead j then
    envEvent s j step (if basis then 0 else envMask b.envItems.bytes b.envNextItems.bytes) basis old b.envNext
  else s

end Sys2Proof.Machine
end

