-- ==== Sys2Proof/Machine/Barriers.lean ====
section
/-! DEFINITION. Barriers on the hubs (R216 to R229), the cadence of steps (R255 to R259), lateness (R268 to R270, R274), and
downward replication (R408). -/

namespace Sys2Proof.Machine

/-! ## Lateness (R268 to R270) -/

/-- The lateness statistics of a rank. -/
def State.lateOf (s : State) (j : BitVec 12) (r : BitVec 20) : LateSt := tget {} (s.job j).late r.toNat

/-- The lateness statistics of a rank go through a function. -/
def modLate (s : State) (j : BitVec 12) (r : BitVec 20) (f : LateSt → LateSt) : State :=
  modJob s j fun b => { b with late := tmod {} b.late r.toNat f }

/-- A full set is reduced (R91, R269). -/
def lateSetEnd (x : LateSt) : LateSt :=
  match x.set with
  | [] => x
  | f :: _ =>
    let n := x.set.length
    if n < 2 ^ x.regs.ltCfgK.toNat then x
    else
      let s1 : Int := f.toNat
      let ys := x.set.map fun v => (v.toNat : Int) - s1
      let lo := x.set.foldl (fun m v => min m v.toNat) f.toNat
      let hi := x.set.foldl (fun m v => max m v.toNat) f.toNat
      let (mean, sd, _, _) := setResults n s1 (ys.foldl (· + ·) 0) (ys.foldl (fun a y => a + y * y) 0) lo hi
      { x with
        set := []
        regs := { x.regs with
          ltStatusSetSeq := x.regs.ltStatusSetSeq + 1, ltStatusSamples := 0, ltMean := satNat 32 mean.toNat
          ltStdev := satNat 32 sd, ltMin := satNat 32 lo, ltMax := satNat 32 hi } }

/-- LATENESS_SET_END (R269). -/
def execLatenessSetEnd (job : BitVec 12) (rank : BitVec 20) (s : State) : Host.Outcome State Fault Refusal :=
  .next (modLate s job rank lateSetEnd)

/-- A full block flags the rank or clears its flag (R270). -/
def lateBlockEnd (s : State) (j : BitVec 12) (r : BitVec 20) : State :=
  let x := s.lateOf j r
  if x.regs.ltBlockFill.toNat < 256 then s
  else
    let mean := x.blockSum / 256
    let th := x.regs.ltCfgThreshNs.toNat
    let flag := decide (th < mean) && th != 0
    let s := modLate s j r fun x => { x with
      blockSum := 0
      regs := { x.regs with ltBlockFill := 0, ltBlockBlockMean := satNat 32 mean, ltStatusStraggler := flag } }
    if flag && !x.regs.ltStatusStraggler then
      let ep : BitVec 24 := (s.rankEp j r).getD 0
      raise s .hub (jobEv s j 0x0021 0 0 (r.setWidth 32) x.lastStep [(32, ep.toNat), (32, mean)])
    else s

/-- LATENESS_BLOCK_END (R270). -/
def execLatenessBlockEnd (job : BitVec 12) (rank : BitVec 20) (s : State) : Host.Outcome State Fault Refusal :=
  .next (lateBlockEnd s job rank)

/-- A lateness sample enters the set and the block of a rank (R269, R270). -/
def lateSample (s : State) (j : BitVec 12) (r : BitVec 20) (step : BitVec 64) (v : BitVec 32) : State :=
  let s := lateBlockEnd (modLate s j r lateSetEnd) j r
  modLate s j r fun x => { x with
    set := x.set ++ [v], blockSum := x.blockSum + v.toNat, lastStep := step
    regs := { x.regs with
      ltStatusSamples := satNat 21 (x.set.length + 1), ltBlockFill := x.regs.ltBlockFill + 1 } }

/-- The lateness of an arrival on a leaf hub's link (R268), which its twin hears too (R269). -/
def lateArrive (s : State) (l : LinkId) (j : BitVec 12) (r : BitVec 20) (wire : BitVec 24) : State :=
  match (s.job j).launches.find? fun x => x.released && x.step.setWidth 24 == wire with
  | some la =>
    let d := (s.link l).regs.ptDelay.toInt
    let v : BitVec 32 := satNat 32 (((((s.now .hub).toNat : Int) - la.tick.toNat) * 65536 - d) / 65536).toNat
    mirror (lateSample s j r la.step v) j 2 (r.setWidth 64) (bvBytes 4 v ++ bvBytes 8 la.step)
  | none => modHub s fun h => { h with late := { h.late with ltErr := satInc h.late.ltErr } }

/-- A write of LT_CFG (R269, R274): the rank's statistics begin anew. -/
def ltCfgWrite (i : Iface) (v : Word) (s : State) : Bool × State :=
  onPart .hub i s fun s =>
    let r := (s.iface i).regs
    let k : BitVec 5 := getF v 0 5
    let served := match s.rankEp r.ltSelJob r.ltSelRank with | some e => s.serves e | none => false
    if 20 < k.toNat ∨ !served then refused s .hub .late
    else accept (modLate s r.ltSelJob r.ltSelRank fun _ => { regs := { ltCfgThreshNs := getF v 32 32, ltCfgK := k } })

/-- LT_CFG_WRITE (R269). -/
def execLtCfgWrite (i : Iface) (data : Word) (s : State) : Host.Outcome State Fault Refusal := ackWrite i s (ltCfgWrite i data s)

/-- A read of LT_MEAN (R274): the rest of the set is latched for the interface. -/
def ltMeanRead (i : Iface) (s : State) : Word × State :=
  onPartRead .hub i s fun s =>
    let r := (s.iface i).regs
    let x := (s.lateOf r.ltSelJob r.ltSelRank).regs
    (x.ltMean.setWidth 64,
      modIfaceRegs s i fun c => { c with ltStdev := x.ltStdev, ltMin := x.ltMin, ltMax := x.ltMax })

/-- LT_MEAN_READ (R274). -/
def execLtMeanRead (i : Iface) (s : State) : Host.Outcome State Fault Refusal := ackRead i s (ltMeanRead i s)

/-! ## The cadence (R256 to R259) -/

/-- What R257 computes for the next launch. -/
structure NextLaunch where
  tick : Int
  late : Bool
  lag : Int
  rebased : Bool
  base : Int
  catchup : Nat
  /-- The lag before a rebase was above 0 (R258). -/
  lagged : Bool
  deriving DecidableEq, Repr

/-- The next launch after a step that completes at `c` (R257). -/
def nextLaunch (r : StephRegs) (step : BitVec 64) (c : Tick) : NextLaunch :=
  let p : Int := r.sthPeriodPeriodNs.toNat
  let plan : Int := r.sthPlan.toInt + (step.toNat + 1) * p
  let minN : Int := r.sthLast.toNat + r.sthPeriodPMinNs.toNat
  let gap : Int := c.toNat + r.sthGapMinGapNs.toNat
  let l := max plan (max minN gap)
  let lag := l - plan
  let n := if lag > 0 then r.sthCatchupCount.toNat + 1 else 0
  let re := decide (lag > 0) && (r.sthPeriodPeriodNs == r.sthPeriodPMinNs || decide (r.sthCatchupCatchupMax.toNat < n))
  { tick := l, late := decide (gap > plan) && decide (gap > minN), lag := if re then 0 else lag, rebased := re
    base := if re then r.sthPlan.toInt + lag else r.sthPlan.toInt, catchup := if re then 0 else n, lagged := decide (lag > 0) }

/-- The cadence state with RELEASE_LEAD_NS goes to the other member (R249, R258). -/
def mirrorCadence (s : State) (j : BitVec 12) : State :=
  let b := s.job j
  mirror s j 3 0 (bvBytes 8 b.steph.sthPlan ++ bvBytes 2 b.steph.sthCatchupCount ++ bvBytes 8 b.steph.sthLast ++
    bvBytes 4 b.releaseLead)

/-- A launch is kept, and those of the last 4 steps with it (R268). -/
def keepLaunch (b : HubJob) (r : LaunchRec) : HubJob :=
  { b with launches := (r :: b.launches.filter fun x => x.step != r.step).take 4 }

/-- A hub that does not lead a pausing job holds it as PAUSED once PAUSE_MARK has come by it and its own engine is idle (R247, R437;
log 64, DESIGN CHOICE: no flit says when every member has replied). -/
def pauseFollow (s : State) (j : BitVec 12) : State :=
  let b := s.job j
  if b.regs.jobStatusState = 3 ∧ b.marked ∧ b.seq.regs.seqStatusState = 0 ∧ !s.isLead j then
    modJob s j fun b => { b with marked := false, regs := { b.regs with jobStatusState := 4 } }
  else s

/-- The lead ends a step (R256 to R259): the next launch is computed, put to the test of R64 and released, unless the job is pausing
(R437). One that the test refuses is released by no flit. -/
def stepEnds (s : State) (j : BitVec 12) : State :=
  let b := s.job j
  if b.regs.jobStatusState = 3 then
    bothPlanes (modJob s j fun b => { b with marked := true }) j
      (.pauseMark { job := j, epoch := b.regs.jobStatusEpoch, step := b.step.setWidth 24 })
  else if b.regs.jobStatusState = 2 then
    let r := b.steph
    let n := nextLaunch r b.step (s.now .hub)
    let tick : Tick := BitVec.ofInt 64 n.tick
    let t := schedTest s .hub tick
    let s := t.2
    if !t.1 then s
    else
    let lag : BitVec 40 := satNat 40 n.lag.toNat
    let r := { r with
      sthPlan := BitVec.ofInt 64 n.base, sthCatchupCount := BitVec.ofNat 16 n.catchup, sthLast := tick
      sthLagLate := n.late, sthLagRebased := n.rebased, sthLagLagNs := lag
      sthCountLateSteps := if n.late then satInc r.sthCountLateSteps else r.sthCountLateSteps
      sthCountCatchupSteps := if n.lagged then satInc r.sthCountCatchupSteps else r.sthCountCatchupSteps
      sthCountRebases := if n.rebased then satInc r.sthCountRebases else r.sthCountRebases }
    let s := modJob s j fun b => keepLaunch { b with
      steph := r, nextLaunch := some { tick := tick, step := b.step + 1 } }
      { step := b.step + 1, tick := tick, late := n.late, rebased := n.rebased }
    let s := if n.late then setCause s .hub .steph 0 else s
    let s := if n.rebased then setCause s .hub .steph 1 else s
    bothPlanes (mirrorCadence s j) j (.stepRelease {
      job := j, epoch := b.regs.jobStatusEpoch, step := (b.step + 1).setWidth 24, tick := tick.setWidth 32, late := n.late
      rebased := n.rebased, lag := lag })
  else s

/-! ## Barriers (R222 to R227) -/

/-- A barrier entry. -/
def State.barrier (s : State) (j : BitVec 12) (o : BitVec 16) : Option Barrier := tget none (s.job j).barriers o.toNat

/-- A barrier entry goes through a function. -/
def modBarrier (s : State) (j : BitVec 12) (o : BitVec 16) (f : BarrierRegs → BarrierRegs) : State :=
  modJob s j fun b => { b with barriers := tmod none b.barriers o.toNat fun e => e.map fun x => { x with regs := f x.regs } }

/-- COUNT and GEN of a barrier go to the other member (R224). -/
def mirrorBarrier (s : State) (j : BitVec 12) (o : BitVec 16) : State :=
  match s.barrier j o with
  | some x => mirror s j 0 (o.setWidth 64) (natToBytes 4 x.regs.shCount.toNat ++ bvBytes 8 x.regs.shGen)
  | none => s

/-- A hub has seen the RELEASE of a generation: an arrival of it counts no more for a fence (R227). -/
def seeRelease (s : State) (j : BitVec 12) (o gen : BitVec 16) : State :=
  modJob s j fun b => { b with lastRel := tset none b.lastRel o.toNat (some gen) }

/-- The tick of a release that is made now: with TIMED, the hall tick RELEASE_LEAD_NS ahead, put to the test of R64. One that the
test refuses makes the release one without TIMED (log 65, DESIGN CHOICE: no rule says what becomes of it). -/
def releaseTick (s : State) (j : BitVec 12) (timed : Bool) : Option Tick × State :=
  if !timed then (none, s)
  else
    let t := s.now .hub + (s.job j).releaseLead.setWidth 64
    match schedTest s .hub t with
    | (true, s) => (some t, s)
    | (false, s) => (none, s)

/-- The lead releases a barrier whose COUNT has reached P (R225); STEP_OBJ's completion ends the step (R256). -/
def releaseBarrier (s : State) (j : BitVec 12) (o : BitVec 16) : State :=
  match s.barrier j o with
  | some x =>
    let b := s.job j
    let gen : BitVec 16 := x.regs.shGen.setWidth 16
    let s := seeRelease (modBarrier s j o fun r => { r with shGen := r.shGen + 1, shCount := 0 }) j o gen
    let (tick, s) := releaseTick s j x.regs.shCfgTimed
    let m : Msg := .release {
      job := j, epoch := b.regs.jobStatusEpoch, obj := o, gen := gen, step := b.step.setWidth 24
      timed := tick.isSome, tick := (tick.getD 0).setWidth 32 }
    let s := sendTwin (ladleObj s j o m) j.toNat m
    if o = b.stepObj then stepEnds s j else s
  | none => s

/-- The lead handles a partial (R224, R225). -/
def barrierFold (m : ArriveP) (s : State) : State :=
  let stale (s : State) : State := modSynch s fun r => { r with shErrStale := satInc r.shErrStale }
  match hubJobOk s m.job m.epoch .synch with
  | (false, s) => stale s
  | (true, s) =>
    match s.barrier m.job m.obj with
    | none => stale s
    | some x =>
      if m.gen ≠ x.regs.shGen.setWidth 16 then stale s
      else if x.regs.shCfgPart.toNat < x.regs.shCount.toNat + m.count.toNat then
        setCause (modSynch s fun r => { r with shErrExcess := satInc r.shErrExcess }) .hub .synch 0
      else
        let s := mirrorBarrier (modBarrier s m.job m.obj fun r => { r with shCount := r.shCount + m.count }) m.job m.obj
        if x.regs.shCount.toNat + m.count.toNat = x.regs.shCfgPart.toNat then releaseBarrier s m.job m.obj else s

/-- A queued partial of the same (JOB, OBJ, GEN) takes the new COUNT (R223). -/
def arriveInto (m : ArriveP) : Msg → Option Msg
  | .arrive q =>
    if q.job = m.job ∧ q.obj = m.obj ∧ q.gen = m.gen then some (.arrive { q with count := q.count + m.count }) else none
  | _ => none

/-- Whether a hub's pair is the home of a barrier (R216): it holds the entry, or it is the job's home, where the flits of an object
that no entry holds end (R224). -/
def State.homesObj (s : State) (j : BitVec 12) (o : BitVec 16) : Bool := (s.barrier j o).isSome || s.isHome j

/-- An arrival on its way to the lead of its barrier's home pair (R40, R216, R223, R224): the lead folds it, the other member sends
it over TWIN, and any other hub sends it up. -/
def arriveOn (m : ArriveP) (s : State) : State :=
  if s.homesObj m.job m.obj then
    if (s.job m.job).leads then barrierFold m s else foldTwin s m.job.toNat (.arrive m) (arriveInto m)
  else foldOn s m.job (flowObj m.obj) (.arrive m) (arriveInto m)

/-- The place of an arrival record (R222). -/
def arrivalKey (e : BitVec 24) (o : BitVec 16) : Nat := (epSlot e).toNat * 65536 + o.toNat

/-- The failure detector sees a die's STEP_OBJ arrival (R406). -/
def detectArrive (s : State) (j : BitVec 12) (r : BitVec 20) : State :=
  modJob s j fun b => { b with
    detect := tmod {} b.detect r.toNat fun _ => { step := b.step, counted := true, timeouts := 0 } }

/-- A leaf hub takes an ARRIVE from a TSU (R222): fenced, duplicate, or recorded, mirrored and sent on. -/
def arriveLeaf (l : LinkId) (m : ArriveP) (s : State) : State :=
  let ep := s.epOf l
  let j := m.job
  match hubJobOk s j m.epoch .synch with
  | (false, s) => dropOld s j .synch fun s => rejectFenced s j ep
  | (true, s) =>
    if s.isFenced j ep then rejectFenced s j ep
    else if tget none (s.job j).arrivals (arrivalKey ep m.obj) = some m.gen then
      modSynch s fun r => { r with shErrDuplicate := satInc r.shErrDuplicate }
    else
      let s := modJob s j fun b => { b with arrivals := tset none b.arrivals (arrivalKey ep m.obj) (some m.gen) }
      let s := mirror s j 1 ((ep ++ m.obj).setWidth 64) (bvBytes 2 m.gen)
      let s := match s.epRank j ep with
        | some r => if m.obj = (s.job j).stepObj then detectArrive (lateArrive s l j r m.step) j r else s
        | none => s
      arriveOn { m with count := 1 } s

/-- ARRIVE_RECEIVE (R222). -/
def execArriveReceive (l : LinkId) (sender : BitVec 32) (dsn : Option (BitVec 32)) (m : ArriveP) (s : State) :
    Host.Outcome State Fault Refusal :=
  .next (onUp s l sender dsn (.arrive m) fun s => nearStep s m.job m.step (arriveLeaf l m))

/-- ARRIVE_PARTIAL_FORWARD (R223): a hub between the leaf and the lead. -/
def execArrivePartialForward (l : LinkId) (sender : BitVec 32) (dsn : Option (BitVec 32)) (m : ArriveP) (s : State) :
    Host.Outcome State Fault Refusal :=
  .next (onUp s l sender dsn (.arrive m) fun s => nearStep s m.job m.step (arriveOn m))

/-- BARRIER_PARTIAL_FOLD (R224, R225): a partial reaches the lead; a hub that does not lead sends it on. -/
def execBarrierPartialFold (l : LinkId) (sender : BitVec 32) (dsn : Option (BitVec 32)) (m : ArriveP) (s : State) :
    Host.Outcome State Fault Refusal :=
  .next (onUp s l sender dsn (.arrive m) fun s => nearStep s m.job m.step (arriveOn m))

/-- A release that is not of its job's current epoch, or whose object is bound nowhere here (R17, R224, R416). -/
def staleRelease (s : State) (j : BitVec 12) : State :=
  dropOld s j .synch fun s => modSynch s fun r => { r with shErrStale := satInc r.shErrStale }

/-- The other member applies a release that the lead sends over TWIN, and sends it down its own plane (R225). -/
def twinRelease (m : ReleaseP) (s : State) : State :=
  match hubJobOk s m.job m.epoch .synch with
  | (false, s) => staleRelease s m.job
  | (true, s) =>
    match s.barrier m.job m.obj with
    | some x =>
      let gen := ((extendWire m.gen x.regs.shGen).getD x.regs.shGen) + 1
      ladleObj (seeRelease (modBarrier s m.job m.obj fun r => { r with shGen := gen, shCount := 0 }) m.job m.obj m.gen)
        m.job m.obj (.release m)
    | none => staleRelease s m.job

/-- A RELEASE that names a tick is refused while VALID is 0, and one whose step lies too far too (R67, R68). -/
def releaseOn (l : LinkId) (m : ReleaseP) (act : State → State) (s : State) : State :=
  nearStep s m.job m.step (if m.timed then ifValid l act else act)

/-- TWIN_RELEASE_RECEIVE (R225). -/
def execTwinReleaseReceive (l : LinkId) (m : ReleaseP) (s : State) : Host.Outcome State Fault Refusal :=
  .next (releaseOn l m (twinRelease m) (taken s l (.release m)))

/-! ## Downward (R42, R408) -/

/-- The other home member takes a STEP_RELEASE from the lead: the cadence, and the launch of its own pass, which the test of R64
may refuse (R258, R286). -/
def twinLaunch (s : State) (m : StepReleaseP) (st : BitVec 64) (t : Tick) : State :=
  let s := modJob s m.job fun b => { b with
    steph := { b.steph with sthLast := t, sthLagLate := m.late, sthLagRebased := m.rebased, sthLagLagNs := m.lag } }
  match schedTest s .hub t with
  | (true, s) => modJob s m.job fun b => { b with nextLaunch := some { tick := t, step := st } }
  | (false, s) => s

/-- A STEP_RELEASE on its way down (R258, R259, R268): the launch is kept, and the other home member holds it for its own
pass; a hub of the span that is no home member sees by it that a step has closed (R400). -/
def stepReleaseDown (l : LinkId) (m : StepReleaseP) (s : State) : State :=
  let b := s.job m.job
  match extendStep m.step b.step, extendWire m.tick (s.now .hub) with
  | some st, some t =>
    let s := if s.isHome m.job then s else shadowStep s
    let s := modJob s m.job fun b =>
      keepLaunch { b with step := if s.isHome m.job then b.step else st }
        { step := st, tick := t, late := m.late, rebased := m.rebased }
    ladleAll (if s.isTwin l then twinLaunch s m st t else s) m.job (.stepRelease m)
  | none, _ => countStepRefused s .hub m.step (s.job m.job).step
  | some _, none => countPast s .hub

/-- Whether a context has been released for a step: a fault told to the lead then comes from a residue after the release, and
before it from an unresolved element (R390, R393). -/
def releasedCtx (b : HubJob) (t : BitVec 64) (target : BitVec 16) : Bool :=
  b.kept.any fun k => k.1 == t && k.2.ctx.setWidth 16 == target

/-- A message of a job's traffic is acted on where its job and epoch are current and its step lies near; another is dropped and
counted in the refusals of a page (R17, R67, R416). -/
def ifCurrent (j : BitVec 12) (epoch : Bool) (step : BitVec 24) (g : Page) (act : State → State) (s : State) : State :=
  match hubJobOk s j epoch g with
  | (true, s) => nearStep s j step act
  | (false, s) => dropOld s j g fun s => refuse s .hub g

/-- A message for a rank goes on to the rank's endpoint; one of no rank that the table holds is refused at the edge (R44, R45). -/
def sendRank (s : State) (j : BitVec 12) (r : BitVec 20) (m : Msg) : State :=
  match s.rankEp j r with
  | some e => sendEp s j e m
  | none => refuseXlat s j

/-- A STEP_POISON (R42, R390, R393, R394): at the lead it is another hub's word of a fault; on its way there it goes up, and from
the lead it goes down. -/
def poisonOn (l : LinkId) (m : StepPoisonP) (s : State) : State :=
  if s.isLead m.job then
    let t := (extendStep m.step (s.job m.job).step).getD (s.job m.job).step
    poison s m.job t (if releasedCtx (s.job m.job) t m.target then 0 else 1) m.target
  else if s.role l == 1 then
    if s.isHome m.job then sendTwin s m.job.toNat (.stepPoison m) else sendHub s m.job (s.job m.job).lead (.stepPoison m)
  else ladleAll s m.job (.stepPoison m)

/-- A downward message that is not for this hub alone goes on (R42, R408, R533). -/
def downOn (l : LinkId) (m : Msg) (s : State) : State :=
  match m with
  | .release r =>
    releaseOn l r (fun s =>
      if s.isTwin l && (s.barrier r.job r.obj).isSome then twinRelease r s
      else match hubJobOk s r.job r.epoch .synch with
        | (true, s) => ladleObj (seeRelease s r.job r.obj r.gen) r.job r.obj m
        | (false, s) => staleRelease s r.job) s
  | .stepRelease r =>
    ifValid l (fun s => match hubJobOk s r.job r.epoch .steph with
      | (true, s) => stepReleaseDown l r s
      | (false, s) => dropOld s r.job .steph fun s => refuse s .hub .steph) s
  | .stepPoison r => ifCurrent r.job r.epoch r.step .steph (poisonOn l r) s
  | .pauseMark r =>
    ifCurrent r.job r.epoch r.step .txn (fun s =>
      pauseFollow (ladleAll (modJob s r.job fun b => { b with marked := true }) r.job m) r.job) s
  | .result r =>
    ifCurrent r.job r.epoch r.step .stock (fun s =>
      if r.rank = 0xFFFFF then ladleAll s r.job m else sendRank s r.job r.rank m) s
  | .refuse r => ifCurrent r.job r.epoch r.step .stock (fun s => sendRank s r.job r.rank m) s
  | _ => s

/-- RELEASE_REPLICATE (R42, R408): the Ladle replicates a message that came down. -/
def execReleaseReplicate (l : LinkId) (m : Msg) (s : State) : Host.Outcome State Fault Refusal :=
  .next (downOn l m (taken s l m))

/-! ## Context writes on the hub (R247, R249) -/

/-- Whether the hub's job is paused. -/
def State.jobPaused (s : State) (j : BitVec 12) : Bool := (s.job j).regs.jobStatusState == 4

/-- A write of SH_GEN (R247). -/
def shGenWrite (i : Iface) (v : Word) (s : State) : Bool × State :=
  onPart .hub i s fun s =>
    let r := (s.iface i).regs
    if s.jobPaused r.shSelJob && (s.barrier r.shSelJob r.shSelObj).isSome then
      accept (modBarrier s r.shSelJob r.shSelObj fun x => { x with shGen := v })
    else refused s .hub .synch

/-- SH_GEN_WRITE (R247). -/
def execShGenWrite (i : Iface) (data : Word) (s : State) : Host.Outcome State Fault Refusal := ackWrite i s (shGenWrite i data s)

/-- A write of SH_COUNT (R247). -/
def shCountWrite (i : Iface) (v : Word) (s : State) : Bool × State :=
  onPart .hub i s fun s =>
    let r := (s.iface i).regs
    let n : BitVec 19 := getF v 0 19
    match s.barrier r.shSelJob r.shSelObj with
    | some x =>
      let p := x.regs.shCfgPart.toNat
      if s.jobPaused r.shSelJob && (if p = 0 then n == 0 else decide (n.toNat < p)) then
        accept (modBarrier s r.shSelJob r.shSelObj fun x => { x with shCount := n })
      else refused s .hub .synch
    | none => refused s .hub .synch

/-- SH_COUNT_WRITE (R247). -/
def execShCountWrite (i : Iface) (data : Word) (s : State) : Host.Outcome State Fault Refusal :=
  ackWrite i s (shCountWrite i data s)

/-- A write of SH_JOB (R249). -/
def shJobWrite (i : Iface) (v : Word) (s : State) : Bool × State :=
  onPart .hub i s fun s =>
    let j := (s.iface i).regs.shSelJob
    let n : BitVec 32 := getF v 0 32
    if s.isHome j ∧ 1000 ≤ n.toNat ∧ n.toNat ≤ 1000000 then
      accept (mirrorCadence (modJob s j fun b => { b with releaseLead := n }) j)
    else refused s .hub .synch

/-- RELEASE_LEAD_NS_WRITE (R249). -/
def execReleaseLeadNsWrite (i : Iface) (data : Word) (s : State) : Host.Outcome State Fault Refusal :=
  ackWrite i s (shJobWrite i data s)

end Sys2Proof.Machine
end

