-- ==== Sys2Proof/Machine/Launch.lean ====
section
/-! DEFINITION. Launches (R250 to R262): authority, guard, misses, and the start of passes on the TSU and at the home (R286,
R294); halts (R293). -/

namespace Sys2Proof.Machine

/-! ## Engines -/

/-- The program and engine at a site. -/
def State.seq (s : State) : Site → Seq
  | .tsu => s.tsu.seq
  | .home j => (s.job j).seq

/-- The program and engine at a site go through a function. -/
def modSeq (s : State) (x : Site) (f : Seq → Seq) : State :=
  match x with
  | .tsu => modTsu s fun t => { t with seq := f t.seq }
  | .home j => modJob s j fun b => { b with seq := f b.seq }

/-- The registers of an engine go through a function. -/
def modSeqRegs (s : State) (x : Site) (f : SeqRegs → SeqRegs) : State := modSeq s x fun q => { q with regs := f q.regs }

/-- The part that a site belongs to. -/
def sitePart : Site → Part
  | .tsu => .tsu
  | .home _ => .hub

/-- The page of a site (R296). -/
def sitePage : Site → Page
  | .tsu => .seq
  | .home _ => .progh

/-- A cause of the site's page is set (R296). -/
def seqCause (s : State) (x : Site) (b : Nat) : State := setCause s (sitePart x) (sitePage x) b

/-- The step that the engine's pass runs. -/
def Seq.running (q : Seq) : Bool := q.regs.seqStatusState == 1 || q.regs.seqStatusState == 2

/-- An engine halts at an address with a cause (R293): the TSU reports it, and the home aborts the job. -/
def halt (s : State) (x : Site) (cause : BitVec 3) (addr : BitVec 14) : State :=
  let s := seqCause (modSeq s x fun q => { q with
    wait := none
    regs := { q.regs with seqStatusState := 3, seqStatusHaltCause := cause, seqStatusHaltPc := addr
                          seqErrHalts := satInc q.regs.seqErrHalts } }) x 2
  match x with
  | .tsu => tsuReport s 1 (cause.setWidth 8)
  | .home j => abortJob s j 2

/-- The address of the word that an engine has issued last. -/
def Seq.cur (q : Seq) : BitVec 14 := q.regs.seqStatusPc - 1

/-- The address at which BUSY_LAUNCH stops an engine (R293, R294): the word that waits, the next word of one that runs, and the
word that has halted already (log 74). -/
def Seq.busyAt (q : Seq) : BitVec 14 :=
  if q.regs.seqStatusState = 2 then q.cur else if q.regs.seqStatusState = 3 then q.regs.seqStatusHaltPc else q.regs.seqStatusPc

/-- A pass starts at address 0 with every register clear (R281, R286). -/
def startPass (q : Seq) (step : BitVec 64) (launch : Tick) : Seq :=
  { q with
    xs := [], step := step, launch := launch, wait := none, map := 0, vcount := 0
    regs := { q.regs with seqStatusState := 1, seqStatusHaltCause := 0, seqStatusHaltPc := 0, seqStatusPc := 0 } }

/-! ## The TSU launches (R261, R291, R294) -/

/-- Every result flit still held is freed (R291). -/
def freeStore (s : State) : State :=
  s.tsu.store.foldl (fun s h => returnCredit s h.via .result 1) (modTsu s fun t => { t with store := [] })

/-- The pass of the TSU section starts, with the pass's digest state clear (R286, R336). -/
def tsuPass (s : State) (step : BitVec 64) (launch : Tick) : State :=
  modTsu s fun t => { t with
    seq := startPass t.seq step launch, issued := 0, acc0 := 0, acc1 := 0, digt := { dgtPassN := 0, dgtPassNc := 0 } }

/-- A step launches on the TSU (R194, R261, R294). -/
def launchStep (s : State) (h : HeldLaunch) : State :=
  let s := freeStore (launchDue s h.tick)
  let s := modTsu s fun t => { t with
    launch := none, rel := if h.first then none else t.rel, ovf := [], badCopies := [], joined := false, missed := none
    launched := true, step := { t.step with stepNow := h.step, stepLast := h.tick, stepStatusNextValid := false } }
  let s := setCause s .tsu .step 0
  if s.tsu.seq.regs.seqStatusState = 0 then tsuPass s h.step h.tick
  else
    let s := modSeqRegs s .tsu fun r => { r with seqErrBusyLaunch := satInc r.seqErrBusyLaunch }
    let s := seqCause s .tsu 3
    halt s .tsu 5 s.tsu.seq.busyAt

/-- A launch that the TSU holds is reached, by R65 and R528. -/
def launchDueNow (s : State) (first : Bool) : Option HeldLaunch :=
  match s.tsu.launch with
  | some h => if h.first == first && s.acting .tsu && decide (h.tick.toNat ≤ (s.now .tsu).toNat) then some h else none
  | none => none

/-- STEP_LAUNCH (R261). -/
def execStepLaunch (s : State) : Host.Outcome State Fault Refusal :=
  match launchDueNow s false with
  | some h => .next (launchStep s h)
  | none => .next s

/-- The TSU holds a launch's authority in time: the launch is scheduled, and the taps and the STEP-mode triggers have it
(R253, R260, R265); STEP_NEXT shows the launch of a STEP_RELEASE (R272). -/
def holdLaunch (s : State) (h : HeldLaunch) : State :=
  let s := modTsu s fun t => { t with
    launch := some h
    step := if h.first then t.step else { t.step with stepNext := h.tick, stepStatusNextValid := true } }
  schedStepPulses (launchTaps s h.tick) h.tick h.step

/-- Whether authority that comes now is in time for a target (R251). -/
def inGuard (s : State) (target : Tick) : Bool := decide ((s.now .tsu).toNat + s.tsu.step.stepCfg.toNat ≤ target.toNat)

/-- The first copy of a STEP_RELEASE (R260). -/
def relFirst (m : StepReleaseP) (step : BitVec 64) (s : State) : State :=
  let s := modTsu s fun t => { t with
    rel := some m
    step := { t.step with stepStatusLate := m.late, stepStatusRebased := m.rebased, stepStatusLagNs := m.lag } }
  match schedWire s .tsu m.tick with
  | (some t, s) => if inGuard s t then holdLaunch s { tick := t, step := step } else launchMiss s step t 1
  | (none, s) => launchMiss s step ((extendWire m.tick (s.now .tsu)).getD 0) 1

/-- A second copy of a STEP_RELEASE (R252, R260). -/
def relSecond (m first : StepReleaseP) (step : BitVec 64) (s : State) : State :=
  if m.tick = first.tick ∧ m.late = first.late ∧ m.rebased = first.rebased ∧ m.lag = first.lag then
    modTsu s fun t => { t with step := { t.step with stepErrDup := satInc t.step.stepErrDup } }
  else
    let s := modTsu s fun t => { t with step := { t.step with stepErrConflict := satInc t.step.stepErrConflict } }
    match s.tsu.launch with
    | some h =>
      let s := dropStepPulses (cancelTaps (modTsu s fun t => { t with
        launch := none, step := { t.step with stepStatusNextValid := false } })) h.tick
      launchMiss s step h.tick 2
    | none => s

/-- What a TSU does with a STEP_RELEASE (R260): a second copy is told by its step, also after the launch has fired. An ABORTED
job launches no more: a copy that comes after the JOB_ABORT is refused as stale (R418, R442). -/
def stepReleaseTake (m : StepReleaseP) (s : State) : State :=
  let stale (s : State) : State := modTsu s fun t => { t with step := { t.step with stepErrStale := satInc t.step.stepErrStale } }
  if s.tsuDrains m.job then refuse s .tsu .step
  else if s.tsu.txnt.ttJobState == 5 then stale s
  else match tsuJobOk s m.job m.epoch with
  | (false, s) => stale s
  | (true, s) =>
    match extendStep m.step s.tsu.step.stepNow with
    | none => stale (countStepRefused s .tsu m.step s.tsu.step.stepNow)
    | some st =>
      match s.tsu.rel.filter fun f => f.step == m.step with
      | some f => relSecond m f st s
      | none => if st ≠ s.tsu.step.stepNow + 1 then stale s else relFirst m st s

/-- STEP_RELEASE_RECEIVE (R68, R260). -/
def execStepReleaseReceive (l : LinkId) (m : StepReleaseP) (s : State) : Host.Outcome State Fault Refusal :=
  let s := taken s l (.stepRelease m)
  if s.valid .tsu then .next (stepReleaseTake m s)
  else .next (sendLink (countNotValid s .tsu) l none (.notReady { cause := 0 }))

/-! ## The LAUNCH action (R423, R436) -/

/-- What a LAUNCH action names. -/
structure LaunchAct where
  l0 : Tick
  first : BitVec 64
  lag : BitVec 64
  catchup : BitVec 16
  tsuDigest : BitVec 384
  homeDigest : BitVec 384
  deriving DecidableEq, Repr

/-- A number of `n` bytes at an offset. -/
def bytesAt (bs : List (BitVec 8)) (off n : Nat) : Nat := bytesToNat (padTo n ((bs.drop off).take n))

/-- The actions of a share: CODE, TARGET and payload of each (R422); none when the lengths do not fit. -/
def parseActs : Nat → List (BitVec 8) → Option (List (Nat × BitVec 64 × List (BitVec 8)))
  | 0, bs => if bs.isEmpty then some [] else none
  | fuel + 1, bs =>
    if bs.isEmpty then some []
    else
      let len := bytesAt bs 4 4
      if bs.length < 16 + len ∨ len % 8 ≠ 0 then none
      else (parseActs fuel (bs.drop (16 + len))).map fun rest =>
        (bytesAt bs 0 2, BitVec.ofNat 64 (bytesAt bs 8 8), (bs.drop 16).take len) :: rest

/-- The actions of a share; none listed when they do not parse. -/
def actsOf (bs : List (BitVec 8)) : List (Nat × BitVec 64 × List (BitVec 8)) := (parseActs bs.length bs).getD []

/-- The payload of the first action of a code. -/
def actOf (bs : List (BitVec 8)) (code : Nat) : Option (List (BitVec 8)) :=
  ((actsOf bs).find? fun a => a.1 == code).map fun a => a.2.2

/-- The LAUNCH action of a share (R423). -/
def launchAct (bs : List (BitVec 8)) : Option LaunchAct :=
  (actOf bs 0x000B).map fun p => {
    l0 := BitVec.ofNat 64 (bytesAt p 0 8), first := BitVec.ofNat 64 (bytesAt p 8 8), lag := BitVec.ofNat 64 (bytesAt p 16 8)
    catchup := BitVec.ofNat 16 (bytesAt p 24 2), tsuDigest := BitVec.ofNat 384 (bytesAt p 32 48)
    homeDigest := BitVec.ofNat 384 (bytesAt p 80 48) }

/-- LAUNCH_GUARD_MISS (R251, R252): no COMMIT of the launch is held by L0 − GUARD_NS. -/
def execLaunchGuardMiss (s : State) : Host.Outcome State Fault Refusal :=
  match s.stagedAt .tsu (s.tsu.txnt.ttJob.setWidth 13) with
  | some g =>
    match (if g.kind == 2 && !g.committed then launchAct g.share else none) with
    | some a =>
      if inGuard s a.l0 then .next s
      else .next (launchMiss (setStaged s .tsu (s.tsu.txnt.ttJob.setWidth 13) none) a.first a.l0 0)
    | none => .next s
  | none => .next s

/-! ## The home's pass (R286, R294, R313, R322) -/

/-- Whether the home has a home section loaded. -/
def Seq.loaded (q : Seq) : Bool := q.regs.progStatusState == 3

/-- The words of the section (R276): TSU_LEN or HOME_LEN. -/
def Seq.len (q : Seq) (x : Site) : Nat :=
  let h1 := ((tget none q.words 1).getD 0)
  match x with
  | .tsu => (getF h1 32 32 : BitVec 32).toNat
  | .home _ => (getF h1 0 32 : BitVec 32).toNat

/-- A home pass starts, waits for END, or halts (R286, R294). -/
def homePass (s : State) (j : BitVec 12) (step : BitVec 64) (launch : Tick) : State :=
  let q := (s.job j).seq
  if !q.loaded || q.len (.home j) == 0 then s
  else if q.regs.seqStatusState = 0 then
    modJob s j fun b => { b with seq := startPass b.seq step launch, closed := false, closing := none, twinClose := none }
  else if !q.running then s
  else match q.next with
    | none => modJob s j fun b => { b with seq := { b.seq with next := some (step, launch) } }
    | some _ =>
      let s := seqCause (modSeqRegs s (.home j) fun r => { r with seqErrBusyLaunch := satInc r.seqErrBusyLaunch }) (.home j) 3
      halt s (.home j) 5 q.busyAt

/-- The home launches a step (R254, R286, R322, R364): its step index, the envelope in force, and its pass. -/
def homeLaunch (s : State) (j : BitVec 12) (h : HeldLaunch) : State :=
  let s := modJob s j fun b => { b with
    step := h.step, nextLaunch := none
    kept := b.kept.filter fun k => decide (h.step.toNat < k.1.toNat + 2)
    rresDue := b.rresDue.filter fun k => decide (h.step.toNat < k.1.toNat + 2)
    rresIn := b.rresIn.filter fun m => decide (0 ≤ signedDiff (m.step + 1) (h.step.setWidth 24))
    refused := b.refused.filter fun k => decide (h.step.toNat ≤ k.2.toNat + 1) }
  homePass (envLaunch s j h.step) j h.step h.tick

/-- A launch that the home holds is reached (R65, R528). -/
def homeDueNow (s : State) (j : BitVec 12) (first : Bool) : Option HeldLaunch :=
  match (s.job j).nextLaunch with
  | some h => if h.first == first && s.acting .hub && decide (h.tick.toNat ≤ (s.now .hub).toNat) then some h else none
  | none => none

/-- HOME_PASS_START (R286): the launch tick of a step is reached at a home member. -/
def execHomePassStart (job : BitVec 12) (s : State) : Host.Outcome State Fault Refusal :=
  match homeDueNow s job false with
  | some h => .next (homeLaunch s job h)
  | none => .next s

/-- JOB_LAUNCH (R254, R436): the first launch of a LAUNCH transaction is reached, on a member TSU or at the home. -/
def execJobLaunch (site : Site) (s : State) : Host.Outcome State Fault Refusal :=
  match site with
  | .tsu =>
    match launchDueNow s true with
    | some h => .next (launchStep s h)
    | none => .next s
  | .home j =>
    match homeDueNow s j true with
    | some h => .next (homeLaunch s j h)
    | none => .next s

end Sys2Proof.Machine
end

