-- ==== Sys2Proof/Machine/Prog.lean ====
section
/-! DEFINITION. Loading a step program: the load stream (R277), the check (R278), the digest (R279), and the fields of the
instruction word (R280 to R283). -/

namespace Sys2Proof.Machine

/-! ## The instruction word (R280, R281) -/

def iOp (w : Word) : Nat := (getF w 56 8 : BitVec 8).toNat

def iVary (w : Word) : Bool := getB w 55

def iTmo (w : Word) : Bool := getB w 54

def iA (w : Word) : BitVec 4 := getF w 48 4

def iB (w : Word) : BitVec 4 := getF w 44 4

/-- IMM[43:32] as a slot or context number. -/
def iSlot (w : Word) : BitVec 12 := getF w 32 12

/-- IMM[43:40]: COND or FN. -/
def iFn (w : Word) : Nat := (getF w 40 4 : BitVec 4).toNat

/-- IMM[13:0]: a branch target. -/
def iTarget (w : Word) : BitVec 14 := getF w 0 14

/-- IMM[31:0], zero-extended. -/
def iImm32 (w : Word) : Word := (getF w 0 32 : BitVec 32).setWidth 64

/-- IMM[12:0]: a word of XBUF. -/
def iBuf (w : Word) : Nat := (getF w 0 13 : BitVec 13).toNat

/-- IMM[31:16] plus one: a count of elements. -/
def iCount (w : Word) : Nat := (getF w 16 16 : BitVec 16).toNat + 1

/-! ## The check (R278) -/

/-- The opcodes that the TSU section may hold (R282). -/
def opT : List Nat :=
  [0x00, 0x02, 0x03, 0x04, 0x10, 0x11, 0x12, 0x13, 0x14, 0x15, 0x16, 0x17, 0x18, 0x19, 0x1A, 0x1B] ++
  [0x20, 0x21, 0x22, 0x23, 0x24, 0x25, 0x26, 0x27, 0x28, 0x29, 0x2A, 0x2B, 0x30, 0x31, 0x32, 0x33]

/-- The opcodes that the home section may hold (R282). -/
def opH : List Nat := [0x00, 0x01, 0x02, 0x03, 0x04, 0x10, 0x11, 0x12, 0x13, 0x15, 0x16, 0x17, 0x40, 0x41, 0x42, 0x43]

/-- BAD_OPCODE. -/
def badOpcode (x : Site) (w : Word) : Bool :=
  match x with
  | .tsu => !opT.contains (iOp w)
  | .home _ => !opH.contains (iOp w)

/-- BAD_FIELD. -/
def badField (w : Word) : Bool :=
  match iOp w with
  | 0x03 => decide (5 < iFn w)
  | 0x12 => decide (8 < iFn w)
  | 0x33 => decide (1 < (getF w 42 2 : BitVec 2).toNat)
  | 0x25 => (getF w 0 4 : BitVec 4) == 0
  | _ => false

/-- BAD_TARGET. -/
def badTarget (len : Nat) (w : Word) : Bool := [0x02, 0x03, 0x04].contains (iOp w) && decide (len ≤ (iTarget w).toNat)

/-- BAD_CONTEXT. -/
def badContext (peak : Nat) (w : Word) : Bool :=
  [0x30, 0x31, 0x32, 0x40, 0x41, 0x42].contains (iOp w) && decide (peak ≤ (iSlot w).toNat)

/-- VARY_MISSING. -/
def varyMissing (w : Word) : Bool := [0x16, 0x17, 0x18, 0x19].contains (iOp w) && !iVary w

/-- The address of the first word that a test finds. -/
def findWord (f : Word → Bool) : Nat → List Word → Option Nat
  | _, [] => none
  | k, w :: ws => if f w then some k else findWord f (k + 1) ws

/-- The address of the word that is the `n`-th (from 0) with VARY set. -/
def nthVary : Nat → Nat → List Word → Option Nat
  | _, _, [] => none
  | n, k, w :: ws => if iVary w then (if n = 0 then some k else nthVary (n - 1) (k + 1) ws) else nthVary n (k + 1) ws

/-- The word at a stream address; zero where none was written. -/
def Seq.at (q : Seq) (a : Nat) : Word := (tget none q.words a).getD 0

/-- The section's words. -/
def Seq.section_ (q : Seq) (len : Nat) : List Word := (List.range len).map fun a => q.at (a + 4)

/-- The first cause that applies among words, with its code (R278). -/
def firstBad (x : Site) (len peak : Nat) (ws : List Word) : Option (Nat × Nat) :=
  match findWord (badOpcode x) 0 ws with
  | some a => some (4, a)
  | none => match findWord badField 0 ws with
    | some a => some (5, a)
    | none => match findWord (badTarget len) 0 ws with
      | some a => some (6, a)
      | none => match findWord (badContext peak) 0 ws with
        | some a => some (7, a)
        | none => match findWord varyMissing 0 ws with
          | some a => some (8, a)
          | none => (nthVary 256 0 ws).map fun a => (9, a)

/-- The outcome of the check: RESULT and FAULT_ADDR (R278); `resv` gives the job's reservation on a hub. -/
def progCheck (x : Site) (q : Seq) (resv : Nat × Nat) : Nat × Nat :=
  let h0 := q.at 0
  let h2 := q.at 2
  let tsuLen := (getF (q.at 1) 32 32 : BitVec 32).toNat
  let homeLen := (getF (q.at 1) 0 32 : BitVec 32).toNat
  let peakC := (getF h2 48 16 : BitVec 16).toNat
  let peakS := (getF h2 24 24 : BitVec 24).toNat
  let len := q.len x
  let n := q.regs.progStatusWords.toNat
  if (getF h0 32 32 : BitVec 32) ≠ 0x53545047 ∨ (getF h0 16 16 : BitVec 16) ≠ 1 ∨ homeLen > 8192 ∨ peakC > 4096 ∨ peakS > 2097152 then
    (1, 0)
  else if tsuLen > 16384 ∨ q.tooLong then (2, 0)
  else if n ≠ 4 + len ∨ (List.range n).any (fun a => tget none q.words a == none) then (3, 0)
  else
    let ws := q.section_ len
    match firstBad x len peakC ws with
    | some r => r
    | none =>
      let needs := match x with | .tsu => !ws.any (fun w => iOp w == 0x2B) | .home _ => len != 0 && !ws.any (fun w => iOp w == 0x01)
      if needs then (10, 0)
      else match x with
        | .tsu => (0, 0)
        | .home _ => if peakC > resv.1 ∨ peakS > resv.2 then (11, 0) else (0, 0)

/-- PROG_CHECK_DONE (R278, R279, R283): LOADED with the digest and the count of VARY words, or EMPTY. -/
def execProgCheckDone (site : Site) (s : State) : Host.Outcome State Fault Refusal :=
  let q := s.seq site
  if q.regs.progStatusState ≠ 2 then .next s
  else
    let resv := match site with
      | .tsu => (0, 0)
      | .home j => ((s.job j).peakCtx.toNat, (s.job j).peakSlots.toNat)
    let (res, addr) := progCheck site q resv
    let n := q.regs.progStatusWords.toNat
    if res = 0 then
      let ws := (List.range n).map q.at
      let s := modSeq s site fun q => { q with
        digest := sha384 (ws.flatMap fun w => bvBytes 8 w)
        regs := { q.regs with
          progStatusState := 3, progStatusResult := 0, progStatusFaultAddr := 0
          progStatusVaryCount := satNat 9 ((q.section_ (n - 4)).filter iVary).length } }
      let s := seqCause s site 0
      match site with
      | .tsu => .next s
      | .home j => .next (envChange s j)
    else
      -- BAD_OPCODE and BAD_FIELD are reserved encodings (R13)
      let s := if res = 4 ∨ res = 5 then refuse s (sitePart site) (sitePage site) else s
      let s := modSeq s site fun q => { q with
        words := [], digest := 0
        regs := { q.regs with
          progStatusState := 0, progStatusResult := BitVec.ofNat 4 res, progStatusFaultAddr := BitVec.ofNat 14 addr
          progStatusVaryCount := 0 } }
      .next (seqCause s site 1)

/-! ## The load stream (R277, R296) -/

/-- The site that an interface's PROG registers act on (R296). -/
def State.progSite (s : State) (i : Iface) : Site :=
  match i.part with
  | .tsu => .tsu
  | .hub => .home (s.iface i).regs.seqSel

/-- The highest stream address of a part (R277). -/
def progMax : Site → Nat
  | .tsu => 16387
  | .home _ => 8195

/-- Whether a job in a state has launched and is not paused. -/
def launchedState (st : BitVec 4) (launched : Bool) : Bool := st == 2 || st == 3 || ((st == 5 || st == 6) && launched)

/-- Whether a BEGIN is refused (R277). -/
def beginRefused (s : State) (x : Site) : Bool :=
  (s.seq x).regs.seqStatusState != 0 ||
  match x with
  | .tsu => launchedState s.tsu.txnt.ttJobState s.tsu.launched
  | .home j => !s.isHome j || launchedState (s.job j).regs.jobStatusState (s.job j).envSet

/-- A write that is refused on the site's page. -/
def progRefused (s : State) (x : Site) : Bool × State := refused s (sitePart x) (sitePage x)

/-- A write of PROG_CTRL (R277). -/
def progCtrlWrite (i : Iface) (v : Word) (s : State) : Bool × State :=
  let x := s.progSite i
  let st := (s.seq x).regs.progStatusState
  if st = 2 ∨ (getB v 63 ∧ getB v 62) then progRefused s x
  else if getB v 63 then
    if beginRefused s x then progRefused s x
    else accept (modSeq s x fun q => { q with
      words := [], tooLong := false, digest := 0
      regs := { q.regs with
        progStatusState := 1, progAddr := 0, progStatusWords := 0, progStatusVaryCount := 0, progStatusResult := 0
        progStatusFaultAddr := 0 } })
  else if getB v 62 then
    if st = 1 then accept (modSeqRegs s x fun r => { r with progStatusState := 2 }) else progRefused s x
  else accept s

/-- PROG_BEGIN (R277): a write of PROG_CTRL with BEGIN set. -/
def execProgBegin (i : Iface) (data : Word) (s : State) : Host.Outcome State Fault Refusal :=
  ackWrite i s (progCtrlWrite i (data ||| putB 63 true) s)

/-- PROG_COMMIT (R277): a write of PROG_CTRL with COMMIT set. -/
def execProgCommit (i : Iface) (data : Word) (s : State) : Host.Outcome State Fault Refusal :=
  ackWrite i s (progCtrlWrite i (data ||| putB 62 true) s)

/-- The opcodes that wait, in which TMO has a meaning (R280, R282). -/
def opWaits : List Nat := [0x25, 0x27, 0x28, 0x29, 0x31, 0x32, 0x40, 0x43]

/-- A word of the load stream with its reserved bits clear (R12, R276, R278, R280). -/
def loadWord (a : Nat) (v : Word) : Word :=
  match a with
  | 0 => v &&& 0xFFFFFFFFFFFF0000
  | 1 => v
  | 2 => v &&& 0xFFFFFFFFFF000000
  | 3 => 0
  | _ => v &&& ~~~(putF 52 (3 : BitVec 2) ||| putB 54 (!opWaits.contains (iOp v)))

/-- A write of PROG_DATA (R277, R278). -/
def progDataWrite (i : Iface) (v : Word) (s : State) : Bool × State :=
  let x := s.progSite i
  let r := (s.seq x).regs
  if r.progStatusState ≠ 1 then progRefused s x
  else if progMax x < r.progAddr.toNat then progRefused (modSeq s x fun q => { q with tooLong := true }) x
  else accept (modSeq s x fun q => { q with
    words := tset none q.words r.progAddr.toNat (some (loadWord r.progAddr.toNat v))
    regs := { q.regs with
      progAddr := r.progAddr + 1
      progStatusWords := if q.regs.progStatusWords.toNat < r.progAddr.toNat + 1 then r.progAddr + 1 else q.regs.progStatusWords } })

/-- PROG_DATA_WRITE (R277). -/
def execProgDataWrite (i : Iface) (data : Word) (s : State) : Host.Outcome State Fault Refusal :=
  ackWrite i s (progDataWrite i data s)

/-- A read of PROG_DATA (R296): PROG_ADDR advances as after a write. -/
def progDataRead (i : Iface) (s : State) : Word × State :=
  let x := s.progSite i
  let q := s.seq x
  if progMax x < q.regs.progAddr.toNat then (0, s)
  else (q.at q.regs.progAddr.toNat, modSeqRegs s x fun r => { r with progAddr := r.progAddr + 1 })

/-- A write of PROG_ADDR (R277). -/
def progAddrWrite (i : Iface) (v : Word) (s : State) : Bool × State :=
  let x := s.progSite i
  let a : BitVec 15 := getF v 0 15
  if (s.seq x).regs.progStatusState = 2 ∨ progMax x < a.toNat then progRefused s x
  else accept (modSeqRegs s x fun r => { r with progAddr := a })

/-- PROG_ADDR_WRITE (R277). -/
def execProgAddrWrite (i : Iface) (data : Word) (s : State) : Host.Outcome State Fault Refusal :=
  ackWrite i s (progAddrWrite i data s)

end Sys2Proof.Machine
end

