-- ==== Sys2Proof/Machine/Stock.lean ====
section
/-! DEFINITION. The Stockpot's arithmetic: formats (R299), exact terms (R300, R301), rounding (R302), operations (R305, R315
to R318) and finish stages (R319, R320). -/

namespace Sys2Proof.Machine

/-! ## Formats (R299) -/

/-- A float format: its width, exponent bits, fraction bits, bias and SHIFT. -/
structure FFmt where
  width : Nat
  ebits : Nat
  mbits : Nat
  bias : Nat
  shift : Nat
  /-- The bits of the largest finite value, of infinity (none in E4M3) and of the canonical NaN (R302). -/
  maxFin : Nat
  inf : Option Nat
  nan : Nat
  deriving DecidableEq, Repr

/-- The float format of a code; integers have none. -/
def ffmt (c : Nat) : Option FFmt :=
  match c with
  | 0 => some ⟨32, 8, 23, 127, 0, 0x7F7FFFFF, some 0x7F800000, 0x7FC00000⟩
  | 1 => some ⟨16, 8, 7, 127, 16, 0x7F7F, some 0x7F80, 0x7FC0⟩
  | 2 => some ⟨16, 5, 10, 15, 125, 0x7BFF, some 0x7C00, 0x7E00⟩
  | 3 => some ⟨8, 4, 3, 7, 140, 0x7E, none, 0x7F⟩
  | 4 => some ⟨8, 5, 2, 15, 133, 0x7B, some 0x7C, 0x7E⟩
  | 5 => some ⟨64, 11, 52, 1023, 0, 0x7FEFFFFFFFFFFFFF, some 0x7FF0000000000000, 0x7FF8000000000000⟩
  | _ => none

/-- The width of a format (R299). -/
def fmtWidth (c : Nat) : Nat :=
  match c with | 0 => 32 | 1 => 16 | 2 => 16 | 3 => 8 | 4 => 8 | 5 => 64 | 6 => 32 | 7 => 32 | _ => 64

/-- What the exponent of an accumulator's unit is: values are ACC × 2^-unit (R300). -/
def accUnit (infmt : Nat) : Nat := match infmt with | 5 => 1074 | 6 => 0 | 7 => 0 | 8 => 0 | _ => 149

/-- The bits of an integer format as a number (R299). -/
def intVal (c : Nat) (x : Nat) : Int :=
  match c with
  | 6 => (x % 2 ^ 32 : Nat)
  | 7 => (BitVec.ofNat 32 x).toInt
  | _ => (BitVec.ofNat 64 x).toInt

/-- A value as the Stockpot sees it: exact, and with the special values of IEEE 754. Finite values are not zero. -/
inductive XVal where
  | nan
  | inf (neg : Bool)
  | zero (neg : Bool)
  | fin (neg : Bool) (num den : Nat)
  deriving DecidableEq, Repr

/-- Sign, magnitude bits and class of the bits of a float format. -/
def splitBits (f : FFmt) (x : Nat) : Bool × Nat := (x.testBit (f.width - 1), x % 2 ^ (f.width - 1))

/-- Whether magnitude bits are a NaN (R299). -/
def isNan (f : FFmt) (mag : Nat) : Bool :=
  match f.inf with
  | some i => decide (i < mag)
  | none => decide (f.maxFin < mag)

/-- Whether magnitude bits are an infinity. -/
def isInf (f : FFmt) (mag : Nat) : Bool := f.inf == some mag

/-- M and k of R301. -/
def manExp (f : FFmt) (mag : Nat) : Nat × Nat :=
  let e := mag / 2 ^ f.mbits
  let fr := mag % 2 ^ f.mbits
  if e = 0 then (fr, 0) else (fr + 2 ^ f.mbits, e - 1)

/-- The value that bits stand for. -/
def decodeX (c : Nat) (x : Nat) : XVal :=
  match ffmt c with
  | none => let n := intVal c x; if n = 0 then .zero false else .fin (decide (n < 0)) n.natAbs 1
  | some f =>
    let (neg, mag) := splitBits f x
    if isNan f mag then .nan
    else if isInf f mag then .inf neg
    else if mag = 0 then .zero neg
    else
      let (m, k) := manExp f mag
      .fin neg (m * 2 ^ k) (2 ^ (f.bias - 1 + f.mbits))

/-! ## Rounding (R302, R320) -/

/-- The floor of the base-2 logarithm of a positive quotient. -/
def log2Rat (num den : Nat) : Int :=
  let e : Int := (Nat.log2 num : Int) - Nat.log2 den
  if (if e ≥ 0 then decide (den * 2 ^ e.toNat ≤ num) else decide (den ≤ num * 2 ^ (-e).toNat)) then e else e - 1

/-- A quotient rounded to the nearest integer, ties to even. -/
def roundDiv (num den : Nat) : Nat :=
  let q := num / den
  let r := num % den
  if 2 * r < den then q else if den < 2 * r then q + 1 else q + q % 2

/-- The root of a quotient rounded to the nearest integer, ties to even. -/
def roundSqrt (num den : Nat) : Nat :=
  let f := isqrt (num / den)
  let a := 4 * num
  let b := den * ((2 * f + 1) * (2 * f + 1))
  if a < b then f else if b < a then f + 1 else f + f % 2

/-- The exponent of the quantum at a value whose logarithm is `e`, counted from the least quantum. -/
def quantum (f : FFmt) (e : Int) : Int := max e (1 - (f.bias : Int)) - f.mbits

/-- The magnitude bits of a positive quotient in a format, without bound on the exponent (R302). -/
def roundMag (f : FFmt) (num den : Nat) : Nat :=
  let q := quantum f (log2Rat num den)
  let n := if q ≥ 0 then roundDiv num (den * 2 ^ q.toNat) else roundDiv (num * 2 ^ (-q).toNat) den
  (q - (1 - (f.bias : Int) - f.mbits)).toNat * 2 ^ f.mbits + n

/-- The same of the square root of a quotient. -/
def roundMagSqrt (f : FFmt) (num den : Nat) : Nat :=
  let q := quantum f (log2Rat num den / 2)
  let n := if q ≥ 0 then roundSqrt num (den * 2 ^ (2 * q.toNat)) else roundSqrt (num * 2 ^ (2 * (-q).toNat)) den
  (q - (1 - (f.bias : Int) - f.mbits)).toNat * 2 ^ f.mbits + n

/-- A sign over magnitude bits. -/
def withSign (f : FFmt) (neg : Bool) (mag : Nat) : Nat := if neg then mag + 2 ^ (f.width - 1) else mag

/-- The bits of an infinite result: the canonical NaN in E4M3 (R302, R320). -/
def infBits (f : FFmt) (neg : Bool) : Nat :=
  match f.inf with
  | some i => withSign f neg i
  | none => f.nan

/-- Rounded magnitude bits as a result: bits and RANGE (R302 case 6). -/
def boundMag (f : FFmt) (neg : Bool) (mag : Nat) : Nat × Bool :=
  if mag ≤ f.maxFin then (withSign f neg mag, false)
  else (withSign f neg (match f.inf with | some i => i | none => f.maxFin), true)

/-- A value rounded once to a float format: bits and RANGE (R302). -/
def roundX (f : FFmt) : XVal → Nat × Bool
  | .nan => (f.nan, false)
  | .inf neg => (infBits f neg, false)
  | .zero neg => (withSign f neg 0, false)
  | .fin neg num den => boundMag f neg (roundMag f num den)

/-- The square root of a value, rounded once (R319, R320). -/
def sqrtX (f : FFmt) : XVal → Nat × Bool
  | .nan => (f.nan, false)
  | .inf neg => if neg then (f.nan, false) else (infBits f false, false)
  | .zero neg => (withSign f neg 0, false)
  | .fin neg num den => if neg then (f.nan, false) else boundMag f false (roundMagSqrt f num den)

/-- The reciprocal square root of a value, rounded once (R319, R320). -/
def rsqrtX (f : FFmt) : XVal → Nat × Bool
  | .nan => (f.nan, false)
  | .inf neg => if neg then (f.nan, false) else (0, false)
  | .zero neg => (infBits f neg, false)
  | .fin neg num den => if neg then (f.nan, false) else boundMag f false (roundMagSqrt f den num)

/-- The product of two values (IEEE 754). -/
def mulX : XVal → XVal → XVal
  | .nan, _ => .nan
  | _, .nan => .nan
  | .inf a, .zero _ => let _ := a; .nan
  | .zero _, .inf _ => .nan
  | .inf a, .inf b => .inf (a != b)
  | .inf a, .fin b _ _ => .inf (a != b)
  | .fin a _ _, .inf b => .inf (a != b)
  | .zero a, .zero b => .zero (a != b)
  | .zero a, .fin b _ _ => .zero (a != b)
  | .fin a _ _, .zero b => .zero (a != b)
  | .fin a n d, .fin b m e => .fin (a != b) (n * m) (d * e)

/-- The reciprocal of a value (IEEE 754). -/
def invX : XVal → XVal
  | .nan => .nan
  | .inf a => .zero a
  | .zero a => .inf a
  | .fin a n d => .fin a d n

/-- The quotient of two values (IEEE 754): 0/0 and ∞/∞ are invalid. -/
def divX (x y : XVal) : XVal := mulX x (invX y)

/-- A value as a pair of integers that orders it: −∞ and +∞ at the ends. -/
def ltX (x y : XVal) : Bool :=
  match x, y with
  | .nan, _ => false
  | _, .nan => false
  | .inf a, .inf b => a && !b
  | .inf a, _ => a
  | _, .inf b => !b
  | .zero _, .zero _ => false
  | .zero _, .fin b _ _ => !b
  | .fin a _ _, .zero _ => a
  | .fin a n d, .fin b m e =>
    let l : Int := if a then -((n * e : Nat) : Int) else (n * e : Nat)
    let r : Int := if b then -((m * d : Nat) : Int) else (m * d : Nat)
    decide (l < r)

/-- The sign of a value. -/
def negX : XVal → Bool
  | .nan => false
  | .inf a => a
  | .zero a => a
  | .fin a _ _ => a

/-- The lesser of two values that are not NaN, −0 below +0 (R315). -/
def minX (x y : XVal) : XVal :=
  match x, y with
  | .nan, _ => .nan
  | _, .nan => .nan
  | .zero a, .zero b => .zero (a || b)
  | x, y => if ltX y x then y else x

/-- The greater of two values that are not NaN (R315). -/
def maxX (x y : XVal) : XVal :=
  match x, y with
  | .nan, _ => .nan
  | _, .nan => .nan
  | .zero a, .zero b => .zero (a && b)
  | x, y => if ltX x y then y else x

/-- One as a value. -/
def oneX : XVal := .fin false 1 1

/-- A finish stage on a value (R319, R320): bits and RANGE. -/
def stageX (f : FFmt) (code : Nat) (x op k : XVal) (p : Nat) : Nat × Bool :=
  match code with
  | 1 => roundX f (mulX x op)
  | 2 => roundX f (mulX x k)
  | 3 => roundX f (divX x (.fin false p 1))
  | 4 => sqrtX f x
  | 5 => rsqrtX f x
  | 6 => match x with
    | .zero _ => roundX f oneX
    | x => roundX f (match divX op x with
      | .nan => .nan
      | v => if ltX v oneX then v else oneX)
  | 7 => match x, op with
    | .nan, _ => (f.nan, false)
    | _, .nan => (f.nan, false)
    | x, op => if ltX x op then (0, false) else roundX f oneX
  | 8 => roundX f (minX x op)
  | 9 => roundX f (maxX x op)
  | _ => roundX f x

/-- The stages of a chain in order, up to END (R319): each takes the rounded value of the one before. -/
def chainX (f : FFmt) (outfmt : Nat) (op k : XVal) (p : Nat) : List Nat → XVal → Nat × Bool → Nat × Bool
  | [], _, r => r
  | c :: cs, x, r =>
    if c = 0 then r
    else
      let (bits, range) := stageX f c x op k p
      chainX f outfmt op k p cs (decodeX outfmt bits) (bits, r.2 || range)

/-! ## Elements (R301, R305, R315, R316) -/

/-- The fields of a descriptor (R304). -/
def cOp (cfg : Word) : Nat := (getF cfg 60 4 : BitVec 4).toNat

def cIn (cfg : Word) : Nat := (getF cfg 56 4 : BitVec 4).toNat

def cOut (cfg : Word) : Nat := (getF cfg 52 4 : BitVec 4).toNat

def cLen (cfg : Word) : Nat := (getF cfg 36 16 : BitVec 16).toNat + 1

def cPart (cfg : Word) : Nat := (getF cfg 18 18 : BitVec 18).toNat + 1

def cFin (cfg : Word) : List Nat := [12, 8, 4, 0].map fun i => (getF cfg i 4 : BitVec 4).toNat

/-- Whether hubs below the home forward contributions unchanged (R305). -/
def passThrough (cfg : Word) : Bool := (cOp cfg == 1 && cIn cfg == 5) || cOp cfg == 8 || cOp cfg == 9

/-- The slots a context occupies (R307). -/
def cSlots (cfg : Word) : Nat :=
  let l := cLen cfg
  if cOp cfg = 8 ∨ cOp cfg = 9 then l + (cPart cfg * l + 5) / 6 else if cOp cfg = 1 ∧ cIn cfg = 5 then 6 * l else l

/-- The width of a result element (R305). -/
def resWidth (cfg : Word) : Nat :=
  match cOp cfg with
  | 2 => fmtWidth (cIn cfg)
  | 3 => fmtWidth (cIn cfg)
  | 4 => 64
  | 5 => 64
  | 6 => 32
  | 7 => 32
  | 9 => 64
  | _ => fmtWidth (cOut cfg)

/-- One contribution as an element (R301): a term for SUM and SCAN, the bits themselves otherwise. -/
def elemOf (cfg : Word) (rank : BitVec 20) (x : Nat) : Elem :=
  let sum := cOp cfg == 1 || cOp cfg == 8
  match ffmt (cIn cfg) with
  | none => { n := 1, acc := if sum then intVal (cIn cfg) x else (x : Int), rank := rank, anynz := true }
  | some f =>
    let (neg, mag) := splitBits f x
    let (m, k) := manExp f mag
    let t : Int := ((m * 2 ^ (k + f.shift) : Nat) : Int)
    let fin := !isNan f mag && !isInf f mag
    { n := 1, rank := rank
      acc := if sum then (if fin then (if neg then -t else t) else 0) else (x : Int)
      nan := isNan f mag, pinf := isInf f mag && !neg, ninf := isInf f mag && neg
      anynz := fin && !(neg && mag == 0) }

/-- The order of values for MIN to ARGMAX (R315): totalOrder of float values, and integers by value. -/
def orderKey (infmt : Nat) (x : Nat) : Int :=
  match ffmt infmt with
  | none => intVal infmt x
  | some f =>
    let (neg, mag) := splitBits f x
    if neg then -1 - (mag : Int) else (mag : Int)

/-- The better of two elements of MIN to ARGMAX (R315): NaN first, then the value, then the lower rank. -/
def betterElem (cfg : Word) (a b : Elem) : Elem :=
  if a.nan && b.nan then (if b.rank.toNat < a.rank.toNat then b else a)
  else if a.nan then a
  else if b.nan then b
  else
    let ka := orderKey (cIn cfg) a.acc.toNat
    let kb := orderKey (cIn cfg) b.acc.toNat
    let bWins := if cOp cfg = 2 ∨ cOp cfg = 4 then decide (kb < ka) else decide (ka < kb)
    if bWins || (ka == kb && decide (b.rank.toNat < a.rank.toNat)) then b else a

/-- Two partials of an element folded (R301, R305). -/
def foldElem (cfg : Word) (a b : Elem) : Elem :=
  let base : Elem := { a with
    n := a.n + b.n, nan := a.nan || b.nan, pinf := a.pinf || b.pinf, ninf := a.ninf || b.ninf, anynz := a.anynz || b.anynz }
  if a.n = 0 then b
  else if b.n = 0 then a
  else match cOp cfg with
    | 1 => { base with acc := a.acc + b.acc }
    | 8 => { base with acc := a.acc + b.acc }
    | 6 => { base with acc := ((a.acc.toNat ||| b.acc.toNat : Nat) : Int) }
    | 7 => { base with acc := ((a.acc.toNat &&& b.acc.toNat : Nat) : Int) }
    | _ => let w := betterElem cfg a b; { base with acc := w.acc, rank := w.rank }

/-- The exact value of a SUM or SCAN element, by cases 1 to 5 of R302. -/
def elemX (cfg : Word) (e : Elem) : XVal :=
  if e.nan || (e.pinf && e.ninf) then .nan
  else if e.pinf then .inf false
  else if e.ninf then .inf true
  else if e.acc = 0 then .zero (!e.anynz)
  else .fin (decide (e.acc < 0)) e.acc.natAbs (2 ^ accUnit (cIn cfg))

/-- An exact integer in an integer format: bits and RANGE (R302). -/
def roundInt (c : Nat) (x : Int) : Nat × Bool :=
  let lo : Int := match c with | 6 => 0 | 7 => -(2 ^ 31) | _ => -(2 ^ 63)
  let hi : Int := match c with | 6 => 2 ^ 32 - 1 | 7 => 2 ^ 31 - 1 | _ => 2 ^ 63 - 1
  let y := max lo (min hi x)
  ((BitVec.ofInt (fmtWidth c) y).toNat, decide (y ≠ x))

/-- A SUM or SCAN element rounded to OUTFMT (R302): bits and RANGE. -/
def roundElem (cfg : Word) (e : Elem) : Nat × Bool :=
  match ffmt (cOut cfg) with
  | none => roundInt (cOut cfg) e.acc
  | some f => roundX f (elemX cfg e)

/-- The result of an element that has not been finished (R302, R315, R316): bits and RANGE. -/
def elemResult (cfg : Word) (e : Elem) : Nat × Bool :=
  let v := match ffmt (cIn cfg) with
    | some f => if e.nan then f.nan else e.acc.toNat
    | none => e.acc.toNat
  match cOp cfg with
  | 2 => (v, false)
  | 3 => (v, false)
  | 4 => (v * 2 ^ 32 + e.rank.toNat, false)
  | 5 => (v * 2 ^ 32 + e.rank.toNat, false)
  | 6 => (v, false)
  | 7 => (v, false)
  | _ => roundElem cfg e

/-- What the first stage takes (R320): the exact value, or the special value that R302 gives; E4M3 has no infinity. -/
def chainStart (f : FFmt) (x : XVal) : XVal :=
  match f.inf, x with
  | none, .inf _ => .nan
  | _, x => x

/-- The finish chain on an element (R319 to R321): bits and RANGE. -/
def finishElem (cfg k op : Word) (e : Elem) : Nat × Bool :=
  let out := cOut cfg
  match ffmt out with
  | none => elemResult cfg e
  | some f =>
    match cFin cfg with
    | 0 :: _ => roundElem cfg e
    | cs => chainX f out (decodeX out (op.toNat % 2 ^ f.width)) (decodeX out (k.toNat % 2 ^ f.width)) (cPart cfg) cs
        (chainStart f (elemX cfg e)) (0, false)

/-! ## Packing (R309, R310, R311, R323) -/

/-- How many elements of a width one flit holds (R310). -/
def perFlit (w : Nat) : Nat := 256 / w

/-- Elements packed from bit 0 upward. -/
def packElems (w : Nat) (xs : List Nat) : BitVec 256 :=
  BitVec.ofNat 256 (xs.foldr (fun x n => n * 2 ^ w + x % 2 ^ w) 0)

/-- Element `i` of packed data. -/
def unpackElem (w : Nat) (d : BitVec 256) (i : Nat) : Nat := d.toNat / 2 ^ (i * w) % 2 ^ w

/-- The residue of a number (R323, R388). -/
def residue (x : Nat) : BitVec 16 := BitVec.ofNat 16 (x % 65535)

/-- The ACC field of a partial (R311). -/
def accField (cfg : Word) (e : Elem) : BitVec 320 :=
  match cOp cfg with
  | 1 => BitVec.ofInt 320 e.acc
  | 6 => BitVec.ofInt 320 e.acc
  | 7 => BitVec.ofInt 320 e.acc
  | _ => BitVec.ofNat 320 (e.rank.toNat * 2 ^ 64 + e.acc.toNat)

/-- The element that a received partial stands for (R311). -/
def partElem (cfg : Word) (m : PartlP) : Elem :=
  let sum := cOp cfg == 1
  let bits := cOp cfg == 6 || cOp cfg == 7
  { n := m.n.toNat
    acc := if sum then m.acc.toInt else if bits then ((m.acc.toNat % 2 ^ 32 : Nat) : Int) else ((m.acc.toNat % 2 ^ 64 : Nat) : Int)
    rank := if sum || bits then 0 else m.acc.extractLsb' 64 20
    nan := m.flags.getLsbD 4, pinf := m.flags.getLsbD 3, ninf := m.flags.getLsbD 2, anynz := m.flags.getLsbD 1 }

/-- The FLAGS field of a partial (R311), NAN in the first place. -/
def partFlags (e : Elem) (ovf : Bool) : BitVec 5 :=
  BitVec.ofBool e.nan ++ BitVec.ofBool e.pinf ++ BitVec.ofBool e.ninf ++ BitVec.ofBool e.anynz ++ BitVec.ofBool ovf

end Sys2Proof.Machine
end

