-- ==== Sys2Proof/Machine/Checks.lean ====
section
/-! DEFINITION. What a hub does when the check of a fold, a rounding or a finish stage disagrees (R389, R390). -/

namespace Sys2Proof.Machine

/-- The verdict on a fold and the unit charged (R390): 0 CHECKER, 1 LANE, 2 TWO_OF_THREE, 3 UNRESOLVED. -/
def foldVerdict (f : FoldFault) : Nat × Option (BitVec 16) :=
  if f.cIsA then (0, some f.checker)
  else if f.cIsChecker then (1, some f.lane)
  else if f.dIsA then (2, some f.c)
  else if f.dIsC then (2, some f.lane)
  else (3, none)

/-- VOTE_COUNT takes a verdict (R413). -/
def countVerdict (r : FltRegs) (v : Nat) : FltRegs :=
  match v with
  | 0 => { r with voteCountChecker := satInc r.voteCountChecker }
  | 1 => { r with voteCountLane := satInc r.voteCountLane }
  | 2 => { r with voteCountTwoOfThree := satInc r.voteCountTwoOfThree }
  | _ => { r with voteCountUnresolved := satInc r.voteCountUnresolved }

/-- EV_RESIDUE (R380). -/
def residueEv (s : State) (j : BitVec 12) (step : BitVec 64) (sub : BitVec 16) (sev : BitVec 2) (unit ctx elem : BitVec 16)
    (verdict : Nat) : State :=
  raise s .hub (jobEv s j 0x0010 sub sev 0xFFFFFFFF step [(16, unit.toNat), (16, ctx.toNat), (16, elem.toNat), (8, verdict)])

/-- An element has failed as UNRESOLVED (R390): counted, reported, and told to the lead, which poisons the step. -/
def unresolved (s : State) (j c : BitVec 12) (step : BitVec 64) (unit elem : BitVec 16) : State :=
  let s := modHub s fun h => { h with flt := countVerdict h.flt 3 }
  let s := setCause (residueEv s j step 1 2 unit (c.setWidth 16) elem 3) .hub .flt 2
  if s.isLead j then poison s j step 1 (c.setWidth 16)
  else
    let m : Msg := .stepPoison {
      job := j, epoch := (s.job j).regs.jobStatusEpoch, step := step.setWidth 24, target := c.setWidth 16 }
    if s.isHome j then sendTwin s j.toNat m else sendHub s j (s.job j).lead m

/-- A disagreement is resolved, and the unit at fault is charged; or its element is failed (R390). Under TWO_OF_THREE every lane
that disagreed with the value kept is charged: also the second lane of a hall hub's check. -/
def foldFault (j c : BitVec 12) (step : BitVec 64) (s : State) (f : FoldFault) : State :=
  match foldVerdict f with
  | (v, some u) =>
    let s := modHub s fun h => { h with flt := countVerdict h.flt v }
    let s := chargeUnit (residueEv s j step 0 1 u (c.setWidth 16) f.elem v) u (BitVec.ofNat 8 v)
    if v = 2 ∧ unitClass f.checker < 2 then chargeUnit s f.checker 2 else s
  | (_, none) => unresolved s j c step f.lane f.elem

/-- The disagreements of a word or flit, in order (R390). -/
def foldFaults (s : State) (j c : BitVec 12) (step : BitVec 64) (fs : List FoldFault) : State :=
  fs.foldl (foldFault j c step) s

/-- Whether an element has been failed (R390). -/
def anyFailed (fs : List FoldFault) : Bool := fs.any fun f => (foldVerdict f).1 == 3

end Sys2Proof.Machine
end

