-- ==== Sys2Proof/Machine/Reduce.lean ====
section
/-! DEFINITION. Reduction contexts on the hubs (R304 to R314, R322 to R328): partials on their way, the home's step buffers,
finishing, releasing and sending again. -/

namespace Sys2Proof.Machine

/-! ## Contexts and buffers -/

/-- A context of a job on the hub. -/
def State.ctx (s : State) (j c : BitVec 12) : HubCtx := tget {} (s.job j).ctxs c.toNat

/-- A context goes through a function. -/
def modCtx (s : State) (j c : BitVec 12) (f : HubCtx → HubCtx) : State :=
  modJob s j fun b => { b with ctxs := tmod {} b.ctxs c.toNat f }

/-- A context's registers go through a function. -/
def modCtxRegs (s : State) (j c : BitVec 12) (f : StockCtxRegs → StockCtxRegs) : State :=
  modCtx s j c fun x => { x with regs := f x.regs }

/-- Whether a buffer is in use for a step. -/
def StepBuf.isFor (b : StepBuf) (t : BitVec 64) : Bool := b.state != 0 && b.step == t

/-- The buffer of a step: A (false) or B (true). -/
def HubCtx.find (x : HubCtx) (t : BitVec 64) : Option Bool :=
  if x.a.isFor t then some false else if x.b.isFor t then some true else none

/-- A buffer by name. -/
def HubCtx.buf (x : HubCtx) (w : Bool) : StepBuf := if w then x.b else x.a

/-- A buffer takes a value. -/
def HubCtx.setBuf (x : HubCtx) (w : Bool) (b : StepBuf) : HubCtx := if w then { x with b := b } else { x with a := b }

/-- Slots reserved on the hub by the jobs whose home pair it belongs to (R327). -/
def State.reservedSlots (s : State) : Nat :=
  s.hub.jobs.foldl (fun n e => if s.isHome (BitVec.ofNat 12 e.1) then n + e.2.peakSlots.toNat else n) 0

/-- Slots of all open buffers in a place (R327): 1 unreserved, 2 spill area. -/
def State.slotsIn (s : State) (place : BitVec 2) : Nat :=
  s.hub.jobs.foldl (fun n e => e.2.ctxs.foldl (fun n c =>
    let one (b : StepBuf) : Nat := if b.state != 0 && b.place == place then cSlots c.2.regs.spCfg else 0
    n + one c.2.a + one c.2.b) n) 0

/-- Where a step buffer opens (R327): the reserved slots, unreserved on-die slots, or the spill area. -/
def State.placeFor (s : State) (x : HubCtx) : BitVec 2 :=
  let held (b : StepBuf) : Bool := b.state != 0 && b.place == 0
  if !held x.a && !held x.b then 0
  else if s.reservedSlots + s.slotsIn 1 + cSlots x.regs.spCfg ≤ 2097152 then 1
  else 2

/-- The buffer of a step, opened where there is none (R313, R327, R328). -/
def openBuf (s : State) (j c : BitVec 12) (t : BitVec 64) : Option Bool × State :=
  let x := s.ctx j c
  match x.find t with
  | some w => (some w, s)
  | none =>
    match (if x.a.state = 0 then some false else if x.b.state = 0 then some true else none) with
    | none => (none, s)
    | some w =>
      let place := s.placeFor x
      let s := modCtx s j c fun x => x.setBuf w { state := 1, place := place, step := t }
      if place = 2 then
        (some w, setCause (modHub s fun h => { h with stock := { h.stock with spSpillSpills := satInc h.stock.spSpillSpills } })
          .hub .stock 3)
      else (some w, s)

/-- Whether all of a buffer is complete (R308). -/
def bufComplete (cfg : Word) (b : StepBuf) : Bool :=
  if cOp cfg = 8 ∨ cOp cfg = 9 then b.staging.length == cPart cfg * cLen cfg
  else (List.range (cLen cfg)).all fun e => (tget {} b.elems e).n == cPart cfg

/-- How many elements of a buffer are complete (SP_STATE.DONE). -/
def bufDone (cfg : Word) (b : StepBuf) : Nat :=
  if cOp cfg = 8 ∨ cOp cfg = 9 then
    ((List.range (cLen cfg)).filter fun e => (b.staging.filter fun k => k.1 % 65536 == e).length == cPart cfg).length
  else (b.elems.filter fun e => e.2.n == cPart cfg).length

/-- A buffer after a fold: COMPLETE once every element is (R308). -/
def settle (cfg : Word) (b : StepBuf) : StepBuf := if b.state == 1 && bufComplete cfg b then { b with state := 2 } else b

/-! ## Contributions at the home (R312 to R314) -/

/-- The oldest step whose home pass has not ended, or the job's current step (R313). -/
def homeStep (b : HubJob) : BitVec 64 := if b.seq.running then b.seq.step else b.step

/-- A contribution refused beyond the reservation (R314): counted, reported once, and told to its contributor. Of the two
members, the one that received it from below reports and tells; the other counts its copy. -/
def refuseContrib (s : State) (j c : BitVec 12) (t : BitVec 64) (wire : BitVec 24) (rank : Option (BitVec 20))
    (copy : Bool) : State :=
  let again := (s.job j).refused.contains (c, t)
  let s := modCtxRegs s j c fun r => { r with spErrReservation := satInc r.spErrReservation }
  let s := setCause s .hub .stock 1
  let r32 : BitVec 32 := match rank with | some r => r.setWidth 32 | none => 0xFFFFFFFF
  let s := if again then s else modJob s j fun b => { b with refused := (c, t) :: b.refused }
  let s := if again || copy then s else raise s .hub (jobEv s j 0x0013 0 2 r32 t [(16, c.toNat)])
  match (if copy then none else rank) with
  | some r =>
    match s.rankEp j r with
    | some e => sendEp s j e (.refuse { job := j, epoch := (s.job j).regs.jobStatusEpoch, ctx := c, step := wire, rank := r })
    | none => s
  | none => s

/-- A contribution refused as EXCESS (R312). -/
def excess (s : State) (j c : BitVec 12) (w : Bool) : State :=
  setCause (modCtx s j c fun x => { x.setBuf w { x.buf w with excess := true } with
    regs := { x.regs with spErrExcess := satInc x.regs.spErrExcess } }) .hub .stock 0

/-- Whether an element and its index would stay within P and L. -/
def fits (cfg : Word) (b : StepBuf) (e : Nat × Elem) : Bool := decide ((tget {} b.elems e.1).n + e.2.n ≤ cPart cfg)

/-- Elements enter a step buffer, all or none (R301, R312); those that the context does not have are dropped, which counts as
EXCESS once for the flit (R17). -/
def foldElems (s : State) (j c : BitVec 12) (w : Bool) (all : List (Nat × Elem)) (ovf : Bool) : State :=
  let cfg := (s.ctx j c).regs.spCfg
  let es := all.filter fun e => decide (e.1 < cLen cfg)
  let s := if es.length = all.length then s else excess s j c w
  let x := s.ctx j c
  if es.all (fits cfg (x.buf w)) then
    modCtx s j c fun x =>
      let b := x.buf w
      x.setBuf w (settle cfg { b with
        ovf := b.ovf || ovf
        elems := es.foldl (fun t e => tmod {} t e.1 fun old => foldElem cfg old e.2) b.elems })
  else excess s j c w

/-- Staging entries of SCAN and ALLOT enter a step buffer (R307, R312); those that the context does not have are dropped, as
`foldElems` does. -/
def stageElems (s : State) (j c : BitVec 12) (w : Bool) (rank : BitVec 20) (all : List (Nat × Nat)) (ovf : Bool) : State :=
  let cfg := (s.ctx j c).regs.spCfg
  let es := all.filter fun e => decide (e.1 < cLen cfg)
  let s := if es.length = all.length then s else excess s j c w
  let x := s.ctx j c
  let key (e : Nat) : Nat := rank.toNat * 65536 + e
  if x.parts.contains rank && es.all (fun e => tget none (x.buf w).staging (key e.1) == none) then
    modCtx s j c fun x =>
      let b := x.buf w
      x.setBuf w (settle cfg { b with
        ovf := b.ovf || ovf
        staging := es.foldl (fun t e => tset none t (key e.1) (some (BitVec.ofNat 64 e.2))) b.staging })
  else excess s j c w

/-- The raw elements of a CONTRIB with their indices (R310). -/
def contribElems (cfg : Word) (m : ContribP) : List (Nat × Nat) :=
  if m.fonly then []
  else
    let w := fmtWidth (cIn cfg)
    (List.range (m.ne.toNat + 1)).map fun i => (m.elem.toNat + i, unpackElem w m.data i)

/-- Whether a step of a flit lies in the home's window (R313), with the step it names. -/
inductive InWindow where
  | far
  | stale
  | beyond (t : BitVec 64)
  | ok (t : BitVec 64)
  deriving DecidableEq, Repr

/-- The window test of R313. -/
def windowOf (b : HubJob) (wire : BitVec 24) : InWindow :=
  match extendStep wire b.step with
  | none => .far
  | some t =>
    let s0 := homeStep b
    if t.toNat < s0.toNat then .stale else if t.toNat < s0.toNat + 2 then .ok t else .beyond t

/-- A home member handles a contribution, partial or flag-only flit (R312 to R314). -/
def homeFold (s : State) (j c : BitVec 12) (wire : BitVec 24) (rank : Option (BitVec 20)) (copy : Bool)
    (act : State → Bool → State) : State :=
  match windowOf (s.job j) wire with
  | .far => countStepRefused s .hub wire (s.job j).step
  | .stale => modCtxRegs s j c fun r => { r with spErrStale := satInc r.spErrStale }
  | .beyond t => refuseContrib s j c t wire rank copy
  | .ok t =>
    if (s.ctx j c).regs.spCfg = 0 ∨ (s.job j).refused.contains (c, t) then refuseContrib s j c t wire rank copy
    else match openBuf s j c t with
      | (some w, s) => act s w
      | (none, s) => refuseContrib s j c t wire rank copy

/-- A CONTRIB at a home member. -/
def homeContrib (m : ContribP) (copy : Bool) (s : State) : State :=
  homeFold s m.job m.ctx m.step (some m.rank) copy fun s w =>
    let cfg := (s.ctx m.job m.ctx).regs.spCfg
    let es := contribElems cfg m
    if cOp cfg = 8 ∨ cOp cfg = 9 then stageElems s m.job m.ctx w m.rank es m.ovf
    else foldElems s m.job m.ctx w (es.map fun e => (e.1, elemOf cfg m.rank e.2)) m.ovf

/-- A PARTIAL at a home member. -/
def homePartial (m : PartlP) (copy : Bool) (s : State) : State :=
  homeFold s m.job m.ctx m.step none copy fun s w =>
    let cfg := (s.ctx m.job m.ctx).regs.spCfg
    foldElems s m.job m.ctx w [(m.elem.toNat, partElem cfg m)] (m.flags.getLsbD 0)

/-- A home member takes a contribution and copies one from below to the other member (R312). -/
def homeTake (l : LinkId) (m : Msg) (s : State) : State :=
  match m with
  | .contrib p =>
    let s := homeContrib p (s.isTwin l) s
    if s.isTwin l then s else sendTwin s p.job.toNat m
  | .partl p =>
    let s := homePartial p (s.isTwin l) s
    if s.isTwin l then s else sendTwin s p.job.toNat m
  | _ => s

/-! ## Below the home (R311) -/

/-- A queued PARTIAL for the same element takes another in (R311). -/
def partInto (cfg : Word) (m : PartlP) : Msg → Option Msg
  | .partl q =>
    if q.job = m.job ∧ q.epoch = m.epoch ∧ q.ctx = m.ctx ∧ q.step = m.step ∧ q.elem = m.elem then
      let e := foldElem cfg (partElem cfg q) (partElem cfg m)
      some (.partl { q with
        n := BitVec.ofNat 19 e.n, flags := partFlags e (q.flags.getLsbD 0 || m.flags.getLsbD 0), acc := accField cfg e })
    else none
  | _ => none

/-- A PARTIAL goes up, folded where one is queued. -/
def partUp (cfg : Word) (m : PartlP) (s : State) : State := foldOn s m.job (flowCtx m.ctx) (.partl m) (partInto cfg m)

/-- The PARTIALs of a CONTRIB's elements that the context has (R311). -/
def contribParts (cfg : Word) (m : ContribP) : List PartlP :=
  ((contribElems cfg m).filter fun e => decide (e.1 < cLen cfg)).map fun e =>
    let x := elemOf cfg m.rank e.2
    { job := m.job, epoch := m.epoch, ctx := m.ctx, step := m.step, elem := BitVec.ofNat 16 e.1, n := 1
      flags := partFlags x m.ovf, acc := accField cfg x }

/-- A CONTRIB on its way: folded at the home, forwarded unchanged where its context passes through, and otherwise turned
into PARTIALs (R311, R312). -/
def contribOn (l : LinkId) (m : ContribP) (s : State) : State :=
  if s.isHome m.job then homeTake l (.contrib m) s
  else
    let cfg := (s.ctx m.job m.ctx).regs.spCfg
    if cfg = 0 ∨ passThrough cfg ∨ m.fonly then passUp s m.job (flowCtx m.ctx) (.contrib m)
    else
      let ps := contribParts cfg m
      let s := if (contribElems cfg m).length ≠ ps.length then
          modCtxRegs s m.job m.ctx fun r => { r with spErrExcess := satInc r.spErrExcess }
        else s
      ps.foldl (fun s p => partUp cfg p s) s

/-- A contribution that is not of its job's current epoch is dropped as stale (R17, R313, R416). -/
def staleContrib (s : State) (j c : BitVec 12) : State :=
  dropOld s j .stock fun s => modCtxRegs s j c fun r => { r with spErrStale := satInc r.spErrStale }

/-- A CONTRIB at a hub: a leaf hub rejects one of a fenced die, refuses one whose rank lies at or above the membership, and keeps
which it has passed (R45, R407, R409). -/
def contribTake (l : LinkId) (m : ContribP) (s : State) : State :=
  match hubJobOk s m.job m.epoch .stock with
  | (false, s) => staleContrib s m.job m.ctx
  | (true, s) =>
    if s.tier == 0 && s.role l == 1 then
      let ep := s.epOf l
      if s.isFenced m.job ep then rejectFenced s m.job ep
      else atEdge s l m.job m.rank fun s =>
        let t := (extendStep m.step (s.job m.job).step).getD 0
        contribOn l m (modJob s m.job fun b => { b with
          passed := if b.passed.contains (m.rank, m.ctx, t) then b.passed else (m.rank, m.ctx, t) :: b.passed })
    else contribOn l m s

/-- A contribution or partial is folded with the checks of R389: a failed element never goes on (R390). -/
def checkedTake (j : BitVec 12) (epoch : Bool) (c : BitVec 12) (wire : BitVec 24) (faults : List FoldFault) (take : State → State)
    (s : State) : State :=
  if faults.isEmpty || !(hubJobOk s j epoch .stock).1 then take s
  else
    let s := foldFaults s j c ((extendStep wire (s.job j).step).getD 0) faults
    if anyFailed faults then s else take s

/-- CONTRIB_RECEIVE (R311, R389, R390). -/
def execContribReceive (l : LinkId) (sender : BitVec 32) (dsn : Option (BitVec 32)) (m : ContribP) (faults : List FoldFault)
    (s : State) : Host.Outcome State Fault Refusal :=
  .next (onUp s l sender dsn (.contrib m) (checkedTake m.job m.epoch m.ctx m.step faults (contribTake l m)))

/-- A PARTIAL at a hub. -/
def partTake (l : LinkId) (m : PartlP) (s : State) : State :=
  match hubJobOk s m.job m.epoch .stock with
  | (false, s) => staleContrib s m.job m.ctx
  | (true, s) =>
    if s.isHome m.job then homeTake l (.partl m) s else partUp (s.ctx m.job m.ctx).regs.spCfg m s

/-- PARTIAL_RECEIVE (R311, R389, R390). -/
def execPartialReceive (l : LinkId) (sender : BitVec 32) (dsn : Option (BitVec 32)) (m : PartlP) (faults : List FoldFault)
    (s : State) : Host.Outcome State Fault Refusal :=
  .next (onUp s l sender dsn (.partl m) (checkedTake m.job m.epoch m.ctx m.step faults (partTake l m)))

/-- HOME_CONTRIB_FOLD (R312, R389, R390): a CONTRIB or PARTIAL reaches a home member. -/
def execHomeContribFold (l : LinkId) (sender : BitVec 32) (dsn : Option (BitVec 32)) (m : Msg) (faults : List FoldFault)
    (s : State) : Host.Outcome State Fault Refusal :=
  .next (onUp s l sender dsn m fun s =>
    match m with
    | .contrib p => checkedTake p.job p.epoch p.ctx p.step faults (contribTake l p) s
    | .partl p => checkedTake p.job p.epoch p.ctx p.step faults (partTake l p) s
    | _ => s)

/-! ## Finishing and releasing (R317 to R322) -/

/-- The step buffer of a pass at the home. -/
def State.passBuf (s : State) (j c : BitVec 12) : Option (Bool × StepBuf) :=
  let x := s.ctx j c
  (x.find (s.job j).seq.step).map fun w => (w, x.buf w)

/-- FINISH on a context (R319 to R321): none when it is refused. -/
def finishCtx (s : State) (j c : BitVec 12) (op : Word) : Option State :=
  match s.passBuf j c with
  | some (w, b) =>
    let r := (s.ctx j c).regs
    if b.state ≠ 2 ∨ r.spCfg = 0 then none
    else
      let res := (List.range (cLen r.spCfg)).map fun e => finishElem r.spCfg r.spK op (tget {} b.elems e)
      let staged := cOp r.spCfg == 8 || cOp r.spCfg == 9
      let fin := if staged then [] else (res.zip (List.range res.length)).foldl (fun t e => tset 0 t e.2 (BitVec.ofNat 64 e.1.1)) []
      some (modCtx s j c fun x => x.setBuf w { b with
        state := 3, fin := fin, range := b.range || (!staged && res.any fun e => e.2) })
  | none => none

/-- The result elements of an ordinary context, with RANGE (R302, R321). -/
def plainResults (cfg : Word) (b : StepBuf) : List Nat × Bool :=
  if b.state = 3 then ((List.range (cLen cfg)).map fun e => (tget 0 b.fin e).toNat, b.range)
  else
    let r := (List.range (cLen cfg)).map fun e => elemResult cfg (tget {} b.elems e)
    (r.map fun e => e.1, r.any fun e => e.2)

/-- The slices of SCAN, by ascending rank (R317): ranks with their results, and RANGE. -/
def scanSlices (cfg : Word) (b : StepBuf) : List Nat → List Elem → List (Nat × List Nat) × Bool
  | [], _ => ([], false)
  | r :: rs, pre =>
    let out := pre.map fun e => if e.n = 0 then (0, false) else roundElem cfg e
    let next := (pre.zip (List.range pre.length)).map fun e =>
      foldElem cfg e.1 (elemOf cfg 0 ((tget none b.staging (r * 65536 + e.2)).getD 0).toNat)
    let (rest, rg) := scanSlices cfg b rs next
    ((r, out.map fun e => e.1) :: rest, rg || out.any fun e => e.2)

/-- The slices of ALLOT, by ascending rank (R318): ranks with their results, and the tokens dropped. -/
def allotSlices (cap : Nat) (b : StepBuf) : List Nat → List Nat → List (Nat × List Nat) × Nat
  | [], _ => ([], 0)
  | r :: rs, before =>
    let req := (List.range before.length).map fun e => ((tget none b.staging (r * 65536 + e)).getD 0).toNat
    let one := (before.zip req).map fun e =>
      let base := min cap e.1
      let granted := min e.2 (cap - base)
      (base * 2 ^ 32 + granted, e.2 - granted)
    let (rest, d) := allotSlices cap b rs ((before.zip req).map fun e => e.1 + e.2)
    ((r, one.map fun e => e.1) :: rest, d + (one.map fun e => e.2).foldl (· + ·) 0)

/-- The FLAGS of a result (R303). -/
def resultFlags (b : StepBuf) (es : List Elem) (range : Bool) : BitVec 6 :=
  BitVec.ofNat 6 ((es.any fun e => e.nan).toNat + 2 * (es.any fun e => e.pinf).toNat + 4 * (es.any fun e => e.ninf).toNat +
    8 * range.toNat + 16 * b.ovf.toNat + 32 * b.excess.toNat)

/-- The result flits of a list of elements (R323). -/
def resultFlits (s : State) (j c : BitVec 12) (step : BitVec 64) (w : Nat) (flags : BitVec 6) (rank : BitVec 20) :
    Nat → Nat → List Nat → List ResultP
  | 0, _, _ => []
  | fuel + 1, first, xs =>
    match xs with
    | [] => []
    | _ =>
      let now := xs.take (perFlit w)
      let data := packElems w now
      { job := j, epoch := (s.job j).regs.jobStatusEpoch, ctx := c, step := step.setWidth 24, elem := BitVec.ofNat 16 first
        ne := BitVec.ofNat 5 (now.length - 1), flags := flags, rank := rank, rres := residue data.toNat, data := data } ::
        resultFlits s j c step w flags rank fuel (first + now.length) (xs.drop (perFlit w))

/-- Everything a context releases for a step: the flits, and the tokens dropped by ALLOT (R317, R318, R322). -/
def releaseFlits (s : State) (j c : BitVec 12) (b : StepBuf) : List ResultP × Nat :=
  let x := s.ctx j c
  let cfg := x.regs.spCfg
  let w := resWidth cfg
  let l := cLen cfg
  let ranks := sortNat (x.parts.map BitVec.toNat)
  let raw := b.staging.map fun e => elemOf cfg 0 (e.2.getD 0).toNat
  match cOp cfg with
  | 8 =>
    let (sl, rg) := scanSlices cfg b ranks (List.replicate l {})
    let fl := resultFlags b raw rg
    (sl.flatMap fun e => resultFlits s j c b.step w fl (BitVec.ofNat 20 e.1) l 0 e.2, 0)
  | 9 =>
    let (sl, d) := allotSlices (getF x.regs.spK 0 32 : BitVec 32).toNat b ranks (List.replicate l 0)
    (sl.flatMap fun e => resultFlits s j c b.step w (resultFlags b [] false) (BitVec.ofNat 20 e.1) l 0 e.2, d)
  | _ =>
    let (xs, rg) := plainResults cfg b
    let es := (List.range l).map fun e => tget {} b.elems e
    (resultFlits s j c b.step w (resultFlags b es rg) 0xFFFFF l 0 xs, 0)

/-- A released residue differs from that of the member's own result (R393): it raises EV_RESIDUE SUB 3 and tells the lead, which
poisons the step. -/
def rresDiffer (s : State) (j : BitVec 12) (t : BitVec 64) (m : ResultP) : State :=
  let s := raise s .hub (jobEv s j 0x0010 3 2 0xFFFFFFFF t [(16, 0xFFFF), (16, m.ctx.toNat), (16, m.elem.toNat), (8, 0xFF)])
  sendTwin s j.toNat (.stepPoison { job := m.job, epoch := m.epoch, step := m.step, target := m.ctx.setWidth 16 })

/-- Whether two result flits are the same part of the same result. -/
def sameFlit (a b : ResultP) : Bool := a.ctx == b.ctx && a.step == b.step && a.elem == b.elem && a.rank == b.rank

/-- The member that does not lead keeps its own released flit for the comparison with the lead's residue, or compares it at once
where that has come (R393). -/
def rresOwn (j : BitVec 12) (t : BitVec 64) (s : State) (m : ResultP) : State :=
  match (s.job j).rresIn.find? (sameFlit m) with
  | some x =>
    let s := modJob s j fun b => { b with rresIn := b.rresIn.erase x }
    if x.rres = m.rres then s else rresDiffer s j t m
  | none => modJob s j fun b => { b with rresDue := b.rresDue ++ [(t, m)] }

/-- HRELEASE on a context (R318, R322, R393): none when it is refused. Both members keep the result; the lead sends it. -/
def releaseCtx (s : State) (j c g : BitVec 12) : Option State :=
  match s.passBuf j c with
  | some (w, b) =>
    let cfg := (s.ctx j c).regs.spCfg
    if (b.state ≠ 2 ∧ b.state ≠ 3) ∨ cfg = 0 then none
    else
      let (flits, d) := releaseFlits s j c b
      let s := modCtx s j c fun x => { x.setBuf w { b with state := 4 } with
        regs := if cOp cfg = 9 then
            { x.regs with spAllotDropTotal := satAdd x.regs.spAllotDropTotal d, spAllotDropLast := satNat 32 d }
          else x.regs }
      let s := modJob s j fun q => { q with kept := q.kept ++ flits.map fun f => (b.step, f) }
      if s.isLead j then
        some (flits.foldl (fun s f =>
          let s := if f.rank = 0xFFFFF then ladle s j g (.result f)
            else match s.rankEp j f.rank with
              | some e => sendEp s j e (.result f)
              | none => s
          sendTwin s j.toNat (.result f)) s)
      else some (flits.foldl (rresOwn j b.step) s)
  | none => none

/-- END at the home frees every buffer of the pass's step, and counts those that were not released (R325). -/
def freeBufs (s : State) (j : BitVec 12) (t : BitVec 64) : State :=
  let left (b : StepBuf) : Bool := b.isFor t && b.state != 4
  let n := (s.job j).ctxs.any fun e => left e.2.a || left e.2.b
  let s := modJob s j fun q => { q with
    ctxs := tmap {} (fun _ x => { x with
      a := if x.a.isFor t then {} else x.a
      b := if x.b.isFor t then {} else x.b
      regs := if left x.a || left x.b then { x.regs with spErrUnreleased := satInc x.regs.spErrUnreleased } else x.regs }) q.ctxs }
  if n then setCause s .hub .stock 2 else s

/-! ## After the release (R322, R392, R393) -/

/-- REREQ reaches a hub (R322, R392): a home member sends the kept flit again to the die that asks, or counts the request. -/
def rereqTake (m : RereqP) (s : State) : State :=
  if s.isHome m.job then
    let b := s.job m.job
    let hit := b.kept.find? fun k =>
      k.2.ctx == m.ctx && k.2.step == m.step && (k.2.rank == 0xFFFFF || k.2.rank == m.rank) && k.2.epoch == m.epoch &&
        decide (k.2.elem.toNat ≤ m.elem.toNat) && decide (m.elem.toNat ≤ k.2.elem.toNat + k.2.ne.toNat)
    match hit, s.rankEp m.job m.rank with
    | some k, some e =>
      let s := modHub s fun h => { h with flt := { h.flt with dlvErrCopyRereq := satInc h.flt.dlvErrCopyRereq } }
      sendEp s m.job e (.result { k.2 with rank := m.rank })
    | _, _ => modCtxRegs s m.job m.ctx fun r => { r with spErrStale := satInc r.spErrStale }
  else sendUp s m.job (flowCtx m.ctx) (.rereq m)

/-- REREQ_RECEIVE (R322). -/
def execRereqReceive (l : LinkId) (m : RereqP) (s : State) : Host.Outcome State Fault Refusal :=
  .next (atEdge (taken s l (.rereq m)) l m.job m.rank fun s => nearStep s m.job m.step (rereqTake m))

/-- TWIN_RRES_COMPARE (R393): the other member compares a released residue with that of its own result, or keeps it until it has
released that itself. -/
def rresCompare (m : ResultP) (s : State) : State :=
  if s.isLead m.job then s
  else match (s.job m.job).rresDue.find? fun k => sameFlit m k.2 with
    | some k =>
      let s := modJob s m.job fun b => { b with rresDue := b.rresDue.erase k }
      if k.2.rres = m.rres then s else rresDiffer s m.job k.1 m
    | none => if s.isHome m.job then modJob s m.job fun b => { b with rresIn := b.rresIn ++ [m] } else s

/-- TWIN_RRES_COMPARE (R393). -/
def execTwinRresCompare (l : LinkId) (m : ResultP) (s : State) : Host.Outcome State Fault Refusal :=
  .next (rresCompare m (taken s l (.result m)))

end Sys2Proof.Machine
end

