-- ==== Sys2Proof/Machine/Digest.lean ====
section
/-! DEFINITION. Digests on the hubs (R337 to R348): folding DGP and VMAP, the CHECK values, the close of a step, cross-check
groups, provenance, and mismatches. -/

namespace Sys2Proof.Machine

/-! ## Folds -/

/-- The fold of a step goes through a function; a step not held yet starts empty. -/
def modFoldIn (t : BitVec 64) (f : StepFold → StepFold) : List StepFold → List StepFold
  | [] => [f { step := t }]
  | x :: xs => if x.step = t then f x :: xs else x :: modFoldIn t f xs

/-- The fold of a job's step goes through a function. -/
def modFold (s : State) (j : BitVec 12) (t : BitVec 64) (f : StepFold → StepFold) : State :=
  modJob s j fun b => { b with folds := modFoldIn t f b.folds }

/-- DG_ERR of a job. -/
def modDigh (s : State) (j : BitVec 12) (f : DighRegs → DighRegs) : State := modJob s j fun b => { b with digh := f b.digh }

/-- A digest flit is dropped as stale (R337, R340). -/
def digStale (s : State) (j : BitVec 12) : State := modDigh s j fun r => { r with dgErrStale := satInc r.dgErrStale }

/-- A digest flit at a home member: dropped as stale outside s to s + 1 (R337, R340). -/
def digWindow (s : State) (j : BitVec 12) (wire : BitVec 24) (act : State → BitVec 64 → State) : State :=
  match windowOf (s.job j) wire with
  | .ok t => act s t
  | .far => countStepRefused s .hub wire (s.job j).step
  | _ => digStale s j

/-- A DGP at a home member (R337). -/
def homeDgp (m : DgpP) (s : State) : State :=
  digWindow s m.job m.step fun s t => modFold s m.job t fun f => { f with
    members := f.members + m.members.toNat, n := f.n + m.n.toNat, nc := f.nc + m.nc.toNat
    d0 := dgAdd f.d0 m.d0.toNat, d1 := dgAdd f.d1 m.d1.toNat }

/-- A VMAP at a home member (R337). -/
def homeVmap (m : VmapP) (s : State) : State :=
  digWindow s m.job m.step fun s t => modFold s m.job t fun f => { f with
    vmembers := f.vmembers + m.members.toNat, vcount := f.vcount + m.vcount.toNat, map := f.map ||| m.map }

/-! ## Descriptors (R332) -/

/-- The descriptor of a DID on a hub. -/
def State.dgDesc (s : State) (j : BitVec 12) (did : Nat) : Word := tget 0 (s.job j).plan did

/-- EN, CHECK and KIND. -/
def dEn (d : Word) : Bool := getB d 63

def dCheck (d : Word) : Bool := getB d 62

def dKind (d : Word) : BitVec 2 := getF d 60 2

/-- G: the group size. -/
def dSize (d : Word) : Nat := (getF d 56 3 : BitVec 3).toNat + 1

/-- S: the group stride, which is also the number of groups (R333, R341). -/
def dStride (d : Word) : Nat := (getF d 32 18 : BitVec 18).toNat + 1

/-! ## Cross-check groups (R341, R342) -/

/-- The values that the members of a group have supplied in a step. -/
def groupVals (f : StepFold) (did : Nat) (d : Word) (g : Nat) : List (Option (BitVec 128)) :=
  (List.range (dSize d)).map fun i =>
    (f.checks.find? fun c => c.kind == 0 && c.did.toNat == did && c.rank.toNat == g + i * dStride d).map fun c => c.value

/-- The value that more than half of a list holds. -/
def majority (vs : List (Option (BitVec 128))) : Option (BitVec 128) :=
  (vs.filterMap id).find? fun v => decide (vs.length < 2 * (vs.filter fun w => w == some v).length)

/-- The verdict of a group and its suspects as a mask: 0 AGREE, 1 MINORITY, 2 NO_MAJORITY (R341). -/
def groupVerdict (vs : List (Option (BitVec 128))) : Nat × BitVec 8 :=
  match majority vs with
  | some v =>
    let m : BitVec 8 := (List.range vs.length).foldl (fun m i => setBit m i (vs.getD i none != some v)) 0
    (if m = 0 then 0 else 1, m)
  | none => (2, (List.range vs.length).foldl (fun m i => setBit m i true) 0)

/-- The MISMATCH record of a group (R353). -/
def groupRecord (s : State) (j : BitVec 12) (step : BitVec 64) (did : Nat) (g : Nat) (vs : List (Option (BitVec 128))) : State :=
  let (v, m) := groupVerdict vs
  if v = 0 ∨ !s.isLead j then s
  else
    let body := fieldBytes [(1, did), (1, vs.length), (1, m.toNat), (1, 0), (4, g)] ++ vs.flatMap fun x => bvBytes 16 (x.getD 0)
    audit s j { type := 2, flags := v, step := step, body := body }

/-- A CHECK flit that is dropped is counted among those received, and the step is flagged COUNT (R338, R342, R347). -/
def checkDropped (s : State) (j : BitVec 12) (t : BitVec 64) : State :=
  modFold s j t fun f => { f with dropped := f.dropped + 1, count := true }

/-- A CHECK value is held. -/
def checkHeld (s : State) (m : CheckP) (t : BitVec 64) : State := modFold s m.job t fun f => { f with checks := f.checks ++ [m] }

/-- A CHECK flit of KIND 0 at a home member (R341, R342): its group completes with the last member's value. -/
def homeCheckGroup (m : CheckP) (t : BitVec 64) (s : State) : State :=
  let d := s.dgDesc m.job m.did.toNat
  let f := foldOf (s.job m.job) t
  let twice := f.checks.any fun c => c.kind == 0 && c.did == m.did && c.rank == m.rank
  if !dEn d || !dCheck d || decide (dStride d * dSize d ≤ m.rank.toNat) || twice then
    checkDropped (modDigh s m.job fun r => { r with dgErrStray := satInc r.dgErrStray }) m.job t
  else
    let s := checkHeld s m t
    let g := m.rank.toNat % dStride d
    let vs := groupVals (foldOf (s.job m.job) t) m.did.toNat d g
    if vs.all Option.isSome then groupRecord s m.job t m.did.toNat g vs else s

/-- A CHECK flit of KIND 1 at a home member (R347). -/
def homeCheckProv (m : CheckP) (t : BitVec 64) (s : State) : State :=
  if (s.job m.job).digh.dgJobProvCount.toNat ≤ m.shard.toNat then
    checkDropped (modDigh s m.job fun r => { r with dgErrProvRange := satInc r.dgErrProvRange }) m.job t
  else checkHeld s m t

/-- A CHECK flit at a home member (R340, R342, R345, R347). -/
def homeCheck (m : CheckP) (s : State) : State :=
  let fenced := match s.rankEp m.job m.rank with | some e => s.isFenced m.job e | none => false
  if fenced then rejectFenced s m.job ((s.rankEp m.job m.rank).getD 0)
  else digWindow s m.job m.step fun s t => if m.kind = 1 then homeCheckProv m t s else homeCheckGroup m t s

/-! ## On the way (R337, R340) -/

/-- A queued DGP of the same step takes another in (R337). -/
def dgpInto (m : DgpP) : Msg → Option Msg
  | .dgp q =>
    if q.job = m.job ∧ q.epoch = m.epoch ∧ q.step = m.step then
      some (.dgp { q with
        members := q.members + m.members, n := q.n + m.n, nc := q.nc + m.nc
        d0 := dgAdd q.d0 m.d0.toNat, d1 := dgAdd q.d1 m.d1.toNat })
    else none
  | _ => none

/-- A queued VMAP of the same step takes another in (R337). -/
def vmapInto (m : VmapP) : Msg → Option Msg
  | .vmap q =>
    if q.job = m.job ∧ q.epoch = m.epoch ∧ q.step = m.step then
      some (.vmap { q with members := q.members + m.members, vcount := q.vcount + m.vcount, map := q.map ||| m.map })
    else none
  | _ => none

/-- A digest flit at a hub: rejected when its die is fenced; taken at the home and copied to the other member; folded or
passed on below it (R312, R337, R340, R345). -/
def digTake (l : LinkId) (j : BitVec 12) (epoch : Bool) (m : Msg) (home up : State → State) (s : State) : State :=
  match hubJobOk s j epoch .digh with
  | (false, s) => dropOld s j .digh fun s => digStale s j
  | (true, s) =>
    if s.tier == 0 && s.role l == 1 && s.isFenced j (s.epOf l) then rejectFenced s j (s.epOf l)
    else if s.isHome j then
      let s := home s
      if s.isTwin l then s else sendTwin s j.toNat m
    else up s

/-- DGP_RECEIVE (R337). -/
def execDgpReceive (l : LinkId) (sender : BitVec 32) (dsn : Option (BitVec 32)) (m : DgpP) (s : State) :
    Host.Outcome State Fault Refusal :=
  .next (onUp s l sender dsn (.dgp m)
    (digTake l m.job m.epoch (.dgp m) (homeDgp m) fun s => foldOn s m.job 0 (.dgp m) (dgpInto m)))

/-- VMAP_RECEIVE (R337). -/
def execVmapReceive (l : LinkId) (sender : BitVec 32) (dsn : Option (BitVec 32)) (m : VmapP) (s : State) :
    Host.Outcome State Fault Refusal :=
  .next (onUp s l sender dsn (.vmap m)
    (digTake l m.job m.epoch (.vmap m) (homeVmap m) fun s => foldOn s m.job 0 (.vmap m) (vmapInto m)))

/-- CHECK_RECEIVE (R340, R342, R347). -/
def execCheckReceive (l : LinkId) (sender : BitVec 32) (dsn : Option (BitVec 32)) (m : CheckP) (s : State) :
    Host.Outcome State Fault Refusal :=
  .next (onUp s l sender dsn (.check m)
    fun s => atEdge s l m.job m.rank
      (digTake l m.job m.epoch (.check m) (homeCheck m) fun s => passUp s m.job 0 (.check m)))

/-! ## Provenance (R347, R348) -/

/-- The KIND 1 values of a step for a shard: rank, DID and value. -/
def shardReports (f : StepFold) (shard : Nat) : List (BitVec 20 × BitVec 8 × BitVec 128) :=
  (f.checks.filter fun c => c.kind == 1 && c.shard.toNat == shard).map fun c => (c.rank, c.did, c.value)

/-- The shards that a step reports, in ascending order. -/
def shardsOf (f : StepFold) : List Nat := sortNat (dedup ((f.checks.filter fun c => c.kind == 1).map fun c => c.shard.toNat))

/-- The report of the lowest rank of a list, and of its lowest DID. -/
def lowestReport (rs : List (BitVec 20 × BitVec 8 × BitVec 128)) : BitVec 20 × BitVec 8 × BitVec 128 :=
  match rs with
  | [] => (0, 0, 0)
  | r :: rest => rest.foldl (fun a b =>
      if b.1.toNat < a.1.toNat ∨ (b.1 = a.1 ∧ b.2.1.toNat < a.2.1.toNat) then b else a) r

/-- A word of a provenance entry (R348). -/
def provWord (e : BitVec 512) (i : Nat) : Word := e.extractLsb' (64 * i) 64

/-- An entry from its words 0 to 5. -/
def provEntry (ws : List Word) : BitVec 512 := BitVec.ofNat 512 (ws.foldr (fun w n => n * 2 ^ 64 + w.toNat) 0)

/-- The reports of a shard change its entry (R348): with the mismatch, when they are not all equal. -/
def provUpdate (s : State) (j : BitVec 12) (t : BitVec 64) (rs : List (BitVec 20 × BitVec 8 × BitVec 128)) (shard : Nat) :
    State × Option Mismatch :=
  let at_ := (s.job j).digh.dgJobProvBase.toNat + shard
  let e := tget 0 s.hub.prov at_
  let tick := s.now .hub
  let upd : Word := (satInc (getF (provWord e 4) 0 32 : BitVec 32)).setWidth 64
  let low := lowestReport rs
  let put (ws : List Word) : State := modHub s fun h => { h with prov := tset 0 h.prov at_ (provEntry ws) }
  if rs.all fun r => r.2.2 == low.2.2 then
    (put [low.2.2.extractLsb' 64 64, low.2.2.extractLsb' 0 64, t, putB 63 true ||| putF 32 j ||| putF 0 low.1, upd, tick], none)
  else
    let maj := majority (rs.map fun r => some r.2.2)
    let sus := match maj with | some v => lowestReport (rs.filter fun r => r.2.2 != v) | none => low
    let w3 := (provWord e 3 &&& ~~~(putF 32 (0xFFF : BitVec 12))) ||| putF 32 j ||| putB 62 true
    let s := setCause (put [provWord e 0, provWord e 1, provWord e 2, w3, upd, tick]) .hub .digh 3
    let s := if s.isLead j then
        let (n, s) := s.fresh
        let gs := Config.provGroup n
        let vals := sortNat (dedup (rs.map fun r => r.2.2.toNat))
        let body := fieldBytes [(1, sus.2.1.toNat), (2, gs.toNat), (1, 0), (4, shard)] ++ (vals.take 8).flatMap (natToBytes 16)
        audit s j { type := 2, flags := 4 + (if maj.isSome then 1 else 2), step := t, body := body }
      else s
    (s, some { cause := 1, did := sus.2.1, suspect := sus.1 })

/-- Step 4 of R338: every shard's reports are applied; the first mismatch is kept. -/
def provApply (j : BitVec 12) (t : BitVec 64) (f : StepFold) : List Nat → State → State × Option Mismatch
  | [], s => (s, none)
  | k :: ks, s =>
    let (s, m) := provUpdate s j t (shardReports f k) k
    let (s, m') := provApply j t f ks s
    (s, m.or m')

/-! ## The close (R338, R339) -/

/-- The job's current membership: the ranks whose dies are not fenced (R338). -/
def State.membership (s : State) (j : BitVec 12) : Nat :=
  ((s.memberEps j).filter fun e => !(s.job j).fenced.contains e).length

/-- Whether every fold and CHECK flit of a step is held (R338, step 1). -/
def foldsHeld (s : State) (j : BitVec 12) (t : BitVec 64) : Bool :=
  let f := foldOf (s.job j) t
  f.members == s.membership j && f.vmembers == s.membership j && decide (f.nc ≤ f.checks.length + f.dropped)

/-- The groups of a DID at step 3 of R338: those that lack a value complete now; how many do not agree, and the first
suspect. -/
def closeGroups (j : BitVec 12) (t : BitVec 64) (f : StepFold) (did : Nat) (d : Word) : List Nat → State → State × Nat × Option (BitVec 20)
  | [], s => (s, 0, none)
  | g :: gs, s =>
    let vs := groupVals f did d g
    let s := if vs.all Option.isSome then s else groupRecord s j t did g vs
    let (v, m) := groupVerdict vs
    let first := ((List.range vs.length).find? fun i => m.getLsbD i).map fun i => BitVec.ofNat 20 (g + i * dStride d)
    let (s, n, r) := closeGroups j t f did d gs s
    if v = 0 then (s, n, r) else (s, n + 1, first)

/-- The groups of every DID (R338, step 3), with an event for each DID that disagrees (R339). -/
def closeDids (j : BitVec 12) (t : BitVec 64) (f : StepFold) : List Nat → State → State × Nat × List Mismatch
  | [], s => (s, 0, [])
  | did :: ds, s =>
    let d := s.dgDesc j did
    if dEn d && dCheck d then
      let (s, n, r) := closeGroups j t f did d (List.range (dStride d)) s
      let (s, n', es) := closeDids j t f ds s
      match r with
      | some r => (s, n + n', { cause := 0, did := BitVec.ofNat 8 did, suspect := r } :: es)
      | none => (s, n + n', es)
    else closeDids j t f ds s

/-- The member's close as the twin sends it (R338). -/
def closeFlits (s : State) (j : BitVec 12) (f : StepFold) : DgpP × VmapP :=
  let e := (s.job j).regs.jobStatusEpoch
  ({ job := j, epoch := e, step := f.step.setWidth 24, members := BitVec.ofNat 19 f.members, n := BitVec.ofNat 27 f.n
     nc := BitVec.ofNat 27 f.nc, d0 := f.d0, d1 := f.d1 },
   { job := j, epoch := e, step := f.step.setWidth 24, members := BitVec.ofNat 19 f.vmembers, vcount := BitVec.ofNat 27 f.vcount
     map := f.map })

/-- EV_DIGEST_MISMATCH (R339). -/
def mismatchEv (j : BitVec 12) (t : BitVec 64) (s : State) (m : Mismatch) : State :=
  raise s .hub (jobEv s j 0x0011 m.cause 1 (m.suspect.setWidth 32) t [(8, m.did.toNat)])

/-- SUSPECT of the STEP record (R352). -/
def suspectField (es : List Mismatch) : BitVec 32 :=
  match es.find? fun m => m.suspect != 0xFFFFF with
  | some m => BitVec.ofNat 32 (m.did.toNat * 2 ^ 24 + m.suspect.toNat)
  | none => 0xFFFFFFFF

/-- The home engine goes on after HDIGEST, and shows the step's digest (R338); the step has closed (R400). -/
def digestDone (s : State) (j : BitVec 12) (c : Closing) : State :=
  modJob (shadowStep s) j fun b => { shownEnv b c.fold.step with
    closing := none, twinClose := none, closed := true, dgD0 := c.fold.d0, dgD1 := c.fold.d1
    digh := { b.digh with dgLastStep := c.fold.step, dgLastN := BitVec.ofNat 27 c.fold.n, dgLastNE := BitVec.ofNat 27 c.expect }
    seq := { b.seq with wait := none, regs := { b.seq.regs with seqStatusState := 1 } } }

/-- Steps 5 to 7 of R338 at the lead: the events, the STEP record, and the poison that a mismatch calls for (R339, R394). A
dropped CHECK flit flags the step COUNT without an event of its own (R339, R342). -/
def finishClose (s : State) (j : BitVec 12) (c : Closing) (diverge missing : Bool) : State :=
  let t := c.fold.step
  let short := decide (c.fold.n ≠ c.expect)
  let count := c.fold.count || short
  let own := c.events ++ (if short then [{ cause := 2, did := 0xFF, suspect := 0xFFFFF }] else [])
  let es := own ++ (if diverge then [{ cause := 3, did := 0xFF, suspect := 0xFFFFF }] else [])
  let s := es.foldl (mismatchEv j t) s
  let s := if c.events.isEmpty then s else setCause s .hub .digh 0
  let s := if count then setCause s .hub .digh 1 else s
  let s := if diverge then setCause s .hub .digh 2 else s
  let s := if missing then modDigh s j fun r => { r with dgErrTwinMissing := satInc r.dgErrTwinMissing } else s
  let flags := 4 * (!c.events.isEmpty).toNat + 8 * count.toNat + 32 * diverge.toNat + 64 * missing.toNat
  let s := stepRecord s j { c with suspect := suspectField es } flags
  let s := digestDone s j c
  let s := match own.head? with
    | some m => if (s.job j).digh.dgJobOnMismatch then poison s j t 3 (0x0F00 + m.did.setWidth 16) else s
    | none => s
  if diverge then poison s j t 2 0x0FFF else s

/-- The lead compares the other member's close with its own (R338, step 5). -/
def compareClose (s : State) (j : BitVec 12) (c : Closing) (d : DgpP) (v : VmapP) : State :=
  let (d', v') := closeFlits s j c.fold
  finishClose s j c (decide (d ≠ d' ∨ v ≠ v')) false

/-- HDIGEST_FOLDS_COMPLETE (R338, R393): steps 2 to 4 at a home member whose HDIGEST holds every fold and CHECK flit; the lead then
waits for the other member's close, and the other member sends its own once it has compared every release of the step. -/
def foldsComplete (s : State) (j : BitVec 12) : State :=
  let b := s.job j
  let t := b.seq.step
  let compared := s.isLead j || b.rresDue.all fun k => k.1 != t
  if b.seq.wait = some .hdigest ∧ b.closing = none ∧ foldsHeld s j t ∧ compared then
    let f := foldOf b t
    let (s, n, es) := closeDids j t f (List.range 256) s
    let (s, p) := provApply j t f (shardsOf f) s
    let c : Closing := { fold := f, expect := digestExpect b.plan, groups := n, events := es ++ p.toList, suspect := 0xFFFFFFFF }
    if s.isLead j then
      match b.twinClose.filter fun q => q.1.step == (t.setWidth 24 : BitVec 24) with
      | some (d, v) => compareClose s j c d v
      | none => modJob s j fun b => { b with closing := some c }
    else
      let (d, v) := closeFlits s j f
      digestDone (sendTwin (sendTwin s j.toNat (.dgp d)) j.toNat (.vmap v)) j c
  else s

/-- HDIGEST_FOLDS_COMPLETE (R338). -/
def execHdigestFoldsComplete (job : BitVec 12) (s : State) : Host.Outcome State Fault Refusal := .next (foldsComplete s job)

/-- The other member's close reaches the lead (R338, step 5); one that comes before the lead's own steps 1 to 4 of its step is
held. -/
def twinCloseTake (d : DgpP) (v : VmapP) (s : State) : State :=
  match (s.job d.job).closing.filter fun c => (c.fold.step.setWidth 24 : BitVec 24) == d.step with
  | some c => if s.isLead d.job then compareClose s d.job c d v else s
  | none => if s.isLead d.job then modJob s d.job fun b => { b with twinClose := some (d, v) } else s

/-- TWIN_CLOSE_RECEIVE (R338). -/
def execTwinCloseReceive (l : LinkId) (d : DgpP) (v : VmapP) (s : State) : Host.Outcome State Fault Refusal :=
  .next (twinCloseTake d v (taken (taken s l (.dgp d)) l (.vmap v)))

/-- TWIN_CLOSE_TIMEOUT (R338): 20 µs without the other member's close. -/
def execTwinCloseTimeout (job : BitVec 12) (s : State) : Host.Outcome State Fault Refusal :=
  match (s.job job).closing with
  | some c => .next (if s.isLead job then finishClose s job c false true else s)
  | none => .next s

end Sys2Proof.Machine
end

