-- ==== Sys2Proof/Machine/SeqWords.lean ====
section
/-! DEFINITION. The words of the step program (R280 to R296): issuing, VARY with its record and replay (R283 to R285, R369,
R371), waits and their Egg timers (R292, R532), and each opcode. -/

namespace Sys2Proof.Machine

/-! ## Issuing (R281, R284, R289) -/

/-- The word at the engine's PC. -/
def Seq.word (q : Seq) : Word := q.at (q.regs.seqStatusPc.toNat + 4)

/-- The word issued last. -/
def Seq.curWord (q : Seq) : Word := q.at (q.cur.toNat + 4)

/-- X[n] (R281). -/
def Seq.x (q : Seq) (n : BitVec 4) : Word := if n = 0 then 0 else tget 0 q.xs n.toNat

/-- X[n] takes a value; writes to X0 are ignored (R281). -/
def Seq.setX (q : Seq) (n : BitVec 4) (v : Word) : Seq := if n = 0 then q else { q with xs := tset 0 q.xs n.toNat v }

/-- v of R281: X[B] + IMM[31:0]. -/
def Seq.v (q : Seq) (w : Word) : Word := q.x (iB w) + iImm32 w

/-- VIDX of the word at a section address (R283). -/
def Seq.vidx (q : Seq) (a : Nat) : Nat := ((q.section_ a).filter iVary).length

/-- The engine issues its word: PC moves on, and a VARY word sets its bit of the pass map (R284). -/
def Seq.advance (q : Seq) : Seq :=
  let pc := q.regs.seqStatusPc
  let q' := { q with regs := { q.regs with seqStatusPc := pc + 1 } }
  if iVary q.word then { q' with map := setBit q.map (q.vidx pc.toNat) true, vcount := q.vcount + 1 } else q'

/-- Whether the engine is running and its next word has an opcode. -/
def Seq.ready (q : Seq) (x : Site) (op : Nat) : Bool :=
  q.regs.seqStatusState == 1 && q.loaded && decide (q.regs.seqStatusPc.toNat < q.len x) && iOp q.word == op

/-- ISLAND_CYCLE of the TSU. -/
def isTsuCycle : Instr → Bool
  | .islandCycle .tsu => true
  | _ => false

/-- An access of a link partner to the TSU's registers. -/
def isLinkAccess : Instr → Bool
  | .regRdReceive l _ => l.part == .tsu
  | .regWrReceive l _ => l.part == .tsu
  | _ => false

/-- Whether a command of a kind still comes in the present island cycle of the TSU (R170, R288). -/
def State.comes (s : State) (p : Instr → Bool) : Bool := (s.pending.takeWhile fun i => !isTsuCycle i).any p

/-- Whether a sequencer word gives way (R288): a link access comes in the same island cycle, or a word before it gave way. -/
def State.wordWaits (s : State) : Bool := s.comes isLinkAccess || !s.tsu.lateWords.isEmpty

/-- A row of R282: when the site's engine comes to a word of the opcode, it issues it. On the TSU a word gives way to the link
accesses of its island cycle (R288): it is issued as the cycle ends. -/
def issue (op : Nat) (x : Site) (act : Word → State → State) (s : State) : Host.Outcome State Fault Refusal :=
  let q := s.seq x
  if x == .tsu && s.wordWaits then .next (modTsu s fun t => { t with lateWords := t.lateWords ++ [op] })
  else if q.ready x op then .next (act q.word (modSeq s x Seq.advance)) else .next s

/-- Whether a CONTRIB or DIGEST reads one of the XBUF words of a range in this cycle (R290). -/
def State.xbufRead (s : State) (at_ n : Nat) : Bool :=
  s.tsu.xhold.any fun h => decide (h.1 < at_ + n) && decide (at_ < h.1 + h.2)

/-- The XBUF words that a CONTRIB or DIGEST reads are held in its cycle (R290). -/
def holdXbuf (s : State) (at_ n : Nat) : State := modTsu s fun t => { t with xhold := (at_, n) :: t.xhold }

/-- The engine halts at the word it has issued (R293). -/
def haltHere (s : State) (x : Site) (cause : BitVec 3) : State := halt s x cause (s.seq x).cur

/-- REFUSED (R293). -/
def refusedHere (s : State) (x : Site) : State := haltHere s x 2

/-- BUF_RANGE (R293). -/
def rangeHere (s : State) (x : Site) : State := haltHere s x 3

/-- The engine jumps. -/
def jump (s : State) (x : Site) (t : BitVec 14) : State := modSeqRegs s x fun r => { r with seqStatusPc := t }

/-- The engine goes on after a wait. -/
def resume (s : State) (x : Site) : State :=
  modSeq s x fun q => { q with wait := none, regs := { q.regs with seqStatusState := 1 } }

/-! ## Values and VARY (R283 to R285, R369, R371, R372) -/

/-- A word of XBUF. -/
def State.xbufAt (s : State) (k : Nat) : Word := tget 0 s.tsu.xbuf k

/-- A word of XBUF takes a value. -/
def setXbuf (s : State) (k : Nat) (v : Word) : State := modTsu s fun t => { t with xbuf := tset 0 t.xbuf k v }

/-- The XBUF word that LDBUF and STBUF name. -/
def Seq.bufAddr (q : Seq) (w : Word) : Nat := (q.x (iB w)).toNat + iBuf w

/-- What a word writes goes to its place: XBUF for STBUF, and otherwise X[A]; LOOP then jumps while X[A] is not zero. -/
def putValue (s : State) (x : Site) (w v : Word) : State :=
  let q := s.seq x
  if iOp w = 0x1B then (if 8192 ≤ q.bufAddr w then rangeHere s x else setXbuf s (q.bufAddr w) v)
  else
    let s := modSeq s x fun q => q.setX (iA w) v
    if iOp w = 0x04 ∧ (s.seq x).x (iA w) ≠ 0 then jump s x (iTarget w) else s

/-- The replay mode of a site's job (R368). -/
def State.replayMode (s : State) (x : Site) : BitVec 2 :=
  match x with
  | .tsu => s.tsu.det.detMode
  | .home j => (s.job j).deth.dhJobMode

/-- RECORD mode keeps the value that the VARY word at the engine's place writes (R369, R370). -/
def recordVary (s : State) (x : Site) (v : Word) : State :=
  let q := s.seq x
  let i : BitVec 8 := BitVec.ofNat 8 (q.vidx q.cur.toNat)
  match x with
  | .tsu =>
    tsuSendUp s (.vrec {
      job := s.tsu.txnt.ttJob, epoch := s.tsu.txnt.ttJobEpoch, rank := s.tsu.rank, step := q.step.setWidth 24
      launch := q.launch.setWidth 32, vidx := i, value := v })
  | .home j =>
    if s.isLead j then rlAppend s (rlEntry q.step q.launch v (evJob j (s.job j).regs.jobStatusEpoch) i true 0xFFFFFFFF) else s

/-- The site's replay queue (R371, R372). -/
def State.replayQueue (s : State) (x : Site) : List RqEntry :=
  match x with
  | .tsu => s.tsu.rq
  | .home _ => s.hub.hq

/-- The head of the site's replay queue is taken. -/
def popReplay (s : State) (x : Site) : State :=
  match x with
  | .tsu => modTsu s fun t => { t with rq := t.rq.drop 1 }
  | .home _ => modHub s fun h => { h with hq := h.hq.drop 1 }

/-- RQ_WAIT or HQ_WAIT (R371, R378). -/
def replayCause (s : State) (x : Site) : State :=
  match x with
  | .tsu => setCause s .tsu .det 0
  | .home _ => setCause s .hub .deth 2

/-- A VARY word in REPLAY mode takes its value from the queue, halts on another entry, or waits (R371). -/
def replayWord (s : State) (x : Site) (w : Word) : State :=
  let q := s.seq x
  match s.replayQueue x with
  | e :: _ =>
    if e.step = q.step ∧ e.vidx.toNat = q.vidx q.cur.toNat then putValue (popReplay s x) x w e.value else refusedHere s x
  | [] =>
    replayCause (modSeq s x fun q => { q with wait := some .replay, regs := { q.regs with seqStatusState := 2 } }) x

/-- Whether a word takes its value from the replay queue. -/
def replays (s : State) (x : Site) (w : Word) : Bool := iVary w && s.replayMode x == 2

/-- The value of a word from its source goes to its place, and RECORD mode keeps that of a VARY word. -/
def sourced (s : State) (x : Site) (w v : Word) : State :=
  let s := if iVary w && s.replayMode x == 1 then recordVary s x v else s
  putValue s x w v

/-- A word that writes a value: from its source, or from the replay queue. -/
def writes (x : Site) (f : Seq → Word → State → Word) (w : Word) (s : State) : State :=
  if replays s x w then replayWord s x w else sourced s x w (f (s.seq x) w s)

/-! ## Control and registers (R282) -/

/-- NOP. -/
def execNop (site : Site) (s : State) : Host.Outcome State Fault Refusal := issue 0x00 site (fun _ s => s) s

/-- JMP. -/
def execJmp (site : Site) (s : State) : Host.Outcome State Fault Refusal :=
  issue 0x02 site (fun w s => jump s site (iTarget w)) s

/-- The condition of BR. -/
def brTaken (cond : Nat) (a b : Word) : Bool :=
  match cond with
  | 0 => a == b
  | 1 => a != b
  | 2 => a.slt b
  | 3 => !a.slt b
  | 4 => a.ult b
  | _ => !a.ult b

/-- BR. -/
def execBr (site : Site) (s : State) : Host.Outcome State Fault Refusal :=
  issue 0x03 site (fun w s =>
    let q := s.seq site
    if brTaken (iFn w) (q.x (iA w)) (q.x (iB w)) then jump s site (iTarget w) else s) s

/-- LOOP. -/
def execLoop (site : Site) (s : State) : Host.Outcome State Fault Refusal :=
  issue 0x04 site (writes site fun q w _ => q.x (iA w) - 1) s

/-- LDI. -/
def execLdi (site : Site) (s : State) : Host.Outcome State Fault Refusal :=
  issue 0x10 site (writes site fun _ w _ => (getF w 0 44 : BitVec 44).signExtend 64) s

/-- LDHI. -/
def execLdhi (site : Site) (s : State) : Host.Outcome State Fault Refusal :=
  issue 0x11 site (writes site fun q w _ => (getF w 0 20 : BitVec 20) ++ (q.x (iA w)).extractLsb' 0 44) s

/-- The functions of ALU. -/
def aluFn (fn : Nat) (a v : Word) : Word :=
  let k := (v.extractLsb' 0 6).toNat
  match fn with
  | 0 => a + v
  | 1 => a - v
  | 2 => a &&& v
  | 3 => a ||| v
  | 4 => a ^^^ v
  | 5 => a <<< k
  | 6 => a >>> k
  | 7 => if v.slt a then v else a
  | _ => if a.slt v then v else a

/-- ALU. -/
def execAlu (site : Site) (s : State) : Host.Outcome State Fault Refusal :=
  issue 0x12 site (writes site fun q w _ => aluFn (iFn w) (q.x (iA w)) (q.v w)) s

/-- LDSTEP. -/
def execLdstep (site : Site) (s : State) : Host.Outcome State Fault Refusal := issue 0x13 site (writes site fun q _ _ => q.step) s

/-- LDRANK. -/
def execLdrank (site : Site) (s : State) : Host.Outcome State Fault Refusal :=
  issue 0x14 site (writes site fun _ _ s => s.tsu.rank.setWidth 64) s

/-- The job seed at a site. -/
def State.seedOf (s : State) : Site → Word
  | .tsu => s.tsu.seed
  | .home j => (s.job j).deth.dhSeed

/-- WHISK (R365). -/
def execWhisk (site : Site) (s : State) : Host.Outcome State Fault Refusal :=
  issue 0x15 site (writes site fun q w s => whiskLow (s.seedOf site) q.step (getF w 0 16) (q.x (iB w))) s

/-- LDTIME. -/
def execLdtime (site : Site) (s : State) : Host.Outcome State Fault Refusal :=
  issue 0x16 site (writes site fun _ _ s => s.now (sitePart site)) s

/-- LDLAUNCH. -/
def execLdlaunch (site : Site) (s : State) : Host.Outcome State Fault Refusal :=
  issue 0x17 site (writes site fun q _ _ => q.launch) s

/-- IMM[3:0]: an event input. -/
def iEvt (w : Word) : BitVec 4 := getF w 0 4

/-- An event input. -/
def State.evtLine (s : State) (n : BitVec 4) : EvtLine := tget {} s.tsu.evts n.toNat

/-- LDEVT. -/
def execLdevt (site : Site) (s : State) : Host.Outcome State Fault Refusal :=
  issue 0x18 site (writes site fun _ w s => (s.evtLine (iEvt w)).regs.evtLast) s

/-- LDSO. -/
def execLdso (site : Site) (s : State) : Host.Outcome State Fault Refusal :=
  issue 0x19 site (writes site fun _ w s =>
    let r := (s.slot (iSlot w)).regs
    if r.soCfgType = tyBarrier then r.soGen else r.soValValue.setWidth 64) s

/-- LDBUF. -/
def execLdbuf (site : Site) (s : State) : Host.Outcome State Fault Refusal :=
  issue 0x1A site (fun w s =>
    if !replays s site w && decide (8192 ≤ (s.seq site).bufAddr w) then rangeHere s site
    else writes site (fun q w s => s.xbufAt (q.bufAddr w)) w s) s

/-- STBUF: it waits while its XBUF word is held (R290). -/
def execStbuf (site : Site) (s : State) : Host.Outcome State Fault Refusal :=
  if s.xbufRead ((s.seq site).bufAddr (s.seq site).word) 1 then .next s
  else issue 0x1B site (fun w s =>
    if decide (8192 ≤ (s.seq site).bufAddr w) then rangeHere s site else writes site (fun q w _ => q.x (iA w)) w s) s

/-! ## Sync words (R220, R230, R237) -/

/-- The slot of the job's STEP_OBJ. -/
def State.stepSlot (s : State) : Option (BitVec 12) := s.slotOf tyBarrier s.tsu.stepObj

/-- A sync word halts when its operation is refused (R293). -/
def syncWord (x : Site) (r : Bool × State) : State := if r.1 then refusedHere r.2 x else r.2

/-- ARRIVE. -/
def execArrive (site : Site) (s : State) : Host.Outcome State Fault Refusal :=
  issue 0x20 site (fun w s =>
    if s.stepSlot = some (iSlot w) then refusedHere s site else syncWord site (slotArrive s (iSlot w))) s

/-- An amount or value of a sync word, at most 2^48 − 1: VALUE saturates there (R245). -/
def amount48 (v : Word) : BitVec 48 := satNat 48 v.toNat

/-- SOADD. -/
def execSoadd (site : Site) (s : State) : Host.Outcome State Fault Refusal :=
  issue 0x21 site (fun w s => syncWord site (slotAdd s (iSlot w) (amount48 ((s.seq site).v w)))) s

/-- SOSET. -/
def execSoset (site : Site) (s : State) : Host.Outcome State Fault Refusal :=
  issue 0x22 site (fun w s => syncWord site (slotSet s (iSlot w) (amount48 ((s.seq site).v w)))) s

/-- SOCLR. -/
def execSoclr (site : Site) (s : State) : Host.Outcome State Fault Refusal :=
  issue 0x23 site (fun w s => syncWord site (slotClear s (iSlot w))) s

/-- OPENWIN. -/
def execOpenwin (site : Site) (s : State) : Host.Outcome State Fault Refusal :=
  issue 0x24 site (fun w s => syncWord site (slotOpenWindow s (getF w 6 2) (getF w 0 6))) s

/-- SEND (R232 to R234): the sequencer waits only for queue space. -/
def execSend (site : Site) (s : State) : Host.Outcome State Fault Refusal :=
  issue 0x26 site (fun w s =>
    let q := s.seq site
    let r := (({} : SyncRegs).write 0x070 (q.x (iA w))).write 0x078 (q.x (iB w))
    let e : SendE := {
      rank := r.sigDestRank, obj := r.sigDestObj, amount := r.sigDestAmount, fmask := r.sigDestFmask, chan := r.sigTokenChan
      window := r.sigTokenWindow, bytes := r.sigTokenBytes, cover := s.covers }
    if sendRefused s e then refusedHere (refuse s .tsu .sync) site
    else
      let held := decide (16 ≤ s.tsu.sends.length) || !s.tsu.heldSends.isEmpty
      let s := issueSend s none e
      if held then modSeq s site fun q => { q with wait := some .send, regs := { q.regs with seqStatusState := 2 } } else s) s

/-! ## Waits (R292, R532) -/

/-- The width of the result elements of a context on the TSU. -/
def State.ctxCfg (s : State) (c : BitVec 12) : Word := (tget {} s.tsu.ctxs c.toNat).cfg

/-- Whether a flit carries a result element. -/
def carries (h : HeldResult) (c : BitVec 12) (e : Nat) : Bool :=
  h.res.ctx == c && decide (h.res.elem.toNat ≤ e) && decide (e ≤ h.res.elem.toNat + h.res.ne.toNat)

/-- Whether a result element of a context is held, or is at or above L and reads as zero (R291, R324). -/
def State.elemHeld (s : State) (c : BitVec 12) (e : Nat) : Bool :=
  decide (cLen (s.ctxCfg c) ≤ e) || s.tsu.store.any fun h => carries h c e

/-- Whether elements are held. -/
def State.elemsHeld (s : State) (c : BitVec 12) (first : BitVec 64) (count : Nat) : Bool :=
  (List.range count).all fun i => s.elemHeld c (first.toNat + i)

/-- The value of a result element (R324). -/
def State.elemValue (s : State) (c : BitVec 12) (e : Nat) : Nat :=
  let cfg := s.ctxCfg c
  if cLen cfg ≤ e then 0
  else match s.tsu.store.find? fun h => carries h c e with
    | some h => unpackElem (resWidth cfg) h.res.data (e - h.res.elem.toNat)
    | none => 0

/-- SPT_ERR.CLAMPED counts the elements at or above L (R324). -/
def countClamped (s : State) (c : BitVec 12) (first : BitVec 64) (count : Nat) : State :=
  let n := ((List.range count).filter fun i => decide (cLen (s.ctxCfg c) ≤ first.toNat + i)).length
  modTsu s fun t => { t with spt := { t.spt with sptErrClamped := satAdd t.spt.sptErrClamped n } }

/-- The XBUF words that elements of a width take. -/
def wordsFor (w count : Nat) : Nat := (w * count + 63) / 64

/-- Elements packed into words from bit 0 upward (R309). -/
def packWords (w : Nat) (xs : List Nat) : List Word :=
  let n := xs.foldr (fun x n => n * 2 ^ w + x % 2 ^ w) 0
  (List.range (wordsFor w xs.length)).map fun i => BitVec.ofNat 64 (n / 2 ^ (64 * i))

/-- Words go to XBUF from a place on. -/
def putWords (s : State) (at_ : Nat) (ws : List Word) : State :=
  (ws.zip (List.range ws.length)).foldl (fun s e => setXbuf s (at_ + e.2) e.1) s

/-- A flit after elements have been copied from it (R291). -/
def markCopied (c : BitVec 12) (first count : Nat) (h : HeldResult) : HeldResult :=
  { h with copied := (List.range (h.res.ne.toNat + 1)).foldl (fun m i =>
      let e := h.res.elem.toNat + i
      if h.res.ctx == c && decide (first ≤ e) && decide (e < first + count) then setBit m i true else m) h.copied }

/-- Whether every element of a flit has been copied. -/
def allCopied (h : HeldResult) : Bool := (List.range (h.res.ne.toNat + 1)).all fun i => h.copied.getLsbD i

/-- Flits that have been copied whole are freed, with their credit (R291, R460). -/
def freeCopied (s : State) : State :=
  let gone := s.tsu.store.filter allCopied
  gone.foldl (fun s h => returnCredit s h.via .result 1) (modTsu s fun t => { t with store := t.store.filter fun h => !allCopied h })

/-- RESULT copies its elements (R291, R324). -/
def copyResult (s : State) (c : BitVec 12) (first : BitVec 64) (count buf : Nat) : State :=
  let xs := (List.range count).map fun i => s.elemValue c (first.toNat + i)
  let s := putWords (countClamped s c first count) buf (packWords (resWidth (s.ctxCfg c)) xs)
  freeCopied (modTsu s fun t => { t with store := t.store.map (markCopied c first.toNat count) })

/-- Whether what an engine waits for has come. -/
def waitMet (s : State) (x : Site) : SeqWait → Bool
  | .fence m c => s.uncovered m c == 0
  | .send => false
  | .slot k t => waitHolds (s.slot k).regs t
  | .evt n _ e => decide (e < (s.evtLine n).edges)
  | .tick t => s.acting .tsu && decide (t.toNat ≤ (s.now .tsu).toNat)
  | .result c f n _ => s.elemsHeld c f n
  | .resultx _ c e => s.elemHeld c e.toNat
  | .replay => !(s.replayQueue x).isEmpty
  | .hwait c => match x with
    | .home j => match s.passBuf j c with | some (_, b) => decide (2 ≤ b.state.toNat) | none => false
    | .tsu => false
  | .hdigest => false

/-- The engine goes on from a wait that is met (R240, R282). -/
def completeWait (s : State) (x : Site) (w : SeqWait) : State :=
  let word := (s.seq x).curWord
  let s := resume s x
  match w with
  | .slot k _ => waitDone s k
  | .result c f n b => copyResult s c f n b
  | .resultx _ c e => sourced (countClamped s c e 1) x word (BitVec.ofNat 64 (s.elemValue c e.toNat))
  | .replay => replayWord s x word
  | _ => s

/-- A waiting word is issued (R240, R292): it completes at once when its condition holds. -/
def armWait (s : State) (x : Site) (w : SeqWait) : State :=
  if waitMet s x w then completeWait s x w
  else modSeq s x fun q => { q with wait := some w, regs := { q.regs with seqStatusState := 2 } }

/-- FENCE (R282). -/
def execFence (site : Site) (s : State) : Host.Outcome State Fault Refusal :=
  issue 0x25 site (fun w s => armWait s site (.fence (getF w 0 4) s.covers)) s

/-- WAIT (R213, R240). -/
def execWait (site : Site) (s : State) : Host.Outcome State Fault Refusal :=
  issue 0x27 site (fun w s =>
    if (s.slot (iSlot w)).regs.soCfgType = 0 then refusedHere s site
    else armWait s site (.slot (iSlot w) ((s.seq site).v w))) s

/-- WAITEVT (R282, R293). -/
def execWaitevt (site : Site) (s : State) : Host.Outcome State Fault Refusal :=
  issue 0x28 site (fun w s =>
    let n := iEvt w
    if s.tsu.evt.evtCtrlEn.getLsbD n.toNat then armWait s site (.evt n (s.now .tsu) (s.evtLine n).edges)
    else refusedHere s site) s

/-- WAITTICK (R282). -/
def execWaittick (site : Site) (s : State) : Host.Outcome State Fault Refusal :=
  issue 0x29 site (fun w s =>
    let q := s.seq site
    armWait s site (.tick (q.launch + q.v w))) s

/-- TRIG (R265 to R267, R293). -/
def execTrig (site : Site) (s : State) : Host.Outcome State Fault Refusal :=
  issue 0x2A site (fun w s =>
    let q := s.seq site
    let n : BitVec 4 := getF w 32 4
    if (s.trig n).regs.trigMode ≠ 4 then refusedHere s site
    else match schedTest s .tsu (q.launch + q.v w) with
      | (true, s) => addPulse s n .program (q.launch + q.v w)
      | (false, s) => refusedHere s site) s

/-! ## The end of a pass (R284, R325, R337) -/

/-- The maps of a pass that ends (R284). -/
def endMaps (s : State) (x : Site) : State :=
  let q := s.seq x
  let s := modSeq s x fun q => { q with
    mapStep := q.map, mapRun := q.mapRun ||| q.map, wait := none, regs := { q.regs with seqStatusState := 0 } }
  if q.map &&& ~~~q.mapRun ≠ 0 then seqCause s x 4 else s

/-- The TSU's digest flits of a pass (R284, R337). -/
def digestFlits (s : State) : Msg × Msg :=
  let q := s.tsu.seq
  let j := s.tsu.txnt.ttJob
  let e := s.tsu.txnt.ttJobEpoch
  (.dgp { job := j, epoch := e, step := q.step.setWidth 24, members := 1, n := s.tsu.digt.dgtPassN.setWidth 27
          nc := s.tsu.digt.dgtPassNc.setWidth 27, d0 := s.tsu.acc0, d1 := s.tsu.acc1 },
   .vmap { job := j, epoch := e, step := q.step.setWidth 24, members := 1, vcount := BitVec.ofNat 27 q.vcount, map := q.map })

/-- STEPEND (R282, R293, R337): DGP, VMAP and then ARRIVE leave, and the pass ends. -/
def execStepend (site : Site) (s : State) : Host.Outcome State Fault Refusal :=
  issue 0x2B site (fun w s =>
    let k := iSlot w
    if s.stepSlot ≠ some k then refusedHere s site
    else if (slotArrive s k).1 then refusedHere (slotArrive s k).2 site
    else
      let (d, v) := digestFlits s
      endMaps (slotArrive (tsuSendUp (tsuSendUp s d) v) k).2 site) s

/-- The lead sets PAUSED on every part once all members have replied and the home pass has ended (R437). -/
def pauseCheck (s : State) (j : BitVec 12) : State :=
  let b := s.job j
  let all := (s.memberEps j).all fun e => b.fenced.contains e || b.replied.any fun r => s.rankEp j r == some e
  if b.regs.jobStatusState = 3 ∧ b.marked ∧ b.seq.regs.seqStatusState = 0 ∧ s.isLead j ∧ all then
    let s := mirrorCadence (modJob s j fun b => { b with
      marked := false, replied := [], regs := { b.regs with jobStatusState := 4 } }) j
    if s.tsu.txnt.ttJob = j ∧ s.tsu.txnt.ttJobState = 3 then
      setCause (modTsu s fun t => { t with txnt := { t.txnt with ttJobState := 4 } }) .tsu .txnt 0
    else s
  else pauseFollow s j

/-- END (R282, R284, R294, R325): the home pass ends, its buffers are freed, and a pass that waits starts. -/
def execEndPass (site : Site) (s : State) : Host.Outcome State Fault Refusal :=
  issue 0x01 site (fun _ s =>
    match site with
    | .tsu => s
    | .home j =>
      let t := (s.job j).seq.step
      let s := freeBufs (endMaps s site) j t
      let s := modJob s j fun b => { b with folds := b.folds.filter fun f => decide (t.toNat < f.step.toNat) }
      match (s.job j).seq.next with
      | some (st, la) => homePass (modJob s j fun b => { b with seq := { b.seq with next := none } }) j st la
      | none => pauseCheck s j) s

/-! ## Reductions (R309, R324) -/

/-- The elements of a CONTRIB word as they lie in XBUF (R309). -/
def State.bufElems (s : State) (w buf count : Nat) : List Nat :=
  let n := (List.range (wordsFor w count)).foldr (fun i n => n * 2 ^ 64 + (s.xbufAt (buf + i)).toNat) 0
  (List.range count).map fun i => n / 2 ^ (i * w) % 2 ^ w

/-- The CONTRIB flits of elements (R310). -/
def contribFlits (s : State) (c : BitVec 12) (w : Nat) (ovf : Bool) : Nat → Nat → List Nat → List ContribP
  | 0, _, _ => []
  | fuel + 1, first, xs =>
    match xs with
    | [] => []
    | _ =>
      let now := xs.take (perFlit w)
      { job := s.tsu.txnt.ttJob, epoch := s.tsu.txnt.ttJobEpoch, rank := s.tsu.rank, ctx := c
        step := s.tsu.seq.step.setWidth 24, elem := BitVec.ofNat 16 first, ne := BitVec.ofNat 5 (now.length - 1), ovf := ovf
        fonly := false, data := packElems w now } :: contribFlits s c w ovf fuel (first + now.length) (xs.drop (perFlit w))

/-- Elements at or above L are dropped, counted, and reported once for the context and step (R309). -/
def dropBeyond (s : State) (c : BitVec 12) (n : Nat) : State :=
  if n = 0 then s
  else
    let s := modTsu s fun t => { t with spt := { t.spt with sptErrOvfElems := satAdd t.spt.sptErrOvfElems n } }
    if s.tsu.ovf.contains c then s
    else
      let s := setCause (modTsu s fun t => { t with ovf := c :: t.ovf }) .tsu .spt 0
      raise s .tsu (tsuEv s 0x0014 0 0 [(16, c.toNat)])

/-- CONTRIB (R309, R310). -/
def execContrib (site : Site) (s : State) : Host.Outcome State Fault Refusal :=
  issue 0x30 site (fun w s =>
    let c := iSlot w
    let cfg := s.ctxCfg c
    let width := fmtWidth (cIn cfg)
    let count := iCount w
    let first := ((s.seq site).x (iA w)).toNat
    if cfg = 0 then refusedHere s site
    else if 8192 < iBuf w + wordsFor width count then rangeHere s site
    else
      let n := min count (cLen cfg - first)
      let xs := (s.bufElems width (iBuf w) count).take n
      let s := dropBeyond (holdXbuf s (iBuf w) (wordsFor width count)) c (count - n)
      let ovf := s.tsu.ovf.contains c
      let flits := if n = 0 then
          [{ job := s.tsu.txnt.ttJob, epoch := s.tsu.txnt.ttJobEpoch, rank := s.tsu.rank, ctx := c
             step := s.tsu.seq.step.setWidth 24, elem := 0, ne := 0, ovf := ovf, fonly := true, data := 0 }]
        else contribFlits s c width ovf n first xs
      flits.foldl (fun s m => tsuSendUp s (.contrib m)) s) s

/-- The link that the next re-request of a RESULT takes first: not the lead-plane link (R392). -/
def firstRereq (s : State) : State := modTsu s fun t => { t with rereqB := !t.sh.servo.regs.servoStatusLead }

/-- The XBUF words that a RESULT word writes: the first, and how many. -/
def resultWords (s : State) (w : Word) : Nat × Nat := (iBuf w, wordsFor (resWidth (s.ctxCfg (iSlot w))) (iCount w))

/-- RESULT (R290, R291, R324): it waits while one of its XBUF words is held. -/
def execResult (site : Site) (s : State) : Host.Outcome State Fault Refusal :=
  let b := resultWords s (s.seq site).word
  if s.xbufRead b.1 b.2 then .next s
  else issue 0x31 site (fun w s =>
    let c := iSlot w
    let cfg := s.ctxCfg c
    if cfg = 0 then refusedHere s site
    else if 8192 < iBuf w + wordsFor (resWidth cfg) (iCount w) then rangeHere s site
    else armWait (firstRereq s) site (.result c ((s.seq site).x (iA w)) (iCount w) (iBuf w))) s

/-- RESULTX (R282, R324). -/
def execResultx (site : Site) (s : State) : Host.Outcome State Fault Refusal :=
  issue 0x32 site (fun w s =>
    let c := iSlot w
    let q := s.seq site
    if s.ctxCfg c = 0 then refusedHere s site
    else if replays s site w then replayWord s site w
    else armWait (firstRereq s) site (.resultx (iA w) c (q.x (iB w) + (getF w 0 16 : BitVec 16).setWidth 64))) s

/-! ## Digests (R334 to R336, R340) -/

/-- A DIGEST folds its value into the lanes, and sends a CHECK flit where its DID calls for one (R336, R340). -/
def digestFold (s : State) (kind : BitVec 2) (did : BitVec 8) (buf : Nat) : State :=
  let q := s.tsu.seq
  let hi := s.xbufAt buf
  let lo := s.xbufAt (buf + 1)
  let term (lane : Nat) : Nat := dgTerm (dgKey s.tsu.seed q.step lane kind.toNat did.toNat s.tsu.rank.toNat) hi.toNat lo.toNat
  let check := dCheck (tget 0 s.tsu.plan did.toNat) || kind == 1
  let s := modTsu s fun t => { t with
    acc0 := dgAdd t.acc0 (term 0), acc1 := dgAdd t.acc1 (term 1), issued := setBit t.issued did.toNat true
    digt := { dgtPassN := t.digt.dgtPassN + 1, dgtPassNc := if check then t.digt.dgtPassNc + 1 else t.digt.dgtPassNc } }
  if check then
    tsuSendUp s (.check {
      job := s.tsu.txnt.ttJob, epoch := s.tsu.txnt.ttJobEpoch, step := q.step.setWidth 24, rank := s.tsu.rank, did := did
      kind := kind, shard := if kind = 1 then getF (s.xbufAt (buf + 2)) 0 23 else 0, value := hi ++ lo })
  else s

/-- DIGEST (R334). -/
def execDigest (site : Site) (s : State) : Host.Outcome State Fault Refusal :=
  issue 0x33 site (fun w s =>
    let kind : BitVec 2 := getF w 42 2
    let did : BitVec 8 := getF w 32 8
    let d := tget 0 s.tsu.plan did.toNat
    if !dEn d || dKind d != kind || s.tsu.issued.getLsbD did.toNat then refusedHere s site
    else
      let n := if kind = 1 then 3 else 2
      if 8192 < iBuf w + n then rangeHere s site else digestFold (holdXbuf s (iBuf w) n) kind did (iBuf w)) s

/-! ## Home words (R282, R319, R322, R338) -/

/-- The context descriptor on the home. -/
def State.homeCfg (s : State) (x : Site) (c : BitVec 12) : Word :=
  match x with
  | .home j => (s.ctx j c).regs.spCfg
  | .tsu => 0

/-- HWAIT. -/
def execHwait (site : Site) (s : State) : Host.Outcome State Fault Refusal :=
  issue 0x40 site (fun w s =>
    if s.homeCfg site (iSlot w) = 0 then refusedHere s site else armWait s site (.hwait (iSlot w))) s

/-- A home word acts with the checks of R389: a failed element ends it (R390). -/
def checkedWord (x : Site) (c : BitVec 12) (faults : List FoldFault) (act : BitVec 12 → State → Option State) (s : State) :
    State :=
  match x with
  | .tsu => s
  | .home j =>
    match act j s with
    | none => refusedHere s x
    | some s' =>
      let t := (s.job j).seq.step
      if anyFailed faults then foldFaults s j c t faults else foldFaults s' j c t faults

/-- FINISH (R319, R389, R390). -/
def execFinish (site : Site) (faults : List FoldFault) (s : State) : Host.Outcome State Fault Refusal :=
  issue 0x41 site (fun w s =>
    checkedWord site (iSlot w) faults (fun j s => finishCtx s j (iSlot w) ((s.seq site).x (iB w))) s) s

/-- HRELEASE (R322, R389, R390). -/
def execHrelease (site : Site) (faults : List FoldFault) (s : State) : Host.Outcome State Fault Refusal :=
  issue 0x42 site (fun w s => checkedWord site (iSlot w) faults (fun j s => releaseCtx s j (iSlot w) (getF w 0 12)) s) s

/-- HDIGEST (R338): the engine waits for the close of the step's digests. -/
def execHdigest (site : Site) (s : State) : Host.Outcome State Fault Refusal :=
  issue 0x43 site (fun _ s => armWait s site .hdigest) s

/-! ## Completions -/

/-- The engine's wait completes when a test picks it and its condition holds. -/
def completeIf (s : State) (x : Site) (p : SeqWait → Bool) : State :=
  match (s.seq x).wait with
  | some w => if p w && waitMet s x w then completeWait s x w else s
  | none => s

/-- FENCE_COMPLETE (R282). -/
def execFenceComplete (s : State) : Host.Outcome State Fault Refusal :=
  .next (completeIf s .tsu fun w => match w with | .fence _ _ => true | _ => false)

/-- WAITEVT_COMPLETE (R282). -/
def execWaitevtComplete (s : State) : Host.Outcome State Fault Refusal :=
  .next (completeIf s .tsu fun w => match w with | .evt _ _ _ => true | _ => false)

/-- WAITTICK_COMPLETE (R282, R528). -/
def execWaittickComplete (s : State) : Host.Outcome State Fault Refusal :=
  .next (completeIf s .tsu fun w => match w with | .tick _ => true | _ => false)

/-- RESULT_COMPLETE (R324). -/
def execResultComplete (s : State) : Host.Outcome State Fault Refusal :=
  .next (completeIf s .tsu fun w => match w with | .result _ _ _ _ => true | .resultx _ _ _ => true | _ => false)

/-- HWAIT_COMPLETE (R308). -/
def execHwaitComplete (job : BitVec 12) (s : State) : Host.Outcome State Fault Refusal :=
  .next (completeIf s (.home job) fun w => match w with | .hwait _ => true | _ => false)

/-- REPLAY_WAIT_SERVED (R371): the waiting word takes the pushed entry. -/
def execReplayWaitServed (site : Site) (s : State) : Host.Outcome State Fault Refusal :=
  .next (completeIf s site fun w => match w with | .replay => true | _ => false)

/-- WAIT_COMPLETE (R240): a host wait, or the step program's wait on a slot. -/
def execWaitComplete (w : Option (BitVec 4)) (s : State) : Host.Outcome State Fault Refusal :=
  match w with
  | some w => .next (hostWaitComplete s w)
  | none => .next (completeIf s .tsu fun w => match w with | .slot _ _ => true | _ => false)

/-- FLAG_AUTOCLR (R231): the flag clears in the cycle after a wait on it completed, and after every other wait on it whose
condition held in that cycle. -/
def execFlagAutoclr (slot : BitVec 12) (s : State) : Host.Outcome State Fault Refusal :=
  if (s.slot slot).clr then
    let s := (List.range 16).foldl (fun s w =>
      if (s.hostWait (BitVec.ofNat 4 w)).waitArmSlot == slot then hostWaitComplete s (BitVec.ofNat 4 w) else s) s
    let s := completeIf s .tsu fun w => match w with | .slot k _ => k == slot | _ => false
    .next (modSlot s slot fun x => { x with clr := false, regs := { x.regs with soValValue := 0 } })
  else .next s

/-! ## Egg timers (R292, R532) -/

/-- EV_WAIT_TIMEOUT of a home engine's wait (R292, R532). -/
def homeTimeoutEv (s : State) (j : BitVec 12) (sub : BitVec 16) (ctx : BitVec 16) (target value : BitVec 64) : State :=
  raise s .hub (jobEv s j 0x0001 sub 1 0xFFFFFFFF (s.job j).seq.step
    [(16, ctx.toNat), (16, 0xFFFF), (8, 0), (2, 3), (6, 0), (8, 0), (8, 0), (64, target.toNat), (64, value.toNat)])

/-- The lowest channel of a mask. -/
def lowestChan (m : BitVec 4) : Nat := ([0, 1, 2, 3].find? fun i => m.getLsbD i).getD 0

/-- The record of a VARY word that waited on an empty replay queue: its SUB and payload are free. -/
def replayTimeoutEv (s : State) (x : Site) : State :=
  let (n, s) := s.fresh
  let v := Config.replayTimeout n
  let sub := v.extractLsb' 192 16
  let e := match x with
    | .tsu => tsuEv s 0x0001 sub 1 []
    | .home j => jobEv s j 0x0001 sub 1 0xFFFFFFFF (s.job j).seq.step []
  raise s (sitePart x) { e with payload := v.extractLsb' 0 192 }

/-- The record of an expired wait (R532). -/
def seqTimeoutEv (s : State) (x : Site) (w : SeqWait) : State :=
  match w with
  | .fence m c =>
    let left := s.uncovered m c
    let i := lowestChan left
    waitTimeoutEv s 2 0xFFFF 0xFFFF 0 1 0 (left ++ (0 : BitVec 4)) (c.getD i 0) (s.wcDone i)
  | .send => s
  | .slot k t => slotTimeoutEv s k t 1 0
  | .evt n at_ _ => waitTimeoutEv s 3 0xFFFF 0xFFFF 0 1 0 (n.setWidth 8) at_ (s.evtLine n).regs.evtLast
  | .tick t => waitTimeoutEv s 4 0xFFFF 0xFFFF 0 1 0 0 t 0
  | .result c f n _ => waitTimeoutEv s 5 (c.setWidth 16) 0xFFFF 0 1 0 0
      (BitVec.ofNat 64 (((List.range n).find? fun i => !s.elemHeld c (f.toNat + i)).getD 0 + f.toNat))
      (BitVec.ofNat 64 (((List.range (cLen (s.ctxCfg c))).filter fun e => s.elemHeld c e).length))
  | .resultx _ c e => waitTimeoutEv s 5 (c.setWidth 16) 0xFFFF 0 1 0 0 e
      (BitVec.ofNat 64 (((List.range (cLen (s.ctxCfg c))).filter fun e => s.elemHeld c e).length))
  | .replay => replayTimeoutEv s x
  | .hwait c => match x with
    | .home j =>
      let cfg := (s.ctx j c).regs.spCfg
      let n := match s.passBuf j c with | some (_, b) => bufDone cfg b | none => 0
      homeTimeoutEv s j 6 (c.setWidth 16) (BitVec.ofNat 64 (cLen cfg)) (BitVec.ofNat 64 n)
    | .tsu => s
  | .hdigest => match x with
    | .home j =>
      let f := foldOf (s.job j) (s.job j).seq.step
      homeTimeoutEv s j 7 0xFFFF (BitVec.ofNat 64 (f.nc * 2 ^ 32 + s.membership j))
        (BitVec.ofNat 64 ((f.checks.length + f.dropped) * 2 ^ 32 + min f.members f.vmembers))
    | .tsu => s

/-- Whether an engine's acts reach beyond it: the TSU's always, a home engine's on the lead (R286). -/
def engineActs (s : State) (x : Site) : Bool :=
  match x with
  | .home j => s.isLead j
  | .tsu => true

/-- The Egg timer of an engine's wait expires (R242, R292): when the condition holds the wait completes, and otherwise the
engine raises the record, on the lead of a home pair (R286), and halts with TIMEOUT. A held SEND runs no timer of the word (R234), and HDIGEST's covers only step 1
of R338. -/
def seqTimeout (s : State) (x : Site) : State :=
  match (s.seq x).wait with
  | none => s
  | some .send => s
  | some w =>
    let closing := match x with | .home j => (s.job j).closing.isSome | .tsu => false
    if w == .hdigest && closing then s
    else if waitMet s x w then completeWait s x w
    else haltHere (if engineActs s x then seqTimeoutEv s x w else s) x 1

/-- WAIT_TIMEOUT (R241 to R243, R292): an Egg timer expires. -/
def execWaitTimeout (t : EggTimer) (s : State) : Host.Outcome State Fault Refusal :=
  match t with
  | .host w => .next (hostWaitTimeout s w)
  | .program => .next (seqTimeout s .tsu)
  | .home j => .next (seqTimeout s (.home j))

end Sys2Proof.Machine
end

