-- ==== Sys2Proof/Machine/Results.lean ====
section
/-! DEFINITION. Results at the TSU (R291, R322 to R324, R392), refusals (R314), poison (R394), the replay queues (R371, R372),
what the die declares (R361), and the exchange buffer (R290). -/

namespace Sys2Proof.Machine

/-! ## Results (R291, R323, R324, R392) -/

/-- The TSU asks for a result flit again on a link (R392). -/
def sendRereq (s : State) (l : LinkId) (c : BitVec 12) (step : BitVec 24) (elem : BitVec 16) : State :=
  let s := modTsu s fun t => { t with evqRegs := { t.evqRegs with resCheckRereq := satInc t.evqRegs.resCheckRereq } }
  sendLink s l none (.rereq {
    job := s.tsu.txnt.ttJob, epoch := s.tsu.txnt.ttJobEpoch, ctx := c, step := step, elem := elem, rank := s.tsu.rank })

/-- The TSU's other link. -/
def otherLink (l : LinkId) : LinkId := if l.port = 0 then linkB else linkA

/-- A copy that fails its residue check (R392): counted, reported, and asked for on the other link; after the fourth the
sequencer halts. -/
def badCopy (s : State) (l : LinkId) (m : ResultP) : State :=
  let s := modTsu s fun t => { t with
    evqRegs := { t.evqRegs with resCheckBadCopy := satInc t.evqRegs.resCheckBadCopy }
    badCopies := (m.ctx, m.elem) :: t.badCopies }
  let s := raise s .tsu (tsuEv s 0x0010 2 1 [(16, 0xFFFF), (16, m.ctx.toNat), (16, m.elem.toNat), (8, 0xFF)])
  if 4 ≤ (s.tsu.badCopies.filter fun k => k == (m.ctx, m.elem)).length then
    (if s.tsu.seq.running then refusedHere s .tsu else s)
  else sendRereq s (otherLink l) m.ctx m.step m.elem

/-- A result flit is dropped as stale (R291). -/
def staleResult (s : State) : State := modSeqRegs s .tsu fun r => { r with seqErrStaleResult := satInc r.seqErrStaleResult }

/-- A result flit reaches the TSU (R291, R324, R392); a kept flit's credit returns when its space frees. -/
def resultTake (l : LinkId) (m : ResultP) (s : State) : State :=
  if s.tsuDrains m.job then refuse (returnCredit s l .result 1) .tsu .seq
  else if residue m.data.toNat ≠ m.rres then badCopy (returnCredit s l .result 1) l m
  else match tsuJobOk s m.job m.epoch with
    | (false, s) => staleResult (returnCredit s l .result 1)
    | (true, s) =>
      if s.ctxCfg m.ctx = 0 then staleResult (returnCredit s l .result 1)
      else match extendStep m.step s.tsu.step.stepNow with
        | none => countStepRefused (returnCredit s l .result 1) .tsu m.step s.tsu.step.stepNow
        | some t =>
          if t ≠ s.tsu.step.stepNow then staleResult (returnCredit s l .result 1)
          else modTsu s fun h => { h with
            store := h.store ++ [{ via := l, res := m }], resFlags := tset 0 h.resFlags m.ctx.toNat m.flags }

/-- RESULT_FLIT_RECEIVE (R291): a flit beyond the credit of a full store is refused and counted. -/
def execResultFlitReceive (l : LinkId) (m : ResultP) (s : State) : Host.Outcome State Fault Refusal :=
  if 1024 ≤ s.tsu.store.length then .next (refuse s .tsu .spt) else .next (resultTake l m s)

/-- The first elements of the flits that a wait still lacks. -/
def missingFlits (s : State) (c : BitVec 12) (first count : Nat) : List Nat :=
  let k := perFlit (resWidth (s.ctxCfg c))
  dedup (((List.range count).filter fun i => !s.elemHeld c (first + i)).map fun i => (first + i) / k * k)

/-- The elements that a waiting RESULT lacks are asked for again, on alternating links (R392). -/
def rereqWaiting (s : State) (c : BitVec 12) (first count : Nat) : State :=
  let l := if s.tsu.rereqB then linkB else linkA
  let s := (missingFlits s c first count).foldl (fun s e => sendRereq s l c (s.tsu.seq.step.setWidth 24) (BitVec.ofNat 16 e)) s
  modTsu s fun t => { t with rereqB := !t.rereqB }

/-- RESULT_REREQUEST_TIMER (R392): 50 µs without the elements of a RESULT or RESULTX. -/
def execResultRerequestTimer (s : State) : Host.Outcome State Fault Refusal :=
  match s.tsu.seq.wait with
  | some (.result c f n _) => .next (rereqWaiting s c f.toNat n)
  | some (.resultx _ c e) => .next (rereqWaiting s c e.toNat 1)
  | _ => .next s

/-- REFUSE_RECEIVE (R314): the sequencer halts with RESERVATION. -/
def refuseTake (m : RefuseP) (s : State) : State :=
  if s.tsuDrains m.job then refuse s .tsu .spt
  else match tsuJobOk s m.job m.epoch with
  | (false, s) => refuse s .tsu .spt
  | (true, s) => tsuNearStep s m.step fun s =>
    let s := setCause (modTsu s fun t => { t with spt := { t.spt with sptErrRefused := satInc t.spt.sptErrRefused } }) .tsu .spt 1
    if s.tsu.seq.running then haltHere s .tsu 4 else s

/-- REFUSE_RECEIVE (R314). -/
def execRefuseReceive (l : LinkId) (m : RefuseP) (s : State) : Host.Outcome State Fault Refusal :=
  .next (refuseTake m (taken s l (.refuse m)))

/-- STEP_POISON reaches a member TSU (R394). It comes on both planes: the copy of a poison that the TSU shows already
raises no second record. -/
def poisonTake (m : StepPoisonP) (s : State) : State :=
  if s.tsuDrains m.job then refuse s .tsu .evq
  else match tsuJobOk s m.job m.epoch with
  | (false, s) => refuse s .tsu .evq
  | (true, s) =>
    match extendStep m.step s.tsu.step.stepNow with
    | none => countStepRefused s .tsu m.step s.tsu.step.stepNow
    | some t =>
      if s.tsu.evqRegs.eqPoisonTgtValid && s.tsu.evqRegs.eqPoison == t && s.tsu.evqRegs.eqPoisonTgtTarget == m.target then s
      else
      let (n, s) := s.fresh
      let s := raise s .tsu { tsuEv s 0x0012 (Config.poisonSub n) 2 [(16, m.target.toNat)] with step := t }
      setCause (modTsu s fun h => { h with evqRegs := { h.evqRegs with
        eqPoison := t, eqPoisonTgtValid := true, eqPoisonTgtTarget := m.target } }) .tsu .evq 2

/-- STEP_POISON_RECEIVE (R394). -/
def execStepPoisonReceive (l : LinkId) (m : StepPoisonP) (s : State) : Host.Outcome State Fault Refusal :=
  .next (poisonTake m (taken s l (.stepPoison m)))

/-! ## Replay queues (R371, R372, R377, R378) -/

/-- A write of RQ_PUSH (R371). -/
def rqPushWrite (i : Iface) (v : Word) (s : State) : Bool × State :=
  onPart .tsu i s fun s =>
    if 1024 ≤ s.tsu.rq.length then refused s .tsu .det
    else accept (modTsu s fun t => { t with
      rq := t.rq ++ [{ step := t.det.rqStep, vidx := getF v 0 8, value := t.det.rqValue }] })

/-- RQ_PUSH (R371). -/
def execRqPush (i : Iface) (data : Word) (s : State) : Host.Outcome State Fault Refusal := ackWrite i s (rqPushWrite i data s)

/-- A write of RQ_STATUS (R377). -/
def rqStatusWrite (i : Iface) (v : Word) (s : State) : Bool × State :=
  onPart .tsu i s fun s =>
    if !getB v 16 then accept s
    else if s.tsu.seq.running then refused s .tsu .det
    else accept (modTsu s fun t => { t with rq := [] })

/-- RQ_FLUSH (R377): a write of RQ_STATUS with FLUSH set. -/
def execRqFlush (i : Iface) (data : Word) (s : State) : Host.Outcome State Fault Refusal :=
  ackWrite i s (rqStatusWrite i (data ||| putB 16 true) s)

/-- A write of HQ_PUSH (R372). -/
def hqPushWrite (i : Iface) (v : Word) (s : State) : Bool × State :=
  onPart .hub i s fun s =>
    if 1024 ≤ s.hub.hq.length then refused s .hub .deth
    else accept (modHub s fun h => { h with
      hq := h.hq ++ [{ step := h.deth.hqStep, vidx := getF v 0 8, value := h.deth.hqValue }] })

/-- HQ_PUSH (R372). -/
def execHqPush (i : Iface) (data : Word) (s : State) : Host.Outcome State Fault Refusal := ackWrite i s (hqPushWrite i data s)

/-! ## What the die declares (R361) -/

/-- A write of DET_FW or DET_UNITMAP0 to DET_UNITMAP3 (R361): `k` 0 is DET_FW. -/
def detWrite (k : Nat) (i : Iface) (v : Word) (s : State) : Bool × State :=
  onPart .tsu i s fun s =>
    if s.tsuHasJob && !s.tsuPaused then refused s .tsu .det
    else accept (modTsu s fun t =>
      if k = 0 then { t with det := { t.det with detFw := v } }
      else
        let lo := 64 * (4 - k)
        { t with unitmap := (t.unitmap &&& ~~~((0xFFFFFFFFFFFFFFFF : BitVec 256) <<< lo)) ||| (v.setWidth 256 <<< lo) })

/-- DET_FW_WRITE (R361): `which` 0 is DET_FW, and 1 to 4 are DET_UNITMAP0 to DET_UNITMAP3. -/
def execDetFwWrite (i : Iface) (which : BitVec 3) (data : Word) (s : State) : Host.Outcome State Fault Refusal :=
  ackWrite i s (detWrite (min 4 which.toNat) i data s)

/-! ## The exchange buffer (R290) -/

/-- Whether a word of XBUF is held: a CONTRIB or DIGEST reads it in this cycle, or a waiting RESULT is to write it. -/
def State.xbufHeld (s : State) (k : Nat) : Bool :=
  s.xbufRead k 1 || (match s.tsu.seq.wait with
  | some (.result c _ n b) => decide (b ≤ k) && decide (k < b + wordsFor (resWidth (s.ctxCfg c)) n)
  | _ => false)

/-- A write of an XBUF word (R290). -/
def xbufWrite (k : BitVec 13) (i : Iface) (v : Word) (s : State) : Bool × State :=
  onPart .tsu i s fun s =>
    if s.xbufHeld k.toNat then
      (true, modSeqRegs s .tsu fun r => { r with seqErrHostHeld := satInc r.seqErrHostHeld })
    else accept (setXbuf s k.toNat v)

/-- XBUF_HOST_WRITE (R290). -/
def execXbufHostWrite (i : Iface) (word : BitVec 13) (data : Word) (s : State) : Host.Outcome State Fault Refusal :=
  ackWrite i s (xbufWrite word i data s)

end Sys2Proof.Machine
end

