-- ==== Sys2Proof/Machine/Irq.lean ====
section
/-! DEFINITION. The interrupt lines: tsu_irq (R173, R525) and the hub's MSI-X vectors (R526, R527). -/

namespace Sys2Proof.Machine

/-- Every page with a header, by part, in ordinal order (R513, R514). -/
def pagesOf : Part → List Page
  | .hub => [.hubid, .mod, .fw, .intc, .mgmt, .timebase, .vernier, .emu 0, .emu 1, .emu 2, .emu 3, .servo, .ref, .xlat,
      .ladle, .synch, .steph, .late, .progh, .stock, .digh, .audit, .deth, .evh, .flt, .txn] ++
      (List.range 64).map (fun i => .memc (BitVec.ofNat 6 i)) ++ (List.range 72).map (fun i => .link (BitVec.ofNat 7 i)) ++
      (List.range 72).map (fun i => .phy (BitVec.ofNat 7 i))
  | .tsu => [.root, .intc, .timebase, .vernier, .servo, .emu 0, .emu 1, .link 0, .link 1, .phy 0, .phy 1, .evtrig, .dfc, .tap,
      .sync, .step, .seq, .spt, .digt, .det, .evq, .txnt]

/-- The ordinals of the pending pages of a part (R506): a page without set causes is not listed in the header table. -/
def pendingOrdinals (s : State) (p : Part) : List Nat :=
  ((s.sh p).hdr.filter fun e => e.2.pageIntStatus &&& e.2.pageIntEnable != 0).map fun e => e.1

/-- The pending pages whose ordinals lie in the 64 from `base`, as bits (R525, R526). -/
def pendBits (s : State) (p : Part) (base : Nat) : Word :=
  (pendingOrdinals s p).foldl (fun w k => if base ≤ k ∧ k < base + 64 then setBit w (k - base) true else w) 0

/-- The level on tsu_irq (R164, R173, R525). -/
def tsuIrq (s : State) : Bool := !s.tsu.inReset && !(pendingOrdinals s .tsu).isEmpty

/-- INT_VEC (R526): bit v is 1 when a pending page has VECTOR v. -/
def intVec (s : State) : Word :=
  s.hub.sh.hdr.foldl (fun w e =>
    if e.2.pageIntStatus &&& e.2.pageIntEnable != 0 then setBit w e.2.pageCtrlVector.toNat true else w) 0

/-- One MSI-X message leaves and is counted (R527). -/
def msixSend (s : State) (v : Nat) : State :=
  emit (modHub s fun h => { h with intc := { h.intc with intSent := satInc h.intc.intSent } }) (.msix (BitVec.ofNat 6 v))

/-- One vector in one cycle (R527): an armed vector over a pending page disarms, and is sent or, when masked, marked in the
pending-bit array; a marked vector whose pages have gone clears its mark and re-arms. -/
def msixVector (vec : Word) (s : State) (v : Nat) : State :=
  let h := s.hub
  if h.intc.intArmed.getLsbD v && vec.getLsbD v then
    let s := modHub s fun h => { h with intc := { h.intc with intArmed := setBit h.intc.intArmed v false } }
    if !h.msixEnable then s
    else if h.msixMasked.getLsbD v then modHub s fun h => { h with msixPending := setBit h.msixPending v true }
    else msixSend s v
  else if h.msixPending.getLsbD v && !vec.getLsbD v then
    modHub s fun h => { h with
      msixPending := setBit h.msixPending v false
      intc := { h.intc with intArmed := setBit h.intc.intArmed v true } }
  else s

/-- Every vector in one cycle (R527). -/
def msixScan (s : State) : State := (List.range 64).foldl (msixVector (intVec s)) s

end Sys2Proof.Machine
end

