-- ==== Sys2Proof/Machine/Timebase.lean ====
section
/-! DEFINITION. The meanings of the time-base commands (R54 to R59, R71). -/

namespace Sys2Proof.Machine

/-- ISLAND_LOCK (R57): the synthesiser has locked. On the TSU the root then drives the strobe, and its taps begin to lock
(R186, R191). -/
def execIslandLock (p : Part) (s : State) : Host.Outcome State Fault Refusal :=
  let s := modTbRegs s p fun r => { r with statusIslandLock := true }
  .next (match p with
    | .hub => s
    | .tsu => tapStrobe s)

/-- Every measurement set in progress on a part fails because the island has lost lock (R90). -/
def failSets (s : State) (p : Part) : State :=
  [0, 1, 2, 3].foldl (fun s e =>
    if (s.emu p e).regs.emuStatusBusy then failSet s p e 1 true else s) s

/-- ISLAND_LOCK_LOSS (R58): VALID is cleared, EV_REF_LOSS is raised with SUB 4, sets in progress fail (R90), and the hall
tick holds no meaning until the part has locked again. -/
def execIslandLockLoss (p : Part) (s : State) : Host.Outcome State Fault Refusal :=
  let s := modTbRegs s p fun r => { r with statusIslandLock := false }
  let s := failSets (raisePlain (loseTime s p) p 0x0005 4 1 []) p
  let (n, s) := s.fresh
  .next (modTb s p fun t => { tbSet t (Config.lostTime n) with stepGen := t.stepGen + 1 })

/-- Whether no job is admitted on the hub, as far as the hub itself holds jobs (R55). -/
def noJobs (s : State) : Bool := s.hub.jobs.all fun e => e.2.regs.jobStatusState == 0

/-- The write of HALL_EPOCH (R55): only on the master, with no job admitted, and to no later than its present SEC. -/
def hallEpochWrite (i : Iface) (v : Word) (s : State) : Bool × State :=
  let p := i.part
  let e := getF v 0 48
  let t := (s.sh p).tb
  if p = .hub ∧ s.hub.ref.regs.masterStatusIsMaster ∧ noJobs s ∧ e.toNat ≤ (s.sec .hub).toNat then
    if e = t.regs.hallEpoch then accept s
    else
      let d : Int := (t.regs.hallEpoch.toNat : Int) - e.toNat
      let s := clearValid s .hub
      let s := modTb s .hub fun t => { t with
        tick := BitVec.ofInt 64 (t.tick.toNat + d * 1000000000), stepGen := t.stepGen + 1, revalid := true,
        regs := { t.regs with hallEpoch := e, statusEpochLearnt := true } }
      accept s
  else refused s p .timebase

/-- HALL_EPOCH_WRITE (R55). -/
def execHallEpochWrite (i : Iface) (data : Word) (s : State) : Host.Outcome State Fault Refusal :=
  ackWrite i s (hallEpochWrite i data s)

/-- EPOCH_REVALID (R55, R148): the master sets VALID again after an epoch change or a step back, unless its servo has left the
states in which VALID is 1 (R126). -/
def execEpochRevalid (s : State) : Host.Outcome State Fault Refusal :=
  if s.hub.sh.tb.revalid then
    let s := modTb s .hub fun t => { t with revalid := false }
    .next (if s.servoState .hub == 2 || s.servoState .hub == 3 then becomeValid s .hub (s.servoState .hub == 3) else s)
  else .next s

/-- NOW_LO as it reads in this cycle (R72). -/
def nowLo (s : State) (p : Part) : Word :=
  let t := (s.sh p).tb
  putF 48 ((s.sec p).extractLsb' 0 16) ||| putF 18 (BitVec.ofNat 30 (s.ns p)) ||| putF 2 (t.frac.extractLsb' 32 16) |||
    putB 1 t.regs.statusHoldover ||| putB 0 t.regs.statusValid

/-- A read of NOW_LO latches NOW_HI, NOW_TICK and NOW_FRAC of the same cycle for the interface (R71). -/
def nowLoRead (i : Iface) (s : State) : Word × State :=
  let p := i.part
  let t := (s.sh p).tb
  (nowLo s p, modIfaceRegs s i fun r => { r with
    nowHi := (s.sec p).extractLsb' 16 32, nowTick := t.tick, nowFrac := t.frac })

/-- NOW_LO_READ (R71). -/
def execNowLoRead (i : Iface) (s : State) : Host.Outcome State Fault Refusal := ackRead i s (nowLoRead i s)

end Sys2Proof.Machine
end

