-- ==== Sys2Proof/Machine/Faults.lean ====
section
/-! DEFINITION. Reporting (R383 to R387), the units' history, tests, rotation and shadow (R396 to R400), the sender's side of
delivery (R401, R402), heartbeats and the failure detector (R403, R405 to R407). -/

namespace Sys2Proof.Machine

/-! ## Reporting (R383 to R387) -/

/-- COALESCE_WINDOW_END (R383): the oldest window of a part ends; events counted in it form one record, which opens a new
window. -/
def execCoalesceWindowEnd (p : Part) (s : State) : Host.Outcome State Fault Refusal :=
  match (s.sh p).windows with
  | [] => .next s
  | w :: rest =>
    if w.count = 0 then .next (modSh s p fun h => { h with windows := rest })
    else
      let s := modSh s p fun h => { h with windows := rest ++ [{ ev := w.ev, count := 0 }] }
      .next (formRecord s p w.ev (satNat 32 w.count))

/-- A record that a leaf hub's declaration sends to its job's home pair passes on through a hub of the span that is no home member;
any other record goes into the ring of the hub it reaches (R384, R385, R407). -/
def evrecTake (m : EvrecP) (s : State) : State :=
  let j : BitVec 12 := m.record.extractLsb' 432 12
  let declared := m.record.extractLsb' 496 16 == 0x0020#16 && m.record.extractLsb' 416 16 == 0#16 &&
    m.record.getLsbD 479 == false
  if declared && s.holds j && !s.isHome j then passUp s j 0 (.evrec m) else ringWrite s m.record

/-- EVREC_RECEIVE (R384, R385): the leaf hub writes the record to its own event ring. -/
def execEvrecReceive (l : LinkId) (sender : BitVec 32) (dsn : Option (BitVec 32)) (m : EvrecP) (s : State) :
    Host.Outcome State Fault Refusal :=
  .next (onUp s l sender dsn (.evrec m) (evrecTake m))

/-- The oldest index that the event ring still holds (R385). -/
def ringOldest (r : EvhRegs) : Nat := r.evHead.toNat - ringSize

/-- How many of `n` records from an index on the ring holds: a record lost to an uncorrectable read has become zero (R524). -/
def ringRun (s : State) : Nat → Nat → Nat
  | 0, _ => 0
  | n + 1, k => if tget 0 s.hub.ring (k % ringSize) = 0 then 0 else 1 + ringRun s n (k + 1)

/-- Consecutive records of the ring leave in one datagram (R386). -/
def sendRun (s : State) (first n : Nat) : State :=
  let recs := (List.range n).flatMap fun i => bvBytes 64 (tget 0 s.hub.ring ((first + i) % ringSize))
  udpSend s s.hub.evh.evDestIpv4 s.hub.evh.evDestPort (exportHeader s 0x4556 n (BitVec.ofNat 64 first) ++ recs)

/-- Records leave in index order, a datagram for each run without a gap (R386, R524). -/
def sendRuns : Nat → State → Nat → Nat → State
  | 0, s, _, _ => s
  | fuel + 1, s, first, n =>
    if n = 0 then s
    else
      let r := ringRun s n first
      if r = 0 then sendRuns fuel s (first + 1) (n - 1) else sendRuns fuel (sendRun s first r) (first + r) (n - r)

/-- Records of the ring leave (R386). -/
def sendRecords (s : State) (first n : Nat) : State := sendRuns n s first n

/-- The EVH registers go through a function. -/
def modEvh (s : State) (f : EvhRegs → EvhRegs) : State := modHub s fun h => { h with evh := f h.evh }

/-- EVENT_EXPORT_SEND (R386): up to 16 records leave in index order; those overwritten before their export are counted. -/
def execEventExportSend (s : State) : Host.Outcome State Fault Refusal :=
  let r := s.hub.evh
  if !r.evCtrl || r.evDestIpv4 == 0 then .next s
  else
    let lost := ringOldest r - r.evExported.toNat
    let first := r.evExported.toNat + lost
    let n := min 16 (r.evHead.toNat - first)
    let s := if lost = 0 then s else setCause (modEvh s fun r => { r with evStatLost := satAdd r.evStatLost lost }) .hub .evh 1
    let s := if n = 0 then s else sendRecords s first n
    .next (modEvh s fun r => { r with evExported := BitVec.ofNat 64 (first + n) })

/-- EVENT_REREQUEST_RECEIVE (R387): the requested records that the ring still holds are sent again, or the request is
dropped and counted; a datagram to another port is the management port's to drop (R519). -/
def execEventRerequestReceive (ip : BitVec 32) (port : BitVec 16) (data : List (BitVec 8)) (s : State) :
    Host.Outcome State Fault Refusal :=
  let r := s.hub.evh
  let count := bytesAt data 16 2
  if port ≠ r.evDestListen then
    .next (modHub s fun h => { h with mgmt := { h.mgmt with mgStatusRxDrop := satInc h.mgmt.mgStatusRxDrop } })
  else if ip ≠ r.evDestIpv4 ∨ bytesAt data 0 2 ≠ 0x4552 ∨ count = 0 ∨ 4096 < count then
    .next (modEvh s fun r => { r with evStatReqDrop := satInc r.evStatReqDrop })
  else
    let a := max (bytesAt data 8 8) (ringOldest r)
    let n := min (bytesAt data 8 8 + count) r.evHead.toNat - a
    .next ((List.range ((n + 15) / 16)).foldl (fun s k => sendRecords s (a + 16 * k) (min 16 (n - 16 * k))) s)

/-- A read of EQ_W0 (R411): the head record is popped and latched for the interface. -/
def eqW0Read (i : Iface) (s : State) : Word × State :=
  onPartRead .tsu i s fun s =>
    match s.tsu.evq with
    | [] => (0, modIface s i fun c => { c with evq := 0 })
    | r :: rest => (r.extractLsb' 448 64, modIface (modTsu s fun t => { t with evq := rest }) i fun c => { c with evq := r })

/-- EQ_W0_READ (R411). -/
def execEqW0Read (i : Iface) (s : State) : Host.Outcome State Fault Refusal := ackRead i s (eqW0Read i s)

/-- A read of EV_RD0 (R412): the record at EV_RD_IDX is latched for the interface; an index that the ring does not hold reads
zero and is counted. -/
def evRd0Read (i : Iface) (s : State) : Word × State :=
  onPartRead .hub i s fun s =>
    let r := s.hub.evh
    let k := (s.iface i).regs.evRdIdx.toNat
    if r.evHead.toNat ≤ k + ringSize ∧ k < r.evHead.toNat then
      let e := tget 0 s.hub.ring (k % ringSize)
      (e.extractLsb' 448 64, modIface s i fun c => { c with ev := e })
    else (0, refuse (modIface s i fun c => { c with ev := 0 }) .hub .evh)

/-- EV_RD0_READ (R412). -/
def execEvRd0Read (i : Iface) (s : State) : Host.Outcome State Fault Refusal := ackRead i s (evRd0Read i s)

/-! ## History (R396) -/

/-- How many entries the history region holds: 32 MiB of 32 bytes. -/
def historySize : Nat := 1048576

/-- The newest entry of each KIND for each unit, oldest first. -/
def compactHistory : List HistEntry → List HistEntry
  | [] => []
  | e :: rest =>
    if rest.any fun x => x.unit == e.unit && x.kind == e.kind then compactHistory rest else e :: compactHistory rest

/-- HISTORY_APPEND (R396): the oldest entry waiting goes to flash, which is compacted first when it is full. -/
def execHistoryAppend (s : State) : Host.Outcome State Fault Refusal :=
  match s.hub.histQueue with
  | [] => .next s
  | e :: rest =>
    let s := modHub s fun h => { h with
      histQueue := rest
      history := (if h.history.length < historySize then h.history else compactHistory h.history) ++ [e] }
    .next (modUnit s e.unit fun r => { r with unitStateEvents := satInc r.unitStateEvents })

/-! ## Tests and the rotation (R398, R399) -/

/-- Whether a step buffer is open on the hub (R399, R330). -/
def buffersOpen (s : State) : Bool :=
  s.hub.jobs.any fun e => e.2.ctxs.any fun c => c.2.a.state != 0 || c.2.b.state != 0

/-- The rotation has a lane of a class out, and goes on from the next index. -/
def rotTake (s : State) (u : BitVec 16) : State :=
  modHub s fun h =>
    let h := { h with katPassed := h.katPassed.erase u }
    if unitClass u = 0 then
      { h with rotN := some u, flt := { h.flt with rotStatusNext := BitVec.ofNat 10 (unitIndex u + 1) } }
    else { h with rotW := some u, rotWide := unitIndex u + 1 }

/-- The next lane of a class that a rotation tests (R399): one that carries results or stands by; with no standby lane free
it waits until no buffer is open. -/
def rotClass (s : State) (c : Nat) : State :=
  let next := if c = 0 then s.hub.flt.rotStatusNext.toNat else s.hub.rotWide
  if (if c = 0 then s.hub.rotN else s.hub.rotW).isSome then s
  else match ((unitsOf c).drop next).find? fun u => (s.unit u).unitState.toNat < 2 with
    | none =>
      modHub s fun h =>
        if c = 0 then { h with flt := { h.flt with rotStatusNext := BitVec.ofNat 10 (unitCount c) } }
        else { h with rotWide := unitCount c }
    | some u =>
      if (s.unit u).unitState = 1 then rotTake (modUnit s u fun r => { r with unitState := 2 }) u
      else match freeStandby s c with
        | some _ => rotTake (laneLeaves s u 2) u
        | none =>
          if buffersOpen s then modHub s fun h => { h with flt := { h.flt with rotStatusWaiting := true } }
          else rotTake (modUnit s u fun r => { r with unitState := 2 }) u

/-- A running rotation goes on, and ends once both classes are done (R399). -/
def rotAdvance (s : State) : State :=
  if !s.hub.flt.rotStatusActive then s
  else
    let s := modHub s fun h => { h with flt := { h.flt with rotStatusWaiting := false } }
    let s := rotClass (rotClass s 0) 1
    let h := s.hub
    if h.rotN.isNone && h.rotW.isNone && h.flt.rotStatusNext.toNat == 528 && h.rotWide == 66 then
      modHub s fun h => { h with flt := { h.flt with
        rotStatusActive := false, rotStatusWaiting := false, rotStatusRotations := satInc h.flt.rotStatusRotations } }
    else s

/-- A rotation starts, unless one is running (R399). -/
def rotStart (s : State) : State :=
  if s.hub.flt.rotStatusActive then s
  else rotAdvance (modHub s fun h => { h with
    rotN := none, rotW := none, rotWide := 0, flt := { h.flt with rotStatusActive := true, rotStatusNext := 0 } })

/-- ROTATION_START (R399): the period has passed; a period of 0 starts none. -/
def execRotationStart (s : State) : Host.Outcome State Fault Refusal :=
  .next (if s.hub.flt.fltCtrlRotPeriodS = 0 then s else rotStart s)

/-- A write of FLT_CTRL (R413). -/
def fltCtrlWrite (i : Iface) (v : Word) (s : State) : Bool × State :=
  onPart .hub i s fun s =>
    if (getF v 48 16 : BitVec 16) = 0 then refused s .hub .flt
    else
      let s := modHub s fun h => { h with flt := h.flt.write 0x040 v }
      accept (if getB v 0 then rotStart s else s)

/-- ROT_NOW (R399): a write of FLT_CTRL with ROT_NOW set. -/
def execRotNow (i : Iface) (data : Word) (s : State) : Host.Outcome State Fault Refusal :=
  ackWrite i s (fltCtrlWrite i (data ||| putB 0 true) s)

/-- A write of FLT_HB (R413). -/
def fltHbWrite (i : Iface) (v : Word) (s : State) : Bool × State :=
  onPart .hub i s fun s =>
    if (getF v 0 16 : BitVec 16).toNat < 20 then refused s .hub .flt
    else accept (modHub s fun h => { h with flt := h.flt.write 0x048 v })

/-- A lane's test is over: a rotation that had it out takes the next (R399). -/
def testOver (s : State) (u : BitVec 16) : State :=
  modHub s fun h => { h with
    katPassed := h.katPassed.erase u
    rotN := if h.rotN = some u then none else h.rotN
    rotW := if h.rotW = some u then none else h.rotW }

/-- A unit fails its test (R398, R399): the KAT_FAIL entry is written, and the unit is charged by the history before it. -/
def katFail (s : State) (u : BitVec 16) : State :=
  let prior := hasPrior s u
  let s := modHub (testOver s u) fun h => { h with flt := { h.flt with rotStatusKatFails := satInc h.flt.rotStatusKatFails } }
  rotAdvance (chargeAs (queueHistory s u 2 0xFF) u 0xFF prior)

/-- A known-answer run of a unit completes (R398 to R400): under test, the second run that passes brings SHADOW and one that
fails charges the unit; in SHADOW, one that passes counts as a step while no job's span includes the hub. -/
def katDone (s : State) (u : BitVec 16) (pass : Bool) : State :=
  let r := s.unit u
  if r.unitState = 2 then
    if !pass then katFail s u
    else if s.hub.katPassed.contains u then
      rotAdvance (modUnit (testOver s u) u fun r => { r with unitState := 3, unitStateShadowSteps := 0 })
    else modHub s fun h => { h with katPassed := h.katPassed ++ [u] }
  else if r.unitState = 3 then
    if !pass then chargeUnit s u 0xFF
    else if noJobs s then
      modUnit s u fun r => { r with
        unitStateShadowSteps := if r.unitStateShadowSteps.toNat < 64 then r.unitStateShadowSteps + 1 else 64 }
    else s
  else s

/-- KAT_RUN_DONE (R398). -/
def execKatRunDone (unit : BitVec 16) (pass : Bool) (s : State) : Host.Outcome State Fault Refusal := .next (katDone s unit pass)

/-! ## Shadow (R400) -/

/-- How many units of a class work (R413). -/
def unitsWorking (s : State) (c : Nat) : Nat := ((unitsOf c).filter fun u => (s.unit u).unitState == 0).length

/-- A unit has computed 64 clean steps (R400): it carries results again, and its stand-in stands by; a lane beyond the 512
narrow or 64 wide that work stands by itself, and a link lane is its port's spare. -/
def shadowEnd (s : State) (u : BitVec 16) : State :=
  let r := s.unit u
  if r.unitState = 3 ∧ r.unitStateShadowSteps = 64 then
    let c := unitClass u
    let v := r.unitStateStandin
    let s := if c < 2 && v != 0xFFFF && (s.unit v).unitState == 0 then modUnit s v fun r => { r with unitState := 1 } else s
    let full := if c = 0 then 512 else if c = 1 then 64 else unitCount c
    let st : BitVec 3 := if c < 2 && decide (full ≤ unitsWorking s c) then 1 else 0
    let s := modUnit s u fun r => { r with unitState := st, unitStateShadowSteps := 0, unitStateStandin := 0xFFFF }
    let s := if c = 3 then
        modPage s .hub (BitVec.ofNat 7 (unitIndex u / 5)) fun g => { g with
          spare := BitVec.ofNat 3 (unitIndex u % 5), regs := { g.regs with lkStateSpareFor := 7 } }
      else s
    rotAdvance (laneSpared (queueHistory s u 3 0xFF) .hub 2 u v)
  else s

/-- SHADOW_COPY_DONE (R405): a rejoining hub has its twin's job state; it is in SHADOW, leads nothing and counts its clean
steps from here. -/
def execShadowCopyDone (s : State) : Host.Outcome State Fault Refusal :=
  let s := if s.hub.flt.hubRole = 1 then s else laneSpared s .hub 5 0x5000 0xFFFF
  .next (modHub s fun h => { h with
    flt := { h.flt with hubRole := 1, hubRoleCleanSteps := 0 }
    jobs := tmap {} (fun _ b => { b with leads := false }) h.jobs })

/-! ## The sender's side of delivery (R401, R402) -/

/-- What a sender keeps of its unacknowledged flits after a cumulative acknowledgement. -/
def UpSender.acked (u : UpSender) (d : BitVec 32) : UpSender :=
  { u with unacked := u.unacked.filter fun e => decide (0 < signedDiff e.1 d), waiting := [] }

/-- DACK_RECEIVE (R401, R402): acknowledged flits are freed, and those that waited for room leave. -/
def execDackReceive (l : LinkId) (m : DackP) (s : State) : Host.Outcome State Fault Refusal :=
  let s := taken s l (.dack m)
  match l.part with
  | .tsu =>
    let w := s.tsu.up.waiting
    .next (w.foldl tsuSendUp (modTsu s fun t => { t with up := t.up.acked m.dsn }))
  | .hub =>
    let k := s.pairKey l
    let w := (s.upSender k).waiting
    if m.sender = (twinOf s.hub.id.hubAddr).setWidth 32 then
      .next (modHub s fun h => { h with twinUp := h.twinUp.filter fun e => laterThan e.1 m.dsn })
    else
      .next (w.foldl (fun s x => hubSendUp s l x) (modHub s fun h => { h with ups := tmod {} h.ups k fun u => u.acked m.dsn }))

/-! ## Heartbeats (R403, R406) -/

/-- HEARD (R403, R457): the hub's neighbours from which a flit came in within the last 10 µs. -/
def heardMask (s : State) : BitVec 288 :=
  s.legalMask (s.hub.sh.links.foldl (fun m e => if heardLately s (linkOfKey .hub e.1) then setBit m e.1 true else m) 0)

/-- TWIN_HEARTBEAT_SEND (R403): a heartbeat on each TWIN port. -/
def execTwinHeartbeatSend (s : State) : Host.Outcome State Fault Refusal :=
  let m : Msg := .heartbeat { origin := s.origin .hub, heard := heardMask s }
  .next ((s.roleLinks 3).foldl (fun s l => sendLink s l none m) s)

/-- TSU_HEARTBEAT_SEND (R406): a heartbeat on both links. -/
def execTsuHeartbeatSend (s : State) : Host.Outcome State Fault Refusal :=
  let m : Msg := .heartbeat { origin := s.origin .tsu, heard := 0 }
  .next (sendLink (sendLink s linkA none m) linkB none m)

/-- HEARTBEAT_RECEIVE (R403, R406): a TSU's heartbeat feeds the detector; the twin's says which neighbours it has heard, and on
a leaf hub these are the dies below both. -/
def execHeartbeatReceive (l : LinkId) (m : HeartbeatP) (s : State) : Host.Outcome State Fault Refusal :=
  let s := taken s l (.heartbeat m)
  let now := s.hub.sh.tb.cycles
  if l.part = .tsu then .next s
  else if m.origin.getLsbD 31 then .next (modHub s fun h => { h with hbSeen := tset 0 h.hbSeen (2 * l.key) now })
  else
    let s := modHub s fun h => { h with heard := tset 0 h.heard m.origin.toNat m.heard }
    if s.isTwin l && s.tier == 0 then
      .next (modHub s fun h => { h with
        hbSeen := ((List.range 288).filter fun k => m.heard.getLsbD k).foldl (fun t k => tset 0 t (2 * k + 1) now) h.hbSeen })
    else .next s

/-! ## The failure detector (R406, R407) -/

/-- A leaf hub that is no home member tells the home pair of a declaration with the record of its event (R407). -/
def tellHome (s : State) (j : BitVec 12) (e : Ev) : State :=
  if s.isHome j then s
  else passUp s j 0 (.evrec ⟨encodeRecord { e with tickValid := s.valid .hub, tick := s.now .hub } (s.origin .hub) s.hub.sh.evSeq 0⟩)

/-- EV_FENCED with SUB 0 for a job's die (R407). -/
def declareIn (l : LinkId) (ep : BitVec 24) (reason : Nat) (s : State) (j : BitVec 12) : State :=
  match s.epRank j ep with
  | none => s
  | some r =>
    let legal := s.bitLegal l.key
    let s := modJob s j fun b => { b with
      fence := if legal then setBit b.fence l.key true else b.fence
      flt := { b.flt with detCfgDeclared := satInc b.flt.detCfgDeclared } }
    let e := jobEv s j 0x0020 0 1 (r.setWidth 32) (s.job j).step [(32, ep.toNat), (8, reason)]
    tellHome (raise s .hub e) j e

/-- The detector declares the die on a link dead (R407): the endpoint is fenced at the edge, and in each of its jobs. -/
def declare (s : State) (l : LinkId) (reason : Nat) : State :=
  let ep := s.epOf l
  if s.hub.declared.contains ep then s
  else
    let s := setCause (modHub s fun h => { h with declared := h.declared ++ [ep] }) .hub .flt 4
    (s.hub.jobs.map fun e => BitVec.ofNat 12 e.1).foldl (declareIn l ep reason) s

/-- HEARTBEAT_LOSS (R406): a die that has been heard is declared dead when no heartbeat has come in by either leaf hub for
HB_LOSS_US: reason HEARTBEAT while its link is in service, and otherwise TWO_PLANE. -/
def execHeartbeatLoss (l : LinkId) (s : State) : Host.Outcome State Fault Refusal :=
  let a := tget 0 s.hub.hbSeen (2 * l.key)
  let b := tget 0 s.hub.hbSeen (2 * l.key + 1)
  let last := max a.toNat b.toNat
  if l.part = .hub ∧ s.tier = 0 ∧ 0 < last ∧ last + s.hub.flt.fltHb.toNat * 1000 ≤ s.hub.sh.tb.cycles.toNat then
    .next (declare s l (if (s.link l).active then 0 else 1))
  else .next s

/-- ARRIVAL_TIMEOUT (R406): while the job runs, a rank's STEP_OBJ arrival for the present step is missing at the next timeout after L(s); the third
in a row declares its die dead. -/
def arrivalTimeout (s : State) (j : BitVec 12) (r : BitVec 20) : State :=
  let b := s.job j
  match s.rankEp j r with
  | none => s
  | some ep =>
    let d := tget {} b.detect r.toNat
    let d : Arrivals := if d.step == b.step then d else { step := b.step, counted := false, timeouts := 0 }
    let us := b.flt.detCfgArrTimeoutUs.toNat
    let n := d.timeouts + 1
    if us = 0 ∨ !(b.regs.jobStatusState == 2 || b.regs.jobStatusState == 3) ∨ d.counted ∨ !s.serves ep ∨ !s.valid .hub ∨
        s.hub.sh.tb.tick.toNat < (launchOf b b.step).tick.toNat + us * n * 1000 then s
    else
      let s := modJob s j fun b => { b with detect := tset {} b.detect r.toNat { d with timeouts := n } }
      if n < 3 then s
      else declare s (linkOfKey .hub (epSlot ep).toNat) 2

/-- ARRIVAL_TIMEOUT (R406). -/
def execArrivalTimeout (job : BitVec 12) (rank : BitVec 20) (s : State) : Host.Outcome State Fault Refusal :=
  .next (arrivalTimeout s job rank)

end Sys2Proof.Machine
end

