-- ==== Sys2Proof/Machine/Stage.lean ====
section
/-! DEFINITION. Transactions at a target, up to the vote (R421 to R428): the actions, the rules their content is held to, and
the resources that other jobs hold. -/

namespace Sys2Proof.Machine

/-! ## Actions (R422 to R424) -/

/-- CODE, TARGET and payload of an action (R422). -/
abbrev Act := Nat × BitVec 64 × List (BitVec 8)

/-- The transaction kinds that admit an action; none for a reserved code (R423). -/
def actKinds : Nat → List Nat
  | 0x0001 => [1]
  | 0x0002 => [1, 5]
  | 0x0003 => [1, 3]
  | 0x0004 => [3]
  | 0x0005 => [1, 3]
  | 0x0006 => [3]
  | 0x0007 => [1, 3]
  | 0x0008 => [1, 3]
  | 0x0009 => [1, 3]
  | 0x000A => [3]
  | 0x000B => [2]
  | 0x000C => [5]
  | 0x000D => [6]
  | 0x000E => [8]
  | 0x000F => [8]
  | _ => []

/-- The CONFIG actions that are admitted in RUNNING (R423). -/
def actLive (code : Nat) : Bool := code == 3 || code == 4 || code == 8

/-- JOB_PARAMS (R424). -/
structure JobParams where
  seed : Word
  members : Nat
  lead : BitVec 16
  other : BitVec 16
  period : Nat
  pMin : Nat
  minGap : Nat
  guard : Nat
  catchupMax : BitVec 16
  stepObj : BitVec 16
  defTimeout : BitVec 32
  peakCtx : Nat
  flags : Nat
  peakSlots : Nat
  provBase : Nat
  provCount : Nat
  arrTimeout : BitVec 32
  releaseLead : Nat
  deriving DecidableEq, Repr

/-- JOB_PARAMS from its payload (R424). -/
def jobParams (p : List (BitVec 8)) : JobParams :=
  { seed := BitVec.ofNat 64 (bytesAt p 0x00 8)
    members := bytesAt p 0x08 4 + 1
    lead := BitVec.ofNat 16 (bytesAt p 0x0C 2)
    other := BitVec.ofNat 16 (bytesAt p 0x0E 2)
    period := bytesAt p 0x10 4
    pMin := bytesAt p 0x14 4
    minGap := bytesAt p 0x18 4
    guard := bytesAt p 0x1C 4
    catchupMax := BitVec.ofNat 16 (bytesAt p 0x20 2)
    stepObj := BitVec.ofNat 16 (bytesAt p 0x22 2)
    defTimeout := BitVec.ofNat 32 (bytesAt p 0x24 4)
    peakCtx := bytesAt p 0x28 2
    flags := bytesAt p 0x2A 1
    peakSlots := bytesAt p 0x2C 4
    provBase := bytesAt p 0x30 4
    provCount := bytesAt p 0x34 4
    arrTimeout := BitVec.ofNat 32 (bytesAt p 0x38 4)
    releaseLead := bytesAt p 0x3C 4 }

/-- The flags of JOB_PARAMS: ON_MISMATCH, UNITMAP_INDEPENDENT, ENV_STRICT and the replay mode (R424). -/
def JobParams.onMismatch (p : JobParams) : Bool := p.flags.testBit 0

def JobParams.unitmapIndep (p : JobParams) : Bool := p.flags.testBit 1

def JobParams.envStrict (p : JobParams) : Bool := p.flags.testBit 2

def JobParams.mode (p : JobParams) : BitVec 2 := BitVec.ofNat 2 (p.flags / 16)

/-- JOB_PARAMS of a share, when it holds them. -/
def paramsOf (share : List (BitVec 8)) : Option JobParams := (actOf share 1).map jobParams

/-- The 4-byte entries of a list of `n` that starts at an offset. -/
def words4 (p : List (BitVec 8)) (off n : Nat) : List Nat := (List.range n).map fun i => bytesAt p (off + 4 * i) 4

/-- An endpoint as an action names it: its reserved bits are dropped (R12, R32). -/
def endpointOf (n : Nat) : BitVec 24 := BitVec.ofNat 24 n &&& 0xFFFFC0

/-- The ranks and endpoints of a RANKS action (R423). -/
def ranksAct (p : List (BitVec 8)) : List (Nat × BitVec 24) :=
  let n := min (bytesAt p 4 4 + 1) (p.length / 4)
  ((words4 p 8 n).zip (List.range n)).map fun e => (bytesAt p 0 4 + e.2, endpointOf e.1)

/-- The ranks and endpoints that a share's RANKS actions give. -/
def ranksOf (share : List (BitVec 8)) : List (Nat × BitVec 24) :=
  ((actsOf share).filter fun a => a.1 == 2).flatMap fun a => ranksAct a.2.2

/-- The endpoints of a FENCE action (R423). -/
def fenceAct (p : List (BitVec 8)) : List (BitVec 24) :=
  (words4 p 8 (min (bytesAt p 0 4 + 1) (p.length / 4))).map endpointOf

/-- The hubs and groups, and the ranks and slots, of a BARRIER action (R423). -/
def barrierHubs (p : List (BitVec 8)) : List (BitVec 16 × BitVec 12) :=
  (List.range (min (bytesAt p 8 4) (p.length / 8))).map fun i =>
    (BitVec.ofNat 16 (bytesAt p (16 + 8 * i) 2), BitVec.ofNat 12 (bytesAt p (18 + 8 * i) 2))

def barrierParts (p : List (BitVec 8)) : List (BitVec 20 × BitVec 16) :=
  let off := 16 + 8 * bytesAt p 8 4
  (List.range ((p.length - off) / 8)).map fun i =>
    (BitVec.ofNat 20 (bytesAt p (off + 8 * i) 4), BitVec.ofNat 16 (bytesAt p (off + 8 * i + 4) 2))

/-- The ranks of a BARRIER action as its 4-byte fields give them. -/
def barrierRanks (p : List (BitVec 8)) : List Nat :=
  let off := 16 + 8 * bytesAt p 8 4
  (List.range ((p.length - off) / 8)).map fun i => bytesAt p (off + 8 * i) 4

/-- The ranges of a CONTEXT action, each a base and a count (R423). -/
def ctxRanges (p : List (BitVec 8)) : List (Nat × Nat) :=
  (List.range (min (bytesAt p 4 4) (p.length / 8))).map fun i => (bytesAt p (24 + 8 * i) 4, bytesAt p (28 + 8 * i) 4 + 1)

/-- CFG and K of a CONTEXT action (R423). -/
def ctxCfg (p : List (BitVec 8)) : Word := BitVec.ofNat 64 (bytesAt p 8 8)

def ctxK (p : List (BitVec 8)) : Word := BitVec.ofNat 64 (bytesAt p 16 8)

/-- The participants that ranges list (R304). -/
def expandRanges (rs : List (Nat × Nat)) : List (BitVec 20) := rs.flatMap fun r => (List.range r.2).map fun i => BitVec.ofNat 20 (r.1 + i)

/-- The object of an action, or the context or group: its first 2 bytes. -/
def actNo (p : List (BitVec 8)) : Nat := bytesAt p 0 2

/-- The length of a payload of `n` content bytes, padded (R422). -/
def padLen (n : Nat) : Nat := (n + 7) / 8 * 8

/-- Whether a payload's length agrees with its content (R423). -/
def actLenOk (code : Nat) (p : List (BitVec 8)) : Bool :=
  match code with
  | 0x0001 => p.length == 64
  | 0x0002 => p.length == padLen (8 + 4 * (bytesAt p 4 4 + 1))
  | 0x0003 => decide (16 + 8 * bytesAt p 8 4 ≤ p.length)
  | 0x0004 => p.length == 8
  | 0x0005 => p.length == 24 + 8 * bytesAt p 4 4
  | 0x0006 => p.length == 8
  | 0x0007 => p.length == 2056
  | 0x0008 => p.length == 48
  | 0x0009 => p.length == 144
  | 0x000A => p.length == 16
  | 0x000B => p.length == 128
  | 0x000C => p.length == 8
  | 0x000D => p.length == padLen (8 + 4 * (bytesAt p 0 4 + 1))
  | 0x000E => p.length == 16
  | 0x000F => p.length % 16 == 0
  | _ => false

/-- Whether an action holds a reserved encoding in an enumerated field (R13): an unlisted CODE, a replay mode of 3 (R424), an
operation, format or finish stage that R299, R305 or R319 does not list, a digest KIND of 2 or 3 (R332), or a port ROLE of 5 to
7 (R25). -/
def actReserved (a : Act) : Bool :=
  let p := a.2.2
  (actKinds a.1).isEmpty || match a.1 with
    | 0x0001 => (jobParams p).mode == 3
    | 0x0005 =>
      let c : Word := BitVec.ofNat 64 (bytesAt p 8 8)
      cOp c == 0 || decide (9 < cOp c ∨ 8 < cIn c ∨ 8 < cOut c) || (cFin c).any fun f => decide (9 < f)
    | 0x0007 => (List.range 256).any fun i => decide (2 ≤ bytesAt p (8 * i) 8 / 2 ^ 60 % 4)
    | 0x000A => bytesAt p 8 1 % 4 == 3
    | 0x000E => decide (5 ≤ bytesAt p 15 1 % 8)
    | _ => false

/-- Whether a transaction of a kind with these actions holds a reserved encoding (R13, R421, R423). -/
def txnReserved (kind : BitVec 8) (acts : List Act) : Bool := kindReserved kind || acts.any actReserved

/-! ## Content rules -/

/-- The limits of the cadence (R255), of RELEASE_LEAD_NS (R249), and of the membership (R34). -/
def paramsOk (p : JobParams) : Bool :=
  let lo := if tierOf p.lead = 0 then 5000 else 25000
  decide (lo ≤ p.pMin ∧ p.pMin ≤ p.period ∧ p.period ≤ 1000000000 ∧ p.guard + 1000 ≤ p.minGap ∧ p.minGap ≤ p.pMin ∧
    3072 ≤ p.guard ∧ p.guard ≤ 1000000 ∧ 1000 ≤ p.releaseLead ∧ p.releaseLead ≤ 1000000 ∧ p.members ≤ 262144) && p.mode != 3

/-- The combinations of OP, INFMT and OUTFMT (R305). -/
def ctxFormats (cfg : Word) : Bool :=
  let i := cIn cfg
  let o := cOut cfg
  match cOp cfg with
  | 1 => if i < 5 then decide (o ≤ 5) else if i = 5 then o == 0 || o == 5 else decide (i ≤ 8 ∧ 6 ≤ o ∧ o ≤ 8)
  | 2 => decide (i ≤ 8) && o == i
  | 3 => decide (i ≤ 8) && o == i
  | 4 => decide (i ≤ 7) && i != 5 && o == i
  | 5 => decide (i ≤ 7) && i != 5 && o == i
  | 6 => i == 6 && o == 6
  | 7 => i == 6 && o == 6
  | 8 => if i < 5 then decide (o < 5) else decide (6 ≤ i ∧ i ≤ 8 ∧ 6 ≤ o ∧ o ≤ 8)
  | 9 => i == 6 && o == 6
  | _ => false

/-- Whether a stage other than END follows an END. -/
def afterEnd : List Nat → Bool
  | [] => false
  | f :: fs => if f = 0 then fs.any (· != 0) else afterEnd fs

/-- The first five cases of R306, on a descriptor and its list; a listed rank lies below the membership (R34). -/
def ctxOk (cfg : Word) (rs : List (Nat × Nat)) (members : Nat) : Bool :=
  let fin := cFin cfg
  let p := cPart cfg
  ctxFormats cfg && fin.all (· < 10) && (fin.all (· == 0) || (cOp cfg == 1 && decide (cOut cfg < 6))) && !afterEnd fin &&
    decide (p ≤ members) && rs.foldl (fun n r => n + r.2) 0 == p && rs.all (fun r => decide (r.1 + r.2 ≤ members)) &&
    ((cOp cfg != 8 && cOp cfg != 9) || decide (p * cLen cfg ≤ 1048576))

/-- The rule of one descriptor of a digest plan (R332, R333). -/
def descOk (members : Nat) (d : Word) : Bool :=
  let part := (getF d 0 18 : BitVec 18).toNat + 1
  let kind : BitVec 2 := getF d 60 2
  let g := (getF d 56 3 : BitVec 3).toNat
  !getB d 63 || (decide (kind.toNat < 2) && decide (part ≤ members) &&
    (!getB d 62 || (kind == 0 && g != 0 && part == ((getF d 32 18 : BitVec 18).toNat + 1) * (g + 1))))

/-- The descriptors of a DIGEST_PLAN action. -/
def planWords (p : List (BitVec 8)) : List Word := (List.range 256).map fun i => BitVec.ofNat 64 (bytesAt p (8 * i) 8)

/-- The mask of a GROUP action: the 288 bits, most significant first, before the 32 zero bits (R423). -/
def groupMask (p : List (BitVec 8)) : BitVec 288 := BitVec.ofNat 288 (bytesAt p 8 36)

/-- Whether a mask sets a bit that a port in 4-lane mode reserves (R530). -/
def maskReserved (s : State) (m : BitVec 288) : Bool :=
  (List.range 72).any fun k =>
    !(s.page .hub (BitVec.ofNat 7 k)).role.portRoleSplit && ([1, 2, 3].any fun i => m.getLsbD (4 * k + i))

/-- The home pair that a job's members imply (R43). -/
def pairOk (lead other : BitVec 16) (eps : List (BitVec 24)) : Bool :=
  match eps with
  | [] => true
  | e :: es =>
    let row := es.all fun x => epRow x == epRow e
    let rack := row && es.all fun x => epRack x == epRack e
    other == twinOf lead &&
      (if rack then lead == leafOf false e || lead == leafOf true e
       else if row then lead == rowOf false e || lead == rowOf true e
       else tierOf lead == 2)

/-- Whether an endpoint lies within the span of a job with this home pair (R43, R46). -/
def inSpan (lead : BitVec 16) (e : BitVec 24) : Bool :=
  match tierOf lead with
  | 0 => hubRow lead == epRow e && hubRack lead == epRack e
  | 1 => hubRow lead == epRow e
  | _ => true

/-! ## Barriers and their home pairs (R216, R218) -/

/-- Whether no value stands twice in a list. -/
def distinct {α : Type} [DecidableEq α] (l : List α) : Bool := (dedup l).length == l.length

/-- Whether the participants of a BARRIER action are as many as it says and no more than the membership, with distinct ranks below it
(R34, R218). -/
def barrierOk (members : Nat) (p : List (BitVec 8)) : Bool :=
  let ranks := barrierRanks p
  let n := bytesAt p 4 4 + 1
  decide (n ≤ members) && ranks.length == n && (p.length - 16) % 8 == 0 && ranks.all (· < members) && distinct ranks

/-- The home pair of a barrier over its participants' endpoints (R43, R216): the leaf pair of their rack, the row pair of their row,
or the job's own. -/
def pairOver (lead other : BitVec 16) (eps : List (BitVec 24)) : List (BitVec 16) :=
  match eps with
  | [] => [lead, other]
  | e :: es =>
    let row := es.all fun x => epRow x == epRow e
    if row && es.all fun x => epRack x == epRack e then [leafOf false e, leafOf true e]
    else if row then [rowOf false e, rowOf true e]
    else [lead, other]

/-- The home pair of a BARRIER action, by the rank table of its share and the one in force; a participant that neither holds leaves
it the job's own. -/
def barrierHomes (s : State) (j : BitVec 12) (share : List (BitVec 8)) (lead other : BitVec 16) (p : List (BitVec 8)) :
    List (BitVec 16) :=
  let table := ranksOf share
  let eps := (barrierParts p).map fun x =>
    match table.find? fun y => y.1 == x.1.toNat with
    | some y => some y.2
    | none => s.rankEp j x.1
  if eps.all Option.isSome then pairOver lead other (eps.filterMap id) else [lead, other]

/-- Whether a share installs STEP_OBJ as a barrier of every rank of the job (R533). -/
def stepObjOk (acts : List Act) (q : JobParams) : Bool :=
  acts.any fun x => x.1 == 3 && actNo x.2.2 == q.stepObj.toNat &&
    (List.range q.members).all fun r => (barrierParts x.2.2).any fun y => y.1.toNat == r

/-! ## Resources that other jobs hold (R49, R428) -/

/-- What another job holds on the hub, or has reserved by a yes vote. -/
structure Claim where
  ctxs : Nat
  slots : Nat
  provBase : Nat
  provCount : Nat
  replay : Bool
  groups : List Nat
  barriers : Nat
  deriving DecidableEq, Repr

/-- The group numbers of a share's GROUP actions. -/
def groupNos (share : List (BitVec 8)) : List Nat := ((actsOf share).filter fun a => a.1 == 8).map fun a => actNo a.2.2

/-- How many barriers a share installs whose home pair this hub is a member of. -/
def barrierCount (s : State) (j : BitVec 12) (share : List (BitVec 8)) (lead other : BitVec 16) : Nat :=
  ((actsOf share).filter fun a => a.1 == 3 && (barrierHomes s j share lead other a.2.2).contains s.hub.id.hubAddr).length

/-- A job's TEARDOWN has committed on this hub (R428). -/
def goingHub (s : State) (k : Nat) : Bool :=
  (tget {} s.hub.jobs k).regs.jobStatusState == 6 ||
    match tget none s.hub.staged k with
    | some g => g.kind == 7 && g.committed
    | none => false

/-- What the jobs other than `j` hold, those whose TEARDOWN has committed left out when `free` is set. -/
def heldClaims (s : State) (j : Nat) (free : Bool) : List Claim :=
  (s.hub.jobs.filter fun e => e.1 != j && e.2.regs.jobStatusState != 0 && !(free && goingHub s e.1)).map fun e =>
    let home := s.isHome (BitVec.ofNat 12 e.1)
    { ctxs := e.2.peakCtx.toNat, slots := if home then e.2.peakSlots.toNat else 0
      provBase := e.2.digh.dgJobProvBase.toNat, provCount := if home then e.2.digh.dgJobProvCount.toNat else 0
      replay := home && (e.2.deth.dhJobMode == (2 : BitVec 2))
      groups := (s.hub.groups.filter fun g => g.2.owner == some (BitVec.ofNat 12 e.1)).map fun g => g.1
      barriers := e.2.barriers.length }

/-- What the staged transactions of other partitions have reserved (R428). -/
def stagedClaims (s : State) (j : Nat) : List Claim :=
  s.hub.staged.filterMap fun e =>
    match e.2 with
    | none => none
    | some g =>
      if e.1 = j ∨ g.deferred then none
      else
        let p := paramsOf g.share
        let home := match p with | some p => p.lead == s.hub.id.hubAddr || p.other == s.hub.id.hubAddr | none => false
        let b := s.job (BitVec.ofNat 12 e.1)
        let pair := match p with | some p => (p.lead, p.other) | none => (b.lead, b.other)
        some {
          ctxs := match p with | some p => p.peakCtx | none => 0
          slots := match p with | some p => if home then p.peakSlots else 0 | none => 0
          provBase := match p with | some p => p.provBase | none => 0
          provCount := match p with | some p => if home then p.provCount else 0 | none => 0
          replay := match p with | some p => home && p.mode == 2 | none => false
          groups := groupNos g.share
          barriers := barrierCount s (BitVec.ofNat 12 e.1) g.share pair.1 pair.2 }

/-- Every claim of other jobs on the hub. -/
def claims (s : State) (j : Nat) (free : Bool) : List Claim := heldClaims s j free ++ stagedClaims s j

/-- The sum of a number over claims. -/
def sumClaims (cs : List Claim) (f : Claim → Nat) : Nat := cs.foldl (fun n c => n + f c) 0

/-- Whether two windows of the weight-provenance register overlap (R347). -/
def overlap (b n b' n' : Nat) : Bool := decide (0 < n ∧ 0 < n' ∧ b < b' + n' ∧ b' < b + n)

/-! ## Reasons (R427) -/

/-- The reason of the first case that holds, or YES. -/
def firstReason : List (Bool × Nat) → Nat
  | [] => 0
  | (b, r) :: rest => if b then r else firstReason rest

/-- The membership that a transaction's checks use: the one it installs, or the job's, or the largest on a part that joins by
a remap and knows none (R34, R529). -/
def membersFor (share : List (BitVec 8)) (n : BitVec 19) : Nat :=
  match paramsOf share with
  | some p => p.members
  | none => if n = 0 then 262144 else n.toNat

/-- Whether a remap's spare lies below this hub, in a rack or row that held no member (R529). -/
def joinsSpan (s : State) (g : Staged) : Bool :=
  g.kind == 5 && (actsOf g.share).any fun a =>
    let e := endpointOf (bytesAt a.2.2 4 4)
    a.1 == 0x000C && (s.serves e || s.hub.id.hubAddr == rowOf false e || s.hub.id.hubAddr == rowOf true e)

/-- Whether a state admits a kind with its actions (R418, R423). -/
def kindAdmitted (state : BitVec 4) (kind : BitVec 8) (acts : List Act) : Bool :=
  match state.toNat, kind.toNat with
  | 0, 1 => true
  | 1, 2 => true
  | 1, 3 => true
  | 1, 6 => true
  | 1, 7 => true
  | 2, 4 => true
  | 2, 3 => acts.all fun a => actLive a.1
  | 2, 6 => true
  | 3, 6 => true
  | 4, 2 => true
  | 4, 3 => true
  | 4, 5 => true
  | 4, 6 => true
  | 4, 7 => true
  | 5, 7 => true
  | _, _ => false

/-- Whether a kind flips the epoch (R438). -/
def flipsEpoch (kind : BitVec 8) : Bool := kind == 3 || kind == 5 || kind == 6

/-- Whether a commit tick lies less than 100 µs from the last flip (R417). -/
def tooSoon (last : Option Tick) (commit : Tick) : Bool :=
  match last with
  | some t => decide (commit.toNat < t.toNat + 100000)
  | none => false

/-- The contexts that a share leaves installed on a hub: number and CFG. -/
def ctxsAfter (b : HubJob) (acts : List Act) : List (Nat × Word) :=
  acts.foldl (fun cs a =>
      if a.1 = 5 then (actNo a.2.2, ctxCfg a.2.2) :: cs.filter fun c => c.1 != actNo a.2.2
      else if a.1 = 6 then cs.filter fun c => c.1 != actNo a.2.2
      else cs)
    (b.ctxs.map fun e => (e.1, e.2.regs.spCfg))

/-- What a hub finds in one action of a job's transaction. -/
def hubActReason (s : State) (j : BitVec 12) (g : Staged) (free : Bool) (a : Act) : Nat :=
  let b := s.job j
  let acts := actsOf g.share
  let own := s.hub.id.hubAddr
  let ps := paramsOf g.share
  let members := membersFor g.share b.members
  let lead := match ps with | some p => p.lead | none => if s.holds j then b.lead else g.coord
  let other := match ps with | some p => p.other | none => if s.holds j then b.other else twinOf g.coord
  let home := lead == own || other == own
  let cs := claims s j.toNat free
  let p := a.2.2
  firstReason ((!actLenOk a.1 p, 1) :: match a.1 with
    | 0x0001 =>
      let q := jobParams p
      [ (!paramsOk q, 1), (!stepObjOk acts q, 1),
        (!pairOk q.lead q.other ((ranksOf g.share).map fun x => x.2) || (!(ranksOf g.share).isEmpty &&
          !(spanHubs ((ranksOf g.share).map fun x => x.2) q.lead q.other).contains own), 7),
        (decide (4096 < sumClaims cs Claim.ctxs + q.peakCtx), 2),
        (home && decide (2097152 < sumClaims cs Claim.slots + q.peakSlots), 2),
        (home && (decide (8388608 < q.provBase + q.provCount) ||
          cs.any fun c => overlap q.provBase q.provCount c.provBase c.provCount), 2),
        (home && q.mode == 2 && cs.any Claim.replay, 10) ]
    | 0x0002 => [ ((ranksAct p).any fun x => decide (members ≤ x.1), 1) ]
    | 0x0003 =>
      let here := (barrierHomes s j g.share lead other p).contains own
      [ (!barrierOk members p, 1),
        ((tget none b.objGroup (actNo p)).isSome && !acts.any (fun x => x.1 == 4 && actNo x.2.2 == actNo p), 1),
        (here && (tget none b.barriers (actNo p)).isSome && !acts.any (fun x => x.1 == 4 && actNo x.2.2 == actNo p), 1),
        (((acts.filter fun x => x.1 == 3 && actNo x.2.2 == actNo p).length != 1), 1),
        (here && decide (65536 < sumClaims cs Claim.barriers + b.barriers.length + barrierCount s j g.share lead other), 2) ]
    | 0x0004 => [ (actNo p == b.stepObj.toNat, 3) ]
    | 0x0005 =>
      let peak := match ps with | some q => q.peakCtx | none => b.peakCtx.toNat
      let slots := match ps with | some q => q.peakSlots | none => b.peakSlots.toNat
      [ (!ctxOk (ctxCfg p) (ctxRanges p) members, 1), (decide (peak ≤ actNo p), 2),
        (home && decide (slots < (ctxsAfter b acts).foldl (fun n c => n + cSlots c.2) 0), 2) ]
    | 0x0007 => [ (!(planWords p).all (descOk members), 1) ]
    | 0x0008 =>
      [ (decide (4096 ≤ actNo p) || maskReserved s (groupMask p), 1), (cs.any fun c => c.groups.contains (actNo p), 2) ]
    | 0x000A =>
      [ (bytesAt p 8 1 % 4 == 3, 1), (home && bytesAt p 8 1 % 4 == 2 && cs.any Claim.replay, 10) ]
    | 0x000B =>
      let first := bytesAt p 8 8
      let soon := b.envAt != 0 && decide (g.commit.toNat < b.envAt.toNat + 2000000)
      let env := envDigest (envContents { b with tsuDigest := BitVec.ofNat 384 (bytesAt p 32 48) } (s.span j))
      [ (home && b.regs.jobStatusState == 4 && first != b.step.toNat + 1, 3),
        (home && (!b.seq.loaded || b.seq.digest.toNat != bytesAt p 80 48), 5),
        (s.isLead j && (soon || (b.deth.dhJobEnvStrict && !b.envSet && b.expect != 0 && b.expect != env)), 6) ]
    | 0x000C => [ (decide (members ≤ bytesAt p 0 4), 1), (!inSpan lead (endpointOf (bytesAt p 4 4)), 7) ]
    | 0x000E => [ (decide (72 ≤ bytesAt p 0 1) || actReserved a, 1) ]
    | _ => [])

/-- The reason of a hub's vote (R427); `free` counts what committed TEARDOWNs hold as free (R428). -/
def hubReason (s : State) (g : Staged) (free : Bool) : Nat :=
  let acts := actsOf g.share
  let j : BitVec 12 := g.partition.setWidth 12
  let b := s.job j
  let state := if b.regs.jobStatusState == 0 && joinsSpan s g then 4 else b.regs.jobStatusState
  let content := acts.map fun a => let r := hubActReason s j g free a; (r != 0, r)
  let shape := ((parseActs g.share.length g.share).isNone || acts.any fun a => !(actKinds a.1).contains g.kind.toNat, 1)
  if g.partition.getLsbD 12 then firstReason (shape :: content)
  else firstReason ([ (!kindAdmitted state g.kind acts, 3),
    (flipsEpoch g.kind && tooSoon b.lastFlip g.commit, 8), shape ] ++ content)

/-- The rank that a share gives the TSU's own endpoint: by RANKS, or by REMAP (R423). -/
def rankIn (s : State) (share : List (BitVec 8)) : Option Nat :=
  let own := s.tsu.root.endpointEp
  match (ranksOf share).find? fun x => x.2 == own with
  | some x => some x.1
  | none =>
    match (actsOf share).find? fun a => a.1 == 0x000C && endpointOf (bytesAt a.2.2 4 4) == own with
    | some a => some (bytesAt a.2.2 0 4)
    | none => none

/-- The TSU's rank under a transaction. -/
def rankUnder (s : State) (share : List (BitVec 8)) : BitVec 20 :=
  match rankIn s share with
  | some r => BitVec.ofNat 20 r
  | none => s.tsu.rank

/-- A TEARDOWN of the die's job has committed on the TSU (R428). -/
def goingTsu (s : State) : Bool :=
  s.tsu.txnt.ttJobState == 6 || match s.stagedAt .tsu (s.tsu.txnt.ttJob.setWidth 13) with
    | some g => g.kind == 7 && g.committed
    | none => false

/-- The objects and slots that the BARRIER actions of a share give the TSU's own rank (R215, R218). -/
def ownBarriers (s : State) (share : List (BitVec 8)) : List (Nat × Nat) :=
  ((actsOf share).filter fun a => a.1 == 3).flatMap fun a =>
    ((barrierParts a.2.2).filter fun x => x.1 == rankUnder s share).map fun x => (actNo a.2.2, x.2.toNat)

/-- Whether a barrier that a share installs meets a binding of this TSU that the share does not end: its slot is bound, or its
object is (R218). -/
def boundHere (s : State) (acts : List Act) (o k : Nat) : Bool :=
  let ends (n : Nat) : Bool := acts.any fun a => a.1 == 4 && actNo a.2.2 == n
  let x := (s.slot (BitVec.ofNat 12 k)).regs
  (x.soCfgType != 0 && !(x.soCfgType == tyBarrier && ends x.soCfgObj.toNat)) || (s.objBound (BitVec.ofNat 16 o) && !ends o)

/-- What a TSU finds in one action. -/
def tsuActReason (s : State) (g : Staged) (a : Act) : Nat :=
  let members := membersFor g.share s.tsu.members
  let acts := actsOf g.share
  let p := a.2.2
  let own := s.tsu.txnt.ttJobState != 0 && s.tsu.txnt.ttJob == g.partition.setWidth 12
  firstReason ((!actLenOk a.1 p, 1) :: match a.1 with
    | 0x0001 =>
      [ (!paramsOk (jobParams p), 1), (!stepObjOk acts (jobParams p), 1), ((rankIn s g.share).isNone, 7) ]
    | 0x0002 => [ ((ranksAct p).any fun x => decide (members ≤ x.1), 1) ]
    | 0x0003 =>
      let all := ownBarriers s g.share
      let mine := all.filter fun x => x.1 == actNo p
      [ (!barrierOk members p, 1),
        (!(distinct (all.map fun x => x.1) && distinct (all.map fun x => x.2)), 1),
        (mine.any fun x => decide (4096 ≤ x.2) || (own && boundHere s acts x.1 x.2), 1) ]
    | 0x0004 =>
      let armed := match s.slotOf tyBarrier (BitVec.ofNat 16 (actNo p)) with
        | some k => s.hostWaits k || s.progWaits k
        | none => false
      [ (armed || actNo p == s.tsu.stepObj.toNat, 3) ]
    | 0x0005 => [ (!ctxOk (ctxCfg p) (ctxRanges p) members, 1) ]
    | 0x0007 => [ (!(planWords p).all (descOk members), 1) ]
    | 0x000A => [ (bytesAt p 8 1 % 4 == 3, 1) ]
    | 0x000B =>
      [ (s.tsu.txnt.ttJobState == 4 && !s.tsu.joined && bytesAt p 8 8 != s.tsu.step.stepNow.toNat + 1, 3),
        (!s.tsu.seq.loaded || s.tsu.seq.digest.toNat != bytesAt p 32 48, 5) ]
    | 0x000C => [ (decide (members ≤ bytesAt p 0 4), 1) ]
    | _ => [])

/-- The reason of a TSU's vote (R427). -/
def tsuReason (s : State) (g : Staged) (free : Bool) : Nat :=
  let acts := actsOf g.share
  let j : BitVec 12 := g.partition.setWidth 12
  let t := s.tsu.txnt
  let held := t.ttJobState != 0 && t.ttJob != j
  let joins := g.kind == 1 || (g.kind == 5 && (rankIn s g.share).isSome)
  let state : BitVec 4 := if held || t.ttJobState == 0 then (if g.kind == 5 && joins then 4 else 0) else t.ttJobState
  firstReason ([ (held && joins && !(free && goingTsu s), 4), (!kindAdmitted state g.kind acts, 3),
    (flipsEpoch g.kind && tooSoon s.tsu.lastFlip g.commit, 8),
    ((parseActs g.share.length g.share).isNone || acts.any fun a => !(actKinds a.1).contains g.kind.toNat, 1) ] ++
    acts.map fun a => let r := tsuActReason s g a; (r != 0, r))

/-- The reason of a target's vote. -/
def targetReason (s : State) (p : Part) (g : Staged) (free : Bool) : Nat :=
  match p with
  | .hub => hubReason s g free
  | .tsu => tsuReason s g free

end Sys2Proof.Machine
end

