-- ==== Sys2Proof/Machine/Links.lean ====
section
/-! DEFINITION. The Gyelou link (R448 to R466): codewords and flit checks, retry, credits and NOT_READY, the spare-lane remap,
training and the states of a link, PORT_ROLE (R25 to R28), and edge translation (R44, R45). -/

namespace Sys2Proof.Machine

/-! ## Links in and out of service (R465) -/

/-- The links that a hub port's role and split enable (R25). -/
def State.enabledLinks (s : State) (port : BitVec 7) : List LinkId :=
  let r := (s.page .hub port).role
  if r.portRole == 0 then []
  else if r.portRoleSplit then (portLinks .hub port).filter fun l => r.portRoleSubEn.getLsbD l.sub.toNat
  else [⟨.hub, port, 0⟩]

/-- A port joins the end of the admission queue (R478). -/
def queuePort (s : State) (port : BitVec 7) : State := modHub s fun h => { h with admitQ := h.admitQ.erase port ++ [port] }

/-- The sender re-sends its unacknowledged flits when a link to their receiver has left service, or is in service again where no
other was (R402): a TSU on the link it then sends on, and a hub toward a member of the receiving pair. -/
def resendUp (s : State) (l : LinkId) : State :=
  match l.part with
  | .tsu =>
    s.tsu.up.unacked.foldl (fun s e => sendLink s s.upLink (some e.1) e.2) s
  | .hub =>
    let k := s.pairKey l
    let us := (s.upSender k).unacked
    match (s.activeLinks .hub).find? fun x => s.pairKey x == k && s.role x == s.role l with
    | some x =>
      us.foldl (fun s e => sendLink s x (some e.1) e.2)
        (modHub s fun h => { h with flt := { h.flt with dlvErrResent := satAdd h.flt.dlvErrResent us.length } })
    | none => s

/-- What the interface of a link holds for itself returns to its reset values (R507). -/
def resetCopies (s : State) (l : LinkId) : State :=
  match l.part with
  | .hub => modSh s .hub fun h => { h with ifaces := tset {} h.ifaces (Iface.port l.port).key {} }
  | .tsu => modSh s .tsu fun h => { h with ifaces := tset {} h.ifaces (if l.port = 0 then Iface.linkA else Iface.linkB).key {} }

/-- A link in service leaves ACTIVE for RETRAIN (R459, R465): what it held and its credit are gone, senders recover by R402,
and a TSU whose lead link it was looks at its other plane (R134). -/
def linkLeave (s : State) (l : LinkId) : State :=
  if !(s.link l).active then s
  else
    let s := modLink s l fun k => { k with
      regs := { k.regs with lkState := 7, lkStateNotReady := false, lkRegStatusBusy := false }
      replay := [], hold := [], credit := [0, 0, 0, 0, 0, 0], begun := [0, 0, 0, 0, 0, 0], stall := 0
      txSeq := 0, ackSeq := 0, rxSeq := 0, nakRun := 0, cont := 0
      helloSent := false }
    let s := setCause (resetCopies s l) l.part (.link l.port) 13
    match l.part with
    | .hub => updReady (resendUp (queuePort s l.port) l)
    | .tsu =>
      let lead := if s.tsu.sh.servo.regs.servoStatusLead then linkB else linkA
      let s := resendUp s l
      if l = lead then (leadMove s).2 else s

/-- LINK_LEAVE_SERVICE (R465): every lane of the link is lost. -/
def execLinkLeaveService (l : LinkId) (s : State) : Host.Outcome State Fault Refusal := .next (linkLeave s l)

/-! ## Retry (R458, R459) -/

/-- An entry of a replay buffer lies wholly before a sequence number. -/
def seqBefore (e : BitVec 12 × Option (BitVec 32) × Msg) (q : BitVec 12) : Bool :=
  decide (signedDiff (e.1 + BitVec.ofNat 12 (msgFlits e.2.2)) q ≤ 0)

/-- Flits before a sequence number are acknowledged: they leave the replay buffer, and held ones may go (R458). -/
def ackBefore (s : State) (l : LinkId) (q : BitVec 12) : State :=
  let k := s.link l
  let left := k.replay.filter fun e => !seqBefore e q
  let new := decide (0 < signedDiff q k.ackSeq) && decide (signedDiff q k.txSeq ≤ 0)
  let s := modLink s l fun k => { k with
    ackSeq := if new then q else k.ackSeq, replay := left, nakRun := if left.length < k.replay.length then 0 else k.nakRun }
  drainLink s l

/-- LACK_RECEIVE (R458): a cumulative acknowledgement. -/
def execLackReceive (l : LinkId) (m : LackP) (s : State) : Host.Outcome State Fault Refusal :=
  .next (ackBefore (heardOn s l) l (m.lseq + 1))

/-- The replay buffer leaves again in order (R458). -/
def replayAll (s : State) (l : LinkId) : State :=
  (s.link l).replay.foldl (fun s e => emitFlit s l e.1 e.2.1 e.2.2) s

/-- LNAK_RECEIVE (R458, R459): the flits from the named LSEQ are replayed; the eighth in a row that names one LSEQ takes the
link out of service. -/
def execLnakReceive (l : LinkId) (m : LnakP) (s : State) : Host.Outcome State Fault Refusal :=
  let s := ackBefore (heardOn s l) l m.lseq
  let k := s.link l
  let n := if k.nakSeq = m.lseq then k.nakRun + 1 else 1
  let s := modLink s l fun k => { k with nakSeq := m.lseq, nakRun := n }
  if 8 ≤ n then .next (linkLeave s l)
  else .next (replayAll (modLinkRegs s l fun r => { r with lkFlitRetries := satInc r.lkFlitRetries }) l)

/-- RETRY_STALL (R459): retried flits have stayed unacknowledged for 100 µs. -/
def execRetryStall (l : LinkId) (s : State) : Host.Outcome State Fault Refusal :=
  .next (if (s.link l).replay.isEmpty && (s.link l).txSeq == (s.link l).ackSeq then s else linkLeave s l)

/-- LNAK names the LSEQ expected, at most once per 200 ns (R458). -/
def sendLnak (s : State) (l : LinkId) : State :=
  let now := (s.sh l.part).tb.cycles
  let k := s.link l
  let recent := match k.nakAt with | some c => decide ((now - c).toNat < 200) | none => false
  if recent then s else sendLink (modLink s l fun k => { k with nakAt := some now }) l none (.lnak { lseq := k.rxSeq })

/-! ## Codewords and flit checks (R450 to R455) -/

/-- The link whose codewords a physical lane carries (R451): sub-port position 0 of a 4-lane port or a TSU link, and on a split
port the position whose logical lane 0 the lane carries. -/
def linkOfLane (s : State) (p : Part) (port : BitVec 7) (lane : BitVec 3) : LinkId :=
  let g := s.page p port
  if p = .hub && g.role.portRoleSplit then ⟨p, port, BitVec.ofNat 2 (g.lanes.findIdx (· == lane))⟩ else ⟨p, port, 0⟩

/-- The logical lane that a physical lane carries. -/
def logicalOf (s : State) (p : Part) (port : BitVec 7) (lane : BitVec 3) : Option Nat :=
  let n := if p = .tsu then 1 else 4
  ((s.page p port).lanes.take n).findIdx? (· == lane)

/-- Whether a flit that is no continuation holds a reserved value in a field, as `msgReserved` says of the message (R11, R13,
R332, R421, R427, R445, R457). -/
def flitReserved (f : BitVec 512) : Bool :=
  let at_ (hi w : Nat) : Nat := (f.extractLsb' (448 - hi - w) w).toNat
  let kind : Bool := decide (at_ 32 8 = 0 ∨ 8 < at_ 32 8)
  match (f.extractLsb' 504 8).toNat with
  | 0x01 => decide (5 ≤ at_ 33 3)
  | 0x05 => decide (2 ≤ at_ 0 2)
  | 0x09 => decide (at_ 8 2 = 3)
  | 0x15 => decide (at_ 145 2 = 3)
  | 0x20 => decide (at_ 69 19 = 0)
  | 0x22 => decide (at_ 65 19 = 0)
  | 0x23 => decide (at_ 37 19 = 0)
  | 0x24 => decide (at_ 37 19 = 0)
  | 0x25 => decide (2 ≤ at_ 65 2)
  | 0x28 => kind || decide (10 < at_ 53 8)
  | 0x29 => kind && at_ 16 16 != 0xFFFF
  | 0x2A => kind
  | 0x2D => decide (3 < at_ 37 3)
  | 0x33 => kind
  | 0x34 => kind
  | 0x35 => kind
  | 0x36 => decide (4 < at_ 13 3)
  | 0x70 => decide (11 < at_ 12 8)
  | _ => false

/-- Whether a flit's CHECK holds (R454). -/
def flitCheckOk (f : BitVec 512) : Bool := crc32 480 (f.toNat / 2 ^ 32) == f.extractLsb' 0 32

/-- One received slot (R454, R455, R458): a flit with a bad CHECK or a reserved TYPE is dropped and counted; a retried flit is
accepted when its LSEQ is the one expected; one whose field holds a reserved value then goes no further. The message itself is
the command that the flit stands for. -/
def takeSlot (l : LinkId) (s : State) (f : BitVec 512) : State :=
  let ty : BitVec 8 := f.extractLsb' 504 8
  if !flitCheckOk f then
    sendLnak (modLinkRegs s l fun r => { r with lkFlitCrcDrop := satInc r.lkFlitCrcDrop }) l
  else if !flitTypeKnown ty then malformedFlit s l
  else
    let k := s.link l
    let c := ty.toNat / 16
    if typeRetried ty && f.extractLsb' 488 12 != k.rxSeq then
      sendLnak (modLinkRegs s l fun r => { r with lkFlitReplayDiscard := satInc r.lkFlitReplayDiscard }) l
    else
      let s := modLink s l fun k => { k with cont := setBit k.cont c (f.getLsbD 503) }
      let s := if typeRetried ty then
          sendLink (modLink s l fun k => { k with rxSeq := k.rxSeq + 1 }) l none (.lack { lseq := k.rxSeq })
        else s
      if !k.cont.getLsbD c && flitReserved f then
        malformedFlit (match typeCls ty with | some c => returnCredit s l c 1 | none => s) l
      else s

/-- The FEC counts of a lane go through a function (R468). -/
def modFec (s : State) (p : Part) (port : BitVec 7) (lane : BitVec 3) (f : LaneFecRegs → LaneFecRegs) : State :=
  modPage s p port fun g => { g with fec := tmod {} g.fec lane.toNat f }

/-! ## The spare lane (R462 to R464) -/

/-- The unit ID of a physical lane (R382). -/
def laneUnit (port : BitVec 7) (lane : BitVec 3) : BitVec 16 := BitVec.ofNat 16 (0x3000 + 5 * port.toNat + lane.toNat)

/-- A physical lane that no remap has taken. -/
def noLane : BitVec 3 := 7

/-- A lane cannot be covered (R464): its port or sub-port leaves service. -/
def remapFail (s : State) (p : Part) (port : BitVec 7) (lane : BitVec 3) : State :=
  let l := linkOfLane s p port lane
  let s := modPage s p port fun g => { g with
    remap := none, spwReq := false, spwSel := 7, regs := { g.regs with lkRemapRemapFail := satInc g.regs.lkRemapRemapFail } }
  linkLeave (laneSpared s p 3 (laneUnit port lane) 0xFFFF) l

/-- A remap that its initiator abandons (R464): the lane cannot be covered, but one that was to be calibrated periodically keeps
its traffic, and its calibration waits (R111). -/
def remapGiveUp (s : State) (p : Part) (port : BitVec 7) (r : Remap) : State :=
  if r.cal then modPage s p port fun g => { g with remap := none, spwReq := false, spwSel := 7 }
  else remapFail s p port r.victim

/-- A port initiates the remap of a data lane (R462, R463): it drives the sideband where SPW_EN is 1 and sends REMAP_REQ. -/
def remapStart (s : State) (p : Part) (port : BitVec 7) (lane : BitVec 3) : State :=
  let g := s.page p port
  let l := linkOfLane s p port lane
  match logicalOf s p port lane with
  | none => s
  | some i =>
    if !(s.link l).active || g.remap.isSome then s
    else if g.spare == noLane then remapFail s p port lane
    else
      let id := g.remapId
      let ll : BitVec 2 := if p = .hub && g.role.portRoleSplit then 0 else BitVec.ofNat 2 i
      let spw := (s.link l).regs.lkCtrlSpwEn
      let s := modPage s p port fun g => { g with
        remapId := id + 1, remap := some { id := id, llane := BitVec.ofNat 2 i, victim := lane, initiator := true }
        spwReq := spw, spwSel := if spw then lane else 7 }
      sendLink s l none (.remapReq { id := id, llane := ll, victim := lane })

/-- A codeword of a lane that carries no logical lane: its flits go nowhere. On a hub's lane in SHADOW it is the copy of the codeword
that the lane standing for it has brought, and one that differs, or that cannot be corrected, charges the lane (R397, R400). -/
def spareWord (s : State) (p : Part) (port : BitVec 7) (lane : BitVec 3) (bad : Bool) (slots : List (BitVec 512)) : State :=
  let u := laneUnit port lane
  let r := s.unit u
  let k := unitIndex r.unitStateStandin % 5
  if p = .hub ∧ r.unitState = 3 ∧ (bad ∨ tget [] (s.page p port).words k ≠ slots) then chargeUnit s u 0xFF else s

/-- The codeword that a data lane has brought is held until its next, for the lane that copies it (R400). -/
def keepWord (s : State) (p : Part) (port : BitVec 7) (lane : BitVec 3) (slots : List (BitVec 512)) : State :=
  if p == .hub && (lanesOf p).any fun x => (s.unit (laneUnit port x)).unitState == 3 then
    modPage s p port fun g => { g with words := tset [] g.words lane.toNat slots }
  else s

/-- CODEWORD_RECEIVE (R400, R453 to R455, R462): an uncorrectable codeword loses its flits, is counted, and moves a data lane to the
spare; otherwise each slot is looked at in order. -/
def execCodewordReceive (p : Part) (port : BitVec 7) (lane : BitVec 3) (bad corrected : Bool) (slots : List (BitVec 512))
    (s : State) : Host.Outcome State Fault Refusal :=
  let l := linkOfLane s p port lane
  let carries := (logicalOf s p port lane).isSome
  let s := modFec s p port lane fun r =>
    if bad then { r with lkFecUncorrCw := satInc r.lkFecUncorrCw }
    else if corrected then { r with lkFecCorrCw := satInc r.lkFecCorrCw } else r
  if !carries then .next (spareWord s p port lane bad slots)
  else
    let s := keepWord s p port lane (if bad then [] else slots)
    .next (if bad then remapStart (sendLnak s l) p port lane else slots.foldl (takeSlot l) (heardOn s l))

/-- LANE_LOCK_LOSS (R462). -/
def execLaneLockLoss (p : Part) (port : BitVec 7) (lane : BitVec 3) (s : State) : Host.Outcome State Fault Refusal :=
  .next (remapStart (modFec s p port lane fun r => { r with lkFecLockLoss := satInc r.lkFecLockLoss }) p port lane)

/-- SER_LIMIT_EXCEEDED (R462): a limit of 0 disables. -/
def execSerLimitExceeded (p : Part) (port : BitVec 7) (lane : BitVec 3) (s : State) : Host.Outcome State Fault Refusal :=
  .next (if (s.link (linkOfLane s p port lane)).regs.lkCtrlSerLimit = 0 then s else remapStart s p port lane)

/-- A write of LK_CTRL (R468): a reserved REMAP_LANE is refused. -/
def lkCtrlWrite (i : Iface) (port : BitVec 7) (v : Word) (s : State) : Bool × State :=
  let p := i.part
  let l := s.ptLink i port
  let lane : BitVec 3 := getF v 2 3
  if 4 ≤ lane.toNat then refused s p (.link port)
  else
    let s := modLinkRegs s l fun r => r.write 0x188 v
    let s := if getB v 1 then remapStart s p port lane else s
    accept (if getB v 0 then linkLeave s l else s)

/-- REMAP_NOW (R462): a write of LK_CTRL with REMAP_NOW set. -/
def execRemapNow (i : Iface) (port : BitVec 7) (data : Word) (s : State) : Host.Outcome State Fault Refusal :=
  ackWrite i s (onLinkPage i port s (lkCtrlWrite i port (data ||| putB 1 true) s))

/-- LK_RETRAIN (R465): a write of LK_CTRL with RETRAIN set. -/
def execLkRetrain (i : Iface) (port : BitVec 7) (data : Word) (s : State) : Host.Outcome State Fault Refusal :=
  ackWrite i s (onLinkPage i port s (lkCtrlWrite i port (data ||| putB 0 true) s))

/-- Whether a part's own remap request stands over its partner's (R464): the hub's over the TSU's, and between hubs that of the
lower address. -/
def ownStands (s : State) (l : LinkId) : Bool :=
  match l.part with
  | .tsu => false
  | .hub => (s.link l).peerTsu || decide (s.hub.id.hubAddr.toNat < (s.seen l).toNat)

/-- The remap that a partner's request asks for is accepted (R463). -/
def remapAccept (s : State) (l : LinkId) (m : RemapReqP) : State :=
  let g := s.page l.part l.port
  let i := if l.part = .hub && g.role.portRoleSplit then l.sub else m.llane
  let spw := (s.link l).regs.lkCtrlSpwEn
  modPage s l.part l.port fun g => { g with
    remap := some { id := m.id, llane := i, victim := m.victim, initiator := false }
    spwReq := spw, spwSel := if spw then m.victim else 7 }

/-- REMAP_REQ_RECEIVE (R463, R464): BUSY while the spare stands in; a collision is resolved; otherwise the remap begins here. -/
def execRemapReqReceive (l : LinkId) (m : RemapReqP) (s : State) : Host.Outcome State Fault Refusal :=
  let s := heardOn s l
  let g := s.page l.part l.port
  match g.remap with
  | some r =>
    if r.initiator && !r.accepted then
      if ownStands s l then .next s
      else
        let s := sendLink s l none (.remapAck { id := r.id, result := 2 })
        let s := modPage s l.part l.port fun g => { g with
          regs := { g.regs with lkRemapCollisions := satInc g.regs.lkRemapCollisions } }
        .next (remapAccept s l m)
    else .next (sendLink s l none (.remapAck { id := m.id, result := 1 }))
  | none =>
    if g.spare == noLane then .next (sendLink s l none (.remapAck { id := m.id, result := 1 }))
    else .next (remapAccept s l m)

/-- A remap goes on (R463): the partner answers once its spare is clean and its sideband acknowledged, and the initiator, once
accepted and clean itself, names the codeword 128 ahead. -/
def remapGo (s : State) (l : LinkId) (cwc : BitVec 14) : State :=
  match (s.page l.part l.port).remap with
  | none => s
  | some r =>
    let ready := r.clean && (r.ack || !(s.link l).regs.lkCtrlSpwEn)
    if !ready || r.sent then s
    else if r.initiator then
      if r.accepted then
        let at_ := cwc + 128
        let s := modPage s l.part l.port fun g => { g with remap := some { r with sent := true, at_ := some at_ } }
        sendLink s l none (.remapAt { id := r.id, cwc := at_ })
      else s
    else
      let s := modPage s l.part l.port fun g => { g with remap := some { r with sent := true } }
      sendLink s l none (.remapAck { id := r.id, result := 0 })

/-- The link whose logical lane a port's remap moves. -/
def remapLink (s : State) (p : Part) (port : BitVec 7) : LinkId :=
  match (s.page p port).remap with
  | some r => if p = .hub && (s.page p port).role.portRoleSplit then ⟨p, port, r.llane⟩ else ⟨p, port, 0⟩
  | none => ⟨p, port, 0⟩

/-- REMAP_ACK_RECEIVE (R463, R464): ACCEPT, or the lane cannot be covered; COLLISION leaves the standing request as it is. -/
def execRemapAckReceive (l : LinkId) (m : RemapAckP) (s : State) : Host.Outcome State Fault Refusal :=
  .next (onMsg s l (.remapAck m) fun s =>
    match (s.page l.part l.port).remap with
    | some r =>
      if r.initiator && r.id == m.id then
        if m.result = 0 then
          remapGo (modPage s l.part l.port fun g => { g with remap := some { r with accepted := true } }) l (s.link l).cwc
        else if m.result = 1 then remapGiveUp s l.part l.port r
        else s
      else s
    | none => s)

/-- REMAP_AT_RECEIVE (R463): the partner holds the codeword of the switch. -/
def execRemapAtReceive (l : LinkId) (m : RemapAtP) (s : State) : Host.Outcome State Fault Refusal :=
  let s := heardOn s l
  .next (modPage s l.part l.port fun g => { g with
    remap := g.remap.map fun r => if r.id = m.id ∧ !r.initiator then { r with at_ := some m.cwc } else r })

/-- SPW_ACK_RISE (R463, R464): the module has the spare wavelength; SPW_REQ falls. -/
def execSpwAckRise (p : Part) (port : BitVec 7) (s : State) : Host.Outcome State Fault Refusal :=
  if !(s.page p port).spwReq then .next s
  else
    let s := modPage s p port fun g => { g with spwReq := false, remap := g.remap.map fun r => { r with ack := true } }
    let l := remapLink s p port
    .next (remapGo s l (s.link l).cwc)

/-- SPARE_CLEAN (R463): the spare receiver has decoded 64 codewords in step; `cwc` is the lane's present count. -/
def execSpareClean (p : Part) (port : BitVec 7) (cwc : BitVec 14) (s : State) : Host.Outcome State Fault Refusal :=
  let s := modPage s p port fun g => { g with remap := g.remap.map fun r => { r with clean := true } }
  let l := remapLink s p port
  .next (remapGo (modLink s l fun k => { k with cwc := cwc }) l cwc)

/-- REMAP_SWITCH (R114, R463): at the named codeword the logical lane moves to the spare, and the lane it left goes out for its
retraining. -/
def execRemapSwitch (p : Part) (port : BitVec 7) (cwc : BitVec 14) (s : State) : Host.Outcome State Fault Refusal :=
  let g := s.page p port
  match g.remap with
  | some r =>
    if r.at_ = some cwc then
      let l := remapLink s p port
      let spare := g.spare
      let s := modPage s p port fun g => { g with
        lanes := g.lanes.set r.llane.toNat spare, spare := noLane, remap := none, spwReq := false, spwSel := 7
        regs := { g.regs with lkStateSpareFor := r.victim, lkRemapRemaps := satInc g.regs.lkRemapRemaps } }
      let s := modLink s l fun k => { k with
        cwc := cwc, moveGen := if r.llane = 0 ∨ (p = .hub ∧ g.role.portRoleSplit) then k.moveGen + 1 else k.moveGen }
      let s := setCause (laneSpared s p 0 (laneUnit port r.victim) (laneUnit port spare)) p (.link port) 14
      let s := modLaneCal s p port r.victim startCal
      .next (match p with
        | .hub => modUnit s (laneUnit port r.victim) fun u => { u with
            unitState := if u.unitState = 4 then 4 else 2, unitStateStandin := laneUnit port spare }
        | .tsu => s)
    else .next s
  | none => .next s

/-- SPW_TIMEOUT (R464): no SPW_ACK within 100 µs; the lane cannot be covered. -/
def execSpwTimeout (p : Part) (port : BitVec 7) (s : State) : Host.Outcome State Fault Refusal :=
  let g := s.page p port
  match g.remap with
  | some r =>
    if g.spwReq && !r.ack then
      let s := modPage s p port fun g => { g with
        regs := { g.regs with lkRemapSpwTimeout := satInc g.regs.lkRemapSpwTimeout } }
      .next (if r.initiator then remapGiveUp s p port r
        else modPage s p port fun g => { g with remap := none, spwReq := false, spwSel := 7 })
    else .next s
  | none => .next s

/-! ## Credits and NOT_READY (R460, R461) -/

/-- CREDIT_RECEIVE (R460, R461, R480): credit is added, or with FULL set absolutely, which ends the partner's NOT_READY. -/
def execCreditReceive (l : LinkId) (m : CreditP) (s : State) : Host.Outcome State Fault Refusal :=
  let s := heardOn s l
  let add := credList m.cred
  .next (drainLink (modLink s l fun k =>
    if m.full then { k with credit := add, regs := { k.regs with lkStateNotReady := false } }
    else if k.regs.lkStateNotReady then { k with credit := k.credit.set 3 (k.credit.getD 3 0 + add.getD 3 0) }
    else { k with credit := (k.credit.zip add).map fun e => e.1 + e.2 }) l)

/-- NOT_READY_SEND (R461, R479): a part that is not ready says so on each link in service. -/
def execNotReadySend (p : Part) (s : State) : Host.Outcome State Fault Refusal :=
  if s.partReady p then .next s
  else
    let m : Msg := .notReady { cause := if s.valid p then 1 else 0 }
    .next ((s.activeLinks p).foldl (fun s l =>
      modLinkRegs (sendLink s l none m) l fun r => { r with lkCreditNotReadyTx := satInc r.lkCreditNotReadyTx }) s)

/-- NOT_READY_RECEIVE (R461): the credit of every credited class but MGMT is zero. -/
def execNotReadyReceive (l : LinkId) (m : NotReadyP) (s : State) : Host.Outcome State Fault Refusal :=
  .next (onMsg s l (.notReady m) fun s => modLink s l fun k => { k with
    credit := [0, 0, 0, k.credit.getD 3 0, 0, 0]
    regs := { k.regs with lkStateNotReady := true, lkCreditNotReadyRx := satInc k.regs.lkCreditNotReadyRx } })

/-! ## Training (R465, R466, R477, R478) -/

/-- Whether any of a port's enabled links waits for admission (R465, R478). -/
def portWaits (s : State) (port : BitVec 7) : Bool :=
  (s.enabledLinks port).any fun l => (s.link l).regs.lkState == 1 || (s.link l).regs.lkState == 7

/-- A port is admitted: its enabled sub-ports train together (R477). -/
def admitPort (s : State) (port : BitVec 7) : State :=
  let s := (s.enabledLinks port).foldl (fun s l => modLinkRegs s l fun r =>
    { r with lkState := if r.lkState = 1 ∨ r.lkState = 7 then 2 else r.lkState }) s
  modHub s fun h => { h with
    admitQ := h.admitQ.erase port
    mod_ := { h.mod_ with
      modStatusAdmitted := if h.mod_.modStatusAdmitted.toNat < 72 then h.mod_.modStatusAdmitted + 1 else 72 } }

/-- PORT_ADMIT (R477, R478, R516): from BOOT_DONE and with an address, up to 8 waiting ports on which signal is present are
admitted in order; when none is left the hub goes on to acquire time (R486). -/
def execPortAdmit (signal : BitVec 72) (s : State) : Host.Outcome State Fault Refusal :=
  if !s.hub.mod_.modStatusBootDone || s.hub.id.hubAddr == 0xFFFF then .next s
  else
    let s := ((s.hub.admitQ.filter fun p => signal.getLsbD p.toNat && portWaits s p).take 8).foldl admitPort s
    .next (if s.hub.admitQ.isEmpty && s.hub.mod_.modStatusPhase == 2 then
        modHub s fun h => { h with mod_ := { h.mod_ with modStatusPhase := 3 } }
      else s)

/-- LINK_SIGNAL_DETECT (R166, R465): a TSU admits its links at once, from when VERN_READY bit 0 is 1. -/
def execLinkSignalDetect (l : LinkId) (s : State) : Host.Outcome State Fault Refusal :=
  .next (if l.part = .tsu ∧ !s.tsu.inReset ∧ s.tsu.sh.vern.regs.vernReady.getLsbD 0 then
      modLinkRegs s l fun r => { r with lkState := if r.lkState = 1 ∨ r.lkState = 7 then 2 else r.lkState }
    else s)

/-- The place of a physical lane's settings in its part's table. -/
def phyKey (port : BitVec 7) (lane : BitVec 3) : Nat := 8 * port.toNat + lane.toNat

/-- Training has reached settings for a physical lane (R448, R522): they are free values. -/
def trainLane (p : Part) (port : BitVec 7) (s : State) (lane : BitVec 3) : State :=
  let v := Config.phySettings s.free
  modSh s.fresh.2 p fun h => { h with phy := tmod {} h.phy (phyKey port lane) fun r => { r with
    phyTxeqPre2 := v.extractLsb' 40 8, phyTxeqPre1 := v.extractLsb' 32 8, phyTxeqMain := v.extractLsb' 24 8
    phyTxeqPost1 := v.extractLsb' 16 8, phyRxeqCtle := v.extractLsb' 8 8, phyRxeqVga := v.extractLsb' 0 8 } }

/-- TRAIN_COMPLETE (R451, R465, R522): every lane is trained; the logical lanes take their physical lanes. -/
def execTrainComplete (l : LinkId) (s : State) : Host.Outcome State Fault Refusal :=
  if (s.link l).regs.lkState = 2 then
    let split := l.part = .hub ∧ (s.page .hub l.port).role.portRoleSplit
    let i := if split then l.sub.toNat else 0
    let moved := decide ((s.page l.part l.port).lanes.getD i noLane ≠ BitVec.ofNat 3 i)
    let s := modLink s l fun k => { k with
      regs := { k.regs with lkState := 3 }, moveGen := if moved then k.moveGen + 1 else k.moveGen }
    let lanes := if split then [l.sub.setWidth 3, 4] else lanesOf l.part
    let s := lanes.foldl (trainLane l.part l.port) s
    .next (modPage s l.part l.port fun g =>
      match l.part with
      | .hub =>
        if g.role.portRoleSplit then
          { g with lanes := g.lanes.set l.sub.toNat (l.sub.setWidth 3), spare := if g.lanes.contains 4 then g.spare else 4 }
        else { g with lanes := [0, 1, 2, 3], spare := 4, regs := { g.regs with lkStateSpareFor := 7 } }
      | .tsu => { g with lanes := [0, 0, 0, 0], spare := 1, regs := { g.regs with lkStateSpareFor := 7 } })
  else .next s

/-- TRAIN_TIMEOUT (R465, R478): back to DETECT, counted, and at the end of the admission queue. -/
def execTrainTimeout (l : LinkId) (s : State) : Host.Outcome State Fault Refusal :=
  if (s.link l).regs.lkState = 2 then
    let s := modLinkRegs s l fun r => { r with lkState := 1, lkStateRetrains := satInc r.lkStateRetrains }
    .next (match l.part with
      | .hub => queuePort s l.port
      | .tsu => s)
  else .next s

/-- The lanes that a link's start-up calibrates (R111): those that carry it, and the port's spare while that carries nothing. -/
def startLanes (s : State) (l : LinkId) : List (BitVec 3) :=
  (lanesOf l.part).filter fun x =>
    if (logicalOf s l.part l.port x).isSome then linkOfLane s l.part l.port x == l else (s.page l.part l.port).spare == x

/-- ALIGN_COMPLETE (R111, R465): the link goes on to calibrate its lanes. -/
def execAlignComplete (l : LinkId) (s : State) : Host.Outcome State Fault Refusal :=
  if (s.link l).regs.lkState = 3 then
    let s := modLinkRegs s l fun r => { r with lkState := 4 }
    .next ((startLanes s l).foldl (fun s lane => modLaneCal s l.part l.port lane startCal) s)
  else .next s

/-- The version that two ends negotiate, when it is valid (R466). -/
def negotiated (s : State) (l : LinkId) (m : HelloP) : Option (BitVec 8) :=
  let ver : BitVec 8 := if l.part = .tsu then 4 else s.hub.id.linkVersionVer
  let verMin : BitVec 8 := if l.part = .tsu then 3 else s.hub.id.linkVersionVerMin
  let v := if m.ver.toNat < ver.toNat then m.ver else ver
  if verMin.toNat ≤ v.toNat ∧ m.verMin.toNat ≤ v.toNat then some v else none

/-- Whether the roles of two ends fit (R466). -/
def rolesFit (s : State) (l : LinkId) (m : HelloP) : Bool :=
  match l.part with
  | .tsu => !m.kind && m.role == 1
  | .hub =>
    match (s.role l).toNat with
    | 1 => m.kind || m.role == 2
    | 2 => !m.kind && m.role == 1
    | 3 => !m.kind && m.role == 3
    | 4 => !m.kind && m.role == 4
    | _ => false

/-- A TSU takes its endpoint from a HELLO (R30, R32, R466): it keeps link A's, and where the two links' differ, link B stays out of
service. EP_CONFLICT and the hold of link B then last until the TSU is reset, whatever a later HELLO says (log 61, DESIGN CHOICE:
the rule does not say when the conflict ends). -/
def takeEndpoint (s : State) (l : LinkId) (m : HelloP) : Bool × State :=
  let e := m.ep &&& 0xFFFFC0
  let s := modTsu s fun t => if l = linkA then { t with epA := some e } else { t with epB := some e }
  let differ := match s.tsu.epA, s.tsu.epB with | some a, some b => a != b | _, _ => false
  let new := differ && !s.tsu.root.endpointEpConflict
  let s := modTsu s fun t => { t with
    epReport := t.epReport || new
    root := { t.root with
      endpointEpValid := true, endpointEp := t.epA.getD e, endpointEpConflict := t.root.endpointEpConflict || new } }
  if s.tsu.root.endpointEpConflict then (decide (l = linkA), linkLeave s linkB) else (true, s)

/-- An endpoint conflict is reported upward on link A once that is in service (R30). A die that holds no job gives job 0, epoch 0
and step 0 in the report (log 61, DESIGN CHOICE: the rule does not name these fields). -/
def tellConflict (s : State) : State :=
  if s.tsu.epReport && (s.link linkA).active then
    let j := s.tsu.txnt
    sendLink (modTsu s fun t => { t with epReport := false }) linkA none (.report {
      job := j.ttJob, epoch := j.ttJobEpoch, step := s.tsu.step.stepNow.setWidth 24, kind := 3, detail := 0 })
  else s

/-- A hub learns its neighbour from a HELLO (R25, R27): one that differs from EXPECT_HUB takes the port, with every sub-port of it,
out of service until the port is configured anew. -/
def takeNeighbour (s : State) (l : LinkId) (m : HelloP) : Bool × State :=
  let e := (s.page .hub l.port).role.portRoleExpectHub
  let bad := e != 0xFFFF && m.addr != e
  let s := modPage s .hub l.port fun g => { g with role := { g.role with
    portRoleSeenHub := m.addr, portRoleCableMismatch := g.role.portRoleCableMismatch || bad } }
  if (s.page .hub l.port).role.portRoleCableMismatch then (false, (portLinks .hub l.port).foldl linkLeave s) else (true, s)

/-- Whether no link of a sender toward the pair of a link is in service (R402). -/
def cutOff (s : State) (l : LinkId) : Bool :=
  match l.part with
  | .tsu => (s.activeLinks .tsu).isEmpty
  | .hub => (s.activeLinks .hub).all fun x => s.pairKey x != s.pairKey l || s.role x != s.role l

/-- HELLO_RECEIVE (R27, R30, R460, R466): with a valid version and fitting roles the link is ACTIVE under the credit granted. Its
delay filter starts anew, and no restart is counted. DESIGN CHOICE for that: log entry 69. -/
def execHelloReceive (l : LinkId) (m : HelloP) (s : State) : Host.Outcome State Fault Refusal :=
  let s := heardOn s l
  if (s.link l).regs.lkState != 5 then .next s
  else match negotiated s l m, rolesFit s l m with
    | some v, true =>
      let (ok, s) := match l.part with | .tsu => takeEndpoint s l m | .hub => takeNeighbour s l m
      if !ok then .next (tellConflict s)
      else
        let s := modLink s l fun k => { k with credit := credList m.cred, peerTsu := m.kind, peer := m.addr, peerVer := m.ver }
        let again := cutOff s l
        let s := modLink s l fun k => { k with
          regs := { k.regs with lkState := 6, lkStateVersion := v, ptDelaySettled := false }, dcount := 0, dsum := 0, gateDrops := 0 }
        let s := setCause s l.part (.link l.port) 12
        let s := if again then resendUp s l else s
        .next (match l.part with | .hub => updReady (unstrand s) | .tsu => tellConflict s)
    | _, _ => .next (modLinkRegs s l fun r => { r with lkFlitMalformed := satInc r.lkFlitMalformed })

/-! ## PORT_ROLE (R25 to R28) -/

/-- A port takes a PORT_ROLE (R25, R26, R478): links that it no longer enables are DISABLED, those it enables begin in DETECT,
and a port that leaves OFF joins the end of the admission queue. -/
def setPortRole (s : State) (port : BitVec 7) (v : Word) : State :=
  let s := (s.enabledLinks port).foldl (fun s l =>
    modLink (linkLeave s l) l fun k => { k with peer := 0xFFFF, lastRx := none, regs := { k.regs with lkState := 0 } }) s
  let s := modPage s .hub port fun g => { g with
    role := { g.role.write 0x040 v with portRoleCableMismatch := false, portRoleSeenHub := 0xFFFF } }
  let s := (s.enabledLinks port).foldl (fun s l => modLinkRegs s l fun r => { r with lkState := 1 }) s
  if (s.page .hub port).role.portRole = 0 then modHub s fun h => { h with admitQ := h.admitQ.erase port } else queuePort s port

/-- A write of PORT_ROLE (R13, R26): a change is accepted only while ROLE reads OFF, and a reserved ROLE never. -/
def portRoleWrite (i : Iface) (port : BitVec 7) (v : Word) (s : State) : Bool × State :=
  let r := (s.page .hub port).role
  if i.part = .tsu then refused s .tsu .root
  else if 5 ≤ (getF v 0 3 : BitVec 3).toNat then refused s .hub (.link port)
  else if r.write 0x040 v = r then accept s
  else if r.portRole = 0 then accept (setPortRole s port v)
  else refused s .hub (.link port)

/-- PORT_ROLE_WRITE (R26). -/
def execPortRoleWrite (i : Iface) (port : BitVec 7) (data : Word) (s : State) : Host.Outcome State Fault Refusal :=
  ackWrite i s (onLinkPage i port s (portRoleWrite i port data s))

/-! ## Edge translation (R44, R45, R47) -/

/-- The cache of the edge translation sees a rank (R44, R520): a miss is counted and the entry enters, in place of another when
all 16,384 are in use. -/
def cacheRank (s : State) (j : BitVec 12) (r : BitVec 20) : State :=
  if s.hub.xlCache.contains (j, r) then s
  else
    let s := modHub s fun h => { h with xlat := { h.xlat with xlCountMisses := satInc h.xlat.xlCountMisses } }
    if s.hub.xlCache.length < 16384 then modHub s fun h => { h with xlCache := h.xlCache ++ [(j, r)] }
    else
      let (n, s) := s.fresh
      modHub s fun h => { h with xlCache := h.xlCache.eraseIdx (Config.cacheVictim n % 16384) ++ [(j, r)] }

/-- A signal at a hub (R44, R45, R47): a leaf hub translates the rank; one at or above the membership, or that the table does
not hold, is refused, and one from or to a fenced endpoint is rejected. -/
def signalRoute (l : LinkId) (m : SignalP) (s : State) : State :=
  match m.dest with
  | .endpoint e => if s.serves e && s.isFenced m.job e then rejectFenced s m.job e else signalOn s l m e
  | .rank r =>
    match hubJobOk s m.job m.epoch .xlat with
    | (false, s) =>
      if (s.job m.job).regs.jobStatusState == 5 || (s.job m.job).regs.jobStatusState == 6 then s
      else rejectFenced s m.job (s.epOf l)
    | (true, s) =>
      if s.isFenced m.job (s.epOf l) then rejectFenced s m.job (s.epOf l)
      else if (s.job m.job).members.toNat ≤ r.toNat then refuseXlat s m.job
      else match s.rankEp m.job r with
        | none => refuseXlat s m.job
        | some e =>
          let s := cacheRank s m.job r
          if s.serves e && s.isFenced m.job e then rejectFenced s m.job e else signalOn s l m e

/-- EDGE_TRANSLATE (R44): a signal reaches a hub. -/
def execEdgeTranslate (l : LinkId) (sender : BitVec 32) (dsn : Option (BitVec 32)) (m : SignalP) (s : State) :
    Host.Outcome State Fault Refusal :=
  .next (onUp s l sender dsn (.signal m) (signalRoute l m))

end Sys2Proof.Machine
end

