-- ==== Sys2Proof/Machine/LaneCal.lean ====
section
/-! DEFINITION. Loop-fold calibration of lanes (R111 to R113): when a lane is calibrated, how one that carries traffic is freed for it,
and what a calibration's end does. -/

namespace Sys2Proof.Machine

/-- Whether a physical lane carries a link's flits: it is calibrated only while it does not (R111). -/
def inTraffic (s : State) (p : Part) (port : BitVec 7) (lane : BitVec 3) : Bool :=
  (logicalOf s p port lane).isSome &&
    ((s.link (linkOfLane s p port lane)).active || (s.link (linkOfLane s p port lane)).regs.lkState == 5)

/-- The next lane of a port that carries traffic and is to be calibrated moves to the spare, when a remap can begin: the spare
stands by, is not being calibrated itself, and no other remap runs (R111, R462). -/
def calNext (s : State) (p : Part) (port : BitVec 7) : State :=
  let g := s.page p port
  if g.remap.isSome || g.spare == noLane || (s.laneCal p port g.spare).busy then s
  else match (lanesOf p).find? fun x => (s.laneCal p port x).want && inTraffic s p port x with
    | some lane =>
      modPage (remapStart s p port lane) p port fun g => { g with remap := g.remap.map fun r => { r with cal := true } }
    | none => s

/-- A lane is to be calibrated (R111): at once while it carries no traffic, otherwise once the spare can stand in for it. -/
def calibrateLane (s : State) (p : Part) (port : BitVec 7) (lane : BitVec 3) : State :=
  if (s.laneCal p port lane).busy then s
  else if inTraffic s p port lane then modLaneCal s p port lane fun c => { c with want := true }
  else modLaneCal s p port lane startCal

/-- A write of PT_CTRL (R121): reserved FILT and RATE_EXP values are refused; CAL_NOW calibrates every lane of the port (R111). -/
def ptCtrlWrite (i : Iface) (port : BitVec 7) (v : Word) (s : State) : Bool × State :=
  let p := i.part
  if (getF v 8 4).toNat > 8 ∨ (getF v 4 4).toNat < 8 then refused s p (.link port)
  else
    let s := modLinkRegs s (s.ptLink i port) fun r => r.write 0x108 v
    accept (if getB v 15 then calNext ((lanesOf p).foldl (fun s x => calibrateLane s p port x) s) p port else s)

/-- PT_CAL_NOW (R111): a write of PT_CTRL with CAL_NOW set. -/
def execPtCalNow (i : Iface) (port : BitVec 7) (data : Word) (s : State) : Host.Outcome State Fault Refusal :=
  ackWrite i s (onLinkPage i port s (ptCtrlWrite i port (data ||| putB 15 true) s))

/-- LANE_CAL_PERIOD (R111, R462): the periodic timer has run for the next lane of a port whose CAL_PERIOD_S is not 0; the lane waits
for the spare where it carries traffic. -/
def execLaneCalPeriod (p : Part) (port : BitVec 7) (s : State) : Host.Outcome State Fault Refusal :=
  let g := s.page p port
  let due := (lanesOf p).filter fun x => (s.link (calSub s p port x)).regs.ptCtrlCalPeriodS != 0
  match (due.find? fun x => decide (g.nextCal.toNat ≤ x.toNat)).or due.head? with
  | some lane =>
    .next (calNext (calibrateLane (modPage s p port fun g => { g with nextCal := lane + 1 }) p port lane) p port)
  | none => .next s

/-- Links whose start-up calibration has ended go from CAL to IDENT and send HELLO (R465, R466). -/
def leaveCal (s : State) (p : Part) (port : BitVec 7) : State :=
  (portLinks p port).foldl (fun s l =>
    if (s.link l).regs.lkState == 4 && (startLanes s l).all fun x => !(s.laneCal p port x).busy then
      sendHello (modLinkRegs s l fun r => { r with lkState := 5 }) l
    else s) s

/-- The mean and the deviation of a calibration's samples (R91). -/
def CalSum.figures (c : CalSum) : Int × Nat :=
  let r := setResults c.n c.s1 c.sumY c.sumY2 0 0
  (r.1, r.2.1)

/-- A lane that a remap has replaced has passed its calibration: it serves through SHADOW (R400, R464). -/
def laneShadow (s : State) (u : BitVec 16) : State :=
  modUnit s u fun r => if r.unitState = 2 then { r with unitState := 3, unitStateShadowSteps := 0 } else r

/-- LANE_CAL_DONE (R91, R112, R113, R400, R464): a lane's calibration ends once 1,024 markers have given their samples. It passes when
the means lie within 2.000 ns of the nominal values and both deviations are at most 8 ps. The command names the figures that the
calibration ends on; the block computes them from the samples, and no calibration ends on others (log entry 63). -/
def execLaneCalDone (p : Part) (port : BitVec 7) (lane : BitVec 3) (txCal rxCal : Int) (txDev rxDev : Nat) (s : State) :
    Host.Outcome State Fault Refusal :=
  let c := s.laneCal p port lane
  if !c.busy || decide (c.tx.n < 1024) || c.tx.figures != (txCal, txDev) || c.rx.figures != (rxCal, rxDev) then .next s
  else
    let (nt, nr) := nominalCal s p port
    let pass := decide ((txCal - nt).natAbs ≤ 131072 ∧ (rxCal - nr).natAbs ≤ 131072 ∧
      txDev * 1000 ≤ 524288 ∧ rxDev * 1000 ≤ 524288)
    let s := match p with
      | .hub => if pass then laneShadow s (laneUnit port lane) else s
      | .tsu => modPage s .tsu port fun g =>
        if pass ∧ g.spare = 7 ∧ !g.lanes.contains lane then
          { g with spare := lane, regs := { g.regs with lkStateSpareFor := 7 } }
        else g
    let l := calSub s p port lane
    let s := setCause s p (.link port) 10
    let s := modLaneCal s p port lane fun c => { c with busy := false, passed := pass, word := [] }
    let s := if pass then
        modLinkRegs (modLaneCal s p port lane fun c => { c with txCal := txCal, rxCal := rxCal, have_ := true }) l
          fun r => { r with ptCalStatusCalCount := satInc r.ptCalStatusCalCount }
      else
        timeFault (setCause (modLinkRegs s l fun r => { r with ptCalStatusCalFail := true }) p (.link port) 11) p 1
          [(8, port.toNat), (8, lane.toNat)]
    .next (calNext (leaveCal s p port) p port)

/-- SHADOW_END (R400): where the unit is a link lane, it is its port's spare again, and a lane that waits for the spare to be
calibrated moves to it (R111). -/
def execShadowEnd (unit : BitVec 16) (s : State) : Host.Outcome State Fault Refusal :=
  let s := shadowEnd s unit
  .next (if unitClass unit = 3 then calNext s .hub (BitVec.ofNat 7 (unitIndex unit / 5)) else s)

end Sys2Proof.Machine
end

