-- ==== Sys2Proof/Machine/Apply.lean ====
section
/-! DEFINITION. A transaction takes effect at its commit tick (R227, R409, R415, R430, R435 to R440), on a hub and on the TSU. -/

namespace Sys2Proof.Machine

/-! ## Reports (R430, R432) -/

/-- The coordinator counts a target's report; with the last the lock is free and the transaction is DONE (R432). A TEARDOWN
counts DRAINED only. -/
def countReport (s : State) (tid : BitVec 16) (drained : Bool) : State :=
  let x := s.txn tid
  if x.regs.txnStatusPhase != 3 || (x.regs.txnStatusKind == 7) != drained then s
  else
    let s := modTxn s tid fun x => { x with reports := x.reports + 1 }
    if x.reports + 1 < x.hubs.length + x.eps.length then s
    else
      finishTxn (setCause (modTxn s tid fun x => { x with regs := { x.regs with txnStatusPhase := 4 } }) .hub .txn 0) tid

/-- A hub reports DONE or DRAINED to the coordinator (R430, R440). -/
def hubReport (s : State) (g : Staged) (drained : Bool) : State :=
  if g.coord = s.hub.id.hubAddr then countReport s g.tid drained
  else sendHub s (g.partition.setWidth 12) g.coord
    (if drained then .drained { coord := g.coord, tid := g.tid, kind := g.kind, partition := g.partition }
     else .done { coord := g.coord, tid := g.tid, kind := g.kind, partition := g.partition })

/-- The TSU reports DONE or DRAINED (R430, R440). -/
def tsuDone (s : State) (g : Staged) (drained : Bool) : State :=
  tsuSend s (if drained then .drained { coord := g.coord, tid := g.tid, kind := g.kind, partition := g.partition }
    else .done { coord := g.coord, tid := g.tid, kind := g.kind, partition := g.partition })

/-! ## The actions on a hub (R423) -/

/-- A barrier is installed (R218): its entry on the two members of its home pair (R216), where the one in the plane of the job's lead
leads (log 66, DESIGN CHOICE: no action names the lead of a pair other than the job's). -/
def addBarrier (s : State) (j : BitVec 12) (p : List (BitVec 8)) : State :=
  let own := s.hub.id.hubAddr
  let o := actNo p
  let grp := ((barrierHubs p).find? fun h => h.1 == own).map fun h => h.2
  let here := (barrierHomes s j [] (s.job j).lead (s.job j).other p).contains own
  modJob s j fun b => { b with
    objGroup := tset none b.objGroup o grp
    arrivals := b.arrivals.filter fun a => a.1 % 65536 != o
    lastRel := tset none b.lastRel o none
    barriers := if here then
        tset none b.barriers o (some {
          regs := { shCfgTimed := bytesAt p 2 2 % 2 == 1, shCfgPart := BitVec.ofNat 19 (bytesAt p 4 4 + 1)
                    shCfgGroup := grp.getD 0 }
          parts := barrierParts p })
      else b.barriers }

/-- A barrier is deleted (R218). -/
def dropBarrier (s : State) (j : BitVec 12) (o : Nat) : State :=
  modJob s j fun b => { b with
    objGroup := tset none b.objGroup o none, barriers := tset none b.barriers o none
    arrivals := b.arrivals.filter fun a => a.1 % 65536 != o }

/-- A context is installed (R304). -/
def addCtx (s : State) (j : BitVec 12) (p : List (BitVec 8)) : State :=
  modCtx s j (BitVec.ofNat 12 (actNo p)) fun x => {
    regs := { x.regs with spCfg := ctxCfg p, spK := ctxK p }, parts := expandRanges (ctxRanges p) }

/-- A context is removed. -/
def dropCtx (s : State) (j : BitVec 12) (c : Nat) : State :=
  modCtx s j (BitVec.ofNat 12 c) fun x => { regs := { x.regs with spCfg := 0, spK := 0 } }

/-- A plan of 256 words as a table. -/
def planTable (p : List (BitVec 8)) : Tbl Word :=
  ((planWords p).zip (List.range 256)).foldl (fun t e => tset 0 t e.2 e.1) []

/-- An endpoint is fenced for a job on this hub (R47, R407, R409). -/
def fenceEp (b : HubJob) (legal : Bool) (e : BitVec 24) : HubJob :=
  { b with
    fenced := if b.fenced.contains e then b.fenced else b.fenced ++ [e]
    fence := if legal then setBit b.fence (epSlot e).toNat true else b.fence }

/-- Whether a leaf hub's fence mask has a bit for an endpoint: one that the hub serves, on a sub-port that its port has (R530). -/
def State.fenceBit (s : State) (e : BitVec 24) : Bool := s.serves e && s.bitLegal (epSlot e).toNat

/-- An endpoint's fence ends: the die is a member again (R47, R410). -/
def unfence (s : State) (j : BitVec 12) (e : BitVec 24) : State :=
  let served := s.fenceBit e
  modHub (modJob s j fun b => { b with
    fenced := b.fenced.filter fun x => x != e
    fence := if served then setBit b.fence (epSlot e).toNat false else b.fence })
    fun h => { h with declared := h.declared.filter fun x => x != e }

/-- The hubs that a spare takes into the span of a job with this lead, where they are not yet in it (R529). -/
def joinsOf (lead : BitVec 16) (e : BitVec 24) : List (BitVec 16) :=
  match tierOf lead with
  | 0 => []
  | 1 => [leafOf false e, leafOf true e]
  | _ => [leafOf false e, leafOf true e, rowOf false e, rowOf true e]

/-- A rank's lateness statistics begin anew; LT_CFG stays (R269). -/
def lateAnew (x : LateSt) : LateSt := { regs := { ltCfgThreshNs := x.regs.ltCfgThreshNs, ltCfgK := x.regs.ltCfgK } }

/-- A rank moves to a spare, which may take hubs into the span (R44, R46, R47, R410, R529). -/
def remapRank (s : State) (j : BitVec 12) (r : BitVec 20) (e : BitVec 24) : State :=
  let old := s.rankEp j r
  let s := match old with
    | some o => let bit := s.fenceBit o; modJob s j fun b => fenceEp b bit o
    | none => s
  let s := modJob s j fun b => { b with
    spanSet := dedup (b.spanSet ++ joinsOf b.lead e)
    ranks := tset none b.ranks r.toNat (some e), late := tmod {} b.late r.toNat lateAnew, detect := tset {} b.detect r.toNat {} }
  unfence (modHub s fun h => { h with xlCache := h.xlCache.filter fun x => x != (j, r) }) j e

/-- The parameters of an ADMIT on a hub (R424); a share without JOB_PARAMS leaves them at their reset values, and its coordinator
is the lead of the home pair (R419). -/
def admitJob (b : HubJob) (own : BitVec 16) (g : Staged) : HubJob :=
  let base : HubJob := {
    regs := { jobStatusState := 1, jobStatusLastTid := g.tid }
    seq := { b.seq with mapRun := 0, next := none } }
  match paramsOf g.share with
  | some q => { base with
      flt := { detCfgArrTimeoutUs := q.arrTimeout }
      steph := { sthPeriodPMinNs := BitVec.ofNat 32 q.pMin, sthPeriodPeriodNs := BitVec.ofNat 32 q.period
                 sthGapGuardNs := BitVec.ofNat 32 q.guard, sthGapMinGapNs := BitVec.ofNat 32 q.minGap
                 sthCatchupCatchupMax := q.catchupMax }
      digh := { dgJobOnMismatch := q.onMismatch, dgJobProvCount := BitVec.ofNat 24 q.provCount
                dgJobProvBase := BitVec.ofNat 23 q.provBase }
      deth := { dhJobMode := q.mode, dhJobUnitmapIndep := q.unitmapIndep, dhJobEnvStrict := q.envStrict, dhSeed := q.seed }
      members := BitVec.ofNat 19 q.members, lead := q.lead, other := q.other, leads := planeOf q.lead == planeOf own
      spanSet := dedup (spanHubs ((ranksOf g.share).map fun x => x.2) q.lead q.other), stepObj := q.stepObj
      defTimeout := q.defTimeout, peakCtx := BitVec.ofNat 16 q.peakCtx, peakSlots := BitVec.ofNat 32 q.peakSlots
      releaseLead := BitVec.ofNat 32 q.releaseLead }
  | none => { base with
      lead := g.coord, other := twinOf g.coord, leads := planeOf g.coord == planeOf own
      spanSet := dedup (spanHubs ((ranksOf g.share).map fun x => x.2) g.coord (twinOf g.coord)) }

/-- An ADMIT on a hub (R435): the job's partition with its reservation, on the program that is loaded; the home clears the
window of the weight-provenance register (R347). -/
def admitHub (s : State) (j : BitVec 12) (g : Staged) : State :=
  let own := s.hub.id.hubAddr
  let s := modJob s j fun b => admitJob b own g
  match paramsOf g.share with
  | some q =>
    if s.isHome j then
      modHub s fun h => { h with
        prov := h.prov.filter fun e => !(decide (q.provBase ≤ e.1) && decide (e.1 < q.provBase + q.provCount)) }
    else s
  | none => s

/-- The membership on a hub that joins: the rank table of the share tells it, and else it is open. -/
def joinMembers (share : List (BitVec 8)) (v : BitVec 19) : BitVec 19 :=
  if (ranksOf share).isEmpty then v else BitVec.ofNat 19 ((ranksOf share).foldl (fun n x => max n (x.1 + 1)) 0)

/-- A part of the span that joins by a remap installs the job's partition, PAUSED (R46, R529). The parameters that no action of the
transaction carries are free values (log 45). -/
def joinHub (s : State) (j : BitVec 12) (g : Staged) : State :=
  let (n, s) := s.fresh
  let v := Config.joinHubPart n
  let own := s.hub.id.hubAddr
  modJob s j fun b => {
    regs := { jobStatusState := 4, jobStatusEpoch := Config.joinEpoch n == 0 }
    flt := { detCfgArrTimeoutUs := v.extractLsb' 115 32 }
    members := joinMembers g.share (v.extractLsb' 0 19), peakCtx := v.extractLsb' 19 16, peakSlots := v.extractLsb' 35 32
    stepObj := v.extractLsb' 67 16, defTimeout := v.extractLsb' 83 32, releaseLead := v.extractLsb' 147 32
    lead := g.coord, other := twinOf g.coord, leads := planeOf g.coord == planeOf own
    spanSet := dedup (spanHubs ((ranksOf g.share).map fun x => x.2) g.coord (twinOf g.coord)), seq := b.seq }

/-- The LAUNCH action at a hub (R436): the step before the first, and at the home the cadence and the first launch. -/
def launchHub (s : State) (j : BitVec 12) (a : LaunchAct) : State :=
  let home := s.isHome j
  modJob s j fun b =>
    let b := keepLaunch { b with
      step := if a.first = 0 then 0 else a.first - 1, tsuDigest := a.tsuDigest
      regs := { b.regs with jobStatusState := 2 } } {
      step := a.first, tick := a.l0, late := false, rebased := false, released := false }
    if home then
      { b with
        nextLaunch := some { tick := a.l0, step := a.first, first := true }
        steph := { b.steph with
          sthPlan := BitVec.ofInt 64 (a.l0.toNat - a.first.toNat * b.steph.sthPeriodPeriodNs.toNat - a.lag.toInt)
          sthLast := a.l0, sthCatchupCount := a.catchup, sthLagLate := false, sthLagRebased := false
          sthLagLagNs := satNat 40 a.lag.toNat } }
    else b

/-- One action of a job's transaction on a hub (R423), other than JOB_PARAMS and FENCE. -/
def hubAction (j : BitVec 12) (s : State) (a : Act) : State :=
  let p := a.2.2
  match a.1 with
  | 0x0002 => (ranksAct p).foldl (fun s e => modJob s j fun b => { b with ranks := tset none b.ranks e.1 (some e.2) }) s
  | 0x0003 => addBarrier s j p
  | 0x0004 => dropBarrier s j (actNo p)
  | 0x0005 => addCtx s j p
  | 0x0006 => dropCtx s j (actNo p)
  | 0x0007 => modJob s j fun b => { b with
      plan := planTable p, digh := { b.digh with dgJobOnMismatch := bytesAt p 2048 1 % 2 == 1 } }
  | 0x0008 => modHub s fun h => { h with groups := tset {} h.groups (actNo p) { owner := some j, mask := groupMask p } }
  | 0x0009 => modJob s j fun b => { b with
      weights := BitVec.ofNat 384 (bytesAt p 0 48), inputs := BitVec.ofNat 384 (bytesAt p 48 48)
      expect := BitVec.ofNat 384 (bytesAt p 96 48) }
  | 0x000A =>
    let f := bytesAt p 8 1
    modJob s j fun b => { b with deth := { b.deth with
      dhSeed := BitVec.ofNat 64 (bytesAt p 0 8), dhJobMode := BitVec.ofNat 2 f, dhJobUnitmapIndep := f.testBit 2
      dhJobEnvStrict := f.testBit 3 } }
  | 0x000C => remapRank s j (BitVec.ofNat 20 (bytesAt p 0 4)) (endpointOf (bytesAt p 4 4))
  | _ => s

/-! ## A fence (R227, R409) -/

/-- PART of a context descriptor goes down by `n`, and not below its lowest value. -/
def lowerPart (cfg : Word) (n : Nat) : Word :=
  let p := cPart cfg - 1 - n
  (cfg &&& ~~~(0x3FFFF#64 <<< 18)) ||| (BitVec.ofNat 64 p <<< 18)

/-- A barrier after a fence: P and, at the lead, COUNT with it (R227, steps 1 and 2). -/
def fenceBarrier (lead : Bool) (ranks : List (BitVec 20)) (arrived : List (BitVec 20 × BitVec 16)) (o : Nat) (x : Barrier) :
    Barrier :=
  let out := x.parts.filter fun y => ranks.contains y.1
  let came := if lead then (out.filter fun y => arrived.any fun v => v.1 == y.1 && v.2.toNat == o).length else 0
  { regs := { x.regs with
      shCfgPart := x.regs.shCfgPart - BitVec.ofNat 19 out.length
      shCount := BitVec.ofNat 19 (x.regs.shCount.toNat - came) }
    parts := x.parts.filter fun y => !ranks.contains y.1 }

/-- A context after a fence: PART and the list without the fenced ranks, and its buffers complete where they now are
(R409, step 3). -/
def fenceCtx (ranks : List (BitVec 20)) (x : HubCtx) : HubCtx :=
  let n := (x.parts.filter fun r => ranks.contains r).length
  if n = 0 then x
  else
    let cfg := lowerPart x.regs.spCfg n
    { x with
      regs := { x.regs with spCfg := cfg }, parts := x.parts.filter fun r => !ranks.contains r
      a := settle cfg x.a, b := settle cfg x.b }

/-- The buffers in state OPEN, COMPLETE or FINISHED of the contexts that name a fenced die and hold a contribution of it. -/
def tainted (b : HubJob) (ranks : List (BitVec 20)) (passed : List (BitVec 20 × BitVec 12 × BitVec 64)) :
    List (Nat × BitVec 64) :=
  b.ctxs.flatMap fun e =>
    if e.2.parts.any fun r => ranks.contains r then
      [e.2.a, e.2.b].filterMap fun q =>
        if (1 ≤ q.state.toNat ∧ q.state.toNat ≤ 3) ∧
            (passed.any fun v => ranks.contains v.1 && v.2.1.toNat == e.1 && v.2.2 == q.step) then some (e.1, q.step)
        else none
    else []

/-- EV_FENCED with SUB 2 (R409, step 5). -/
def fencedEv (p : Part) (j : BitVec 12) (s : State) (e : BitVec 24) : State :=
  match p with
  | .hub =>
    let r : BitVec 32 := match s.epRank j e with | some r => r.setWidth 32 | none => 0xFFFFFFFF
    raise s .hub (jobEv s j 0x0020 2 1 r (s.job j).step [(32, e.toNat)])
  | .tsu => raise s .tsu (tsuEv s 0x0020 2 1 [(32, e.toNat)])

/-- A barrier is released when a fence has left it with COUNT equal to P (R227, step 4). -/
def fenceRelease (j : BitVec 12) (s : State) (o : BitVec 16) : State :=
  match s.barrier j o with
  | some x => if x.regs.shCount = x.regs.shCfgPart ∧ 0 < x.regs.shCfgPart.toNat then releaseBarrier s j o else s
  | none => s

/-- A FENCE on a hub (R227, R409): the fence mask, the barriers, the contexts, the events, and what the lead of the barriers then
releases and the job's lead poisons or pauses. -/
def fenceHub (s : State) (j : BitVec 12) (eps : List (BitVec 24)) (arrived : List (BitVec 20 × BitVec 16))
    (passed : List (BitVec 20 × BitVec 12 × BitVec 64)) : State :=
  let ranks := eps.filterMap fun e => s.epRank j e
  let lead := (s.job j).leads
  let bad := tainted (s.job j) ranks passed
  let touched := ((s.job j).barriers.filter fun e =>
    match e.2 with | some x => x.parts.any fun y => ranks.contains y.1 | none => false).map fun e => BitVec.ofNat 16 e.1
  let bit := fun e => s.fenceBit e
  let s := modJob s j fun b => eps.foldl (fun b e => fenceEp b (bit e) e) b
  let s := modJob s j fun b => { b with
    barriers := tmap none (fun o x => x.map (fenceBarrier lead ranks arrived o)) b.barriers
    ctxs := tmap {} (fun _ x => fenceCtx ranks x) b.ctxs }
  let s := eps.foldl (fencedEv .hub j) s
  if lead then
    let s := touched.foldl (fun s o => mirrorBarrier s j o) s
    let s := touched.foldl (fenceRelease j) s
    let s := bad.foldl (fun s e => poison s j e.2 4 (BitVec.ofNat 16 e.1)) s
    pauseCheck s j
  else s

/-! ## The end of a job (R440) -/

/-- The job that a flit of a job's traffic belongs to; none for the flits of links, time, events and transactions. -/
def jobOfFlit : Msg → Option (BitVec 12)
  | .arrive p => some p.job
  | .contrib p => some p.job
  | .partl p => some p.job
  | .dgp p => some p.job
  | .vmap p => some p.job
  | .check p => some p.job
  | .vrec p => some p.job
  | .pauseReply p => some p.job
  | .rereq p => some p.job
  | .report p => some p.job
  | .release p => some p.job
  | .stepRelease p => some p.job
  | .stepPoison p => some p.job
  | .pauseMark p => some p.job
  | .refuse p => some p.job
  | .signal p => some p.job
  | .result p => some p.job
  | _ => none

/-- Messages of a job leave a sender. -/
def UpSender.without (u : UpSender) (j : BitVec 12) : UpSender :=
  { u with unacked := u.unacked.filter fun e => jobOfFlit e.2 != some j, waiting := u.waiting.filter fun m => jobOfFlit m != some j }

/-- Queued flits of a job leave the links of a part. -/
def dropHeld (s : State) (p : Part) (j : BitVec 12) : State :=
  modSh s p fun h => { h with
    links := tmap (linkReset p) (fun _ k => { k with hold := k.hold.filter fun e => jobOfFlit e.2 != some j }) h.links }

/-- A TEARDOWN begins on a hub: DRAINING, with every queued and unacknowledged flit of the job discarded (R440). -/
def teardownHub (s : State) (j : BitVec 12) : State :=
  dropHeld (modHub (modJob s j fun b => { b with regs := { b.regs with jobStatusState := 6 }, nextLaunch := none })
    fun h => { h with ups := tmap {} (fun _ u => u.without j) h.ups }) .hub j

/-- The state of the die's job changes (R447). -/
def tsuState (s : State) (st : BitVec 4) : State :=
  if s.tsu.txnt.ttJobState = st then s
  else setCause (modTsu s fun t => { t with txnt := { t.txnt with ttJobState := st } }) .tsu .txnt 0

/-- A TEARDOWN begins on the TSU (R440). -/
def teardownTsu (s : State) (j : BitVec 12) : State :=
  dropHeld (modTsu (discardSends (tsuState s 6)) fun t => { t with up := t.up.without j, pend := [] }) .tsu j

/-- What a hub's drain frees (R440, steps 4 and 5): the program stays. -/
def drainHub (s : State) (j : BitVec 12) : State :=
  let b := s.job j
  let s := modJob (endFlows s j) j fun b => { regs := { jobStatusLastTid := b.regs.jobStatusLastTid }, seq := b.seq }
  modHub s fun h => { h with
    groups := h.groups.filter fun g => g.2.owner != some j
    xlCache := h.xlCache.filter fun x => x.1 != j
    prov := h.prov.filter fun e => !(decide (b.digh.dgJobProvBase.toNat ≤ e.1) &&
      decide (e.1 < b.digh.dgJobProvBase.toNat + b.digh.dgJobProvCount.toNat)) }

/-- What the TSU's drain frees: with the contexts go the result flits held for them and the flags of their results
(R291, R440). -/
def drainTsu (s : State) : State :=
  modTsu (freeStore (tsuState s 0)) fun t => { t with
    resFlags := []
    txnt := { t.txnt with ttJob := 0, ttJobEpoch := false, ttJobGrace := false }
    rank := 0, members := 0, slots := [], ctxs := [], plan := [], launch := none, rel := none, stepObj := 0, launched := false }

/-! ## The commit on a hub (R415, R430) -/

/-- What the votes of a transaction carried, where this hub holds them: as its coordinator, or mirrored (R361, R433). -/
def heldVotes (s : State) (g : Staged) : Txn :=
  if g.coord = s.hub.id.hubAddr then s.txn g.tid else tget {} s.hub.mtxns g.tid.toNat

/-- The values of the votes enter the envelope's items (R361). -/
def takeVals (s : State) (j : BitVec 12) (kind : BitVec 8) (vals : List (BitVec 32 × MemberVals)) : State :=
  vals.foldl (fun s v =>
    if v.1.getLsbD 31 then
      match (if kind == 1 || kind == 5 then s.epRank j (v.1.setWidth 24) else none) with
      | some r => modJob s j fun b => { b with memberVals := tset {} b.memberVals r.toNat v.2 }
      | none => s
    else modJob s j fun b => { b with hubFw := tset 0 b.hubFw (v.1.setWidth 16).toNat v.2.fw }) s

/-- The epoch flips (R415, R416, R438). -/
def flipHub (s : State) (j : BitVec 12) (commit : Tick) : State :=
  modJob s j fun b => { b with
    lastFlip := some commit, regs := { b.regs with jobStatusEpoch := !b.regs.jobStatusEpoch, jobStatusGrace := true } }

/-- Tables of the fabric partition (R423, R439). -/
def applyFabric (s : State) (acts : List Act) : State :=
  let ports := acts.filter fun a => a.1 == 0x000E
  let routes := acts.filter fun a => a.1 == 0x000F
  let s := ports.foldl (fun s a => setPortRole s (BitVec.ofNat 7 (bytesAt a.2.2 0 1)) (BitVec.ofNat 64 (bytesAt a.2.2 8 8))) s
  let s := if routes.isEmpty then s
    else
      let entries := routes.flatMap fun a => (List.range (a.2.2.length / 16)).map fun i =>
        (bytesAt a.2.2 (16 * i) 2, BitVec.ofNat 72 (bytesAt a.2.2 (16 * i + 7) 9))
      modHub s fun h => { h with routes := entries.foldl (fun t e => tset 0 t e.1 e.2) [] }
  modHub s fun h => { h with fabric := !h.fabric }

/-- A job's transaction takes effect on the hub: the epoch flips first, so that a fence acts under the new epoch (R409,
R415). -/
def applyJob (s : State) (j : BitVec 12) (g : Staged) : State :=
  let acts := actsOf g.share
  let x := heldVotes s g
  let arrived := x.arrived ++ g.arrived
  let before := envContents (s.job j) (s.span j)
  let s := if g.kind == 1 then admitHub s j g else if g.kind == 5 && !s.holds j then joinHub s j g else s
  let s := if flipsEpoch g.kind then flipHub s j g.commit else s
  -- the rank table first: it tells the home pairs of the barriers (R216)
  let s := (acts.filter fun a => a.1 == 2).foldl (hubAction j) s
  let s := (acts.filter fun a => a.1 != 2).foldl (hubAction j) s
  let s := takeVals s j g.kind x.vals
  let s := modJob s j fun b => { b with regs := { b.regs with jobStatusLastTid := g.tid } }
  let s := match g.kind.toNat with
    | 1 => computeEnv s j
    | 2 => match launchAct g.share with
      | some a => computeEnv (launchHub s j a) j
      | none => s
    | 4 => pauseFollow (modJob s j fun b => { b with regs := { b.regs with jobStatusState := 3 } }) j
    | 6 => (acts.filter fun a => a.1 == 0x000D).foldl (fun s a => fenceHub s j (fenceAct a.2.2) arrived x.passed) s
    | 7 => teardownHub s j
    | _ => s
  if s.isHome j && g.kind != 1 && g.kind != 2 && g.kind != 7 && before != envContents (s.job j) (s.span j) then
    envChange s j
  else s

/-- A staged transaction takes effect on the hub at its commit tick, and is reported (R430). -/
def applyHub (s : State) (g : Staged) : State :=
  if g.partition.getLsbD 12 then
    hubReport (setStaged (applyFabric s (actsOf g.share)) .hub g.partition none) g false
  else
    let s := applyJob s (g.partition.setWidth 12) g
    if g.kind == 7 then s
    else hubReport (setStaged s .hub g.partition none) g false

/-! ## The commit on the TSU -/

/-- An ADMIT on the TSU (R237, R424, R435); a share without JOB_PARAMS leaves the parameters as they stand. -/
def admitTsu (s : State) (g : Staged) : State :=
  let rank := rankUnder s g.share
  let s := modTsu (tsuState s 1) fun t => { t with
    txnt := { t.txnt with ttJob := g.partition.setWidth 12, ttJobEpoch := false, ttJobGrace := false }
    rank := rank, step := { t.step with stepNow := 0 }, seq := { t.seq with mapRun := 0 }
    evqRegs := { t.evqRegs with eqPoisonTgtValid := false }
    plan := [], ctxs := [], wins := [], lastFlip := none, pauseMark := false, joined := false, missed := none, launched := false }
  match paramsOf g.share with
  | some q => modTsu s fun t => { t with
      members := BitVec.ofNat 19 q.members, step := { t.step with stepCfg := BitVec.ofNat 32 q.guard }
      sync := { t.sync with syncJobDefTimeout := q.defTimeout }, stepObj := q.stepObj, seed := q.seed
      det := { t.det with detMode := q.mode, detModeUnitmapIndep := q.unitmapIndep } }
  | none => s

/-- A die takes a rank by a remap (R46, R529): PAUSED in the job, with its epoch and the parameters that no action of the transaction
carries as free values where it was no member (log 45). -/
def joinTsu (s : State) (g : Staged) (r : BitVec 20) : State :=
  let (n, s) := s.fresh
  let v := Config.joinTsuPart n
  let has := s.tsuHasJob
  let s := modTsu (tsuState s 4) fun t => { t with
    rank := r, joined := true, launched := true, txnt := { t.txnt with ttJob := g.partition.setWidth 12 } }
  if has then s
  else modTsu s fun t => { t with
    txnt := { t.txnt with ttJobEpoch := Config.joinEpoch n == 0 }
    members := joinMembers g.share (v.extractLsb' 0 19), step := { t.step with stepCfg := v.extractLsb' 19 32 }
    sync := { t.sync with syncJobDefTimeout := v.extractLsb' 51 32 }, stepObj := v.extractLsb' 83 16, seed := v.extractLsb' 99 64
    det := { t.det with detMode := v.extractLsb' 163 2, detModeUnitmapIndep := v.getLsbD 165 } }

/-- One action on the TSU (R423), other than JOB_PARAMS. -/
def tsuAction (g : Staged) (s : State) (a : Act) : State :=
  let p := a.2.2
  let c := actNo p
  match a.1 with
  | 0x0003 =>
    ((barrierParts p).filter fun x => x.1 == s.tsu.rank).foldl (fun s x =>
      modSlot s (x.2.setWidth 12) fun _ => { regs := {
        soCfgType := tyBarrier, soCfgTimed := bytesAt p 2 2 % 2 == 1, soCfgObj := BitVec.ofNat 16 c } }) s
  | 0x0004 =>
    match s.slotOf tyBarrier (BitVec.ofNat 16 c) with
    | some k => modSlot s k fun _ => {}
    | none => s
  | 0x0005 => modTsu s fun t => { t with ctxs := tset {} t.ctxs c { cfg := ctxCfg p, k := ctxK p }, resFlags := tset 0 t.resFlags c 0 }
  | 0x0006 => modTsu s fun t => { t with ctxs := tset {} t.ctxs c {}, resFlags := tset 0 t.resFlags c 0 }
  | 0x0007 => modTsu s fun t => { t with plan := planTable p }
  | 0x000A =>
    let f := bytesAt p 8 1
    modTsu s fun t => { t with
      seed := BitVec.ofNat 64 (bytesAt p 0 8)
      det := { t.det with detMode := BitVec.ofNat 2 f, detModeUnitmapIndep := f.testBit 2 } }
  | 0x000C =>
    if endpointOf (bytesAt p 4 4) = s.tsu.root.endpointEp then joinTsu s g (BitVec.ofNat 20 (bytesAt p 0 4)) else s
  | 0x000D => (fenceAct p).foldl (fencedEv .tsu (g.partition.setWidth 12)) s
  | _ => s

/-- The epoch flips on the TSU (R415, R416, R438). -/
def flipTsu (s : State) (commit : Tick) : State :=
  modTsu s fun t => { t with
    lastFlip := some commit, txnt := { t.txnt with ttJobEpoch := !t.txnt.ttJobEpoch, ttJobGrace := true } }

/-- A staged transaction takes effect on the TSU at its commit tick, under the new epoch where it flips (R409), and is
reported (R430). -/
def applyTsu (s : State) (g : Staged) : State :=
  let s := if g.kind == 1 then admitTsu s g else s
  let s := if flipsEpoch g.kind then flipTsu s g.commit else s
  let s := (actsOf g.share).foldl (tsuAction g) s
  let s := match g.kind.toNat with
    | 2 => match launchAct g.share with
      | some a => modTsu (tsuState s 2) fun t => { t with
          step := { t.step with stepNow := if a.first = 0 then 0 else a.first - 1 } }
      | none => s
    | 4 => tsuState s 3
    | 7 => teardownTsu s (g.partition.setWidth 12)
    | _ => s
  if g.kind == 7 then s else tsuDone (setStaged s .tsu g.partition none) g false

end Sys2Proof.Machine
end

