-- ==== Sys2Proof/Machine/Txns.lean ====
section
/-! DEFINITION. Transactions (R419 to R434, R437, R440, R441): composing and submitting on the coordinator, PREPARE and votes,
commit and abort, reports, pauses and drains, and the takeover of a lead (R404, R433). -/

namespace Sys2Proof.Machine

/-! ## The body (R420 to R422) -/

/-- The header of a body (R421). -/
structure TxnHdr where
  magic : Nat
  version : Nat
  kind : BitVec 8
  partition : BitVec 13
  commit : Tick
  voteBy : Tick
  actions : Nat
  bytes : Nat
  tag : Word
  deriving DecidableEq, Repr

/-- The header of a body from its first 64 bytes. -/
def txnHdr (b : List (BitVec 8)) : TxnHdr :=
  { magic := bytesAt b 0x00 2, version := bytesAt b 0x02 1, kind := BitVec.ofNat 8 (bytesAt b 0x03 1)
    partition := BitVec.ofNat 13 (bytesAt b 0x04 2), commit := BitVec.ofNat 64 (bytesAt b 0x08 8)
    voteBy := BitVec.ofNat 64 (bytesAt b 0x10 8), actions := bytesAt b 0x18 4, bytes := bytesAt b 0x1C 4
    tag := BitVec.ofNat 64 (bytesAt b 0x20 8) }

/-- The actions of a body, as bytes. -/
def bodyShare (b : List (BitVec 8)) : List (BitVec 8) := b.drop 64

/-- An action as bytes (R422). -/
def encodeAct (a : Act) : List (BitVec 8) :=
  natToBytes 2 a.1 ++ [0, 0] ++ natToBytes 4 a.2.2.length ++ bvBytes 8 a.2.1 ++ a.2.2

/-- Whether a body is well formed (R421 to R425). -/
def bodyOk (b : List (BitVec 8)) : Bool :=
  let h := txnHdr b
  let acts := actsOf (bodyShare b)
  decide (64 ≤ b.length) && h.magic == 0x5458 && h.version == 1 && decide (1 ≤ h.kind.toNat ∧ h.kind.toNat ≤ 8) &&
    (h.kind == 8) == h.partition.getLsbD 12 && (h.kind != 8 || h.partition == 0x1000) && h.bytes == b.length &&
    (parseActs b.length (bodyShare b)).isSome && acts.length == h.actions &&
    acts.all (fun a => (actKinds a.1).contains h.kind.toNat && actLenOk a.1 a.2.2 && !actReserved a) &&
    (h.kind != 1 || (paramsOf (bodyShare b)).isSome)

/-- Whether a neighbour is in service: some link in service leads to it (R419). -/
def hubSeen (s : State) (a : BitVec 16) : Bool := (s.activeLinks .hub).any fun l => s.seen l == a

/-- Whether the hub coordinates the fabric partition: the first hall hub in service of A0, B0, A1, B1 (R419). -/
def fabricCoord (s : State) : Bool :=
  match ([0, 2, 1, 3] : List (BitVec 2)).find? fun k => hallAddr k == s.hub.id.hubAddr || hubSeen s (hallAddr k) with
  | some k => hallAddr k == s.hub.id.hubAddr
  | none => false

/-- Whether the hub coordinates a body's partition (R419). -/
def coordinates (s : State) (b : List (BitVec 8)) : Bool :=
  let h := txnHdr b
  if h.kind = 8 then fabricCoord s
  else if h.kind = 1 then match paramsOf (bodyShare b) with | some q => q.lead == s.hub.id.hubAddr | none => false
  else s.isLead (h.partition.setWidth 12)

/-- Whether a body holds a reserved encoding (R13, R425). -/
def bodyReserved (b : List (BitVec 8)) : Bool := txnReserved (txnHdr b).kind (actsOf (bodyShare b))

/-- The ticks of a body, COMMIT_TICK and the L0 of a LAUNCH, go through the test of R64 and R68, which counts a refusal (R250,
R425). -/
def ticksTest (s : State) (b : List (BitVec 8)) : Bool × State :=
  match schedTest s .hub (txnHdr b).commit with
  | (false, s) => (false, s)
  | (true, s) =>
    match launchAct (bodyShare b) with
    | some a => schedTest s .hub a.l0
    | none => (true, s)

/-- Whether a body's ticks lie far enough ahead (R425, R254). -/
def ticksAhead (s : State) (b : List (BitVec 8)) : Bool :=
  let h := txnHdr b
  let now := (s.now .hub).toNat
  let ahead := if h.kind = 2 then 2000000 else 50000
  decide (now + 10000 ≤ h.voteBy.toNat ∧ h.voteBy.toNat + 20000 ≤ h.commit.toNat ∧ now + ahead ≤ h.commit.toNat) &&
    match launchAct (bodyShare b) with
    | some a => decide (now + 2000000 ≤ a.l0.toNat)
    | none => true

/-! ## Targets (R422, R426, R529) -/

/-- The actions that take a part into a rank by a remap: rank and endpoint. -/
def remapsOf (share : List (BitVec 8)) : List (Nat × BitVec 24) :=
  ((actsOf share).filter fun a => a.1 == 0x000C).map fun a => (bytesAt a.2.2 0 4, endpointOf (bytesAt a.2.2 4 4))

/-- The endpoints that a share's FENCE actions name. -/
def fencesOf (share : List (BitVec 8)) : List (BitVec 24) :=
  ((actsOf share).filter fun a => a.1 == 0x000D).flatMap fun a => fenceAct a.2.2

/-- The hubs that TARGET fields name one by one, and the endpoints. -/
def namedHubs (share : List (BitVec 8)) : List (BitVec 16) :=
  ((actsOf share).filter fun a => a.2.1.extractLsb' 62 2 == 0).map fun a => a.2.1.setWidth 16

def namedEps (share : List (BitVec 8)) : List (BitVec 24) :=
  ((actsOf share).filter fun a => a.2.1.extractLsb' 62 2 == 1).map fun a => endpointOf a.2.1.toNat

/-- Every hub that this hub knows: itself, its neighbours and the destinations of its routing table. -/
def knownHubs (s : State) : List (BitVec 16) :=
  s.hub.id.hubAddr :: ((s.activeLinks .hub).map fun l => s.seen l) ++ s.hub.routes.map fun e => BitVec.ofNat 16 e.1

/-- The hubs in the span that a transaction targets (R426, R529). -/
def targetHubs (s : State) (h : TxnHdr) (share : List (BitVec 8)) : List (BitVec 16) :=
  let j : BitVec 12 := h.partition.setWidth 12
  let wide := (actsOf share).any fun a => a.2.1.extractLsb' 62 2 == 2
  let span := match h.kind.toNat, paramsOf share with
    | 8, _ => if wide then knownHubs s else []
    | 1, some q => spanHubs ((ranksOf share).map fun x => x.2) q.lead q.other
    | _, _ => s.span j
  let joins := (remapsOf share).flatMap fun x => joinsOf (s.job j).lead x.2
  dedup (span ++ joins ++ namedHubs share)

/-- The endpoints that a transaction targets: the members that are not fenced, or that it does not fence, and a remap's
spares. -/
def targetEps (s : State) (h : TxnHdr) (share : List (BitVec 8)) : List (BitVec 24) :=
  let j : BitVec 12 := h.partition.setWidth 12
  let members := match h.kind.toNat with
    | 8 => []
    | 1 => (ranksOf share).map fun x => x.2
    | _ => (s.memberEps j).filter fun e => !s.isFenced j e && !(fencesOf share).contains e
  dedup (members ++ (remapsOf share).map (fun x => x.2) ++ namedEps share)

/-- A target's share of the actions (R422, R426). -/
def shareFor (share : List (BitVec 8)) (tsu : Bool) (a : Nat) : List (BitVec 8) :=
  ((actsOf share).filter fun x =>
    match tsu, (x.2.1.extractLsb' 62 2).toNat with
    | false, 0 => (x.2.1.setWidth 16 : BitVec 16).toNat == a
    | true, 1 => (endpointOf x.2.1.toNat).toNat == a
    | false, 2 => true
    | true, 3 => true
    | _, _ => false).flatMap encodeAct

/-- PREPARE to a target. -/
def prepareMsg (s : State) (tid : BitVec 16) (h : TxnHdr) (target : TxnTarget) (share : List (BitVec 8)) : Msg :=
  .prepare { coord := s.hub.id.hubAddr, tid := tid, kind := h.kind, partition := h.partition, commit := h.commit.setWidth 32
             voteBy := h.voteBy.setWidth 32, len := BitVec.ofNat 32 share.length, share := share, target := target }

/-! ## Votes at the coordinator (R426, R429) -/

/-- The COMMIT of a transaction. -/
def commitMsg (s : State) (tid : BitVec 16) : Msg :=
  let r := (s.txn tid).regs
  .commit { coord := s.hub.id.hubAddr, tid := tid, kind := r.txnStatusKind.setWidth 8, partition := r.txnStatusPartition }

/-- A part holds the COMMIT of what it has staged (R430). -/
def holdCommit (s : State) (p : Part) (part : BitVec 13) : State :=
  setStaged s p part ((s.stagedAt p part).map fun g => { g with committed := true })

/-- Every target has voted yes: COMMIT on both planes (R429). -/
def commitTxn (s : State) (tid : BitVec 16) : State :=
  let x := s.txn tid
  let part := x.regs.txnStatusPartition
  let s := mirrorTxn (modTxn s tid fun x => { x with regs := { x.regs with txnStatusPhase := 3 } }) tid none
  let m := commitMsg s tid
  let s := sendTwin (sendTargets s (part.setWidth 12) x.hubs x.eps m) tid.toNat m
  if x.hubs.contains s.hub.id.hubAddr then holdCommit s .hub part else s

/-- A vote at the coordinator (R429): a no aborts, and the last yes commits. -/
def countVote (s : State) (m : VoteP) (arrived : List (BitVec 20 × BitVec 16)) (passed : List (BitVec 20 × BitVec 12 × BitVec 64)) :
    State :=
  let x := s.txn m.tid
  if x.regs.txnStatusPhase != 2 || x.regs.txnStatusPartition != m.partition then s
  else if m.reason != 0 then
    txnAbort (modTxn s m.tid fun x => { x with regs := { x.regs with txnStatusReason := m.reason, txnStatusVoter := m.origin } })
      m.tid 0 m.reason
  else
    let v : MemberVals := { ident := m.ident, fw := m.fw, unitmap := m.unitmap }
    let yes := x.regs.txnVotesYes + m.yes.setWidth 32
    let s := modTxn s m.tid fun x => { x with
      regs := { x.regs with txnVotesYes := yes }
      vals := if m.mv then x.vals ++ [(m.origin, v)] else x.vals
      arrived := x.arrived ++ arrived, passed := x.passed ++ passed }
    let s := mirrorTxn s m.tid (if m.mv then some (m.origin, v) else none)
    if x.regs.txnVotesExpected.toNat ≤ yes.toNat then commitTxn s m.tid else s

/-! ## Votes at a target (R426 to R428) -/

/-- The vote of a part (R426, R457): member values with every yes. -/
def voteOf (s : State) (p : Part) (g : Staged) (reason : Nat) : VoteP :=
  let yes := reason == 0
  { coord := g.coord, tid := g.tid, kind := g.kind, partition := g.partition, reason := BitVec.ofNat 8 reason
    yes := if yes then 1 else 0, origin := s.origin p, mv := yes
    ident := match p with | .tsu => (if yes then 0x00030001 else 0) | .hub => 0
    fw := if yes then match p with | .tsu => s.tsu.det.detFw | .hub => s.hub.fw.fwRunning else 0
    unitmap := match p with | .tsu => (if yes then s.tsu.unitmap else 0) | .hub => 0 }

/-- Whether an arrival of a generation that a leaf hub has let through counts for the object's present generation (R227): the entry
tells it where the hub holds one, and otherwise no RELEASE of that generation has been seen. -/
def arrivalCounts (b : HubJob) (o : Nat) (gen : BitVec 16) : Bool :=
  match tget none b.barriers o with
  | some x => gen == x.regs.shGen.setWidth 16
  | none => tget none b.lastRel o != some gen

/-- The arrivals of fenced dies that this leaf hub has let through for the present GEN of their barriers (R227). -/
def fenceArrived (s : State) (j : BitVec 12) (eps : List (BitVec 24)) : List (BitVec 20 × BitVec 16) :=
  let b := s.job j
  (eps.filter fun e => s.serves e).flatMap fun e =>
    match s.epRank j e with
    | none => []
    | some r => b.arrivals.filterMap fun a =>
      match a.2 with
      | some gen =>
        if a.1 / 65536 = (epSlot e).toNat ∧ arrivalCounts b (a.1 % 65536) gen then some (r, BitVec.ofNat 16 (a.1 % 65536)) else none
      | none => none

/-- What a vote reports of arrivals is kept with the transaction that is staged here (R227). -/
def keepArrived (s : State) (part : BitVec 13) (coord tid : BitVec 16) (arrived : List (BitVec 20 × BitVec 16)) : State :=
  match s.stagedAt .hub part with
  | some g =>
    if g.coord = coord ∧ g.tid = tid then setStaged s .hub part (some { g with arrived := g.arrived ++ arrived }) else s
  | none => s

/-- The contributions of fenced dies that this leaf hub has let through (R409). -/
def fencePassed (s : State) (j : BitVec 12) (eps : List (BitVec 24)) : List (BitVec 20 × BitVec 12 × BitVec 64) :=
  let ranks := (eps.filter fun e => s.serves e).filterMap fun e => s.epRank j e
  (s.job j).passed.filter fun v => ranks.contains v.1

/-- A target votes; the coordinator counts its own vote directly. -/
def giveVote (s : State) (p : Part) (g : Staged) (reason : Nat) : State :=
  let v := voteOf s p g reason
  match p with
  | .tsu =>
    tsuSend (modTsu s fun t => { t with txnt := { t.txnt with
      ttVoteTid := g.tid, ttVoteCoord := g.coord, ttVoteReason := BitVec.ofNat 8 reason, ttVoteKind := g.kind.setWidth 4 } })
      (.vote v)
  | .hub =>
    let j : BitVec 12 := g.partition.setWidth 12
    let eps := fencesOf g.share
    let arrived := fenceArrived s j eps
    if g.coord = s.hub.id.hubAddr then countVote s v arrived (fencePassed s j eps)
    else sendHub (keepArrived s g.partition g.coord g.tid arrived) j g.coord (.vote v)

/-- A vote is deferred and counted (R428). -/
def countDeferred (s : State) (p : Part) : State :=
  match p with
  | .hub => modTxnRegs s fun r => { r with txnErrDeferred := satInc r.txnErrDeferred }
  | .tsu => modTsu s fun t => { t with txnt := { t.txnt with ttErrDeferred := satInc t.txnt.ttErrDeferred } }

/-- A share that holds a reserved encoding is counted in the page of transactions (R13); its vote is MALFORMED. -/
def countReserved (s : State) (p : Part) (g : Staged) : State :=
  if txnReserved g.kind (actsOf g.share) then refuse s p (match p with | .hub => .txn | .tsu => .txnt) else s

/-- A target checks a share, stages it and votes, or defers its vote (R426 to R428). -/
def prepareTake (s : State) (p : Part) (g : Staged) : State :=
  let s := countReserved s p g
  match s.stagedAt p g.partition with
  | some o => if o.coord = g.coord ∧ o.tid = g.tid then s else giveVote s p g 3
  | none =>
    let r := targetReason s p g false
    if r = 0 then giveVote (setStaged s p g.partition (some g)) p g 0
    else if (r = 2 ∨ r = 4) ∧ targetReason s p g true = 0 then
      countDeferred (setStaged s p g.partition (some { g with deferred := true })) p
    else giveVote s p g r

/-- PREPARE reaches a target (R64, R68, R426). -/
def prepareMsgTake (l : LinkId) (m : PrepareP) (s : State) : State :=
  let p := l.part
  let staged (commit voteBy : Tick) : Staged :=
    { coord := m.coord, tid := m.tid, kind := m.kind, partition := m.partition, commit := commit, voteBy := voteBy
      share := m.share, via := some l }
  if !s.valid p then sendLink (countNotValid s p) l none (.notReady { cause := 0 })
  else
    let voteBy := (extendWire m.voteBy (s.now p)).getD 0
    match schedWire s p m.commit with
    | (some commit, s) => prepareTake s p (staged commit voteBy)
    | (none, s) => giveVote s p (staged ((extendWire m.commit (s.now p)).getD 0) voteBy) 9

/-- A PREPARE for another target goes on over a link, which the COMMIT or ABORT will take too; the newest 4,096 are kept. -/
def relayPrepare (s : State) (m : PrepareP) (key : Nat) (l : Option LinkId) : State :=
  onRoute s key l noRoute fun l s =>
    sendLink (modHub s fun h => { h with relays := ((m.coord, m.tid, l) :: h.relays).take 4096 }) l none (.prepare m)

/-- A COMMIT or ABORT follows the PREPAREs that have gone on through a hub that is no target itself (R429). -/
def relayOutcome (s : State) (coord tid : BitVec 16) (m : Msg) : State :=
  let mine (r : BitVec 16 × BitVec 16 × LinkId) : Bool := r.1 == coord && r.2.1 == tid
  let ls := dedup ((s.hub.relays.filter mine).map fun r => r.2.2)
  ls.foldl (fun s l => sendLink s l none m) (modHub s fun h => { h with relays := h.relays.filter fun r => !mine r })

/-- PREPARE at a part (R426): a hub that is not the target passes it on toward the target, unless its VALID is 0 (R68). -/
def prepareOn (l : LinkId) (m : PrepareP) (s : State) : State :=
  let j : BitVec 12 := m.partition.setWidth 12
  match l.part, m.target with
  | .tsu, _ => prepareMsgTake l m s
  | .hub, .hub a =>
    if a = s.hub.id.hubAddr then prepareMsgTake l m s
    else
      let key := s.ownFlow j (flowHub a)
      ifValid l (fun s => relayPrepare s m key (s.toHub key j a)) s
  | .hub, .endpoint e =>
    let key := s.ownFlow j e.toNat
    ifValid l (fun s => relayPrepare s m key (s.toEp key j e)) s

/-- PREPARE_RECEIVE (R426). -/
def execPrepareReceive (l : LinkId) (m : PrepareP) (s : State) : Host.Outcome State Fault Refusal :=
  .next (onMsg s l (.prepare m) (prepareOn l m))

/-- DEFERRED_VOTE (R428): the drain that stood in the way has ended. -/
def execDeferredVote (p : Part) (partition : BitVec 13) (s : State) : Host.Outcome State Fault Refusal :=
  match s.stagedAt p partition with
  | some g =>
    if !g.deferred then .next s
    else if g.voteBy.toNat < (s.now p).toNat then .next (setStaged s p partition none)
    else
      let s' := setStaged s p partition none
      let g' := { g with deferred := false }
      let r := targetReason s' p g' false
      if r = 0 then .next (giveVote (setStaged s p partition (some g')) p g' 0)
      else if (r = 2 ∨ r = 4) ∧ targetReason s' p g' true = 0 then .next s
      else .next (giveVote s' p g' r)
  | none => .next s

/-! ## The coordinator's rows -/

/-- The transaction takes the lock and PREPARE goes to every target; the hub's own share is staged here (R426). -/
def sendPrepare (s : State) (tid : BitVec 16) : State :=
  let x := s.txn tid
  let h := txnHdr x.body
  let share := bodyShare x.body
  let j : BitVec 12 := h.partition.setWidth 12
  let hubs := targetHubs s h share
  let eps := targetEps s h share
  let own := s.hub.id.hubAddr
  let s := modHub s fun q => { q with locks := tset none q.locks h.partition.toNat (some tid) }
  let s := modTxn s tid fun x => { x with
    hubs := hubs, eps := eps
    regs := { x.regs with txnStatusPhase := 2, txnVotesExpected := BitVec.ofNat 32 (hubs.length + eps.length) } }
  let s := mirrorTxn s tid none
  let s := (hubs.filter fun a => a != own).foldl (fun s a =>
    sendHub s j a (prepareMsg s tid h (.hub a) (shareFor share false a.toNat))) s
  let s := eps.foldl (fun s e => sendEp s j e (prepareMsg s tid h (.endpoint e) (shareFor share true e.toNat))) s
  if hubs.contains own then
    prepareTake s .hub { coord := own, tid := tid, kind := h.kind, partition := h.partition, commit := h.commit
                         voteBy := h.voteBy, share := shareFor share false own.toNat, via := none }
  else s

/-- A transaction whose turn it is takes its partition's lock and is prepared, or has come too late (R425, R426). -/
def lockTake (s : State) (tid : BitVec 16) : State :=
  let x := s.txn tid
  let part := x.regs.txnStatusPartition
  if x.regs.txnStatusPhase != 1 then s
  else match tget none s.hub.locks part.toNat with
    | some t => if t = tid then sendPrepare s tid else s
    | none =>
      if s.hub.queue.find? (fun t => (s.txn t).regs.txnStatusPartition == part) != some tid then s
      else if x.voteBy.toNat < (s.now .hub).toNat + 10000 then txnAbort s tid 6 9
      else sendPrepare s tid

/-- TXN_LOCK_TAKE (R425, R426, R441). -/
def execTxnLockTake (tid : BitVec 16) (s : State) : Host.Outcome State Fault Refusal := .next (lockTake s tid)

/-- The body is accepted: the next TID, the queue, and the lock where it is free (R425). -/
def acceptBody (s : State) : State :=
  let b := s.hub.body
  let h := txnHdr b
  let tid := s.hub.nextTid
  let s := modHub s fun q => { q with
    nextTid := tid + 1, queue := q.queue ++ [tid], finished := q.finished.erase tid
    txns := tset {} q.txns tid.toNat {
      regs := { txnStatusPhase := 1, txnStatusKind := h.kind.setWidth 4, txnStatusPartition := h.partition, txnTick := h.commit
                txnTag := h.tag }
      voteBy := h.voteBy, body := b }
    locks := if tget none q.locks h.partition.toNat == none then tset none q.locks h.partition.toNat (some tid) else q.locks
    txn := { q.txn with txnSubmittedSubmitResult := 0, txnSubmittedTid := tid } }
  mirrorTxn s tid none

/-- The check of a submitted body (R13, R64, R425), and the outcome in TXN_SUBMITTED. -/
def submitBody (s : State) : State :=
  let b := s.hub.body
  let refuseAs (s : State) (r : BitVec 8) : State := modTxnRegs s fun q => { q with
    txnSubmittedSubmitResult := r, txnErrSubmitRefused := satInc q.txnErrSubmitRefused }
  if bodyReserved b then refuseAs (refuse s .hub .txn) 1
  else if !bodyOk b then refuseAs s 1
  else if !coordinates s b then refuseAs s 2
  else match ticksTest s b with
    | (false, s) => refuseAs s 3
    | (true, s) =>
      if !ticksAhead s b then refuseAs s 3
      else if 32 ≤ s.hub.queue.length then refuseAs s 4
      else acceptBody s

/-- A chunk from BAR2 joins the body and is mirrored, or is refused beyond 16 MiB (R420). -/
def appendChunk (s : State) : Bool × State :=
  let n := s.hub.txn.txnCtrlChunk.toNat + 1
  let at_ := s.hub.body.length
  if 16777216 < at_ + n then refused s .hub .txn
  else
    let chunk := (List.range n).map fun k => tget 0 s.hub.bar2 k
    accept (mirror (modHub s fun h => { h with body := h.body ++ chunk }) 0 11 (BitVec.ofNat 64 at_) chunk)

/-- CANCEL of the transaction that an interface selects (R434). -/
def cancelTxn (i : Iface) (s : State) : Bool × State :=
  let tid := (s.iface i).regs.txnSel
  let ph := (s.txn tid).regs.txnStatusPhase
  if ph = 1 ∨ ph = 2 then accept (txnAbort s tid 4 0) else refused s .hub .txn

/-- A write of TXN_CTRL (R420, R425, R434): RESET_BODY, APPEND, SUBMIT and CANCEL in this order where several bits are set. -/
def txnCtrlWrite (i : Iface) (v : Word) (s : State) : Bool × State :=
  onPart .hub i s fun s =>
    let s := modTxnRegs s fun r => { r with txnCtrlChunk := getF v 0 16 }
    let s := if getB v 60 then modHub s fun h => { h with body := [] } else s
    let r := if getB v 62 then appendChunk s else accept s
    let s := if getB v 63 then submitBody r.2 else r.2
    let c := if getB v 61 then cancelTxn i s else accept s
    (r.1 || c.1, c.2)

/-- TXN_SUBMIT (R425): a write of TXN_CTRL with SUBMIT set. -/
def execTxnSubmit (i : Iface) (data : Word) (s : State) : Host.Outcome State Fault Refusal :=
  ackWrite i s (txnCtrlWrite i (data ||| putB 63 true) s)

/-- TXN_APPEND (R420): a write of TXN_CTRL with APPEND set. -/
def execTxnAppend (i : Iface) (data : Word) (s : State) : Host.Outcome State Fault Refusal :=
  ackWrite i s (txnCtrlWrite i (data ||| putB 62 true) s)

/-- TXN_CANCEL (R434): a write of TXN_CTRL with CANCEL set. -/
def execTxnCancel (i : Iface) (data : Word) (s : State) : Host.Outcome State Fault Refusal :=
  ackWrite i s (txnCtrlWrite i (data ||| putB 61 true) s)

/-- TXN_RESET_BODY (R420): a write of TXN_CTRL with RESET_BODY set. -/
def execTxnResetBody (i : Iface) (data : Word) (s : State) : Host.Outcome State Fault Refusal :=
  ackWrite i s (txnCtrlWrite i (data ||| putB 60 true) s)

/-- A vote of yes without member values that is queued takes another in (R426). -/
def voteInto (m : VoteP) : Msg → Option Msg
  | .vote q =>
    if q.coord = m.coord ∧ q.tid = m.tid ∧ q.reason = 0 ∧ m.reason = 0 ∧ !q.mv ∧ !m.mv then some (.vote { q with yes := q.yes + m.yes })
    else none
  | _ => none

/-- A vote goes on toward the coordinator (R426). -/
def voteOn (s : State) (m : VoteP) : State :=
  let j : BitVec 12 := m.partition.setWidth 12
  let key := s.ownFlow j (flowHub m.coord)
  onRoute s key (s.toHub key j m.coord) noRoute fun l s =>
    match foldFirst (voteInto m) (s.link l).hold with
    | some hold => modLink s l fun k => { k with hold := hold }
    | none => sendLink s l none (.vote m)

/-- VOTE_RECEIVE (R426, R429): with what a leaf hub's vote on a fence reports (R227, R409). -/
def execVoteReceive (l : LinkId) (m : VoteP) (arrived : List (BitVec 20 × BitVec 16))
    (passed : List (BitVec 20 × BitVec 12 × BitVec 64)) (s : State) : Host.Outcome State Fault Refusal :=
  .next (onMsg s l (.vote m) fun s =>
    if m.coord = s.hub.id.hubAddr then countVote s m arrived passed
    else voteOn (keepArrived s m.partition m.coord m.tid arrived) m)

/-- VOTE_TIMEOUT (R429): VOTE_BY passes with a vote missing. -/
def execVoteTimeout (tid : BitVec 16) (s : State) : Host.Outcome State Fault Refusal :=
  let x := s.txn tid
  if x.regs.txnStatusPhase = 2 ∧ x.voteBy.toNat < (s.now .hub).toNat then .next (txnAbort s tid 1 0) else .next s

/-! ## COMMIT, ABORT and the commit tick at a target (R429 to R431) -/

/-- GUARD of a staged transaction (R430). -/
def guardOf (s : State) (p : Part) (g : Staged) : Nat :=
  if g.kind != 2 then 4096
  else match p with
    | .tsu => s.tsu.step.stepCfg.toNat
    | .hub => (s.job (g.partition.setWidth 12)).steph.sthGapGuardNs.toNat

/-- Whether COMMIT_TICK − GUARD has passed. -/
def pastGuard (s : State) (p : Part) (g : Staged) : Bool := decide (g.commit.toNat < (s.now p).toNat + guardOf s p g)

/-- The endpoints below that a staged transaction concerns. -/
def stagedEps (s : State) (g : Staged) : List (BitVec 24) :=
  dedup (s.memberEps (g.partition.setWidth 12) ++ ((ranksOf g.share).map fun x => x.2) ++ (remapsOf g.share).map fun x => x.2)

/-- The TSU's launch authority comes with the COMMIT of a LAUNCH (R251, R252, R254). -/
def launchAuthority (s : State) (g : Staged) : State :=
  match (if g.kind == 2 then launchAct g.share else none) with
  | some a =>
    if inGuard s a.l0 then holdLaunch s { tick := a.l0, step := a.first, first := true } else launchMiss s a.first a.l0 1
  | none => s

/-- COMMIT at a target (R430): the first copy is held and goes on down; a copy of one already held is dropped (R433). A hub that
is no target passes it on. -/
def commitTake (l : LinkId) (m : CommitP) (s : State) : State :=
  let p := l.part
  match s.stagedAt p m.partition with
  | none => if p = .hub then relayOutcome s m.coord m.tid (.commit m) else s
  | some g =>
    if g.coord != m.coord || g.tid != m.tid then if p = .hub then relayOutcome s m.coord m.tid (.commit m) else s
    else if g.committed || g.deferred then s
    else
      let held := !(s.valid p && pastGuard s p g)
      match p with
      | .hub =>
        let s := forwardDown s (m.partition.setWidth 12) (stagedEps s g) (.commit m)
        if held then holdCommit s .hub m.partition else s
      | .tsu => if held then launchAuthority (holdCommit s .tsu m.partition) g else s

/-- COMMIT_RECEIVE (R430). -/
def execCommitReceive (l : LinkId) (m : CommitP) (s : State) : Host.Outcome State Fault Refusal :=
  .next (onMsg s l (.commit m) (commitTake l m))

/-- ABORT at a target (R429): the staging version and its reservations go, and the ABORT goes on down. -/
def abortTake (l : LinkId) (m : AbortP) (s : State) : State :=
  match l.part, s.stagedAt l.part m.partition with
  | .hub, some g =>
    if g.coord = m.coord ∧ g.tid = m.tid then
      if g.committed then s
      else unstage (forwardDown s (m.partition.setWidth 12) (stagedEps s g) (.abort m)) .hub m.partition m.coord m.tid
    else relayOutcome s m.coord m.tid (.abort m)
  | .hub, none => relayOutcome s m.coord m.tid (.abort m)
  | .tsu, _ => unstage s .tsu m.partition m.coord m.tid

/-- ABORT_RECEIVE (R429). -/
def execAbortReceive (l : LinkId) (m : AbortP) (s : State) : Host.Outcome State Fault Refusal :=
  .next (onMsg s l (.abort m) (abortTake l m))

/-- A staged transaction takes effect. -/
def applyStaged (s : State) (p : Part) (g : Staged) : State :=
  match p with
  | .hub => applyHub s g
  | .tsu => applyTsu s g

/-- Whether a held COMMIT is still to be applied: a TEARDOWN that drains has been (R440). -/
def commitHeld (s : State) (p : Part) (g : Staged) : Bool :=
  let draining := g.kind == 7 && match p with
    | .hub => (s.job (g.partition.setWidth 12)).regs.jobStatusState == 6
    | .tsu => s.tsu.txnt.ttJobState == 6
  g.committed && !draining

/-- The commit tick of a held COMMIT is reached (R65, R430). -/
def commitDue (s : State) (p : Part) (g : Staged) : Bool :=
  commitHeld s p g && s.acting p && decide (g.commit.toNat ≤ (s.now p).toNat)

/-- TXN_COMMIT_APPLY (R430). -/
def execTxnCommitApply (p : Part) (partition : BitVec 13) (s : State) : Host.Outcome State Fault Refusal :=
  match s.stagedAt p partition with
  | some g => if commitDue s p g then .next (applyStaged s p g) else .next s
  | none => .next s

/-- A target that voted yes does not apply the transaction (R431): the event, the count, and the report; for LAUNCH a launch
miss, unless the launch it held has been missed by itself. -/
def noCommit (s : State) (p : Part) (g : Staged) (missed : Bool) : State :=
  let j : BitVec 12 := g.partition.setWidth 12
  let s := setStaged s p g.partition none
  match p with
  | .tsu =>
    let s := raise s .tsu (tsuEv s 0x0025 2 2 [(16, g.tid.toNat), (8, g.kind.toNat), (8, 0), (32, 0), (64, g.commit.toNat)])
    let s := modTsu s fun t => { t with txnt := { t.txnt with ttErrNoCommit := satInc t.txnt.ttErrNoCommit } }
    let s := setCause s .tsu .txnt 1
    match (if g.kind == 2 then launchAct g.share else none) with
    | some a => if missed then s else launchMiss s a.first a.l0 0
    | none => tsuReport s 2 0
  | .hub =>
    let s := txnAbortEv s 2 g.partition g.tid g.kind 0 0 g.commit 0
    let s := setCause (modTxnRegs s fun r => { r with txnErrNoCommit := satInc r.txnErrNoCommit }) .hub .txn 3
    if g.partition.getLsbD 12 then s
    else if s.isLead j then abortJob s j 4
    else
      let b := s.job j
      reportTake { job := j, epoch := b.regs.jobStatusEpoch, step := b.step.setWidth 24, kind := 2, detail := 0 } s

/-- NO_COMMIT (R431): no COMMIT is held by COMMIT_TICK − GUARD. -/
def execNoCommit (p : Part) (partition : BitVec 13) (s : State) : Host.Outcome State Fault Refusal :=
  match s.stagedAt p partition with
  | some g => if !g.committed && !g.deferred && s.valid p && pastGuard s p g then .next (noCommit s p g false) else .next s
  | none => .next s

/-! ## Reports, grace and drains (R416, R432, R440) -/

/-- DONE_RECEIVE (R432): DONE, or DRAINED; a hub on the way passes it on. -/
def execDoneReceive (l : LinkId) (m : DoneP) (drained : Bool) (s : State) : Host.Outcome State Fault Refusal :=
  let msg : Msg := if drained then .drained { coord := m.coord, tid := m.tid, kind := m.kind, partition := m.partition } else .done m
  .next (onMsg s l msg fun s =>
    if m.coord = s.hub.id.hubAddr then countReport s m.tid drained else sendHub s (m.partition.setWidth 12) m.coord msg)

/-- TXN_REPORT_TIMEOUT (R432): a report is missing 100 µs after COMMIT_TICK. -/
def execTxnReportTimeout (tid : BitVec 16) (s : State) : Host.Outcome State Fault Refusal :=
  let x := s.txn tid
  if x.regs.txnStatusPhase = 3 ∧ x.regs.txnTick.toNat + 100000 < (s.now .hub).toNat then
    .next (finishTxn (modTxn s tid fun x => { x with regs := { x.regs with txnStatusPhase := 6 } }) tid)
  else .next s

/-- Whether the 50 µs after a flip have passed (R416). -/
def graceOver (last : Option Tick) (now : Tick) : Bool :=
  match last with
  | some t => decide (t.toNat + 50000 ≤ now.toNat)
  | none => true

/-- GRACE_END (R416). -/
def execGraceEnd (p : Part) (job : BitVec 12) (s : State) : Host.Outcome State Fault Refusal :=
  match p with
  | .hub =>
    if graceOver (s.job job).lastFlip (s.now .hub) then
      .next (modJob s job fun b => { b with regs := { b.regs with jobStatusGrace := false } })
    else .next s
  | .tsu =>
    if s.tsu.txnt.ttJob = job ∧ graceOver s.tsu.lastFlip (s.now .tsu) then
      .next (modTsu s fun t => { t with txnt := { t.txnt with ttJobGrace := false } })
    else .next s

/-- DRAIN_DONE (R440): what the job held is free, the partition is NONE, and DRAINED is reported. -/
def execDrainDone (p : Part) (job : BitVec 12) (s : State) : Host.Outcome State Fault Refusal :=
  let part : BitVec 13 := job.setWidth 13
  let g := s.stagedAt p part
  match p with
  | .hub =>
    if (s.job job).regs.jobStatusState != 6 then .next s
    else
      let s := drainHub (setStaged s .hub part none) job
      match g with
      | some g => .next (hubReport s g true)
      | none => .next s
  | .tsu =>
    if s.tsu.txnt.ttJob != job || s.tsu.txnt.ttJobState != 6 then .next s
    else
      let s := drainTsu (setStaged s .tsu part none)
      match g with
      | some g => .next (tsuDone s g true)
      | none => .next s

/-! ## Pausing (R437) -/

/-- PAUSE_MARK_RECEIVE (R437): a member TSU marks it; a hub passes it on. -/
def execPauseMarkReceive (l : LinkId) (m : PauseMarkP) (s : State) : Host.Outcome State Fault Refusal :=
  let s := taken s l (.pauseMark m)
  match l.part with
  | .hub => .next (downOn l (.pauseMark m) s)
  | .tsu =>
    if s.tsuDrains m.job then .next (refuse s .tsu .txnt)
    else match tsuJobOk s m.job m.epoch with
    | (true, s) => .next (tsuNearStep s m.step fun s => modTsu s fun t => { t with pauseMark := true })
    | (false, s) => .next (refuse s .tsu .txnt)

/-- Whether the TSU is quiescent: the sequencer is IDLE, and no signal pends, no SEND is queued and no flit of the job is
unacknowledged (R437). -/
def quiescent (s : State) : Bool :=
  let j := s.tsu.txnt.ttJob
  s.tsu.seq.regs.seqStatusState == 0 && s.tsu.pend.isEmpty && s.tsu.sends.isEmpty && s.tsu.heldSends.isEmpty &&
    s.tsu.up.unacked.all (fun e => jobOfFlit e.2 != some j) && s.tsu.up.waiting.all fun m => jobOfFlit m != some j

/-- PAUSE_REPLY_SEND (R437). A TSU whose lead is another hub than this block's holds its job as PAUSED from its reply on (R247; log
64, DESIGN CHOICE: no flit tells it when every member has replied). -/
def execPauseReplySend (s : State) : Host.Outcome State Fault Refusal :=
  if s.tsu.pauseMark && quiescent s then
    let j := s.tsu.txnt.ttJob
    let m : Msg := .pauseReply { job := j, epoch := s.tsu.txnt.ttJobEpoch, rank := s.tsu.rank }
    let s := tsuSend (modTsu s fun t => { t with pauseMark := false }) m
    .next (if s.tsu.txnt.ttJobState == 3 && !s.isLead j then tsuState s 4 else s)
  else .next s

/-- A PAUSE_REPLY on its way to the lead (R437). -/
def pauseReplyTake (m : PauseReplyP) (s : State) : State :=
  if s.isLead m.job then
    pauseCheck (modJob s m.job fun b => { b with replied := if b.replied.contains m.rank then b.replied else b.replied ++ [m.rank] })
      m.job
  else if s.isHome m.job then sendTwin s m.job.toNat (.pauseReply m)
  else sendUp s m.job 0 (.pauseReply m)

/-- PAUSE_REPLY_RECEIVE (R437). -/
def execPauseReplyReceive (l : LinkId) (m : PauseReplyP) (s : State) : Host.Outcome State Fault Refusal :=
  .next (atEdge (taken s l (.pauseReply m)) l m.job m.rank (pauseReplyTake m))

/-! ## The takeover of a lead (R404, R433) -/

/-- What a new lead does with a transaction that the old one coordinated (R433). -/
def resumeTxn (s : State) (tid : BitVec 16) : State :=
  let x := tget {} s.hub.mtxns tid.toNat
  let r := x.regs
  let part := r.txnStatusPartition
  let j : BitVec 12 := part.setWidth 12
  let coord := twinOf s.hub.id.hubAddr
  let kind : BitVec 8 := r.txnStatusKind.setWidth 8
  let eps := match s.stagedAt .hub part with
    | some g => stagedEps s g
    | none => s.memberEps j
  let hubs := dedup (s.span j)
  if r.txnStatusPhase.toNat ≤ 2 then
    let s := sendTargets s j hubs eps (.abort { coord := coord, tid := tid, kind := kind, partition := part })
    let s := unstage s .hub part coord tid
    txnAbortEv s 3 part tid kind 0 0 r.txnTick r.txnTag
  else if r.txnStatusPhase = 3 then
    let m : CommitP := { coord := coord, tid := tid, kind := kind, partition := part }
    let s := sendTwin (sendTargets s j hubs eps (.commit m)) tid.toNat (.commit m)
    match s.stagedAt .hub part with
    | some g => if g.coord = coord ∧ g.tid = tid then holdCommit s .hub part else s
    | none => s
  else s

/-- Whether a hub is the member of a home pair of a job, or of a barrier of it, that does not lead (R216, R403). -/
def State.follows (s : State) (j : BitVec 12) : Bool :=
  (s.isHome j || (s.holds j && !(s.job j).barriers.isEmpty)) && !(s.job j).leads

/-- The twin takes the lead of a job, or of its barriers (R404). -/
def takeLead (s : State) (j : BitVec 12) : State :=
  if s.follows j then
    let s := modJob s j fun b => { b with
      leads := true, flt := { b.flt with leadStatLeadGen := b.flt.leadStatLeadGen + 1 } }
    mirror s j 10 0 (bvBytes 2 (s.job j).flt.leadStatLeadGen)
  else s

/-- A flit of the twin's that it had not seen acknowledged goes up again under its own DSN (R402). -/
def resendTwin (s : State) (e : BitVec 32 × Msg) : State :=
  let j := (jobOfFlit e.2).getD 0
  match s.upFor (flowKey j (twinOf s.hub.id.hubAddr).toNat 0) j with
  | some l =>
    sendLink (modHub s fun h => { h with flt := { h.flt with dlvErrResent := satInc h.flt.dlvErrResent } }) l (some e.1) e.2
  | none => s

/-- LEAD_TAKEOVER (R402 to R404, R433): no flit has come from the twin for 10 µs, and the shared neighbours confirm it. -/
def execLeadTakeover (s : State) : Host.Outcome State Fault Refusal :=
  let twins := ((List.range 288).map (linkOfKey .hub)).filter fun l => s.role l == 3
  let jobs := s.hub.jobs.map fun e => BitVec.ofNat 12 e.1
  if twins.any (heardLately s) || s.hub.flt.hubRole == 1 then .next s
  else
    let led := jobs.any s.follows
    let s := jobs.foldl takeLead s
    let s := if led then setCause (laneSpared s .hub 4 0x5000 0xFFFF) .hub .flt 3 else s
    let s := (s.hub.mtxns.map fun e => BitVec.ofNat 16 e.1).foldl resumeTxn s
    let s := s.hub.twinUp.foldl resendTwin s
    .next (modHub s fun h => { h with mtxns := [], twinUp := [] })

end Sys2Proof.Machine
end

