-- ==== Sys2Proof/Machine/Mirror.lean ====
section
/-! DEFINITION. What a twin does with an item of state that is mirrored to it (R222, R224, R249, R258, R269, R351, R363, R369,
R401, R402, R404, R420, R433, R457). -/

namespace Sys2Proof.Machine

/-- The fields of given widths at the head of a number of `left` bits. -/
def takeFields : List Nat → Nat → Nat → List Nat
  | [], _, _ => []
  | w :: ws, left, n => n / 2 ^ (left - w) % 2 ^ w :: takeFields ws (left - w) n

/-- An upward collective message from its type, its 416-bit payload and the data of its continuation flits (R456, R457). -/
def upMessage (ty : BitVec 8) (n : Nat) (tail : List (BitVec 8)) : Option Msg :=
  match ty.toNat with
  | 0x20 =>
    match takeFields [12, 1, 16, 16, 24, 19] 416 n with
    | [f0, f1, f2, f3, f4, f5] => some (.arrive {
        job := BitVec.ofNat 12 f0, epoch := f1 == 1, obj := BitVec.ofNat 16 f2
        gen := BitVec.ofNat 16 f3, step := BitVec.ofNat 24 f4, count := BitVec.ofNat 19 f5 })
    | _ => none
  | 0x21 =>
    match takeFields [12, 1, 20, 12, 24, 16, 5, 1, 1, 256] 416 n with
    | [f0, f1, f2, f3, f4, f5, f6, f7, f8, f9] => some (.contrib {
        job := BitVec.ofNat 12 f0, epoch := f1 == 1, rank := BitVec.ofNat 20 f2, ctx := BitVec.ofNat 12 f3, step := BitVec.ofNat 24 f4
        elem := BitVec.ofNat 16 f5, ne := BitVec.ofNat 5 f6, ovf := f7 == 1, fonly := f8 == 1, data := BitVec.ofNat 256 f9 })
    | _ => none
  | 0x22 =>
    match takeFields [12, 1, 12, 24, 16, 19, 5, 320] 416 n with
    | [f0, f1, f2, f3, f4, f5, f6, f7] => some (.partl {
        job := BitVec.ofNat 12 f0, epoch := f1 == 1, ctx := BitVec.ofNat 12 f2, step := BitVec.ofNat 24 f3
        elem := BitVec.ofNat 16 f4, n := BitVec.ofNat 19 f5, flags := BitVec.ofNat 5 f6, acc := BitVec.ofNat 320 f7 })
    | _ => none
  | 0x23 =>
    match takeFields [12, 1, 24, 19, 27, 27, 127, 127] 416 n with
    | [f0, f1, f2, f3, f4, f5, f6, f7] => some (.dgp {
        job := BitVec.ofNat 12 f0, epoch := f1 == 1, step := BitVec.ofNat 24 f2, members := BitVec.ofNat 19 f3
        n := BitVec.ofNat 27 f4, nc := BitVec.ofNat 27 f5, d0 := BitVec.ofNat 127 f6, d1 := BitVec.ofNat 127 f7 })
    | _ => none
  | 0x24 =>
    match takeFields [12, 1, 24, 19, 27, 256] 416 n with
    | [f0, f1, f2, f3, f4, f5] => some (.vmap {
        job := BitVec.ofNat 12 f0, epoch := f1 == 1, step := BitVec.ofNat 24 f2
        members := BitVec.ofNat 19 f3, vcount := BitVec.ofNat 27 f4, map := BitVec.ofNat 256 f5 })
    | _ => none
  | 0x25 =>
    match takeFields [12, 1, 24, 20, 8, 2, 23, 128] 416 n with
    | [f0, f1, f2, f3, f4, f5, f6, f7] => some (.check {
        job := BitVec.ofNat 12 f0, epoch := f1 == 1, step := BitVec.ofNat 24 f2, rank := BitVec.ofNat 20 f3
        did := BitVec.ofNat 8 f4, kind := BitVec.ofNat 2 f5, shard := BitVec.ofNat 23 f6, value := BitVec.ofNat 128 f7 })
    | _ => none
  | 0x26 =>
    match takeFields [12, 1, 20, 24, 32, 8, 64] 416 n with
    | [f0, f1, f2, f3, f4, f5, f6] => some (.vrec {
        job := BitVec.ofNat 12 f0, epoch := f1 == 1, rank := BitVec.ofNat 20 f2, step := BitVec.ofNat 24 f3
        launch := BitVec.ofNat 32 f4, vidx := BitVec.ofNat 8 f5, value := BitVec.ofNat 64 f6 })
    | _ => none
  | 0x27 => some (.evrec { record := BitVec.ofNat 512 (n * 2 ^ 96 + bytesToNat (padTo 12 tail)) })
  | _ => none
/-- The twin's transaction after an item of its phase and votes (R433). -/
def mirroredTxn (x : Txn) (v : List (BitVec 8)) : Txn :=
  let vote : List (BitVec 32 × MemberVals) :=
    if v.length < 76 then []
    else [(BitVec.ofNat 32 (bytesAt v 28 4), {
      ident := BitVec.ofNat 32 (bytesAt v 32 4), fw := BitVec.ofNat 64 (bytesAt v 36 8), unitmap := BitVec.ofNat 256 (bytesAt v 44 32) })]
  { x with
    regs := { x.regs with
      txnStatusPhase := BitVec.ofNat 4 (bytesAt v 0 1), txnStatusKind := BitVec.ofNat 4 (bytesAt v 1 1)
      txnStatusPartition := BitVec.ofNat 13 (bytesAt v 2 2), txnVotesYes := BitVec.ofNat 32 (bytesAt v 4 4)
      txnVotesExpected := BitVec.ofNat 32 (bytesAt v 8 4), txnTick := BitVec.ofNat 64 (bytesAt v 12 8)
      txnTag := BitVec.ofNat 64 (bytesAt v 20 8) }
    vals := x.vals ++ vote }

/-- A higher LEAD_GEN is heard: a former lead stops at once and enters SHADOW (R404, R405). -/
def hearLeadGen (s : State) (j : BitVec 12) (gen : BitVec 16) : State :=
  let b := s.job j
  if !laterThan gen b.flt.leadStatLeadGen then s
  else
    let s := modJob s j fun b => { b with leads := false, flt := { b.flt with leadStatLeadGen := gen } }
    if !b.leads then s
    else
      let s := if s.hub.flt.hubRole = 1 then s else laneSpared s .hub 5 0x5000 0xFFFF
      modHub s fun h => { h with flt := { h.flt with hubRole := 1, hubRoleCleanSteps := 0 } }

/-- A twin applies a mirrored item (R457). -/
def mirrorTake (m : MirrorP) (s : State) : State :=
  let j := m.job
  let v := m.value
  match m.item.toNat with
  | 0 => modBarrier s j (m.key.setWidth 16) fun r => { r with
      shCount := BitVec.ofNat 19 (bytesAt v 0 4), shGen := BitVec.ofNat 64 (bytesAt v 4 8) }
  | 1 =>
    let e : BitVec 24 := getF m.key 16 24
    modJob s j fun b => { b with
      arrivals := tset none b.arrivals (arrivalKey e (m.key.setWidth 16)) (some (BitVec.ofNat 16 (bytesAt v 0 2))) }
  | 2 => lateSample s j (m.key.setWidth 20) (BitVec.ofNat 64 (bytesAt v 4 8)) (BitVec.ofNat 32 (bytesAt v 0 4))
  | 3 => modJob s j fun b => { b with
      releaseLead := BitVec.ofNat 32 (bytesAt v 18 4)
      steph := { b.steph with
        sthPlan := BitVec.ofNat 64 (bytesAt v 0 8), sthCatchupCount := BitVec.ofNat 16 (bytesAt v 8 2)
        sthLast := BitVec.ofNat 64 (bytesAt v 10 8) } }
  | 4 =>
    let next : BitVec 32 := BitVec.ofNat 32 (bytesAt v 0 4) + 1
    modHub s fun h => { h with
      dsnSeen := tmod {} h.dsnSeen m.key.toNat fun e =>
        dsnAbsorb e.ahead.length { next := next, ahead := e.ahead.filter fun d => !laterThan next d } }
  | 5 =>
    match upMessage (BitVec.ofNat 8 (bytesAt v 0 1)) (bytesAt v 1 52) (v.drop 53) with
    | some x =>
      let all := s.hub.twinUp ++ [(m.key.setWidth 32, x)]
      modHub s fun h => { h with twinUp := all.drop (all.length - 4096) }
    | none => s
  | 6 => modJob s j fun b => { b with
      audSeq := BitVec.ofNat 64 (bytesAt v 0 8), audChain := BitVec.ofNat 384 (bytesAt v 8 48) }
  | 7 => rlAppend s (BitVec.ofNat 256 (bytesAt v 0 32))
  | 8 =>
    let x := mirroredTxn (tget {} s.hub.mtxns (m.key.setWidth 16).toNat) v
    modHub s fun h => { h with
      mtxns := tset {} h.mtxns (m.key.setWidth 16).toNat (if x.regs.txnStatusPhase.toNat ≤ 3 then x else {}) }
  | 9 => modJob s j fun b => { b with envNext := BitVec.ofNat 384 (bytesAt v 0 48) }
  | 10 => hearLeadGen s j (BitVec.ofNat 16 (bytesAt v 0 2))
  | 11 => modHub s fun h => { h with mbody := h.mbody.take m.key.toNat ++ v }
  | _ => s

/-- MIRROR_RECEIVE (R457): only a twin mirrors. -/
def execMirrorReceive (l : LinkId) (m : MirrorP) (s : State) : Host.Outcome State Fault Refusal :=
  .next (onMsg s l (.mirror m) fun s => if s.isTwin l then mirrorTake m s else s)

end Sys2Proof.Machine
end

