-- ==== Sys2Proof/Machine/Image.lean ====
section
/-! DEFINITION. Firmware images (R487 to R490), the slots of the flash, and the slot that the boot ROM takes (R475, R494,
R496). -/

namespace Sys2Proof.Machine

/-! ## The header (R487) -/

/-- A number of a header's field. -/
def hdrN (h : List (BitVec 8)) (off n : Nat) : Nat := bytesAt h off n

/-- FW_VER of a header (R487). -/
def fwVer (h : List (BitVec 8)) : BitVec 64 := BitVec.ofNat 64 (hdrN h 0x00C 8)

/-- The places of a header that its table lists, as offset and size (R487). -/
def hdrFields : List (Nat × Nat) :=
  [(0x000, 4), (0x004, 2), (0x006, 1), (0x008, 2), (0x00A, 2), (0x00C, 8), (0x014, 8), (0x01C, 4), (0x020, 1), (0x021, 1),
   (0x024, 4), (0x028, 4), (0x030, 48), (0x060, 48), (0x090, 1), (0x091, 1), (0x098, 8), (0x1A0, 96)]

/-- Whether every byte that the table does not list is zero (R487). -/
def hdrReservedZero (h : List (BitVec 8)) : Bool :=
  (List.range 512).all fun i => hdrFields.any (fun f => decide (f.1 ≤ i ∧ i < f.1 + f.2)) || h.getD i 0 == 0

/-- Check 1, FORMAT (R491): MAGIC, HDR_VER, TYPE, the reserved bytes and bits, and ENC_KEY, whose
other values are reserved. -/
def hdrFormat (h : List (BitVec 8)) : Bool :=
  hdrN h 0 4 == 0x42574657 && hdrN h 4 2 == 1 && (hdrN h 6 1 == 1 || hdrN h 6 1 == 2) && hdrReservedZero h &&
    hdrN h 0x091 1 < 4 && hdrN h 0x00A 2 < 2

/-- Check 2, WRONG_HW (R491). -/
def hdrHardware (h : List (BitVec 8)) : Bool := hdrN h 8 2 == 0xBD72 && hdrN h 0x00A 2 % 2 == 1

/-- Check 3, SIGNATURE (R491): the signing key is not revoked and the signature verifies. -/
def hdrSigned (revoked : BitVec 4) (h : List (BitVec 8)) : Bool :=
  hdrN h 0x090 1 < 4 && !revoked.getLsbD (hdrN h 0x090 1) && Config.signatureOk (hdrN h 0x090 1) h

/-- Check 4, SECURITY (R491). -/
def hdrSecure (minSec : BitVec 32) (h : List (BitVec 8)) : Bool := decide (minSec.toNat ≤ hdrN h 0x01C 4)

/-- The first of the checks 1 to 4 that a header fails, 0 for none (R491). -/
def hdrCheck4 (r : FwRegs) (h : List (BitVec 8)) : Nat :=
  firstReason [(!hdrFormat h, 1), (!hdrHardware h, 2), (!hdrSigned r.fwSlotsRevoked h, 3), (!hdrSecure r.fwSlotsMinSec h, 4)]

/-! ## Slots (R494, R496) -/

/-- STATE of a slot: 0 EMPTY, 1 PENDING, 2 CONFIRMED, 3 REJECTED (R502). -/
def slotState (h : Hub) (k : Bool) : BitVec 2 := if k then h.fw.fwSlotsS1State else h.fw.fwSlotsS0State

/-- STATE of a slot takes a value. -/
def setSlotState (h : Hub) (k : Bool) (st : BitVec 2) : Hub :=
  { h with fw := if k then { h.fw with fwSlotsS1State := st } else { h.fw with fwSlotsS0State := st } }

/-- What a slot holds. -/
def slotOf (h : Hub) (k : Bool) : FwSlot := if k then h.flash.slot1 else h.flash.slot0

/-- What a slot holds goes through a function. -/
def modSlotOf (h : Hub) (k : Bool) (f : FwSlot → FwSlot) : Hub :=
  { h with flash := if k then { h.flash with slot1 := f h.flash.slot1 } else { h.flash with slot0 := f h.flash.slot0 } }

/-- A slot is erased and marked EMPTY (R491, R493, R495). -/
def eraseSlot (h : Hub) (k : Bool) : Hub := setSlotState (modSlotOf h k fun _ => {}) k 0

/-- The slot that runs (R502). -/
def runningSlot (h : Hub) : Option Bool :=
  if h.fw.fwSlotsS0Running then some false else if h.fw.fwSlotsS1Running then some true else none

/-- Whether a slot is valid (R496): it holds an image, its header passes checks 1 to 4 against the fuses, and the image matches
TARGET_DIGEST. -/
def slotValid (h : Hub) (k : Bool) : Bool :=
  let x := slotOf h k
  slotState h k != 0 && hdrCheck4 h.fw x.hdr == 0 && (sha384 x.image).toNat == hdrN x.hdr 0x060 48

/-- The valid CONFIRMED slot with the higher CONFIRM_SEQ (R496). -/
def bestConfirmed (h : Hub) : Option Bool :=
  let ok (k : Bool) : Bool := slotState h k == 2 && slotValid h k
  match ok false, ok true with
  | true, true => some (decide ((slotOf h false).confirmSeq < (slotOf h true).confirmSeq))
  | true, false => some false
  | false, true => some true
  | false, false => none

/-- The slot whose trial the ROM starts: PENDING, valid and not tried (R496). -/
def trialSlot (h : Hub) : Option Bool :=
  [false, true].find? fun k => slotState h k == 1 && !(slotOf h k).tried && slotValid h k

/-- The slot that an image being received is written to: the one that does not run; in ROM recovery the one that is not valid,
slot 0 when neither is (R491, R500), and with both valid the one that R496 would not boot. -/
def receiveSlot (h : Hub) : Bool :=
  match runningSlot h with
  | some k => !k
  | none =>
    if !slotValid h false then false
    else if !slotValid h true then true
    else match bestConfirmed h with | some k => !k | none => false

/-! ## The boot ROM (R475, R496, R500) -/

/-- FW_RUNNING takes a version; each lead whose span includes the hub computes its envelope again when it changes (R363,
R499). -/
def setRunning (s : State) (v : BitVec 64) : State :=
  let same := s.hub.fw.fwRunning == v
  let s := modHub s fun h => { h with fw := { h.fw with fwRunning := v } }
  if same then s
  else (s.hub.jobs.map fun e => BitVec.ofNat 12 e.1).foldl (fun s j =>
    let a := s.hub.id.hubAddr
    if s.isLead j && (s.span j).contains a then
      envChange (modJob s j fun b => { b with hubFw := tset 0 b.hubFw a.toNat v }) j
    else s) s

/-- The hub runs a slot: RUNNING and the link versions of its image (R501, R502). -/
def runSlot (s : State) (k : Bool) : State :=
  modHub s fun h =>
    let x := (slotOf h k).hdr
    { h with
      fw := { h.fw with fwSlotsS0Running := !k, fwSlotsS1Running := k }
      id := { h.id with linkVersionVer := BitVec.ofNat 8 (hdrN x 0x020 1), linkVersionVerMin := BitVec.ofNat 8 (hdrN x 0x021 1) } }

/-- A PENDING slot found already tried is REJECTED and ROLLED_BACK is set (R496). -/
def rejectTried (s : State) (k : Bool) : State :=
  if slotState s.hub k == 1 && (slotOf s.hub k).tried then
    setCause (modHub s fun h =>
      let h := setSlotState h k 3
      { h with fw := { h.fw with fwStatusRolledBack := true } }) .hub .fw 2
  else s

/-- The boot ROM chooses the slot to boot: a trial of a PENDING slot, else the newest valid CONFIRMED one, else ROM recovery;
`recover` asks for ROM recovery outright (R475, R496, R500). -/
def romBoot (s : State) (recover : Bool) : State :=
  let s := rejectTried (rejectTried s false) true
  let s := modHub s fun h => { h with
    transfer := none
    fw := { h.fw with fwSlotsS0Running := false, fwSlotsS1Running := false, fwStaged := 0, fwStatusState := 0 } }
  let old := match bestConfirmed s.hub with | some k => fwVer (slotOf s.hub k).hdr | none => 0
  match recover, trialSlot s.hub, bestConfirmed s.hub with
  | false, some k, _ =>
    let s := modHub s fun h => { h with mod_ := { h.mod_ with modStatusRomRecovery := false } }
    let s := setRunning (runSlot (modHub s fun h => modSlotOf h k fun x => { x with tried := true }) k) old
    modHub s fun h => { h with fw := { h.fw with fwStatusState := 4, fwStaged := fwVer (slotOf h k).hdr } }
  | false, none, some k =>
    setRunning (runSlot (modHub s fun h => { h with mod_ := { h.mod_ with modStatusRomRecovery := false } }) k) old
  | _, _, _ =>
    let s := setRunning s 0
    modHub s fun h => { h with
      mod_ := { h.mod_ with modStatusRomRecovery := true } }

/-! ## Patches (R490) -/

/-- A patch runs over the installed image: the output, or none when it is malformed. The first argument bounds the records. -/
def runPatch : Nat → List (BitVec 8) → Nat → List (BitVec 8) → List (List (BitVec 8)) → Nat → Option (List (BitVec 8))
  | 0, _, _, _, _, _ => none
  | n + 1, base, size, p, out, len =>
    if p.length < 16 then none
    else
      let l := bytesAt p 4 4
      let src := bytesAt p 8 8
      let body := p.drop 16
      let put (x : List (BitVec 8)) (rest : List (BitVec 8)) : Option (List (BitVec 8)) :=
        if len + l ≤ size then runPatch n base size rest (x :: out) (len + l) else none
      match bytesAt p 0 1 with
      | 0 => if len = size then some out.reverse.flatten else none
      | 1 => if src + l ≤ base.length then put ((base.drop src).take l) body else none
      | 2 => if l ≤ body.length then put (body.take l) (body.drop ((l + 7) / 8 * 8)) else none
      | 3 => put (List.replicate l 0) body
      | _ => none

end Sys2Proof.Machine
end

