-- ==== Sys2Proof/Machine/Power.lean ====
section
/-! DEFINITION. The BM-72 module (R469 to R486): power and temperature, boot, the resets and what each of them undoes, and the
JTAG instructions. -/

namespace Sys2Proof.Machine

/-! ## What the resets undo (R482, R507) -/

/-- A unit that has been retired stays retired (R397), and a retired lane's elements are with a standby lane (R398). -/
def keepRetired (s : State) (u : BitVec 16) : State :=
  if (s.unit u).unitState == 4 then s
  else if unitClass u < 2 && (s.unit u).unitState == 0 then
    match freeStandby s (unitClass u) with
    | some v => modUnit (modUnit s u fun r => { r with unitState := 4, unitStateStandin := v }) v fun r => { r with unitState := 0 }
    | none => modUnit s u fun r => { r with unitState := 4 }
  else modUnit s u fun r => { r with unitState := 4 }

/-- The hub's retired units (R396, R397): those in the flash history, and those retired whose entry is not there yet. -/
def retiredUnits (h : Hub) : List (BitVec 16) :=
  dedup ((h.history.filter fun e => e.kind == 1).map (fun e => e.unit) ++
    (h.units.filter fun e => e.2.unitState == 4).map fun e => BitVec.ofNat 16 e.1)

/-- What an interface holds for itself returns to its reset values (R507). -/
def resetIface (s : State) (i : Iface) : State :=
  modSh s i.part fun h => { h with ifaces := tset {} h.ifaces i.key {} }

/-- The registers of the management page as the identity region holds them (R516 to R518). -/
def mgmtFromFlash (f : Flash) : MgmtRegs :=
  { mgIpv4Addr := f.ipv4, mgIpv4Prefix := f.prefixLen, mgGateway := f.gateway, mgMac := f.mac, mgQuery := f.query }

/-- The hub after a reset of its core (R482): time, links, job state and on-package memory are cleared; flash, fuses and powered
seconds are kept, and the hub draws a new route salt (R39). With `pcie` the PCIe endpoint is cleared too, with `mc` the management
controller, and otherwise each is kept. -/
def coreHub (h : Hub) (opsec : Nat) (cause : BitVec 4) (pcie mc : Bool) : Hub :=
  let copies := h.sh.ifaces.filter fun e =>
    e.1 == Iface.jtag.key || (!pcie && e.1 == Iface.pcie.key) || (!mc && e.1 == Iface.mgmt.key)
  let n : Hub := {
    flash := h.flash, history := h.history, opsecBase := opsec, salt := h.salt + 1, jtag := h.jtag
    power := { on := h.power.on, rstLow := h.power.rstLow, perst := h.power.perst, coldBoot := mc
               recover := !mc && h.power.recover
               recoverNow := mc && h.power.recover }
    fw := { fwSlotsS0State := h.fw.fwSlotsS0State, fwSlotsS1State := h.fw.fwSlotsS1State
            fwSlotsRevoked := h.fw.fwSlotsRevoked, fwSlotsMinSec := h.fw.fwSlotsMinSec }
    mod_ := { modResetCause := cause, modResetCauseBoots := h.flash.boots } }
  let n := { n with sh := { n.sh with ifaces := copies, hdr := if mc then [] else h.sh.hdr.filter fun e => e.1 == 2 || e.1 == 4 } }
  let n := if pcie then n else { n with
    msixEnable := h.msixEnable, msixMasked := h.msixMasked, msixPending := h.msixPending, msixTable := h.msixTable
    intc := { n.intc with intArmed := h.intc.intArmed }, bar2 := h.bar2 }
  if mc then n else { n with
    histQueue := h.histQueue, fw := h.fw, mgmt := h.mgmt
    transfer := h.transfer.map fun t => if hdrN t.hdr 6 1 == 2 then { t with blocks := [] } else t }

/-- A reset of the hub's core by a cause (R482, R484). -/
def coreReset (s : State) (cause : BitVec 4) (pcie mc : Bool) : State :=
  let h := s.hub
  let s := { s with hub := coreHub h s.opsec cause pcie mc }
  let s := (retiredUnits h).foldl keepRetired s
  modHub s fun h => match h.transfer with
    | some t => if t.blocks.isEmpty then { h with fw := { h.fw with fwStatusAccepted := 0, fwStatusNextMissing := 0 } } else h
    | none => h

/-- A cold reset (R482). -/
def coldReset (s : State) (cause : BitVec 4) : State := coreReset s cause true true

/-- A warm reset (R482): the PCIe endpoint and the management controller are kept. -/
def warmReset (s : State) : State := coreReset s 3 false false

/-- A controller reset (R482): the management controller starts again on the slot that the ROM selects (R496), and everything
else goes on. -/
def mcReset (s : State) : State :=
  romBoot (modHub (resetIface s .mgmt) fun h => { h with mgmt := mgmtFromFlash h.flash }) false

/-- A power-on reset (R482): as a cold one, and the JTAG TAP starts afresh. -/
def powerOnReset (s : State) (cause : BitVec 4) : State :=
  modHub (coldReset s cause) fun h => { h with
    jtag := {}, sh := { h.sh with ifaces := [] }, power := { rstLow := h.power.rstLow, perst := h.power.perst } }

/-! ## Input power (R469 to R471) -/

/-- The input voltage is shown, in units of 0.1 V (R486). -/
def showVin (s : State) (vin : BitVec 16) : State := modHub s fun h => { h with mod_ := { h.mod_ with modPowerVin := vin } }

/-- Conversion stops (R469, R472): the hub is without power, its volatile state is gone, and the cause is latched for the next
power-up; a power failure already latched stands (R470). -/
def powerOff (s : State) (cause : BitVec 4) : State :=
  if s.hub.power.on then
    let c := match s.hub.power.latch with | some c => c | none => cause
    modHub (powerOnReset s c) fun h => { h with power := { h.power with on := false, latch := some c } }
  else s

/-- POWER_INPUT_RISE (R469, R482): above 670 V conversion starts, and the hub starts from a power-on reset; the cause that the
power controller has latched is shown (R470). -/
def execPowerInputRise (vin : BitVec 16) (s : State) : Host.Outcome State Fault Refusal :=
  if s.hub.power.on || vin.toNat ≤ 6700 then .next s
  else .next (showVin (powerOnReset s (s.hub.power.latch.getD 0)) vin)

/-- POWER_UNDERVOLTAGE (R469): below 640 V conversion stops. -/
def execPowerUndervoltage (vin : BitVec 16) (s : State) : Host.Outcome State Fault Refusal :=
  if vin.toNat < 6400 then .next (powerOff s 4) else .next s

/-- POWER_OVERVOLTAGE (R469): above 880 V conversion stops. -/
def execPowerOvervoltage (vin : BitVec 16) (s : State) : Host.Outcome State Fault Refusal :=
  if 8800 < vin.toNat then .next (powerOff s 5) else .next s

/-- Whether a voltage lies in a warning band (R469). -/
def inWarnBand (vin : BitVec 16) : Bool :=
  decide ((6400 ≤ vin.toNat ∧ vin.toNat < 6800) ∨ (8600 < vin.toNat ∧ vin.toNat ≤ 8800))

/-- PWR_WARN (R469, R471, R486): a new reading of the power inputs; PWR_WARN follows the warning bands, and its cause is set
as it begins. -/
def execPwrWarn (vin pin pkg aux : BitVec 16) (s : State) : Host.Outcome State Fault Refusal :=
  if !s.hub.power.on then .next s
  else
    let warn := inWarnBand vin
    let begins := warn && !s.hub.mod_.modStatusPwrWarn
    let s := modHub s fun h => { h with mod_ := { h.mod_ with
      modPowerVin := vin, modPowerPin := pin, modPowerPkg := pkg, modPowerAux := aux, modStatusPwrWarn := warn } }
    .next (if begins then setCause s .hub .mod 2 else s)

/-- POWER_INTERRUPTION (R470): during the warning every link stops and the history entry being written is completed; entries
not begun are lost, and the cause is latched. -/
def execPowerInterruption (s : State) : Host.Outcome State Fault Refusal :=
  if !s.hub.power.on then .next s
  else
    let s := (s.activeLinks .hub).foldl linkLeave s
    let s := modHub s fun h => { h with
      admitQ := []
      sh := { h.sh with links := tmap {} (fun _ k => { k with regs := { k.regs with lkState := 0 } }) h.sh.links }
      history := match h.histQueue with
        | e :: _ => (if h.history.length < historySize then h.history else compactHistory h.history) ++ [e]
        | [] => h.history
      histQueue := []
      power := { h.power with latch := some 7 } }
    .next (updReady s)

/-! ## Cooling (R472) -/

/-- THERM_WARN (R472): a new reading of the hottest junction and the inlet; THERM_WARN is 1 while the junction is at or above
WARN_C, and its cause is set as it begins. -/
def execThermWarn (tj inlet : BitVec 16) (s : State) : Host.Outcome State Fault Refusal :=
  if !s.hub.power.on then .next s
  else
    let warn := decide ((s.hub.mod_.modTempWarnC.toNat * 10 : Int) ≤ tj.toInt)
    let begins := warn && !s.hub.mod_.modStatusThermWarn
    let s := modHub s fun h => { h with mod_ := { h.mod_ with
      modTempTj := tj, modTempInlet := inlet, modStatusThermWarn := warn } }
    .next (if begins then setCause s .hub .mod 1 else s)

/-- THERMAL_TRIP (R472): the junction at or above 115 °C, or the inlet above 50 °C for `sec` seconds and these are at least 10,
stops conversion. -/
def execThermalTrip (tj inlet : BitVec 16) (sec : BitVec 16) (s : State) : Host.Outcome State Fault Refusal :=
  if 1150 ≤ tj.toInt ∨ (500 < inlet.toInt ∧ 10 ≤ sec.toNat) then .next (powerOff s 6) else .next s

/-! ## Boot (R475 to R477, R515, R516) -/

/-- BOOT_ROM_START (R475, R486, R496, R500): with the core reset released the ROM boots a slot; a warm reset keeps the management
controller and the image it runs. -/
def execBootRomStart (s : State) : Host.Outcome State Fault Refusal :=
  if !s.hub.power.on || s.hub.power.rstLow || s.hub.mod_.modStatusPhase != 0 then .next s
  else
    let cold := s.hub.power.coldBoot
    let recover := s.hub.power.recoverNow
    let s := modHub s fun h => { h with
      flash := { h.flash with boots := satInc h.flash.boots }
      mod_ := { h.mod_ with modStatusPhase := 1, modResetCauseBoots := satInc h.flash.boots }
      power := { h.power with coldBoot := false, recoverNow := false } }
    .next (if cold then romBoot s recover
      else match runningSlot s.hub with
        | some k => runSlot s k
        | none => romBoot s false)

/-- The ports of a list of roles that are not OFF, in ascending number (R477). -/
def portsOf (s : State) (roles : List (BitVec 3)) : List (BitVec 7) :=
  ((List.range 72).map fun i => BitVec.ofNat 7 i).filter fun p => roles.contains (s.page .hub p).role.portRole

/-- BOOT_DONE (R476, R477, R486, R516): the controller loads the identity region, every page answers, and the ports wait for
admission, those toward parents, the twin and peers first. `ms` is the time since the input rose. -/
def execBootDone (ms : BitVec 32) (s : State) : Host.Outcome State Fault Refusal :=
  if s.hub.mod_.modStatusPhase != 1 || s.hub.mod_.modStatusRomRecovery || (runningSlot s.hub).isNone then .next s
  else
    let q := portsOf s [1, 3, 4] ++ portsOf s [2]
    .next (updReady (modHub s fun h => { h with
      id := { h.id with hubAddr := h.flash.hubAddr }
      mgmt := { mgmtFromFlash h.flash with
        mgStatusRxDrop := h.mgmt.mgStatusRxDrop, mgStatusTxDrop := h.mgmt.mgStatusTxDrop, mgStatusLinkUp := h.mgmt.mgStatusLinkUp }
      mod_ := { h.mod_ with
        modStatusBootDone := true, modStatusPhase := if q.isEmpty then 3 else 2, modTimesBootMs := ms }
      power := { h.power with bootAt := h.sh.tb.cycles }
      admitQ := q }))

/-! ## Resets (R482 to R484, R507) -/

/-- MOD_RST_N (R482, R484): low for at least 1 µs it causes a cold reset, and while it is low the core reset is not released;
`ns` is how long it has been low, and `low` whether it still is. -/
def execModRstN (ns : BitVec 32) (low : Bool) (s : State) : Host.Outcome State Fault Refusal :=
  if !s.hub.power.on then .next s
  else
    let s := modHub s fun h => { h with power := { h.power with rstLow := low } }
    .next (if 1000 ≤ ns.toNat then coldReset s 1 else s)

/-- A write of MOD_RESET (R483, R484): it takes effect only with KEY 0xA5, and the widest reset asked for acts. -/
def modResetWrite (i : Iface) (v : Word) (s : State) : Bool × State :=
  onPart .hub i s fun s =>
    if (getF v 0 8 : BitVec 8) ≠ 0xA5 then refused s .hub .mod
    else if getB v 63 then accept (coldReset s 2)
    else if getB v 62 then accept (warmReset s)
    else if getB v 61 then accept (mcReset s)
    else accept s

/-- MOD_RESET_COLD (R483). -/
def execModResetCold (i : Iface) (data : Word) (s : State) : Host.Outcome State Fault Refusal :=
  ackMod i s (modResetWrite i (data ||| putB 63 true) s)

/-- MOD_RESET_WARM (R483). -/
def execModResetWarm (i : Iface) (data : Word) (s : State) : Host.Outcome State Fault Refusal :=
  ackMod i s (modResetWrite i ((data &&& ~~~ putB 63 true) ||| putB 62 true) s)

/-- MOD_RESET_MC (R482, R483). -/
def execModResetMc (i : Iface) (data : Word) (s : State) : Host.Outcome State Fault Refusal :=
  ackMod i s (modResetWrite i ((data &&& ~~~ (putB 63 true ||| putB 62 true)) ||| putB 61 true) s)

/-- PERST (R482, R507, R527): the PCIe endpoint is cleared; its vectors are armed, and the mailbox is empty. -/
def execPerst (s : State) : Host.Outcome State Fault Refusal :=
  .next (modHub (resetIface s .pcie) fun h => { h with
    msixEnable := false, msixMasked := 0xFFFFFFFFFFFFFFFF, msixPending := 0, msixTable := [], bar2 := []
    intc := { h.intc with intArmed := 0xFFFFFFFFFFFFFFFF }
    power := { h.power with perst := true } })

/-- PERST_RELEASE (R476): the endpoint leaves reset and answers, whether or not firmware has booted. -/
def execPerstRelease (s : State) : Host.Outcome State Fault Refusal :=
  .next (modHub s fun h => { h with power := { h.power with perst := false } })

/-- TRST (R482, R485, R507): the JTAG TAP is reset, with IDCODE as its instruction. -/
def execTrst (s : State) : Host.Outcome State Fault Refusal :=
  .next (modHub (resetIface s .jtag) fun h => { h with jtag := {} })

/-! ## JTAG (R485) -/

/-- The TAP takes an instruction. -/
def setIr (s : State) (ir : JtagIr) : State := modHub s fun h => { h with jtag := { h.jtag with ir := ir } }

/-- JTAG_BYPASS (R485): the one-bit bypass register captures 0. -/
def execJtagBypass (s : State) : Host.Outcome State Fault Refusal := .next (emit (setIr s .bypass) (.jtag [false]))

/-- JTAG_SAMPLE_PRELOAD (R485): the pins are sampled and shifted out, and the boundary register is loaded with what is shifted
in. -/
def execJtagSamplePreload (pins load : List Bool) (s : State) : Host.Outcome State Fault Refusal :=
  .next (emit (modHub (setIr s .samplePreload) fun h => { h with jtag := { h.jtag with boundary := load } }) (.jtag pins))

/-- IDCODE of the hub (R485): version 0x2, part 0xBD72, manufacturer code 0x537, and the 1 that ends every identity. -/
def idcode : BitVec 32 := 0x2BD72A6F

/-- JTAG_IDCODE (R485): the identity is shifted out, least significant bit first. -/
def execJtagIdcode (s : State) : Host.Outcome State Fault Refusal :=
  .next (emit (setIr s .idcode) (.jtag ((List.range 32).map fun i => idcode.getLsbD i)))

/-- JTAG_EXTEST (R485): while MOD_RST_N is low the pins are driven from the boundary register and those sampled are shifted out;
otherwise the TAP selects BYPASS. -/
def execJtagExtest (pins load : List Bool) (s : State) : Host.Outcome State Fault Refusal :=
  if s.hub.power.rstLow then
    let s := emit (setIr s .extest) (.jtagPins s.hub.jtag.boundary)
    .next (emit (modHub s fun h => { h with jtag := { h.jtag with boundary := load } }) (.jtag pins))
  else .next (emit (setIr s .bypass) (.jtag [false]))

end Sys2Proof.Machine
end

