-- ==== Sys2Proof/Machine/Fw.lean ====
section
/-! DEFINITION. Updating hub firmware (R487 to R502): receiving an image, applying it, the trial and its confirmation, and ROM
recovery. -/

namespace Sys2Proof.Machine

/-- The FW registers go through a function. -/
def modFw (s : State) (f : FwRegs → FwRegs) : State := modHub s fun h => { h with fw := f h.fw }

/-- STATE as FW_STATUS shows it: ROM_RECOVERY while the hub is in recovery (R500). -/
def fwShown (s : State) : BitVec 3 := if s.hub.mod_.modStatusRomRecovery then 5 else s.hub.fw.fwStatusState

/-- Bytes of the mailbox in BAR2 (R420, R491, R492). -/
def mailbox (s : State) (n : Nat) : List (BitVec 8) := (List.range n).map fun i => tget 0 s.hub.bar2 i

/-- A header or an image is refused with a result (R491, R493). -/
def refuseImage (s : State) (r : Nat) : State :=
  setCause (modFw s fun f => { f with fwStatusResult := BitVec.ofNat 4 r, fwErrRefused := satInc f.fwErrRefused }) .hub .fw 1

/-- Check 5, BASE (R491, R500): a DELTA applies to the version and the image that run; in ROM recovery none does. -/
def hdrBase (s : State) (h : List (BitVec 8)) : Bool :=
  hdrN h 6 1 != 2 || match runningSlot s.hub with
    | some k =>
      let x := slotOf s.hub k
      hdrN h 0x014 8 == hdrN x.hdr 0x00C 8 && hdrN h 0x030 48 == (sha384 x.image).toNat
    | none => false

/-- Check 6, SIZE (R491). -/
def hdrSize (h : List (BitVec 8)) : Bool :=
  let n := hdrN h 0x028 4
  let b := hdrN h 0x024 4 + 1
  decide (1 ≤ n ∧ n ≤ 100270080 ∧ b ≤ 24576) && (hdrN h 6 1 != 1 || b == (n + 4095) / 4096)

/-- Check 7, LINK (R491, R501): every ACTIVE partner presented at least LINK_MIN, and LINK_VER is at most one above it. -/
def hdrLink (s : State) (h : List (BitVec 8)) : Bool :=
  let low := hdrN h 0x021 1
  ((s.activeLinks .hub).all fun l => decide (low ≤ (s.link l).peerVer.toNat)) && decide (hdrN h 0x020 1 ≤ low + 1)

/-- The result of the checks of R491 in order; 0 when the header passes. -/
def hdrResult (s : State) (h : List (BitVec 8)) : Nat :=
  let r := hdrCheck4 s.hub.fw h
  if r ≠ 0 then r
  else firstReason [(!hdrBase s h, 5), (!hdrSize h, 6), (!hdrLink s h, 7), (s.hub.fw.fwStatusState == 2, 8)]

/-- A header is taken from the mailbox (R491): refused, or the inactive slot is erased and the image is received. -/
def fwHeader (s : State) : State :=
  let h := mailbox s 512
  let r := hdrResult s h
  if r ≠ 0 then refuseImage s r
  else
    let k := receiveSlot s.hub
    let s := modHub s fun x => eraseSlot { x with transfer := some { slot := k, hdr := h } } k
    modFw s fun f => { f with
      fwStatusState := 1, fwStatusResult := 0, fwStatusAccepted := 0, fwStatusNextMissing := 0, fwStaged := 0 }

/-- The IV of a block: the transfer nonce followed by its number (R489). -/
def blockIv (h : List (BitVec 8)) (i : Nat) : List (BitVec 8) := (h.drop 0x098).take 8 ++ natToBytes 4 i

/-- The additional data of a block: TARGET_DIGEST followed by its number (R489). -/
def blockAad (h : List (BitVec 8)) (i : Nat) : List (BitVec 8) := (h.drop 0x060).take 48 ++ natToBytes 4 i

/-- A payload block is opened (R489, R492). -/
def openBlock (h : List (BitVec 8)) (i : Nat) (b : List (BitVec 8)) : Option (List (BitVec 8)) :=
  gcmOpen (Config.imageKey (hdrN h 0x091 1)) (blockIv h i) (blockAad h i) (b.take 4096) (b.drop 4096)

/-- A block refused for the state or its number is counted (R492). -/
def fwRange (s : State) : State := modFw s fun f => { f with fwErrRange := satInc f.fwErrRange }

/-- A block is taken from the mailbox under INDEX (R492): refused, dropped, ignored or accepted; after the last one the image is
applied (R493). -/
def fwBlock (s : State) : State :=
  let i := s.hub.fw.fwCtrlIndex.toNat
  match s.hub.transfer with
  | some t =>
    if s.hub.fw.fwStatusState != 1 || decide (hdrN t.hdr 0x024 4 < i) then fwRange s
    else match openBlock t.hdr i (mailbox s 4112), tget none t.blocks i with
      | none, _ => modFw s fun f => { f with fwErrTagFail := satInc f.fwErrTagFail }
      | some _, some _ => modFw s fun f => { f with fwErrDup := satInc f.fwErrDup }
      | some p, none =>
        let bs := tset none t.blocks i (some p)
        let n := hdrN t.hdr 0x024 4 + 1
        modFw (modHub s fun h => { h with transfer := some { t with blocks := bs } }) fun f => { f with
          fwStatusAccepted := satNat 15 bs.length
          fwStatusNextMissing := satNat 15 (((List.range n).find? fun k => (tget none bs k).isNone).getD n)
          fwStatusState := if bs.length = n then 2 else 1 }
  | none => fwRange s

/-- The transfer, or the staged image, is discarded (R495); while an image is applied the write is refused. -/
def fwAbort (s : State) : Bool × State :=
  if s.hub.fw.fwStatusState = 2 then refused s .hub .fw
  else if s.hub.fw.fwStatusState = 1 ∨ s.hub.fw.fwStatusState = 3 then
    let k := match s.hub.transfer with | some t => t.slot | none => receiveSlot s.hub
    accept (modFw (modHub s fun h => eraseSlot { h with transfer := none } k) fun f => { f with
      fwStatusState := 0, fwStatusAccepted := 0, fwStatusNextMissing := 0, fwStaged := 0 })
  else accept s

/-- Whether the twin hinders a trial (R497): it is out of service or in a trial, or this hub is in plane A and the twin runs an
older version than the one staged. In ROM recovery the hub has no links and no twin to wait for (R500). -/
def twinHinders (s : State) (twinVer : BitVec 64) (twinState : BitVec 3) : Bool :=
  !s.hub.mod_.modStatusRomRecovery &&
    ((s.roleLinks 3).isEmpty || twinState == 4 ||
      (!planeOf s.hub.id.hubAddr && decide (twinVer.toNat < s.hub.fw.fwStaged.toNat)))

/-- A trial starts by a controller reset, in ROM recovery by a cold one (R497, R500). -/
def fwActivate (s : State) (twinVer : BitVec 64) (twinState : BitVec 3) : Bool × State :=
  if s.hub.fw.fwStatusState ≠ 3 ∨ twinHinders s twinVer twinState then refused s .hub .fw
  else if s.hub.mod_.modStatusRomRecovery then accept (coldReset s 2)
  else accept (mcReset s)

/-- Whether a key signs a CONFIRMED slot (R488). -/
def signsConfirmed (h : Hub) (k : BitVec 2) : Bool :=
  [false, true].any fun x => slotState h x == 2 && hdrN (slotOf h x).hdr 0x090 1 == k.toNat

/-- The fuse of a signing key is blown, unless it signs a CONFIRMED slot (R488). -/
def fwRevoke (s : State) (k : BitVec 2) : Bool × State :=
  if signsConfirmed s.hub k then refused s .hub .fw
  else accept (modFw s fun f => { f with fwSlotsRevoked := setBit f.fwSlotsRevoked k.toNat true })

/-- One of a write's commands acts after those before it, and the write is refused when any was. -/
def andThen (r : Bool × State) (c : Bool) (f : State → Bool × State) : Bool × State :=
  if c then let q := f r.2; (r.1 || q.1, q.2) else r

/-- A write of FW_CTRL (R491 to R500, R502): INDEX is taken, and each command whose bit is set acts, in the order of the bits;
ACTIVATE, RECOVER and REVOKE need KEY 0xA5. -/
def fwCtrlWrite (i : Iface) (v : Word) (twinVer : BitVec 64) (twinState : BitVec 3) (s : State) : Bool × State :=
  onPart .hub i s fun s =>
    let key : Bool := (getF v 32 8 : BitVec 8) == 0xA5
    let keyed (f : State → Bool × State) (s : State) : Bool × State := if key then f s else refused s .hub .fw
    let r := accept (modFw s fun f => f.write 0x040 v)
    let r := andThen r (getB v 63) fun s => accept (fwHeader s)
    let r := andThen r (getB v 62) fun s => accept (fwBlock s)
    let r := andThen r (getB v 61) (keyed fun s => fwActivate s twinVer twinState)
    let r := andThen r (getB v 60) fwAbort
    let r := andThen r (getB v 59) (keyed fun s => accept (modHub s fun h => { h with power := { h.power with recover := true } }))
    andThen r (getB v 58) (keyed fun s => fwRevoke s (getF v 48 2))

/-- A write of FW_CTRL with one command bit and no other. -/
def oneCommand (b : Nat) (v : Word) : Word := (v &&& 0x03FFFFFFFFFFFFFF) ||| putB b true

/-- FW_HEADER (R487, R491, R500). -/
def execFwHeader (i : Iface) (data : Word) (s : State) : Host.Outcome State Fault Refusal :=
  ackFw i s (fwCtrlWrite i (oneCommand 63 data) 0 0 s)

/-- FW_BLOCK (R489, R492). -/
def execFwBlock (i : Iface) (data : Word) (s : State) : Host.Outcome State Fault Refusal :=
  ackFw i s (fwCtrlWrite i (oneCommand 62 data) 0 0 s)

/-- FW_ABORT (R495). -/
def execFwAbort (i : Iface) (data : Word) (s : State) : Host.Outcome State Fault Refusal :=
  ackFw i s (fwCtrlWrite i (oneCommand 60 data) 0 0 s)

/-- FW_ACTIVATE (R497, R500), with FW_RUNNING and STATE as the twin answers. -/
def execFwActivate (i : Iface) (data : Word) (twinVer : BitVec 64) (twinState : BitVec 3) (s : State) :
    Host.Outcome State Fault Refusal :=
  ackFw i s (fwCtrlWrite i (oneCommand 61 data) twinVer twinState s)

/-- FW_RECOVER (R500). -/
def execFwRecover (i : Iface) (data : Word) (s : State) : Host.Outcome State Fault Refusal :=
  ackFw i s (fwCtrlWrite i (oneCommand 59 data) 0 0 s)

/-- FW_REVOKE (R488). -/
def execFwRevoke (i : Iface) (data : Word) (s : State) : Host.Outcome State Fault Refusal :=
  ackFw i s (fwCtrlWrite i (oneCommand 58 data) 0 0 s)

/-- The image that the accepted blocks give (R489, R490, R493): none when a patch is malformed. -/
def builtImage (h : Hub) (t : Transfer) : Option (List (BitVec 8)) :=
  let p := ((List.range (hdrN t.hdr 0x024 4 + 1)).map fun i => (tget none t.blocks i).getD []).flatten
  let size := hdrN t.hdr 0x028 4
  if hdrN t.hdr 6 1 = 1 then some (p.take size)
  else
    let base := match runningSlot h with | some k => (slotOf h k).image | none => []
    runPatch (p.length / 16 + 1) base size p [] 0

/-- An image that cannot be staged: its slot is EMPTY and STATE is IDLE again (R493). -/
def rejectImage (s : State) (k : Bool) (r : Nat) : State :=
  let s := modFw (modHub s fun h => eraseSlot { h with transfer := none } k) fun f => { f with fwStatusState := 0 }
  refuseImage s r

/-- FW_APPLY_DONE (R490, R493, R494): the image is built and its digest compared; it is staged in its slot, or refused. -/
def execFwApplyDone (s : State) : Host.Outcome State Fault Refusal :=
  if s.hub.fw.fwStatusState ≠ 2 then .next s
  else match s.hub.transfer with
    | none => .next s
    | some t =>
      match builtImage s.hub t with
      | none => .next (rejectImage s t.slot 10)
      | some img =>
        if (sha384 img).toNat ≠ hdrN t.hdr 0x060 48 then .next (rejectImage s t.slot 9)
        else
          let (n, s) := s.fresh
          let s := modHub s fun h =>
            setSlotState (modSlotOf { h with transfer := none } t.slot fun _ =>
              { hdr := t.hdr, nonce := Config.slotNonce n, image := img }) t.slot 1
          .next (setCause (modFw s fun f => { f with fwStatusState := 3, fwStaged := fwVer t.hdr }) .hub .fw 0)

/-- The slot under trial: it runs and is still PENDING (R496 to R498). -/
def onTrial (h : Hub) : Option Bool := (runningSlot h).filter fun k => slotState h k == 1

/-- FW_CONFIRM (R498, R499): the trial slot is CONFIRMED under the next CONFIRM_SEQ, MIN_SEC rises to its SEC_VER, and FW_RUNNING
takes its version. -/
def execFwConfirm (s : State) : Host.Outcome State Fault Refusal :=
  match onTrial s.hub with
  | none => .next s
  | some k =>
    let seq := Nat.max (slotOf s.hub false).confirmSeq (slotOf s.hub true).confirmSeq + 1
    let x := slotOf s.hub k
    let sec := hdrN x.hdr 0x01C 4
    let s := modHub s fun h => setSlotState (modSlotOf h k fun x => { x with confirmSeq := seq }) k 2
    let s := modFw s fun f => { f with
      fwStatusState := 0, fwStaged := 0
      fwSlotsMinSec := if f.fwSlotsMinSec.toNat < sec then BitVec.ofNat 32 sec else f.fwSlotsMinSec }
    .next (setRunning s (fwVer x.hdr))

/-- FW_TRIAL_TIMEOUT (R498): a trial that its watchdog, or its limit of 10 s, ends: a controller reset, and the ROM falls back. -/
def execFwTrialTimeout (s : State) : Host.Outcome State Fault Refusal :=
  match onTrial s.hub with
  | none => .next s
  | some _ => .next (mcReset s)

end Sys2Proof.Machine
end

