-- ==== Sys2Proof/Machine/Read.lean ====
section
/-! DEFINITION. Reading a register by its address, through any interface (R170, R503 to R529): where an address lies, what each
page shows, and what a read clears, pops or latches. -/

namespace Sys2Proof.Machine

/-! ## The maps (R503, R512 to R514) -/

/-- The last register a page implements, by its offset. -/
def lastOffset (p : Part) : Page → Nat
  | .hubid => 0x058
  | .root => 0x058
  | .mod => 0x068
  | .fw => 0x068
  | .intc => match p with | .hub => 0x078 | .tsu => 0x048
  | .mgmt => 0x060
  | .timebase => 0x078
  | .vernier => 0x060
  | .emu _ => 0x098
  | .servo => 0x088
  | .ref => 0x0A8
  | .xlat => 0x058
  | .ladle => 0x078
  | .synch => 0x070
  | .steph => 0x078
  | .late => 0x080
  | .progh => 0x0E0
  | .seq => 0x0E0
  | .stock => 0x088
  | .digh => 0x0D0
  | .audit => 0x1F8
  | .deth => 0x128
  | .evh => 0x0A8
  | .flt => 0x0C0
  | .txn => 0x0A0
  | .memc _ => 0x058
  | .link _ => 0x1C8
  | .phy _ => 0x058
  | .evtrig => 0x0A8
  | .dfc => 0x098
  | .tap => 0x0B0
  | .sync => 0x0B8
  | .step => 0x068
  | .spt => 0x060
  | .digt => 0x070
  | .det => 0x088
  | .evq => 0x098
  | .txnt => 0x050

/-- Whether a page has a register at an offset (R171, R512). -/
def implemented (p : Part) (g : Page) (off : Nat) : Bool :=
  off % 8 == 0 && decide (off ≤ lastOffset p g) &&
    match g with
    | .audit => decide (off ≤ 0x078) || decide (0x100 ≤ off)
    | .link _ => decide (off < 0x040) || (off == 0x040 && p == .hub) || (decide (0x100 ≤ off) && decide (off ≤ 0x178)) ||
        decide (0x180 ≤ off)
    | _ => true

/-- What lies at an address. -/
inductive Place where
  | reg (g : Page) (off : Nat)
  | xbuf (k : BitVec 13)
  | msix (k : Nat)
  | pba
  | nothing
  deriving DecidableEq, Repr

/-- What lies at a byte address of an interface's part (R503, R510 to R514): the MSI-X table and the pending-bit array answer
only PCIe. -/
def locate (i : Iface) (a : BitVec 24) : Place :=
  let n := a.toNat / 4096
  let off := a.toNat % 4096
  if off % 8 ≠ 0 then .nothing
  else match i.part with
    | .hub =>
      if n = 0xF00 then (if i = .pcie ∧ off < 1024 then .msix (off / 8) else .nothing)
      else if n = 0xF01 then (if i = .pcie ∧ off = 0 then .pba else .nothing)
      else match Page.atNumber .hub n with
        | some g => if implemented .hub g off then .reg g off else .nothing
        | none => .nothing
    | .tsu =>
      if 0x30 ≤ n ∧ n < 0x40 then .xbuf (BitVec.ofNat 13 ((a.toNat - 0x30000) / 8))
      else match Page.atNumber .tsu n with
        | some g => if implemented .tsu g off then .reg g off else .nothing
        | none => .nothing

/-- Whether a place does not answer an interface: before BOOT_DONE, or in ROM recovery (R476, R500). -/
def shut (s : State) (i : Iface) : Place → Bool
  | .reg .mod _ => false
  | .reg .fw _ => i == .pcie && !s.hub.mod_.modStatusBootDone && !s.hub.mod_.modStatusRomRecovery
  | _ => closed s i

/-- Word `k` of a wide register whose word 0 holds its highest bits. -/
def highWord {w : Nat} (x : BitVec w) (k : Nat) : Word := x.extractLsb' (w - 64 * (k + 1)) 64

/-- Word `k` of a wide register whose word 0 holds its lowest bits. -/
def lowWord {w : Nat} (x : BitVec w) (k : Nat) : Word := x.extractLsb' (64 * k) 64

/-! ## The header (R504 to R506) -/

/-- A header register (R504). -/
def readHdr (p : Part) (g : Page) (off : Nat) (s : State) : Word :=
  let h := s.hdr p g
  match off with
  | 0x000 => putF 32 (BitVec.ofNat 16 ((g.ordinal p).getD 0)) ||| putF 16 g.block ||| putF 0 (BitVec.ofNat 16 g.inst)
  | 0x008 => 0x00010000
  | 0x018 => putB 1 (h.pageErrCount == 0xFFFFFFFF) ||| putB 0 (s.pending? p g)
  | _ => h.read off

/-! ## Time pages -/

/-- The TIMEBASE page (R72). -/
def readTimebase (i : Iface) (off : Nat) (s : State) : Word × State :=
  if off = 0x040 then nowLoRead i s
  else if off < 0x060 then ((s.iface i).regs.readTimebase off, s)
  else ((s.sh i.part).tb.regs.read off, modTbRegs s i.part fun r => r.clear off)

/-- The VERNIER page (R95). -/
def readVernier (p : Part) (off : Nat) (s : State) : Word :=
  let v := (s.sh p).vern
  if off = 0x060 then (s.cluster p v.regs.vernSel).shown.read off else v.regs.read off

/-- An EMU page (R93, R94). -/
def readEmu (i : Iface) (e : BitVec 2) (off : Nat) (s : State) : Word × State :=
  if off = 0x070 then emuMeanRead i e s
  else if off = 0x090 then emuLastTickRead i e s
  else if off = 0x078 ∨ off = 0x080 ∨ off = 0x088 ∨ off = 0x098 then ((tget {} (s.iface i).emu e.toNat).read off, s)
  else ((s.emu i.part e).regs.read off, modEmu s i.part e fun g => { g with regs := g.regs.clear off })

/-- SERVO_STATUS.INPUT (R156). -/
def inputShown (s : State) (p : Part) : BitVec 8 :=
  match s.servoInput p with
  | some .ref => 0xFE
  | some (.link l) => l.port.setWidth 8
  | none => 0xFF

/-- The SERVO page (R156): HOLD_MS counts the present HOLDOVER, and DIFF reads zero on a hub. -/
def readServo (p : Part) (off : Nat) (s : State) : Word × State :=
  let v := (s.sh p).servo
  let w := v.regs.read off
  let ms : Nat := if v.regs.servoStatusState == 3 then ((s.sh p).tb.cycles - v.holdAt).toNat / 1000000 else 0
  let w := if off = 0x068 then w ||| putF 32 (satNat 16 ms) ||| putF 24 (inputShown s p) else w
  let w := if off = 0x078 ∧ p = .hub then w &&& 0xFFFF000000000000 else w
  (w, modServoRegs s p fun r => r.clear off)

/-- The REF page (R157). -/
def readRef (off : Nat) (s : State) : Word × State :=
  (s.hub.ref.regs.read off, modHub s fun h => { h with ref := { h.ref with regs := h.ref.regs.clear off } })

/-! ## Pages of the hub -/

/-- The HUBID page (R515). -/
def readHubid (off : Nat) (s : State) : Word :=
  match off with
  | 0x040 => 0xBD72B120
  | 0x048 => s.hub.fw.fwRunning
  | _ => s.hub.id.read off

/-- The FW page (R502). -/
def readFw (off : Nat) (s : State) : Word × State :=
  ({ s.hub.fw with fwStatusState := fwShown s }.read off, modFw s fun f => f.clear off)

/-- The hub's INTC page (R526). -/
def readIntcHub (off : Nat) (s : State) : Word × State :=
  if off < 0x060 then (pendBits s .hub (64 * ((off - 0x040) / 8)), s)
  else if off = 0x060 then (intVec s, s)
  else (s.hub.intc.read off, modHub s fun h => { h with intc := h.intc.clear off })

/-- The MGMT page (R517). -/
def readMgmt (off : Nat) (s : State) : Word × State :=
  (s.hub.mgmt.read off, modHub s fun h => { h with mgmt := h.mgmt.clear off })

/-- The XLAT page (R520). -/
def readXlat (i : Iface) (off : Nat) (s : State) : Word × State :=
  let r := (s.iface i).regs
  let j := r.xlSelJob
  match off with
  | 0x040 => (r.readXlat off, s)
  | 0x048 =>
    (match s.rankEp j r.xlSelRank with
      | some e => putB 63 true ||| putB 62 (s.isFenced j e) ||| putF 0 e
      | none => 0, s)
  | 0x050 =>
    (putF 48 (s.job j).xlRefused ||| s.hub.xlat.read off,
      modJob (modHub s fun h => { h with xlat := h.xlat.clear off }) j fun b => { b with xlRefused := 0 })
  | _ => (BitVec.ofNat 64 s.hub.xlCache.length, s)

/-- The LADLE page (R521). -/
def readLadle (i : Iface) (off : Nat) (s : State) : Word × State :=
  let r := (s.iface i).regs
  let g : Group := tget {} s.hub.groups r.ldSel.toNat
  if off = 0x040 then (r.readLadle off, s)
  else if off = 0x048 then
    (match g.owner with
      | some j => putB 63 true ||| putF 0 j
      | none => 0, s)
  else if off < 0x078 then (lowWord (s.legalMask g.mask) ((off - 0x050) / 8), s)
  else (s.hub.ladle.read off, modHub s fun h => { h with ladle := h.ladle.clear off })

/-- The SYNCH page (R249). -/
def readSynch (i : Iface) (off : Nat) (s : State) : Word × State :=
  let r := (s.iface i).regs
  let b := s.barrier r.shSelJob r.shSelObj
  match off with
  | 0x040 => (r.readSynch off, s)
  | 0x048 =>
    (match b with
      | some x => putB 63 true ||| putB 62 (s.job r.shSelJob).leads ||| x.regs.read off
      | none => 0, s)
  | 0x060 => ((s.job r.shSelJob).releaseLead.setWidth 64, s)
  | 0x070 => (BitVec.ofNat 64 (s.hub.jobs.foldl (fun n e => n + e.2.barriers.length) 0), s)
  | 0x068 => (s.hub.synch.read off, modSynch s fun x => x.clear off)
  | _ => (match b with | some x => x.regs.read off | none => 0, s)

/-- The STEPH page (R271). -/
def readSteph (i : Iface) (off : Nat) (s : State) : Word × State :=
  let r := (s.iface i).regs
  if off = 0x040 then (r.readSteph off, s)
  else if s.isHome r.sthSel then
    ((s.job r.sthSel).steph.read off, modJob s r.sthSel fun b => { b with steph := b.steph.clear off })
  else (0, s)

/-- The LATE page (R274). -/
def readLate (i : Iface) (off : Nat) (s : State) : Word × State :=
  let r := (s.iface i).regs
  let x := s.lateOf r.ltSelJob r.ltSelRank
  let served := match s.rankEp r.ltSelJob r.ltSelRank with | some e => s.serves e | none => false
  match off with
  | 0x040 => (r.readLate off, s)
  | 0x048 => (x.regs.read off ||| putF 16 (s.job r.ltSelJob).stepObj, s)
  | 0x050 => (x.regs.read off ||| putB 63 served, s)
  | 0x058 => ltMeanRead i s
  | 0x078 => (x.regs.read off, s)
  | 0x080 => (s.hub.late.read off, modHub s fun h => { h with late := h.late.clear off })
  | _ => (r.readLate off, s)

/-- The SEQ page of a TSU and the PROGH page of a hub (R296). -/
def readProg (i : Iface) (off : Nat) (s : State) : Word × State :=
  let x := s.progSite i
  let q := s.seq x
  if off = 0x040 then (if i.part = .hub then (s.iface i).regs.readSeqProgh off else 0, s)
  else if off = 0x058 then progDataRead i s
  else if 0x068 ≤ off ∧ off ≤ 0x090 then (highWord q.digest ((off - 0x068) / 8), s)
  else if off = 0x0A0 then
    (if i.part = .hub then q.regs.read off &&& 0xFFFFFFFF00000000 else q.regs.read off, modSeqRegs s x fun r => r.clear off)
  else if 0x0A8 ≤ off ∧ off ≤ 0x0C0 then (lowWord q.mapStep ((off - 0x0A8) / 8), s)
  else if 0x0C8 ≤ off then (lowWord q.mapRun ((off - 0x0C8) / 8), s)
  else (q.regs.read off, s)

/-- The older open buffer of a context (R330): of the two buffers that are not FREE, the one of the lower step. -/
def olderBuf (x : HubCtx) : Option StepBuf :=
  match x.a.state != 0, x.b.state != 0 with
  | true, true => some (if x.b.step.toNat < x.a.step.toNat then x.b else x.a)
  | true, false => some x.a
  | false, true => some x.b
  | false, false => none

/-- The STOCK page (R330). -/
def readStock (i : Iface) (off : Nat) (s : State) : Word × State :=
  let r := (s.iface i).regs
  let x := s.ctx r.spSelJob r.spSelCtx
  let spill (b : StepBuf) : Bool := b.state != 0 && b.place == 2
  match off with
  | 0x040 => (r.readStock off, s)
  | 0x058 =>
    (putF 61 x.a.state ||| putB 60 (spill x.a) ||| putF 57 x.b.state ||| putB 56 (spill x.b) |||
      (match olderBuf x with
        | some b => putF 40 (resultFlags b (b.elems.map fun e => e.2) b.range) |||
            putF 0 (BitVec.ofNat 17 (bufDone x.regs.spCfg b))
        | none => 0), s)
  | 0x060 => (match olderBuf x with | some b => b.step | none => 0, s)
  | 0x078 =>
    (putF 32 (BitVec.ofNat 22 s.reservedSlots) |||
      putF 0 (BitVec.ofNat 13 (s.hub.jobs.foldl (fun n e => n + e.2.peakCtx.toNat) 0)), s)
  | 0x080 =>
    (putF 32 (BitVec.ofNat 22 (s.slotsIn 2)) ||| s.hub.stock.read off,
      modHub s fun h => { h with stock := h.stock.clear off })
  | 0x088 => (putF 32 (BitVec.ofNat 10 (unitsWorking s 0)) ||| putF 0 (BitVec.ofNat 7 (unitsWorking s 1)), s)
  | _ => (x.regs.read off, modCtxRegs s r.spSelJob r.spSelCtx fun q => q.clear off)

/-- The DIGH page (R357). -/
def readDigh (i : Iface) (off : Nat) (s : State) : Word × State :=
  let r := (s.iface i).regs
  let j := r.dgSelJob
  if off = 0x040 ∨ off = 0x090 then (r.readDigh off, s)
  else if 0x098 ≤ off then (provWord (tget 0 s.hub.prov r.pvSel.toNat) ((off - 0x098) / 8), s)
  else if !s.isHome j then (0, s)
  else
    let b := s.job j
    match off with
    | 0x048 => (s.dgDesc j r.dgSelDid.toNat, s)
    | 0x068 => (highWord (b.dgD0.setWidth 128) 0, s)
    | 0x070 => (highWord (b.dgD0.setWidth 128) 1, s)
    | 0x078 => (highWord (b.dgD1.setWidth 128) 0, s)
    | 0x080 => (highWord (b.dgD1.setWidth 128) 1, s)
    | _ => (b.digh.read off, modDigh s j fun d => d.clear off)

/-- The AUDIT page (R358). -/
def readAudit (i : Iface) (off : Nat) (s : State) : Word × State :=
  if off = 0x078 then ((s.iface i).regs.readAudit off, s)
  else if off = 0x100 then audRd0Read i s
  else if 0x100 < off then (byteWord (s.iface i).audit ((off - 0x100) / 8), s)
  else (s.hub.aud.read off, modHub s fun h => { h with aud := h.aud.clear off })

/-- The DETH page (R378). -/
def readDeth (i : Iface) (off : Nat) (s : State) : Word × State :=
  let r := (s.iface i).regs
  let j := r.dhSel
  if off = 0x040 ∨ off = 0x0E0 then (r.readDeth off, s)
  else if off < 0x0C0 then
    if !s.isHome j then (0, s)
    else
      let b := s.job j
      if 0x058 ≤ off ∧ off ≤ 0x080 then (highWord b.env ((off - 0x058) / 8), s)
      else if 0x088 ≤ off ∧ off ≤ 0x0B0 then (highWord b.expect ((off - 0x088) / 8), s)
      else (b.deth.read off, modJob s j fun b => { b with deth := b.deth.clear off })
  else if off = 0x0E8 then rlRd0Read i s
  else if 0x0F0 ≤ off ∧ off ≤ 0x100 then (highWord (s.iface i).replay ((off - 0x0E8) / 8), s)
  else if off = 0x128 then (BitVec.ofNat 64 s.hub.hq.length, s)
  else (s.hub.deth.read off, modHub s fun h => { h with deth := h.deth.clear off })

/-- The EVH page (R412). -/
def readEvh (i : Iface) (off : Nat) (s : State) : Word × State :=
  if off = 0x068 then ((s.iface i).regs.readEvh off, s)
  else if off = 0x070 then evRd0Read i s
  else if 0x070 < off then (highWord (s.iface i).ev ((off - 0x070) / 8), s)
  else (s.hub.evh.read off, modEvh s fun r => r.clear off)

/-- Retired Stockpot lanes and checkers (R413): a lane and its checker are counted once. -/
def retiredLanes (s : State) : Nat :=
  ((List.range (unitCount 2)).filter fun k =>
    (s.unit (laneOfChecker k)).unitState == 4 || (s.unit (BitVec.ofNat 16 (0x2000 + k))).unitState == 4).length

/-- UNIT_SUMMARY (R413). -/
def unitSummary (s : State) : Word :=
  let count (c st : Nat) : Nat := ((unitsOf c).filter fun u => (s.unit u).unitState.toNat == st).length
  putF 54 (BitVec.ofNat 10 (count 0 0)) ||| putF 48 (BitVec.ofNat 5 (count 0 1)) ||| putF 40 (BitVec.ofNat 7 (count 1 0)) |||
    putF 32 (BitVec.ofNat 2 (count 1 1)) ||| putF 16 (BitVec.ofNat 10 (retiredLanes s)) ||| putF 0 (BitVec.ofNat 9 (count 3 4))

/-- The FLT page (R413). -/
def readFlt (i : Iface) (off : Nat) (s : State) : Word × State :=
  let r := (s.iface i).regs
  let j := r.fltJobSel
  let b := s.job j
  match off with
  | 0x050 => (r.readFlt off, s)
  | 0x080 => (r.readFlt off, s)
  | 0x058 => ((s.unit r.unitSel).read off, s)
  | 0x060 => (unitSummary s, s)
  | 0x088 => (b.flt.read off, modJob s j fun b => { b with flt := b.flt.clear off })
  | 0x090 => (b.flt.read off ||| putB 63 (s.isLead j), s)
  | _ =>
    if 0x098 ≤ off ∧ off ≤ 0x0B8 then (lowWord (s.legalMask b.fence) ((off - 0x098) / 8), s)
    else (s.hub.flt.read off, modHub s fun h => { h with flt := h.flt.clear off })

/-- The TXN page (R446). -/
def readTxn (i : Iface) (off : Nat) (s : State) : Word × State :=
  let r := (s.iface i).regs
  match off with
  | 0x048 => (BitVec.ofNat 64 s.hub.body.length, s)
  | 0x058 => (r.readTxn off, s)
  | 0x090 => (r.readTxn off, s)
  | 0x080 => (BitVec.ofNat 64 s.hub.queue.length, s)
  | 0x098 => ((s.job r.txnJobSel).regs.read off, s)
  | _ =>
    if 0x060 ≤ off ∧ off ≤ 0x078 then ((s.txn r.txnSel).regs.read off, s)
    else (s.hub.txn.read off, modTxnRegs s fun q => q.clear off)

/-- A MEMC page (R523): the temperature is a free value. -/
def readMemc (k : BitVec 6) (off : Nat) (s : State) : Word × State :=
  if off = 0x050 then ((Config.stackTemp s.fresh.1).setWidth 64, s.fresh.2)
  else ((tget ({} : MemcRegs) s.hub.memc k.toNat).read off,
    modHub s fun h => { h with memc := tmod {} h.memc k.toNat fun r => r.clear off })

/-! ## Link and PHY pages -/

/-- A link page (R121, R468). -/
def readLink (i : Iface) (port : BitVec 7) (off : Nat) (s : State) : Word × State :=
  let p := i.part
  let l := s.ptLink i port
  let k := s.link l
  let g := s.page p port
  let c := s.laneCal p port (s.lane0 l)
  let word (n : Int) : BitVec 32 := BitVec.ofInt 32 n
  match off with
  | 0x040 => (g.role.read off, s)
  | 0x100 => (if p = .hub then (tget {} (s.iface i).ports port.toNat).readLink off else 0, s)
  | 0x118 => (if k.regs.lkState = 0 then 0 else putF 32 (word (s.latency l).1) ||| putF 0 (word (s.latency l).2), s)
  | 0x120 => (putF 32 (word c.txCal) ||| putF 0 (word c.rxCal), s)
  | 0x128 =>
    (k.regs.read off ||| putF 8 (BitVec.ofNat 5 ((lanesOf p).foldl (fun n q =>
        if (s.laneCal p port q).passed then n + 2 ^ q.toNat else n) 0)) |||
      putF 4 (s.lane0 l) ||| putB 1 ((lanesOf p).any fun q => (s.laneCal p port q).busy), s)
  | 0x140 => (if p = .tsu then k.regs.read off &&& 0xFFFFFFFF0000FFFF else k.regs.read off, s)
  | 0x160 => (g.regs.read off ||| BitVec.ofNat 64 g.tsq.length, modPage s p port fun g => { g with regs := g.regs.clear off })
  | 0x168 => ptTsqHeadRead i port s
  | 0x170 => (g.regs.read off, s)
  | 0x180 =>
    (k.regs.read off ||| g.regs.read off ||| putB 20 k.active, modLinkRegs s l fun r => r.clear off)
  | 0x190 => (g.regs.read off, s)
  | 0x198 =>
    ((tget ({} : LaneFecRegs) g.fec g.regs.lkLaneSel.toNat).read off,
      modFec s p port g.regs.lkLaneSel fun r => r.clear off)
  | 0x1B0 => (g.regs.read off, modPage s p port fun g => { g with regs := g.regs.clear off })
  | _ => (k.regs.read off, modLinkRegs s l fun r => r.clear off)

/-- A PHY page (R522): the SNR of a lane that carries codewords is a free value. -/
def readPhy (i : Iface) (port : BitVec 7) (off : Nat) (s : State) : Word × State :=
  let p := i.part
  let lane := (tget {} (s.iface i).ports port.toNat).phyLaneSel
  let carries := (portLinks p port).any fun l =>
    decide (3 ≤ (s.link l).regs.lkState.toNat) && decide ((s.link l).regs.lkState.toNat ≤ 6)
  if off = 0x040 then ((tget {} (s.iface i).ports port.toNat).readPhy off, s)
  else if off = 0x058 ∧ carries then
    let v := Config.phySnr s.free
    (v.setWidth 64, modSh s.fresh.2 p fun h => { h with phy := tmod {} h.phy (phyKey port lane) fun r => { r with phySnr := v } })
  else ((tget ({} : PhyLaneRegs) (s.sh p).phy (phyKey port lane)).read off, s)

/-! ## Pages of the TSU -/

/-- The ROOT page (R159). -/
def readRoot (off : Nat) (s : State) : Word :=
  match off with
  | 0x048 => 0x00030001
  | 0x058 => 0x0403
  | _ => s.tsu.root.read off

/-- The EVTRIG page (R177, R273): a register of an input reads zero while DIR is 1, and one of an output while it is 0. -/
def readEvtrig (i : Iface) (off : Nat) (s : State) : Word × State :=
  let r := (s.iface i).regs
  let n := r.ioSelIndex
  let e := s.evtLine n
  let x := s.trig n
  match off with
  | 0x040 => (s.tsu.evt.read off, s)
  | 0x048 => (s.tsu.evt.read off, s)
  | 0x050 => (r.readEvtrig off, s)
  | 0x058 => (if r.ioSelDir then x.regs.read off else e.regs.read off, s)
  | 0x060 => (if r.ioSelDir then 0 else e.regs.read off, s)
  | 0x068 =>
    if r.ioSelDir then (0, s)
    else (e.regs.read off, modTsu s fun t => { t with
      evts := tmod {} t.evts n.toNat fun q => { q with regs := q.regs.clear off } })
  | 0x0A8 =>
    if r.ioSelDir then
      (x.regs.read off ||| BitVec.ofNat 64 x.pend.length, modTrig s n fun q => { q with regs := q.regs.clear off })
    else (0, s)
  | _ => (if r.ioSelDir then x.regs.read off else 0, s)

/-- The TAP page (R212). -/
def readTap (i : Iface) (off : Nat) (s : State) : Word × State :=
  let r := (s.iface i).regs
  match off with
  | 0x040 => (r.readTap off, s)
  | 0x078 => tapLaunchRead i s
  | 0x080 => (r.readTap off, s)
  | _ =>
    if 0x060 ≤ off ∧ off ≤ 0x0A8 then
      ((s.tap r.tapSel).regs.read off, modTap s r.tapSel fun k => { k with regs := k.regs.clear off })
    else (s.tsu.tapPage.read off, modTsu s fun t => { t with tapPage := t.tapPage.clear off })

/-- The SYNC page (R248). -/
def readSync (i : Iface) (off : Nat) (s : State) : Word × State :=
  let r := (s.iface i).regs
  let k := r.soSel
  let w := s.window r.winSelChan r.winSelWindow
  match off with
  | 0x040 => (putB 63 s.tsuPaused ||| putB 62 s.tsu.txnt.ttJobEpoch ||| s.tsu.sync.read off, s)
  | 0x048 => (r.readSync off, s)
  | 0x080 => (r.readSync off, s)
  | 0x0A0 => (r.readSync off, s)
  | 0x058 =>
    ((s.slot k).regs.read off ||| putB 62 (s.slotPending k) ||| putB 60 (s.hostWaits k || s.progWaits k), s)
  | 0x050 => ((s.slot k).regs.read off, s)
  | 0x060 => ((s.slot k).regs.read off, s)
  | 0x088 => ((s.hostWait r.waitSel).read off, s)
  | 0x090 => ((s.hostWait r.waitSel).read off, s)
  | 0x098 => ((s.hostWait r.waitSel).read off, s)
  | 0x0A8 =>
    (putB 63 w.isOpen ||| putF 56 (BitVec.ofNat 7 (s.winPending r.winSelChan r.winSelWindow)) |||
      putF 0 (satNat 48 (s.ingress r.winSelChan - w.base).toNat), s)
  | 0x0B0 => (putF 16 (BitVec.ofNat 7 s.tsu.pend.length) ||| putF 8 (BitVec.ofNat 5 s.tsu.sends.length), s)
  | _ => (s.tsu.sync.read off, modSync s fun q => q.clear off)

/-- The SPT page (R331). -/
def readSpt (i : Iface) (off : Nat) (s : State) : Word × State :=
  let r := (s.iface i).regs
  let c := r.sptSel
  let held := s.tsu.store.filter fun h => h.res.ctx == c
  match off with
  | 0x040 => (r.readSpt off, s)
  | 0x048 => (s.ctxCfg c, s)
  | 0x050 =>
    (putB 63 (!held.isEmpty) ||| putF 40 (tget (0 : BitVec 6) s.tsu.resFlags c.toNat) |||
      putF 0 (BitVec.ofNat 17 (held.foldl (fun n h => n + h.res.ne.toNat + 1) 0)), s)
  | 0x060 => (BitVec.ofNat 64 (32 * s.tsu.store.length), s)
  | _ => (s.tsu.spt.read off, modTsu s fun t => { t with spt := t.spt.clear off })

/-- The DIGT page (R359). -/
def readDigt (i : Iface) (off : Nat) (s : State) : Word :=
  let r := (s.iface i).regs
  match off with
  | 0x040 => s.tsu.digt.read off
  | 0x068 => r.readDigt off
  | 0x070 => tget 0 s.tsu.plan r.dgtSel.toNat
  | _ => lowWord s.tsu.issued ((off - 0x048) / 8)

/-- The DET page (R377). -/
def readDet (off : Nat) (s : State) : Word :=
  if 0x048 ≤ off ∧ off ≤ 0x060 then highWord s.tsu.unitmap ((off - 0x048) / 8)
  else if off = 0x088 then BitVec.ofNat 64 s.tsu.rq.length
  else s.tsu.det.read off

/-- The EVQ page (R411). -/
def readEvq (i : Iface) (off : Nat) (s : State) : Word × State :=
  let clear (s : State) : State := modTsu s fun t => { t with evqRegs := t.evqRegs.clear off }
  match off with
  | 0x040 => (s.tsu.evqRegs.read off ||| BitVec.ofNat 64 s.tsu.evq.length, clear s)
  | 0x048 => eqW0Read i s
  | 0x088 => (s.tsu.evqRegs.read off, s)
  | 0x090 => (s.tsu.evqRegs.read off, s)
  | 0x098 => (s.tsu.evqRegs.read off ||| BitVec.ofNat 64 s.tsu.up.unacked.length, clear s)
  | _ => (highWord (s.iface i).evq ((off - 0x048) / 8), s)

/-! ## One access (R170, R508, R512) -/

/-- A register of a page is read, with its side effects. -/
def readReg (i : Iface) (g : Page) (off : Nat) (s : State) : Word × State :=
  let p := i.part
  if off < 0x040 then (readHdr p g off s, s)
  else match g with
    | .hubid => (readHubid off s, s)
    | .mod => (s.hub.mod_.read off, s)
    | .fw => readFw off s
    | .intc =>
      match p with
      | .hub => readIntcHub off s
      | .tsu => (if off = 0x040 then pendBits s .tsu 0 else putB 0 (tsuIrq s), s)
    | .mgmt => readMgmt off s
    | .timebase => readTimebase i off s
    | .vernier => (readVernier p off s, s)
    | .emu e => readEmu i e off s
    | .servo => readServo p off s
    | .ref => readRef off s
    | .xlat => readXlat i off s
    | .ladle => readLadle i off s
    | .synch => readSynch i off s
    | .steph => readSteph i off s
    | .late => readLate i off s
    | .progh => readProg i off s
    | .stock => readStock i off s
    | .digh => readDigh i off s
    | .audit => readAudit i off s
    | .deth => readDeth i off s
    | .evh => readEvh i off s
    | .flt => readFlt i off s
    | .txn => readTxn i off s
    | .memc k => readMemc k off s
    | .link k => readLink i k off s
    | .phy k => readPhy i k off s
    | .root => (readRoot off s, s)
    | .evtrig => readEvtrig i off s
    | .dfc => (s.tsu.dfc.read off, s)
    | .tap => readTap i off s
    | .sync => readSync i off s
    | .step => (s.tsu.step.read off, modTsu s fun t => { t with step := t.step.clear off })
    | .seq => readProg i off s
    | .spt => readSpt i off s
    | .digt => (readDigt i off s, s)
    | .det => (readDet off s, s)
    | .evq => readEvq i off s
    | .txnt => (s.tsu.txnt.read off, modTsu s fun t => { t with txnt := t.txnt.clear off })

/-- A read at a byte address through an interface: whether it lies at no register, the value, and the state after its side
effects. -/
def readAt (i : Iface) (a : BitVec 24) (s : State) : Bool × Word × State :=
  let x := locate i a
  if shut s i x then (false, 0, s)
  else match x with
    | .reg g off => (false, readReg i g off s)
    | .xbuf k => (false, s.xbufAt k.toNat, s)
    | .msix k =>
      (false, (if k % 2 = 0 then tget 0 s.hub.msixTable k
        else tget 0 s.hub.msixTable k ||| putB 32 (s.hub.msixMasked.getLsbD (k / 2))), s)
    | .pba => (false, s.hub.msixPending, s)
    | .nothing => (true, 0, refuse s i.part (strayPage i.part))

end Sys2Proof.Machine
end

