-- ==== Sys2Proof/Machine/Write.lean ====
section
/-! DEFINITION. Writing a register by its address, through any interface (R170, R171, R503 to R529): what each register of a
page does with a write. A write of a register that is only read is accepted and has no effect (R171). -/

namespace Sys2Proof.Machine

/-! ## The header (R504, R505) -/

/-- A write of PAGE_CTRL (R505): one that forces a cause that the page does not name is refused whole. -/
def pageCtrlWrite (p : Part) (g : Page) (v : Word) (s : State) : Bool × State :=
  let force := getB v 62
  let bit := (getF v 16 6 : BitVec 6).toNat
  if force && !(causesOf g).getLsbD bit then refused s p g
  else accept (modHdr s p g fun h =>
    let h := h.write 0x010 v
    { h with
      pageCtrlVector := match p with | .hub => h.pageCtrlVector | .tsu => 0
      pageErrCount := if getB v 63 then 0 else h.pageErrCount
      pageIntStatus := if force then setBit h.pageIntStatus bit true else h.pageIntStatus })

/-- A write of a header register (R504, R505). -/
def hdrWrite (p : Part) (g : Page) (off : Nat) (v : Word) (s : State) : Bool × State :=
  match off with
  | 0x010 => pageCtrlWrite p g v s
  | 0x020 => accept (modHdr s p g fun h =>
      h.write off (if p == .tsu && g == .evtrig then v &&& ~~~(s.tsu.evtNew.setWidth 64) else v))
  | 0x028 => accept (modHdr s p g fun h => h.write off (v &&& causesOf g))
  | _ => accept (modHdr s p g fun h => h.write off v)

/-! ## HUBID, MGMT, MOD, FW and INTC of the hub (R473, R502, R515 to R517, R526) -/

/-- A write of HUB_ADDR (R516): only while every port is OFF, and only a legal address or 0xFFFF; an accepted value is stored in
the identity region. -/
def hubAddrWrite (i : Iface) (v : Word) (s : State) : Bool × State :=
  onPart .hub i s fun s =>
    let a : BitVec 16 := getF v 0 16
    if (s.hub.sh.pages.all fun g => g.2.role.portRole == 0) && (hubAddrLegal a || a == 0xFFFF) then
      accept (modHub s fun h => { h with id := { h.id with hubAddr := a }, flash := { h.flash with hubAddr := a } })
    else refused s .hub .hubid

/-- A write of MG_IPV4, MG_GATEWAY or MG_QUERY (R517, R518): it takes effect at once and is stored in the identity region. -/
def mgmtWrite (off : Nat) (i : Iface) (v : Word) (s : State) : Bool × State :=
  onPart .hub i s fun s =>
    if off = 0x040 ∧ 32 < (getF v 0 6 : BitVec 6).toNat then refused s .hub .mgmt
    else accept (modHub s fun h =>
      let m := h.mgmt.write off v
      { h with
        mgmt := m
        flash := { h.flash with ipv4 := m.mgIpv4Addr, prefixLen := m.mgIpv4Prefix, gateway := m.mgGateway, query := m.mgQuery } })

/-- A write of the MOD page (R472, R473, R483). -/
def modWrite (off : Nat) (i : Iface) (v : Word) (s : State) : Bool × State :=
  match off with
  | 0x050 =>
    onPart .hub i s fun s =>
      if 110 < (getF v 0 16 : BitVec 16).toNat then refused s .hub .mod
      else accept (modHub s fun h => { h with mod_ := h.mod_.write off v })
  | 0x058 => modResetWrite i v s
  | _ => accept s

/-- A write of the FW page (R502): what the twin answers to ACTIVATE is a free value. -/
def fwWrite (off : Nat) (i : Iface) (v : Word) (s : State) : Bool × State :=
  match off with
  | 0x040 =>
    if getB v 61 then
      let t := Config.twinFw s.free
      fwCtrlWrite i v (t.extractLsb' 3 64) (t.extractLsb' 0 3) s.fresh.2
    else fwCtrlWrite i v 0 0 s
  | _ => accept (modFw s fun f => f.write off v)

/-- A write of INT_EOI (R526, R527): the vectors named re-arm, and one whose pages are still pending sends again at once. -/
def eoiWrite (i : Iface) (v : Word) (s : State) : Bool × State :=
  onPart .hub i s fun s =>
    accept (msixScan (modHub s fun h => { h with intc := { h.intc with intArmed := h.intc.intArmed ||| v } }))

/-- A vector is unmasked (R527): a pending message leaves when the vector's pages are still pending; else its mark clears and
it re-arms. -/
def msixUnmask (s : State) (v : BitVec 6) : State :=
  let n := v.toNat
  let s := modHub s fun h => { h with msixMasked := setBit h.msixMasked n false }
  if !s.hub.msixPending.getLsbD n then s
  else
    let vec := intVec s
    let s := modHub s fun h => { h with msixPending := setBit h.msixPending n false }
    if vec.getLsbD n then (if s.hub.msixEnable then msixSend s n else s)
    else modHub s fun h => { h with intc := { h.intc with intArmed := setBit h.intc.intArmed n true } }

/-- A write of a word of the MSI-X table (R510): word 2v is the address of vector v, and word 2v + 1 its data and its mask
bit. -/
def msixWrite (k : Nat) (v : Word) (s : State) : State :=
  if k % 2 = 0 then modHub s fun h => { h with msixTable := tset 0 h.msixTable k v }
  else
    let s := modHub s fun h => { h with msixTable := tset 0 h.msixTable k (v &&& 0xFFFFFFFF) }
    let n : BitVec 6 := BitVec.ofNat 6 (k / 2)
    if getB v 32 then modHub s fun h => { h with msixMasked := setBit h.msixMasked n.toNat true }
    else if s.hub.msixMasked.getLsbD n.toNat then msixUnmask s n
    else s

/-! ## Time pages -/

/-- A write of the VERNIER page (R95). -/
def vernWrite (off : Nat) (i : Iface) (v : Word) (s : State) : Bool × State :=
  let p := i.part
  let n := (getF v 0 5 : BitVec 5).toNat
  match off with
  | 0x040 => vernCtrlWrite i v s
  | 0x058 =>
    if (match p with | .hub => decide (18 < n) | .tsu => n != 0) then refused s p .vernier
    else accept (modSh s p fun h => { h with vern := { h.vern with regs := h.vern.regs.write off v } })
  | _ => accept (modSh s p fun h => { h with vern := { h.vern with regs := h.vern.regs.write off v } })

/-- A write of an EMU page (R92, R94): while a set is in progress only ABORT is taken. -/
def emuWrite (off : Nat) (i : Iface) (e : BitVec 2) (v : Word) (s : State) : Bool × State :=
  if off = 0x040 then emuCtrlWrite i e v s
  else if off = 0x048 ∨ off = 0x050 ∨ off = 0x058 then
    if (s.emu i.part e).regs.emuStatusBusy then refused s i.part (.emu e)
    else accept (modEmu s i.part e fun g => { g with regs := g.regs.write off v })
  else accept s

/-- A write of the SERVO page (R156). -/
def servoWrite (off : Nat) (i : Iface) (v : Word) (s : State) : Bool × State :=
  match off with
  | 0x040 => servoCtrlWrite i v s
  | 0x060 => rateManualWrite i v s
  | _ => accept (modServoRegs s i.part fun r => r.write off v)

/-- A write of the REF page (R157). -/
def refWrite (off : Nat) (i : Iface) (v : Word) (s : State) : Bool × State :=
  match off with
  | 0x040 => masterCfgWrite i v s
  | 0x050 => refCtrlWrite i v s
  | 0x070 => refTodWrite i v s
  | 0x090 => outCtrlWrite i v s
  | 0x098 => ptpCtrlWrite i v s
  | _ => accept (modHub s fun h => { h with ref := { h.ref with regs := h.ref.regs.write off v } })

/-! ## Job pages of the hub -/

/-- A write of the SYNCH page (R249). -/
def synchWrite (off : Nat) (i : Iface) (v : Word) (s : State) : Bool × State :=
  match off with
  | 0x050 => shGenWrite i v s
  | 0x058 => shCountWrite i v s
  | 0x060 => shJobWrite i v s
  | _ => accept (modIfaceRegs s i fun r => r.writeSynch off v)

/-- A write of the SEQ page of a TSU or the PROGH page of a hub (R296): SEQ_SEL is the hub's. -/
def progWrite (off : Nat) (i : Iface) (v : Word) (s : State) : Bool × State :=
  match off with
  | 0x040 => accept (match i.part with | .hub => modIfaceRegs s i fun r => r.writeSeqProgh off v | .tsu => s)
  | 0x048 => progCtrlWrite i v s
  | 0x050 => progAddrWrite i v s
  | 0x058 => progDataWrite i v s
  | _ => accept s

/-- A write of the AUDIT page (R358). -/
def auditWrite (off : Nat) (i : Iface) (v : Word) (s : State) : Bool × State :=
  match off with
  | 0x040 => audCtrlWrite i v s
  | 0x048 => audCfgWrite i v s
  | 0x058 => audTailWrite i v s
  | 0x070 => accept (modHub s fun h => { h with aud := h.aud.write off v })
  | 0x078 => accept (modIfaceRegs s i fun r => r.writeAudit off v)
  | _ => accept s

/-- A write of the DETH page (R378). -/
def dethWrite (off : Nat) (i : Iface) (v : Word) (s : State) : Bool × State :=
  match off with
  | 0x040 => accept (modIfaceRegs s i fun r => r.writeDeth off v)
  | 0x0E0 => accept (modIfaceRegs s i fun r => r.writeDeth off v)
  | 0x0C0 => rlCfgWrite i v s
  | 0x0D0 => rlTailWrite i v s
  | 0x110 => accept (modHub s fun h => { h with deth := h.deth.write off v })
  | 0x118 => accept (modHub s fun h => { h with deth := h.deth.write off v })
  | 0x120 => hqPushWrite i v s
  | _ => accept s

/-- A write of the EVH page (R412). -/
def evhWrite (off : Nat) (i : Iface) (v : Word) (s : State) : Bool × State :=
  match off with
  | 0x040 => accept (modEvh s fun r => r.write off v)
  | 0x048 => accept (modEvh s fun r => r.write off v)
  | 0x068 => accept (modIfaceRegs s i fun r => r.writeEvh off v)
  | _ => accept s

/-- A write of the FLT page (R413): a unit of a reserved class is refused (R13, R382). -/
def fltWrite (off : Nat) (i : Iface) (v : Word) (s : State) : Bool × State :=
  match off with
  | 0x040 => fltCtrlWrite i v s
  | 0x048 => fltHbWrite i v s
  | 0x050 =>
    if 6 ≤ unitClass (getF v 0 16) then refused s .hub .flt else accept (modIfaceRegs s i fun r => r.writeFlt off v)
  | 0x080 => accept (modIfaceRegs s i fun r => r.writeFlt off v)
  | _ => accept s

/-- A write of the TXN page (R446). -/
def txnWrite (off : Nat) (i : Iface) (v : Word) (s : State) : Bool × State :=
  match off with
  | 0x040 => txnCtrlWrite i v s
  | 0x058 => accept (modIfaceRegs s i fun r => r.writeTxn off v)
  | 0x090 => accept (modIfaceRegs s i fun r => r.writeTxn off v)
  | 0x0A0 => abortCmdWrite i v s
  | _ => accept s

/-! ## Link and PHY pages -/

/-- A write of LK_REG_CTRL (R467, R468): GO sends REG_RD or REG_WR to the partner; while a request is outstanding it is
refused. -/
def lkRegCtrlWrite (i : Iface) (port : BitVec 7) (v : Word) (s : State) : Bool × State :=
  let l := s.ptLink i port
  let go := getB v 63
  if go && (s.link l).regs.lkRegStatusBusy then refused s i.part (.link port)
  else
    let s := modLinkRegs s l fun r => r.write 0x1B8 v
    if !go then accept s
    else
      let k := s.link l
      let s := modLink s l fun k => { k with regTag := k.regTag + 1, regs := { k.regs with lkRegStatusBusy := true } }
      let off := k.regs.lkRegCtrlOffset
      accept (sendLink s l none (if k.regs.lkRegCtrlWrite then .regWr { tag := k.regTag, offset := off, data := k.regs.lkRegData }
        else .regRd { tag := k.regTag, offset := off }))

/-- A write of a link page (R25, R120, R121, R468). -/
def linkWrite (off : Nat) (i : Iface) (port : BitVec 7) (v : Word) (s : State) : Bool × State :=
  let p := i.part
  let l := s.ptLink i port
  match off with
  | 0x040 => portRoleWrite i port v s
  | 0x100 =>
    let one : Bool := match p with | .hub => !(s.page .hub port).role.portRoleSplit | .tsu => true
    if one && (getF v 0 2 : BitVec 2) != 0 then refused s p (.link port)
    else match p with
      | .hub => accept (modIface s i fun c => { c with ports := tmod {} c.ports port.toNat fun r => r.writeLink off v })
      | .tsu => accept s
  | 0x108 => ptCtrlWrite i port v s
  | 0x110 => accept (modLink s l fun k => { k with regs := k.regs.write off v, moveGen := k.moveGen + 1 })
  | 0x160 => accept (modPage s p port fun g => { g with regs := g.regs.write off v })
  | 0x178 => ptProbeWrite i port v s
  | 0x188 => lkCtrlWrite i port v s
  | 0x190 =>
    if (lanesOf p).length ≤ (getF v 0 3 : BitVec 3).toNat then refused s p (.link port)
    else accept (modPage s p port fun g => { g with regs := g.regs.write off v })
  | 0x1B8 => lkRegCtrlWrite i port v s
  | _ => accept (modLinkRegs s l fun r => r.write off v)

/-- A write of a PHY page (R522). -/
def phyWrite (off : Nat) (i : Iface) (port : BitVec 7) (v : Word) (s : State) : Bool × State :=
  if off ≠ 0x040 then accept s
  else if (lanesOf i.part).length ≤ (getF v 0 3 : BitVec 3).toNat then refused s i.part (.phy port)
  else accept (modIface s i fun c => { c with ports := tmod {} c.ports port.toNat fun r => r.writePhy off v })

/-! ## Pages of the TSU -/

/-- A write of the EVTRIG page (R177, R273). -/
def evtrigWrite (off : Nat) (i : Iface) (v : Word) (s : State) : Bool × State :=
  let r := (s.iface i).regs
  let n := r.ioSelIndex
  match off with
  | 0x040 => accept (modTsu s fun t => { t with evt := t.evt.write off v })
  | 0x048 => trigCtrlWrite i v s
  | 0x050 => accept (modIfaceRegs s i fun r => r.writeEvtrig off v)
  | 0x058 =>
    accept (if r.ioSelDir then modTrig s n fun x => { x with regs := x.regs.write off v }
      else modTsu s fun t => { t with evts := tmod {} t.evts n.toNat fun x => { x with regs := x.regs.write off v } })
  | 0x078 => trigWidthWrite i v s
  | 0x0A0 => oneshotWrite i v s
  | _ => if 0x080 ≤ off ∧ off ≤ 0x098 then trigWrite off i v s else accept s

/-- A write of the TAP page but for the registers of a tap (R212). -/
def tapPageWrite (off : Nat) (i : Iface) (v : Word) (s : State) : Bool × State :=
  match off with
  | 0x040 =>
    if s.tsu.root.integTaps.toNat < (getF v 0 7 : BitVec 7).toNat then refused s .tsu .tap
    else accept (modIfaceRegs s i fun r => r.writeTap off v)
  | 0x048 => tapGlobalWrite i v s
  | _ => accept (modTsu s fun t => { t with tapPage := t.tapPage.write off v })

/-- A write of the SYNC page but for SO_OP (R248). -/
def syncWrite (off : Nat) (i : Iface) (v : Word) (s : State) : Bool × State :=
  match off with
  | 0x048 => accept (modIfaceRegs s i fun r => r.writeSync off v)
  | 0x080 => accept (modIfaceRegs s i fun r => r.writeSync off v)
  | 0x0A0 => accept (modIfaceRegs s i fun r => r.writeSync off v)
  | 0x050 => soCfgWrite i v s
  | 0x058 => soValWrite i v s
  | 0x060 => soGenWrite i v s
  | 0x088 => waitArmWrite i v s
  | 0x090 => accept (modWait s (s.iface i).regs.waitSel fun r => r.write off v)
  | 0x0A8 => winStateWrite i v s
  | _ => accept (modSync s fun r => r.write off v)

/-- A write of the DET page (R361, R377). -/
def detPageWrite (off : Nat) (i : Iface) (v : Word) (s : State) : Bool × State :=
  match off with
  | 0x070 => accept (modTsu s fun t => { t with det := t.det.write off v })
  | 0x078 => accept (modTsu s fun t => { t with det := t.det.write off v })
  | 0x080 => rqPushWrite i v s
  | 0x088 => rqStatusWrite i v s
  | _ => if off ≤ 0x060 then detWrite ((off - 0x040) / 8) i v s else accept s

/-! ## One access (R170, R171, R508, R512) -/

/-- A write of a register of a page whose answer is not held. -/
def pageWrite (i : Iface) (g : Page) (off : Nat) (v : Word) (s : State) : Bool × State :=
  match g with
  | .hubid => if off = 0x058 then hubAddrWrite i v s else accept s
  | .mod => modWrite off i v s
  | .fw => fwWrite off i v s
  | .intc => if i.part = .hub ∧ off = 0x070 then eoiWrite i v s else accept s
  | .mgmt => mgmtWrite off i v s
  | .timebase => if off = 0x060 then hallEpochWrite i v s else accept s
  | .vernier => vernWrite off i v s
  | .emu e => emuWrite off i e v s
  | .servo => servoWrite off i v s
  | .ref => refWrite off i v s
  | .xlat => accept (modIfaceRegs s i fun r => r.writeXlat off v)
  | .ladle => accept (modIfaceRegs s i fun r => r.writeLadle off v)
  | .synch => synchWrite off i v s
  | .steph => accept (modIfaceRegs s i fun r => r.writeSteph off v)
  | .late => if off = 0x048 then ltCfgWrite i v s else accept (modIfaceRegs s i fun r => r.writeLate off v)
  | .progh => progWrite off i v s
  | .stock => accept (modIfaceRegs s i fun r => r.writeStock off v)
  | .digh => accept (modIfaceRegs s i fun r => r.writeDigh off v)
  | .audit => auditWrite off i v s
  | .deth => dethWrite off i v s
  | .evh => evhWrite off i v s
  | .flt => fltWrite off i v s
  | .txn => txnWrite off i v s
  | .memc _ => accept s
  | .link k => linkWrite off i k v s
  | .phy k => phyWrite off i k v s
  | .root => accept s
  | .evtrig => evtrigWrite off i v s
  | .dfc => accept s
  | .tap => tapPageWrite off i v s
  | .sync => syncWrite off i v s
  | .step => accept s
  | .seq => progWrite off i v s
  | .spt => accept (modIfaceRegs s i fun r => r.writeSpt off v)
  | .digt => accept (modIfaceRegs s i fun r => r.writeDigt off v)
  | .det => detPageWrite off i v s
  | .evq => accept (modTsu s fun t => { t with evqRegs := t.evqRegs.write off v })
  | .txnt => accept s

/-- A register of a page is written: SO_OP and the registers of a tap hold their answers (R172, R212, R234). -/
def writeReg (w : Waiter) (i : Iface) (g : Page) (off : Nat) (v : Word) (s : State) : State :=
  let done (r : Bool × State) : State := answer r.2 w r.1
  if off < 0x040 then done (hdrWrite i.part g off v s)
  else if g = .sync ∧ off = 0x068 then soOpWrite w (s.iface i).regs.soSel v s
  else if g = .tap ∧ 0x060 ≤ off ∧ off ≤ 0x0A8 then tapWrite w (s.iface i).regs.tapSel off v s
  else done (pageWrite i g off v s)

/-- A write at a byte address through an interface. -/
def writeAt (w : Waiter) (i : Iface) (a : BitVec 24) (v : Word) (s : State) : State :=
  let x := locate i a
  if shut s i x then answer (refuse s .hub .mod) w true
  else match x with
    | .reg g off => writeReg w i g off v s
    | .xbuf k => let r := xbufWrite k i v s; answer r.2 w r.1
    | .msix k => answer (msixWrite k v s) w false
    | .pba => answer s w false
    | .nothing => answer (refuse s i.part (strayPage i.part)) w true

end Sys2Proof.Machine
end

