-- ==== Sys2Proof/Machine/Late.lean ====
section
/-! DEFINITION. The TSU's serialisation point within one island cycle (R170, R288): link accesses take effect first, then sequencer
words, then accesses of the host port. -/

namespace Sys2Proof.Machine

/-- A sequencer word of the TSU. -/
def isTsuWord : Instr → Bool
  | .nop .tsu | .jmp .tsu | .br .tsu | .loop .tsu | .ldi .tsu | .ldhi .tsu | .alu .tsu | .ldstep .tsu | .ldrank .tsu
  | .whisk .tsu | .ldtime .tsu | .ldlaunch .tsu | .ldevt .tsu | .ldso .tsu | .ldbuf .tsu | .stbuf .tsu | .arrive .tsu
  | .soadd .tsu | .soset .tsu | .soclr .tsu | .openwin .tsu | .fence .tsu | .send .tsu | .wait .tsu | .waitevt .tsu
  | .waittick .tsu | .trig .tsu | .stepend .tsu | .contrib .tsu | .result .tsu | .resultx .tsu | .digest .tsu => true
  | _ => false

/-- Whether an access of the host port gives way (R170, R288): a link access or a sequencer word comes in the same island cycle,
or a word has given way in it. -/
def State.hostWaitsTurn (s : State) : Bool := s.comes isLinkAccess || s.comes isTsuWord || !s.tsu.lateWords.isEmpty

/-- An access of the host port takes effect, and what it answers is known (R169, R170). -/
def hostAccess (s : State) (x : LateHost) : State :=
  if x.write then writeAt (.hp x.id) .host x.addr x.data s
  else
    let r := readAt .host x.addr s
    modTsu r.2.2 fun t => { t with hp := t.hp.map fun e => if e.id = x.id then { e with done := some (r.1, r.2.1) } else e }

/-- The word of an opcode, on the TSU's sequencer. -/
def tsuWord (op : Nat) (s : State) : Host.Outcome State Fault Refusal :=
  match op with
  | 0x00 => execNop .tsu s
  | 0x02 => execJmp .tsu s
  | 0x03 => execBr .tsu s
  | 0x04 => execLoop .tsu s
  | 0x10 => execLdi .tsu s
  | 0x11 => execLdhi .tsu s
  | 0x12 => execAlu .tsu s
  | 0x13 => execLdstep .tsu s
  | 0x14 => execLdrank .tsu s
  | 0x15 => execWhisk .tsu s
  | 0x16 => execLdtime .tsu s
  | 0x17 => execLdlaunch .tsu s
  | 0x18 => execLdevt .tsu s
  | 0x19 => execLdso .tsu s
  | 0x1A => execLdbuf .tsu s
  | 0x1B => execStbuf .tsu s
  | 0x20 => execArrive .tsu s
  | 0x21 => execSoadd .tsu s
  | 0x22 => execSoset .tsu s
  | 0x23 => execSoclr .tsu s
  | 0x24 => execOpenwin .tsu s
  | 0x25 => execFence .tsu s
  | 0x26 => execSend .tsu s
  | 0x27 => execWait .tsu s
  | 0x28 => execWaitevt .tsu s
  | 0x29 => execWaittick .tsu s
  | 0x2A => execTrig .tsu s
  | 0x2B => execStepend .tsu s
  | 0x30 => execContrib .tsu s
  | 0x31 => execResult .tsu s
  | 0x32 => execResultx .tsu s
  | 0x33 => execDigest .tsu s
  | _ => .next s

/-- A word that gave way is issued: nothing more comes before it in its cycle. -/
def lateWord (s : State) (op : Nat) : State :=
  match tsuWord op { s with pending := [] } with
  | .next t => { t with pending := s.pending }
  | _ => s

/-- The TSU's island cycle ends: the words that gave way are issued, then the accesses of the host port take effect, and what
stood for the cycle alone is over (R170, R175, R288, R290). -/
def endCycle (s : State) : State :=
  let words := s.tsu.lateWords
  let s := words.foldl lateWord (modTsu s fun t => { t with lateWords := [] })
  let hosts := s.tsu.lateHost
  let s := hosts.foldl hostAccess (modTsu s fun t => { t with lateHost := [] })
  modTsu s fun t => { t with evtNew := 0, xhold := [] }

end Sys2Proof.Machine
end

