-- ==== Sys2Proof/Machine/Access.lean ====
section
/-! DEFINITION. The register accesses of the interfaces (R168 to R171, R467, R485, R507 to R512, R519), the management port's
other answers (R518), the interrupt page (R526, R527), and uncorrectable reads of on-package memory (R523, R524). -/

namespace Sys2Proof.Machine

/-! ## Any interface (R170) -/

/-- A write through an interface, unless the part has no power. -/
def rowWrite (i : Iface) (a : BitVec 24) (v : Word) (s : State) : Host.Outcome State Fault Refusal :=
  if unpowered s i then .next s else .next (writeAt (.row i) i a v s)

/-- REGISTER_WRITE (R170). -/
def execRegisterWrite (i : Iface) (a : BitVec 24) (data : Word) (s : State) : Host.Outcome State Fault Refusal :=
  rowWrite i a data s

/-- REGISTER_READ_CLEAR (R72, R170): a read returns the register and clears its RC fields in the same access. -/
def execRegisterReadClear (i : Iface) (a : BitVec 24) (s : State) : Host.Outcome State Fault Refusal :=
  if unpowered s i then .next s
  else
    let r := readAt i a s
    .next (emit r.2.2 (.readData i r.2.1))

/-- ERR_CLR (R504): a write of a page's PAGE_CTRL with ERR_CLR set. -/
def execErrClr (i : Iface) (page : BitVec 12) (data : Word) (s : State) : Host.Outcome State Fault Refusal :=
  rowWrite i (page ++ (0x010 : BitVec 12)) (data ||| putB 63 true) s

/-- INT_FORCE (R505): a write of a page's PAGE_CTRL with INT_FORCE set. -/
def execIntForce (i : Iface) (page : BitVec 12) (data : Word) (s : State) : Host.Outcome State Fault Refusal :=
  rowWrite i (page ++ (0x010 : BitVec 12)) (data ||| putB 62 true) s

/-- PAGE_INT_STATUS_WRITE (R504, R509). -/
def execPageIntStatusWrite (i : Iface) (page : BitVec 12) (data : Word) (s : State) : Host.Outcome State Fault Refusal :=
  rowWrite i (page ++ (0x020 : BitVec 12)) data s

/-- PAGE_INT_ENABLE_WRITE (R504, R506). -/
def execPageIntEnableWrite (i : Iface) (page : BitVec 12) (data : Word) (s : State) : Host.Outcome State Fault Refusal :=
  rowWrite i (page ++ (0x028 : BitVec 12)) data s

/-- HUB_ADDR_WRITE (R516). -/
def execHubAddrWrite (i : Iface) (data : Word) (s : State) : Host.Outcome State Fault Refusal :=
  ackWrite i s (hubAddrWrite i data s)

/-- MGMT_CONFIG_WRITE (R518): `which` 0 is MG_IPV4, 1 MG_GATEWAY, and 2 and 3 MG_QUERY. -/
def execMgmtConfigWrite (i : Iface) (which : BitVec 2) (data : Word) (s : State) : Host.Outcome State Fault Refusal :=
  ackWrite i s (mgmtWrite (match which.toNat with | 0 => 0x040 | 1 => 0x048 | _ => 0x058) i data s)

/-- INT_EOI (R527). -/
def execIntEoi (i : Iface) (data : Word) (s : State) : Host.Outcome State Fault Refusal := ackWrite i s (eoiWrite i data s)

/-! ## The host port (R168 to R171) -/

/-- HOST_PORT_REQUEST (R168 to R170, R288): one aligned word at an offset of the window; a tag still outstanding is answered with
an error and counted. With 16 requests outstanding the host sends none. The access gives way to the link accesses and
sequencer words of its island cycle: it takes effect as the cycle ends. -/
def execHostPortRequest (write : Bool) (addr : BitVec 15) (data : Word) (tag : BitVec 4) (s : State) :
    Host.Outcome State Fault Refusal :=
  let t := s.tsu
  if t.inReset || decide (16 ≤ t.hp.length) then .next s
  else
    let x : LateHost := { id := t.hpNext, write := write, addr := addr.setWidth 24 <<< 3, data := data }
    let put (done : Option (Bool × Word)) (s : State) : State := modTsu s fun t => { t with
      hpNext := t.hpNext + 1, hp := t.hp ++ [{ id := t.hpNext, tag := tag, write := write, done := done }] }
    if t.hp.any fun e => e.tag == tag then .next (put (some (true, 0)) (refuse s .tsu .root))
    else if s.hostWaitsTurn then .next (modTsu (put none s) fun t => { t with lateHost := t.lateHost ++ [x] })
    else .next (hostAccess (put none s) x)

/-! ## Links (R467, R468) -/

/-- The interface of a link's partner (R507). -/
def linkIface (l : LinkId) : Iface :=
  match l.part with
  | .hub => .port l.port
  | .tsu => if l.port = 0 then .linkA else .linkB

/-- REG_RD_RECEIVE (R467). -/
def execRegRdReceive (l : LinkId) (m : RegRdP) (s : State) : Host.Outcome State Fault Refusal :=
  let r := readAt (linkIface l) m.offset (taken s l (.regRd m))
  if unpowered s (linkIface l) then .next s
  else .next (sendLink r.2.2 l none (.regRsp { tag := m.tag, err := r.1, data := r.2.1 }))

/-- REG_WR_RECEIVE (R467): served only while LK_CTRL.REMOTE_WR is 1. -/
def execRegWrReceive (l : LinkId) (m : RegWrP) (s : State) : Host.Outcome State Fault Refusal :=
  if unpowered s (linkIface l) then .next s
  else
    let s := taken s l (.regWr m)
    if (s.link l).regs.lkCtrlRemoteWr then .next (writeAt (.reg l m.tag) (linkIface l) m.offset m.data s)
    else .next (sendLink s l none (.regRsp { tag := m.tag, err := true, data := 0 }))

/-- REG_RSP_RECEIVE (R468): the answer to the request outstanding. -/
def execRegRspReceive (l : LinkId) (m : RegRspP) (s : State) : Host.Outcome State Fault Refusal :=
  let s := taken s l (.regRsp m)
  let k := s.link l
  if !k.regs.lkRegStatusBusy || m.tag != k.regTag - 1 then .next s
  else .next (setCause (modLinkRegs s l fun r => { r with
    lkRegData := if r.lkRegCtrlWrite then r.lkRegData else m.data, lkRegStatusErr := m.err, lkRegStatusBusy := false })
    l.part (.link l.port) 15)

/-- LK_REG_GO (R468): a write of LK_REG_CTRL with GO set. -/
def execLkRegGo (i : Iface) (port : BitVec 7) (data : Word) (s : State) : Host.Outcome State Fault Refusal :=
  ackWrite i s (onLinkPage i port s (lkRegCtrlWrite i port (data ||| putB 63 true) s))

/-! ## JTAG (R485) -/

/-- The page that an address names, or the page that counts strays. -/
def pageAt (i : Iface) (a : BitVec 24) : Page :=
  match locate i a with
  | .reg g _ => g
  | _ => strayPage i.part

/-- JTAG_REGACC (R485): one scan of the data register. Capture-DR gives what the last access left; Update-DR issues the access
shifted in, a write only while DEBUG_EN is high. -/
def execJtagRegacc (debugEn : Bool) (data : BitVec 89) (s : State) : Host.Outcome State Fault Refusal :=
  let s := emit (setIr s .regacc) (.jtag ((List.range 89).map fun k => s.hub.jtag.data.getLsbD k))
  let keep (d : BitVec 89) (s : State) : State := modHub s fun h => { h with jtag := { h.jtag with data := d } }
  let a : BitVec 24 := data.extractLsb' 64 24
  if unpowered s .jtag then .next (keep data s)
  else if data.getLsbD 88 then
    .next (keep data (if debugEn then writeAt .silent .jtag a (data.extractLsb' 0 64) s else refuse s .hub (pageAt .jtag a)))
  else
    let r := readAt .jtag a s
    .next (keep (data.extractLsb' 64 25 ++ r.2.1) r.2.2)

/-! ## PCIe (R476, R510, R511) -/

/-- The bytes of a register as PCIe carries them, the lowest byte first. -/
def leBytes (v : Word) : List (BitVec 8) := (List.range 8).map fun k => v.extractLsb' (8 * k) 8

/-- The register that eight bytes of PCIe give, the lowest byte first. -/
def leWord (bs : List (BitVec 8)) : Word := BitVec.ofNat 64 (bs.foldr (fun b n => n * 256 + b.toNat) 0)

/-- Registers are read one after another, in ascending address order. -/
def pcieReads : Nat → BitVec 24 → State → List (BitVec 8) × State
  | 0, _, s => ([], s)
  | n + 1, a, s =>
    let r := readAt .pcie a s
    let rest := pcieReads n (a + 8) r.2.2
    (leBytes r.2.1 ++ rest.1, rest.2)

/-- Registers are written one after another, in ascending address order. -/
def pcieWrites : Nat → BitVec 24 → List (BitVec 8) → State → State
  | 0, _, _, s => s
  | n + 1, a, bs, s => pcieWrites n (a + 8) (bs.drop 8) (writeAt .silent .pcie a (leWord (bs.take 8)) s)

/-- A read of BAR0 (R511). -/
def bar0Read (a : BitVec 24) (n : Nat) (s : State) : State :=
  let low := a.toNat % 8
  if 1 ≤ n ∧ low + n ≤ 8 then
    let r := readAt .pcie (a - BitVec.ofNat 24 low) s
    emit r.2.2 (.pcieReply false (((leBytes r.2.1).drop low).take n))
  else if n ≠ 0 ∧ low = 0 ∧ n % 8 = 0 then
    let r := pcieReads (n / 8) a s
    emit r.2 (.pcieReply false r.1)
  else emit (refuse s .hub .hubid) (.pcieReply true [])

/-- A write of BAR0 (R511). -/
def bar0Write (a : BitVec 24) (bs : List (BitVec 8)) (s : State) : State :=
  if bs ≠ [] ∧ a.toNat % 8 = 0 ∧ bs.length % 8 = 0 then pcieWrites (bs.length / 8) a bs s else refuse s .hub .hubid

/-- Bytes go into the mailbox from a place on, up to its end (R510). -/
def mailboxWrite : List (BitVec 8) → Nat → Tbl (BitVec 8) → Tbl (BitVec 8)
  | [], _, t => t
  | b :: bs, k, t => if k < 65536 then mailboxWrite bs (k + 1) (tset 0 t k b) else t

/-- PCIE_ACCESS (R476, R510, R511): while PERST# is low, or the module has no power, the endpoint answers nothing. -/
def execPcieAccess (x : PcieAccess) (s : State) : Host.Outcome State Fault Refusal :=
  if s.hub.power.perst || unpowered s .pcie then .next s
  else .next (match x with
    | .read0 a n => bar0Read a n.toNat s
    | .write0 a bs => bar0Write a bs s
    | .read2 a n => emit s (.pcieReply false ((List.range n.toNat).map fun k => tget 0 s.hub.bar2 (a.toNat + k)))
    | .write2 a bs => modHub s fun h => { h with bar2 := mailboxWrite bs a.toNat h.bar2 }
    | .msixControl e => modHub s fun h => { h with msixEnable := e })

/-- MSIX_UNMASK (R476, R527): the host unmasks a vector in the MSI-X table. -/
def execMsixUnmask (v : BitVec 6) (s : State) : Host.Outcome State Fault Refusal :=
  if s.hub.power.perst || unpowered s .pcie then .next s
  else if closed s .pcie then .next (refuse s .hub .mod)
  else .next (msixUnmask s v)

/-! ## The management port (R517 to R519) -/

/-- A frame is dropped and counted (R518). -/
def mgDrop (s : State) : State :=
  modHub s fun h => { h with mgmt := { h.mgmt with mgStatusRxDrop := satInc h.mgmt.mgStatusRxDrop } }

/-- Whether the management port answers at an address: it sends nothing while its own is 0 (R518). -/
def mgOwn (s : State) (ip : BitVec 32) : Bool := s.hub.mgmt.mgIpv4Addr != 0 && ip == s.hub.mgmt.mgIpv4Addr

/-- ARP_RECEIVE (R518): a request for the port's address is answered to its sender. -/
def execArpReceive (target sender : BitVec 32) (mac : BitVec 48) (s : State) : Host.Outcome State Fault Refusal :=
  if unpowered s .mgmt then .next s
  else .next (if mgOwn s target then emit s (.arpReply sender mac) else mgDrop s)

/-- ICMP_ECHO_RECEIVE (R518): an echo request to the port's address is answered, where its sender can be reached. -/
def execIcmpEchoReceive (dst src : BitVec 32) (data : List (BitVec 8)) (s : State) : Host.Outcome State Fault Refusal :=
  if unpowered s .mgmt then .next s
  else if !mgOwn s dst then .next (mgDrop s)
  else if !inPrefix s.hub.mgmt src && s.hub.mgmt.mgGateway == 0 then
    .next (modHub s fun h => { h with mgmt := { h.mgmt with mgStatusTxDrop := satInc h.mgmt.mgStatusTxDrop } })
  else .next (emit s (.icmpReply src data))

/-- Whether a register holds an RC field, or its read pops (R519). -/
def readsOnce (g : Page) (off : Nat) : Bool :=
  match g with
  | .fw => off == 0x068
  | .intc => off == 0x078
  | .mgmt => off == 0x060
  | .timebase => off == 0x078
  | .emu _ => off == 0x068
  | .servo => off == 0x078
  | .ref => off == 0x078 || off == 0x0A8
  | .xlat => off == 0x050
  | .ladle => off == 0x078
  | .synch => off == 0x068
  | .steph => off == 0x078
  | .late => off == 0x080
  | .progh => off == 0x0A0
  | .stock => off == 0x068 || off == 0x070 || off == 0x080
  | .digh => off == 0x088
  | .audit => off == 0x068
  | .deth => off == 0x0B8 || off == 0x0D8
  | .evh => off == 0x060
  | .flt => off == 0x068 || off == 0x070 || off == 0x088 || off == 0x0C0
  | .txn => off == 0x088
  | .memc _ => off == 0x040
  | .link _ => [0x148, 0x150, 0x158, 0x160, 0x168, 0x180, 0x198, 0x1A0, 0x1A8, 0x1B0].contains off
  | _ => false

/-- Whether a query's offset is answered REFUSED (R519). -/
def queryRefused (off : Nat) : Bool :=
  if 16777216 ≤ off then true
  else match locate .mgmt (BitVec.ofNat 24 off) with
    | .reg g k => readsOnce g k
    | _ => true

/-- The answers of a query, register by register in query order (R519). -/
def queryAnswers : List Nat → State → List (BitVec 8) × State
  | [], s => ([], s)
  | off :: rest, s =>
    if queryRefused off then
      let q := queryAnswers rest s
      (fieldBytes [(4, off), (4, 1), (8, 0)] ++ q.1, q.2)
    else
      let r := readAt .mgmt (BitVec.ofNat 24 off) s
      let q := queryAnswers rest r.2.2
      (fieldBytes [(4, off), (4, 0), (8, r.2.1.toNat)] ++ q.1, q.2)

/-- REGISTER_QUERY (R519): a datagram from an address and port to a port. -/
def execRegisterQuery (ip : BitVec 32) (src dst : BitVec 16) (data : List (BitVec 8)) (s : State) :
    Host.Outcome State Fault Refusal :=
  let n := bytesAt data 3 1
  if unpowered s .mgmt then .next s
  else if dst ≠ s.hub.mgmt.mgQuery then .next (mgDrop s)
  else if ip ≠ s.hub.evh.evDestIpv4 ∨ bytesAt data 0 2 ≠ 0x5251 ∨ n = 0 ∨ 32 < n ∨ data.length ≠ 8 + 4 * n then
    .next (modEvh s fun r => { r with evStatReqDrop := satInc r.evStatReqDrop })
  else
    let r := queryAnswers ((List.range n).map fun k => bytesAt data (8 + 4 * k) 4) s
    .next (udpSend r.2 ip src (fieldBytes [(2, 0x5252), (1, bytesAt data 2 1), (1, n), (4, bytesAt data 4 4)] ++ r.1))

/-- MGMT_LINK_STATE_CHANGE (R517). -/
def execMgmtLinkStateChange (up : Bool) (s : State) : Host.Outcome State Fault Refusal :=
  .next (modHub s fun h => { h with mgmt := { h.mgmt with mgStatusLinkUp := up } })

/-! ## On-package memory (R523, R524) -/

/-- An element of a spilled buffer is lost (R390, R524): what was folded is gone, so the buffer never completes, and the element
fails as UNRESOLVED. -/
def spillLost (j c : BitVec 12) (second : Bool) (s : State) (e : BitVec 16) : State :=
  let b := (s.ctx j c).buf second
  if b.state = 0 ∨ b.place ≠ 2 then s
  else
    let s := modCtx s j c fun x => x.setBuf second { b with
      state := if b.state = 2 ∨ b.state = 3 then 1 else b.state
      elems := b.elems.filter fun q => q.1 != e.toNat
      staging := b.staging.filter fun q => q.1 % 65536 != e.toNat
      fin := [] }
    unresolved s.fresh.2 j c b.step (Config.lostUnit s.free) e

/-- HBM_UNCORRECTABLE_READ (R523, R524): the read is counted on its pseudo-channel, and handled by the region read; an item that
the twin holds is fetched from it, and a record of a log or ring becomes zero. -/
def execHbmUncorrectableRead (channel : BitVec 6) (addr : BitVec 40) (region : HbmRegion) (s : State) :
    Host.Outcome State Fault Refusal :=
  let s := modHub s fun h => { h with memc := tmod {} h.memc channel.toNat fun r => { r with
    mcEccUncorrected := satInc r.mcEccUncorrected, mcErrAddr := addr } }
  let s := setCause s .hub (.memc channel) 0
  .next (match region with
    | .spill j c second es => es.foldl (spillLost j c second) s
    | .jobState _ => s
    | .audit k =>
      if s.hub.aud.audTail.toNat ≤ k.toNat ∧ k.toNat < s.hub.aud.audHead.toNat then
        modHub s fun h => { h with audRing := tset 0 h.audRing (k.toNat % audCap h.aud) 0 }
      else s
    | .replay k =>
      if s.hub.deth.rlTail.toNat ≤ k.toNat ∧ k.toNat < s.hub.deth.rlHead.toNat then
        modHub s fun h => { h with rlRing := tset 0 h.rlRing (k.toNat % rlCap h.deth) 0 }
      else s
    | .event k =>
      if ringOldest s.hub.evh ≤ k.toNat ∧ k.toNat < s.hub.evh.evHead.toNat then
        modHub s fun h => { h with ring := tset 0 h.ring (k.toNat % ringSize) 0 }
      else s)

/-- TWIN_FETCH_TIMEOUT (R524): the twin has not supplied an item of a job within 20 µs, and the home poisons the job's current
step with SUB 1. -/
def execTwinFetchTimeout (job : BitVec 12) (s : State) : Host.Outcome State Fault Refusal :=
  if !s.isHome job then .next s
  else
    let b := s.job job
    let t := Config.fetchTarget s.free
    let s := s.fresh.2
    if s.isLead job then .next (poison s job b.step 1 t)
    else .next (sendTwin s job.toNat (.stepPoison {
      job := job, epoch := b.regs.jobStatusEpoch, step := b.step.setWidth 24, target := t }))

end Sys2Proof.Machine
end

