-- ==== Sys2Proof/Machine/Sched.lean ====
section
/-! DEFINITION. The island cycle (R59), the actions that a part has kept while VALID was 0 (R528), and the actions whose target
is reached (R65). -/

namespace Sys2Proof.Machine

/-! ## Actions kept while VALID was 0 (R528) -/

/-- Whether a kept action's target has passed: all have once a new epoch has been learnt. -/
def passedAt (s : State) (p : Part) (t : Tick) : Bool := (s.sh p).tb.epochMoved || decide (t.toNat < (s.now p).toNat)

/-- The transactions staged on a part. -/
def stagedOf (s : State) (p : Part) : List Staged :=
  match p with
  | .hub => s.hub.staged.filterMap fun e => e.2
  | .tsu => s.tsu.staged.filterMap fun e => e.2

/-- The held launch goes again to every tap whose queue was emptied (R194, R528). -/
def relaunchTaps (s : State) (target : Tick) : State :=
  let x : TapLaunch := { target := target, frac := 0, lid := s.tsu.lid - 1 }
  s.tapIds.foldl (fun s t => if (s.tap t).held.any (fun y => y.lid == x.lid) then s else launchTap x s t) s

/-- The launch that the TSU kept: whether it was missed (cause 5 TIME_INVALID), and the state. -/
def resolveLaunch (s : State) : Bool × State :=
  match s.tsu.launch with
  | some h =>
    if passedAt s .tsu h.tick then
      (true, launchMiss (modTsu s fun t => { t with
        launch := none, missed := some h.tick, step := { t.step with stepStatusNextValid := false } }) h.step h.tick 5)
    else (false, relaunchTaps s h.tick)
  | none => (false, s)

/-- A TIMED completion that the TSU kept. -/
def resolveSlot (s : State) (k : BitVec 12) : State :=
  match (s.slot k).due with
  | some t =>
    if passedAt s .tsu t then completeSlot (modSync s fun r => { r with syncErrLateRelease := satInc r.syncErrLateRelease }) k
    else s
  | none => s

/-- The pulses that an output kept; a PERIODIC output resumes at the first k whose tick has not passed. -/
def resolveTrig (s : State) (n : BitVec 4) : State :=
  let gone (q : PulseKind × Tick) : Bool := passedAt s .tsu q.2
  modTrig s n fun x => { x with
    pend := x.pend.filter fun q => !gone q
    enAt := s.now .tsu
    lastK := none
    regs := { x.regs with trigStatusDropped := satAdd x.regs.trigStatusDropped (x.pend.filter gone).length } }

/-- A commit that a part kept. -/
def resolveCommit (p : Part) (missed : Bool) (s : State) (g : Staged) : State :=
  if commitHeld s p g && passedAt s p g.commit then noCommit s p g missed else s

/-- A WAITTICK that the step program kept. -/
def resolveWaittick (s : State) : State :=
  match s.tsu.seq.wait with
  | some (.tick t) => if passedAt s .tsu t then completeWait s .tsu (.tick t) else s
  | _ => s

/-- The launch that the home of a job kept: the miss is told to the lead, which aborts the job. -/
def resolveHome (s : State) (j : BitVec 12) : State :=
  match (s.job j).nextLaunch with
  | some h =>
    if passedAt s .hub h.tick then
      reportTake { job := j, epoch := (s.job j).regs.jobStatusEpoch, step := h.step.setWidth 24, kind := 0, detail := 5 }
        (modJob s j fun b => { b with nextLaunch := none })
    else s
  | none => s

/-- The jobs that the hub lists, and the slots that the TSU lists. -/
def State.jobIds (s : State) : List (BitVec 12) := s.hub.jobs.map fun e => BitVec.ofNat 12 e.1

/-- The slots in use. -/
def State.slotIds (s : State) : List (BitVec 12) := s.tsu.slots.map fun e => BitVec.ofNat 12 e.1

/-- In the first cycle with VALID 1 each kept action goes on to its target, or is handled as passed (R528). -/
def resolveKept (s : State) (p : Part) : State :=
  if !(s.valid p && (s.sh p).tb.resolve) then s
  else
    let s := match p with
      | .tsu =>
        let r := resolveLaunch s
        let s := trigIds.foldl resolveTrig (s.slotIds.foldl resolveSlot r.2)
        resolveWaittick ((stagedOf s .tsu).foldl (resolveCommit .tsu r.1) s)
      | .hub => (stagedOf s .hub).foldl (resolveCommit .hub false) (s.jobIds.foldl resolveHome s)
    modTb s p fun t => { t with resolve := false, epochMoved := false }

/-! ## The island cycle (R59, R527) -/

/-- Whether a part's island runs: the hub has power, and the TSU is out of reset. -/
def islandRuns (s : State) : Part → Bool
  | .hub => s.hub.power.on
  | .tsu => !s.tsu.inReset

/-- Whether a link holds a message for want of credit (R460). -/
def Link.creditShort (k : Link) : Bool :=
  k.active && k.hold.any fun e => match creditIdx (msgCls e.2) with | some i => k.credit.getD i 0 == 0 | none => false

/-- One island cycle of a link: LK_CREDIT.STALL_US counts each microsecond of the time held for credit (R460, R468). -/
def stallTick (k : Link) : Link :=
  if !k.creditShort then k
  else if k.stall + 1 < 1000 then { k with stall := k.stall + 1 }
  else { k with stall := 0, regs := { k.regs with lkCreditStallUs := satInc k.regs.lkCreditStallUs } }

/-- The links of a part that are held for credit count an island cycle (R460). -/
def countStalls (s : State) (p : Part) : State :=
  modSh s p fun h => { h with links := tmap {} (fun _ k => stallTick k) h.links }

/-- ISLAND_CYCLE (R59): on the TSU, the sequencer words and host-port accesses that gave way in the cycle before take effect (R170,
R288). Hall tick and fraction advance; conversions that wait for an island edge start (R73); actions kept are looked at in the
first cycle with VALID 1 (R528); the TSU's root places its strobe (R186); the hub's rotation that waits looks for its lane again
(R399), AUDIT_LEVEL follows the ring (R355), its interrupt vectors are looked at (R527), and a handover whose tick has come takes
place (R141). A link that is held for credit counts the time (R460). -/
def execIslandCycle (p : Part) (s : State) : Host.Outcome State Fault Refusal :=
  if !islandRuns s p then .next s
  else
    let s := match p with | .tsu => endCycle s | .hub => s
    let old := s.now p
    let s := resolveKept (countStalls (startConvs (modTb s p tbCycle) p) p) p
    .next (match p with
      | .tsu => placeStrobe s old
      | .hub => msixScan (audLevel (handoverReached (if s.hub.flt.rotStatusWaiting then rotAdvance s else s))))

/-! ## Scheduled actions (R65) -/

/-- The launch that the TSU holds, once its target is reached. -/
def fireLaunch (s : State) : State :=
  match (launchDueNow s true).or (launchDueNow s false) with
  | some h => launchStep s h
  | none => s

/-- The launch that a home holds, once its target is reached. -/
def fireHome (s : State) (j : BitVec 12) : State :=
  match (homeDueNow s j true).or (homeDueNow s j false) with
  | some h => homeLaunch s j h
  | none => s

/-- A held commit, once its tick is reached. -/
def fireCommit (p : Part) (s : State) (g : Staged) : State := if commitDue s p g then applyStaged s p g else s

/-- A WAITTICK, once its target is reached. -/
def fireWaittick (s : State) : State :=
  match s.tsu.seq.wait with
  | some (.tick t) => if waitMet s .tsu (.tick t) then completeWait s .tsu (.tick t) else s
  | _ => s

/-- SCHEDULED_ACTION_FIRE (R65): every action of a part whose target is reached fires in this cycle. -/
def execScheduledActionFire (p : Part) (s : State) : Host.Outcome State Fault Refusal :=
  if !islandRuns s p then .next s
  else
    let s := resolveKept s p
    .next (match p with
      | .tsu =>
        let s := s.slotIds.foldl timedComplete (fireLaunch s)
        let s := trigIds.foldl (fun s n => (List.range 5).foldl (fun s _ => pulseStart s n) s) s
        fireWaittick ((stagedOf s .tsu).foldl (fireCommit .tsu) s)
      | .hub => handoverReached ((stagedOf s .hub).foldl (fireCommit .hub) (s.jobIds.foldl fireHome s)))

end Sys2Proof.Machine
end

