-- ==== Sys2Proof/Machine/Dispatch.lean ====
section
/-! DEFINITION. The commands' meanings, one arm per constructor. -/

namespace Sys2Proof.Machine

def exec (i : Instr) (s : State) : Host.Outcome State Fault Refusal :=
  match i with
  | .registerWrite from_ a data => Sys2Proof.Machine.execRegisterWrite from_ a data s
  | .registerReadClear from_ a => Sys2Proof.Machine.execRegisterReadClear from_ a s
  | .portRoleWrite from_ port data => Sys2Proof.Machine.execPortRoleWrite from_ port data s
  | .edgeTranslate l sender dsn m => Sys2Proof.Machine.execEdgeTranslate l sender dsn m s
  | .islandCycle p => Sys2Proof.Machine.execIslandCycle p s
  | .scheduledActionFire p => Sys2Proof.Machine.execScheduledActionFire p s
  | .islandLock p => Sys2Proof.Machine.execIslandLock p s
  | .islandLockLoss p => Sys2Proof.Machine.execIslandLockLoss p s
  | .hallEpochWrite from_ data => Sys2Proof.Machine.execHallEpochWrite from_ data s
  | .epochRevalid => Sys2Proof.Machine.execEpochRevalid s
  | .nowLoRead from_ => Sys2Proof.Machine.execNowLoRead from_ s
  | .stampEdge k tag => Sys2Proof.Machine.execStampEdge k tag s
  | .conversionDone k second n => Sys2Proof.Machine.execConversionDone k second n s
  | .lockGateEnd p c fast slow => Sys2Proof.Machine.execLockGateEnd p c fast slow s
  | .calNow from_ data => Sys2Proof.Machine.execCalNow from_ data s
  | .clusterCalPeriod p => Sys2Proof.Machine.execClusterCalPeriod p s
  | .clusterCalDone p c results => Sys2Proof.Machine.execClusterCalDone p c results s
  | .emuStart from_ e data => Sys2Proof.Machine.execEmuStart from_ e data s
  | .emuAbort from_ e data => Sys2Proof.Machine.execEmuAbort from_ e data s
  | .emuIntervalTimeout p e => Sys2Proof.Machine.execEmuIntervalTimeout p e s
  | .emuSetDone p e => Sys2Proof.Machine.execEmuSetDone p e s
  | .emuMeanRead from_ e => Sys2Proof.Machine.execEmuMeanRead from_ e s
  | .emuLastTickRead from_ e => Sys2Proof.Machine.execEmuLastTickRead from_ e s
  | .syncOrigin vote => Sys2Proof.Machine.execSyncOrigin vote s
  | .syncReceive l m => Sys2Proof.Machine.execSyncReceive l m s
  | .syncFuReceive l m => Sys2Proof.Machine.execSyncFuReceive l m s
  | .syncFuForward l seq vote => Sys2Proof.Machine.execSyncFuForward l seq vote s
  | .fuTimeout l seq => Sys2Proof.Machine.execFuTimeout l seq s
  | .dreqSend l => Sys2Proof.Machine.execDreqSend l s
  | .dreqReceive l m => Sys2Proof.Machine.execDreqReceive l m s
  | .drespFuSend l dseq => Sys2Proof.Machine.execDrespFuSend l dseq s
  | .drespReceive l m => Sys2Proof.Machine.execDrespReceive l m s
  | .drespFuReceive l m => Sys2Proof.Machine.execDrespFuReceive l m s
  | .delayRestart l => Sys2Proof.Machine.execDelayRestart l s
  | .announceSend => Sys2Proof.Machine.execAnnounceSend s
  | .announceReceive l m => Sys2Proof.Machine.execAnnounceReceive l m s
  | .laneCalPeriod p port => Sys2Proof.Machine.execLaneCalPeriod p port s
  | .ptCalNow from_ port data => Sys2Proof.Machine.execPtCalNow from_ port data s
  | .laneCalDone p port lane txCal rxCal txDev rxDev => Sys2Proof.Machine.execLaneCalDone p port lane txCal rxCal txDev rxDev s
  | .ptProbeWrite from_ port data => Sys2Proof.Machine.execPtProbeWrite from_ port data s
  | .probeReceive l m => Sys2Proof.Machine.execProbeReceive l m s
  | .probeEchoReceive l m => Sys2Proof.Machine.execProbeEchoReceive l m s
  | .ptTsqHeadRead from_ port => Sys2Proof.Machine.execPtTsqHeadRead from_ port s
  | .holdoverEnter p => Sys2Proof.Machine.execHoldoverEnter p s
  | .holdLimitExpire p => Sys2Proof.Machine.execHoldLimitExpire p s
  | .offsetGateRun p => Sys2Proof.Machine.execOffsetGateRun p s
  | .servoModeAuto from_ data => Sys2Proof.Machine.execServoModeAuto from_ data s
  | .servoModeFreeze from_ data => Sys2Proof.Machine.execServoModeFreeze from_ data s
  | .servoModeManual from_ data => Sys2Proof.Machine.execServoModeManual from_ data s
  | .reacquire from_ data => Sys2Proof.Machine.execReacquire from_ data s
  | .candidateAnnounceSend refOk => Sys2Proof.Machine.execCandidateAnnounceSend refOk s
  | .masterElect => Sys2Proof.Machine.execMasterElect s
  | .masterHandover from_ data => Sys2Proof.Machine.execMasterHandover from_ data s
  | .handoverAuto => Sys2Proof.Machine.execHandoverAuto s
  | .handoverTickReached => Sys2Proof.Machine.execHandoverTickReached s
  | .masterLossDetect => Sys2Proof.Machine.execMasterLossDetect s
  | .masterTakeover => Sys2Proof.Machine.execMasterTakeover s
  | .ppsEdge t uncal vote => Sys2Proof.Machine.execPpsEdge t uncal vote s
  | .f10mSample phase vote => Sys2Proof.Machine.execF10mSample phase vote s
  | .refTodWrite from_ data => Sys2Proof.Machine.execRefTodWrite from_ data s
  | .refAlign from_ data => Sys2Proof.Machine.execRefAlign from_ data s
  | .refLoss => Sys2Proof.Machine.execRefLoss s
  | .refHoldExpire => Sys2Proof.Machine.execRefHoldExpire s
  | .referenceOutputEdge pps rising => Sys2Proof.Machine.execReferenceOutputEdge pps rising s
  | .ptpAnnounceReceive h rank utcOffset utcValid leap61 leap59 => Sys2Proof.Machine.execPtpAnnounceReceive h rank utcOffset utcValid leap61 leap59 s
  | .ptpSyncReceive h twoStep logInterval t2 uncal => Sys2Proof.Machine.execPtpSyncReceive h twoStep logInterval t2 uncal s
  | .ptpFollowUpReceive h sec ns vote => Sys2Proof.Machine.execPtpFollowUpReceive h sec ns vote s
  | .ptpDelayReqSend t3 => Sys2Proof.Machine.execPtpDelayReqSend t3 s
  | .ptpDelayRespReceive h requester receipt logInterval => Sys2Proof.Machine.execPtpDelayRespReceive h requester receipt logInterval s
  | .tsuReset => Sys2Proof.Machine.execTsuReset s
  | .tsuResetRelease dieType ref156 taps => Sys2Proof.Machine.execTsuResetRelease dieType ref156 taps s
  | .hostPortReset => Sys2Proof.Machine.execHostPortReset s
  | .hostPortRequest write addr data tag => Sys2Proof.Machine.execHostPortRequest write addr data tag s
  | .hostPortResponse => Sys2Proof.Machine.execHostPortResponse s
  | .eventInputEdge n falling => Sys2Proof.Machine.execEventInputEdge n falling s
  | .triggerPulseStart n => Sys2Proof.Machine.execTriggerPulseStart n s
  | .triggerPulseEnd n => Sys2Proof.Machine.execTriggerPulseEnd n s
  | .wcIssuedBeat w bytes => Sys2Proof.Machine.execWcIssuedBeat w bytes s
  | .wcDoneBeat w bytes => Sys2Proof.Machine.execWcDoneBeat w bytes s
  | .ingressBeat g bytes => Sys2Proof.Machine.execIngressBeat g bytes s
  | .rootTimeFrameSend => Sys2Proof.Machine.execRootTimeFrameSend s
  | .tapDllLock t => Sys2Proof.Machine.execTapDllLock t s
  | .strobeLoss t => Sys2Proof.Machine.execStrobeLoss t s
  | .tapIdleFrame t f => Sys2Proof.Machine.execTapIdleFrame t f s
  | .tapTimeFrame t f edges => Sys2Proof.Machine.execTapTimeFrame t f edges s
  | .tapFrameDropRun t => Sys2Proof.Machine.execTapFrameDropRun t s
  | .tapLaunchFrame t f edges => Sys2Proof.Machine.execTapLaunchFrame t f edges s
  | .tapCancelFrame t f => Sys2Proof.Machine.execTapCancelFrame t f s
  | .tapCfgFrame t f => Sys2Proof.Machine.execTapCfgFrame t f s
  | .tapNbTestFrame t f => Sys2Proof.Machine.execTapNbTestFrame t f s
  | .rootHeldLaunchSend t => Sys2Proof.Machine.execRootHeldLaunchSend t s
  | .launchHoldExpire t => Sys2Proof.Machine.execLaunchHoldExpire t s
  | .tapArm t time => Sys2Proof.Machine.execTapArm t time s
  | .tapLaunchEdge t time n => Sys2Proof.Machine.execTapLaunchEdge t time n s
  | .stretchIndicationRise t => Sys2Proof.Machine.execStretchIndicationRise t s
  | .stretchIndicationFall t time n => Sys2Proof.Machine.execStretchIndicationFall t time n s
  | .holdExtExpire t => Sys2Proof.Machine.execHoldExtExpire t s
  | .neighbourNoticeRise t input => Sys2Proof.Machine.execNeighbourNoticeRise t input s
  | .neighbourNoticeFall t input => Sys2Proof.Machine.execNeighbourNoticeFall t input s
  | .pnomMeasured t cycles => Sys2Proof.Machine.execPnomMeasured t cycles s
  | .nbCheck from_ data => Sys2Proof.Machine.execNbCheck from_ data s
  | .nbTestNoticeSeen t input sender => Sys2Proof.Machine.execNbTestNoticeSeen t input sender s
  | .nbCheckDone => Sys2Proof.Machine.execNbCheckDone s
  | .fcRequest t time => Sys2Proof.Machine.execFcRequest t time s
  | .fcAckDeferEnd t => Sys2Proof.Machine.execFcAckDeferEnd t s
  | .fcRequestDrop t => Sys2Proof.Machine.execFcRequestDrop t s
  | .fcStopOverrun t => Sys2Proof.Machine.execFcStopOverrun t s
  | .regionStop t => Sys2Proof.Machine.execRegionStop t s
  | .regionFreqWindow t mean stopped => Sys2Proof.Machine.execRegionFreqWindow t mean stopped s
  | .tapSilent t => Sys2Proof.Machine.execTapSilent t s
  | .replicaWindowEnd t count => Sys2Proof.Machine.execReplicaWindowEnd t count s
  | .tapReportSend t => Sys2Proof.Machine.execTapReportSend t s
  | .heartbeatReport t r => Sys2Proof.Machine.execHeartbeatReport t r s
  | .launchedReport t r => Sys2Proof.Machine.execLaunchedReport t r s
  | .slackReport t r => Sys2Proof.Machine.execSlackReport t r s
  | .overrunReport t r => Sys2Proof.Machine.execOverrunReport t r s
  | .fcReport t r => Sys2Proof.Machine.execFcReport t r s
  | .marginReport t r => Sys2Proof.Machine.execMarginReport t r s
  | .refLossReport t r => Sys2Proof.Machine.execRefLossReport t r s
  | .cfgAckReport t r => Sys2Proof.Machine.execCfgAckReport t r s
  | .nbSeenReport t r => Sys2Proof.Machine.execNbSeenReport t r s
  | .tapRegisterWrite from_ reg data => Sys2Proof.Machine.execTapRegisterWrite from_ reg data s
  | .tapLaunchRead from_ => Sys2Proof.Machine.execTapLaunchRead from_ s
  | .soCfgWrite from_ data => Sys2Proof.Machine.execSoCfgWrite from_ data s
  | .soOpArrive from_ data => Sys2Proof.Machine.execSoOpArrive from_ data s
  | .soOpAdd from_ data => Sys2Proof.Machine.execSoOpAdd from_ data s
  | .soOpSet from_ data => Sys2Proof.Machine.execSoOpSet from_ data s
  | .soOpClear from_ data => Sys2Proof.Machine.execSoOpClear from_ data s
  | .soOpSend from_ data => Sys2Proof.Machine.execSoOpSend from_ data s
  | .soOpOpenWindow from_ data => Sys2Proof.Machine.execSoOpOpenWindow from_ data s
  | .arriveReceive l sender dsn m => Sys2Proof.Machine.execArriveReceive l sender dsn m s
  | .arrivePartialForward l sender dsn m => Sys2Proof.Machine.execArrivePartialForward l sender dsn m s
  | .barrierPartialFold l sender dsn m => Sys2Proof.Machine.execBarrierPartialFold l sender dsn m s
  | .twinReleaseReceive l m => Sys2Proof.Machine.execTwinReleaseReceive l m s
  | .releaseReplicate l m => Sys2Proof.Machine.execReleaseReplicate l m s
  | .releaseReceive l m => Sys2Proof.Machine.execReleaseReceive l m s
  | .timedReleaseComplete slot => Sys2Proof.Machine.execTimedReleaseComplete slot s
  | .sendFenceMet => Sys2Proof.Machine.execSendFenceMet s
  | .sendQueueSpace => Sys2Proof.Machine.execSendQueueSpace s
  | .sendTimeout k => Sys2Proof.Machine.execSendTimeout k s
  | .signalReceive l m => Sys2Proof.Machine.execSignalReceive l m s
  | .signalTakeEffect => Sys2Proof.Machine.execSignalTakeEffect s
  | .waitArm from_ data => Sys2Proof.Machine.execWaitArm from_ data s
  | .waitCancel from_ data => Sys2Proof.Machine.execWaitCancel from_ data s
  | .waitComplete w => Sys2Proof.Machine.execWaitComplete w s
  | .flagAutoclr slot => Sys2Proof.Machine.execFlagAutoclr slot s
  | .waitTimeout t => Sys2Proof.Machine.execWaitTimeout t s
  | .soValWrite from_ data => Sys2Proof.Machine.execSoValWrite from_ data s
  | .soGenWrite from_ data => Sys2Proof.Machine.execSoGenWrite from_ data s
  | .winProgressWrite from_ data => Sys2Proof.Machine.execWinProgressWrite from_ data s
  | .shGenWrite from_ data => Sys2Proof.Machine.execShGenWrite from_ data s
  | .shCountWrite from_ data => Sys2Proof.Machine.execShCountWrite from_ data s
  | .releaseLeadNsWrite from_ data => Sys2Proof.Machine.execReleaseLeadNsWrite from_ data s
  | .launchGuardMiss => Sys2Proof.Machine.execLaunchGuardMiss s
  | .jobLaunch site => Sys2Proof.Machine.execJobLaunch site s
  | .stepLaunch => Sys2Proof.Machine.execStepLaunch s
  | .stepReleaseReceive l m => Sys2Proof.Machine.execStepReleaseReceive l m s
  | .trigModeWrite from_ data => Sys2Proof.Machine.execTrigModeWrite from_ data s
  | .trigParamWrite from_ which data => Sys2Proof.Machine.execTrigParamWrite from_ which data s
  | .trigOneshotWrite from_ data => Sys2Proof.Machine.execTrigOneshotWrite from_ data s
  | .latenessSetEnd job rank => Sys2Proof.Machine.execLatenessSetEnd job rank s
  | .latenessBlockEnd job rank => Sys2Proof.Machine.execLatenessBlockEnd job rank s
  | .ltCfgWrite from_ data => Sys2Proof.Machine.execLtCfgWrite from_ data s
  | .ltMeanRead from_ => Sys2Proof.Machine.execLtMeanRead from_ s
  | .progBegin from_ data => Sys2Proof.Machine.execProgBegin from_ data s
  | .progCommit from_ data => Sys2Proof.Machine.execProgCommit from_ data s
  | .progDataWrite from_ data => Sys2Proof.Machine.execProgDataWrite from_ data s
  | .progAddrWrite from_ data => Sys2Proof.Machine.execProgAddrWrite from_ data s
  | .progCheckDone site => Sys2Proof.Machine.execProgCheckDone site s
  | .homePassStart job => Sys2Proof.Machine.execHomePassStart job s
  | .nop site => Sys2Proof.Machine.execNop site s
  | .endPass site => Sys2Proof.Machine.execEndPass site s
  | .jmp site => Sys2Proof.Machine.execJmp site s
  | .br site => Sys2Proof.Machine.execBr site s
  | .loop site => Sys2Proof.Machine.execLoop site s
  | .ldi site => Sys2Proof.Machine.execLdi site s
  | .ldhi site => Sys2Proof.Machine.execLdhi site s
  | .alu site => Sys2Proof.Machine.execAlu site s
  | .ldstep site => Sys2Proof.Machine.execLdstep site s
  | .ldrank site => Sys2Proof.Machine.execLdrank site s
  | .whisk site => Sys2Proof.Machine.execWhisk site s
  | .ldtime site => Sys2Proof.Machine.execLdtime site s
  | .ldlaunch site => Sys2Proof.Machine.execLdlaunch site s
  | .ldevt site => Sys2Proof.Machine.execLdevt site s
  | .ldso site => Sys2Proof.Machine.execLdso site s
  | .ldbuf site => Sys2Proof.Machine.execLdbuf site s
  | .stbuf site => Sys2Proof.Machine.execStbuf site s
  | .arrive site => Sys2Proof.Machine.execArrive site s
  | .soadd site => Sys2Proof.Machine.execSoadd site s
  | .soset site => Sys2Proof.Machine.execSoset site s
  | .soclr site => Sys2Proof.Machine.execSoclr site s
  | .openwin site => Sys2Proof.Machine.execOpenwin site s
  | .fence site => Sys2Proof.Machine.execFence site s
  | .fenceComplete => Sys2Proof.Machine.execFenceComplete s
  | .send site => Sys2Proof.Machine.execSend site s
  | .wait site => Sys2Proof.Machine.execWait site s
  | .waitevt site => Sys2Proof.Machine.execWaitevt site s
  | .waitevtComplete => Sys2Proof.Machine.execWaitevtComplete s
  | .waittick site => Sys2Proof.Machine.execWaittick site s
  | .waittickComplete => Sys2Proof.Machine.execWaittickComplete s
  | .trig site => Sys2Proof.Machine.execTrig site s
  | .stepend site => Sys2Proof.Machine.execStepend site s
  | .contrib site => Sys2Proof.Machine.execContrib site s
  | .result site => Sys2Proof.Machine.execResult site s
  | .resultComplete => Sys2Proof.Machine.execResultComplete s
  | .resultx site => Sys2Proof.Machine.execResultx site s
  | .digest site => Sys2Proof.Machine.execDigest site s
  | .hwait site => Sys2Proof.Machine.execHwait site s
  | .hwaitComplete job => Sys2Proof.Machine.execHwaitComplete job s
  | .finish site faults => Sys2Proof.Machine.execFinish site faults s
  | .hrelease site faults => Sys2Proof.Machine.execHrelease site faults s
  | .hdigest site => Sys2Proof.Machine.execHdigest site s
  | .hdigestFoldsComplete job => Sys2Proof.Machine.execHdigestFoldsComplete job s
  | .twinCloseReceive l d v => Sys2Proof.Machine.execTwinCloseReceive l d v s
  | .twinCloseTimeout job => Sys2Proof.Machine.execTwinCloseTimeout job s
  | .xbufHostWrite from_ word data => Sys2Proof.Machine.execXbufHostWrite from_ word data s
  | .resultFlitReceive l m => Sys2Proof.Machine.execResultFlitReceive l m s
  | .contribReceive l sender dsn m faults => Sys2Proof.Machine.execContribReceive l sender dsn m faults s
  | .partialReceive l sender dsn m faults => Sys2Proof.Machine.execPartialReceive l sender dsn m faults s
  | .homeContribFold l sender dsn m faults => Sys2Proof.Machine.execHomeContribFold l sender dsn m faults s
  | .refuseReceive l m => Sys2Proof.Machine.execRefuseReceive l m s
  | .rereqReceive l m => Sys2Proof.Machine.execRereqReceive l m s
  | .resultRerequestTimer => Sys2Proof.Machine.execResultRerequestTimer s
  | .twinRresCompare l m => Sys2Proof.Machine.execTwinRresCompare l m s
  | .dgpReceive l sender dsn m => Sys2Proof.Machine.execDgpReceive l sender dsn m s
  | .vmapReceive l sender dsn m => Sys2Proof.Machine.execVmapReceive l sender dsn m s
  | .checkReceive l sender dsn m => Sys2Proof.Machine.execCheckReceive l sender dsn m s
  | .stepPoisonReceive l m => Sys2Proof.Machine.execStepPoisonReceive l m s
  | .audTailWrite from_ data => Sys2Proof.Machine.execAudTailWrite from_ data s
  | .audCfgWrite from_ data => Sys2Proof.Machine.execAudCfgWrite from_ data s
  | .audCtrlWrite from_ data => Sys2Proof.Machine.execAudCtrlWrite from_ data s
  | .audRd0Read from_ => Sys2Proof.Machine.execAudRd0Read from_ s
  | .auditExportSend => Sys2Proof.Machine.execAuditExportSend s
  | .vrecReceive l sender dsn m => Sys2Proof.Machine.execVrecReceive l sender dsn m s
  | .rqPush from_ data => Sys2Proof.Machine.execRqPush from_ data s
  | .rqFlush from_ data => Sys2Proof.Machine.execRqFlush from_ data s
  | .hqPush from_ data => Sys2Proof.Machine.execHqPush from_ data s
  | .replayWaitServed site => Sys2Proof.Machine.execReplayWaitServed site s
  | .rlTailWrite from_ data => Sys2Proof.Machine.execRlTailWrite from_ data s
  | .rlRd0Read from_ => Sys2Proof.Machine.execRlRd0Read from_ s
  | .detFwWrite from_ which data => Sys2Proof.Machine.execDetFwWrite from_ which data s
  | .coalesceWindowEnd p => Sys2Proof.Machine.execCoalesceWindowEnd p s
  | .evrecReceive l sender dsn m => Sys2Proof.Machine.execEvrecReceive l sender dsn m s
  | .eventExportSend => Sys2Proof.Machine.execEventExportSend s
  | .eventRerequestReceive ip port data => Sys2Proof.Machine.execEventRerequestReceive ip port data s
  | .eqW0Read from_ => Sys2Proof.Machine.execEqW0Read from_ s
  | .evRd0Read from_ => Sys2Proof.Machine.execEvRd0Read from_ s
  | .historyAppend => Sys2Proof.Machine.execHistoryAppend s
  | .katRunDone unit pass => Sys2Proof.Machine.execKatRunDone unit pass s
  | .rotationStart => Sys2Proof.Machine.execRotationStart s
  | .rotNow from_ data => Sys2Proof.Machine.execRotNow from_ data s
  | .shadowEnd unit => Sys2Proof.Machine.execShadowEnd unit s
  | .dackReceive l m => Sys2Proof.Machine.execDackReceive l m s
  | .twinHeartbeatSend => Sys2Proof.Machine.execTwinHeartbeatSend s
  | .heartbeatReceive l m => Sys2Proof.Machine.execHeartbeatReceive l m s
  | .leadTakeover => Sys2Proof.Machine.execLeadTakeover s
  | .shadowCopyDone => Sys2Proof.Machine.execShadowCopyDone s
  | .tsuHeartbeatSend => Sys2Proof.Machine.execTsuHeartbeatSend s
  | .heartbeatLoss l => Sys2Proof.Machine.execHeartbeatLoss l s
  | .arrivalTimeout job rank => Sys2Proof.Machine.execArrivalTimeout job rank s
  | .txnSubmit from_ data => Sys2Proof.Machine.execTxnSubmit from_ data s
  | .txnAppend from_ data => Sys2Proof.Machine.execTxnAppend from_ data s
  | .txnCancel from_ data => Sys2Proof.Machine.execTxnCancel from_ data s
  | .txnResetBody from_ data => Sys2Proof.Machine.execTxnResetBody from_ data s
  | .txnLockTake tid => Sys2Proof.Machine.execTxnLockTake tid s
  | .prepareReceive l m => Sys2Proof.Machine.execPrepareReceive l m s
  | .deferredVote p partition => Sys2Proof.Machine.execDeferredVote p partition s
  | .voteReceive l m arrived passed => Sys2Proof.Machine.execVoteReceive l m arrived passed s
  | .voteTimeout tid => Sys2Proof.Machine.execVoteTimeout tid s
  | .commitReceive l m => Sys2Proof.Machine.execCommitReceive l m s
  | .txnCommitApply p partition => Sys2Proof.Machine.execTxnCommitApply p partition s
  | .noCommit p partition => Sys2Proof.Machine.execNoCommit p partition s
  | .abortReceive l m => Sys2Proof.Machine.execAbortReceive l m s
  | .doneReceive l m drained => Sys2Proof.Machine.execDoneReceive l m drained s
  | .txnReportTimeout tid => Sys2Proof.Machine.execTxnReportTimeout tid s
  | .graceEnd p job => Sys2Proof.Machine.execGraceEnd p job s
  | .pauseMarkReceive l m => Sys2Proof.Machine.execPauseMarkReceive l m s
  | .pauseReplySend => Sys2Proof.Machine.execPauseReplySend s
  | .pauseReplyReceive l m => Sys2Proof.Machine.execPauseReplyReceive l m s
  | .drainDone p job => Sys2Proof.Machine.execDrainDone p job s
  | .abortCmd from_ data => Sys2Proof.Machine.execAbortCmd from_ data s
  | .jobAbortReceive l m => Sys2Proof.Machine.execJobAbortReceive l m s
  | .abortAckReceive l m member => Sys2Proof.Machine.execAbortAckReceive l m member s
  | .reportReceive l m => Sys2Proof.Machine.execReportReceive l m s
  | .codewordReceive p port lane bad corrected slots => Sys2Proof.Machine.execCodewordReceive p port lane bad corrected slots s
  | .lackReceive l m => Sys2Proof.Machine.execLackReceive l m s
  | .lnakReceive l m => Sys2Proof.Machine.execLnakReceive l m s
  | .retryStall l => Sys2Proof.Machine.execRetryStall l s
  | .creditReceive l m => Sys2Proof.Machine.execCreditReceive l m s
  | .notReadySend p => Sys2Proof.Machine.execNotReadySend p s
  | .notReadyReceive l m => Sys2Proof.Machine.execNotReadyReceive l m s
  | .laneLockLoss p port lane => Sys2Proof.Machine.execLaneLockLoss p port lane s
  | .serLimitExceeded p port lane => Sys2Proof.Machine.execSerLimitExceeded p port lane s
  | .remapNow from_ port data => Sys2Proof.Machine.execRemapNow from_ port data s
  | .remapReqReceive l m => Sys2Proof.Machine.execRemapReqReceive l m s
  | .remapAckReceive l m => Sys2Proof.Machine.execRemapAckReceive l m s
  | .remapAtReceive l m => Sys2Proof.Machine.execRemapAtReceive l m s
  | .spwAckRise p port => Sys2Proof.Machine.execSpwAckRise p port s
  | .spareClean p port cwc => Sys2Proof.Machine.execSpareClean p port cwc s
  | .remapSwitch p port cwc => Sys2Proof.Machine.execRemapSwitch p port cwc s
  | .spwTimeout p port => Sys2Proof.Machine.execSpwTimeout p port s
  | .portAdmit signal => Sys2Proof.Machine.execPortAdmit signal s
  | .trainComplete l => Sys2Proof.Machine.execTrainComplete l s
  | .trainTimeout l => Sys2Proof.Machine.execTrainTimeout l s
  | .alignComplete l => Sys2Proof.Machine.execAlignComplete l s
  | .helloReceive l m => Sys2Proof.Machine.execHelloReceive l m s
  | .lkRetrain from_ port data => Sys2Proof.Machine.execLkRetrain from_ port data s
  | .linkLeaveService l => Sys2Proof.Machine.execLinkLeaveService l s
  | .regRdReceive l m => Sys2Proof.Machine.execRegRdReceive l m s
  | .regWrReceive l m => Sys2Proof.Machine.execRegWrReceive l m s
  | .regRspReceive l m => Sys2Proof.Machine.execRegRspReceive l m s
  | .lkRegGo from_ port data => Sys2Proof.Machine.execLkRegGo from_ port data s
  | .mirrorReceive l m => Sys2Proof.Machine.execMirrorReceive l m s
  | .powerInputRise vin => Sys2Proof.Machine.execPowerInputRise vin s
  | .powerUndervoltage vin => Sys2Proof.Machine.execPowerUndervoltage vin s
  | .powerOvervoltage vin => Sys2Proof.Machine.execPowerOvervoltage vin s
  | .pwrWarn vin pin pkg aux => Sys2Proof.Machine.execPwrWarn vin pin pkg aux s
  | .powerInterruption => Sys2Proof.Machine.execPowerInterruption s
  | .thermWarn tj inlet => Sys2Proof.Machine.execThermWarn tj inlet s
  | .thermalTrip tj inlet sec => Sys2Proof.Machine.execThermalTrip tj inlet sec s
  | .bootRomStart => Sys2Proof.Machine.execBootRomStart s
  | .bootDone ms => Sys2Proof.Machine.execBootDone ms s
  | .modRstN ns low => Sys2Proof.Machine.execModRstN ns low s
  | .modResetCold from_ data => Sys2Proof.Machine.execModResetCold from_ data s
  | .modResetWarm from_ data => Sys2Proof.Machine.execModResetWarm from_ data s
  | .modResetMc from_ data => Sys2Proof.Machine.execModResetMc from_ data s
  | .perst => Sys2Proof.Machine.execPerst s
  | .trst => Sys2Proof.Machine.execTrst s
  | .jtagBypass => Sys2Proof.Machine.execJtagBypass s
  | .jtagSamplePreload pins load => Sys2Proof.Machine.execJtagSamplePreload pins load s
  | .jtagIdcode => Sys2Proof.Machine.execJtagIdcode s
  | .jtagExtest pins load => Sys2Proof.Machine.execJtagExtest pins load s
  | .jtagRegacc debugEn data => Sys2Proof.Machine.execJtagRegacc debugEn data s
  | .fwHeader from_ data => Sys2Proof.Machine.execFwHeader from_ data s
  | .fwBlock from_ data => Sys2Proof.Machine.execFwBlock from_ data s
  | .fwApplyDone => Sys2Proof.Machine.execFwApplyDone s
  | .fwAbort from_ data => Sys2Proof.Machine.execFwAbort from_ data s
  | .fwActivate from_ data twinVer twinState => Sys2Proof.Machine.execFwActivate from_ data twinVer twinState s
  | .fwConfirm => Sys2Proof.Machine.execFwConfirm s
  | .fwTrialTimeout => Sys2Proof.Machine.execFwTrialTimeout s
  | .fwRecover from_ data => Sys2Proof.Machine.execFwRecover from_ data s
  | .fwRevoke from_ data => Sys2Proof.Machine.execFwRevoke from_ data s
  | .errClr from_ page data => Sys2Proof.Machine.execErrClr from_ page data s
  | .intForce from_ page data => Sys2Proof.Machine.execIntForce from_ page data s
  | .pageIntStatusWrite from_ page data => Sys2Proof.Machine.execPageIntStatusWrite from_ page data s
  | .pageIntEnableWrite from_ page data => Sys2Proof.Machine.execPageIntEnableWrite from_ page data s
  | .pcieAccess x => Sys2Proof.Machine.execPcieAccess x s
  | .intEoi from_ data => Sys2Proof.Machine.execIntEoi from_ data s
  | .msixUnmask v => Sys2Proof.Machine.execMsixUnmask v s
  | .hubAddrWrite from_ data => Sys2Proof.Machine.execHubAddrWrite from_ data s
  | .mgmtConfigWrite from_ which data => Sys2Proof.Machine.execMgmtConfigWrite from_ which data s
  | .arpReceive target sender mac => Sys2Proof.Machine.execArpReceive target sender mac s
  | .icmpEchoReceive dst src data => Sys2Proof.Machine.execIcmpEchoReceive dst src data s
  | .registerQuery ip src dst data => Sys2Proof.Machine.execRegisterQuery ip src dst data s
  | .hbmUncorrectableRead channel addr region => Sys2Proof.Machine.execHbmUncorrectableRead channel addr region s
  | .twinFetchTimeout job => Sys2Proof.Machine.execTwinFetchTimeout job s
  | .linkSignalDetect l => Sys2Proof.Machine.execLinkSignalDetect l s
  | .regionLongCycle t => Sys2Proof.Machine.execRegionLongCycle t s
  | .perstRelease => Sys2Proof.Machine.execPerstRelease s
  | .mgmtLinkStateChange up => Sys2Proof.Machine.execMgmtLinkStateChange up s

end Sys2Proof.Machine
end

