-- ==== Sys2Proof/Safety.lean ====
section
/-! DEFINITION. What claims about the block are stated with: an interface that a part answers, the bounds that the spec sets on
the queues, and what the servo and the page headers never show. -/

namespace Sys2Proof.Machine

/-- A part answers an interface: the hub has power, and its pages are open to it (R469, R476, R500). -/
abbrev Answers (s : State) (i : Iface) : Prop := unpowered s i = false ∧ closed s i = false

/-- The hub holds a job RUNNING in an epoch (R416, R418). -/
abbrev JobRuns (s : State) (j : BitVec 12) (epoch : Bool) : Prop :=
  (s.job j).regs.jobStatusState = 2 ∧ (s.job j).regs.jobStatusEpoch = epoch

/-- The TSU's job and epoch are those of a flit, and the job is neither ABORTED nor DRAINING (R416, R418). -/
abbrev TsuRuns (s : State) (j : BitVec 12) (epoch : Bool) : Prop :=
  s.tsuHasJob = true ∧ s.tsu.txnt.ttJobState.toNat < 5 ∧ s.tsu.txnt.ttJob = j ∧ s.tsu.txnt.ttJobEpoch = epoch

/-- A sender's upward flit is not a duplicate (R401). -/
abbrev NewUp (s : State) (sender : BitVec 32) (dsn : Option (BitVec 32)) : Prop := (dsnCheck s sender dsn).1 = true

/-- The hub once it has taken an upward flit from its link and looked at its DSN (R401, R460). -/
abbrev upTaken (s : State) (l : LinkId) (sender : BitVec 32) (dsn : Option (BitVec 32)) (m : Msg) : State :=
  (dsnCheck (taken s l m) sender dsn).2

/-- An engine is at a word of an opcode, which it issues next (R281, R293): on the TSU, no link access goes before it (R288). -/
abbrev AtWord (s : State) (x : Site) (op : Nat) : Prop := (s.seq x).ready x op = true ∧ (x = .tsu → s.wordWaits = false)

/-- The word at an engine's PC takes its value from its source and nothing keeps that value (R283, R369, R371). -/
abbrev Live (s : State) (x : Site) : Prop := iVary (s.seq x).word = false ∨ s.replayMode x = 0

/-- The engine has issued its word: PC has moved on, and a VARY word has set its bit of the pass map (R281, R284). -/
abbrev issuedAt (s : State) (x : Site) : State := modSeq s x Seq.advance

/-- The TSU's queues hold no more than the spec gives them: 16 host-port requests (R169), 16 queued SENDs (R234), 1,024 replay
values (R371), 32 event records (R384), 64 unacknowledged upward flits (R401) and 64 pending signals (R238). XBUF is in its
canonical form. -/
def TsuBounded (t : Tsu) : Prop :=
  t.hp.length ≤ 16 ∧ t.sends.length ≤ 16 ∧ t.rq.length ≤ 1024 ∧ t.evq.length ≤ 32 ∧ t.up.unacked.length ≤ 64 ∧
    t.pend.length ≤ 64 ∧ twf 0 t.xbuf = true

/-- The hub's queues hold no more than the spec gives them: 1,024 replay values of a home engine (R372), 32 transactions queued
or in progress (R425) and a body of 16 MiB (R420). The mailbox of BAR2 is in its canonical form. -/
def HubBounded (h : Hub) : Prop :=
  h.hq.length ≤ 1024 ∧ h.queue.length ≤ 32 ∧ h.body.length ≤ 16777216 ∧ twf 0 h.bar2 = true

/-- Both parts are within their bounds. -/
def Bounded (s : State) : Prop := TsuBounded s.tsu ∧ HubBounded s.hub

/-- A part's VALID, HOLDOVER and servo state stand as the spec's tables let them (R53, R126): VALID is 1 only LOCKED with HOLDOVER 0
or in HOLDOVER with HOLDOVER 1, HOLDOVER is 1 only with VALID, and the states 5 to 7 are never produced. -/
def TimeConsistent (s : State) : Prop :=
  ∀ p : Part,
    (s.valid p = true →
      s.servoState p = 2 ∧ (s.sh p).tb.regs.statusHoldover = false ∨ s.servoState p = 3 ∧ (s.sh p).tb.regs.statusHoldover = true) ∧
    ((s.sh p).tb.regs.statusHoldover = true → s.valid p = true) ∧ (s.servoState p).toNat ≤ 4

/-- Interrupt causes and enables that a page's chapter does not name read zero (R505). -/
def CausesNamed (s : State) : Prop :=
  ∀ (p : Part) (g : Page),
    (s.hdr p g).pageIntStatus &&& ~~~causesOf g = 0 ∧ (s.hdr p g).pageIntEnable &&& ~~~causesOf g = 0

/-- `t` is `s` but for what reporting changes: page headers with their causes and refusal counts, event numbers, windows, rings and
queues, flits on the links and the links that flows have taken, the TSU's unacknowledged flits and answered requests, and what has
crossed the boundary. -/
abbrev Reported (s t : State) : Prop :=
  t = { s with
    hub := { s.hub with
      sh := { s.hub.sh with
        hdr := t.hub.sh.hdr, links := t.hub.sh.links, evSeq := t.hub.sh.evSeq, windows := t.hub.sh.windows }
      ring := t.hub.ring, evh := t.hub.evh, flows := t.hub.flows }
    tsu := { s.tsu with
      sh := { s.tsu.sh with
        hdr := t.tsu.sh.hdr, links := t.tsu.sh.links, evSeq := t.tsu.sh.evSeq, windows := t.tsu.sh.windows }
      evq := t.tsu.evq, evqRegs := t.tsu.evqRegs, up := t.tsu.up, hp := t.tsu.hp }
    out := t.out }

/-- A flit as it leaves a link from a state, in the place of a codeword that it takes (R452). -/
abbrev flitAt (s : State) (l : LinkId) (lseq : BitVec 12) (dsn : Option (BitVec 32)) (m : Msg) : Out :=
  .flit l lseq dsn m (flitPlace s l m).1 (flitPlace s l m).2

/-- A message has left a link between two states. -/
abbrev Sent (s t : State) (l : LinkId) (m : Msg) : Prop :=
  (t.out.drop s.out.length).any (fun o => match o with
    | .flit k _ _ x _ _ => decide (k = l ∧ x = m)
    | _ => false) = true

/-- A part has raised an event that opens a folding window or is counted by one (R383): a window of its CODE and SUB stands. -/
abbrev Raised (s : State) (p : Part) (code sub : BitVec 16) : Prop :=
  (s.sh p).windows.any (fun w => w.ev.code == code && w.ev.sub == sub) = true

end Sys2Proof.Machine
end

