-- ==== Sys2Proof/Certificates/Slice0/Obligations.lean ====
section
/-! DEFINITION. The obligations: what the rules of the spec say the commands do, stated over the model. Most are conjunctions, one
clause for each form of a command: under hypotheses on the state and the operands alone the command answers a next state, and the
clause says what that state holds. -/

open Sys2Proof Sys2Proof.Machine

/-- An island cycle adds 2^48 plus the rate word to tick and fraction and counts a cycle (R59). As the synthesiser locks,
ISLAND_LOCK is set and the hub changes nothing else (R57); as it loses lock, ISLAND_LOCK and VALID are 0 and the servo is in
FREE (R58). A gate moves a cluster's two integrators by its counts' excess and changes nothing else; an integrator beyond 8
cycles is a fault: the loop begins again, the cluster leaves READY and FAULT is set (R78, R79, R81). CAL_NOW and the
CAL_PERIOD timer start the calibration of every locked cluster; a calibration in which every converter passes is counted,
takes the offsets and makes a locked cluster READY (R80). -/
def Obligations.IslandAndClusters : Prop :=
  (∀ (p : Part) (s : State),
    islandRuns s p = true →
    s.tsu.lateWords = [] →
    s.tsu.lateHost = [] →
    ∃ t, exec (.islandCycle p) s = .next t ∧
      tbTime (t.sh p).tb = tbTime (s.sh p).tb + 0x1000000000000#112 + (s.sh p).tb.regs.rateNow.signExtend 112 ∧
      (t.sh p).tb.cycles = (s.sh p).tb.cycles + 1) ∧
  (∀ (s : State),
    s.tsu.inReset = false →
    s.valid .tsu = false ∨ s.tsu.sh.tb.resolve = false →
    s.tsu.lateWords = [] →
    s.tsu.lateHost = [] →
    s.tsu.tapPage.tapGlobalEn = false →
    ∃ t, exec (.islandCycle .tsu) s = .next t ∧
      (t = countStalls (startConvs (modTb (modTsu s fun h => { h with evtNew := 0, xhold := [] }) .tsu tbCycle) .tsu) .tsu)) ∧
  (∀ (s : State),
    s.tsu.inReset = false →
    s.valid .tsu = false ∨ s.tsu.sh.tb.resolve = false →
    s.tsu.lateWords = [] →
    s.tsu.lateHost = [] →
    s.tsu.tapPage.tapGlobalEn = true →
    s.tsu.sh.tb.regs.statusIslandLock = true →
    s.now .tsu < (tbCycle s.tsu.sh.tb).tick - (tbCycle s.tsu.sh.tb).tick % 4 →
    ∃ t, exec (.islandCycle .tsu) s = .next t ∧
      t.out = s.out ++ [.strobe ((tbCycle s.tsu.sh.tb).tick % 8 < 4) ((tbCycle s.tsu.sh.tb).tick - (tbCycle s.tsu.sh.tb).tick %
        4)] ∧
      (t = { countStalls (startConvs (modTb (modTsu s fun h => { h with evtNew := 0, xhold := [] }) .tsu tbCycle) .tsu) .tsu with out := t.out, tsu := { (countStalls (startConvs (modTb s .tsu tbCycle) .tsu) .tsu).tsu with evtNew := 0, xhold := [], taps := t.tsu.taps } })) ∧
  (∀ (op : Nat) (x : LateHost) (s : State),
    s.tsu.inReset = false →
    s.tsu.lateWords = [op] →
    s.tsu.lateHost = [x] →
    ∃ t, exec (.islandCycle .tsu) s = .next t ∧
      (exec (.islandCycle .tsu) (hostAccess (modTsu (lateWord (modTsu s fun h => { h with lateWords := [] }) op) fun h =>
        { h with lateHost := [] }) x) = .next t)) ∧
  (∀ (s : State),
    s.hub.power.on = true →
    s.valid .hub = false ∨ s.hub.sh.tb.resolve = false →
    s.hub.ref.regs.masterStatusIsMaster = false →
    s.hub.sh.ann = none →
    ∃ t, exec (.islandCycle .hub) s = .next t ∧
      t.tsu = s.tsu ∧
      Reported { s with
        hub := { s.hub with
          units := t.hub.units, flt := t.hub.flt, katPassed := t.hub.katPassed, rotN := t.hub.rotN, rotW := t.hub.rotW,
          rotWide := t.hub.rotWide, intc := t.hub.intc, msixPending := t.hub.msixPending,
          sh := { s.hub.sh with tb := tbCycle s.hub.sh.tb, vern := (startConvs s .hub).hub.sh.vern } } } t) ∧
  (∀ (s : State),
    ∃ t, exec (.islandLock .hub) s = .next t ∧
      (t = modTbRegs s .hub fun r => { r with statusIslandLock := true })) ∧
  (∀ (s : State),
    ∃ t, exec (.islandLock .tsu) s = .next t ∧
      t.tsu.sh.tb = { s.tsu.sh.tb with regs := { s.tsu.sh.tb.regs with statusIslandLock := true } } ∧
      t = { s with tsu := { s.tsu with sh := { s.tsu.sh with tb := t.tsu.sh.tb }, taps := t.tsu.taps } }) ∧
  (∀ (p : Part) (s : State),
    ∃ t, exec (.islandLockLoss p) s = .next t ∧
      (t.sh p).tb.regs.statusIslandLock = false ∧
      t.valid p = false ∧
      t.servoState p = 0 ∧
      Reported { s with
        hub := { s.hub with
          mod_ := t.hub.mod_, ref := t.hub.ref,
          sh := { s.hub.sh with tb := t.hub.sh.tb, emus := t.hub.sh.emus, servo := t.hub.sh.servo } },
        tsu := { s.tsu with
          trigs := t.tsu.trigs, sh := { s.tsu.sh with tb := t.tsu.sh.tb, emus := t.tsu.sh.emus, servo := t.tsu.sh.servo } },
        free := t.free } t) ∧
  (∀ (p : Part) (c : BitVec 5) (fast slow : BitVec 18) (s : State),
    hasCluster p c = true →
    (s.sh p).tb.regs.statusIslandLock = true →
    ((s.cluster p c).fast + ((fast.toNat : Int) - 131328)).natAbs ≤ 8 →
    ((s.cluster p c).slow + ((slow.toNat : Int) - 131072)).natAbs ≤ 8 →
    ∃ t, exec (.lockGateEnd p c fast slow) s = .next t ∧
      (t.cluster p c).fast = (s.cluster p c).fast + ((fast.toNat : Int) - 131328) ∧
      (t.cluster p c).slow = (s.cluster p c).slow + ((slow.toNat : Int) - 131072) ∧
      (t.cluster p c).trimFast = Config.trimCode (t.cluster p c).fast ∧
      (t.cluster p c).trimSlow = Config.trimCode (t.cluster p c).slow ∧
      (t.cluster p c).shown = (s.cluster p c).shown ∧
      (t.cluster p c).calibrated = (s.cluster p c).calibrated ∧
      (t = modCluster s p c fun _ => t.cluster p c)) ∧
  (∀ (p : Part) (c : BitVec 5) (fast slow : BitVec 18) (s : State),
    hasCluster p c = true →
    (s.sh p).tb.regs.statusIslandLock = false →
    ∃ t, exec (.lockGateEnd p c fast slow) s = .next t ∧
      t = s) ∧
  (∀ (p : Part) (c : BitVec 5) (fast slow : BitVec 18) (s : State),
    hasCluster p c = true →
    (s.sh p).tb.regs.statusIslandLock = true →
    8 < ((s.cluster p c).fast + ((fast.toNat : Int) - 131328)).natAbs →
    ∃ t, exec (.lockGateEnd p c fast slow) s = .next t ∧
      (t.cluster p c).fast = 0 ∧
      (t.cluster p c).slow = 0 ∧
      (t.cluster p c).calibrated = false ∧
      (t.sh p).vern.regs.vernReady.getLsbD c.toNat = false ∧
      (t.sh p).vern.regs.vernFault.getLsbD c.toNat = true ∧
      Reported { s with
        hub := { s.hub with mod_ := t.hub.mod_, sh := { s.hub.sh with vern := t.hub.sh.vern } },
        tsu := { s.tsu with sh := { s.tsu.sh with vern := t.tsu.sh.vern } } } t) ∧
  (∀ (i : Iface) (data : Word) (s : State),
    Answers s i →
    ∃ t, exec (.calNow i data) s = .next t ∧
      (t.sh i.part).vern.regs.vernCtrlCalPeriodMs = getF data 0 16 ∧
      (∀ c ∈ List.range 19, hasCluster i.part (BitVec.ofNat 5 c) = true →
        (t.cluster i.part (BitVec.ofNat 5 c)).calibrating = true) ∧
      t.out = s.out ++ [.writeAck i false] ∧
      Reported { s with
        hub := { s.hub with sh := { s.hub.sh with vern := t.hub.sh.vern } },
        tsu := { s.tsu with sh := { s.tsu.sh with vern := t.tsu.sh.vern } } } t) ∧
  (∀ (p : Part) (s : State),
    (s.sh p).vern.regs.vernCtrlCalPeriodMs ≠ 0 →
    ∃ t, exec (.clusterCalPeriod p) s = .next t ∧
      (∀ c ∈ List.range 19, hasCluster p (BitVec.ofNat 5 c) = true → (t.cluster p (BitVec.ofNat 5 c)).calibrating = true) ∧
      (t = modSh s p fun h => { h with vern := { h.vern with clusters := (t.sh p).vern.clusters } })) ∧
  (∀ (p : Part) (c : BitVec 5) (results : List CalResult) (s : State),
    hasCluster p c = true →
    (s.cluster p c).calibrating = true →
    calComplete p c results = true →
    results.all calPasses = true →
    (s.cluster p c).locked = true →
    ∃ t, exec (.clusterCalDone p c results) s = .next t ∧
      (t.cluster p c).calibrating = false ∧
      (t.cluster p c).calibrated = true ∧
      (t.cluster p c).shown.vernResultCalCount = satInc (s.cluster p c).shown.vernResultCalCount ∧
      (t.sh p).vern.regs.vernReady.getLsbD c.toNat = true ∧
      (∀ r ∈ results, (if r.conv1 then (t.point r.point).off1 else (t.point r.point).off0) = (calFigures r.errors).1) ∧
      Reported { s with
        hub := { s.hub with mod_ := t.hub.mod_, sh := { s.hub.sh with vern := t.hub.sh.vern } },
        tsu := { s.tsu with sh := { s.tsu.sh with vern := t.tsu.sh.vern } } } t)

/-- An edge starts the converter that is armed, converter 0 when both are, and changes nothing else; with neither armed the
edge is counted as missed (R73, R76). A conversion that ends arms its converter again; a link's stamp is held with its link
(R75). START with no refusal case begins a set of no samples with the fields as written, ABORT ends it with CAUSE 3 (R92); a
timeout on B discards the sample and counts it (R89); a set of 2^K samples writes its results, counts SET_SEQ and, unless
continuous, ends (R91, R93). A read of EMU_MEAN or EMU_LAST_TICK answers with it and latches the registers that go with it
for that interface (R93). -/
def Obligations.StampsAndEngines : Prop :=
  (∀ (tag : FlitTag) (l : LinkId) (s : State),
    (s.point (.linkRx l)).conv0 = none →
    ∃ t, exec (.stampEdge (.linkRx l) tag) s = .next t ∧
      (t.point (.linkRx l)).conv0 = some { tag := tag, edge := (s.point (.linkRx l)).edges, moveGen := (s.link l).moveGen } ∧
      (t.point (.linkRx l)).conv1 = (s.point (.linkRx l)).conv1 ∧
      (t.point (.linkRx l)).edges = (s.point (.linkRx l)).edges + 1 ∧
      (t = modPoint s (.linkRx l) fun _ => t.point (.linkRx l))) ∧
  (∀ (tag : FlitTag) (l : LinkId) (s : State),
    (s.point (.linkTx l)).conv0.isSome = true →
    (s.point (.linkTx l)).conv1 = none →
    ∃ t, exec (.stampEdge (.linkTx l) tag) s = .next t ∧
      (t.point (.linkTx l)).conv0 = (s.point (.linkTx l)).conv0 ∧
      (t.point (.linkTx l)).conv1 = some {
        tag := tag, edge := (s.point (.linkTx l)).edges, moveGen := (s.link l).moveGen, inGen := s.movesIn (.linkTx l) tag } ∧
      (t.point (.linkTx l)).edges = (s.point (.linkTx l)).edges + 1 ∧
      t = { s with
        hub := { s.hub with sh := { s.hub.sh with vern := t.hub.sh.vern, pages := t.hub.sh.pages } },
        tsu := { s.tsu with sh := { s.tsu.sh with vern := t.tsu.sh.vern, pages := t.tsu.sh.pages } } }) ∧
  (∀ (tag : FlitTag) (p : Part) (e : BitVec 2) (s : State),
    (s.emu p e).takes true tag.rising = false →
    ∃ t, exec (.stampEdge (.engineB p e) tag) s = .next t ∧
      t = s) ∧
  (∀ (tag : FlitTag) (p : Part) (e : BitVec 2) (s : State),
    (s.emu p e).takes true tag.rising = true →
    (s.emu p e).preB + 1 < (s.emu p e).divides true →
    ∃ t, exec (.stampEdge (.engineB p e) tag) s = .next t ∧
      (t = modEmu s p e fun g => { g with preB := g.preB + 1 })) ∧
  (∀ (tag : FlitTag) (p : Part) (e : BitVec 2) (s : State),
    (s.emu p e).takes false tag.rising = true →
    (s.emu p e).divides false ≤ (s.emu p e).preA + 1 →
    (s.point (.engineA p e)).conv0.isSome = true →
    (s.point (.engineA p e)).conv1.isSome = true →
    ∃ t, exec (.stampEdge (.engineA p e) tag) s = .next t ∧
      (t.emu p e).regs.emuDiscardMissed = satInc (s.emu p e).regs.emuDiscardMissed ∧
      (t.point (.engineA p e)).conv0 = (s.point (.engineA p e)).conv0 ∧
      (t.point (.engineA p e)).conv1 = (s.point (.engineA p e)).conv1 ∧
      Reported { s with
        hub := { s.hub with sh := { s.hub.sh with vern := t.hub.sh.vern, emus := t.hub.sh.emus } },
        tsu := { s.tsu with sh := { s.tsu.sh with vern := t.tsu.sh.vern, emus := t.tsu.sh.emus } } } t) ∧
  (∀ (second : Bool) (n : BitVec 10) (l : LinkId) (c : Conv) (s : State),
    (if second then (s.point (.linkRx l)).conv1 else (s.point (.linkRx l)).conv0) = some c →
    c.started = true →
    1 ≤ n.toNat →
    n.toNat ≤ 512 →
    (s.link l).waitFu = [] →
    (s.link l).waitDresp = [] →
    (s.link l).waitProbe = [] →
    ∃ t, exec (.conversionDone (.linkRx l) second n) s = .next t ∧
      (t.link l).rx = keepStamp c.tag {
        t := stampOf c n.toNat (if second then (s.point (.linkRx l)).off1 else (s.point (.linkRx l)).off0),
        uncal := !(s.sh l.part).vern.regs.vernReady.getLsbD (Point.linkRx l).cluster, missed := false, stepGen := c.stepGen,
        moveGen := c.moveGen, inGen := c.inGen, valid := c.valid, edge := c.edge } (s.link l).rx ∧
      (if second then (t.point (.linkRx l)).conv1 else (t.point (.linkRx l)).conv0) = none ∧
      Reported { s with
        hub := { s.hub with sh := { s.hub.sh with vern := t.hub.sh.vern, emus := t.hub.sh.emus, pages := t.hub.sh.pages } },
        tsu := { s.tsu with
          sh := { s.tsu.sh with vern := t.tsu.sh.vern, emus := t.tsu.sh.emus, pages := t.tsu.sh.pages } } } t) ∧
  (∀ (i : Iface) (e : BitVec 2) (data : Word) (s : State),
    Answers s i →
    ((Page.emu e).ordinal i.part).isSome = true →
    getB data 63 = true →
    startOk s i.part ((s.emu i.part e).regs.write 0x040 data) = true →
    ∃ t, exec (.emuStart i e data) s = .next t ∧
      (t.emu i.part e).regs.emuStatusBusy = true ∧
      (t.emu i.part e).regs.emuStatusSamples = 0 ∧
      (t.emu i.part e).regs.emuCtrlMode = ((s.emu i.part e).regs.write 0x040 data).emuCtrlMode ∧
      (t.emu i.part e).regs.emuCtrlK = ((s.emu i.part e).regs.write 0x040 data).emuCtrlK ∧
      (t.emu i.part e).first = none ∧
      (t = emit (modEmu s.fresh.2 i.part e fun _ => t.emu i.part e) (.writeAck i false))) ∧
  (∀ (i : Iface) (e : BitVec 2) (data : Word) (s : State),
    Answers s i →
    ((Page.emu e).ordinal i.part).isSome = true →
    (s.emu i.part e).regs.emuStatusBusy = true →
    ∃ t, exec (.emuAbort i e data) s = .next t ∧
      (t.emu i.part e).regs.emuStatusBusy = false ∧
      (t.emu i.part e).regs.emuStatusCause = 3 ∧
      (t.emu i.part e).regs.emuStatusFailed = true ∧
      t.out = s.out ++ [.writeAck i false] ∧
      Reported { s with
        hub := { s.hub with sh := { s.hub.sh with emus := t.hub.sh.emus } },
        tsu := { s.tsu with sh := { s.tsu.sh with emus := t.tsu.sh.emus } } } t) ∧
  (∀ (p : Part) (e : BitVec 2) (s : State),
    (s.emu p e).regs.emuStatusBusy = true →
    (s.emu p e).regs.emuCtrlMode = 0 →
    (s.emu p e).first.isSome = true →
    ∃ t, exec (.emuIntervalTimeout p e) s = .next t ∧
      (t.emu p e).first = none ∧
      (t.emu p e).regs = { (s.emu p e).regs with emuDiscardTimeout := satInc (s.emu p e).regs.emuDiscardTimeout } ∧
      (t = modEmu s p e fun _ => t.emu p e)) ∧
  (∀ (p : Part) (e : BitVec 2) (s : State),
    (s.emu p e).regs.emuStatusBusy = true →
    (s.emu p e).regs.emuStatusSamples.toNat = 2 ^ (s.emu p e).regs.emuCtrlK.toNat →
    ∃ t, exec (.emuSetDone p e) s = .next t ∧
      (t.emu p e).regs.emuStatusSetSeq = (s.emu p e).regs.emuStatusSetSeq + 1 ∧
      (t.emu p e).regs.emuMin = BitVec.ofInt 64 (s.emu p e).lo ∧
      (t.emu p e).regs.emuMax = BitVec.ofInt 64 (s.emu p e).hi ∧
      (t.emu p e).regs.emuMean = BitVec.ofInt 64 ((2 ^ (s.emu p e).regs.emuCtrlK.toNat * (s.emu p e).s1 + (s.emu p e).sumY) / 2
        ^ (s.emu p e).regs.emuCtrlK.toNat) ∧
      (t.emu p e).regs.emuStatusBusy = (s.emu p e).regs.emuCtrlContinuous ∧
      (t.emu p e).regs.emuStatusSamples = 0 ∧
      Reported { s with
        hub := { s.hub with sh := { s.hub.sh with emus := t.hub.sh.emus } },
        tsu := { s.tsu with sh := { s.tsu.sh with emus := t.tsu.sh.emus } } } t) ∧
  (∀ (i : Iface) (e : BitVec 2) (s : State),
    Answers s i →
    ∃ t, exec (.emuMeanRead i e) s = .next t ∧
      t.out = s.out ++ [.readData i (s.emu i.part e).regs.emuMean] ∧
      tget {} (t.iface i).emu e.toNat = { tget {} (s.iface i).emu e.toNat with
        emuStdev := (s.emu i.part e).regs.emuStdev, emuMin := (s.emu i.part e).regs.emuMin,
        emuMax := (s.emu i.part e).regs.emuMax } ∧
      (t = emit (modIface s i fun _ => t.iface i) (.readData i (s.emu i.part e).regs.emuMean))) ∧
  (∀ (i : Iface) (e : BitVec 2) (s : State),
    Answers s i →
    ∃ t, exec (.emuLastTickRead i e) s = .next t ∧
      t.out = s.out ++ [.readData i (s.emu i.part e).regs.emuLastTick] ∧
      tget {} (t.iface i).emu e.toNat = { tget {} (s.iface i).emu e.toNat with
        emuLastFrac := (s.emu i.part e).regs.emuLastFrac } ∧
      (t = emit (modIface s i fun _ => t.iface i) (.readData i (s.emu i.part e).regs.emuLastTick)))

/-- On the master with no job admitted, a write of HALL_EPOCH to an earlier second moves the tick forward by whole seconds
and clears VALID until the timer sets it again; any other interface's write, and one that is not allowed, is refused and
counted and changes nothing else (R55). A read of NOW_LO answers with the time of the cycle and latches NOW_HI, NOW_TICK and
NOW_FRAC for its interface alone (R71). -/
def Obligations.EpochAndTimeReads : Prop :=
  (∀ (i : Iface) (data : Word) (s : State),
    Answers s i →
    i.part = .hub →
    s.hub.ref.regs.masterStatusIsMaster = true →
    noJobs s = true →
    (getF data 0 48 : BitVec 48).toNat ≤ (s.sec .hub).toNat →
    (getF data 0 48 : BitVec 48) ≠ s.hub.sh.tb.regs.hallEpoch →
    ∃ t, exec (.hallEpochWrite i data) s = .next t ∧
      t.hub.sh.tb.regs.hallEpoch = getF data 0 48 ∧
      t.now .hub = BitVec.ofInt 64 ((s.now .hub).toNat + ((s.hub.sh.tb.regs.hallEpoch.toNat : Int) - (getF data 0 48 : BitVec
        48).toNat) * 1000000000) ∧
      t.valid .hub = false ∧
      t.hub.sh.tb.revalid = true ∧
      t.out = s.out ++ [.writeAck i false] ∧
      t.tsu = s.tsu ∧
      Reported { s with
        hub := { s.hub with mod_ := t.hub.mod_, ref := t.hub.ref, sh := { s.hub.sh with tb := t.hub.sh.tb } },
        tsu := { s.tsu with trigs := t.tsu.trigs, sh := { s.tsu.sh with tb := t.tsu.sh.tb } } } t) ∧
  (∀ (i : Iface) (data : Word) (s : State),
    Answers s i →
    i.part = .tsu ∨ s.hub.ref.regs.masterStatusIsMaster = false →
    ∃ t, exec (.hallEpochWrite i data) s = .next t ∧
      t = emit (refuse s i.part .timebase) (.writeAck i true)) ∧
  (∀ (s : State),
    s.hub.sh.tb.revalid = true →
    s.servoState .hub = 2 ∨ s.servoState .hub = 3 →
    ∃ t, exec .epochRevalid s = .next t ∧
      t.valid .hub = true ∧
      (t.sh .hub).tb.regs.statusHoldover = decide (s.servoState .hub = 3) ∧
      t.hub.sh.tb.revalid = false ∧
      t.now .hub = s.now .hub ∧
      t.tsu = s.tsu ∧
      Reported { s with
        hub := { s.hub with mod_ := t.hub.mod_, sh := { s.hub.sh with tb := t.hub.sh.tb } },
        tsu := { s.tsu with sh := { s.tsu.sh with tb := t.tsu.sh.tb } } } t) ∧
  (∀ (i : Iface) (s : State),
    Answers s i →
    ∃ t, exec (.nowLoRead i) s = .next t ∧
      (t.iface i).regs.nowHi = (s.sec i.part).extractLsb' 16 32 ∧
      (t.iface i).regs.nowTick = s.now i.part ∧
      (t.iface i).regs.nowFrac = (s.sh i.part).tb.frac ∧
      (t = emit (modIface s i fun _ => t.iface i) (.readData i (putF 48 ((s.sec i.part).extractLsb' 0 16) |||
      putF 18 (BitVec.ofNat 30 (s.ns i.part)) ||| putF 2 ((s.sh i.part).tb.frac.extractLsb' 32 16) |||
      putB 1 (s.sh i.part).tb.regs.statusHoldover ||| putB 0 (s.sh i.part).tb.regs.statusValid))))

/-- A port in service that receives SYNC sends, with TIME_EN, a DREQ with its next DSEQ and holds it as the outstanding
exchange; any other sends none (R101). DREQ and DRESP stand in slot 0 of logical lane 0 (R452). A ready partner answers with
DRESP; with both its stamps converted, and not before, it sends DRESP_FU with TURN, the corrected time from receipt to
answer, and lets the stamps go (R101). The initiator notes the answer; DRESP_FU waits while a stamp of its exchange is being
converted, and then the exchange is over, its stamps leave, and a sample with nothing wrong enters the mean or, once
SETTLED, moves PT_DELAY by its share of the difference; one beyond DELAY_GATE is counted; a DRESP_FU of no exchange is
dropped as MISSED (R102, R116). With no passed calibration of the lane each of these flits is dropped as NOT_SETTLED (R113).
After 64 gate drops in a row the mean begins again and SETTLED is 0 (R102). -/
def Obligations.DelayExchange : Prop :=
  (∀ (l : LinkId) (s : State),
    (s.link l).active = true →
    (s.link l).regs.ptCtrlTimeEn = true →
    s.receivesSync l = true →
    ∃ t, exec (.dreqSend l) s = .next t ∧
      t.link l = { s.link l with exch := some (s.link l).dseq, exchAnswered := false, dseq := (s.link l).dseq + 1 } ∧
      t.out = s.out ++ [.flit l 0 none (.dreq ⟨(s.link l).dseq⟩) 0 0] ∧
      Reported s t) ∧
  (∀ (l : LinkId) (s : State),
    (s.link l).active = false ∨ (s.link l).regs.ptCtrlTimeEn = false ∨ s.receivesSync l = false →
    ∃ t, exec (.dreqSend l) s = .next t ∧
      t = s) ∧
  (∀ (l : LinkId) (m : DreqP) (s : State),
    s.laneReady l = true →
    s.partReady l.part = true →
    (s.link l).active = true →
    ∃ t, exec (.dreqReceive l m) s = .next t ∧
      t.link l = { s.link l with resp := (s.link l).resp ++ [m.dseq] } ∧
      t.out = s.out ++ [.flit l 0 none (.dresp ⟨m.dseq⟩) 0 0] ∧
      Reported s t) ∧
  (∀ (l : LinkId) (m : DreqP) (s : State),
    s.laneReady l = false →
    ∃ t, exec (.dreqReceive l m) s = .next t ∧
      t.link l = { s.link l with
        rx := dropStamp (.dreq m.dseq) (s.link l).rx,
        regs := { (s.link l).regs with ptCol2NotSettled := satInc (s.link l).regs.ptCol2NotSettled } } ∧
      (t = modLink s l fun _ => t.link l)) ∧
  (∀ (l : LinkId) (dseq : BitVec 16) (a b : Stamp) (s : State),
    (s.link l).active = true →
    (s.link l).resp.contains dseq = true →
    findStamp (.dreq dseq) (s.link l).rx = some a →
    findStamp (.dresp dseq) (s.link l).tx = some b →
    ∃ t, exec (.drespFuSend l dseq) s = .next t ∧
      (t.link l).resp = (s.link l).resp.filter (· != dseq) ∧
      t.out = s.out ++ [flitAt s l 0 none (.drespFu {
        dseq := dseq, bad := (firstCause (pairCauses (some a) (some b))).isSome,
        turn := BitVec.ofInt 32 ((b.t + (s.latency l).1) - (a.t - (s.latency l).2)) })] ∧
      Reported s t) ∧
  (∀ (l : LinkId) (dseq : BitVec 16) (s : State),
    findStamp (.dreq dseq) (s.link l).rx = none ∨ findStamp (.dresp dseq) (s.link l).tx = none →
    ∃ t, exec (.drespFuSend l dseq) s = .next t ∧
      t = s) ∧
  (∀ (l : LinkId) (m : DrespP) (s : State),
    s.laneReady l = true →
    (s.link l).exch = some m.dseq →
    ∃ t, exec (.drespReceive l m) s = .next t ∧
      t.link l = { s.link l with exchAnswered := true } ∧
      (t = modLink s l fun _ => t.link l)) ∧
  (∀ (l : LinkId) (m : DrespP) (s : State),
    s.laneReady l = false →
    ∃ t, exec (.drespReceive l m) s = .next t ∧
      t.link l = { s.link l with
        rx := dropStamp (.dresp m.dseq) (s.link l).rx,
        regs := { (s.link l).regs with ptCol2NotSettled := satInc (s.link l).regs.ptCol2NotSettled } } ∧
      (t = modLink s l fun _ => t.link l)) ∧
  (∀ (l : LinkId) (m : DrespFuP) (s : State),
    s.laneReady l = true →
    (s.link l).exch = some m.dseq →
    converting s (.linkTx l) (.dreq m.dseq) = false ∧ converting s (.linkRx l) (.dresp m.dseq) = false →
    ∃ t, exec (.drespFuReceive l m) s = .next t ∧
      (t.link l).exch = none ∧
      (t.link l).exchAnswered = false ∧
      (t.link l).tx = dropStamp (.dreq m.dseq) (s.link l).tx ∧
      (t.link l).rx = dropStamp (.dresp m.dseq) (s.link l).rx ∧
      (t = modLink s l fun _ => t.link l)) ∧
  (∀ (l : LinkId) (m : DrespFuP) (a b : Stamp) (d : Int) (s : State),
    s.laneReady l = true →
    (s.link l).exch = some m.dseq →
    converting s (.linkTx l) (.dreq m.dseq) = false ∧ converting s (.linkRx l) (.dresp m.dseq) = false →
    findStamp (.dreq m.dseq) (s.link l).tx = some a →
    findStamp (.dresp m.dseq) (s.link l).rx = some b →
    firstCause (pairCauses (some a) (some b)) = none →
    m.bad = false →
    (s.link l).regs.ptGatesTurnMax = 0 ∧ (s.link l).regs.ptGatesDelayGate = 0 →
    d = ((b.t - (s.latency l).2 - (a.t + (s.latency l).1)) - m.turn.toNat) / 2 →
    ∃ t, exec (.drespFuReceive l m) s = .next t ∧
      ((s.link l).regs.ptDelaySettled = true → (t.link l).regs.ptDelay =
        BitVec.ofInt 48 ((s.link l).regs.ptDelay.toInt + (d - (s.link l).regs.ptDelay.toInt) / 2 ^ (s.link
          l).regs.ptCtrlFilt.toNat)) ∧
      ((s.link l).regs.ptDelaySettled = false → (t.link l).dcount = (s.link l).dcount + 1 ∧
        (t.link l).dsum = (s.link l).dsum + d ∧ (t.link l).regs.ptDelay =
          BitVec.ofInt 48 (((s.link l).dsum + d) / ((s.link l).dcount + 1 : Nat)) ∧
            (t.link l).regs.ptDelaySettled = decide (2 ^ (s.link l).regs.ptCtrlFilt.toNat ≤ (s.link l).dcount + 1)) ∧
      (t.link l).gateDrops = 0) ∧
  (∀ (l : LinkId) (m : DrespFuP) (s : State),
    s.laneReady l = true →
    converting s (.linkTx l) (.dreq m.dseq) = true ∨ converting s (.linkRx l) (.dresp m.dseq) = true →
    ∃ t, exec (.drespFuReceive l m) s = .next t ∧
      (t = modLink s l fun k => { k with waitDresp := k.waitDresp ++ [m] })) ∧
  (∀ (l : LinkId) (m : DrespFuP) (s : State),
    s.laneReady l = true →
    (s.link l).exch ≠ some m.dseq →
    converting s (.linkTx l) (.dreq m.dseq) = false ∧ converting s (.linkRx l) (.dresp m.dseq) = false →
    ∃ t, exec (.drespFuReceive l m) s = .next t ∧
      t.link l = { s.link l with regs := { (s.link l).regs with ptCol0Missed := satInc (s.link l).regs.ptCol0Missed } } ∧
      (t = modLink s l fun _ => t.link l)) ∧
  (∀ (l : LinkId) (m : DrespFuP) (s : State),
    s.laneReady l = false →
    ∃ t, exec (.drespFuReceive l m) s = .next t ∧
      (t.link l).regs.ptCol2NotSettled = satInc (s.link l).regs.ptCol2NotSettled ∧
      (t.link l).regs.ptDelay = (s.link l).regs.ptDelay ∧
      (t = modLink s l fun _ => t.link l)) ∧
  (∀ (l : LinkId) (s : State),
    64 ≤ (s.link l).gateDrops →
    ∃ t, exec (.delayRestart l) s = .next t ∧
      t.link l = { s.link l with
        regs := { (s.link l).regs with ptDelaySettled := false }, dcount := 0, dsum := 0, gateDrops := 0,
        restarts := satInc (s.link l).restarts } ∧
      (t = modLink s l fun _ => t.link l))

/-- The master originates a SYNC under its next SEQ at its present tick, with SRC_VALID as its VALID stands, and sends it in
slot 0 of logical lane 0 on every link in service that SEQ allows, unless its time-path units all differ or the tick of a
handover has come (R98, R103, R104, R141, R391, R452). A port holds the SEQ of a SYNC for its follow-up, at most two at
once, and a LOCKED hub forwards one from its time parent (R104, R110). A follow-up with HOPS above 6 is dropped as
MALFORMED, one of no held SYNC as FU_LOST (R116), and one whose stamp is still being converted waits; otherwise the SYNC is
held no longer, and when no cause of the Colander applies the offset sample is R less the origin, CORR and D, and is kept
(R107). Once the stamp of a forwarded SYNC is there, and not before, its follow-up leaves with CORR, D and the residence
time added and HOPS one more, with BAD for a cause that applies, and not on a hub that left LOCKED (R105, R106, R132). 12 µs
without a follow-up drop the stamp as FU_LOST (R106). With no passed calibration of the lane each is dropped as NOT_SETTLED
(R113). -/
def Obligations.SyncExchange : Prop :=
  (∀ (vote : TimeVote) (s : State),
    s.hub.ref.regs.masterStatusIsMaster = true →
    s.hub.ref.halted = false →
    handedOver s = false →
    vote ≠ .split →
    ∃ t, exec (.syncOrigin vote) s = .next t ∧
      t.hub.ref = { s.hub.ref with seq := s.hub.ref.seq + 1, lastOrigin := some (s.now .hub) } ∧
      ((t.hub.sh.fus.head?.map fun f => f.fu) = some {
        seq := s.hub.ref.seq, hops := 0, bad := false, srcValid := s.valid .hub, srcHoldover := s.hub.sh.tb.regs.statusHoldover,
        master := s.hub.id.hubAddr, originTick := (s.now .hub).setWidth 32, originFrac := s.hub.sh.tb.frac.extractLsb' 32 16,
        corr := 0 }) ∧
      (∀ l ∈ forwardLinks s, seqForwarded s l s.hub.ref.seq = true → (s.link l).active = true →
        .flit l 0 none (.sync ⟨s.hub.ref.seq⟩) 0 0 ∈ t.out) ∧
      t.tsu = s.tsu ∧
      Reported { s with
        hub := { s.hub with
          units := t.hub.units, histQueue := t.hub.histQueue, ref := t.hub.ref, sh := { s.hub.sh with fus := t.hub.sh.fus } },
        tsu := { s.tsu with sh := { s.tsu.sh with fus := t.tsu.sh.fus } } } t) ∧
  (∀ (s : State),
    s.hub.ref.regs.masterStatusIsMaster = true →
    s.hub.ref.halted = false →
    handedOver s = false →
    ∃ t, exec (.syncOrigin .split) s = .next t ∧
      t.hub.ref = { s.hub.ref with halted := true } ∧
      t.hub.sh.fus = s.hub.sh.fus ∧
      Reported { s with
        hub := { s.hub with
          units := t.hub.units, histQueue := t.hub.histQueue, ref := t.hub.ref, sh := { s.hub.sh with fus := t.hub.sh.fus } },
        tsu := { s.tsu with sh := { s.tsu.sh with fus := t.tsu.sh.fus } } } t) ∧
  (∀ (vote : TimeVote) (s : State),
    s.hub.ref.regs.masterStatusIsMaster = false ∨ s.hub.ref.halted = true ∨ handedOver s = true →
    ∃ t, exec (.syncOrigin vote) s = .next t ∧
      t = s) ∧
  (∀ (l : LinkId) (m : SyncP) (s : State),
    s.laneReady l = true →
    (s.link l).syncs.length < 2 →
    ∃ t, exec (.syncReceive l m) s = .next t ∧
      (t.link l).syncs = (s.link l).syncs ++ [m.seq] ∧
      (t.link l).regs = (s.link l).regs ∧
      Reported s t) ∧
  (∀ (l : LinkId) (m : SyncP) (s : State),
    s.laneReady l = true →
    2 ≤ (s.link l).syncs.length →
    (s.link l).syncs.head? ≠ some m.seq →
    ∃ t, exec (.syncReceive l m) s = .next t ∧
      ((t.link l).syncs = ((s.link l).syncs.filter fun q => some q != (s.link l).syncs.head?) ++ [m.seq]) ∧
      (t.link l).regs = { (s.link l).regs with ptCol0FuLost := satInc (s.link l).regs.ptCol0FuLost } ∧
      Reported s t) ∧
  (∀ (l : LinkId) (m : SyncP) (s : State),
    s.laneReady l = true →
    s.isInput l = true →
    l.part = .hub →
    s.servoState .hub = 2 →
    ∃ t, exec (.syncReceive l m) s = .next t ∧
      (∀ k ∈ forwardLinks s, seqForwarded s k m.seq = true → (s.link k).active = true → .flit k 0 none (.sync m) 0 0 ∈ t.out) ∧
      Reported s t) ∧
  (∀ (l : LinkId) (m : SyncP) (s : State),
    s.laneReady l = false →
    ∃ t, exec (.syncReceive l m) s = .next t ∧
      t.link l = { s.link l with
        rx := dropStamp (.sync m.seq) (s.link l).rx,
        regs := { (s.link l).regs with ptCol2NotSettled := satInc (s.link l).regs.ptCol2NotSettled } } ∧
      (t = modLink s l fun _ => t.link l)) ∧
  (∀ (l : LinkId) (m : SyncFuP) (s : State),
    s.laneReady l = true →
    6 < m.hops.toNat →
    ∃ t, exec (.syncFuReceive l m) s = .next t ∧
      (t.link l).regs = { (s.link l).regs with ptCol0Malformed := satInc (s.link l).regs.ptCol0Malformed } ∧
      (t.link l).syncs = (s.link l).syncs.filter (· != m.seq) ∧
      (t.link l).rx = dropStamp (.sync m.seq) (s.link l).rx ∧
      (t = modLink s l fun _ => t.link l)) ∧
  (∀ (l : LinkId) (m : SyncFuP) (s : State),
    s.laneReady l = true →
    m.hops.toNat ≤ 6 →
    (s.link l).syncs.contains m.seq = false →
    ∃ t, exec (.syncFuReceive l m) s = .next t ∧
      (t.link l).regs = { (s.link l).regs with ptCol0FuLost := satInc (s.link l).regs.ptCol0FuLost } ∧
      (t.link l).syncs = (s.link l).syncs ∧
      (t = modLink s l fun _ => t.link l)) ∧
  (∀ (l : LinkId) (m : SyncFuP) (s : State),
    s.laneReady l = true →
    m.hops.toNat ≤ 6 →
    (s.link l).syncs.contains m.seq = true →
    converting s (.linkRx l) (.sync m.seq) = true →
    ∃ t, exec (.syncFuReceive l m) s = .next t ∧
      (t = modLink s l fun k => { k with waitFu := k.waitFu ++ [m] })) ∧
  (∀ (l : LinkId) (m : SyncFuP) (x : Stamp) (o : Int) (s : State),
    s.laneReady l = true →
    m.hops.toNat ≤ 6 →
    (s.link l).syncs.contains m.seq = true →
    converting s (.linkRx l) (.sync m.seq) = false →
    findStamp (.sync m.seq) (s.link l).rx = some x →
    x.uncal = false ∧ x.missed = false →
    m.bad = false ∧ m.srcValid = true →
    (s.link l).regs.ptDelaySettled = true →
    fuOrigin s l.part m = some o →
    (s.link l).regs.ptGatesOffsetGate = 0 →
    ∃ t, exec (.syncFuReceive l m) s = .next t ∧
      (t.link l).syncs = (s.link l).syncs.filter (· != m.seq) ∧
      (t.link l).latest = some (x.t - (s.latency l).2 - (o + m.corr.toInt + (s.link l).regs.ptDelay.toInt), s.now l.part) ∧
      (t.link l).regs.ptOffset = BitVec.ofInt 48 (x.t - (s.latency l).2 - (o + m.corr.toInt + (s.link l).regs.ptDelay.toInt)) ∧
      (t.link l).offRun = 0 ∧
      Reported { s with
        hub := { s.hub with
          mod_ := t.hub.mod_, ref := t.hub.ref,
          sh := { s.hub.sh with tb := t.hub.sh.tb, servo := t.hub.sh.servo, fus := t.hub.sh.fus } },
        tsu := { s.tsu with
          trigs := t.tsu.trigs, sh := { s.tsu.sh with tb := t.tsu.sh.tb, servo := t.tsu.sh.servo, fus := t.tsu.sh.fus } } } t) ∧
  (∀ (l : LinkId) (m : SyncFuP) (s : State),
    s.laneReady l = false →
    ∃ t, exec (.syncFuReceive l m) s = .next t ∧
      (t.link l).regs = { (s.link l).regs with ptCol2NotSettled := satInc (s.link l).regs.ptCol2NotSettled } ∧
      (t = modLink s l fun _ => t.link l)) ∧
  (∀ (l : LinkId) (seq : BitVec 16) (vote : TimeVote) (f : FwdFu) (w : FwdSync) (x : Stamp) (s : State),
    l.part = .hub →
    (s.hub.sh.fus.find? (fun f => f.fu.seq == seq) = some f) →
    (s.link l).fwd.find? (fun w => w.seq == seq) = some w →
    findStamp (.sync seq) (s.link l).tx = some x →
    s.hub.ref.regs.masterStatusIsMaster = true ∧ vote = .agree ∨ s.hub.ref.regs.masterStatusIsMaster = false ∧
      s.servoState .hub = 2 →
    f.r.uncal = false ∧ f.r.missed = false ∧ x.uncal = false ∧ x.missed = false →
    x.stepGen = f.r.stepGen ∧ x.moveGen = w.gen ∧ (f.via = none ∨ x.inGen = f.r.moveGen) →
    (s.link l).regs.ptGatesResMax = 0 ∧ f.badIn = false →
    ∃ t, exec (.syncFuForward l seq vote) s = .next t ∧
      ((t.link l).fwd = (s.link l).fwd.filter fun w => w.seq != seq) ∧
      (t.link l).tx = dropStamp (.sync seq) (s.link l).tx ∧
      t.out = s.out ++ [flitAt s l 0 none (.syncFu { f.fu with
        hops := if f.fu.master = s.hub.id.hubAddr then 0 else f.fu.hops + 1,
        corr := BitVec.ofInt 48 (f.fu.corr.toInt + f.dIn + (x.t + (s.latency l).1 - f.r.t)) })] ∧
      Reported s t) ∧
  (∀ (l : LinkId) (seq : BitVec 16) (vote : TimeVote) (f : FwdFu) (w : FwdSync) (x : Stamp) (s : State),
    l.part = .hub →
    (s.hub.sh.fus.find? (fun f => f.fu.seq == seq) = some f) →
    (s.link l).fwd.find? (fun w => w.seq == seq) = some w →
    findStamp (.sync seq) (s.link l).tx = some x →
    s.hub.ref.regs.masterStatusIsMaster = true →
    f.r.uncal = false ∧ f.r.missed = false ∧ x.uncal = false ∧ x.missed = false →
    x.stepGen ≠ f.r.stepGen →
    ∃ t, exec (.syncFuForward l seq vote) s = .next t ∧
      ((t.link l).fwd = (s.link l).fwd.filter fun w => w.seq != seq) ∧
      (t.link l).regs.ptCol1Stepped = satInc (s.link l).regs.ptCol1Stepped ∧
      Sent s t l (.syncFu { f.fu with
        hops := if f.fu.master = s.hub.id.hubAddr then 0 else f.fu.hops + 1, bad := true,
        corr := BitVec.ofInt 48 (f.fu.corr.toInt + f.dIn + (x.t + (s.latency l).1 - f.r.t)) }) ∧
      t.tsu = s.tsu ∧
      Reported { s with hub := { s.hub with units := t.hub.units, histQueue := t.hub.histQueue, ref := t.hub.ref } } t) ∧
  (∀ (l : LinkId) (seq : BitVec 16) (vote : TimeVote) (s : State),
    findStamp (.sync seq) (s.link l).tx = none →
    ∃ t, exec (.syncFuForward l seq vote) s = .next t ∧
      t = s) ∧
  (∀ (l : LinkId) (seq : BitVec 16) (vote : TimeVote) (s : State),
    s.hub.ref.regs.masterStatusIsMaster = false ∧ s.servoState .hub ≠ 2 →
    ∃ t, exec (.syncFuForward l seq vote) s = .next t ∧
      t.out = s.out ∧
      (t = s ∨ t = modLink s l fun _ => t.link l)) ∧
  (∀ (l : LinkId) (seq : BitVec 16) (s : State),
    (s.link l).syncs.contains seq = true →
    (s.link l).waitFu.any (fun m => m.seq == seq) = false →
    ∃ t, exec (.fuTimeout l seq) s = .next t ∧
      (t.link l).syncs = (s.link l).syncs.filter (· != seq) ∧
      (t.link l).rx = dropStamp (.sync seq) (s.link l).rx ∧
      (t.link l).regs = { (s.link l).regs with ptCol0FuLost := satInc (s.link l).regs.ptCol0FuLost } ∧
      (t = modLink s l fun _ => t.link l)) ∧
  (∀ (l : LinkId) (seq : BitVec 16) (s : State),
    (s.link l).syncs.contains seq = false ∨ (s.link l).waitFu.any (fun m => m.seq == seq) = true →
    ∃ t, exec (.fuTimeout l seq) s = .next t ∧
      t = s)

/-- The periodic timer takes the next lane of a port: one that carries traffic waits and its move to the spare begins,
another begins its calibration at once (R111, R462); CAL_NOW does so for every lane (R111). A lane whose 1,024 markers give
means and deviations within their limits takes the means and passes; another fails and keeps its earlier values (R91, R112,
R113). PT_PROBE sends one PROBE with the written TSID, in slot 0 of logical lane 0 (R118, R452). A PROBE with ECHO is
answered with its corrected receive stamp once it is converted; an echo's stamp enters the queue as KIND 1, and a read of
PT_TSQ_HEAD takes the head entry and latches its tick (R118, R119). -/
def Obligations.LaneCalibrationAndProbes : Prop :=
  (∀ (p : Part) (port : BitVec 7) (lane : BitVec 3) (i : Nat) (s : State),
    ((lanesOf p).filter fun x => (s.link (calSub s p port x)).regs.ptCtrlCalPeriodS != 0).find? (fun x => decide ((s.page p
      port).nextCal.toNat ≤ x.toNat)) = some lane →
    (s.page p port).remap = none ∧ (s.page p port).spare ≠ noLane →
    (∀ x ∈ lanesOf p, (s.laneCal p port x).want = false ∧ (s.laneCal p port x).busy = false) →
    inTraffic s p port lane = true →
    (s.laneCal p port (s.page p port).spare).busy = false →
    logicalOf s p port lane = some i →
    ∃ t, exec (.laneCalPeriod p port) s = .next t ∧
      (t.page p port).remap = some {
        id := (s.page p port).remapId, llane := BitVec.ofNat 2 i, victim := lane, initiator := true, cal := true } ∧
      (t.page p port).nextCal = lane + 1 ∧
      t.laneCal p port lane = { s.laneCal p port lane with want := true } ∧
      t.hub.jobs = s.hub.jobs ∧
      Reported { s with
        hub := { s.hub with
          mod_ := t.hub.mod_, flt := t.hub.flt, admitQ := t.hub.admitQ,
          sh := { s.hub.sh with ifaces := t.hub.sh.ifaces, servo := t.hub.sh.servo, pages := t.hub.sh.pages } },
        tsu := { s.tsu with
          sh := { s.tsu.sh with ifaces := t.tsu.sh.ifaces, servo := t.tsu.sh.servo, pages := t.tsu.sh.pages } } } t) ∧
  (∀ (p : Part) (port : BitVec 7) (lane : BitVec 3) (s : State),
    ((lanesOf p).filter fun x => (s.link (calSub s p port x)).regs.ptCtrlCalPeriodS != 0).find? (fun x => decide ((s.page p
      port).nextCal.toNat ≤ x.toNat)) = some lane →
    (∀ x ∈ lanesOf p, (s.laneCal p port x).want = false ∧ (s.laneCal p port x).busy = false) →
    inTraffic s p port lane = false →
    ∃ t, exec (.laneCalPeriod p port) s = .next t ∧
      t.laneCal p port lane = startCal (s.laneCal p port lane) ∧
      (t.page p port).nextCal = lane + 1 ∧
      (t = modPage s p port fun _ => t.page p port)) ∧
  (∀ (p : Part) (port : BitVec 7) (s : State),
    (∀ x ∈ lanesOf p, (s.link (calSub s p port x)).regs.ptCtrlCalPeriodS = 0) →
    ∃ t, exec (.laneCalPeriod p port) s = .next t ∧
      t = s) ∧
  (∀ (i : Iface) (port : BitVec 7) (data : Word) (s : State),
    Answers s i →
    ((Page.link port).ordinal i.part).isSome = true →
    getB data 15 = true →
    (getF data 8 4 : BitVec 4).toNat ≤ 8 →
    8 ≤ (getF data 4 4 : BitVec 4).toNat →
    ∃ t, exec (.ptCalNow i port data) s = .next t ∧
      (∀ x ∈ lanesOf i.part, if inTraffic s i.part port x = true then (s.laneCal i.part port x).busy = false →
        (t.laneCal i.part port x).want = true else (t.laneCal i.part port x).busy = true) ∧
      .writeAck i false ∈ t.out ∧
      Reported { s with
        hub := { s.hub with
          mod_ := t.hub.mod_, flt := t.hub.flt, admitQ := t.hub.admitQ,
          sh := { s.hub.sh with ifaces := t.hub.sh.ifaces, servo := t.hub.sh.servo, pages := t.hub.sh.pages } },
        tsu := { s.tsu with
          sh := { s.tsu.sh with ifaces := t.tsu.sh.ifaces, servo := t.tsu.sh.servo, pages := t.tsu.sh.pages } } } t) ∧
  (∀ (p : Part) (port : BitVec 7) (lane : BitVec 3) (txCal rxCal : Int) (txDev rxDev : Nat) (s : State),
    (s.laneCal p port lane).busy = true →
    1024 ≤ (s.laneCal p port lane).tx.n →
    (s.laneCal p port lane).tx.figures = (txCal, txDev) →
    (s.laneCal p port lane).rx.figures = (rxCal, rxDev) →
    (txCal - (nominalCal s p port).1).natAbs ≤ 131072 →
    (rxCal - (nominalCal s p port).2).natAbs ≤ 131072 →
    txDev * 1000 ≤ 524288 →
    rxDev * 1000 ≤ 524288 →
    ∃ t, exec (.laneCalDone p port lane txCal rxCal txDev rxDev) s = .next t ∧
      t.laneCal p port lane = { s.laneCal p port lane with
        busy := false, passed := true, have_ := true, word := [], txCal := txCal, rxCal := rxCal } ∧
      (p = .hub → (s.unit (laneUnit port lane)).unitState = 2 → (t.unit (laneUnit port lane)).unitState = 3) ∧
      Reported { s with
        hub := { s.hub with
          units := t.hub.units, mod_ := t.hub.mod_, flt := t.hub.flt, admitQ := t.hub.admitQ,
          sh := { s.hub.sh with ifaces := t.hub.sh.ifaces, servo := t.hub.sh.servo, pages := t.hub.sh.pages } },
        tsu := { s.tsu with
          sh := { s.tsu.sh with ifaces := t.tsu.sh.ifaces, servo := t.tsu.sh.servo, pages := t.tsu.sh.pages } } } t) ∧
  (∀ (p : Part) (port : BitVec 7) (lane : BitVec 3) (txCal rxCal : Int) (txDev rxDev : Nat) (s : State),
    (s.laneCal p port lane).busy = true →
    1024 ≤ (s.laneCal p port lane).tx.n →
    (s.laneCal p port lane).tx.figures = (txCal, txDev) →
    (s.laneCal p port lane).rx.figures = (rxCal, rxDev) →
    131072 < (txCal - (nominalCal s p port).1).natAbs ∨ 131072 < (rxCal - (nominalCal s p port).2).natAbs ∨
      524288 < txDev * 1000 ∨ 524288 < rxDev * 1000 →
    ∃ t, exec (.laneCalDone p port lane txCal rxCal txDev rxDev) s = .next t ∧
      t.laneCal p port lane = { s.laneCal p port lane with busy := false, passed := false, word := [] } ∧
      Reported { s with
        hub := { s.hub with
          mod_ := t.hub.mod_, flt := t.hub.flt, admitQ := t.hub.admitQ,
          sh := { s.hub.sh with ifaces := t.hub.sh.ifaces, servo := t.hub.sh.servo, pages := t.hub.sh.pages } },
        tsu := { s.tsu with
          sh := { s.tsu.sh with ifaces := t.tsu.sh.ifaces, servo := t.tsu.sh.servo, pages := t.tsu.sh.pages } } } t) ∧
  (∀ (p : Part) (port : BitVec 7) (lane : BitVec 3) (txCal rxCal : Int) (txDev rxDev : Nat) (s : State),
    (s.laneCal p port lane).busy = false ∨ (s.laneCal p port lane).tx.n < 1024 ∨
      (s.laneCal p port lane).tx.figures ≠ (txCal, txDev) ∨ (s.laneCal p port lane).rx.figures ≠ (rxCal, rxDev) →
    ∃ t, exec (.laneCalDone p port lane txCal rxCal txDev rxDev) s = .next t ∧
      t = s) ∧
  (∀ (i : Iface) (port : BitVec 7) (data : Word) (s : State),
    Answers s i →
    ((Page.link port).ordinal i.part).isSome = true →
    (s.link (s.ptLink i port)).active = true →
    (s.link (s.ptLink i port)).regs.lkStateVersion ≠ 3 →
    ∃ t, exec (.ptProbeWrite i port data) s = .next t ∧
      t.out = s.out ++ [.flit (s.ptLink i port) 0 none (.probe { tsid := getF data 0 8, echo := getB data 8 }) 0 0,
        .writeAck i false] ∧
      Reported s t) ∧
  (∀ (l : LinkId) (m : ProbeP) (x : Stamp) (s : State),
    s.laneReady l = true →
    converting s (.linkRx l) (.probe m.tsid m.echo) = false →
    findStamp (.probe m.tsid m.echo) (s.link l).rx = some x →
    m.echo = true ∧ x.missed = false →
    (s.link l).active = true →
    ∃ t, exec (.probeReceive l m) s = .next t ∧
      (t.link l).rx = dropStamp (.probe m.tsid m.echo) (s.link l).rx ∧
      t.out = s.out ++ [flitAt s l 0 none (.probeEcho {
        tsid := m.tsid, rxTick := BitVec.ofInt 32 ((x.t - (s.latency l).2) / 65536),
        rxFrac := BitVec.ofInt 16 (x.t - (s.latency l).2) })] ∧
      Reported s t) ∧
  (∀ (l : LinkId) (m : ProbeP) (s : State),
    s.laneReady l = true →
    converting s (.linkRx l) (.probe m.tsid m.echo) = true →
    ∃ t, exec (.probeReceive l m) s = .next t ∧
      (t = modLink s l fun k => { k with waitProbe := k.waitProbe ++ [m] })) ∧
  (∀ (l : LinkId) (m : ProbeEchoP) (x : Tick) (s : State),
    s.laneReady l = true →
    extendWire m.rxTick (s.now l.part) = some x →
    (s.page l.part l.port).tsq.length < 16 →
    (s.page l.part l.port).tsqWait = [] →
    ∃ t, exec (.probeEchoReceive l m) s = .next t ∧
      t.page l.part l.port = { s.page l.part l.port with
        tsq := (s.page l.part l.port).tsq ++ [{ kind := true, sub := l.sub, tsid := m.tsid, tick := x, frac := m.rxFrac }] } ∧
      Reported { s with
        hub := { s.hub with sh := { s.hub.sh with tb := t.hub.sh.tb, pages := t.hub.sh.pages } },
        tsu := { s.tsu with sh := { s.tsu.sh with tb := t.tsu.sh.tb, pages := t.tsu.sh.pages } } } t) ∧
  (∀ (i : Iface) (port : BitVec 7) (e : TsqEntry) (rest : List TsqEntry) (s : State),
    Answers s i →
    (s.page i.part port).tsq = e :: rest →
    ∃ t, exec (.ptTsqHeadRead i port) s = .next t ∧
      t.out = s.out ++ [.readData i (putB 63 true ||| putB 62 e.kind ||| putF 60 e.sub ||| putF 16 e.tsid ||| putF 0 e.frac)] ∧
      (t.page i.part port).tsq = rest ∧
      (t.page i.part port).regs.ptTsqTick = e.tick ∧
      Reported { s with
        hub := { s.hub with sh := { s.hub.sh with pages := t.hub.sh.pages } },
        tsu := { s.tsu with sh := { s.tsu.sh with pages := t.tsu.sh.pages } } } t)

/-- A LOCKED part that loses its input, and has no lead plane to move to, enters HOLDOVER with the rate word the integrator
gives and VALID kept (R129); a limit passed in AUTO clears VALID and enters FREE (R130); 256 drops under OFFSET_GATE in a
row act as a return sample (R131). MODE FREEZE enters HOLDOVER, MODE MANUAL clears VALID and runs on RATE_MANUAL, AUTO after
MANUAL and REACQUIRE enter FREE (R133). -/
def Obligations.ServoModesAndLosses : Prop :=
  (∀ (s : State),
    s.servoState .hub = 2 →
    s.hub.ref.regs.masterStatusIsMaster = false →
    ∃ t, exec (.holdoverEnter .hub) s = .next t ∧
      t.servoState .hub = 3 ∧
      t.hub.sh.tb.regs.rateNow = BitVec.ofInt 40 (frozenRate s.hub.sh.servo.regs.servoInteg.toInt) ∧
      t.valid .hub = true ∧
      t.hub.sh.tb.regs.statusHoldover = true ∧
      t.now .hub = s.now .hub ∧
      t.tsu = s.tsu ∧
      Reported { s with
        hub := { s.hub with mod_ := t.hub.mod_, sh := { s.hub.sh with tb := t.hub.sh.tb, servo := t.hub.sh.servo } },
        tsu := { s.tsu with sh := { s.tsu.sh with tb := t.tsu.sh.tb, servo := t.tsu.sh.servo } } } t) ∧
  (∀ (s : State),
    s.servoState .tsu = 2 →
    s.tsu.sh.servo.regs.servoCtrlLeadForceEn = true →
    ∃ t, exec (.holdoverEnter .tsu) s = .next t ∧
      t.servoState .tsu = 3 ∧
      t.tsu.sh.tb.regs.rateNow = BitVec.ofInt 40 (frozenRate s.tsu.sh.servo.regs.servoInteg.toInt) ∧
      t.valid .tsu = true ∧
      t.tsu.sh.servo.regs.servoStatusLead = s.tsu.sh.servo.regs.servoStatusLead ∧
      t.hub = s.hub ∧
      Reported { s with
        hub := { s.hub with mod_ := t.hub.mod_, sh := { s.hub.sh with tb := t.hub.sh.tb, servo := t.hub.sh.servo } },
        tsu := { s.tsu with sh := { s.tsu.sh with tb := t.tsu.sh.tb, servo := t.tsu.sh.servo } } } t) ∧
  (∀ (p : Part) (s : State),
    s.servoState p = 3 →
    (s.sh p).servo.regs.servoCtrlMode = 0 →
    p = .tsu ∨ s.hub.ref.regs.masterStatusIsMaster = false →
    ∃ t, exec (.holdLimitExpire p) s = .next t ∧
      t.servoState p = 0 ∧
      t.valid p = false ∧
      Raised t p 0x0004 3 ∧
      Reported { s with
        hub := { s.hub with
          mod_ := t.hub.mod_, ref := t.hub.ref, sh := { s.hub.sh with tb := t.hub.sh.tb, servo := t.hub.sh.servo } },
        tsu := { s.tsu with trigs := t.tsu.trigs, sh := { s.tsu.sh with tb := t.tsu.sh.tb, servo := t.tsu.sh.servo } } } t) ∧
  (∀ (p : Part) (l : LinkId) (s : State),
    s.servoInput p = some (.link l) →
    s.servoState p = 2 →
    256 ≤ (s.link l).offRun →
    offsetGate (s.link l).regs < (s.link l).lastDropped →
    l.part = p →
    ∃ t, exec (.offsetGateRun p) s = .next t ∧
      t.servoState p = 0 ∧
      t.valid p = false ∧
      (t.link l).offRun = 0 ∧
      Raised t p 0x0004 4 ∧
      Reported { s with
        hub := { s.hub with
          mod_ := t.hub.mod_, ref := t.hub.ref, sh := { s.hub.sh with tb := t.hub.sh.tb, servo := t.hub.sh.servo } },
        tsu := { s.tsu with trigs := t.tsu.trigs, sh := { s.tsu.sh with tb := t.tsu.sh.tb, servo := t.tsu.sh.servo } } } t) ∧
  (∀ (i : Iface) (data : Word) (s : State),
    Answers s i →
    getF data 48 16 ≠ 0#16 →
    getF data 16 16 ≠ 0#16 →
    (s.sh i.part).servo.regs.servoCtrlMode = 2 →
    ∃ t, exec (.servoModeAuto i data) s = .next t ∧
      (t.sh i.part).servo.regs.servoCtrlMode = 0 ∧
      t.servoState i.part = 0 ∧
      t.valid i.part = false ∧
      t.out.getLast? = some (.writeAck i false) ∧
      Reported { s with
        hub := { s.hub with
          mod_ := t.hub.mod_, ref := t.hub.ref, sh := { s.hub.sh with tb := t.hub.sh.tb, servo := t.hub.sh.servo } },
        tsu := { s.tsu with trigs := t.tsu.trigs, sh := { s.tsu.sh with tb := t.tsu.sh.tb, servo := t.tsu.sh.servo } } } t) ∧
  (∀ (i : Iface) (data : Word) (s : State),
    Answers s i →
    getF data 48 16 ≠ 0#16 →
    getF data 16 16 ≠ 0#16 →
    getB data 7 = false →
    (s.sh i.part).servo.regs.servoCtrlMode ≠ 1 →
    ∃ t, exec (.servoModeFreeze i data) s = .next t ∧
      (t.sh i.part).servo.regs.servoCtrlMode = 1 ∧
      t.servoState i.part = 3 ∧
      (t.sh i.part).tb.regs.rateNow = BitVec.ofInt 40 (frozenRate (s.sh i.part).servo.regs.servoInteg.toInt) ∧
      t.valid i.part = true ∧
      t.out.getLast? = some (.writeAck i false) ∧
      Reported { s with
        hub := { s.hub with
          mod_ := t.hub.mod_, ref := t.hub.ref, sh := { s.hub.sh with tb := t.hub.sh.tb, servo := t.hub.sh.servo } },
        tsu := { s.tsu with trigs := t.tsu.trigs, sh := { s.tsu.sh with tb := t.tsu.sh.tb, servo := t.tsu.sh.servo } } } t) ∧
  (∀ (i : Iface) (data : Word) (s : State),
    Answers s i →
    getF data 48 16 ≠ 0#16 →
    getF data 16 16 ≠ 0#16 →
    getB data 7 = false →
    (s.sh i.part).servo.regs.servoCtrlMode ≠ 2 →
    ∃ t, exec (.servoModeManual i data) s = .next t ∧
      (t.sh i.part).servo.regs.servoCtrlMode = 2 ∧
      t.servoState i.part = 4 ∧
      (t.sh i.part).tb.regs.rateNow = (s.sh i.part).servo.regs.rateManual ∧
      t.valid i.part = false ∧
      t.out.getLast? = some (.writeAck i false) ∧
      Reported { s with
        hub := { s.hub with
          mod_ := t.hub.mod_, ref := t.hub.ref, sh := { s.hub.sh with tb := t.hub.sh.tb, servo := t.hub.sh.servo } },
        tsu := { s.tsu with trigs := t.tsu.trigs, sh := { s.tsu.sh with tb := t.tsu.sh.tb, servo := t.tsu.sh.servo } } } t) ∧
  (∀ (i : Iface) (data : Word) (s : State),
    Answers s i →
    getF data 48 16 ≠ 0#16 →
    getF data 16 16 ≠ 0#16 →
    getF data 0 2 = (s.sh i.part).servo.regs.servoCtrlMode →
    ∃ t, exec (.reacquire i data) s = .next t ∧
      t.servoState i.part = 0 ∧
      t.valid i.part = false ∧
      t.out.getLast? = some (.writeAck i false) ∧
      Reported { s with
        hub := { s.hub with
          mod_ := t.hub.mod_, ref := t.hub.ref, sh := { s.hub.sh with tb := t.hub.sh.tb, servo := t.hub.sh.servo } },
        tsu := { s.tsu with trigs := t.tsu.trigs, sh := { s.tsu.sh with tb := t.tsu.sh.tb, servo := t.tsu.sh.servo } } } t)

/-- The master's ANNOUNCE carries its address, class, PRIO and GEN, which SERVO_MASTER shows (R109, R151); a candidate of
CLASS by its own reference announces itself (R138), and a hall hub keeps a candidate's key (R138). A hall hub alone with the
best key becomes master of generation 1 above the latest heard (R140); HANDOVER and a better candidate name the next master
(R141), and at the tick the old master follows it and counts a handover. After a loss a hub of PRIO below 0xFF takes over
with GEN + 1 and raises EV_TIME_FAULT (R142). -/
def Obligations.TimeMaster : Prop :=
  (∀ (s : State),
    s.hub.ref.regs.masterStatusIsMaster = true →
    s.hub.ref.halted = false →
    ∃ t, exec .announceSend s = .next t ∧
      t.hub.sh.servo.regs.servoMaster = s.hub.id.hubAddr ∧
      t.hub.sh.servo.regs.servoMasterGen = s.hub.ref.regs.masterStatusGen ∧
      t.hub.sh.servo.regs.servoMasterPrio = s.hub.ref.regs.masterCfgPrio ∧
      t.hub.sh.servo.regs.servoMasterClass = s.hub.ref.regs.masterStatusClass ∧
      t.hub.ref = s.hub.ref ∧
      t.tsu = s.tsu ∧
      Reported { s with
        hub := { s.hub with sh := { s.hub.sh with servo := t.hub.sh.servo } },
        tsu := { s.tsu with sh := { s.tsu.sh with servo := t.tsu.sh.servo } }, free := t.free } t) ∧
  (∀ (refOk : Bool) (s : State),
    s.tier = 2 →
    s.hub.ref.regs.masterStatusIsMaster = false →
    ∃ t, exec (.candidateAnnounceSend refOk) s = .next t ∧
      t.hub.ref = { s.hub.ref with
        regs := { s.hub.ref.regs with masterStatusClass := if refOk && s.hub.ref.regs.refCtrlRefSel != 0 then 0 else 2 } } ∧
      t.hub.sh.servo = s.hub.sh.servo ∧
      t.tsu = s.tsu ∧
      Reported { s with hub := { s.hub with ref := t.hub.ref }, free := t.free } t) ∧
  (∀ (l : LinkId) (m : AnnounceP) (s : State),
    s.laneReady l = true →
    l.part = .hub →
    s.tier = 2 →
    m.kind = true →
    m.cls ≠ 3 →
    ∃ t, exec (.announceReceive l m) s = .next t ∧
      (t = modHub s fun h => { h with ref := { h.ref with heard := t.hub.ref.heard } }) ∧
      tget none t.hub.ref.heard (hallIndex m.master).toNat = some {
        cls := m.cls, prio := m.prio, gen := m.gen, at_ := s.now .hub }) ∧
  (∀ (l : LinkId) (m : AnnounceP) (s : State),
    s.laneReady l = false →
    m.cls ≠ 3 →
    ∃ t, exec (.announceReceive l m) s = .next t ∧
      (t = modLinkRegs s l fun r => { r with ptCol2NotSettled := satInc r.ptCol2NotSettled })) ∧
  (∀ (l : LinkId) (m : AnnounceP) (s : State),
    s.laneReady l = true →
    l.part = .tsu →
    m.kind = false →
    m.cls ≠ 3 →
    s.tsu.sh.ann = none →
    ∃ t, exec (.announceReceive l m) s = .next t ∧
      t.tsu.sh.ann = some m ∧
      t.tsu.sh.servo.regs.servoMaster = m.master ∧
      t.tsu.sh.servo.regs.servoMasterGen = m.gen ∧
      t.tsu.sh.servo.regs.servoUtcUtcOffset = m.utcOffset ∧
      t.hub = s.hub ∧
      Reported { s with
        hub := { s.hub with
          mod_ := t.hub.mod_, ref := t.hub.ref,
          sh := { s.hub.sh with tb := t.hub.sh.tb, servo := t.hub.sh.servo, ann := t.hub.sh.ann } },
        tsu := { s.tsu with
          trigs := t.tsu.trigs, sh := { s.tsu.sh with tb := t.tsu.sh.tb, servo := t.tsu.sh.servo, ann := t.tsu.sh.ann } } } t) ∧
  (∀ (s : State),
    s.tier = 2 →
    s.hub.sh.tb.regs.statusIslandLock = true →
    s.hub.sh.ann = none →
    s.hub.ref.regs.masterCfgPrio ≠ 0xFF →
    s.candidates = [] →
    s.hub.ref.regs.masterStatusIsMaster = false →
    ∃ t, exec .masterElect s = .next t ∧
      t.hub.ref.regs.masterStatusIsMaster = true ∧
      t.hub.ref.regs.masterStatusGen = 1 ∧
      t.servoState .hub = 2 ∧
      t.valid .hub = true ∧
      t.tsu = s.tsu ∧
      Reported { s with
        hub := { s.hub with
          mod_ := t.hub.mod_, ref := t.hub.ref, sh := { s.hub.sh with tb := t.hub.sh.tb, servo := t.hub.sh.servo } },
        tsu := { s.tsu with sh := { s.tsu.sh with tb := t.tsu.sh.tb, servo := t.tsu.sh.servo } }, free := t.free } t) ∧
  (∀ (i : Iface) (data : Word) (s : State),
    Answers s i →
    i.part = .hub →
    s.hub.ref.regs.masterStatusIsMaster = true →
    handoverOk s (getF data 0 2) = true →
    ∃ t, exec (.masterHandover i data) s = .next t ∧
      t.hub.ref.nextMaster = hallAddr (getF data 0 2) ∧
      64000000#64 ≤ t.hub.ref.handoverAt - s.now .hub ∧
      t.hub.ref.regs.masterCfgPrio = getF data 8 8 ∧
      t.out.getLast? = some (.writeAck i false) ∧
      Reported { s with
        hub := { s.hub with ref := t.hub.ref, sh := { s.hub.sh with servo := t.hub.sh.servo } },
        tsu := { s.tsu with sh := { s.tsu.sh with servo := t.tsu.sh.servo } }, free := t.free } t) ∧
  (∀ (c : BitVec 2 × Heard) (s : State),
    bestCandidate s.candidates = some c →
    s.hub.ref.regs.masterStatusIsMaster = true →
    s.hub.ref.nextMaster = 0xFFFF →
    c.2.cls.toNat < s.hub.ref.regs.masterStatusClass.toNat →
    ∃ t, exec .handoverAuto s = .next t ∧
      t.hub.ref.nextMaster = hallAddr c.1 ∧
      t.hub.ref.regs = s.hub.ref.regs ∧
      t.tsu = s.tsu ∧
      Reported { s with
        hub := { s.hub with ref := t.hub.ref, sh := { s.hub.sh with servo := t.hub.sh.servo } },
        tsu := { s.tsu with sh := { s.tsu.sh with servo := t.tsu.sh.servo } }, free := t.free } t) ∧
  (∀ (s : State),
    s.hub.ref.regs.masterStatusIsMaster = true →
    s.hub.ref.nextMaster ≠ 0xFFFF →
    s.hub.ref.handoverAt.toNat ≤ (s.now .hub).toNat →
    ∃ t, exec .handoverTickReached s = .next t ∧
      t.hub.ref.regs.masterStatusIsMaster = false ∧
      t.hub.ref.regs.masterStatusGen = s.hub.ref.regs.masterStatusGen + 1 ∧
      t.hub.ref.regs.masterStatusHandovers = satInc s.hub.ref.regs.masterStatusHandovers ∧
      t.hub.sh.servo.regs.servoMaster = s.hub.ref.nextMaster ∧
      t.hub.sh.tb = s.hub.sh.tb ∧
      t.tsu = s.tsu ∧
      Reported { s with
        hub := { s.hub with ref := t.hub.ref, sh := { s.hub.sh with servo := t.hub.sh.servo } },
        tsu := { s.tsu with sh := { s.tsu.sh with servo := t.tsu.sh.servo } }, free := t.free } t) ∧
  (∀ (s : State),
    s.tier = 2 →
    s.hub.ref.regs.masterStatusIsMaster = false →
    s.hub.sh.servo.regs.servoMaster ≠ 0xFFFF →
    ∃ t, exec .masterLossDetect s = .next t ∧
      (t = modHub s fun h => { h with ref := { h.ref with lossDetected := true } })) ∧
  (∀ (s : State),
    s.hub.ref.lossDetected = true →
    s.hub.ref.regs.masterStatusIsMaster = false →
    s.hub.ref.regs.masterCfgPrio ≠ 0xFF →
    ∃ t, exec .masterTakeover s = .next t ∧
      t.hub.ref.regs.masterStatusIsMaster = true ∧
      t.hub.ref.regs.masterStatusGen = s.hub.ref.regs.masterStatusGen + 1 ∧
      t.servoState .hub = 2 ∧
      t.valid .hub = true ∧
      Raised t .hub 0x0004 7 ∧
      Reported { s with
        hub := { s.hub with
          mod_ := t.hub.mod_, ref := t.hub.ref, sh := { s.hub.sh with tb := t.hub.sh.tb, servo := t.hub.sh.servo } },
        tsu := { s.tsu with sh := { s.tsu.sh with tb := t.tsu.sh.tb, servo := t.tsu.sh.servo } }, free := t.free } t)

/-- With REF_SEL PPS an edge within REF_STEP_NS is the master's sample and clears MISALIGNED, and one beyond it sets
MISALIGNED and CLASS 2 and raises EV_TIME_FAULT (R146, R148); a 10 MHz phase without a 1PPS edge is only held (R146).
REF_TOD names a second and sets PENDING (R147). REF_ALIGN steps the master by its sample, a step back clears VALID until the
timer (R148). A silent reference makes the master CLASS 1, counted, with EV_REF_LOSS; REF_HOLD_S later CLASS 2 (R149). An
output edge changes its pin alone (R150). -/
def Obligations.BuildingReference : Prop :=
  (∀ (x : BitVec 80) (vote : TimeVote) (s : State),
    s.tier = 2 →
    s.hub.sh.servo.regs.servoCtrlMode = 0 →
    s.servoState .hub = 2 →
    s.hub.ref.regs.refCtrlRefSel = 2 →
    s.hub.ref.regs.masterStatusIsMaster = true →
    s.hub.ref.regs.refTodPending = false →
    ((x.toNat : Int) - s.hub.ref.regs.refInDelayPpsDelay.toInt - nearestSecond (x.toNat -
      s.hub.ref.regs.refInDelayPpsDelay.toInt)).natAbs ≤ s.hub.ref.regs.refCtrlRefStepNs.toNat * 65536 →
    ∃ t, exec (.ppsEdge x false vote) s = .next t ∧
      t.hub.ref.last = some ((x.toNat : Int) - s.hub.ref.regs.refInDelayPpsDelay.toInt - nearestSecond (x.toNat -
        s.hub.ref.regs.refInDelayPpsDelay.toInt)) ∧
      t.hub.ref.regs.refStatusRefOk = true ∧
      t.hub.ref.regs.refStatusMisaligned = false ∧
      t.hub.ref.regs.masterStatusClass = 0 ∧
      t.tsu = s.tsu ∧
      Reported { s with
        hub := { s.hub with
          mod_ := t.hub.mod_, units := t.hub.units, histQueue := t.hub.histQueue, ref := t.hub.ref,
          sh := { s.hub.sh with tb := t.hub.sh.tb, servo := t.hub.sh.servo } },
        tsu := { s.tsu with sh := { s.tsu.sh with tb := t.tsu.sh.tb, servo := t.tsu.sh.servo } } } t) ∧
  (∀ (x : BitVec 80) (uncal : Bool) (vote : TimeVote) (s : State),
    uncal = true ∨ s.tier ≠ 2 →
    ∃ t, exec (.ppsEdge x uncal vote) s = .next t ∧
      t = s) ∧
  (∀ (x : BitVec 80) (vote : TimeVote) (s : State),
    s.tier = 2 →
    s.hub.ref.regs.refCtrlRefSel = 2 →
    s.hub.ref.regs.masterStatusIsMaster = true →
    s.hub.ref.regs.refTodPending = false →
    s.hub.ref.regs.refCtrlRefStepNs.toNat * 65536 < ((x.toNat : Int) - s.hub.ref.regs.refInDelayPpsDelay.toInt - nearestSecond
      (x.toNat - s.hub.ref.regs.refInDelayPpsDelay.toInt)).natAbs →
    ∃ t, exec (.ppsEdge x false vote) s = .next t ∧
      t.hub.ref.regs.refStatusMisaligned = true ∧
      t.hub.ref.regs.masterStatusClass = 2 ∧
      t.hub.sh.servo = s.hub.sh.servo ∧
      t.hub.sh.tb = s.hub.sh.tb ∧
      Raised t .hub 0x0004 9 ∧
      Reported { s with
        hub := { s.hub with
          mod_ := t.hub.mod_, units := t.hub.units, histQueue := t.hub.histQueue, ref := t.hub.ref,
          sh := { s.hub.sh with tb := t.hub.sh.tb, servo := t.hub.sh.servo } },
        tsu := { s.tsu with sh := { s.tsu.sh with tb := t.tsu.sh.tb, servo := t.tsu.sh.servo } } } t) ∧
  (∀ (phase : BitVec 32) (vote : TimeVote) (s : State),
    s.tier = 2 →
    s.hub.ref.regs.refCtrlRefSel = 1 →
    s.hub.ref.pps = none →
    ∃ t, exec (.f10mSample phase vote) s = .next t ∧
      (t = modHub s fun h => { h with
        ref := { h.ref with phi := some (phase.toInt - s.hub.ref.regs.refInDelayF10mDelay.toInt) } })) ∧
  (∀ (i : Iface) (data : Word) (s : State),
    Answers s i →
    i.part = .hub →
    ∃ t, exec (.refTodWrite i data) s = .next t ∧
      (t = emit (modHub s fun h => { h with
        ref := { h.ref with
          regs := { h.ref.regs with refTodPending := true, refTodSec := getF data 0 48 } } }) (.writeAck i false))) ∧
  (∀ (i : Iface) (data : Word) (th : Int) (s : State),
    Answers s i →
    i.part = .hub →
    getB data 2 = false →
    (s.hub.ref.regs.write 0x050 data).refCtrlRefSel = s.hub.ref.regs.refCtrlRefSel →
    s.hub.ref.regs.masterStatusIsMaster = true →
    s.hub.ref.last = some th →
    th < 0 →
    ∃ t, exec (.refAlign i data) s = .next t ∧
      tbTime t.hub.sh.tb = tbTime s.hub.sh.tb + BitVec.ofInt 112 (-th * 2 ^ 32) ∧
      t.valid .hub = s.valid .hub ∧
      t.hub.ref.last = none ∧
      t.tsu = s.tsu ∧
      Reported { s with
        hub := { s.hub with mod_ := t.hub.mod_, ref := t.hub.ref, sh := { s.hub.sh with tb := t.hub.sh.tb } },
        tsu := { s.tsu with trigs := t.tsu.trigs, sh := { s.tsu.sh with tb := t.tsu.sh.tb } } } t) ∧
  (∀ (i : Iface) (data : Word) (th : Int) (s : State),
    Answers s i →
    i.part = .hub →
    getB data 2 = false →
    (s.hub.ref.regs.write 0x050 data).refCtrlRefSel = s.hub.ref.regs.refCtrlRefSel →
    s.hub.ref.regs.masterStatusIsMaster = true →
    s.hub.ref.last = some th →
    0 < th →
    ∃ t, exec (.refAlign i data) s = .next t ∧
      tbTime t.hub.sh.tb = tbTime s.hub.sh.tb + BitVec.ofInt 112 (-th * 2 ^ 32) ∧
      t.valid .hub = false ∧
      t.hub.sh.tb.revalid = true ∧
      t.tsu = s.tsu ∧
      Reported { s with
        hub := { s.hub with mod_ := t.hub.mod_, ref := t.hub.ref, sh := { s.hub.sh with tb := t.hub.sh.tb } },
        tsu := { s.tsu with trigs := t.tsu.trigs, sh := { s.tsu.sh with tb := t.tsu.sh.tb } } } t) ∧
  (∀ (s : State),
    s.hub.ref.regs.refStatusRefOk = true →
    s.hub.ref.regs.masterStatusIsMaster = true →
    ∃ t, exec .refLoss s = .next t ∧
      t.hub.ref.regs.refStatusRefOk = false ∧
      t.hub.ref.regs.masterStatusClass = 1 ∧
      t.hub.ref.regs.refStatusLosses = satInc s.hub.ref.regs.refStatusLosses ∧
      t.hub.ref.last = none ∧
      t.valid .hub = s.valid .hub ∧
      Raised t .hub 0x0005 5 ∧
      t.tsu = s.tsu ∧
      Reported { s with
        hub := { s.hub with
          ref := t.hub.ref, ptp := t.hub.ptp, sh := { s.hub.sh with tb := t.hub.sh.tb, servo := t.hub.sh.servo } },
        tsu := { s.tsu with sh := { s.tsu.sh with tb := t.tsu.sh.tb, servo := t.tsu.sh.servo } } } t) ∧
  (∀ (s : State),
    s.hub.ref.regs.masterStatusIsMaster = true →
    s.hub.ref.regs.masterStatusClass = 1 →
    ∃ t, exec .refHoldExpire s = .next t ∧
      (t = modHub s fun h => { h with ref := { h.ref with regs := { h.ref.regs with masterStatusClass := 2 } } })) ∧
  (∀ (pps rising : Bool) (s : State),
    s.hub.ref.regs.outCtrlEn = true →
    s.valid .hub = true →
    ∃ t, exec (.referenceOutputEdge pps rising) s = .next t ∧
      t.hub.ref = (if pps then { s.hub.ref with outPps := rising } else { s.hub.ref with outF10 := rising }) ∧
      t.out = s.out ++ [.refEdge pps rising (BitVec.ofInt 64 (outEdgeAt s pps rising / 65536)) (BitVec.ofInt 48 (outEdgeAt s
        pps rising * 2 ^ 32))] ∧
      t.tsu = s.tsu ∧
      Reported { s with hub := { s.hub with ref := t.hub.ref }, free := t.free } t)

/-- A frame outside the subset, or with a timestamp that cannot be converted, is dropped and counted and nothing else
changes (R51, R69, R152). An Announce within it enters the foreign masters, of which at most four are tracked, best first
(R152). A two-step Sync of the selected master keeps t2 and its correction; its Follow_Up gives t1 (R153). A Delay_Req
leaves under the port's clockIdentity and port 1 with the next sequence number and its t3; the Delay_Resp to it that matches
it gives t4, and the first sample of meanPathDelay is half the round trip (R152, R153). Foreign masters whose Announce is
too old have left before a command is taken. -/
def Obligations.PtpPort : Prop :=
  (∀ (h : PtpHead) (rank : PtpRank) (utcOffset : BitVec 16) (utcValid leap61 leap59 : Bool) (s : State),
    ptpExpire s = s →
    s.hub.ref.regs.ptpCtrlEn = true →
    ptpOk s 0xB h = false →
    ∃ t, exec (.ptpAnnounceReceive h rank utcOffset utcValid leap61 leap59) s = .next t ∧
      (t = modHub s fun x => { x with
        ref := { x.ref with regs := { x.ref.regs with ptpStatusDropped := satInc x.ref.regs.ptpStatusDropped } } })) ∧
  (∀ (h : PtpHead) (rank : PtpRank) (utcOffset : BitVec 16) (utcValid leap61 leap59 : Bool) (s : State),
    s.hub.ref.regs.ptpCtrlEn = true →
    ptpOk s 0xB h = true →
    s.hub.ptp.foreign = [] →
    ∃ t, exec (.ptpAnnounceReceive h rank utcOffset utcValid leap61 leap59) s = .next t ∧
      t.hub.ptp.foreign = [{
        identity := h.identity, port := h.port, rank := rank.key, utcOffset := utcOffset, utcValid := utcValid,
        leap61 := leap61, leap59 := leap59, at_ := s.hub.sh.tb.cycles, logInterval := rank.logInterval.toInt }] ∧
      t.hub.ref.regs.ptpStatusForeign = 1 ∧
      t.hub.sh = s.hub.sh ∧
      t.tsu = s.tsu ∧
      Reported { s with hub := { s.hub with ref := t.hub.ref, ptp := t.hub.ptp } } t) ∧
  (∀ (h : PtpHead) (twoStep : Bool) (logInterval : BitVec 8) (t2 : BitVec 80) (uncal : Bool) (s : State),
    ptpExpire s = s →
    s.hub.ref.regs.ptpCtrlEn = true →
    ptpOk s 0 h = true →
    twoStep = true →
    -7 ≤ logInterval.toInt ∧ logInterval.toInt ≤ 0 →
    fromParent s h = true →
    uncal = false →
    ∃ t, exec (.ptpSyncReceive h twoStep logInterval t2 uncal) s = .next t ∧
      (t = modHub s fun x => { x with
        ptp := { x.ptp with
          syncSeq := some h.seq, corrSync := h.corr.toInt, t2 := t2.toNat, logSync := logInterval.toInt } })) ∧
  (∀ (h : PtpHead) (twoStep : Bool) (logInterval : BitVec 8) (t2 : BitVec 80) (uncal : Bool) (s : State),
    ptpExpire s = s →
    s.hub.ref.regs.ptpCtrlEn = true →
    ptpOk s 0 h = false ∨ twoStep = false ∨ logInterval.toInt < -7 ∨ 0 < logInterval.toInt →
    ∃ t, exec (.ptpSyncReceive h twoStep logInterval t2 uncal) s = .next t ∧
      (t = modHub s fun x => { x with
        ref := { x.ref with regs := { x.ref.regs with ptpStatusDropped := satInc x.ref.regs.ptpStatusDropped } } })) ∧
  (∀ (h : PtpHead) (sec : BitVec 48) (ns : BitVec 32) (vote : TimeVote) (s : State),
    ptpExpire s = s →
    s.hub.ref.regs.ptpCtrlEn = true →
    ptpOk s 8 h = true →
    ptpStampOk s sec ns = true →
    fromParent s h = true →
    s.hub.ptp.syncSeq = some h.seq →
    s.hub.ptp.pathCount = 0 →
    ∃ t, exec (.ptpFollowUpReceive h sec ns vote) s = .next t ∧
      (t = modHub s fun x => { x with
        ptp := { x.ptp with
          t1 := ptpTime s sec ns + s.hub.ptp.corrSync + h.corr.toInt, havePair := true, syncSeq := none } })) ∧
  (∀ (h : PtpHead) (sec : BitVec 48) (ns : BitVec 32) (vote : TimeVote) (s : State),
    ptpExpire s = s →
    s.hub.ref.regs.ptpCtrlEn = true →
    ptpOk s 8 h = true →
    1000000000 ≤ ns.toNat →
    ∃ t, exec (.ptpFollowUpReceive h sec ns vote) s = .next t ∧
      (t = modHub s fun x => { x with
        ref := { x.ref with regs := { x.ref.regs with ptpStatusDropped := satInc x.ref.regs.ptpStatusDropped } } })) ∧
  (∀ (t3 : BitVec 80) (s : State),
    ptpExpire s = s →
    s.hub.ref.regs.ptpCtrlEn = true →
    s.hub.ptp.foreign.isEmpty = false →
    ∃ t, exec (.ptpDelayReqSend t3) s = .next t ∧
      (t = emit (modHub s fun x => { x with
        ptp := { x.ptp with
          delaySeq := s.hub.ptp.delaySeq + 1, t3 := t3.toNat,
          delayPending := true } }) (.ptpDelayReq s.clockIdentity 1 (s.hub.ptp.delaySeq + 1)))) ∧
  (∀ (h : PtpHead) (requester : PtpPortId) (receipt : PtpStamp) (logInterval : BitVec 8) (s : State),
    ptpExpire s = s →
    s.hub.ref.regs.ptpCtrlEn = true →
    ptpOk s 9 h = true →
    ptpStampOk s receipt.sec receipt.ns = true →
    fromParent s h = true →
    requester = ⟨s.clockIdentity, 1⟩ →
    s.hub.ptp.delayPending = true →
    s.hub.ptp.delaySeq = h.seq →
    s.hub.ptp.havePair = true →
    s.hub.ptp.pathCount = 0 →
    s.hub.ptp.pathSum = 0 →
    ∃ t, exec (.ptpDelayRespReceive h requester receipt logInterval) s = .next t ∧
      t.hub.ref.regs.ptpStatusMeanPath = BitVec.ofInt 40 (((s.hub.ptp.t2 - s.hub.ptp.t1) + (ptpTime s receipt.sec receipt.ns +
        h.corr.toInt - s.hub.ptp.t3)) / 2) ∧
      t.hub.ptp.pathCount = 1 ∧
      t.hub.ptp.delayPending = false ∧
      t.hub.sh = s.hub.sh ∧
      t.tsu = s.tsu ∧
      Reported { s with hub := { s.hub with ref := t.hub.ref, ptp := t.hub.ptp } } t) ∧
  (∀ (h : PtpHead) (requester : PtpPortId) (receipt : PtpStamp) (logInterval : BitVec 8) (s : State),
    ptpExpire s = s →
    s.hub.ref.regs.ptpCtrlEn = true →
    ptpOk s 9 h = true →
    ptpStampOk s receipt.sec receipt.ns = true →
    requester ≠ ⟨s.clockIdentity, 1⟩ →
    ∃ t, exec (.ptpDelayRespReceive h requester receipt logInterval) s = .next t ∧
      t = s)

/-- A TIME frame carries the tick rounded down to 512 ns with VALID and HOLDOVER (R188). A tap that is LOCKING waits for
time when its loop locks, and is OFF without the strobe (R191). In WAIT_TIME the first TIME frame aligns it; three dropped
in a row are a slip (R190). A LAUNCH at least 1,024 ns ahead enters the queue, a CANCEL empties it, CFG writes a register
and is acknowledged, NB_TEST starts the test, IDLE does nothing; each changes the addressed tap alone (R188, R194, R203,
R212). -/
def Obligations.TapFrames : Prop :=
  (∀ (s : State),
    s.tsu.tapPage.tapGlobalEn = true →
    s.valid .tsu = true →
    ∃ t, exec .rootTimeFrameSend s = .next t ∧
      t = emit s (.tapFrame (mkFrame 1 0xFF (BitVec.ofNat 64 ((s.now .tsu).toNat / 512 * 512) ++ BitVec.ofBool true ++
        BitVec.ofBool s.tsu.sh.tb.regs.statusHoldover ++ 0#30)))) ∧
  (∀ (k : BitVec 7) (s : State),
    (s.tap k).own.tapStatusState = 1 →
    ∃ t, exec (.tapDllLock k) s = .next t ∧
      (t = modTap s k fun x => { x with own := { x.own with tapStatusState := 2 } })) ∧
  (∀ (k : BitVec 7) (s : State),
    ∃ t, exec (.strobeLoss k) s = .next t ∧
      t.tap k = tapOff (s.tap k) ∧
      (t = modTap s k fun _ => t.tap k)) ∧
  (∀ (k : BitVec 7) (f : BitVec 128) (s : State),
    2 ≤ (s.tap k).own.tapStatusState.toNat →
    frameOk f = true ∧ frameFor f k = true ∧ frameType f = 0 →
    ∃ t, exec (.tapIdleFrame k f) s = .next t ∧
      t = s) ∧
  (∀ (k : BitVec 7) (f : BitVec 128) (edges : BitVec 32) (s : State),
    (s.tap k).own.tapStatusState = 2 →
    frameOk f = true ∧ frameFor f k = true ∧ frameType f = 1 →
    ∃ t, exec (.tapTimeFrame k f edges) s = .next t ∧
      ((t.tap k).own.tapStatusState = if (s.tap k).fcRun then 4 else 3) ∧
      (t.tap k).anchor = (framePayload f).extractLsb' 32 64 ∧
      (t.tap k).tval = (framePayload f).getLsbD 31 ∧
      (t = modTap s k fun _ => t.tap k)) ∧
  (∀ (k : BitVec 7) (f : BitVec 128) (edges : BitVec 32) (s : State),
    3 ≤ (s.tap k).own.tapStatusState.toNat →
    frameOk f = true ∧ frameFor f k = true ∧ frameType f = 1 →
    (s.tap k).anchor + 8 * edges.setWidth 64 ≠ (framePayload f).extractLsb' 32 64 →
    ∃ t, exec (.tapTimeFrame k f edges) s = .next t ∧
      (t.tap k).own.tapStatusState = 2 ∧
      (t.tap k).queue = [] ∧
      (t.tap k).tval = false ∧
      (t = modTap s k fun _ => t.tap k)) ∧
  (∀ (k : BitVec 7) (s : State),
    3 ≤ (s.tap k).dropRun →
    3 ≤ (s.tap k).own.tapStatusState.toNat →
    ∃ t, exec (.tapFrameDropRun k) s = .next t ∧
      t = modTap s k strobeSlip) ∧
  (∀ (k : BitVec 7) (f : BitVec 128) (edges : BitVec 32) (x : TapLaunch) (s : State),
    3 ≤ (s.tap k).own.tapStatusState.toNat →
    (s.tap k).tval = true →
    frameOk f = true ∧ frameFor f k = true ∧ frameType f = 2 →
    framePayload f = x.target ++ x.frac ++ x.lid ++ 0#8 →
    x.armed = false →
    67108864 ≤ x.at - (s.tap k).timeAt ⟨edges, 0⟩ →
    (s.tap k).queue.length < 4 →
    ∃ t, exec (.tapLaunchFrame k f edges) s = .next t ∧
      (t = modTap s k fun q => { q with queue := q.queue ++ [x] })) ∧
  (∀ (k : BitVec 7) (f : BitVec 128) (s : State),
    2 ≤ (s.tap k).own.tapStatusState.toNat →
    frameOk f = true ∧ frameFor f k = true ∧ frameType f = 3 →
    (framePayload f).getLsbD 87 = true →
    ∃ t, exec (.tapCancelFrame k f) s = .next t ∧
      (t = modTap s k fun q => { q with queue := [] })) ∧
  (∀ (k : BitVec 7) (f : BitVec 128) (s : State),
    2 ≤ (s.tap k).own.tapStatusState.toNat →
    frameOk f = true ∧ frameFor f k = true ∧ frameType f = 4 →
    ∃ t, exec (.tapCfgFrame k f) s = .next t ∧
      (t = modTap s k fun q => queueReport (tapConfig q ((framePayload f).extractLsb' 88 8) ((framePayload f).extractLsb' 0
        64)) (mkReport 7 [(8, ((framePayload f).extractLsb' 88 8).toNat)]))) ∧
  (∀ (k : BitVec 7) (f : BitVec 128) (s : State),
    2 ≤ (s.tap k).own.tapStatusState.toNat →
    frameOk f = true ∧ frameFor f k = true ∧ frameType f = 5 →
    ∃ t, exec (.tapNbTestFrame k f) s = .next t ∧
      (t = modTap s k fun q => { q with nbTest := some (s.now .tsu) }) ∧
      (t.tap k).noticeOut (s.now .tsu) = true)

/-- The root sends the first held launch as an entry of the tap's queue frees, or gives it up 2 µs before its target,
counted and with EV_LAUNCH_MISS (R194). Launches whose target is reached are armed (R195); the launch edge takes every armed
launch and restarts the slack (R196, R198). A stretch raises hold and notice; its end counts an episode (R198, R201).
Enabled neighbour notices raise hold, and the extension ends (R201). P_NOM measured after a frequency change realigns the
tap (R199, R204). -/
def Obligations.TapLaunches : Prop :=
  (∀ (k : BitVec 7) (x : TapLaunch) (rest : List TapLaunch) (s : State),
    (s.tap k).held = x :: rest →
    (s.inQueue k).length < 4 →
    (s.now .tsu).toNat + 2000 ≤ x.target.toNat →
    s.tsu.tapPage.tapGlobalEn = true →
    ∃ t, exec (.rootHeldLaunchSend k) s = .next t ∧
      (t.tap k).held = rest ∧
      (t.tap k).sent = s.inQueue k ++ [x] ∧
      t.out = s.out ++ [.tapFrame (launchFrame k x)] ∧
      t.hub = s.hub ∧
      Reported { s with tsu := { s.tsu with taps := t.tsu.taps } } t) ∧
  (∀ (k : BitVec 7) (x : TapLaunch) (rest : List TapLaunch) (s : State),
    (s.tap k).held = x :: rest →
    x.target.toNat < (s.now .tsu).toNat + 2000 →
    ∃ t, exec (.launchHoldExpire k) s = .next t ∧
      (t.tap k).held = rest ∧
      t.tsu.tapPage.tapQfullMissed = satInc s.tsu.tapPage.tapQfullMissed ∧
      t.hub = s.hub ∧
      Reported { s with tsu := { s.tsu with tapPage := t.tsu.tapPage, taps := t.tsu.taps } } t) ∧
  (∀ (k : BitVec 7) (time : TapTime) (s : State),
    3 ≤ (s.tap k).own.tapStatusState.toNat →
    (s.tap k).tval = true →
    ∃ t, exec (.tapArm k time) s = .next t ∧
      (t = modTap s k fun q => { q with
        queue := q.queue.map fun x => if x.at ≤ (s.tap k).timeAt time then { x with armed := true } else x })) ∧
  (∀ (k : BitVec 7) (time : TapTime) (n : BitVec 64) (s : State),
    (s.tap k).launches = true →
    (s.tap k).queue.any (fun x => x.armed) = true →
    ∃ t, exec (.tapLaunchEdge k time n) s = .next t ∧
      ((t.tap k).queue = (s.tap k).queue.filter fun x => !x.armed) ∧
      (t.tap k).own.tapSlackNow = 0 ∧
      (t.tap k).own.tapSlackValid = true ∧
      (t.tap k).launched = some ((s.tap k).timeAt time) ∧
      (t = emit (modTap s k fun _ => t.tap k) (.launchOut k))) ∧
  (∀ (k : BitVec 7) (time : TapTime) (n : BitVec 64) (s : State),
    (s.tap k).launches = false ∨ (s.tap k).queue.any (fun x => x.armed) = false →
    ∃ t, exec (.tapLaunchEdge k time n) s = .next t ∧
      t = s) ∧
  (∀ (k : BitVec 7) (s : State),
    ∃ t, exec (.stretchIndicationRise k) s = .next t ∧
      (t = modTap s k fun q => { q with stretching := true, notice := true }) ∧
      (t.tap k).holdOut = true) ∧
  (∀ (k : BitVec 7) (time : TapTime) (n : BitVec 64) (s : State),
    (s.tap k).stretching = true →
    ∃ t, exec (.stretchIndicationFall k time n) s = .next t ∧
      (t.tap k).stretching = false ∧
      (t.tap k).own.tapCountEpisodes = satInc (s.tap k).own.tapCountEpisodes ∧
      (t.tap k).notice = (s.tap k).fcRun ∧
      ((t.tap k).ext = if (s.tap k).own.tapCtrlHoldExt = 0 then (s.tap k).ext else (s.tap k).ext + 1) ∧
      (t = modTap s k fun _ => t.tap k)) ∧
  (∀ (k : BitVec 7) (s : State),
    ∃ t, exec (.holdExtExpire k) s = .next t ∧
      (t = modTap s k fun q => { q with ext := q.ext - 1 })) ∧
  (∀ (k : BitVec 7) (input : BitVec 3) (s : State),
    (s.tap k).own.tapCtrlNbEn.getLsbD input.toNat = true →
    ∃ t, exec (.neighbourNoticeRise k input) s = .next t ∧
      (t.tap k).nbIn.getLsbD input.toNat = true ∧
      (t.tap k).holdOut = true ∧
      (t = modTap s k fun _ => t.tap k)) ∧
  (∀ (k : BitVec 7) (input : BitVec 3) (s : State),
    (s.tap k).nbIn.getLsbD input.toNat = true →
    ∃ t, exec (.neighbourNoticeFall k input) s = .next t ∧
      (t.tap k).nbIn = setBit (s.tap k).nbIn input.toNat false ∧
      ((t.tap k).ext = if (s.tap k).own.tapCtrlHoldExt = 0 then (s.tap k).ext else (s.tap k).ext + 1) ∧
      (t = modTap s k fun _ => t.tap k)) ∧
  (∀ (k : BitVec 7) (cycles : List (BitVec 24 × Bool)) (p : BitVec 24) (s : State),
    shortest cycles = some p →
    (s.tap k).measuring = true →
    (s.tap k).fcRun = true ∧ (s.tap k).fcReq = false →
    ∃ t, exec (.pnomMeasured k cycles) s = .next t ∧
      (t.tap k).own.tapStatusPNom = p ∧
      ((t.tap k).own.tapStatusState = if (s.tap k).own.tapStatusState = 4 then 3 else (s.tap k).own.tapStatusState) ∧
      (t.tap k).notice = (s.tap k).stretching ∧
      (t.tap k).fcRun = false ∧ (t.tap k).measuring = false ∧
      (t = modTap s k fun _ => t.tap k)) ∧
  (∀ (k : BitVec 7) (cycles : List (BitVec 24 × Bool)) (p : BitVec 24) (s : State),
    shortest cycles = some p →
    (s.tap k).measuring = true →
    (s.tap k).fcRun = false →
    ∃ t, exec (.pnomMeasured k cycles) s = .next t ∧
      (t = modTap s k fun q => { q with measuring := false, own := { q.own with tapStatusPNom := p } })) ∧
  (∀ (k : BitVec 7) (cycles : List (BitVec 24 × Bool)) (s : State),
    (s.tap k).measuring = false →
    ∃ t, exec (.pnomMeasured k cycles) s = .next t ∧
      (t = modTap s k fun q => q))

/-- FC_REQUEST outside 2.5 µs of a launch is acknowledged: an ALIGNED tap is in FREQ_CHANGE, its slack invalid, the change
counted (R204, R205); within it the acknowledgement is deferred, and given at the end; as the request falls the restart is
reported and 64 cycles are measured (R204). A stop beyond its limit and a long cycle are overruns, each reported once an
interval (R200, R206). A region stop and a mean period off by more than the tolerance raise hold and are reported (R207); a
margin low in two windows sets MARGIN_LOW (R209). NB_CHECK starts the test, and its end sets NB_DONE (R203). -/
def Obligations.TapChangesAndMargins : Prop :=
  (∀ (k : BitVec 7) (time : TapTime) (s : State),
    (s.tap k).fcReq = false →
    (s.tap k).queue.any (fun x => decide (x.at - (s.tap k).timeAt time < 163840000)) = false →
    ∃ t, exec (.fcRequest k time) s = .next t ∧
      ((t.tap k).own.tapStatusState = if (s.tap k).own.tapStatusState = 3 then 4 else (s.tap k).own.tapStatusState) ∧
      (t.tap k).fcReq = true ∧ (t.tap k).fcAck = true ∧ (t.tap k).fcRun = true ∧
      (t.tap k).notice = true ∧
      (t.tap k).own.tapSlackValid = false ∧
      (t.tap k).own.tapCountFcCount = satInc (s.tap k).own.tapCountFcCount ∧
      ((s.tap k).own.tapStatusState = 3 → (t.tap k).holdOut = true) ∧
      (t = modTap s k fun q => fcAck { q with fcReq := true })) ∧
  (∀ (k : BitVec 7) (time : TapTime) (s : State),
    (s.tap k).fcReq = false →
    (s.tap k).queue.any (fun x => decide (x.at - (s.tap k).timeAt time < 163840000)) = true →
    ∃ t, exec (.fcRequest k time) s = .next t ∧
      (t = modTap s k fun q => { q with fcReq := true, fcDefer := true })) ∧
  (∀ (k : BitVec 7) (s : State),
    (s.tap k).fcDefer = true →
    ∃ t, exec (.fcAckDeferEnd k) s = .next t ∧
      t = modTap s k fcAck) ∧
  (∀ (k : BitVec 7) (s : State),
    (s.tap k).fcAck = true →
    ∃ t, exec (.fcRequestDrop k) s = .next t ∧
      (t = modTap s k fun q => queueReport { q with
        fcReq := false, fcAck := false, measuring := true } (mkReport 4 [(2, 1), (24, q.own.tapStatusPNom.toNat)]))) ∧
  (∀ (k : BitVec 7) (s : State),
    (s.tap k).fcAck = false →
    ∃ t, exec (.fcRequestDrop k) s = .next t ∧
      (t = modTap s k fun q => { q with fcReq := false, fcDefer := false })) ∧
  (∀ (k : BitVec 7) (s : State),
    (s.tap k).fcRun = true →
    ∃ t, exec (.fcStopOverrun k) s = .next t ∧
      (t = modTap s k fun q => overrun q 2)) ∧
  (∀ (k : BitVec 7) (s : State),
    (s.tap k).own.tapStatusState = 3 →
    (s.tap k).fcRun = false →
    ∃ t, exec (.regionLongCycle k) s = .next t ∧
      (t = modTap s k fun q => overrun q 1)) ∧
  (∀ (k : BitVec 7) (s : State),
    (s.tap k).stop = false →
    (s.tap k).own.tapCtrlParked = false →
    2 ≤ (s.tap k).own.tapStatusState.toNat →
    ∃ t, exec (.regionStop k) s = .next t ∧
      (t.tap k).stop = true ∧
      (t.tap k).holdOut = true ∧
      (t = modTap s k fun q => queueReport { q with stop := true } (mkReport 6 [(2, 1), (1, 0)]))) ∧
  (∀ (k : BitVec 7) (mean : BitVec 40) (stopped : Bool) (s : State),
    (s.tap k).own.tapCtrlParked = false →
    2 ≤ (s.tap k).own.tapStatusState.toNat →
    (s.tap k).stop = false →
    (s.tap k).freq = false →
    (s.tap k).own.tapCtrlLorTol ≠ 0 →
    (s.tap k).own.tapCtrlLorTol.toNat * ((s.tap k).own.tapStatusPNom.toNat * 65536) < ((mean.toNat : Int) - (s.tap
      k).own.tapStatusPNom.toNat * 65536).natAbs * 1000000 →
    ∃ t, exec (.regionFreqWindow k mean stopped) s = .next t ∧
      (t.tap k).freq = true ∧
      (t.tap k).holdOut = true ∧
      (t = modTap s k fun _ => t.tap k)) ∧
  (∀ (k : BitVec 7) (count : BitVec 32) (s : State),
    (s.tap k).own.tapCtrlRepEn = true →
    (satNat 20 (((s.tap k).repPre + count.toNat) / repDivide (s.tap k)) : BitVec 20).toNat < (s.tap
      k).own.tapMarginThresh.toNat →
    (s.tap k).own.tapStatusMarginLow = false →
    1 ≤ (s.tap k).lowRun →
    ∃ t, exec (.replicaWindowEnd k count) s = .next t ∧
      (t.tap k).own.tapMarginC = satNat 20 (((s.tap k).repPre + count.toNat) / repDivide (s.tap k)) ∧
      (t.tap k).repPre = ((s.tap k).repPre + count.toNat) % repDivide (s.tap k) ∧
      (t.tap k).own.tapStatusMarginLow = true ∧
      (t = modTap s k fun _ => t.tap k)) ∧
  (∀ (k : BitVec 7) (input : BitVec 3) (sender : BitVec 7) (s : State),
    (s.tap sender).nbTest.isSome = true →
    2 ≤ (s.tap k).own.tapStatusState.toNat →
    (s.tap k).own.tapCtrlNbEn.getLsbD input.toNat = true →
    ∃ t, exec (.nbTestNoticeSeen k input sender) s = .next t ∧
      (t = modTap s k fun q => queueReport q (mkReport 8 [(3, input.toNat), (7, sender.toNat)]))) ∧
  (∀ (k : BitVec 7) (input : BitVec 3) (sender : BitVec 7) (s : State),
    (s.tap sender).nbTest = none →
    ∃ t, exec (.nbTestNoticeSeen k input sender) s = .next t ∧
      (t = modTap s k fun q => q)) ∧
  (∀ (i : Iface) (data : Word) (s : State),
    Answers s i →
    i.part = .tsu →
    (s.tsu.taps.any (fun e => !e.2.sent.isEmpty || !e.2.held.isEmpty) = false) →
    ∃ t, exec (.nbCheck i data) s = .next t ∧
      t.tsu.nbSeen = [] ∧
      t.tsu.nbCheck = true ∧
      t.tsu.tapPage = s.tsu.tapPage.write 0x048 (data ||| putB 1 true) ∧
      t.out.getLast? = some (.writeAck i false) ∧
      t.hub = s.hub ∧
      Reported { s with tsu := { s.tsu with tapPage := t.tsu.tapPage, taps := t.tsu.taps, nbCheck := true, nbSeen := [] } } t) ∧
  (∀ (s : State),
    s.tsu.nbCheck = true →
    ∃ t, exec .nbCheckDone s = .next t ∧
      (t.hdr .tsu .tap).pageIntStatus.getLsbD 4 = true ∧
      t.hub = s.hub ∧
      t.out = s.out ∧
      Reported { s with tsu := { s.tsu with tapPage := t.tsu.tapPage, taps := t.tsu.taps, nbCheck := false } } t) ∧
  (∀ (s : State),
    s.tsu.nbCheck = false →
    ∃ t, exec .nbCheckDone s = .next t ∧
      t = s)

/-- A tap sends the head of its report queue (R210). A report the root takes shows: HEARTBEAT the state and the queue depth
(R211), LAUNCHED the launch (R197, R212), SLACK the slack (R198), FC and REF_LOSS the state (R204, R207), MARGIN the margin,
with EV_MARGIN_LOW (R209), OVERRUN raises EV_STRETCH_OVERRUN (R200), CFG_ACK answers the held write (R212), NB_SEEN is kept
for the check (R203). A tap silent for three frames reads OFF (R207). A write of a tap in OFF is answered at once;
TAP_LAUNCH latches its tick (R212). -/
def Obligations.TapReports : Prop :=
  (∀ (k : BitVec 7) (r : BitVec 64) (rest : List (BitVec 64)) (s : State),
    (s.tap k).rpt = r :: rest →
    ∃ t, exec (.tapReportSend k) s = .next t ∧
      (t = emit (modTap s k fun q => { q with rpt := rest }) (.tapReport k r))) ∧
  (∀ (k : BitVec 7) (r : BitVec 64) (s : State),
    reportOk r = true →
    r.extractLsb' 58 4 = 0 →
    ∃ t, exec (.heartbeatReport k r) s = .next t ∧
      (t.tap k).regs.tapStatusState = reportField r 0 3 ∧
      (t.tap k).regs.tapStatusDepth = reportField r 4 3 ∧
      (t.tap k).losses.getLsbD 3 = false ∧
      (t.tap k).own = (s.tap k).own ∧
      (t = modTap s k fun _ => t.tap k)) ∧
  (∀ (k : BitVec 7) (r : BitVec 64) (s : State),
    reportOk r = true →
    r.extractLsb' 58 4 = 1 →
    reportField r 8 1 = 0#1 →
    ∃ t, exec (.launchedReport k r) s = .next t ∧
      (t.tap k).regs.tapLaunchLid = reportField r 0 8 ∧
      (t.tap k).regs.tapLaunchPhase = reportField r 10 32 ∧
      (t.tap k).regs.tapLaunchLate = false ∧
      (t.tap k).regs.tapSlackNow = (s.tap k).regs.tapSlackNow ∧
      ((t.tap k).sent = (s.tap k).sent.filter fun x => x.lid != reportField r 0 8) ∧
      (t = modTap s k fun _ => t.tap k)) ∧
  (∀ (k : BitVec 7) (r : BitVec 64) (s : State),
    reportOk r = true →
    r.extractLsb' 58 4 = 2 →
    ∃ t, exec (.slackReport k r) s = .next t ∧
      (t = modTap s k fun q => { q with
        regs := { q.regs with
          tapSlackValid := reportField r 0 1 == 1#1, tapSlackNow := reportField r 1 31,
          tapCountEpisodes := satInc q.regs.tapCountEpisodes } })) ∧
  (∀ (k : BitVec 7) (r : BitVec 64) (s : State),
    reportOk r = true →
    r.extractLsb' 58 4 = 3 →
    ∃ t, exec (.overrunReport k r) s = .next t ∧
      Raised t .tsu 0x0007 ((reportField r 0 2).setWidth 16) ∧
      (t.hdr .tsu .tap).pageIntStatus.getLsbD 2 = true ∧
      t.tsu.taps = s.tsu.taps ∧
      Reported { s with tsu := { s.tsu with tapPage := t.tsu.tapPage, taps := t.tsu.taps } } t) ∧
  (∀ (k : BitVec 7) (r : BitVec 64) (s : State),
    reportOk r = true →
    r.extractLsb' 58 4 = 4 →
    reportField r 0 2 = 0#2 →
    ∃ t, exec (.fcReport k r) s = .next t ∧
      (t = modTap s k fun q => { q with
        regs := { q.regs with
          tapStatusPNom := reportField r 2 24, tapStatusState := if q.regs.tapStatusState = 3 then 4 else q.regs.tapStatusState,
          tapSlackValid := false, tapCountFcCount := satInc q.regs.tapCountFcCount } })) ∧
  (∀ (k : BitVec 7) (r : BitVec 64) (s : State),
    reportOk r = true →
    r.extractLsb' 58 4 = 4 →
    reportField r 0 2 = 2#2 →
    ∃ t, exec (.fcReport k r) s = .next t ∧
      (t = modTap s k fun q => { q with regs := { q.regs with tapStatusState := 3, tapStatusPNom := reportField r 2 24 } })) ∧
  (∀ (k : BitVec 7) (r : BitVec 64) (s : State),
    reportOk r = true →
    r.extractLsb' 58 4 = 5 →
    reportField r 0 1 = 1#1 →
    ∃ t, exec (.marginReport k r) s = .next t ∧
      (t.tsu.taps = tmod {} s.tsu.taps k.toNat fun q => { q with
        regs := { q.regs with tapStatusMarginLow := true, tapMarginC := reportField r 1 20 } }) ∧
      Raised t .tsu 0x0006 0 ∧
      (t.hdr .tsu .tap).pageIntStatus.getLsbD 1 = true ∧
      Reported { s with tsu := { s.tsu with tapPage := t.tsu.tapPage, taps := t.tsu.taps } } t) ∧
  (∀ (k : BitVec 7) (r : BitVec 64) (s : State),
    reportOk r = true →
    r.extractLsb' 58 4 = 6 →
    reportField r 0 2 = 0#2 →
    reportField r 2 1 = 0#1 →
    ∃ t, exec (.refLossReport k r) s = .next t ∧
      (t.tap k).regs.tapStatusState = 2 ∧
      (t.tap k).sent = [] ∧
      (t.tap k).losses.getLsbD 0 = true ∧
      Raised t .tsu 0x0005 0 ∧
      Reported { s with tsu := { s.tsu with tapPage := t.tsu.tapPage, taps := t.tsu.taps } } t) ∧
  (∀ (k : BitVec 7) (r : BitVec 64) (i : Iface) (s : State),
    reportOk r = true →
    r.extractLsb' 58 4 = 7 →
    (s.tsu.tapWrites.find? (fun x => x.1 == k && x.2.1 == reportField r 0 8) = some (k, reportField r 0 8, .row i)) →
    (s.tap k).own.tapStatusState ≠ 0 →
    ∃ t, exec (.cfgAckReport k r) s = .next t ∧
      (t = emit (modTsu s fun h => { h with
        tapWrites := h.tapWrites.erase (k, reportField r 0 8, .row i) }) (.writeAck i false))) ∧
  (∀ (k : BitVec 7) (r : BitVec 64) (s : State),
    s.tsu.nbCheck = true →
    reportOk r = true →
    r.extractLsb' 58 4 = 8 →
    ∃ t, exec (.nbSeenReport k r) s = .next t ∧
      (t = modTsu s fun h => { h with nbSeen := h.nbSeen ++ [(k, reportField r 0 3, reportField r 3 7)] })) ∧
  (∀ (k : BitVec 7) (s : State),
    ∃ t, exec (.tapSilent k) s = .next t ∧
      (t.tap k).regs.tapStatusState = 0 ∧
      (t.tap k).sent = [] ∧
      (t.tap k).losses.getLsbD 3 = true ∧
      Raised t .tsu 0x0005 3 ∧
      Reported { s with tsu := { s.tsu with tapPage := t.tsu.tapPage, taps := t.tsu.taps, tapWrites := t.tsu.tapWrites } } t) ∧
  (∀ (i : Iface) (reg : BitVec 4) (data : Word) (s : State),
    i.part = .tsu →
    unpowered s i = false →
    tapWritable (0x060 + 8 * reg.toNat) = true →
    tapValueOk s (0x060 + 8 * reg.toNat) data = true →
    (s.tap (s.iface i).regs.tapSel).regs.tapStatusState = 0 →
    ∃ t, exec (.tapRegisterWrite i reg data) s = .next t ∧
      (t.tap (s.iface i).regs.tapSel).regs = (s.tap (s.iface i).regs.tapSel).regs.write (0x060 + 8 * reg.toNat) data ∧
      (t = emit (modTap s (s.iface i).regs.tapSel fun _ => t.tap (s.iface i).regs.tapSel) (.writeAck i false))) ∧
  (∀ (i : Iface) (s : State),
    Answers s i →
    i.part = .tsu →
    ∃ t, exec (.tapLaunchRead i) s = .next t ∧
      t.out = s.out ++ [.readData i ((s.tap (s.iface i).regs.tapSel).regs.read 0x078)] ∧
      (t.iface i).regs = { (s.iface i).regs with tapLaunchTick := (s.tap (s.iface i).regs.tapSel).regs.tapLaunchTick } ∧
      Reported { s with
        hub := { s.hub with sh := { s.hub.sh with ifaces := t.hub.sh.ifaces } },
        tsu := { s.tsu with sh := { s.tsu.sh with ifaces := t.tsu.sh.ifaces } } } t)

/-- Reset clears the TSU and its release samples the straps; a host-port reset discards the responses owed and the host
port's own copies (R164 to R166). A request is answered through the register window, after the link accesses and sequencer
words of its cycle; a tag still outstanding is answered with an error and counted, and responses leave in order (R168 to
R171, R288). An edge of the enabled direction, 4 ns after the last, is stamped and counted and sets its flags (R175). Beats
add their bytes to their channel's total and change nothing else (R179). -/
def Obligations.TsuBoundary : Prop :=
  (∀ (s : State),
    ∃ t, exec .tsuReset s = .next t ∧
      t = { s with tsu := { inReset := true } }) ∧
  (∀ (dieType : BitVec 16) (ref156 : Bool) (taps : BitVec 7) (s : State),
    s.tsu.inReset = true →
    ∃ t, exec (.tsuResetRelease dieType ref156 taps) s = .next t ∧
      t = { s with tsu := { root := { integDieType := dieType, integRef156 := ref156, integTaps := taps } } }) ∧
  (∀ (s : State),
    ∃ t, exec .hostPortReset s = .next t ∧
      t.tsu.hp = [] ∧
      t.iface .host = {} ∧
      (t = modTsu s fun h => { h with hp := [], sh := { h.sh with ifaces := t.tsu.sh.ifaces } })) ∧
  (∀ (write : Bool) (addr : BitVec 15) (data : Word) (tag : BitVec 4) (s : State),
    s.tsu.inReset = false →
    s.tsu.hp.length < 16 →
    (s.tsu.hp.any (fun e => e.tag == tag) = false) →
    s.hostWaitsTurn = false →
    write = true →
    ∃ t, exec (.hostPortRequest write addr data tag) s = .next t ∧
      (t = writeAt (.hp s.tsu.hpNext) .host (addr.setWidth 24 <<< 3) data (modTsu s fun h => { h with
        hpNext := h.hpNext + 1, hp := h.hp ++ [{ id := h.hpNext, tag := tag, write := true, done := none }] }))) ∧
  (∀ (write : Bool) (addr : BitVec 15) (data : Word) (tag : BitVec 4) (s : State),
    s.tsu.inReset = false →
    s.tsu.hp.length < 16 →
    (s.tsu.hp.any (fun e => e.tag == tag) = false) →
    s.hostWaitsTurn = false →
    write = false →
    ∃ t, exec (.hostPortRequest write addr data tag) s = .next t ∧
      (t = hostAccess (modTsu s fun h => { h with
        hpNext := h.hpNext + 1,
        hp := h.hp ++ [{
          id := h.hpNext, tag := tag, write := false,
          done := none }] }) { id := s.tsu.hpNext, write := false, addr := addr.setWidth 24 <<< 3, data := data }) ∧
      ((t.tsu.hp.getLast?.map fun e => (e.tag, e.write, e.done)) = some (tag, false,
        some ((readAt .host (addr.setWidth 24 <<< 3) (modTsu s fun h => { h with
          hpNext := h.hpNext + 1,
          hp := h.hp ++ [{
            id := h.hpNext, tag := tag, write := false,
            done := none }] })).1, (readAt .host (addr.setWidth 24 <<< 3) (modTsu s fun h => { h with
              hpNext := h.hpNext + 1, hp := h.hp ++ [{ id := h.hpNext, tag := tag, write := false, done := none }] })).2.1)))) ∧
  (∀ (write : Bool) (addr : BitVec 15) (data : Word) (tag : BitVec 4) (s : State),
    s.tsu.inReset = false →
    s.tsu.hp.length < 16 →
    (s.tsu.hp.any (fun e => e.tag == tag) = false) →
    s.hostWaitsTurn = true →
    ∃ t, exec (.hostPortRequest write addr data tag) s = .next t ∧
      t.tsu.lateHost = s.tsu.lateHost ++ [{
        id := s.tsu.hpNext, write := write, addr := addr.setWidth 24 <<< 3, data := data }] ∧
      t.tsu.hp = s.tsu.hp ++ [{ id := s.tsu.hpNext, tag := tag, write := write, done := none }] ∧
      (t = modTsu s fun h => { h with hpNext := h.hpNext + 1, hp := t.tsu.hp, lateHost := t.tsu.lateHost })) ∧
  (∀ (write : Bool) (addr : BitVec 15) (data : Word) (tag : BitVec 4) (s : State),
    s.tsu.inReset = true ∨ 16 ≤ s.tsu.hp.length →
    ∃ t, exec (.hostPortRequest write addr data tag) s = .next t ∧
      t = s) ∧
  (∀ (write : Bool) (addr : BitVec 15) (data : Word) (tag : BitVec 4) (s : State),
    s.tsu.inReset = false →
    s.tsu.hp.length < 16 →
    (s.tsu.hp.any (fun e => e.tag == tag) = true) →
    ∃ t, exec (.hostPortRequest write addr data tag) s = .next t ∧
      t.tsu.hp = s.tsu.hp ++ [{ id := s.tsu.hpNext, tag := tag, write := write, done := some (true, 0) }] ∧
      (t = modTsu (refuse s .tsu .root) fun h => { h with hp := t.tsu.hp, hpNext := h.hpNext + 1 })) ∧
  (∀ (e : HpEntry) (rest : List HpEntry) (x : Word) (s : State),
    s.tsu.hp = e :: rest →
    e.done = some (false, x) →
    e.write = false →
    ∃ t, exec .hostPortResponse s = .next t ∧
      (t = emit (modTsu s fun h => { h with hp := rest }) (.hpResponse e.tag false x))) ∧
  (∀ (n : BitVec 4) (falling : Bool) (s : State),
    s.tsu.inReset = false →
    s.tsu.evt.evtCtrlEn.getLsbD n.toNat = true →
    s.tsu.evt.evtCtrlEdge.getLsbD n.toNat = falling →
    (tget {} s.tsu.evts n.toNat).lastCyc = none →
    ∃ t, exec (.eventInputEdge n falling) s = .next t ∧
      (tget {} t.tsu.evts n.toNat).regs.evtCount = satInc (tget {} s.tsu.evts n.toNat).regs.evtCount ∧
      (tget {} t.tsu.evts n.toNat).regs.evtLast = BitVec.ofInt 64 ((((s.now .tsu).toNat - 3) * 65536 - (tget {} s.tsu.evts
        n.toNat).regs.ioAdj.toInt) / 65536) ∧
      (t.hdr .tsu .evtrig).pageIntStatus.getLsbD n.toNat = true ∧
      t.tsu.evtNew = setBit s.tsu.evtNew n.toNat true ∧
      t.hub = s.hub ∧
      Reported { s with tsu := { s.tsu with evts := t.tsu.evts, slots := t.tsu.slots, evtNew := t.tsu.evtNew } } t) ∧
  (∀ (n : BitVec 4) (p : PulseKind × Tick) (s : State),
    s.acting .tsu = true →
    firstPulse (s.trig n).pend = some p →
    place512 (p.2.toNat * 65536 - (s.trig n).regs.ioAdj.toInt) 1 < ((s.now .tsu).toNat + 1) * 65536 →
    s.tsu.evt.trigCtrlEn.getLsbD n.toNat = true →
    (s.trig n).regs.trigMode ≠ 2 →
    (s.trig n).active = false →
    ∃ t, exec (.triggerPulseStart n) s = .next t ∧
      (t.trig n).active = true ∧
      (t.trig n).pend = (s.trig n).pend.erase p ∧
      (t.trig n).endAt = place512 (p.2.toNat * 65536 - (s.trig n).regs.ioAdj.toInt) 1 + ((s.trig n).regs.trigWidth.toNat + 1) *
        65536 ∧
      t.out = s.out ++ [.trig n (!s.tsu.evt.trigCtrlPol.getLsbD n.toNat) (BitVec.ofInt 80 (place512 (p.2.toNat * 65536 -
        (s.trig n).regs.ioAdj.toInt) 1))] ∧
      Reported { s with tsu := { s.tsu with trigs := t.tsu.trigs } } t) ∧
  (∀ (n : BitVec 4) (s : State),
    s.acting .tsu = true →
    (s.trig n).pend = [] →
    (s.trig n).regs.trigMode = 2 ∧ (s.trig n).regs.trigPeriodNum ≠ 0 →
    (nextPeriodic (s.trig n)).2 < ((s.now .tsu).toNat + 1) * 65536 →
    s.tsu.evt.trigCtrlEn.getLsbD n.toNat = true →
    (s.trig n).active = false →
    ∃ t, exec (.triggerPulseStart n) s = .next t ∧
      (t.trig n).active = true ∧
      (t.trig n).lastK = some (nextPeriodic (s.trig n)).1 ∧
      t.out = s.out ++ [.trig n (!s.tsu.evt.trigCtrlPol.getLsbD n.toNat) (BitVec.ofInt 80 (nextPeriodic (s.trig n)).2)] ∧
      Reported { s with tsu := { s.tsu with trigs := t.tsu.trigs } } t) ∧
  (∀ (n : BitVec 4) (s : State),
    (s.trig n).active = true →
    (s.trig n).endAt < ((s.now .tsu).toNat + 1) * 65536 →
    ∃ t, exec (.triggerPulseEnd n) s = .next t ∧
      (t = emit (modTrig s n fun x => { x with active := false }) (.trig n (s.tsu.evt.trigCtrlPol.getLsbD n.toNat)
        (BitVec.ofInt 80 (s.trig n).endAt)))) ∧
  (∀ (ch : BitVec 2) (bytes : BitVec 16) (s : State),
    s.tsu.inReset = false →
    ∃ t, exec (.wcIssuedBeat ch bytes) s = .next t ∧
      t.wcIssued ch.toNat = s.wcIssued ch.toNat + (bytes.setWidth 64 + 1) ∧
      (t = modTsu s fun h => { h with dfc := t.tsu.dfc }) ∧
      (∀ j : BitVec 2, j ≠ ch → t.wcIssued j.toNat = s.wcIssued j.toNat)) ∧
  (∀ (ch : BitVec 2) (bytes : BitVec 16) (s : State),
    s.tsu.inReset = false →
    ∃ t, exec (.wcDoneBeat ch bytes) s = .next t ∧
      t.wcDone ch.toNat = s.wcDone ch.toNat + (bytes.setWidth 64 + 1) ∧
      (t = modTsu s fun h => { h with dfc := t.tsu.dfc }) ∧
      (∀ j : BitVec 2, j ≠ ch → t.wcDone j.toNat = s.wcDone j.toNat)) ∧
  (∀ (ch : BitVec 2) (bytes : BitVec 16) (s : State),
    s.tsu.inReset = false →
    ∃ t, exec (.ingressBeat ch bytes) s = .next t ∧
      t.ingress ch = s.ingress ch + (bytes.setWidth 64 + 1) ∧
      (t = modTsu s fun h => { h with dfc := t.tsu.dfc }) ∧
      (∀ j, j ≠ ch → t.ingress j = s.ingress j))

/-- SO_CFG creates a COUNTER, FLAG or SIGNAL bound to an OBJ not in use (R217). ARRIVE on a BARRIER not yet arrived sets
ARRIVED (R220). ADD adds to a COUNTER, SET sets a FLAG, CLEAR clears VALUE and SATURATED, and each changes its slot alone
(R230, R245). OPEN_WINDOW takes the channel's total as base (R237). While the job is paused SO_VAL, SO_GEN and WIN_STATE
take a context's values (R247). An AUTOCLR flag clears in the next cycle, after every wait on it that held (R231), and a
scheduled completion raises GEN and clears ARRIVED (R226). -/
def Obligations.SlotOperations : Prop :=
  (∀ (i : Iface) (data : Word) (s : State),
    Answers s i →
    i.part = .tsu →
    (s.slot (s.iface i).regs.soSel).regs.soCfgType = 0 →
    getF data 61 3 = tyCounter ∨ getF data 61 3 = tyFlag ∨ getF data 61 3 = tySignal →
    s.tsuHasJob = true →
    s.objBound (getF data 32 16) = false →
    ∃ t, exec (.soCfgWrite i data) s = .next t ∧
      (t.slot (s.iface i).regs.soSel).regs.soCfgType = getF data 61 3 ∧
      (t.slot (s.iface i).regs.soSel).regs.soCfgObj = getF data 32 16 ∧
      (t.slot (s.iface i).regs.soSel).regs.soValValue = 0 ∧
      (t = emit (modSlot s (s.iface i).regs.soSel fun _ => t.slot (s.iface i).regs.soSel) (.writeAck i false))) ∧
  (∀ (i : Iface) (data : Word) (s : State),
    Answers s i →
    i.part = .tsu →
    (s.slot (s.iface i).regs.soSel).regs.soCfgType = tyBarrier →
    (s.slot (s.iface i).regs.soSel).regs.soValArrived = false →
    ∃ t, exec (.soOpArrive i data) s = .next t ∧
      (t.slot (s.iface i).regs.soSel).regs = { (s.slot (s.iface i).regs.soSel).regs with soValArrived := true } ∧
      (t.tsu.slots = (modSlot s (s.iface i).regs.soSel fun _ => t.slot (s.iface i).regs.soSel).tsu.slots) ∧
      t.out.getLast? = some (.writeAck i false) ∧
      t.hub = s.hub ∧
      Reported { s with
        tsu := { s.tsu with
          slots := t.tsu.slots, wins := t.tsu.wins, sends := t.tsu.sends, heldSends := t.tsu.heldSends } } t) ∧
  (∀ (i : Iface) (data : Word) (s : State),
    Answers s i →
    i.part = .tsu →
    (s.slot (s.iface i).regs.soSel).regs.soCfgType = tyCounter →
    (s.slot (s.iface i).regs.soSel).regs.soValValue.toNat + (getF data 0 48 : BitVec 48).toNat < 2 ^ 48 - 1 →
    ∃ t, exec (.soOpAdd i data) s = .next t ∧
      (t = emit (modSlotRegs s (s.iface i).regs.soSel fun r => { r with
        soValValue := r.soValValue + getF data 0 48 }) (.writeAck i false))) ∧
  (∀ (i : Iface) (data : Word) (s : State),
    Answers s i →
    i.part = .tsu →
    (s.slot (s.iface i).regs.soSel).regs.soCfgType = tyCounter →
    2 ^ 48 - 1 ≤ (s.slot (s.iface i).regs.soSel).regs.soValValue.toNat + (getF data 0 48 : BitVec 48).toNat →
    (s.slot (s.iface i).regs.soSel).regs.soValSaturated = false →
    ∃ t, exec (.soOpAdd i data) s = .next t ∧
      (t.slot (s.iface i).regs.soSel).regs.soValValue = BitVec.allOnes 48 ∧
      (t.slot (s.iface i).regs.soSel).regs.soValSaturated = true ∧
      (t.hdr .tsu .sync).pageIntStatus.getLsbD 16 = true ∧
      Raised t .tsu 0x0002 0 ∧
      Reported { s with
        tsu := { s.tsu with
          slots := t.tsu.slots, wins := t.tsu.wins, sends := t.tsu.sends, heldSends := t.tsu.heldSends } } t) ∧
  (∀ (i : Iface) (data : Word) (s : State),
    Answers s i →
    i.part = .tsu →
    (s.slot (s.iface i).regs.soSel).regs.soCfgType = tyFlag →
    ∃ t, exec (.soOpSet i data) s = .next t ∧
      (t = emit (modSlotRegs s (s.iface i).regs.soSel fun r => { r with soValValue := 1 }) (.writeAck i false))) ∧
  (∀ (i : Iface) (data : Word) (s : State),
    Answers s i →
    i.part = .tsu →
    (s.slot (s.iface i).regs.soSel).regs.soCfgType = tySignal →
    ∃ t, exec (.soOpClear i data) s = .next t ∧
      (t = emit (modSlotRegs s (s.iface i).regs.soSel fun r => { r with
        soValValue := 0, soValSaturated := false }) (.writeAck i false))) ∧
  (∀ (i : Iface) (data : Word) (s : State),
    Answers s i →
    i.part = .tsu →
    s.winPending (getF data 6 2) (getF data 0 6) = 0 →
    ∃ t, exec (.soOpOpenWindow i data) s = .next t ∧
      t.window (getF data 6 2) (getF data 0 6) = { isOpen := true, base := s.ingress (getF data 6 2) } ∧
      (t = emit (modTsu s fun h => { h with wins := t.tsu.wins }) (.writeAck i false))) ∧
  (∀ (i : Iface) (data : Word) (s : State),
    Answers s i →
    i.part = .tsu →
    s.tsuPaused = true →
    ∃ t, exec (.soValWrite i data) s = .next t ∧
      (t = emit (modSlotRegs s (s.iface i).regs.soSel fun r => r.write 0x058 data) (.writeAck i false))) ∧
  (∀ (i : Iface) (data : Word) (s : State),
    Answers s i →
    i.part = .tsu →
    s.tsuPaused = true →
    (s.slot (s.iface i).regs.soSel).regs.soCfgType = tyBarrier →
    ∃ t, exec (.soGenWrite i data) s = .next t ∧
      (t.slot (s.iface i).regs.soSel).regs = { (s.slot (s.iface i).regs.soSel).regs with soGen := data } ∧
      (t = emit (modSlot s (s.iface i).regs.soSel fun _ => t.slot (s.iface i).regs.soSel) (.writeAck i false))) ∧
  (∀ (i : Iface) (data : Word) (s : State),
    Answers s i →
    i.part = .tsu →
    s.tsuPaused = true →
    ∃ t, exec (.winProgressWrite i data) s = .next t ∧
      t.window (s.iface i).regs.winSelChan (s.iface i).regs.winSelWindow = {
        isOpen := true, base := s.ingress (s.iface i).regs.winSelChan - (getF data 0 48 : BitVec 48).setWidth 64 } ∧
      (t = emit (modTsu s fun h => { h with wins := t.tsu.wins }) (.writeAck i false))) ∧
  (∀ (slot : BitVec 12) (s : State),
    (s.slot slot).clr = true →
    s.tsu.waits = [] ∧ s.tsu.seq.wait = none →
    ∃ t, exec (.flagAutoclr slot) s = .next t ∧
      (t = modSlot s slot fun x => { x with clr := false, regs := { x.regs with soValValue := 0 } })) ∧
  (∀ (slot : BitVec 12) (w : BitVec 4) (s : State),
    (s.slot slot).clr = true →
    (s.slot slot).regs.soCfgType = 3 ∧ (s.slot slot).regs.soValValue = 1 →
    (s.hostWait w).waitStatusResult = 1 ∧ (s.hostWait w).waitArmSlot = slot →
    ∃ t, exec (.flagAutoclr slot) s = .next t ∧
      (t.hostWait w).waitStatusResult = 2 ∧
      (t.slot slot).clr = false ∧
      (t.slot slot).regs.soValValue = 0 ∧
      (t.slot slot).regs.soCfgObj = (s.slot slot).regs.soCfgObj) ∧
  (∀ (slot : BitVec 12) (x : Tick) (s : State),
    (s.slot slot).due = some x →
    s.acting .tsu = true →
    x.toNat ≤ (s.now .tsu).toNat →
    ∃ t, exec (.timedReleaseComplete slot) s = .next t ∧
      (t = modSlot s slot fun y => { y with
        due := none, regs := { y.regs with soGen := y.regs.soGen + 1, soValArrived := false } }))

/-- A SEND that is not refused is queued with its covers and answered (R232 to R234); its SIGNAL leaves when every cover is
met (R233); a held one enters as space frees; one whose timer expires is discarded with EV_WAIT_TIMEOUT unless it is the
oldest and covered, when it leaves (R234, R242). A SIGNAL whose token is met takes effect at once, another waits for it, and
one beyond the 64 that wait is refused (R236, R238). A RELEASE of the slot's generation completes it (R226). WAIT_ARM arms a
wait on a slot and CANCEL ends it (R240, R244); a wait completes as its condition holds, or times out with an event (R240 to
R243). -/
def Obligations.SendsSignalsAndWaits : Prop :=
  (∀ (i : Iface) (data : Word) (s : State),
    Answers s i →
    i.part = .tsu →
    sendRefused s s.sendOf = false →
    s.tsu.sends.length < 16 →
    s.tsu.heldSends = [] →
    ∃ t, exec (.soOpSend i data) s = .next t ∧
      (t = emit (modTsu s fun h => { h with sends := h.sends ++ [s.sendOf] }) (.writeAck i false))) ∧
  (∀ (e : SendE) (rest : List SendE) (s : State),
    s.tsu.sends = e :: rest →
    s.uncovered e.fmask e.cover = 0 →
    ∃ t, exec .sendFenceMet s = .next t ∧
      (t = tsuSendUp (modTsu s fun h => { h with sends := rest }) (.signal {
        job := s.tsu.txnt.ttJob, epoch := s.tsu.txnt.ttJobEpoch, rank := s.tsu.rank, obj := e.obj, amount := e.amount,
        chan := e.chan, window := e.window, bytes := e.bytes, dest := .rank e.rank })) ∧
      t.tsu.sends = rest) ∧
  (∀ (e : SendE) (i : Iface) (rest : List (SendE × Option Waiter)) (s : State),
    s.tsu.heldSends = (e, some (.row i)) :: rest →
    s.tsu.sends.length < 16 →
    ∃ t, exec .sendQueueSpace s = .next t ∧
      (t = emit (modTsu s fun h => { h with sends := h.sends ++ [e], heldSends := rest }) (.writeAck i false))) ∧
  (∀ (k : BitVec 4) (e : SendE) (s : State),
    s.tsu.sends[k.toNat]? = some e →
    k ≠ 0 ∨ s.uncovered e.fmask e.cover ≠ 0 →
    ∃ t, exec (.sendTimeout k) s = .next t ∧
      t.tsu.sends = s.tsu.sends.eraseIdx k.toNat ∧
      Raised t .tsu 0x0001 1 ∧
      t.hub = s.hub ∧
      Reported { s with tsu := { s.tsu with sends := t.tsu.sends } } t) ∧
  (∀ (k : BitVec 4) (e : SendE) (s : State),
    k = 0 →
    s.tsu.sends.head? = some e →
    s.uncovered e.fmask e.cover = 0 →
    ∃ t, exec (.sendTimeout k) s = .next t ∧
      t = sendLeaves s 0 e ∧
      t.tsu.sends = s.tsu.sends.drop 1) ∧
  (∀ (l : LinkId) (m : SignalP) (k : BitVec 12) (s : State),
    s.tsu.pend.length < 64 →
    TsuRuns s m.job m.epoch →
    s.slotOf tySignal m.obj = some k →
    signalMet s m = true →
    ∃ t, exec (.signalReceive l m) s = .next t ∧
      t = taken (slotAdd s k (m.amount.setWidth 48 + 1)).2 l (.signal m)) ∧
  (∀ (l : LinkId) (m : SignalP) (k : BitVec 12) (s : State),
    s.tsu.pend.length < 64 →
    TsuRuns s m.job m.epoch →
    s.slotOf tySignal m.obj = some k →
    signalMet s m = false →
    ∃ t, exec (.signalReceive l m) s = .next t ∧
      (t = modTsu s fun h => { h with pend := h.pend ++ [(l, m)] })) ∧
  (∀ (l : LinkId) (m : SignalP) (s : State),
    64 ≤ s.tsu.pend.length →
    ∃ t, exec (.signalReceive l m) s = .next t ∧
      t = refuse s .tsu .sync) ∧
  (∀ (l : LinkId) (m : SignalP) (s : State),
    s.tsu.pend = [(l, m)] →
    signalMet s m = true →
    ∃ t, exec .signalTakeEffect s = .next t ∧
      t.tsu.pend = [] ∧
      (t = taken (signalEffect (modTsu s fun h => { h with pend := [] }) m) l (.signal m))) ∧
  (∀ (l : LinkId) (m : ReleaseP) (k : BitVec 12) (s : State),
    m.timed = false →
    TsuRuns s m.job m.epoch →
    s.slotOf tyBarrier m.obj = some k →
    (extendStep m.step s.tsu.step.stepNow).isSome = true →
    m.gen = (s.slot k).regs.soGen.setWidth 16 →
    (s.slot k).regs.soValArrived = true →
    ∃ t, exec (.releaseReceive l m) s = .next t ∧
      t = taken (completeSlot s k) l (.release m) ∧
      (t.slot k).regs = { (s.slot k).regs with soGen := (s.slot k).regs.soGen + 1, soValArrived := false }) ∧
  (∀ (i : Iface) (data : Word) (s : State),
    Answers s i →
    i.part = .tsu →
    (s.hostWait (s.iface i).regs.waitSel).waitStatusResult ≠ 1 →
    (s.slot (getF data 48 12)).regs.soCfgType ≠ 0 →
    waitHolds (s.slot (getF data 48 12)).regs ((getF data 0 48 : BitVec 48).setWidth 64) = false →
    ∃ t, exec (.waitArm i data) s = .next t ∧
      (t.hostWait (s.iface i).regs.waitSel).waitStatusResult = 1 ∧
      (t.hostWait (s.iface i).regs.waitSel).waitArmSlot = getF data 48 12 ∧
      (t.hostWait (s.iface i).regs.waitSel).waitArmTarget = getF data 0 48 ∧
      (t = emit (modWait s (s.iface i).regs.waitSel fun _ => t.hostWait (s.iface i).regs.waitSel) (.writeAck i false))) ∧
  (∀ (i : Iface) (data : Word) (s : State),
    Answers s i →
    i.part = .tsu →
    (s.hostWait (s.iface i).regs.waitSel).waitStatusResult = 1 →
    ∃ t, exec (.waitCancel i data) s = .next t ∧
      (t.hostWait (s.iface i).regs.waitSel).waitStatusResult = 0 ∧
      (t = emit (modWait s (s.iface i).regs.waitSel fun _ => t.hostWait (s.iface i).regs.waitSel) (.writeAck i false))) ∧
  (∀ (n : BitVec 4) (s : State),
    (s.hostWait n).waitStatusResult = 1 →
    waitHolds (s.slot (s.hostWait n).waitArmSlot).regs ((s.hostWait n).waitArmTarget.setWidth 64) = true →
    ∃ t, exec (.waitComplete (some n)) s = .next t ∧
      (t.hostWait n).waitStatusResult = 2 ∧
      (t.hdr .tsu .sync).pageIntStatus.getLsbD n.toNat = true ∧
      (t.slot (s.hostWait n).waitArmSlot).regs = (s.slot (s.hostWait n).waitArmSlot).regs ∧
      t.hub = s.hub ∧
      Reported { s with tsu := { s.tsu with waits := t.tsu.waits, slots := t.tsu.slots } } t) ∧
  (∀ (n : BitVec 4) (s : State),
    (s.hostWait n).waitStatusResult = 1 →
    waitHolds (s.slot (s.hostWait n).waitArmSlot).regs ((s.hostWait n).waitArmTarget.setWidth 64) = false →
    ∃ t, exec (.waitTimeout (.host n)) s = .next t ∧
      (t.hostWait n).waitStatusResult = 3 ∧
      (t.hdr .tsu .sync).pageIntStatus.getLsbD n.toNat = true ∧
      Raised t .tsu 0x0001 0 ∧
      t.hub = s.hub ∧
      Reported { s with tsu := { s.tsu with waits := t.tsu.waits }, free := t.free } t)

/-- A flit with a reserved value is dropped as malformed (R13). A leaf hub that neither leads nor is fenced records a new
arrival of the job's epoch (R222), and the other home member sends it over TWIN (R40, R224), a hub of no home pair up
(R223); one whose STEP is too far is refused and counted (R67). The lead adds a partial's COUNT to its barrier, and at P
raises GEN and clears COUNT (R224, R225). The other member takes the lead's release (R225); a release that comes down is
replicated on the barrier's group (R42, R408). While the job is paused SH_GEN and SH_COUNT write the barrier, and
RELEASE_LEAD_NS takes 1,000 to 1,000,000 ns on a home member (R247, R249). -/
def Obligations.BarriersOnHubs : Prop :=
  (∀ (l : LinkId) (sender : BitVec 32) (dsn : Option (BitVec 32)) (m : ArriveP) (s : State),
    msgReserved (.arrive m) = false →
    l.part = .hub →
    NewUp s sender dsn →
    JobRuns s m.job m.epoch →
    s.isFenced m.job (s.epOf l) = false →
    (extendStep m.step (s.job m.job).step).isSome = true →
    tget none (s.job m.job).arrivals (arrivalKey (s.epOf l) m.obj) ≠ some m.gen →
    s.homesObj m.job m.obj = false ∨ (s.job m.job).leads = false →
    ∃ t, exec (.arriveReceive l sender dsn m) s = .next t ∧
      tget none (t.job m.job).arrivals (arrivalKey (s.epOf l) m.obj) = some m.gen ∧
      t.hub.synch = s.hub.synch ∧
      (t.job m.job).barriers = (s.job m.job).barriers ∧
      t.tsu = s.tsu ∧
      Reported { s with
        hub := { s.hub with
          flt := t.hub.flt, stranded := t.hub.stranded, ups := t.hub.ups, jobs := t.hub.jobs, synch := t.hub.synch,
          late := t.hub.late, ladle := t.hub.ladle, txn := t.hub.txn, dsnSeen := t.hub.dsnSeen } } t) ∧
  (∀ (l : LinkId) (sender : BitVec 32) (dsn : Option (BitVec 32)) (m : ArriveP) (s : State),
    msgReserved (.arrive m) = true →
    ∃ t, exec (.arriveReceive l sender dsn m) s = .next t ∧
      t = malformedFlit (taken s l (.arrive m)) l) ∧
  (∀ (l : LinkId) (sender : BitVec 32) (dsn : Option (BitVec 32)) (m : ArriveP) (s : State),
    msgReserved (.arrive m) = false →
    NewUp s sender dsn →
    (extendStep m.step (s.job m.job).step).isSome = true →
    s.homesObj m.job m.obj = true →
    (s.job m.job).leads = false →
    ∃ t, exec (.arrivePartialForward l sender dsn m) s = .next t ∧
      t = dsnAck (foldTwin (upTaken s l sender dsn (.arrive m)) m.job.toNat (.arrive m) (arriveInto m)) l sender dsn) ∧
  (∀ (l : LinkId) (sender : BitVec 32) (dsn : Option (BitVec 32)) (m : ArriveP) (s : State),
    msgReserved (.arrive m) = false →
    NewUp s sender dsn →
    (extendStep m.step (s.job m.job).step).isSome = true →
    s.homesObj m.job m.obj = false →
    ∃ t, exec (.arrivePartialForward l sender dsn m) s = .next t ∧
      t = dsnAck (foldOn (upTaken s l sender dsn (.arrive m)) m.job (flowObj m.obj) (.arrive m) (arriveInto m)) l sender dsn) ∧
  (∀ (l : LinkId) (sender : BitVec 32) (dsn : Option (BitVec 32)) (m : ArriveP) (s : State),
    msgReserved (.arrive m) = true →
    ∃ t, exec (.arrivePartialForward l sender dsn m) s = .next t ∧
      t = malformedFlit (taken s l (.arrive m)) l) ∧
  (∀ (l : LinkId) (sender : BitVec 32) (dsn : Option (BitVec 32)) (m : ArriveP) (s : State),
    msgReserved (.arrive m) = false →
    NewUp s sender dsn →
    s.holds m.job = true →
    extendStep m.step (s.job m.job).step = none →
    ∃ t, exec (.arrivePartialForward l sender dsn m) s = .next t ∧
      t = dsnAck (countStepRefused (upTaken s l sender dsn (.arrive m)) .hub m.step (s.job m.job).step) l sender dsn) ∧
  (∀ (l : LinkId) (sender : BitVec 32) (dsn : Option (BitVec 32)) (m : ArriveP) (x : Barrier) (s : State),
    msgReserved (.arrive m) = false →
    l.part = .hub →
    NewUp s sender dsn →
    JobRuns s m.job m.epoch →
    (extendStep m.step (s.job m.job).step).isSome = true →
    (s.job m.job).leads = true →
    s.barrier m.job m.obj = some x →
    m.gen = x.regs.shGen.setWidth 16 →
    x.regs.shCount.toNat + m.count.toNat < x.regs.shCfgPart.toNat →
    ∃ t, exec (.barrierPartialFold l sender dsn m) s = .next t ∧
      t.barrier m.job m.obj = some { x with regs := { x.regs with shCount := x.regs.shCount + m.count } } ∧
      (t.job m.job).steph = (s.job m.job).steph ∧
      t.hub.synch = s.hub.synch ∧
      t.tsu = s.tsu ∧
      Reported { s with
        hub := { s.hub with
          flt := t.hub.flt, ups := t.hub.ups, jobs := t.hub.jobs, synch := t.hub.synch, ladle := t.hub.ladle, txn := t.hub.txn,
          dsnSeen := t.hub.dsnSeen } } t) ∧
  (∀ (l : LinkId) (sender : BitVec 32) (dsn : Option (BitVec 32)) (m : ArriveP) (x : Barrier) (s : State),
    msgReserved (.arrive m) = false →
    l.part = .hub →
    NewUp s sender dsn →
    JobRuns s m.job m.epoch →
    (extendStep m.step (s.job m.job).step).isSome = true →
    (s.job m.job).leads = true →
    s.barrier m.job m.obj = some x →
    m.gen = x.regs.shGen.setWidth 16 →
    x.regs.shCount.toNat + m.count.toNat = x.regs.shCfgPart.toNat →
    m.obj ≠ (s.job m.job).stepObj →
    ∃ t, exec (.barrierPartialFold l sender dsn m) s = .next t ∧
      t.barrier m.job m.obj = some { x with regs := { x.regs with shGen := x.regs.shGen + 1, shCount := 0 } } ∧
      (t.job m.job).steph = (s.job m.job).steph ∧
      t.tsu = s.tsu ∧
      Reported { s with
        hub := { s.hub with
          flt := t.hub.flt, ups := t.hub.ups, jobs := t.hub.jobs, synch := t.hub.synch, ladle := t.hub.ladle, txn := t.hub.txn,
          dsnSeen := t.hub.dsnSeen } } t) ∧
  (∀ (l : LinkId) (sender : BitVec 32) (dsn : Option (BitVec 32)) (m : ArriveP) (s : State),
    msgReserved (.arrive m) = true →
    ∃ t, exec (.barrierPartialFold l sender dsn m) s = .next t ∧
      t = malformedFlit (taken s l (.arrive m)) l) ∧
  (∀ (l : LinkId) (m : ReleaseP) (x : Barrier) (s : State),
    l.part = .hub →
    JobRuns s m.job m.epoch →
    (extendStep m.step (s.job m.job).step).isSome = true →
    m.timed = false ∨ s.valid .hub = true →
    s.barrier m.job m.obj = some x →
    m.gen = x.regs.shGen.setWidth 16 →
    ∃ t, exec (.twinReleaseReceive l m) s = .next t ∧
      t.barrier m.job m.obj = some { x with regs := { x.regs with shGen := x.regs.shGen + 1, shCount := 0 } } ∧
      t.tsu = s.tsu ∧
      Reported { s with
        hub := { s.hub with flt := t.hub.flt, jobs := t.hub.jobs, ladle := t.hub.ladle, txn := t.hub.txn } } t) ∧
  (∀ (l : LinkId) (m : ReleaseP) (s : State),
    s.isTwin l = false →
    m.timed = false ∨ s.valid .hub = true →
    JobRuns s m.job m.epoch →
    (extendStep m.step (s.job m.job).step).isSome = true →
    ∃ t, exec (.releaseReplicate l (.release m)) s = .next t ∧
      t = ladleObj (seeRelease (taken s l (.release m)) m.job m.obj m.gen) m.job m.obj (.release m)) ∧
  (∀ (l : LinkId) (m : PauseMarkP) (s : State),
    JobRuns s m.job m.epoch →
    (extendStep m.step (s.job m.job).step).isSome = true →
    ∃ t, exec (.releaseReplicate l (.pauseMark m)) s = .next t ∧
      (t = pauseFollow (ladleAll (modJob (taken s l (.pauseMark m)) m.job fun b => { b with marked := true }) m.job (.pauseMark
        m)) m.job)) ∧
  (∀ (i : Iface) (data : Word) (x : Barrier) (s : State),
    Answers s i →
    i.part = .hub →
    s.jobPaused (s.iface i).regs.shSelJob = true →
    s.barrier (s.iface i).regs.shSelJob (s.iface i).regs.shSelObj = some x →
    ∃ t, exec (.shGenWrite i data) s = .next t ∧
      t.barrier (s.iface i).regs.shSelJob (s.iface i).regs.shSelObj = some { x with regs := { x.regs with shGen := data } } ∧
      (t = emit (modBarrier s (s.iface i).regs.shSelJob (s.iface i).regs.shSelObj fun r => { r with shGen := data }) (.writeAck
        i false))) ∧
  (∀ (i : Iface) (data : Word) (x : Barrier) (s : State),
    Answers s i →
    i.part = .hub →
    s.jobPaused (s.iface i).regs.shSelJob = true →
    s.barrier (s.iface i).regs.shSelJob (s.iface i).regs.shSelObj = some x →
    (getF data 0 19 : BitVec 19).toNat < x.regs.shCfgPart.toNat →
    ∃ t, exec (.shCountWrite i data) s = .next t ∧
      t.barrier (s.iface i).regs.shSelJob (s.iface i).regs.shSelObj = some { x with
        regs := { x.regs with shCount := getF data 0 19 } } ∧
      (t = emit (modBarrier s (s.iface i).regs.shSelJob (s.iface i).regs.shSelObj fun r =>
        { r with shCount := getF data 0 19 }) (.writeAck i false))) ∧
  (∀ (i : Iface) (data : Word) (s : State),
    Answers s i →
    i.part = .hub →
    s.isHome (s.iface i).regs.shSelJob = true →
    1000 ≤ (getF data 0 32 : BitVec 32).toNat ∧ (getF data 0 32 : BitVec 32).toNat ≤ 1000000 →
    ∃ t, exec (.releaseLeadNsWrite i data) s = .next t ∧
      (t.job (s.iface i).regs.shSelJob).releaseLead = getF data 0 32 ∧
      t.out.getLast? = some (.writeAck i false) ∧
      t.tsu = s.tsu ∧
      Reported { s with hub := { s.hub with jobs := t.hub.jobs } } t)

/-- A full set of 2^K samples is reduced and begins again with SET_SEQ counted (R269); a full block of 256 takes its mean,
and a mean above a threshold that is set flags the rank with EV_STRAGGLER (R270). LT_CFG with K up to 20 for a rank served
begins its statistics anew (R269), and a read of LT_MEAN latches the rest of the set (R274). A trigger's settings are
written while it is disabled and its period allows them, and ONESHOT schedules a pulse that R64 accepts (R266). -/
def Obligations.LatenessAndTriggers : Prop :=
  (∀ (job : BitVec 12) (rank : BitVec 20) (s : State),
    (s.lateOf job rank).set.length = 2 ^ (s.lateOf job rank).regs.ltCfgK.toNat →
    ∃ t, exec (.latenessSetEnd job rank) s = .next t ∧
      (t.lateOf job rank).set = [] ∧
      (t.lateOf job rank).regs.ltStatusSamples = 0 ∧
      (t.lateOf job rank).regs.ltStatusSetSeq = (s.lateOf job rank).regs.ltStatusSetSeq + 1 ∧
      (t = modLate s job rank fun _ => t.lateOf job rank)) ∧
  (∀ (job : BitVec 12) (rank : BitVec 20) (s : State),
    (s.lateOf job rank).regs.ltBlockFill.toNat = 256 →
    (s.lateOf job rank).regs.ltCfgThreshNs ≠ 0 →
    (s.lateOf job rank).regs.ltCfgThreshNs.toNat < (s.lateOf job rank).blockSum / 256 →
    (s.lateOf job rank).regs.ltStatusStraggler = false →
    ∃ t, exec (.latenessBlockEnd job rank) s = .next t ∧
      (t.lateOf job rank).regs.ltBlockFill = 0 ∧
      (t.lateOf job rank).regs.ltBlockBlockMean = satNat 32 ((s.lateOf job rank).blockSum / 256) ∧
      (t.lateOf job rank).regs.ltStatusStraggler = true ∧
      Raised t .hub 0x0021 0 ∧
      Reported { s with hub := { s.hub with jobs := t.hub.jobs } } t) ∧
  (∀ (i : Iface) (data : Word) (e : BitVec 24) (s : State),
    Answers s i →
    i.part = .hub →
    (getF data 0 5 : BitVec 5).toNat ≤ 20 →
    s.rankEp (s.iface i).regs.ltSelJob (s.iface i).regs.ltSelRank = some e →
    s.serves e = true →
    ∃ t, exec (.ltCfgWrite i data) s = .next t ∧
      (t = emit (modLate s (s.iface i).regs.ltSelJob (s.iface i).regs.ltSelRank fun _ => {
        regs := { ltCfgThreshNs := getF data 32 32, ltCfgK := getF data 0 5 } }) (.writeAck i false))) ∧
  (∀ (i : Iface) (s : State),
    Answers s i →
    i.part = .hub →
    ∃ t, exec (.ltMeanRead i) s = .next t ∧
      t.out = s.out ++ [.readData i ((s.lateOf (s.iface i).regs.ltSelJob (s.iface i).regs.ltSelRank).regs.ltMean.setWidth 64)] ∧
      (t.iface i).regs.ltStdev = (s.lateOf (s.iface i).regs.ltSelJob (s.iface i).regs.ltSelRank).regs.ltStdev ∧
      (t.iface i).regs.ltMin = (s.lateOf (s.iface i).regs.ltSelJob (s.iface i).regs.ltSelRank).regs.ltMin ∧
      (t.iface i).regs.ltMax = (s.lateOf (s.iface i).regs.ltSelJob (s.iface i).regs.ltSelRank).regs.ltMax ∧
      t.hub.jobs = s.hub.jobs ∧
      Reported { s with
        hub := { s.hub with sh := { s.hub.sh with ifaces := t.hub.sh.ifaces } },
        tsu := { s.tsu with sh := { s.tsu.sh with ifaces := t.tsu.sh.ifaces } } } t) ∧
  (∀ (i : Iface) (data : Word) (s : State),
    Answers s i →
    i.part = .tsu →
    (s.iface i).regs.ioSelDir = true →
    s.tsu.evt.trigCtrlEn.getLsbD (s.iface i).regs.ioSelIndex.toNat = false →
    (getF data 0 3 : BitVec 3).toNat ≤ 4 →
    periodOk ((s.trig (s.iface i).regs.ioSelIndex).regs.write 0x080 data) = true →
    ∃ t, exec (.trigModeWrite i data) s = .next t ∧
      (t.trig (s.iface i).regs.ioSelIndex).regs.trigMode = getF data 0 3 ∧
      (t = emit (modTrig s (s.iface i).regs.ioSelIndex fun x => { x with
        regs := x.regs.write 0x080 data, lastK := none }) (.writeAck i false))) ∧
  (∀ (i : Iface) (which : BitVec 2) (data : Word) (s : State),
    Answers s i →
    i.part = .tsu →
    which = 0 →
    (s.iface i).regs.ioSelDir = true →
    s.tsu.evt.trigCtrlEn.getLsbD (s.iface i).regs.ioSelIndex.toNat = false →
    (getF data 0 32 : BitVec 32).toNat ≤ 1000000000 →
    (s.trig (s.iface i).regs.ioSelIndex).regs.trigMode ≠ 2 →
    ∃ t, exec (.trigParamWrite i which data) s = .next t ∧
      (t.trig (s.iface i).regs.ioSelIndex).regs.trigOffset = getF data 0 32 ∧
      (t = emit (modTrig s (s.iface i).regs.ioSelIndex fun x => { x with
        regs := x.regs.write 0x088 data, lastK := none }) (.writeAck i false))) ∧
  (∀ (i : Iface) (data : Word) (s : State),
    Answers s i →
    i.part = .tsu →
    (s.iface i).regs.ioSelDir = true →
    (s.trig (s.iface i).regs.ioSelIndex).regs.trigMode = 3 →
    s.valid .tsu = true →
    tickTest data (s.now .tsu) = .inWindow →
    (s.trig (s.iface i).regs.ioSelIndex).pend = [] →
    ∃ t, exec (.trigOneshotWrite i data) s = .next t ∧
      (t.trig (s.iface i).regs.ioSelIndex).pend = [(.oneshot, data)] ∧
      (t = emit (modTrig s (s.iface i).regs.ioSelIndex fun x => { x with pend := [(.oneshot, data)] }) (.writeAck i false)))

/-- The first STEP_RELEASE of the next step, in time by GUARD_NS, is held as the launch with its tick, LATE, REBASED and lag
(R251, R260). At the tick the TSU's step index and last launch are its own, the held launch is gone, results are freed and
the pass of the TSU section starts at address 0 (R261, R286, R294); so too the first launch (R254). The home takes the step
index as it launches, and its engine starts (R286). A LAUNCH with no COMMIT by L0 - GUARD_NS is discarded, missed and
counted (R251, R252). -/
def Obligations.Launches : Prop :=
  (∀ (l : LinkId) (m : StepReleaseP) (x : Tick) (s : State),
    l.part = .tsu →
    s.valid .tsu = true →
    TsuRuns s m.job m.epoch →
    extendStep m.step s.tsu.step.stepNow = some (s.tsu.step.stepNow + 1) →
    (s.tsu.rel.filter fun f => f.step == m.step) = none →
    extendWire m.tick (s.now .tsu) = some x →
    tickTest x (s.now .tsu) = .inWindow →
    inGuard s x = true →
    ∃ t, exec (.stepReleaseReceive l m) s = .next t ∧
      t.tsu.launch = some { tick := x, step := s.tsu.step.stepNow + 1 } ∧
      t.tsu.rel = some m ∧
      t.tsu.step.stepNext = x ∧
      t.tsu.step.stepStatusNextValid = true ∧
      t.tsu.step.stepStatusLate = m.late ∧ t.tsu.step.stepStatusRebased = m.rebased ∧ t.tsu.step.stepStatusLagNs = m.lag ∧
      t.tsu.step.stepNow = s.tsu.step.stepNow ∧
      t.hub = s.hub ∧
      Reported { s with
        hub := { s.hub with sh := { s.hub.sh with tb := t.hub.sh.tb } },
        tsu := { s.tsu with
          txnt := t.tsu.txnt, step := t.tsu.step, trigs := t.tsu.trigs, tapPage := t.tsu.tapPage, taps := t.tsu.taps,
          lid := t.tsu.lid, rel := t.tsu.rel, launch := t.tsu.launch, sh := { s.tsu.sh with tb := t.tsu.sh.tb } } } t) ∧
  (∀ (h : HeldLaunch) (s : State),
    launchDueNow s false = some h →
    s.tsu.seq.regs.seqStatusState = 0 →
    ∃ t, exec .stepLaunch s = .next t ∧
      t.tsu.step.stepNow = h.step ∧
      t.tsu.step.stepLast = h.tick ∧
      t.tsu.launch = none ∧ t.tsu.rel = s.tsu.rel ∧ t.tsu.store = [] ∧
      t.tsu.seq.regs.seqStatusState = 1 ∧ t.tsu.seq.regs.seqStatusPc = 0 ∧
      t.tsu.seq.step = h.step ∧ t.tsu.seq.launch = h.tick ∧ t.tsu.seq.xs = [] ∧
      t.hub.jobs = s.hub.jobs ∧
      Reported { s with
        tsu := { s.tsu with
          step := t.tsu.step, seq := t.tsu.seq, ovf := t.tsu.ovf, store := t.tsu.store, badCopies := t.tsu.badCopies,
          digt := t.tsu.digt, issued := t.tsu.issued, acc0 := t.tsu.acc0, acc1 := t.tsu.acc1, launch := t.tsu.launch,
          launched := true, joined := t.tsu.joined, missed := t.tsu.missed } } t) ∧
  (∀ (h : HeldLaunch) (s : State),
    launchDueNow s true = some h →
    s.tsu.seq.regs.seqStatusState = 0 →
    ∃ t, exec (.jobLaunch .tsu) s = .next t ∧
      t.tsu.step.stepNow = h.step ∧
      t.tsu.step.stepLast = h.tick ∧
      t.tsu.launch = none ∧ t.tsu.rel = none ∧ t.tsu.store = [] ∧
      t.tsu.seq.regs.seqStatusState = 1 ∧ t.tsu.seq.regs.seqStatusPc = 0 ∧
      t.hub.jobs = s.hub.jobs ∧
      Reported { s with
        tsu := { s.tsu with
          step := t.tsu.step, seq := t.tsu.seq, ovf := t.tsu.ovf, store := t.tsu.store, badCopies := t.tsu.badCopies,
          digt := t.tsu.digt, issued := t.tsu.issued, acc0 := t.tsu.acc0, acc1 := t.tsu.acc1, rel := t.tsu.rel,
          launch := t.tsu.launch, launched := true, joined := t.tsu.joined, missed := t.tsu.missed } } t) ∧
  (∀ (j : BitVec 12) (h : HeldLaunch) (s : State),
    homeDueNow s j true = some h →
    ∃ t, exec (.jobLaunch (.home j)) s = .next t ∧
      (t.job j).step = h.step ∧
      (t.job j).nextLaunch = none ∧
      t.tsu = s.tsu ∧
      ((s.job j).seq.running = false → Reported { s with hub := { s.hub with jobs := t.hub.jobs } } t)) ∧
  (∀ (job : BitVec 12) (h : HeldLaunch) (s : State),
    homeDueNow s job false = some h →
    (s.job job).seq.loaded = true →
    (s.job job).seq.len (.home job) ≠ 0 →
    (s.job job).seq.regs.seqStatusState = 0 →
    ∃ t, exec (.homePassStart job) s = .next t ∧
      (t.job job).step = h.step ∧
      (t.job job).nextLaunch = none ∧
      (t.job job).seq.regs.seqStatusState = 1 ∧ (t.job job).seq.regs.seqStatusPc = 0 ∧
      (t.job job).seq.step = h.step ∧ (t.job job).seq.launch = h.tick ∧ (t.job job).seq.xs = [] ∧
      (t.job job).closed = false ∧
      t.tsu = s.tsu ∧
      Reported { s with hub := { s.hub with jobs := t.hub.jobs } } t) ∧
  (∀ (g : Staged) (a : LaunchAct) (s : State),
    s.stagedAt .tsu (s.tsu.txnt.ttJob.setWidth 13) = some g →
    g.kind = 2 →
    g.committed = false →
    launchAct g.share = some a →
    inGuard s a.l0 = false →
    ∃ t, exec .launchGuardMiss s = .next t ∧
      t.stagedAt .tsu (s.tsu.txnt.ttJob.setWidth 13) = none ∧
      t.tsu.step.stepErrLaunchMiss = satInc s.tsu.step.stepErrLaunchMiss ∧
      (t.hdr .tsu .step).pageIntStatus.getLsbD 1 = true ∧
      t.hub = s.hub ∧
      Reported { s with
        hub := { s.hub with staged := t.hub.staged }, tsu := { s.tsu with step := t.tsu.step, staged := t.tsu.staged } } t)

/-- BEGIN, where it is not refused, makes the program LOADING with no word, and COMMIT makes it CHECKING (R277). A word
written while LOADING goes to PROG_ADDR with its reserved bits clear, which advances with the count of words (R277);
PROG_ADDR takes an address of the stream. A check that passes makes the program LOADED and gives its digest over the words
(R278, R279); one that fails makes it EMPTY with the first cause and address (R278). -/
def Obligations.LoadingAProgram : Prop :=
  (∀ (i : Iface) (data : Word) (s : State),
    Answers s i →
    getB data 62 = false →
    (s.seq (s.progSite i)).regs.progStatusState ≠ 2 →
    beginRefused s (s.progSite i) = false →
    ∃ t, exec (.progBegin i data) s = .next t ∧
      (t.seq (s.progSite i)).regs.progStatusState = 1 ∧
      (t.seq (s.progSite i)).words = [] ∧ (t.seq (s.progSite i)).regs.progStatusWords = 0 ∧
        (t.seq (s.progSite i)).regs.progAddr = 0 ∧
      (t = emit (modSeq s (s.progSite i) fun _ => t.seq (s.progSite i)) (.writeAck i false))) ∧
  (∀ (i : Iface) (data : Word) (s : State),
    Answers s i →
    getB data 63 = false →
    (s.seq (s.progSite i)).regs.progStatusState = 1 →
    ∃ t, exec (.progCommit i data) s = .next t ∧
      (t = emit (modSeqRegs s (s.progSite i) fun r => { r with progStatusState := 2 }) (.writeAck i false))) ∧
  (∀ (i : Iface) (data : Word) (s : State),
    Answers s i →
    (s.seq (s.progSite i)).regs.progStatusState = 1 →
    (s.seq (s.progSite i)).regs.progAddr.toNat ≤ progMax (s.progSite i) →
    ∃ t, exec (.progDataWrite i data) s = .next t ∧
      (t.seq (s.progSite i)).at (s.seq (s.progSite i)).regs.progAddr.toNat =
        loadWord (s.seq (s.progSite i)).regs.progAddr.toNat data ∧
      (t.seq (s.progSite i)).regs.progAddr = (s.seq (s.progSite i)).regs.progAddr + 1 ∧
      (t.seq (s.progSite i)).regs.progStatusWords.toNat = max (s.seq (s.progSite i)).regs.progStatusWords.toNat ((s.seq
        (s.progSite i)).regs.progAddr.toNat + 1) ∧
      (t = emit (modSeq s (s.progSite i) fun _ => t.seq (s.progSite i)) (.writeAck i false))) ∧
  (∀ (i : Iface) (data : Word) (s : State),
    Answers s i →
    (s.seq (s.progSite i)).regs.progStatusState ≠ 2 →
    (getF data 0 15 : BitVec 15).toNat ≤ progMax (s.progSite i) →
    ∃ t, exec (.progAddrWrite i data) s = .next t ∧
      (t = emit (modSeqRegs s (s.progSite i) fun r => { r with progAddr := getF data 0 15 }) (.writeAck i false))) ∧
  (∀ (s : State),
    s.tsu.seq.regs.progStatusState = 2 →
    (progCheck .tsu s.tsu.seq (0, 0)).1 = 0 →
    ∃ t, exec (.progCheckDone .tsu) s = .next t ∧
      t.tsu.seq.regs.progStatusState = 3 ∧ t.tsu.seq.regs.progStatusResult = 0 ∧
      (t.tsu.seq.digest = sha384 ((List.range s.tsu.seq.regs.progStatusWords.toNat).flatMap fun a => bvBytes 8 (s.tsu.seq.at
        a))) ∧
      t.tsu.seq.words = s.tsu.seq.words ∧
      (t.hdr .tsu .seq).pageIntStatus.getLsbD 0 = true ∧
      t.hub = s.hub ∧
      Reported { s with hub := { s.hub with jobs := t.hub.jobs }, tsu := { s.tsu with seq := t.tsu.seq } } t) ∧
  (∀ (s : State),
    s.tsu.seq.regs.progStatusState = 2 →
    (progCheck .tsu s.tsu.seq (0, 0)).1 ≠ 0 →
    ∃ t, exec (.progCheckDone .tsu) s = .next t ∧
      t.tsu.seq.regs.progStatusState = 0 ∧ t.tsu.seq.words = [] ∧
      t.tsu.seq.regs.progStatusResult = BitVec.ofNat 4 (progCheck .tsu s.tsu.seq (0, 0)).1 ∧
      t.tsu.seq.regs.progStatusFaultAddr = BitVec.ofNat 14 (progCheck .tsu s.tsu.seq (0, 0)).2 ∧
      t.hub = s.hub ∧
      Reported { s with hub := { s.hub with jobs := t.hub.jobs }, tsu := { s.tsu with seq := t.tsu.seq } } t)

/-- Each word at PC is issued once: PC moves on, a VARY word sets its bit of the pass map, and the word changes its engine
alone (R281, R282, R284). NOP does nothing more; JMP, a BR whose condition holds and a LOOP whose count is not 0 go to their
target; LDI, LDHI, ALU, LDSTEP, LDRANK, WHISK, LDTIME, LDLAUNCH, LDEVT, LDSO and LDBUF write X[A], with X0 discarding writes
(R281); STBUF writes XBUF, and waits in a cycle in which a CONTRIB or DIGEST reads the word (R290). On the TSU a word gives
way to the link accesses of its island cycle (R288). -/
def Obligations.ControlWords : Prop :=
  (∀ (site : Site) (s : State),
    AtWord s site 0x00 →
    ∃ t, exec (.nop site) s = .next t ∧
      t = issuedAt s site) ∧
  (∀ (s : State),
    s.wordWaits = true →
    ∃ t, exec (.nop .tsu) s = .next t ∧
      (t = modTsu s fun h => { h with lateWords := h.lateWords ++ [0] })) ∧
  (∀ (site : Site) (s : State),
    AtWord s site 0x02 →
    ∃ t, exec (.jmp site) s = .next t ∧
      (t = modSeqRegs (issuedAt s site) site fun r => { r with seqStatusPc := iTarget (s.seq site).word })) ∧
  (∀ (site : Site) (s : State),
    AtWord s site 0x03 →
    brTaken (iFn (s.seq site).word) ((s.seq site).x (iA (s.seq site).word)) ((s.seq site).x (iB (s.seq site).word)) = true →
    ∃ t, exec (.br site) s = .next t ∧
      (t = modSeqRegs (issuedAt s site) site fun r => { r with seqStatusPc := iTarget (s.seq site).word })) ∧
  (∀ (site : Site) (s : State),
    AtWord s site 0x03 →
    brTaken (iFn (s.seq site).word) ((s.seq site).x (iA (s.seq site).word)) ((s.seq site).x (iB (s.seq site).word)) = false →
    ∃ t, exec (.br site) s = .next t ∧
      t = issuedAt s site) ∧
  (∀ (site : Site) (s : State),
    AtWord s site 0x04 →
    Live s site →
    iA (s.seq site).word ≠ 0 →
    (s.seq site).x (iA (s.seq site).word) ≠ 1 →
    ∃ t, exec (.loop site) s = .next t ∧
      (t = modSeq (issuedAt s site) site fun q =>
        { q.setX (iA (s.seq site).word) ((s.seq site).x (iA (s.seq site).word) - 1) with regs := { q.regs with
          seqStatusPc := iTarget (s.seq site).word } })) ∧
  (∀ (site : Site) (s : State),
    AtWord s site 0x10 →
    Live s site →
    ∃ t, exec (.ldi site) s = .next t ∧
      (t = modSeq (issuedAt s site) site fun q => q.setX (iA (s.seq site).word) ((getF (s.seq site).word 0 44 : BitVec
        44).signExtend 64))) ∧
  (∀ (site : Site) (s : State),
    AtWord s site 0x11 →
    Live s site →
    ∃ t, exec (.ldhi site) s = .next t ∧
      (t = modSeq (issuedAt s site) site fun q => q.setX (iA (s.seq site).word) ((getF (s.seq site).word 0 20 : BitVec 20) ++
        ((s.seq site).x (iA (s.seq site).word)).extractLsb' 0 44))) ∧
  (∀ (site : Site) (s : State),
    AtWord s site 0x12 →
    Live s site →
    ∃ t, exec (.alu site) s = .next t ∧
      (t = modSeq (issuedAt s site) site fun q => q.setX (iA (s.seq site).word) (aluFn (iFn (s.seq site).word) ((s.seq site).x
        (iA (s.seq site).word)) ((s.seq site).x (iB (s.seq site).word) + iImm32 (s.seq site).word)))) ∧
  (∀ (site : Site) (s : State),
    AtWord s site 0x13 →
    Live s site →
    ∃ t, exec (.ldstep site) s = .next t ∧
      (t = modSeq (issuedAt s site) site fun q => q.setX (iA (s.seq site).word) (s.seq site).step)) ∧
  (∀ (site : Site) (s : State),
    AtWord s site 0x14 →
    Live s site →
    ∃ t, exec (.ldrank site) s = .next t ∧
      (t = modSeq (issuedAt s site) site fun q => q.setX (iA (s.seq site).word) (s.tsu.rank.setWidth 64))) ∧
  (∀ (site : Site) (s : State),
    AtWord s site 0x15 →
    Live s site →
    ∃ t, exec (.whisk site) s = .next t ∧
      (t = modSeq (issuedAt s site) site fun q => q.setX (iA (s.seq site).word) (whiskLow (s.seedOf site) (s.seq site).step
        (getF (s.seq site).word 0 16) ((s.seq site).x (iB (s.seq site).word))))) ∧
  (∀ (site : Site) (s : State),
    AtWord s site 0x16 →
    Live s site →
    ∃ t, exec (.ldtime site) s = .next t ∧
      (t = modSeq (issuedAt s site) site fun q => q.setX (iA (s.seq site).word) (s.now (sitePart site)))) ∧
  (∀ (site : Site) (s : State),
    AtWord s site 0x17 →
    Live s site →
    ∃ t, exec (.ldlaunch site) s = .next t ∧
      (t = modSeq (issuedAt s site) site fun q => q.setX (iA (s.seq site).word) (s.seq site).launch)) ∧
  (∀ (site : Site) (s : State),
    AtWord s site 0x18 →
    Live s site →
    ∃ t, exec (.ldevt site) s = .next t ∧
      (t = modSeq (issuedAt s site) site fun q => q.setX (iA (s.seq site).word) (s.evtLine (iEvt (s.seq
        site).word)).regs.evtLast)) ∧
  (∀ (site : Site) (s : State),
    AtWord s site 0x19 →
    Live s site →
    ∃ t, exec (.ldso site) s = .next t ∧
      (t = modSeq (issuedAt s site) site fun q => q.setX (iA (s.seq site).word) (if (s.slot (iSlot (s.seq
        site).word)).regs.soCfgType = tyBarrier then (s.slot (iSlot (s.seq site).word)).regs.soGen else (s.slot (iSlot (s.seq
          site).word)).regs.soValValue.setWidth 64))) ∧
  (∀ (site : Site) (s : State),
    AtWord s site 0x1A →
    Live s site →
    (s.seq site).bufAddr (s.seq site).word < 8192 →
    ∃ t, exec (.ldbuf site) s = .next t ∧
      (t = modSeq (issuedAt s site) site fun q => q.setX (iA (s.seq site).word) (s.xbufAt ((s.seq site).bufAddr (s.seq
        site).word)))) ∧
  (∀ (site : Site) (s : State),
    AtWord s site 0x1B →
    Live s site →
    s.xbufRead ((s.seq site).bufAddr (s.seq site).word) 1 = false →
    (s.seq site).bufAddr (s.seq site).word < 8192 →
    ∃ t, exec (.stbuf site) s = .next t ∧
      t = setXbuf (issuedAt s site) ((s.seq site).bufAddr (s.seq site).word) ((s.seq site).x (iA (s.seq site).word)) ∧
      t.xbufAt ((s.seq site).bufAddr (s.seq site).word) = (s.seq site).x (iA (s.seq site).word)) ∧
  (∀ (site : Site) (s : State),
    s.xbufRead ((s.seq site).bufAddr (s.seq site).word) 1 = true →
    ∃ t, exec (.stbuf site) s = .next t ∧
      t = s)

/-- ARRIVE, SOADD, SOSET, SOCLR and OPENWIN do on a slot or window what the host's operation does, and the engine goes on
(R220, R230, R237, R282); SEND queues its SIGNAL with its covers (R232 to R234); TRIG schedules a pulse of a PROGRAM-mode
output at the launch tick plus its value (R265). STEPEND of STEP_OBJ's slot arrives on it and ends the pass: the engine is
idle and VARY_STEP shows the pass map (R282, R284); END ends the home's pass (R282, R325). -/
def Obligations.SyncWords : Prop :=
  (∀ (site : Site) (s : State),
    AtWord s site 0x20 →
    s.stepSlot ≠ some (iSlot (s.seq site).word) →
    (s.slot (iSlot (s.seq site).word)).regs.soCfgType = tyBarrier →
    (s.slot (iSlot (s.seq site).word)).regs.soValArrived = false →
    ∃ t, exec (.arrive site) s = .next t ∧
      t = (slotArrive (issuedAt s site) (iSlot (s.seq site).word)).2 ∧
      (t.slot (iSlot (s.seq site).word)).regs = { (s.slot (iSlot (s.seq site).word)).regs with soValArrived := true } ∧
      t.seq site = (s.seq site).advance) ∧
  (∀ (site : Site) (s : State),
    AtWord s site 0x21 →
    (s.slot (iSlot (s.seq site).word)).regs.soCfgType = tyCounter →
    (s.slot (iSlot (s.seq site).word)).regs.soValValue.toNat + ((s.seq site).v (s.seq site).word).toNat < 2 ^ 48 - 1 →
    ∃ t, exec (.soadd site) s = .next t ∧
      (t = modSlotRegs (issuedAt s site) (iSlot (s.seq site).word) fun r => { r with
        soValValue := r.soValValue + ((s.seq site).v (s.seq site).word).setWidth 48 })) ∧
  (∀ (site : Site) (s : State),
    AtWord s site 0x22 →
    (s.slot (iSlot (s.seq site).word)).regs.soCfgType = tyCounter →
    ((s.seq site).v (s.seq site).word).toNat < 2 ^ 48 - 1 →
    ∃ t, exec (.soset site) s = .next t ∧
      (t = modSlotRegs (issuedAt s site) (iSlot (s.seq site).word) fun r => { r with
        soValValue := ((s.seq site).v (s.seq site).word).setWidth 48 })) ∧
  (∀ (site : Site) (s : State),
    AtWord s site 0x23 →
    (s.slot (iSlot (s.seq site).word)).regs.soCfgType = tyFlag →
    ∃ t, exec (.soclr site) s = .next t ∧
      (t = modSlotRegs (issuedAt s site) (iSlot (s.seq site).word) fun r => { r with
        soValValue := 0, soValSaturated := false })) ∧
  (∀ (site : Site) (s : State),
    AtWord s site 0x24 →
    s.winPending (getF (s.seq site).word 6 2) (getF (s.seq site).word 0 6) = 0 →
    ∃ t, exec (.openwin site) s = .next t ∧
      t = openWindow (issuedAt s site) (getF (s.seq site).word 6 2) (getF (s.seq site).word 0 6) (s.ingress (getF (s.seq
        site).word 6 2))) ∧
  (∀ (site : Site) (r : SyncRegs) (s : State),
    AtWord s site 0x26 →
    r = (({} : SyncRegs).write 0x070 ((s.seq site).x (iA (s.seq site).word))).write 0x078 ((s.seq site).x (iB (s.seq
      site).word)) →
    s.tsuHasJob = true →
    r.sigDestFmask ≠ 0 ∨ r.sigTokenBytes = 0 →
    r.sigDestRank.toNat < s.tsu.members.toNat →
    s.tsu.sends.length < 16 →
    s.tsu.heldSends = [] →
    ∃ t, exec (.send site) s = .next t ∧
      (t = modTsu (issuedAt s site) fun h => { h with
        sends := h.sends ++ [{
          rank := r.sigDestRank, obj := r.sigDestObj, amount := r.sigDestAmount, fmask := r.sigDestFmask,
          chan := r.sigTokenChan, window := r.sigTokenWindow, bytes := r.sigTokenBytes, cover := s.covers }] })) ∧
  (∀ (site : Site) (s : State),
    AtWord s site 0x2A →
    (s.trig (getF (s.seq site).word 32 4)).regs.trigMode = 4 →
    s.valid .tsu = true →
    tickTest ((s.seq site).launch + (s.seq site).v (s.seq site).word) (s.now .tsu) = .inWindow →
    (s.trig (getF (s.seq site).word 32 4)).pend.length < 4 →
    ∃ t, exec (.trig site) s = .next t ∧
      (t = modTrig (issuedAt s site) (getF (s.seq site).word 32 4) fun x => { x with
        pend := x.pend ++ [(.program, (s.seq site).launch + (s.seq site).v (s.seq site).word)] })) ∧
  (∀ (s : State),
    AtWord s .tsu 0x2B →
    s.stepSlot = some (iSlot s.tsu.seq.word) →
    (s.slot (iSlot s.tsu.seq.word)).regs.soCfgType = tyBarrier →
    (s.slot (iSlot s.tsu.seq.word)).regs.soValArrived = false →
    ∃ t, exec (.stepend .tsu) s = .next t ∧
      (t.slot (iSlot s.tsu.seq.word)).regs.soValArrived = true ∧
      t.tsu.seq.regs.seqStatusState = 0 ∧
      t.tsu.seq.wait = none ∧
      t.tsu.seq.mapStep = s.tsu.seq.advance.map ∧
      t.tsu.seq.mapRun = s.tsu.seq.mapRun ||| s.tsu.seq.advance.map ∧
      t.hub = s.hub ∧
      Reported { s with
        hub := { s.hub with
          jobs := t.hub.jobs, aud := t.hub.aud, audRing := t.hub.audRing, txns := t.hub.txns, queue := t.hub.queue,
          finished := t.hub.finished, locks := t.hub.locks, staged := t.hub.staged },
        tsu := { s.tsu with slots := t.tsu.slots, seq := t.tsu.seq, staged := t.tsu.staged } } t) ∧
  (∀ (j : BitVec 12) (s : State),
    AtWord s (.home j) 0x01 →
    (s.job j).seq.next = none →
    (s.job j).regs.jobStatusState = 2 →
    ∃ t, exec (.endPass (.home j)) s = .next t ∧
      (t.job j).seq.regs.seqStatusState = 0 ∧
      (t.job j).seq.wait = none ∧
      (t.job j).seq.mapStep = (s.job j).seq.advance.map ∧
      ((t.job j).folds = (s.job j).folds.filter fun f => decide ((s.job j).seq.step.toNat < f.step.toNat)) ∧
      t.tsu = s.tsu ∧
      Reported { s with
        hub := { s.hub with
          jobs := t.hub.jobs, aud := t.hub.aud, audRing := t.hub.audRing, txns := t.hub.txns, queue := t.hub.queue,
          finished := t.hub.finished, locks := t.hub.locks, staged := t.hub.staged },
        tsu := { s.tsu with txnt := t.tsu.txnt, seq := t.tsu.seq, staged := t.tsu.staged } } t)

/-- FENCE, WAIT, WAITTICK, RESULT, RESULTX and HWAIT whose condition holds let the engine go on (R240, R282, R292); WAITEVT
waits for the next edge of its input, and HDIGEST for the close of the step's digests (R282, R338). A wait whose condition
comes to hold completes (R240, R282), RESULT copying its elements (R291), and a VARY word that waits for a replay entry
takes it (R371). CONTRIB sends its elements (R309, R310); DIGEST adds its term to both lanes (R336). -/
def Obligations.WaitingWords : Prop :=
  (∀ (site : Site) (s : State),
    AtWord s site 0x25 →
    s.uncovered (getF (s.seq site).word 0 4) s.covers = 0 →
    ∃ t, exec (.fence site) s = .next t ∧
      t = resume (issuedAt s site) site) ∧
  (∀ (site : Site) (s : State),
    AtWord s site 0x27 →
    (s.slot (iSlot (s.seq site).word)).regs.soCfgType ≠ 0 →
    waitHolds (s.slot (iSlot (s.seq site).word)).regs ((s.seq site).v (s.seq site).word) = true →
    ∃ t, exec (.wait site) s = .next t ∧
      t = waitDone (resume (issuedAt s site) site) (iSlot (s.seq site).word)) ∧
  (∀ (site : Site) (s : State),
    AtWord s site 0x28 →
    s.tsu.evt.evtCtrlEn.getLsbD (iEvt (s.seq site).word).toNat = true →
    ∃ t, exec (.waitevt site) s = .next t ∧
      (t = modSeq (issuedAt s site) site fun q => { q with
        wait := some (.evt (iEvt (s.seq site).word) (s.now .tsu) (s.evtLine (iEvt (s.seq site).word)).edges),
        regs := { q.regs with seqStatusState := 2 } })) ∧
  (∀ (site : Site) (s : State),
    AtWord s site 0x29 →
    s.acting .tsu = true →
    ((s.seq site).launch + (s.seq site).v (s.seq site).word).toNat ≤ (s.now .tsu).toNat →
    ∃ t, exec (.waittick site) s = .next t ∧
      t = resume (issuedAt s site) site) ∧
  (∀ (site : Site) (c : BitVec 12) (first : Nat) (s : State),
    AtWord s site 0x30 →
    c = iSlot (s.seq site).word →
    first = ((s.seq site).x (iA (s.seq site).word)).toNat →
    s.ctxCfg c ≠ 0 →
    iBuf (s.seq site).word + wordsFor (fmtWidth (cIn (s.ctxCfg c))) (iCount (s.seq site).word) ≤ 8192 →
    first + iCount (s.seq site).word ≤ cLen (s.ctxCfg c) →
    ∃ t, exec (.contrib site) s = .next t ∧
      (t = (contribFlits (holdXbuf (issuedAt s site) (iBuf (s.seq site).word) (wordsFor (fmtWidth (cIn (s.ctxCfg c))) (iCount
        (s.seq site).word))) c (fmtWidth (cIn (s.ctxCfg c))) (s.tsu.ovf.contains c) (iCount (s.seq site).word) first
          (s.bufElems (fmtWidth (cIn (s.ctxCfg c))) (iBuf (s.seq site).word) (iCount (s.seq site).word))).foldl (fun s m =>
            tsuSendUp s (.contrib m)) (holdXbuf (issuedAt s site) (iBuf (s.seq site).word) (wordsFor (fmtWidth (cIn (s.ctxCfg
              c))) (iCount (s.seq site).word)))) ∧
      t.seq site = (s.seq site).advance) ∧
  (∀ (site : Site) (s : State),
    AtWord s site 0x31 →
    s.ctxCfg (iSlot (s.seq site).word) ≠ 0 →
    iBuf (s.seq site).word + wordsFor (resWidth (s.ctxCfg (iSlot (s.seq site).word))) (iCount (s.seq site).word) ≤ 8192 →
    s.elemsHeld (iSlot (s.seq site).word) ((s.seq site).x (iA (s.seq site).word)) (iCount (s.seq site).word) = true →
    ∃ t, exec (.result site) s = .next t ∧
      t = copyResult (resume (firstRereq (issuedAt s site)) site) (iSlot (s.seq site).word) ((s.seq site).x (iA (s.seq
        site).word)) (iCount (s.seq site).word) (iBuf (s.seq site).word)) ∧
  (∀ (site : Site) (e : BitVec 64) (s : State),
    AtWord s site 0x32 →
    Live s site →
    s.ctxCfg (iSlot (s.seq site).word) ≠ 0 →
    e = (s.seq site).x (iB (s.seq site).word) + (getF (s.seq site).word 0 16 : BitVec 16).setWidth 64 →
    s.elemHeld (iSlot (s.seq site).word) e.toNat = true →
    ∃ t, exec (.resultx site) s = .next t ∧
      (t = modSeq (countClamped (resume (firstRereq (issuedAt s site)) site) (iSlot (s.seq site).word) e 1) site fun q =>
        q.setX (iA (s.seq site).word) (BitVec.ofNat 64 (s.elemValue (iSlot (s.seq site).word) e.toNat)))) ∧
  (∀ (site : Site) (kind : BitVec 2) (did : BitVec 8) (s : State),
    AtWord s site 0x33 →
    kind = getF (s.seq site).word 42 2 ∧ did = getF (s.seq site).word 32 8 →
    dEn (tget 0 s.tsu.plan did.toNat) = true →
    dKind (tget 0 s.tsu.plan did.toNat) = kind →
    s.tsu.issued.getLsbD did.toNat = false →
    iBuf (s.seq site).word + 3 ≤ 8192 →
    ∃ t, exec (.digest site) s = .next t ∧
      t.tsu.acc0 = dgAdd s.tsu.acc0 (dgTerm (dgKey s.tsu.seed s.tsu.seq.step 0 kind.toNat did.toNat s.tsu.rank.toNat) (s.xbufAt
        (iBuf (s.seq site).word)).toNat (s.xbufAt (iBuf (s.seq site).word + 1)).toNat) ∧
      t.tsu.acc1 = dgAdd s.tsu.acc1 (dgTerm (dgKey s.tsu.seed s.tsu.seq.step 1 kind.toNat did.toNat s.tsu.rank.toNat) (s.xbufAt
        (iBuf (s.seq site).word)).toNat (s.xbufAt (iBuf (s.seq site).word + 1)).toNat) ∧
      t.tsu.digt.dgtPassN = s.tsu.digt.dgtPassN + 1 ∧
      t.tsu.issued.getLsbD did.toNat = true ∧
      t.seq site = (s.seq site).advance ∧
      Reported { s with
        hub := { s.hub with
          jobs := t.hub.jobs, aud := t.hub.aud, audRing := t.hub.audRing, txns := t.hub.txns, queue := t.hub.queue,
          finished := t.hub.finished, locks := t.hub.locks, staged := t.hub.staged },
        tsu := { s.tsu with
          seq := t.tsu.seq, digt := t.tsu.digt, issued := t.tsu.issued, acc0 := t.tsu.acc0, acc1 := t.tsu.acc1,
          staged := t.tsu.staged, xhold := t.tsu.xhold } } t) ∧
  (∀ (j : BitVec 12) (b : Bool × StepBuf) (s : State),
    AtWord s (.home j) 0x40 →
    (s.ctx j (iSlot (s.job j).seq.word)).regs.spCfg ≠ 0 →
    s.passBuf j (iSlot (s.job j).seq.word) = some b →
    2 ≤ b.2.state.toNat →
    ∃ t, exec (.hwait (.home j)) s = .next t ∧
      t = resume (issuedAt s (.home j)) (.home j)) ∧
  (∀ (j : BitVec 12) (s : State),
    AtWord s (.home j) 0x43 →
    ∃ t, exec (.hdigest (.home j)) s = .next t ∧
      (t = modSeq (issuedAt s (.home j)) (.home j) fun q => { q with
        wait := some .hdigest, regs := { q.regs with seqStatusState := 2 } })) ∧
  (∀ (m : BitVec 4) (x : List (BitVec 64)) (s : State),
    s.tsu.seq.wait = some (.fence m x) →
    s.uncovered m x = 0 →
    ∃ t, exec .fenceComplete s = .next t ∧
      t = resume s .tsu) ∧
  (∀ (n : BitVec 4) (a : Tick) (e : Nat) (s : State),
    s.tsu.seq.wait = some (.evt n a e) →
    e < (s.evtLine n).edges →
    ∃ t, exec .waitevtComplete s = .next t ∧
      t = resume s .tsu) ∧
  (∀ (a : Tick) (s : State),
    s.tsu.seq.wait = some (.tick a) →
    s.acting .tsu = true →
    a.toNat ≤ (s.now .tsu).toNat →
    ∃ t, exec .waittickComplete s = .next t ∧
      t = resume s .tsu) ∧
  (∀ (c : BitVec 12) (first : BitVec 64) (n b : Nat) (s : State),
    s.tsu.seq.wait = some (.result c first n b) →
    s.elemsHeld c first n = true →
    ∃ t, exec .resultComplete s = .next t ∧
      t = copyResult (resume s .tsu) c first n b) ∧
  (∀ (job c : BitVec 12) (b : Bool × StepBuf) (s : State),
    (s.job job).seq.wait = some (.hwait c) →
    s.passBuf job c = some b →
    2 ≤ b.2.state.toNat →
    ∃ t, exec (.hwaitComplete job) s = .next t ∧
      t = resume s (.home job)) ∧
  (∀ (site : Site) (e : RqEntry) (rest : List RqEntry) (s : State),
    (s.seq site).wait = some .replay →
    s.replayQueue site = e :: rest →
    e.step = (s.seq site).step →
    e.vidx.toNat = (s.seq site).vidx (s.seq site).cur.toNat →
    ∃ t, exec (.replayWaitServed site) s = .next t ∧
      t = putValue (popReplay (resume s site) site) site (s.seq site).curWord e.value)

/-- A flit with a reserved value is dropped as malformed (R13). Below the home a CONTRIB of a context that passes through
goes up unchanged, another becomes PARTIALs, an element past the context's length counted in EXCESS, and a PARTIAL goes up
folded where one is queued (R311). At a home member one in the window of a step that has a buffer is folded into it (R312,
R313). FINISH and HRELEASE move the pass's buffer to FINISHED and RELEASED, HRELEASE keeping every flit (R319 to R322); a
kept flit is sent again to the die that asks (R322). The other member compares each released residue with its own, when it
has released that itself, and reports another (R393). -/
def Obligations.ReductionsOnTheWay : Prop :=
  (∀ (l : LinkId) (sender : BitVec 32) (dsn : Option (BitVec 32)) (m : ContribP) (s : State),
    NewUp s sender dsn →
    JobRuns s m.job m.epoch →
    s.tier ≠ 0 →
    s.isHome m.job = false →
    (s.ctx m.job m.ctx).regs.spCfg = 0 →
    ∃ t, exec (.contribReceive l sender dsn m []) s = .next t ∧
      t = dsnAck (passUp (upTaken s l sender dsn (.contrib m)) m.job (flowCtx m.ctx) (.contrib m)) l sender dsn) ∧
  (∀ (l : LinkId) (sender : BitVec 32) (dsn : Option (BitVec 32)) (m : ContribP) (s : State),
    NewUp s sender dsn →
    JobRuns s m.job m.epoch →
    s.tier ≠ 0 →
    s.isHome m.job = false →
    (s.ctx m.job m.ctx).regs.spCfg ≠ 0 →
    passThrough (s.ctx m.job m.ctx).regs.spCfg = false →
    m.fonly = false →
    (contribElems (s.ctx m.job m.ctx).regs.spCfg m).length = (contribParts (s.ctx m.job m.ctx).regs.spCfg m).length →
    ∃ t, exec (.contribReceive l sender dsn m []) s = .next t ∧
      (t = dsnAck ((contribParts (s.ctx m.job m.ctx).regs.spCfg m).foldl (fun u p => partUp (s.ctx m.job m.ctx).regs.spCfg p u)
        (upTaken s l sender dsn (.contrib m))) l sender dsn)) ∧
  (∀ (l : LinkId) (sender : BitVec 32) (dsn : Option (BitVec 32)) (m : ContribP) (cfg : Word) (s : State),
    NewUp s sender dsn →
    JobRuns s m.job m.epoch →
    s.tier ≠ 0 →
    s.isHome m.job = false →
    cfg = (s.ctx m.job m.ctx).regs.spCfg →
    cfg ≠ 0 →
    passThrough cfg = false →
    m.fonly = false →
    (contribElems cfg m).length ≠ (contribParts cfg m).length →
    ∃ t, exec (.contribReceive l sender dsn m []) s = .next t ∧
      (t = dsnAck ((contribParts cfg m).foldl (fun u p => partUp cfg p u) (modCtxRegs (upTaken s l sender dsn (.contrib m))
        m.job m.ctx fun r => { r with spErrExcess := satInc r.spErrExcess })) l sender dsn)) ∧
  (∀ (l : LinkId) (sender : BitVec 32) (dsn : Option (BitVec 32)) (m : PartlP) (s : State),
    msgReserved (.partl m) = false →
    NewUp s sender dsn →
    JobRuns s m.job m.epoch →
    s.isHome m.job = false →
    ∃ t, exec (.partialReceive l sender dsn m []) s = .next t ∧
      t = dsnAck (partUp (s.ctx m.job m.ctx).regs.spCfg m (upTaken s l sender dsn (.partl m))) l sender dsn) ∧
  (∀ (l : LinkId) (sender : BitVec 32) (dsn : Option (BitVec 32)) (m : PartlP) (s : State),
    msgReserved (.partl m) = true →
    ∃ t, exec (.partialReceive l sender dsn m []) s = .next t ∧
      t = malformedFlit (taken s l (.partl m)) l) ∧
  (∀ (l : LinkId) (sender : BitVec 32) (dsn : Option (BitVec 32)) (m : PartlP) (x : BitVec 64) (w : Bool) (s : State),
    msgReserved (.partl m) = false →
    NewUp s sender dsn →
    JobRuns s m.job m.epoch →
    s.isHome m.job = true →
    s.isTwin l = true →
    windowOf (s.job m.job) m.step = .ok x →
    (s.ctx m.job m.ctx).regs.spCfg ≠ 0 →
    (s.job m.job).refused.contains (m.ctx, x) = false →
    (s.ctx m.job m.ctx).find x = some w →
    ∃ t, exec (.homeContribFold l sender dsn (.partl m) []) s = .next t ∧
      t = dsnAck (foldElems (upTaken s l sender dsn (.partl m)) m.job m.ctx w [(m.elem.toNat,
        partElem (s.ctx m.job m.ctx).regs.spCfg m)] (m.flags.getLsbD 0)) l sender dsn) ∧
  (∀ (j c : BitVec 12) (w : Bool) (b : StepBuf) (s : State),
    AtWord s (.home j) 0x41 →
    c = iSlot (s.job j).seq.word →
    s.passBuf j c = some (w, b) →
    b.state = 2 →
    (s.ctx j c).regs.spCfg ≠ 0 →
    ∃ t, exec (.finish (.home j) []) s = .next t ∧
      ((t.ctx j c).buf w).state = 3 ∧
      (t.ctx j c).regs = (s.ctx j c).regs ∧
      ((t.ctx j c).buf w).elems = b.elems ∧
      (t.job j).seq = (s.job j).seq.advance ∧
      t.tsu = s.tsu ∧
      Reported { s with
        hub := { s.hub with
          units := t.hub.units, histQueue := t.hub.histQueue, flt := t.hub.flt, jobs := t.hub.jobs, aud := t.hub.aud,
          audRing := t.hub.audRing, ladle := t.hub.ladle, txns := t.hub.txns, queue := t.hub.queue, finished := t.hub.finished,
          locks := t.hub.locks, staged := t.hub.staged },
        tsu := { s.tsu with seq := t.tsu.seq, staged := t.tsu.staged } } t) ∧
  (∀ (j c : BitVec 12) (w : Bool) (b : StepBuf) (s : State),
    AtWord s (.home j) 0x42 →
    c = iSlot (s.job j).seq.word →
    s.passBuf j c = some (w, b) →
    b.state = 2 ∨ b.state = 3 →
    (s.ctx j c).regs.spCfg ≠ 0 →
    ∃ t, exec (.hrelease (.home j) []) s = .next t ∧
      ((t.ctx j c).buf w).state = 4 ∧
      ((t.job j).kept = (s.job j).kept ++ (releaseFlits s j c b).1.map fun f => (b.step, f)) ∧
      (t.job j).seq = (s.job j).seq.advance ∧
      t.tsu = s.tsu ∧
      Reported { s with
        hub := { s.hub with
          units := t.hub.units, histQueue := t.hub.histQueue, flt := t.hub.flt, jobs := t.hub.jobs, aud := t.hub.aud,
          audRing := t.hub.audRing, ladle := t.hub.ladle, txns := t.hub.txns, queue := t.hub.queue, finished := t.hub.finished,
          locks := t.hub.locks, staged := t.hub.staged },
        tsu := { s.tsu with seq := t.tsu.seq, staged := t.tsu.staged } } t) ∧
  (∀ (l : LinkId) (m : RereqP) (k : BitVec 64 × ResultP) (rest : List (BitVec 64 × ResultP)) (e : BitVec 24) (s : State),
    s.isHome m.job = true →
    (s.job m.job).kept = k :: rest →
    k.2.ctx = m.ctx ∧ k.2.step = m.step ∧ k.2.rank = 0xFFFFF ∧ k.2.epoch = m.epoch ∧ k.2.elem = m.elem →
    s.rankEp m.job m.rank = some e →
    ∃ t, exec (.rereqReceive l m) s = .next t ∧
      (t = sendEp (modHub (taken s l (.rereq m)) fun h => { h with
        flt := { h.flt with
          dlvErrCopyRereq := satInc h.flt.dlvErrCopyRereq } }) m.job e (.result { k.2 with rank := m.rank }))) ∧
  (∀ (l : LinkId) (m : ResultP) (k : BitVec 64 × ResultP) (rest : List (BitVec 64 × ResultP)) (s : State),
    l.part = .hub →
    s.isLead m.job = false →
    (s.job m.job).rresDue = k :: rest →
    sameFlit m k.2 = true →
    k.2.rres ≠ m.rres →
    ∃ t, exec (.twinRresCompare l m) s = .next t ∧
      Raised t .hub 0x0010 3 ∧
      (t.job m.job).rresDue = rest ∧
      t.tsu = s.tsu ∧
      Reported { s with hub := { s.hub with jobs := t.hub.jobs } } t) ∧
  (∀ (l : LinkId) (m : ResultP) (k : BitVec 64 × ResultP) (rest : List (BitVec 64 × ResultP)) (s : State),
    l.part = .hub →
    s.isLead m.job = false →
    (s.job m.job).rresDue = k :: rest →
    sameFlit m k.2 = true →
    k.2.rres = m.rres →
    ∃ t, exec (.twinRresCompare l m) s = .next t ∧
      (t = modJob (taken s l (.result m)) m.job fun b => { b with rresDue := rest })) ∧
  (∀ (l : LinkId) (m : ResultP) (s : State),
    l.part = .hub →
    s.isLead m.job = false →
    s.isHome m.job = true →
    (s.job m.job).rresDue = [] →
    ∃ t, exec (.twinRresCompare l m) s = .next t ∧
      (t = modJob (taken s l (.result m)) m.job fun b => { b with rresIn := b.rresIn ++ [m] }))

/-- A result flit of the current step whose residue is right is kept with its FLAGS (R291, R323, R324); elements still
missing after 50 us are asked for again on alternating links (R392). A REFUSE halts a running sequencer with RESERVATION
(R293, R314); STEP_POISON shows its step and target (R394). RQ_PUSH and HQ_PUSH add an entry while fewer than 1,024 wait,
FLUSH empties the queue (R371, R372, R377); DET_FW is written without a running job (R361); XBUF takes a word that no
waiting RESULT is to write (R290). -/
def Obligations.ResultsAtTheTsu : Prop :=
  (∀ (l : LinkId) (m : ResultP) (s : State),
    s.tsu.store.length < 1024 →
    residue m.data.toNat = m.rres →
    TsuRuns s m.job m.epoch →
    s.ctxCfg m.ctx ≠ 0 →
    extendStep m.step s.tsu.step.stepNow = some s.tsu.step.stepNow →
    ∃ t, exec (.resultFlitReceive l m) s = .next t ∧
      (t = modTsu s fun h => { h with
        store := h.store ++ [{ via := l, res := m }], resFlags := tset 0 h.resFlags m.ctx.toNat m.flags })) ∧
  (∀ (c : BitVec 12) (first : BitVec 64) (n b : Nat) (s : State),
    s.tsu.seq.wait = some (.result c first n b) →
    ∃ t, exec .resultRerequestTimer s = .next t ∧
      t = rereqWaiting s c first.toNat n ∧
      t.tsu.rereqB = !s.tsu.rereqB ∧
      t.hub = s.hub) ∧
  (∀ (l : LinkId) (m : RefuseP) (s : State),
    l.part = .tsu →
    TsuRuns s m.job m.epoch →
    (extendStep m.step s.tsu.step.stepNow).isSome = true →
    s.tsu.seq.running = true →
    ∃ t, exec (.refuseReceive l m) s = .next t ∧
      t.tsu.seq.regs.seqStatusState = 3 ∧
      t.tsu.seq.regs.seqStatusHaltCause = 4 ∧
      t.tsu.seq.wait = none ∧
      t.tsu.spt.sptErrRefused = satInc s.tsu.spt.sptErrRefused ∧
      t.hub = s.hub ∧
      Reported { s with
        hub := { s.hub with
          jobs := t.hub.jobs, aud := t.hub.aud, audRing := t.hub.audRing, txns := t.hub.txns, queue := t.hub.queue,
          finished := t.hub.finished, locks := t.hub.locks, staged := t.hub.staged },
        tsu := { s.tsu with txnt := t.tsu.txnt, seq := t.tsu.seq, spt := t.tsu.spt, staged := t.tsu.staged } } t) ∧
  (∀ (l : LinkId) (m : StepPoisonP) (x : BitVec 64) (s : State),
    l.part = .tsu →
    TsuRuns s m.job m.epoch →
    extendStep m.step s.tsu.step.stepNow = some x →
    s.tsu.evqRegs.eqPoisonTgtValid = false →
    ∃ t, exec (.stepPoisonReceive l m) s = .next t ∧
      t.tsu.evqRegs.eqPoison = x ∧
      t.tsu.evqRegs.eqPoisonTgtValid = true ∧
      t.tsu.evqRegs.eqPoisonTgtTarget = m.target ∧
      (t.hdr .tsu .evq).pageIntStatus.getLsbD 2 = true ∧
      t.hub = s.hub ∧
      Reported { s with
        hub := { s.hub with sh := { s.hub.sh with tb := t.hub.sh.tb } },
        tsu := { s.tsu with txnt := t.tsu.txnt, sh := { s.tsu.sh with tb := t.tsu.sh.tb } }, free := t.free } t) ∧
  (∀ (i : Iface) (data : Word) (s : State),
    Answers s i →
    i.part = .tsu →
    s.tsu.rq.length < 1024 →
    ∃ t, exec (.rqPush i data) s = .next t ∧
      (t = emit (modTsu s fun h => { h with
        rq := h.rq ++ [{ step := h.det.rqStep, vidx := getF data 0 8, value := h.det.rqValue }] }) (.writeAck i false))) ∧
  (∀ (i : Iface) (data : Word) (s : State),
    Answers s i →
    i.part = .tsu →
    s.tsu.seq.running = false →
    ∃ t, exec (.rqFlush i data) s = .next t ∧
      (t = emit (modTsu s fun h => { h with rq := [] }) (.writeAck i false))) ∧
  (∀ (i : Iface) (data : Word) (s : State),
    Answers s i →
    i.part = .hub →
    s.hub.hq.length < 1024 →
    ∃ t, exec (.hqPush i data) s = .next t ∧
      (t = emit (modHub s fun h => { h with
        hq := h.hq ++ [{ step := h.deth.hqStep, vidx := getF data 0 8, value := h.deth.hqValue }] }) (.writeAck i false))) ∧
  (∀ (i : Iface) (which : BitVec 3) (data : Word) (s : State),
    Answers s i →
    i.part = .tsu →
    s.tsuHasJob = false ∨ s.tsuPaused = true →
    which = 0 →
    ∃ t, exec (.detFwWrite i which data) s = .next t ∧
      (t = emit (modTsu s fun h => { h with det := { h.det with detFw := data } }) (.writeAck i false))) ∧
  (∀ (i : Iface) (which : BitVec 3) (data : Word) (s : State),
    Answers s i →
    i.part = .tsu →
    s.tsuHasJob = false ∨ s.tsuPaused = true →
    which = 1 →
    ∃ t, exec (.detFwWrite i which data) s = .next t ∧
      t.tsu.unitmap.extractLsb' 192 64 = data ∧
      t.tsu.unitmap.extractLsb' 0 192 = s.tsu.unitmap.extractLsb' 0 192 ∧
      (t = emit (modTsu s fun h => { h with unitmap := t.tsu.unitmap }) (.writeAck i false))) ∧
  (∀ (i : Iface) (word : BitVec 13) (data : Word) (s : State),
    Answers s i →
    i.part = .tsu →
    s.xbufHeld word.toNat = false →
    ∃ t, exec (.xbufHostWrite i word data) s = .next t ∧
      t = emit (setXbuf s word.toNat data) (.writeAck i false) ∧
      t.xbufAt word.toNat = data)

/-- A flit with a reserved value is dropped as malformed (R13). At a home member a DGP or VMAP of a step in the window is
added into the step's fold, and a provenance CHECK of a shard in range is held (R337, R340, R347). HDIGEST with every fold
held closes the step: the lead waits for the other member's close, and the other member goes on (R338). A close that comes
early is held; when none comes in 20 us the lead ends the close with TWIN_MISSING (R338). -/
def Obligations.DigestsOnHubs : Prop :=
  (∀ (l : LinkId) (sender : BitVec 32) (dsn : Option (BitVec 32)) (m : DgpP) (x : BitVec 64) (s : State),
    msgReserved (.dgp m) = false →
    NewUp s sender dsn →
    JobRuns s m.job m.epoch →
    s.tier ≠ 0 →
    s.isHome m.job = true →
    s.isTwin l = true →
    windowOf (s.job m.job) m.step = .ok x →
    ∃ t, exec (.dgpReceive l sender dsn m) s = .next t ∧
      (t = dsnAck (modFold (upTaken s l sender dsn (.dgp m)) m.job x fun f => { f with
        members := f.members + m.members.toNat, n := f.n + m.n.toNat, nc := f.nc + m.nc.toNat, d0 := dgAdd f.d0 m.d0.toNat,
        d1 := dgAdd f.d1 m.d1.toNat }) l sender dsn)) ∧
  (∀ (l : LinkId) (sender : BitVec 32) (dsn : Option (BitVec 32)) (m : DgpP) (s : State),
    msgReserved (.dgp m) = true →
    ∃ t, exec (.dgpReceive l sender dsn m) s = .next t ∧
      t = malformedFlit (taken s l (.dgp m)) l) ∧
  (∀ (l : LinkId) (sender : BitVec 32) (dsn : Option (BitVec 32)) (m : VmapP) (x : BitVec 64) (s : State),
    msgReserved (.vmap m) = false →
    NewUp s sender dsn →
    JobRuns s m.job m.epoch →
    s.tier ≠ 0 →
    s.isHome m.job = true →
    s.isTwin l = true →
    windowOf (s.job m.job) m.step = .ok x →
    ∃ t, exec (.vmapReceive l sender dsn m) s = .next t ∧
      (t = dsnAck (modFold (upTaken s l sender dsn (.vmap m)) m.job x fun f => { f with
        vmembers := f.vmembers + m.members.toNat, vcount := f.vcount + m.vcount.toNat,
        map := f.map ||| m.map }) l sender dsn)) ∧
  (∀ (l : LinkId) (sender : BitVec 32) (dsn : Option (BitVec 32)) (m : VmapP) (s : State),
    msgReserved (.vmap m) = true →
    ∃ t, exec (.vmapReceive l sender dsn m) s = .next t ∧
      t = malformedFlit (taken s l (.vmap m)) l) ∧
  (∀ (l : LinkId) (sender : BitVec 32) (dsn : Option (BitVec 32)) (m : CheckP) (x : BitVec 64) (e : BitVec 24) (s : State),
    msgReserved (.check m) = false →
    NewUp s sender dsn →
    JobRuns s m.job m.epoch →
    s.tier ≠ 0 →
    s.isHome m.job = true →
    s.isTwin l = true →
    windowOf (s.job m.job) m.step = .ok x →
    s.rankEp m.job m.rank = some e →
    s.isFenced m.job e = false →
    m.kind = 1 →
    m.shard.toNat < (s.job m.job).digh.dgJobProvCount.toNat →
    ∃ t, exec (.checkReceive l sender dsn m) s = .next t ∧
      (t = dsnAck (modFold (upTaken s l sender dsn (.check m)) m.job x fun f => { f with checks := f.checks ++ [m] }) l sender
        dsn)) ∧
  (∀ (l : LinkId) (sender : BitVec 32) (dsn : Option (BitVec 32)) (m : CheckP) (s : State),
    msgReserved (.check m) = true →
    ∃ t, exec (.checkReceive l sender dsn m) s = .next t ∧
      t = malformedFlit (taken s l (.check m)) l) ∧
  (∀ (job : BitVec 12) (s : State),
    (s.job job).seq.wait = some .hdigest →
    (s.job job).closing = none →
    (s.job job).twinClose = none →
    foldsHeld s job (s.job job).seq.step = true →
    s.isLead job = true →
    ∃ t, exec (.hdigestFoldsComplete job) s = .next t ∧
      (((t.job job).closing.map fun c => c.fold) = some (foldOf (s.job job) (s.job job).seq.step)) ∧
      (t.job job).seq = (s.job job).seq ∧
      t.tsu = s.tsu ∧
      Reported { s with
        hub := { s.hub with
          units := t.hub.units, flt := t.hub.flt, jobs := t.hub.jobs, aud := t.hub.aud, audRing := t.hub.audRing,
          ladle := t.hub.ladle, txns := t.hub.txns, queue := t.hub.queue, finished := t.hub.finished, locks := t.hub.locks,
          staged := t.hub.staged },
        tsu := { s.tsu with staged := t.tsu.staged } } t) ∧
  (∀ (job : BitVec 12) (s : State),
    (s.job job).seq.wait = some .hdigest →
    (s.job job).closing = none →
    foldsHeld s job (s.job job).seq.step = true →
    s.isLead job = false →
    (s.job job).rresDue.all (fun k => k.1 != (s.job job).seq.step) = true →
    ∃ t, exec (.hdigestFoldsComplete job) s = .next t ∧
      (t.job job).closing = none ∧ (t.job job).closed = true ∧
      (t.job job).seq.wait = none ∧ (t.job job).seq.regs.seqStatusState = 1 ∧
      (t.job job).digh.dgLastStep = (foldOf (s.job job) (s.job job).seq.step).step ∧
      t.tsu = s.tsu ∧
      Reported { s with
        hub := { s.hub with
          units := t.hub.units, flt := t.hub.flt, jobs := t.hub.jobs, aud := t.hub.aud, audRing := t.hub.audRing,
          ladle := t.hub.ladle, txns := t.hub.txns, queue := t.hub.queue, finished := t.hub.finished, locks := t.hub.locks,
          staged := t.hub.staged },
        tsu := { s.tsu with staged := t.tsu.staged } } t) ∧
  (∀ (l : LinkId) (d : DgpP) (v : VmapP) (s : State),
    (s.job d.job).closing = none →
    s.isLead d.job = true →
    ∃ t, exec (.twinCloseReceive l d v) s = .next t ∧
      (t = modJob (taken (taken s l (.dgp d)) l (.vmap v)) d.job fun b => { b with twinClose := some (d, v) })) ∧
  (∀ (job : BitVec 12) (c : Closing) (s : State),
    (s.job job).closing = some c →
    s.isLead job = true →
    c.events = [] ∧ c.fold.count = false ∧ c.fold.n = c.expect →
    ∃ t, exec (.twinCloseTimeout job) s = .next t ∧
      (t.job job).closing = none ∧ (t.job job).closed = true ∧
      (t.job job).seq.wait = none ∧ (t.job job).seq.regs.seqStatusState = 1 ∧
      (t.job job).digh.dgErrTwinMissing = satInc (s.job job).digh.dgErrTwinMissing ∧
      (t.job job).digh.dgLastStep = c.fold.step ∧
      t.tsu = s.tsu ∧
      Reported { s with
        hub := { s.hub with
          units := t.hub.units, flt := t.hub.flt, jobs := t.hub.jobs, aud := t.hub.aud, audRing := t.hub.audRing,
          ladle := t.hub.ladle, txns := t.hub.txns, queue := t.hub.queue, finished := t.hub.finished, locks := t.hub.locks,
          staged := t.hub.staged },
        tsu := { s.tsu with staged := t.tsu.staged } } t)

/-- AUD_TAIL takes an index from TAIL to HEAD (R355); AUD_CFG another size from 1 to 16 GiB while EN is 0, which frees every
record (R349); AUD_CTRL its fields (R354). A read of AUD_RD0 of a record held latches the record (R358). Export sends up to
4 records and moves EXPORTED past them (R356). A VREC of the job is appended to the replay ring with its step and launch in
full, and from an own TSU refused where its rank lies beyond the membership (R45, R369, R370); RL_TAIL and RL_RD0 act as the
audit log's (R378). -/
def Obligations.AuditAndReplayRings : Prop :=
  (∀ (i : Iface) (data : Word) (s : State),
    Answers s i →
    i.part = .hub →
    s.hub.aud.audTail.toNat ≤ data.toNat ∧ data.toNat ≤ s.hub.aud.audHead.toNat →
    ∃ t, exec (.audTailWrite i data) s = .next t ∧
      t.hub.aud.audTail = data ∧
      t.out.getLast? = some (.writeAck i false) ∧
      t.tsu = s.tsu ∧
      Reported { s with hub := { s.hub with jobs := t.hub.jobs, aud := t.hub.aud, audRing := t.hub.audRing } } t) ∧
  (∀ (i : Iface) (data : Word) (s : State),
    Answers s i →
    i.part = .hub →
    s.hub.aud.audCtrlEn = false →
    1 ≤ (getF data 0 8 : BitVec 8).toNat ∧ (getF data 0 8 : BitVec 8).toNat ≤ 16 →
    getF data 0 8 ≠ s.hub.aud.audCfg →
    ∃ t, exec (.audCfgWrite i data) s = .next t ∧
      (t = emit (modHub s fun h => { h with
        audRing := [],
        aud := { h.aud with
          audCfg := getF data 0 8, audTail := h.aud.audHead, audExported := h.aud.audHead } }) (.writeAck i false))) ∧
  (∀ (i : Iface) (data : Word) (s : State),
    Answers s i →
    i.part = .hub →
    ∃ t, exec (.audCtrlWrite i data) s = .next t ∧
      t.hub.aud.read 0x040 = (s.hub.aud.write 0x040 data).read 0x040 ∧
      t.hub.aud.audTail = s.hub.aud.audTail ∧
      t.out.getLast? = some (.writeAck i false) ∧
      t.tsu = s.tsu ∧
      Reported { s with hub := { s.hub with jobs := t.hub.jobs, aud := t.hub.aud, audRing := t.hub.audRing } } t) ∧
  (∀ (i : Iface) (s : State),
    Answers s i →
    i.part = .hub →
    s.hub.aud.audTail.toNat ≤ (s.iface i).regs.audRdIdx.toNat ∧ (s.iface i).regs.audRdIdx.toNat < s.hub.aud.audHead.toNat →
    ∃ t, exec (.audRd0Read i) s = .next t ∧
      (t.iface i).audit = bvBytes 256 (tget 0 s.hub.audRing ((s.iface i).regs.audRdIdx.toNat % audCap s.hub.aud)) ∧
      t.out = s.out ++ [.readData i (byteWord (t.iface i).audit 0)] ∧
      (t = emit (modIface s i fun _ => t.iface i) (.readData i (byteWord (t.iface i).audit 0)))) ∧
  (∀ (s : State),
    s.hub.aud.audCtrlExportEn = true →
    s.hub.aud.audTail.toNat ≤ s.hub.aud.audExported.toNat ∧ s.hub.aud.audExported.toNat < s.hub.aud.audHead.toNat →
    ∃ t, exec .auditExportSend s = .next t ∧
      t.hub.aud.audExported = s.hub.aud.audExported + BitVec.ofNat 64 (max (audRun s (min 4 (s.hub.aud.audHead.toNat -
        s.hub.aud.audExported.toNat)) s.hub.aud.audExported.toNat) 1) ∧
      t.hub.aud.audTail = (if s.hub.aud.audCtrlExportFrees then t.hub.aud.audExported else s.hub.aud.audTail) ∧
      t.tsu = s.tsu ∧
      Reported { s with
        hub := { s.hub with jobs := t.hub.jobs, aud := t.hub.aud, audRing := t.hub.audRing, mgmt := t.hub.mgmt } } t) ∧
  (∀ (l : LinkId) (sender : BitVec 32) (dsn : Option (BitVec 32)) (m : VrecP) (st : BitVec 64) (la : Tick) (s : State),
    l.part = .hub →
    s.valid .hub = true →
    NewUp s sender dsn →
    JobRuns s m.job m.epoch →
    extendStep m.step (s.job m.job).step = some st →
    extendWire m.launch (s.now .hub) = some la →
    s.tier ≠ 0 ∨ s.role l ≠ 1 ∨ m.rank.toNat < (s.job m.job).members.toNat →
    s.hub.deth.rlCfgEn = true →
    (s.hub.deth.rlHead - s.hub.deth.rlTail).toNat < rlCap s.hub.deth →
    ∃ t, exec (.vrecReceive l sender dsn m) s = .next t ∧
      t.hub.deth = { s.hub.deth with rlHead := s.hub.deth.rlHead + 1 } ∧
      tget 0 t.hub.rlRing (s.hub.deth.rlHead.toNat % rlCap s.hub.deth) =
        rlEntry st la m.value (evJob m.job m.epoch) m.vidx false (m.rank.setWidth 32) ∧
      t.hub.jobs = s.hub.jobs ∧
      t.tsu = s.tsu ∧
      Reported { s with
        hub := { s.hub with
          flt := t.hub.flt, deth := t.hub.deth, rlRing := t.hub.rlRing, txn := t.hub.txn, dsnSeen := t.hub.dsnSeen,
          sh := { s.hub.sh with tb := t.hub.sh.tb } },
        tsu := { s.tsu with sh := { s.tsu.sh with tb := t.tsu.sh.tb } } } t) ∧
  (∀ (l : LinkId) (sender : BitVec 32) (dsn : Option (BitVec 32)) (m : VrecP) (s : State),
    s.valid .hub = true →
    NewUp s sender dsn →
    s.holds m.job = true →
    s.tier = 0 ∧ s.role l = 1 ∧ (s.job m.job).members.toNat ≤ m.rank.toNat →
    ∃ t, exec (.vrecReceive l sender dsn m) s = .next t ∧
      t = dsnAck (refuseXlat (upTaken s l sender dsn (.vrec m)) m.job) l sender dsn) ∧
  (∀ (i : Iface) (data : Word) (s : State),
    Answers s i →
    i.part = .hub →
    s.hub.deth.rlTail.toNat ≤ data.toNat ∧ data.toNat ≤ s.hub.deth.rlHead.toNat →
    ∃ t, exec (.rlTailWrite i data) s = .next t ∧
      (t = emit (modHub s fun h => { h with deth := { h.deth with rlTail := data } }) (.writeAck i false))) ∧
  (∀ (i : Iface) (s : State),
    Answers s i →
    i.part = .hub →
    s.hub.deth.rlTail.toNat ≤ (s.iface i).regs.rlRdIdx.toNat ∧ (s.iface i).regs.rlRdIdx.toNat < s.hub.deth.rlHead.toNat →
    ∃ t, exec (.rlRd0Read i) s = .next t ∧
      (t.iface i).replay = tget 0 s.hub.rlRing ((s.iface i).regs.rlRdIdx.toNat % rlCap s.hub.deth) ∧
      (t = emit (modIface s i fun _ => t.iface i) (.readData i ((t.iface i).replay.extractLsb' 192 64))))

/-- A window that counted events forms one record and opens again, and an empty one goes (R383). A record that comes up
enters the leaf hub's ring at EV_HEAD, which advances (R384, R385). Up to 16 records leave in index order and EV_EXPORTED
follows them (R386); a request for 1 to 16 that the ring holds sends them again, and one for no record is counted (R387).
EQ_W0 pops the TSU's queue and latches the record (R411); EV_RD0 latches the record at EV_RD_IDX (R412). The oldest history
entry goes to flash, and the unit's count rises (R396). -/
def Obligations.EventsReported : Prop :=
  (∀ (p : Part) (w : EvWindow) (rest : List EvWindow) (s : State),
    (s.sh p).windows = w :: rest →
    w.count = 0 →
    ∃ t, exec (.coalesceWindowEnd p) s = .next t ∧
      (t = modSh s p fun h => { h with windows := rest })) ∧
  (∀ (p : Part) (w : EvWindow) (rest : List EvWindow) (s : State),
    (s.sh p).windows = w :: rest →
    w.count ≠ 0 →
    ∃ t, exec (.coalesceWindowEnd p) s = .next t ∧
      (t.sh p).windows = rest ++ [{ ev := w.ev, count := 0 }] ∧
      (t.sh p).evSeq = (s.sh p).evSeq + 1 ∧
      Reported s t) ∧
  (∀ (l : LinkId) (sender : BitVec 32) (dsn : Option (BitVec 32)) (m : EvrecP) (s : State),
    l.part = .hub →
    NewUp s sender dsn →
    ∃ t, exec (.evrecReceive l sender dsn m) s = .next t ∧
      t = dsnAck (ringWrite (upTaken s l sender dsn (.evrec m)) m.record) l sender dsn ∧
      tget 0 t.hub.ring (s.hub.evh.evHead.toNat % ringSize) = m.record ∧
      t.hub.evh.evHead = s.hub.evh.evHead + 1 ∧
      (t.hdr .hub .evh).pageIntStatus.getLsbD 0 = true ∧
      t.hub.jobs = s.hub.jobs ∧
      t.tsu = s.tsu) ∧
  (∀ (s : State),
    s.hub.evh.evCtrl = true →
    s.hub.evh.evDestIpv4 ≠ 0 →
    ringOldest s.hub.evh ≤ s.hub.evh.evExported.toNat →
    s.hub.evh.evExported.toNat ≤ s.hub.evh.evHead.toNat →
    s.hub.evh.evHead.toNat ≤ s.hub.evh.evExported.toNat + 16 →
    ∃ t, exec .eventExportSend s = .next t ∧
      t.hub.evh = { s.hub.evh with evExported := s.hub.evh.evHead } ∧
      t.hub.ring = s.hub.ring ∧
      t.hub.jobs = s.hub.jobs ∧
      t.tsu = s.tsu ∧
      Reported s t) ∧
  (∀ (ip : BitVec 32) (port : BitVec 16) (data : List (BitVec 8)) (n first : Nat) (s : State),
    port = s.hub.evh.evDestListen →
    ip = s.hub.evh.evDestIpv4 →
    bytesAt data 0 2 = 0x4552 →
    bytesAt data 16 2 = n ∧ 0 < n ∧ n ≤ 16 →
    bytesAt data 8 8 = first ∧ ringOldest s.hub.evh ≤ first ∧ first + n ≤ s.hub.evh.evHead.toNat →
    ∃ t, exec (.eventRerequestReceive ip port data) s = .next t ∧
      t = sendRecords s first n) ∧
  (∀ (ip : BitVec 32) (port : BitVec 16) (data : List (BitVec 8)) (s : State),
    port = s.hub.evh.evDestListen →
    bytesAt data 16 2 = 0 →
    ∃ t, exec (.eventRerequestReceive ip port data) s = .next t ∧
      (t = modEvh s fun r => { r with evStatReqDrop := satInc r.evStatReqDrop })) ∧
  (∀ (i : Iface) (r : BitVec 512) (rest : List (BitVec 512)) (s : State),
    Answers s i →
    i.part = .tsu →
    s.tsu.evq = r :: rest →
    ∃ t, exec (.eqW0Read i) s = .next t ∧
      (t = emit (modIface (modTsu s fun h => { h with evq := rest }) i fun c => { c with evq := r }) (.readData i
        (r.extractLsb' 448 64)))) ∧
  (∀ (i : Iface) (s : State),
    Answers s i →
    i.part = .hub →
    s.hub.evh.evHead.toNat ≤ (s.iface i).regs.evRdIdx.toNat + ringSize →
    (s.iface i).regs.evRdIdx.toNat < s.hub.evh.evHead.toNat →
    ∃ t, exec (.evRd0Read i) s = .next t ∧
      (t.iface i).ev = tget 0 s.hub.ring ((s.iface i).regs.evRdIdx.toNat % ringSize) ∧
      (t = emit (modIface s i fun c => { c with ev := (t.iface i).ev }) (.readData i ((t.iface i).ev.extractLsb' 448 64)))) ∧
  (∀ (e : HistEntry) (rest : List HistEntry) (s : State),
    s.hub.histQueue = e :: rest →
    s.hub.history.length < historySize →
    ∃ t, exec .historyAppend s = .next t ∧
      t.hub.histQueue = rest ∧
      t.hub.history = s.hub.history ++ [e] ∧
      t.unit e.unit = { s.unit e.unit with unitStateEvents := satInc (s.unit e.unit).unitStateEvents } ∧
      t.hub.jobs = s.hub.jobs ∧
      t.tsu = s.tsu ∧
      Reported { s with hub := { s.hub with units := t.hub.units, history := t.hub.history, histQueue := t.hub.histQueue } } t)

/-- Under test, a unit's first run that passes is kept and its second brings SHADOW with no clean step; one that fails
charges it, which a unit whose history holds a prior entry leaves for good (R397, R398). A rotation starts when its period
is set or by ROT_NOW (R399). 64 clean steps bring a lane back, and it carries results (R400). A hub that has its twin's job
state is in SHADOW, with no clean step, and leads nothing (R405). -/
def Obligations.UnitsAndTheirTests : Prop :=
  (∀ (unit : BitVec 16) (pass : Bool) (s : State),
    pass = true →
    (s.unit unit).unitState = 2 →
    s.hub.katPassed.contains unit = false →
    ∃ t, exec (.katRunDone unit pass) s = .next t ∧
      (t = modHub s fun h => { h with katPassed := h.katPassed ++ [unit] })) ∧
  (∀ (unit : BitVec 16) (pass : Bool) (s : State),
    pass = true →
    (s.unit unit).unitState = 2 →
    s.hub.katPassed.contains unit = true →
    s.hub.flt.rotStatusActive = false →
    ∃ t, exec (.katRunDone unit pass) s = .next t ∧
      t.unit unit = { s.unit unit with unitState := 3, unitStateShadowSteps := 0 } ∧
      t.hub.katPassed = s.hub.katPassed.erase unit ∧
      t.hub.history = s.hub.history ∧
      t.hub.jobs = s.hub.jobs ∧
      t.tsu = s.tsu ∧
      Reported { s with
        hub := { s.hub with
          units := t.hub.units, histQueue := t.hub.histQueue, flt := t.hub.flt, katPassed := t.hub.katPassed,
          rotN := t.hub.rotN, rotW := t.hub.rotW, rotWide := t.hub.rotWide } } t) ∧
  (∀ (unit : BitVec 16) (pass : Bool) (s : State),
    pass = false →
    (s.unit unit).unitState = 2 →
    unitClass unit = 4 →
    hasPrior s unit = true →
    s.hub.flt.rotStatusActive = false →
    ∃ t, exec (.katRunDone unit pass) s = .next t ∧
      (t.unit unit).unitState = 4 ∧
      t.hub.flt.rotStatusKatFails = satInc s.hub.flt.rotStatusKatFails ∧
      ((t.hub.histQueue.drop s.hub.histQueue.length).map (fun e => (e.unit, e.kind, e.verdict)) = [(unit, 2, 0xFF), (unit, 1,
        0xFF)]) ∧
      (t.hdr .hub .flt).pageIntStatus.getLsbD 0 = true ∧
      t.hub.jobs = s.hub.jobs ∧
      t.tsu = s.tsu ∧
      Reported { s with
        hub := { s.hub with
          units := t.hub.units, histQueue := t.hub.histQueue, flt := t.hub.flt, katPassed := t.hub.katPassed,
          rotN := t.hub.rotN, rotW := t.hub.rotW, rotWide := t.hub.rotWide } } t) ∧
  (∀ (s : State),
    s.hub.flt.fltCtrlRotPeriodS ≠ 0 →
    ∃ t, exec .rotationStart s = .next t ∧
      t = rotStart s) ∧
  (∀ (i : Iface) (data : Word) (s : State),
    Answers s i →
    i.part = .hub →
    (getF data 48 16 : BitVec 16) ≠ 0 →
    ∃ t, exec (.rotNow i data) s = .next t ∧
      (t = emit (rotStart (modHub s fun h => { h with
        flt := h.flt.write 0x040 (data ||| putB 0 true) })) (.writeAck i false))) ∧
  (∀ (unit : BitVec 16) (s : State),
    (s.unit unit).unitState = 3 →
    (s.unit unit).unitStateShadowSteps = 64 →
    unitClass unit = 4 →
    s.hub.flt.rotStatusActive = false →
    ∃ t, exec (.shadowEnd unit) s = .next t ∧
      t.unit unit = { s.unit unit with unitState := 0, unitStateShadowSteps := 0, unitStateStandin := 0xFFFF } ∧
      ((t.hub.histQueue.drop s.hub.histQueue.length).map (fun e => (e.unit, e.kind, e.verdict)) = [(unit, 3, 0xFF)]) ∧
      Raised t .hub 0x0024 2 ∧
      t.hub.jobs = s.hub.jobs ∧
      t.tsu = s.tsu ∧
      Reported { s with
        hub := { s.hub with
          units := t.hub.units, histQueue := t.hub.histQueue, flt := t.hub.flt, katPassed := t.hub.katPassed,
          rotN := t.hub.rotN, rotW := t.hub.rotW, rotWide := t.hub.rotWide, sh := { s.hub.sh with pages := t.hub.sh.pages } },
        tsu := { s.tsu with sh := { s.tsu.sh with pages := t.tsu.sh.pages } } } t) ∧
  (∀ (s : State),
    ∃ t, exec .shadowCopyDone s = .next t ∧
      t.hub.flt.hubRole = 1 ∧
      t.hub.flt.hubRoleCleanSteps = 0 ∧
      (t.hub.jobs.all (fun e => !e.2.leads) = true) ∧
      t.tsu = s.tsu ∧
      Reported { s with hub := { s.hub with flt := t.hub.flt, jobs := t.hub.jobs } } t)

/-- A cumulative DACK frees what a sender kept of its upward flits (R401, R402). Heartbeats go to the twin on each TWIN port
with the neighbours heard (R403), and from a TSU on both links (R406). A TSU's heartbeat, and those that the twin heard,
feed the detector; a die silent for HB_LOSS_US is declared dead with the reason of its link, and so is a rank whose arrival
is missing at three timeouts (R406, R407). A job's die that is declared is fenced at the edge, with an event. -/
def Obligations.DeliveryAndFailures : Prop :=
  (∀ (l : LinkId) (m : DackP) (s : State),
    l.part = .tsu →
    s.tsu.up.waiting = [] →
    ∃ t, exec (.dackReceive l m) s = .next t ∧
      (t = modTsu (taken s l (.dack m)) fun h => { h with up := s.tsu.up.acked m.dsn }) ∧
      (t.tsu.up.unacked = s.tsu.up.unacked.filter fun e => decide (0 < signedDiff e.1 m.dsn)) ∧
      t.hub = s.hub) ∧
  (∀ (l : LinkId) (m : DackP) (s : State),
    l.part = .hub →
    m.sender = (twinOf s.hub.id.hubAddr).setWidth 32 →
    ∃ t, exec (.dackReceive l m) s = .next t ∧
      (t.hub.twinUp = s.hub.twinUp.filter fun e => laterThan e.1 m.dsn) ∧
      t.hub.ups = s.hub.ups ∧
      t.hub.jobs = s.hub.jobs ∧
      t.tsu = s.tsu ∧
      Reported { s with hub := { s.hub with ups := t.hub.ups, twinUp := t.hub.twinUp } } t) ∧
  (∀ (s : State),
    ∃ t, exec .twinHeartbeatSend s = .next t ∧
      (t = (s.roleLinks 3).foldl (fun u l => sendLink u l none (.heartbeat { origin := s.origin .hub, heard := heardMask s }))
        s) ∧
      t.hub.jobs = s.hub.jobs ∧
      t.tsu = s.tsu) ∧
  (∀ (s : State),
    ∃ t, exec .tsuHeartbeatSend s = .next t ∧
      t = sendLink (sendLink s linkA none (.heartbeat { origin := s.origin .tsu, heard := 0 })) linkB none (.heartbeat {
        origin := s.origin .tsu, heard := 0 }) ∧
      t.hub = s.hub) ∧
  (∀ (l : LinkId) (m : HeartbeatP) (s : State),
    l.part = .hub →
    m.origin.getLsbD 31 = true →
    ∃ t, exec (.heartbeatReceive l m) s = .next t ∧
      (t = modHub (taken s l (.heartbeat m)) fun h => { h with hbSeen := tset 0 h.hbSeen (2 * l.key) s.hub.sh.tb.cycles }) ∧
      t.hub.jobs = s.hub.jobs ∧
      t.tsu = s.tsu) ∧
  (∀ (l : LinkId) (m : HeartbeatP) (s : State),
    l.part = .hub →
    m.origin.getLsbD 31 = false →
    s.isTwin l = true →
    s.tier ≠ 0 →
    ∃ t, exec (.heartbeatReceive l m) s = .next t ∧
      (t = modHub (taken s l (.heartbeat m)) fun h => { h with heard := tset 0 h.heard m.origin.toNat m.heard }) ∧
      t.tsu = s.tsu) ∧
  (∀ (l : LinkId) (a : Nat) (s : State),
    l.part = .hub →
    s.tier = 0 →
    a = max (tget 0 s.hub.hbSeen (2 * l.key)).toNat (tget 0 s.hub.hbSeen (2 * l.key + 1)).toNat →
    0 < a →
    a + s.hub.flt.fltHb.toNat * 1000 ≤ s.hub.sh.tb.cycles.toNat →
    s.hub.declared.contains (s.epOf l) = false →
    ∃ t, exec (.heartbeatLoss l) s = .next t ∧
      t = declare s l (if (s.link l).active then 0 else 1) ∧
      t.hub.declared = s.hub.declared ++ [s.epOf l] ∧
      (t.hdr .hub .flt).pageIntStatus.getLsbD 4 = true ∧
      t.tsu = s.tsu) ∧
  (∀ (job : BitVec 12) (rank : BitVec 20) (ep : BitVec 24) (d : Arrivals) (s : State),
    s.rankEp job rank = some ep →
    tget {} (s.job job).detect rank.toNat = d →
    d.step = (s.job job).step →
    d.counted = false →
    d.timeouts < 2 →
    (s.job job).flt.detCfgArrTimeoutUs ≠ 0 →
    (s.job job).regs.jobStatusState = 2 →
    s.serves ep = true →
    s.valid .hub = true →
    (launchOf (s.job job) (s.job job).step).tick.toNat + (s.job job).flt.detCfgArrTimeoutUs.toNat * (d.timeouts + 1) * 1000 ≤
      s.hub.sh.tb.tick.toNat →
    ∃ t, exec (.arrivalTimeout job rank) s = .next t ∧
      (t = modJob s job fun b => { b with detect := tset {} b.detect rank.toNat { d with timeouts := d.timeouts + 1 } })) ∧
  (∀ (job : BitVec 12) (rank : BitVec 20) (ep : BitVec 24) (d : Arrivals) (s : State),
    s.rankEp job rank = some ep →
    tget {} (s.job job).detect rank.toNat = d →
    d.step = (s.job job).step →
    d.counted = false →
    d.timeouts = 2 →
    (s.job job).flt.detCfgArrTimeoutUs ≠ 0 →
    (s.job job).regs.jobStatusState = 2 →
    s.serves ep = true →
    s.valid .hub = true →
    (launchOf (s.job job) (s.job job).step).tick.toNat + (s.job job).flt.detCfgArrTimeoutUs.toNat * 3000 ≤
      s.hub.sh.tb.tick.toNat →
    s.hub.declared.contains (s.epOf (linkOfKey .hub (epSlot ep).toNat)) = false →
    ∃ t, exec (.arrivalTimeout job rank) s = .next t ∧
      t.hub.declared = s.hub.declared ++ [s.epOf (linkOfKey .hub (epSlot ep).toNat)] ∧
      (t.hdr .hub .flt).pageIntStatus.getLsbD 4 = true ∧
      t.tsu = s.tsu ∧
      Reported { s with hub := { s.hub with jobs := t.hub.jobs, declared := t.hub.declared } } t)

/-- RESET_BODY empties the body and APPEND adds a chunk of BAR2 up to 16 MiB (R420). SUBMIT of a body that is not well
formed is refused with result 1 and counted; one in order, of a partition that the hub coordinates, with ticks far enough
ahead and room in the queue, takes the next TID in phase 1 and the next turn (R421, R425). CANCEL ends one in phase 1 as
aborted, frees its turn and lock, and is reported by an event (R434, R445). A transaction takes its lock in its turn and is
prepared (R425, R426). -/
def Obligations.ComposingATransaction : Prop :=
  (∀ (i : Iface) (data : Word) (s : State),
    Answers s i →
    i.part = .hub →
    getB data 61 = false ∧ getB data 62 = false ∧ getB data 63 = false →
    ∃ t, exec (.txnResetBody i data) s = .next t ∧
      (t = emit (modHub (modTxnRegs s fun r => { r with txnCtrlChunk := getF data 0 16 }) fun h => { h with body := [] })
        (.writeAck i false))) ∧
  (∀ (i : Iface) (data : Word) (n : Nat) (s : State),
    Answers s i →
    i.part = .hub →
    getB data 60 = false ∧ getB data 61 = false ∧ getB data 63 = false →
    n = (getF data 0 16 : BitVec 16).toNat + 1 →
    s.hub.body.length + n ≤ 16777216 →
    ∃ t, exec (.txnAppend i data) s = .next t ∧
      (t.hub.body = s.hub.body ++ (List.range n).map fun k => tget 0 s.hub.bar2 k) ∧
      t.hub.txn.txnCtrlChunk = getF data 0 16 ∧
      t.out.getLast? = some (.writeAck i false) ∧
      t.hub.jobs = s.hub.jobs ∧
      t.tsu = s.tsu ∧
      Reported { s with
        hub := { s.hub with
          txn := t.hub.txn, nextTid := t.hub.nextTid, txns := t.hub.txns, queue := t.hub.queue, finished := t.hub.finished,
          locks := t.hub.locks, body := t.hub.body, staged := t.hub.staged, sh := { s.hub.sh with tb := t.hub.sh.tb } },
        tsu := { s.tsu with staged := t.tsu.staged, sh := { s.tsu.sh with tb := t.tsu.sh.tb } } } t) ∧
  (∀ (i : Iface) (data : Word) (s : State),
    Answers s i →
    i.part = .hub →
    getB data 60 = false ∧ getB data 61 = false ∧ getB data 62 = false →
    bodyReserved s.hub.body = false →
    bodyOk s.hub.body = false →
    ∃ t, exec (.txnSubmit i data) s = .next t ∧
      (t = emit (modTxnRegs s fun r => { r with
        txnCtrlChunk := getF data 0 16, txnSubmittedSubmitResult := 1,
        txnErrSubmitRefused := satInc r.txnErrSubmitRefused }) (.writeAck i false))) ∧
  (∀ (i : Iface) (data : Word) (s : State),
    Answers s i →
    i.part = .hub →
    getB data 60 = false ∧ getB data 61 = false ∧ getB data 62 = false →
    bodyReserved s.hub.body = true →
    ∃ t, exec (.txnSubmit i data) s = .next t ∧
      (t = emit (modTxnRegs (refuse (modTxnRegs s fun r => { r with txnCtrlChunk := getF data 0 16 }) .hub .txn) fun r =>
        { r with txnSubmittedSubmitResult := 1, txnErrSubmitRefused := satInc r.txnErrSubmitRefused }) (.writeAck i false))) ∧
  (∀ (i : Iface) (data : Word) (h : TxnHdr) (s : State),
    Answers s i →
    i.part = .hub →
    getB data 60 = false ∧ getB data 61 = false ∧ getB data 62 = false →
    h = txnHdr s.hub.body →
    bodyOk s.hub.body = true →
    coordinates s s.hub.body = true →
    s.valid .hub = true →
    ticksAhead s s.hub.body = true →
    tickTest h.commit (s.now .hub) = .inWindow →
    s.hub.queue.length < 32 →
    ∃ t, exec (.txnSubmit i data) s = .next t ∧
      t.hub.queue = s.hub.queue ++ [s.hub.nextTid] ∧
      t.hub.nextTid = s.hub.nextTid + 1 ∧
      t.txn s.hub.nextTid = {
        regs := {
          txnStatusPhase := 1, txnStatusKind := h.kind.setWidth 4, txnStatusPartition := h.partition, txnTick := h.commit,
          txnTag := h.tag },
        voteBy := h.voteBy, body := s.hub.body } ∧
      t.hub.txn.txnSubmittedSubmitResult = 0 ∧ t.hub.txn.txnSubmittedTid = s.hub.nextTid ∧
      t.out.getLast? = some (.writeAck i false) ∧
      t.hub.jobs = s.hub.jobs ∧
      t.tsu = s.tsu ∧
      Reported { s with
        hub := { s.hub with
          txn := t.hub.txn, nextTid := t.hub.nextTid, txns := t.hub.txns, queue := t.hub.queue, finished := t.hub.finished,
          locks := t.hub.locks, body := t.hub.body, staged := t.hub.staged, sh := { s.hub.sh with tb := t.hub.sh.tb } },
        tsu := { s.tsu with staged := t.tsu.staged, sh := { s.tsu.sh with tb := t.tsu.sh.tb } } } t) ∧
  (∀ (i : Iface) (data : Word) (tid : BitVec 16) (s : State),
    Answers s i →
    i.part = .hub →
    getB data 60 = false ∧ getB data 62 = false ∧ getB data 63 = false →
    tid = (s.iface i).regs.txnSel →
    (s.txn tid).regs.txnStatusPhase = 1 →
    (s.hub.finished.drop 255).contains tid = false →
    ∃ t, exec (.txnCancel i data) s = .next t ∧
      (t.txn tid).regs = { (s.txn tid).regs with txnStatusPhase := 5 } ∧
      t.hub.queue = s.hub.queue.erase tid ∧
      tget none t.hub.locks (s.txn tid).regs.txnStatusPartition.toNat ≠ some tid ∧
      t.hub.evh.evHead = s.hub.evh.evHead + 1 ∧
      t.out.getLast? = some (.writeAck i false) ∧
      t.hub.jobs = s.hub.jobs ∧
      t.tsu = s.tsu ∧
      Reported { s with
        hub := { s.hub with
          txn := t.hub.txn, nextTid := t.hub.nextTid, txns := t.hub.txns, queue := t.hub.queue, finished := t.hub.finished,
          locks := t.hub.locks, body := t.hub.body, staged := t.hub.staged, sh := { s.hub.sh with tb := t.hub.sh.tb } },
        tsu := { s.tsu with staged := t.tsu.staged, sh := { s.tsu.sh with tb := t.tsu.sh.tb } } } t) ∧
  (∀ (tid : BitVec 16) (s : State),
    (s.txn tid).regs.txnStatusPhase = 1 →
    tget none s.hub.locks (s.txn tid).regs.txnStatusPartition.toNat = some tid →
    ∃ t, exec (.txnLockTake tid) s = .next t ∧
      t = sendPrepare s tid) ∧
  (∀ (tid : BitVec 16) (part : BitVec 13) (s : State),
    (s.txn tid).regs.txnStatusPhase = 1 →
    part = (s.txn tid).regs.txnStatusPartition →
    tget none s.hub.locks part.toNat = none →
    (s.hub.queue.find? (fun x => (s.txn x).regs.txnStatusPartition == part) = some tid) →
    (s.txn tid).voteBy.toNat < (s.now .hub).toNat + 10000 →
    (s.hub.finished.drop 255).contains tid = false →
    ∃ t, exec (.txnLockTake tid) s = .next t ∧
      (t.txn tid).regs = { (s.txn tid).regs with txnStatusPhase := 5 } ∧
      t.hub.queue = s.hub.queue.erase tid ∧
      t.hub.jobs = s.hub.jobs ∧
      t.tsu = s.tsu ∧
      Reported { s with
        hub := { s.hub with
          txn := t.hub.txn, txns := t.hub.txns, queue := t.hub.queue, finished := t.hub.finished, locks := t.hub.locks,
          staged := t.hub.staged },
        tsu := { s.tsu with txnt := t.tsu.txnt, staged := t.tsu.staged } } t)

/-- A vote or report with a reserved value is dropped as malformed (R13, R427). At the coordinator, of a transaction that is
PREPARING: a no aborts it with its REASON and VOTER, a yes is counted, and with all expected it is COMMITTED (R429); any
other vote changes nothing, and one for another coordinator goes on toward it (R426). VOTE_BY passed with a vote missing
aborts it (R429). Of a COMMITTED one, DONE, or DRAINED for TEARDOWN, is counted, and with the last it is DONE, with the
cause, its turn and lock free; another report changes nothing of it, and one for another coordinator goes on (R432). More
than 100 us after COMMIT_TICK with a report missing it is PARTIAL, its turn and lock free (R432); before either limit the
two commands change nothing. -/
def Obligations.VotesAndReports : Prop :=
  (∀ (l : LinkId) (m : VoteP) (arrived : List (BitVec 20 × BitVec 16)) (passed : List (BitVec 20 × BitVec 12 × BitVec 64)) (s :
    State),
    msgReserved (.vote m) = true →
    ∃ t, exec (.voteReceive l m arrived passed) s = .next t ∧
      t = malformedFlit (taken s l (.vote m)) l) ∧
  (∀ (l : LinkId) (m : VoteP) (arrived : List (BitVec 20 × BitVec 16)) (passed : List (BitVec 20 × BitVec 12 × BitVec 64)) (s :
    State),
    msgReserved (.vote m) = false →
    m.coord = s.hub.id.hubAddr →
    (s.txn m.tid).regs.txnStatusPhase = 2 →
    (s.txn m.tid).regs.txnStatusPartition = m.partition →
    m.reason ≠ 0 →
    (s.hub.finished.drop 255).contains m.tid = false →
    ∃ t, exec (.voteReceive l m arrived passed) s = .next t ∧
      (t.txn m.tid).regs = { (s.txn m.tid).regs with
        txnStatusPhase := 5, txnStatusReason := m.reason, txnStatusVoter := m.origin } ∧
      t.hub.queue = s.hub.queue.erase m.tid ∧
      tget none t.hub.locks m.partition.toNat ≠ some m.tid ∧
      (t.hdr .hub .txn).pageIntStatus.getLsbD 1 = true ∧
      t.hub.evh.evHead = s.hub.evh.evHead + 1 ∧
      t.hub.jobs = s.hub.jobs ∧
      Reported { s with
        hub := { s.hub with
          txns := t.hub.txns, queue := t.hub.queue, finished := t.hub.finished, locks := t.hub.locks, staged := t.hub.staged },
        tsu := { s.tsu with staged := t.tsu.staged } } t) ∧
  (∀ (l : LinkId) (m : VoteP) (arrived : List (BitVec 20 × BitVec 16)) (passed : List (BitVec 20 × BitVec 12 × BitVec 64)) (s :
    State),
    msgReserved (.vote m) = false →
    m.coord = s.hub.id.hubAddr →
    (s.txn m.tid).regs.txnStatusPhase = 2 →
    (s.txn m.tid).regs.txnStatusPartition = m.partition →
    m.reason = 0 →
    ((s.txn m.tid).regs.txnVotesYes + m.yes.setWidth 32).toNat < (s.txn m.tid).regs.txnVotesExpected.toNat →
    ∃ t, exec (.voteReceive l m arrived passed) s = .next t ∧
      (t.txn m.tid).regs = { (s.txn m.tid).regs with txnVotesYes := (s.txn m.tid).regs.txnVotesYes + m.yes.setWidth 32 } ∧
      t.hub.queue = s.hub.queue ∧
      t.hub.locks = s.hub.locks ∧
      t.hub.jobs = s.hub.jobs ∧
      Reported { s with hub := { s.hub with txns := t.hub.txns } } t) ∧
  (∀ (l : LinkId) (m : VoteP) (arrived : List (BitVec 20 × BitVec 16)) (passed : List (BitVec 20 × BitVec 12 × BitVec 64)) (s :
    State),
    msgReserved (.vote m) = false →
    m.coord = s.hub.id.hubAddr →
    (s.txn m.tid).regs.txnStatusPhase = 2 →
    (s.txn m.tid).regs.txnStatusPartition = m.partition →
    m.reason = 0 →
    (s.txn m.tid).regs.txnVotesExpected.toNat ≤ ((s.txn m.tid).regs.txnVotesYes + m.yes.setWidth 32).toNat →
    ∃ t, exec (.voteReceive l m arrived passed) s = .next t ∧
      (t.txn m.tid).regs = { (s.txn m.tid).regs with
        txnStatusPhase := 3, txnVotesYes := (s.txn m.tid).regs.txnVotesYes + m.yes.setWidth 32 } ∧
      t.hub.queue = s.hub.queue ∧
      t.hub.locks = s.hub.locks ∧
      t.hub.jobs = s.hub.jobs ∧
      Reported { s with hub := { s.hub with txns := t.hub.txns, staged := t.hub.staged } } t) ∧
  (∀ (l : LinkId) (m : VoteP) (arrived : List (BitVec 20 × BitVec 16)) (passed : List (BitVec 20 × BitVec 12 × BitVec 64)) (s :
    State),
    msgReserved (.vote m) = false →
    m.coord = s.hub.id.hubAddr →
    (s.txn m.tid).regs.txnStatusPhase ≠ 2 ∨ (s.txn m.tid).regs.txnStatusPartition ≠ m.partition →
    ∃ t, exec (.voteReceive l m arrived passed) s = .next t ∧
      t = taken s l (.vote m)) ∧
  (∀ (l : LinkId) (m : VoteP) (arrived : List (BitVec 20 × BitVec 16)) (passed : List (BitVec 20 × BitVec 12 × BitVec 64)) (s :
    State),
    msgReserved (.vote m) = false →
    m.coord ≠ s.hub.id.hubAddr →
    ∃ t, exec (.voteReceive l m arrived passed) s = .next t ∧
      t = voteOn (keepArrived (taken s l (.vote m)) m.partition m.coord m.tid arrived) m) ∧
  (∀ (tid : BitVec 16) (s : State),
    (s.txn tid).regs.txnStatusPhase = 2 →
    (s.txn tid).voteBy.toNat < (s.now .hub).toNat →
    (s.hub.finished.drop 255).contains tid = false →
    ∃ t, exec (.voteTimeout tid) s = .next t ∧
      (t.txn tid).regs = { (s.txn tid).regs with txnStatusPhase := 5 } ∧
      t.hub.queue = s.hub.queue.erase tid ∧
      tget none t.hub.locks (s.txn tid).regs.txnStatusPartition.toNat ≠ some tid ∧
      (t.hdr .hub .txn).pageIntStatus.getLsbD 1 = true ∧
      t.hub.evh.evHead = s.hub.evh.evHead + 1 ∧
      t.hub.jobs = s.hub.jobs ∧
      t.tsu = s.tsu ∧
      Reported { s with
        hub := { s.hub with
          txns := t.hub.txns, queue := t.hub.queue, finished := t.hub.finished, locks := t.hub.locks,
            staged := t.hub.staged } } t) ∧
  (∀ (tid : BitVec 16) (s : State),
    (s.txn tid).regs.txnStatusPhase ≠ 2 ∨ (s.now .hub).toNat ≤ (s.txn tid).voteBy.toNat →
    ∃ t, exec (.voteTimeout tid) s = .next t ∧
      t = s) ∧
  (∀ (l : LinkId) (m : DoneP) (drained : Bool) (s : State),
    msgReserved (if drained then .drained {
      coord := m.coord, tid := m.tid, kind := m.kind, partition := m.partition } else .done m) = true →
    ∃ t, exec (.doneReceive l m drained) s = .next t ∧
      t = malformedFlit (taken s l (.done m)) l) ∧
  (∀ (l : LinkId) (m : DoneP) (drained : Bool) (s : State),
    msgReserved (if drained then .drained {
      coord := m.coord, tid := m.tid, kind := m.kind, partition := m.partition } else .done m) = false →
    m.coord = s.hub.id.hubAddr →
    (s.txn m.tid).regs.txnStatusPhase = 3 →
    ((s.txn m.tid).regs.txnStatusKind == 7) = drained →
    (s.txn m.tid).reports + 1 < (s.txn m.tid).hubs.length + (s.txn m.tid).eps.length →
    ∃ t, exec (.doneReceive l m drained) s = .next t ∧
      t.txn m.tid = { s.txn m.tid with reports := (s.txn m.tid).reports + 1 } ∧
      t.hub.queue = s.hub.queue ∧
      t.hub.locks = s.hub.locks ∧
      t.hub.jobs = s.hub.jobs ∧
      Reported { s with hub := { s.hub with txns := t.hub.txns } } t) ∧
  (∀ (l : LinkId) (m : DoneP) (drained : Bool) (s : State),
    msgReserved (if drained then .drained {
      coord := m.coord, tid := m.tid, kind := m.kind, partition := m.partition } else .done m) = false →
    m.coord = s.hub.id.hubAddr →
    (s.txn m.tid).regs.txnStatusPhase = 3 →
    ((s.txn m.tid).regs.txnStatusKind == 7) = drained →
    (s.txn m.tid).hubs.length + (s.txn m.tid).eps.length ≤ (s.txn m.tid).reports + 1 →
    (s.hub.finished.drop 255).contains m.tid = false →
    ∃ t, exec (.doneReceive l m drained) s = .next t ∧
      (t.txn m.tid).regs = { (s.txn m.tid).regs with txnStatusPhase := 4 } ∧
      t.hub.queue = s.hub.queue.erase m.tid ∧
      tget none t.hub.locks (s.txn m.tid).regs.txnStatusPartition.toNat ≠ some m.tid ∧
      (t.hdr .hub .txn).pageIntStatus.getLsbD 0 = true ∧
      t.hub.jobs = s.hub.jobs ∧
      Reported { s with
        hub := { s.hub with txns := t.hub.txns, queue := t.hub.queue, finished := t.hub.finished, locks := t.hub.locks } } t) ∧
  (∀ (l : LinkId) (m : DoneP) (drained : Bool) (s : State),
    msgReserved (if drained then .drained {
      coord := m.coord, tid := m.tid, kind := m.kind, partition := m.partition } else .done m) = false →
    m.coord = s.hub.id.hubAddr →
    (s.txn m.tid).regs.txnStatusPhase ≠ 3 ∨ ((s.txn m.tid).regs.txnStatusKind == 7) ≠ drained →
    ∃ t, exec (.doneReceive l m drained) s = .next t ∧
      t = taken s l (.done m)) ∧
  (∀ (l : LinkId) (m : DoneP) (drained : Bool) (s : State),
    msgReserved (if drained then .drained {
      coord := m.coord, tid := m.tid, kind := m.kind, partition := m.partition } else .done m) = false →
    m.coord ≠ s.hub.id.hubAddr →
    ∃ t, exec (.doneReceive l m drained) s = .next t ∧
      t = sendHub (taken s l (.done m)) (m.partition.setWidth 12) m.coord (if drained then .drained {
        coord := m.coord, tid := m.tid, kind := m.kind, partition := m.partition } else .done m)) ∧
  (∀ (tid : BitVec 16) (s : State),
    (s.txn tid).regs.txnStatusPhase = 3 →
    (s.txn tid).regs.txnTick.toNat + 100000 < (s.now .hub).toNat →
    (s.hub.finished.drop 255).contains tid = false →
    ∃ t, exec (.txnReportTimeout tid) s = .next t ∧
      (t.txn tid).regs = { (s.txn tid).regs with txnStatusPhase := 6 } ∧
      t.hub.queue = s.hub.queue.erase tid ∧
      tget none t.hub.locks (s.txn tid).regs.txnStatusPartition.toNat ≠ some tid ∧
      t.hub.jobs = s.hub.jobs ∧
      t.tsu = s.tsu ∧
      Reported { s with
        hub := { s.hub with txns := t.hub.txns, queue := t.hub.queue, finished := t.hub.finished, locks := t.hub.locks } } t) ∧
  (∀ (tid : BitVec 16) (s : State),
    (s.txn tid).regs.txnStatusPhase ≠ 3 ∨ (s.now .hub).toNat ≤ (s.txn tid).regs.txnTick.toNat + 100000 →
    ∃ t, exec (.txnReportTimeout tid) s = .next t ∧
      t = s)

/-- A flit with a reserved value is dropped as malformed (R13). A TSU that finds no reason against its share stages it and
votes yes (R426, R427); a deferred vote whose VOTE_BY has passed drops what was staged (R428). A COMMIT before COMMIT_TICK -
GUARD is held, an ABORT drops what is staged (R429, R430). At the tick a CONFIG without actions flips the TSU's epoch, with
its grace (R415, R416, R438), and a PAUSE brings the hub's partition to PAUSING, or to PAUSED where the lead's PAUSE_MARK
has come first and its engine is idle (R437); what was staged is gone. Without a COMMIT by COMMIT_TICK - GUARD the TSU drops
it, counts it and says so (R431). -/
def Obligations.TransactionsAtATarget : Prop :=
  (∀ (l : LinkId) (m : PrepareP) (cm vb : Tick) (g : Staged) (s : State),
    msgReserved (.prepare m) = false →
    l.part = .tsu →
    s.valid .tsu = true →
    extendWire m.commit (s.now .tsu) = some cm →
    extendWire m.voteBy (s.now .tsu) = some vb →
    tickTest cm (s.now .tsu) = .inWindow →
    g = {
      coord := m.coord, tid := m.tid, kind := m.kind, partition := m.partition, commit := cm, voteBy := vb, share := m.share,
      via := some l } →
    s.stagedAt .tsu m.partition = none →
    targetReason (taken s l (.prepare m)) .tsu g false = 0 →
    ∃ t, exec (.prepareReceive l m) s = .next t ∧
      t.stagedAt .tsu m.partition = some g ∧
      t.tsu.txnt = { s.tsu.txnt with
        ttVoteTid := m.tid, ttVoteCoord := m.coord, ttVoteReason := 0, ttVoteKind := m.kind.setWidth 4 } ∧
      t.hub = s.hub ∧
      Reported { s with
        hub := { s.hub with
          txn := t.hub.txn, txns := t.hub.txns, queue := t.hub.queue, finished := t.hub.finished, locks := t.hub.locks,
          staged := t.hub.staged, relays := t.hub.relays, sh := { s.hub.sh with tb := t.hub.sh.tb } },
        tsu := { s.tsu with txnt := t.tsu.txnt, staged := t.tsu.staged, sh := { s.tsu.sh with tb := t.tsu.sh.tb } } } t) ∧
  (∀ (l : LinkId) (m : PrepareP) (s : State),
    msgReserved (.prepare m) = true →
    ∃ t, exec (.prepareReceive l m) s = .next t ∧
      t = malformedFlit (taken s l (.prepare m)) l) ∧
  (∀ (p : Part) (partition : BitVec 13) (g : Staged) (s : State),
    s.stagedAt p partition = some g →
    g.deferred = true →
    g.voteBy.toNat < (s.now p).toNat →
    ∃ t, exec (.deferredVote p partition) s = .next t ∧
      t = setStaged s p partition none) ∧
  (∀ (l : LinkId) (m : CommitP) (g : Staged) (s : State),
    msgReserved (.commit m) = false →
    l.part = .tsu →
    s.stagedAt .tsu m.partition = some g →
    g.coord = m.coord ∧ g.tid = m.tid →
    g.committed = false ∧ g.deferred = false →
    g.kind ≠ 2 →
    pastGuard s .tsu g = false →
    ∃ t, exec (.commitReceive l m) s = .next t ∧
      t = holdCommit (taken s l (.commit m)) .tsu m.partition ∧
      t.stagedAt .tsu m.partition = some { g with committed := true } ∧
      t.hub = s.hub) ∧
  (∀ (l : LinkId) (m : CommitP) (s : State),
    msgReserved (.commit m) = true →
    ∃ t, exec (.commitReceive l m) s = .next t ∧
      t = malformedFlit (taken s l (.commit m)) l) ∧
  (∀ (l : LinkId) (m : AbortP) (g : Staged) (s : State),
    msgReserved (.abort m) = false →
    l.part = .tsu →
    s.stagedAt .tsu m.partition = some g →
    g.coord = m.coord ∧ g.tid = m.tid →
    g.committed = false →
    ∃ t, exec (.abortReceive l m) s = .next t ∧
      t = setStaged (taken s l (.abort m)) .tsu m.partition none ∧
      t.stagedAt .tsu m.partition = none ∧
      t.hub = s.hub) ∧
  (∀ (l : LinkId) (m : AbortP) (s : State),
    msgReserved (.abort m) = true →
    ∃ t, exec (.abortReceive l m) s = .next t ∧
      t = malformedFlit (taken s l (.abort m)) l) ∧
  (∀ (partition : BitVec 13) (g : Staged) (s : State),
    s.stagedAt .tsu partition = some g →
    g.partition = partition →
    commitDue s .tsu g = true →
    g.kind = 3 →
    actsOf g.share = [] →
    ∃ t, exec (.txnCommitApply .tsu partition) s = .next t ∧
      t.tsu.txnt = { s.tsu.txnt with ttJobEpoch := !s.tsu.txnt.ttJobEpoch, ttJobGrace := true } ∧
      t.tsu.lastFlip = some g.commit ∧
      t.stagedAt .tsu partition = none ∧
      t.hub = s.hub ∧
      Reported { s with tsu := { s.tsu with txnt := t.tsu.txnt, staged := t.tsu.staged, lastFlip := t.tsu.lastFlip } } t) ∧
  (∀ (partition : BitVec 13) (g : Staged) (j : BitVec 12) (s : State),
    s.stagedAt .hub partition = some g →
    g.partition = partition →
    partition = j.setWidth 13 →
    commitDue s .hub g = true →
    g.kind = 4 →
    actsOf g.share = [] →
    ∃ t, exec (.txnCommitApply .hub partition) s = .next t ∧
      (t.job j).regs = { (s.job j).regs with
        jobStatusState := (if (s.job j).marked = true ∧ (s.job j).seq.regs.seqStatusState = 0 ∧
          s.isLead j = false then 4 else 3),
        jobStatusLastTid := g.tid } ∧
      (t.job j).seq = (s.job j).seq ∧
      t.stagedAt .hub partition = none ∧
      t.tsu = s.tsu ∧
      Reported { s with hub := { s.hub with jobs := t.hub.jobs, staged := t.hub.staged } } t) ∧
  (∀ (p : Part) (partition : BitVec 13) (g : Staged) (s : State),
    p = .tsu →
    s.stagedAt .tsu partition = some g →
    g.partition = partition →
    g.committed = false ∧ g.deferred = false →
    s.valid .tsu = true →
    pastGuard s .tsu g = true →
    g.kind ≠ 2 →
    ∃ t, exec (.noCommit p partition) s = .next t ∧
      t.stagedAt .tsu partition = none ∧
      t.tsu.txnt = { s.tsu.txnt with ttErrNoCommit := satInc s.tsu.txnt.ttErrNoCommit } ∧
      (t.hdr .tsu .txnt).pageIntStatus.getLsbD 1 = true ∧
      t.hub = s.hub ∧
      Reported { s with
        hub := { s.hub with
          jobs := t.hub.jobs, aud := t.hub.aud, audRing := t.hub.audRing, txn := t.hub.txn, txns := t.hub.txns,
          queue := t.hub.queue, finished := t.hub.finished, locks := t.hub.locks, staged := t.hub.staged },
        tsu := { s.tsu with txnt := t.tsu.txnt, step := t.tsu.step, staged := t.tsu.staged } } t)

/-- A flit with a reserved value is dropped as malformed (R13). A PAUSE_MARK is kept, but one whose STEP is too far counted
(R67), until the TSU is quiescent, when its reply leaves (R437); the lead keeps the ranks that replied. The grace of an
epoch ends 50 us after its flip (R416). A drained part holds nothing of the job but its program and LAST_TID (R440).
JOB_ABORT, a missed launch or ABORT_CMD bring a part to ABORTED with its engine idle (R252, R442, R444); the lead counts
acknowledgements down (R443). A twin that hears nothing takes the lead under the next LEAD_GEN (R404), and applies what is
mirrored to it (R457). -/
def Obligations.PausesDrainsAndAborts : Prop :=
  (∀ (job : BitVec 12) (x : Tick) (s : State),
    (s.job job).lastFlip = some x →
    x.toNat + 50000 ≤ (s.now .hub).toNat →
    ∃ t, exec (.graceEnd .hub job) s = .next t ∧
      (t = modJob s job fun b => { b with regs := { b.regs with jobStatusGrace := false } })) ∧
  (∀ (job : BitVec 12) (x : Tick) (s : State),
    s.tsu.txnt.ttJob = job →
    s.tsu.lastFlip = some x →
    x.toNat + 50000 ≤ (s.now .tsu).toNat →
    ∃ t, exec (.graceEnd .tsu job) s = .next t ∧
      (t = modTsu s fun h => { h with txnt := { h.txnt with ttJobGrace := false } })) ∧
  (∀ (l : LinkId) (m : PauseMarkP) (s : State),
    l.part = .tsu →
    TsuRuns s m.job m.epoch →
    (extendStep m.step s.tsu.step.stepNow).isSome = true →
    ∃ t, exec (.pauseMarkReceive l m) s = .next t ∧
      (t = modTsu (taken s l (.pauseMark m)) fun h => { h with pauseMark := true })) ∧
  (∀ (l : LinkId) (m : PauseMarkP) (s : State),
    l.part = .tsu →
    TsuRuns s m.job m.epoch →
    extendStep m.step s.tsu.step.stepNow = none →
    ∃ t, exec (.pauseMarkReceive l m) s = .next t ∧
      t = countStepRefused (taken s l (.pauseMark m)) .tsu m.step s.tsu.step.stepNow) ∧
  (∀ (s : State),
    s.tsu.pauseMark = true →
    quiescent s = true →
    s.tsu.txnt.ttJobState ≠ 3 ∨ s.isLead s.tsu.txnt.ttJob = true →
    ∃ t, exec .pauseReplySend s = .next t ∧
      (t = tsuSend (modTsu s fun h => { h with pauseMark := false }) (.pauseReply {
        job := s.tsu.txnt.ttJob, epoch := s.tsu.txnt.ttJobEpoch, rank := s.tsu.rank })) ∧
      t.tsu.pauseMark = false ∧
      t.hub = s.hub) ∧
  (∀ (s : State),
    s.tsu.pauseMark = true →
    quiescent s = true →
    s.tsu.txnt.ttJobState = 3 →
    s.isLead s.tsu.txnt.ttJob = false →
    ∃ t, exec .pauseReplySend s = .next t ∧
      t.tsu.txnt.ttJobState = 4 ∧
      (t = tsuState (tsuSend (modTsu s fun h => { h with pauseMark := false }) (.pauseReply {
        job := s.tsu.txnt.ttJob, epoch := s.tsu.txnt.ttJobEpoch, rank := s.tsu.rank })) 4) ∧
      t.hub = s.hub) ∧
  (∀ (l : LinkId) (m : PauseReplyP) (s : State),
    l.part = .hub →
    s.isLead m.job = true →
    (s.job m.job).marked = false →
    (s.job m.job).replied.contains m.rank = false →
    ∃ t, exec (.pauseReplyReceive l m) s = .next t ∧
      (t = modJob (taken s l (.pauseReply m)) m.job fun b => { b with replied := b.replied ++ [m.rank] }) ∧
      t.tsu = s.tsu) ∧
  (∀ (job : BitVec 12) (s : State),
    (s.job job).regs.jobStatusState = 6 →
    s.stagedAt .hub (job.setWidth 13) = none →
    ∃ t, exec (.drainDone .hub job) s = .next t ∧
      t.job job = { regs := { jobStatusLastTid := (s.job job).regs.jobStatusLastTid }, seq := (s.job job).seq } ∧
      (t.hub.groups = s.hub.groups.filter fun g => g.2.owner != some job) ∧
      t.tsu = s.tsu ∧
      Reported { s with
        hub := { s.hub with
          jobs := t.hub.jobs, prov := t.hub.prov, groups := t.hub.groups, xlCache := t.hub.xlCache, txns := t.hub.txns,
          queue := t.hub.queue, finished := t.hub.finished, locks := t.hub.locks, staged := t.hub.staged } } t) ∧
  (∀ (job : BitVec 12) (s : State),
    s.tsu.txnt.ttJob = job →
    s.tsu.txnt.ttJobState = 6 →
    s.stagedAt .tsu (job.setWidth 13) = none →
    ∃ t, exec (.drainDone .tsu job) s = .next t ∧
      t.tsu.txnt.ttJobState = 0 ∧ t.tsu.txnt.ttJob = 0 ∧ t.tsu.txnt.ttJobEpoch = false ∧
      t.tsu.slots = [] ∧ t.tsu.ctxs = [] ∧ t.tsu.plan = [] ∧ t.tsu.store = [] ∧
      t.tsu.seq = s.tsu.seq ∧
      t.hub.jobs = s.hub.jobs ∧
      Reported { s with
        tsu := { s.tsu with
          txnt := t.tsu.txnt, rank := t.tsu.rank, members := t.tsu.members, slots := t.tsu.slots, ctxs := t.tsu.ctxs,
          store := t.tsu.store, resFlags := t.tsu.resFlags, plan := t.tsu.plan, stepObj := t.tsu.stepObj, rel := t.tsu.rel,
          launch := t.tsu.launch, launched := t.tsu.launched, staged := t.tsu.staged } } t) ∧
  (∀ (i : Iface) (data : Word) (j : BitVec 12) (s : State),
    Answers s i →
    i.part = .hub →
    j = getF data 0 12 →
    s.isLead j = true →
    (s.job j).regs.jobStatusState = 2 →
    ∃ t, exec (.abortCmd i data) s = .next t ∧
      (t.job j).regs.jobStatusState = 5 ∧
      (t.job j).regs.jobStatusEpoch = (s.job j).regs.jobStatusEpoch ∧
      (t.job j).seq.regs.seqStatusState = 0 ∧
      (t.job j).nextLaunch = none ∧
      (t.hdr .hub .txn).pageIntStatus.getLsbD 2 = true ∧
      t.out.getLast? = some (.writeAck i false) ∧
      Reported { s with
        hub := { s.hub with
          jobs := t.hub.jobs, aud := t.hub.aud, audRing := t.hub.audRing, txn := t.hub.txn, txns := t.hub.txns,
          queue := t.hub.queue, finished := t.hub.finished, locks := t.hub.locks, staged := t.hub.staged },
        tsu := { s.tsu with staged := t.tsu.staged } } t) ∧
  (∀ (l : LinkId) (m : JobAbortP) (s : State),
    msgReserved (.jobAbort m) = false →
    l.part = .tsu →
    s.tsuHasJob = true →
    s.tsu.txnt.ttJob = m.job →
    s.tsu.txnt.ttJobState ≠ 5 →
    ∃ t, exec (.jobAbortReceive l m) s = .next t ∧
      t.tsu.txnt = { s.tsu.txnt with ttJobState := 5, ttErrAborts := satInc s.tsu.txnt.ttErrAborts } ∧
      t.tsu.seq.regs.seqStatusState = 0 ∧
      t.tsu.launch = none ∧ t.tsu.sends = [] ∧ t.tsu.heldSends = [] ∧
      (t.hdr .tsu .txnt).pageIntStatus.getLsbD 0 = true ∧
      t.hub.jobs = s.hub.jobs ∧
      Reported { s with
        hub := { s.hub with
          jobs := t.hub.jobs, aud := t.hub.aud, audRing := t.hub.audRing, txns := t.hub.txns, queue := t.hub.queue,
          finished := t.hub.finished, locks := t.hub.locks, staged := t.hub.staged },
        tsu := { s.tsu with
          txnt := t.tsu.txnt, step := t.tsu.step, trigs := t.tsu.trigs, taps := t.tsu.taps, waits := t.tsu.waits,
          sends := t.tsu.sends, heldSends := t.tsu.heldSends, seq := t.tsu.seq, rel := t.tsu.rel, launch := t.tsu.launch,
          staged := t.tsu.staged, pauseMark := t.tsu.pauseMark, missed := t.tsu.missed, xhold := [] } } t) ∧
  (∀ (l : LinkId) (m : JobAbortP) (s : State),
    msgReserved (.jobAbort m) = true →
    ∃ t, exec (.jobAbortReceive l m) s = .next t ∧
      t = malformedFlit (taken s l (.jobAbort m)) l) ∧
  (∀ (l : LinkId) (m : DoneP) (member : Bool) (j : BitVec 12) (s : State),
    msgReserved (.done m) = false →
    l.part = .hub →
    member = true →
    j = m.partition.setWidth 12 →
    s.isLead j = true →
    (s.job j).regs.jobStatusState = 5 →
    (s.job j).regs.jobStatusAbortPending ≠ 0 →
    ∃ t, exec (.abortAckReceive l m member) s = .next t ∧
      (t.job j).regs = { (s.job j).regs with
        jobStatusAbortPending := (s.job j).regs.jobStatusAbortPending - 1,
        jobStatusAbortDone := (s.job j).regs.jobStatusAbortPending == 1 && (s.job j).hubsPending == 0 } ∧
      (t.job j).hubsPending = (s.job j).hubsPending ∧
      t.tsu = s.tsu ∧
      Reported { s with hub := { s.hub with jobs := t.hub.jobs } } t) ∧
  (∀ (l : LinkId) (m : ReportP) (s : State),
    l.part = .hub →
    m.kind = 0 →
    (extendStep m.step (s.job m.job).step).isSome = true →
    s.isLead m.job = true →
    (s.job m.job).regs.jobStatusState = 2 →
    ∃ t, exec (.reportReceive l m) s = .next t ∧
      (t.job m.job).steph = { (s.job m.job).steph with sthCountLaunchMiss := satInc (s.job m.job).steph.sthCountLaunchMiss } ∧
      (t.job m.job).regs.jobStatusState = 5 ∧
      (t.hdr .hub .steph).pageIntStatus.getLsbD 2 = true ∧
      t.tsu = s.tsu ∧
      Reported { s with
        hub := { s.hub with
          jobs := t.hub.jobs, aud := t.hub.aud, audRing := t.hub.audRing, txns := t.hub.txns, queue := t.hub.queue,
          finished := t.hub.finished, locks := t.hub.locks, staged := t.hub.staged },
        tsu := { s.tsu with staged := t.tsu.staged } } t) ∧
  (∀ (l : LinkId) (m : ReportP) (s : State),
    m.kind = 3 →
    ∃ t, exec (.reportReceive l m) s = .next t ∧
      t = taken s l (.report m)) ∧
  (∀ (j : BitVec 12) (s : State),
    (((List.range 288).map (linkOfKey .hub)).filter fun l => s.role l == 3).any (heardLately s) = false →
    s.hub.flt.hubRole ≠ 1 →
    (s.hub.jobs.any (fun e => e.1 == j.toNat) = true) →
    s.isHome j = true →
    (s.job j).leads = false →
    ∃ t, exec .leadTakeover s = .next t ∧
      (t.job j).leads = true ∧
      (t.job j).flt.leadStatLeadGen = (s.job j).flt.leadStatLeadGen + 1 ∧
      (t.hdr .hub .flt).pageIntStatus.getLsbD 3 = true ∧
      t.hub.mtxns = [] ∧ t.hub.twinUp = [] ∧
      t.tsu = s.tsu ∧
      Reported { s with
        hub := { s.hub with
          flt := t.hub.flt, jobs := t.hub.jobs, staged := t.hub.staged, mtxns := t.hub.mtxns, twinUp := t.hub.twinUp },
        tsu := { s.tsu with staged := t.tsu.staged } } t) ∧
  (∀ (l : LinkId) (m : MirrorP) (x : Barrier) (s : State),
    s.isTwin l = true →
    l.part = .hub →
    m.item = 0 →
    s.barrier m.job (m.key.setWidth 16) = some x →
    ∃ t, exec (.mirrorReceive l m) s = .next t ∧
      t.barrier m.job (m.key.setWidth 16) = some { x with
        regs := { x.regs with
          shCount := BitVec.ofNat 19 (bytesAt m.value 0 4), shGen := BitVec.ofNat 64 (bytesAt m.value 4 8) } } ∧
      t.tsu = s.tsu ∧
      Reported { s with
        hub := { s.hub with
          flt := t.hub.flt, jobs := t.hub.jobs, deth := t.hub.deth, rlRing := t.hub.rlRing, dsnSeen := t.hub.dsnSeen,
          mtxns := t.hub.mtxns, mbody := t.hub.mbody, twinUp := t.hub.twinUp } } t) ∧
  (∀ (l : LinkId) (m : MirrorP) (gen : BitVec 16) (s : State),
    s.isTwin l = true →
    l.part = .hub →
    m.item = 10 →
    gen = BitVec.ofNat 16 (bytesAt m.value 0 2) →
    laterThan gen (s.job m.job).flt.leadStatLeadGen = true →
    (s.job m.job).leads = true →
    ∃ t, exec (.mirrorReceive l m) s = .next t ∧
      (t.job m.job).leads = false ∧
      (t.job m.job).flt.leadStatLeadGen = gen ∧
      t.hub.flt.hubRole = 1 ∧ t.hub.flt.hubRoleCleanSteps = 0 ∧
      t.tsu = s.tsu ∧
      Reported { s with
        hub := { s.hub with
          flt := t.hub.flt, jobs := t.hub.jobs, deth := t.hub.deth, rlRing := t.hub.rlRing, dsnSeen := t.hub.dsnSeen,
          mtxns := t.hub.mtxns, mbody := t.hub.mbody, twinUp := t.hub.twinUp } } t)

/-- A bad codeword of a data lane is counted for it, and an accepted one is counted when it was corrected (R453); a lane in
SHADOW whose copy differs from the codeword of the lane that stands for it is charged (R400). LACK frees what it
acknowledges (R458); LNAK replays the rest and counts, and the eighth in a row for one LSEQ, or a stall, takes the link out
of service with its buffers empty and its cause set (R458, R459, R465). CREDIT adds, while NOT_READY stands for MGMT alone,
or with FULL sets it and ends NOT_READY (R460, R461); NOT_READY leaves credit for MGMT alone, and a part that is not ready
sends it (R461, R479). -/
def Obligations.LinkDelivery : Prop :=
  (∀ (p : Part) (port : BitVec 7) (lane : BitVec 3) (bad corrected : Bool) (slots : List (BitVec 512)) (s : State),
    bad = false →
    slots = [] →
    (logicalOf s p port lane).isSome = true →
    ∃ t, exec (.codewordReceive p port lane bad corrected slots) s = .next t ∧
      (t = heardOn (keepWord (modFec s p port lane fun r => if corrected then { r with lkFecCorrCw := satInc r.lkFecCorrCw }
        else r) p port lane []) (linkOfLane s p port lane))) ∧
  (∀ (p : Part) (port : BitVec 7) (lane : BitVec 3) (bad corrected : Bool) (slots : List (BitVec 512)) (s : State),
    bad = true →
    (logicalOf s p port lane).isSome = true →
    ∃ t, exec (.codewordReceive p port lane bad corrected slots) s = .next t ∧
      (t = remapStart (sendLnak (keepWord (modFec s p port lane fun r => { r with lkFecUncorrCw := satInc r.lkFecUncorrCw }) p
        port lane []) (linkOfLane s p port lane)) p port lane)) ∧
  (∀ (p : Part) (port : BitVec 7) (lane : BitVec 3) (bad corrected : Bool) (slots : List (BitVec 512)) (u : BitVec 16) (s :
    State),
    (logicalOf s p port lane).isSome = false →
    p = .hub →
    u = laneUnit port lane →
    (s.unit u).unitState = 3 →
    bad = true ∨ tget [] (s.page p port).words (unitIndex (s.unit u).unitStateStandin % 5) ≠ slots →
    ∃ t, exec (.codewordReceive p port lane bad corrected slots) s = .next t ∧
      (t = chargeUnit (modFec s p port lane fun r => if bad then { r with lkFecUncorrCw := satInc r.lkFecUncorrCw } else if
        corrected then { r with lkFecCorrCw := satInc r.lkFecCorrCw } else r) u 0xFF)) ∧
  (∀ (l : LinkId) (m : LackP) (s : State),
    (s.link l).hold = [] →
    ∃ t, exec (.lackReceive l m) s = .next t ∧
      ((t.link l).replay = (s.link l).replay.filter fun e => !seqBefore e (m.lseq + 1)) ∧
      (t.link l).credit = (s.link l).credit ∧
      t.out = s.out ∧
      t.hub.jobs = s.hub.jobs ∧
      t.tsu.seq = s.tsu.seq ∧
      Reported s t) ∧
  (∀ (l : LinkId) (m : LnakP) (s : State),
    (s.link l).hold = [] →
    (s.link l).replay.any (fun e => seqBefore e m.lseq) = true →
    ∃ t, exec (.lnakReceive l m) s = .next t ∧
      ((t.link l).replay = (s.link l).replay.filter fun e => !seqBefore e m.lseq) ∧
      (t.link l).nakRun = 1 ∧ (t.link l).nakSeq = m.lseq ∧
      (t.link l).regs = { (s.link l).regs with lkFlitRetries := satInc (s.link l).regs.lkFlitRetries } ∧
      (t.out = ((t.link l).replay.foldl (fun u e => emitFlit u l e.1 e.2.1 e.2.2) s).out) ∧
      Reported { s with
        hub := { s.hub with
          mod_ := t.hub.mod_, flt := t.hub.flt, admitQ := t.hub.admitQ,
          sh := { s.hub.sh with ifaces := t.hub.sh.ifaces, servo := t.hub.sh.servo } },
        tsu := { s.tsu with sh := { s.tsu.sh with ifaces := t.tsu.sh.ifaces, servo := t.tsu.sh.servo } } } t) ∧
  (∀ (l : LinkId) (m : LnakP) (s : State),
    (s.link l).hold = [] →
    (s.link l).replay.any (fun e => seqBefore e m.lseq) = false →
    (s.link l).nakSeq = m.lseq ∧ (s.link l).nakRun < 7 →
    ∃ t, exec (.lnakReceive l m) s = .next t ∧
      (t.link l).replay = (s.link l).replay ∧
      (t.link l).nakRun = (s.link l).nakRun + 1 ∧ (t.link l).nakSeq = m.lseq ∧
      (t.link l).regs = { (s.link l).regs with lkFlitRetries := satInc (s.link l).regs.lkFlitRetries } ∧
      (t.out = ((t.link l).replay.foldl (fun u e => emitFlit u l e.1 e.2.1 e.2.2) s).out) ∧
      Reported { s with
        hub := { s.hub with
          mod_ := t.hub.mod_, flt := t.hub.flt, admitQ := t.hub.admitQ,
          sh := { s.hub.sh with ifaces := t.hub.sh.ifaces, servo := t.hub.sh.servo } },
        tsu := { s.tsu with sh := { s.tsu.sh with ifaces := t.tsu.sh.ifaces, servo := t.tsu.sh.servo } } } t) ∧
  (∀ (l : LinkId) (m : LnakP) (s : State),
    (Page.link l.port).ordinal l.part ≠ none →
    (s.link l).hold = [] →
    (s.link l).replay.any (fun e => seqBefore e m.lseq) = false →
    (s.link l).nakSeq = m.lseq ∧ (s.link l).nakRun = 7 →
    (s.link l).active = true →
    ∃ t, exec (.lnakReceive l m) s = .next t ∧
      (t.link l).regs.lkState = 7 ∧
      (t.link l).replay = [] ∧ (t.link l).hold = [] ∧ (t.link l).credit = [0, 0, 0, 0, 0, 0] ∧
      (t.hdr l.part (.link l.port)).pageIntStatus.getLsbD 13 = true ∧
      t.hub.jobs = s.hub.jobs ∧
      Reported { s with
        hub := { s.hub with
          mod_ := t.hub.mod_, flt := t.hub.flt, admitQ := t.hub.admitQ,
          sh := { s.hub.sh with ifaces := t.hub.sh.ifaces, servo := t.hub.sh.servo } },
        tsu := { s.tsu with sh := { s.tsu.sh with ifaces := t.tsu.sh.ifaces, servo := t.tsu.sh.servo } } } t) ∧
  (∀ (l : LinkId) (s : State),
    (Page.link l.port).ordinal l.part ≠ none →
    (s.link l).replay ≠ [] →
    (s.link l).active = true →
    ∃ t, exec (.retryStall l) s = .next t ∧
      (t.link l).regs.lkState = 7 ∧
      (t.link l).replay = [] ∧ (t.link l).hold = [] ∧ (t.link l).credit = [0, 0, 0, 0, 0, 0] ∧
      (t.hdr l.part (.link l.port)).pageIntStatus.getLsbD 13 = true ∧
      t.hub.jobs = s.hub.jobs ∧
      Reported { s with
        hub := { s.hub with
          mod_ := t.hub.mod_, flt := t.hub.flt, admitQ := t.hub.admitQ,
          sh := { s.hub.sh with ifaces := t.hub.sh.ifaces, servo := t.hub.sh.servo } },
        tsu := { s.tsu with sh := { s.tsu.sh with ifaces := t.tsu.sh.ifaces, servo := t.tsu.sh.servo } } } t) ∧
  (∀ (l : LinkId) (s : State),
    (Page.link l.port).ordinal l.part ≠ none →
    (s.link l).active = true →
    ∃ t, exec (.linkLeaveService l) s = .next t ∧
      (t.link l).regs.lkState = 7 ∧
      (t.link l).replay = [] ∧ (t.link l).hold = [] ∧ (t.link l).credit = [0, 0, 0, 0, 0, 0] ∧
      (t.hdr l.part (.link l.port)).pageIntStatus.getLsbD 13 = true ∧
      t.hub.jobs = s.hub.jobs ∧
      Reported { s with
        hub := { s.hub with
          mod_ := t.hub.mod_, flt := t.hub.flt, admitQ := t.hub.admitQ,
          sh := { s.hub.sh with ifaces := t.hub.sh.ifaces, servo := t.hub.sh.servo } },
        tsu := { s.tsu with sh := { s.tsu.sh with ifaces := t.tsu.sh.ifaces, servo := t.tsu.sh.servo } } } t) ∧
  (∀ (l : LinkId) (m : CreditP) (s : State),
    (s.link l).hold = [] →
    m.full = true →
    ∃ t, exec (.creditReceive l m) s = .next t ∧
      (t.link l).credit = credList m.cred ∧
      (t.link l).regs = { (s.link l).regs with lkStateNotReady := false } ∧
      t.out = s.out ∧
      t.hub.jobs = s.hub.jobs ∧
      Reported s t) ∧
  (∀ (l : LinkId) (m : CreditP) (s : State),
    (s.link l).hold = [] →
    m.full = false →
    ∃ t, exec (.creditReceive l m) s = .next t ∧
      ((t.link l).credit = if (s.link l).regs.lkStateNotReady then (s.link l).credit.set 3 ((s.link l).credit.getD 3 0 +
        (credList m.cred).getD 3 0) else ((s.link l).credit.zip (credList m.cred)).map fun e => e.1 + e.2) ∧
      (t.link l).regs = (s.link l).regs ∧
      t.out = s.out ∧
      t.hub.jobs = s.hub.jobs ∧
      Reported s t) ∧
  (∀ (p : Part) (s : State),
    s.partReady p = false →
    ∃ t, exec (.notReadySend p) s = .next t ∧
      (t = (s.activeLinks p).foldl (fun u l => modLinkRegs (sendLink u l none (.notReady
        { cause := if s.valid p then 1 else 0 })) l fun r => { r with lkCreditNotReadyTx := satInc r.lkCreditNotReadyTx }) s) ∧
      t.hub.jobs = s.hub.jobs) ∧
  (∀ (l : LinkId) (m : NotReadyP) (s : State),
    m.cause.toNat < 2 →
    ∃ t, exec (.notReadyReceive l m) s = .next t ∧
      (t.link l).credit = [0, 0, 0, (s.link l).credit.getD 3 0, 0, 0] ∧
      (t.link l).regs = { (s.link l).regs with
        lkStateNotReady := true, lkCreditNotReadyRx := satInc (s.link l).regs.lkCreditNotReadyRx } ∧
      t.out = s.out ∧
      t.hub.jobs = s.hub.jobs ∧
      Reported s t)

/-- A lane that loses lock is counted (R468); it, a lane past a SER limit that is not 0, and REMAP_NOW with a lane below 4
start a remap: nothing where no service lane or another remap is there, failure where the spare is taken, else REMAP_REQ
under the next ID and the sideband where SPW_EN is 1 (R462, R463). A request is taken with the spare free, BUSY otherwise;
of two, the hub's or lower address's stands, the other end answers COLLISION and counts (R464). ACCEPT is held, BUSY gives
up, COLLISION changes nothing, an answer to no request or a reserved RESULT nothing of the remap. SPW_ACK drops SPW_REQ;
clean (and acknowledged under SPW_EN), the initiator names the codeword 128 ahead, the partner answers ACCEPT. There, not
before, the lane moves to the spare with count, cause and event (R463). No SPW_ACK in 100 us is counted and abandons it
(R464). -/
def Obligations.SpareLaneRemap : Prop :=
  (∀ (p : Part) (port : BitVec 7) (lane : BitVec 3) (s : State),
    ∃ t, exec (.laneLockLoss p port lane) s = .next t ∧
      (t = remapStart (modFec s p port lane fun r => { r with lkFecLockLoss := satInc r.lkFecLockLoss }) p port lane) ∧
      (tget {} (t.page p port).fec lane.toNat).lkFecLockLoss = satInc (tget {} (s.page p port).fec lane.toNat).lkFecLockLoss) ∧
  (∀ (p : Part) (port : BitVec 7) (lane : BitVec 3) (s : State),
    (s.link (linkOfLane s p port lane)).regs.lkCtrlSerLimit = 0 ∨ logicalOf s p port lane = none ∨
      (s.link (linkOfLane s p port lane)).active = false ∨ (s.page p port).remap ≠ none →
    ∃ t, exec (.serLimitExceeded p port lane) s = .next t ∧
      t = s) ∧
  (∀ (p : Part) (port : BitVec 7) (lane : BitVec 3) (i : Nat) (s : State),
    (s.link (linkOfLane s p port lane)).regs.lkCtrlSerLimit ≠ 0 →
    (s.link (linkOfLane s p port lane)).active = true →
    logicalOf s p port lane = some i →
    (s.page p port).remap = none →
    (s.page p port).spare ≠ noLane →
    ∃ t, exec (.serLimitExceeded p port lane) s = .next t ∧
      (t = sendLink (modPage s p port fun g => { g with
        remapId := g.remapId + 1,
        remap := some { id := (s.page p port).remapId, llane := BitVec.ofNat 2 i, victim := lane, initiator := true },
        spwReq := (s.link (linkOfLane s p port lane)).regs.lkCtrlSpwEn,
        spwSel := if (s.link (linkOfLane s p port lane)).regs.lkCtrlSpwEn then lane else 7
          }) (linkOfLane s p port lane) none (.remapReq {
            id := (s.page p port).remapId,
            llane := if p = .hub ∧ (s.page p port).role.portRoleSplit = true then 0 else BitVec.ofNat 2 i, victim := lane })) ∧
      (t.page p port).remap = some {
        id := (s.page p port).remapId, llane := BitVec.ofNat 2 i, victim := lane, initiator := true } ∧
      (t.page p port).remapId = (s.page p port).remapId + 1 ∧
      (t.page p port).spwReq = (s.link (linkOfLane s p port lane)).regs.lkCtrlSpwEn ∧
      t.hub.jobs = s.hub.jobs ∧
      Reported { s with
        hub := { s.hub with
          mod_ := t.hub.mod_, flt := t.hub.flt, admitQ := t.hub.admitQ,
          sh := { s.hub.sh with ifaces := t.hub.sh.ifaces, servo := t.hub.sh.servo, pages := t.hub.sh.pages } },
        tsu := { s.tsu with
          sh := { s.tsu.sh with ifaces := t.tsu.sh.ifaces, servo := t.tsu.sh.servo, pages := t.tsu.sh.pages } } } t) ∧
  (∀ (p : Part) (port : BitVec 7) (lane : BitVec 3) (i : Nat) (s : State),
    (s.link (linkOfLane s p port lane)).regs.lkCtrlSerLimit ≠ 0 →
    (s.link (linkOfLane s p port lane)).active = true →
    logicalOf s p port lane = some i →
    (s.page p port).remap = none →
    (s.page p port).spare = noLane →
    (Page.link port).ordinal p ≠ none →
    ∃ t, exec (.serLimitExceeded p port lane) s = .next t ∧
      (t.page p port).regs.lkRemapRemapFail = satInc (s.page p port).regs.lkRemapRemapFail ∧
      (t.link (linkOfLane s p port lane)).regs.lkState = 7 ∧
      Raised t p 0x0024 3) ∧
  (∀ (i : Iface) (port : BitVec 7) (data : Word) (s : State),
    Answers s i →
    (Page.link port).ordinal i.part ≠ none →
    (getF data 2 3 : BitVec 3).toNat < 4 →
    getB data 0 = false →
    ∃ t, exec (.remapNow i port data) s = .next t ∧
      (t = emit (remapStart (modLinkRegs s (s.ptLink i port) fun r => r.write 0x188 (data ||| putB 1 true)) i.part port (getF
        data 2 3)) (.writeAck i false))) ∧
  (∀ (i : Iface) (port : BitVec 7) (data : Word) (s : State),
    Answers s i →
    (Page.link port).ordinal i.part ≠ none →
    (getF data 2 3 : BitVec 3).toNat < 4 →
    getB data 0 = true →
    ∃ t, exec (.remapNow i port data) s = .next t ∧
      (t = emit (linkLeave (remapStart (modLinkRegs s (s.ptLink i port) fun r => r.write 0x188 (data ||| putB 1 true)) i.part
        port (getF data 2 3)) (s.ptLink i port)) (.writeAck i false))) ∧
  (∀ (i : Iface) (port : BitVec 7) (data : Word) (s : State),
    Answers s i →
    (Page.link port).ordinal i.part ≠ none →
    4 ≤ (getF data 2 3 : BitVec 3).toNat →
    ∃ t, exec (.remapNow i port data) s = .next t ∧
      t = emit (refuse s i.part (.link port)) (.writeAck i true)) ∧
  (∀ (l : LinkId) (m : RemapReqP) (s : State),
    (s.page l.part l.port).remap = none →
    (s.page l.part l.port).spare ≠ noLane →
    ∃ t, exec (.remapReqReceive l m) s = .next t ∧
      (t = modPage (heardOn s l) l.part l.port fun g => { g with
        remap := some {
          id := m.id, llane := if l.part = .hub ∧ (s.page l.part l.port).role.portRoleSplit = true then l.sub else m.llane,
          victim := m.victim, initiator := false },
        spwReq := (s.link l).regs.lkCtrlSpwEn, spwSel := if (s.link l).regs.lkCtrlSpwEn then m.victim else 7 }) ∧
      t.out = s.out ∧
      t.hub.jobs = s.hub.jobs ∧
      Reported { s with
        hub := { s.hub with sh := { s.hub.sh with pages := t.hub.sh.pages } },
        tsu := { s.tsu with sh := { s.tsu.sh with pages := t.tsu.sh.pages } } } t) ∧
  (∀ (l : LinkId) (m : RemapReqP) (s : State),
    (s.page l.part l.port).remap = none →
    (s.page l.part l.port).spare = noLane →
    ∃ t, exec (.remapReqReceive l m) s = .next t ∧
      t = sendLink (heardOn s l) l none (.remapAck { id := m.id, result := 1 }) ∧
      t.hub.jobs = s.hub.jobs) ∧
  (∀ (l : LinkId) (m : RemapReqP) (r : Remap) (s : State),
    (s.page l.part l.port).remap = some r →
    r.initiator = false ∨ r.accepted = true →
    ∃ t, exec (.remapReqReceive l m) s = .next t ∧
      t = sendLink (heardOn s l) l none (.remapAck { id := m.id, result := 1 })) ∧
  (∀ (l : LinkId) (m : RemapReqP) (r : Remap) (s : State),
    (s.page l.part l.port).remap = some r →
    r.initiator = true ∧ r.accepted = false →
    l.part = .hub →
    (s.link l).peerTsu = true ∨ s.hub.id.hubAddr.toNat < (s.seen l).toNat →
    ∃ t, exec (.remapReqReceive l m) s = .next t ∧
      t = heardOn s l) ∧
  (∀ (l : LinkId) (m : RemapReqP) (r : Remap) (s : State),
    (s.page l.part l.port).remap = some r →
    r.initiator = true ∧ r.accepted = false →
    l.part = .tsu ∨ ((s.link l).peerTsu = false ∧ (s.seen l).toNat ≤ s.hub.id.hubAddr.toNat) →
    (s.link l).active = true →
    ∃ t, exec (.remapReqReceive l m) s = .next t ∧
      (t.page l.part l.port).remap = some {
        id := m.id, llane := if l.part = .hub ∧ (s.page l.part l.port).role.portRoleSplit = true then l.sub else m.llane,
        victim := m.victim, initiator := false } ∧
      (t.page l.part l.port).regs = { (s.page l.part l.port).regs with
        lkRemapCollisions := satInc (s.page l.part l.port).regs.lkRemapCollisions } ∧
      t.out = (sendLink (heardOn s l) l none (.remapAck { id := r.id, result := 2 })).out ∧
      t.hub.jobs = s.hub.jobs) ∧
  (∀ (l : LinkId) (m : RemapAckP) (r : Remap) (s : State),
    (s.page l.part l.port).remap = some r →
    r.initiator = true ∧ r.id = m.id →
    m.result = 0 →
    r.clean = false →
    ∃ t, exec (.remapAckReceive l m) s = .next t ∧
      (t = modPage (heardOn s l) l.part l.port fun g => { g with remap := some { r with accepted := true } })) ∧
  (∀ (l : LinkId) (m : RemapAckP) (r : Remap) (s : State),
    (s.page l.part l.port).remap = some r →
    r.initiator = true ∧ r.id = m.id →
    m.result = 0 →
    r.clean = true ∧ r.ack = true ∧ r.sent = false →
    ∃ t, exec (.remapAckReceive l m) s = .next t ∧
      (t = sendLink (modPage (heardOn s l) l.part l.port fun g => { g with
        remap := some { r with
          accepted := true, sent := true,
          at_ := some ((s.link l).cwc + 128) } }) l none (.remapAt { id := r.id, cwc := (s.link l).cwc + 128 }))) ∧
  (∀ (l : LinkId) (m : RemapAckP) (r : Remap) (s : State),
    (s.page l.part l.port).remap = some r →
    r.initiator = true ∧ r.id = m.id →
    m.result = 1 →
    r.cal = false →
    ∃ t, exec (.remapAckReceive l m) s = .next t ∧
      t = remapFail (heardOn s l) l.part l.port r.victim ∧
      (t.page l.part l.port).remap = none ∧
      (t.page l.part l.port).regs.lkRemapRemapFail = satInc (s.page l.part l.port).regs.lkRemapRemapFail) ∧
  (∀ (l : LinkId) (m : RemapAckP) (r : Remap) (s : State),
    (s.page l.part l.port).remap = some r →
    r.initiator = true ∧ r.id = m.id →
    m.result = 1 →
    r.cal = true →
    ∃ t, exec (.remapAckReceive l m) s = .next t ∧
      (t = modPage (heardOn s l) l.part l.port fun g => { g with remap := none, spwReq := false, spwSel := 7 })) ∧
  (∀ (l : LinkId) (m : RemapAckP) (s : State),
    m.result = 2 →
    ∃ t, exec (.remapAckReceive l m) s = .next t ∧
      t = heardOn s l) ∧
  (∀ (l : LinkId) (m : RemapAckP) (s : State),
    (s.page l.part l.port).remap = none →
    m.result ≠ 3 →
    ∃ t, exec (.remapAckReceive l m) s = .next t ∧
      t = heardOn s l) ∧
  (∀ (l : LinkId) (m : RemapAckP) (r : Remap) (s : State),
    (s.page l.part l.port).remap = some r →
    r.initiator = false ∨ r.id ≠ m.id →
    m.result ≠ 3 →
    ∃ t, exec (.remapAckReceive l m) s = .next t ∧
      t = heardOn s l) ∧
  (∀ (l : LinkId) (m : RemapAckP) (s : State),
    m.result = 3 →
    ∃ t, exec (.remapAckReceive l m) s = .next t ∧
      t = malformedFlit (heardOn s l) l) ∧
  (∀ (l : LinkId) (m : RemapAtP) (r : Remap) (s : State),
    (s.page l.part l.port).remap = some r →
    r.initiator = false ∧ r.id = m.id →
    ∃ t, exec (.remapAtReceive l m) s = .next t ∧
      (t = modPage (heardOn s l) l.part l.port fun g => { g with remap := some { r with at_ := some m.cwc } })) ∧
  (∀ (l : LinkId) (m : RemapAtP) (s : State),
    (∀ r, (s.page l.part l.port).remap = some r → r.initiator = true ∨ r.id ≠ m.id) →
    ∃ t, exec (.remapAtReceive l m) s = .next t ∧
      (t.page l.part l.port).remap = (s.page l.part l.port).remap ∧
      t.out = s.out ∧
      t.hub = { s.hub with sh := { s.hub.sh with links := t.hub.sh.links, pages := t.hub.sh.pages } } ∧
      Reported { s with
        hub := { s.hub with sh := { s.hub.sh with pages := t.hub.sh.pages } },
        tsu := { s.tsu with sh := { s.tsu.sh with pages := t.tsu.sh.pages } } } t) ∧
  (∀ (p : Part) (port : BitVec 7) (s : State),
    (s.page p port).spwReq = false →
    ∃ t, exec (.spwAckRise p port) s = .next t ∧
      t = s) ∧
  (∀ (p : Part) (port : BitVec 7) (r : Remap) (s : State),
    (s.page p port).remap = some r →
    (s.page p port).spwReq = true →
    r.clean = false ∨ r.sent = true ∨ (r.initiator = true ∧ r.accepted = false) →
    ∃ t, exec (.spwAckRise p port) s = .next t ∧
      (t = modPage s p port fun g => { g with spwReq := false, remap := some { r with ack := true } })) ∧
  (∀ (p : Part) (port : BitVec 7) (r : Remap) (s : State),
    (s.page p port).remap = some r →
    (s.page p port).spwReq = true →
    r.clean = true ∧ r.sent = false ∧ r.initiator = false →
    ∃ t, exec (.spwAckRise p port) s = .next t ∧
      (t = sendLink (modPage s p port fun g => { g with
        spwReq := false,
        remap := some { r with ack := true, sent := true } }) (remapLink s p port) none (.remapAck ⟨r.id, 0⟩))) ∧
  (∀ (p : Part) (port : BitVec 7) (r : Remap) (q : BitVec 14) (s : State),
    (s.page p port).remap = some r →
    (s.page p port).spwReq = true →
    r.clean = true ∧ r.sent = false ∧ r.initiator = true ∧ r.accepted = true →
    (s.link (remapLink s p port)).cwc = q →
    ∃ t, exec (.spwAckRise p port) s = .next t ∧
      (t = sendLink (modPage s p port fun g => { g with
        spwReq := false,
        remap := some { r with
          ack := true, sent := true,
          at_ := some (q + 128) } }) (remapLink s p port) none (.remapAt { id := r.id, cwc := q + 128 }))) ∧
  (∀ (p : Part) (port : BitVec 7) (cwc : BitVec 14) (r : Remap) (s : State),
    (s.page p port).remap = some r →
    r.initiator = true ∧ r.accepted = true ∧ r.sent = false →
    r.ack = true ∨ (s.link (remapLink s p port)).regs.lkCtrlSpwEn = false →
    ∃ t, exec (.spareClean p port cwc) s = .next t ∧
      (t.page p port).remap = some { r with clean := true, sent := true, at_ := some (cwc + 128) } ∧
      (t = sendLink (modLink (modPage s p port fun g => { g with
        remap := some { r with
          clean := true, sent := true,
          at_ := some (cwc + 128) } }) (remapLink s p port) fun k => { k with cwc := cwc }) (remapLink s p port) none (.remapAt { id := r.id, cwc := cwc + 128 })) ∧
      t.hub.jobs = s.hub.jobs ∧
      Reported { s with
        hub := { s.hub with sh := { s.hub.sh with pages := t.hub.sh.pages } },
        tsu := { s.tsu with sh := { s.tsu.sh with pages := t.tsu.sh.pages } } } t) ∧
  (∀ (p : Part) (port : BitVec 7) (cwc : BitVec 14) (r : Remap) (s : State),
    (s.page p port).remap = some r →
    r.initiator = false ∧ r.sent = false →
    r.ack = true ∨ (s.link (remapLink s p port)).regs.lkCtrlSpwEn = false →
    ∃ t, exec (.spareClean p port cwc) s = .next t ∧
      (t = sendLink (modLink (modPage s p port fun g => { g with
        remap := some { r with clean := true, sent := true } }) (remapLink s p port) fun k => { k with cwc :=
          cwc }) (remapLink s p port) none (.remapAck ⟨r.id, 0⟩))) ∧
  (∀ (p : Part) (port : BitVec 7) (cwc : BitVec 14) (r : Remap) (s : State),
    (s.page p port).remap = some r →
    r.sent = true ∨ (r.initiator = true ∧ r.accepted = false) ∨ (r.ack = false ∧
      (s.link (remapLink s p port)).regs.lkCtrlSpwEn = true) →
    ∃ t, exec (.spareClean p port cwc) s = .next t ∧
      (t = modLink (modPage s p port fun g => { g with remap := some { r with clean := true } }) (remapLink s p port) fun k =>
        { k with cwc := cwc })) ∧
  (∀ (p : Part) (port : BitVec 7) (cwc : BitVec 14) (r : Remap) (s : State),
    (Page.link port).ordinal p ≠ none →
    (s.page p port).remap = some r →
    r.at_ = some cwc →
    ∃ t, exec (.remapSwitch p port cwc) s = .next t ∧
      (t.page p port).lanes = (s.page p port).lanes.set r.llane.toNat (s.page p port).spare ∧
      (t.page p port).remap = none ∧ (t.page p port).spare = noLane ∧ (t.page p port).spwReq = false ∧
      (t.page p port).regs = { (s.page p port).regs with
        lkStateSpareFor := r.victim, lkRemapRemaps := satInc (s.page p port).regs.lkRemapRemaps } ∧
      ((t.link (remapLink s p port)).moveGen = if r.llane = 0 ∨ (p = .hub ∧
        (s.page p port).role.portRoleSplit = true) then (s.link (remapLink s p port)).moveGen + 1 else (s.link (remapLink s p
          port)).moveGen) ∧
      (t.hdr p (.link port)).pageIntStatus.getLsbD 14 = true ∧
      Raised t p 0x0024 0 ∧
      t.hub.jobs = s.hub.jobs ∧
      Reported { s with
        hub := { s.hub with units := t.hub.units, sh := { s.hub.sh with pages := t.hub.sh.pages } },
        tsu := { s.tsu with sh := { s.tsu.sh with pages := t.tsu.sh.pages } } } t) ∧
  (∀ (p : Part) (port : BitVec 7) (cwc : BitVec 14) (s : State),
    (∀ r, (s.page p port).remap = some r → r.at_ ≠ some cwc) →
    ∃ t, exec (.remapSwitch p port cwc) s = .next t ∧
      t = s) ∧
  (∀ (p : Part) (port : BitVec 7) (r : Remap) (s : State),
    (s.page p port).remap = some r →
    r.initiator = true ∧ r.ack = false ∧ r.cal = false →
    (s.page p port).spwReq = true →
    ∃ t, exec (.spwTimeout p port) s = .next t ∧
      (t.page p port).remap = none ∧
      (t.page p port).regs = { (s.page p port).regs with
        lkRemapSpwTimeout := satInc (s.page p port).regs.lkRemapSpwTimeout,
        lkRemapRemapFail := satInc (s.page p port).regs.lkRemapRemapFail } ∧
      Raised t p 0x0024 3 ∧
      Reported { s with
        hub := { s.hub with
          mod_ := t.hub.mod_, flt := t.hub.flt, admitQ := t.hub.admitQ, flows := t.hub.flows,
          sh := { s.hub.sh with ifaces := t.hub.sh.ifaces, servo := t.hub.sh.servo, pages := t.hub.sh.pages } },
        tsu := { s.tsu with
          sh := { s.tsu.sh with ifaces := t.tsu.sh.ifaces, servo := t.tsu.sh.servo, pages := t.tsu.sh.pages } } } t) ∧
  (∀ (p : Part) (port : BitVec 7) (r : Remap) (s : State),
    (s.page p port).remap = some r →
    (r.initiator = false ∨ r.cal = true) ∧ r.ack = false →
    (s.page p port).spwReq = true →
    ∃ t, exec (.spwTimeout p port) s = .next t ∧
      (t = modPage s p port fun g => { g with
        remap := none, spwReq := false, spwSel := 7,
        regs := { g.regs with lkRemapSpwTimeout := satInc g.regs.lkRemapSpwTimeout } })) ∧
  (∀ (p : Part) (port : BitVec 7) (s : State),
    (s.page p port).spwReq = false ∨ ∀ r, (s.page p port).remap = some r → r.ack = true →
    ∃ t, exec (.spwTimeout p port) s = .next t ∧
      t = s)

/-- A link goes DETECT, TRAIN, ALIGN, CAL by admission or signal, training and alignment, and back to DETECT, counted, when
training takes too long (R465, R477, R478). A fitting HELLO brings ACTIVE, at the version negotiated and the credit granted
(R460, R466); one whose endpoint differs from link A's leaves link B out and sets EP_CONFLICT (R30), one from another
neighbour than EXPECT_HUB sets CABLE_MISMATCH and leaves its port out (R27). RETRAIN leaves service (R465). PORT_ROLE is
taken while ROLE reads OFF (R26). REG_RD is answered, REG_WR only under REMOTE_WR, and an answer ends the request of
LK_REG_GO (R467, R468). A leaf hub sends a signal on, its rank translated (R44). -/
def Obligations.LinkTraining : Prop :=
  (∀ (signal : BitVec 72) (port : BitVec 7) (s : State),
    s.hub.mod_.modStatusBootDone = true →
    s.hub.id.hubAddr ≠ 0xFFFF →
    s.hub.admitQ = [port] →
    signal.getLsbD port.toNat = true →
    portWaits s port = true →
    s.hub.mod_.modStatusPhase ≠ 2 →
    ∃ t, exec (.portAdmit signal) s = .next t ∧
      t = admitPort s port ∧
      t.tsu = s.tsu) ∧
  (∀ (l : LinkId) (s : State),
    l.part = .tsu →
    s.tsu.inReset = false →
    s.tsu.sh.vern.regs.vernReady.getLsbD 0 = true →
    (s.link l).regs.lkState = 1 ∨ (s.link l).regs.lkState = 7 →
    ∃ t, exec (.linkSignalDetect l) s = .next t ∧
      (t = modLinkRegs s l fun r => { r with lkState := 2 })) ∧
  (∀ (l : LinkId) (s : State),
    (s.link l).regs.lkState = 2 →
    (s.page l.part l.port).role.portRoleSplit = false →
    ∃ t, exec (.trainComplete l) s = .next t ∧
      (t.link l).regs = { (s.link l).regs with lkState := 3 } ∧
      ((t.page l.part l.port).lanes = if l.part = .hub then [0, 1, 2, 3] else [0, 0, 0, 0]) ∧
      ((t.page l.part l.port).spare = if l.part = .hub then 4 else 1) ∧
      t.hub.jobs = s.hub.jobs ∧
      Reported { s with
        hub := { s.hub with sh := { s.hub.sh with pages := t.hub.sh.pages, phy := t.hub.sh.phy } },
        tsu := { s.tsu with sh := { s.tsu.sh with pages := t.tsu.sh.pages, phy := t.tsu.sh.phy } }, free := t.free } t) ∧
  (∀ (l : LinkId) (s : State),
    (s.link l).regs.lkState = 2 →
    ∃ t, exec (.trainTimeout l) s = .next t ∧
      (t.link l).regs = { (s.link l).regs with lkState := 1, lkStateRetrains := satInc (s.link l).regs.lkStateRetrains } ∧
      (t.hub.admitQ = if l.part = .hub then s.hub.admitQ.erase l.port ++ [l.port] else s.hub.admitQ) ∧
      t.hub.jobs = s.hub.jobs ∧
      Reported { s with hub := { s.hub with admitQ := t.hub.admitQ } } t) ∧
  (∀ (l : LinkId) (s : State),
    (s.link l).regs.lkState = 3 →
    ∃ t, exec (.alignComplete l) s = .next t ∧
      (t = (startLanes s l).foldl (fun u lane => modLaneCal u l.part l.port lane startCal) (modLinkRegs s l fun r => { r with
        lkState := 4 })) ∧
      (t.link l).regs.lkState = 4) ∧
  (∀ (l : LinkId) (m : HelloP) (x : BitVec 8) (s : State),
    (Page.link l.port).ordinal l.part ≠ none →
    l.part = .tsu →
    (s.link l).regs.lkState = 5 →
    negotiated s l m = some x →
    rolesFit s l m = true →
    s.tsu.epA = none ∧ s.tsu.epB = none ∧ s.tsu.epReport = false →
    s.tsu.root.endpointEpConflict = false →
    ∃ t, exec (.helloReceive l m) s = .next t ∧
      (t.link l).regs = { (s.link l).regs with lkState := 6, lkStateVersion := x, ptDelaySettled := false } ∧
      (t.link l).credit = credList m.cred ∧
      t.tsu.root = { s.tsu.root with endpointEpValid := true, endpointEp := m.ep &&& 0xFFFFC0 } ∧
      (t.hdr .tsu (.link l.port)).pageIntStatus.getLsbD 12 = true ∧
      t.hub = s.hub ∧
      Reported { s with
        hub := { s.hub with
          mod_ := t.hub.mod_, flt := t.hub.flt, admitQ := t.hub.admitQ,
          sh := { s.hub.sh with ifaces := t.hub.sh.ifaces, servo := t.hub.sh.servo, pages := t.hub.sh.pages } },
        tsu := { s.tsu with
          root := t.tsu.root, epA := t.tsu.epA, epB := t.tsu.epB,
          sh := { s.tsu.sh with ifaces := t.tsu.sh.ifaces, servo := t.tsu.sh.servo, pages := t.tsu.sh.pages } } } t) ∧
  (∀ (l : LinkId) (m : HelloP) (x : BitVec 8) (s : State),
    (Page.link l.port).ordinal l.part ≠ none →
    l.part = .hub →
    (s.link l).regs.lkState = 5 →
    negotiated s l m = some x →
    rolesFit s l m = true →
    (s.page .hub l.port).role.portRoleExpectHub = 0xFFFF ∨ m.addr = (s.page .hub l.port).role.portRoleExpectHub →
    ∃ t, exec (.helloReceive l m) s = .next t ∧
      (t.link l).regs = { (s.link l).regs with lkState := 6, lkStateVersion := x, ptDelaySettled := false } ∧
      (t.page .hub l.port).role.portRoleSeenHub = m.addr ∧
      (t.hdr .hub (.link l.port)).pageIntStatus.getLsbD 12 = true ∧
      t.hub.jobs = s.hub.jobs ∧
      t.tsu = s.tsu ∧
      Reported { s with
        hub := { s.hub with
          mod_ := t.hub.mod_, flt := t.hub.flt, admitQ := t.hub.admitQ,
          sh := { s.hub.sh with ifaces := t.hub.sh.ifaces, servo := t.hub.sh.servo, pages := t.hub.sh.pages } },
        tsu := { s.tsu with
          root := t.tsu.root,
          sh := { s.tsu.sh with ifaces := t.tsu.sh.ifaces, servo := t.tsu.sh.servo, pages := t.tsu.sh.pages } } } t) ∧
  (∀ (l : LinkId) (m : HelloP) (x : BitVec 8) (a : BitVec 24) (s : State),
    l = linkB →
    (s.link l).regs.lkState = 5 →
    negotiated s l m = some x →
    rolesFit s l m = true →
    s.tsu.epA = some a →
    a ≠ m.ep &&& 0xFFFFC0 →
    (s.link linkA).active = false →
    ∃ t, exec (.helloReceive l m) s = .next t ∧
      t.tsu.root = { s.tsu.root with endpointEpValid := true, endpointEp := a, endpointEpConflict := true } ∧
      (t.link linkB).active = false ∧
      t.hub = s.hub ∧
      t.out = s.out) ∧
  (∀ (l : LinkId) (m : HelloP) (x : BitVec 8) (s : State),
    l.part = .hub →
    (s.link l).regs.lkState = 5 →
    negotiated s l m = some x →
    rolesFit s l m = true →
    (s.page .hub l.port).role.portRoleExpectHub ≠ 0xFFFF ∧ m.addr ≠ (s.page .hub l.port).role.portRoleExpectHub →
    ∃ t, exec (.helloReceive l m) s = .next t ∧
      (t.page .hub l.port).role.portRoleCableMismatch = true ∧
      (t.page .hub l.port).role.portRoleSeenHub = m.addr ∧
      (t.link l).active = false ∧
      t.hub.jobs = s.hub.jobs) ∧
  (∀ (i : Iface) (port : BitVec 7) (data : Word) (s : State),
    Answers s i →
    (Page.link port).ordinal i.part ≠ none →
    (getF data 2 3 : BitVec 3).toNat < 4 →
    getB data 1 = false →
    ∃ t, exec (.lkRetrain i port data) s = .next t ∧
      (t = emit (linkLeave (modLinkRegs s (s.ptLink i port) fun r => r.write 0x188 (data ||| putB 0 true)) (s.ptLink i port))
        (.writeAck i false))) ∧
  (∀ (i : Iface) (port : BitVec 7) (data : Word) (s : State),
    Answers s i →
    i.part = .hub →
    (Page.link port).ordinal .hub ≠ none →
    (getF data 0 3 : BitVec 3).toNat < 5 →
    (s.page .hub port).role.portRole = 0 →
    (s.page .hub port).role.write 0x040 data ≠ (s.page .hub port).role →
    ∃ t, exec (.portRoleWrite i port data) s = .next t ∧
      t = emit (setPortRole s port data) (.writeAck i false) ∧
      (t.page .hub port).role.portRole = getF data 0 3 ∧
      t.tsu = s.tsu) ∧
  (∀ (l : LinkId) (m : RegRdP) (g : Page) (off : Nat) (s : State),
    locate (linkIface l) m.offset = .reg g off →
    shut s (linkIface l) (.reg g off) = false →
    off = 0x038 →
    unpowered s (linkIface l) = false →
    ∃ t, exec (.regRdReceive l m) s = .next t ∧
      t = sendLink (taken s l (.regRd m)) l none (.regRsp {
        tag := m.tag, err := false, data := readHdr l.part g off (taken s l (.regRd m)) })) ∧
  (∀ (l : LinkId) (m : RegWrP) (s : State),
    unpowered s (linkIface l) = false →
    (s.link l).regs.lkCtrlRemoteWr = false →
    ∃ t, exec (.regWrReceive l m) s = .next t ∧
      t = sendLink (taken s l (.regWr m)) l none (.regRsp { tag := m.tag, err := true, data := 0 })) ∧
  (∀ (l : LinkId) (m : RegWrP) (s : State),
    unpowered s (linkIface l) = false →
    (s.link l).regs.lkCtrlRemoteWr = true →
    ∃ t, exec (.regWrReceive l m) s = .next t ∧
      t = writeAt (.reg l m.tag) (linkIface l) m.offset m.data (taken s l (.regWr m))) ∧
  (∀ (l : LinkId) (m : RegRspP) (s : State),
    (Page.link l.port).ordinal l.part ≠ none →
    (s.link l).regs.lkRegStatusBusy = true →
    m.tag = (s.link l).regTag - 1 →
    (s.link l).regs.lkRegCtrlWrite = false →
    ∃ t, exec (.regRspReceive l m) s = .next t ∧
      (t.link l).regs = { (s.link l).regs with lkRegData := m.data, lkRegStatusErr := m.err, lkRegStatusBusy := false } ∧
      (t.hdr l.part (.link l.port)).pageIntStatus.getLsbD 15 = true ∧
      t.hub.jobs = s.hub.jobs ∧
      Reported s t) ∧
  (∀ (i : Iface) (port : BitVec 7) (data : Word) (s : State),
    Answers s i →
    (Page.link port).ordinal i.part ≠ none →
    (s.link (s.ptLink i port)).regs.lkRegStatusBusy = false →
    ∃ t, exec (.lkRegGo i port data) s = .next t ∧
      (t.link (s.ptLink i port)).regs.lkRegStatusBusy = true ∧
      (t.link (s.ptLink i port)).regTag = (s.link (s.ptLink i port)).regTag + 1 ∧
      t.out.getLast? = some (.writeAck i false) ∧
      Reported s t) ∧
  (∀ (l : LinkId) (sender : BitVec 32) (dsn : Option (BitVec 32)) (m : SignalP) (r : BitVec 20) (e : BitVec 24) (s : State),
    l.part = .hub →
    NewUp s sender dsn →
    m.dest = .rank r →
    JobRuns s m.job m.epoch →
    s.isFenced m.job (s.epOf l) = false →
    r.toNat < (s.job m.job).members.toNat →
    s.rankEp m.job r = some e →
    s.isFenced m.job e = false →
    ∃ t, exec (.edgeTranslate l sender dsn m) s = .next t ∧
      t = dsnAck (signalOn (cacheRank (upTaken s l sender dsn (.signal m)) m.job r) l m e) l sender dsn ∧
      t.hub.jobs = s.hub.jobs ∧
      t.tsu = s.tsu) ∧
  (∀ (l : LinkId) (sender : BitVec 32) (dsn : Option (BitVec 32)) (m : SignalP) (r : BitVec 20) (s : State),
    l.part = .hub →
    NewUp s sender dsn →
    m.dest = .rank r →
    JobRuns s m.job m.epoch →
    s.isFenced m.job (s.epOf l) = false →
    (s.job m.job).members.toNat ≤ r.toNat →
    ∃ t, exec (.edgeTranslate l sender dsn m) s = .next t ∧
      t = dsnAck (refuseXlat (upTaken s l sender dsn (.signal m)) m.job) l sender dsn ∧
      (t.job m.job).xlRefused = satInc (s.job m.job).xlRefused ∧
      t.tsu = s.tsu)

/-- Above 670 V an unpowered hub starts from a power-on reset that shows the cause latched (R469, R470, R482). Below 640 V,
above 880 V and on a thermal trip conversion stops, with cause 4, 5 or 6 latched, and a cause latched before stands (R469,
R470, R472). A reading is shown; a warning follows its band or limit, with the cause as it begins (R469, R471, R472, R486).
On an interruption every link stops, entries not begun are lost and cause 7 is latched (R470). -/
def Obligations.PowerAndCooling : Prop :=
  (∀ (vin : BitVec 16) (s : State),
    s.hub.power.on = false →
    6700 < vin.toNat →
    ∃ t, exec (.powerInputRise vin) s = .next t ∧
      t = showVin (powerOnReset s (s.hub.power.latch.getD 0)) vin ∧
      t.hub.power.on = true ∧
      t.hub.flash = s.hub.flash ∧
      t.hub.jobs = [] ∧ t.hub.sh.tb.tick = 0 ∧
      t.tsu = s.tsu) ∧
  (∀ (vin : BitVec 16) (s : State),
    s.hub.power.on = true →
    vin.toNat < 6400 →
    s.hub.power.latch = none →
    ∃ t, exec (.powerUndervoltage vin) s = .next t ∧
      t.hub.power.on = false ∧
      t.hub.power.latch = some 4 ∧
      t.hub.mod_.modResetCause = 4 ∧
      t.hub.flash = s.hub.flash ∧
      t.hub.jobs = [] ∧
      t.tsu = s.tsu ∧ t.hub.jtag = {} ∧
      t = powerOff s 4) ∧
  (∀ (vin : BitVec 16) (x : BitVec 4) (s : State),
    s.hub.power.on = true →
    8800 < vin.toNat →
    s.hub.power.latch = some x →
    ∃ t, exec (.powerOvervoltage vin) s = .next t ∧
      t.hub.power.on = false ∧
      t.hub.power.latch = some x ∧
      t.hub.flash = s.hub.flash ∧
      t.hub.jobs = [] ∧
      t.tsu = s.tsu ∧
      t = powerOff s 5) ∧
  (∀ (vin pin pkg aux : BitVec 16) (s : State),
    s.hub.power.on = true →
    inWarnBand vin = true →
    s.hub.mod_.modStatusPwrWarn = false →
    ∃ t, exec (.pwrWarn vin pin pkg aux) s = .next t ∧
      t.hub.mod_ = { s.hub.mod_ with
        modPowerVin := vin, modPowerPin := pin, modPowerPkg := pkg, modPowerAux := aux, modStatusPwrWarn := true } ∧
      (t.hdr .hub .mod).pageIntStatus.getLsbD 2 = true ∧
      t.hub.jobs = s.hub.jobs ∧
      t.tsu = s.tsu ∧
      Reported { s with hub := { s.hub with mod_ := t.hub.mod_ } } t) ∧
  (∀ (vin pin pkg aux : BitVec 16) (s : State),
    s.hub.power.on = true →
    inWarnBand vin = false →
    ∃ t, exec (.pwrWarn vin pin pkg aux) s = .next t ∧
      (t = modHub s fun h => { h with
        mod_ := { h.mod_ with
          modPowerVin := vin, modPowerPin := pin, modPowerPkg := pkg, modPowerAux := aux, modStatusPwrWarn := false } })) ∧
  (∀ (s : State),
    s.hub.power.on = true →
    s.hub.histQueue = [] →
    ∃ t, exec .powerInterruption s = .next t ∧
      t.hub.power.latch = some 7 ∧
      (t.hub.sh.links.all (fun e => e.2.regs.lkState == 0) = true) ∧
      t.hub.admitQ = [] ∧
      t.hub.history = s.hub.history ∧
      t.hub.jobs = s.hub.jobs ∧
      t.tsu = s.tsu ∧
      Reported { s with
        hub := { s.hub with
          mod_ := t.hub.mod_, history := t.hub.history, histQueue := t.hub.histQueue, flt := t.hub.flt, admitQ := t.hub.admitQ,
          power := t.hub.power, sh := { s.hub.sh with ifaces := t.hub.sh.ifaces, servo := t.hub.sh.servo } },
        tsu := { s.tsu with sh := { s.tsu.sh with ifaces := t.tsu.sh.ifaces, servo := t.tsu.sh.servo } } } t) ∧
  (∀ (tj inlet : BitVec 16) (s : State),
    s.hub.power.on = true →
    s.hub.mod_.modTempWarnC.toNat * 10 ≤ tj.toNat ∧ tj.toNat < 32768 →
    s.hub.mod_.modStatusThermWarn = false →
    ∃ t, exec (.thermWarn tj inlet) s = .next t ∧
      t.hub.mod_ = { s.hub.mod_ with modTempTj := tj, modTempInlet := inlet, modStatusThermWarn := true } ∧
      (t.hdr .hub .mod).pageIntStatus.getLsbD 1 = true ∧
      t.hub.jobs = s.hub.jobs ∧
      t.tsu = s.tsu ∧
      Reported { s with hub := { s.hub with mod_ := t.hub.mod_ } } t) ∧
  (∀ (tj inlet : BitVec 16) (s : State),
    s.hub.power.on = true →
    tj.toNat < s.hub.mod_.modTempWarnC.toNat * 10 ∧ tj.toNat < 32768 →
    ∃ t, exec (.thermWarn tj inlet) s = .next t ∧
      (t = modHub s fun h => { h with
        mod_ := { h.mod_ with modTempTj := tj, modTempInlet := inlet, modStatusThermWarn := false } })) ∧
  (∀ (tj inlet sec : BitVec 16) (s : State),
    s.hub.power.on = true →
    1150 ≤ tj.toNat ∧ tj.toNat < 32768 →
    s.hub.power.latch = none →
    ∃ t, exec (.thermalTrip tj inlet sec) s = .next t ∧
      t.hub.power.on = false ∧
      t.hub.power.latch = some 6 ∧
      t.hub.mod_.modResetCause = 6 ∧
      t.hub.flash = s.hub.flash ∧
      t.tsu = s.tsu ∧
      t = powerOff s 6)

/-- The ROM starts from a released core reset, with BOOTS counted and in recovery when no slot boots (R475, R486, R496,
R500). BOOT_DONE loads the identity region and lets the ports wait (R477, R516). MOD_RST_N low for 1 us or MOD_RESET.COLD
resets the core, flash kept; WARM keeps the controller and the endpoint; MC restarts the controller alone (R482 to R484).
PERST# clears the endpoint and its release ends that (R476, R507, R527). TRST and the JTAG instructions act on the TAP
(R485). -/
def Obligations.BootAndResets : Prop :=
  (∀ (s : State),
    s.hub.power.on = true ∧ s.hub.power.rstLow = false ∧ s.hub.power.coldBoot = true ∧ s.hub.power.recoverNow = true →
    s.hub.mod_.modStatusPhase = 0 →
    ∃ t, exec .bootRomStart s = .next t ∧
      t.hub.mod_.modStatusPhase = 1 ∧
      t.hub.mod_.modStatusRomRecovery = true ∧
      t.hub.mod_.modResetCauseBoots = satInc s.hub.flash.boots ∧ t.hub.flash.boots = satInc s.hub.flash.boots ∧
      t.hub.fw.fwSlotsS0Running = false ∧ t.hub.fw.fwSlotsS1Running = false ∧ t.hub.fw.fwRunning = 0 ∧
      t.tsu = s.tsu ∧
      Reported { s with
        hub := { s.hub with
          id := t.hub.id, mod_ := t.hub.mod_, fw := t.hub.fw, jobs := t.hub.jobs, flash := t.hub.flash,
          transfer := t.hub.transfer, power := t.hub.power } } t) ∧
  (∀ (ms : BitVec 32) (k : Bool) (s : State),
    s.hub.mod_.modStatusPhase = 1 →
    s.hub.mod_.modStatusRomRecovery = false →
    runningSlot s.hub = some k →
    s.valid .hub = false ∧ s.hub.mod_.modStatusReady = false →
    ∃ t, exec (.bootDone ms) s = .next t ∧
      t.hub.mod_.modStatusBootDone = true ∧
      t.hub.mod_.modTimesBootMs = ms ∧
      t.hub.id.hubAddr = s.hub.flash.hubAddr ∧
      t.hub.mgmt.mgIpv4Addr = s.hub.flash.ipv4 ∧ t.hub.mgmt.mgQuery = s.hub.flash.query ∧
      t.hub.admitQ = portsOf s [1, 3, 4] ++ portsOf s [2] ∧
      (t.hub.mod_.modStatusPhase = if (portsOf s [1, 3, 4] ++ portsOf s [2]).isEmpty then 3 else 2) ∧
      t.hub.jobs = s.hub.jobs ∧
      t.tsu = s.tsu ∧
      Reported { s with
        hub := { s.hub with
          id := t.hub.id, mod_ := t.hub.mod_, mgmt := t.hub.mgmt, admitQ := t.hub.admitQ, power := t.hub.power } } t) ∧
  (∀ (ns : BitVec 32) (low : Bool) (s : State),
    s.hub.power.on = true →
    1000 ≤ ns.toNat →
    ∃ t, exec (.modRstN ns low) s = .next t ∧
      (t = coldReset (modHub s fun h => { h with power := { h.power with rstLow := low } }) 1) ∧
      t.hub.mod_.modResetCause = 1 ∧
      t.hub.power.rstLow = low ∧
      t.hub.flash = s.hub.flash ∧
      t.hub.jobs = [] ∧
      t.tsu = s.tsu) ∧
  (∀ (ns : BitVec 32) (low : Bool) (s : State),
    s.hub.power.on = true →
    ns.toNat < 1000 →
    ∃ t, exec (.modRstN ns low) s = .next t ∧
      (t = modHub s fun h => { h with power := { h.power with rstLow := low } })) ∧
  (∀ (i : Iface) (data : Word) (s : State),
    unpowered s i = false →
    i.part = .hub →
    (getF data 0 8 : BitVec 8) = 0xA5 →
    ∃ t, exec (.modResetCold i data) s = .next t ∧
      t = emit (coldReset s 2) (.writeAck i false) ∧
      t.hub.mod_.modResetCause = 2 ∧
      t.hub.flash = s.hub.flash ∧
      t.hub.jobs = [] ∧
      t.tsu = s.tsu) ∧
  (∀ (i : Iface) (data : Word) (s : State),
    unpowered s i = false →
    i.part = .hub →
    (getF data 0 8 : BitVec 8) = 0xA5 →
    ∃ t, exec (.modResetWarm i data) s = .next t ∧
      t = emit (warmReset s) (.writeAck i false) ∧
      t.hub.mod_.modResetCause = 3 ∧
      t.hub.flash = s.hub.flash ∧ t.hub.mgmt = s.hub.mgmt ∧ t.hub.msixTable = s.hub.msixTable ∧ t.hub.bar2 = s.hub.bar2 ∧
      t.hub.jobs = [] ∧
      t.tsu = s.tsu) ∧
  (∀ (i : Iface) (data : Word) (s : State),
    unpowered s i = false →
    i.part = .hub →
    (getF data 0 8 : BitVec 8) = 0xA5 →
    ∃ t, exec (.modResetMc i data) s = .next t ∧
      t = emit (mcReset s) (.writeAck i false) ∧
      t.hub.sh.tb = s.hub.sh.tb ∧ t.hub.sh.links = s.hub.sh.links ∧
      t.tsu = s.tsu) ∧
  (∀ (s : State),
    ∃ t, exec .perst s = .next t ∧
      t.hub.power = { s.hub.power with perst := true } ∧
      t.hub.msixEnable = false ∧ t.hub.msixPending = 0 ∧ t.hub.msixTable = [] ∧ t.hub.bar2 = [] ∧
      t.hub.intc.intArmed = 0xFFFFFFFFFFFFFFFF ∧
      t.iface .pcie = {} ∧
      t.hub.jobs = s.hub.jobs ∧
      t.tsu = s.tsu ∧
      Reported { s with
        hub := { s.hub with
          intc := t.hub.intc, msixEnable := t.hub.msixEnable, msixMasked := t.hub.msixMasked, msixPending := t.hub.msixPending,
          msixTable := t.hub.msixTable, bar2 := t.hub.bar2, power := t.hub.power,
          sh := { s.hub.sh with ifaces := t.hub.sh.ifaces } },
        tsu := { s.tsu with sh := { s.tsu.sh with ifaces := t.tsu.sh.ifaces } } } t) ∧
  (∀ (s : State),
    ∃ t, exec .perstRelease s = .next t ∧
      (t = modHub s fun h => { h with power := { h.power with perst := false } })) ∧
  (∀ (s : State),
    ∃ t, exec .trst s = .next t ∧
      t.hub.jtag = {} ∧
      t.iface .jtag = {} ∧
      t.hub.jobs = s.hub.jobs ∧
      t.tsu = s.tsu ∧
      Reported { s with
        hub := { s.hub with jtag := t.hub.jtag, sh := { s.hub.sh with ifaces := t.hub.sh.ifaces } },
        tsu := { s.tsu with sh := { s.tsu.sh with ifaces := t.tsu.sh.ifaces } } } t) ∧
  (∀ (s : State),
    ∃ t, exec .jtagBypass s = .next t ∧
      t = emit (setIr s .bypass) (.jtag [false])) ∧
  (∀ (pins load : List Bool) (s : State),
    ∃ t, exec (.jtagSamplePreload pins load) s = .next t ∧
      (t = emit (modHub s fun h => { h with jtag := { h.jtag with ir := .samplePreload, boundary := load } }) (.jtag pins))) ∧
  (∀ (s : State),
    ∃ t, exec .jtagIdcode s = .next t ∧
      (t = emit (setIr s .idcode) (.jtag ((List.range 32).map fun i => (0x2BD72A6F : BitVec 32).getLsbD i)))) ∧
  (∀ (pins load : List Bool) (s : State),
    s.hub.power.rstLow = true →
    ∃ t, exec (.jtagExtest pins load) s = .next t ∧
      t.out = s.out ++ [.jtagPins s.hub.jtag.boundary, .jtag pins] ∧
      t.hub.jtag = { s.hub.jtag with ir := .extest, boundary := load } ∧
      t.hub.jobs = s.hub.jobs ∧
      t.tsu = s.tsu ∧
      Reported { s with hub := { s.hub with jtag := t.hub.jtag } } t) ∧
  (∀ (pins load : List Bool) (s : State),
    s.hub.power.rstLow = false →
    ∃ t, exec (.jtagExtest pins load) s = .next t ∧
      t = emit (setIr s .bypass) (.jtag [false]))

/-- A header that passes its checks erases the inactive slot and begins RECEIVING, and another is refused with its result
(R491). A block that opens is kept (R492). Applying stages the image whose digest matches (R493, R494). ABORT discards a
transfer (R495). ACTIVATE with KEY restarts the controller where the twin does not hinder (R497); the trial confirms its
slot, raises MIN_SEC and ends (R498), or ends by a controller reset. RECOVER asks for ROM recovery (R500). REVOKE blows the
fuse of a key that signs no confirmed slot (R488). -/
def Obligations.FirmwareUpdate : Prop :=
  (∀ (i : Iface) (data : Word) (h : List (BitVec 8)) (k : Bool) (s : State),
    unpowered s i = false →
    i.part = .hub →
    i ≠ .pcie ∨ s.hub.mod_.modStatusBootDone = true →
    h = mailbox s 512 →
    k = receiveSlot s.hub →
    hdrFormat h = true ∧ hdrHardware h = true ∧ hdrSecure s.hub.fw.fwSlotsMinSec h = true →
    hdrN h 0x090 1 < 4 ∧ s.hub.fw.fwSlotsRevoked.getLsbD (hdrN h 0x090 1) = false →
    hdrBase s h = true ∧ hdrSize h = true ∧ hdrLink s h = true →
    s.hub.fw.fwStatusState ≠ 2 →
    ∃ t, exec (.fwHeader i data) s = .next t ∧
      (t.hub.fw.fwStatusState = if Config.signatureOk (hdrN h 0x090 1) h then 1 else s.hub.fw.fwStatusState) ∧
      (t.hub.fw.fwStatusResult = if Config.signatureOk (hdrN h 0x090 1) h then 0 else 3) ∧
      (t.hub.transfer = if Config.signatureOk (hdrN h 0x090 1) h then some { slot := k, hdr := h } else s.hub.transfer) ∧
      (slotOf t.hub k = if Config.signatureOk (hdrN h 0x090 1) h then {} else slotOf s.hub k) ∧
      slotOf t.hub (!k) = slotOf s.hub (!k) ∧
      t.out.getLast? = some (.writeAck i false) ∧
      t.hub.jobs = s.hub.jobs ∧
      t.tsu = s.tsu ∧
      Reported { s with hub := { s.hub with fw := t.hub.fw, flash := t.hub.flash, transfer := t.hub.transfer } } t) ∧
  (∀ (i : Iface) (data : Word) (r : Nat) (s : State),
    unpowered s i = false →
    i.part = .hub →
    i ≠ .pcie ∨ s.hub.mod_.modStatusBootDone = true →
    (hdrResult (modFw s fun f => f.write 0x040 (oneCommand 63 data)) (mailbox s 512) = r) →
    0 < r ∧ r < 16 →
    ∃ t, exec (.fwHeader i data) s = .next t ∧
      t.hub.fw.fwStatusResult = BitVec.ofNat 4 r ∧
      t.hub.fw.fwErrRefused = satInc s.hub.fw.fwErrRefused ∧
      t.hub.fw.fwStatusState = s.hub.fw.fwStatusState ∧
      (t.hdr .hub .fw).pageIntStatus.getLsbD 1 = true ∧
      t.hub.flash = s.hub.flash ∧
      t.tsu = s.tsu ∧
      Reported { s with hub := { s.hub with fw := t.hub.fw, flash := t.hub.flash, transfer := t.hub.transfer } } t) ∧
  (∀ (i : Iface) (data : Word) (s : State),
    unpowered s i = false →
    i.part = .hub →
    i ≠ .pcie ∨ s.hub.mod_.modStatusBootDone = true →
    s.hub.transfer = none →
    ∃ t, exec (.fwBlock i data) s = .next t ∧
      t.hub.fw.fwErrRange = satInc s.hub.fw.fwErrRange ∧
      t.hub.fw.fwStatusState = s.hub.fw.fwStatusState ∧
      t.hub.flash = s.hub.flash ∧
      t.out.getLast? = some (.writeAck i false) ∧
      Reported { s with hub := { s.hub with fw := t.hub.fw, flash := t.hub.flash, transfer := t.hub.transfer } } t) ∧
  (∀ (i : Iface) (data : Word) (x : Transfer) (n : Nat) (s : State),
    unpowered s i = false →
    i.part = .hub →
    i ≠ .pcie ∨ s.hub.mod_.modStatusBootDone = true →
    s.hub.transfer = some x →
    (n = (modFw s fun f => f.write 0x040 (oneCommand 62 data)).hub.fw.fwCtrlIndex.toNat ∧ n ≤ hdrN x.hdr 0x024 4) →
    s.hub.fw.fwStatusState = 1 →
    tget none x.blocks n = none →
    ∃ t, exec (.fwBlock i data) s = .next t ∧
      (t.hub.transfer = match openBlock x.hdr n (mailbox s 4112) with | some b => some { x with blocks := tset none x.blocks n (some b) } | none => some x) ∧
      (t.hub.fw.fwErrTagFail = if openBlock x.hdr n (mailbox s 4112) =
        none then satInc s.hub.fw.fwErrTagFail else s.hub.fw.fwErrTagFail) ∧
      t.hub.flash = s.hub.flash ∧
      t.hub.jobs = s.hub.jobs ∧
      t.tsu = s.tsu ∧
      Reported { s with hub := { s.hub with fw := t.hub.fw, flash := t.hub.flash, transfer := t.hub.transfer } } t) ∧
  (∀ (x : Transfer) (s : State),
    s.hub.fw.fwStatusState = 2 →
    s.hub.transfer = some x →
    builtImage s.hub x = none →
    ∃ t, exec .fwApplyDone s = .next t ∧
      t.hub.transfer = none ∧
      t.hub.fw.fwStatusState = 0 ∧ t.hub.fw.fwStatusResult = 10 ∧ t.hub.fw.fwErrRefused = satInc s.hub.fw.fwErrRefused ∧
      slotState t.hub x.slot = 0 ∧ slotOf t.hub x.slot = {} ∧
      (t.hdr .hub .fw).pageIntStatus.getLsbD 1 = true ∧
      t.hub.jobs = s.hub.jobs ∧
      t.tsu = s.tsu ∧
      Reported { s with
        hub := { s.hub with fw := t.hub.fw, flash := t.hub.flash, transfer := t.hub.transfer }, free := t.free } t) ∧
  (∀ (x : Transfer) (img : List (BitVec 8)) (s : State),
    s.hub.fw.fwStatusState = 2 →
    s.hub.transfer = some x →
    builtImage s.hub x = some img →
    (sha384 img).toNat = hdrN x.hdr 0x060 48 →
    ∃ t, exec .fwApplyDone s = .next t ∧
      t.hub.transfer = none ∧
      t.hub.fw.fwStatusState = 3 ∧ t.hub.fw.fwStaged = fwVer x.hdr ∧
      slotState t.hub x.slot = 1 ∧
      (slotOf t.hub x.slot).hdr = x.hdr ∧ (slotOf t.hub x.slot).image = img ∧
      (t.hdr .hub .fw).pageIntStatus.getLsbD 0 = true ∧
      t.hub.jobs = s.hub.jobs ∧
      t.tsu = s.tsu ∧
      Reported { s with
        hub := { s.hub with fw := t.hub.fw, flash := t.hub.flash, transfer := t.hub.transfer }, free := t.free } t) ∧
  (∀ (i : Iface) (data : Word) (x : Transfer) (s : State),
    unpowered s i = false →
    i.part = .hub →
    i ≠ .pcie ∨ s.hub.mod_.modStatusBootDone = true →
    s.hub.fw.fwStatusState = 1 →
    s.hub.transfer = some x →
    ∃ t, exec (.fwAbort i data) s = .next t ∧
      t.hub.transfer = none ∧
      t.hub.fw.fwStatusState = 0 ∧ t.hub.fw.fwStatusAccepted = 0 ∧ t.hub.fw.fwStatusNextMissing = 0 ∧ t.hub.fw.fwStaged = 0 ∧
      slotState t.hub x.slot = 0 ∧ slotOf t.hub x.slot = {} ∧
      t.out.getLast? = some (.writeAck i false) ∧
      t.hub.jobs = s.hub.jobs ∧
      t.tsu = s.tsu ∧
      Reported { s with hub := { s.hub with fw := t.hub.fw, flash := t.hub.flash, transfer := t.hub.transfer } } t) ∧
  (∀ (i : Iface) (data : Word) (twinVer : BitVec 64) (twinState : BitVec 3) (s : State),
    unpowered s i = false →
    i.part = .hub →
    i ≠ .pcie ∨ s.hub.mod_.modStatusBootDone = true →
    (getF data 32 8 : BitVec 8) = 0xA5 →
    s.hub.fw.fwStatusState = 3 →
    s.hub.mod_.modStatusRomRecovery = false →
    (s.roleLinks 3).isEmpty = false →
    twinState ≠ 4 →
    planeOf s.hub.id.hubAddr = true ∨ s.hub.fw.fwStaged.toNat ≤ twinVer.toNat →
    ∃ t, exec (.fwActivate i data twinVer twinState) s = .next t ∧
      (t = emit (mcReset (modFw s fun f => f.write 0x040 (oneCommand 61 data))) (.writeAck i false)) ∧
      t.hub.sh.tb = s.hub.sh.tb ∧ t.hub.sh.links = s.hub.sh.links ∧
      t.tsu = s.tsu) ∧
  (∀ (k : Bool) (s : State),
    onTrial s.hub = some k →
    ∃ t, exec .fwConfirm s = .next t ∧
      slotState t.hub k = 2 ∧
      (slotOf t.hub k).confirmSeq = Nat.max (slotOf s.hub false).confirmSeq (slotOf s.hub true).confirmSeq + 1 ∧
      t.hub.fw.fwStatusState = 0 ∧ t.hub.fw.fwStaged = 0 ∧ t.hub.fw.fwRunning = fwVer (slotOf s.hub k).hdr ∧
      t.hub.fw.fwSlotsMinSec.toNat = max s.hub.fw.fwSlotsMinSec.toNat (hdrN (slotOf s.hub k).hdr 0x01C 4) ∧
      t.tsu = s.tsu ∧
      Reported { s with hub := { s.hub with fw := t.hub.fw, jobs := t.hub.jobs, flash := t.hub.flash } } t) ∧
  (∀ (s : State),
    (onTrial s.hub).isSome = true →
    ∃ t, exec .fwTrialTimeout s = .next t ∧
      t = mcReset s ∧
      t.hub.sh.tb = s.hub.sh.tb ∧ t.hub.sh.links = s.hub.sh.links ∧
      t.tsu = s.tsu) ∧
  (∀ (i : Iface) (data : Word) (s : State),
    unpowered s i = false →
    i.part = .hub →
    i ≠ .pcie ∨ s.hub.mod_.modStatusBootDone = true →
    (getF data 32 8 : BitVec 8) = 0xA5 →
    ∃ t, exec (.fwRecover i data) s = .next t ∧
      (t = emit (modHub (modFw s fun f => f.write 0x040 (oneCommand 59 data)) fun h => { h with
        power := { h.power with recover := true } }) (.writeAck i false))) ∧
  (∀ (i : Iface) (data : Word) (k : BitVec 2) (s : State),
    unpowered s i = false →
    i.part = .hub →
    i ≠ .pcie ∨ s.hub.mod_.modStatusBootDone = true →
    (getF data 32 8 : BitVec 8) = 0xA5 →
    k = getF data 48 2 →
    signsConfirmed s.hub k = false →
    ∃ t, exec (.fwRevoke i data) s = .next t ∧
      t.hub.fw.fwSlotsRevoked = setBit s.hub.fw.fwSlotsRevoked k.toNat true ∧
      t.out.getLast? = some (.writeAck i false) ∧
      t.hub.jobs = s.hub.jobs ∧
      t.tsu = s.tsu ∧
      Reported { s with hub := { s.hub with fw := t.hub.fw, flash := t.hub.flash, transfer := t.hub.transfer } } t)

/-- A write at no register is refused and counted (R171); PAGE_SCRATCH takes what is written, and reads back (R170, R504). A
read that clears returns the value and clears its RC fields (R72, R170). ERR_CLR clears PAGE_ERR_COUNT; INT_FORCE sets a
cause that the page names and is refused for another (R505). PAGE_INT_STATUS clears the bits written as 1 (R504, R509);
PAGE_INT_ENABLE takes the causes named (R506). A PCIe read of 8 aligned bytes reads one register, and BAR2 takes bytes
(R510, R511). -/
def Obligations.RegisterAccesses : Prop :=
  (∀ (i : Iface) (a : BitVec 24) (data : Word) (s : State),
    Answers s i →
    locate i a = .nothing →
    ∃ t, exec (.registerWrite i a data) s = .next t ∧
      t = emit (refuse s i.part (strayPage i.part)) (.writeAck i true)) ∧
  (∀ (i : Iface) (a : BitVec 24) (data : Word) (g : Page) (s : State),
    Answers s i →
    locate i a = .reg g 0x038 →
    g.ordinal i.part ≠ none →
    ∃ t, exec (.registerWrite i a data) s = .next t ∧
      (t = emit (modHdr s i.part g fun h => { h with pageScratch := data }) (.writeAck i false)) ∧
      (t.hdr i.part g).pageScratch = data) ∧
  (∀ (i : Iface) (a : BitVec 24) (g : Page) (s : State),
    Answers s i →
    locate i a = .reg g 0x038 →
    ∃ t, exec (.registerReadClear i a) s = .next t ∧
      t = emit s (.readData i (s.hdr i.part g).pageScratch)) ∧
  (∀ (i : Iface) (a : BitVec 24) (s : State),
    Answers s i →
    i.part = .hub →
    locate i a = .reg .mgmt 0x060 →
    ∃ t, exec (.registerReadClear i a) s = .next t ∧
      t.hub.mgmt = { s.hub.mgmt with mgStatusRxDrop := 0, mgStatusTxDrop := 0 } ∧
      t.out = s.out ++ [.readData i (s.hub.mgmt.read 0x060)] ∧
      t.hub.jobs = s.hub.jobs ∧
      t.tsu = s.tsu ∧
      Reported { s with hub := { s.hub with mgmt := t.hub.mgmt } } t) ∧
  (∀ (i : Iface) (page : BitVec 12) (data : Word) (g : Page) (s : State),
    Answers s i →
    locate i (page ++ (0x010 : BitVec 12)) = .reg g 0x010 →
    g.ordinal i.part ≠ none →
    getB data 62 = false →
    ∃ t, exec (.errClr i page data) s = .next t ∧
      (t.hdr i.part g).pageErrCount = 0 ∧
      (t.hdr i.part g).pageIntStatus = (s.hdr i.part g).pageIntStatus ∧
      t.out.getLast? = some (.writeAck i false) ∧
      t.hub.jobs = s.hub.jobs ∧
      Reported s t) ∧
  (∀ (i : Iface) (page : BitVec 12) (data : Word) (g : Page) (k : Nat) (s : State),
    Answers s i →
    locate i (page ++ (0x010 : BitVec 12)) = .reg g 0x010 →
    g.ordinal i.part ≠ none →
    k = (getF data 16 6 : BitVec 6).toNat →
    (causesOf g).getLsbD k = true →
    ∃ t, exec (.intForce i page data) s = .next t ∧
      (t.hdr i.part g).pageIntStatus = setBit (s.hdr i.part g).pageIntStatus k true ∧
      t.out.getLast? = some (.writeAck i false) ∧
      t.hub.jobs = s.hub.jobs ∧
      Reported s t) ∧
  (∀ (i : Iface) (page : BitVec 12) (data : Word) (g : Page) (s : State),
    Answers s i →
    locate i (page ++ (0x010 : BitVec 12)) = .reg g 0x010 →
    (causesOf g).getLsbD (getF data 16 6 : BitVec 6).toNat = false →
    ∃ t, exec (.intForce i page data) s = .next t ∧
      t = emit (refuse s i.part g) (.writeAck i true)) ∧
  (∀ (i : Iface) (page : BitVec 12) (data : Word) (g : Page) (s : State),
    Answers s i →
    locate i (page ++ (0x020 : BitVec 12)) = .reg g 0x020 →
    ∃ t, exec (.pageIntStatusWrite i page data) s = .next t ∧
      (t = emit (modHdr s i.part g fun h => { h with pageIntStatus := h.pageIntStatus &&& ~~~ data }) (.writeAck i false))) ∧
  (∀ (i : Iface) (page : BitVec 12) (data : Word) (g : Page) (s : State),
    Answers s i →
    locate i (page ++ (0x028 : BitVec 12)) = .reg g 0x028 →
    ∃ t, exec (.pageIntEnableWrite i page data) s = .next t ∧
      (t = emit (modHdr s i.part g fun h => { h with pageIntEnable := data &&& causesOf g }) (.writeAck i false))) ∧
  (∀ (a : BitVec 24) (s : State),
    s.hub.power.perst = false →
    s.hub.power.on = true →
    a.toNat % 8 = 0 →
    ∃ t, exec (.pcieAccess (.read0 a 8)) s = .next t ∧
      t = emit (readAt .pcie a s).2.2 (.pcieReply false (leBytes (readAt .pcie a s).2.1))) ∧
  (∀ (a : BitVec 24) (bs : List (BitVec 8)) (s : State),
    s.hub.power.perst = false →
    s.hub.power.on = true →
    a.toNat % 8 = 0 →
    bs.length = 8 →
    ∃ t, exec (.pcieAccess (.write0 a bs)) s = .next t ∧
      t = writeAt .silent .pcie a (leWord bs) s) ∧
  (∀ (a : BitVec 16) (bs : List (BitVec 8)) (s : State),
    s.hub.power.perst = false →
    s.hub.power.on = true →
    ∃ t, exec (.pcieAccess (.write2 a bs)) s = .next t ∧
      (t = modHub s fun h => { h with bar2 := mailboxWrite bs a.toNat h.bar2 })) ∧
  (∀ (a : BitVec 16) (n : BitVec 13) (s : State),
    s.hub.power.perst = false →
    s.hub.power.on = true →
    ∃ t, exec (.pcieAccess (.read2 a n)) s = .next t ∧
      (t = emit s (.pcieReply false ((List.range n.toNat).map fun k => tget 0 s.hub.bar2 (a.toNat + k))))) ∧
  (∀ (e : Bool) (s : State),
    s.hub.power.perst = false →
    s.hub.power.on = true →
    ∃ t, exec (.pcieAccess (.msixControl e)) s = .next t ∧
      (t = modHub s fun h => { h with msixEnable := e })) ∧
  (∀ (debugEn : Bool) (data : BitVec 89) (g : Page) (s : State),
    s.hub.power.on = true →
    closed s .jtag = false →
    data.getLsbD 88 = false →
    locate .jtag (data.extractLsb' 64 24) = .reg g 0x038 →
    ∃ t, exec (.jtagRegacc debugEn data) s = .next t ∧
      t.hub.jtag = { s.hub.jtag with ir := .regacc, data := data.extractLsb' 64 25 ++ (s.hdr .hub g).pageScratch } ∧
      (t.out = s.out ++ [.jtag ((List.range 89).map fun k => s.hub.jtag.data.getLsbD k)]) ∧
      t.hub.jobs = s.hub.jobs ∧
      t.tsu = s.tsu ∧
      Reported { s with hub := { s.hub with jtag := t.hub.jtag } } t) ∧
  (∀ (debugEn : Bool) (data : BitVec 89) (s : State),
    debugEn = true →
    s.hub.power.on = true →
    data.getLsbD 88 = true →
    ∃ t, exec (.jtagRegacc debugEn data) s = .next t ∧
      (t = modHub (writeAt .silent .jtag (data.extractLsb' 64 24) (data.extractLsb' 0 64) (emit (setIr s .regacc) (.jtag
        ((List.range 89).map fun k => s.hub.jtag.data.getLsbD k)))) fun h => { h with jtag := { h.jtag with data := data } }))

/-- INT_EOI re-arms the vectors named and looks at all of them (R527). Unmasking a vector that does not pend only unmasks
it; one that pends over a pending page sends its message and is counted (R527). HUB_ADDR with every port OFF and a legal
address is taken and stored (R516); MG_IPV4, MG_GATEWAY and MG_QUERY are taken and stored (R518). ARP and echo for the own
address are answered, others dropped and counted (R518); a query answers register by register, and one for another port is
dropped (R519). LINK_UP follows the link (R517). -/
def Obligations.InterruptsAndManagement : Prop :=
  (∀ (i : Iface) (data : Word) (s : State),
    Answers s i →
    i.part = .hub →
    ∃ t, exec (.intEoi i data) s = .next t ∧
      (t = emit (msixScan (modHub s fun h => { h with
        intc := { h.intc with intArmed := h.intc.intArmed ||| data } })) (.writeAck i false))) ∧
  (∀ (v : BitVec 6) (s : State),
    s.hub.power.perst = false →
    Answers s .pcie →
    s.hub.msixPending.getLsbD v.toNat = false →
    ∃ t, exec (.msixUnmask v) s = .next t ∧
      (t = modHub s fun h => { h with msixMasked := setBit h.msixMasked v.toNat false })) ∧
  (∀ (v : BitVec 6) (s : State),
    s.hub.power.perst = false →
    Answers s .pcie →
    s.hub.msixPending.getLsbD v.toNat = true →
    (intVec s).getLsbD v.toNat = true →
    s.hub.msixEnable = true →
    ∃ t, exec (.msixUnmask v) s = .next t ∧
      (t = msixSend (modHub s fun h => { h with
        msixMasked := setBit h.msixMasked v.toNat false, msixPending := setBit h.msixPending v.toNat false }) v.toNat) ∧
      t.hub.intc.intSent = satInc s.hub.intc.intSent ∧
      t.out = s.out ++ [.msix v]) ∧
  (∀ (i : Iface) (data : Word) (a : BitVec 16) (s : State),
    Answers s i →
    i.part = .hub →
    a = getF data 0 16 →
    (s.hub.sh.pages.all (fun g => g.2.role.portRole == 0) = true) →
    hubAddrLegal a = true →
    ∃ t, exec (.hubAddrWrite i data) s = .next t ∧
      (t = emit (modHub s fun h => { h with
        id := { h.id with hubAddr := a }, flash := { h.flash with hubAddr := a } }) (.writeAck i false))) ∧
  (∀ (i : Iface) (data : Word) (s : State),
    Answers s i →
    i.part = .hub →
    (getF data 0 6 : BitVec 6).toNat ≤ 32 →
    ∃ t, exec (.mgmtConfigWrite i 0 data) s = .next t ∧
      t.hub.mgmt = { s.hub.mgmt with mgIpv4Addr := getF data 32 32, mgIpv4Prefix := getF data 0 6 } ∧
      t.hub.flash.ipv4 = getF data 32 32 ∧ t.hub.flash.prefixLen = getF data 0 6 ∧
      t.out.getLast? = some (.writeAck i false) ∧
      t.hub.jobs = s.hub.jobs ∧
      t.tsu = s.tsu ∧
      Reported { s with hub := { s.hub with mgmt := t.hub.mgmt, flash := t.hub.flash } } t) ∧
  (∀ (i : Iface) (data : Word) (s : State),
    Answers s i →
    i.part = .hub →
    ∃ t, exec (.mgmtConfigWrite i 1 data) s = .next t ∧
      t.hub.mgmt = { s.hub.mgmt with mgGateway := getF data 0 32 } ∧
      t.hub.flash.gateway = getF data 0 32 ∧
      t.out.getLast? = some (.writeAck i false) ∧
      t.tsu = s.tsu ∧
      Reported { s with hub := { s.hub with mgmt := t.hub.mgmt, flash := t.hub.flash } } t) ∧
  (∀ (i : Iface) (which : BitVec 2) (data : Word) (s : State),
    Answers s i →
    i.part = .hub →
    which = 2 ∨ which = 3 →
    ∃ t, exec (.mgmtConfigWrite i which data) s = .next t ∧
      t.hub.mgmt = { s.hub.mgmt with mgQuery := getF data 0 16 } ∧
      t.hub.flash.query = getF data 0 16 ∧
      t.out.getLast? = some (.writeAck i false) ∧
      t.tsu = s.tsu ∧
      Reported { s with hub := { s.hub with mgmt := t.hub.mgmt, flash := t.hub.flash } } t) ∧
  (∀ (target sender : BitVec 32) (mac : BitVec 48) (s : State),
    s.hub.power.on = true →
    s.hub.mgmt.mgIpv4Addr ≠ 0 →
    target = s.hub.mgmt.mgIpv4Addr →
    ∃ t, exec (.arpReceive target sender mac) s = .next t ∧
      t = emit s (.arpReply sender mac)) ∧
  (∀ (target sender : BitVec 32) (mac : BitVec 48) (s : State),
    s.hub.power.on = true →
    target ≠ s.hub.mgmt.mgIpv4Addr →
    ∃ t, exec (.arpReceive target sender mac) s = .next t ∧
      (t = modHub s fun h => { h with mgmt := { h.mgmt with mgStatusRxDrop := satInc h.mgmt.mgStatusRxDrop } })) ∧
  (∀ (dst src : BitVec 32) (data : List (BitVec 8)) (s : State),
    s.hub.power.on = true →
    s.hub.mgmt.mgIpv4Addr ≠ 0 →
    dst = s.hub.mgmt.mgIpv4Addr →
    inPrefix s.hub.mgmt src = true ∨ s.hub.mgmt.mgGateway ≠ 0 →
    ∃ t, exec (.icmpEchoReceive dst src data) s = .next t ∧
      t = emit s (.icmpReply src data)) ∧
  (∀ (ip : BitVec 32) (src dst : BitVec 16) (data : List (BitVec 8)) (n : Nat) (s : State),
    s.hub.power.on = true →
    dst = s.hub.mgmt.mgQuery →
    ip = s.hub.evh.evDestIpv4 →
    bytesAt data 0 2 = 0x5251 →
    bytesAt data 3 1 = n ∧ 0 < n ∧ n ≤ 32 →
    data.length = 8 + 4 * n →
    ∃ t, exec (.registerQuery ip src dst data) s = .next t ∧
      (t = udpSend (queryAnswers ((List.range n).map fun k => bytesAt data (8 + 4 * k) 4) s).2 ip src (fieldBytes [(2, 0x5252),
        (1, bytesAt data 2 1), (1, n), (4, bytesAt data 4 4)] ++ (queryAnswers ((List.range n).map fun k => bytesAt data (8 + 4
          * k) 4) s).1))) ∧
  (∀ (ip : BitVec 32) (src dst : BitVec 16) (data : List (BitVec 8)) (s : State),
    s.hub.power.on = true →
    dst ≠ s.hub.mgmt.mgQuery →
    ∃ t, exec (.registerQuery ip src dst data) s = .next t ∧
      (t = modHub s fun h => { h with mgmt := { h.mgmt with mgStatusRxDrop := satInc h.mgmt.mgStatusRxDrop } })) ∧
  (∀ (up : Bool) (s : State),
    ∃ t, exec (.mgmtLinkStateChange up) s = .next t ∧
      (t = modHub s fun h => { h with mgmt := { h.mgmt with mgStatusLinkUp := up } }))

/-- An uncorrectable read is counted on its pseudo-channel with its address and cause; of an event record in the ring the
record becomes zero, and of a job's state nothing else changes until the twin answers (R523, R524). An item that the twin
does not supply in 20 us lets the lead poison and abort the running job, and the other home member asks the lead to (R394,
R524). -/
def Obligations.UncorrectableReads : Prop :=
  (∀ (channel : BitVec 6) (addr : BitVec 40) (k : BitVec 64) (s : State),
    ringOldest s.hub.evh ≤ k.toNat ∧ k.toNat < s.hub.evh.evHead.toNat →
    ∃ t, exec (.hbmUncorrectableRead channel addr (.event k)) s = .next t ∧
      (t.hub.memc = tmod {} s.hub.memc channel.toNat fun r => { r with
        mcEccUncorrected := satInc r.mcEccUncorrected, mcErrAddr := addr }) ∧
      t.hub.ring = tset 0 s.hub.ring (k.toNat % ringSize) 0 ∧
      t.hub.evh = s.hub.evh ∧
      (t.hdr .hub (.memc channel)).pageIntStatus.getLsbD 0 = true ∧
      t.hub.jobs = s.hub.jobs ∧
      t.tsu = s.tsu ∧
      Reported { s with
        hub := { s.hub with
          flt := t.hub.flt, jobs := t.hub.jobs, aud := t.hub.aud, audRing := t.hub.audRing, rlRing := t.hub.rlRing,
          ladle := t.hub.ladle, txns := t.hub.txns, queue := t.hub.queue, finished := t.hub.finished, locks := t.hub.locks,
          staged := t.hub.staged, memc := t.hub.memc },
        tsu := { s.tsu with staged := t.tsu.staged }, free := t.free } t) ∧
  (∀ (channel : BitVec 6) (addr : BitVec 40) (j : BitVec 12) (s : State),
    ∃ t, exec (.hbmUncorrectableRead channel addr (.jobState j)) s = .next t ∧
      (t.hub.memc = tmod {} s.hub.memc channel.toNat fun r => { r with
        mcEccUncorrected := satInc r.mcEccUncorrected, mcErrAddr := addr }) ∧
      (t.hdr .hub (.memc channel)).pageIntStatus.getLsbD 0 = true ∧
      t.hub.ring = s.hub.ring ∧
      t.hub.jobs = s.hub.jobs ∧
      t.tsu = s.tsu ∧
      Reported { s with
        hub := { s.hub with
          flt := t.hub.flt, jobs := t.hub.jobs, aud := t.hub.aud, audRing := t.hub.audRing, rlRing := t.hub.rlRing,
          ladle := t.hub.ladle, txns := t.hub.txns, queue := t.hub.queue, finished := t.hub.finished, locks := t.hub.locks,
          staged := t.hub.staged, memc := t.hub.memc },
        tsu := { s.tsu with staged := t.tsu.staged }, free := t.free } t) ∧
  (∀ (job : BitVec 12) (s : State),
    s.isLead job = true →
    (s.job job).regs.jobStatusState = 2 →
    ∃ t, exec (.twinFetchTimeout job) s = .next t ∧
      t = poison s.fresh.2 job (s.job job).step 1 (Config.fetchTarget s.free) ∧
      (t.job job).regs.jobStatusState = 5 ∧
      t.tsu = s.tsu) ∧
  (∀ (job : BitVec 12) (s : State),
    s.isHome job = true →
    s.isLead job = false →
    ∃ t, exec (.twinFetchTimeout job) s = .next t ∧
      t = sendTwin s.fresh.2 job.toNat (.stepPoison {
        job := job, epoch := (s.job job).regs.jobStatusEpoch, step := (s.job job).step.setWidth 24,
        target := Config.fetchTarget s.free }) ∧
      t.hub.jobs = s.hub.jobs ∧
      t.tsu = s.tsu) ∧
  (∀ (h : HeldLaunch) (s : State),
    s.tsu.inReset = false →
    s.tsu.sh.tb.resolve = false →
    launchDueNow s true = none →
    launchDueNow s false = some h →
    s.tsu.staged = [] →
    ∃ t, exec (.scheduledActionFire .tsu) s = .next t ∧
      t.tsu.step.stepNow = h.step ∧
      t.tsu.step.stepLast = h.tick ∧
      t.tsu.launch = none ∧
      t.hub.jobs = s.hub.jobs) ∧
  (∀ (j : BitVec 12) (h : HeldLaunch) (s : State),
    s.hub.power.on = true →
    s.hub.sh.tb.resolve = false →
    s.jobIds.contains j = true →
    homeDueNow s j true = none →
    homeDueNow s j false = some h →
    s.hub.staged = [] →
    ∃ t, exec (.scheduledActionFire .hub) s = .next t ∧
      (t.job j).step = h.step ∧
      (t.job j).nextLaunch = none ∧
      t.tsu = s.tsu)

/-- With a command at the front of the queue, the step is that command on the state with the queue's rest. The queue of
waiting commands is the model's own (log entry 2); the spec's commands change the state each by its rules. -/
def Obligations.StepRunsTheFrontCommand : Prop :=
  ∀ (c : Instr) (s : State), step { s with pending := c :: s.pending } = exec c s

/-- With an empty queue a step answers the same state. The spec gives the block no tick of its own in the command table;
that the empty queue idles is the model's choice (log entry 2). -/
def Obligations.AnEmptyQueueIdles : Prop :=
  ∀ s : State, s.pending = [] → step s = .next s

/-- Whatever the state and the operands, a command of the table answers a next state, with neither a fault nor a refusal,
and it leaves the waiting commands as they are. A command whose conditions do not hold is refused by the rules of its
chapter inside the state, by a counter, a status or an answer. -/
def Obligations.EveryCommandAnswers : Prop :=
  ∀ (c : Instr) (s : State), ∃ t, exec c s = .next t ∧ t.pending = s.pending

/-- After reset each of these registers reads as its page's table gives: the interface of the reader, the page, the offset
and the value. The hub's pages are read over the management port, the TSU's over the host port. -/
def Obligations.ResetRegisterValues : Prop :=
  ([
    (.mgmt, .link 71, 0x040, 0xFFFFFFFF0000), (.mgmt, .emu 3, 0x050, 0x40000000400), (.host, .emu 1, 0x050, 0x40000000400),
    (.mgmt, .vernier, 0x040, 0x3E8), (.host, .vernier, 0x040, 0x3E8), (.mgmt, .link 71, 0x108, 0x3C04E1),
    (.host, .link 1, 0x108, 0x3C04E1), (.mgmt, .link 71, 0x140, 0x14000201F400FA0), (.mgmt, .servo, 0x040, 0x3E8000300100000),
    (.host, .servo, 0x040, 0x40000300100000), (.mgmt, .servo, 0x048, 0x10DDDF0), (.host, .servo, 0x048, 0x10DDDF0),
    (.mgmt, .servo, 0x050, 0x108F2838), (.host, .servo, 0x050, 0x108F2838), (.mgmt, .servo, 0x068, 0xFF000000),
    (.host, .servo, 0x068, 0xFF000000), (.mgmt, .servo, 0x088, 0xFFFF00000000), (.host, .servo, 0x088, 0xFFFF00000000),
    (.mgmt, .ref, 0x040, 0x8000), (.mgmt, .ref, 0x048, 0x20), (.mgmt, .ref, 0x050, 0x3E80E100000),
    (.mgmt, .ref, 0x058, 0x2B2DC), (.mgmt, .ref, 0x060, 0x6C86), (.mgmt, .ref, 0x090, 0x1), (.mgmt, .ref, 0x098, 0x4000),
    (.mgmt, .ref, 0x0A8, 0x100000000000), (.host, .root, 0x048, 0x30001), (.host, .root, 0x058, 0x403),
    (.host, .tap, 0x048, 0x1), (.host, .tap, 0x060, 0x2000000001F40001), (.host, .tap, 0x0A0, 0xFFFFFFFFFFFF),
    (.host, .sync, 0x040, 0x98967F), (.mgmt, .synch, 0x060, 0xFA0), (.mgmt, .late, 0x048, 0xA), (.mgmt, .audit, 0x040, 0x1),
    (.mgmt, .audit, 0x048, 0x4), (.mgmt, .deth, 0x0C0, 0x104), (.mgmt, .evh, 0x040, 0x1), (.mgmt, .evh, 0x048, 0x45564556),
    (.mgmt, .flt, 0x040, 0x2D0003C00000000), (.mgmt, .flt, 0x048, 0xC8), (.mgmt, .flt, 0x058, 0xFFFF0000),
    (.mgmt, .flt, 0x060, 0x8010400200000000), (.mgmt, .txn, 0x040, 0xFFFF), (.host, .txnt, 0x048, 0xFFFF00000000),
    (.mgmt, .link 71, 0x180, 0x70000), (.mgmt, .link 71, 0x188, 0x40000000000), (.host, .link 1, 0x188, 0x40000000200),
    (.mgmt, .mod, 0x050, 0x64), (.mgmt, .hubid, 0x040, 0xBD72B120), (.mgmt, .hubid, 0x050, 0x403),
    (.mgmt, .mgmt, 0x058, 0x5251), (.mgmt, .intc, 0x068, 0xFFFFFFFFFFFFFFFF)] :
      List (Iface × Page × Nat × Word)).all (fun e => (readReg e.1 e.2.1 e.2.2.1 State.reset).1 == e.2.2.2) = true

/-- Right after reset the queues are within the bounds that the spec gives them, both parts' VALID, HOLDOVER and servo state
stand as R53 and R126 let them, and no page header shows a cause that its chapter does not name. -/
def Obligations.InvariantsHoldAtReset : Prop :=
  Bounded State.reset ∧ TimeConsistent State.reset ∧ CausesNamed State.reset

/-- A step from a state within the bounds gives a state within them: at most 16 host-port requests outstanding (R169), 16
SENDs queued (R234), 1,024 replay values in each queue (R371, R372), 32 event records waiting (R384), 64 upward flits
unacknowledged (R401), 64 pending signals (R238), 32 transactions (R425) and a body of 16 MiB (R420); XBUF and the BAR2
mailbox keep their canonical form. -/
def Obligations.EveryStepKeepsTheBounds : Prop :=
  ∀ s t : State, Bounded s → step s = .next t → Bounded t

/-- A step from a state in which, on each part, VALID is 1 only LOCKED with HOLDOVER 0 or in HOLDOVER with HOLDOVER 1,
HOLDOVER is 1 only with VALID, and the servo's state is 0 to 4, gives such a state again. HOLDOVER without VALID is never
produced (R53), nor are the states 5 to 7 (R156). -/
def Obligations.EveryStepKeepsTheTimeStates : Prop :=
  ∀ s t : State, TimeConsistent s → step s = .next t → TimeConsistent t

/-- A step from a state in which no page header shows or enables a cause that the page's chapter does not name gives such a
state again (R505). -/
def Obligations.EveryStepKeepsCausesNamed : Prop :=
  ∀ s t : State, CausesNamed s → step s = .next t → CausesNamed t

/-- Whatever command a step runs, resets and firmware changes among them, MIN_SEC does not fall and a signing key that is
revoked stays revoked (R488, R498). -/
def Obligations.FusesOnlyBlow : Prop :=
  ∀ s t : State, step s = .next t →
    s.hub.fw.fwSlotsMinSec.toNat ≤ t.hub.fw.fwSlotsMinSec.toNat ∧
      ∀ k, s.hub.fw.fwSlotsRevoked.getLsbD k = true → t.hub.fw.fwSlotsRevoked.getLsbD k = true

/-- Whatever command a step runs, a unit that is retired is retired after it: no register, reset or firmware image returns
it (R397). -/
def Obligations.RetiredUnitsStayRetired : Prop :=
  ∀ (s t : State) (u : BitVec 16), step s = .next t → (s.unit u).unitState = 4 → (t.unit u).unitState = 4

/-- A saturating counter stops at its all-ones value and never wraps, whether it counts one or several; PAGE_ERR_COUNT of
every page is such a counter, and so is the VALUE of a sync object, which also sets SATURATED as it reaches its maximum. -/
def Obligations.SaturatingCounters : Prop :=
  (∀ (w : Nat) (x : BitVec w), (satInc x).toNat = min (x.toNat + 1) (2 ^ w - 1)) ∧
  (∀ (w : Nat) (x : BitVec w) (n : Nat), (satAdd x n).toNat = min (x.toNat + n) (2 ^ w - 1)) ∧
  (∀ (s : State) (p : Part) (g : Page), g.ordinal p ≠ none →
    ((refuse s p g).hdr p g).pageErrCount = satInc (s.hdr p g).pageErrCount) ∧
  (∀ (s : State) (k : BitVec 12) (n : Nat),
    ((setValue s k n).slot k).regs.soValValue.toNat = min n (2 ^ 48 - 1) ∧
      (2 ^ 48 - 1 ≤ n → ((setValue s k n).slot k).regs.soValSaturated = true))

/-- A read of NOW_LO latches NOW_HI, NOW_TICK and NOW_FRAC of the cycle of the read. A read of NOW_HI, NOW_TICK or NOW_FRAC
answers the latched value and does not latch again. Neither changes what another interface holds. -/
def Obligations.TimeReadsLatch : Prop :=
  (∀ (i : Iface) (s : State), Answers s i →
    ∃ t, exec (.nowLoRead i) s = .next t ∧
      (t.iface i).regs.nowHi = (s.sec i.part).extractLsb' 16 32 ∧
      (t.iface i).regs.nowTick = s.now i.part ∧
      (t.iface i).regs.nowFrac = (s.sh i.part).tb.frac ∧
      t.out = s.out ++ [.readData i (nowLo s i.part)] ∧
      (∀ j, j ≠ i → t.iface j = s.iface j)) ∧
  (∀ (i : Iface) (a : BitVec 24) (off : Nat) (s : State), Answers s i →
    locate i a = .reg .timebase off → off = 0x048 ∨ off = 0x050 ∨ off = 0x058 →
    ∃ t, exec (.registerReadClear i a) s = .next t ∧
      t.out = s.out ++ [.readData i (if off = 0x048 then putF 0 (s.iface i).regs.nowHi
        else if off = 0x050 then (s.iface i).regs.nowTick else putF 0 (s.iface i).regs.nowFrac)] ∧
      (∀ j, t.iface j = s.iface j))

/-- A page is pending exactly when PAGE_INT_STATUS AND PAGE_INT_ENABLE is not zero, PAGE_STATUS.INT_PENDING shows that, and
a write that enables a cause already set makes the page pending in that write. -/
def Obligations.PendingPages : Prop :=
  (∀ (s : State) (p : Part) (g : Page),
    (s.pending? p g = true ↔ (s.hdr p g).pageIntStatus &&& (s.hdr p g).pageIntEnable ≠ 0) ∧
      (readHdr p g 0x018 s).getLsbD 0 = s.pending? p g) ∧
  (∀ (i : Iface) (page : BitVec 12) (data : Word) (g : Page) (k : Nat) (s : State), Answers s i →
    locate i (page ++ (0x028 : BitVec 12)) = .reg g 0x028 → g.ordinal i.part ≠ none →
    (causesOf g).getLsbD k = true → (s.hdr i.part g).pageIntStatus.getLsbD k = true → data.getLsbD k = true →
    ∃ t, exec (.pageIntEnableWrite i page data) s = .next t ∧ t.pending? i.part g = true)

/-- The signed difference of two wire values lies in half the range on either side of zero and is their difference modulo
the width (R62). A wire value that is extended keeps its low bits (R63). A target is accepted only with VALID 1 and from now
to 2,000,000,000 ns ahead; otherwise it is refused and counted as NOT_VALID, PAST or TOO_FAR (R64, R68). A wire tick that is
accepted extends to such a target and changes nothing. -/
def Obligations.ScheduledTicks : Prop :=
  (∀ (n : Nat) (a b : BitVec n), 0 < n →
    -(2 ^ (n - 1) : Int) ≤ signedDiff a b ∧ signedDiff a b < 2 ^ (n - 1) ∧ BitVec.ofInt n (signedDiff a b) = a - b) ∧
  (∀ (n : Nat) (x : BitVec n) (now t : BitVec 64), n ≤ 64 → extendWire x now = some t → t.setWidth n = x) ∧
  (∀ (s : State) (p : Part) (target : Tick), schedTest s p target =
    if s.valid p = false then (false, countNotValid s p)
    else if target.toNat < (s.now p).toNat then (false, countPast s p)
    else if target.toNat ≤ (s.now p).toNat + 2000000000 then (true, s)
    else (false, countTooFar s p)) ∧
  (∀ (s u : State) (p : Part) (w : BitVec 32) (t : Tick), schedWire s p w = (some t, u) →
    u = s ∧ s.valid p = true ∧ t.setWidth 32 = w ∧ (s.now p).toNat ≤ t.toNat ∧ t.toNat ≤ (s.now p).toNat + 2000000000)

/-- For each of the eight kinds of upward collective message (ARRIVE, CONTRIB, PARTIAL, DGP, VMAP, CHECK, VREC, EVREC), with
every field at every value, reading the type code, the payload and the continuation bytes of its flits gives the message
back (R401, R404, R456, R457). -/
def Obligations.MirroredMessages : Prop :=
  ∀ m : Msg, 0x20 ≤ (msgTypeCode m).toNat → (msgTypeCode m).toNat ≤ 0x27 →
    upMessage (msgTypeCode m) (msgPayload m) (msgTail m) = some m

/-- A list of actions laid out as R422 gives, with a code of 16 bits and a payload in whole 8-byte words, is read back
action for action; six credit grants of 12 bits are read back from the 72-bit CRED field, and every CRED field is the field
of its grants (R457). -/
def Obligations.ActionsAndCredits : Prop :=
  (∀ as : List Act, (∀ a ∈ as, a.1 < 65536 ∧ a.2.2.length % 8 = 0 ∧ a.2.2.length < 2 ^ 32) →
    parseActs (as.flatMap encodeAct).length (as.flatMap encodeAct) = some as) ∧
  (∀ c : List Nat, c.length = 6 → (∀ n ∈ c, n < 4096) → credList (credField c) = c) ∧
  (∀ c : BitVec 72, credField (credList c) = c)
end

