-- ==== Sys2Proof/Laws/Bits.lean ====
section
/-! SUPPORT. Laws of bits and counters. -/

namespace Sys2Proof.Machine

theorem getLsbD_setBit_true {w : Nat} (x : BitVec w) (i : Nat) (h : i < w) : (setBit x i true).getLsbD i = true := by
  simp [setBit, h]

theorem getLsbD_setBit_false {w : Nat} (x : BitVec w) (i : Nat) : (setBit x i false).getLsbD i = false := by
  by_cases h : i < w <;> simp [setBit, h]

theorem getLsbD_setBit_ne {w : Nat} (x : BitVec w) (i j : Nat) (b : Bool) (h : i ≠ j) : (setBit x i b).getLsbD j = x.getLsbD j := by
  unfold setBit
  have : (1#w <<< i).getLsbD j = false := by
    simp only [BitVec.getLsbD_shiftLeft, BitVec.getLsbD_one]
    by_cases hj : j < i
    · simp [hj]
    · have : j - i ≠ 0 := by omega
      simp [this]
  split
  · simp [this]
  · by_cases hj : j < w
    · simp only [BitVec.getLsbD_and, BitVec.getLsbD_not, this, hj]; simp
    · simp [BitVec.getLsbD_of_ge x j (by omega), this]

/-- A saturating counter never falls (R14). -/
theorem satInc_toNat {w : Nat} (x : BitVec w) : (satInc x).toNat = min (x.toNat + 1) (2 ^ w - 1) := by
  unfold satInc
  have hx := x.isLt
  split
  · next h => subst h; simp
  · next h =>
    have : x.toNat ≠ 2 ^ w - 1 := fun e => h (BitVec.eq_of_toNat_eq (by simpa using e))
    cases w with
    | zero => omega
    | succ n => rw [BitVec.toNat_add_of_lt] <;> simp <;> omega

/-- A row that forces a bit changes nothing of a value that has it. -/
theorem or_putB_of_getB (v : Word) (i : Nat) (h : getB v i = true) : v ||| putB i true = v := by
  refine BitVec.eq_of_getLsbD_eq fun k hk => ?_
  unfold putB
  rw [if_pos rfl, BitVec.getLsbD_or, BitVec.getLsbD_shiftLeft]
  by_cases e : k = i
  · subst e; rw [show v.getLsbD k = true from h]; rfl
  · by_cases hlt : k < i
    · simp [hlt]
    · have : k - i ≠ 0 := by omega
      simp [BitVec.getLsbD_one, this]

end Sys2Proof.Machine
end

