-- ==== Sys2Proof/Laws/Table.lean ====
section
/-! SUPPORT. Laws of tables by number: what an entry reads as after a write, and that writes keep the canonical form. -/

namespace Sys2Proof.Machine

section

set_option Elab.async false

variable {α : Type} {d : α} {t : Tbl α} {j k : Nat}

theorem tget_tput_same (v : α) (h : ∀ e ∈ t, e.1 ≠ k) : tget d (tput k v t) k = v := by
  induction t with
  | nil => simp [tput, tget]
  | cons e t ih =>
    obtain ⟨i, u⟩ := e
    have hi : i ≠ k := h (i, u) (by simp)
    simp only [tput]
    split
    · simp [tget]
    · simp only [tget, if_neg hi]
      exact ih fun e he => h e (by simp [he])

theorem tget_tput_ne (v : α) (h : k ≠ j) : tget d (tput k v t) j = tget d t j := by
  induction t with
  | nil => simp [tput, tget, h]
  | cons e t ih =>
    obtain ⟨i, u⟩ := e
    simp only [tput]
    split
    · simp [tget, h]
    · simp only [tget, ih]

theorem tget_tdel_same : tget d (tdel k t) k = d := by
  induction t with
  | nil => rfl
  | cons e t ih =>
    obtain ⟨i, u⟩ := e
    by_cases h : i = k
    · simpa [tdel, h] using ih
    · simpa [tdel, tget, h] using ih

theorem tget_tdel_ne (h : k ≠ j) : tget d (tdel k t) j = tget d t j := by
  induction t with
  | nil => rfl
  | cons e t ih =>
    obtain ⟨i, u⟩ := e
    by_cases hi : i = k
    · subst hi; simpa [tdel, tget, h] using ih
    · by_cases hj : i = j
      · subst hj; simp [tdel, tget, hi]
      · simpa [tdel, tget, hi, hj] using ih

variable [DecidableEq α]

/-- An entry reads as what was written to it. -/
@[simp] theorem tget_tset_same (v : α) : tget d (tset d t k v) k = v := by
  unfold tset
  split
  · next h => rw [tget_tdel_same, h]
  · exact tget_tput_same v fun e he => by simpa [tdel] using (List.mem_filter.1 he).2

/-- A write leaves every other entry alone. -/
theorem tget_tset_ne (v : α) (h : k ≠ j) : tget d (tset d t k v) j = tget d t j := by
  unfold tset
  split
  · exact tget_tdel_ne h
  · rw [tget_tput_ne v h, tget_tdel_ne h]

theorem tget_tset (v : α) : tget d (tset d t k v) j = if k = j then v else tget d t j := by
  split
  · next h => subst h; exact tget_tset_same v
  · next h => exact tget_tset_ne v h

@[simp] theorem tget_tmod_same (f : α → α) : tget d (tmod d t k f) k = f (tget d t k) := tget_tset_same _

theorem tget_tmod_ne (f : α → α) (h : k ≠ j) : tget d (tmod d t k f) j = tget d t j := tget_tset_ne _ h

/-! ## The canonical form -/

theorem tabove_mono (h : j ≤ k) (ht : tabove d k t = true) : tabove d j t = true := by
  cases t with
  | nil => rfl
  | cons e t => simp only [tabove, Bool.and_eq_true, decide_eq_true_eq] at *; exact ⟨⟨by omega, ht.1.2⟩, ht.2⟩

theorem tabove_tdel (h : tabove d j t = true) : tabove d j (tdel k t) = true := by
  induction t generalizing j with
  | nil => rfl
  | cons e t ih =>
    obtain ⟨i, u⟩ := e
    simp only [tabove, Bool.and_eq_true, decide_eq_true_eq] at h
    by_cases hi : i = k
    · simpa [tdel, hi] using tabove_mono (Nat.le_of_lt h.1.1) (ih h.2)
    · have := ih h.2
      simp only [tdel] at this
      simp [tdel, hi, tabove, h.1.1, h.1.2, this]

theorem tabove_tput {v : α} (hv : v ≠ d) (hk : j < k) (h : tabove d j t = true) (hn : ∀ e ∈ t, e.1 ≠ k) :
    tabove d j (tput k v t) = true := by
  induction t generalizing j with
  | nil => simp [tput, tabove, hv, hk]
  | cons e t ih =>
    obtain ⟨i, u⟩ := e
    have hi : i ≠ k := hn (i, u) (by simp)
    simp only [tabove, Bool.and_eq_true, decide_eq_true_eq] at h
    simp only [tput]
    split
    · next hki => simp [tabove, hv, hk, h.1.2, h.2, hki]
    · simp only [tabove, Bool.and_eq_true, decide_eq_true_eq]
      exact ⟨h.1, ih (by omega) h.2 fun e he => hn e (by simp [he])⟩

theorem twf_of_tabove (h : tabove d j t = true) : twf d t = true := by
  cases t with
  | nil => rfl
  | cons e t => simp only [tabove, twf, Bool.and_eq_true, decide_eq_true_eq] at *; exact ⟨h.1.2, h.2⟩

/-- A write keeps the canonical form. -/
theorem twf_tset (h : twf d t = true) (k : Nat) (v : α) : twf d (tset d t k v) = true := by
  have hdel : twf d (tdel k t) = true := by
    cases t with
    | nil => rfl
    | cons e t =>
      obtain ⟨i, u⟩ := e
      simp only [twf, Bool.and_eq_true, decide_eq_true_eq] at h
      by_cases hi : i = k
      · have := twf_of_tabove (tabove_tdel (k := k) h.2)
        simpa [tdel, hi] using this
      · have := tabove_tdel (k := k) h.2
        simp only [tdel] at this
        simp [tdel, hi, twf, h.1, this]
  unfold tset
  split
  · exact hdel
  · next hv =>
    have hn : ∀ e ∈ tdel k t, e.1 ≠ k := fun e he => by simpa [tdel] using (List.mem_filter.1 he).2
    generalize tdel k t = u at hdel hn
    cases u with
    | nil => simp [tput, twf, tabove, hv]
    | cons e u =>
      obtain ⟨i, w⟩ := e
      simp only [twf, Bool.and_eq_true, decide_eq_true_eq] at hdel
      simp only [tput]
      split
      · next hk => simp [twf, tabove, hv, hk, hdel.1, hdel.2]
      · have hi : i ≠ k := hn (i, w) (by simp)
        simp only [twf, Bool.and_eq_true, decide_eq_true_eq]
        exact ⟨hdel.1, tabove_tput hv (by omega) hdel.2 fun e he => hn e (by simp [he])⟩

/-- A change of an entry keeps the canonical form. -/
theorem twf_tmod (h : twf d t = true) (k : Nat) (f : α → α) : twf d (tmod d t k f) = true := twf_tset h k _

end

end Sys2Proof.Machine
end

