-- ==== Sys2Proof/Laws/State.lean ====
section
/-! SUPPORT. Laws of the state: what each of the shared operations leaves in each part of it. -/

namespace Sys2Proof.Machine

section

set_option Elab.async false

variable (s : State)

/-! ## The parts of the state -/

@[simp] theorem modHub_hub (f : Hub → Hub) : (modHub s f).hub = f s.hub := rfl
@[simp] theorem modHub_tsu (f : Hub → Hub) : (modHub s f).tsu = s.tsu := rfl
@[simp] theorem modHub_out (f : Hub → Hub) : (modHub s f).out = s.out := rfl
@[simp] theorem modHub_free (f : Hub → Hub) : (modHub s f).free = s.free := rfl
@[simp] theorem modHub_pending (f : Hub → Hub) : (modHub s f).pending = s.pending := rfl

@[simp] theorem modTsu_tsu (f : Tsu → Tsu) : (modTsu s f).tsu = f s.tsu := rfl
@[simp] theorem modTsu_hub (f : Tsu → Tsu) : (modTsu s f).hub = s.hub := rfl
@[simp] theorem modTsu_out (f : Tsu → Tsu) : (modTsu s f).out = s.out := rfl
@[simp] theorem modTsu_free (f : Tsu → Tsu) : (modTsu s f).free = s.free := rfl
@[simp] theorem modTsu_pending (f : Tsu → Tsu) : (modTsu s f).pending = s.pending := rfl

@[simp] theorem emit_hub (o : Out) : (emit s o).hub = s.hub := rfl
@[simp] theorem emit_tsu (o : Out) : (emit s o).tsu = s.tsu := rfl
@[simp] theorem emit_out (o : Out) : (emit s o).out = s.out ++ [o] := rfl
@[simp] theorem emit_free (o : Out) : (emit s o).free = s.free := rfl
@[simp] theorem emit_pending (o : Out) : (emit s o).pending = s.pending := rfl
@[simp] theorem emit_sh (o : Out) (p : Part) : (emit s o).sh p = s.sh p := by cases p <;> rfl

@[simp] theorem modSh_sh (p : Part) (f : Shared → Shared) : (modSh s p f).sh p = f (s.sh p) := by cases p <;> rfl
@[simp] theorem modSh_sh_hub (f : Shared → Shared) : (modSh s .tsu f).sh .hub = s.sh .hub := rfl
@[simp] theorem modSh_sh_tsu (f : Shared → Shared) : (modSh s .hub f).sh .tsu = s.sh .tsu := rfl
@[simp] theorem modSh_hub_tsu (f : Shared → Shared) : (modSh s .hub f).tsu = s.tsu := rfl
@[simp] theorem modSh_tsu_hub (f : Shared → Shared) : (modSh s .tsu f).hub = s.hub := rfl
@[simp] theorem modSh_hub_hub (f : Shared → Shared) : (modSh s .hub f).hub = { s.hub with sh := f s.hub.sh } := rfl
@[simp] theorem modSh_tsu_tsu (f : Shared → Shared) : (modSh s .tsu f).tsu = { s.tsu with sh := f s.tsu.sh } := rfl
@[simp] theorem modSh_out (p : Part) (f : Shared → Shared) : (modSh s p f).out = s.out := by cases p <;> rfl
@[simp] theorem modSh_free (p : Part) (f : Shared → Shared) : (modSh s p f).free = s.free := by cases p <;> rfl
@[simp] theorem modSh_pending (p : Part) (f : Shared → Shared) : (modSh s p f).pending = s.pending := by cases p <;> rfl

@[simp] theorem modTsu_sh_hub (f : Tsu → Tsu) : (modTsu s f).sh .hub = s.sh .hub := rfl
@[simp] theorem modHub_sh_tsu (f : Hub → Hub) : (modHub s f).sh .tsu = s.sh .tsu := rfl

/-! ## What is kept by number reads as what was written -/

@[simp] theorem link_modLink (l : LinkId) (f : Link → Link) : (modLink s l f).link l = f (s.link l) := by
  simp [modLink, State.link]

@[simp] theorem page_modPage (p : Part) (i : BitVec 7) (f : LinkPage → LinkPage) : (modPage s p i f).page p i = f (s.page p i) := by
  simp [modPage, State.page]

@[simp] theorem iface_modIface (i : Iface) (f : IfaceCopy → IfaceCopy) : (modIface s i f).iface i = f (s.iface i) := by
  simp [modIface, State.iface]

@[simp] theorem point_modPoint (k : Point) (f : PointSt → PointSt) : (modPoint s k f).point k = f (s.point k) := by
  simp [modPoint, State.point]

@[simp] theorem emu_modEmu (p : Part) (e : BitVec 2) (f : Engine → Engine) : (modEmu s p e f).emu p e = f (s.emu p e) := by
  simp [modEmu, State.emu]

@[simp] theorem cluster_modCluster (p : Part) (c : BitVec 5) (f : Cluster → Cluster) :
    (modCluster s p c f).cluster p c = f (s.cluster p c) := by
  simp [modCluster, State.cluster]

@[simp] theorem slot_modSlot (k : BitVec 12) (f : Slot → Slot) : (modSlot s k f).slot k = f (s.slot k) := by
  simp [modSlot, State.slot]

@[simp] theorem tap_modTap (k : BitVec 7) (f : Tap → Tap) : (modTap s k f).tap k = f (s.tap k) := by
  simp [modTap, State.tap]

@[simp] theorem trig_modTrig (k : BitVec 4) (f : TrigLine → TrigLine) : (modTrig s k f).trig k = f (s.trig k) := by
  simp [modTrig, State.trig]

/-! ## Interfaces -/

/-- The TSU answers while it is out of reset. -/
theorem answers_tsu {s : State} {i : Iface} (h : i.part = .tsu) (hr : s.tsu.inReset = false) : Answers s i := by
  simp [Answers, unpowered, closed, h, hr]

theorem ackWrite_answers {s : State} {i : Iface} (h : Answers s i) (r : Bool × State) :
    ackWrite i s r = .next (emit r.2 (.writeAck i r.1)) := by
  simp [ackWrite, h.1, h.2]

theorem ackRead_answers {s : State} {i : Iface} (h : Answers s i) (r : Word × State) :
    ackRead i s r = .next (emit r.2 (.readData i r.1)) := by
  simp [ackRead, h.1, h.2]

theorem onPart_part {p : Part} {i : Iface} (h : i.part = p) (s : State) (f : State → Bool × State) : onPart p i s f = f s := by
  simp [onPart, h]

theorem onPartRead_part {p : Part} {i : Iface} (h : i.part = p) (s : State) (f : State → Word × State) :
    onPartRead p i s f = f s := by
  simp [onPartRead, h]

end

end Sys2Proof.Machine
end

