-- ==== Sys2Proof/Laws/Report.lean ====
section
/-! SUPPORT. What the operations that report change: counting refusals, setting causes, sending flits, forming event records and
answering held writes leave everything else as it was. -/

namespace Sys2Proof.Machine

section

set_option Elab.async false

variable {s t : State}

theorem Reported.refl (s : State) : Reported s s := rfl

/-- A change of page headers, links, event numbers or windows is reporting. -/
theorem Reported.sh (h : Reported s t) (p : Part) (f : Shared → Shared)
    (hf : ∀ x, f x = { x with hdr := (f x).hdr, links := (f x).links, evSeq := (f x).evSeq, windows := (f x).windows }) :
    Reported s (modSh t p f) := by
  unfold Reported at *
  cases p
  · simp only [modSh]
    rw [hf t.hub.sh]
    exact congrArg (fun u => { u with hub := { u.hub with sh := { u.hub.sh with
      hdr := (f t.hub.sh).hdr, links := (f t.hub.sh).links, evSeq := (f t.hub.sh).evSeq, windows := (f t.hub.sh).windows } } }) h
  · simp only [modSh]
    rw [hf t.tsu.sh]
    exact congrArg (fun u => { u with tsu := { u.tsu with sh := { u.tsu.sh with
      hdr := (f t.tsu.sh).hdr, links := (f t.tsu.sh).links, evSeq := (f t.tsu.sh).evSeq, windows := (f t.tsu.sh).windows } } }) h

theorem Reported.emit (h : Reported s t) (o : Out) : Reported s (emit t o) := by
  unfold Reported at *
  exact congrArg (fun u => { u with out := t.out ++ [o] }) h

theorem Reported.outs (h : Reported s t) (o : List Out) : Reported s { t with out := o } := by
  unfold Reported at *
  exact congrArg (fun u => { u with out := o }) h

/-- A change of the hub's event ring or of its flows is reporting. -/
theorem Reported.hub (h : Reported s t) (f : Hub → Hub) (hf : ∀ x, f x = { x with ring := (f x).ring, evh := (f x).evh, flows := (f x).flows }) :
    Reported s (modHub t f) := by
  unfold Reported at *
  simp only [modHub]
  rw [hf t.hub]
  exact congrArg (fun u => { u with hub := { u.hub with ring := (f t.hub).ring, evh := (f t.hub).evh, flows := (f t.hub).flows } }) h

/-- A change of the TSU's event queue, its way up or its answered requests is reporting. -/
theorem Reported.tsu (h : Reported s t) (f : Tsu → Tsu)
    (hf : ∀ x, f x = { x with evq := (f x).evq, evqRegs := (f x).evqRegs, up := (f x).up, hp := (f x).hp }) :
    Reported s (modTsu t f) := by
  unfold Reported at *
  simp only [modTsu]
  rw [hf t.tsu]
  exact congrArg (fun u => { u with tsu := { u.tsu with
    evq := (f t.tsu).evq, evqRegs := (f t.tsu).evqRegs, up := (f t.tsu).up, hp := (f t.tsu).hp } }) h

theorem ite_reported {a b : State} {c : Prop} [Decidable c] (ha : Reported s a) (hb : Reported s b) :
    Reported s (if c then a else b) := by
  split <;> assumption

theorem foldl_reported {α : Type} {f : State → α → State} (hf : ∀ t x, Reported s t → Reported s (f t x)) {l : List α}
    {t : State} (h : Reported s t) : Reported s (l.foldl f t) := by
  induction l generalizing t with
  | nil => exact h
  | cons x l ih => exact ih (hf t x h)

theorem modHdr_reported (h : Reported s t) (x1) (x2) (x3) : Reported s (modHdr t x1 x2 x3) := by
  unfold modHdr
  repeat' first
      | with_reducible assumption | intro _ | with_reducible apply ite_reported | with_reducible apply Reported.sh
      | with_reducible apply foldl_reported | split | dsimp only

theorem refuse_reported (h : Reported s t) (x1) (x2) : Reported s (refuse t x1 x2) := by
  unfold refuse
  repeat' first
      | with_reducible assumption | intro _ | with_reducible apply ite_reported | with_reducible apply foldl_reported
      | with_reducible apply modHdr_reported

theorem setCause_reported (h : Reported s t) (x1) (x2) (x3) : Reported s (setCause t x1 x2 x3) := by
  unfold setCause
  repeat' first
      | with_reducible assumption | intro _ | with_reducible apply ite_reported | with_reducible apply foldl_reported
      | with_reducible apply modHdr_reported

theorem modLink_reported (h : Reported s t) (x1) (x2) : Reported s (modLink t x1 x2) := by
  unfold modLink
  repeat' first
      | with_reducible assumption | intro _ | with_reducible apply ite_reported | with_reducible apply Reported.sh
      | with_reducible apply foldl_reported | split | dsimp only

theorem modLinkRegs_reported (h : Reported s t) (x1) (x2) : Reported s (modLinkRegs t x1 x2) := by
  unfold modLinkRegs
  repeat' first
      | with_reducible assumption | intro _ | with_reducible apply ite_reported | with_reducible apply foldl_reported
      | with_reducible apply modLink_reported

theorem emitFlit_reported (h : Reported s t) (x1) (x2) (x3) (x4) : Reported s (emitFlit t x1 x2 x3 x4) := h.emit _

theorem drainLink_reported (h : Reported s t) (x1) : Reported s (drainLink t x1) := by
  unfold drainLink
  exact foldl_reported (fun _ _ k => emitFlit_reported k _ _ _ _) (modLink_reported h _ _)

theorem sendLink_reported (h : Reported s t) (x1) (x2) (x3) : Reported s (sendLink t x1 x2 x3) := by
  unfold sendLink
  repeat' first
      | with_reducible assumption | intro _ | with_reducible apply ite_reported | with_reducible apply emitFlit_reported
      | with_reducible apply foldl_reported | with_reducible apply drainLink_reported | with_reducible apply modLink_reported | with_reducible apply refuse_reported

theorem tsuSendUp_reported (h : Reported s t) (x1) : Reported s (tsuSendUp t x1) := by
  unfold tsuSendUp
  repeat' first
      | with_reducible assumption | intro _ | with_reducible apply ite_reported | with_reducible apply Reported.tsu
      | with_reducible apply foldl_reported | with_reducible apply sendLink_reported | split | dsimp only

theorem tsuSend_reported (h : Reported s t) (x1) : Reported s (tsuSend t x1) := by
  unfold tsuSend
  repeat' first
      | with_reducible assumption | intro _ | with_reducible apply ite_reported | with_reducible apply foldl_reported
      | with_reducible apply sendLink_reported

theorem ringWrite_reported (h : Reported s t) (x1) : Reported s (ringWrite t x1) := by
  unfold ringWrite
  repeat' first
      | with_reducible assumption | intro _ | with_reducible apply ite_reported | with_reducible apply Reported.hub
      | with_reducible apply foldl_reported | with_reducible apply setCause_reported | split | dsimp only

theorem evqPut_reported (h : Reported s t) (x1) : Reported s (evqPut t x1) := by
  unfold evqPut
  repeat' first
      | with_reducible assumption | intro _ | with_reducible apply ite_reported | with_reducible apply Reported.tsu
      | with_reducible apply foldl_reported | with_reducible apply setCause_reported | split | dsimp only

theorem formRecord_reported (h : Reported s t) (x1) (x2) (x3) : Reported s (formRecord t x1 x2 x3) := by
  unfold formRecord
  repeat' first
      | with_reducible assumption | intro _ | with_reducible apply ite_reported | with_reducible apply Reported.sh
      | with_reducible apply foldl_reported | with_reducible apply ringWrite_reported | with_reducible apply tsuSendUp_reported
      | with_reducible apply evqPut_reported | split | dsimp only

theorem raise_reported (h : Reported s t) (x1) (x2) : Reported s (raise t x1 x2) := by
  unfold raise
  repeat' first
      | with_reducible assumption | intro _ | with_reducible apply ite_reported | with_reducible apply Reported.sh
      | with_reducible apply foldl_reported | with_reducible apply formRecord_reported | split | dsimp only

theorem raisePlain_reported (h : Reported s t) (x1) (x2) (x3) (x4) (x5) : Reported s (raisePlain t x1 x2 x3 x4 x5) := by
  unfold raisePlain
  repeat' first
      | with_reducible assumption | intro _ | with_reducible apply ite_reported | with_reducible apply foldl_reported
      | with_reducible apply raise_reported

theorem timeFault_reported (h : Reported s t) (x1) (x2) (x3) : Reported s (timeFault t x1 x2 x3) := by
  unfold timeFault
  repeat' first
      | with_reducible assumption | intro _ | with_reducible apply ite_reported | with_reducible apply foldl_reported
      | with_reducible apply raisePlain_reported

theorem answer_reported (h : Reported s t) (x1) (x2) : Reported s (answer t x1 x2) := by
  unfold answer
  repeat' first
      | with_reducible assumption | intro _ | with_reducible apply ite_reported | with_reducible apply Reported.emit
      | with_reducible apply Reported.tsu | with_reducible apply foldl_reported | with_reducible apply sendLink_reported | split
      | dsimp only

theorem keepFlow_reported (h : Reported s t) (x1) (x2) : Reported s (keepFlow t x1 x2) := by
  unfold keepFlow
  exact h.hub _ fun _ => rfl

theorem onRoute_reported {act : LinkId → State → State} {none_ : State → State}
    (ha : ∀ l t, Reported s t → Reported s (act l t)) (hn : ∀ t, Reported s t → Reported s (none_ t)) (h : Reported s t) (k r) :
    Reported s (onRoute t k r none_ act) := by
  cases r
  · exact hn _ h
  · exact ha _ _ (keepFlow_reported h _ _)

theorem sendTwin_reported (h : Reported s t) (x1) (x2) : Reported s (sendTwin t x1 x2) := by
  unfold sendTwin
  exact onRoute_reported (fun l t k => sendLink_reported k _ _ _) (fun _ k => k) h _ _

theorem mirror_reported (h : Reported s t) (x1) (x2) (x3) (x4) : Reported s (mirror t x1 x2 x3 x4) := by
  unfold mirror
  repeat' first
      | with_reducible assumption | intro _ | with_reducible apply ite_reported | with_reducible apply foldl_reported
      | with_reducible apply sendTwin_reported

theorem returnCredit_reported (h : Reported s t) (x1) (x2) (x3) : Reported s (returnCredit t x1 x2 x3) := by
  unfold returnCredit
  repeat' first
      | with_reducible assumption | intro _ | with_reducible apply ite_reported | with_reducible apply foldl_reported
      | with_reducible apply sendLink_reported | split

theorem heardOn_reported (h : Reported s t) (x1) : Reported s (heardOn t x1) := by
  unfold heardOn
  repeat' first
      | with_reducible assumption | intro _ | with_reducible apply ite_reported | with_reducible apply foldl_reported
      | with_reducible apply modLink_reported

theorem taken_reported (h : Reported s t) (x1) (x2) : Reported s (taken t x1 x2) := by
  unfold taken
  repeat' first
      | with_reducible assumption | intro _ | with_reducible apply ite_reported | with_reducible apply foldl_reported
      | with_reducible apply returnCredit_reported | with_reducible apply heardOn_reported

theorem creditFull_reported (h : Reported s t) (x1) : Reported s (creditFull t x1) := by
  unfold creditFull
  repeat' first
      | with_reducible assumption | intro _ | with_reducible apply ite_reported | with_reducible apply foldl_reported
      | with_reducible apply sendLink_reported

theorem refused_reported (h : Reported s t) (x1) (x2) : Reported s (refused t x1 x2).2 := by
  unfold refused
  repeat' first
      | with_reducible assumption | intro _ | with_reducible apply ite_reported | with_reducible apply foldl_reported
      | with_reducible apply refuse_reported

theorem accept_reported (h : Reported s t)  : Reported s (accept t).2 := by
  unfold accept
  repeat' with_reducible assumption

end

end Sys2Proof.Machine
end

