-- ==== Sys2Proof/Laws/Kept.lean ====
section
/-! SUPPORT. What every operation of the model keeps: the queue of commands, the bounds and the time states of Safety.lean, and
what is never taken back. The lemmas for the operations follow in KeptOps to KeptHost. -/

namespace Sys2Proof.Machine

/-- VALID, HOLDOVER and the servo's state of one part stand as R53 and R126 let them. -/
def ShOk (h : Shared) : Prop :=
  (h.tb.regs.statusValid = true → h.servo.regs.servoStatusState = 2 ∧ h.tb.regs.statusHoldover = false ∨
    h.servo.regs.servoStatusState = 3 ∧ h.tb.regs.statusHoldover = true) ∧
  (h.tb.regs.statusHoldover = true → h.tb.regs.statusValid = true) ∧ h.servo.regs.servoStatusState.toNat ≤ 4
/-- What a hub never takes back: MIN_SEC and revoked keys (R488, R498), and retired units (R397). -/
structure Once (a b : Hub) : Prop where
  minSec : a.fw.fwSlotsMinSec.toNat ≤ b.fw.fwSlotsMinSec.toNat
  revoked : ∀ k, a.fw.fwSlotsRevoked.getLsbD k = true → b.fw.fwSlotsRevoked.getLsbD k = true
  retired : ∀ u : BitVec 16, (tget (unitReset u.toNat) a.units u.toNat).unitState = 4 →
    (tget (unitReset u.toNat) b.units u.toNat).unitState = 4
/-- What every operation keeps, from a state `b` on: the queue of commands, the time states, what is never taken back, and the
bounds. -/
def Kept (b s : State) : Prop :=
  (s.pending = b.pending ∧ (ShOk s.hub.sh ∧ ShOk s.tsu.sh) ∧ Once b.hub s.hub) ∧ TsuBounded s.tsu ∧ HubBounded s.hub
section

variable {b s : State}

/-- A function of one part's shared blocks that keeps `ShOk` of every such part. -/
theorem modSh_kept (h : Kept b s) (p f)
    (hf : ∀ t, ShOk t → ShOk (f t) := by exact fun _ ht => ht) : Kept b (modSh s p f) := by
  cases p
  · exact ⟨⟨h.1.1, ⟨hf _ h.1.2.1.1, h.1.2.1.2⟩, ⟨h.1.2.2.1, h.1.2.2.2, h.1.2.2.3⟩⟩, h.2⟩
  · exact ⟨⟨h.1.1, ⟨h.1.2.1.1, hf _ h.1.2.1.2⟩, h.1.2.2⟩, h.2⟩

/-- The same, where the function keeps `ShOk` of this part. -/
theorem modSh_at (h : Kept b s) (p f) (hf : ShOk (f (s.sh p))) : Kept b (modSh s p f) := by
  cases p
  · exact ⟨⟨h.1.1, ⟨hf, h.1.2.1.2⟩, ⟨h.1.2.2.1, h.1.2.2.2, h.1.2.2.3⟩⟩, h.2⟩
  · exact ⟨⟨h.1.1, ⟨h.1.2.1.1, hf⟩, h.1.2.2⟩, h.2⟩

theorem Kept.shOk (h : Kept b s) (p) : ShOk (s.sh p) := by
  cases p
  · exact h.1.2.1.1
  · exact h.1.2.1.2

/-- A hub with the same fuses and units. -/
theorem Once.of_fields {x y z : Hub} (h : Once x y) (e : z.fw.fwSlotsMinSec = y.fw.fwSlotsMinSec)
    (e' : z.fw.fwSlotsRevoked = y.fw.fwSlotsRevoked) (e'' : z.units = y.units) : Once x z := by
  obtain ⟨h1, h2, h3⟩ := h
  exact ⟨e ▸ h1, e' ▸ h2, e'' ▸ h3⟩

theorem Once.trans {x y z : Hub} (h : Once x y) (k : Once y z) : Once x z :=
  ⟨Nat.le_trans h.1 k.1, fun n hn => k.2 n (h.2 n hn), fun u hu => k.3 u (h.3 u hu)⟩

/-- A function of the hub, by what it gives here. -/
theorem modHub_raw (h : Kept b s) (f)
    (hf : HubBounded (f s.hub)) (hs : ShOk (f s.hub).sh) (ho : Once b.hub (f s.hub)) : Kept b (modHub s f) :=
  ⟨⟨h.1.1, ⟨hs, h.1.2.1.2⟩, ho⟩, h.2.1, hf⟩

/-- The same, where the bounds hold here and the rest of every hub. -/
theorem modHub_at (h : Kept b s) (f)
    (hf : HubBounded (f s.hub)) (hs : ∀ t, ShOk t.sh → ShOk (f t).sh := by exact fun _ ht => ht)
    (ho : ∀ t, Once b.hub t → Once b.hub (f t) := by exact fun _ ht => ht.of_fields rfl rfl rfl) : Kept b (modHub s f) :=
  modHub_raw h f hf (hs _ h.1.2.1.1) (ho _ h.1.2.2)

/-- A function of the TSU that keeps the bounds of this one. -/
theorem modTsu_at (h : Kept b s) (f)
    (hf : TsuBounded (f s.tsu)) (hs : ∀ t, ShOk t.sh → ShOk (f t).sh := by exact fun _ ht => ht) : Kept b (modTsu s f) :=
  ⟨⟨h.1.1, ⟨h.1.2.1.1, hs _ h.1.2.1.2⟩, h.1.2.2⟩, hf, h.2.2⟩

/-- A function of the hub that keeps the bounds of every hub. -/
theorem modHub_kept (h : Kept b s) (f)
    (hf : ∀ t, HubBounded t → HubBounded (f t)) (hs : ∀ t, ShOk t.sh → ShOk (f t).sh := by exact fun _ ht => ht)
    (ho : ∀ t, Once b.hub t → Once b.hub (f t) := by exact fun _ ht => ht.of_fields rfl rfl rfl) : Kept b (modHub s f) :=
  modHub_at h f (hf _ h.2.2) hs ho

/-- A function of the TSU that keeps the bounds of every TSU. -/
theorem modTsu_kept (h : Kept b s) (f)
    (hf : ∀ t, TsuBounded t → TsuBounded (f t)) (hs : ∀ t, ShOk t.sh → ShOk (f t).sh := by exact fun _ ht => ht) :
        Kept b (modTsu s f) :=
  modTsu_at h f (hf _ h.2.1) hs

/-- The mailbox keeps its canonical form (R510). -/
theorem twf_mailbox : ∀ (bs : List (BitVec 8)) (k : Nat) {t : Tbl (BitVec 8)}, twf 0 t = true → twf 0 (mailboxWrite bs k t) =
    true
  | [], _, _, h => h
  | _ :: bs, k, _, h => by
    simp only [mailboxWrite]; split
    · exact twf_mailbox bs _ (twf_tset h _ _)
    · exact h

/-- A reset leaves the hub within its bounds. -/
theorem coreHub_bounded {h : Hub} (hb : HubBounded h) (o c p m) : HubBounded (coreHub h o c p m) := by
  cases p <;> cases m
  all_goals first
  | exact ⟨Nat.zero_le _, Nat.zero_le _, Nat.zero_le _, hb.2.2.2⟩
  | exact ⟨Nat.zero_le _, Nat.zero_le _, Nat.zero_le _, rfl⟩

theorem emit_kept (h : Kept b s) (o) : Kept b (emit s o) := h

theorem ite_kept {x y : State} {c} [Decidable c] (ha : Kept b x) (hb : Kept b y) : Kept b (if c then x else y) := by
  split <;> assumption

theorem fst_ite_kept {α} {c : Prop} [Decidable c] {x y : State × α} (ha : Kept b x.1) (hb : Kept b y.1) :
    Kept b (if c then x else y).1 := by split <;> assumption

theorem foldl_kept {α} {f : State → α → State}
    (hf : ∀ s x, Kept b s → Kept b (f s x)) {l : List α} {s : State} (h : Kept b s) : Kept b (l.foldl f s) := by
  induction l generalizing s with
  | nil => exact h
  | cons x l ih => exact ih (hf s x h)

theorem snd_kept {α} {p : α × State} {a : α} {t : State} (e : p = (a, t)) (h : Kept b p.2) : Kept b t := by
  rw [e] at h; exact h

theorem fst_kept {α} {p : State × α} {a : α} {t : State} (e : p = (t, a)) (h : Kept b p.1) : Kept b t := by
  rw [e] at h; exact h

theorem onPart_kept (h : Kept b s) {p i} {f : State → Bool × State}
    (hf : ∀ s, Kept b s → Kept b (f s).2) : Kept b (onPart p i s f).2 := by
  unfold onPart
  split
  · exact hf _ h
  · unfold refused refuse modHdr
    dsimp only
    split
    · exact modSh_kept h _ _
    · exact h

theorem onPartRead_kept (h : Kept b s) {p i} {f : State → Word × State}
    (hf : ∀ s, Kept b s → Kept b (f s).2) : Kept b (onPartRead p i s f).2 := by
  unfold onPartRead
  split
  · exact hf _ h
  · unfold refuse modHdr
    dsimp only
    split
    · exact modSh_kept h _ _
    · exact h
end

end Sys2Proof.Machine
end

