-- ==== Sys2Proof/Laws/KeptOps.lean ====
section
/-! SUPPORT. What every operation keeps (`Kept`), for the shared operations, the time base, stamps, links in time, servo, taps and slots: one lemma for each
operation, in the order of the model. -/

namespace Sys2Proof.Machine

section

set_option Elab.async false

/-! ## Machine/Ops.lean -/

theorem modTb_kept {b s : State} (h : Kept b s) (p f)
    (hf : ∀ t, ShOk t → ShOk { t with tb := f t.tb } := by exact fun _ ht => ht) :
    Kept b (modTb s p f) := modSh_kept h _ _ hf

theorem modTbRegs_kept {b s : State} (h : Kept b s) (p f)
    (hf : ∀ t, ShOk t → ShOk { t with tb := { t.tb with regs := f t.tb.regs } } := by exact fun _ ht => ht) :
        Kept b (modTbRegs s p f) := modSh_kept h _ _ hf

theorem modServo_kept {b s : State} (h : Kept b s) (p f)
    (hf : ∀ t, ShOk t → ShOk { t with servo := f t.servo } := by exact fun _ ht => ht) :
    Kept b (modServo s p f) := modSh_kept h _ _ hf

theorem modServoRegs_kept {b s : State} (h : Kept b s) (p f)
    (hf : ∀ t, ShOk t → ShOk { t with servo := { t.servo with regs := f t.servo.regs } } := by exact fun _ ht => ht) : Kept b
        (modServoRegs s p f) :=
  modSh_kept h _ _ hf

theorem modLink_kept {b s : State} (h : Kept b s) (x1) (x2) : Kept b (modLink s x1 x2) := by
  unfold modLink
  repeat' first
      | with_reducible assumption | intro _ | with_reducible apply ite_kept | with_reducible apply modSh_kept
      | with_reducible apply foldl_kept | split | dsimp only | with_reducible exact snd_kept (by assumption) (by assumption)
      | refine snd_kept (by assumption) ?_ | refine fst_kept (by assumption) ?_ | assumption

theorem modLinkRegs_kept {b s : State} (h : Kept b s) (x1) (x2) : Kept b (modLinkRegs s x1 x2) := by
  unfold modLinkRegs
  repeat' first
      | with_reducible assumption | intro _ | with_reducible apply ite_kept | with_reducible apply foldl_kept
      | with_reducible apply modLink_kept

theorem modPage_kept {b s : State} (h : Kept b s) (x1) (x2) (x3) : Kept b (modPage s x1 x2 x3) := by
  unfold modPage
  repeat' first
      | with_reducible assumption | intro _ | with_reducible apply ite_kept | with_reducible apply modSh_kept
      | with_reducible apply foldl_kept | split | dsimp only | with_reducible exact snd_kept (by assumption) (by assumption)
      | refine snd_kept (by assumption) ?_ | refine fst_kept (by assumption) ?_ | assumption

theorem modIface_kept {b s : State} (h : Kept b s) (x1) (x2) : Kept b (modIface s x1 x2) := by
  unfold modIface
  repeat' first
      | with_reducible assumption | intro _ | with_reducible apply ite_kept | with_reducible apply modSh_kept
      | with_reducible apply foldl_kept | split | dsimp only | with_reducible exact snd_kept (by assumption) (by assumption)
      | refine snd_kept (by assumption) ?_ | refine fst_kept (by assumption) ?_ | assumption

theorem modIfaceRegs_kept {b s : State} (h : Kept b s) (x1) (x2) : Kept b (modIfaceRegs s x1 x2) := by
  unfold modIfaceRegs
  repeat' first
      | with_reducible assumption | intro _ | with_reducible apply ite_kept | with_reducible apply foldl_kept
      | with_reducible apply modIface_kept

theorem modPoint_kept {b s : State} (h : Kept b s) (x1) (x2) : Kept b (modPoint s x1 x2) := by
  unfold modPoint
  repeat' first
      | with_reducible assumption | intro _ | with_reducible apply ite_kept | with_reducible apply modSh_kept
      | with_reducible apply foldl_kept | split | dsimp only | with_reducible exact snd_kept (by assumption) (by assumption)
      | refine snd_kept (by assumption) ?_ | refine fst_kept (by assumption) ?_ | assumption

theorem modEmu_kept {b s : State} (h : Kept b s) (x1) (x2) (x3) : Kept b (modEmu s x1 x2 x3) := by
  unfold modEmu
  repeat' first
      | with_reducible assumption | intro _ | with_reducible apply ite_kept | with_reducible apply modSh_kept
      | with_reducible apply foldl_kept | split | dsimp only | with_reducible exact snd_kept (by assumption) (by assumption)
      | refine snd_kept (by assumption) ?_ | refine fst_kept (by assumption) ?_ | assumption

theorem modCluster_kept {b s : State} (h : Kept b s) (x1) (x2) (x3) : Kept b (modCluster s x1 x2 x3) := by
  unfold modCluster
  repeat' first
      | with_reducible assumption | intro _ | with_reducible apply ite_kept | with_reducible apply modSh_kept
      | with_reducible apply foldl_kept | split | dsimp only | with_reducible exact snd_kept (by assumption) (by assumption)
      | refine snd_kept (by assumption) ?_ | refine fst_kept (by assumption) ?_ | assumption

theorem modHdr_kept {b s : State} (h : Kept b s) (x1) (x2) (x3) : Kept b (modHdr s x1 x2 x3) := by
  unfold modHdr
  repeat' first
      | with_reducible assumption | intro _ | with_reducible apply ite_kept | with_reducible apply modSh_kept
      | with_reducible apply foldl_kept | split | dsimp only | with_reducible exact snd_kept (by assumption) (by assumption)
      | refine snd_kept (by assumption) ?_ | refine fst_kept (by assumption) ?_ | assumption

theorem refuse_kept {b s : State} (h : Kept b s) (x1) (x2) : Kept b (refuse s x1 x2) := by
  unfold refuse
  repeat' first
      | with_reducible assumption | intro _ | with_reducible apply ite_kept | with_reducible apply foldl_kept
      | with_reducible apply modHdr_kept

theorem setCause_kept {b s : State} (h : Kept b s) (x1) (x2) (x3) : Kept b (setCause s x1 x2 x3) := by
  unfold setCause
  repeat' first
      | with_reducible assumption | intro _ | with_reducible apply ite_kept | with_reducible apply foldl_kept
      | with_reducible apply modHdr_kept

theorem accept_kept {b s : State} (h : Kept b s) : Kept b (accept s).2 := by
  unfold accept
  repeat' with_reducible assumption

theorem refused_kept {b s : State} (h : Kept b s) (x1) (x2) : Kept b (refused s x1 x2).2 := by
  unfold refused
  repeat' first
      | with_reducible assumption | intro _ | with_reducible apply ite_kept | with_reducible apply foldl_kept
      | with_reducible apply refuse_kept

theorem State_fresh_kept {b s : State} (h : Kept b s) : Kept b (State.fresh s).2 := by
  unfold State.fresh
  repeat' first
      | with_reducible assumption | intro _ | with_reducible apply ite_kept | with_reducible apply foldl_kept | split | dsimp only
      | with_reducible exact snd_kept (by assumption) (by assumption) | refine snd_kept (by assumption) ?_
      | refine fst_kept (by assumption) ?_ | assumption

theorem countPast_kept {b s : State} (h : Kept b s) (x1) : Kept b (countPast s x1) := by
  unfold countPast
  repeat' first
      | with_reducible assumption | intro _ | with_reducible apply ite_kept | with_reducible apply foldl_kept
      | with_reducible apply modTbRegs_kept | split | dsimp only | with_reducible exact snd_kept (by assumption) (by assumption)
      | refine snd_kept (by assumption) ?_ | refine fst_kept (by assumption) ?_ | assumption

theorem countTooFar_kept {b s : State} (h : Kept b s) (x1) : Kept b (countTooFar s x1) := by
  unfold countTooFar
  repeat' first
      | with_reducible assumption | intro _ | with_reducible apply ite_kept | with_reducible apply foldl_kept
      | with_reducible apply modTbRegs_kept | split | dsimp only | with_reducible exact snd_kept (by assumption) (by assumption)
      | refine snd_kept (by assumption) ?_ | refine fst_kept (by assumption) ?_ | assumption

theorem countStepFar_kept {b s : State} (h : Kept b s) (x1) : Kept b (countStepFar s x1) := by
  unfold countStepFar
  repeat' first
      | with_reducible assumption | intro _ | with_reducible apply ite_kept | with_reducible apply foldl_kept
      | with_reducible apply modTbRegs_kept | split | dsimp only | with_reducible exact snd_kept (by assumption) (by assumption)
      | refine snd_kept (by assumption) ?_ | refine fst_kept (by assumption) ?_ | assumption

theorem countNotValid_kept {b s : State} (h : Kept b s) (x1) : Kept b (countNotValid s x1) := by
  unfold countNotValid
  repeat' first
      | with_reducible assumption | intro _ | with_reducible apply ite_kept | with_reducible apply foldl_kept
      | with_reducible apply modTbRegs_kept | split | dsimp only | with_reducible exact snd_kept (by assumption) (by assumption)
      | refine snd_kept (by assumption) ?_ | refine fst_kept (by assumption) ?_ | assumption

theorem countStepRefused_kept {b s : State} (h : Kept b s) (x1) (x2) (x3) : Kept b (countStepRefused s x1 x2 x3) := by
  unfold countStepRefused
  repeat' first
      | with_reducible assumption | intro _ | with_reducible apply ite_kept | with_reducible apply foldl_kept
      | with_reducible apply countPast_kept | with_reducible apply countStepFar_kept | split | dsimp only
      | with_reducible exact snd_kept (by assumption) (by assumption) | refine snd_kept (by assumption) ?_
      | refine fst_kept (by assumption) ?_ | assumption

theorem emitFlit_kept {b s : State} (h : Kept b s) (x1) (x2) (x3) (x4) : Kept b (emitFlit s x1 x2 x3 x4) := by
  unfold emitFlit
  repeat' first
      | with_reducible assumption | intro _ | with_reducible apply ite_kept | with_reducible apply emit_kept
      | with_reducible apply foldl_kept | split | dsimp only | with_reducible exact snd_kept (by assumption) (by assumption)
      | refine snd_kept (by assumption) ?_ | refine fst_kept (by assumption) ?_ | assumption

theorem drainLink_kept {b s : State} (h : Kept b s) (x1) : Kept b (drainLink s x1) := by
  unfold drainLink
  exact foldl_kept (fun _ _ k => emitFlit_kept k _ _ _ _) (modLink_kept h _ _)

theorem sendLink_kept {b s : State} (h : Kept b s) (x1) (x2) (x3) : Kept b (sendLink s x1 x2 x3) := by
  unfold sendLink
  repeat' first
      | with_reducible assumption | intro _ | with_reducible apply ite_kept | with_reducible apply foldl_kept
      | with_reducible apply drainLink_kept | with_reducible apply modLink_kept | with_reducible apply refuse_kept | with_reducible apply emitFlit_kept | split
      | dsimp only | with_reducible exact snd_kept (by assumption) (by assumption) | refine snd_kept (by assumption) ?_
      | refine fst_kept (by assumption) ?_ | assumption

theorem tsuSendUp_kept {b s : State} (h : Kept b s) (x1) : Kept b (tsuSendUp s x1) := by
  unfold tsuSendUp
  split
  · next g =>
    exact sendLink_kept (modTsu_at h _ ⟨h.2.1.1, h.2.1.2.1, h.2.1.2.2.1, h.2.1.2.2.2.1, by simp; omega, h.2.1.2.2.2.2.2⟩) _ _
        _
  · exact modTsu_kept h _ fun _ ht => ht

theorem tsuSend_kept {b s : State} (h : Kept b s) (x1) : Kept b (tsuSend s x1) := by
  unfold tsuSend
  repeat' first
      | with_reducible assumption | intro _ | with_reducible apply ite_kept | with_reducible apply foldl_kept
      | with_reducible apply sendLink_kept

theorem ringWrite_kept {b s : State} (h : Kept b s) (x1) : Kept b (ringWrite s x1) := by
  unfold ringWrite
  repeat' first
      | with_reducible assumption | intro _ | with_reducible apply ite_kept | with_reducible apply modHub_kept
      | with_reducible apply foldl_kept | with_reducible apply setCause_kept | split | dsimp only
      | with_reducible exact snd_kept (by assumption) (by assumption) | refine snd_kept (by assumption) ?_
      | refine fst_kept (by assumption) ?_ | assumption | (refine Once.of_fields (by assumption) ?_ ?_ ?_ <;> rfl)

theorem evqPut_kept {b s : State} (h : Kept b s) (x1) : Kept b (evqPut s x1) := by
  unfold evqPut
  split
  · exact setCause_kept (modTsu_at h _ ⟨h.2.1.1, h.2.1.2.1, h.2.1.2.2.1, by simp; omega, h.2.1.2.2.2.2⟩) _ _ _
  · refine setCause_kept (modTsu_kept h _ ?_) _ _ _
    exact fun _ ht => ht

theorem formRecord_kept {b s : State} (h : Kept b s) (x1) (x2) (x3) : Kept b (formRecord s x1 x2 x3) := by
  unfold formRecord
  repeat' first
      | with_reducible assumption | intro _ | with_reducible apply ite_kept | with_reducible apply modSh_kept
      | with_reducible apply foldl_kept | with_reducible apply ringWrite_kept | with_reducible apply tsuSendUp_kept
      | with_reducible apply evqPut_kept | split | dsimp only | with_reducible exact snd_kept (by assumption) (by assumption)
      | refine snd_kept (by assumption) ?_ | refine fst_kept (by assumption) ?_ | assumption

theorem raise_kept {b s : State} (h : Kept b s) (x1) (x2) : Kept b (raise s x1 x2) := by
  unfold raise
  repeat' first
      | with_reducible assumption | intro _ | with_reducible apply ite_kept | with_reducible apply modSh_kept
      | with_reducible apply foldl_kept | with_reducible apply formRecord_kept | split | dsimp only
      | with_reducible exact snd_kept (by assumption) (by assumption) | refine snd_kept (by assumption) ?_
      | refine fst_kept (by assumption) ?_ | assumption

theorem raisePlain_kept {b s : State} (h : Kept b s) (x1) (x2) (x3) (x4) (x5) : Kept b (raisePlain s x1 x2 x3 x4 x5) := by
  unfold raisePlain
  repeat' first
      | with_reducible assumption | intro _ | with_reducible apply ite_kept | with_reducible apply foldl_kept
      | with_reducible apply raise_kept

theorem timeFault_kept {b s : State} (h : Kept b s) (x1) (x2) (x3) : Kept b (timeFault s x1 x2 x3) := by
  unfold timeFault
  repeat' first
      | with_reducible assumption | intro _ | with_reducible apply ite_kept | with_reducible apply foldl_kept
      | with_reducible apply raisePlain_kept

theorem answer_kept {b s : State} (h : Kept b s) (x1) (x2) : Kept b (answer s x1 x2) := by
  unfold answer
  split
  · exact h
  · exact modTsu_kept h _ fun _ ht => ⟨by simpa using ht.1, ht.2⟩
  · exact sendLink_kept h _ _ _
  · exact h

theorem schedTest_kept {b s : State} (h : Kept b s) (x1) (x2) : Kept b (schedTest s x1 x2).2 := by
  unfold schedTest
  repeat' first
      | with_reducible assumption | intro _ | with_reducible apply ite_kept | with_reducible apply foldl_kept
      | with_reducible apply countNotValid_kept | with_reducible apply countPast_kept | with_reducible apply countTooFar_kept | split

theorem schedWire_kept {b s : State} (h : Kept b s) (x1) (x2) : Kept b (schedWire s x1 x2).2 := by
  unfold schedWire
  repeat' first
      | with_reducible assumption | intro _ | with_reducible apply ite_kept | with_reducible apply foldl_kept
      | with_reducible apply countNotValid_kept | with_reducible apply countPast_kept | with_reducible apply countTooFar_kept | split

theorem modSlot_kept {b s : State} (h : Kept b s) (x1) (x2) : Kept b (modSlot s x1 x2) := by
  unfold modSlot
  repeat' first
      | with_reducible assumption | intro _ | with_reducible apply ite_kept | with_reducible apply modTsu_kept
      | with_reducible apply foldl_kept | split | dsimp only | with_reducible exact snd_kept (by assumption) (by assumption)
      | refine snd_kept (by assumption) ?_ | refine fst_kept (by assumption) ?_ | assumption

theorem modSlotRegs_kept {b s : State} (h : Kept b s) (x1) (x2) : Kept b (modSlotRegs s x1 x2) := by
  unfold modSlotRegs
  repeat' first
      | with_reducible assumption | intro _ | with_reducible apply ite_kept | with_reducible apply foldl_kept
      | with_reducible apply modSlot_kept

theorem modTap_kept {b s : State} (h : Kept b s) (x1) (x2) : Kept b (modTap s x1 x2) := by
  unfold modTap
  repeat' first
      | with_reducible assumption | intro _ | with_reducible apply ite_kept | with_reducible apply modTsu_kept
      | with_reducible apply foldl_kept | split | dsimp only | with_reducible exact snd_kept (by assumption) (by assumption)
      | refine snd_kept (by assumption) ?_ | refine fst_kept (by assumption) ?_ | assumption

theorem modTrig_kept {b s : State} (h : Kept b s) (x1) (x2) : Kept b (modTrig s x1 x2) := by
  unfold modTrig
  repeat' first
      | with_reducible assumption | intro _ | with_reducible apply ite_kept | with_reducible apply modTsu_kept
      | with_reducible apply foldl_kept | split | dsimp only | with_reducible exact snd_kept (by assumption) (by assumption)
      | refine snd_kept (by assumption) ?_ | refine fst_kept (by assumption) ?_ | assumption

/-! ## Machine/Irq.lean -/

theorem msixSend_kept {b s : State} (h : Kept b s) (x1) : Kept b (msixSend s x1) := by
  unfold msixSend
  repeat' first
      | with_reducible assumption | intro _ | with_reducible apply ite_kept | with_reducible apply emit_kept
      | with_reducible apply modHub_kept | with_reducible apply foldl_kept | split | dsimp only
      | with_reducible exact snd_kept (by assumption) (by assumption) | refine snd_kept (by assumption) ?_
      | refine fst_kept (by assumption) ?_ | assumption | (refine Once.of_fields (by assumption) ?_ ?_ ?_ <;> rfl)

theorem msixVector_kept {b s : State} (h : Kept b s) (x0) (x2) : Kept b (msixVector x0 s x2) := by
  unfold msixVector
  repeat' first
      | with_reducible assumption | intro _ | with_reducible apply ite_kept | with_reducible apply modHub_kept
      | with_reducible apply foldl_kept | with_reducible apply msixSend_kept | split | dsimp only
      | with_reducible exact snd_kept (by assumption) (by assumption) | refine snd_kept (by assumption) ?_
      | refine fst_kept (by assumption) ?_ | assumption | (refine Once.of_fields (by assumption) ?_ ?_ ?_ <;> rfl)

theorem msixScan_kept {b s : State} (h : Kept b s) : Kept b (msixScan s) := by
  unfold msixScan
  repeat' first
      | with_reducible assumption | intro _ | with_reducible apply ite_kept | with_reducible apply foldl_kept
      | with_reducible apply msixVector_kept

/-! ## Machine/Topology.lean -/

theorem keepFlow_kept {b s : State} (h : Kept b s) (x1) (x2) : Kept b (keepFlow s x1 x2) := by
  unfold keepFlow
  repeat' first
      | with_reducible assumption | intro _ | with_reducible apply ite_kept | with_reducible apply modHub_kept
      | with_reducible apply foldl_kept | split | dsimp only | with_reducible exact snd_kept (by assumption) (by assumption)
      | refine snd_kept (by assumption) ?_ | refine fst_kept (by assumption) ?_ | assumption
      | (refine Once.of_fields (by assumption) ?_ ?_ ?_ <;> rfl)

theorem noRoute_kept {b s : State} (h : Kept b s) : Kept b (noRoute s) := by
  unfold noRoute
  repeat' first
      | with_reducible assumption | intro _ | with_reducible apply ite_kept | with_reducible apply foldl_kept
      | with_reducible apply refuse_kept | split | dsimp only | with_reducible exact snd_kept (by assumption) (by assumption)
      | refine snd_kept (by assumption) ?_ | refine fst_kept (by assumption) ?_ | assumption

theorem strand_kept {b s : State} (h : Kept b s) (x1) (x2) (x3) (x4) : Kept b (strand s x1 x2 x3 x4) := by
  unfold strand
  repeat' first
      | with_reducible assumption | intro _ | with_reducible apply ite_kept | with_reducible apply modHub_kept
      | with_reducible apply foldl_kept | split | dsimp only | with_reducible exact snd_kept (by assumption) (by assumption)
      | refine snd_kept (by assumption) ?_ | refine fst_kept (by assumption) ?_ | assumption
      | (refine Once.of_fields (by assumption) ?_ ?_ ?_ <;> rfl)

theorem onRoute_kept {b s : State} (h :
    Kept b s) (x1) (x2) (x3) (x4) (h3 : ∀ t, Kept b t → Kept b (x3 t)) (h4 : ∀ l t, Kept b t → Kept b (x4 l t)) :
    Kept b (onRoute s x1 x2 x3 x4) := by
  unfold onRoute
  repeat' first
      | with_reducible assumption | intro _ | with_reducible apply ite_kept | with_reducible apply h4 | with_reducible apply h3
      | with_reducible apply foldl_kept | with_reducible apply keepFlow_kept | split | dsimp only
      | with_reducible exact snd_kept (by assumption) (by assumption) | refine snd_kept (by assumption) ?_
      | refine fst_kept (by assumption) ?_ | assumption

theorem sendTwin_kept {b s : State} (h : Kept b s) (x1) (x2) : Kept b (sendTwin s x1 x2) := by
  unfold sendTwin
  repeat' first
      | with_reducible assumption | intro _ | with_reducible apply ite_kept | with_reducible apply foldl_kept
      | with_reducible apply sendLink_kept | with_reducible apply onRoute_kept | split | dsimp only
      | with_reducible exact snd_kept (by assumption) (by assumption) | refine snd_kept (by assumption) ?_
      | refine fst_kept (by assumption) ?_ | assumption

theorem mirror_kept {b s : State} (h : Kept b s) (x1) (x2) (x3) (x4) : Kept b (mirror s x1 x2 x3 x4) := by
  unfold mirror
  repeat' first
      | with_reducible assumption | intro _ | with_reducible apply ite_kept | with_reducible apply foldl_kept
      | with_reducible apply sendTwin_kept

theorem returnCredit_kept {b s : State} (h : Kept b s) (x1) (x2) (x3) : Kept b (returnCredit s x1 x2 x3) := by
  unfold returnCredit
  repeat' first
      | with_reducible assumption | intro _ | with_reducible apply ite_kept | with_reducible apply foldl_kept
      | with_reducible apply sendLink_kept | split

theorem heardOn_kept {b s : State} (h : Kept b s) (x1) : Kept b (heardOn s x1) := by
  unfold heardOn
  repeat' first
      | with_reducible assumption | intro _ | with_reducible apply ite_kept | with_reducible apply foldl_kept
      | with_reducible apply modLink_kept

theorem taken_kept {b s : State} (h : Kept b s) (x1) (x2) : Kept b (taken s x1 x2) := by
  unfold taken
  repeat' first
      | with_reducible assumption | intro _ | with_reducible apply ite_kept | with_reducible apply foldl_kept
      | with_reducible apply returnCredit_kept | with_reducible apply heardOn_kept

theorem malformedFlit_kept {b s : State} (h : Kept b s) (x1) : Kept b (malformedFlit s x1) := by
  unfold malformedFlit
  repeat' first
      | with_reducible assumption | intro _ | with_reducible apply ite_kept | with_reducible apply foldl_kept
      | with_reducible apply refuse_kept | with_reducible apply modLinkRegs_kept

theorem onMsg_kept {b s : State} (h :
    Kept b s) (x1) (x2) (x3) (h3 : ∀ t, Kept b t → Kept b (x3 t)) :
    Kept b (onMsg s x1 x2 x3) := by
  unfold onMsg
  repeat' first
      | with_reducible assumption | intro _ | with_reducible apply ite_kept | with_reducible apply h3
      | with_reducible apply foldl_kept | with_reducible apply taken_kept | with_reducible apply malformedFlit_kept | split
      | dsimp only | with_reducible exact snd_kept (by assumption) (by assumption) | refine snd_kept (by assumption) ?_
      | refine fst_kept (by assumption) ?_ | assumption

theorem creditFull_kept {b s : State} (h : Kept b s) (x1) : Kept b (creditFull s x1) := by
  unfold creditFull
  repeat' first
      | with_reducible assumption | intro _ | with_reducible apply ite_kept | with_reducible apply foldl_kept
      | with_reducible apply sendLink_kept

theorem updReady_kept {b s : State} (h : Kept b s) : Kept b (updReady s) := by
  unfold updReady
  repeat' first
      | with_reducible assumption | intro _ | with_reducible apply ite_kept | with_reducible apply modHub_kept
      | with_reducible apply foldl_kept | with_reducible apply creditFull_kept | with_reducible apply setCause_kept | split | dsimp only
      | with_reducible exact snd_kept (by assumption) (by assumption) | refine snd_kept (by assumption) ?_
      | refine fst_kept (by assumption) ?_ | assumption | (refine Once.of_fields (by assumption) ?_ ?_ ?_ <;> rfl)

/-! ## Machine/Units.lean -/

theorem unit_modUnit (s : State) (u v : BitVec 16) (f) : (modUnit s u f).unit v = if u = v then f (s.unit u) else s.unit v :=
    by
  unfold modUnit State.unit modHub
  by_cases e : u = v
  · subst e; simp
  · rw [if_neg e]
    have hn : u.toNat ≠ v.toNat := fun hn => e (BitVec.eq_of_toNat_eq hn)
    show tget _ (tset _ _ _ _) _ = _
    unfold tset
    split
    · exact tget_tdel_ne hn
    · rw [tget_tput_ne _ hn, tget_tdel_ne hn]
theorem modUnit_at {b s : State} (h : Kept b s) (u f)
    (hf : (s.unit u).unitState = 4 → (f (s.unit u)).unitState = 4) : Kept b (modUnit s u f) := by
  refine modHub_raw h _ h.2.2 h.1.2.1.1 ⟨h.1.2.2.1, h.1.2.2.2, fun v hv => ?_⟩
  have h3 := h.1.2.2.3 v hv
  show ((modUnit s u f).unit v).unitState = 4
  rw [unit_modUnit]
  split
  · next e => subst e; exact hf h3
  · exact h3
theorem modUnit_kept {b s : State} (h : Kept b s) (u f)
    (hf : ∀ r : UnitRegs, r.unitState = 4 → (f r).unitState = 4 := by exact fun _ hr => hr) :
    Kept b (modUnit s u f) := modUnit_at h u f (hf _)

theorem laneSpared_kept {b s : State} (h : Kept b s) (x1) (x2) (x3) (x4) : Kept b (laneSpared s x1 x2 x3 x4) := by
  unfold laneSpared
  repeat' first
      | with_reducible assumption | intro _ | with_reducible apply ite_kept | with_reducible apply foldl_kept
      | with_reducible apply raisePlain_kept

theorem laneLeaves_kept {b s : State} (h : Kept b s) (x1) (x2) (hx : (s.unit x1).unitState = 4 → x2 = 4) :
    Kept b (laneLeaves s x1 x2) := by
  unfold laneLeaves
  split
  · exact modUnit_at h _ _ hx
  · have h1 : ∀ v : BitVec 16, Kept b (modUnit s x1 fun r =>
      { r with unitState := x2, unitStateShadowSteps := 0, unitStateStandin := v }) :=
      fun _ => modUnit_at h _ _ hx
    split
    · next v e =>
      refine laneSpared_kept (modUnit_at (h1 _) _ _ ?_) _ _ _ _
      have hv : ((s.unit v).unitState == 1) = true := List.find?_some (p := fun u => (s.unit u).unitState == 1) e
      rw [unit_modUnit]
      split
      · subst_vars; intro h4; simp_all
      · intro h4; simp_all
    · exact setCause_kept (laneSpared_kept (h1 _) _ _ _ _) _ _ _

theorem unitLeaves_kept {b s : State} (h : Kept b s) (x1) (x2) (hx : (s.unit x1).unitState = 4 → x2 = 4) :
    Kept b (unitLeaves s x1 x2) := by
  unfold unitLeaves
  have h1 : Kept b (modUnit s x1 fun r => { r with unitState := x2, unitStateShadowSteps := 0 }) := modUnit_at h _ _ hx
  split
  · exact laneLeaves_kept h _ _ hx
  · exact laneLeaves_kept h _ _ hx
  · exact ite_kept (laneLeaves_kept h1 _ _ fun _ => rfl) h1
  · exact h1

theorem queueHistory_kept {b s : State} (h : Kept b s) (x1) (x2) (x3) : Kept b (queueHistory s x1 x2 x3) := by
  unfold queueHistory
  repeat' first
      | with_reducible assumption | intro _ | with_reducible apply ite_kept | with_reducible apply modHub_kept
      | with_reducible apply foldl_kept | split | dsimp only | with_reducible exact snd_kept (by assumption) (by assumption)
      | refine snd_kept (by assumption) ?_ | refine fst_kept (by assumption) ?_ | assumption
      | (refine Once.of_fields (by assumption) ?_ ?_ ?_ <;> rfl)

theorem chargeAs_kept {b s : State} (h : Kept b s) (x1) (x2) (x3) : Kept b (chargeAs s x1 x2 x3) := by
  unfold chargeAs
  split
  · exact h
  · next hn =>
    have hn' : (s.unit x1).unitState ≠ 4 := by simpa using hn
    refine ite_kept ?_ (queueHistory_kept (unitLeaves_kept h _ _ fun e => (hn' e).elim) _ _ _)
    exact setCause_kept (laneSpared_kept (queueHistory_kept (unitLeaves_kept h _ _ fun _ => rfl) _ _ _) _ _ _ _) _ _ _

theorem chargeUnit_kept {b s : State} (h : Kept b s) (x1) (x2) : Kept b (chargeUnit s x1 x2) := by
  unfold chargeUnit
  repeat' first
      | with_reducible assumption | intro _ | with_reducible apply ite_kept | with_reducible apply foldl_kept
      | with_reducible apply chargeAs_kept

theorem tget_map {α : Type} (d : α) (f : α → α)
    (hf : f d = d) (t : Tbl α) (k : Nat) : tget d (t.map fun e => (e.1, f e.2)) k = f (tget d t k) := by
  induction t with
  | nil => exact hf.symm
  | cons e t ih => simp only [List.map_cons, tget]; split <;> simp_all
/-- A unit in SHADOW with one more clean step (R400). -/
theorem shadowStep_units {b s : State} (h : Kept b s) (f : UnitRegs → UnitRegs)
    (hf : ∀ r : UnitRegs, r.unitState ≠ 3 → f r = r) :
    Kept b (modHub s fun h => { h with units := h.units.map fun e => (e.1, f e.2) }) := by
  refine modHub_kept h _ (fun _ ht => ht) (fun _ ht => ht) fun t ht => ⟨ht.1, ht.2, fun u hu => ?_⟩
  have hd : f (unitReset u.toNat) = unitReset u.toNat := by
    apply hf; unfold unitReset; split <;> exact by decide
  have h3 := ht.3 u hu
  show (tget (unitReset u.toNat) (t.units.map fun e => (e.1, f e.2)) u.toNat).unitState = 4
  rw [tget_map _ f hd, hf _ (by rw [h3]; decide)]
  exact h3
theorem shadowStep_kept {b s : State} (h : Kept b s) : Kept b (shadowStep s) := by
  unfold shadowStep
  have h1 := shadowStep_units h (fun r => if r.unitState == 3 then
    { r with unitStateShadowSteps := if r.unitStateShadowSteps.toNat < 64 then r.unitStateShadowSteps + 1 else 64 } else r)
    (fun r hr => if_neg (by simpa using hr))
  refine ite_kept (ite_kept ?_ (laneSpared_kept ?_ _ _ _ _)) h1
  · exact modHub_kept h1 _ fun _ ht => ht
  · exact modHub_kept h1 _ fun _ ht => ht

/-! ## Machine/Time.lean -/

theorem stepTick_kept {b s : State} (h : Kept b s) (x1) (x2) : Kept b (stepTick s x1 x2) := by
  unfold stepTick
  repeat' first
      | with_reducible assumption | intro _ | with_reducible apply ite_kept | with_reducible apply foldl_kept
      | with_reducible apply modTb_kept | split | dsimp only | with_reducible exact snd_kept (by assumption) (by assumption)
      | refine snd_kept (by assumption) ?_ | refine fst_kept (by assumption) ?_ | assumption

theorem clearValid_at {b s : State} (p) (h : Kept b s ∨ (s.sh p).servo.regs.servoStatusState.toNat ≤ 4 ∧
    (∀ f : Shared → Shared, ShOk (f (s.sh p)) → Kept b (modSh s p f))) : Kept b (clearValid s p) := by
  have h1 : Kept b (modTb s p fun t => { t with
      regs := { t.regs with statusValid := false, statusHoldover := false }, resolve := true }) := by
    rcases h with h | h
    · exact modSh_kept h _ _ fun _ ht => ⟨fun e => (Bool.false_ne_true e).elim, fun e => (Bool.false_ne_true e).elim, ht.2.2⟩
    · exact h.2 _ ⟨fun e => (Bool.false_ne_true e).elim, fun e => (Bool.false_ne_true e).elim, h.1⟩
  unfold clearValid
  have h2 := ite_kept (c := s.valid p = true) (setCause_kept h1 p .servo 2) h1
  cases p
  · exact updReady_kept (modHub_kept h2 _ fun _ ht => ht)
  · exact modTsu_kept h2 _ fun _ ht => ht
theorem clearValid_kept {b s : State} (h : Kept b s) (p) : Kept b (clearValid s p) := clearValid_at p (.inl h)
theorem updReady_tb (s : State) : (updReady s).hub.sh.tb = s.hub.sh.tb := by
  unfold updReady
  dsimp only
  split
  · have := creditFull_reported (setCause_reported (Reported.refl (modHub s fun h => { h with mod_ := { h.mod_ with
      modStatusReady := true
      modStatusPhase := 4
      modTimesReadyMs := if h.mod_.modTimesReadyMs = 0 then
          satNat 32 (h.mod_.modTimesBootMs.toNat + (h.sh.tb.cycles - h.power.bootAt).toNat / 1000000)
        else h.mod_.modTimesReadyMs } })) .hub .mod 0) .hub
    rw [this]; rfl
  · split <;> rfl
theorem clearValid_invalid (s : State) (p) : (clearValid s p).valid p = false := by
  have hc : ∀ t : State, (setCause t p .servo 2).valid p = t.valid p := by
    intro t
    have := setCause_reported (Reported.refl t) p .servo 2
    rw [this]
    cases p <;> rfl
  have h2 : ∀ c : Bool, (if c = true then setCause (modTb s p fun t => { t with
      regs := { t.regs with statusValid := false, statusHoldover := false }, resolve := true }) p .servo 2 else
      modTb s p fun t =>
          { t with regs := { t.regs with statusValid := false, statusHoldover := false }, resolve := true }).valid p = false
          := by
    intro c
    cases c
    · cases p <;> rfl
    · rw [if_pos rfl, hc]; cases p <;> rfl
  unfold clearValid
  have := h2 (s.valid p)
  cases p
  · show (updReady _).hub.sh.tb.regs.statusValid = false
    rw [updReady_tb]; exact this
  · exact this
theorem modServo_invalid {b s : State} (h : Kept b s) (p f) (hv : s.valid p = false)
    (hf : ∀ v, (f v).regs.servoStatusState.toNat ≤ 4) :
    Kept b (modServo s p f) :=
  modSh_at h _ _ ⟨fun e => by cases p <;> exact (Bool.false_ne_true (hv.symm.trans e)).elim, (h.shOk p).2.1, hf _⟩

theorem becomeValid_at {b s : State} (p d) (hm : ∀ f : Shared → Shared, ShOk (f (s.sh p)) → Kept b (modSh s p f))
    (hs : s.servoState p = 2 ∧ d = false ∨ s.servoState p = 3 ∧ d = true) : Kept b (becomeValid s p d) := by
  unfold becomeValid
  have hl : (s.sh p).servo.regs.servoStatusState.toNat ≤ 4 := by
    rcases hs with ⟨e, _⟩ | ⟨e, _⟩ <;> (rw [show (s.sh p).servo.regs.servoStatusState = _ from e]; decide)
  have h1 : Kept b (modTb s p fun t => { t with regs := { t.regs with statusValid := true, statusHoldover := d } }) :=
    hm _ ⟨fun _ => hs, fun _ => rfl, hl⟩
  dsimp only
  split
  · exact updReady_kept h1
  · exact ite_kept h1 (creditFull_kept h1 _)
theorem modSh_modSh {b s : State} (h : Kept b s) (p) (g : Shared → Shared) (f : Shared → Shared)
    (hf : ShOk (f ((modSh s p g).sh p))) : Kept b (modSh (modSh s p g) p f) := by
  have e : modSh (modSh s p g) p f = modSh s p fun t => f (g t) := by cases p <;> rfl
  rw [e]
  exact modSh_at h _ _ (by rw [modSh_sh] at hf; exact hf)

theorem enterFree_kept {b s : State} (h : Kept b s) (p) : Kept b (enterFree s p) := by
  unfold enterFree
  refine modTb_kept (clearValid_at p (.inr ⟨?_, fun f hf => modSh_modSh h p _ f hf⟩)) _ _
  cases p <;> exact Nat.zero_le _

theorem loseTime_kept {b s : State} (h : Kept b s) (x1) : Kept b (loseTime s x1) := by
  unfold loseTime
  repeat' first
      | with_reducible assumption | intro _ | with_reducible apply ite_kept | with_reducible apply foldl_kept
      | with_reducible apply clearValid_kept | with_reducible apply enterFree_kept | split | dsimp only
      | with_reducible exact snd_kept (by assumption) (by assumption) | refine snd_kept (by assumption) ?_
      | refine fst_kept (by assumption) ?_ | assumption

theorem enterLocked_kept {b s : State} (h : Kept b s) (p) : Kept b (enterLocked s p) := by
  unfold enterLocked
  refine setCause_kept (becomeValid_at _ _ (fun f hf => modSh_modSh h p _ f hf) ?_) _ _ _
  cases p <;> exact .inl ⟨rfl, rfl⟩

theorem setRate_kept {b s : State} (h : Kept b s) (x1) (x2) : Kept b (setRate s x1 x2) := by
  unfold setRate
  repeat' first
      | with_reducible assumption | intro _ | with_reducible apply ite_kept | with_reducible apply foldl_kept
      | with_reducible apply modTbRegs_kept | split | dsimp only | with_reducible exact snd_kept (by assumption) (by assumption)
      | refine snd_kept (by assumption) ?_ | refine fst_kept (by assumption) ?_ | assumption

theorem enterHoldover_kept {b s : State} (h : Kept b s) (p) : Kept b (enterHoldover s p) := by
  unfold enterHoldover
  refine setCause_kept (becomeValid_at _ _ (fun f hf => modSh_modSh (setRate_kept h p _) p _ f hf) ?_) _ _ _
  cases p <;> exact .inr ⟨rfl, rfl⟩

theorem setFreqSat_kept {b s : State} (h : Kept b s) (x1) (x2) : Kept b (setFreqSat s x1 x2) := by
  unfold setFreqSat
  repeat' first
      | with_reducible assumption | intro _ | with_reducible apply ite_kept | with_reducible apply foldl_kept
      | with_reducible apply modServoRegs_kept | with_reducible apply timeFault_kept | split | dsimp only
      | with_reducible exact snd_kept (by assumption) (by assumption) | refine snd_kept (by assumption) ?_
      | refine fst_kept (by assumption) ?_ | assumption

theorem piUpdate_kept {b s : State} (h : Kept b s) (x1) (x2) (x3) (x4) (x5) : Kept b (piUpdate s x1 x2 x3 x4 x5) := by
  unfold piUpdate
  repeat' first
      | with_reducible assumption | intro _ | with_reducible apply ite_kept | with_reducible apply foldl_kept
      | with_reducible apply modServoRegs_kept | with_reducible apply setFreqSat_kept | with_reducible apply setRate_kept | split
      | dsimp only | with_reducible exact snd_kept (by assumption) (by assumption) | refine snd_kept (by assumption) ?_
      | refine fst_kept (by assumption) ?_ | assumption

theorem holdReturn_kept {b s : State} (h : Kept b s) (x1) (x2) (x3) : Kept b (holdReturn s x1 x2 x3) := by
  unfold holdReturn
  repeat' first
      | with_reducible assumption | intro _ | with_reducible apply ite_kept | with_reducible apply foldl_kept
      | with_reducible apply enterLocked_kept | with_reducible apply stepTick_kept | with_reducible apply enterFree_kept

theorem servoAcquire_kept {b s : State} (h : Kept b s) (x1) (x2) (x3) (x4) (x5) :
    Kept b (servoAcquire s x1 x2 x3 x4 x5) := by
  unfold servoAcquire
  dsimp only
  split
  · next e =>
    refine ite_kept ?_ h
    refine modServo_invalid (stepTick_kept h _ _) _ _ ?_ fun _ => (by decide : (1#3).toNat ≤ 4)
    have e' : (s.sh x1).servo.regs.servoStatusState = 0 := by simpa using e
    have hv : s.valid x1 = false := by
      cases hv : s.valid x1
      · rfl
      · have := (h.shOk x1).1 (by cases x1 <;> exact hv); rw [e'] at this; simp at this
    cases x1 <;> exact hv
  all_goals repeat' first
      | with_reducible assumption | intro _ | with_reducible apply ite_kept | with_reducible apply foldl_kept
      | with_reducible apply modServoRegs_kept | with_reducible apply stepTick_kept | with_reducible apply modServo_kept
      | with_reducible apply setRate_kept | with_reducible apply piUpdate_kept | with_reducible apply enterLocked_kept
      | split | dsimp only | with_reducible exact snd_kept (by assumption) (by assumption)
      | refine snd_kept (by assumption) ?_ | refine fst_kept (by assumption) ?_ | assumption

theorem servoSample_kept {b s : State} (h : Kept b s) (x1) (x2) (x3) (x4) : Kept b (servoSample s x1 x2 x3 x4) := by
  unfold servoSample
  repeat' first
      | with_reducible assumption | intro _ | with_reducible apply ite_kept | with_reducible apply foldl_kept
      | with_reducible apply servoAcquire_kept | with_reducible apply modServoRegs_kept | with_reducible apply piUpdate_kept
      | with_reducible apply holdReturn_kept | split | dsimp only | with_reducible exact snd_kept (by assumption) (by assumption)
      | refine snd_kept (by assumption) ?_ | refine fst_kept (by assumption) ?_ | assumption

theorem leadMove_kept {b s : State} (h : Kept b s) : Kept b (leadMove s).2 := by
  unfold leadMove
  repeat' first
      | with_reducible assumption | intro _ | with_reducible apply ite_kept | with_reducible apply State_fresh_kept
      | with_reducible apply foldl_kept | with_reducible apply modServoRegs_kept | with_reducible apply setCause_kept | split
      | dsimp only | with_reducible exact snd_kept (by assumption) (by assumption) | refine snd_kept (by assumption) ?_
      | refine fst_kept (by assumption) ?_ | assumption

theorem leadCheck_kept {b s : State} (h : Kept b s) : Kept b (leadCheck s) := by
  unfold leadCheck
  repeat' first
      | with_reducible assumption | intro _ | with_reducible apply ite_kept | with_reducible apply State_fresh_kept
      | with_reducible apply foldl_kept | with_reducible apply leadMove_kept | split | dsimp only
      | with_reducible exact snd_kept (by assumption) (by assumption) | refine snd_kept (by assumption) ?_
      | refine fst_kept (by assumption) ?_ | assumption

theorem tapStrobe_kept {b s : State} (h : Kept b s) : Kept b (tapStrobe s) := by
  unfold tapStrobe
  repeat' first
      | with_reducible assumption | intro _ | with_reducible apply ite_kept | with_reducible apply foldl_kept
      | with_reducible apply modTap_kept

/-! ## Machine/Edge.lean -/

theorem prescale_kept {b s : State} (h : Kept b s) (x1) (x2) (x3) (x4) : Kept b (prescale s x1 x2 x3 x4).2 := by
  unfold prescale
  repeat' first
      | with_reducible assumption | intro _ | with_reducible apply ite_kept | with_reducible apply foldl_kept
      | with_reducible apply modEmu_kept | split | dsimp only | with_reducible exact snd_kept (by assumption) (by assumption)
      | refine snd_kept (by assumption) ?_ | refine fst_kept (by assumption) ?_ | assumption

theorem beginSet_kept {b s : State} (h : Kept b s) (x1) (x2) : Kept b (beginSet s x1 x2) := by
  unfold beginSet
  repeat' first
      | with_reducible assumption | intro _ | with_reducible apply ite_kept | with_reducible apply foldl_kept
      | with_reducible apply modEmu_kept | split | dsimp only | with_reducible exact snd_kept (by assumption) (by assumption)
      | refine snd_kept (by assumption) ?_ | refine fst_kept (by assumption) ?_ | assumption

theorem failSet_kept {b s : State} (h : Kept b s) (x1) (x2) (x3) (x4) : Kept b (failSet s x1 x2 x3 x4) := by
  unfold failSet
  repeat' first
      | with_reducible assumption | intro _ | with_reducible apply ite_kept | with_reducible apply foldl_kept
      | with_reducible apply modEmu_kept | with_reducible apply setCause_kept | with_reducible apply beginSet_kept | split
      | dsimp only | with_reducible exact snd_kept (by assumption) (by assumption) | refine snd_kept (by assumption) ?_
      | refine fst_kept (by assumption) ?_ | assumption

theorem intervalSample_kept {b s : State} (h : Kept b s) (x1) (x2) (x3) (x4) : Kept b (intervalSample s x1 x2 x3 x4) := by
  unfold intervalSample
  repeat' first
      | with_reducible assumption | intro _ | with_reducible apply ite_kept | with_reducible apply foldl_kept
      | with_reducible apply modEmu_kept | with_reducible apply failSet_kept | split | dsimp only
      | with_reducible exact snd_kept (by assumption) (by assumption) | refine snd_kept (by assumption) ?_
      | refine fst_kept (by assumption) ?_ | assumption

theorem intervalStamp_kept {b s : State} (h : Kept b s) (x1) (x2) (x3) (x4) : Kept b (intervalStamp s x1 x2 x3 x4) := by
  unfold intervalStamp
  repeat' first
      | with_reducible assumption | intro _ | with_reducible apply ite_kept | with_reducible apply foldl_kept
      | with_reducible apply modEmu_kept | with_reducible apply intervalSample_kept | split | dsimp only
      | with_reducible exact snd_kept (by assumption) (by assumption) | refine snd_kept (by assumption) ?_
      | refine fst_kept (by assumption) ?_ | assumption

theorem periodStamp_kept {b s : State} (h : Kept b s) (x1) (x2) (x3) : Kept b (periodStamp s x1 x2 x3) := by
  unfold periodStamp
  repeat' first
      | with_reducible assumption | intro _ | with_reducible apply ite_kept | with_reducible apply foldl_kept
      | with_reducible apply modEmu_kept | with_reducible apply failSet_kept | split | dsimp only
      | with_reducible exact snd_kept (by assumption) (by assumption) | refine snd_kept (by assumption) ?_
      | refine fst_kept (by assumption) ?_ | assumption

theorem emuStamp_kept {b s : State} (h : Kept b s) (x1) (x2) (x3) (x4) : Kept b (emuStamp s x1 x2 x3 x4) := by
  unfold emuStamp
  repeat' first
      | with_reducible assumption | intro _ | with_reducible apply ite_kept | with_reducible apply foldl_kept
      | with_reducible apply modEmu_kept | with_reducible apply failSet_kept | with_reducible apply intervalStamp_kept
      | with_reducible apply periodStamp_kept | split | dsimp only | with_reducible exact snd_kept (by assumption) (by assumption)
      | refine snd_kept (by assumption) ?_ | refine fst_kept (by assumption) ?_ | assumption

theorem emuOffer_kept {b s : State} (h : Kept b s) (x1) (x2) (x3) (x4) : Kept b (emuOffer s x1 x2 x3 x4) := by
  unfold emuOffer
  repeat' first
      | with_reducible assumption | intro _ | with_reducible apply ite_kept | with_reducible apply foldl_kept
      | with_reducible apply modEmu_kept | with_reducible apply emuStamp_kept | split | dsimp only
      | with_reducible exact snd_kept (by assumption) (by assumption) | refine snd_kept (by assumption) ?_
      | refine fst_kept (by assumption) ?_ | assumption

theorem toEngines_kept {b s : State} (h : Kept b s) (x1) (x2) : Kept b (toEngines s x1 x2) := by
  unfold toEngines
  repeat' first
      | with_reducible assumption | intro _ | with_reducible apply ite_kept | with_reducible apply foldl_kept
      | with_reducible apply emuOffer_kept | split | dsimp only | with_reducible exact snd_kept (by assumption) (by assumption)
      | refine snd_kept (by assumption) ?_ | refine fst_kept (by assumption) ?_ | assumption

theorem overrange_kept {b s : State} (h : Kept b s) (x1) (x2) : Kept b (overrange s x1 x2) := by
  unfold overrange
  repeat' first
      | with_reducible assumption | intro _ | with_reducible apply ite_kept | with_reducible apply foldl_kept
      | with_reducible apply modEmu_kept | split | dsimp only | with_reducible exact snd_kept (by assumption) (by assumption)
      | refine snd_kept (by assumption) ?_ | refine fst_kept (by assumption) ?_ | assumption

theorem modLaneCal_kept {b s : State} (h : Kept b s) (x1) (x2) (x3) (x4) : Kept b (modLaneCal s x1 x2 x3 x4) := by
  unfold modLaneCal
  repeat' first
      | with_reducible assumption | intro _ | with_reducible apply ite_kept | with_reducible apply foldl_kept
      | with_reducible apply modPage_kept

theorem markerStamp_kept {b s : State} (h : Kept b s) (x1) (x2) (x3) : Kept b (markerStamp s x1 x2 x3) := by
  unfold markerStamp
  repeat' first
      | with_reducible assumption | intro _ | with_reducible apply ite_kept | with_reducible apply foldl_kept
      | with_reducible apply modLaneCal_kept | split | dsimp only | with_reducible exact snd_kept (by assumption) (by assumption)
      | refine snd_kept (by assumption) ?_ | refine fst_kept (by assumption) ?_ | assumption

theorem countMissed_kept {b s : State} (h : Kept b s) (x1) (x2) : Kept b (countMissed s x1 x2) := by
  unfold countMissed
  repeat' first
      | with_reducible assumption | intro _ | with_reducible apply ite_kept | with_reducible apply foldl_kept
      | with_reducible apply modLink_kept | with_reducible apply modEmu_kept | with_reducible apply toEngines_kept
      | with_reducible apply markerStamp_kept | split | dsimp only | with_reducible exact snd_kept (by assumption) (by assumption)
      | refine snd_kept (by assumption) ?_ | refine fst_kept (by assumption) ?_ | assumption

theorem offerEdge_kept {b s : State} (h : Kept b s) (x1) (x2) : Kept b (offerEdge s x1 x2) := by
  unfold offerEdge
  repeat' first
      | with_reducible assumption | intro _ | with_reducible apply ite_kept | with_reducible apply foldl_kept
      | with_reducible apply modPoint_kept | with_reducible apply overrange_kept | with_reducible apply countMissed_kept | split
      | dsimp only | with_reducible exact snd_kept (by assumption) (by assumption) | refine snd_kept (by assumption) ?_
      | refine fst_kept (by assumption) ?_ | assumption

theorem noteSent_kept {b s : State} (h : Kept b s) (x1) (x2) : Kept b (noteSent s x1 x2) := by
  unfold noteSent
  repeat' first
      | with_reducible assumption | intro _ | with_reducible apply ite_kept | with_reducible apply foldl_kept
      | with_reducible apply modPage_kept | with_reducible apply modLaneCal_kept | split | dsimp only
      | with_reducible exact snd_kept (by assumption) (by assumption) | refine snd_kept (by assumption) ?_
      | refine fst_kept (by assumption) ?_ | assumption

theorem startConvs_kept {b s : State} (h : Kept b s) (x1) : Kept b (startConvs s x1) := by
  unfold startConvs
  repeat' first
      | with_reducible assumption | intro _ | with_reducible apply ite_kept | with_reducible apply modSh_kept
      | with_reducible apply foldl_kept | split | dsimp only | with_reducible exact snd_kept (by assumption) (by assumption)
      | refine snd_kept (by assumption) ?_ | refine fst_kept (by assumption) ?_ | assumption

theorem tsqPut_kept {b s : State} (h : Kept b s) (x1) (x2) (x3) : Kept b (tsqPut s x1 x2 x3) := by
  unfold tsqPut
  repeat' first
      | with_reducible assumption | intro _ | with_reducible apply ite_kept | with_reducible apply foldl_kept
      | with_reducible apply setCause_kept | with_reducible apply modPage_kept | with_reducible apply raisePlain_kept

theorem tsqFlush_kept {b s : State} (h : Kept b s) (x1) (x2) : Kept b (tsqFlush s x1 x2) := by
  unfold tsqFlush
  repeat' first
      | with_reducible assumption | intro _ | with_reducible apply ite_kept | with_reducible apply foldl_kept
      | with_reducible apply modPage_kept | with_reducible apply tsqPut_kept | split | dsimp only
      | with_reducible exact snd_kept (by assumption) (by assumption) | refine snd_kept (by assumption) ?_
      | refine fst_kept (by assumption) ?_ | assumption

theorem probeStamp_kept {b s : State} (h : Kept b s) (x1) (x2) (x3) : Kept b (probeStamp s x1 x2 x3) := by
  unfold probeStamp
  repeat' first
      | with_reducible assumption | intro _ | with_reducible apply ite_kept | with_reducible apply foldl_kept
      | with_reducible apply modPage_kept | with_reducible apply tsqFlush_kept | split | dsimp only
      | with_reducible exact snd_kept (by assumption) (by assumption) | refine snd_kept (by assumption) ?_
      | refine fst_kept (by assumption) ?_ | assumption

theorem keepFor_kept {b s : State} (h : Kept b s) (x1) (x2) (x3) : Kept b (keepFor s x1 x2 x3) := by
  unfold keepFor
  repeat' first
      | with_reducible assumption | intro _ | with_reducible apply ite_kept | with_reducible apply foldl_kept
      | with_reducible apply modLink_kept | with_reducible apply markerStamp_kept | with_reducible apply probeStamp_kept | split
      | dsimp only | with_reducible exact snd_kept (by assumption) (by assumption) | refine snd_kept (by assumption) ?_
      | refine fst_kept (by assumption) ?_ | assumption

theorem setReady_kept {b s : State} (h : Kept b s) (x1) (x2) (x3) : Kept b (setReady s x1 x2 x3) := by
  unfold setReady
  repeat' first
      | with_reducible assumption | intro _ | with_reducible apply ite_kept | with_reducible apply modSh_kept
      | with_reducible apply foldl_kept | with_reducible apply updReady_kept | split | dsimp only
      | with_reducible exact snd_kept (by assumption) (by assumption) | refine snd_kept (by assumption) ?_
      | refine fst_kept (by assumption) ?_ | assumption

theorem clusterFault_kept {b s : State} (h : Kept b s) (x1) (x2) : Kept b (clusterFault s x1 x2) := by
  unfold clusterFault
  repeat' first
      | with_reducible assumption | intro _ | with_reducible apply ite_kept | with_reducible apply modSh_kept
      | with_reducible apply foldl_kept | with_reducible apply setReady_kept | with_reducible apply modCluster_kept
      | with_reducible apply timeFault_kept | split | dsimp only | with_reducible exact snd_kept (by assumption) (by assumption)
      | refine snd_kept (by assumption) ?_ | refine fst_kept (by assumption) ?_ | assumption

theorem calibrateAll_kept {b s : State} (h : Kept b s) (x1) : Kept b (calibrateAll s x1) := by
  unfold calibrateAll
  repeat' first
      | with_reducible assumption | intro _ | with_reducible apply ite_kept | with_reducible apply foldl_kept
      | with_reducible apply modCluster_kept | split | dsimp only | with_reducible exact snd_kept (by assumption) (by assumption)
      | refine snd_kept (by assumption) ?_ | refine fst_kept (by assumption) ?_ | assumption

theorem vernCtrlWrite_kept {b s : State} (h : Kept b s) (x0) (x1) : Kept b (vernCtrlWrite x0 x1 s).2 := by
  unfold vernCtrlWrite
  repeat' first
      | with_reducible assumption | intro _ | with_reducible apply ite_kept | with_reducible apply modSh_kept
      | with_reducible apply foldl_kept | with_reducible apply accept_kept | with_reducible apply calibrateAll_kept | split | dsimp only
      | with_reducible exact snd_kept (by assumption) (by assumption) | refine snd_kept (by assumption) ?_
      | refine fst_kept (by assumption) ?_ | assumption

theorem startSet_kept {b s : State} (h : Kept b s) (x1) (x2) (x3) : Kept b (startSet s x1 x2 x3) := by
  unfold startSet
  repeat' first
      | with_reducible assumption | intro _ | with_reducible apply ite_kept | with_reducible apply State_fresh_kept
      | with_reducible apply foldl_kept | with_reducible apply modEmu_kept | with_reducible apply beginSet_kept | split
      | dsimp only | with_reducible exact snd_kept (by assumption) (by assumption) | refine snd_kept (by assumption) ?_
      | refine fst_kept (by assumption) ?_ | assumption

theorem emuCtrlWrite_kept {b s : State} (h : Kept b s) (x0) (x1) (x2) : Kept b (emuCtrlWrite x0 x1 x2 s).2 := by
  unfold emuCtrlWrite
  repeat' first
      | with_reducible assumption | intro _ | with_reducible apply ite_kept | with_reducible apply foldl_kept
      | with_reducible apply modEmu_kept | with_reducible apply accept_kept | with_reducible apply refused_kept
      | with_reducible apply failSet_kept | with_reducible apply startSet_kept | split | dsimp only
      | with_reducible exact snd_kept (by assumption) (by assumption) | refine snd_kept (by assumption) ?_
      | refine fst_kept (by assumption) ?_ | assumption

theorem onEmu_kept {b s : State} (h : Kept b s) (x0) (x1) (x3) (hx : Kept b x3.2) : Kept b (onEmu x0 x1 s x3).2 := by
  unfold onEmu
  split
  · exact hx
  · exact refused_kept h _ _

theorem emuMeanRead_kept {b s : State} (h : Kept b s) (x0) (x1) : Kept b (emuMeanRead x0 x1 s).2 := by
  unfold emuMeanRead
  repeat' first
      | with_reducible assumption | intro _ | with_reducible apply ite_kept | with_reducible apply foldl_kept
      | with_reducible apply modIface_kept

theorem emuLastTickRead_kept {b s : State} (h : Kept b s) (x0) (x1) : Kept b (emuLastTickRead x0 x1 s).2 := by
  unfold emuLastTickRead
  repeat' first
      | with_reducible assumption | intro _ | with_reducible apply ite_kept | with_reducible apply foldl_kept
      | with_reducible apply modIface_kept

/-! ## Machine/Timebase.lean -/

theorem failSets_kept {b s : State} (h : Kept b s) (x1) : Kept b (failSets s x1) := by
  unfold failSets
  repeat' first
      | with_reducible assumption | intro _ | with_reducible apply ite_kept | with_reducible apply foldl_kept
      | with_reducible apply failSet_kept | split | dsimp only | with_reducible exact snd_kept (by assumption) (by assumption)
      | refine snd_kept (by assumption) ?_ | refine fst_kept (by assumption) ?_ | assumption

theorem hallEpochWrite_kept {b s : State} (h : Kept b s) (x0) (x1) : Kept b (hallEpochWrite x0 x1 s).2 := by
  unfold hallEpochWrite
  repeat' first
      | with_reducible assumption | intro _ | with_reducible apply ite_kept | with_reducible apply foldl_kept
      | with_reducible apply accept_kept | with_reducible apply clearValid_kept | with_reducible apply modTb_kept
      | with_reducible apply refused_kept | split | dsimp only | with_reducible exact snd_kept (by assumption) (by assumption)
      | refine snd_kept (by assumption) ?_ | refine fst_kept (by assumption) ?_ | assumption

theorem nowLoRead_kept {b s : State} (h : Kept b s) (x0) : Kept b (nowLoRead x0 s).2 := by
  unfold nowLoRead
  repeat' first
      | with_reducible assumption | intro _ | with_reducible apply ite_kept | with_reducible apply foldl_kept
      | with_reducible apply modIfaceRegs_kept

/-! ## Machine/LinkTime.lean -/

theorem dropSample_kept {b s : State} (h : Kept b s) (x1) (x2) : Kept b (dropSample s x1 x2) := by
  unfold dropSample
  repeat' first
      | with_reducible assumption | intro _ | with_reducible apply ite_kept | with_reducible apply foldl_kept
      | with_reducible apply modLinkRegs_kept

theorem onTime_kept {b s : State} (h :
    Kept b s) (x1) (x2) (x3) (h3 : ∀ t, Kept b t → Kept b (x3 t)) :
    Kept b (onTime s x1 x2 x3) := by
  unfold onTime
  repeat' first
      | with_reducible assumption | intro _ | with_reducible apply ite_kept | with_reducible apply h3
      | with_reducible apply foldl_kept | with_reducible apply modLink_kept | with_reducible apply dropSample_kept | split
      | dsimp only | with_reducible exact snd_kept (by assumption) (by assumption) | refine snd_kept (by assumption) ?_
      | refine fst_kept (by assumption) ?_ | assumption

theorem dropOffset_kept {b s : State} (h : Kept b s) (x1) (x2) : Kept b (dropOffset s x1 x2) := by
  unfold dropOffset
  repeat' first
      | with_reducible assumption | intro _ | with_reducible apply ite_kept | with_reducible apply foldl_kept
      | with_reducible apply modLink_kept | with_reducible apply dropSample_kept | split | dsimp only
      | with_reducible exact snd_kept (by assumption) (by assumption) | refine snd_kept (by assumption) ?_
      | refine fst_kept (by assumption) ?_ | assumption

theorem planeCompare_kept {b s : State} (h : Kept b s) : Kept b (planeCompare s) := by
  unfold planeCompare
  repeat' first
      | with_reducible assumption | intro _ | with_reducible apply ite_kept | with_reducible apply State_fresh_kept
      | with_reducible apply foldl_kept | with_reducible apply modServo_kept | with_reducible apply modServoRegs_kept
      | with_reducible apply setCause_kept | with_reducible apply timeFault_kept | with_reducible apply leadMove_kept | split
      | dsimp only | with_reducible exact snd_kept (by assumption) (by assumption) | refine snd_kept (by assumption) ?_
      | refine fst_kept (by assumption) ?_ | assumption

theorem votedOut_kept {b s : State} (h : Kept b s) (x1) : Kept b (votedOut s x1) := by
  unfold votedOut
  repeat' first
      | with_reducible assumption | intro _ | with_reducible apply ite_kept | with_reducible apply foldl_kept
      | with_reducible apply modServoRegs_kept | with_reducible apply setCause_kept | with_reducible apply timeFault_kept | split
      | dsimp only | with_reducible exact snd_kept (by assumption) (by assumption) | refine snd_kept (by assumption) ?_
      | refine fst_kept (by assumption) ?_ | assumption

theorem rowVote_kept {b s : State} (h : Kept b s) (x1) (x2) : Kept b (rowVote s x1 x2) := by
  unfold rowVote
  repeat' first
      | with_reducible assumption | intro _ | with_reducible apply ite_kept | with_reducible apply foldl_kept
      | with_reducible apply modServo_kept | with_reducible apply enterHoldover_kept | with_reducible apply votedOut_kept | split
      | dsimp only | with_reducible exact snd_kept (by assumption) (by assumption) | refine snd_kept (by assumption) ?_
      | refine fst_kept (by assumption) ?_ | assumption

theorem chooseLead_kept {b s : State} (h : Kept b s) (x1) (x2) : Kept b (chooseLead s x1 x2) := by
  unfold chooseLead
  repeat' first
      | with_reducible assumption | intro _ | with_reducible apply ite_kept | with_reducible apply foldl_kept
      | with_reducible apply modServo_kept | split | dsimp only | with_reducible exact snd_kept (by assumption) (by assumption)
      | refine snd_kept (by assumption) ?_ | refine fst_kept (by assumption) ?_ | assumption

theorem acceptTheta_kept {b s : State} (h : Kept b s) (x1) (x2) : Kept b (acceptTheta s x1 x2) := by
  unfold acceptTheta
  repeat' first
      | with_reducible assumption | intro _ | with_reducible apply ite_kept | with_reducible apply foldl_kept
      | with_reducible apply modLink_kept | with_reducible apply servoSample_kept | with_reducible apply leadCheck_kept
      | with_reducible apply planeCompare_kept | with_reducible apply rowVote_kept | with_reducible apply chooseLead_kept | split
      | dsimp only | with_reducible exact snd_kept (by assumption) (by assumption) | refine snd_kept (by assumption) ?_
      | refine fst_kept (by assumption) ?_ | assumption

theorem takeDrespFu_kept {b s : State} (h : Kept b s) (x1) (x2) : Kept b (takeDrespFu s x1 x2) := by
  unfold takeDrespFu
  repeat' first
      | with_reducible assumption | intro _ | with_reducible apply ite_kept | with_reducible apply foldl_kept
      | with_reducible apply modLink_kept | with_reducible apply dropSample_kept | split | dsimp only
      | with_reducible exact snd_kept (by assumption) (by assumption) | refine snd_kept (by assumption) ?_
      | refine fst_kept (by assumption) ?_ | assumption

theorem forwardSync_kept {b s : State} (h : Kept b s) (x1) (x2) : Kept b (forwardSync s x1 x2) := by
  unfold forwardSync
  repeat' first
      | with_reducible assumption | intro _ | with_reducible apply ite_kept | with_reducible apply foldl_kept
      | with_reducible apply sendLink_kept | with_reducible apply modLink_kept

theorem timePathVote_kept {b s : State} (h : Kept b s) (x1) : Kept b (timePathVote s x1) := by
  unfold timePathVote
  repeat' first
      | with_reducible assumption | intro _ | with_reducible apply ite_kept | with_reducible apply modHub_kept
      | with_reducible apply foldl_kept | with_reducible apply chargeUnit_kept | with_reducible apply timeFault_kept | split | dsimp only
      | with_reducible exact snd_kept (by assumption) (by assumption) | refine snd_kept (by assumption) ?_
      | refine fst_kept (by assumption) ?_ | assumption | (refine Once.of_fields (by assumption) ?_ ?_ ?_ <;> rfl)

theorem forgetSync_kept {b s : State} (h : Kept b s) (x1) (x2) : Kept b (forgetSync s x1 x2) := by
  unfold forgetSync
  repeat' first
      | with_reducible assumption | intro _ | with_reducible apply ite_kept | with_reducible apply foldl_kept
      | with_reducible apply modLink_kept | split | dsimp only | with_reducible exact snd_kept (by assumption) (by assumption)
      | refine snd_kept (by assumption) ?_ | refine fst_kept (by assumption) ?_ | assumption

theorem takeSyncFu_kept {b s : State} (h : Kept b s) (x1) (x2) : Kept b (takeSyncFu s x1 x2) := by
  unfold takeSyncFu
  repeat' first
      | with_reducible assumption | intro _ | with_reducible apply ite_kept | with_reducible apply modSh_kept
      | with_reducible apply foldl_kept | with_reducible apply modLink_kept | with_reducible apply countPast_kept
      | with_reducible apply dropSample_kept | with_reducible apply dropOffset_kept | with_reducible apply acceptTheta_kept
      | with_reducible apply forgetSync_kept | split | dsimp only | with_reducible exact snd_kept (by assumption) (by assumption)
      | refine snd_kept (by assumption) ?_ | refine fst_kept (by assumption) ?_ | assumption

theorem onLinkPage_kept {b s : State} (h : Kept b s) (x0) (x1) (x3) (hx : Kept b x3.2) : Kept b (onLinkPage x0 x1 s x3).2 :=
    by
  unfold onLinkPage
  split
  · exact hx
  · exact refused_kept h _ _

theorem sendHello_kept {b s : State} (h : Kept b s) (x1) : Kept b (sendHello s x1) := by
  unfold sendHello
  repeat' first
      | with_reducible assumption | intro _ | with_reducible apply ite_kept | with_reducible apply foldl_kept
      | with_reducible apply modLink_kept | with_reducible apply sendLink_kept

theorem ptProbeWrite_kept {b s : State} (h : Kept b s) (x0) (x1) (x2) : Kept b (ptProbeWrite x0 x1 x2 s).2 := by
  unfold ptProbeWrite
  repeat' first
      | with_reducible assumption | intro _ | with_reducible apply ite_kept | with_reducible apply foldl_kept
      | with_reducible apply refused_kept | with_reducible apply accept_kept | with_reducible apply sendLink_kept | split | dsimp only

theorem takeProbe_kept {b s : State} (h : Kept b s) (x1) (x2) : Kept b (takeProbe s x1 x2) := by
  unfold takeProbe
  repeat' first
      | with_reducible assumption | intro _ | with_reducible apply ite_kept | with_reducible apply foldl_kept
      | with_reducible apply modLink_kept | with_reducible apply sendLink_kept | split | dsimp only
      | with_reducible exact snd_kept (by assumption) (by assumption) | refine snd_kept (by assumption) ?_
      | refine fst_kept (by assumption) ?_ | assumption

theorem ptTsqHeadRead_kept {b s : State} (h : Kept b s) (x0) (x1) : Kept b (ptTsqHeadRead x0 x1 s).2 := by
  unfold ptTsqHeadRead
  repeat' first
      | with_reducible assumption | intro _ | with_reducible apply ite_kept | with_reducible apply foldl_kept
      | with_reducible apply modPage_kept | split

theorem wake_kept {b s : State} (h : Kept b s) (x1) : Kept b (wake s x1) := by
  unfold wake
  repeat' first
      | with_reducible assumption | intro _ | with_reducible apply ite_kept | with_reducible apply foldl_kept
      | with_reducible apply modLink_kept | with_reducible apply takeDrespFu_kept | with_reducible apply takeSyncFu_kept
      | with_reducible apply takeProbe_kept | split | dsimp only | with_reducible exact snd_kept (by assumption) (by assumption)
      | refine snd_kept (by assumption) ?_ | refine fst_kept (by assumption) ?_ | assumption

theorem deliverStamp_kept {b s : State} (h : Kept b s) (x1) (x2) (x3) : Kept b (deliverStamp s x1 x2 x3) := by
  unfold deliverStamp
  repeat' first
      | with_reducible assumption | intro _ | with_reducible apply ite_kept | with_reducible apply foldl_kept
      | with_reducible apply toEngines_kept | with_reducible apply keepFor_kept | with_reducible apply wake_kept | split
      | dsimp only | with_reducible exact snd_kept (by assumption) (by assumption) | refine snd_kept (by assumption) ?_
      | refine fst_kept (by assumption) ?_ | assumption

/-! ## Machine/Servo.lean -/

theorem modeChange_kept {b s : State} (h : Kept b s) (x1) (x2) (x3) : Kept b (modeChange s x1 x2 x3) := by
  unfold modeChange
  refine ite_kept h ?_
  split
  · exact ite_kept (enterFree_kept h _) h
  · exact enterHoldover_kept h _
  · exact setRate_kept (modServo_invalid (clearValid_kept h _) _ _ (clearValid_invalid _ _) fun _ => (by decide : (4#3).toNat
      ≤ 4)) _ _

theorem forceLead_kept {b s : State} (h : Kept b s) (x1) : Kept b (forceLead s x1) := by
  unfold forceLead
  repeat' first
      | with_reducible assumption | intro _ | with_reducible apply ite_kept | with_reducible apply foldl_kept
      | with_reducible apply modServo_kept | with_reducible apply setCause_kept | split | dsimp only
      | with_reducible exact snd_kept (by assumption) (by assumption) | refine snd_kept (by assumption) ?_
      | refine fst_kept (by assumption) ?_ | assumption

theorem servoCtrlWrite_kept {b s : State} (h : Kept b s) (x0) (x1) : Kept b (servoCtrlWrite x0 x1 s).2 := by
  unfold servoCtrlWrite
  repeat' first
      | with_reducible assumption | intro _ | with_reducible apply ite_kept | with_reducible apply foldl_kept
      | with_reducible apply modServoRegs_kept | with_reducible apply accept_kept | with_reducible apply refused_kept
      | with_reducible apply enterFree_kept | with_reducible apply leadCheck_kept | with_reducible apply modeChange_kept
      | with_reducible apply forceLead_kept | split | dsimp only | with_reducible exact snd_kept (by assumption) (by assumption)
      | refine snd_kept (by assumption) ?_ | refine fst_kept (by assumption) ?_ | assumption

theorem rateManualWrite_kept {b s : State} (h : Kept b s) (x0) (x1) : Kept b (rateManualWrite x0 x1 s).2 := by
  unfold rateManualWrite
  repeat' first
      | with_reducible assumption | intro _ | with_reducible apply ite_kept | with_reducible apply foldl_kept
      | with_reducible apply refused_kept | with_reducible apply modServoRegs_kept | with_reducible apply accept_kept
      | with_reducible apply setRate_kept | split | dsimp only | with_reducible exact snd_kept (by assumption) (by assumption)
      | refine snd_kept (by assumption) ?_ | refine fst_kept (by assumption) ?_ | assumption

theorem announceOrigin_kept {b s : State} (h : Kept b s) : Kept b (announceOrigin s).2.2 := by
  unfold announceOrigin
  repeat' first
      | with_reducible assumption | intro _ | with_reducible apply ite_kept | with_reducible apply foldl_kept
      | with_reducible apply State_fresh_kept | split

theorem sendAll_kept {b s : State} (h : Kept b s) (x1) (x2) : Kept b (sendAll s x1 x2) := by
  unfold sendAll
  repeat' first
      | with_reducible assumption | intro _ | with_reducible apply ite_kept | with_reducible apply foldl_kept
      | with_reducible apply sendLink_kept

theorem announceNow_kept {b s : State} (h : Kept b s) : Kept b (announceNow s) := by
  unfold announceNow
  repeat' first
      | with_reducible assumption | intro _ | with_reducible apply ite_kept | with_reducible apply foldl_kept
      | with_reducible apply announceOrigin_kept | with_reducible apply modServoRegs_kept | with_reducible apply sendAll_kept | split
      | dsimp only | with_reducible exact snd_kept (by assumption) (by assumption) | refine snd_kept (by assumption) ?_
      | refine fst_kept (by assumption) ?_ | assumption

theorem becomeMaster_kept {b s : State} (h : Kept b s) (x1) : Kept b (becomeMaster s x1) := by
  unfold becomeMaster
  repeat' first
      | with_reducible assumption | intro _ | with_reducible apply ite_kept | with_reducible apply modSh_kept
      | with_reducible apply modHub_kept | with_reducible apply foldl_kept | with_reducible apply modServoRegs_kept | split
      | dsimp only | with_reducible exact snd_kept (by assumption) (by assumption) | refine snd_kept (by assumption) ?_
      | refine fst_kept (by assumption) ?_ | assumption | (refine Once.of_fields (by assumption) ?_ ?_ ?_ <;> rfl)

theorem followMaster_kept {b s : State} (h : Kept b s) (x1) (x2) : Kept b (followMaster s x1 x2) := by
  unfold followMaster
  repeat' first
      | with_reducible assumption | intro _ | with_reducible apply ite_kept | with_reducible apply modHub_kept
      | with_reducible apply foldl_kept | with_reducible apply modServoRegs_kept | split | dsimp only
      | with_reducible exact snd_kept (by assumption) (by assumption) | refine snd_kept (by assumption) ?_
      | refine fst_kept (by assumption) ?_ | assumption | (refine Once.of_fields (by assumption) ?_ ?_ ?_ <;> rfl)

theorem initTime_kept {b s : State} (h : Kept b s) : Kept b (initTime s) := by
  unfold initTime
  repeat' first
      | with_reducible assumption | intro _ | with_reducible apply ite_kept | with_reducible apply modHub_kept
      | with_reducible apply foldl_kept | with_reducible apply modTb_kept | with_reducible apply stepTick_kept
      | with_reducible apply clearValid_kept | split | dsimp only | with_reducible exact snd_kept (by assumption) (by assumption)
      | refine snd_kept (by assumption) ?_ | refine fst_kept (by assumption) ?_ | assumption
      | (refine Once.of_fields (by assumption) ?_ ?_ ?_ <;> rfl)

theorem planHandover_kept {b s : State} (h : Kept b s) (x1) : Kept b (planHandover s x1) := by
  unfold planHandover
  repeat' first
      | with_reducible assumption | intro _ | with_reducible apply ite_kept | with_reducible apply modHub_kept
      | with_reducible apply foldl_kept | with_reducible apply State_fresh_kept | with_reducible apply announceNow_kept | split
      | dsimp only | with_reducible exact snd_kept (by assumption) (by assumption) | refine snd_kept (by assumption) ?_
      | refine fst_kept (by assumption) ?_ | assumption | (refine Once.of_fields (by assumption) ?_ ?_ ?_ <;> rfl)

theorem masterCfgWrite_kept {b s : State} (h : Kept b s) (x0) (x1) : Kept b (masterCfgWrite x0 x1 s).2 := by
  unfold masterCfgWrite
  repeat' first
      | with_reducible assumption | intro _ | with_reducible apply ite_kept | with_reducible apply onPart_kept
      | with_reducible apply modHub_kept | with_reducible apply foldl_kept | with_reducible apply refused_kept
      | with_reducible apply accept_kept | with_reducible apply planHandover_kept | split | dsimp only
      | with_reducible exact snd_kept (by assumption) (by assumption) | refine snd_kept (by assumption) ?_
      | refine fst_kept (by assumption) ?_ | assumption | (refine Once.of_fields (by assumption) ?_ ?_ ?_ <;> rfl)

theorem countHandover_kept {b s : State} (h : Kept b s) : Kept b (countHandover s) := by
  unfold countHandover
  repeat' first
      | with_reducible assumption | intro _ | with_reducible apply ite_kept | with_reducible apply modHub_kept
      | with_reducible apply foldl_kept | split | dsimp only | with_reducible exact snd_kept (by assumption) (by assumption)
      | refine snd_kept (by assumption) ?_ | refine fst_kept (by assumption) ?_ | assumption
      | (refine Once.of_fields (by assumption) ?_ ?_ ?_ <;> rfl)

theorem handoverReached_kept {b s : State} (h : Kept b s) : Kept b (handoverReached s) := by
  unfold handoverReached
  repeat' first
      | with_reducible assumption | intro _ | with_reducible apply ite_kept | with_reducible apply modHub_kept
      | with_reducible apply foldl_kept | with_reducible apply countHandover_kept | with_reducible apply followMaster_kept
      | with_reducible apply announceNow_kept | with_reducible apply becomeMaster_kept | with_reducible apply modServoRegs_kept | split
      | dsimp only | with_reducible exact snd_kept (by assumption) (by assumption) | refine snd_kept (by assumption) ?_
      | refine fst_kept (by assumption) ?_ | assumption | (refine Once.of_fields (by assumption) ?_ ?_ ?_ <;> rfl)

theorem learnEpoch_kept {b s : State} (h : Kept b s) (x1) (x2) : Kept b (learnEpoch s x1 x2) := by
  unfold learnEpoch
  repeat' first
      | with_reducible assumption | intro _ | with_reducible apply ite_kept | with_reducible apply foldl_kept
      | with_reducible apply modTb_kept | with_reducible apply modTbRegs_kept | with_reducible apply loseTime_kept | split
      | dsimp only | with_reducible exact snd_kept (by assumption) (by assumption) | refine snd_kept (by assumption) ?_
      | refine fst_kept (by assumption) ?_ | assumption

theorem showMaster_kept {b s : State} (h : Kept b s) (x1) (x2) : Kept b (showMaster s x1 x2) := by
  unfold showMaster
  repeat' first
      | with_reducible assumption | intro _ | with_reducible apply ite_kept | with_reducible apply modSh_kept
      | with_reducible apply modHub_kept | with_reducible apply foldl_kept | with_reducible apply modServoRegs_kept | split | dsimp only
      | with_reducible exact snd_kept (by assumption) (by assumption) | refine snd_kept (by assumption) ?_
      | refine fst_kept (by assumption) ?_ | assumption | (refine Once.of_fields (by assumption) ?_ ?_ ?_ <;> rfl)

theorem takeAnnounce_kept {b s : State} (h : Kept b s) (x1) (x2) : Kept b (takeAnnounce s x1 x2) := by
  unfold takeAnnounce
  repeat' first
      | with_reducible assumption | intro _ | with_reducible apply ite_kept | with_reducible apply foldl_kept
      | with_reducible apply showMaster_kept | with_reducible apply learnEpoch_kept | with_reducible apply sendAll_kept | split

theorem masterHears_kept {b s : State} (h : Kept b s) (x1) (x2) : Kept b (masterHears s x1 x2) := by
  unfold masterHears
  repeat' first
      | with_reducible assumption | intro _ | with_reducible apply ite_kept | with_reducible apply foldl_kept
      | with_reducible apply takeAnnounce_kept | with_reducible apply countHandover_kept | with_reducible apply followMaster_kept
      | with_reducible apply timeFault_kept

theorem setClass_kept {b s : State} (h : Kept b s) (x1) : Kept b (setClass s x1) := by
  unfold setClass
  repeat' first
      | with_reducible assumption | intro _ | with_reducible apply ite_kept | with_reducible apply modHub_kept
      | with_reducible apply foldl_kept | split | dsimp only | with_reducible exact snd_kept (by assumption) (by assumption)
      | refine snd_kept (by assumption) ?_ | refine fst_kept (by assumption) ?_ | assumption
      | (refine Once.of_fields (by assumption) ?_ ?_ ?_ <;> rfl)

theorem steered_kept {b s : State} (h : Kept b s) : Kept b (steered s) := by
  unfold steered
  repeat' first
      | with_reducible assumption | intro _ | with_reducible apply ite_kept | with_reducible apply foldl_kept
      | with_reducible apply setClass_kept | split | dsimp only | with_reducible exact snd_kept (by assumption) (by assumption)
      | refine snd_kept (by assumption) ?_ | refine fst_kept (by assumption) ?_ | assumption

theorem refSample_kept {b s : State} (h : Kept b s) (x1) (x2) (x3) : Kept b (refSample s x1 x2 x3) := by
  unfold refSample
  repeat' first
      | with_reducible assumption | intro _ | with_reducible apply ite_kept | with_reducible apply modHub_kept
      | with_reducible apply foldl_kept | with_reducible apply modServoRegs_kept | with_reducible apply setCause_kept
      | with_reducible apply timeFault_kept | with_reducible apply enterLocked_kept | with_reducible apply piUpdate_kept
      | with_reducible apply servoAcquire_kept | with_reducible apply timePathVote_kept | with_reducible apply setClass_kept
      | with_reducible apply steered_kept | split | dsimp only | with_reducible exact snd_kept (by assumption) (by assumption)
      | refine snd_kept (by assumption) ?_ | refine fst_kept (by assumption) ?_ | assumption
      | (refine Once.of_fields (by assumption) ?_ ?_ ?_ <;> rfl)

theorem loadTod_kept {b s : State} (h : Kept b s) (x1) : Kept b (loadTod s x1) := by
  unfold loadTod
  repeat' first
      | with_reducible assumption | intro _ | with_reducible apply ite_kept | with_reducible apply modHub_kept
      | with_reducible apply foldl_kept | with_reducible apply modTb_kept | with_reducible apply countPast_kept
      | with_reducible apply stepTick_kept | with_reducible apply clearValid_kept | split | dsimp only
      | with_reducible exact snd_kept (by assumption) (by assumption) | refine snd_kept (by assumption) ?_
      | refine fst_kept (by assumption) ?_ | assumption | (refine Once.of_fields (by assumption) ?_ ?_ ?_ <;> rfl)

theorem refTodWrite_kept {b s : State} (h : Kept b s) (x0) (x1) : Kept b (refTodWrite x0 x1 s).2 := by
  unfold refTodWrite
  repeat' first
      | with_reducible assumption | intro _ | with_reducible apply ite_kept | with_reducible apply onPart_kept
      | with_reducible apply modHub_kept | with_reducible apply foldl_kept | with_reducible apply accept_kept | split | dsimp only
      | with_reducible exact snd_kept (by assumption) (by assumption) | refine snd_kept (by assumption) ?_
      | refine fst_kept (by assumption) ?_ | assumption | (refine Once.of_fields (by assumption) ?_ ?_ ?_ <;> rfl)

theorem refAlign_kept {b s : State} (h : Kept b s) : Kept b (refAlign s) := by
  unfold refAlign
  repeat' first
      | with_reducible assumption | intro _ | with_reducible apply ite_kept | with_reducible apply modHub_kept
      | with_reducible apply foldl_kept | with_reducible apply stepTick_kept | with_reducible apply modTb_kept
      | with_reducible apply clearValid_kept | split | dsimp only | with_reducible exact snd_kept (by assumption) (by assumption)
      | refine snd_kept (by assumption) ?_ | refine fst_kept (by assumption) ?_ | assumption
      | (refine Once.of_fields (by assumption) ?_ ?_ ?_ <;> rfl)

theorem selectRef_kept {b s : State} (h : Kept b s) : Kept b (selectRef s) := by
  unfold selectRef
  repeat' first
      | with_reducible assumption | intro _ | with_reducible apply ite_kept | with_reducible apply modHub_kept
      | with_reducible apply foldl_kept | with_reducible apply setClass_kept | split | dsimp only
      | with_reducible exact snd_kept (by assumption) (by assumption) | refine snd_kept (by assumption) ?_
      | refine fst_kept (by assumption) ?_ | assumption | (refine Once.of_fields (by assumption) ?_ ?_ ?_ <;> rfl)

theorem refCtrlWrite_kept {b s : State} (h : Kept b s) (x0) (x1) : Kept b (refCtrlWrite x0 x1 s).2 := by
  unfold refCtrlWrite
  repeat' first
      | with_reducible assumption | intro _ | with_reducible apply ite_kept | with_reducible apply modHub_kept
      | with_reducible apply onPart_kept | with_reducible apply foldl_kept | with_reducible apply accept_kept
      | with_reducible apply refused_kept | with_reducible apply refAlign_kept | with_reducible apply selectRef_kept | split
      | dsimp only | with_reducible exact snd_kept (by assumption) (by assumption) | refine snd_kept (by assumption) ?_
      | refine fst_kept (by assumption) ?_ | assumption | (refine Once.of_fields (by assumption) ?_ ?_ ?_ <;> rfl)

theorem driveOut_kept {b s : State} (h : Kept b s) (x1) (x2) (x3) (x4) : Kept b (driveOut s x1 x2 x3 x4) := by
  unfold driveOut
  repeat' first
      | with_reducible assumption | intro _ | with_reducible apply ite_kept | with_reducible apply emit_kept
      | with_reducible apply modHub_kept | with_reducible apply foldl_kept | split | dsimp only
      | with_reducible exact snd_kept (by assumption) (by assumption) | refine snd_kept (by assumption) ?_
      | refine fst_kept (by assumption) ?_ | assumption | (refine Once.of_fields (by assumption) ?_ ?_ ?_ <;> rfl)

theorem outCtrlWrite_kept {b s : State} (h : Kept b s) (x0) (x1) : Kept b (outCtrlWrite x0 x1 s).2 := by
  unfold outCtrlWrite
  repeat' first
      | with_reducible assumption | intro _ | with_reducible apply ite_kept | with_reducible apply modHub_kept
      | with_reducible apply onPart_kept | with_reducible apply foldl_kept | with_reducible apply accept_kept | split | dsimp only
      | with_reducible exact snd_kept (by assumption) (by assumption) | refine snd_kept (by assumption) ?_
      | refine fst_kept (by assumption) ?_ | assumption | (refine Once.of_fields (by assumption) ?_ ?_ ?_ <;> rfl)

theorem ptpDrop_kept {b s : State} (h : Kept b s) : Kept b (ptpDrop s) := by
  unfold ptpDrop
  repeat' first
      | with_reducible assumption | intro _ | with_reducible apply ite_kept | with_reducible apply modHub_kept
      | with_reducible apply foldl_kept | split | dsimp only | with_reducible exact snd_kept (by assumption) (by assumption)
      | refine snd_kept (by assumption) ?_ | refine fst_kept (by assumption) ?_ | assumption
      | (refine Once.of_fields (by assumption) ?_ ?_ ?_ <;> rfl)

theorem ptpExpire_kept {b s : State} (h : Kept b s) : Kept b (ptpExpire s) := by
  unfold ptpExpire
  repeat' first
      | with_reducible assumption | intro _ | with_reducible apply ite_kept | with_reducible apply modHub_kept
      | with_reducible apply foldl_kept | split | dsimp only | with_reducible exact snd_kept (by assumption) (by assumption)
      | refine snd_kept (by assumption) ?_ | refine fst_kept (by assumption) ?_ | assumption
      | (refine Once.of_fields (by assumption) ?_ ?_ ?_ <;> rfl)

theorem ptpBadStamp_kept {b s : State} (h : Kept b s) (x1) : Kept b (ptpBadStamp s x1) := by
  unfold ptpBadStamp
  repeat' first
      | with_reducible assumption | intro _ | with_reducible apply ite_kept | with_reducible apply foldl_kept
      | with_reducible apply countPast_kept | with_reducible apply ptpDrop_kept | split | dsimp only
      | with_reducible exact snd_kept (by assumption) (by assumption) | refine snd_kept (by assumption) ?_
      | refine fst_kept (by assumption) ?_ | assumption

theorem ptpCtrlWrite_kept {b s : State} (h : Kept b s) (x0) (x1) : Kept b (ptpCtrlWrite x0 x1 s).2 := by
  unfold ptpCtrlWrite
  repeat' first
      | with_reducible assumption | intro _ | with_reducible apply ite_kept | with_reducible apply onPart_kept
      | with_reducible apply modHub_kept | with_reducible apply foldl_kept | with_reducible apply refused_kept
      | with_reducible apply accept_kept | split | dsimp only | with_reducible exact snd_kept (by assumption) (by assumption)
      | refine snd_kept (by assumption) ?_ | refine fst_kept (by assumption) ?_ | assumption
      | (refine Once.of_fields (by assumption) ?_ ?_ ?_ <;> rfl)

/-! ## Machine/Taps.lean -/

theorem sendFrame_kept {b s : State} (h : Kept b s) (x1) : Kept b (sendFrame s x1) := by
  unfold sendFrame
  repeat' first | with_reducible assumption | intro _ | with_reducible apply ite_kept | with_reducible apply emit_kept

theorem placeStrobe_kept {b s : State} (h : Kept b s) (x1) : Kept b (placeStrobe s x1) := by
  unfold placeStrobe
  repeat' first
      | with_reducible assumption | intro _ | with_reducible apply ite_kept | with_reducible apply emit_kept
      | with_reducible apply foldl_kept | with_reducible apply tapStrobe_kept | split | dsimp only
      | with_reducible exact snd_kept (by assumption) (by assumption) | refine snd_kept (by assumption) ?_
      | refine fst_kept (by assumption) ?_ | assumption

theorem sendLaunch_kept {b s : State} (h : Kept b s) (x1) (x2) : Kept b (sendLaunch s x1 x2) := by
  unfold sendLaunch
  repeat' first
      | with_reducible assumption | intro _ | with_reducible apply ite_kept | with_reducible apply foldl_kept
      | with_reducible apply sendFrame_kept | with_reducible apply modTap_kept

theorem tapLaunchMiss_kept {b s : State} (h : Kept b s) (x1) (x2) (x3) : Kept b (tapLaunchMiss s x1 x2 x3) := by
  unfold tapLaunchMiss
  repeat' first
      | with_reducible assumption | intro _ | with_reducible apply ite_kept | with_reducible apply foldl_kept
      | with_reducible apply raise_kept

theorem launchUnsent_kept {b s : State} (h : Kept b s) (x1) (x2) : Kept b (launchUnsent s x1 x2) := by
  unfold launchUnsent
  repeat' first
      | with_reducible assumption | intro _ | with_reducible apply ite_kept | with_reducible apply modTsu_kept
      | with_reducible apply foldl_kept | with_reducible apply tapLaunchMiss_kept | split | dsimp only
      | with_reducible exact snd_kept (by assumption) (by assumption) | refine snd_kept (by assumption) ?_
      | refine fst_kept (by assumption) ?_ | assumption

theorem launchTap_kept {b s : State} (h : Kept b s) (x0) (x2) : Kept b (launchTap x0 s x2) := by
  unfold launchTap
  repeat' first
      | with_reducible assumption | intro _ | with_reducible apply ite_kept | with_reducible apply modTsu_kept
      | with_reducible apply foldl_kept | with_reducible apply sendLaunch_kept | with_reducible apply modTap_kept
      | with_reducible apply launchUnsent_kept | split | dsimp only | with_reducible exact snd_kept (by assumption) (by assumption)
      | refine snd_kept (by assumption) ?_ | refine fst_kept (by assumption) ?_ | assumption

theorem launchTaps_kept {b s : State} (h : Kept b s) (x1) : Kept b (launchTaps s x1) := by
  unfold launchTaps
  repeat' first
      | with_reducible assumption | intro _ | with_reducible apply ite_kept | with_reducible apply modTsu_kept
      | with_reducible apply foldl_kept | with_reducible apply launchTap_kept | split | dsimp only
      | with_reducible exact snd_kept (by assumption) (by assumption) | refine snd_kept (by assumption) ?_
      | refine fst_kept (by assumption) ?_ | assumption

theorem launchDue_kept {b s : State} (h : Kept b s) (x1) : Kept b (launchDue s x1) := by
  unfold launchDue
  repeat' first
      | with_reducible assumption | intro _ | with_reducible apply ite_kept | with_reducible apply foldl_kept
      | with_reducible apply tapLaunchMiss_kept

theorem cancelTaps_kept {b s : State} (h : Kept b s) : Kept b (cancelTaps s) := by
  unfold cancelTaps
  repeat' first
      | with_reducible assumption | intro _ | with_reducible apply ite_kept | with_reducible apply modTsu_kept
      | with_reducible apply foldl_kept | with_reducible apply sendFrame_kept | split | dsimp only
      | with_reducible exact snd_kept (by assumption) (by assumption) | refine snd_kept (by assumption) ?_
      | refine fst_kept (by assumption) ?_ | assumption

theorem tapCause_kept {b s : State} (h : Kept b s) (x1) (x2) : Kept b (tapCause s x1 x2) := by
  unfold tapCause
  repeat' first
      | with_reducible assumption | intro _ | with_reducible apply ite_kept | with_reducible apply modTsu_kept
      | with_reducible apply foldl_kept | with_reducible apply setCause_kept | split | dsimp only
      | with_reducible exact snd_kept (by assumption) (by assumption) | refine snd_kept (by assumption) ?_
      | refine fst_kept (by assumption) ?_ | assumption

theorem tapGlobalWrite_kept {b s : State} (h : Kept b s) (x0) (x1) : Kept b (tapGlobalWrite x0 x1 s).2 := by
  unfold tapGlobalWrite
  repeat' first
      | with_reducible assumption | intro _ | with_reducible apply ite_kept | with_reducible apply onPart_kept
      | with_reducible apply modTsu_kept | with_reducible apply foldl_kept | with_reducible apply refused_kept
      | with_reducible apply tapStrobe_kept | with_reducible apply accept_kept | with_reducible apply sendFrame_kept | split | dsimp only
      | with_reducible exact snd_kept (by assumption) (by assumption) | refine snd_kept (by assumption) ?_
      | refine fst_kept (by assumption) ?_ | assumption

theorem tapLossEvent_kept {b s : State} (h : Kept b s) (x1) (x2) (x3) : Kept b (tapLossEvent s x1 x2 x3) := by
  unfold tapLossEvent
  repeat' first
      | with_reducible assumption | intro _ | with_reducible apply ite_kept | with_reducible apply foldl_kept
      | with_reducible apply raise_kept

theorem noteLoss_kept {b s : State} (h : Kept b s) (x1) (x2) (x3) : Kept b (noteLoss s x1 x2 x3) := by
  unfold noteLoss
  repeat' first
      | with_reducible assumption | intro _ | with_reducible apply ite_kept | with_reducible apply foldl_kept
      | with_reducible apply modTap_kept

theorem releaseTapWrites_kept {b s : State} (h : Kept b s) (x1) : Kept b (releaseTapWrites s x1) := by
  unfold releaseTapWrites
  repeat' first
      | with_reducible assumption | intro _ | with_reducible apply ite_kept | with_reducible apply modTsu_kept
      | with_reducible apply foldl_kept | with_reducible apply answer_kept | split | dsimp only
      | with_reducible exact snd_kept (by assumption) (by assumption) | refine snd_kept (by assumption) ?_
      | refine fst_kept (by assumption) ?_ | assumption

theorem stretchOverrun_kept {b s : State} (h : Kept b s) (x1) (x2) (x3) : Kept b (stretchOverrun s x1 x2 x3) := by
  unfold stretchOverrun
  repeat' first
      | with_reducible assumption | intro _ | with_reducible apply ite_kept | with_reducible apply foldl_kept
      | with_reducible apply tapCause_kept | with_reducible apply raise_kept

theorem tapParked_kept {b s : State} (h : Kept b s) (x1) : Kept b (tapParked s x1) := by
  unfold tapParked
  repeat' first
      | with_reducible assumption | intro _ | with_reducible apply ite_kept | with_reducible apply foldl_kept
      | with_reducible apply modTap_kept | with_reducible apply releaseTapWrites_kept | split | dsimp only
      | with_reducible exact snd_kept (by assumption) (by assumption) | refine snd_kept (by assumption) ?_
      | refine fst_kept (by assumption) ?_ | assumption

theorem tapWrite_kept {b s : State} (h : Kept b s) (x0) (x1) (x2) (x3) : Kept b (tapWrite x0 x1 x2 x3 s) := by
  unfold tapWrite
  repeat' first
      | with_reducible assumption | intro _ | with_reducible apply ite_kept | with_reducible apply modTsu_kept
      | with_reducible apply foldl_kept | with_reducible apply answer_kept | with_reducible apply refuse_kept
      | with_reducible apply modTap_kept | with_reducible apply sendFrame_kept | split | dsimp only
      | with_reducible exact snd_kept (by assumption) (by assumption) | refine snd_kept (by assumption) ?_
      | refine fst_kept (by assumption) ?_ | assumption

theorem tapLaunchRead_kept {b s : State} (h : Kept b s) (x0) : Kept b (tapLaunchRead x0 s).2 := by
  unfold tapLaunchRead
  repeat' first
      | with_reducible assumption | intro _ | with_reducible apply ite_kept | with_reducible apply onPartRead_kept
      | with_reducible apply foldl_kept | with_reducible apply modIfaceRegs_kept

/-! ## Machine/Slots.lean -/

theorem tsuJobOk_kept {b s : State} (h : Kept b s) (x1) (x2) : Kept b (tsuJobOk s x1 x2).2 := by
  unfold tsuJobOk
  repeat' first
      | with_reducible assumption | intro _ | with_reducible apply ite_kept | with_reducible apply modTsu_kept
      | with_reducible apply foldl_kept | split | dsimp only | with_reducible exact snd_kept (by assumption) (by assumption)
      | refine snd_kept (by assumption) ?_ | refine fst_kept (by assumption) ?_ | assumption

theorem tsuNearStep_kept {b s : State} (h :
    Kept b s) (x1) (x2) (h2 : ∀ t, Kept b t → Kept b (x2 t)) :
    Kept b (tsuNearStep s x1 x2) := by
  unfold tsuNearStep
  repeat' first
      | with_reducible assumption | intro _ | with_reducible apply ite_kept | with_reducible apply h2
      | with_reducible apply foldl_kept | with_reducible apply countStepRefused_kept | split | dsimp only
      | with_reducible exact snd_kept (by assumption) (by assumption) | refine snd_kept (by assumption) ?_
      | refine fst_kept (by assumption) ?_ | assumption

theorem modSync_kept {b s : State} (h : Kept b s) (x1) : Kept b (modSync s x1) := by
  unfold modSync
  repeat' first
      | with_reducible assumption | intro _ | with_reducible apply ite_kept | with_reducible apply modTsu_kept
      | with_reducible apply foldl_kept | split | dsimp only | with_reducible exact snd_kept (by assumption) (by assumption)
      | refine snd_kept (by assumption) ?_ | refine fst_kept (by assumption) ?_ | assumption

theorem soCfgWrite_kept {b s : State} (h : Kept b s) (x0) (x1) : Kept b (soCfgWrite x0 x1 s).2 := by
  unfold soCfgWrite
  repeat' first
      | with_reducible assumption | intro _ | with_reducible apply ite_kept | with_reducible apply onPart_kept
      | with_reducible apply foldl_kept | with_reducible apply accept_kept | with_reducible apply modSlot_kept
      | with_reducible apply refused_kept | with_reducible apply modSlotRegs_kept | split | dsimp only

theorem slotArrive_kept {b s : State} (h : Kept b s) (x1) : Kept b (slotArrive s x1).2 := by
  unfold slotArrive
  repeat' first
      | with_reducible assumption | intro _ | with_reducible apply ite_kept | with_reducible apply foldl_kept
      | with_reducible apply modSlotRegs_kept | with_reducible apply accept_kept | with_reducible apply tsuSendUp_kept
      | with_reducible apply refused_kept | split | dsimp only

theorem setValue_kept {b s : State} (h : Kept b s) (x1) (x2) : Kept b (setValue s x1 x2) := by
  unfold setValue
  repeat' first
      | with_reducible assumption | intro _ | with_reducible apply ite_kept | with_reducible apply foldl_kept
      | with_reducible apply modSlotRegs_kept | with_reducible apply setCause_kept | with_reducible apply raise_kept

theorem slotAdd_kept {b s : State} (h : Kept b s) (x1) (x2) : Kept b (slotAdd s x1 x2).2 := by
  unfold slotAdd
  repeat' first
      | with_reducible assumption | intro _ | with_reducible apply ite_kept | with_reducible apply foldl_kept
      | with_reducible apply accept_kept | with_reducible apply setValue_kept | with_reducible apply refused_kept | split | dsimp only

theorem slotSet_kept {b s : State} (h : Kept b s) (x1) (x2) : Kept b (slotSet s x1 x2).2 := by
  unfold slotSet
  repeat' first
      | with_reducible assumption | intro _ | with_reducible apply ite_kept | with_reducible apply foldl_kept
      | with_reducible apply accept_kept | with_reducible apply setValue_kept | with_reducible apply modSlotRegs_kept
      | with_reducible apply refused_kept | split | dsimp only

theorem slotClear_kept {b s : State} (h : Kept b s) (x1) : Kept b (slotClear s x1).2 := by
  unfold slotClear
  repeat' first
      | with_reducible assumption | intro _ | with_reducible apply ite_kept | with_reducible apply foldl_kept
      | with_reducible apply accept_kept | with_reducible apply modSlotRegs_kept | with_reducible apply refused_kept | split | dsimp only

theorem openWindow_kept {b s : State} (h : Kept b s) (x1) (x2) (x3) : Kept b (openWindow s x1 x2 x3) := by
  unfold openWindow
  repeat' first
      | with_reducible assumption | intro _ | with_reducible apply ite_kept | with_reducible apply modTsu_kept
      | with_reducible apply foldl_kept | split | dsimp only | with_reducible exact snd_kept (by assumption) (by assumption)
      | refine snd_kept (by assumption) ?_ | refine fst_kept (by assumption) ?_ | assumption

theorem slotOpenWindow_kept {b s : State} (h : Kept b s) (x1) (x2) : Kept b (slotOpenWindow s x1 x2).2 := by
  unfold slotOpenWindow
  repeat' first
      | with_reducible assumption | intro _ | with_reducible apply ite_kept | with_reducible apply foldl_kept
      | with_reducible apply refused_kept | with_reducible apply accept_kept | with_reducible apply openWindow_kept | split

theorem issueSend_kept {b s : State} (h : Kept b s) (x1) (x2) : Kept b (issueSend s x1 x2) := by
  unfold issueSend
  split
  · next g =>
    have hk := modTsu_at h (fun t => { t with sends := t.sends ++ [x2] })
      ⟨h.2.1.1, by simp; omega, h.2.1.2.2⟩
    dsimp only
    split
    · exact answer_kept hk _ _
    · exact hk
  · exact modTsu_kept h _ fun _ ht => ht

theorem hostSend_kept {b s : State} (h : Kept b s) (x0) : Kept b (hostSend x0 s) := by
  unfold hostSend
  repeat' first
      | with_reducible assumption | intro _ | with_reducible apply ite_kept | with_reducible apply foldl_kept
      | with_reducible apply answer_kept | with_reducible apply refuse_kept | with_reducible apply issueSend_kept

theorem soOpWrite_kept {b s : State} (h : Kept b s) (x0) (x1) (x2) : Kept b (soOpWrite x0 x1 x2 s) := by
  unfold soOpWrite
  repeat' first
      | with_reducible assumption | intro _ | with_reducible apply ite_kept | with_reducible apply foldl_kept
      | with_reducible apply answer_kept | with_reducible apply slotArrive_kept | with_reducible apply slotAdd_kept
      | with_reducible apply slotSet_kept | with_reducible apply slotClear_kept | with_reducible apply hostSend_kept
      | with_reducible apply slotOpenWindow_kept | with_reducible apply refused_kept | split

theorem sendLeaves_kept {b s : State} (h : Kept b s) (x1) (x2) : Kept b (sendLeaves s x1 x2) := by
  unfold sendLeaves
  refine tsuSendUp_kept (modTsu_kept h _ ?_) _
  intro t ht
  exact ⟨ht.1, Nat.le_trans (List.eraseIdx_sublist ..).length_le ht.2.1, ht.2.2⟩

theorem waitTimeoutEv_kept {b s : State} (h : Kept b s) (x1) (x2) (x3) (x4) (x5) (x6) (x7) (x8) (x9) : Kept b (waitTimeoutEv
    s x1 x2 x3 x4 x5 x6 x7 x8 x9) := by
  unfold waitTimeoutEv
  repeat' first
      | with_reducible assumption | intro _ | with_reducible apply ite_kept | with_reducible apply foldl_kept
      | with_reducible apply raise_kept

theorem signalEffect_kept {b s : State} (h : Kept b s) (x1) : Kept b (signalEffect s x1) := by
  unfold signalEffect
  repeat' first
      | with_reducible assumption | intro _ | with_reducible apply ite_kept | with_reducible apply foldl_kept
      | with_reducible apply slotAdd_kept | split

theorem completeSlot_kept {b s : State} (h : Kept b s) (x1) : Kept b (completeSlot s x1) := by
  unfold completeSlot
  repeat' first
      | with_reducible assumption | intro _ | with_reducible apply ite_kept | with_reducible apply foldl_kept
      | with_reducible apply modSlot_kept

theorem releaseTake_kept {b s : State} (h : Kept b s) (x1) : Kept b (releaseTake s x1) := by
  unfold releaseTake
  repeat' first
      | with_reducible assumption | intro _ | with_reducible apply ite_kept | with_reducible apply foldl_kept
      | with_reducible apply refuse_kept | with_reducible apply schedWire_kept | with_reducible apply modSlot_kept
      | with_reducible apply tsuJobOk_kept | with_reducible apply tsuNearStep_kept | with_reducible apply modSync_kept
      | with_reducible apply completeSlot_kept | split | dsimp only
      | with_reducible exact snd_kept (by assumption) (by assumption) | refine snd_kept (by assumption) ?_
      | refine fst_kept (by assumption) ?_ | assumption

theorem timedComplete_kept {b s : State} (h : Kept b s) (x1) : Kept b (timedComplete s x1) := by
  unfold timedComplete
  repeat' first
      | with_reducible assumption | intro _ | with_reducible apply ite_kept | with_reducible apply foldl_kept
      | with_reducible apply completeSlot_kept | split

theorem modWait_kept {b s : State} (h : Kept b s) (x1) (x2) : Kept b (modWait s x1 x2) := by
  unfold modWait
  repeat' first
      | with_reducible assumption | intro _ | with_reducible apply ite_kept | with_reducible apply modTsu_kept
      | with_reducible apply foldl_kept | split | dsimp only | with_reducible exact snd_kept (by assumption) (by assumption)
      | refine snd_kept (by assumption) ?_ | refine fst_kept (by assumption) ?_ | assumption

theorem waitDone_kept {b s : State} (h : Kept b s) (x1) : Kept b (waitDone s x1) := by
  unfold waitDone
  repeat' first
      | with_reducible assumption | intro _ | with_reducible apply ite_kept | with_reducible apply foldl_kept
      | with_reducible apply modSlot_kept

theorem hostWaitComplete_kept {b s : State} (h : Kept b s) (x1) : Kept b (hostWaitComplete s x1) := by
  unfold hostWaitComplete
  repeat' first
      | with_reducible assumption | intro _ | with_reducible apply ite_kept | with_reducible apply foldl_kept
      | with_reducible apply setCause_kept | with_reducible apply waitDone_kept | with_reducible apply modWait_kept

theorem waitArmWrite_kept {b s : State} (h : Kept b s) (x0) (x1) : Kept b (waitArmWrite x0 x1 s).2 := by
  unfold waitArmWrite
  repeat' first
      | with_reducible assumption | intro _ | with_reducible apply ite_kept | with_reducible apply onPart_kept
      | with_reducible apply foldl_kept | with_reducible apply refused_kept | with_reducible apply modWait_kept
      | with_reducible apply accept_kept | with_reducible apply hostWaitComplete_kept | split | dsimp only

theorem slotTimeoutEv_kept {b s : State} (h : Kept b s) (x1) (x2) (x3) (x4) : Kept b (slotTimeoutEv s x1 x2 x3 x4) := by
  unfold slotTimeoutEv
  repeat' first
      | with_reducible assumption | intro _ | with_reducible apply ite_kept | with_reducible apply foldl_kept
      | with_reducible apply waitTimeoutEv_kept

theorem hostWaitTimeout_kept {b s : State} (h : Kept b s) (x1) : Kept b (hostWaitTimeout s x1) := by
  unfold hostWaitTimeout
  repeat' first
      | with_reducible assumption | intro _ | with_reducible apply ite_kept | with_reducible apply foldl_kept
      | with_reducible apply hostWaitComplete_kept | with_reducible apply setCause_kept | with_reducible apply modWait_kept
      | with_reducible apply slotTimeoutEv_kept

theorem soValWrite_kept {b s : State} (h : Kept b s) (x0) (x1) : Kept b (soValWrite x0 x1 s).2 := by
  unfold soValWrite
  repeat' first
      | with_reducible assumption | intro _ | with_reducible apply ite_kept | with_reducible apply onPart_kept
      | with_reducible apply foldl_kept | with_reducible apply accept_kept | with_reducible apply modSlotRegs_kept

theorem soGenWrite_kept {b s : State} (h : Kept b s) (x0) (x1) : Kept b (soGenWrite x0 x1 s).2 := by
  unfold soGenWrite
  repeat' first
      | with_reducible assumption | intro _ | with_reducible apply ite_kept | with_reducible apply onPart_kept
      | with_reducible apply foldl_kept | with_reducible apply accept_kept | with_reducible apply modSlotRegs_kept
      | with_reducible apply refused_kept | split

theorem winStateWrite_kept {b s : State} (h : Kept b s) (x0) (x1) : Kept b (winStateWrite x0 x1 s).2 := by
  unfold winStateWrite
  repeat' first
      | with_reducible assumption | intro _ | with_reducible apply ite_kept | with_reducible apply onPart_kept
      | with_reducible apply foldl_kept | with_reducible apply accept_kept | with_reducible apply openWindow_kept
      | with_reducible apply refused_kept | split

/-! ## Machine/TsuIo.lean -/

theorem addPulse_kept {b s : State} (h : Kept b s) (x1) (x2) (x3) : Kept b (addPulse s x1 x2 x3) := by
  unfold addPulse
  repeat' first
      | with_reducible assumption | intro _ | with_reducible apply ite_kept | with_reducible apply foldl_kept
      | with_reducible apply modTrig_kept

theorem dropPulse_kept {b s : State} (h : Kept b s) (x1) : Kept b (dropPulse s x1) := by
  unfold dropPulse
  repeat' first
      | with_reducible assumption | intro _ | with_reducible apply ite_kept | with_reducible apply foldl_kept
      | with_reducible apply modTrig_kept

theorem schedStepPulses_kept {b s : State} (h : Kept b s) (x1) (x2) : Kept b (schedStepPulses s x1 x2) := by
  unfold schedStepPulses
  repeat' first
      | with_reducible assumption | intro _ | with_reducible apply ite_kept | with_reducible apply foldl_kept
      | with_reducible apply schedTest_kept | with_reducible apply addPulse_kept | with_reducible apply dropPulse_kept | split
      | dsimp only | with_reducible exact snd_kept (by assumption) (by assumption) | refine snd_kept (by assumption) ?_

theorem dropStepPulses_kept {b s : State} (h : Kept b s) (x1) : Kept b (dropStepPulses s x1) := by
  unfold dropStepPulses
  repeat' first
      | with_reducible assumption | intro _ | with_reducible apply ite_kept | with_reducible apply modTsu_kept
      | with_reducible apply foldl_kept | split | dsimp only | with_reducible exact snd_kept (by assumption) (by assumption)
      | refine snd_kept (by assumption) ?_ | refine fst_kept (by assumption) ?_ | assumption

theorem startPulse_kept {b s : State} (h : Kept b s) (x1) (x2) : Kept b (startPulse s x1 x2) := by
  unfold startPulse
  repeat' first
      | with_reducible assumption | intro _ | with_reducible apply ite_kept | with_reducible apply emit_kept
      | with_reducible apply foldl_kept | with_reducible apply modTrig_kept

theorem startPend_kept {b s : State} (h : Kept b s) (x1) (x2) : Kept b (startPend s x1 x2) := by
  unfold startPend
  repeat' first
      | with_reducible assumption | intro _ | with_reducible apply ite_kept | with_reducible apply foldl_kept
      | with_reducible apply modTrig_kept | with_reducible apply startPulse_kept | split | dsimp only
      | with_reducible exact snd_kept (by assumption) (by assumption) | refine snd_kept (by assumption) ?_
      | refine fst_kept (by assumption) ?_ | assumption

theorem pulseStart_kept {b s : State} (h : Kept b s) (x1) : Kept b (pulseStart s x1) := by
  unfold pulseStart
  repeat' first
      | with_reducible assumption | intro _ | with_reducible apply ite_kept | with_reducible apply foldl_kept
      | with_reducible apply modTrig_kept | with_reducible apply startPulse_kept | with_reducible apply startPend_kept | split
      | dsimp only | with_reducible exact snd_kept (by assumption) (by assumption) | refine snd_kept (by assumption) ?_
      | refine fst_kept (by assumption) ?_ | assumption

theorem trigWrite_kept {b s : State} (h : Kept b s) (x0) (x1) (x2) : Kept b (trigWrite x0 x1 x2 s).2 := by
  unfold trigWrite
  repeat' first
      | with_reducible assumption | intro _ | with_reducible apply ite_kept | with_reducible apply onPart_kept
      | with_reducible apply foldl_kept | with_reducible apply refused_kept | with_reducible apply accept_kept
      | with_reducible apply modTrig_kept | split | dsimp only

theorem trigWidthWrite_kept {b s : State} (h : Kept b s) (x0) (x1) : Kept b (trigWidthWrite x0 x1 s).2 := by
  unfold trigWidthWrite
  repeat' first
      | with_reducible assumption | intro _ | with_reducible apply ite_kept | with_reducible apply onPart_kept
      | with_reducible apply foldl_kept | with_reducible apply refused_kept | with_reducible apply accept_kept
      | with_reducible apply modTrig_kept | split | dsimp only

theorem oneshotWrite_kept {b s : State} (h : Kept b s) (x0) (x1) : Kept b (oneshotWrite x0 x1 s).2 := by
  unfold oneshotWrite
  repeat' first
      | with_reducible assumption | intro _ | with_reducible apply ite_kept | with_reducible apply onPart_kept
      | with_reducible apply foldl_kept | with_reducible apply refused_kept | with_reducible apply schedTest_kept
      | with_reducible apply accept_kept | with_reducible apply addPulse_kept | with_reducible apply modTrig_kept | split | dsimp only
      | with_reducible exact snd_kept (by assumption) (by assumption) | refine snd_kept (by assumption) ?_

theorem trigCtrlWrite_kept {b s : State} (h : Kept b s) (x0) (x1) : Kept b (trigCtrlWrite x0 x1 s).2 := by
  unfold trigCtrlWrite
  repeat' first
      | with_reducible assumption | intro _ | with_reducible apply ite_kept | with_reducible apply onPart_kept
      | with_reducible apply modTsu_kept | with_reducible apply foldl_kept | with_reducible apply accept_kept
      | with_reducible apply modTrig_kept | split | dsimp only | with_reducible exact snd_kept (by assumption) (by assumption)
      | refine snd_kept (by assumption) ?_ | refine fst_kept (by assumption) ?_ | assumption

end

end Sys2Proof.Machine
end

