-- ==== Sys2Proof/Laws/KeptJobs.lean ====
section
/-! SUPPORT. What every operation keeps (`Kept`), for jobs, barriers, launches, the stock, the sequencers and the results: one lemma for each
operation, in the order of the model. -/

namespace Sys2Proof.Machine

section

set_option Elab.async false

/-! ## Machine/Jobs.lean -/

theorem modJob_kept {b s : State} (h : Kept b s) (x1) (x2) : Kept b (modJob s x1 x2) := by
  unfold modJob
  repeat' first
      | with_reducible assumption | intro _ | with_reducible apply ite_kept | with_reducible apply modHub_kept
      | with_reducible apply foldl_kept | split | dsimp only | with_reducible exact snd_kept (by assumption) (by assumption)
      | refine snd_kept (by assumption) ?_ | refine fst_kept (by assumption) ?_ | assumption
      | (refine Once.of_fields (by assumption) ?_ ?_ ?_ <;> rfl)

theorem endFlows_kept {b s : State} (h : Kept b s) (x1) : Kept b (endFlows s x1) := by
  unfold endFlows
  repeat' first
      | with_reducible assumption | intro _ | with_reducible apply ite_kept | with_reducible apply modHub_kept
      | with_reducible apply foldl_kept | split | dsimp only | with_reducible exact snd_kept (by assumption) (by assumption)
      | refine snd_kept (by assumption) ?_ | refine fst_kept (by assumption) ?_ | assumption
      | (refine Once.of_fields (by assumption) ?_ ?_ ?_ <;> rfl)

theorem sendHub_kept {b s : State} (h : Kept b s) (x1) (x2) (x3) : Kept b (sendHub s x1 x2 x3) := by
  unfold sendHub
  repeat' first
      | with_reducible assumption | intro _ | with_reducible apply ite_kept | with_reducible apply foldl_kept
      | with_reducible apply sendLink_kept | with_reducible apply noRoute_kept | with_reducible apply onRoute_kept | split
      | dsimp only | with_reducible exact snd_kept (by assumption) (by assumption) | refine snd_kept (by assumption) ?_
      | refine fst_kept (by assumption) ?_ | assumption

theorem sendEp_kept {b s : State} (h : Kept b s) (x1) (x2) (x3) : Kept b (sendEp s x1 x2 x3) := by
  unfold sendEp
  repeat' first
      | with_reducible assumption | intro _ | with_reducible apply ite_kept | with_reducible apply foldl_kept
      | with_reducible apply sendLink_kept | with_reducible apply noRoute_kept | with_reducible apply onRoute_kept | split
      | dsimp only | with_reducible exact snd_kept (by assumption) (by assumption) | refine snd_kept (by assumption) ?_
      | refine fst_kept (by assumption) ?_ | assumption

theorem takeRoutes_kept {b s : State} (h : Kept b s) (x1) : Kept b (takeRoutes s x1).2 := by
  unfold takeRoutes
  repeat' first
      | with_reducible assumption | intro _ | with_reducible apply ite_kept | with_reducible apply foldl_kept
      | with_reducible apply noRoute_kept | with_reducible apply onRoute_kept | split | dsimp only
      | with_reducible exact snd_kept (by assumption) (by assumption) | refine snd_kept (by assumption) ?_
      | refine fst_kept (by assumption) ?_ | assumption

theorem sendTargets_kept {b s : State} (h : Kept b s) (x1) (x2) (x3) (x4) : Kept b (sendTargets s x1 x2 x3 x4) := by
  unfold sendTargets
  repeat' first
      | with_reducible assumption | intro _ | with_reducible apply ite_kept | with_reducible apply foldl_kept
      | with_reducible apply sendLink_kept | with_reducible apply takeRoutes_kept | split | dsimp only
      | with_reducible exact snd_kept (by assumption) (by assumption) | refine snd_kept (by assumption) ?_
      | refine fst_kept (by assumption) ?_ | assumption

theorem ladle_kept {b s : State} (h : Kept b s) (x1) (x2) (x3) : Kept b (ladle s x1 x2 x3) := by
  unfold ladle
  repeat' first
      | with_reducible assumption | intro _ | with_reducible apply ite_kept | with_reducible apply modHub_kept
      | with_reducible apply foldl_kept | with_reducible apply refuse_kept | with_reducible apply sendLink_kept
      | with_reducible apply takeRoutes_kept | split | dsimp only | with_reducible exact snd_kept (by assumption) (by assumption)
      | refine snd_kept (by assumption) ?_ | refine fst_kept (by assumption) ?_ | assumption
      | (refine Once.of_fields (by assumption) ?_ ?_ ?_ <;> rfl)

theorem ladleObj_kept {b s : State} (h : Kept b s) (x1) (x2) (x3) : Kept b (ladleObj s x1 x2 x3) := by
  unfold ladleObj
  repeat' first
      | with_reducible assumption | intro _ | with_reducible apply ite_kept | with_reducible apply foldl_kept
      | with_reducible apply ladle_kept | split

theorem ladleAll_kept {b s : State} (h : Kept b s) (x1) (x2) : Kept b (ladleAll s x1 x2) := by
  unfold ladleAll
  repeat' first
      | with_reducible assumption | intro _ | with_reducible apply ite_kept | with_reducible apply foldl_kept
      | with_reducible apply ladleObj_kept

theorem bothPlanes_kept {b s : State} (h : Kept b s) (x1) (x2) : Kept b (bothPlanes s x1 x2) := by
  unfold bothPlanes
  repeat' first
      | with_reducible assumption | intro _ | with_reducible apply ite_kept | with_reducible apply foldl_kept
      | with_reducible apply sendTwin_kept | with_reducible apply ladleAll_kept

theorem dsnCheck_kept {b s : State} (h : Kept b s) (x1) (x2) : Kept b (dsnCheck s x1 x2).2 := by
  unfold dsnCheck
  repeat' first
      | with_reducible assumption | intro _ | with_reducible apply ite_kept | with_reducible apply modHub_kept
      | with_reducible apply foldl_kept | split | dsimp only | with_reducible exact snd_kept (by assumption) (by assumption)
      | refine snd_kept (by assumption) ?_ | refine fst_kept (by assumption) ?_ | assumption
      | (refine Once.of_fields (by assumption) ?_ ?_ ?_ <;> rfl)

theorem dsnAck_kept {b s : State} (h : Kept b s) (x1) (x2) (x3) : Kept b (dsnAck s x1 x2 x3) := by
  unfold dsnAck
  repeat' first
      | with_reducible assumption | intro _ | with_reducible apply ite_kept | with_reducible apply foldl_kept
      | with_reducible apply sendLink_kept | with_reducible apply mirror_kept | split

theorem onUp_kept {b s : State} (h : Kept b s) (x1) (x2) (x3) (x4) (x5)
    (hf : ∀ s, Kept b s → Kept b (x5 s)) : Kept b (onUp s x1 x2 x3 x4 x5) := by
  unfold onUp
  refine ite_kept (malformedFlit_kept (taken_kept h _ _) _) ?_
  have hd := dsnCheck_kept (taken_kept h x1 x4) x2 x3
  split
  · next s' e => rw [e] at hd; exact dsnAck_kept (hf _ hd) _ _ _
  · next s' e => rw [e] at hd; exact dsnAck_kept hd _ _ _

theorem hubSendUp_kept {b s : State} (h : Kept b s) (x1) (x2) : Kept b (hubSendUp s x1 x2) := by
  unfold hubSendUp
  repeat' first
      | with_reducible assumption | intro _ | with_reducible apply ite_kept | with_reducible apply modHub_kept
      | with_reducible apply foldl_kept | with_reducible apply mirror_kept | with_reducible apply sendLink_kept | split | dsimp only
      | with_reducible exact snd_kept (by assumption) (by assumption) | refine snd_kept (by assumption) ?_
      | refine fst_kept (by assumption) ?_ | assumption | (refine Once.of_fields (by assumption) ?_ ?_ ?_ <;> rfl)

theorem sendUp_kept {b s : State} (h : Kept b s) (x1) (x2) (x3) : Kept b (sendUp s x1 x2 x3) := by
  unfold sendUp
  repeat' first
      | with_reducible assumption | intro _ | with_reducible apply ite_kept | with_reducible apply foldl_kept
      | with_reducible apply sendLink_kept | with_reducible apply noRoute_kept | with_reducible apply onRoute_kept | split
      | dsimp only | with_reducible exact snd_kept (by assumption) (by assumption) | refine snd_kept (by assumption) ?_
      | refine fst_kept (by assumption) ?_ | assumption

theorem passUp_kept {b s : State} (h : Kept b s) (x1) (x2) (x3) : Kept b (passUp s x1 x2 x3) := by
  unfold passUp
  repeat' first
      | with_reducible assumption | intro _ | with_reducible apply ite_kept | with_reducible apply foldl_kept
      | with_reducible apply strand_kept | with_reducible apply onRoute_kept | with_reducible apply hubSendUp_kept | split
      | dsimp only | with_reducible exact snd_kept (by assumption) (by assumption) | refine snd_kept (by assumption) ?_
      | refine fst_kept (by assumption) ?_ | assumption

theorem foldUp_kept {b s : State} (h : Kept b s) (x1) (x2) (x3) : Kept b (foldUp s x1 x2 x3) := by
  unfold foldUp
  repeat' first
      | with_reducible assumption | intro _ | with_reducible apply ite_kept | with_reducible apply modHub_kept
      | with_reducible apply foldl_kept | with_reducible apply modLink_kept | with_reducible apply hubSendUp_kept | split | dsimp only
      | with_reducible exact snd_kept (by assumption) (by assumption) | refine snd_kept (by assumption) ?_
      | refine fst_kept (by assumption) ?_ | assumption | (refine Once.of_fields (by assumption) ?_ ?_ ?_ <;> rfl)

theorem foldTwin_kept {b s : State} (h : Kept b s) (x1) (x2) (x3) : Kept b (foldTwin s x1 x2 x3) := by
  unfold foldTwin
  repeat' first
      | with_reducible assumption | intro _ | with_reducible apply ite_kept | with_reducible apply foldl_kept
      | with_reducible apply modLink_kept | with_reducible apply sendLink_kept | with_reducible apply onRoute_kept | split
      | dsimp only | with_reducible exact snd_kept (by assumption) (by assumption) | refine snd_kept (by assumption) ?_
      | refine fst_kept (by assumption) ?_ | assumption

theorem foldOn_kept {b s : State} (h : Kept b s) (x1) (x2) (x3) (x4) : Kept b (foldOn s x1 x2 x3 x4) := by
  unfold foldOn
  repeat' first
      | with_reducible assumption | intro _ | with_reducible apply ite_kept | with_reducible apply foldl_kept
      | with_reducible apply strand_kept | with_reducible apply onRoute_kept | with_reducible apply foldUp_kept | split
      | dsimp only | with_reducible exact snd_kept (by assumption) (by assumption) | refine snd_kept (by assumption) ?_
      | refine fst_kept (by assumption) ?_ | assumption

theorem signalOn_kept {b s : State} (h : Kept b s) (x1) (x2) (x3) : Kept b (signalOn s x1 x2 x3) := by
  unfold signalOn
  repeat' first
      | with_reducible assumption | intro _ | with_reducible apply ite_kept | with_reducible apply foldl_kept
      | with_reducible apply refuse_kept | with_reducible apply sendLink_kept | with_reducible apply strand_kept
      | with_reducible apply onRoute_kept | with_reducible apply hubSendUp_kept | split | dsimp only
      | with_reducible exact snd_kept (by assumption) (by assumption) | refine snd_kept (by assumption) ?_
      | refine fst_kept (by assumption) ?_ | assumption

theorem unstrandOne_kept {b s : State} (h : Kept b s) (x1) : Kept b (unstrandOne s x1) := by
  unfold unstrandOne
  repeat' first
      | with_reducible assumption | intro _ | with_reducible apply ite_kept | with_reducible apply foldl_kept
      | with_reducible apply passUp_kept | with_reducible apply signalOn_kept | split | dsimp only
      | with_reducible exact snd_kept (by assumption) (by assumption) | refine snd_kept (by assumption) ?_
      | refine fst_kept (by assumption) ?_ | assumption

theorem unstrand_kept {b s : State} (h : Kept b s) : Kept b (unstrand s) := by
  unfold unstrand
  repeat' first
      | with_reducible assumption | intro _ | with_reducible apply ite_kept | with_reducible apply modHub_kept
      | with_reducible apply foldl_kept | with_reducible apply unstrandOne_kept | split | dsimp only
      | with_reducible exact snd_kept (by assumption) (by assumption) | refine snd_kept (by assumption) ?_
      | refine fst_kept (by assumption) ?_ | assumption | (refine Once.of_fields (by assumption) ?_ ?_ ?_ <;> rfl)

theorem hubJobOk_kept {b s : State} (h : Kept b s) (x1) (x2) (x3) : Kept b (hubJobOk s x1 x2 x3).2 := by
  unfold hubJobOk
  repeat' first
      | with_reducible assumption | intro _ | with_reducible apply ite_kept | with_reducible apply modHub_kept
      | with_reducible apply foldl_kept | with_reducible apply refuse_kept | split | dsimp only
      | with_reducible exact snd_kept (by assumption) (by assumption) | refine snd_kept (by assumption) ?_
      | refine fst_kept (by assumption) ?_ | assumption | (refine Once.of_fields (by assumption) ?_ ?_ ?_ <;> rfl)

theorem dropOld_kept {b s : State} (h :
    Kept b s) (x1) (x2) (x3) (h3 : ∀ t, Kept b t → Kept b (x3 t)) :
    Kept b (dropOld s x1 x2 x3) := by
  unfold dropOld
  repeat' first
      | with_reducible assumption | intro _ | with_reducible apply ite_kept | with_reducible apply h3
      | with_reducible apply foldl_kept | with_reducible apply refuse_kept | split | dsimp only
      | with_reducible exact snd_kept (by assumption) (by assumption) | refine snd_kept (by assumption) ?_
      | refine fst_kept (by assumption) ?_ | assumption

theorem nearStep_kept {b s : State} (h :
    Kept b s) (x1) (x2) (x3) (h3 : ∀ t, Kept b t → Kept b (x3 t)) :
    Kept b (nearStep s x1 x2 x3) := by
  unfold nearStep
  repeat' first
      | with_reducible assumption | intro _ | with_reducible apply ite_kept | with_reducible apply h3
      | with_reducible apply foldl_kept | with_reducible apply countStepRefused_kept | split | dsimp only
      | with_reducible exact snd_kept (by assumption) (by assumption) | refine snd_kept (by assumption) ?_
      | refine fst_kept (by assumption) ?_ | assumption

theorem ifValid_kept {b s : State} (h : Kept b s) (x0) (x1) (h1 : ∀ t, Kept b t → Kept b (x1 t)) : Kept b (ifValid x0 x1 s) := by
  unfold ifValid
  repeat' first
      | with_reducible assumption | intro _ | with_reducible apply ite_kept | with_reducible apply h1
      | with_reducible apply foldl_kept | with_reducible apply countNotValid_kept | with_reducible apply sendLink_kept | split
      | dsimp only | with_reducible exact snd_kept (by assumption) (by assumption) | refine snd_kept (by assumption) ?_
      | refine fst_kept (by assumption) ?_ | assumption

theorem refuseXlat_kept {b s : State} (h : Kept b s) (x1) : Kept b (refuseXlat s x1) := by
  unfold refuseXlat
  repeat' first
      | with_reducible assumption | intro _ | with_reducible apply ite_kept | with_reducible apply foldl_kept
      | with_reducible apply modJob_kept | with_reducible apply refuse_kept

theorem atEdge_kept {b s : State} (h :
    Kept b s) (x1) (x2) (x3) (x4) (h4 : ∀ t, Kept b t → Kept b (x4 t)) :
    Kept b (atEdge s x1 x2 x3 x4) := by
  unfold atEdge
  repeat' first
      | with_reducible assumption | intro _ | with_reducible apply ite_kept | with_reducible apply h4
      | with_reducible apply foldl_kept | with_reducible apply refuseXlat_kept | split | dsimp only
      | with_reducible exact snd_kept (by assumption) (by assumption) | refine snd_kept (by assumption) ?_
      | refine fst_kept (by assumption) ?_ | assumption

theorem modSynch_kept {b s : State} (h : Kept b s) (x1) : Kept b (modSynch s x1) := by
  unfold modSynch
  repeat' first
      | with_reducible assumption | intro _ | with_reducible apply ite_kept | with_reducible apply modHub_kept
      | with_reducible apply foldl_kept | split | dsimp only | with_reducible exact snd_kept (by assumption) (by assumption)
      | refine snd_kept (by assumption) ?_ | refine fst_kept (by assumption) ?_ | assumption
      | (refine Once.of_fields (by assumption) ?_ ?_ ?_ <;> rfl)

theorem rejectFenced_kept {b s : State} (h : Kept b s) (x1) (x2) : Kept b (rejectFenced s x1 x2) := by
  unfold rejectFenced
  repeat' first
      | with_reducible assumption | intro _ | with_reducible apply ite_kept | with_reducible apply foldl_kept
      | with_reducible apply modSynch_kept | with_reducible apply raise_kept

/-! ## Machine/Audit.lean -/

theorem udpSend_kept {b s : State} (h : Kept b s) (x1) (x2) (x3) : Kept b (udpSend s x1 x2 x3) := by
  unfold udpSend
  repeat' first
      | with_reducible assumption | intro _ | with_reducible apply ite_kept | with_reducible apply emit_kept
      | with_reducible apply modHub_kept | with_reducible apply foldl_kept | split | dsimp only
      | with_reducible exact snd_kept (by assumption) (by assumption) | refine snd_kept (by assumption) ?_
      | refine fst_kept (by assumption) ?_ | assumption | (refine Once.of_fields (by assumption) ?_ ?_ ?_ <;> rfl)

theorem audLevel_kept {b s : State} (h : Kept b s) : Kept b (audLevel s) := by
  unfold audLevel
  repeat' first
      | with_reducible assumption | intro _ | with_reducible apply ite_kept | with_reducible apply foldl_kept
      | with_reducible apply setCause_kept | with_reducible apply audit_kept | split | dsimp only
      | with_reducible exact snd_kept (by assumption) (by assumption) | refine snd_kept (by assumption) ?_
      | refine fst_kept (by assumption) ?_ | assumption

theorem audAdvance_kept {b s : State} (h : Kept b s) (x1) (x2) : Kept b (audAdvance s x1 x2) := by
  unfold audAdvance
  repeat' first
      | with_reducible assumption | intro _ | with_reducible apply ite_kept | with_reducible apply foldl_kept
      | with_reducible apply mirror_kept | with_reducible apply modJob_kept

theorem audPut_kept {b s : State} (h : Kept b s) (x1) (x2) : Kept b (audPut s x1 x2) := by
  unfold audPut
  repeat' first
      | with_reducible assumption | intro _ | with_reducible apply ite_kept | with_reducible apply modHub_kept
      | with_reducible apply foldl_kept | with_reducible apply setCause_kept | with_reducible apply audLevel_kept
      | with_reducible apply audAdvance_kept | with_reducible apply audit_kept | split | dsimp only
      | with_reducible exact snd_kept (by assumption) (by assumption) | refine snd_kept (by assumption) ?_
      | refine fst_kept (by assumption) ?_ | assumption | (refine Once.of_fields (by assumption) ?_ ?_ ?_ <;> rfl)

theorem audDrop_kept {b s : State} (h : Kept b s) (x1) (x2) : Kept b (audDrop s x1 x2) := by
  unfold audDrop
  repeat' first
      | with_reducible assumption | intro _ | with_reducible apply ite_kept | with_reducible apply modHub_kept
      | with_reducible apply foldl_kept | with_reducible apply setCause_kept | with_reducible apply modJob_kept
      | with_reducible apply audAdvance_kept | with_reducible apply audit_kept | split | dsimp only
      | with_reducible exact snd_kept (by assumption) (by assumption) | refine snd_kept (by assumption) ?_
      | refine fst_kept (by assumption) ?_ | assumption | (refine Once.of_fields (by assumption) ?_ ?_ ?_ <;> rfl)

theorem audGap_kept {b s : State} (h : Kept b s) (x1) : Kept b (audGap s x1) := by
  unfold audGap
  repeat' first
      | with_reducible assumption | intro _ | with_reducible apply ite_kept | with_reducible apply foldl_kept
      | with_reducible apply audPut_kept | with_reducible apply modJob_kept | split

theorem audFlush_kept {b s : State} (h : Kept b s) : Kept b (audFlush s) := by
  unfold audFlush
  repeat' first
      | with_reducible assumption | intro _ | with_reducible apply ite_kept | with_reducible apply foldl_kept
      | with_reducible apply audGap_kept

theorem audit_kept {b s : State} (h : Kept b s) (x1) (x2) : Kept b (audit s x1 x2) := by
  unfold audit
  repeat' first
      | with_reducible assumption | intro _ | with_reducible apply ite_kept | with_reducible apply foldl_kept
      | with_reducible apply audGap_kept | with_reducible apply audPut_kept | with_reducible apply audDrop_kept

theorem audTailWrite_kept {b s : State} (h : Kept b s) (x0) (x1) : Kept b (audTailWrite x0 x1 s).2 := by
  unfold audTailWrite
  repeat' first
      | with_reducible assumption | intro _ | with_reducible apply ite_kept | with_reducible apply modHub_kept
      | with_reducible apply onPart_kept | with_reducible apply foldl_kept | with_reducible apply accept_kept
      | with_reducible apply refused_kept | with_reducible apply audFlush_kept | with_reducible apply audit_kept | split
      | dsimp only | with_reducible exact snd_kept (by assumption) (by assumption) | refine snd_kept (by assumption) ?_
      | refine fst_kept (by assumption) ?_ | assumption | (refine Once.of_fields (by assumption) ?_ ?_ ?_ <;> rfl)

theorem audCfgWrite_kept {b s : State} (h : Kept b s) (x0) (x1) : Kept b (audCfgWrite x0 x1 s).2 := by
  unfold audCfgWrite
  repeat' first
      | with_reducible assumption | intro _ | with_reducible apply ite_kept | with_reducible apply modHub_kept
      | with_reducible apply onPart_kept | with_reducible apply foldl_kept | with_reducible apply accept_kept
      | with_reducible apply refused_kept | with_reducible apply audit_kept | split | dsimp only
      | with_reducible exact snd_kept (by assumption) (by assumption) | refine snd_kept (by assumption) ?_
      | refine fst_kept (by assumption) ?_ | assumption | (refine Once.of_fields (by assumption) ?_ ?_ ?_ <;> rfl)

theorem audCtrlWrite_kept {b s : State} (h : Kept b s) (x0) (x1) : Kept b (audCtrlWrite x0 x1 s).2 := by
  unfold audCtrlWrite
  repeat' first
      | with_reducible assumption | intro _ | with_reducible apply ite_kept | with_reducible apply onPart_kept
      | with_reducible apply modHub_kept | with_reducible apply foldl_kept | with_reducible apply accept_kept
      | with_reducible apply audFlush_kept | split | dsimp only | with_reducible exact snd_kept (by assumption) (by assumption)
      | refine snd_kept (by assumption) ?_ | refine fst_kept (by assumption) ?_ | assumption
      | (refine Once.of_fields (by assumption) ?_ ?_ ?_ <;> rfl)

theorem audRd0Read_kept {b s : State} (h : Kept b s) (x0) : Kept b (audRd0Read x0 s).2 := by
  unfold audRd0Read
  repeat' first
      | with_reducible assumption | intro _ | with_reducible apply ite_kept | with_reducible apply onPartRead_kept
      | with_reducible apply foldl_kept | with_reducible apply modIface_kept | with_reducible apply refuse_kept
      | with_reducible apply audit_kept | split | dsimp only | with_reducible exact snd_kept (by assumption) (by assumption)
      | refine snd_kept (by assumption) ?_ | refine fst_kept (by assumption) ?_ | assumption

theorem rlAppend_kept {b s : State} (h : Kept b s) (x1) : Kept b (rlAppend s x1) := by
  unfold rlAppend
  repeat' first
      | with_reducible assumption | intro _ | with_reducible apply ite_kept | with_reducible apply modHub_kept
      | with_reducible apply foldl_kept | with_reducible apply setCause_kept | split | dsimp only
      | with_reducible exact snd_kept (by assumption) (by assumption) | refine snd_kept (by assumption) ?_
      | refine fst_kept (by assumption) ?_ | assumption | (refine Once.of_fields (by assumption) ?_ ?_ ?_ <;> rfl)

theorem vrecTake_kept {b s : State} (h : Kept b s) (x0) : Kept b (vrecTake x0 s) := by
  unfold vrecTake
  repeat' first
      | with_reducible assumption | intro _ | with_reducible apply ite_kept | with_reducible apply foldl_kept
      | with_reducible apply refuse_kept | with_reducible apply countPast_kept | with_reducible apply countStepRefused_kept
      | with_reducible apply mirror_kept | with_reducible apply hubJobOk_kept | with_reducible apply dropOld_kept
      | with_reducible apply rlAppend_kept | split | dsimp only | with_reducible exact snd_kept (by assumption) (by assumption)
      | refine snd_kept (by assumption) ?_ | refine fst_kept (by assumption) ?_ | assumption

theorem rlTailWrite_kept {b s : State} (h : Kept b s) (x0) (x1) : Kept b (rlTailWrite x0 x1 s).2 := by
  unfold rlTailWrite
  repeat' first
      | with_reducible assumption | intro _ | with_reducible apply ite_kept | with_reducible apply onPart_kept
      | with_reducible apply modHub_kept | with_reducible apply foldl_kept | with_reducible apply refused_kept
      | with_reducible apply accept_kept | split | dsimp only | with_reducible exact snd_kept (by assumption) (by assumption)
      | refine snd_kept (by assumption) ?_ | refine fst_kept (by assumption) ?_ | assumption
      | (refine Once.of_fields (by assumption) ?_ ?_ ?_ <;> rfl)

theorem rlCfgWrite_kept {b s : State} (h : Kept b s) (x0) (x1) : Kept b (rlCfgWrite x0 x1 s).2 := by
  unfold rlCfgWrite
  repeat' first
      | with_reducible assumption | intro _ | with_reducible apply ite_kept | with_reducible apply onPart_kept
      | with_reducible apply modHub_kept | with_reducible apply foldl_kept | with_reducible apply refused_kept
      | with_reducible apply accept_kept | split | dsimp only | with_reducible exact snd_kept (by assumption) (by assumption)
      | refine snd_kept (by assumption) ?_ | refine fst_kept (by assumption) ?_ | assumption
      | (refine Once.of_fields (by assumption) ?_ ?_ ?_ <;> rfl)

theorem rlRd0Read_kept {b s : State} (h : Kept b s) (x0) : Kept b (rlRd0Read x0 s).2 := by
  unfold rlRd0Read
  repeat' first
      | with_reducible assumption | intro _ | with_reducible apply ite_kept | with_reducible apply onPartRead_kept
      | with_reducible apply foldl_kept | with_reducible apply modIface_kept | with_reducible apply refuse_kept | split | dsimp only

/-! ## Machine/Abort.lean -/

theorem stepRecord_kept {b s : State} (h : Kept b s) (x1) (x2) (x3) : Kept b (stepRecord s x1 x2 x3) := by
  unfold stepRecord
  repeat' first
      | with_reducible assumption | intro _ | with_reducible apply ite_kept | with_reducible apply foldl_kept
      | with_reducible apply audit_kept | with_reducible apply modJob_kept

theorem incompleteRecord_kept {b s : State} (h : Kept b s) (x1) : Kept b (incompleteRecord s x1) := by
  unfold incompleteRecord
  repeat' first
      | with_reducible assumption | intro _ | with_reducible apply ite_kept | with_reducible apply foldl_kept
      | with_reducible apply stepRecord_kept

theorem cancelLaunch_kept {b s : State} (h : Kept b s) : Kept b (cancelLaunch s) := by
  unfold cancelLaunch
  repeat' first
      | with_reducible assumption | intro _ | with_reducible apply ite_kept | with_reducible apply modTsu_kept
      | with_reducible apply foldl_kept | with_reducible apply dropStepPulses_kept | with_reducible apply cancelTaps_kept | split
      | dsimp only | with_reducible exact snd_kept (by assumption) (by assumption) | refine snd_kept (by assumption) ?_
      | refine fst_kept (by assumption) ?_ | assumption

theorem abortWaits_kept {b s : State} (h : Kept b s) : Kept b (abortWaits s) := by
  unfold abortWaits
  repeat' first
      | with_reducible assumption | intro _ | with_reducible apply ite_kept | with_reducible apply foldl_kept
      | with_reducible apply setCause_kept | with_reducible apply modWait_kept

theorem discardSends_kept {b s : State} (h : Kept b s)   : Kept b (discardSends s) := by
  unfold discardSends
  refine foldl_kept (fun s x hs => ?_) (modTsu_kept h _ fun _ ht => ⟨ht.1, Nat.zero_le _, ht.2.2⟩)
  split
  · exact answer_kept hs _ _
  · exact hs

theorem tsuAbort_kept {b s : State} (h : Kept b s)   : Kept b (tsuAbort s) := by
  unfold tsuAbort
  refine setCause_kept (modTsu_kept (discardSends_kept (abortWaits_kept (cancelLaunch_kept h))) _ fun _ ht => ?_) _ _ _
  exact ⟨ht.1, ht.2.1, ht.2.2.1, ht.2.2.2.1, Nat.le_trans (List.length_filter_le _ _) ht.2.2.2.2.1, ht.2.2.2.2.2⟩

theorem hubAbort_kept {b s : State} (h : Kept b s) (x1) : Kept b (hubAbort s x1) := by
  unfold hubAbort
  repeat' first
      | with_reducible assumption | intro _ | with_reducible apply ite_kept | with_reducible apply modHub_kept
      | with_reducible apply foldl_kept | with_reducible apply modJob_kept | split | dsimp only
      | with_reducible exact snd_kept (by assumption) (by assumption) | refine snd_kept (by assumption) ?_
      | refine fst_kept (by assumption) ?_ | assumption | (refine Once.of_fields (by assumption) ?_ ?_ ?_ <;> rfl)

theorem forwardDown_kept {b s : State} (h : Kept b s) (x1) (x2) (x3) : Kept b (forwardDown s x1 x2 x3) := by
  unfold forwardDown
  repeat' first
      | with_reducible assumption | intro _ | with_reducible apply ite_kept | with_reducible apply foldl_kept
      | with_reducible apply sendLink_kept | with_reducible apply takeRoutes_kept | split | dsimp only
      | with_reducible exact snd_kept (by assumption) (by assumption) | refine snd_kept (by assumption) ?_
      | refine fst_kept (by assumption) ?_ | assumption

theorem modTxn_kept {b s : State} (h : Kept b s) (x1) (x2) : Kept b (modTxn s x1 x2) := by
  unfold modTxn
  repeat' first
      | with_reducible assumption | intro _ | with_reducible apply ite_kept | with_reducible apply modHub_kept
      | with_reducible apply foldl_kept | split | dsimp only | with_reducible exact snd_kept (by assumption) (by assumption)
      | refine snd_kept (by assumption) ?_ | refine fst_kept (by assumption) ?_ | assumption
      | (refine Once.of_fields (by assumption) ?_ ?_ ?_ <;> rfl)

theorem modTxnRegs_kept {b s : State} (h : Kept b s) (x1) : Kept b (modTxnRegs s x1) := by
  unfold modTxnRegs
  repeat' first
      | with_reducible assumption | intro _ | with_reducible apply ite_kept | with_reducible apply modHub_kept
      | with_reducible apply foldl_kept | split | dsimp only | with_reducible exact snd_kept (by assumption) (by assumption)
      | refine snd_kept (by assumption) ?_ | refine fst_kept (by assumption) ?_ | assumption
      | (refine Once.of_fields (by assumption) ?_ ?_ ?_ <;> rfl)

theorem mirrorTxn_kept {b s : State} (h : Kept b s) (x1) (x2) : Kept b (mirrorTxn s x1 x2) := by
  unfold mirrorTxn
  repeat' first
      | with_reducible assumption | intro _ | with_reducible apply ite_kept | with_reducible apply foldl_kept
      | with_reducible apply mirror_kept

theorem finishTxn_kept {b s : State} (h : Kept b s) (x1) : Kept b (finishTxn s x1) := by
  unfold finishTxn
  refine foldl_kept (fun s x hs => modTxn_kept hs _ _) (mirrorTxn_kept (modHub_kept h _ fun _ ht => ?_) _ _)
  exact ⟨ht.1, Nat.le_trans (List.length_erase_le) ht.2.1, ht.2.2⟩

theorem txnAbortEv_kept {b s : State} (h : Kept b s) (x1) (x2) (x3) (x4) (x5) (x6) (x7) (x8) : Kept b (txnAbortEv s x1 x2 x3
    x4 x5 x6 x7 x8) := by
  unfold txnAbortEv
  repeat' first
      | with_reducible assumption | intro _ | with_reducible apply ite_kept | with_reducible apply foldl_kept
      | with_reducible apply raise_kept

theorem setStaged_kept {b s : State} (h : Kept b s) (x1) (x2) (x3) : Kept b (setStaged s x1 x2 x3) := by
  unfold setStaged
  repeat' first
      | with_reducible assumption | intro _ | with_reducible apply ite_kept | with_reducible apply modHub_kept
      | with_reducible apply modTsu_kept | with_reducible apply foldl_kept | split | dsimp only
      | with_reducible exact snd_kept (by assumption) (by assumption) | refine snd_kept (by assumption) ?_
      | refine fst_kept (by assumption) ?_ | assumption | (refine Once.of_fields (by assumption) ?_ ?_ ?_ <;> rfl)

theorem unstage_kept {b s : State} (h : Kept b s) (x1) (x2) (x3) (x4) : Kept b (unstage s x1 x2 x3 x4) := by
  unfold unstage
  repeat' first
      | with_reducible assumption | intro _ | with_reducible apply ite_kept | with_reducible apply foldl_kept
      | with_reducible apply setStaged_kept | split

theorem txnAbort_kept {b s : State} (h : Kept b s) (x1) (x2) (x3) : Kept b (txnAbort s x1 x2 x3) := by
  unfold txnAbort
  repeat' first
      | with_reducible assumption | intro _ | with_reducible apply ite_kept | with_reducible apply foldl_kept
      | with_reducible apply unstage_kept | with_reducible apply sendTargets_kept | with_reducible apply modTxn_kept
      | with_reducible apply txnAbortEv_kept | with_reducible apply finishTxn_kept | with_reducible apply setCause_kept

theorem abortJob_kept {b s : State} (h : Kept b s) (x1) (x2) : Kept b (abortJob s x1 x2) := by
  unfold abortJob
  repeat' first
      | with_reducible assumption | intro _ | with_reducible apply ite_kept | with_reducible apply foldl_kept
      | with_reducible apply txnAbortEv_kept | with_reducible apply setCause_kept | with_reducible apply sendTwin_kept
      | with_reducible apply forwardDown_kept | with_reducible apply hubAbort_kept | with_reducible apply incompleteRecord_kept
      | with_reducible apply modJob_kept | with_reducible apply txnAbort_kept

theorem poison_kept {b s : State} (h : Kept b s) (x1) (x2) (x3) (x4) : Kept b (poison s x1 x2 x3 x4) := by
  unfold poison
  repeat' first
      | with_reducible assumption | intro _ | with_reducible apply ite_kept | with_reducible apply foldl_kept
      | with_reducible apply raise_kept | with_reducible apply bothPlanes_kept | with_reducible apply audit_kept
      | with_reducible apply abortJob_kept

theorem jobAbortTake_kept {b s : State} (h : Kept b s) (x0) (x1) : Kept b (jobAbortTake x0 x1 s) := by
  unfold jobAbortTake
  repeat' first
      | with_reducible assumption | intro _ | with_reducible apply ite_kept | with_reducible apply modTsu_kept
      | with_reducible apply foldl_kept | with_reducible apply tsuSend_kept | with_reducible apply tsuAbort_kept
      | with_reducible apply abortJob_kept | with_reducible apply sendHub_kept | with_reducible apply hubAbort_kept
      | with_reducible apply forwardDown_kept | split | dsimp only | with_reducible exact snd_kept (by assumption) (by assumption)
      | refine snd_kept (by assumption) ?_ | refine fst_kept (by assumption) ?_ | assumption

theorem abortAckTake_kept {b s : State} (h : Kept b s) (x0) (x1) : Kept b (abortAckTake x0 x1 s) := by
  unfold abortAckTake
  repeat' first
      | with_reducible assumption | intro _ | with_reducible apply ite_kept | with_reducible apply foldl_kept
      | with_reducible apply modJob_kept | with_reducible apply sendHub_kept | split | dsimp only
      | with_reducible exact snd_kept (by assumption) (by assumption) | refine snd_kept (by assumption) ?_
      | refine fst_kept (by assumption) ?_ | assumption

theorem abortCmdWrite_kept {b s : State} (h : Kept b s) (x0) (x1) : Kept b (abortCmdWrite x0 x1 s).2 := by
  unfold abortCmdWrite
  repeat' first
      | with_reducible assumption | intro _ | with_reducible apply ite_kept | with_reducible apply onPart_kept
      | with_reducible apply foldl_kept | with_reducible apply modTxnRegs_kept | with_reducible apply accept_kept
      | with_reducible apply abortJob_kept | with_reducible apply sendHub_kept | with_reducible apply refused_kept | split | dsimp only

theorem tsuReport_kept {b s : State} (h : Kept b s) (x1) (x2) : Kept b (tsuReport s x1 x2) := by
  unfold tsuReport
  repeat' first
      | with_reducible assumption | intro _ | with_reducible apply ite_kept | with_reducible apply foldl_kept
      | with_reducible apply tsuSend_kept

theorem launchMiss_kept {b s : State} (h : Kept b s) (x1) (x2) (x3) : Kept b (launchMiss s x1 x2 x3) := by
  unfold launchMiss
  repeat' first
      | with_reducible assumption | intro _ | with_reducible apply ite_kept | with_reducible apply modTsu_kept
      | with_reducible apply foldl_kept | with_reducible apply raise_kept | with_reducible apply tsuReport_kept
      | with_reducible apply setCause_kept | split | dsimp only | with_reducible exact snd_kept (by assumption) (by assumption)
      | refine snd_kept (by assumption) ?_ | refine fst_kept (by assumption) ?_ | assumption

theorem reportTake_kept {b s : State} (h : Kept b s) (x0) : Kept b (reportTake x0 s) := by
  unfold reportTake
  repeat' first
      | with_reducible assumption | intro _ | with_reducible apply ite_kept | with_reducible apply foldl_kept
      | with_reducible apply setCause_kept | with_reducible apply sendTwin_kept | with_reducible apply modJob_kept
      | with_reducible apply sendUp_kept | with_reducible apply abortJob_kept | split | dsimp only
      | with_reducible exact snd_kept (by assumption) (by assumption) | refine snd_kept (by assumption) ?_
      | refine fst_kept (by assumption) ?_ | assumption

/-! ## Machine/Envelope.lean -/

theorem computeEnv_kept {b s : State} (h : Kept b s) (x1) : Kept b (computeEnv s x1) := by
  unfold computeEnv
  repeat' first
      | with_reducible assumption | intro _ | with_reducible apply ite_kept | with_reducible apply foldl_kept
      | with_reducible apply modJob_kept | with_reducible apply mirror_kept

theorem envChange_kept {b s : State} (h : Kept b s) (x1) : Kept b (envChange s x1) := by
  unfold envChange
  repeat' first
      | with_reducible assumption | intro _ | with_reducible apply ite_kept | with_reducible apply foldl_kept
      | with_reducible apply computeEnv_kept | with_reducible apply modJob_kept

theorem envEvent_kept {b s : State} (h : Kept b s) (x1) (x2) (x3) (x4) (x5) (x6) : Kept b (envEvent s x1 x2 x3 x4 x5 x6) := by
  unfold envEvent
  repeat' first
      | with_reducible assumption | intro _ | with_reducible apply ite_kept | with_reducible apply foldl_kept
      | with_reducible apply raise_kept | with_reducible apply modJob_kept | with_reducible apply setCause_kept

theorem envLaunch_kept {b s : State} (h : Kept b s) (x1) (x2) : Kept b (envLaunch s x1 x2) := by
  unfold envLaunch
  repeat' first
      | with_reducible assumption | intro _ | with_reducible apply ite_kept | with_reducible apply foldl_kept
      | with_reducible apply modJob_kept | with_reducible apply envEvent_kept

/-! ## Machine/Barriers.lean -/

theorem modLate_kept {b s : State} (h : Kept b s) (x1) (x2) (x3) : Kept b (modLate s x1 x2 x3) := by
  unfold modLate
  repeat' first
      | with_reducible assumption | intro _ | with_reducible apply ite_kept | with_reducible apply foldl_kept
      | with_reducible apply modJob_kept

theorem lateBlockEnd_kept {b s : State} (h : Kept b s) (x1) (x2) : Kept b (lateBlockEnd s x1 x2) := by
  unfold lateBlockEnd
  repeat' first
      | with_reducible assumption | intro _ | with_reducible apply ite_kept | with_reducible apply foldl_kept
      | with_reducible apply modLate_kept | with_reducible apply raise_kept

theorem lateSample_kept {b s : State} (h : Kept b s) (x1) (x2) (x3) (x4) : Kept b (lateSample s x1 x2 x3 x4) := by
  unfold lateSample
  repeat' first
      | with_reducible assumption | intro _ | with_reducible apply ite_kept | with_reducible apply foldl_kept
      | with_reducible apply lateBlockEnd_kept | with_reducible apply modLate_kept

theorem lateArrive_kept {b s : State} (h : Kept b s) (x1) (x2) (x3) (x4) : Kept b (lateArrive s x1 x2 x3 x4) := by
  unfold lateArrive
  repeat' first
      | with_reducible assumption | intro _ | with_reducible apply ite_kept | with_reducible apply modHub_kept
      | with_reducible apply foldl_kept | with_reducible apply mirror_kept | with_reducible apply lateSample_kept | split | dsimp only
      | with_reducible exact snd_kept (by assumption) (by assumption) | refine snd_kept (by assumption) ?_
      | refine fst_kept (by assumption) ?_ | assumption | (refine Once.of_fields (by assumption) ?_ ?_ ?_ <;> rfl)

theorem ltCfgWrite_kept {b s : State} (h : Kept b s) (x0) (x1) : Kept b (ltCfgWrite x0 x1 s).2 := by
  unfold ltCfgWrite
  repeat' first
      | with_reducible assumption | intro _ | with_reducible apply ite_kept | with_reducible apply onPart_kept
      | with_reducible apply foldl_kept | with_reducible apply refused_kept | with_reducible apply accept_kept
      | with_reducible apply modLate_kept | split | dsimp only

theorem ltMeanRead_kept {b s : State} (h : Kept b s) (x0) : Kept b (ltMeanRead x0 s).2 := by
  unfold ltMeanRead
  repeat' first
      | with_reducible assumption | intro _ | with_reducible apply ite_kept | with_reducible apply onPartRead_kept
      | with_reducible apply foldl_kept | with_reducible apply modIfaceRegs_kept

theorem mirrorCadence_kept {b s : State} (h : Kept b s) (x1) : Kept b (mirrorCadence s x1) := by
  unfold mirrorCadence
  repeat' first
      | with_reducible assumption | intro _ | with_reducible apply ite_kept | with_reducible apply foldl_kept
      | with_reducible apply mirror_kept

theorem pauseFollow_kept {b s : State} (h : Kept b s) (x1) : Kept b (pauseFollow s x1) := by
  unfold pauseFollow
  repeat' first
      | with_reducible assumption | intro _ | with_reducible apply ite_kept | with_reducible apply foldl_kept
      | with_reducible apply modJob_kept | split | dsimp only | with_reducible exact snd_kept (by assumption) (by assumption)
      | refine snd_kept (by assumption) ?_ | refine fst_kept (by assumption) ?_ | assumption

theorem stepEnds_kept {b s : State} (h : Kept b s) (x1) : Kept b (stepEnds s x1) := by
  unfold stepEnds
  repeat' first
      | with_reducible assumption | intro _ | with_reducible apply ite_kept | with_reducible apply foldl_kept
      | with_reducible apply setCause_kept | with_reducible apply schedTest_kept | with_reducible apply modJob_kept
      | with_reducible apply bothPlanes_kept | with_reducible apply mirrorCadence_kept | split | dsimp only
      | with_reducible exact snd_kept (by assumption) (by assumption) | refine snd_kept (by assumption) ?_
      | refine fst_kept (by assumption) ?_ | assumption

theorem modBarrier_kept {b s : State} (h : Kept b s) (x1) (x2) (x3) : Kept b (modBarrier s x1 x2 x3) := by
  unfold modBarrier
  repeat' first
      | with_reducible assumption | intro _ | with_reducible apply ite_kept | with_reducible apply foldl_kept
      | with_reducible apply modJob_kept

theorem mirrorBarrier_kept {b s : State} (h : Kept b s) (x1) (x2) : Kept b (mirrorBarrier s x1 x2) := by
  unfold mirrorBarrier
  repeat' first
      | with_reducible assumption | intro _ | with_reducible apply ite_kept | with_reducible apply foldl_kept
      | with_reducible apply mirror_kept | split

theorem seeRelease_kept {b s : State} (h : Kept b s) (x1) (x2) (x3) : Kept b (seeRelease s x1 x2 x3) := by
  unfold seeRelease
  repeat' first
      | with_reducible assumption | intro _ | with_reducible apply ite_kept | with_reducible apply foldl_kept
      | with_reducible apply modJob_kept | split | dsimp only | with_reducible exact snd_kept (by assumption) (by assumption)
      | refine snd_kept (by assumption) ?_ | refine fst_kept (by assumption) ?_ | assumption

theorem releaseTick_kept {b s : State} (h : Kept b s) (x1) (x2) : Kept b (releaseTick s x1 x2).2 := by
  unfold releaseTick
  repeat' first
      | with_reducible assumption | intro _ | with_reducible apply ite_kept | with_reducible apply foldl_kept
      | with_reducible apply schedTest_kept | split | dsimp only | with_reducible exact snd_kept (by assumption) (by assumption)
      | refine snd_kept (by assumption) ?_ | refine fst_kept (by assumption) ?_ | assumption

theorem releaseBarrier_kept {b s : State} (h : Kept b s) (x1) (x2) : Kept b (releaseBarrier s x1 x2) := by
  unfold releaseBarrier
  repeat' first
      | with_reducible assumption | intro _ | with_reducible apply ite_kept | with_reducible apply foldl_kept
      | with_reducible apply sendTwin_kept | with_reducible apply ladleObj_kept | with_reducible apply stepEnds_kept
      | with_reducible apply modBarrier_kept | with_reducible apply seeRelease_kept | with_reducible apply releaseTick_kept
      | split | dsimp only | with_reducible exact snd_kept (by assumption) (by assumption) | refine snd_kept (by assumption) ?_
      | refine fst_kept (by assumption) ?_ | assumption

theorem barrierFold_kept {b s : State} (h : Kept b s) (x0) : Kept b (barrierFold x0 s) := by
  unfold barrierFold
  repeat' first
      | with_reducible assumption | intro _ | with_reducible apply ite_kept | with_reducible apply foldl_kept
      | with_reducible apply modSynch_kept | with_reducible apply hubJobOk_kept | with_reducible apply setCause_kept
      | with_reducible apply mirrorBarrier_kept | with_reducible apply modBarrier_kept | with_reducible apply releaseBarrier_kept | split
      | dsimp only | with_reducible exact snd_kept (by assumption) (by assumption) | refine snd_kept (by assumption) ?_

theorem arriveOn_kept {b s : State} (h : Kept b s) (x0) : Kept b (arriveOn x0 s) := by
  unfold arriveOn
  repeat' first
      | with_reducible assumption | intro _ | with_reducible apply ite_kept | with_reducible apply foldl_kept
      | with_reducible apply foldTwin_kept | with_reducible apply foldOn_kept | with_reducible apply barrierFold_kept | split
      | dsimp only | with_reducible exact snd_kept (by assumption) (by assumption) | refine snd_kept (by assumption) ?_
      | refine fst_kept (by assumption) ?_ | assumption

theorem detectArrive_kept {b s : State} (h : Kept b s) (x1) (x2) : Kept b (detectArrive s x1 x2) := by
  unfold detectArrive
  repeat' first
      | with_reducible assumption | intro _ | with_reducible apply ite_kept | with_reducible apply foldl_kept
      | with_reducible apply modJob_kept

theorem arriveLeaf_kept {b s : State} (h : Kept b s) (x0) (x1) : Kept b (arriveLeaf x0 x1 s) := by
  unfold arriveLeaf
  repeat' first
      | with_reducible assumption | intro _ | with_reducible apply ite_kept | with_reducible apply foldl_kept
      | with_reducible apply mirror_kept | with_reducible apply modJob_kept | with_reducible apply hubJobOk_kept
      | with_reducible apply dropOld_kept | with_reducible apply modSynch_kept | with_reducible apply rejectFenced_kept
      | with_reducible apply lateArrive_kept | with_reducible apply arriveOn_kept | with_reducible apply detectArrive_kept | split
      | dsimp only | with_reducible exact snd_kept (by assumption) (by assumption) | refine snd_kept (by assumption) ?_
      | refine fst_kept (by assumption) ?_ | assumption

theorem staleRelease_kept {b s : State} (h : Kept b s) (x1) : Kept b (staleRelease s x1) := by
  unfold staleRelease
  repeat' first
      | with_reducible assumption | intro _ | with_reducible apply ite_kept | with_reducible apply foldl_kept
      | with_reducible apply dropOld_kept | with_reducible apply modSynch_kept | split | dsimp only
      | with_reducible exact snd_kept (by assumption) (by assumption) | refine snd_kept (by assumption) ?_
      | refine fst_kept (by assumption) ?_ | assumption

theorem twinRelease_kept {b s : State} (h : Kept b s) (x0) : Kept b (twinRelease x0 s) := by
  unfold twinRelease
  repeat' first
      | with_reducible assumption | intro _ | with_reducible apply ite_kept | with_reducible apply foldl_kept
      | with_reducible apply ladleObj_kept | with_reducible apply hubJobOk_kept | with_reducible apply modBarrier_kept
      | with_reducible apply seeRelease_kept | with_reducible apply staleRelease_kept | split | dsimp only
      | with_reducible exact snd_kept (by assumption) (by assumption) | refine snd_kept (by assumption) ?_
      | refine fst_kept (by assumption) ?_ | assumption

theorem releaseOn_kept {b s : State} (h :
    Kept b s) (x0) (x1) (x2) (h2 : ∀ t, Kept b t → Kept b (x2 t)) :
    Kept b (releaseOn x0 x1 x2 s) := by
  unfold releaseOn
  repeat' first
      | with_reducible assumption | intro _ | with_reducible apply ite_kept | with_reducible apply h2
      | with_reducible apply foldl_kept | with_reducible apply nearStep_kept | with_reducible apply ifValid_kept | split
      | dsimp only | with_reducible exact snd_kept (by assumption) (by assumption) | refine snd_kept (by assumption) ?_
      | refine fst_kept (by assumption) ?_ | assumption

theorem twinLaunch_kept {b s : State} (h : Kept b s) (x1) (x2) (x3) : Kept b (twinLaunch s x1 x2 x3) := by
  unfold twinLaunch
  repeat' first
      | with_reducible assumption | intro _ | with_reducible apply ite_kept | with_reducible apply foldl_kept
      | with_reducible apply schedTest_kept | with_reducible apply modJob_kept | split | dsimp only
      | with_reducible exact snd_kept (by assumption) (by assumption) | refine snd_kept (by assumption) ?_
      | refine fst_kept (by assumption) ?_ | assumption

theorem stepReleaseDown_kept {b s : State} (h : Kept b s) (x0) (x1) : Kept b (stepReleaseDown x0 x1 s) := by
  unfold stepReleaseDown
  repeat' first
      | with_reducible assumption | intro _ | with_reducible apply ite_kept | with_reducible apply foldl_kept
      | with_reducible apply countPast_kept | with_reducible apply countStepRefused_kept | with_reducible apply shadowStep_kept
      | with_reducible apply modJob_kept | with_reducible apply ladleAll_kept | with_reducible apply twinLaunch_kept | split
      | dsimp only | with_reducible exact snd_kept (by assumption) (by assumption) | refine snd_kept (by assumption) ?_
      | refine fst_kept (by assumption) ?_ | assumption

theorem ifCurrent_kept {b s : State} (h :
    Kept b s) (x0) (x1) (x2) (x3) (x4) (h4 : ∀ t, Kept b t → Kept b (x4 t)) :
    Kept b (ifCurrent x0 x1 x2 x3 x4 s) := by
  unfold ifCurrent
  repeat' first
      | with_reducible assumption | intro _ | with_reducible apply ite_kept | with_reducible apply h4
      | with_reducible apply foldl_kept | with_reducible apply refuse_kept | with_reducible apply hubJobOk_kept
      | with_reducible apply dropOld_kept | with_reducible apply nearStep_kept | split | dsimp only
      | with_reducible exact snd_kept (by assumption) (by assumption) | refine snd_kept (by assumption) ?_
      | refine fst_kept (by assumption) ?_ | assumption

theorem sendRank_kept {b s : State} (h : Kept b s) (x1) (x2) (x3) : Kept b (sendRank s x1 x2 x3) := by
  unfold sendRank
  repeat' first
      | with_reducible assumption | intro _ | with_reducible apply ite_kept | with_reducible apply foldl_kept
      | with_reducible apply sendEp_kept | with_reducible apply refuseXlat_kept | split | dsimp only
      | with_reducible exact snd_kept (by assumption) (by assumption) | refine snd_kept (by assumption) ?_
      | refine fst_kept (by assumption) ?_ | assumption

theorem poisonOn_kept {b s : State} (h : Kept b s) (x0) (x1) : Kept b (poisonOn x0 x1 s) := by
  unfold poisonOn
  repeat' first
      | with_reducible assumption | intro _ | with_reducible apply ite_kept | with_reducible apply foldl_kept
      | with_reducible apply sendTwin_kept | with_reducible apply sendHub_kept | with_reducible apply ladleAll_kept
      | with_reducible apply poison_kept | split | dsimp only | with_reducible exact snd_kept (by assumption) (by assumption)
      | refine snd_kept (by assumption) ?_ | refine fst_kept (by assumption) ?_ | assumption

theorem downOn_kept {b s : State} (h : Kept b s) (x0) (x1) : Kept b (downOn x0 x1 s) := by
  unfold downOn
  repeat' first
      | with_reducible assumption | intro _ | with_reducible apply ite_kept | with_reducible apply foldl_kept
      | with_reducible apply refuse_kept | with_reducible apply modJob_kept | with_reducible apply ladleObj_kept
      | with_reducible apply ladleAll_kept | with_reducible apply hubJobOk_kept | with_reducible apply dropOld_kept
      | with_reducible apply ifValid_kept | with_reducible apply pauseFollow_kept | with_reducible apply seeRelease_kept
      | with_reducible apply staleRelease_kept | with_reducible apply twinRelease_kept | with_reducible apply releaseOn_kept
      | with_reducible apply stepReleaseDown_kept | with_reducible apply ifCurrent_kept | with_reducible apply sendRank_kept
      | with_reducible apply poisonOn_kept | split | dsimp only | with_reducible exact snd_kept (by assumption) (by assumption)
      | refine snd_kept (by assumption) ?_ | refine fst_kept (by assumption) ?_ | assumption

theorem shGenWrite_kept {b s : State} (h : Kept b s) (x0) (x1) : Kept b (shGenWrite x0 x1 s).2 := by
  unfold shGenWrite
  repeat' first
      | with_reducible assumption | intro _ | with_reducible apply ite_kept | with_reducible apply onPart_kept
      | with_reducible apply foldl_kept | with_reducible apply accept_kept | with_reducible apply modBarrier_kept
      | with_reducible apply refused_kept | split | dsimp only

theorem shCountWrite_kept {b s : State} (h : Kept b s) (x0) (x1) : Kept b (shCountWrite x0 x1 s).2 := by
  unfold shCountWrite
  repeat' first
      | with_reducible assumption | intro _ | with_reducible apply ite_kept | with_reducible apply onPart_kept
      | with_reducible apply foldl_kept | with_reducible apply accept_kept | with_reducible apply modBarrier_kept
      | with_reducible apply refused_kept | split | dsimp only

theorem shJobWrite_kept {b s : State} (h : Kept b s) (x0) (x1) : Kept b (shJobWrite x0 x1 s).2 := by
  unfold shJobWrite
  repeat' first
      | with_reducible assumption | intro _ | with_reducible apply ite_kept | with_reducible apply onPart_kept
      | with_reducible apply foldl_kept | with_reducible apply accept_kept | with_reducible apply mirrorCadence_kept
      | with_reducible apply modJob_kept | with_reducible apply refused_kept | split | dsimp only

/-! ## Machine/Launch.lean -/

theorem modSeq_kept {b s : State} (h : Kept b s) (x1) (x2) : Kept b (modSeq s x1 x2) := by
  unfold modSeq
  repeat' first
      | with_reducible assumption | intro _ | with_reducible apply ite_kept | with_reducible apply modTsu_kept
      | with_reducible apply foldl_kept | with_reducible apply modJob_kept | split | dsimp only
      | with_reducible exact snd_kept (by assumption) (by assumption) | refine snd_kept (by assumption) ?_
      | refine fst_kept (by assumption) ?_ | assumption

theorem modSeqRegs_kept {b s : State} (h : Kept b s) (x1) (x2) : Kept b (modSeqRegs s x1 x2) := by
  unfold modSeqRegs
  repeat' first
      | with_reducible assumption | intro _ | with_reducible apply ite_kept | with_reducible apply foldl_kept
      | with_reducible apply modSeq_kept

theorem seqCause_kept {b s : State} (h : Kept b s) (x1) (x2) : Kept b (seqCause s x1 x2) := by
  unfold seqCause
  repeat' first
      | with_reducible assumption | intro _ | with_reducible apply ite_kept | with_reducible apply foldl_kept
      | with_reducible apply setCause_kept

theorem halt_kept {b s : State} (h : Kept b s) (x1) (x2) (x3) : Kept b (halt s x1 x2 x3) := by
  unfold halt
  repeat' first
      | with_reducible assumption | intro _ | with_reducible apply ite_kept | with_reducible apply foldl_kept
      | with_reducible apply seqCause_kept | with_reducible apply modSeq_kept | with_reducible apply tsuReport_kept
      | with_reducible apply abortJob_kept | split

theorem freeStore_kept {b s : State} (h : Kept b s) : Kept b (freeStore s) := by
  unfold freeStore
  repeat' first
      | with_reducible assumption | intro _ | with_reducible apply ite_kept | with_reducible apply modTsu_kept
      | with_reducible apply foldl_kept | with_reducible apply returnCredit_kept | split | dsimp only
      | with_reducible exact snd_kept (by assumption) (by assumption) | refine snd_kept (by assumption) ?_
      | refine fst_kept (by assumption) ?_ | assumption

theorem tsuPass_kept {b s : State} (h : Kept b s) (x1) (x2) : Kept b (tsuPass s x1 x2) := by
  unfold tsuPass
  repeat' first
      | with_reducible assumption | intro _ | with_reducible apply ite_kept | with_reducible apply modTsu_kept
      | with_reducible apply foldl_kept | split | dsimp only | with_reducible exact snd_kept (by assumption) (by assumption)
      | refine snd_kept (by assumption) ?_ | refine fst_kept (by assumption) ?_ | assumption

theorem launchStep_kept {b s : State} (h : Kept b s) (x1) : Kept b (launchStep s x1) := by
  unfold launchStep
  repeat' first
      | with_reducible assumption | intro _ | with_reducible apply ite_kept | with_reducible apply modTsu_kept
      | with_reducible apply foldl_kept | with_reducible apply freeStore_kept | with_reducible apply launchDue_kept
      | with_reducible apply setCause_kept | with_reducible apply tsuPass_kept | with_reducible apply modSeqRegs_kept
      | with_reducible apply seqCause_kept | with_reducible apply halt_kept | split | dsimp only
      | with_reducible exact snd_kept (by assumption) (by assumption) | refine snd_kept (by assumption) ?_
      | refine fst_kept (by assumption) ?_ | assumption

theorem holdLaunch_kept {b s : State} (h : Kept b s) (x1) : Kept b (holdLaunch s x1) := by
  unfold holdLaunch
  repeat' first
      | with_reducible assumption | intro _ | with_reducible apply ite_kept | with_reducible apply modTsu_kept
      | with_reducible apply foldl_kept | with_reducible apply schedStepPulses_kept | with_reducible apply launchTaps_kept | split
      | dsimp only | with_reducible exact snd_kept (by assumption) (by assumption) | refine snd_kept (by assumption) ?_
      | refine fst_kept (by assumption) ?_ | assumption

theorem relFirst_kept {b s : State} (h : Kept b s) (x0) (x1) : Kept b (relFirst x0 x1 s) := by
  unfold relFirst
  repeat' first
      | with_reducible assumption | intro _ | with_reducible apply ite_kept | with_reducible apply modTsu_kept
      | with_reducible apply foldl_kept | with_reducible apply schedWire_kept | with_reducible apply holdLaunch_kept
      | with_reducible apply launchMiss_kept | split | dsimp only | with_reducible exact snd_kept (by assumption) (by assumption)
      | refine snd_kept (by assumption) ?_ | refine fst_kept (by assumption) ?_ | assumption

theorem relSecond_kept {b s : State} (h : Kept b s) (x0) (x1) (x2) : Kept b (relSecond x0 x1 x2 s) := by
  unfold relSecond
  repeat' first
      | with_reducible assumption | intro _ | with_reducible apply ite_kept | with_reducible apply modTsu_kept
      | with_reducible apply foldl_kept | with_reducible apply launchMiss_kept | with_reducible apply dropStepPulses_kept
      | with_reducible apply cancelTaps_kept | split | dsimp only | with_reducible exact snd_kept (by assumption) (by assumption)
      | refine snd_kept (by assumption) ?_ | refine fst_kept (by assumption) ?_ | assumption

theorem stepReleaseTake_kept {b s : State} (h : Kept b s) (x0) : Kept b (stepReleaseTake x0 s) := by
  unfold stepReleaseTake
  repeat' first
      | with_reducible assumption | intro _ | with_reducible apply ite_kept | with_reducible apply modTsu_kept
      | with_reducible apply foldl_kept | with_reducible apply refuse_kept | with_reducible apply countStepRefused_kept
      | with_reducible apply tsuJobOk_kept | with_reducible apply relFirst_kept | with_reducible apply relSecond_kept | split
      | dsimp only | with_reducible exact snd_kept (by assumption) (by assumption) | refine snd_kept (by assumption) ?_
      | refine fst_kept (by assumption) ?_ | assumption

theorem homePass_kept {b s : State} (h : Kept b s) (x1) (x2) (x3) : Kept b (homePass s x1 x2 x3) := by
  unfold homePass
  repeat' first
      | with_reducible assumption | intro _ | with_reducible apply ite_kept | with_reducible apply foldl_kept
      | with_reducible apply modJob_kept | with_reducible apply seqCause_kept | with_reducible apply modSeqRegs_kept
      | with_reducible apply halt_kept | split

theorem homeLaunch_kept {b s : State} (h : Kept b s) (x1) (x2) : Kept b (homeLaunch s x1 x2) := by
  unfold homeLaunch
  repeat' first
      | with_reducible assumption | intro _ | with_reducible apply ite_kept | with_reducible apply foldl_kept
      | with_reducible apply refused_kept | with_reducible apply modJob_kept | with_reducible apply envLaunch_kept
      | with_reducible apply homePass_kept | split | dsimp only | with_reducible exact snd_kept (by assumption) (by assumption)
      | refine snd_kept (by assumption) ?_ | refine fst_kept (by assumption) ?_ | assumption

/-! ## Machine/Prog.lean -/

theorem progRefused_kept {b s : State} (h : Kept b s) (x1) : Kept b (progRefused s x1).2 := by
  unfold progRefused
  repeat' first
      | with_reducible assumption | intro _ | with_reducible apply ite_kept | with_reducible apply foldl_kept
      | with_reducible apply refused_kept

theorem progCtrlWrite_kept {b s : State} (h : Kept b s) (x0) (x1) : Kept b (progCtrlWrite x0 x1 s).2 := by
  unfold progCtrlWrite
  repeat' first
      | with_reducible assumption | intro _ | with_reducible apply ite_kept | with_reducible apply foldl_kept
      | with_reducible apply progRefused_kept | with_reducible apply accept_kept | with_reducible apply modSeq_kept
      | with_reducible apply modSeqRegs_kept | split | dsimp only

theorem progDataWrite_kept {b s : State} (h : Kept b s) (x0) (x1) : Kept b (progDataWrite x0 x1 s).2 := by
  unfold progDataWrite
  repeat' first
      | with_reducible assumption | intro _ | with_reducible apply ite_kept | with_reducible apply foldl_kept
      | with_reducible apply progRefused_kept | with_reducible apply modSeq_kept | with_reducible apply accept_kept | split | dsimp only

theorem progDataRead_kept {b s : State} (h : Kept b s) (x0) : Kept b (progDataRead x0 s).2 := by
  unfold progDataRead
  repeat' first
      | with_reducible assumption | intro _ | with_reducible apply ite_kept | with_reducible apply foldl_kept
      | with_reducible apply modSeqRegs_kept | split | dsimp only

theorem progAddrWrite_kept {b s : State} (h : Kept b s) (x0) (x1) : Kept b (progAddrWrite x0 x1 s).2 := by
  unfold progAddrWrite
  repeat' first
      | with_reducible assumption | intro _ | with_reducible apply ite_kept | with_reducible apply foldl_kept
      | with_reducible apply progRefused_kept | with_reducible apply accept_kept | with_reducible apply modSeqRegs_kept | split
      | dsimp only

/-! ## Machine/Checks.lean -/

theorem residueEv_kept {b s : State} (h : Kept b s) (x1) (x2) (x3) (x4) (x5) (x6) (x7) (x8) : Kept b (residueEv s x1 x2 x3 x4
    x5 x6 x7 x8) := by
  unfold residueEv
  repeat' first
      | with_reducible assumption | intro _ | with_reducible apply ite_kept | with_reducible apply foldl_kept
      | with_reducible apply raise_kept

theorem unresolved_kept {b s : State} (h : Kept b s) (x1) (x2) (x3) (x4) (x5) : Kept b (unresolved s x1 x2 x3 x4 x5) := by
  unfold unresolved
  repeat' first
      | with_reducible assumption | intro _ | with_reducible apply ite_kept | with_reducible apply modHub_kept
      | with_reducible apply foldl_kept | with_reducible apply setCause_kept | with_reducible apply residueEv_kept
      | with_reducible apply poison_kept | with_reducible apply sendTwin_kept | with_reducible apply sendHub_kept | split | dsimp only
      | with_reducible exact snd_kept (by assumption) (by assumption) | refine snd_kept (by assumption) ?_
      | refine fst_kept (by assumption) ?_ | assumption | (refine Once.of_fields (by assumption) ?_ ?_ ?_ <;> rfl)

theorem foldFault_kept {b s : State} (h : Kept b s) (x0) (x1) (x2) (x4) : Kept b (foldFault x0 x1 x2 s x4) := by
  unfold foldFault
  repeat' first
      | with_reducible assumption | intro _ | with_reducible apply ite_kept | with_reducible apply modHub_kept
      | with_reducible apply foldl_kept | with_reducible apply chargeUnit_kept | with_reducible apply residueEv_kept
      | with_reducible apply unresolved_kept | split | dsimp only | with_reducible exact snd_kept (by assumption) (by assumption)
      | refine snd_kept (by assumption) ?_ | refine fst_kept (by assumption) ?_ | assumption
      | (refine Once.of_fields (by assumption) ?_ ?_ ?_ <;> rfl)

theorem foldFaults_kept {b s : State} (h : Kept b s) (x1) (x2) (x3) (x4) : Kept b (foldFaults s x1 x2 x3 x4) := by
  unfold foldFaults
  repeat' first
      | with_reducible assumption | intro _ | with_reducible apply ite_kept | with_reducible apply foldl_kept
      | with_reducible apply foldFault_kept

/-! ## Machine/Reduce.lean -/

theorem modCtx_kept {b s : State} (h : Kept b s) (x1) (x2) (x3) : Kept b (modCtx s x1 x2 x3) := by
  unfold modCtx
  repeat' first
      | with_reducible assumption | intro _ | with_reducible apply ite_kept | with_reducible apply foldl_kept
      | with_reducible apply modJob_kept

theorem modCtxRegs_kept {b s : State} (h : Kept b s) (x1) (x2) (x3) : Kept b (modCtxRegs s x1 x2 x3) := by
  unfold modCtxRegs
  repeat' first
      | with_reducible assumption | intro _ | with_reducible apply ite_kept | with_reducible apply foldl_kept
      | with_reducible apply modCtx_kept

theorem openBuf_kept {b s : State} (h : Kept b s) (x1) (x2) (x3) : Kept b (openBuf s x1 x2 x3).2 := by
  unfold openBuf
  repeat' first
      | with_reducible assumption | intro _ | with_reducible apply ite_kept | with_reducible apply modHub_kept
      | with_reducible apply foldl_kept | with_reducible apply modCtx_kept | with_reducible apply setCause_kept | split | dsimp only
      | with_reducible exact snd_kept (by assumption) (by assumption) | refine snd_kept (by assumption) ?_
      | refine fst_kept (by assumption) ?_ | assumption | (refine Once.of_fields (by assumption) ?_ ?_ ?_ <;> rfl)

theorem refuseContrib_kept {b s : State} (h : Kept b s) (x1) (x2) (x3) (x4) (x5) (x6) : Kept b (refuseContrib s x1 x2 x3 x4
    x5 x6) := by
  unfold refuseContrib
  repeat' first
      | with_reducible assumption | intro _ | with_reducible apply ite_kept | with_reducible apply foldl_kept
      | with_reducible apply refuse_kept | with_reducible apply setCause_kept | with_reducible apply refused_kept
      | with_reducible apply raise_kept | with_reducible apply modJob_kept | with_reducible apply sendEp_kept
      | with_reducible apply modCtxRegs_kept | split | dsimp only | with_reducible exact snd_kept (by assumption) (by assumption)
      | refine snd_kept (by assumption) ?_ | refine fst_kept (by assumption) ?_ | assumption

theorem excess_kept {b s : State} (h : Kept b s) (x1) (x2) (x3) : Kept b (excess s x1 x2 x3) := by
  unfold excess
  repeat' first
      | with_reducible assumption | intro _ | with_reducible apply ite_kept | with_reducible apply foldl_kept
      | with_reducible apply setCause_kept | with_reducible apply modCtx_kept

theorem foldElems_kept {b s : State} (h : Kept b s) (x1) (x2) (x3) (x4) (x5) : Kept b (foldElems s x1 x2 x3 x4 x5) := by
  unfold foldElems
  repeat' first
      | with_reducible assumption | intro _ | with_reducible apply ite_kept | with_reducible apply foldl_kept
      | with_reducible apply modCtx_kept | with_reducible apply excess_kept

theorem stageElems_kept {b s : State} (h : Kept b s) (x1) (x2) (x3) (x4) (x5) (x6) : Kept b (stageElems s x1 x2 x3 x4 x5 x6)
    := by
  unfold stageElems
  repeat' first
      | with_reducible assumption | intro _ | with_reducible apply ite_kept | with_reducible apply foldl_kept
      | with_reducible apply modCtx_kept | with_reducible apply excess_kept

theorem homeFold_kept {b s : State} (h : Kept b s) (x1) (x2) (x3) (x4) (x5) (x6)
    (hf : ∀ s w, Kept b s → Kept b (x6 s w)) : Kept b (homeFold s x1 x2 x3 x4 x5 x6) := by
  unfold homeFold
  repeat' first
      | with_reducible assumption | intro _ | with_reducible apply ite_kept | with_reducible apply hf
      | with_reducible apply foldl_kept | with_reducible apply countStepRefused_kept | with_reducible apply modCtxRegs_kept
      | with_reducible apply openBuf_kept | with_reducible apply refuseContrib_kept | split | dsimp only
      | with_reducible exact snd_kept (by assumption) (by assumption) | refine snd_kept (by assumption) ?_
      | refine fst_kept (by assumption) ?_ | assumption

theorem homeContrib_kept {b s : State} (h : Kept b s) (x0) (x1) : Kept b (homeContrib x0 x1 s) := by
  unfold homeContrib
  repeat' first
      | with_reducible assumption | intro _ | with_reducible apply ite_kept | with_reducible apply foldl_kept
      | with_reducible apply homeFold_kept | with_reducible apply stageElems_kept | with_reducible apply foldElems_kept

theorem homePartial_kept {b s : State} (h : Kept b s) (x0) (x1) : Kept b (homePartial x0 x1 s) := by
  unfold homePartial
  repeat' first
      | with_reducible assumption | intro _ | with_reducible apply ite_kept | with_reducible apply foldl_kept
      | with_reducible apply homeFold_kept | with_reducible apply foldElems_kept

theorem homeTake_kept {b s : State} (h : Kept b s) (x0) (x1) : Kept b (homeTake x0 x1 s) := by
  unfold homeTake
  repeat' first
      | with_reducible assumption | intro _ | with_reducible apply ite_kept | with_reducible apply foldl_kept
      | with_reducible apply homeContrib_kept | with_reducible apply sendTwin_kept | with_reducible apply homePartial_kept | split

theorem partUp_kept {b s : State} (h : Kept b s) (x0) (x1) : Kept b (partUp x0 x1 s) := by
  unfold partUp
  repeat' first
      | with_reducible assumption | intro _ | with_reducible apply ite_kept | with_reducible apply foldl_kept
      | with_reducible apply foldOn_kept | split | dsimp only | with_reducible exact snd_kept (by assumption) (by assumption)
      | refine snd_kept (by assumption) ?_ | refine fst_kept (by assumption) ?_ | assumption

theorem contribOn_kept {b s : State} (h : Kept b s) (x0) (x1) : Kept b (contribOn x0 x1 s) := by
  unfold contribOn
  repeat' first
      | with_reducible assumption | intro _ | with_reducible apply ite_kept | with_reducible apply foldl_kept
      | with_reducible apply passUp_kept | with_reducible apply modCtxRegs_kept | with_reducible apply homeTake_kept
      | with_reducible apply partUp_kept | split | dsimp only | with_reducible exact snd_kept (by assumption) (by assumption)
      | refine snd_kept (by assumption) ?_ | refine fst_kept (by assumption) ?_ | assumption

theorem staleContrib_kept {b s : State} (h : Kept b s) (x1) (x2) : Kept b (staleContrib s x1 x2) := by
  unfold staleContrib
  repeat' first
      | with_reducible assumption | intro _ | with_reducible apply ite_kept | with_reducible apply foldl_kept
      | with_reducible apply dropOld_kept | with_reducible apply modCtxRegs_kept | split | dsimp only
      | with_reducible exact snd_kept (by assumption) (by assumption) | refine snd_kept (by assumption) ?_
      | refine fst_kept (by assumption) ?_ | assumption

theorem contribTake_kept {b s : State} (h : Kept b s) (x0) (x1) : Kept b (contribTake x0 x1 s) := by
  unfold contribTake
  repeat' first
      | with_reducible assumption | intro _ | with_reducible apply ite_kept | with_reducible apply foldl_kept
      | with_reducible apply modJob_kept | with_reducible apply hubJobOk_kept | with_reducible apply atEdge_kept
      | with_reducible apply rejectFenced_kept | with_reducible apply contribOn_kept | with_reducible apply staleContrib_kept
      | split | dsimp only | with_reducible exact snd_kept (by assumption) (by assumption) | refine snd_kept (by assumption) ?_
      | refine fst_kept (by assumption) ?_ | assumption

theorem checkedTake_kept {b s : State} (h : Kept b s) (x0) (x1) (x2) (x3) (x4) (x5)
    (hf : ∀ s, Kept b s → Kept b (x5 s)) : Kept b (checkedTake x0 x1 x2 x3 x4 x5 s) := by
  unfold checkedTake
  repeat' first
      | with_reducible apply hf | with_reducible assumption | intro _ | with_reducible apply ite_kept | with_reducible apply foldl_kept
      | with_reducible apply hubJobOk_kept | with_reducible apply foldFaults_kept

theorem partTake_kept {b s : State} (h : Kept b s) (x0) (x1) : Kept b (partTake x0 x1 s) := by
  unfold partTake
  repeat' first
      | with_reducible assumption | intro _ | with_reducible apply ite_kept | with_reducible apply foldl_kept
      | with_reducible apply hubJobOk_kept | with_reducible apply homeTake_kept | with_reducible apply partUp_kept
      | with_reducible apply staleContrib_kept | split | dsimp only
      | with_reducible exact snd_kept (by assumption) (by assumption) | refine snd_kept (by assumption) ?_
      | refine fst_kept (by assumption) ?_ | assumption

theorem freeBufs_kept {b s : State} (h : Kept b s) (x1) (x2) : Kept b (freeBufs s x1 x2) := by
  unfold freeBufs
  repeat' first
      | with_reducible assumption | intro _ | with_reducible apply ite_kept | with_reducible apply foldl_kept
      | with_reducible apply modJob_kept | with_reducible apply setCause_kept

theorem rereqTake_kept {b s : State} (h : Kept b s) (x0) : Kept b (rereqTake x0 s) := by
  unfold rereqTake
  repeat' first
      | with_reducible assumption | intro _ | with_reducible apply ite_kept | with_reducible apply modHub_kept
      | with_reducible apply foldl_kept | with_reducible apply sendEp_kept | with_reducible apply sendUp_kept
      | with_reducible apply modCtxRegs_kept | split | dsimp only | with_reducible exact snd_kept (by assumption) (by assumption)
      | refine snd_kept (by assumption) ?_ | refine fst_kept (by assumption) ?_ | assumption
      | (refine Once.of_fields (by assumption) ?_ ?_ ?_ <;> rfl)

theorem rresDiffer_kept {b s : State} (h : Kept b s) (x1) (x2) (x3) : Kept b (rresDiffer s x1 x2 x3) := by
  unfold rresDiffer
  exact sendTwin_kept (raise_kept h _ _) _ _

theorem rresOwn_kept {b s : State} (h : Kept b s) (x1) (x2) (x3) : Kept b (rresOwn x1 x2 s x3) := by
  unfold rresOwn
  repeat' first
      | with_reducible assumption | intro _ | with_reducible apply ite_kept | with_reducible apply modJob_kept
      | with_reducible apply rresDiffer_kept | split | dsimp only

theorem rresCompare_kept {b s : State} (h : Kept b s) (x0) : Kept b (rresCompare x0 s) := by
  unfold rresCompare
  repeat' first
      | with_reducible assumption | intro _ | with_reducible apply ite_kept | with_reducible apply foldl_kept
      | with_reducible apply rresDiffer_kept | with_reducible apply modJob_kept | split | dsimp only

/-! ## Machine/Digest.lean -/

theorem modFold_kept {b s : State} (h : Kept b s) (x1) (x2) (x3) : Kept b (modFold s x1 x2 x3) := by
  unfold modFold
  repeat' first
      | with_reducible assumption | intro _ | with_reducible apply ite_kept | with_reducible apply foldl_kept
      | with_reducible apply modJob_kept

theorem modDigh_kept {b s : State} (h : Kept b s) (x1) (x2) : Kept b (modDigh s x1 x2) := by
  unfold modDigh
  repeat' first
      | with_reducible assumption | intro _ | with_reducible apply ite_kept | with_reducible apply foldl_kept
      | with_reducible apply modJob_kept

theorem digStale_kept {b s : State} (h : Kept b s) (x1) : Kept b (digStale s x1) := by
  unfold digStale
  repeat' first
      | with_reducible assumption | intro _ | with_reducible apply ite_kept | with_reducible apply foldl_kept
      | with_reducible apply modDigh_kept | split | dsimp only | with_reducible exact snd_kept (by assumption) (by assumption)
      | refine snd_kept (by assumption) ?_ | refine fst_kept (by assumption) ?_ | assumption

theorem digWindow_kept {b s : State} (h : Kept b s) (x1) (x2) (x3)
    (hf : ∀ s w, Kept b s → Kept b (x3 s w)) : Kept b (digWindow s x1 x2 x3) := by
  unfold digWindow
  cases windowOf (s.job x1) x2
  · exact countStepRefused_kept h _ _ _
  · exact digStale_kept h _
  · exact digStale_kept h _
  · exact hf _ _ h

theorem homeDgp_kept {b s : State} (h : Kept b s) (x0) : Kept b (homeDgp x0 s) := by
  unfold homeDgp
  repeat' first
      | with_reducible assumption | intro _ | with_reducible apply ite_kept | with_reducible apply foldl_kept
      | with_reducible apply digWindow_kept | with_reducible apply modFold_kept

theorem homeVmap_kept {b s : State} (h : Kept b s) (x0) : Kept b (homeVmap x0 s) := by
  unfold homeVmap
  repeat' first
      | with_reducible assumption | intro _ | with_reducible apply ite_kept | with_reducible apply foldl_kept
      | with_reducible apply digWindow_kept | with_reducible apply modFold_kept

theorem groupRecord_kept {b s : State} (h : Kept b s) (x1) (x2) (x3) (x4) (x5) : Kept b (groupRecord s x1 x2 x3 x4 x5) := by
  unfold groupRecord
  repeat' first
      | with_reducible assumption | intro _ | with_reducible apply ite_kept | with_reducible apply foldl_kept
      | with_reducible apply audit_kept

theorem checkDropped_kept {b s : State} (h : Kept b s) (x1) (x2) : Kept b (checkDropped s x1 x2) := by
  unfold checkDropped
  repeat' first
      | with_reducible assumption | intro _ | with_reducible apply ite_kept | with_reducible apply foldl_kept
      | with_reducible apply modFold_kept

theorem checkHeld_kept {b s : State} (h : Kept b s) (x1) (x2) : Kept b (checkHeld s x1 x2) := by
  unfold checkHeld
  repeat' first
      | with_reducible assumption | intro _ | with_reducible apply ite_kept | with_reducible apply foldl_kept
      | with_reducible apply modFold_kept

theorem homeCheckGroup_kept {b s : State} (h : Kept b s) (x0) (x1) : Kept b (homeCheckGroup x0 x1 s) := by
  unfold homeCheckGroup
  repeat' first
      | with_reducible assumption | intro _ | with_reducible apply ite_kept | with_reducible apply foldl_kept
      | with_reducible apply checkDropped_kept | with_reducible apply modDigh_kept | with_reducible apply checkHeld_kept
      | with_reducible apply groupRecord_kept

theorem homeCheckProv_kept {b s : State} (h : Kept b s) (x0) (x1) : Kept b (homeCheckProv x0 x1 s) := by
  unfold homeCheckProv
  repeat' first
      | with_reducible assumption | intro _ | with_reducible apply ite_kept | with_reducible apply foldl_kept
      | with_reducible apply checkDropped_kept | with_reducible apply modDigh_kept | with_reducible apply checkHeld_kept

theorem homeCheck_kept {b s : State} (h : Kept b s) (x0) : Kept b (homeCheck x0 s) := by
  unfold homeCheck
  repeat' first
      | with_reducible assumption | intro _ | with_reducible apply ite_kept | with_reducible apply foldl_kept
      | with_reducible apply rejectFenced_kept | with_reducible apply digWindow_kept | with_reducible apply homeCheckProv_kept
      | with_reducible apply homeCheckGroup_kept

theorem digTake_kept {b s : State} (h :
    Kept b s) (x0) (x1) (x2) (x3) (x4) (x5) (h4 : ∀ t, Kept b t → Kept b (x4 t)) (h5 : ∀ t, Kept b t → Kept b (x5 t)) :
    Kept b (digTake x0 x1 x2 x3 x4 x5 s) := by
  unfold digTake
  repeat' first
      | with_reducible assumption | intro _ | with_reducible apply ite_kept | with_reducible apply h5 | with_reducible apply h4
      | with_reducible apply foldl_kept | with_reducible apply sendTwin_kept | with_reducible apply hubJobOk_kept
      | with_reducible apply dropOld_kept | with_reducible apply rejectFenced_kept | with_reducible apply digStale_kept | split
      | dsimp only | with_reducible exact snd_kept (by assumption) (by assumption) | refine snd_kept (by assumption) ?_
      | refine fst_kept (by assumption) ?_ | assumption

theorem provUpdate_kept {b s : State} (h : Kept b s) (x1) (x2) (x3) (x4) :
    Kept b (provUpdate s x1 x2 x3 x4).1 := by
  have hp : ∀ k v, Kept b (modHub s fun h => { h with prov := tset 0 h.prov k v }) := fun _ _ => modHub_kept h _ fun _ ht =>
      ht
  unfold provUpdate
  extract_lets _ _ _ _ _ _ _ _ _ s1 _ s2
  refine fst_ite_kept (hp _ _) ?_
  have h1 : Kept b s1 := setCause_kept (hp _ _) _ _ _
  show Kept b s2
  exact ite_kept (audit_kept (State_fresh_kept h1) _ _) h1

theorem provApply_kept {b s : State} (h : Kept b s) (x0) (x1) (x2) (x3) : Kept b (provApply x0 x1 x2 x3 s).1 := by
  induction x3 generalizing s with
  | nil => exact h
  | cons k ks ih => exact ih (provUpdate_kept h _ _ _ _)

theorem closeGroups_kept {b s : State} (h : Kept b s) (x0) (x1) (x2) (x3) (x4) (x5) : Kept b (closeGroups x0 x1 x2 x3 x4 x5
    s).1 := by
  induction x5 generalizing s with
  | nil => exact h
  | cons g gs ih =>
    simp only [closeGroups]
    split
    · exact ih (ite_kept h (groupRecord_kept h _ _ _ _ _))
    · exact ih (ite_kept h (groupRecord_kept h _ _ _ _ _))

theorem closeDids_kept {b s : State} (h : Kept b s) (x0) (x1) (x2) (x3) : Kept b (closeDids x0 x1 x2 x3 s).1 := by
  induction x3 generalizing s with
  | nil => exact h
  | cons g gs ih =>
    simp only [closeDids]
    split
    · split
      · exact ih (closeGroups_kept h _ _ _ _ _ _)
      · exact ih (closeGroups_kept h _ _ _ _ _ _)
    · exact ih h

theorem mismatchEv_kept {b s : State} (h : Kept b s) (x0) (x1) (x3) : Kept b (mismatchEv x0 x1 s x3) := by
  unfold mismatchEv
  repeat' first
      | with_reducible assumption | intro _ | with_reducible apply ite_kept | with_reducible apply foldl_kept
      | with_reducible apply raise_kept

theorem digestDone_kept {b s : State} (h : Kept b s) (x1) (x2) : Kept b (digestDone s x1 x2) := by
  unfold digestDone
  repeat' first
      | with_reducible assumption | intro _ | with_reducible apply ite_kept | with_reducible apply foldl_kept
      | with_reducible apply modJob_kept | with_reducible apply shadowStep_kept

theorem finishClose_kept {b s : State} (h : Kept b s) (x1) (x2) (x3) (x4) : Kept b (finishClose s x1 x2 x3 x4) := by
  unfold finishClose
  repeat' first
      | with_reducible assumption | intro _ | with_reducible apply ite_kept | with_reducible apply foldl_kept
      | with_reducible apply mismatchEv_kept | with_reducible apply setCause_kept | with_reducible apply modDigh_kept
      | with_reducible apply stepRecord_kept | with_reducible apply digestDone_kept | with_reducible apply poison_kept | split

theorem compareClose_kept {b s : State} (h : Kept b s) (x1) (x2) (x3) (x4) : Kept b (compareClose s x1 x2 x3 x4) := by
  unfold compareClose
  repeat' first
      | with_reducible assumption | intro _ | with_reducible apply ite_kept | with_reducible apply foldl_kept
      | with_reducible apply finishClose_kept

theorem foldsComplete_kept {b s : State} (h : Kept b s) (x1) : Kept b (foldsComplete s x1) := by
  unfold foldsComplete
  repeat' first
      | with_reducible assumption | intro _ | with_reducible apply ite_kept | with_reducible apply foldl_kept
      | with_reducible apply closeDids_kept | with_reducible apply provApply_kept | with_reducible apply compareClose_kept
      | with_reducible apply modJob_kept | with_reducible apply digestDone_kept | with_reducible apply sendTwin_kept | split

theorem twinCloseTake_kept {b s : State} (h : Kept b s) (x0) (x1) : Kept b (twinCloseTake x0 x1 s) := by
  unfold twinCloseTake
  repeat' first
      | with_reducible assumption | intro _ | with_reducible apply ite_kept | with_reducible apply foldl_kept
      | with_reducible apply compareClose_kept | with_reducible apply modJob_kept | split

/-! ## Machine/SeqWords.lean -/

theorem issue_kept {b s t : State} {op : Nat} {x : Site} {act : Word → State → State} (h : Kept b s)
    (hf : ∀ w s, Kept b s → Kept b (act w s)) (e : issue op x act s = .next t) : Kept b t := by
  unfold issue at e
  dsimp only at e
  split at e
  · cases e; exact modTsu_kept h _ fun _ ht => ht
  · split at e
    · cases e; exact hf _ _ (modSeq_kept h _ _)
    · cases e; exact h

theorem holdXbuf_kept {b s : State} (h : Kept b s) (x1) (x2) : Kept b (holdXbuf s x1 x2) := by
  unfold holdXbuf
  repeat' first
      | with_reducible assumption | intro _ | with_reducible apply ite_kept | with_reducible apply modTsu_kept
      | with_reducible apply foldl_kept | split | dsimp only | with_reducible exact snd_kept (by assumption) (by assumption)
      | refine snd_kept (by assumption) ?_ | refine fst_kept (by assumption) ?_ | assumption

theorem haltHere_kept {b s : State} (h : Kept b s) (x1) (x2) : Kept b (haltHere s x1 x2) := by
  unfold haltHere
  repeat' first
      | with_reducible assumption | intro _ | with_reducible apply ite_kept | with_reducible apply foldl_kept
      | with_reducible apply halt_kept

theorem refusedHere_kept {b s : State} (h : Kept b s) (x1) : Kept b (refusedHere s x1) := by
  unfold refusedHere
  repeat' first
      | with_reducible assumption | intro _ | with_reducible apply ite_kept | with_reducible apply foldl_kept
      | with_reducible apply haltHere_kept

theorem rangeHere_kept {b s : State} (h : Kept b s) (x1) : Kept b (rangeHere s x1) := by
  unfold rangeHere
  repeat' first
      | with_reducible assumption | intro _ | with_reducible apply ite_kept | with_reducible apply foldl_kept
      | with_reducible apply haltHere_kept

theorem jump_kept {b s : State} (h : Kept b s) (x1) (x2) : Kept b (jump s x1 x2) := by
  unfold jump
  repeat' first
      | with_reducible assumption | intro _ | with_reducible apply ite_kept | with_reducible apply foldl_kept
      | with_reducible apply modSeqRegs_kept

theorem resume_kept {b s : State} (h : Kept b s) (x1) : Kept b (resume s x1) := by
  unfold resume
  repeat' first
      | with_reducible assumption | intro _ | with_reducible apply ite_kept | with_reducible apply foldl_kept
      | with_reducible apply modSeq_kept

theorem setXbuf_kept {b s : State} (h : Kept b s) (x1) (x2) : Kept b (setXbuf s x1 x2) := by
  exact modTsu_kept h _ fun _ ht => ⟨ht.1, ht.2.1, ht.2.2.1, ht.2.2.2.1, ht.2.2.2.2.1, ht.2.2.2.2.2.1, twf_tset ht.2.2.2.2.2.2 _ _⟩

theorem putValue_kept {b s : State} (h : Kept b s) (x1) (x2) (x3) : Kept b (putValue s x1 x2 x3) := by
  unfold putValue
  repeat' first
      | with_reducible assumption | intro _ | with_reducible apply ite_kept | with_reducible apply foldl_kept
      | with_reducible apply rangeHere_kept | with_reducible apply setXbuf_kept | with_reducible apply modSeq_kept
      | with_reducible apply jump_kept

theorem recordVary_kept {b s : State} (h : Kept b s) (x1) (x2) : Kept b (recordVary s x1 x2) := by
  unfold recordVary
  repeat' first
      | with_reducible assumption | intro _ | with_reducible apply ite_kept | with_reducible apply foldl_kept
      | with_reducible apply tsuSendUp_kept | with_reducible apply rlAppend_kept | split

theorem popReplay_kept {b s : State} (h : Kept b s) (x1) : Kept b (popReplay s x1) := by
  unfold popReplay
  split
  · exact modTsu_kept h _ fun _ ht => ⟨ht.1, ht.2.1, by simp; have := ht.2.2.1; omega, ht.2.2.2⟩
  · exact modHub_kept h _ fun _ ht => ⟨by simp; have := ht.1; omega, ht.2⟩

theorem replayCause_kept {b s : State} (h : Kept b s) (x1) : Kept b (replayCause s x1) := by
  unfold replayCause
  repeat' first
      | with_reducible assumption | intro _ | with_reducible apply ite_kept | with_reducible apply foldl_kept
      | with_reducible apply setCause_kept | split

theorem replayWord_kept {b s : State} (h : Kept b s) (x1) (x2) : Kept b (replayWord s x1 x2) := by
  unfold replayWord
  repeat' first
      | with_reducible assumption | intro _ | with_reducible apply ite_kept | with_reducible apply foldl_kept
      | with_reducible apply putValue_kept | with_reducible apply popReplay_kept | with_reducible apply refusedHere_kept
      | with_reducible apply replayCause_kept | with_reducible apply modSeq_kept | split

theorem sourced_kept {b s : State} (h : Kept b s) (x1) (x2) (x3) : Kept b (sourced s x1 x2 x3) := by
  unfold sourced
  repeat' first
      | with_reducible assumption | intro _ | with_reducible apply ite_kept | with_reducible apply foldl_kept
      | with_reducible apply recordVary_kept | with_reducible apply putValue_kept

theorem writes_kept {b s : State} (h : Kept b s) (x0) (x1) (x2) : Kept b (writes x0 x1 x2 s) := by
  unfold writes
  repeat' first
      | with_reducible assumption | intro _ | with_reducible apply ite_kept | with_reducible apply foldl_kept
      | with_reducible apply replayWord_kept | with_reducible apply sourced_kept

theorem execNop_kept {b s t : State} (h : Kept b s) (x) (e : execNop x s = .next t) : Kept b t := by
  unfold execNop at e
  refine issue_kept h (fun w s h => ?_) e
  repeat' first
      | with_reducible assumption | intro _ | with_reducible apply ite_kept | with_reducible apply foldl_kept | split | dsimp only
      | with_reducible exact snd_kept (by assumption) (by assumption) | refine snd_kept (by assumption) ?_
      | refine fst_kept (by assumption) ?_ | assumption

theorem execJmp_kept {b s t : State} (h : Kept b s) (x) (e : execJmp x s = .next t) : Kept b t := by
  unfold execJmp at e
  refine issue_kept h (fun w s h => ?_) e
  repeat' first
      | with_reducible assumption | intro _ | with_reducible apply ite_kept | with_reducible apply foldl_kept
      | with_reducible apply jump_kept | split | dsimp only | with_reducible exact snd_kept (by assumption) (by assumption)
      | refine snd_kept (by assumption) ?_ | refine fst_kept (by assumption) ?_ | assumption

theorem execBr_kept {b s t : State} (h : Kept b s) (x) (e : execBr x s = .next t) : Kept b t := by
  unfold execBr at e
  refine issue_kept h (fun w s h => ?_) e
  repeat' first
      | with_reducible assumption | intro _ | with_reducible apply ite_kept | with_reducible apply foldl_kept
      | with_reducible apply jump_kept | split | dsimp only | with_reducible exact snd_kept (by assumption) (by assumption)
      | refine snd_kept (by assumption) ?_ | refine fst_kept (by assumption) ?_ | assumption

theorem execLoop_kept {b s t : State} (h : Kept b s) (x) (e : execLoop x s = .next t) : Kept b t := by
  unfold execLoop at e
  refine issue_kept h (fun w s h => ?_) e
  repeat' first
      | with_reducible assumption | intro _ | with_reducible apply ite_kept | with_reducible apply foldl_kept
      | with_reducible apply writes_kept | split | dsimp only | with_reducible exact snd_kept (by assumption) (by assumption)
      | refine snd_kept (by assumption) ?_ | refine fst_kept (by assumption) ?_ | assumption

theorem execLdi_kept {b s t : State} (h : Kept b s) (x) (e : execLdi x s = .next t) : Kept b t := by
  unfold execLdi at e
  refine issue_kept h (fun w s h => ?_) e
  repeat' first
      | with_reducible assumption | intro _ | with_reducible apply ite_kept | with_reducible apply foldl_kept
      | with_reducible apply writes_kept | split | dsimp only | with_reducible exact snd_kept (by assumption) (by assumption)
      | refine snd_kept (by assumption) ?_ | refine fst_kept (by assumption) ?_ | assumption

theorem execLdhi_kept {b s t : State} (h : Kept b s) (x) (e : execLdhi x s = .next t) : Kept b t := by
  unfold execLdhi at e
  refine issue_kept h (fun w s h => ?_) e
  repeat' first
      | with_reducible assumption | intro _ | with_reducible apply ite_kept | with_reducible apply foldl_kept
      | with_reducible apply writes_kept | split | dsimp only | with_reducible exact snd_kept (by assumption) (by assumption)
      | refine snd_kept (by assumption) ?_ | refine fst_kept (by assumption) ?_ | assumption

theorem execAlu_kept {b s t : State} (h : Kept b s) (x) (e : execAlu x s = .next t) : Kept b t := by
  unfold execAlu at e
  refine issue_kept h (fun w s h => ?_) e
  repeat' first
      | with_reducible assumption | intro _ | with_reducible apply ite_kept | with_reducible apply foldl_kept
      | with_reducible apply writes_kept | split | dsimp only | with_reducible exact snd_kept (by assumption) (by assumption)
      | refine snd_kept (by assumption) ?_ | refine fst_kept (by assumption) ?_ | assumption

theorem execLdstep_kept {b s t : State} (h : Kept b s) (x) (e : execLdstep x s = .next t) : Kept b t := by
  unfold execLdstep at e
  refine issue_kept h (fun w s h => ?_) e
  repeat' first
      | with_reducible assumption | intro _ | with_reducible apply ite_kept | with_reducible apply foldl_kept
      | with_reducible apply writes_kept | split | dsimp only | with_reducible exact snd_kept (by assumption) (by assumption)
      | refine snd_kept (by assumption) ?_ | refine fst_kept (by assumption) ?_ | assumption

theorem execLdrank_kept {b s t : State} (h : Kept b s) (x) (e : execLdrank x s = .next t) : Kept b t := by
  unfold execLdrank at e
  refine issue_kept h (fun w s h => ?_) e
  repeat' first
      | with_reducible assumption | intro _ | with_reducible apply ite_kept | with_reducible apply foldl_kept
      | with_reducible apply writes_kept | split | dsimp only | with_reducible exact snd_kept (by assumption) (by assumption)
      | refine snd_kept (by assumption) ?_ | refine fst_kept (by assumption) ?_ | assumption

theorem execWhisk_kept {b s t : State} (h : Kept b s) (x) (e : execWhisk x s = .next t) : Kept b t := by
  unfold execWhisk at e
  refine issue_kept h (fun w s h => ?_) e
  repeat' first
      | with_reducible assumption | intro _ | with_reducible apply ite_kept | with_reducible apply foldl_kept
      | with_reducible apply writes_kept | split | dsimp only | with_reducible exact snd_kept (by assumption) (by assumption)
      | refine snd_kept (by assumption) ?_ | refine fst_kept (by assumption) ?_ | assumption

theorem execLdtime_kept {b s t : State} (h : Kept b s) (x) (e : execLdtime x s = .next t) : Kept b t := by
  unfold execLdtime at e
  refine issue_kept h (fun w s h => ?_) e
  repeat' first
      | with_reducible assumption | intro _ | with_reducible apply ite_kept | with_reducible apply foldl_kept
      | with_reducible apply writes_kept | split | dsimp only | with_reducible exact snd_kept (by assumption) (by assumption)
      | refine snd_kept (by assumption) ?_ | refine fst_kept (by assumption) ?_ | assumption

theorem execLdlaunch_kept {b s t : State} (h : Kept b s) (x) (e : execLdlaunch x s = .next t) : Kept b t := by
  unfold execLdlaunch at e
  refine issue_kept h (fun w s h => ?_) e
  repeat' first
      | with_reducible assumption | intro _ | with_reducible apply ite_kept | with_reducible apply foldl_kept
      | with_reducible apply writes_kept | split | dsimp only | with_reducible exact snd_kept (by assumption) (by assumption)
      | refine snd_kept (by assumption) ?_ | refine fst_kept (by assumption) ?_ | assumption

theorem execLdevt_kept {b s t : State} (h : Kept b s) (x) (e : execLdevt x s = .next t) : Kept b t := by
  unfold execLdevt at e
  refine issue_kept h (fun w s h => ?_) e
  repeat' first
      | with_reducible assumption | intro _ | with_reducible apply ite_kept | with_reducible apply foldl_kept
      | with_reducible apply writes_kept | split | dsimp only | with_reducible exact snd_kept (by assumption) (by assumption)
      | refine snd_kept (by assumption) ?_ | refine fst_kept (by assumption) ?_ | assumption

theorem execLdso_kept {b s t : State} (h : Kept b s) (x) (e : execLdso x s = .next t) : Kept b t := by
  unfold execLdso at e
  refine issue_kept h (fun w s h => ?_) e
  repeat' first
      | with_reducible assumption | intro _ | with_reducible apply ite_kept | with_reducible apply foldl_kept
      | with_reducible apply writes_kept | split | dsimp only | with_reducible exact snd_kept (by assumption) (by assumption)
      | refine snd_kept (by assumption) ?_ | refine fst_kept (by assumption) ?_ | assumption

theorem execLdbuf_kept {b s t : State} (h : Kept b s) (x) (e : execLdbuf x s = .next t) : Kept b t := by
  unfold execLdbuf at e
  refine issue_kept h (fun w s h => ?_) e
  repeat' first
      | with_reducible assumption | intro _ | with_reducible apply ite_kept | with_reducible apply foldl_kept
      | with_reducible apply rangeHere_kept | with_reducible apply writes_kept | split | dsimp only
      | with_reducible exact snd_kept (by assumption) (by assumption) | refine snd_kept (by assumption) ?_
      | refine fst_kept (by assumption) ?_ | assumption

theorem execStbuf_kept {b s t : State} (h : Kept b s) (x) (e : execStbuf x s = .next t) : Kept b t := by
  unfold execStbuf at e
  split at e
  · cases e; exact h
  refine issue_kept h (fun w s h => ?_) e
  repeat' first
      | with_reducible assumption | intro _ | with_reducible apply ite_kept | with_reducible apply foldl_kept
      | with_reducible apply rangeHere_kept | with_reducible apply writes_kept | split | dsimp only
      | with_reducible exact snd_kept (by assumption) (by assumption) | refine snd_kept (by assumption) ?_
      | refine fst_kept (by assumption) ?_ | assumption

theorem syncWord_kept {b : State} {r : Bool × State} (h : Kept b r.2) (x) : Kept b (syncWord x r) :=
  ite_kept (refusedHere_kept h _) h

theorem execArrive_kept {b s t : State} (h : Kept b s) (x) (e : execArrive x s = .next t) : Kept b t := by
  unfold execArrive at e
  refine issue_kept h (fun w s h => ?_) e
  exact ite_kept (refusedHere_kept h _) (syncWord_kept (slotArrive_kept h _) _)

theorem execSoadd_kept {b s t : State} (h : Kept b s) (x) (e : execSoadd x s = .next t) : Kept b t := by
  unfold execSoadd at e
  refine issue_kept h (fun w s h => ?_) e
  exact syncWord_kept (slotAdd_kept h _ _) _

theorem execSoset_kept {b s t : State} (h : Kept b s) (x) (e : execSoset x s = .next t) : Kept b t := by
  unfold execSoset at e
  refine issue_kept h (fun w s h => ?_) e
  exact syncWord_kept (slotSet_kept h _ _) _

theorem execSoclr_kept {b s t : State} (h : Kept b s) (x) (e : execSoclr x s = .next t) : Kept b t := by
  unfold execSoclr at e
  refine issue_kept h (fun w s h => ?_) e
  exact syncWord_kept (slotClear_kept h _) _

theorem execOpenwin_kept {b s t : State} (h : Kept b s) (x) (e : execOpenwin x s = .next t) : Kept b t := by
  unfold execOpenwin at e
  refine issue_kept h (fun w s h => ?_) e
  exact syncWord_kept (slotOpenWindow_kept h _ _) _

theorem execSend_kept {b s t : State} (h : Kept b s) (x) (e : execSend x s = .next t) : Kept b t := by
  unfold execSend at e
  refine issue_kept h (fun w s h => ?_) e
  repeat' first
      | with_reducible assumption | intro _ | with_reducible apply ite_kept | with_reducible apply foldl_kept
      | with_reducible apply refuse_kept | with_reducible apply issueSend_kept | with_reducible apply modSeq_kept
      | with_reducible apply refusedHere_kept | split | dsimp only | with_reducible exact snd_kept (by assumption) (by assumption)
      | refine snd_kept (by assumption) ?_ | refine fst_kept (by assumption) ?_ | assumption

theorem countClamped_kept {b s : State} (h : Kept b s) (x1) (x2) (x3) : Kept b (countClamped s x1 x2 x3) := by
  unfold countClamped
  repeat' first
      | with_reducible assumption | intro _ | with_reducible apply ite_kept | with_reducible apply modTsu_kept
      | with_reducible apply foldl_kept | split | dsimp only | with_reducible exact snd_kept (by assumption) (by assumption)
      | refine snd_kept (by assumption) ?_ | refine fst_kept (by assumption) ?_ | assumption

theorem putWords_kept {b s : State} (h : Kept b s) (x1) (x2) : Kept b (putWords s x1 x2) := by
  unfold putWords
  repeat' first
      | with_reducible assumption | intro _ | with_reducible apply ite_kept | with_reducible apply foldl_kept
      | with_reducible apply setXbuf_kept

theorem freeCopied_kept {b s : State} (h : Kept b s) : Kept b (freeCopied s) := by
  unfold freeCopied
  repeat' first
      | with_reducible assumption | intro _ | with_reducible apply ite_kept | with_reducible apply modTsu_kept
      | with_reducible apply foldl_kept | with_reducible apply returnCredit_kept | split | dsimp only
      | with_reducible exact snd_kept (by assumption) (by assumption) | refine snd_kept (by assumption) ?_
      | refine fst_kept (by assumption) ?_ | assumption

theorem copyResult_kept {b s : State} (h : Kept b s) (x1) (x2) (x3) (x4) : Kept b (copyResult s x1 x2 x3 x4) := by
  unfold copyResult
  repeat' first
      | with_reducible assumption | intro _ | with_reducible apply ite_kept | with_reducible apply modTsu_kept
      | with_reducible apply foldl_kept | with_reducible apply putWords_kept | with_reducible apply countClamped_kept
      | with_reducible apply freeCopied_kept | split | dsimp only | with_reducible exact snd_kept (by assumption) (by assumption)
      | refine snd_kept (by assumption) ?_ | refine fst_kept (by assumption) ?_ | assumption

theorem completeWait_kept {b s : State} (h : Kept b s) (x1) (x2) : Kept b (completeWait s x1 x2) := by
  unfold completeWait
  have hr := resume_kept h x1
  cases x2
  case slot => exact waitDone_kept hr _
  case result => exact copyResult_kept hr _ _ _ _
  case resultx => exact sourced_kept (countClamped_kept hr _ _ _) _ _ _
  case replay => exact replayWord_kept hr _ _
  all_goals exact hr

theorem armWait_kept {b s : State} (h : Kept b s) (x1) (x2) : Kept b (armWait s x1 x2) := by
  unfold armWait
  repeat' first
      | with_reducible assumption | intro _ | with_reducible apply ite_kept | with_reducible apply foldl_kept
      | with_reducible apply completeWait_kept | with_reducible apply modSeq_kept

theorem execFence_kept {b s t : State} (h : Kept b s) (x) (e : execFence x s = .next t) : Kept b t := by
  unfold execFence at e
  refine issue_kept h (fun w s h => ?_) e
  repeat' first
      | with_reducible assumption | intro _ | with_reducible apply ite_kept | with_reducible apply foldl_kept
      | with_reducible apply armWait_kept | split | dsimp only | with_reducible exact snd_kept (by assumption) (by assumption)
      | refine snd_kept (by assumption) ?_ | refine fst_kept (by assumption) ?_ | assumption

theorem execWait_kept {b s t : State} (h : Kept b s) (x) (e : execWait x s = .next t) : Kept b t := by
  unfold execWait at e
  refine issue_kept h (fun w s h => ?_) e
  repeat' first
      | with_reducible assumption | intro _ | with_reducible apply ite_kept | with_reducible apply foldl_kept
      | with_reducible apply refusedHere_kept | with_reducible apply armWait_kept | split | dsimp only
      | with_reducible exact snd_kept (by assumption) (by assumption) | refine snd_kept (by assumption) ?_
      | refine fst_kept (by assumption) ?_ | assumption

theorem execWaitevt_kept {b s t : State} (h : Kept b s) (x) (e : execWaitevt x s = .next t) : Kept b t := by
  unfold execWaitevt at e
  refine issue_kept h (fun w s h => ?_) e
  repeat' first
      | with_reducible assumption | intro _ | with_reducible apply ite_kept | with_reducible apply foldl_kept
      | with_reducible apply refusedHere_kept | with_reducible apply armWait_kept | split | dsimp only
      | with_reducible exact snd_kept (by assumption) (by assumption) | refine snd_kept (by assumption) ?_
      | refine fst_kept (by assumption) ?_ | assumption

theorem execWaittick_kept {b s t : State} (h : Kept b s) (x) (e : execWaittick x s = .next t) : Kept b t := by
  unfold execWaittick at e
  refine issue_kept h (fun w s h => ?_) e
  repeat' first
      | with_reducible assumption | intro _ | with_reducible apply ite_kept | with_reducible apply foldl_kept
      | with_reducible apply armWait_kept | split | dsimp only | with_reducible exact snd_kept (by assumption) (by assumption)
      | refine snd_kept (by assumption) ?_ | refine fst_kept (by assumption) ?_ | assumption

theorem execTrig_kept {b s t : State} (h : Kept b s) (x) (e : execTrig x s = .next t) : Kept b t := by
  unfold execTrig at e
  refine issue_kept h (fun w s h => ?_) e
  repeat' first
      | with_reducible assumption | intro _ | with_reducible apply ite_kept | with_reducible apply foldl_kept
      | with_reducible apply schedTest_kept | with_reducible apply addPulse_kept | with_reducible apply refusedHere_kept | split
      | dsimp only | with_reducible exact snd_kept (by assumption) (by assumption) | refine snd_kept (by assumption) ?_
      | refine fst_kept (by assumption) ?_ | assumption

theorem endMaps_kept {b s : State} (h : Kept b s) (x1) : Kept b (endMaps s x1) := by
  unfold endMaps
  repeat' first
      | with_reducible assumption | intro _ | with_reducible apply ite_kept | with_reducible apply foldl_kept
      | with_reducible apply modSeq_kept | with_reducible apply seqCause_kept

theorem execStepend_kept {b s t : State} (h : Kept b s) (x) (e : execStepend x s = .next t) : Kept b t := by
  unfold execStepend at e
  refine issue_kept h (fun w s h => ?_) e
  repeat' first
      | with_reducible assumption | intro _ | with_reducible apply ite_kept | with_reducible apply foldl_kept
      | with_reducible apply tsuSendUp_kept | with_reducible apply slotArrive_kept | with_reducible apply refusedHere_kept
      | with_reducible apply endMaps_kept | split | dsimp only | with_reducible exact snd_kept (by assumption) (by assumption)
      | refine snd_kept (by assumption) ?_ | refine fst_kept (by assumption) ?_ | assumption

theorem pauseCheck_kept {b s : State} (h : Kept b s) (x1) : Kept b (pauseCheck s x1) := by
  unfold pauseCheck
  repeat' first
      | with_reducible assumption | intro _ | with_reducible apply ite_kept | with_reducible apply modTsu_kept
      | with_reducible apply foldl_kept | with_reducible apply setCause_kept | with_reducible apply modJob_kept
      | with_reducible apply mirrorCadence_kept | with_reducible apply pauseFollow_kept | split | dsimp only
      | with_reducible exact snd_kept (by assumption) (by assumption) | refine snd_kept (by assumption) ?_
      | refine fst_kept (by assumption) ?_ | assumption

theorem dropBeyond_kept {b s : State} (h : Kept b s) (x1) (x2) : Kept b (dropBeyond s x1 x2) := by
  unfold dropBeyond
  repeat' first
      | with_reducible assumption | intro _ | with_reducible apply ite_kept | with_reducible apply modTsu_kept
      | with_reducible apply foldl_kept | with_reducible apply setCause_kept | with_reducible apply raise_kept | split | dsimp only
      | with_reducible exact snd_kept (by assumption) (by assumption) | refine snd_kept (by assumption) ?_
      | refine fst_kept (by assumption) ?_ | assumption

theorem execContrib_kept {b s t : State} (h : Kept b s) (x) (e : execContrib x s = .next t) : Kept b t := by
  unfold execContrib at e
  refine issue_kept h (fun w s h => ?_) e
  repeat' first
      | with_reducible assumption | intro _ | with_reducible apply ite_kept | with_reducible apply foldl_kept
      | with_reducible apply tsuSendUp_kept | with_reducible apply holdXbuf_kept | with_reducible apply refusedHere_kept
      | with_reducible apply rangeHere_kept | with_reducible apply dropBeyond_kept | split | dsimp only
      | with_reducible exact snd_kept (by assumption) (by assumption) | refine snd_kept (by assumption) ?_
      | refine fst_kept (by assumption) ?_ | assumption

theorem firstRereq_kept {b s : State} (h : Kept b s) : Kept b (firstRereq s) := by
  unfold firstRereq
  repeat' first
      | with_reducible assumption | intro _ | with_reducible apply ite_kept | with_reducible apply modTsu_kept
      | with_reducible apply foldl_kept | split | dsimp only | with_reducible exact snd_kept (by assumption) (by assumption)
      | refine snd_kept (by assumption) ?_ | refine fst_kept (by assumption) ?_ | assumption

theorem execResult_kept {b s t : State} (h : Kept b s) (x) (e : execResult x s = .next t) : Kept b t := by
  unfold execResult at e
  dsimp only at e
  split at e
  · cases e; exact h
  refine issue_kept h (fun w s h => ?_) e
  repeat' first
      | with_reducible assumption | intro _ | with_reducible apply ite_kept | with_reducible apply foldl_kept
      | with_reducible apply refusedHere_kept | with_reducible apply rangeHere_kept | with_reducible apply armWait_kept
      | with_reducible apply firstRereq_kept | split | dsimp only | with_reducible exact snd_kept (by assumption) (by assumption)
      | refine snd_kept (by assumption) ?_ | refine fst_kept (by assumption) ?_ | assumption

theorem execResultx_kept {b s t : State} (h : Kept b s) (x) (e : execResultx x s = .next t) : Kept b t := by
  unfold execResultx at e
  refine issue_kept h (fun w s h => ?_) e
  repeat' first
      | with_reducible assumption | intro _ | with_reducible apply ite_kept | with_reducible apply foldl_kept
      | with_reducible apply refusedHere_kept | with_reducible apply replayWord_kept | with_reducible apply armWait_kept
      | with_reducible apply firstRereq_kept | split | dsimp only | with_reducible exact snd_kept (by assumption) (by assumption)
      | refine snd_kept (by assumption) ?_ | refine fst_kept (by assumption) ?_ | assumption

theorem digestFold_kept {b s : State} (h : Kept b s) (x1) (x2) (x3) : Kept b (digestFold s x1 x2 x3) := by
  unfold digestFold
  repeat' first
      | with_reducible assumption | intro _ | with_reducible apply ite_kept | with_reducible apply modTsu_kept
      | with_reducible apply foldl_kept | with_reducible apply tsuSendUp_kept | split | dsimp only
      | with_reducible exact snd_kept (by assumption) (by assumption) | refine snd_kept (by assumption) ?_
      | refine fst_kept (by assumption) ?_ | assumption

theorem execDigest_kept {b s t : State} (h : Kept b s) (x) (e : execDigest x s = .next t) : Kept b t := by
  unfold execDigest at e
  refine issue_kept h (fun w s h => ?_) e
  repeat' first
      | with_reducible assumption | intro _ | with_reducible apply ite_kept | with_reducible apply foldl_kept
      | with_reducible apply holdXbuf_kept | with_reducible apply refusedHere_kept | with_reducible apply rangeHere_kept
      | with_reducible apply digestFold_kept | split | dsimp only | with_reducible exact snd_kept (by assumption) (by assumption)
      | refine snd_kept (by assumption) ?_ | refine fst_kept (by assumption) ?_ | assumption

theorem checkedWord_kept {b s : State} (h : Kept b s) (x0) (x1) (x2) (x3)
    (hf : ∀ j s t, Kept b s → x3 j s = some t → Kept b t) : Kept b (checkedWord x0 x1 x2 x3 s) := by
  unfold checkedWord
  split
  · exact h
  · split
    · exact refusedHere_kept h _
    · next e => exact ite_kept (foldFaults_kept h _ _ _ _) (foldFaults_kept (hf _ _ _ h e) _ _ _ _)

theorem completeIf_kept {b s : State} (h : Kept b s) (x1) (x2) : Kept b (completeIf s x1 x2) := by
  unfold completeIf
  repeat' first
      | with_reducible assumption | intro _ | with_reducible apply ite_kept | with_reducible apply foldl_kept
      | with_reducible apply completeWait_kept | split

theorem homeTimeoutEv_kept {b s : State} (h : Kept b s) (x1) (x2) (x3) (x4) (x5) : Kept b (homeTimeoutEv s x1 x2 x3 x4 x5) :=
    by
  unfold homeTimeoutEv
  repeat' first
      | with_reducible assumption | intro _ | with_reducible apply ite_kept | with_reducible apply foldl_kept
      | with_reducible apply raise_kept

theorem replayTimeoutEv_kept {b s : State} (h : Kept b s) (x1) : Kept b (replayTimeoutEv s x1) := by
  unfold replayTimeoutEv
  repeat' first
      | with_reducible assumption | intro _ | with_reducible apply ite_kept | with_reducible apply foldl_kept
      | with_reducible apply State_fresh_kept | with_reducible apply raise_kept

theorem seqTimeoutEv_kept {b s : State} (h : Kept b s) (x1) (x2) : Kept b (seqTimeoutEv s x1 x2) := by
  unfold seqTimeoutEv
  repeat' first
      | with_reducible assumption | intro _ | with_reducible apply ite_kept | with_reducible apply foldl_kept
      | with_reducible apply waitTimeoutEv_kept | with_reducible apply slotTimeoutEv_kept | with_reducible apply replayTimeoutEv_kept
      | with_reducible apply homeTimeoutEv_kept | split

theorem seqTimeout_kept {b s : State} (h : Kept b s) (x1) : Kept b (seqTimeout s x1) := by
  unfold seqTimeout
  repeat' first
      | with_reducible assumption | intro _ | with_reducible apply ite_kept | with_reducible apply foldl_kept
      | with_reducible apply completeWait_kept | with_reducible apply haltHere_kept | with_reducible apply seqTimeoutEv_kept | split

/-! ## Machine/Results.lean -/

theorem sendRereq_kept {b s : State} (h : Kept b s) (x1) (x2) (x3) (x4) : Kept b (sendRereq s x1 x2 x3 x4) := by
  unfold sendRereq
  repeat' first
      | with_reducible assumption | intro _ | with_reducible apply ite_kept | with_reducible apply modTsu_kept
      | with_reducible apply foldl_kept | with_reducible apply sendLink_kept | split | dsimp only
      | with_reducible exact snd_kept (by assumption) (by assumption) | refine snd_kept (by assumption) ?_
      | refine fst_kept (by assumption) ?_ | assumption

theorem badCopy_kept {b s : State} (h : Kept b s) (x1) (x2) : Kept b (badCopy s x1 x2) := by
  unfold badCopy
  repeat' first
      | with_reducible assumption | intro _ | with_reducible apply ite_kept | with_reducible apply modTsu_kept
      | with_reducible apply foldl_kept | with_reducible apply raise_kept | with_reducible apply refusedHere_kept
      | with_reducible apply sendRereq_kept | split | dsimp only | with_reducible exact snd_kept (by assumption) (by assumption)
      | refine snd_kept (by assumption) ?_ | refine fst_kept (by assumption) ?_ | assumption

theorem staleResult_kept {b s : State} (h : Kept b s) : Kept b (staleResult s) := by
  unfold staleResult
  repeat' first
      | with_reducible assumption | intro _ | with_reducible apply ite_kept | with_reducible apply foldl_kept
      | with_reducible apply modSeqRegs_kept

theorem resultTake_kept {b s : State} (h : Kept b s) (x0) (x1) : Kept b (resultTake x0 x1 s) := by
  unfold resultTake
  repeat' first
      | with_reducible assumption | intro _ | with_reducible apply ite_kept | with_reducible apply modTsu_kept
      | with_reducible apply foldl_kept | with_reducible apply refuse_kept | with_reducible apply countStepRefused_kept
      | with_reducible apply returnCredit_kept | with_reducible apply tsuJobOk_kept | with_reducible apply badCopy_kept
      | with_reducible apply staleResult_kept | split | dsimp only | with_reducible exact snd_kept (by assumption) (by assumption)
      | refine snd_kept (by assumption) ?_ | refine fst_kept (by assumption) ?_ | assumption

theorem rereqWaiting_kept {b s : State} (h : Kept b s) (x1) (x2) (x3) : Kept b (rereqWaiting s x1 x2 x3) := by
  unfold rereqWaiting
  repeat' first
      | with_reducible assumption | intro _ | with_reducible apply ite_kept | with_reducible apply modTsu_kept
      | with_reducible apply foldl_kept | with_reducible apply sendRereq_kept | split | dsimp only
      | with_reducible exact snd_kept (by assumption) (by assumption) | refine snd_kept (by assumption) ?_
      | refine fst_kept (by assumption) ?_ | assumption

theorem refuseTake_kept {b s : State} (h : Kept b s) (x0) : Kept b (refuseTake x0 s) := by
  unfold refuseTake
  repeat' first
      | with_reducible assumption | intro _ | with_reducible apply ite_kept | with_reducible apply modTsu_kept
      | with_reducible apply foldl_kept | with_reducible apply refuse_kept | with_reducible apply setCause_kept
      | with_reducible apply tsuJobOk_kept | with_reducible apply tsuNearStep_kept | with_reducible apply haltHere_kept | split
      | dsimp only | with_reducible exact snd_kept (by assumption) (by assumption) | refine snd_kept (by assumption) ?_
      | refine fst_kept (by assumption) ?_ | assumption

theorem poisonTake_kept {b s : State} (h : Kept b s) (x0) : Kept b (poisonTake x0 s) := by
  unfold poisonTake
  repeat' first
      | with_reducible assumption | intro _ | with_reducible apply ite_kept | with_reducible apply State_fresh_kept
      | with_reducible apply modTsu_kept | with_reducible apply foldl_kept | with_reducible apply refuse_kept
      | with_reducible apply setCause_kept | with_reducible apply countStepRefused_kept | with_reducible apply raise_kept
      | with_reducible apply tsuJobOk_kept | split | dsimp only | with_reducible exact snd_kept (by assumption) (by assumption)
      | refine snd_kept (by assumption) ?_ | refine fst_kept (by assumption) ?_ | assumption

theorem rqPushWrite_kept {b s : State} (h : Kept b s) (x0) (x1) : Kept b (rqPushWrite x0 x1 s).2 := by
  refine onPart_kept h fun s hs => ?_
  split
  · exact refused_kept hs _ _
  · exact modTsu_at hs _ ⟨hs.2.1.1, hs.2.1.2.1, by simp; omega, hs.2.1.2.2.2⟩

theorem rqStatusWrite_kept {b s : State} (h : Kept b s) (x0) (x1) : Kept b (rqStatusWrite x0 x1 s).2 := by
  refine onPart_kept h fun s hs => ?_
  split
  · exact hs
  · split
    · exact refused_kept hs _ _
    · exact modTsu_kept hs _ fun _ ht => ⟨ht.1, ht.2.1, Nat.zero_le _, ht.2.2.2⟩

theorem hqPushWrite_kept {b s : State} (h : Kept b s) (x0) (x1) : Kept b (hqPushWrite x0 x1 s).2 := by
  refine onPart_kept h fun s hs => ?_
  split
  · exact refused_kept hs _ _
  · exact modHub_at hs _ ⟨by simp; omega, hs.2.2.2⟩

theorem detWrite_kept {b s : State} (h : Kept b s) (x0) (x1) (x2) : Kept b (detWrite x0 x1 x2 s).2 := by
  unfold detWrite
  repeat' first
      | with_reducible assumption | intro _ | with_reducible apply ite_kept | with_reducible apply onPart_kept
      | with_reducible apply modTsu_kept | with_reducible apply foldl_kept | with_reducible apply refused_kept
      | with_reducible apply accept_kept | split | dsimp only | with_reducible exact snd_kept (by assumption) (by assumption)
      | refine snd_kept (by assumption) ?_ | refine fst_kept (by assumption) ?_ | assumption

theorem xbufWrite_kept {b s : State} (h : Kept b s) (x0) (x1) (x2) : Kept b (xbufWrite x0 x1 x2 s).2 := by
  unfold xbufWrite
  repeat' first
      | with_reducible assumption | intro _ | with_reducible apply ite_kept | with_reducible apply onPart_kept
      | with_reducible apply foldl_kept | with_reducible apply modSeqRegs_kept | with_reducible apply accept_kept
      | with_reducible apply setXbuf_kept | split

end

end Sys2Proof.Machine
end

