-- ==== Sys2Proof/Laws/KeptHub.lean ====
section
/-! SUPPORT. What every operation keeps (`Kept`), for faults, stages, links and transactions: one lemma for each
operation, in the order of the model. -/

namespace Sys2Proof.Machine

section

set_option Elab.async false

/-! ## Machine/Faults.lean -/

theorem evrecTake_kept {b s : State} (h : Kept b s) (x0) : Kept b (evrecTake x0 s) := by
  unfold evrecTake
  repeat' first
      | with_reducible assumption | intro _ | with_reducible apply ite_kept | with_reducible apply foldl_kept
      | with_reducible apply ringWrite_kept | with_reducible apply passUp_kept | split | dsimp only
      | with_reducible exact snd_kept (by assumption) (by assumption) | refine snd_kept (by assumption) ?_
      | refine fst_kept (by assumption) ?_ | assumption

theorem sendRun_kept {b s : State} (h : Kept b s) (x1) (x2) : Kept b (sendRun s x1 x2) := by
  unfold sendRun
  repeat' first
      | with_reducible assumption | intro _ | with_reducible apply ite_kept | with_reducible apply foldl_kept
      | with_reducible apply udpSend_kept

theorem sendRuns_kept {b s : State} (h : Kept b s) (x0) (x2) (x3) : Kept b (sendRuns x0 s x2 x3) := by
  induction x0 generalizing s x2 x3 with
  | zero => exact h
  | succ n ih =>
    simp only [sendRuns]
    split
    · exact h
    · split
      · exact ih h _ _
      · exact ih (sendRun_kept h _ _) _ _

theorem sendRecords_kept {b s : State} (h : Kept b s) (x1) (x2) : Kept b (sendRecords s x1 x2) := by
  unfold sendRecords
  repeat' first
      | with_reducible assumption | intro _ | with_reducible apply ite_kept | with_reducible apply foldl_kept
      | with_reducible apply sendRuns_kept

theorem modEvh_kept {b s : State} (h : Kept b s) (x1) : Kept b (modEvh s x1) := by
  unfold modEvh
  repeat' first
      | with_reducible assumption | intro _ | with_reducible apply ite_kept | with_reducible apply modHub_kept
      | with_reducible apply foldl_kept | split | dsimp only | with_reducible exact snd_kept (by assumption) (by assumption)
      | refine snd_kept (by assumption) ?_ | refine fst_kept (by assumption) ?_ | assumption
      | (refine Once.of_fields (by assumption) ?_ ?_ ?_ <;> rfl)

theorem eqW0Read_kept {b s : State} (h : Kept b s) (x0) : Kept b (eqW0Read x0 s).2 := by
  refine onPartRead_kept h fun s hs => ?_
  split
  · exact modIface_kept hs _ _
  · next e =>
    have he := hs.2.1.2.2.2.1
    rw [e, List.length_cons] at he
    exact modIface_kept (modTsu_at hs _ ⟨hs.2.1.1, hs.2.1.2.1, hs.2.1.2.2.1, Nat.le_of_succ_le he, hs.2.1.2.2.2.2⟩) _ _

theorem evRd0Read_kept {b s : State} (h : Kept b s) (x0) : Kept b (evRd0Read x0 s).2 := by
  unfold evRd0Read
  refine onPartRead_kept h fun s hs => ?_
  dsimp only
  split
  · exact modIface_kept hs _ _
  · exact refuse_kept (modIface_kept hs _ _) _ _

theorem rotTake_kept {b s : State} (h : Kept b s) (x1) : Kept b (rotTake s x1) := by
  unfold rotTake
  refine modHub_kept h _ ?_ ?_ ?_ <;> intro _ ht <;> dsimp only <;> split
  all_goals first | exact ht | exact ht.of_fields rfl rfl rfl

theorem rotClass_kept {b s : State} (h : Kept b s) (x1) : Kept b (rotClass s x1) := by
  unfold rotClass
  refine ite_kept h ?_
  split
  · refine modHub_kept h _ ?_ ?_ ?_ <;> intro _ ht <;> dsimp only <;> split
    all_goals first | exact ht | exact ht.of_fields rfl rfl rfl
  · next u e =>
    have hu := List.find?_some (p := fun u => decide ((s.unit u).unitState.toNat < 2)) e
    have hn : ∀ {P : Prop}, (s.unit u).unitState = 4 → P := fun h4 => by rw [h4] at hu; exact absurd hu (by decide)
    refine ite_kept (rotTake_kept (modUnit_at h _ _ hn) _) ?_
    split
    · exact rotTake_kept (laneLeaves_kept h _ _ hn) _
    · exact ite_kept (modHub_kept h _ fun _ ht => ht) (rotTake_kept (modUnit_at h _ _ hn) _)

theorem rotAdvance_kept {b s : State} (h : Kept b s) : Kept b (rotAdvance s) := by
  unfold rotAdvance
  repeat' first
      | with_reducible assumption | intro _ | with_reducible apply ite_kept | with_reducible apply modHub_kept
      | with_reducible apply foldl_kept | with_reducible apply rotClass_kept | split | dsimp only
      | with_reducible exact snd_kept (by assumption) (by assumption) | refine snd_kept (by assumption) ?_
      | refine fst_kept (by assumption) ?_ | assumption | (refine Once.of_fields (by assumption) ?_ ?_ ?_ <;> rfl)

theorem rotStart_kept {b s : State} (h : Kept b s) : Kept b (rotStart s) := by
  unfold rotStart
  repeat' first
      | with_reducible assumption | intro _ | with_reducible apply ite_kept | with_reducible apply modHub_kept
      | with_reducible apply foldl_kept | with_reducible apply rotAdvance_kept | split | dsimp only
      | with_reducible exact snd_kept (by assumption) (by assumption) | refine snd_kept (by assumption) ?_
      | refine fst_kept (by assumption) ?_ | assumption | (refine Once.of_fields (by assumption) ?_ ?_ ?_ <;> rfl)

theorem fltCtrlWrite_kept {b s : State} (h : Kept b s) (x0) (x1) : Kept b (fltCtrlWrite x0 x1 s).2 := by
  unfold fltCtrlWrite
  repeat' first
      | with_reducible assumption | intro _ | with_reducible apply ite_kept | with_reducible apply onPart_kept
      | with_reducible apply modHub_kept | with_reducible apply foldl_kept | with_reducible apply refused_kept
      | with_reducible apply accept_kept | with_reducible apply rotStart_kept | split | dsimp only
      | with_reducible exact snd_kept (by assumption) (by assumption) | refine snd_kept (by assumption) ?_
      | refine fst_kept (by assumption) ?_ | assumption | (refine Once.of_fields (by assumption) ?_ ?_ ?_ <;> rfl)

theorem fltHbWrite_kept {b s : State} (h : Kept b s) (x0) (x1) : Kept b (fltHbWrite x0 x1 s).2 := by
  unfold fltHbWrite
  repeat' first
      | with_reducible assumption | intro _ | with_reducible apply ite_kept | with_reducible apply onPart_kept
      | with_reducible apply modHub_kept | with_reducible apply foldl_kept | with_reducible apply refused_kept
      | with_reducible apply accept_kept | split | dsimp only | with_reducible exact snd_kept (by assumption) (by assumption)
      | refine snd_kept (by assumption) ?_ | refine fst_kept (by assumption) ?_ | assumption
      | (refine Once.of_fields (by assumption) ?_ ?_ ?_ <;> rfl)

theorem testOver_kept {b s : State} (h : Kept b s) (x1) : Kept b (testOver s x1) := by
  unfold testOver
  repeat' first
      | with_reducible assumption | intro _ | with_reducible apply ite_kept | with_reducible apply modHub_kept
      | with_reducible apply foldl_kept | split | dsimp only | with_reducible exact snd_kept (by assumption) (by assumption)
      | refine snd_kept (by assumption) ?_ | refine fst_kept (by assumption) ?_ | assumption
      | (refine Once.of_fields (by assumption) ?_ ?_ ?_ <;> rfl)

theorem katFail_kept {b s : State} (h : Kept b s) (x1) : Kept b (katFail s x1) := by
  unfold katFail
  repeat' first
      | with_reducible assumption | intro _ | with_reducible apply ite_kept | with_reducible apply modHub_kept
      | with_reducible apply foldl_kept | with_reducible apply testOver_kept | with_reducible apply rotAdvance_kept
      | with_reducible apply chargeAs_kept | with_reducible apply queueHistory_kept | split | dsimp only
      | with_reducible exact snd_kept (by assumption) (by assumption) | refine snd_kept (by assumption) ?_
      | refine fst_kept (by assumption) ?_ | assumption | (refine Once.of_fields (by assumption) ?_ ?_ ?_ <;> rfl)

theorem testOver_unit (s : State) (u v) : (testOver s u).unit v = s.unit v := rfl
theorem katDone_kept {b s : State} (h : Kept b s) (x1) (x2) : Kept b (katDone s x1 x2) := by
  unfold katDone
  dsimp only
  split
  · next h2 =>
    refine ite_kept (katFail_kept h _) (ite_kept (rotAdvance_kept (modUnit_at (testOver_kept h _) _ _ ?_)) (modHub_kept h _
        fun _ ht => ht))
    rw [testOver_unit, h2]; intro h4; exact absurd h4 (by decide)
  · refine ite_kept (ite_kept (chargeUnit_kept h _ _) (ite_kept (modUnit_kept h _ _) h)) h

theorem shadowEnd_kept {b s : State} (h : Kept b s) (x1) : Kept b (shadowEnd s x1) := by
  unfold shadowEnd
  dsimp only
  split
  · next hc =>
    have h1 : Kept b (if (decide (unitClass x1 < 2) && (s.unit x1).unitStateStandin != 0xFFFF &&
        (s.unit (s.unit x1).unitStateStandin).unitState == 0) = true then
        modUnit s (s.unit x1).unitStateStandin fun r => { r with unitState := 1 } else s) := by
      split
      · next hv =>
        refine modUnit_at h _ _ fun h4 => ?_
        rw [h4] at hv; simp at hv
      · exact h
    refine rotAdvance_kept (laneSpared_kept (queueHistory_kept ?_ _ _ _) _ _ _ _)
    have h2 : ∀ st : BitVec 3, Kept b (modUnit (if (decide (unitClass x1 < 2) && (s.unit x1).unitStateStandin != 0xFFFF &&
        (s.unit (s.unit x1).unitStateStandin).unitState == 0) = true then
        modUnit s (s.unit x1).unitStateStandin fun r => { r with unitState := 1 } else s) x1 fun r =>
          { r with unitState := st, unitStateShadowSteps := 0, unitStateStandin := 0xFFFF }) := by
      intro st
      refine modUnit_at h1 _ _ fun h4 => ?_
      exfalso
      have : ((if (decide (unitClass x1 < 2) && (s.unit x1).unitStateStandin != 0xFFFF &&
        (s.unit (s.unit x1).unitStateStandin).unitState == 0) = true then
        modUnit s (s.unit x1).unitStateStandin fun r => { r with unitState := 1 } else s).unit x1).unitState ≠ 4 := by
        split
        · rw [unit_modUnit]; split
          · simp
          · rw [hc.1]; decide
        · rw [hc.1]; decide
      exact this h4
    exact ite_kept (modPage_kept (h2 _) _ _ _) (h2 _)
  · exact h

theorem tellHome_kept {b s : State} (h : Kept b s) (x1) (x2) : Kept b (tellHome s x1 x2) := by
  unfold tellHome
  repeat' first
      | with_reducible assumption | intro _ | with_reducible apply ite_kept | with_reducible apply foldl_kept
      | with_reducible apply passUp_kept | split | dsimp only | with_reducible exact snd_kept (by assumption) (by assumption)
      | refine snd_kept (by assumption) ?_ | refine fst_kept (by assumption) ?_ | assumption

theorem declareIn_kept {b s : State} (h : Kept b s) (x0) (x1) (x2) (x4) : Kept b (declareIn x0 x1 x2 s x4) := by
  unfold declareIn
  repeat' first
      | with_reducible assumption | intro _ | with_reducible apply ite_kept | with_reducible apply foldl_kept
      | with_reducible apply raise_kept | with_reducible apply modJob_kept | with_reducible apply tellHome_kept | split
      | dsimp only | with_reducible exact snd_kept (by assumption) (by assumption) | refine snd_kept (by assumption) ?_
      | refine fst_kept (by assumption) ?_ | assumption

theorem declare_kept {b s : State} (h : Kept b s) (x1) (x2) : Kept b (declare s x1 x2) := by
  unfold declare
  repeat' first
      | with_reducible assumption | intro _ | with_reducible apply ite_kept | with_reducible apply modHub_kept
      | with_reducible apply foldl_kept | with_reducible apply setCause_kept | with_reducible apply declareIn_kept | split | dsimp only
      | with_reducible exact snd_kept (by assumption) (by assumption) | refine snd_kept (by assumption) ?_
      | refine fst_kept (by assumption) ?_ | assumption | (refine Once.of_fields (by assumption) ?_ ?_ ?_ <;> rfl)

theorem arrivalTimeout_kept {b s : State} (h : Kept b s) (x1) (x2) : Kept b (arrivalTimeout s x1 x2) := by
  unfold arrivalTimeout
  repeat' first
      | with_reducible assumption | intro _ | with_reducible apply ite_kept | with_reducible apply foldl_kept
      | with_reducible apply modJob_kept | with_reducible apply declare_kept | split

/-! ## Machine/Links.lean -/

theorem queuePort_kept {b s : State} (h : Kept b s) (x1) : Kept b (queuePort s x1) := by
  unfold queuePort
  repeat' first
      | with_reducible assumption | intro _ | with_reducible apply ite_kept | with_reducible apply modHub_kept
      | with_reducible apply foldl_kept | split | dsimp only | with_reducible exact snd_kept (by assumption) (by assumption)
      | refine snd_kept (by assumption) ?_ | refine fst_kept (by assumption) ?_ | assumption
      | (refine Once.of_fields (by assumption) ?_ ?_ ?_ <;> rfl)

theorem resendUp_kept {b s : State} (h : Kept b s) (x1) : Kept b (resendUp s x1) := by
  unfold resendUp
  repeat' first
      | with_reducible assumption | intro _ | with_reducible apply ite_kept | with_reducible apply modHub_kept
      | with_reducible apply foldl_kept | with_reducible apply sendLink_kept | split | dsimp only
      | with_reducible exact snd_kept (by assumption) (by assumption) | refine snd_kept (by assumption) ?_
      | refine fst_kept (by assumption) ?_ | assumption | (refine Once.of_fields (by assumption) ?_ ?_ ?_ <;> rfl)

theorem resetCopies_kept {b s : State} (h : Kept b s) (x1) : Kept b (resetCopies s x1) := by
  unfold resetCopies
  split
  · exact modSh_kept h _ _ fun _ ht => ⟨ht.1, ht.2.1, ht.2.2⟩
  · exact modSh_kept h _ _ fun _ ht => ⟨ht.1, ht.2.1, ht.2.2⟩

theorem linkLeave_kept {b s : State} (h : Kept b s) (x1) : Kept b (linkLeave s x1) := by
  unfold linkLeave
  repeat' first
      | with_reducible assumption | intro _ | with_reducible apply ite_kept | with_reducible apply foldl_kept
      | with_reducible apply modLink_kept | with_reducible apply setCause_kept | with_reducible apply resetCopies_kept
      | with_reducible apply updReady_kept | with_reducible apply resendUp_kept | with_reducible apply queuePort_kept
      | with_reducible apply leadMove_kept | split

theorem ackBefore_kept {b s : State} (h : Kept b s) (x1) (x2) : Kept b (ackBefore s x1 x2) := by
  unfold ackBefore
  repeat' first
      | with_reducible assumption | intro _ | with_reducible apply ite_kept | with_reducible apply foldl_kept
      | with_reducible apply modLink_kept | with_reducible apply drainLink_kept

theorem replayAll_kept {b s : State} (h : Kept b s) (x1) : Kept b (replayAll s x1) := by
  unfold replayAll
  repeat' first
      | with_reducible assumption | intro _ | with_reducible apply ite_kept | with_reducible apply foldl_kept
      | with_reducible apply emitFlit_kept | split | dsimp only | with_reducible exact snd_kept (by assumption) (by assumption)
      | refine snd_kept (by assumption) ?_ | refine fst_kept (by assumption) ?_ | assumption

theorem sendLnak_kept {b s : State} (h : Kept b s) (x1) : Kept b (sendLnak s x1) := by
  unfold sendLnak
  repeat' first
      | with_reducible assumption | intro _ | with_reducible apply ite_kept | with_reducible apply foldl_kept
      | with_reducible apply sendLink_kept | with_reducible apply modLink_kept

theorem takeSlot_kept {b s : State} (h : Kept b s) (x0) (x2) : Kept b (takeSlot x0 s x2) := by
  unfold takeSlot
  repeat' first
      | with_reducible assumption | intro _ | with_reducible apply ite_kept | with_reducible apply foldl_kept
      | with_reducible apply modLink_kept | with_reducible apply modLinkRegs_kept | with_reducible apply sendLink_kept
      | with_reducible apply returnCredit_kept | with_reducible apply malformedFlit_kept | with_reducible apply sendLnak_kept
      | split | dsimp only | with_reducible exact snd_kept (by assumption) (by assumption) | refine snd_kept (by assumption) ?_
      | refine fst_kept (by assumption) ?_ | assumption

theorem modFec_kept {b s : State} (h : Kept b s) (x1) (x2) (x3) (x4) : Kept b (modFec s x1 x2 x3 x4) := by
  unfold modFec
  repeat' first
      | with_reducible assumption | intro _ | with_reducible apply ite_kept | with_reducible apply foldl_kept
      | with_reducible apply modPage_kept

theorem remapFail_kept {b s : State} (h : Kept b s) (x1) (x2) (x3) : Kept b (remapFail s x1 x2 x3) := by
  unfold remapFail
  repeat' first
      | with_reducible assumption | intro _ | with_reducible apply ite_kept | with_reducible apply foldl_kept
      | with_reducible apply modPage_kept | with_reducible apply linkLeave_kept | with_reducible apply laneSpared_kept

theorem remapGiveUp_kept {b s : State} (h : Kept b s) (x1) (x2) (x3) : Kept b (remapGiveUp s x1 x2 x3) := by
  unfold remapGiveUp
  repeat' first
      | with_reducible assumption | intro _ | with_reducible apply ite_kept | with_reducible apply foldl_kept
      | with_reducible apply modPage_kept | with_reducible apply remapFail_kept | split | dsimp only
      | with_reducible exact snd_kept (by assumption) (by assumption) | refine snd_kept (by assumption) ?_
      | refine fst_kept (by assumption) ?_ | assumption

theorem remapStart_kept {b s : State} (h : Kept b s) (x1) (x2) (x3) : Kept b (remapStart s x1 x2 x3) := by
  unfold remapStart
  repeat' first
      | with_reducible assumption | intro _ | with_reducible apply ite_kept | with_reducible apply foldl_kept
      | with_reducible apply remapFail_kept | with_reducible apply modPage_kept | with_reducible apply sendLink_kept | split

theorem spareWord_kept {b s : State} (h : Kept b s) (x1) (x2) (x3) (x4) (x5) : Kept b (spareWord s x1 x2 x3 x4 x5) := by
  unfold spareWord
  repeat' first
      | with_reducible assumption | with_reducible apply ite_kept | with_reducible apply chargeUnit_kept

theorem keepWord_kept {b s : State} (h : Kept b s) (x1) (x2) (x3) (x4) : Kept b (keepWord s x1 x2 x3 x4) := by
  unfold keepWord
  repeat' first
      | with_reducible assumption | with_reducible apply ite_kept | with_reducible apply modPage_kept

theorem laneShadow_kept {b s : State} (h : Kept b s) (x1) : Kept b (laneShadow s x1) :=
  modUnit_kept h _ _ fun _ hr => by simp [hr]

theorem lkCtrlWrite_kept {b s : State} (h : Kept b s) (x0) (x1) (x2) : Kept b (lkCtrlWrite x0 x1 x2 s).2 := by
  unfold lkCtrlWrite
  repeat' first
      | with_reducible assumption | intro _ | with_reducible apply ite_kept | with_reducible apply foldl_kept
      | with_reducible apply refused_kept | with_reducible apply modLinkRegs_kept | with_reducible apply remapStart_kept
      | with_reducible apply accept_kept | with_reducible apply linkLeave_kept | split | dsimp only

theorem remapAccept_kept {b s : State} (h : Kept b s) (x1) (x2) : Kept b (remapAccept s x1 x2) := by
  unfold remapAccept
  repeat' first
      | with_reducible assumption | intro _ | with_reducible apply ite_kept | with_reducible apply foldl_kept
      | with_reducible apply modPage_kept

theorem remapGo_kept {b s : State} (h : Kept b s) (x1) (x2) : Kept b (remapGo s x1 x2) := by
  unfold remapGo
  repeat' first
      | with_reducible assumption | intro _ | with_reducible apply ite_kept | with_reducible apply foldl_kept
      | with_reducible apply modPage_kept | with_reducible apply sendLink_kept | split

theorem admitPort_kept {b s : State} (h : Kept b s) (x1) : Kept b (admitPort s x1) := by
  unfold admitPort
  repeat' first
      | with_reducible assumption | intro _ | with_reducible apply ite_kept | with_reducible apply modHub_kept
      | with_reducible apply foldl_kept | with_reducible apply modLinkRegs_kept | split | dsimp only
      | with_reducible exact snd_kept (by assumption) (by assumption) | refine snd_kept (by assumption) ?_
      | refine fst_kept (by assumption) ?_ | assumption | (refine Once.of_fields (by assumption) ?_ ?_ ?_ <;> rfl)

theorem trainLane_kept {b s : State} (h : Kept b s) (x0) (x1) (x3) : Kept b (trainLane x0 x1 s x3) := by
  unfold trainLane
  repeat' first
      | with_reducible assumption | intro _ | with_reducible apply ite_kept | with_reducible apply modSh_kept
      | with_reducible apply foldl_kept | with_reducible apply State_fresh_kept | split | dsimp only
      | with_reducible exact snd_kept (by assumption) (by assumption) | refine snd_kept (by assumption) ?_
      | refine fst_kept (by assumption) ?_ | assumption

theorem takeEndpoint_kept {b s : State} (h : Kept b s) (x1) (x2) : Kept b (takeEndpoint s x1 x2).2 := by
  unfold takeEndpoint
  repeat' first
      | with_reducible assumption | intro _ | with_reducible apply ite_kept | with_reducible apply modTsu_kept
      | with_reducible apply foldl_kept | with_reducible apply linkLeave_kept | with_reducible apply sendLink_kept | split | dsimp only
      | with_reducible exact snd_kept (by assumption) (by assumption) | refine snd_kept (by assumption) ?_
      | refine fst_kept (by assumption) ?_ | assumption

theorem tellConflict_kept {b s : State} (h : Kept b s) : Kept b (tellConflict s) := by
  unfold tellConflict
  repeat' first
      | with_reducible assumption | intro _ | with_reducible apply ite_kept | with_reducible apply modTsu_kept
      | with_reducible apply foldl_kept | with_reducible apply sendLink_kept | split | dsimp only
      | with_reducible exact snd_kept (by assumption) (by assumption) | refine snd_kept (by assumption) ?_
      | refine fst_kept (by assumption) ?_ | assumption

theorem takeNeighbour_kept {b s : State} (h : Kept b s) (x1) (x2) : Kept b (takeNeighbour s x1 x2).2 := by
  unfold takeNeighbour
  repeat' first
      | with_reducible assumption | intro _ | with_reducible apply ite_kept | with_reducible apply foldl_kept
      | with_reducible apply modPage_kept | with_reducible apply linkLeave_kept | split | dsimp only
      | with_reducible exact snd_kept (by assumption) (by assumption) | refine snd_kept (by assumption) ?_
      | refine fst_kept (by assumption) ?_ | assumption

theorem setPortRole_kept {b s : State} (h : Kept b s) (x1) (x2) : Kept b (setPortRole s x1 x2) := by
  unfold setPortRole
  repeat' first
      | with_reducible assumption | intro _ | with_reducible apply ite_kept | with_reducible apply modHub_kept
      | with_reducible apply foldl_kept | with_reducible apply modLink_kept | with_reducible apply linkLeave_kept
      | with_reducible apply modPage_kept | with_reducible apply modLinkRegs_kept | with_reducible apply queuePort_kept | split
      | dsimp only | with_reducible exact snd_kept (by assumption) (by assumption) | refine snd_kept (by assumption) ?_
      | refine fst_kept (by assumption) ?_ | assumption | (refine Once.of_fields (by assumption) ?_ ?_ ?_ <;> rfl)

theorem portRoleWrite_kept {b s : State} (h : Kept b s) (x0) (x1) (x2) : Kept b (portRoleWrite x0 x1 x2 s).2 := by
  unfold portRoleWrite
  repeat' first
      | with_reducible assumption | intro _ | with_reducible apply ite_kept | with_reducible apply foldl_kept
      | with_reducible apply refused_kept | with_reducible apply accept_kept | with_reducible apply setPortRole_kept | split | dsimp only

theorem cacheRank_kept {b s : State} (h : Kept b s) (x1) (x2) : Kept b (cacheRank s x1 x2) := by
  unfold cacheRank
  repeat' first
      | with_reducible assumption | intro _ | with_reducible apply ite_kept | with_reducible apply modHub_kept
      | with_reducible apply foldl_kept | with_reducible apply State_fresh_kept | split | dsimp only
      | with_reducible exact snd_kept (by assumption) (by assumption) | refine snd_kept (by assumption) ?_
      | refine fst_kept (by assumption) ?_ | assumption | (refine Once.of_fields (by assumption) ?_ ?_ ?_ <;> rfl)

theorem signalRoute_kept {b s : State} (h : Kept b s) (x0) (x1) : Kept b (signalRoute x0 x1 s) := by
  unfold signalRoute
  repeat' first
      | with_reducible assumption | intro _ | with_reducible apply ite_kept | with_reducible apply foldl_kept
      | with_reducible apply rejectFenced_kept | with_reducible apply signalOn_kept | with_reducible apply hubJobOk_kept
      | with_reducible apply refuseXlat_kept | with_reducible apply cacheRank_kept | split | dsimp only
      | with_reducible exact snd_kept (by assumption) (by assumption) | refine snd_kept (by assumption) ?_

/-! ## Machine/LaneCal.lean -/

theorem calNext_kept {b s : State} (h : Kept b s) (x1) (x2) : Kept b (calNext s x1 x2) := by
  unfold calNext
  repeat' first
      | with_reducible assumption | intro _ | with_reducible apply ite_kept | with_reducible apply foldl_kept
      | with_reducible apply modPage_kept | with_reducible apply remapStart_kept | split | dsimp only
      | with_reducible exact snd_kept (by assumption) (by assumption) | refine snd_kept (by assumption) ?_
      | refine fst_kept (by assumption) ?_ | assumption

theorem calibrateLane_kept {b s : State} (h : Kept b s) (x1) (x2) (x3) : Kept b (calibrateLane s x1 x2 x3) := by
  unfold calibrateLane
  repeat' first
      | with_reducible assumption | intro _ | with_reducible apply ite_kept | with_reducible apply foldl_kept
      | with_reducible apply modLaneCal_kept | split | dsimp only | with_reducible exact snd_kept (by assumption) (by assumption)
      | refine snd_kept (by assumption) ?_ | refine fst_kept (by assumption) ?_ | assumption

theorem ptCtrlWrite_kept {b s : State} (h : Kept b s) (x0) (x1) (x2) : Kept b (ptCtrlWrite x0 x1 x2 s).2 := by
  unfold ptCtrlWrite
  repeat' first
      | with_reducible assumption | intro _ | with_reducible apply ite_kept | with_reducible apply foldl_kept
      | with_reducible apply modLinkRegs_kept | with_reducible apply accept_kept | with_reducible apply refused_kept
      | with_reducible apply calNext_kept | with_reducible apply calibrateLane_kept | split | dsimp only
      | with_reducible exact snd_kept (by assumption) (by assumption) | refine snd_kept (by assumption) ?_
      | refine fst_kept (by assumption) ?_ | assumption

theorem leaveCal_kept {b s : State} (h : Kept b s) (x1) (x2) : Kept b (leaveCal s x1 x2) := by
  unfold leaveCal
  repeat' first
      | with_reducible assumption | intro _ | with_reducible apply ite_kept | with_reducible apply foldl_kept
      | with_reducible apply sendHello_kept | with_reducible apply modLinkRegs_kept

/-! ## Machine/Apply.lean -/

theorem countReport_kept {b s : State} (h : Kept b s) (x1) (x2) : Kept b (countReport s x1 x2) := by
  unfold countReport
  repeat' first
      | with_reducible assumption | intro _ | with_reducible apply ite_kept | with_reducible apply foldl_kept
      | with_reducible apply modTxn_kept | with_reducible apply finishTxn_kept | with_reducible apply setCause_kept

theorem hubReport_kept {b s : State} (h : Kept b s) (x1) (x2) : Kept b (hubReport s x1 x2) := by
  unfold hubReport
  repeat' first
      | with_reducible assumption | intro _ | with_reducible apply ite_kept | with_reducible apply foldl_kept
      | with_reducible apply countReport_kept | with_reducible apply sendHub_kept

theorem tsuDone_kept {b s : State} (h : Kept b s) (x1) (x2) : Kept b (tsuDone s x1 x2) := by
  unfold tsuDone
  repeat' first
      | with_reducible assumption | intro _ | with_reducible apply ite_kept | with_reducible apply foldl_kept
      | with_reducible apply tsuSend_kept

theorem addBarrier_kept {b s : State} (h : Kept b s) (x1) (x2) : Kept b (addBarrier s x1 x2) := by
  unfold addBarrier
  repeat' first
      | with_reducible assumption | intro _ | with_reducible apply ite_kept | with_reducible apply foldl_kept
      | with_reducible apply modJob_kept

theorem dropBarrier_kept {b s : State} (h : Kept b s) (x1) (x2) : Kept b (dropBarrier s x1 x2) := by
  unfold dropBarrier
  repeat' first
      | with_reducible assumption | intro _ | with_reducible apply ite_kept | with_reducible apply foldl_kept
      | with_reducible apply modJob_kept

theorem addCtx_kept {b s : State} (h : Kept b s) (x1) (x2) : Kept b (addCtx s x1 x2) := by
  unfold addCtx
  repeat' first
      | with_reducible assumption | intro _ | with_reducible apply ite_kept | with_reducible apply foldl_kept
      | with_reducible apply modCtx_kept

theorem dropCtx_kept {b s : State} (h : Kept b s) (x1) (x2) : Kept b (dropCtx s x1 x2) := by
  unfold dropCtx
  repeat' first
      | with_reducible assumption | intro _ | with_reducible apply ite_kept | with_reducible apply foldl_kept
      | with_reducible apply modCtx_kept

theorem unfence_kept {b s : State} (h : Kept b s) (x1) (x2) : Kept b (unfence s x1 x2) := by
  unfold unfence
  repeat' first
      | with_reducible assumption | intro _ | with_reducible apply ite_kept | with_reducible apply modHub_kept
      | with_reducible apply foldl_kept | with_reducible apply modJob_kept | split | dsimp only
      | with_reducible exact snd_kept (by assumption) (by assumption) | refine snd_kept (by assumption) ?_
      | refine fst_kept (by assumption) ?_ | assumption | (refine Once.of_fields (by assumption) ?_ ?_ ?_ <;> rfl)

theorem remapRank_kept {b s : State} (h : Kept b s) (x1) (x2) (x3) : Kept b (remapRank s x1 x2 x3) := by
  unfold remapRank
  repeat' first
      | with_reducible assumption | intro _ | with_reducible apply ite_kept | with_reducible apply modHub_kept
      | with_reducible apply foldl_kept | with_reducible apply modJob_kept | with_reducible apply unfence_kept | split | dsimp only
      | with_reducible exact snd_kept (by assumption) (by assumption) | refine snd_kept (by assumption) ?_
      | refine fst_kept (by assumption) ?_ | assumption | (refine Once.of_fields (by assumption) ?_ ?_ ?_ <;> rfl)

theorem admitHub_kept {b s : State} (h : Kept b s) (x1) (x2) : Kept b (admitHub s x1 x2) := by
  unfold admitHub
  repeat' first
      | with_reducible assumption | intro _ | with_reducible apply ite_kept | with_reducible apply modHub_kept
      | with_reducible apply foldl_kept | with_reducible apply modJob_kept | split | dsimp only
      | with_reducible exact snd_kept (by assumption) (by assumption) | refine snd_kept (by assumption) ?_
      | refine fst_kept (by assumption) ?_ | assumption | (refine Once.of_fields (by assumption) ?_ ?_ ?_ <;> rfl)

theorem joinHub_kept {b s : State} (h : Kept b s) (x1) (x2) : Kept b (joinHub s x1 x2) := by
  unfold joinHub
  repeat' first
      | with_reducible assumption | intro _ | with_reducible apply ite_kept | with_reducible apply foldl_kept
      | with_reducible apply State_fresh_kept | with_reducible apply modJob_kept

theorem launchHub_kept {b s : State} (h : Kept b s) (x1) (x2) : Kept b (launchHub s x1 x2) := by
  unfold launchHub
  repeat' first
      | with_reducible assumption | intro _ | with_reducible apply ite_kept | with_reducible apply foldl_kept
      | with_reducible apply modJob_kept

theorem hubAction_kept {b s : State} (h : Kept b s) (x0) (x2) : Kept b (hubAction x0 s x2) := by
  unfold hubAction
  repeat' first
      | with_reducible assumption | intro _ | with_reducible apply ite_kept | with_reducible apply modHub_kept
      | with_reducible apply foldl_kept | with_reducible apply modJob_kept | with_reducible apply addBarrier_kept
      | with_reducible apply dropBarrier_kept | with_reducible apply addCtx_kept | with_reducible apply dropCtx_kept
      | with_reducible apply remapRank_kept | split | dsimp only | with_reducible exact snd_kept (by assumption) (by assumption)
      | refine snd_kept (by assumption) ?_ | refine fst_kept (by assumption) ?_ | assumption
      | (refine Once.of_fields (by assumption) ?_ ?_ ?_ <;> rfl)

theorem fencedEv_kept {b s : State} (h : Kept b s) (x0) (x1) (x3) : Kept b (fencedEv x0 x1 s x3) := by
  unfold fencedEv
  repeat' first
      | with_reducible assumption | intro _ | with_reducible apply ite_kept | with_reducible apply foldl_kept
      | with_reducible apply raise_kept | split

theorem fenceRelease_kept {b s : State} (h : Kept b s) (x0) (x2) : Kept b (fenceRelease x0 s x2) := by
  unfold fenceRelease
  repeat' first
      | with_reducible assumption | intro _ | with_reducible apply ite_kept | with_reducible apply foldl_kept
      | with_reducible apply releaseBarrier_kept | split

theorem fenceHub_kept {b s : State} (h : Kept b s) (x1) (x2) (x3) (x4) : Kept b (fenceHub s x1 x2 x3 x4) := by
  unfold fenceHub
  repeat' first
      | with_reducible assumption | intro _ | with_reducible apply ite_kept | with_reducible apply foldl_kept
      | with_reducible apply modJob_kept | with_reducible apply fencedEv_kept | with_reducible apply mirrorBarrier_kept
      | with_reducible apply fenceRelease_kept | with_reducible apply poison_kept | with_reducible apply pauseCheck_kept

theorem dropHeld_kept {b s : State} (h : Kept b s) (x1) (x2) : Kept b (dropHeld s x1 x2) := by
  unfold dropHeld
  repeat' first
      | with_reducible assumption | intro _ | with_reducible apply ite_kept | with_reducible apply modSh_kept
      | with_reducible apply foldl_kept | split | dsimp only | with_reducible exact snd_kept (by assumption) (by assumption)
      | refine snd_kept (by assumption) ?_ | refine fst_kept (by assumption) ?_ | assumption

theorem teardownHub_kept {b s : State} (h : Kept b s) (x1) : Kept b (teardownHub s x1) := by
  unfold teardownHub
  repeat' first
      | with_reducible assumption | intro _ | with_reducible apply ite_kept | with_reducible apply modHub_kept
      | with_reducible apply foldl_kept | with_reducible apply dropHeld_kept | with_reducible apply modJob_kept | split | dsimp only
      | with_reducible exact snd_kept (by assumption) (by assumption) | refine snd_kept (by assumption) ?_
      | refine fst_kept (by assumption) ?_ | assumption | (refine Once.of_fields (by assumption) ?_ ?_ ?_ <;> rfl)

theorem tsuState_kept {b s : State} (h : Kept b s) (x1) : Kept b (tsuState s x1) := by
  unfold tsuState
  repeat' first
      | with_reducible assumption | intro _ | with_reducible apply ite_kept | with_reducible apply modTsu_kept
      | with_reducible apply foldl_kept | with_reducible apply setCause_kept | split | dsimp only
      | with_reducible exact snd_kept (by assumption) (by assumption) | refine snd_kept (by assumption) ?_
      | refine fst_kept (by assumption) ?_ | assumption

theorem teardownTsu_kept {b s : State} (h : Kept b s) (x1) : Kept b (teardownTsu s x1) := by
  unfold teardownTsu
  refine dropHeld_kept (modTsu_kept (discardSends_kept (tsuState_kept h _)) _ fun _ ht => ?_) _ _
  exact ⟨ht.1, ht.2.1, ht.2.2.1, ht.2.2.2.1, Nat.le_trans (List.length_filter_le _ _) ht.2.2.2.2.1, Nat.zero_le _, ht.2.2.2.2.2.2⟩

theorem drainHub_kept {b s : State} (h : Kept b s) (x1) : Kept b (drainHub s x1) := by
  unfold drainHub
  repeat' first
      | with_reducible assumption | intro _ | with_reducible apply ite_kept | with_reducible apply modHub_kept
      | with_reducible apply foldl_kept | with_reducible apply modJob_kept | with_reducible apply endFlows_kept | split
      | dsimp only | with_reducible exact snd_kept (by assumption) (by assumption) | refine snd_kept (by assumption) ?_
      | refine fst_kept (by assumption) ?_ | assumption | (refine Once.of_fields (by assumption) ?_ ?_ ?_ <;> rfl)

theorem drainTsu_kept {b s : State} (h : Kept b s) : Kept b (drainTsu s) := by
  unfold drainTsu
  repeat' first
      | with_reducible assumption | intro _ | with_reducible apply ite_kept | with_reducible apply modTsu_kept
      | with_reducible apply foldl_kept | with_reducible apply freeStore_kept | with_reducible apply tsuState_kept | split | dsimp only
      | with_reducible exact snd_kept (by assumption) (by assumption) | refine snd_kept (by assumption) ?_
      | refine fst_kept (by assumption) ?_ | assumption

theorem takeVals_kept {b s : State} (h : Kept b s) (x1) (x2) (x3) : Kept b (takeVals s x1 x2 x3) := by
  unfold takeVals
  repeat' first
      | with_reducible assumption | intro _ | with_reducible apply ite_kept | with_reducible apply foldl_kept
      | with_reducible apply modJob_kept | split

theorem flipHub_kept {b s : State} (h : Kept b s) (x1) (x2) : Kept b (flipHub s x1 x2) := by
  unfold flipHub
  repeat' first
      | with_reducible assumption | intro _ | with_reducible apply ite_kept | with_reducible apply foldl_kept
      | with_reducible apply modJob_kept

theorem applyFabric_kept {b s : State} (h : Kept b s) (x1) : Kept b (applyFabric s x1) := by
  unfold applyFabric
  repeat' first
      | with_reducible assumption | intro _ | with_reducible apply ite_kept | with_reducible apply modHub_kept
      | with_reducible apply foldl_kept | with_reducible apply setPortRole_kept | split | dsimp only
      | with_reducible exact snd_kept (by assumption) (by assumption) | refine snd_kept (by assumption) ?_
      | refine fst_kept (by assumption) ?_ | assumption | (refine Once.of_fields (by assumption) ?_ ?_ ?_ <;> rfl)

theorem applyJob_kept {b s : State} (h : Kept b s) (x1) (x2) : Kept b (applyJob s x1 x2) := by
  unfold applyJob
  repeat' first
      | with_reducible assumption | intro _ | with_reducible apply ite_kept | with_reducible apply foldl_kept
      | with_reducible apply modJob_kept | with_reducible apply computeEnv_kept | with_reducible apply envChange_kept
      | with_reducible apply pauseFollow_kept | with_reducible apply admitHub_kept | with_reducible apply joinHub_kept
      | with_reducible apply launchHub_kept | with_reducible apply hubAction_kept | with_reducible apply fenceHub_kept
      | with_reducible apply teardownHub_kept | with_reducible apply takeVals_kept | with_reducible apply flipHub_kept | split
      | dsimp only | with_reducible exact snd_kept (by assumption) (by assumption) | refine snd_kept (by assumption) ?_
      | refine fst_kept (by assumption) ?_ | assumption

theorem applyHub_kept {b s : State} (h : Kept b s) (x1) : Kept b (applyHub s x1) := by
  unfold applyHub
  repeat' first
      | with_reducible assumption | intro _ | with_reducible apply ite_kept | with_reducible apply foldl_kept
      | with_reducible apply hubReport_kept | with_reducible apply setStaged_kept | with_reducible apply applyFabric_kept
      | with_reducible apply applyJob_kept

theorem admitTsu_kept {b s : State} (h : Kept b s) (x1) : Kept b (admitTsu s x1) := by
  unfold admitTsu
  repeat' first
      | with_reducible assumption | intro _ | with_reducible apply ite_kept | with_reducible apply modTsu_kept
      | with_reducible apply foldl_kept | with_reducible apply tsuState_kept | split | dsimp only
      | with_reducible exact snd_kept (by assumption) (by assumption) | refine snd_kept (by assumption) ?_
      | refine fst_kept (by assumption) ?_ | assumption

theorem joinTsu_kept {b s : State} (h : Kept b s) (x1) (x2) : Kept b (joinTsu s x1 x2) := by
  unfold joinTsu
  repeat' first
      | with_reducible assumption | intro _ | with_reducible apply ite_kept | with_reducible apply State_fresh_kept
      | with_reducible apply modTsu_kept | with_reducible apply foldl_kept | with_reducible apply tsuState_kept | split
      | dsimp only | with_reducible exact snd_kept (by assumption) (by assumption) | refine snd_kept (by assumption) ?_
      | refine fst_kept (by assumption) ?_ | assumption

theorem tsuAction_kept {b s : State} (h : Kept b s) (x0) (x2) : Kept b (tsuAction x0 s x2) := by
  unfold tsuAction
  obtain ⟨a, b⟩ := x2
  dsimp only
  split
  · exact foldl_kept (fun s x hs => modSlot_kept hs _ _) h
  · split
    · exact modSlot_kept h _ _
    · exact h
  · refine modTsu_kept h _ ?_
    exact fun _ ⟨a, b, c, d, e, f⟩ => ⟨a, b, c, d, e, f⟩
  · refine modTsu_kept h _ ?_
    exact fun _ ⟨a, b, c, d, e, f⟩ => ⟨a, b, c, d, e, f⟩
  · refine modTsu_kept h _ ?_
    exact fun _ ⟨a, b, c, d, e, f⟩ => ⟨a, b, c, d, e, f⟩
  · refine modTsu_kept h _ ?_
    exact fun _ ⟨a, b, c, d, e, f⟩ => ⟨a, b, c, d, e, f⟩
  · exact ite_kept (joinTsu_kept h _ _) h
  · exact foldl_kept (fun s x hs => fencedEv_kept hs _ _ _) h
  · exact h

theorem flipTsu_kept {b s : State} (h : Kept b s) (x1) : Kept b (flipTsu s x1) := by
  unfold flipTsu
  repeat' first
      | with_reducible assumption | intro _ | with_reducible apply ite_kept | with_reducible apply modTsu_kept
      | with_reducible apply foldl_kept | split | dsimp only | with_reducible exact snd_kept (by assumption) (by assumption)
      | refine snd_kept (by assumption) ?_ | refine fst_kept (by assumption) ?_ | assumption

theorem applyTsu_kept {b s : State} (h : Kept b s) (x1) : Kept b (applyTsu s x1) := by
  unfold applyTsu
  repeat' first
      | with_reducible assumption | intro _ | with_reducible apply ite_kept | with_reducible apply modTsu_kept
      | with_reducible apply foldl_kept | with_reducible apply admitTsu_kept | with_reducible apply flipTsu_kept
      | with_reducible apply tsuAction_kept | with_reducible apply tsuState_kept | with_reducible apply teardownTsu_kept
      | with_reducible apply tsuDone_kept | with_reducible apply setStaged_kept | split | dsimp only
      | with_reducible exact snd_kept (by assumption) (by assumption) | refine snd_kept (by assumption) ?_
      | refine fst_kept (by assumption) ?_ | assumption

/-! ## Machine/Txns.lean -/

theorem ticksTest_kept {b s : State} (h : Kept b s) (x1) : Kept b (ticksTest s x1).2 := by
  unfold ticksTest
  repeat' first
      | with_reducible assumption | intro _ | with_reducible apply ite_kept | with_reducible apply foldl_kept
      | with_reducible apply schedTest_kept | split | dsimp only | with_reducible exact snd_kept (by assumption) (by assumption)
      | refine snd_kept (by assumption) ?_ | refine fst_kept (by assumption) ?_ | assumption

theorem holdCommit_kept {b s : State} (h : Kept b s) (x1) (x2) : Kept b (holdCommit s x1 x2) := by
  unfold holdCommit
  repeat' first
      | with_reducible assumption | intro _ | with_reducible apply ite_kept | with_reducible apply foldl_kept
      | with_reducible apply setStaged_kept

theorem commitTxn_kept {b s : State} (h : Kept b s) (x1) : Kept b (commitTxn s x1) := by
  unfold commitTxn
  repeat' first
      | with_reducible assumption | intro _ | with_reducible apply ite_kept | with_reducible apply foldl_kept
      | with_reducible apply mirrorTxn_kept | with_reducible apply modTxn_kept | with_reducible apply sendTwin_kept
      | with_reducible apply sendTargets_kept | with_reducible apply holdCommit_kept

theorem countVote_kept {b s : State} (h : Kept b s) (x1) (x2) (x3) : Kept b (countVote s x1 x2 x3) := by
  unfold countVote
  repeat' first
      | with_reducible assumption | intro _ | with_reducible apply ite_kept | with_reducible apply foldl_kept
      | with_reducible apply txnAbort_kept | with_reducible apply modTxn_kept | with_reducible apply mirrorTxn_kept
      | with_reducible apply commitTxn_kept

theorem keepArrived_kept {b s : State} (h : Kept b s) (x1) (x2) (x3) (x4) : Kept b (keepArrived s x1 x2 x3 x4) := by
  unfold keepArrived
  repeat' first
      | with_reducible assumption | intro _ | with_reducible apply ite_kept | with_reducible apply foldl_kept
      | with_reducible apply setStaged_kept | split | dsimp only | with_reducible exact snd_kept (by assumption) (by assumption)
      | refine snd_kept (by assumption) ?_ | refine fst_kept (by assumption) ?_ | assumption

theorem giveVote_kept {b s : State} (h : Kept b s) (x1) (x2) (x3) : Kept b (giveVote s x1 x2 x3) := by
  unfold giveVote
  repeat' first
      | with_reducible assumption | intro _ | with_reducible apply ite_kept | with_reducible apply modTsu_kept
      | with_reducible apply foldl_kept | with_reducible apply tsuSend_kept | with_reducible apply sendHub_kept
      | with_reducible apply countVote_kept | with_reducible apply keepArrived_kept | split | dsimp only
      | with_reducible exact snd_kept (by assumption) (by assumption) | refine snd_kept (by assumption) ?_
      | refine fst_kept (by assumption) ?_ | assumption

theorem countDeferred_kept {b s : State} (h : Kept b s) (x1) : Kept b (countDeferred s x1) := by
  unfold countDeferred
  repeat' first
      | with_reducible assumption | intro _ | with_reducible apply ite_kept | with_reducible apply modTsu_kept
      | with_reducible apply foldl_kept | with_reducible apply modTxnRegs_kept | split | dsimp only
      | with_reducible exact snd_kept (by assumption) (by assumption) | refine snd_kept (by assumption) ?_
      | refine fst_kept (by assumption) ?_ | assumption

theorem countReserved_kept {b s : State} (h : Kept b s) (x1) (x2) : Kept b (countReserved s x1 x2) := by
  unfold countReserved
  repeat' first
      | with_reducible assumption | intro _ | with_reducible apply ite_kept | with_reducible apply foldl_kept
      | with_reducible apply refuse_kept | split | dsimp only | with_reducible exact snd_kept (by assumption) (by assumption)
      | refine snd_kept (by assumption) ?_ | refine fst_kept (by assumption) ?_ | assumption

theorem prepareTake_kept {b s : State} (h : Kept b s) (x1) (x2) : Kept b (prepareTake s x1 x2) := by
  unfold prepareTake
  repeat' first
      | with_reducible assumption | intro _ | with_reducible apply ite_kept | with_reducible apply foldl_kept
      | with_reducible apply setStaged_kept | with_reducible apply giveVote_kept | with_reducible apply countDeferred_kept
      | with_reducible apply countReserved_kept | split | dsimp only
      | with_reducible exact snd_kept (by assumption) (by assumption) | refine snd_kept (by assumption) ?_
      | refine fst_kept (by assumption) ?_ | assumption

theorem prepareMsgTake_kept {b s : State} (h : Kept b s) (x0) (x1) : Kept b (prepareMsgTake x0 x1 s) := by
  unfold prepareMsgTake
  repeat' first
      | with_reducible assumption | intro _ | with_reducible apply ite_kept | with_reducible apply foldl_kept
      | with_reducible apply sendLink_kept | with_reducible apply countNotValid_kept | with_reducible apply schedWire_kept
      | with_reducible apply prepareTake_kept | with_reducible apply giveVote_kept | split | dsimp only
      | with_reducible exact snd_kept (by assumption) (by assumption) | refine snd_kept (by assumption) ?_

theorem relayPrepare_kept {b s : State} (h : Kept b s) (x1) (x2) (x3) : Kept b (relayPrepare s x1 x2 x3) := by
  unfold relayPrepare
  repeat' first
      | with_reducible assumption | intro _ | with_reducible apply ite_kept | with_reducible apply modHub_kept
      | with_reducible apply foldl_kept | with_reducible apply sendLink_kept | with_reducible apply noRoute_kept
      | with_reducible apply onRoute_kept | split | dsimp only | with_reducible exact snd_kept (by assumption) (by assumption)
      | refine snd_kept (by assumption) ?_ | refine fst_kept (by assumption) ?_ | assumption
      | (refine Once.of_fields (by assumption) ?_ ?_ ?_ <;> rfl)

theorem relayOutcome_kept {b s : State} (h : Kept b s) (x1) (x2) (x3) : Kept b (relayOutcome s x1 x2 x3) := by
  unfold relayOutcome
  repeat' first
      | with_reducible assumption | intro _ | with_reducible apply ite_kept | with_reducible apply modHub_kept
      | with_reducible apply foldl_kept | with_reducible apply sendLink_kept | split | dsimp only
      | with_reducible exact snd_kept (by assumption) (by assumption) | refine snd_kept (by assumption) ?_
      | refine fst_kept (by assumption) ?_ | assumption | (refine Once.of_fields (by assumption) ?_ ?_ ?_ <;> rfl)

theorem prepareOn_kept {b s : State} (h : Kept b s) (x0) (x1) : Kept b (prepareOn x0 x1 s) := by
  unfold prepareOn
  repeat' first
      | with_reducible assumption | intro _ | with_reducible apply ite_kept | with_reducible apply foldl_kept
      | with_reducible apply ifValid_kept | with_reducible apply prepareMsgTake_kept | with_reducible apply relayPrepare_kept
      | split | dsimp only | with_reducible exact snd_kept (by assumption) (by assumption) | refine snd_kept (by assumption) ?_
      | refine fst_kept (by assumption) ?_ | assumption

theorem sendPrepare_kept {b s : State} (h : Kept b s) (x1) : Kept b (sendPrepare s x1) := by
  unfold sendPrepare
  repeat' first
      | with_reducible assumption | intro _ | with_reducible apply ite_kept | with_reducible apply modHub_kept
      | with_reducible apply foldl_kept | with_reducible apply modTxn_kept | with_reducible apply mirrorTxn_kept
      | with_reducible apply sendHub_kept | with_reducible apply sendEp_kept | with_reducible apply prepareTake_kept | split | dsimp only
      | with_reducible exact snd_kept (by assumption) (by assumption) | refine snd_kept (by assumption) ?_
      | refine fst_kept (by assumption) ?_ | assumption | (refine Once.of_fields (by assumption) ?_ ?_ ?_ <;> rfl)

theorem lockTake_kept {b s : State} (h : Kept b s) (x1) : Kept b (lockTake s x1) := by
  unfold lockTake
  repeat' first
      | with_reducible assumption | intro _ | with_reducible apply ite_kept | with_reducible apply foldl_kept
      | with_reducible apply sendPrepare_kept | with_reducible apply txnAbort_kept | split

theorem acceptBody_kept {b s : State} (h : Kept b s) (hl : s.hub.queue.length < 32)   : Kept b (acceptBody s) := by
  unfold acceptBody
  refine mirrorTxn_kept (modHub_at h _ ?_) _ _
  exact ⟨h.2.2.1, by simp; omega, h.2.2.2.2⟩

theorem submitBody_kept {b s : State} (h : Kept b s) : Kept b (submitBody s) := by
  unfold submitBody
  dsimp only
  split
  · exact modTxnRegs_kept (refuse_kept h _ _) _
  split
  · exact modTxnRegs_kept h _
  split
  · exact modTxnRegs_kept h _
  have hs := ticksTest_kept h s.hub.body
  split
  · next e => rw [e] at hs; exact modTxnRegs_kept hs _
  · next e =>
    rw [e] at hs
    split
    · exact modTxnRegs_kept hs _
    · split
      · exact modTxnRegs_kept hs _
      · exact acceptBody_kept hs (by omega)

theorem appendChunk_kept {b s : State} (h : Kept b s)   : Kept b (appendChunk s).2 := by
  unfold appendChunk
  dsimp only
  split
  · exact refused_kept h _ _
  · exact mirror_kept (modHub_at h _ ⟨h.2.2.1, h.2.2.2.1, by simp; omega, h.2.2.2.2.2⟩) _ _ _ _

theorem cancelTxn_kept {b s : State} (h : Kept b s) (x0) : Kept b (cancelTxn x0 s).2 := by
  unfold cancelTxn
  repeat' first
      | with_reducible assumption | intro _ | with_reducible apply ite_kept | with_reducible apply foldl_kept
      | with_reducible apply accept_kept | with_reducible apply txnAbort_kept | with_reducible apply refused_kept | split | dsimp only

theorem txnCtrlWrite_kept {b s : State} (h : Kept b s) (x0) (x1) : Kept b (txnCtrlWrite x0 x1 s).2 := by
  refine onPart_kept h fun s hs => ?_
  have h0 := modTxnRegs_kept hs (fun r => { r with txnCtrlChunk := getF x1 0 16 })
  have h1 : Kept b (if getB x1 60 then modHub (modTxnRegs s fun r => { r with txnCtrlChunk := getF x1 0 16 }) fun h =>
      { h with body := [] } else modTxnRegs s fun r => { r with txnCtrlChunk := getF x1 0 16 }) :=
    ite_kept (modHub_kept h0 _ fun _ ht => ⟨ht.1, ht.2.1, Nat.zero_le _, ht.2.2.2⟩) h0
  dsimp only
  have h2 : ∀ {x y : Bool × State} {c : Bool}, Kept b x.2 → Kept b y.2 → Kept b (if c then x else y).2 := by
    intro x y c ha hb; split <;> assumption
  exact h2 (cancelTxn_kept (ite_kept (submitBody_kept (h2 (appendChunk_kept h1) h1)) (h2 (appendChunk_kept h1) h1)) _)
      (ite_kept (submitBody_kept (h2 (appendChunk_kept h1) h1)) (h2 (appendChunk_kept h1) h1))

theorem voteOn_kept {b s : State} (h : Kept b s) (x1) : Kept b (voteOn s x1) := by
  unfold voteOn
  repeat' first
      | with_reducible assumption | intro _ | with_reducible apply ite_kept | with_reducible apply foldl_kept
      | with_reducible apply modLink_kept | with_reducible apply sendLink_kept | with_reducible apply noRoute_kept
      | with_reducible apply onRoute_kept | split | dsimp only | with_reducible exact snd_kept (by assumption) (by assumption)
      | refine snd_kept (by assumption) ?_ | refine fst_kept (by assumption) ?_ | assumption

theorem launchAuthority_kept {b s : State} (h : Kept b s) (x1) : Kept b (launchAuthority s x1) := by
  unfold launchAuthority
  repeat' first
      | with_reducible assumption | intro _ | with_reducible apply ite_kept | with_reducible apply foldl_kept
      | with_reducible apply holdLaunch_kept | with_reducible apply launchMiss_kept | split

theorem commitTake_kept {b s : State} (h : Kept b s) (x0) (x1) : Kept b (commitTake x0 x1 s) := by
  unfold commitTake
  repeat' first
      | with_reducible assumption | intro _ | with_reducible apply ite_kept | with_reducible apply foldl_kept
      | with_reducible apply relayOutcome_kept | with_reducible apply forwardDown_kept | with_reducible apply holdCommit_kept
      | with_reducible apply launchAuthority_kept | split | dsimp only

theorem abortTake_kept {b s : State} (h : Kept b s) (x0) (x1) : Kept b (abortTake x0 x1 s) := by
  unfold abortTake
  repeat' first
      | with_reducible assumption | intro _ | with_reducible apply ite_kept | with_reducible apply foldl_kept
      | with_reducible apply forwardDown_kept | with_reducible apply unstage_kept | with_reducible apply relayOutcome_kept | split
      | dsimp only | with_reducible exact snd_kept (by assumption) (by assumption) | refine snd_kept (by assumption) ?_
      | refine fst_kept (by assumption) ?_ | assumption

theorem applyStaged_kept {b s : State} (h : Kept b s) (x1) (x2) : Kept b (applyStaged s x1 x2) := by
  unfold applyStaged
  repeat' first
      | with_reducible assumption | intro _ | with_reducible apply ite_kept | with_reducible apply foldl_kept
      | with_reducible apply applyHub_kept | with_reducible apply applyTsu_kept | split

theorem noCommit_kept {b s : State} (h : Kept b s) (x1) (x2) (x3) : Kept b (noCommit s x1 x2 x3) := by
  unfold noCommit
  repeat' first
      | with_reducible assumption | intro _ | with_reducible apply ite_kept | with_reducible apply modTsu_kept
      | with_reducible apply foldl_kept | with_reducible apply setStaged_kept | with_reducible apply raise_kept
      | with_reducible apply setCause_kept | with_reducible apply launchMiss_kept | with_reducible apply tsuReport_kept
      | with_reducible apply txnAbortEv_kept | with_reducible apply modTxnRegs_kept | with_reducible apply abortJob_kept
      | with_reducible apply reportTake_kept | split | dsimp only | with_reducible exact snd_kept (by assumption) (by assumption)
      | refine snd_kept (by assumption) ?_ | refine fst_kept (by assumption) ?_ | assumption

theorem pauseReplyTake_kept {b s : State} (h : Kept b s) (x0) : Kept b (pauseReplyTake x0 s) := by
  unfold pauseReplyTake
  repeat' first
      | with_reducible assumption | intro _ | with_reducible apply ite_kept | with_reducible apply foldl_kept
      | with_reducible apply sendTwin_kept | with_reducible apply modJob_kept | with_reducible apply sendUp_kept
      | with_reducible apply pauseCheck_kept | split | dsimp only | with_reducible exact snd_kept (by assumption) (by assumption)
      | refine snd_kept (by assumption) ?_ | refine fst_kept (by assumption) ?_ | assumption

theorem resumeTxn_kept {b s : State} (h : Kept b s) (x1) : Kept b (resumeTxn s x1) := by
  unfold resumeTxn
  repeat' first
      | with_reducible assumption | intro _ | with_reducible apply ite_kept | with_reducible apply foldl_kept
      | with_reducible apply sendTargets_kept | with_reducible apply unstage_kept | with_reducible apply txnAbortEv_kept
      | with_reducible apply sendTwin_kept | with_reducible apply holdCommit_kept | split | dsimp only

theorem takeLead_kept {b s : State} (h : Kept b s) (x1) : Kept b (takeLead s x1) := by
  unfold takeLead
  repeat' first
      | with_reducible assumption | intro _ | with_reducible apply ite_kept | with_reducible apply foldl_kept
      | with_reducible apply modJob_kept | with_reducible apply mirror_kept

theorem resendTwin_kept {b s : State} (h : Kept b s) (x1) : Kept b (resendTwin s x1) := by
  unfold resendTwin
  repeat' first
      | with_reducible assumption | intro _ | with_reducible apply ite_kept | with_reducible apply modHub_kept
      | with_reducible apply foldl_kept | with_reducible apply sendLink_kept | split | dsimp only
      | with_reducible exact snd_kept (by assumption) (by assumption) | refine snd_kept (by assumption) ?_
      | refine fst_kept (by assumption) ?_ | assumption | (refine Once.of_fields (by assumption) ?_ ?_ ?_ <;> rfl)

end

end Sys2Proof.Machine
end

