-- ==== Sys2Proof/Laws/KeptHost.lean ====
section
/-! SUPPORT. What every operation keeps (`Kept`), for power, firmware and the register accesses: one lemma for each
operation, in the order of the model. -/

namespace Sys2Proof.Machine

section

set_option Elab.async false

/-! ## Machine/Mirror.lean -/

theorem hearLeadGen_kept {b s : State} (h : Kept b s) (x1) (x2) : Kept b (hearLeadGen s x1 x2) := by
  unfold hearLeadGen
  repeat' first
      | with_reducible assumption | intro _ | with_reducible apply ite_kept | with_reducible apply modHub_kept
      | with_reducible apply foldl_kept | with_reducible apply modJob_kept | with_reducible apply laneSpared_kept | split | dsimp only
      | with_reducible exact snd_kept (by assumption) (by assumption) | refine snd_kept (by assumption) ?_
      | refine fst_kept (by assumption) ?_ | assumption | (refine Once.of_fields (by assumption) ?_ ?_ ?_ <;> rfl)

theorem mirrorTake_kept {b s : State} (h : Kept b s) (x0) : Kept b (mirrorTake x0 s) := by
  unfold mirrorTake
  dsimp only
  generalize x0.item.toNat = n
  split
  · exact modBarrier_kept h _ _ _
  · exact modJob_kept h _ _
  · exact lateSample_kept h _ _ _ _
  · exact modJob_kept h _ _
  · refine modHub_kept h _ ?_
    exact fun _ ⟨a, b, c, d⟩ => ⟨a, b, c, d⟩
  · cases upMessage (BitVec.ofNat 8 (bytesAt x0.value 0 1)) (bytesAt x0.value 1 52) (x0.value.drop 53)
    · exact h
    · refine modHub_kept h _ ?_
      exact fun _ ⟨a, b, c, d⟩ => ⟨a, b, c, d⟩
  · exact modJob_kept h _ _
  · exact rlAppend_kept h _
  · refine modHub_kept h _ ?_
    exact fun _ ⟨a, b, c, d⟩ => ⟨a, b, c, d⟩
  · exact modJob_kept h _ _
  · exact hearLeadGen_kept h _ _
  · refine modHub_kept h _ ?_
    exact fun _ ⟨a, b, c, d⟩ => ⟨a, b, c, d⟩
  · exact h

/-! ## Machine/Image.lean -/

theorem setRunning_kept {b s : State} (h : Kept b s) (x1) : Kept b (setRunning s x1) := by
  unfold setRunning
  repeat' first
      | with_reducible assumption | intro _ | with_reducible apply ite_kept | with_reducible apply modHub_kept
      | with_reducible apply foldl_kept | with_reducible apply envChange_kept | with_reducible apply modJob_kept | split | dsimp only
      | with_reducible exact snd_kept (by assumption) (by assumption) | refine snd_kept (by assumption) ?_
      | refine fst_kept (by assumption) ?_ | assumption | (refine Once.of_fields (by assumption) ?_ ?_ ?_ <;> rfl)

theorem runSlot_kept {b s : State} (h : Kept b s) (x1) : Kept b (runSlot s x1) := by
  unfold runSlot
  repeat' first
      | with_reducible assumption | intro _ | with_reducible apply ite_kept | with_reducible apply modHub_kept
      | with_reducible apply foldl_kept | split | dsimp only | with_reducible exact snd_kept (by assumption) (by assumption)
      | refine snd_kept (by assumption) ?_ | refine fst_kept (by assumption) ?_ | assumption
      | (refine Once.of_fields (by assumption) ?_ ?_ ?_ <;> rfl)

theorem setSlotState_once {x y : Hub} (h : Once x y) (k st) : Once x (setSlotState y k st) := by
  cases k <;> exact h.of_fields rfl rfl rfl
theorem eraseSlot_once {x y : Hub} (h : Once x y) (k) : Once x (eraseSlot y k) := by
  unfold eraseSlot
  refine setSlotState_once ?_ _ _
  exact h.of_fields rfl rfl rfl
theorem rejectTried_kept {b s : State} (h : Kept b s) (x1) : Kept b (rejectTried s x1) := by
  unfold rejectTried
  refine ite_kept (setCause_kept (modHub_kept h _ ?_ ?_ ?_) _ _ _) h
  · exact fun _ ht => ht
  · exact fun _ ht => ht
  · exact fun _ ht => (setSlotState_once ht x1 3).of_fields rfl rfl rfl

theorem romBoot_kept {b s : State} (h : Kept b s) (x1) : Kept b (romBoot s x1) := by
  unfold romBoot
  repeat' first
      | with_reducible assumption | intro _ | with_reducible apply ite_kept | with_reducible apply modHub_kept
      | with_reducible apply foldl_kept | with_reducible apply rejectTried_kept | with_reducible apply setRunning_kept
      | with_reducible apply runSlot_kept | split | dsimp only | with_reducible exact snd_kept (by assumption) (by assumption)
      | refine snd_kept (by assumption) ?_ | refine fst_kept (by assumption) ?_ | assumption
      | (refine Once.of_fields (by assumption) ?_ ?_ ?_ <;> rfl)

/-! ## Machine/Power.lean -/

theorem keepRetired_kept {b s : State} (h : Kept b s) (x1) : Kept b (keepRetired s x1) := by
  unfold keepRetired
  have h1 : ∀ v, Kept b (modUnit s x1 fun r => { r with unitState := 4, unitStateStandin := v }) := fun _ => modUnit_kept h _
      _ fun _ _ => rfl
  have h2 : Kept b (modUnit s x1 fun r => { r with unitState := 4 }) := modUnit_kept h _ _ fun _ _ => rfl
  split
  · exact h
  · split
    · split
      · next hz _ v e =>
        refine modUnit_at (h1 _) _ _ fun h4 => ?_
        have hv : ((s.unit v).unitState == 1) = true := List.find?_some (p := fun u => (s.unit u).unitState == 1) e
        simp only [Bool.and_eq_true, beq_iff_eq] at hz
        rw [unit_modUnit] at h4
        split at h4
        · subst_vars; simp_all
        · simp_all
      · exact h2
    · exact h2

theorem resetIface_kept {b s : State} (h : Kept b s) (x1) : Kept b (resetIface s x1) :=
  modSh_kept h _ _ fun _ ht => ⟨ht.1, ht.2.1, ht.2.2⟩

theorem mem_dedup {α : Type} [DecidableEq α] {a : α} : ∀ {l : List α}, a ∈ l → a ∈ dedup l
  | x :: l, h => by
    simp only [dedup]
    by_cases e : x ∈ l
    · rw [if_pos e]
      rcases List.mem_cons.1 h with h | h
      · exact mem_dedup (h ▸ e)
      · exact mem_dedup h
    · rw [if_neg e]
      rcases List.mem_cons.1 h with h | h
      · exact h ▸ List.mem_cons_self
      · exact List.mem_cons_of_mem _ (mem_dedup h)
theorem keepRetired_unit (s : State) (u) : ((keepRetired s u).unit u).unitState = 4 := by
  unfold keepRetired
  split
  · next h => simpa using h
  · next hn =>
    split
    · split
      · next hz _ v e =>
        have hv : ((s.unit v).unitState == 1) = true := List.find?_some (p := fun u => (s.unit u).unitState == 1) e
        simp only [Bool.and_eq_true, beq_iff_eq] at hz
        rw [unit_modUnit]
        split
        · subst_vars; simp_all
        · rw [unit_modUnit]; simp
      · rw [unit_modUnit]; simp
    · rw [unit_modUnit]; simp
theorem keepRetired_stays (s : State) (v u) (h : (s.unit u).unitState = 4) : ((keepRetired s v).unit u).unitState = 4 := by
  unfold keepRetired
  split
  · exact h
  · split
    · split
      · next hz _ w e =>
        have hv : ((s.unit w).unitState == 1) = true := List.find?_some (p := fun u => (s.unit u).unitState == 1) e
        rw [unit_modUnit]
        split
        · subst_vars; rw [h] at hv; simp at hv
        · rw [unit_modUnit]; split <;> simp_all
      · rw [unit_modUnit]; split <;> simp_all
    · rw [unit_modUnit]; split <;> simp_all
theorem retired_mem (h : Hub) (u : BitVec 16) (hu : (tget (unitReset u.toNat) h.units u.toNat).unitState = 4) : u ∈
    retiredUnits h := by
  have hm : ∀ t : Tbl UnitRegs, (tget (unitReset u.toNat) t u.toNat).unitState = 4 →
      u ∈ (t.filter fun e => e.2.unitState == 4).map fun e => BitVec.ofNat 16 e.1 := by
    intro t
    induction t with
    | nil => intro h4; exfalso; revert h4; simp only [tget]; unfold unitReset; split <;> decide
    | cons e t ih =>
      intro h4
      simp only [tget] at h4
      split at h4
      · next he =>
        refine List.mem_map.2 ⟨e, List.mem_filter.2 ⟨List.mem_cons_self, by simpa using h4⟩, ?_⟩
        rw [he]; simp
      · have := ih h4
        obtain ⟨x, hx, hx'⟩ := List.mem_map.1 this
        have hx2 := List.mem_filter.1 hx
        exact List.mem_map.2 ⟨x, List.mem_filter.2 ⟨List.mem_cons_of_mem _ hx2.1, hx2.2⟩, hx'⟩
  unfold retiredUnits
  exact mem_dedup (List.mem_append_right _ (hm _ hu))
theorem keepRetired_foldl (l : List (BitVec 16)) : ∀ s : State, ∀ u, (u ∈ l ∨ (s.unit u).unitState = 4) → ((l.foldl
    keepRetired s).unit u).unitState = 4 := by
  induction l with
  | nil => intro s u h; simpa using h
  | cons v l ih =>
    intro s u h
    refine ih _ _ ?_
    by_cases e : u = v
    · subst e; exact .inr (keepRetired_unit s _)
    · rcases h with h | h
      · exact .inl ((List.mem_cons.1 h).resolve_left e)
      · exact .inr (keepRetired_stays s v u h)
theorem coreReset_kept {b s : State} (h : Kept b s) (x1) (x2) (x3) : Kept b (coreReset s x1 x2 x3) := by
  have hs : ShOk (coreHub s.hub s.opsec x1 x2 x3).sh := by
    cases x2 <;> cases x3 <;> exact ⟨fun e => (Bool.false_ne_true e).elim, fun e => (Bool.false_ne_true e).elim, Nat.zero_le
        _⟩
  have hb := coreHub_bounded h.2.2 s.opsec x1 x2 x3
  have h0 : Kept { s with hub := coreHub s.hub s.opsec x1 x2 x3 } { s with hub := coreHub s.hub s.opsec x1 x2 x3 } :=
    ⟨⟨rfl, ⟨hs, h.1.2.1.2⟩, ⟨Nat.le_refl _, fun _ hk => hk, fun _ hk => hk⟩⟩, h.2.1, hb⟩
  have h1 := foldl_kept (f := keepRetired) (fun s x hs => keepRetired_kept hs _) (l := retiredUnits s.hub) h0
  have hu : ∀ u ∈ retiredUnits s.hub,
      (((retiredUnits s.hub).foldl keepRetired { s with hub := coreHub s.hub s.opsec x1 x2 x3 }).unit u).unitState = 4 :=
    fun u hu => keepRetired_foldl _ _ _ (.inl hu)
  have h2 : Kept b ((retiredUnits s.hub).foldl keepRetired { s with hub := coreHub s.hub s.opsec x1 x2 x3 }) := by
    refine ⟨⟨h1.1.1.trans h.1.1, h1.1.2.1, ⟨?_, ?_, ?_⟩⟩, h1.2⟩
    · exact Nat.le_trans h.1.2.2.1 (Nat.le_trans (by cases x2 <;> cases x3 <;> exact Nat.le_refl _) h1.1.2.2.1)
    · exact fun k hk => h1.1.2.2.2 k (by cases x2 <;> cases x3 <;> exact h.1.2.2.2 k hk)
    · exact fun u hk => hu u (retired_mem _ _ (h.1.2.2.3 u hk))
  unfold coreReset
  refine modHub_kept h2 _ ?_ ?_ ?_ <;> intro _ ht <;> dsimp only <;> split
  · split <;> exact ht
  · exact ht
  · split <;> exact ht
  · exact ht
  · split
    · exact ht.of_fields rfl rfl rfl
    · exact ht
  · exact ht

theorem coldReset_kept {b s : State} (h : Kept b s) (x1) : Kept b (coldReset s x1) := by
  unfold coldReset
  repeat' first
      | with_reducible assumption | intro _ | with_reducible apply ite_kept | with_reducible apply foldl_kept
      | with_reducible apply coreReset_kept

theorem warmReset_kept {b s : State} (h : Kept b s) : Kept b (warmReset s) := by
  unfold warmReset
  repeat' first
      | with_reducible assumption | intro _ | with_reducible apply ite_kept | with_reducible apply foldl_kept
      | with_reducible apply coreReset_kept

theorem mcReset_kept {b s : State} (h : Kept b s) : Kept b (mcReset s) := by
  unfold mcReset
  repeat' first
      | with_reducible assumption | intro _ | with_reducible apply ite_kept | with_reducible apply modHub_kept
      | with_reducible apply foldl_kept | with_reducible apply romBoot_kept | with_reducible apply resetIface_kept | split | dsimp only
      | with_reducible exact snd_kept (by assumption) (by assumption) | refine snd_kept (by assumption) ?_
      | refine fst_kept (by assumption) ?_ | assumption | (refine Once.of_fields (by assumption) ?_ ?_ ?_ <;> rfl)

theorem powerOnReset_kept {b s : State} (h : Kept b s) (x1) : Kept b (powerOnReset s x1) := by
  unfold powerOnReset
  repeat' first
      | with_reducible assumption | intro _ | with_reducible apply ite_kept | with_reducible apply modHub_kept
      | with_reducible apply foldl_kept | with_reducible apply coldReset_kept | split | dsimp only
      | with_reducible exact snd_kept (by assumption) (by assumption) | refine snd_kept (by assumption) ?_
      | refine fst_kept (by assumption) ?_ | assumption | (refine Once.of_fields (by assumption) ?_ ?_ ?_ <;> rfl)

theorem showVin_kept {b s : State} (h : Kept b s) (x1) : Kept b (showVin s x1) := by
  unfold showVin
  repeat' first
      | with_reducible assumption | intro _ | with_reducible apply ite_kept | with_reducible apply modHub_kept
      | with_reducible apply foldl_kept | split | dsimp only | with_reducible exact snd_kept (by assumption) (by assumption)
      | refine snd_kept (by assumption) ?_ | refine fst_kept (by assumption) ?_ | assumption
      | (refine Once.of_fields (by assumption) ?_ ?_ ?_ <;> rfl)

theorem powerOff_kept {b s : State} (h : Kept b s) (x1) : Kept b (powerOff s x1) := by
  unfold powerOff
  repeat' first
      | with_reducible assumption | intro _ | with_reducible apply ite_kept | with_reducible apply modHub_kept
      | with_reducible apply foldl_kept | with_reducible apply powerOnReset_kept | split | dsimp only
      | with_reducible exact snd_kept (by assumption) (by assumption) | refine snd_kept (by assumption) ?_
      | refine fst_kept (by assumption) ?_ | assumption | (refine Once.of_fields (by assumption) ?_ ?_ ?_ <;> rfl)

theorem modResetWrite_kept {b s : State} (h : Kept b s) (x0) (x1) : Kept b (modResetWrite x0 x1 s).2 := by
  unfold modResetWrite
  repeat' first
      | with_reducible assumption | intro _ | with_reducible apply ite_kept | with_reducible apply onPart_kept
      | with_reducible apply foldl_kept | with_reducible apply refused_kept | with_reducible apply accept_kept
      | with_reducible apply coldReset_kept | with_reducible apply warmReset_kept | with_reducible apply mcReset_kept | split

theorem setIr_kept {b s : State} (h : Kept b s) (x1) : Kept b (setIr s x1) := by
  unfold setIr
  repeat' first
      | with_reducible assumption | intro _ | with_reducible apply ite_kept | with_reducible apply modHub_kept
      | with_reducible apply foldl_kept | split | dsimp only | with_reducible exact snd_kept (by assumption) (by assumption)
      | refine snd_kept (by assumption) ?_ | refine fst_kept (by assumption) ?_ | assumption
      | (refine Once.of_fields (by assumption) ?_ ?_ ?_ <;> rfl)

/-! ## Machine/Fw.lean -/

theorem modFw_kept {b s : State} (h : Kept b s) (f)
    (hf : ∀ r : FwRegs, r.fwSlotsMinSec.toNat ≤ (f r).fwSlotsMinSec.toNat ∧
      ∀ k, r.fwSlotsRevoked.getLsbD k = true → (f r).fwSlotsRevoked.getLsbD k = true := by exact fun _ => ⟨Nat.le_refl _, fun
          _ hk => hk⟩) :
    Kept b (modFw s f) :=
  modHub_kept h _ (fun _ ht => ht) (fun _ ht => ht) fun _ ht =>
    ⟨Nat.le_trans ht.1 (hf _).1, fun k hk => (hf _).2 k (ht.2 k hk), ht.3⟩

theorem refuseImage_kept {b s : State} (h : Kept b s) (x1) : Kept b (refuseImage s x1) := by
  unfold refuseImage
  repeat' first
      | with_reducible assumption | intro _ | with_reducible apply ite_kept | with_reducible apply foldl_kept
      | with_reducible apply setCause_kept | with_reducible apply modFw_kept | split | dsimp only
      | with_reducible exact snd_kept (by assumption) (by assumption) | refine snd_kept (by assumption) ?_
      | refine fst_kept (by assumption) ?_ | assumption | (refine Once.of_fields (by assumption) ?_ ?_ ?_ <;> rfl)
      | exact ⟨Nat.le_refl _, fun _ hk => hk⟩

theorem fwHeader_kept {b s : State} (h : Kept b s) : Kept b (fwHeader s) := by
  unfold fwHeader
  refine ite_kept (refuseImage_kept h _) (modFw_kept (modHub_kept h _ ?_ ?_ ?_) _)
  · exact fun _ ht => ht
  · exact fun _ ht => ht
  · intro _ ht
    refine eraseSlot_once ?_ _
    exact ht.of_fields rfl rfl rfl

theorem fwRange_kept {b s : State} (h : Kept b s) : Kept b (fwRange s) := by
  unfold fwRange
  repeat' first
      | with_reducible assumption | intro _ | with_reducible apply ite_kept | with_reducible apply foldl_kept
      | with_reducible apply modFw_kept | split | dsimp only | with_reducible exact snd_kept (by assumption) (by assumption)
      | refine snd_kept (by assumption) ?_ | refine fst_kept (by assumption) ?_ | assumption
      | (refine Once.of_fields (by assumption) ?_ ?_ ?_ <;> rfl) | exact ⟨Nat.le_refl _, fun _ hk => hk⟩

theorem fwBlock_kept {b s : State} (h : Kept b s)   : Kept b (fwBlock s) := by
  unfold fwBlock
  dsimp only
  split
  · split
    · exact fwRange_kept h
    · split
      · exact modFw_kept h _
      · exact modFw_kept h _
      · refine modFw_kept (modHub_kept h _ ?_) _
        exact fun _ ht => ht
  · exact fwRange_kept h

theorem fwAbort_kept {b s : State} (h : Kept b s) : Kept b (fwAbort s).2 := by
  unfold fwAbort
  split
  · exact refused_kept h _ _
  · split
    · refine accept_kept (modFw_kept (modHub_kept h _ ?_ ?_ ?_) _)
      · exact fun _ ht => ht
      · exact fun _ ht => ht
      · intro _ ht
        refine eraseSlot_once ?_ _
        exact ht.of_fields rfl rfl rfl
    · exact h

theorem fwActivate_kept {b s : State} (h : Kept b s) (x1) (x2) : Kept b (fwActivate s x1 x2).2 := by
  unfold fwActivate
  repeat' first
      | with_reducible assumption | intro _ | with_reducible apply ite_kept | with_reducible apply foldl_kept
      | with_reducible apply refused_kept | with_reducible apply accept_kept | with_reducible apply coldReset_kept
      | with_reducible apply mcReset_kept | split

theorem fwRevoke_kept {b s : State} (h : Kept b s) (x1) : Kept b (fwRevoke s x1).2 := by
  unfold fwRevoke
  split
  · exact refused_kept h _ _
  · refine accept_kept (modFw_kept h _ fun r => ⟨Nat.le_refl _, fun k hk => ?_⟩)
    by_cases e : x1.toNat = k
    · subst e; exact getLsbD_setBit_true _ _ (by omega)
    · rw [getLsbD_setBit_ne _ _ _ _ e]; exact hk

theorem fwCtrlWrite_kept {b s : State} (h : Kept b s) (x0) (x1) (x2) (x3) : Kept b (fwCtrlWrite x0 x1 x2 x3 s).2 := by
  unfold fwCtrlWrite
  refine onPart_kept h fun s hs => ?_
  have hk : ∀ {f : State → Bool × State} {c : Bool}, (∀ s, Kept b s → Kept b (f s).2) → ∀ s, Kept b s → Kept b (if c then f s
      else refused s .hub .fw).2 := by
    intro f c hf s hs; split
    · exact hf s hs
    · exact refused_kept hs _ _
  have ha : ∀ {r : Bool × State} {c : Bool} {f : State → Bool × State}, Kept b r.2 → (∀ s, Kept b s → Kept b (f s).2) → Kept
      b (andThen r c f).2 := by
    intro r c f hr hf; unfold andThen; split
    · exact hf _ hr
    · exact hr
  refine ha ?_ ?_
  refine ha ?_ ?_
  refine ha ?_ ?_
  refine ha ?_ ?_
  refine ha ?_ ?_
  refine ha ?_ ?_
  · exact accept_kept (modFw_kept hs _)
  · exact fun s hs => accept_kept (fwHeader_kept hs)
  · exact fun s hs => accept_kept (fwBlock_kept hs)
  · exact hk fun s hs => fwActivate_kept hs _ _
  · exact fun s hs => fwAbort_kept hs
  · refine hk fun s hs => accept_kept (modHub_kept hs _ ?_)
    exact fun _ ⟨a, b, c, d⟩ => ⟨a, b, c, d⟩
  · exact hk fun s hs => fwRevoke_kept hs _

theorem rejectImage_kept {b s : State} (h : Kept b s) (x1) (x2) : Kept b (rejectImage s x1 x2) := by
  unfold rejectImage
  refine refuseImage_kept (modFw_kept (modHub_kept h _ ?_ ?_ ?_) _) _
  · exact fun _ ht => ht
  · exact fun _ ht => ht
  · intro _ ht
    refine eraseSlot_once ?_ _
    exact ht.of_fields rfl rfl rfl

/-! ## Machine/Read.lean -/

theorem tbClear_ok (t : Shared) (k) (ht : ShOk t) : ShOk { t with tb := { t.tb with regs := t.tb.regs.clear k } } := by
  have : (t.tb.regs.clear k).statusValid = t.tb.regs.statusValid ∧ (t.tb.regs.clear k).statusHoldover =
      t.tb.regs.statusHoldover := by
    unfold TimebaseRegs.clear; split <;> exact ⟨rfl, rfl⟩
  exact by unfold ShOk at *; simp only [this.1, this.2]; exact ht
theorem readTimebase_kept {b s : State} (h : Kept b s) (x0) (x1) : Kept b (readTimebase x0 x1 s).2 := by
  unfold readTimebase
  repeat' first
      | with_reducible exact fun _ ht => tbClear_ok _ _ ht | with_reducible assumption | intro _ | with_reducible apply ite_kept
      | with_reducible apply foldl_kept | with_reducible apply nowLoRead_kept | with_reducible apply modTbRegs_kept | split

theorem readEmu_kept {b s : State} (h : Kept b s) (x0) (x1) (x2) : Kept b (readEmu x0 x1 x2 s).2 := by
  unfold readEmu
  repeat' first
      | with_reducible assumption | intro _ | with_reducible apply ite_kept | with_reducible apply foldl_kept
      | with_reducible apply emuMeanRead_kept | with_reducible apply emuLastTickRead_kept | with_reducible apply modEmu_kept | split

theorem svClear_ok (t : Shared) (k) (ht : ShOk t) : ShOk { t with servo := { t.servo with regs := t.servo.regs.clear k } } :=
    by
  have : (t.servo.regs.clear k).servoStatusState = t.servo.regs.servoStatusState := by
    unfold ServoRegs.clear; split <;> rfl
  exact ⟨fun e => this ▸ ht.1 e, ht.2.1, this ▸ ht.2.2⟩
theorem readServo_kept {b s : State} (h : Kept b s) (x0) (x1) : Kept b (readServo x0 x1 s).2 := by
  unfold readServo
  repeat' first
      | with_reducible exact fun _ ht => svClear_ok _ _ ht | with_reducible assumption | intro _ | with_reducible apply ite_kept
      | with_reducible apply foldl_kept | with_reducible apply modServoRegs_kept

theorem readRef_kept {b s : State} (h : Kept b s) (x0) : Kept b (readRef x0 s).2 := by
  unfold readRef
  repeat' first
      | with_reducible assumption | intro _ | with_reducible apply ite_kept | with_reducible apply modHub_kept
      | with_reducible apply foldl_kept | split | dsimp only | with_reducible exact snd_kept (by assumption) (by assumption)
      | refine snd_kept (by assumption) ?_ | refine fst_kept (by assumption) ?_ | assumption
      | (refine Once.of_fields (by assumption) ?_ ?_ ?_ <;> rfl)

theorem readFw_kept {b s : State} (h : Kept b s) (x0) : Kept b (readFw x0 s).2 := by
  refine modFw_kept h _ fun r => ?_
  unfold FwRegs.clear; split <;> exact ⟨Nat.le_refl _, fun _ hk => hk⟩

theorem readIntcHub_kept {b s : State} (h : Kept b s) (x0) : Kept b (readIntcHub x0 s).2 := by
  unfold readIntcHub
  repeat' first
      | with_reducible assumption | intro _ | with_reducible apply ite_kept | with_reducible apply modHub_kept
      | with_reducible apply foldl_kept | split | dsimp only | with_reducible exact snd_kept (by assumption) (by assumption)
      | refine snd_kept (by assumption) ?_ | refine fst_kept (by assumption) ?_ | assumption
      | (refine Once.of_fields (by assumption) ?_ ?_ ?_ <;> rfl)

theorem readMgmt_kept {b s : State} (h : Kept b s) (x0) : Kept b (readMgmt x0 s).2 := by
  unfold readMgmt
  repeat' first
      | with_reducible assumption | intro _ | with_reducible apply ite_kept | with_reducible apply modHub_kept
      | with_reducible apply foldl_kept | split | dsimp only | with_reducible exact snd_kept (by assumption) (by assumption)
      | refine snd_kept (by assumption) ?_ | refine fst_kept (by assumption) ?_ | assumption
      | (refine Once.of_fields (by assumption) ?_ ?_ ?_ <;> rfl)

theorem readXlat_kept {b s : State} (h : Kept b s) (x0) (x1) : Kept b (readXlat x0 x1 s).2 := by
  unfold readXlat
  repeat' first
      | with_reducible assumption | intro _ | with_reducible apply ite_kept | with_reducible apply modHub_kept
      | with_reducible apply foldl_kept | with_reducible apply modJob_kept | split | dsimp only
      | with_reducible exact snd_kept (by assumption) (by assumption) | refine snd_kept (by assumption) ?_
      | refine fst_kept (by assumption) ?_ | assumption | (refine Once.of_fields (by assumption) ?_ ?_ ?_ <;> rfl)

theorem readLadle_kept {b s : State} (h : Kept b s) (x0) (x1) : Kept b (readLadle x0 x1 s).2 := by
  unfold readLadle
  repeat' first
      | with_reducible assumption | intro _ | with_reducible apply ite_kept | with_reducible apply modHub_kept
      | with_reducible apply foldl_kept | with_reducible apply ladle_kept | split | dsimp only
      | with_reducible exact snd_kept (by assumption) (by assumption) | refine snd_kept (by assumption) ?_
      | refine fst_kept (by assumption) ?_ | assumption | (refine Once.of_fields (by assumption) ?_ ?_ ?_ <;> rfl)

theorem readSynch_kept {b s : State} (h : Kept b s) (x0) (x1) : Kept b (readSynch x0 x1 s).2 := by
  unfold readSynch
  repeat' first
      | with_reducible assumption | intro _ | with_reducible apply ite_kept | with_reducible apply foldl_kept
      | with_reducible apply modSynch_kept | split

theorem readSteph_kept {b s : State} (h : Kept b s) (x0) (x1) : Kept b (readSteph x0 x1 s).2 := by
  unfold readSteph
  repeat' first
      | with_reducible assumption | intro _ | with_reducible apply ite_kept | with_reducible apply foldl_kept
      | with_reducible apply modJob_kept | split | dsimp only

theorem readLate_kept {b s : State} (h : Kept b s) (x0) (x1) : Kept b (readLate x0 x1 s).2 := by
  unfold readLate
  repeat' first
      | with_reducible assumption | intro _ | with_reducible apply ite_kept | with_reducible apply modHub_kept
      | with_reducible apply foldl_kept | with_reducible apply ltMeanRead_kept | split | dsimp only
      | with_reducible exact snd_kept (by assumption) (by assumption) | refine snd_kept (by assumption) ?_
      | refine fst_kept (by assumption) ?_ | assumption | (refine Once.of_fields (by assumption) ?_ ?_ ?_ <;> rfl)

theorem readProg_kept {b s : State} (h : Kept b s) (x0) (x1) : Kept b (readProg x0 x1 s).2 := by
  unfold readProg
  repeat' first
      | with_reducible assumption | intro _ | with_reducible apply ite_kept | with_reducible apply foldl_kept
      | with_reducible apply progDataRead_kept | with_reducible apply modSeqRegs_kept | split

theorem readStock_kept {b s : State} (h : Kept b s) (x0) (x1) : Kept b (readStock x0 x1 s).2 := by
  unfold readStock
  repeat' first
      | with_reducible assumption | intro _ | with_reducible apply ite_kept | with_reducible apply modHub_kept
      | with_reducible apply foldl_kept | with_reducible apply modCtxRegs_kept | split | dsimp only
      | with_reducible exact snd_kept (by assumption) (by assumption) | refine snd_kept (by assumption) ?_
      | refine fst_kept (by assumption) ?_ | assumption | (refine Once.of_fields (by assumption) ?_ ?_ ?_ <;> rfl)

theorem readDigh_kept {b s : State} (h : Kept b s) (x0) (x1) : Kept b (readDigh x0 x1 s).2 := by
  unfold readDigh
  repeat' first
      | with_reducible assumption | intro _ | with_reducible apply ite_kept | with_reducible apply foldl_kept
      | with_reducible apply modDigh_kept | split | dsimp only

theorem readAudit_kept {b s : State} (h : Kept b s) (x0) (x1) : Kept b (readAudit x0 x1 s).2 := by
  unfold readAudit
  repeat' first
      | with_reducible assumption | intro _ | with_reducible apply ite_kept | with_reducible apply modHub_kept
      | with_reducible apply foldl_kept | with_reducible apply audit_kept | with_reducible apply audRd0Read_kept | split
      | dsimp only | with_reducible exact snd_kept (by assumption) (by assumption) | refine snd_kept (by assumption) ?_
      | refine fst_kept (by assumption) ?_ | assumption | (refine Once.of_fields (by assumption) ?_ ?_ ?_ <;> rfl)

theorem readDeth_kept {b s : State} (h : Kept b s) (x0) (x1) : Kept b (readDeth x0 x1 s).2 := by
  unfold readDeth
  repeat' first
      | with_reducible assumption | intro _ | with_reducible apply ite_kept | with_reducible apply modHub_kept
      | with_reducible apply foldl_kept | with_reducible apply modJob_kept | with_reducible apply rlRd0Read_kept | split | dsimp only
      | with_reducible exact snd_kept (by assumption) (by assumption) | refine snd_kept (by assumption) ?_
      | refine fst_kept (by assumption) ?_ | assumption | (refine Once.of_fields (by assumption) ?_ ?_ ?_ <;> rfl)

theorem readEvh_kept {b s : State} (h : Kept b s) (x0) (x1) : Kept b (readEvh x0 x1 s).2 := by
  unfold readEvh
  repeat' first
      | with_reducible assumption | intro _ | with_reducible apply ite_kept | with_reducible apply foldl_kept
      | with_reducible apply evRd0Read_kept | with_reducible apply modEvh_kept | split

theorem readFlt_kept {b s : State} (h : Kept b s) (x0) (x1) : Kept b (readFlt x0 x1 s).2 := by
  unfold readFlt
  repeat' first
      | with_reducible assumption | intro _ | with_reducible apply ite_kept | with_reducible apply modHub_kept
      | with_reducible apply foldl_kept | with_reducible apply modJob_kept | split | dsimp only
      | with_reducible exact snd_kept (by assumption) (by assumption) | refine snd_kept (by assumption) ?_
      | refine fst_kept (by assumption) ?_ | assumption | (refine Once.of_fields (by assumption) ?_ ?_ ?_ <;> rfl)

theorem readTxn_kept {b s : State} (h : Kept b s) (x0) (x1) : Kept b (readTxn x0 x1 s).2 := by
  unfold readTxn
  repeat' first
      | with_reducible assumption | intro _ | with_reducible apply ite_kept | with_reducible apply foldl_kept
      | with_reducible apply modTxnRegs_kept | split

theorem readMemc_kept {b s : State} (h : Kept b s) (x0) (x1) : Kept b (readMemc x0 x1 s).2 := by
  unfold readMemc
  repeat' first
      | with_reducible assumption | intro _ | with_reducible apply ite_kept | with_reducible apply modHub_kept
      | with_reducible apply foldl_kept | with_reducible apply State_fresh_kept | split | dsimp only
      | with_reducible exact snd_kept (by assumption) (by assumption) | refine snd_kept (by assumption) ?_
      | refine fst_kept (by assumption) ?_ | assumption | (refine Once.of_fields (by assumption) ?_ ?_ ?_ <;> rfl)

theorem readLink_kept {b s : State} (h : Kept b s) (x0) (x1) (x2) : Kept b (readLink x0 x1 x2 s).2 := by
  unfold readLink
  repeat' first
      | with_reducible assumption | intro _ | with_reducible apply ite_kept | with_reducible apply foldl_kept
      | with_reducible apply modPage_kept | with_reducible apply ptTsqHeadRead_kept | with_reducible apply modLinkRegs_kept
      | with_reducible apply modFec_kept | split

theorem readPhy_kept {b s : State} (h : Kept b s) (x0) (x1) (x2) : Kept b (readPhy x0 x1 x2 s).2 := by
  unfold readPhy
  repeat' first
      | with_reducible assumption | intro _ | with_reducible apply ite_kept | with_reducible apply modSh_kept
      | with_reducible apply foldl_kept | with_reducible apply State_fresh_kept | split | dsimp only
      | with_reducible exact snd_kept (by assumption) (by assumption) | refine snd_kept (by assumption) ?_
      | refine fst_kept (by assumption) ?_ | assumption

theorem readEvtrig_kept {b s : State} (h : Kept b s) (x0) (x1) : Kept b (readEvtrig x0 x1 s).2 := by
  unfold readEvtrig
  repeat' first
      | with_reducible assumption | intro _ | with_reducible apply ite_kept | with_reducible apply modTsu_kept
      | with_reducible apply foldl_kept | with_reducible apply modTrig_kept | split | dsimp only
      | with_reducible exact snd_kept (by assumption) (by assumption) | refine snd_kept (by assumption) ?_
      | refine fst_kept (by assumption) ?_ | assumption

theorem readTap_kept {b s : State} (h : Kept b s) (x0) (x1) : Kept b (readTap x0 x1 s).2 := by
  unfold readTap
  repeat' first
      | with_reducible assumption | intro _ | with_reducible apply ite_kept | with_reducible apply modTsu_kept
      | with_reducible apply foldl_kept | with_reducible apply tapLaunchRead_kept | with_reducible apply modTap_kept | split | dsimp only
      | with_reducible exact snd_kept (by assumption) (by assumption) | refine snd_kept (by assumption) ?_
      | refine fst_kept (by assumption) ?_ | assumption

theorem readSync_kept {b s : State} (h : Kept b s) (x0) (x1) : Kept b (readSync x0 x1 s).2 := by
  unfold readSync
  repeat' first
      | with_reducible assumption | intro _ | with_reducible apply ite_kept | with_reducible apply foldl_kept
      | with_reducible apply modSync_kept | split

theorem readSpt_kept {b s : State} (h : Kept b s) (x0) (x1) : Kept b (readSpt x0 x1 s).2 := by
  unfold readSpt
  repeat' first
      | with_reducible assumption | intro _ | with_reducible apply ite_kept | with_reducible apply modTsu_kept
      | with_reducible apply foldl_kept | split | dsimp only | with_reducible exact snd_kept (by assumption) (by assumption)
      | refine snd_kept (by assumption) ?_ | refine fst_kept (by assumption) ?_ | assumption

theorem readEvq_kept {b s : State} (h : Kept b s) (x0) (x1) : Kept b (readEvq x0 x1 s).2 := by
  unfold readEvq
  repeat' first
      | with_reducible assumption | intro _ | with_reducible apply ite_kept | with_reducible apply modTsu_kept
      | with_reducible apply foldl_kept | with_reducible apply eqW0Read_kept | split | dsimp only
      | with_reducible exact snd_kept (by assumption) (by assumption) | refine snd_kept (by assumption) ?_
      | refine fst_kept (by assumption) ?_ | assumption

theorem readReg_kept {b s : State} (h : Kept b s) (x0) (x1) (x2) : Kept b (readReg x0 x1 x2 s).2 := by
  unfold readReg
  repeat' first
      | with_reducible assumption | intro _ | with_reducible apply ite_kept | with_reducible apply modTsu_kept
      | with_reducible apply foldl_kept | with_reducible apply ladle_kept | with_reducible apply audit_kept
      | with_reducible apply readTimebase_kept | with_reducible apply readEmu_kept | with_reducible apply readServo_kept
      | with_reducible apply readRef_kept | with_reducible apply readFw_kept | with_reducible apply readIntcHub_kept
      | with_reducible apply readMgmt_kept | with_reducible apply readXlat_kept | with_reducible apply readLadle_kept
      | with_reducible apply readSynch_kept | with_reducible apply readSteph_kept | with_reducible apply readLate_kept
      | with_reducible apply readProg_kept | with_reducible apply readStock_kept | with_reducible apply readDigh_kept
      | with_reducible apply readAudit_kept | with_reducible apply readDeth_kept | with_reducible apply readEvh_kept
      | with_reducible apply readFlt_kept | with_reducible apply readTxn_kept | with_reducible apply readMemc_kept
      | with_reducible apply readLink_kept | with_reducible apply readPhy_kept | with_reducible apply readEvtrig_kept
      | with_reducible apply readTap_kept | with_reducible apply readSync_kept | with_reducible apply readSpt_kept
      | with_reducible apply readEvq_kept | split | dsimp only | with_reducible exact snd_kept (by assumption) (by assumption)
      | refine snd_kept (by assumption) ?_ | refine fst_kept (by assumption) ?_ | assumption

theorem readAt_kept {b s : State} (h : Kept b s) (x0) (x1) : Kept b (readAt x0 x1 s).2.2 := by
  unfold readAt
  repeat' first
      | with_reducible assumption | intro _ | with_reducible apply ite_kept | with_reducible apply foldl_kept
      | with_reducible apply readReg_kept | with_reducible apply refuse_kept | split | dsimp only

/-! ## Machine/Write.lean -/

theorem pageCtrlWrite_kept {b s : State} (h : Kept b s) (x0) (x1) (x2) : Kept b (pageCtrlWrite x0 x1 x2 s).2 := by
  unfold pageCtrlWrite
  repeat' first
      | with_reducible assumption | intro _ | with_reducible apply ite_kept | with_reducible apply foldl_kept
      | with_reducible apply refused_kept | with_reducible apply accept_kept | with_reducible apply modHdr_kept | split | dsimp only

theorem hdrWrite_kept {b s : State} (h : Kept b s) (x0) (x1) (x2) (x3) : Kept b (hdrWrite x0 x1 x2 x3 s).2 := by
  unfold hdrWrite
  repeat' first
      | with_reducible assumption | intro _ | with_reducible apply ite_kept | with_reducible apply foldl_kept
      | with_reducible apply pageCtrlWrite_kept | with_reducible apply accept_kept | with_reducible apply modHdr_kept | split

theorem hubAddrWrite_kept {b s : State} (h : Kept b s) (x0) (x1) : Kept b (hubAddrWrite x0 x1 s).2 := by
  unfold hubAddrWrite
  repeat' first
      | with_reducible assumption | intro _ | with_reducible apply ite_kept | with_reducible apply onPart_kept
      | with_reducible apply modHub_kept | with_reducible apply foldl_kept | with_reducible apply accept_kept
      | with_reducible apply refused_kept | split | dsimp only | with_reducible exact snd_kept (by assumption) (by assumption)
      | refine snd_kept (by assumption) ?_ | refine fst_kept (by assumption) ?_ | assumption
      | (refine Once.of_fields (by assumption) ?_ ?_ ?_ <;> rfl)

theorem mgmtWrite_kept {b s : State} (h : Kept b s) (x0) (x1) (x2) : Kept b (mgmtWrite x0 x1 x2 s).2 := by
  unfold mgmtWrite
  repeat' first
      | with_reducible assumption | intro _ | with_reducible apply ite_kept | with_reducible apply onPart_kept
      | with_reducible apply modHub_kept | with_reducible apply foldl_kept | with_reducible apply refused_kept
      | with_reducible apply accept_kept | split | dsimp only | with_reducible exact snd_kept (by assumption) (by assumption)
      | refine snd_kept (by assumption) ?_ | refine fst_kept (by assumption) ?_ | assumption
      | (refine Once.of_fields (by assumption) ?_ ?_ ?_ <;> rfl)

theorem modWrite_kept {b s : State} (h : Kept b s) (x0) (x1) (x2) : Kept b (modWrite x0 x1 x2 s).2 := by
  unfold modWrite
  repeat' first
      | with_reducible assumption | intro _ | with_reducible apply ite_kept | with_reducible apply onPart_kept
      | with_reducible apply modHub_kept | with_reducible apply foldl_kept | with_reducible apply refused_kept
      | with_reducible apply accept_kept | with_reducible apply modResetWrite_kept | split | dsimp only
      | with_reducible exact snd_kept (by assumption) (by assumption) | refine snd_kept (by assumption) ?_
      | refine fst_kept (by assumption) ?_ | assumption | (refine Once.of_fields (by assumption) ?_ ?_ ?_ <;> rfl)

theorem fwWrite_kept {b s : State} (h : Kept b s) (x0) (x1) (x2) : Kept b (fwWrite x0 x1 x2 s).2 := by
  unfold fwWrite
  split
  · split
    · exact fwCtrlWrite_kept (State_fresh_kept h) _ _ _ _
    · exact fwCtrlWrite_kept h _ _ _ _
  · refine accept_kept (modFw_kept h _ fun r => ?_)
    unfold FwRegs.write; split <;> exact ⟨Nat.le_refl _, fun _ hk => hk⟩

theorem eoiWrite_kept {b s : State} (h : Kept b s) (x0) (x1) : Kept b (eoiWrite x0 x1 s).2 := by
  unfold eoiWrite
  repeat' first
      | with_reducible assumption | intro _ | with_reducible apply ite_kept | with_reducible apply onPart_kept
      | with_reducible apply modHub_kept | with_reducible apply foldl_kept | with_reducible apply accept_kept
      | with_reducible apply msixScan_kept | split | dsimp only | with_reducible exact snd_kept (by assumption) (by assumption)
      | refine snd_kept (by assumption) ?_ | refine fst_kept (by assumption) ?_ | assumption
      | (refine Once.of_fields (by assumption) ?_ ?_ ?_ <;> rfl)

theorem msixUnmask_kept {b s : State} (h : Kept b s) (x1) : Kept b (msixUnmask s x1) := by
  unfold msixUnmask
  repeat' first
      | with_reducible assumption | intro _ | with_reducible apply ite_kept | with_reducible apply modHub_kept
      | with_reducible apply foldl_kept | with_reducible apply msixSend_kept | split | dsimp only
      | with_reducible exact snd_kept (by assumption) (by assumption) | refine snd_kept (by assumption) ?_
      | refine fst_kept (by assumption) ?_ | assumption | (refine Once.of_fields (by assumption) ?_ ?_ ?_ <;> rfl)

theorem msixWrite_kept {b s : State} (h : Kept b s) (x0) (x1) : Kept b (msixWrite x0 x1 s) := by
  unfold msixWrite
  repeat' first
      | with_reducible assumption | intro _ | with_reducible apply ite_kept | with_reducible apply modHub_kept
      | with_reducible apply foldl_kept | with_reducible apply msixUnmask_kept | split | dsimp only
      | with_reducible exact snd_kept (by assumption) (by assumption) | refine snd_kept (by assumption) ?_
      | refine fst_kept (by assumption) ?_ | assumption | (refine Once.of_fields (by assumption) ?_ ?_ ?_ <;> rfl)

theorem vernWrite_kept {b s : State} (h : Kept b s) (x0) (x1) (x2) : Kept b (vernWrite x0 x1 x2 s).2 := by
  unfold vernWrite
  repeat' first
      | with_reducible assumption | intro _ | with_reducible apply ite_kept | with_reducible apply modSh_kept
      | with_reducible apply foldl_kept | with_reducible apply vernCtrlWrite_kept | with_reducible apply refused_kept
      | with_reducible apply accept_kept | split | dsimp only | with_reducible exact snd_kept (by assumption) (by assumption)
      | refine snd_kept (by assumption) ?_ | refine fst_kept (by assumption) ?_ | assumption

theorem emuWrite_kept {b s : State} (h : Kept b s) (x0) (x1) (x2) (x3) : Kept b (emuWrite x0 x1 x2 x3 s).2 := by
  unfold emuWrite
  repeat' first
      | with_reducible assumption | intro _ | with_reducible apply ite_kept | with_reducible apply foldl_kept
      | with_reducible apply emuCtrlWrite_kept | with_reducible apply refused_kept | with_reducible apply accept_kept
      | with_reducible apply modEmu_kept | split

theorem svWrite_ok (t : Shared) (k v) (ht : ShOk t) : ShOk
    { t with servo := { t.servo with regs := t.servo.regs.write k v } } := by
  have : (t.servo.regs.write k v).servoStatusState = t.servo.regs.servoStatusState := by
    unfold ServoRegs.write; split <;> rfl
  exact ⟨fun e => this ▸ ht.1 e, ht.2.1, this ▸ ht.2.2⟩
theorem servoWrite_kept {b s : State} (h : Kept b s) (x0) (x1) (x2) : Kept b (servoWrite x0 x1 x2 s).2 := by
  unfold servoWrite
  repeat' first
      | with_reducible exact fun _ ht => svWrite_ok _ _ _ ht | with_reducible assumption | intro _ | with_reducible apply ite_kept
      | with_reducible apply foldl_kept | with_reducible apply servoCtrlWrite_kept | with_reducible apply rateManualWrite_kept
      | with_reducible apply accept_kept | with_reducible apply modServoRegs_kept | split

theorem refWrite_kept {b s : State} (h : Kept b s) (x0) (x1) (x2) : Kept b (refWrite x0 x1 x2 s).2 := by
  unfold refWrite
  repeat' first
      | with_reducible assumption | intro _ | with_reducible apply ite_kept | with_reducible apply modHub_kept
      | with_reducible apply foldl_kept | with_reducible apply accept_kept | with_reducible apply masterCfgWrite_kept
      | with_reducible apply refTodWrite_kept | with_reducible apply refCtrlWrite_kept | with_reducible apply outCtrlWrite_kept
      | with_reducible apply ptpCtrlWrite_kept | split | dsimp only
      | with_reducible exact snd_kept (by assumption) (by assumption) | refine snd_kept (by assumption) ?_
      | refine fst_kept (by assumption) ?_ | assumption | (refine Once.of_fields (by assumption) ?_ ?_ ?_ <;> rfl)

theorem synchWrite_kept {b s : State} (h : Kept b s) (x0) (x1) (x2) : Kept b (synchWrite x0 x1 x2 s).2 := by
  unfold synchWrite
  repeat' first
      | with_reducible assumption | intro _ | with_reducible apply ite_kept | with_reducible apply foldl_kept
      | with_reducible apply shGenWrite_kept | with_reducible apply shCountWrite_kept | with_reducible apply shJobWrite_kept
      | with_reducible apply accept_kept | with_reducible apply modIfaceRegs_kept | split

theorem progWrite_kept {b s : State} (h : Kept b s) (x0) (x1) (x2) : Kept b (progWrite x0 x1 x2 s).2 := by
  unfold progWrite
  repeat' first
      | with_reducible assumption | intro _ | with_reducible apply ite_kept | with_reducible apply foldl_kept
      | with_reducible apply accept_kept | with_reducible apply modIfaceRegs_kept | with_reducible apply progCtrlWrite_kept
      | with_reducible apply progAddrWrite_kept | with_reducible apply progDataWrite_kept | split

theorem auditWrite_kept {b s : State} (h : Kept b s) (x0) (x1) (x2) : Kept b (auditWrite x0 x1 x2 s).2 := by
  unfold auditWrite
  repeat' first
      | with_reducible assumption | intro _ | with_reducible apply ite_kept | with_reducible apply modHub_kept
      | with_reducible apply foldl_kept | with_reducible apply audCtrlWrite_kept | with_reducible apply audCfgWrite_kept
      | with_reducible apply audTailWrite_kept | with_reducible apply accept_kept | with_reducible apply modIfaceRegs_kept | split
      | dsimp only | with_reducible exact snd_kept (by assumption) (by assumption) | refine snd_kept (by assumption) ?_
      | refine fst_kept (by assumption) ?_ | assumption | (refine Once.of_fields (by assumption) ?_ ?_ ?_ <;> rfl)

theorem dethWrite_kept {b s : State} (h : Kept b s) (x0) (x1) (x2) : Kept b (dethWrite x0 x1 x2 s).2 := by
  unfold dethWrite
  repeat' first
      | with_reducible assumption | intro _ | with_reducible apply ite_kept | with_reducible apply modHub_kept
      | with_reducible apply foldl_kept | with_reducible apply accept_kept | with_reducible apply modIfaceRegs_kept
      | with_reducible apply rlCfgWrite_kept | with_reducible apply rlTailWrite_kept | with_reducible apply hqPushWrite_kept | split
      | dsimp only | with_reducible exact snd_kept (by assumption) (by assumption) | refine snd_kept (by assumption) ?_
      | refine fst_kept (by assumption) ?_ | assumption | (refine Once.of_fields (by assumption) ?_ ?_ ?_ <;> rfl)

theorem evhWrite_kept {b s : State} (h : Kept b s) (x0) (x1) (x2) : Kept b (evhWrite x0 x1 x2 s).2 := by
  unfold evhWrite
  repeat' first
      | with_reducible assumption | intro _ | with_reducible apply ite_kept | with_reducible apply foldl_kept
      | with_reducible apply accept_kept | with_reducible apply modEvh_kept | with_reducible apply modIfaceRegs_kept | split

theorem fltWrite_kept {b s : State} (h : Kept b s) (x0) (x1) (x2) : Kept b (fltWrite x0 x1 x2 s).2 := by
  unfold fltWrite
  repeat' first
      | with_reducible assumption | intro _ | with_reducible apply ite_kept | with_reducible apply foldl_kept
      | with_reducible apply fltCtrlWrite_kept | with_reducible apply fltHbWrite_kept | with_reducible apply refused_kept
      | with_reducible apply accept_kept | with_reducible apply modIfaceRegs_kept | split

theorem txnWrite_kept {b s : State} (h : Kept b s) (x0) (x1) (x2) : Kept b (txnWrite x0 x1 x2 s).2 := by
  unfold txnWrite
  repeat' first
      | with_reducible assumption | intro _ | with_reducible apply ite_kept | with_reducible apply foldl_kept
      | with_reducible apply txnCtrlWrite_kept | with_reducible apply accept_kept | with_reducible apply modIfaceRegs_kept
      | with_reducible apply abortCmdWrite_kept | split

theorem lkRegCtrlWrite_kept {b s : State} (h : Kept b s) (x0) (x1) (x2) : Kept b (lkRegCtrlWrite x0 x1 x2 s).2 := by
  unfold lkRegCtrlWrite
  repeat' first
      | with_reducible assumption | intro _ | with_reducible apply ite_kept | with_reducible apply foldl_kept
      | with_reducible apply refused_kept | with_reducible apply modLinkRegs_kept | with_reducible apply accept_kept
      | with_reducible apply modLink_kept | with_reducible apply sendLink_kept | split | dsimp only

theorem linkWrite_kept {b s : State} (h : Kept b s) (x0) (x1) (x2) (x3) : Kept b (linkWrite x0 x1 x2 x3 s).2 := by
  unfold linkWrite
  repeat' first
      | with_reducible assumption | intro _ | with_reducible apply ite_kept | with_reducible apply foldl_kept
      | with_reducible apply portRoleWrite_kept | with_reducible apply accept_kept | with_reducible apply modIface_kept
      | with_reducible apply refused_kept | with_reducible apply ptCtrlWrite_kept | with_reducible apply modLink_kept
      | with_reducible apply modPage_kept | with_reducible apply ptProbeWrite_kept | with_reducible apply lkCtrlWrite_kept
      | with_reducible apply lkRegCtrlWrite_kept | with_reducible apply modLinkRegs_kept | split | dsimp only

theorem phyWrite_kept {b s : State} (h : Kept b s) (x0) (x1) (x2) (x3) : Kept b (phyWrite x0 x1 x2 x3 s).2 := by
  unfold phyWrite
  repeat' first
      | with_reducible assumption | intro _ | with_reducible apply ite_kept | with_reducible apply foldl_kept
      | with_reducible apply accept_kept | with_reducible apply refused_kept | with_reducible apply modIface_kept | split

theorem evtrigWrite_kept {b s : State} (h : Kept b s) (x0) (x1) (x2) : Kept b (evtrigWrite x0 x1 x2 s).2 := by
  unfold evtrigWrite
  repeat' first
      | with_reducible assumption | intro _ | with_reducible apply ite_kept | with_reducible apply modTsu_kept
      | with_reducible apply foldl_kept | with_reducible apply accept_kept | with_reducible apply trigCtrlWrite_kept
      | with_reducible apply modIfaceRegs_kept | with_reducible apply modTrig_kept | with_reducible apply trigWidthWrite_kept
      | with_reducible apply oneshotWrite_kept | with_reducible apply trigWrite_kept | split | dsimp only
      | with_reducible exact snd_kept (by assumption) (by assumption) | refine snd_kept (by assumption) ?_
      | refine fst_kept (by assumption) ?_ | assumption

theorem tapPageWrite_kept {b s : State} (h : Kept b s) (x0) (x1) (x2) : Kept b (tapPageWrite x0 x1 x2 s).2 := by
  unfold tapPageWrite
  repeat' first
      | with_reducible assumption | intro _ | with_reducible apply ite_kept | with_reducible apply modTsu_kept
      | with_reducible apply foldl_kept | with_reducible apply refused_kept | with_reducible apply accept_kept
      | with_reducible apply modIfaceRegs_kept | with_reducible apply tapGlobalWrite_kept | split | dsimp only
      | with_reducible exact snd_kept (by assumption) (by assumption) | refine snd_kept (by assumption) ?_
      | refine fst_kept (by assumption) ?_ | assumption

theorem syncWrite_kept {b s : State} (h : Kept b s) (x0) (x1) (x2) : Kept b (syncWrite x0 x1 x2 s).2 := by
  unfold syncWrite
  repeat' first
      | with_reducible assumption | intro _ | with_reducible apply ite_kept | with_reducible apply foldl_kept
      | with_reducible apply accept_kept | with_reducible apply modIfaceRegs_kept | with_reducible apply soCfgWrite_kept
      | with_reducible apply soValWrite_kept | with_reducible apply soGenWrite_kept | with_reducible apply waitArmWrite_kept
      | with_reducible apply modWait_kept | with_reducible apply winStateWrite_kept | with_reducible apply modSync_kept | split

theorem detPageWrite_kept {b s : State} (h : Kept b s) (x0) (x1) (x2) : Kept b (detPageWrite x0 x1 x2 s).2 := by
  unfold detPageWrite
  repeat' first
      | with_reducible assumption | intro _ | with_reducible apply ite_kept | with_reducible apply modTsu_kept
      | with_reducible apply foldl_kept | with_reducible apply accept_kept | with_reducible apply rqPushWrite_kept
      | with_reducible apply rqStatusWrite_kept | with_reducible apply detWrite_kept | split | dsimp only
      | with_reducible exact snd_kept (by assumption) (by assumption) | refine snd_kept (by assumption) ?_
      | refine fst_kept (by assumption) ?_ | assumption

theorem pageWrite_kept {b s : State} (h : Kept b s) (x0) (x1) (x2) (x3) : Kept b (pageWrite x0 x1 x2 x3 s).2 := by
  unfold pageWrite
  repeat' first
      | with_reducible assumption | intro _ | with_reducible apply ite_kept | with_reducible apply modTsu_kept
      | with_reducible apply foldl_kept | with_reducible apply modIfaceRegs_kept | with_reducible apply accept_kept
      | with_reducible apply hallEpochWrite_kept | with_reducible apply ladle_kept | with_reducible apply audit_kept
      | with_reducible apply ltCfgWrite_kept | with_reducible apply hubAddrWrite_kept | with_reducible apply mgmtWrite_kept
      | with_reducible apply modWrite_kept | with_reducible apply fwWrite_kept | with_reducible apply eoiWrite_kept
      | with_reducible apply vernWrite_kept | with_reducible apply emuWrite_kept | with_reducible apply servoWrite_kept
      | with_reducible apply refWrite_kept | with_reducible apply synchWrite_kept | with_reducible apply progWrite_kept
      | with_reducible apply auditWrite_kept | with_reducible apply dethWrite_kept | with_reducible apply evhWrite_kept
      | with_reducible apply fltWrite_kept | with_reducible apply txnWrite_kept | with_reducible apply linkWrite_kept
      | with_reducible apply phyWrite_kept | with_reducible apply evtrigWrite_kept | with_reducible apply tapPageWrite_kept
      | with_reducible apply syncWrite_kept | with_reducible apply detPageWrite_kept | split | dsimp only
      | with_reducible exact snd_kept (by assumption) (by assumption) | refine snd_kept (by assumption) ?_
      | refine fst_kept (by assumption) ?_ | assumption

theorem writeReg_kept {b s : State} (h : Kept b s) (x0) (x1) (x2) (x3) (x4) : Kept b (writeReg x0 x1 x2 x3 x4 s) := by
  unfold writeReg
  repeat' first
      | with_reducible assumption | intro _ | with_reducible apply ite_kept | with_reducible apply foldl_kept
      | with_reducible apply answer_kept | with_reducible apply hdrWrite_kept | with_reducible apply soOpWrite_kept
      | with_reducible apply tapWrite_kept | with_reducible apply pageWrite_kept

theorem writeAt_kept {b s : State} (h : Kept b s) (x0) (x1) (x2) (x3) : Kept b (writeAt x0 x1 x2 x3 s) := by
  unfold writeAt
  repeat' first
      | with_reducible assumption | intro _ | with_reducible apply ite_kept | with_reducible apply foldl_kept
      | with_reducible apply answer_kept | with_reducible apply refuse_kept | with_reducible apply writeReg_kept
      | with_reducible apply xbufWrite_kept | with_reducible apply msixWrite_kept | split

/-! ## Machine/Late.lean -/

theorem hostAccess_kept {b s : State} (h : Kept b s) (x1) : Kept b (hostAccess s x1) := by
  unfold hostAccess
  split
  · exact writeAt_kept h _ _ _ _
  · exact modTsu_kept (readAt_kept h _ _) _ fun _ ht => ⟨by simpa using ht.1, ht.2⟩

theorem tsuWord_kept {b s t : State} (h : Kept b s) (op) (e : tsuWord op s = .next t) : Kept b t := by
  unfold tsuWord at e
  split at e
  all_goals first
    | exact execNop_kept h _ e | exact execJmp_kept h _ e | exact execBr_kept h _ e | exact execLoop_kept h _ e
    | exact execLdi_kept h _ e | exact execLdhi_kept h _ e | exact execAlu_kept h _ e | exact execLdstep_kept h _ e
    | exact execLdrank_kept h _ e | exact execWhisk_kept h _ e | exact execLdtime_kept h _ e | exact execLdlaunch_kept h _ e
    | exact execLdevt_kept h _ e | exact execLdso_kept h _ e | exact execLdbuf_kept h _ e | exact execStbuf_kept h _ e
    | exact execArrive_kept h _ e | exact execSoadd_kept h _ e | exact execSoset_kept h _ e | exact execSoclr_kept h _ e
    | exact execOpenwin_kept h _ e | exact execFence_kept h _ e | exact execSend_kept h _ e | exact execWait_kept h _ e
    | exact execWaitevt_kept h _ e | exact execWaittick_kept h _ e | exact execTrig_kept h _ e | exact execStepend_kept h _ e
    | exact execContrib_kept h _ e | exact execResult_kept h _ e | exact execResultx_kept h _ e | exact execDigest_kept h _ e
    | (cases e; exact h)

/-- What is kept does not depend on which commands wait. -/
theorem Kept.pend {b s : State} (h : Kept b s) (p : List Instr) : Kept { b with pending := p } { s with pending := p } :=
  ⟨⟨rfl, h.1.2⟩, h.2⟩

theorem lateWord_kept {b s : State} (h : Kept b s) (x1) : Kept b (lateWord s x1) := by
  unfold lateWord
  split
  · next t e => exact ⟨⟨h.1.1, (tsuWord_kept (h.pend []) _ e).1.2⟩, (tsuWord_kept (h.pend []) _ e).2⟩
  · exact h

theorem endCycle_kept {b s : State} (h : Kept b s) : Kept b (endCycle s) := by
  unfold endCycle
  repeat' first
      | with_reducible assumption | intro _ | with_reducible apply ite_kept | with_reducible apply modTsu_kept
      | with_reducible apply foldl_kept | with_reducible apply hostAccess_kept | with_reducible apply lateWord_kept | split
      | dsimp only | with_reducible exact snd_kept (by assumption) (by assumption) | refine snd_kept (by assumption) ?_
      | refine fst_kept (by assumption) ?_ | assumption

/-! ## Machine/Sched.lean -/

theorem relaunchTaps_kept {b s : State} (h : Kept b s) (x1) : Kept b (relaunchTaps s x1) := by
  unfold relaunchTaps
  repeat' first
      | with_reducible assumption | intro _ | with_reducible apply ite_kept | with_reducible apply foldl_kept
      | with_reducible apply launchTap_kept

theorem resolveLaunch_kept {b s : State} (h : Kept b s) : Kept b (resolveLaunch s).2 := by
  unfold resolveLaunch
  repeat' first
      | with_reducible assumption | intro _ | with_reducible apply ite_kept | with_reducible apply modTsu_kept
      | with_reducible apply foldl_kept | with_reducible apply launchMiss_kept | with_reducible apply relaunchTaps_kept | split
      | dsimp only | with_reducible exact snd_kept (by assumption) (by assumption) | refine snd_kept (by assumption) ?_
      | refine fst_kept (by assumption) ?_ | assumption

theorem resolveSlot_kept {b s : State} (h : Kept b s) (x1) : Kept b (resolveSlot s x1) := by
  unfold resolveSlot
  repeat' first
      | with_reducible assumption | intro _ | with_reducible apply ite_kept | with_reducible apply foldl_kept
      | with_reducible apply completeSlot_kept | with_reducible apply modSync_kept | split

theorem resolveTrig_kept {b s : State} (h : Kept b s) (x1) : Kept b (resolveTrig s x1) := by
  unfold resolveTrig
  repeat' first
      | with_reducible assumption | intro _ | with_reducible apply ite_kept | with_reducible apply foldl_kept
      | with_reducible apply modTrig_kept

theorem resolveCommit_kept {b s : State} (h : Kept b s) (x0) (x1) (x3) : Kept b (resolveCommit x0 x1 s x3) := by
  unfold resolveCommit
  repeat' first
      | with_reducible assumption | intro _ | with_reducible apply ite_kept | with_reducible apply foldl_kept
      | with_reducible apply noCommit_kept

theorem resolveWaittick_kept {b s : State} (h : Kept b s) : Kept b (resolveWaittick s) := by
  unfold resolveWaittick
  repeat' first
      | with_reducible assumption | intro _ | with_reducible apply ite_kept | with_reducible apply foldl_kept
      | with_reducible apply completeWait_kept | split

theorem resolveHome_kept {b s : State} (h : Kept b s) (x1) : Kept b (resolveHome s x1) := by
  unfold resolveHome
  repeat' first
      | with_reducible assumption | intro _ | with_reducible apply ite_kept | with_reducible apply foldl_kept
      | with_reducible apply reportTake_kept | with_reducible apply modJob_kept | split

theorem resolveKept_kept {b s : State} (h : Kept b s) (x1) : Kept b (resolveKept s x1) := by
  unfold resolveKept
  repeat' first
      | with_reducible assumption | intro _ | with_reducible apply ite_kept | with_reducible apply foldl_kept
      | with_reducible apply resolveLaunch_kept | with_reducible apply resolveTrig_kept | with_reducible apply resolveSlot_kept
      | with_reducible apply resolveWaittick_kept | with_reducible apply resolveCommit_kept | with_reducible apply resolveHome_kept
      | with_reducible apply modTb_kept | split | dsimp only | with_reducible exact snd_kept (by assumption) (by assumption)
      | refine snd_kept (by assumption) ?_ | refine fst_kept (by assumption) ?_ | assumption

theorem fireLaunch_kept {b s : State} (h : Kept b s) : Kept b (fireLaunch s) := by
  unfold fireLaunch
  repeat' first
      | with_reducible assumption | intro _ | with_reducible apply ite_kept | with_reducible apply foldl_kept
      | with_reducible apply launchStep_kept | split

theorem fireHome_kept {b s : State} (h : Kept b s) (x1) : Kept b (fireHome s x1) := by
  unfold fireHome
  repeat' first
      | with_reducible assumption | intro _ | with_reducible apply ite_kept | with_reducible apply foldl_kept
      | with_reducible apply homeLaunch_kept | split

theorem fireCommit_kept {b s : State} (h : Kept b s) (x0) (x2) : Kept b (fireCommit x0 s x2) := by
  unfold fireCommit
  repeat' first
      | with_reducible assumption | intro _ | with_reducible apply ite_kept | with_reducible apply foldl_kept
      | with_reducible apply applyStaged_kept

theorem fireWaittick_kept {b s : State} (h : Kept b s) : Kept b (fireWaittick s) := by
  unfold fireWaittick
  repeat' first
      | with_reducible assumption | intro _ | with_reducible apply ite_kept | with_reducible apply foldl_kept
      | with_reducible apply completeWait_kept | split

/-! ## Machine/Access.lean -/

theorem pcieReads_kept {b s : State} (h : Kept b s) (x0) (x1) : Kept b (pcieReads x0 x1 s).2 := by
  induction x0 generalizing s x1 with
  | zero => exact h
  | succ n ih => exact ih (readAt_kept h _ _) _

theorem pcieWrites_kept {b s : State} (h : Kept b s) (x0) (x1) (x2) : Kept b (pcieWrites x0 x1 x2 s) := by
  induction x0 generalizing s x1 x2 with
  | zero => exact h
  | succ n ih => exact ih (writeAt_kept h _ _ _ _) _ _

theorem bar0Read_kept {b s : State} (h : Kept b s) (x0) (x1) : Kept b (bar0Read x0 x1 s) := by
  unfold bar0Read
  repeat' first
      | with_reducible assumption | intro _ | with_reducible apply ite_kept | with_reducible apply emit_kept
      | with_reducible apply foldl_kept | with_reducible apply readAt_kept | with_reducible apply pcieReads_kept
      | with_reducible apply refuse_kept

theorem bar0Write_kept {b s : State} (h : Kept b s) (x0) (x1) : Kept b (bar0Write x0 x1 s) := by
  unfold bar0Write
  repeat' first
      | with_reducible assumption | intro _ | with_reducible apply ite_kept | with_reducible apply foldl_kept
      | with_reducible apply pcieWrites_kept | with_reducible apply refuse_kept

theorem mgDrop_kept {b s : State} (h : Kept b s) : Kept b (mgDrop s) := by
  unfold mgDrop
  repeat' first
      | with_reducible assumption | intro _ | with_reducible apply ite_kept | with_reducible apply modHub_kept
      | with_reducible apply foldl_kept | split | dsimp only | with_reducible exact snd_kept (by assumption) (by assumption)
      | refine snd_kept (by assumption) ?_ | refine fst_kept (by assumption) ?_ | assumption
      | (refine Once.of_fields (by assumption) ?_ ?_ ?_ <;> rfl)

theorem queryAnswers_kept {b s : State} (h : Kept b s) (x0) : Kept b (queryAnswers x0 s).2 := by
  induction x0 generalizing s with
  | nil => exact h
  | cons o os ih =>
    simp only [queryAnswers]
    split
    · exact ih h
    · exact ih (readAt_kept h _ _)

theorem spillLost_kept {b s : State} (h : Kept b s) (x0) (x1) (x2) (x4) : Kept b (spillLost x0 x1 x2 s x4) := by
  unfold spillLost
  repeat' first
      | with_reducible assumption | intro _ | with_reducible apply ite_kept | with_reducible apply foldl_kept
      | with_reducible apply modCtx_kept | with_reducible apply unresolved_kept | with_reducible apply State_fresh_kept

end

end Sys2Proof.Machine
end

