-- ==== Sys2Proof/WellFormed.lean ====
section
/-! DEFINITION. The commands that name something the device has: a port, a link, a lane, an engine or a converter cluster out of its
range has no meaning in the spec. A value of an operand is never out of range: what a refused value does is the command's effect. -/

namespace Sys2Proof

/-- Hub ports are numbered 0 to 71, TSU links 0 and 1 (R25, R182). -/
def portOk : Part → BitVec 7 → Bool
  | .hub, p => decide (p.toNat < 72)
  | .tsu, p => decide (p.toNat < 2)

/-- A hub port has five physical lanes, a TSU link two (R522). -/
def laneOk : Part → BitVec 3 → Bool
  | .hub, l => decide (l.toNat < 5)
  | .tsu, l => decide (l.toNat < 2)

/-- Converter clusters: 19 on the hub, one on the TSU (R78). -/
def clusterOk : Part → BitVec 5 → Bool
  | .hub, c => decide (c.toNat < 19)
  | .tsu, c => c == 0

/-- Edge measurement engines: four on the hub, two on the TSU (R85). -/
def engineOk : Part → BitVec 2 → Bool
  | .hub, _ => true
  | .tsu, e => decide (e.toNat < 2)

/-- A link of a part: a hub port at one of four sub-port positions, or a TSU link, which has no sub-ports (R25, R182). -/
def LinkId.ok (l : LinkId) : Bool := portOk l.part l.port && (decide (l.part = .hub) || l.sub == 0)

/-- An interface that reaches registers: a hub port carries register flits of its own (R507). -/
def Iface.ok : Iface → Bool
  | .port p => portOk .hub p
  | _ => true

/-- A stamping point of a part (R73, R86). -/
def Point.ok : Point → Bool
  | .linkTx l | .linkRx l => l.ok
  | .engineA p e | .engineB p e => engineOk p e

/-- What a converter has counted: 1 to 512 (R73). -/
def conversionOk (n : BitVec 10) : Bool := decide (1 ≤ n.toNat) && decide (n.toNat ≤ 512)

/-- The calibration of a converter takes 16 test edges (R80). -/
def CalResult.ok (r : CalResult) : Bool := r.point.ok && r.errors.length == 16

/-- Everything a command names is there, and what it brings is what its rule has measured. -/
def Instr.wf : Instr → Bool
  | .registerWrite i _ _ => i.ok
  | .registerReadClear i _ => i.ok
  | .portRoleWrite i port _ => i.ok && portOk i.part port
  | .edgeTranslate l _ _ _ => l.ok
  | .islandCycle _ => true
  | .scheduledActionFire _ => true
  | .islandLock _ => true
  | .islandLockLoss _ => true
  | .hallEpochWrite i _ => i.ok
  | .epochRevalid => true
  | .nowLoRead i => i.ok
  | .stampEdge k _ => k.ok
  | .conversionDone k _ n => k.ok && conversionOk n
  | .lockGateEnd p c _ _ => clusterOk p c
  | .calNow i _ => i.ok
  | .clusterCalPeriod _ => true
  | .clusterCalDone p c results => clusterOk p c && results.all fun r => r.ok
  | .emuStart i e _ => i.ok && engineOk i.part e
  | .emuAbort i e _ => i.ok && engineOk i.part e
  | .emuIntervalTimeout p e => engineOk p e
  | .emuSetDone p e => engineOk p e
  | .emuMeanRead i e => i.ok && engineOk i.part e
  | .emuLastTickRead i e => i.ok && engineOk i.part e
  | .syncOrigin _ => true
  | .syncReceive l _ => l.ok
  | .syncFuReceive l _ => l.ok
  | .syncFuForward l _ _ => l.ok
  | .fuTimeout l _ => l.ok
  | .dreqSend l => l.ok
  | .dreqReceive l _ => l.ok
  | .drespFuSend l _ => l.ok
  | .drespReceive l _ => l.ok
  | .drespFuReceive l _ => l.ok
  | .delayRestart l => l.ok
  | .announceSend => true
  | .announceReceive l _ => l.ok
  | .laneCalPeriod p port => portOk p port
  | .ptCalNow i port _ => i.ok && portOk i.part port
  | .laneCalDone p port lane _ _ _ _ => portOk p port && laneOk p lane
  | .ptProbeWrite i port _ => i.ok && portOk i.part port
  | .probeReceive l _ => l.ok
  | .probeEchoReceive l _ => l.ok
  | .ptTsqHeadRead i port => i.ok && portOk i.part port
  | .holdoverEnter _ => true
  | .holdLimitExpire _ => true
  | .offsetGateRun _ => true
  | .servoModeAuto i _ => i.ok
  | .servoModeFreeze i _ => i.ok
  | .servoModeManual i _ => i.ok
  | .reacquire i _ => i.ok
  | .candidateAnnounceSend _ => true
  | .masterElect => true
  | .masterHandover i _ => i.ok
  | .handoverAuto => true
  | .handoverTickReached => true
  | .masterLossDetect => true
  | .masterTakeover => true
  | .ppsEdge _ _ _ => true
  | .f10mSample _ _ => true
  | .refTodWrite i _ => i.ok
  | .refAlign i _ => i.ok
  | .refLoss => true
  | .refHoldExpire => true
  | .referenceOutputEdge _ _ => true
  | .ptpAnnounceReceive _ _ _ _ _ _ => true
  | .ptpSyncReceive _ _ _ _ _ => true
  | .ptpFollowUpReceive _ _ _ _ => true
  | .ptpDelayReqSend _ => true
  | .ptpDelayRespReceive _ _ _ _ => true
  | .tsuReset => true
  | .tsuResetRelease _ _ _ => true
  | .hostPortReset => true
  | .hostPortRequest _ _ _ _ => true
  | .hostPortResponse => true
  | .eventInputEdge _ _ => true
  | .triggerPulseStart _ => true
  | .triggerPulseEnd _ => true
  | .wcIssuedBeat _ _ => true
  | .wcDoneBeat _ _ => true
  | .ingressBeat _ _ => true
  | .rootTimeFrameSend => true
  | .tapDllLock _ => true
  | .strobeLoss _ => true
  | .tapIdleFrame _ _ => true
  | .tapTimeFrame _ _ _ => true
  | .tapFrameDropRun _ => true
  | .tapLaunchFrame _ _ _ => true
  | .tapCancelFrame _ _ => true
  | .tapCfgFrame _ _ => true
  | .tapNbTestFrame _ _ => true
  | .rootHeldLaunchSend _ => true
  | .launchHoldExpire _ => true
  | .tapArm _ _ => true
  | .tapLaunchEdge _ _ _ => true
  | .stretchIndicationRise _ => true
  | .stretchIndicationFall _ _ _ => true
  | .holdExtExpire _ => true
  | .neighbourNoticeRise _ _ => true
  | .neighbourNoticeFall _ _ => true
  | .pnomMeasured _ cycles => cycles.length == 64
  | .nbCheck i _ => i.ok
  | .nbTestNoticeSeen _ _ _ => true
  | .nbCheckDone => true
  | .fcRequest _ _ => true
  | .fcAckDeferEnd _ => true
  | .fcRequestDrop _ => true
  | .fcStopOverrun _ => true
  | .regionStop _ => true
  | .regionFreqWindow _ _ _ => true
  | .tapSilent _ => true
  | .replicaWindowEnd _ _ => true
  | .tapReportSend _ => true
  | .heartbeatReport _ _ => true
  | .launchedReport _ _ => true
  | .slackReport _ _ => true
  | .overrunReport _ _ => true
  | .fcReport _ _ => true
  | .marginReport _ _ => true
  | .refLossReport _ _ => true
  | .cfgAckReport _ _ => true
  | .nbSeenReport _ _ => true
  | .tapRegisterWrite i _ _ => i.ok
  | .tapLaunchRead i => i.ok
  | .soCfgWrite i _ => i.ok
  | .soOpArrive i _ => i.ok
  | .soOpAdd i _ => i.ok
  | .soOpSet i _ => i.ok
  | .soOpClear i _ => i.ok
  | .soOpSend i _ => i.ok
  | .soOpOpenWindow i _ => i.ok
  | .arriveReceive l _ _ _ => l.ok
  | .arrivePartialForward l _ _ _ => l.ok
  | .barrierPartialFold l _ _ _ => l.ok
  | .twinReleaseReceive l _ => l.ok
  | .releaseReplicate l _ => l.ok
  | .releaseReceive l _ => l.ok
  | .timedReleaseComplete _ => true
  | .sendFenceMet => true
  | .sendQueueSpace => true
  | .sendTimeout _ => true
  | .signalReceive l _ => l.ok
  | .signalTakeEffect => true
  | .waitArm i _ => i.ok
  | .waitCancel i _ => i.ok
  | .waitComplete _ => true
  | .flagAutoclr _ => true
  | .waitTimeout _ => true
  | .soValWrite i _ => i.ok
  | .soGenWrite i _ => i.ok
  | .winProgressWrite i _ => i.ok
  | .shGenWrite i _ => i.ok
  | .shCountWrite i _ => i.ok
  | .releaseLeadNsWrite i _ => i.ok
  | .launchGuardMiss => true
  | .jobLaunch _ => true
  | .stepLaunch => true
  | .stepReleaseReceive l _ => l.ok
  | .trigModeWrite i _ => i.ok
  | .trigParamWrite i _ _ => i.ok
  | .trigOneshotWrite i _ => i.ok
  | .latenessSetEnd _ _ => true
  | .latenessBlockEnd _ _ => true
  | .ltCfgWrite i _ => i.ok
  | .ltMeanRead i => i.ok
  | .progBegin i _ => i.ok
  | .progCommit i _ => i.ok
  | .progDataWrite i _ => i.ok
  | .progAddrWrite i _ => i.ok
  | .progCheckDone _ => true
  | .homePassStart _ => true
  | .nop _ => true
  | .endPass _ => true
  | .jmp _ => true
  | .br _ => true
  | .loop _ => true
  | .ldi _ => true
  | .ldhi _ => true
  | .alu _ => true
  | .ldstep _ => true
  | .ldrank _ => true
  | .whisk _ => true
  | .ldtime _ => true
  | .ldlaunch _ => true
  | .ldevt _ => true
  | .ldso _ => true
  | .ldbuf _ => true
  | .stbuf _ => true
  | .arrive _ => true
  | .soadd _ => true
  | .soset _ => true
  | .soclr _ => true
  | .openwin _ => true
  | .fence _ => true
  | .fenceComplete => true
  | .send _ => true
  | .wait _ => true
  | .waitevt _ => true
  | .waitevtComplete => true
  | .waittick _ => true
  | .waittickComplete => true
  | .trig _ => true
  | .stepend _ => true
  | .contrib _ => true
  | .result _ => true
  | .resultComplete => true
  | .resultx _ => true
  | .digest _ => true
  | .hwait _ => true
  | .hwaitComplete _ => true
  | .finish _ _ => true
  | .hrelease _ _ => true
  | .hdigest _ => true
  | .hdigestFoldsComplete _ => true
  | .twinCloseReceive l _ _ => l.ok
  | .twinCloseTimeout _ => true
  | .xbufHostWrite i _ _ => i.ok
  | .resultFlitReceive l _ => l.ok
  | .contribReceive l _ _ _ _ => l.ok
  | .partialReceive l _ _ _ _ => l.ok
  | .homeContribFold l _ _ _ _ => l.ok
  | .refuseReceive l _ => l.ok
  | .rereqReceive l _ => l.ok
  | .resultRerequestTimer => true
  | .twinRresCompare l _ => l.ok
  | .dgpReceive l _ _ _ => l.ok
  | .vmapReceive l _ _ _ => l.ok
  | .checkReceive l _ _ _ => l.ok
  | .stepPoisonReceive l _ => l.ok
  | .audTailWrite i _ => i.ok
  | .audCfgWrite i _ => i.ok
  | .audCtrlWrite i _ => i.ok
  | .audRd0Read i => i.ok
  | .auditExportSend => true
  | .vrecReceive l _ _ _ => l.ok
  | .rqPush i _ => i.ok
  | .rqFlush i _ => i.ok
  | .hqPush i _ => i.ok
  | .replayWaitServed _ => true
  | .rlTailWrite i _ => i.ok
  | .rlRd0Read i => i.ok
  | .detFwWrite i which _ => i.ok && decide (which.toNat ≤ 4)
  | .coalesceWindowEnd _ => true
  | .evrecReceive l _ _ _ => l.ok
  | .eventExportSend => true
  | .eventRerequestReceive _ _ _ => true
  | .eqW0Read i => i.ok
  | .evRd0Read i => i.ok
  | .historyAppend => true
  | .katRunDone _ _ => true
  | .rotationStart => true
  | .rotNow i _ => i.ok
  | .shadowEnd _ => true
  | .dackReceive l _ => l.ok
  | .twinHeartbeatSend => true
  | .heartbeatReceive l _ => l.ok
  | .leadTakeover => true
  | .shadowCopyDone => true
  | .tsuHeartbeatSend => true
  | .heartbeatLoss l => l.ok
  | .arrivalTimeout _ _ => true
  | .txnSubmit i _ => i.ok
  | .txnAppend i _ => i.ok
  | .txnCancel i _ => i.ok
  | .txnResetBody i _ => i.ok
  | .txnLockTake _ => true
  | .prepareReceive l _ => l.ok
  | .deferredVote _ _ => true
  | .voteReceive l _ _ _ => l.ok
  | .voteTimeout _ => true
  | .commitReceive l _ => l.ok
  | .txnCommitApply _ _ => true
  | .noCommit _ _ => true
  | .abortReceive l _ => l.ok
  | .doneReceive l _ _ => l.ok
  | .txnReportTimeout _ => true
  | .graceEnd _ _ => true
  | .pauseMarkReceive l _ => l.ok
  | .pauseReplySend => true
  | .pauseReplyReceive l _ => l.ok
  | .drainDone _ _ => true
  | .abortCmd i _ => i.ok
  | .jobAbortReceive l _ => l.ok
  | .abortAckReceive l _ _ => l.ok
  | .reportReceive l _ => l.ok
  | .codewordReceive p port lane _ _ _ => portOk p port && laneOk p lane
  | .lackReceive l _ => l.ok
  | .lnakReceive l _ => l.ok
  | .retryStall l => l.ok
  | .creditReceive l _ => l.ok
  | .notReadySend _ => true
  | .notReadyReceive l _ => l.ok
  | .laneLockLoss p port lane => portOk p port && laneOk p lane
  | .serLimitExceeded p port lane => portOk p port && laneOk p lane
  | .remapNow i port _ => i.ok && portOk i.part port
  | .remapReqReceive l _ => l.ok
  | .remapAckReceive l _ => l.ok
  | .remapAtReceive l _ => l.ok
  | .spwAckRise p port => portOk p port
  | .spareClean p port _ => portOk p port
  | .remapSwitch p port _ => portOk p port
  | .spwTimeout p port => portOk p port
  | .portAdmit _ => true
  | .trainComplete l => l.ok
  | .trainTimeout l => l.ok
  | .alignComplete l => l.ok
  | .helloReceive l _ => l.ok
  | .lkRetrain i port _ => i.ok && portOk i.part port
  | .linkLeaveService l => l.ok
  | .regRdReceive l _ => l.ok
  | .regWrReceive l _ => l.ok
  | .regRspReceive l _ => l.ok
  | .lkRegGo i port _ => i.ok && portOk i.part port
  | .mirrorReceive l _ => l.ok
  | .powerInputRise _ => true
  | .powerUndervoltage _ => true
  | .powerOvervoltage _ => true
  | .pwrWarn _ _ _ _ => true
  | .powerInterruption => true
  | .thermWarn _ _ => true
  | .thermalTrip _ _ _ => true
  | .bootRomStart => true
  | .bootDone _ => true
  | .modRstN _ _ => true
  | .modResetCold i _ => i.ok
  | .modResetWarm i _ => i.ok
  | .modResetMc i _ => i.ok
  | .perst => true
  | .trst => true
  | .jtagBypass => true
  | .jtagSamplePreload _ _ => true
  | .jtagIdcode => true
  | .jtagExtest _ _ => true
  | .jtagRegacc _ _ => true
  | .fwHeader i _ => i.ok
  | .fwBlock i _ => i.ok
  | .fwApplyDone => true
  | .fwAbort i _ => i.ok
  | .fwActivate i _ _ _ => i.ok
  | .fwConfirm => true
  | .fwTrialTimeout => true
  | .fwRecover i _ => i.ok
  | .fwRevoke i _ => i.ok
  | .errClr i _ _ => i.ok
  | .intForce i _ _ => i.ok
  | .pageIntStatusWrite i _ _ => i.ok
  | .pageIntEnableWrite i _ _ => i.ok
  | .pcieAccess _ => true
  | .intEoi i _ => i.ok
  | .msixUnmask _ => true
  | .hubAddrWrite i _ => i.ok
  | .mgmtConfigWrite i _ _ => i.ok
  | .arpReceive _ _ _ => true
  | .icmpEchoReceive _ _ _ => true
  | .registerQuery _ _ _ _ => true
  | .hbmUncorrectableRead _ _ _ => true
  | .twinFetchTimeout _ => true
  | .linkSignalDetect l => l.ok
  | .regionLongCycle _ => true
  | .perstRelease => true
  | .mgmtLinkStateChange _ => true

end Sys2Proof
end

