-- ==== Sys2Proof/Tests/Slice0.lean ====
section
/-! SUPPORT. Tests: commands that name what the device does not have are ill-formed; the worked examples of the spec; and for each
obligation with hypotheses, states and operands that meet them (`test_hyps_…`, one part for each clause that has any). -/

open Sys2Proof Sys2Proof.Machine

namespace Sys2Proof.Tests

section

set_option Elab.async false

/-! ## Well-formed commands: a term that each check refuses, and one that passes -/

theorem test_wf_link_port : (Instr.linkSignalDetect ⟨.hub, 72, 0⟩).wf = false ∧ (Instr.linkSignalDetect ⟨.hub, 71, 3⟩).wf = true := by
  decide

theorem test_wf_tsu_link : (Instr.linkSignalDetect ⟨.tsu, 2, 0⟩).wf = false ∧ (Instr.linkSignalDetect ⟨.tsu, 1, 1⟩).wf = false ∧
    (Instr.linkSignalDetect linkB).wf = true := by decide

theorem test_wf_interface : (Instr.intEoi (.port 72) 0).wf = false ∧ (Instr.intEoi (.port 71) 0).wf = true ∧
    (Instr.intEoi .pcie 0).wf = true := by decide

theorem test_wf_port : (Instr.laneCalPeriod .tsu 2).wf = false ∧ (Instr.laneCalPeriod .hub 2).wf = true ∧
    (Instr.remapNow .host 2 0).wf = false := by decide

theorem test_wf_lane : (Instr.laneLockLoss .tsu 0 2).wf = false ∧ (Instr.laneLockLoss .hub 0 5).wf = false ∧
    (Instr.laneLockLoss .hub 0 4).wf = true := by decide

theorem test_wf_cluster : (Instr.lockGateEnd .hub 19 0 0).wf = false ∧ (Instr.lockGateEnd .tsu 1 0 0).wf = false ∧
    (Instr.lockGateEnd .hub 18 0 0).wf = true := by decide

theorem test_wf_engine : (Instr.emuSetDone .tsu 2).wf = false ∧ (Instr.emuSetDone .hub 3).wf = true ∧
    (Instr.emuStart .linkA 2 0).wf = false := by decide

theorem test_wf_point : (Instr.stampEdge (.linkRx ⟨.tsu, 0, 1⟩) (.edge true)).wf = false ∧
    (Instr.stampEdge (.engineB .tsu 3) (.edge true)).wf = false ∧ (Instr.stampEdge (.engineB .hub 3) (.edge true)).wf = true := by decide

theorem test_wf_cal_point : (Instr.clusterCalDone .hub 0 [⟨.linkTx ⟨.hub, 80, 0⟩, false, List.replicate 16 0⟩]).wf = false ∧
    (Instr.clusterCalDone .hub 0 [⟨.linkTx ⟨.hub, 0, 0⟩, false, List.replicate 15 0⟩]).wf = false ∧
    (Instr.clusterCalDone .hub 0 [⟨.linkTx ⟨.hub, 0, 0⟩, false, List.replicate 16 0⟩]).wf = true := by decide

theorem test_wf_conversion : (Instr.conversionDone (.engineA .hub 0) false 0).wf = false ∧
    (Instr.conversionDone (.engineA .hub 0) false 513).wf = false ∧ (Instr.conversionDone (.engineA .hub 0) false 512).wf = true := by
  decide

theorem test_wf_cycles : (Instr.pnomMeasured 0 (List.replicate 63 (1, false))).wf = false ∧
    (Instr.pnomMeasured 0 (List.replicate 64 (1, false))).wf = true := by decide

theorem test_wf_det_fw : (Instr.detFwWrite .host 5 0).wf = false ∧ (Instr.detFwWrite .host 4 0).wf = true := by decide

/-- The rows of the table give no bits, so no word spells a command. -/
theorem test_no_table_words : decodeTableWord 64 0x123 = none := by decide

/-! ## The spec's worked examples -/

/-- Hall topology: the die in row 37, rack 11, slot 203, its plane-A leaf hub, and the port and sub-port of its slot. -/
theorem test_endpoint : epRow 0x96F2C0 = 37 ∧ epRack 0x96F2C0 = 11 ∧ epSlot 0x96F2C0 = 203 ∧ leafOf false 0x96F2C0 = 0x12D8 ∧
    linkOfKey .hub 203 = ⟨.hub, 50, 3⟩ := by decide

/-- Time words: a wire tick that has just wrapped is extended to its target, from either side of the wrap. -/
theorem test_wire_tick : extendWire (0x0016DFE8 : BitVec 32) 12884902200 = some 12886401000 ∧
    extendWire (0x0016DFE8 : BitVec 32) 12884901872 = some 12886401000 ∧ tickTest 12886401000 12884901000 = .inWindow ∧
    tickTest 14884901001 12884901000 = .tooFar ∧ tickTest 12884900999 12884901000 = .past := by decide

/-- A part at a hall tick, with VALID, FRAC 0 and the hall epoch of the spec's example. -/
def atTick (p : Part) (t : Tick) : State :=
  modTb State.reset p fun b => { b with tick := t, regs := { b.regs with statusValid := true, hallEpoch := 1750000000 } }

/-- Time words: NOW_LO and NOW_HI at the example's target. -/
theorem test_now : nowLo (atTick .tsu 12886401000) .tsu = 0xE18CD3559FA00001 ∧
    ((nowLoRead .host (atTick .tsu 12886401000)).2.iface .host).regs.nowHi = 0x684E := by decide +kernel

/-- The servo: one update of a LOCKED TSU at E = 14 with the 10 Hz gains. -/
theorem test_servo_update :
    ((piUpdate (modServoRegs State.reset .tsu fun r => { r with servoInteg := 59029392130048 }) .tsu 17686000 277817400 14
      147456).sh .tsu).tb.regs.rateNow = 0xFFC7F05DA9 := by decide +kernel

/-- Edge measurement: the coincidence count 382 stamps 12,884,902,201.254 882 8 ns, whose phase on the 100 ns grid is 82,240 units. -/
theorem test_stamp :
    stampOf { tick := 12884902202, frac := 0, rate := 0, tag := .edge true, stepGen := 0, moveGen := 0, valid := true, edge := 0 } 382 0
      = 12884902202 * 65536 - 48832 ∧
    phaseOf (12884902202 * 65536 - 48832) 100 0 = 82240 := by decide +kernel

/-- Edge measurement: the results of the example's eight samples. -/
theorem test_set_results : setResults 8 82240 (-2048) 2359296 81216 82752 = (81984, 478, 81216, 82752) := by decide +kernel

/-- The cadence: the launches after steps 5 and 6 of the example, in ns from L0. -/
theorem test_cadence :
    let r : StephRegs := {
      sthPeriodPeriodNs := 40000, sthPeriodPMinNs := 25000, sthGapMinGapNs := 8000, sthCatchupCatchupMax := 1023
      sthLast := 200000 }
    nextLaunch r 5 251000 = ⟨259000, true, 19000, false, 0, 1, true⟩ ∧
    nextLaunch { r with sthLast := 259000, sthCatchupCount := 1 } 6 275000 = ⟨284000, false, 4000, false, 0, 2, true⟩ ∧
    nextLaunch { r with sthLast := 284000, sthCatchupCount := 2 } 7 300000 = ⟨320000, false, 0, false, 0, 0, false⟩ := by
  decide +kernel

/-- SUM of FP32 to FP32 over four participants. -/
def sumCfg : Word := 0x1000000000000000 ||| 3 <<< 18

/-- ARGMAX and ARGMIN of FP32 over five participants. -/
def argCfg (op : Word) : Word := op <<< 60 ||| 4 <<< 18

/-- Contributions folded in order. -/
def foldAll (cfg : Word) (xs : List (BitVec 20 × Nat)) : Elem := xs.foldl (fun e x => foldElem cfg e (elemOf cfg x.1 x.2)) {}

/-- The Stockpot: 2^24 + 1 + 1 − 2^24 is 2.0 in every order. -/
theorem test_sum : elemResult sumCfg (foldAll sumCfg [(0, 0x4B800000), (1, 0x3F800000), (2, 0x3F800000), (3, 0xCB800000)])
      = (0x40000000, false) ∧
    elemResult sumCfg (foldAll sumCfg [(0, 0x4B800000), (3, 0xCB800000), (1, 0x3F800000), (2, 0x3F800000)]) = (0x40000000, false) := by
  decide +kernel

/-- The Stockpot: the first of two equal maxima wins, and −0 lies below +0. -/
theorem test_argmax_argmin :
    let xs : List (BitVec 20 × Nat) := [(0, 0x40400000), (1, 0x40E00000), (2, 0x80000000), (3, 0x40E00000), (4, 0)]
    (elemResult (argCfg 5) (foldAll (argCfg 5) xs)).1 = 0x40E0000000000001 ∧
    (elemResult (argCfg 4) (foldAll (argCfg 4) xs)).1 = 0x8000000000000002 := by decide +kernel

/-- The Stockpot: admissions at capacity 5; rank 1 gets three elements, and 8 tokens drop. -/
theorem test_allot :
    let req : List Nat := [3, 0, 4, 2, 1, 2, 1, 3, 0, 4, 2, 1]
    let b : StepBuf := { staging := (List.range 12).map fun i => (i / 3 * 65536 + i % 3, some (BitVec.ofNat 64 (req.getD i 0))) }
    let r := allotSlices 5 b [0, 1, 2, 3] [0, 0, 0]
    r.2 = 8 ∧ r.1.lookup 1 = some [0x0000000300000002, 0x0000000000000001, 0x0000000400000001] := by decide +kernel

/-- The Stockpot: SQRT and CLIPSCALE of 6.25 under the bound 1.0. -/
theorem test_clip_scale : (finishElem (sumCfg ||| 0x4600) 0 0x3F800000
    (foldAll sumCfg [(0, 0x3FC00000), (1, 0x40000000), (2, 0x3F400000), (3, 0x40000000)])).1 = 0x3ECCCCCD := by decide +kernel

/-- The Stockpot: the slots of an ALLOT context of 4,096 participants and 64 experts, and of an FP64 SUM of 1,024 elements. -/
theorem test_slots : cSlots (9 <<< 60 ||| 6 <<< 56 ||| 6 <<< 52 ||| 63 <<< 36 ||| 4095 <<< 18) = 43755 ∧
    cSlots (1 <<< 60 ||| 5 <<< 56 ||| 5 <<< 52 ||| 1023 <<< 36) = 6144 := by decide +kernel

/-- Residues: those of the example's terms and of their sum. -/
theorem test_residue : residue (2 ^ 173) = 8192 ∧ residue (2 ^ 149) = 32 ∧ residue (2 ^ 150) = 64 ∧
    residue (2 ^ 173 + 2 ^ 150) = 8256 := by decide +kernel

/-- A failed fold: the standby lane agrees with the checker, so lane 37 is charged; with lane 37, and the checker is. -/
theorem test_verdict :
    let f : FoldFault := {
      lane := 37, checker := 0x2025, c := 516, elem := 0, cIsA := false, cIsChecker := true, dIsA := false, dIsC := false }
    foldVerdict f = (1, some 37) ∧ foldVerdict { f with cIsA := true, cIsChecker := false } = (0, some 0x2025) := by decide

/-- Digests: the terms of the example and their sum modulo 2^127 − 1. -/
theorem test_digest_terms :
    dgAdd (BitVec.ofNat 127 (dgTerm (2 ^ 32) 0xA1 0xB2)) (dgTerm (2 ^ 40) 0xC3 0xD4) = 0x430000A100D400B20000010100000001 ∧
    dgAdd (BitVec.ofNat 127 (dgTerm (2 ^ 32) 0xC3 0xD4)) (dgTerm (2 ^ 40) 0xA1 0xB2) = 0x210000C300B200D40000010100000001 := by
  decide +kernel

/-- Whisk: the example's output. -/
theorem test_whisk : whisk 0x0123456789ABCDEF 5 1 0 = 0x418EDE13E0075D751B938033868832BB := by decide +kernel

/-- SHA-384 of "abc" (FIPS 180-4). -/
theorem test_sha384 : sha384 [0x61, 0x62, 0x63] =
    0xCB00753F45A35E8BB5A03D699AC65007272C32AB0EDED1631A8B605A43FF5BED8086072BA1E7CC2358BAECA134C825A7 := by decide +kernel

/-- AES-256-GCM: test case 13 of its specification, a tag over nothing. -/
theorem test_gcm : gcmOpen 0 (List.replicate 12 0) [] [] (natToBytes 16 0x530F8AFBC74536B9A963B4F1C4CB738B) = some [] ∧
    gcmOpen 0 (List.replicate 12 0) [] [] (natToBytes 16 0x530F8AFBC74536B9A963B4F1C4CB738A) = none := by decide +kernel

/-- Interrupts: EVH cause 0 and PORT17 cause 8, with vector 3, show as the example reads them. -/
theorem test_int_pend :
    let set (g : Page) (c : Nat) (s : State) : State := modHdr (setCause s .hub g c) .hub g fun h =>
      { h with pageIntEnable := setBit 0 c true, pageCtrlVector := 3 }
    let s := set (.link 17) 8 (set .evh 0 State.reset)
    pendBits s .hub 0 = 0x800000 ∧ pendBits s .hub 64 = 0x80000000000 ∧ intVec s = 8 := by decide +kernel

/-! ## One step -/

/-- A state with a command in front. -/
def given (c : Instr) (s : State) : State := { s with pending := [c] }

/-- The state that a step answers. -/
def after (s : State) : State := match step s with | .next t => t | _ => s

/-- A beat carries its byte count minus one (R179). -/
theorem test_beat : (after (given (.wcIssuedBeat 1 4095) State.reset)).tsu.dfc.wcIssued1 = 4096 ∧
    (after (given (.wcIssuedBeat 1 4095) State.reset)).pending = [] := by decide +kernel

/-- A third edge on an engine's event input finds both converters busy (R76). -/
theorem test_missed :
    let s := modEmu State.reset .hub 0 fun g => { g with regs := { g.regs with emuSrcAClass := 1 } }
    let t := after (given (.stampEdge (.engineA .hub 0) (.edge true)) (after (given (.stampEdge (.engineA .hub 0) (.edge true)) s)))
    (t.emu .hub 0).regs.emuDiscardMissed = 0 ∧
      ((after (given (.stampEdge (.engineA .hub 0) (.edge true)) t)).emu .hub 0).regs.emuDiscardMissed = 1 := by decide +kernel

/-- An island cycle adds 2^48 and the rate word to the tick and fraction (R59). -/
theorem test_island_cycle :
    let s := modTb State.reset .tsu fun b => { b with tick := 9, frac := 1, regs := { b.regs with
      statusIslandLock := true, rateNow := -2 } }
    let t := after (given (.islandCycle .tsu) s)
    t.now .tsu = 9 ∧ (t.sh .tsu).tb.frac = 0xFFFFFFFFFFFF := by decide +kernel

/-- Reset is idle: a step with no command waiting changes nothing. -/
theorem test_idle : step State.reset = .next State.reset := rfl

/-! ## States and operands that meet hypotheses -/

def s0 : State := State.reset

def wCal : State := modCluster s0 .tsu 0 fun k => { k with calibrating := true, locked := true }

def wConv : Conv :=
  { started := true, tick := 100, frac := 0, rate := 0, tag := .sync 3, stepGen := 0, moveGen := 0, valid := true, edge := 0 }

def wIsle (p : Part) : State := modTbRegs s0 p fun r => { r with statusIslandLock := true }

def wEmuCtrl (mode k : Nat) : Word := EmuRegs.read { emuCtrlMode := BitVec.ofNat 2 mode, emuCtrlK := BitVec.ofNat 5 k } 0x040

def wL : LinkId := ⟨.hub, 9, 2⟩

def wActive (l : LinkId) : State :=
  modTb (modLink s0 l fun k => { k with
    credit := [64, 64, 64, 64, 64, 64],
    regs := { k.regs with lkState := 6, ptCtrlTimeEn := true } }) l.part fun b => { b with
      regs := { b.regs with statusValid := true } }

def wLane (l : LinkId) : State := modLaneCal (wActive l) l.part l.port 0 fun c => { c with passed := true }

def wMaster : State :=
  modHub (modTb s0 .hub fun b => { b with
    regs := { b.regs with statusValid := true } }) fun h => { h with
      ref := { h.ref with regs := { h.ref.regs with masterStatusIsMaster := true } } }

def wFu : SyncFuP :=
  {
    seq := 1, hops := 0, bad := false, srcValid := true, srcHoldover := false, master := 0, originTick := 0, originFrac := 0,
    corr := 0 }

def wFwd (b : Bool) : State :=
  modHub (modSh (modLink (wActive wL) wL fun k => { k with
    fwd := [{ seq := 5, gen := 0 }], tx := [(.sync 5, { t := 400 })],
    regs := { k.regs with ptGatesResMax := 0 } }) .hub fun h => { h with
      fus := [{
        fu := { wFu with seq := 5 }, r := {}, dIn := 0,
        badIn := false }] }) fun h => { h with ref := { h.ref with regs := { h.ref.regs with masterStatusIsMaster := b } } }

def wSyncHeld : State :=
  modLaneCal (modLink (wActive linkA) linkA fun k => { k with
    syncs := [1], rx := [(.sync 1, { t := 400 })],
    regs := { k.regs with ptDelaySettled := true, ptGatesOffsetGate := 0 } }) .tsu 0 0 fun c => { c with passed := true }

def wServo (p : Part) (st : BitVec 3) : State :=
  modTbRegs (modServoRegs s0 p fun r => { r with servoStatusState := st }) p fun r => { r with statusValid := true }

def wHall : State := modHub s0 fun h => { h with id := { h.id with hubAddr := 0x8000 } }

def wHallMaster : State := modHub wMaster fun h => { h with id := { h.id with hubAddr := 0x8000 } }

def wAnn (k : Bool) : AnnounceP :=
  {
    seq := 1, origin64 := 2, epochS := 3, master := 0xA001, kind := k, cls := 0, prio := 5, gen := 6, nextMaster := 0xFFFF,
    handoverTick := 0, utcOffset := 37, utcValid := true, li61 := false, li59 := false }

def wHead : PtpHead :=
  {
    kind := 0, domain := 0, version := 2, minor := 1, unicast := false, tlv := false, identity := 7, port := 1, seq := 9,
    corr := 0 }

def wPtp : State := modHub s0 fun h => { h with ref := { h.ref with regs := { h.ref.regs with ptpCtrlEn := true } } }

def wPtpF : State := modHub wPtp fun h => { h with ptp := { h.ptp with foreign := [{ identity := 7, port := 1 }] } }

def wTap (st : BitVec 3) : State := modTap s0 3 fun q => { q with own := { q.own with tapStatusState := st } }

def wSig : SignalP :=
  { job := 3, epoch := false, rank := 1, obj := 7, amount := 0, chan := 0, window := 0, bytes := 0, dest := .rank 0 }

def wSigSt : State :=
  modSlotRegs (modTsu s0 fun h => { h with
    txnt := { h.txnt with ttJobState := 2, ttJob := 3 } }) 4 fun r => { r with soCfgType := 4, soCfgObj := 7 }

def wArr : ArriveP := { job := 3, epoch := false, obj := 9, gen := 4, step := 0, count := 1 }

def wJob : State := modJob s0 3 fun b => { b with regs := { b.regs with jobStatusState := 2 } }

def wLeadJob : State :=
  modJob wJob 3 fun b => { b with
    lead := 0xFFFF, leads := true, barriers := [(9, some { regs := { shCfgPart := 8, shGen := 4, shCount := 2 } })] }

def wPausedSel : State :=
  modIfaceRegs (modJob wLeadJob 3 fun b => { b with
    regs := { b.regs with jobStatusState := 4 } }) .mgmt fun r => { r with shSelJob := 3, shSelObj := 9 }

def wActing (p : Part) (s : State) : State :=
  modTb s p fun b => { b with tick := 9, resolve := false, regs := { b.regs with statusValid := true } }

def wHeld (h : HeldLaunch) : State := wActing .tsu (modTsu s0 fun t => { t with launch := some h })

def wHome (h : HeldLaunch) : State := wActing .hub (modJob wJob 3 fun b => { b with nextLaunch := some h })

def wLaunchStaged : Staged :=
  {
    coord := 0, tid := 1, kind := 2, partition := 0, commit := 0, voteBy := 0, via := none,
    share := natToBytes 2 0x000B ++ natToBytes 2 0 ++ natToBytes 4 128 ++ natToBytes 8 0 ++ natToBytes 8 5 ++ List.replicate
      120 0 }

def wWords (op : Nat) (w : Word) : Tbl (Option Word) :=
  [(0, some 0x5354504700010000), (1, some 0x100000001), (2, some 0), (3, some 0), (4,
    some (w ||| putF 56 (BitVec.ofNat 8 op)))]

def wProg : State :=
  modTsu s0 fun h => { h with
    seq := { h.seq with words := wWords 0x2B 0, regs := { h.seq.regs with progStatusState := 2, progStatusWords := 5 } } }

def wSeq (op : Nat) (w : Word) : Seq :=
  { words := wWords op w, regs := { progStatusState := 3, progStatusWords := 5, seqStatusState := 1 } }

def wAt (op : Nat) (w : Word) : State := modTsu s0 fun h => { h with seq := wSeq op w }

def wAtHome (op : Nat) (w : Word) : State := modJob wJob 3 fun b => { b with seq := wSeq op w }

def wPlan : Word := 0x8000000000000000

def wSum : Word := 0x1110000000000000

def wContrib : ContribP :=
  { job := 3, epoch := false, rank := 1, ctx := 5, step := 0, elem := 0, ne := 0, ovf := false, fonly := false, data := 7 }

def wPart : PartlP := { job := 3, epoch := false, ctx := 5, step := 0, elem := 0, n := 1, flags := 0, acc := 7 }

def wRes : ResultP :=
  { job := 3, epoch := false, ctx := 5, step := 0, elem := 0, ne := 0, flags := 1, rank := 0xFFFFF, rres := 7, data := 7 }

def wTwinJob : State := modPage wJob .hub 9 fun p => { p with role := { p.role with portRole := 3 } }

def wTxn (ph k : Nat) : State :=
  modHub (modTb wLeadJob .hub fun b => { b with
    tick := 9,
    regs := { b.regs with statusValid := true } }) fun h => { h with
      txns := [(7, {
        regs := {
          txnStatusPhase := BitVec.ofNat 4 ph, txnStatusKind := BitVec.ofNat 4 k, txnStatusPartition := 3, txnTick := 900,
          txnVotesExpected := 2 } })],
      queue := [7], locks := [(3, some 7)] }

def wBody : List (BitVec 8) :=
  natToBytes 2 0x5458 ++ [1, 7] ++ natToBytes 2 3 ++ [0, 0] ++ natToBytes 8 60000 ++ natToBytes 8 20000 ++ natToBytes 4 0 ++
    natToBytes 4 64 ++ natToBytes 8 0x77 ++ List.replicate 24 0

def wVote (r : Nat) : VoteP :=
  {
    coord := 0xFFFF, tid := 7, kind := 7, partition := 3, reason := BitVec.ofNat 8 r, yes := 1, origin := 0x2000, mv := false,
    ident := 0, fw := 0, unitmap := 0 }

def wG (p : Part) (k : Nat) : Staged :=
  {
    coord := 0x2000, tid := 7, kind := BitVec.ofNat 8 k, partition := 3, commit := 9, voteBy := 5, share := [],
    via := match p with | .tsu => some linkA | .hub => none }

def wDie (st : Nat) (g : Option Staged) : State :=
  modTbRegs (modTsu s0 fun h => { h with
    txnt := { h.txnt with ttJobState := BitVec.ofNat 4 st, ttJob := 3 },
    staged := [(3, g)] }) .tsu fun r => { r with statusValid := true }

def wFwHdr : List (BitVec 8) :=
  natToBytes 4 0x42574657 ++ natToBytes 2 1 ++ [1, 0] ++ natToBytes 2 0xBD72 ++ natToBytes 2 1 ++ natToBytes 8 5 ++
    List.replicate 8 0 ++ natToBytes 4 0 ++ [3, 3, 0, 0] ++ natToBytes 4 0 ++ natToBytes 4 9 ++ List.replicate 4 0 ++
      List.replicate 48 0 ++ bvBytes 48 (sha384 []) ++ List.replicate 368 0

def wFwPow : State := modHub s0 fun h => { h with bar2 := ((List.range 512).zip wFwHdr).filter fun e => e.2 != 0 }

/-! ## Hypotheses met: one part for each clause, in the order of the obligation's clauses that have hypotheses -/

theorem test_hyps_island_and_clusters :
    (∃ (p : Part) (s : State), islandRuns s p = true ∧ s.tsu.lateWords = [] ∧ s.tsu.lateHost = []) ∧
    (∃ (s : State), s.tsu.inReset = false ∧ (s.valid .tsu = false ∨ s.tsu.sh.tb.resolve = false) ∧ s.tsu.lateWords = [] ∧
      s.tsu.lateHost = [] ∧ s.tsu.tapPage.tapGlobalEn = false) ∧
    (∃ (s : State), s.tsu.inReset = false ∧ (s.valid .tsu = false ∨ s.tsu.sh.tb.resolve = false) ∧ s.tsu.lateWords = [] ∧
      s.tsu.lateHost = [] ∧ s.tsu.tapPage.tapGlobalEn = true ∧ s.tsu.sh.tb.regs.statusIslandLock = true ∧
        s.now .tsu < (tbCycle s.tsu.sh.tb).tick - (tbCycle s.tsu.sh.tb).tick % 4) ∧
    (∃ (op : Nat) (x : LateHost) (s : State), s.tsu.inReset = false ∧ s.tsu.lateWords = [op] ∧ s.tsu.lateHost = [x]) ∧
    (∃ (s : State), s.hub.power.on = true ∧ (s.valid .hub = false ∨ s.hub.sh.tb.resolve = false) ∧
      s.hub.ref.regs.masterStatusIsMaster = false ∧ s.hub.sh.ann = none) ∧
    (∃ (p : Part) (c : BitVec 5) (fast slow : BitVec 18) (s : State), hasCluster p c = true ∧
      (s.sh p).tb.regs.statusIslandLock = true ∧ ((s.cluster p c).fast + ((fast.toNat : Int) - 131328)).natAbs ≤ 8 ∧
        ((s.cluster p c).slow + ((slow.toNat : Int) - 131072)).natAbs ≤ 8) ∧
    (∃ (p : Part) (c : BitVec 5) (s : State), hasCluster p c = true ∧ (s.sh p).tb.regs.statusIslandLock = false) ∧
    (∃ (p : Part) (c : BitVec 5) (fast : BitVec 18) (s : State), hasCluster p c = true ∧
      (s.sh p).tb.regs.statusIslandLock = true ∧ 8 < ((s.cluster p c).fast + ((fast.toNat : Int) - 131328)).natAbs) ∧
    (∃ (i : Iface) (s : State), Answers s i) ∧
    (∃ (p : Part) (s : State), (s.sh p).vern.regs.vernCtrlCalPeriodMs ≠ 0) ∧
    (∃ (p : Part) (c : BitVec 5) (results : List CalResult) (s : State), hasCluster p c = true ∧
      (s.cluster p c).calibrating = true ∧ calComplete p c results = true ∧ results.all calPasses = true ∧
        (s.cluster p c).locked = true) :=
  ⟨⟨.hub, s0, by decide +kernel⟩,
   ⟨modTsu s0 fun h => { h with
     inReset := false, evtNew := 1, tapPage := { h.tapPage with tapGlobalEn := false } }, by decide +kernel⟩,
   ⟨modTbRegs (modTsu (modTb s0 .tsu fun b => { b with tick := 7 }) fun h => { h with
     inReset := false,
     tapPage := { h.tapPage with tapGlobalEn := true } }) .tsu fun r => { r with statusIslandLock :=
       true }, by decide +kernel⟩,
   ⟨0, { id := 1, write := false, addr := 0, data := 0 }, modTsu s0 fun h => { h with
     inReset := false, lateWords := [0], lateHost := [{ id := 1, write := false, addr := 0, data := 0 }] }, by decide +kernel⟩,
   ⟨s0, by decide +kernel⟩,
   ⟨.tsu, 0, 131336, 131064, wIsle .tsu, by decide +kernel⟩,
   ⟨.tsu, 0, s0, by decide +kernel⟩,
   ⟨.hub, 18, 131337, wIsle .hub, by decide +kernel⟩,
   ⟨.mgmt, s0, by decide +kernel⟩,
   ⟨.hub, modSh s0 .hub fun h => { h with
     vern := { h.vern with
       regs := { h.vern.regs with vernCtrlCalPeriodMs := 1 }, clusters := [(18, { locked := true })] } }, by decide +kernel⟩,
   ⟨.tsu, 0, ((clusterConverters .tsu 0).map fun k => {
     point := k.1, conv1 := k.2, errors := List.replicate 16 2048 }), wCal, by decide +kernel⟩⟩

theorem test_hyps_stamps_and_engines :
    (∃ (l : LinkId) (s : State), (s.point (.linkRx l)).conv0 = none) ∧
    (∃ (l : LinkId) (s : State), (s.point (.linkTx l)).conv0.isSome = true ∧ (s.point (.linkTx l)).conv1 = none) ∧
    (∃ (tag : FlitTag) (p : Part) (e : BitVec 2) (s : State), (s.emu p e).takes true tag.rising = false) ∧
    (∃ (tag : FlitTag) (p : Part) (e : BitVec 2) (s : State), (s.emu p e).takes true tag.rising = true ∧
      (s.emu p e).preB + 1 < (s.emu p e).divides true) ∧
    (∃ (tag : FlitTag) (p : Part) (e : BitVec 2) (s : State), (s.emu p e).takes false tag.rising = true ∧
      (s.emu p e).divides false ≤ (s.emu p e).preA + 1 ∧ (s.point (.engineA p e)).conv0.isSome = true ∧
        (s.point (.engineA p e)).conv1.isSome = true) ∧
    (∃ (second : Bool) (n : BitVec 10) (l : LinkId) (c : Conv) (s : State),
      ((if second then (s.point (.linkRx l)).conv1 else (s.point (.linkRx l)).conv0) = some c) ∧ c.started = true ∧
        1 ≤ n.toNat ∧ n.toNat ≤ 512 ∧ (s.link l).waitFu = [] ∧ (s.link l).waitDresp = [] ∧ (s.link l).waitProbe = []) ∧
    (∃ (i : Iface) (e : BitVec 2) (data : Word) (s : State), Answers s i ∧ ((Page.emu e).ordinal i.part).isSome = true ∧
      getB data 63 = true ∧ startOk s i.part ((s.emu i.part e).regs.write 0x040 data) = true) ∧
    (∃ (i : Iface) (e : BitVec 2) (s : State), Answers s i ∧ ((Page.emu e).ordinal i.part).isSome = true ∧
      (s.emu i.part e).regs.emuStatusBusy = true) ∧
    (∃ (p : Part) (e : BitVec 2) (s : State), (s.emu p e).regs.emuStatusBusy = true ∧ (s.emu p e).regs.emuCtrlMode = 0 ∧
      (s.emu p e).first.isSome = true) ∧
    (∃ (p : Part) (e : BitVec 2) (s : State), (s.emu p e).regs.emuStatusBusy = true ∧
      (s.emu p e).regs.emuStatusSamples.toNat = 2 ^ (s.emu p e).regs.emuCtrlK.toNat) ∧
    (∃ (i : Iface) (s : State), Answers s i) ∧
    (∃ (i : Iface) (s : State), Answers s i) :=
  ⟨⟨linkA, s0, by decide +kernel⟩,
   ⟨linkA, modPoint s0 (.linkTx linkA) fun q => { q with conv0 := some wConv }, by decide +kernel⟩,
   ⟨(.edge true), .tsu, 1, s0, by decide +kernel⟩,
   ⟨(.edge true), .tsu, 1, modEmu s0 .tsu 1 fun g => { g with
     regs := { g.regs with emuSrcBClass := 1, emuCtrlPrescale := 1 } }, by decide +kernel⟩,
   ⟨(.edge true), .hub, 3, modEmu (modPoint s0 (.engineA .hub 3) fun q => { q with
     conv0 := some wConv,
     conv1 := some wConv }) .hub 3 fun g => { g with regs := { g.regs with emuSrcAClass := 1 } }, by decide +kernel⟩,
   ⟨true, 512, linkB, wConv, modPoint s0 (.linkRx linkB) fun q => { q with conv1 := some wConv }, by decide +kernel⟩,
   ⟨.mgmt, 3, (wEmuCtrl 2 4 ||| putB 63 true), modEmu s0 .hub 3 fun g => { g with
     regs := { g.regs with emuSrcAClass := 1, emuNominalPNum := 8 } }, by decide +kernel⟩,
   ⟨.host, 1, modEmu s0 .tsu 1 fun g => { g with regs := { g.regs with emuStatusBusy := true } }, by decide +kernel⟩,
   ⟨.tsu, 0, modEmu s0 .tsu 0 fun g => { g with
     first := some {}, regs := { g.regs with emuStatusBusy := true } }, by decide +kernel⟩,
   ⟨.hub, 2, modEmu s0 .hub 2 fun g => { g with
     s1 := 7, sumY := 5, lo := -3, hi := 4,
     regs := { g.regs with emuStatusBusy := true, emuCtrlK := 2, emuStatusSamples := 4 } }, by decide +kernel⟩,
   ⟨.jtag, modEmu s0 .hub 3 fun g => { g with regs := { g.regs with emuMean := 9, emuMax := 8 } }, by decide +kernel⟩,
   ⟨.linkB, modEmu s0 .tsu 1 fun g => { g with
     regs := { g.regs with emuLastTick := 9, emuLastFrac := 8 } }, by decide +kernel⟩⟩

theorem test_hyps_epoch_and_time_reads :
    (∃ (i : Iface) (data : Word) (s : State), Answers s i ∧ i.part = .hub ∧ s.hub.ref.regs.masterStatusIsMaster = true ∧
      noJobs s = true ∧ (getF data 0 48 : BitVec 48).toNat ≤ (s.sec .hub).toNat ∧
        (getF data 0 48 : BitVec 48) ≠ s.hub.sh.tb.regs.hallEpoch) ∧
    (∃ (i : Iface) (s : State), Answers s i ∧ (i.part = .tsu ∨ s.hub.ref.regs.masterStatusIsMaster = false)) ∧
    (∃ (s : State), s.hub.sh.tb.revalid = true ∧ (s.servoState .hub = 2 ∨ s.servoState .hub = 3)) ∧
    (∃ (i : Iface) (s : State), Answers s i) :=
  ⟨⟨.mgmt, 0, modHub (modTb s0 .hub fun b => { b with regs := { b.regs with hallEpoch := 1 } }) fun h => { h with
     ref := { h.ref with regs := { h.ref.regs with masterStatusIsMaster := true } } }, by decide +kernel⟩,
   ⟨.host, s0, by decide +kernel⟩,
   ⟨modServoRegs (modTb s0 .hub fun b => { b with revalid := true }) .hub fun r => { r with servoStatusState := 2 },
     by decide +kernel⟩,
   ⟨.linkA, s0, by decide +kernel⟩⟩

theorem test_hyps_delay_exchange :
    (∃ (l : LinkId) (s : State), (s.link l).active = true ∧ (s.link l).regs.ptCtrlTimeEn = true ∧ s.receivesSync l = true) ∧
    (∃ (l : LinkId) (s : State), ((s.link l).active = false ∨ (s.link l).regs.ptCtrlTimeEn = false ∨
      s.receivesSync l = false)) ∧
    (∃ (l : LinkId) (s : State), s.laneReady l = true ∧ s.partReady l.part = true ∧ (s.link l).active = true) ∧
    (∃ (l : LinkId) (s : State), s.laneReady l = false) ∧
    (∃ (l : LinkId) (dseq : BitVec 16) (a b : Stamp) (s : State), (s.link l).active = true ∧
      (s.link l).resp.contains dseq = true ∧ findStamp (.dreq dseq) (s.link l).rx = some a ∧
        findStamp (.dresp dseq) (s.link l).tx = some b) ∧
    (∃ (l : LinkId) (dseq : BitVec 16) (s : State), (findStamp (.dreq dseq) (s.link l).rx = none ∨
      findStamp (.dresp dseq) (s.link l).tx = none)) ∧
    (∃ (l : LinkId) (m : DrespP) (s : State), s.laneReady l = true ∧ (s.link l).exch = some m.dseq) ∧
    (∃ (l : LinkId) (s : State), s.laneReady l = false) ∧
    (∃ (l : LinkId) (m : DrespFuP) (s : State), s.laneReady l = true ∧ (s.link l).exch = some m.dseq ∧
      converting s (.linkTx l) (.dreq m.dseq) = false ∧ converting s (.linkRx l) (.dresp m.dseq) = false) ∧
    (∃ (l : LinkId) (m : DrespFuP) (a b : Stamp) (d : Int) (s : State), s.laneReady l = true ∧
      (s.link l).exch = some m.dseq ∧ converting s (.linkTx l) (.dreq m.dseq) = false ∧
        converting s (.linkRx l) (.dresp m.dseq) = false ∧ findStamp (.dreq m.dseq) (s.link l).tx = some a ∧
          findStamp (.dresp m.dseq) (s.link l).rx = some b ∧ firstCause (pairCauses (some a) (some b)) = none ∧
            m.bad = false ∧ (s.link l).regs.ptGatesTurnMax = 0 ∧ (s.link l).regs.ptGatesDelayGate = 0 ∧
              d = ((b.t - (s.latency l).2 - (a.t + (s.latency l).1)) - m.turn.toNat) / 2) ∧
    (∃ (l : LinkId) (m : DrespFuP) (s : State), s.laneReady l = true ∧
      (converting s (.linkTx l) (.dreq m.dseq) = true ∨ converting s (.linkRx l) (.dresp m.dseq) = true)) ∧
    (∃ (l : LinkId) (m : DrespFuP) (s : State), s.laneReady l = true ∧ (s.link l).exch ≠ some m.dseq ∧
      converting s (.linkTx l) (.dreq m.dseq) = false ∧ converting s (.linkRx l) (.dresp m.dseq) = false) ∧
    (∃ (l : LinkId) (s : State), s.laneReady l = false) ∧
    (∃ (l : LinkId) (s : State), 64 ≤ (s.link l).gateDrops) :=
  ⟨⟨linkB, wActive linkB, by decide +kernel⟩,
   ⟨wL, s0, by decide +kernel⟩,
   ⟨linkA, wLane linkA, by decide +kernel⟩,
   ⟨wL, wActive wL, by decide +kernel⟩,
   ⟨wL, 7, { t := 100 }, { t := 70000 }, modLink (wActive wL) wL fun k => { k with
     resp := [7], rx := [(.dreq 7, { t := 100 })], tx := [(.dresp 7, { t := 70000 })] }, by decide +kernel⟩,
   ⟨wL, 7, modLink (wActive wL) wL fun k => { k with resp := [7], rx := [(.dreq 7, { t := 100 })] }, by decide +kernel⟩,
   ⟨linkB, ⟨3⟩, modLink (wLane linkB) linkB fun k => { k with exch := some 3 }, by decide +kernel⟩,
   ⟨linkB, s0, by decide +kernel⟩,
   ⟨linkB, ⟨3, false, 0⟩, modLink (wLane linkB) linkB fun k => { k with exch := some 3 }, by decide +kernel⟩,
   ⟨linkB, ⟨3, false, 119674⟩, { t := 100 }, { t := 70000 }, -24887,
     modLink (modLaneCal (wLane linkB) .tsu 1 0 fun c => { c with have_ := true }) linkB fun k => { k with
       exch := some 3, tx := [(.dreq 3, { t := 100 })], rx := [(.dresp 3, { t := 70000 })],
       regs := { k.regs with ptGatesTurnMax := 0, ptGatesDelayGate := 0, ptDelaySettled := true } }, by decide +kernel⟩,
   ⟨linkB, ⟨3, false, 0⟩, modPoint (wLane linkB) (.linkTx linkB) fun q => { q with
     conv1 := some { wConv with tag := .dreq 3 } }, by decide +kernel⟩,
   ⟨linkB, ⟨3, false, 0⟩, wLane linkB, by decide +kernel⟩,
   ⟨linkB, s0, by decide +kernel⟩,
   ⟨wL, modLink s0 wL fun k => { k with gateDrops := 64 }, by decide +kernel⟩⟩

theorem test_hyps_sync_exchange :
    (∃ (vote : TimeVote) (s : State), s.hub.ref.regs.masterStatusIsMaster = true ∧ s.hub.ref.halted = false ∧
      handedOver s = false ∧ vote ≠ .split) ∧
    (∃ (s : State), s.hub.ref.regs.masterStatusIsMaster = true ∧ s.hub.ref.halted = false ∧ handedOver s = false) ∧
    (∃ (s : State), (s.hub.ref.regs.masterStatusIsMaster = false ∨ s.hub.ref.halted = true ∨ handedOver s = true)) ∧
    (∃ (l : LinkId) (s : State), s.laneReady l = true ∧ (s.link l).syncs.length < 2) ∧
    (∃ (l : LinkId) (m : SyncP) (s : State), s.laneReady l = true ∧ 2 ≤ (s.link l).syncs.length ∧
      (s.link l).syncs.head? ≠ some m.seq) ∧
    (∃ (l : LinkId) (s : State), s.laneReady l = true ∧ s.isInput l = true ∧ l.part = .hub ∧ s.servoState .hub = 2) ∧
    (∃ (l : LinkId) (s : State), s.laneReady l = false) ∧
    (∃ (l : LinkId) (m : SyncFuP) (s : State), s.laneReady l = true ∧ 6 < m.hops.toNat) ∧
    (∃ (l : LinkId) (m : SyncFuP) (s : State), s.laneReady l = true ∧ m.hops.toNat ≤ 6 ∧
      (s.link l).syncs.contains m.seq = false) ∧
    (∃ (l : LinkId) (m : SyncFuP) (s : State), s.laneReady l = true ∧ m.hops.toNat ≤ 6 ∧
      (s.link l).syncs.contains m.seq = true ∧ converting s (.linkRx l) (.sync m.seq) = true) ∧
    (∃ (l : LinkId) (m : SyncFuP) (x : Stamp) (o : Int) (s : State), s.laneReady l = true ∧ m.hops.toNat ≤ 6 ∧
      (s.link l).syncs.contains m.seq = true ∧ converting s (.linkRx l) (.sync m.seq) = false ∧
        findStamp (.sync m.seq) (s.link l).rx = some x ∧ x.uncal = false ∧ x.missed = false ∧ m.bad = false ∧
          m.srcValid = true ∧ (s.link l).regs.ptDelaySettled = true ∧ fuOrigin s l.part m = some o ∧
            (s.link l).regs.ptGatesOffsetGate = 0) ∧
    (∃ (l : LinkId) (s : State), s.laneReady l = false) ∧
    (∃ (l : LinkId) (seq : BitVec 16) (vote : TimeVote) (f : FwdFu) (w : FwdSync) (x : Stamp) (s : State), l.part = .hub ∧
      (s.hub.sh.fus.find? (fun f => f.fu.seq == seq) = some f) ∧ ((s.link l).fwd.find? (fun w => w.seq == seq) = some w) ∧
        findStamp (.sync seq) (s.link l).tx = some x ∧ (s.hub.ref.regs.masterStatusIsMaster = true ∧
          vote = .agree ∨ s.hub.ref.regs.masterStatusIsMaster = false ∧ s.servoState .hub = 2) ∧ f.r.uncal = false ∧
            f.r.missed = false ∧ x.uncal = false ∧ x.missed = false ∧ (x.stepGen = f.r.stepGen ∧ x.moveGen = w.gen ∧
              (f.via = none ∨ x.inGen = f.r.moveGen)) ∧ (s.link l).regs.ptGatesResMax = 0 ∧ f.badIn = false) ∧
    (∃ (l : LinkId) (seq : BitVec 16) (f : FwdFu) (w : FwdSync) (x : Stamp) (s : State), l.part = .hub ∧
      (s.hub.sh.fus.find? (fun f => f.fu.seq == seq) = some f) ∧ ((s.link l).fwd.find? (fun w => w.seq == seq) = some w) ∧
        findStamp (.sync seq) (s.link l).tx = some x ∧ s.hub.ref.regs.masterStatusIsMaster = true ∧ f.r.uncal = false ∧
          f.r.missed = false ∧ x.uncal = false ∧ x.missed = false ∧ x.stepGen ≠ f.r.stepGen) ∧
    (∃ (l : LinkId) (seq : BitVec 16) (s : State), findStamp (.sync seq) (s.link l).tx = none) ∧
    (∃ (s : State), s.hub.ref.regs.masterStatusIsMaster = false ∧ s.servoState .hub ≠ 2) ∧
    (∃ (l : LinkId) (seq : BitVec 16) (s : State), (s.link l).syncs.contains seq = true ∧
      ((s.link l).waitFu.any (fun m => m.seq == seq) = false)) ∧
    (∃ (l : LinkId) (seq : BitVec 16) (s : State), ((s.link l).syncs.contains seq = false ∨
      (s.link l).waitFu.any (fun m => m.seq == seq) = true)) :=
  ⟨⟨(.odd 1), wMaster, by decide +kernel⟩,
   ⟨wMaster, by decide +kernel⟩,
   ⟨s0, by decide +kernel⟩,
   ⟨wL, modLink (wLane wL) wL fun k => { k with syncs := [1] }, by decide +kernel⟩,
   ⟨wL, ⟨0⟩, modLink (wLane wL) wL fun k => { k with syncs := [1, 2] }, by decide +kernel⟩,
   ⟨⟨.hub, 64, 0⟩, modHub (modServoRegs (wLane ⟨.hub, 64, 0⟩) .hub fun r => { r with servoStatusState := 2 }) fun h =>
     { h with id := { h.id with hubAddr := 0 } }, by decide +kernel⟩,
   ⟨wL, s0, by decide +kernel⟩,
   ⟨wL, { wFu with hops := 7 }, wLane wL, by decide +kernel⟩,
   ⟨wL, { wFu with hops := 6 }, wLane wL, by decide +kernel⟩,
   ⟨wL, wFu, modLink (modPoint (wLane wL) (.linkRx wL) fun q => { q with
     conv0 := some { wConv with tag := .sync 1 } }) wL fun k => { k with syncs := [1] }, by decide +kernel⟩,
   ⟨linkA, wFu, { t := 400 }, 0, wSyncHeld, by decide +kernel⟩,
   ⟨wL, s0, by decide +kernel⟩,
   ⟨wL, 5, .agree, {
     fu := { wFu with seq := 5 }, r := {}, dIn := 0,
     badIn := false }, { seq := 5, gen := 0 }, { t := 400 }, wFwd true, by decide +kernel⟩,
   ⟨wL, 5, {
     fu := { wFu with seq := 5 }, r := { stepGen := 1 }, dIn := 0,
     badIn := false }, { seq := 5, gen := 0 }, { t := 400 }, modSh (wFwd true) .hub fun h => { h with
       fus := [{ fu := { wFu with seq := 5 }, r := { stepGen := 1 }, dIn := 0, badIn := false }] }, by decide +kernel⟩,
   ⟨wL, 5, modLink (wFwd true) wL fun k => { k with tx := [] }, by decide +kernel⟩,
   ⟨wFwd false, by decide +kernel⟩,
   ⟨wL, 1, modLink s0 wL fun k => { k with syncs := [1] }, by decide +kernel⟩,
   ⟨wL, 1, s0, by decide +kernel⟩⟩

theorem test_hyps_lane_calibration_and_probes :
    (∃ (p : Part) (port : BitVec 7) (lane : BitVec 3) (i : Nat) (s : State),
      (((lanesOf p).filter fun x => (s.link (calSub s p port x)).regs.ptCtrlCalPeriodS != 0).find? (fun x => decide ((s.page
        p port).nextCal.toNat ≤ x.toNat)) = some lane) ∧ (s.page p port).remap = none ∧ (s.page p port).spare ≠ noLane ∧
          (∀ x ∈ lanesOf p, (s.laneCal p port x).want = false ∧ (s.laneCal p port x).busy = false) ∧
            inTraffic s p port lane = true ∧ (s.laneCal p port (s.page p port).spare).busy = false ∧
              logicalOf s p port lane = some i) ∧
    (∃ (p : Part) (port : BitVec 7) (lane : BitVec 3) (s : State),
      (((lanesOf p).filter fun x => (s.link (calSub s p port x)).regs.ptCtrlCalPeriodS != 0).find? (fun x => decide ((s.page
        p port).nextCal.toNat ≤ x.toNat)) = some lane) ∧ (∀ x ∈ lanesOf p, (s.laneCal p port x).want = false ∧
          (s.laneCal p port x).busy = false) ∧ inTraffic s p port lane = false) ∧
    (∃ (p : Part) (port : BitVec 7) (s : State), (∀ x ∈ lanesOf p, (s.link (calSub s p port x)).regs.ptCtrlCalPeriodS = 0)) ∧
    (∃ (i : Iface) (port : BitVec 7) (data : Word) (s : State), Answers s i ∧
      ((Page.link port).ordinal i.part).isSome = true ∧ getB data 15 = true ∧ (getF data 8 4 : BitVec 4).toNat ≤ 8 ∧
        8 ≤ (getF data 4 4 : BitVec 4).toNat) ∧
    (∃ (p : Part) (port : BitVec 7) (lane : BitVec 3) (txCal rxCal : Int) (txDev rxDev : Nat) (s : State),
      (s.laneCal p port lane).busy = true ∧ 1024 ≤ (s.laneCal p port lane).tx.n ∧
        (s.laneCal p port lane).tx.figures = (txCal, txDev) ∧ (s.laneCal p port lane).rx.figures = (rxCal, rxDev) ∧
          (txCal - (nominalCal s p port).1).natAbs ≤ 131072 ∧ (rxCal - (nominalCal s p port).2).natAbs ≤ 131072 ∧
            txDev * 1000 ≤ 524288 ∧ rxDev * 1000 ≤ 524288) ∧
    (∃ (p : Part) (port : BitVec 7) (lane : BitVec 3) (txCal rxCal : Int) (txDev rxDev : Nat) (s : State),
      (s.laneCal p port lane).busy = true ∧ 1024 ≤ (s.laneCal p port lane).tx.n ∧
        (s.laneCal p port lane).tx.figures = (txCal, txDev) ∧ (s.laneCal p port lane).rx.figures = (rxCal, rxDev) ∧
          (131072 < (txCal - (nominalCal s p port).1).natAbs ∨ 131072 < (rxCal - (nominalCal s p port).2).natAbs ∨
            524288 < txDev * 1000 ∨ 524288 < rxDev * 1000)) ∧
    (∃ (p : Part) (port : BitVec 7) (lane : BitVec 3) (txCal rxCal : Int) (txDev rxDev : Nat) (s : State),
      (s.laneCal p port lane).busy = false ∨ (s.laneCal p port lane).tx.n < 1024 ∨
        (s.laneCal p port lane).tx.figures ≠ (txCal, txDev) ∨ (s.laneCal p port lane).rx.figures ≠ (rxCal, rxDev)) ∧
    (∃ (i : Iface) (port : BitVec 7) (s : State), Answers s i ∧ ((Page.link port).ordinal i.part).isSome = true ∧
      (s.link (s.ptLink i port)).active = true ∧ (s.link (s.ptLink i port)).regs.lkStateVersion ≠ 3) ∧
    (∃ (l : LinkId) (m : ProbeP) (x : Stamp) (s : State), s.laneReady l = true ∧
      converting s (.linkRx l) (.probe m.tsid m.echo) = false ∧ findStamp (.probe m.tsid m.echo) (s.link l).rx = some x ∧
        m.echo = true ∧ x.missed = false ∧ (s.link l).active = true) ∧
    (∃ (l : LinkId) (m : ProbeP) (s : State), s.laneReady l = true ∧ converting s (.linkRx l) (.probe m.tsid m.echo) = true) ∧
    (∃ (l : LinkId) (m : ProbeEchoP) (x : Tick) (s : State), s.laneReady l = true ∧
      extendWire m.rxTick (s.now l.part) = some x ∧ (s.page l.part l.port).tsq.length < 16 ∧
        (s.page l.part l.port).tsqWait = []) ∧
    (∃ (i : Iface) (port : BitVec 7) (e : TsqEntry) (rest : List TsqEntry) (s : State), Answers s i ∧
      (s.page i.part port).tsq = e :: rest) :=
  ⟨⟨.hub, 9, 2, 2, modPage (modLinkRegs (wActive ⟨.hub, 9, 0⟩) ⟨.hub, 9,
     0⟩ fun r => { r with ptCtrlCalPeriodS := 1 }) .hub 9 fun g => { g with
       lanes := [0, 1, 2, 3], spare := 4, nextCal := 2 }, by decide +kernel⟩,
   ⟨.hub, 9, 4, modPage (modLinkRegs (wActive ⟨.hub, 9, 0⟩) ⟨.hub, 9,
     0⟩ fun r => { r with ptCtrlCalPeriodS := 1 }) .hub 9 fun g => { g with
       lanes := [0, 1, 2, 3], spare := 4, nextCal := 4 }, by decide +kernel⟩,
   ⟨.tsu, 1, modLinkRegs s0 linkB fun r => { r with ptCtrlCalPeriodS := 0 }, by decide +kernel⟩,
   ⟨.host, 1, (putB 15 true ||| putF 8 8#4 ||| putF 4 8#4), s0, by decide +kernel⟩,
   ⟨.tsu, 0, 0, 2680422, 5079040, 0, 0, modLaneCal s0 .tsu 0 0 fun c => { c with
     busy := true, tx := { n := 1024, s1 := 2680422 }, rx := { n := 1024, s1 := 5079040 } }, by decide +kernel⟩,
   ⟨.hub, 3, 4, 2457600, 0, 525, 0, modLaneCal s0 .hub 3 4 fun c => { c with
     busy := true, tx := { n := 1024, s1 := 2457600, sumY2 := 282240000 } }, by decide +kernel⟩,
   ⟨.hub, 3, 4, 0, 0, 0, 0, s0, by decide +kernel⟩,
   ⟨.mgmt, 71, wActive ⟨.hub, 71, 0⟩, by decide +kernel⟩,
   ⟨wL, ⟨9, true⟩, { t := 655360 }, modLink (wLane wL) wL fun k => { k with
     rx := [(.probe 9 true, { t := 655360 })] }, by decide +kernel⟩,
   ⟨wL, ⟨9, true⟩, modPoint (wLane wL) (.linkRx wL) fun q => { q with
     conv0 := some { wConv with tag := .probe 9 true } }, by decide +kernel⟩,
   ⟨wL, ⟨9, 5, 0⟩, 5, wLane wL, by decide +kernel⟩,
   ⟨.pcie, 0, {
     kind := true, sub := 1, tsid := 2, tick := 3,
     frac := 4 }, [], modPage (modHub s0 fun h => { h with
       mod_ := { h.mod_ with modStatusBootDone := true } }) .hub 0 fun g => { g with
         tsq := [{ kind := true, sub := 1, tsid := 2, tick := 3, frac := 4 }] }, by decide +kernel⟩⟩

theorem test_hyps_servo_modes_and_losses :
    (∃ (s : State), s.servoState .hub = 2 ∧ s.hub.ref.regs.masterStatusIsMaster = false) ∧
    (∃ (s : State), s.servoState .tsu = 2 ∧ s.tsu.sh.servo.regs.servoCtrlLeadForceEn = true) ∧
    (∃ (p : Part) (s : State), s.servoState p = 3 ∧ (s.sh p).servo.regs.servoCtrlMode = 0 ∧
      (p = .tsu ∨ s.hub.ref.regs.masterStatusIsMaster = false)) ∧
    (∃ (p : Part) (l : LinkId) (s : State), s.servoInput p = some (.link l) ∧ s.servoState p = 2 ∧ 256 ≤ (s.link l).offRun ∧
      offsetGate (s.link l).regs < (s.link l).lastDropped ∧ l.part = p) ∧
    (∃ (i : Iface) (data : Word) (s : State), Answers s i ∧ getF data 48 16 ≠ 0#16 ∧ getF data 16 16 ≠ 0#16 ∧
      (s.sh i.part).servo.regs.servoCtrlMode = 2) ∧
    (∃ (i : Iface) (data : Word) (s : State), Answers s i ∧ getF data 48 16 ≠ 0#16 ∧ getF data 16 16 ≠ 0#16 ∧
      getB data 7 = false ∧ (s.sh i.part).servo.regs.servoCtrlMode ≠ 1) ∧
    (∃ (i : Iface) (data : Word) (s : State), Answers s i ∧ getF data 48 16 ≠ 0#16 ∧ getF data 16 16 ≠ 0#16 ∧
      getB data 7 = false ∧ (s.sh i.part).servo.regs.servoCtrlMode ≠ 2) ∧
    (∃ (i : Iface) (data : Word) (s : State), Answers s i ∧ getF data 48 16 ≠ 0#16 ∧ getF data 16 16 ≠ 0#16 ∧
      getF data 0 2 = (s.sh i.part).servo.regs.servoCtrlMode) :=
  ⟨⟨wServo .hub 2, by decide +kernel⟩,
   ⟨modServoRegs (wServo .tsu 2) .tsu fun r => { r with servoCtrlLeadForceEn := true }, by decide +kernel⟩,
   ⟨.tsu, wServo .tsu 3, by decide +kernel⟩,
   ⟨.tsu, linkB, modLink (modServo (wServo .tsu 2) .tsu fun v => { v with
     led := true,
     regs := { v.regs with servoStatusLead := true } }) linkB fun k => { k with
       offRun := 256, lastDropped := 99999999999999 }, by decide +kernel⟩,
   ⟨.mgmt, 0x03E8_0003_0010_0000, modServoRegs s0 .hub fun r => { r with servoCtrlMode := 2 }, by decide +kernel⟩,
   ⟨.linkA, 0x03E8_0003_0010_0000, s0, by decide +kernel⟩,
   ⟨.jtag, 0x03E8_0003_0010_0000, modServoRegs s0 .hub fun r => { r with rateManual := 0xFF12345678 }, by decide +kernel⟩,
   ⟨.linkB, 0x03E8_0003_0010_0000, wServo .tsu 2, by decide +kernel⟩⟩

theorem test_hyps_time_master :
    (∃ (s : State), s.hub.ref.regs.masterStatusIsMaster = true ∧ s.hub.ref.halted = false) ∧
    (∃ (s : State), s.tier = 2 ∧ s.hub.ref.regs.masterStatusIsMaster = false) ∧
    (∃ (l : LinkId) (m : AnnounceP) (s : State), s.laneReady l = true ∧ l.part = .hub ∧ s.tier = 2 ∧ m.kind = true ∧
      m.cls ≠ 3) ∧
    (∃ (l : LinkId) (m : AnnounceP) (s : State), s.laneReady l = false ∧ m.cls ≠ 3) ∧
    (∃ (l : LinkId) (m : AnnounceP) (s : State), s.laneReady l = true ∧ l.part = .tsu ∧ m.kind = false ∧ m.cls ≠ 3 ∧
      s.tsu.sh.ann = none) ∧
    (∃ (s : State), s.tier = 2 ∧ s.hub.sh.tb.regs.statusIslandLock = true ∧ s.hub.sh.ann = none ∧
      s.hub.ref.regs.masterCfgPrio ≠ 0xFF ∧ s.candidates = [] ∧ s.hub.ref.regs.masterStatusIsMaster = false) ∧
    (∃ (i : Iface) (data : Word) (s : State), Answers s i ∧ i.part = .hub ∧ s.hub.ref.regs.masterStatusIsMaster = true ∧
      handoverOk s (getF data 0 2) = true) ∧
    (∃ (c : BitVec 2 × Heard) (s : State), bestCandidate s.candidates = some c ∧ s.hub.ref.regs.masterStatusIsMaster = true ∧
      s.hub.ref.nextMaster = 0xFFFF ∧ c.2.cls.toNat < s.hub.ref.regs.masterStatusClass.toNat) ∧
    (∃ (s : State), s.hub.ref.regs.masterStatusIsMaster = true ∧ s.hub.ref.nextMaster ≠ 0xFFFF ∧
      s.hub.ref.handoverAt.toNat ≤ (s.now .hub).toNat) ∧
    (∃ (s : State), s.tier = 2 ∧ s.hub.ref.regs.masterStatusIsMaster = false ∧ s.hub.sh.servo.regs.servoMaster ≠ 0xFFFF) ∧
    (∃ (s : State), s.hub.ref.lossDetected = true ∧ s.hub.ref.regs.masterStatusIsMaster = false ∧
      s.hub.ref.regs.masterCfgPrio ≠ 0xFF) :=
  ⟨⟨wMaster, by decide +kernel⟩,
   ⟨wHall, by decide +kernel⟩,
   ⟨wL, (wAnn true), modHub (wLane wL) fun h => { h with id := { h.id with hubAddr := 0x8000 } }, by decide +kernel⟩,
   ⟨wL, (wAnn true), wHall, by decide +kernel⟩,
   ⟨linkA, (wAnn false), wLane linkA, by decide +kernel⟩,
   ⟨modTbRegs wHall .hub fun r => { r with statusIslandLock := true }, by decide +kernel⟩,
   ⟨.mgmt, 0x8002, modHub wMaster fun h => { h with
     ref := { h.ref with heard := [(2, some { cls := 0, prio := 1, gen := 0, at_ := 0 })] } }, by decide +kernel⟩,
   ⟨(2, { cls := 0, prio := 1, gen := 0, at_ := 0 }), modHub wMaster fun h => { h with
     ref := { h.ref with heard := [(2, some { cls := 0, prio := 1, gen := 0, at_ := 0 })] } }, by decide +kernel⟩,
   ⟨modHub wMaster fun h => { h with ref := { h.ref with nextMaster := 0xA000 } }, by decide +kernel⟩,
   ⟨modServoRegs wHall .hub fun r => { r with servoMaster := 0xA001 }, by decide +kernel⟩,
   ⟨modHub wHall fun h => { h with ref := { h.ref with lossDetected := true } }, by decide +kernel⟩⟩

theorem test_hyps_building_reference :
    (∃ (x : BitVec 80) (s : State), s.tier = 2 ∧ s.hub.sh.servo.regs.servoCtrlMode = 0 ∧ s.servoState .hub = 2 ∧
      s.hub.ref.regs.refCtrlRefSel = 2 ∧ s.hub.ref.regs.masterStatusIsMaster = true ∧ s.hub.ref.regs.refTodPending = false ∧
        ((x.toNat : Int) - s.hub.ref.regs.refInDelayPpsDelay.toInt - nearestSecond (x.toNat -
          s.hub.ref.regs.refInDelayPpsDelay.toInt)).natAbs ≤ s.hub.ref.regs.refCtrlRefStepNs.toNat * 65536) ∧
    (∃ (uncal : Bool) (s : State), (uncal = true ∨ s.tier ≠ 2)) ∧
    (∃ (x : BitVec 80) (s : State), s.tier = 2 ∧ s.hub.ref.regs.refCtrlRefSel = 2 ∧
      s.hub.ref.regs.masterStatusIsMaster = true ∧ s.hub.ref.regs.refTodPending = false ∧
        s.hub.ref.regs.refCtrlRefStepNs.toNat * 65536 < ((x.toNat : Int) - s.hub.ref.regs.refInDelayPpsDelay.toInt -
          nearestSecond (x.toNat - s.hub.ref.regs.refInDelayPpsDelay.toInt)).natAbs) ∧
    (∃ (s : State), s.tier = 2 ∧ s.hub.ref.regs.refCtrlRefSel = 1 ∧ s.hub.ref.pps = none) ∧
    (∃ (i : Iface) (s : State), Answers s i ∧ i.part = .hub) ∧
    (∃ (i : Iface) (data : Word) (th : Int) (s : State), Answers s i ∧ i.part = .hub ∧ getB data 2 = false ∧
      (s.hub.ref.regs.write 0x050 data).refCtrlRefSel = s.hub.ref.regs.refCtrlRefSel ∧
        s.hub.ref.regs.masterStatusIsMaster = true ∧ s.hub.ref.last = some th ∧ th < 0) ∧
    (∃ (i : Iface) (data : Word) (th : Int) (s : State), Answers s i ∧ i.part = .hub ∧ getB data 2 = false ∧
      (s.hub.ref.regs.write 0x050 data).refCtrlRefSel = s.hub.ref.regs.refCtrlRefSel ∧
        s.hub.ref.regs.masterStatusIsMaster = true ∧ s.hub.ref.last = some th ∧ 0 < th) ∧
    (∃ (s : State), s.hub.ref.regs.refStatusRefOk = true ∧ s.hub.ref.regs.masterStatusIsMaster = true) ∧
    (∃ (s : State), s.hub.ref.regs.masterStatusIsMaster = true ∧ s.hub.ref.regs.masterStatusClass = 1) ∧
    (∃ (s : State), s.hub.ref.regs.outCtrlEn = true ∧ s.valid .hub = true) :=
  ⟨⟨65536, modHub (modServoRegs wHallMaster .hub fun r => { r with servoStatusState := 2 }) fun h => { h with
     ref := { h.ref with regs := { h.ref.regs with refCtrlRefSel := 2 } } }, by decide +kernel⟩,
   ⟨true, s0, by decide +kernel⟩,
   ⟨65536000000, modHub wHallMaster fun h => { h with
     ref := { h.ref with regs := { h.ref.regs with refCtrlRefSel := 2 } } }, by decide +kernel⟩,
   ⟨modHub wHallMaster fun h => { h with
     ref := { h.ref with regs := { h.ref.regs with refCtrlRefSel := 1 } } }, by decide +kernel⟩,
   ⟨.mgmt, s0, by decide +kernel⟩,
   ⟨.mgmt, 0, -100, modHub wMaster fun h => { h with ref := { h.ref with last := some (-100) } }, by decide +kernel⟩,
   ⟨.jtag, 0, 100, modHub wMaster fun h => { h with ref := { h.ref with last := some 100 } }, by decide +kernel⟩,
   ⟨modHub wMaster fun h => { h with
     ref := { h.ref with regs := { h.ref.regs with refStatusRefOk := true } } }, by decide +kernel⟩,
   ⟨modHub wMaster fun h => { h with
     ref := { h.ref with regs := { h.ref.regs with masterStatusClass := 1 } } }, by decide +kernel⟩,
   ⟨wMaster, by decide +kernel⟩⟩

theorem test_hyps_ptp_port :
    (∃ (h : PtpHead) (s : State), ptpExpire s = s ∧ s.hub.ref.regs.ptpCtrlEn = true ∧ ptpOk s 0xB h = false) ∧
    (∃ (h : PtpHead) (s : State), s.hub.ref.regs.ptpCtrlEn = true ∧ ptpOk s 0xB h = true ∧ s.hub.ptp.foreign = []) ∧
    (∃ (h : PtpHead) (twoStep : Bool) (logInterval : BitVec 8) (uncal : Bool) (s : State), ptpExpire s = s ∧
      s.hub.ref.regs.ptpCtrlEn = true ∧ ptpOk s 0 h = true ∧ twoStep = true ∧ -7 ≤ logInterval.toInt ∧
        logInterval.toInt ≤ 0 ∧ fromParent s h = true ∧ uncal = false) ∧
    (∃ (h : PtpHead) (twoStep : Bool) (logInterval : BitVec 8) (s : State), ptpExpire s = s ∧
      s.hub.ref.regs.ptpCtrlEn = true ∧ (ptpOk s 0 h = false ∨ twoStep = false ∨ logInterval.toInt < -7 ∨
        0 < logInterval.toInt)) ∧
    (∃ (h : PtpHead) (sec : BitVec 48) (ns : BitVec 32) (s : State), ptpExpire s = s ∧ s.hub.ref.regs.ptpCtrlEn = true ∧
      ptpOk s 8 h = true ∧ ptpStampOk s sec ns = true ∧ fromParent s h = true ∧ s.hub.ptp.syncSeq = some h.seq ∧
        s.hub.ptp.pathCount = 0) ∧
    (∃ (h : PtpHead) (ns : BitVec 32) (s : State), ptpExpire s = s ∧ s.hub.ref.regs.ptpCtrlEn = true ∧ ptpOk s 8 h = true ∧
      1000000000 ≤ ns.toNat) ∧
    (∃ (s : State), ptpExpire s = s ∧ s.hub.ref.regs.ptpCtrlEn = true ∧ s.hub.ptp.foreign.isEmpty = false) ∧
    (∃ (h : PtpHead) (requester : PtpPortId) (receipt : PtpStamp) (s : State), ptpExpire s = s ∧
      s.hub.ref.regs.ptpCtrlEn = true ∧ ptpOk s 9 h = true ∧ ptpStampOk s receipt.sec receipt.ns = true ∧
        fromParent s h = true ∧ requester = ⟨s.clockIdentity, 1⟩ ∧ s.hub.ptp.delayPending = true ∧
          s.hub.ptp.delaySeq = h.seq ∧ s.hub.ptp.havePair = true ∧ s.hub.ptp.pathCount = 0 ∧ s.hub.ptp.pathSum = 0) ∧
    (∃ (h : PtpHead) (requester : PtpPortId) (receipt : PtpStamp) (s : State), ptpExpire s = s ∧
      s.hub.ref.regs.ptpCtrlEn = true ∧ ptpOk s 9 h = true ∧ ptpStampOk s receipt.sec receipt.ns = true ∧
        requester ≠ ⟨s.clockIdentity, 1⟩) :=
  ⟨⟨{ wHead with kind := 0xB, version := 1 }, wPtp, by decide +kernel⟩,
   ⟨{ wHead with kind := 0xB }, wPtp, by decide +kernel⟩,
   ⟨wHead, true, 0xFC, false, wPtpF, by decide +kernel⟩,
   ⟨wHead, true, 0xF8, wPtpF, by decide +kernel⟩,
   ⟨{ wHead with kind := 8 }, 1, 2, modHub wPtpF fun h => { h with ptp := { h.ptp with syncSeq := some 9 } },
     by decide +kernel⟩,
   ⟨{ wHead with kind := 8 }, 1000000000, modHub wPtpF fun h => { h with ptp := { h.ptp with syncSeq := some 9 } },
     by decide +kernel⟩,
   ⟨wPtpF, by decide +kernel⟩,
   ⟨{ wHead with kind := 9 }, ⟨s0.clockIdentity, 1⟩, ⟨1, 2⟩, modHub wPtpF fun h => { h with
     ptp := { h.ptp with delaySeq := 9, delayPending := true, havePair := true } }, by decide +kernel⟩,
   ⟨{ wHead with kind := 9 }, ⟨1, 1⟩, ⟨1, 2⟩, wPtpF, by decide +kernel⟩⟩

theorem test_hyps_tap_frames :
    (∃ (s : State), s.tsu.tapPage.tapGlobalEn = true ∧ s.valid .tsu = true) ∧
    (∃ (k : BitVec 7) (s : State), (s.tap k).own.tapStatusState = 1) ∧
    (∃ (k : BitVec 7) (f : BitVec 128) (s : State), 2 ≤ (s.tap k).own.tapStatusState.toNat ∧ frameOk f = true ∧
      frameFor f k = true ∧ frameType f = 0) ∧
    (∃ (k : BitVec 7) (f : BitVec 128) (s : State), (s.tap k).own.tapStatusState = 2 ∧ frameOk f = true ∧
      frameFor f k = true ∧ frameType f = 1) ∧
    (∃ (k : BitVec 7) (f : BitVec 128) (edges : BitVec 32) (s : State), 3 ≤ (s.tap k).own.tapStatusState.toNat ∧
      frameOk f = true ∧ frameFor f k = true ∧ frameType f = 1 ∧
        (s.tap k).anchor + 8 * edges.setWidth 64 ≠ (framePayload f).extractLsb' 32 64) ∧
    (∃ (k : BitVec 7) (s : State), 3 ≤ (s.tap k).dropRun ∧ 3 ≤ (s.tap k).own.tapStatusState.toNat) ∧
    (∃ (k : BitVec 7) (f : BitVec 128) (edges : BitVec 32) (x : TapLaunch) (s : State),
      3 ≤ (s.tap k).own.tapStatusState.toNat ∧ (s.tap k).tval = true ∧ frameOk f = true ∧ frameFor f k = true ∧
        frameType f = 2 ∧ framePayload f = x.target ++ x.frac ++ x.lid ++ 0#8 ∧ x.armed = false ∧
          67108864 ≤ x.at - (s.tap k).timeAt ⟨edges, 0⟩ ∧ (s.tap k).queue.length < 4) ∧
    (∃ (k : BitVec 7) (f : BitVec 128) (s : State), 2 ≤ (s.tap k).own.tapStatusState.toNat ∧ frameOk f = true ∧
      frameFor f k = true ∧ frameType f = 3 ∧ (framePayload f).getLsbD 87 = true) ∧
    (∃ (k : BitVec 7) (f : BitVec 128) (s : State), 2 ≤ (s.tap k).own.tapStatusState.toNat ∧ frameOk f = true ∧
      frameFor f k = true ∧ frameType f = 4) ∧
    (∃ (k : BitVec 7) (f : BitVec 128) (s : State), 2 ≤ (s.tap k).own.tapStatusState.toNat ∧ frameOk f = true ∧
      frameFor f k = true ∧ frameType f = 5) :=
  ⟨⟨modTb (modTsu s0 fun h => { h with
     tapPage := { h.tapPage with tapGlobalEn := true } }) .tsu fun b => { b with
       tick := 0x12345678, regs := { b.regs with statusValid := true } }, by decide +kernel⟩,
   ⟨3, wTap 1, by decide +kernel⟩,
   ⟨3, (mkFrame 0 3 0), wTap 3, by decide +kernel⟩,
   ⟨3, (mkFrame 1 0xFF (0x1200#64 ++ 0x80000000#32)), wTap 2, by decide +kernel⟩,
   ⟨3, (mkFrame 1 0xFF (0x1200#64 ++ 0x80000000#32)), 0, wTap 3, by decide +kernel⟩,
   ⟨3, modTap (wTap 3) 3 fun x => { x with dropRun := 3 }, by decide +kernel⟩,
   ⟨3, (launchFrame 3 { target := 0x10000, frac := 0, lid := 5 }), 0, { target := 0x10000, frac := 0, lid := 5 },
     modTap (wTap 3) 3 fun x => { x with tval := true }, by decide +kernel⟩,
   ⟨3, (mkFrame 3 0xFF (0#8 ++ 1#1 ++ 0#87)), wTap 3, by decide +kernel⟩,
   ⟨3, (mkFrame 4 3 (1#8 ++ 0#24 ++ 77#64)), wTap 3, by decide +kernel⟩,
   ⟨3, (mkFrame 5 3 0), wTap 2, by decide +kernel⟩⟩

theorem test_hyps_tap_launches :
    (∃ (k : BitVec 7) (x : TapLaunch) (rest : List TapLaunch) (s : State), (s.tap k).held = x :: rest ∧
      (s.inQueue k).length < 4 ∧ (s.now .tsu).toNat + 2000 ≤ x.target.toNat ∧ s.tsu.tapPage.tapGlobalEn = true) ∧
    (∃ (k : BitVec 7) (x : TapLaunch) (rest : List TapLaunch) (s : State), (s.tap k).held = x :: rest ∧
      x.target.toNat < (s.now .tsu).toNat + 2000) ∧
    (∃ (k : BitVec 7) (s : State), 3 ≤ (s.tap k).own.tapStatusState.toNat ∧ (s.tap k).tval = true) ∧
    (∃ (k : BitVec 7) (s : State), (s.tap k).launches = true ∧ ((s.tap k).queue.any (fun x => x.armed) = true)) ∧
    (∃ (k : BitVec 7) (s : State), ((s.tap k).launches = false ∨ (s.tap k).queue.any (fun x => x.armed) = false)) ∧
    (∃ (k : BitVec 7) (s : State), (s.tap k).stretching = true) ∧
    (∃ (k : BitVec 7) (input : BitVec 3) (s : State), (s.tap k).own.tapCtrlNbEn.getLsbD input.toNat = true) ∧
    (∃ (k : BitVec 7) (input : BitVec 3) (s : State), (s.tap k).nbIn.getLsbD input.toNat = true) ∧
    (∃ (k : BitVec 7) (cycles : List (BitVec 24 × Bool)) (p : BitVec 24) (s : State), shortest cycles = some p ∧
      (s.tap k).measuring = true ∧ (s.tap k).fcRun = true ∧ (s.tap k).fcReq = false) ∧
    (∃ (k : BitVec 7) (cycles : List (BitVec 24 × Bool)) (p : BitVec 24) (s : State), shortest cycles = some p ∧
      (s.tap k).measuring = true ∧ (s.tap k).fcRun = false) ∧
    (∃ (k : BitVec 7) (s : State), (s.tap k).measuring = false) :=
  ⟨⟨3, { target := 5000, frac := 0, lid := 9 }, [], modTap (modTsu s0 fun h => { h with
     tapPage := { h.tapPage with tapGlobalEn := true } }) 3 fun q => { q with
       held := [{ target := 5000, frac := 0, lid := 9 }], regs := { q.regs with tapStatusState := 3 } }, by decide +kernel⟩,
   ⟨3, { target := 1999, frac := 0, lid := 9 }, [], modTap s0 3 fun q => { q with
     held := [{ target := 1999, frac := 0, lid := 9 }] }, by decide +kernel⟩,
   ⟨3, modTap (wTap 3) 3 fun q => { q with tval := true, queue := [{ target := 1, frac := 0, lid := 9 }] }, by decide +kernel⟩,
   ⟨3, modTap (wTap 4) 3 fun q => { q with
     fcRun := true, queue := [{ target := 1, frac := 0, lid := 9, armed := true }] }, by decide +kernel⟩,
   ⟨3, wTap 4, by decide +kernel⟩,
   ⟨3, modTap s0 3 fun q => { q with stretching := true }, by decide +kernel⟩,
   ⟨3, 5, modTap s0 3 fun q => { q with own := { q.own with tapCtrlNbEn := 0x20 } }, by decide +kernel⟩,
   ⟨3, 5, modTap s0 3 fun q => { q with nbIn := 0x20 }, by decide +kernel⟩,
   ⟨3, [(9, false), (5, true), (7, false)], 7, modTap (wTap 4) 3 fun q => { q with measuring := true, fcRun := true },
     by decide +kernel⟩,
   ⟨3, [(7, false)], 7, modTap (wTap 3) 3 fun q => { q with measuring := true }, by decide +kernel⟩,
   ⟨3, wTap 3, by decide +kernel⟩⟩

theorem test_hyps_tap_changes_and_margins :
    (∃ (k : BitVec 7) (time : TapTime) (s : State), (s.tap k).fcReq = false ∧
      ((s.tap k).queue.any (fun x => decide (x.at - (s.tap k).timeAt time < 163840000)) = false)) ∧
    (∃ (k : BitVec 7) (time : TapTime) (s : State), (s.tap k).fcReq = false ∧
      ((s.tap k).queue.any (fun x => decide (x.at - (s.tap k).timeAt time < 163840000)) = true)) ∧
    (∃ (k : BitVec 7) (s : State), (s.tap k).fcDefer = true) ∧
    (∃ (k : BitVec 7) (s : State), (s.tap k).fcAck = true) ∧
    (∃ (k : BitVec 7) (s : State), (s.tap k).fcAck = false) ∧
    (∃ (k : BitVec 7) (s : State), (s.tap k).fcRun = true) ∧
    (∃ (k : BitVec 7) (s : State), (s.tap k).own.tapStatusState = 3 ∧ (s.tap k).fcRun = false) ∧
    (∃ (k : BitVec 7) (s : State), (s.tap k).stop = false ∧ (s.tap k).own.tapCtrlParked = false ∧
      2 ≤ (s.tap k).own.tapStatusState.toNat) ∧
    (∃ (k : BitVec 7) (mean : BitVec 40) (s : State), (s.tap k).own.tapCtrlParked = false ∧
      2 ≤ (s.tap k).own.tapStatusState.toNat ∧ (s.tap k).stop = false ∧ (s.tap k).freq = false ∧
        (s.tap k).own.tapCtrlLorTol ≠ 0 ∧ (s.tap k).own.tapCtrlLorTol.toNat * ((s.tap k).own.tapStatusPNom.toNat * 65536) <
          ((mean.toNat : Int) - (s.tap k).own.tapStatusPNom.toNat * 65536).natAbs * 1000000) ∧
    (∃ (k : BitVec 7) (count : BitVec 32) (s : State), (s.tap k).own.tapCtrlRepEn = true ∧
      (satNat 20 (((s.tap k).repPre + count.toNat) / repDivide (s.tap k)) : BitVec 20).toNat < (s.tap
        k).own.tapMarginThresh.toNat ∧ (s.tap k).own.tapStatusMarginLow = false ∧ 1 ≤ (s.tap k).lowRun) ∧
    (∃ (k : BitVec 7) (input : BitVec 3) (sender : BitVec 7) (s : State), (s.tap sender).nbTest.isSome = true ∧
      2 ≤ (s.tap k).own.tapStatusState.toNat ∧ (s.tap k).own.tapCtrlNbEn.getLsbD input.toNat = true) ∧
    (∃ (sender : BitVec 7) (s : State), (s.tap sender).nbTest = none) ∧
    (∃ (i : Iface) (s : State), Answers s i ∧ i.part = .tsu ∧
      (s.tsu.taps.any (fun e => !e.2.sent.isEmpty || !e.2.held.isEmpty) = false)) ∧
    (∃ (s : State), s.tsu.nbCheck = true) ∧
    (∃ (s : State), s.tsu.nbCheck = false) :=
  ⟨⟨3, ⟨0, 0⟩, wTap 3, by decide +kernel⟩,
   ⟨3, ⟨8, 0⟩, modTap (wTap 3) 3 fun q => { q with queue := [{ target := 2507, frac := 0, lid := 9 }] }, by decide +kernel⟩,
   ⟨3, modTap (wTap 3) 3 fun q => { q with fcDefer := true }, by decide +kernel⟩,
   ⟨3, modTap (wTap 4) 3 fun q => { q with fcReq := true, fcAck := true }, by decide +kernel⟩,
   ⟨3, wTap 3, by decide +kernel⟩,
   ⟨3, modTap (wTap 4) 3 fun q => { q with fcRun := true }, by decide +kernel⟩,
   ⟨3, wTap 3, by decide +kernel⟩,
   ⟨3, modTap (wTap 3) 3 fun q => { q with own := { q.own with tapCtrlParked := false } }, by decide +kernel⟩,
   ⟨3, 0xFFFFFFFF, modTap (wTap 3) 3 fun q => { q with
     own := { q.own with tapCtrlParked := false, tapCtrlLorTol := 1 } }, by decide +kernel⟩,
   ⟨3, 4, modTap s0 3 fun q => { q with
     lowRun := 1, own := { q.own with tapCtrlRepEn := true, tapMarginThresh := 5 } }, by decide +kernel⟩,
   ⟨3, 5, 6, modTap (modTap (wTap 3) 3 fun q => { q with
     own := { q.own with tapCtrlNbEn := 0x20 } }) 6 fun q => { q with nbTest := some 0 }, by decide +kernel⟩,
   ⟨6, wTap 3, by decide +kernel⟩,
   ⟨.linkA, s0, by decide +kernel⟩,
   ⟨modTsu s0 fun h => { h with nbCheck := true }, by decide +kernel⟩,
   ⟨s0, by decide +kernel⟩⟩

theorem test_hyps_tap_reports :
    (∃ (k : BitVec 7) (r : BitVec 64) (rest : List (BitVec 64)) (s : State), (s.tap k).rpt = r :: rest) ∧
    (∃ (r : BitVec 64), reportOk r = true ∧ r.extractLsb' 58 4 = 0) ∧
    (∃ (r : BitVec 64), reportOk r = true ∧ r.extractLsb' 58 4 = 1 ∧ reportField r 8 1 = 0#1) ∧
    (∃ (r : BitVec 64), reportOk r = true ∧ r.extractLsb' 58 4 = 2) ∧
    (∃ (r : BitVec 64), reportOk r = true ∧ r.extractLsb' 58 4 = 3) ∧
    (∃ (r : BitVec 64), reportOk r = true ∧ r.extractLsb' 58 4 = 4 ∧ reportField r 0 2 = 0#2) ∧
    (∃ (r : BitVec 64), reportOk r = true ∧ r.extractLsb' 58 4 = 4 ∧ reportField r 0 2 = 2#2) ∧
    (∃ (r : BitVec 64), reportOk r = true ∧ r.extractLsb' 58 4 = 5 ∧ reportField r 0 1 = 1#1) ∧
    (∃ (r : BitVec 64), reportOk r = true ∧ r.extractLsb' 58 4 = 6 ∧ reportField r 0 2 = 0#2 ∧ reportField r 2 1 = 0#1) ∧
    (∃ (k : BitVec 7) (r : BitVec 64) (i : Iface) (s : State), reportOk r = true ∧ r.extractLsb' 58 4 = 7 ∧
      (s.tsu.tapWrites.find? (fun x => x.1 == k && x.2.1 == reportField r 0 8) = some (k, reportField r 0 8, .row i)) ∧
        (s.tap k).own.tapStatusState ≠ 0) ∧
    (∃ (r : BitVec 64) (s : State), s.tsu.nbCheck = true ∧ reportOk r = true ∧ r.extractLsb' 58 4 = 8) ∧
    (∃ (i : Iface) (reg : BitVec 4) (data : Word) (s : State), i.part = .tsu ∧ unpowered s i = false ∧
      tapWritable (0x060 + 8 * reg.toNat) = true ∧ tapValueOk s (0x060 + 8 * reg.toNat) data = true ∧
        (s.tap (s.iface i).regs.tapSel).regs.tapStatusState = 0) ∧
    (∃ (i : Iface) (s : State), Answers s i ∧ i.part = .tsu) :=
  ⟨⟨3, 77, [], modTap s0 3 fun q => { q with rpt := [77] }, by decide +kernel⟩,
   ⟨(heartbeatReport {}), by decide +kernel⟩,
   ⟨(launchedReport 5 false false 9), by decide +kernel⟩,
   ⟨(mkReport 2 [(1, 1), (31, 99)]), by decide +kernel⟩,
   ⟨(mkReport 3 [(2, 2), (31, 99)]), by decide +kernel⟩,
   ⟨(mkReport 4 [(2, 0), (24, 9)]), by decide +kernel⟩,
   ⟨(mkReport 4 [(2, 2), (24, 9)]), by decide +kernel⟩,
   ⟨(mkReport 5 [(1, 1), (20, 9)]), by decide +kernel⟩,
   ⟨(mkReport 6 [(2, 0), (1, 0)]), by decide +kernel⟩,
   ⟨3, (mkReport 7 [(8, 4)]), .linkA, modTsu (wTap 3) fun h => { h with tapWrites := [(3, 4, .row .linkA)] },
     by decide +kernel⟩,
   ⟨(mkReport 8 [(3, 4), (7, 100)]), modTsu s0 fun h => { h with nbCheck := true }, by decide +kernel⟩,
   ⟨.linkA, 6, 5, s0, by decide +kernel⟩,
   ⟨.linkB, s0, by decide +kernel⟩⟩

theorem test_hyps_tsu_boundary :
    (∃ (s : State), s.tsu.inReset = true) ∧
    (∃ (write : Bool) (tag : BitVec 4) (s : State), s.tsu.inReset = false ∧ s.tsu.hp.length < 16 ∧
      (s.tsu.hp.any (fun e => e.tag == tag) = false) ∧ s.hostWaitsTurn = false ∧ write = true) ∧
    (∃ (write : Bool) (tag : BitVec 4) (s : State), s.tsu.inReset = false ∧ s.tsu.hp.length < 16 ∧
      (s.tsu.hp.any (fun e => e.tag == tag) = false) ∧ s.hostWaitsTurn = false ∧ write = false) ∧
    (∃ (tag : BitVec 4) (s : State), s.tsu.inReset = false ∧ s.tsu.hp.length < 16 ∧
      (s.tsu.hp.any (fun e => e.tag == tag) = false) ∧ s.hostWaitsTurn = true) ∧
    (∃ (s : State), (s.tsu.inReset = true ∨ 16 ≤ s.tsu.hp.length)) ∧
    (∃ (tag : BitVec 4) (s : State), s.tsu.inReset = false ∧ s.tsu.hp.length < 16 ∧
      (s.tsu.hp.any (fun e => e.tag == tag) = true)) ∧
    (∃ (e : HpEntry) (rest : List HpEntry) (x : Word) (s : State), s.tsu.hp = e :: rest ∧ e.done = some (false, x) ∧
      e.write = false) ∧
    (∃ (n : BitVec 4) (falling : Bool) (s : State), s.tsu.inReset = false ∧ s.tsu.evt.evtCtrlEn.getLsbD n.toNat = true ∧
      s.tsu.evt.evtCtrlEdge.getLsbD n.toNat = falling ∧ (tget {} s.tsu.evts n.toNat).lastCyc = none) ∧
    (∃ (n : BitVec 4) (p : PulseKind × Tick) (s : State), s.acting .tsu = true ∧ firstPulse (s.trig n).pend = some p ∧
      place512 (p.2.toNat * 65536 - (s.trig n).regs.ioAdj.toInt) 1 < ((s.now .tsu).toNat + 1) * 65536 ∧
        s.tsu.evt.trigCtrlEn.getLsbD n.toNat = true ∧ (s.trig n).regs.trigMode ≠ 2 ∧ (s.trig n).active = false) ∧
    (∃ (n : BitVec 4) (s : State), s.acting .tsu = true ∧ (s.trig n).pend = [] ∧ (s.trig n).regs.trigMode = 2 ∧
      (s.trig n).regs.trigPeriodNum ≠ 0 ∧ (nextPeriodic (s.trig n)).2 < ((s.now .tsu).toNat + 1) * 65536 ∧
        s.tsu.evt.trigCtrlEn.getLsbD n.toNat = true ∧ (s.trig n).active = false) ∧
    (∃ (n : BitVec 4) (s : State), (s.trig n).active = true ∧ (s.trig n).endAt < ((s.now .tsu).toNat + 1) * 65536) ∧
    (∃ (s : State), s.tsu.inReset = false) ∧
    (∃ (s : State), s.tsu.inReset = false) ∧
    (∃ (s : State), s.tsu.inReset = false) :=
  ⟨⟨modTsu s0 fun h => { h with inReset := true }, by decide +kernel⟩,
   ⟨true, 3, s0, by decide +kernel⟩,
   ⟨false, 3, s0, by decide +kernel⟩,
   ⟨3, modTsu s0 fun h => { h with lateWords := [0] }, by decide +kernel⟩,
   ⟨modTsu s0 fun h => { h with inReset := true }, by decide +kernel⟩,
   ⟨3, modTsu s0 fun h => { h with hp := [{ id := 0, tag := 3, write := true, done := none }] }, by decide +kernel⟩,
   ⟨{
     id := 4, tag := 2, write := false,
     done := some (false, 99) }, [], 99, modTsu s0 fun h => { h with
       hp := [{ id := 4, tag := 2, write := false, done := some (false, 99) }] }, by decide +kernel⟩,
   ⟨7, true, modTsu s0 fun h => { h with evt := { h.evt with evtCtrlEn := 0x80, evtCtrlEdge := 0x80 } }, by decide +kernel⟩,
   ⟨3, (.step 0, 5), modTrig (modTb (modTsu s0 fun h => { h with evt := { h.evt with trigCtrlEn := 8 } }) .tsu fun b =>
     { b with
       tick := 9, resolve := false,
       regs := { b.regs with statusValid := true } }) 3 fun x => { x with pend := [(.step 0, 5)] }, by decide +kernel⟩,
   ⟨3, modTrig (modTb (modTsu s0 fun h => { h with evt := { h.evt with trigCtrlEn := 8 } }) .tsu fun b => { b with
     tick := 9, resolve := false,
     regs := { b.regs with statusValid := true } }) 3 fun x => { x with
       regs := { x.regs with trigMode := 2, trigPeriodNum := 16 } }, by decide +kernel⟩,
   ⟨3, modTrig s0 3 fun x => { x with active := true }, by decide +kernel⟩,
   ⟨s0, by decide +kernel⟩,
   ⟨s0, by decide +kernel⟩,
   ⟨s0, by decide +kernel⟩⟩

theorem test_hyps_slot_operations :
    (∃ (i : Iface) (data : Word) (s : State), Answers s i ∧ i.part = .tsu ∧
      (s.slot (s.iface i).regs.soSel).regs.soCfgType = 0 ∧ (getF data 61 3 = tyCounter ∨ getF data 61 3 = tyFlag ∨
        getF data 61 3 = tySignal) ∧ s.tsuHasJob = true ∧ s.objBound (getF data 32 16) = false) ∧
    (∃ (i : Iface) (s : State), Answers s i ∧ i.part = .tsu ∧ (s.slot (s.iface i).regs.soSel).regs.soCfgType = tyBarrier ∧
      (s.slot (s.iface i).regs.soSel).regs.soValArrived = false) ∧
    (∃ (i : Iface) (data : Word) (s : State), Answers s i ∧ i.part = .tsu ∧
      (s.slot (s.iface i).regs.soSel).regs.soCfgType = tyCounter ∧
        (s.slot (s.iface i).regs.soSel).regs.soValValue.toNat + (getF data 0 48 : BitVec 48).toNat < 2 ^ 48 - 1) ∧
    (∃ (i : Iface) (data : Word) (s : State), Answers s i ∧ i.part = .tsu ∧
      (s.slot (s.iface i).regs.soSel).regs.soCfgType = tyCounter ∧
        2 ^ 48 - 1 ≤ (s.slot (s.iface i).regs.soSel).regs.soValValue.toNat + (getF data 0 48 : BitVec 48).toNat ∧
          (s.slot (s.iface i).regs.soSel).regs.soValSaturated = false) ∧
    (∃ (i : Iface) (s : State), Answers s i ∧ i.part = .tsu ∧ (s.slot (s.iface i).regs.soSel).regs.soCfgType = tyFlag) ∧
    (∃ (i : Iface) (s : State), Answers s i ∧ i.part = .tsu ∧ (s.slot (s.iface i).regs.soSel).regs.soCfgType = tySignal) ∧
    (∃ (i : Iface) (data : Word) (s : State), Answers s i ∧ i.part = .tsu ∧ s.winPending (getF data 6 2) (getF data 0 6) = 0) ∧
    (∃ (i : Iface) (s : State), Answers s i ∧ i.part = .tsu ∧ s.tsuPaused = true) ∧
    (∃ (i : Iface) (s : State), Answers s i ∧ i.part = .tsu ∧ s.tsuPaused = true ∧
      (s.slot (s.iface i).regs.soSel).regs.soCfgType = tyBarrier) ∧
    (∃ (i : Iface) (s : State), Answers s i ∧ i.part = .tsu ∧ s.tsuPaused = true) ∧
    (∃ (slot : BitVec 12) (s : State), (s.slot slot).clr = true ∧ s.tsu.waits = [] ∧ s.tsu.seq.wait = none) ∧
    (∃ (slot : BitVec 12) (w : BitVec 4) (s : State), (s.slot slot).clr = true ∧ (s.slot slot).regs.soCfgType = 3 ∧
      (s.slot slot).regs.soValValue = 1 ∧ (s.hostWait w).waitStatusResult = 1 ∧ (s.hostWait w).waitArmSlot = slot) ∧
    (∃ (slot : BitVec 12) (x : Tick) (s : State), (s.slot slot).due = some x ∧ s.acting .tsu = true ∧
      x.toNat ≤ (s.now .tsu).toNat) :=
  ⟨⟨.linkA, (putF 61 2#3 ||| putF 32 7#16), modTsu s0 fun h => { h with txnt := { h.txnt with ttJobState := 2 } },
     by decide +kernel⟩,
   ⟨.linkA, modSlotRegs s0 0 fun r => { r with soCfgType := 1 }, by decide +kernel⟩,
   ⟨.linkA, 9, modSlotRegs s0 0 fun r => { r with soCfgType := 2 }, by decide +kernel⟩,
   ⟨.linkA, 0xFFFFFFFFFFFF, modSlotRegs s0 0 fun r => { r with soCfgType := 2 }, by decide +kernel⟩,
   ⟨.linkA, modSlotRegs s0 0 fun r => { r with soCfgType := 3 }, by decide +kernel⟩,
   ⟨.linkA, modSlotRegs s0 0 fun r => { r with soCfgType := 4 }, by decide +kernel⟩,
   ⟨.linkA, 0xFF, s0, by decide +kernel⟩,
   ⟨.linkA, modTsu s0 fun h => { h with txnt := { h.txnt with ttJobState := 4 } }, by decide +kernel⟩,
   ⟨.linkA, modSlotRegs (modTsu s0 fun h => { h with txnt := { h.txnt with ttJobState := 4 } }) 0 fun r => { r with
     soCfgType := 1 }, by decide +kernel⟩,
   ⟨.linkA, modTsu s0 fun h => { h with txnt := { h.txnt with ttJobState := 4 } }, by decide +kernel⟩,
   ⟨4095, modSlot s0 4095 fun x => { x with clr := true }, by decide +kernel⟩,
   ⟨4095, 15, modWait (modSlot s0 4095 fun x => { x with
     clr := true,
     regs := { x.regs with soCfgType := 3, soValValue := 1 } }) 15 fun r => { r with
       waitStatusResult := 1, waitArmSlot := 4095 }, by decide +kernel⟩,
   ⟨4, 5, modSlot (modTb s0 .tsu fun b => { b with
     tick := 9, resolve := false,
     regs := { b.regs with statusValid := true } }) 4 fun x => { x with due := some 5 }, by decide +kernel⟩⟩

theorem test_hyps_sends_signals_and_waits :
    (∃ (i : Iface) (s : State), Answers s i ∧ i.part = .tsu ∧ sendRefused s s.sendOf = false ∧ s.tsu.sends.length < 16 ∧
      s.tsu.heldSends = []) ∧
    (∃ (e : SendE) (rest : List SendE) (s : State), s.tsu.sends = e :: rest ∧ s.uncovered e.fmask e.cover = 0) ∧
    (∃ (e : SendE) (i : Iface) (rest : List (SendE × Option Waiter)) (s : State), s.tsu.heldSends = (e,
      some (.row i)) :: rest ∧ s.tsu.sends.length < 16) ∧
    (∃ (k : BitVec 4) (e : SendE) (s : State), s.tsu.sends[k.toNat]? = some e ∧ (k ≠ 0 ∨ s.uncovered e.fmask e.cover ≠ 0)) ∧
    (∃ (k : BitVec 4) (e : SendE) (s : State), k = 0 ∧ s.tsu.sends.head? = some e ∧ s.uncovered e.fmask e.cover = 0) ∧
    (∃ (m : SignalP) (k : BitVec 12) (s : State), s.tsu.pend.length < 64 ∧ TsuRuns s m.job m.epoch ∧
      s.slotOf tySignal m.obj = some k ∧ signalMet s m = true) ∧
    (∃ (m : SignalP) (k : BitVec 12) (s : State), s.tsu.pend.length < 64 ∧ TsuRuns s m.job m.epoch ∧
      s.slotOf tySignal m.obj = some k ∧ signalMet s m = false) ∧
    (∃ (s : State), 64 ≤ s.tsu.pend.length) ∧
    (∃ (l : LinkId) (m : SignalP) (s : State), s.tsu.pend = [(l, m)] ∧ signalMet s m = true) ∧
    (∃ (m : ReleaseP) (k : BitVec 12) (s : State), m.timed = false ∧ TsuRuns s m.job m.epoch ∧
      s.slotOf tyBarrier m.obj = some k ∧ (extendStep m.step s.tsu.step.stepNow).isSome = true ∧
        m.gen = (s.slot k).regs.soGen.setWidth 16 ∧ (s.slot k).regs.soValArrived = true) ∧
    (∃ (i : Iface) (data : Word) (s : State), Answers s i ∧ i.part = .tsu ∧
      (s.hostWait (s.iface i).regs.waitSel).waitStatusResult ≠ 1 ∧ (s.slot (getF data 48 12)).regs.soCfgType ≠ 0 ∧
        waitHolds (s.slot (getF data 48 12)).regs ((getF data 0 48 : BitVec 48).setWidth 64) = false) ∧
    (∃ (i : Iface) (s : State), Answers s i ∧ i.part = .tsu ∧ (s.hostWait (s.iface i).regs.waitSel).waitStatusResult = 1) ∧
    (∃ (n : BitVec 4) (s : State), (s.hostWait n).waitStatusResult = 1 ∧
      waitHolds (s.slot (s.hostWait n).waitArmSlot).regs ((s.hostWait n).waitArmTarget.setWidth 64) = true) ∧
    (∃ (n : BitVec 4) (s : State), (s.hostWait n).waitStatusResult = 1 ∧
      waitHolds (s.slot (s.hostWait n).waitArmSlot).regs ((s.hostWait n).waitArmTarget.setWidth 64) = false) :=
  ⟨⟨.linkA, modTsu s0 fun h => { h with members := 4, txnt := { h.txnt with ttJobState := 2 } }, by decide +kernel⟩,
   ⟨{
     rank := 1, obj := 2, amount := 0, fmask := 0, chan := 0, window := 0, bytes := 0,
     cover := [0,0,0,0] }, [], modTsu s0 fun h => { h with
       sends := [{
         rank := 1, obj := 2, amount := 0, fmask := 0, chan := 0, window := 0, bytes := 0,
         cover := [0,0,0,0] }] }, by decide +kernel⟩,
   ⟨{
     rank := 1, obj := 2, amount := 0, fmask := 0, chan := 0, window := 0, bytes := 0,
     cover := [0,0,0,0] }, .linkB, [], modTsu s0 fun h => { h with
       heldSends := [({
         rank := 1, obj := 2, amount := 0, fmask := 0, chan := 0, window := 0, bytes := 0,
         cover := [0,0,0,0] }, some (.row .linkB))] }, by decide +kernel⟩,
   ⟨0, {
     rank := 1, obj := 2, amount := 0, fmask := 1, chan := 0, window := 0, bytes := 0,
     cover := [9,0,0,0] }, modTsu s0 fun h => { h with
       sends := [{
         rank := 1, obj := 2, amount := 0, fmask := 1, chan := 0, window := 0, bytes := 0,
         cover := [9,0,0,0] }] }, by decide +kernel⟩,
   ⟨0, {
     rank := 1, obj := 2, amount := 0, fmask := 0, chan := 0, window := 0, bytes := 0,
     cover := [0,0,0,0] }, modTsu s0 fun h => { h with
       sends := [{
         rank := 1, obj := 2, amount := 0, fmask := 0, chan := 0, window := 0, bytes := 0,
         cover := [0,0,0,0] }] }, by decide +kernel⟩,
   ⟨wSig, 4, wSigSt, by decide +kernel⟩,
   ⟨{ wSig with bytes := 100 }, 4, wSigSt, by decide +kernel⟩,
   ⟨modTsu wSigSt fun h => { h with pend := List.replicate 64 (linkA, wSig) }, by decide +kernel⟩,
   ⟨linkA, wSig, modTsu wSigSt fun h => { h with pend := [(linkA, wSig)] }, by decide +kernel⟩,
   ⟨{
     job := 3, epoch := false, obj := 7, gen := 2, step := 0, timed := false,
     tick := 0 }, 4, modSlotRegs wSigSt 4 fun r => { r with
       soCfgType := 1, soGen := 2, soValArrived := true }, by decide +kernel⟩,
   ⟨.linkA, (putF 48 4#12 ||| putF 0 9#48), wSigSt, by decide +kernel⟩,
   ⟨.linkA, modWait s0 0 fun r => { r with waitStatusResult := 1 }, by decide +kernel⟩,
   ⟨3, modWait wSigSt 3 fun r => { r with waitStatusResult := 1, waitArmSlot := 4 }, by decide +kernel⟩,
   ⟨3, modWait wSigSt 3 fun r => { r with waitStatusResult := 1, waitArmSlot := 4, waitArmTarget := 9 }, by decide +kernel⟩⟩

theorem test_hyps_barriers_on_hubs :
    (∃ (l : LinkId) (sender : BitVec 32) (dsn : Option (BitVec 32)) (m : ArriveP) (s : State),
      msgReserved (.arrive m) = false ∧ l.part = .hub ∧ NewUp s sender dsn ∧ JobRuns s m.job m.epoch ∧
        s.isFenced m.job (s.epOf l) = false ∧ (extendStep m.step (s.job m.job).step).isSome = true ∧
          tget none (s.job m.job).arrivals (arrivalKey (s.epOf l) m.obj) ≠ some m.gen ∧
            (s.homesObj m.job m.obj = false ∨ (s.job m.job).leads = false)) ∧
    (∃ (m : ArriveP), msgReserved (.arrive m) = true) ∧
    (∃ (sender : BitVec 32) (dsn : Option (BitVec 32)) (m : ArriveP) (s : State), msgReserved (.arrive m) = false ∧
      NewUp s sender dsn ∧ (extendStep m.step (s.job m.job).step).isSome = true ∧ s.homesObj m.job m.obj = true ∧
        (s.job m.job).leads = false) ∧
    (∃ (sender : BitVec 32) (dsn : Option (BitVec 32)) (m : ArriveP) (s : State), msgReserved (.arrive m) = false ∧
      NewUp s sender dsn ∧ (extendStep m.step (s.job m.job).step).isSome = true ∧ s.homesObj m.job m.obj = false) ∧
    (∃ (m : ArriveP), msgReserved (.arrive m) = true) ∧
    (∃ (sender : BitVec 32) (dsn : Option (BitVec 32)) (m : ArriveP) (s : State), msgReserved (.arrive m) = false ∧
      NewUp s sender dsn ∧ s.holds m.job = true ∧ extendStep m.step (s.job m.job).step = none) ∧
    (∃ (l : LinkId) (sender : BitVec 32) (dsn : Option (BitVec 32)) (m : ArriveP) (x : Barrier) (s : State),
      msgReserved (.arrive m) = false ∧ l.part = .hub ∧ NewUp s sender dsn ∧ JobRuns s m.job m.epoch ∧
        (extendStep m.step (s.job m.job).step).isSome = true ∧ (s.job m.job).leads = true ∧ s.barrier m.job m.obj = some x ∧
          m.gen = x.regs.shGen.setWidth 16 ∧ x.regs.shCount.toNat + m.count.toNat < x.regs.shCfgPart.toNat) ∧
    (∃ (l : LinkId) (sender : BitVec 32) (dsn : Option (BitVec 32)) (m : ArriveP) (x : Barrier) (s : State),
      msgReserved (.arrive m) = false ∧ l.part = .hub ∧ NewUp s sender dsn ∧ JobRuns s m.job m.epoch ∧
        (extendStep m.step (s.job m.job).step).isSome = true ∧ (s.job m.job).leads = true ∧ s.barrier m.job m.obj = some x ∧
          m.gen = x.regs.shGen.setWidth 16 ∧ x.regs.shCount.toNat + m.count.toNat = x.regs.shCfgPart.toNat ∧
            m.obj ≠ (s.job m.job).stepObj) ∧
    (∃ (m : ArriveP), msgReserved (.arrive m) = true) ∧
    (∃ (l : LinkId) (m : ReleaseP) (x : Barrier) (s : State), l.part = .hub ∧ JobRuns s m.job m.epoch ∧
      (extendStep m.step (s.job m.job).step).isSome = true ∧ (m.timed = false ∨ s.valid .hub = true) ∧
        s.barrier m.job m.obj = some x ∧ m.gen = x.regs.shGen.setWidth 16) ∧
    (∃ (l : LinkId) (m : ReleaseP) (s : State), s.isTwin l = false ∧ (m.timed = false ∨ s.valid .hub = true) ∧
      JobRuns s m.job m.epoch ∧ (extendStep m.step (s.job m.job).step).isSome = true) ∧
    (∃ (m : PauseMarkP) (s : State), JobRuns s m.job m.epoch ∧ (extendStep m.step (s.job m.job).step).isSome = true) ∧
    (∃ (i : Iface) (x : Barrier) (s : State), Answers s i ∧ i.part = .hub ∧ s.jobPaused (s.iface i).regs.shSelJob = true ∧
      s.barrier (s.iface i).regs.shSelJob (s.iface i).regs.shSelObj = some x) ∧
    (∃ (i : Iface) (data : Word) (x : Barrier) (s : State), Answers s i ∧ i.part = .hub ∧
      s.jobPaused (s.iface i).regs.shSelJob = true ∧ s.barrier (s.iface i).regs.shSelJob (s.iface i).regs.shSelObj = some x ∧
        (getF data 0 19 : BitVec 19).toNat < x.regs.shCfgPart.toNat) ∧
    (∃ (i : Iface) (data : Word) (s : State), Answers s i ∧ i.part = .hub ∧ s.isHome (s.iface i).regs.shSelJob = true ∧
      1000 ≤ (getF data 0 32 : BitVec 32).toNat ∧ (getF data 0 32 : BitVec 32).toNat ≤ 1000000) :=
  ⟨⟨wL, 5, none, wArr, wJob, by decide +kernel⟩,
   ⟨{ wArr with count := 0 }, by decide +kernel⟩,
   ⟨5, (some 0), wArr, modJob wJob 3 fun b => { b with other := 0xFFFF, lead := 0x2000 }, by decide +kernel⟩,
   ⟨5, (some 0), wArr, modJob wJob 3 fun b => { b with other := 0, lead := 0x2000 }, by decide +kernel⟩,
   ⟨{ wArr with count := 0 }, by decide +kernel⟩,
   ⟨5, (some 0), { wArr with step := 0x800000 }, wJob, by decide +kernel⟩,
   ⟨wL, 5, none, wArr, { regs := { shCfgPart := 8, shGen := 4, shCount := 2 } }, wLeadJob, by decide +kernel⟩,
   ⟨wL, 5, none, wArr, {
     regs := { shCfgPart := 3, shGen := 4, shCount := 2 } }, modJob wLeadJob 3 fun b => { b with
       stepObj := 1, barriers := [(9, some { regs := { shCfgPart := 3, shGen := 4, shCount := 2 } })] }, by decide +kernel⟩,
   ⟨{ wArr with count := 0 }, by decide +kernel⟩,
   ⟨wL, {
     job := 3, epoch := false, obj := 9, gen := 4, step := 0, timed := false,
     tick := 0 }, { regs := { shCfgPart := 8, shGen := 4, shCount := 2 } }, wLeadJob, by decide +kernel⟩,
   ⟨wL, { job := 3, epoch := false, obj := 9, gen := 4, step := 0, timed := false, tick := 0 }, wLeadJob, by decide +kernel⟩,
   ⟨{ job := 3, epoch := false, step := 9 }, wLeadJob, by decide +kernel⟩,
   ⟨.mgmt, { regs := { shCfgPart := 8, shGen := 4, shCount := 2 } }, wPausedSel, by decide +kernel⟩,
   ⟨.mgmt, 7, { regs := { shCfgPart := 8, shGen := 4, shCount := 2 } }, wPausedSel, by decide +kernel⟩,
   ⟨.mgmt, 1000, wPausedSel, by decide +kernel⟩⟩

theorem test_hyps_lateness_and_triggers :
    (∃ (job : BitVec 12) (rank : BitVec 20) (s : State), (s.lateOf job rank).set.length =
      2 ^ (s.lateOf job rank).regs.ltCfgK.toNat) ∧
    (∃ (job : BitVec 12) (rank : BitVec 20) (s : State), (s.lateOf job rank).regs.ltBlockFill.toNat = 256 ∧
      (s.lateOf job rank).regs.ltCfgThreshNs ≠ 0 ∧ (s.lateOf job rank).regs.ltCfgThreshNs.toNat < (s.lateOf job
        rank).blockSum / 256 ∧ (s.lateOf job rank).regs.ltStatusStraggler = false) ∧
    (∃ (i : Iface) (data : Word) (e : BitVec 24) (s : State), Answers s i ∧ i.part = .hub ∧
      (getF data 0 5 : BitVec 5).toNat ≤ 20 ∧ s.rankEp (s.iface i).regs.ltSelJob (s.iface i).regs.ltSelRank = some e ∧
        s.serves e = true) ∧
    (∃ (i : Iface) (s : State), Answers s i ∧ i.part = .hub) ∧
    (∃ (i : Iface) (data : Word) (s : State), Answers s i ∧ i.part = .tsu ∧ (s.iface i).regs.ioSelDir = true ∧
      s.tsu.evt.trigCtrlEn.getLsbD (s.iface i).regs.ioSelIndex.toNat = false ∧ (getF data 0 3 : BitVec 3).toNat ≤ 4 ∧
        periodOk ((s.trig (s.iface i).regs.ioSelIndex).regs.write 0x080 data) = true) ∧
    (∃ (i : Iface) (which : BitVec 2) (data : Word) (s : State), Answers s i ∧ i.part = .tsu ∧ which = 0 ∧
      (s.iface i).regs.ioSelDir = true ∧ s.tsu.evt.trigCtrlEn.getLsbD (s.iface i).regs.ioSelIndex.toNat = false ∧
        (getF data 0 32 : BitVec 32).toNat ≤ 1000000000 ∧ (s.trig (s.iface i).regs.ioSelIndex).regs.trigMode ≠ 2) ∧
    (∃ (i : Iface) (data : Word) (s : State), Answers s i ∧ i.part = .tsu ∧ (s.iface i).regs.ioSelDir = true ∧
      (s.trig (s.iface i).regs.ioSelIndex).regs.trigMode = 3 ∧ s.valid .tsu = true ∧ tickTest data (s.now .tsu) = .inWindow ∧
        (s.trig (s.iface i).regs.ioSelIndex).pend = []) :=
  ⟨⟨3, 5, modLate s0 3 5 fun x => { x with set := [5, 9], regs := { x.regs with ltCfgK := 1 } }, by decide +kernel⟩,
   ⟨3, 5, modLate s0 3 5 fun x => { x with
     blockSum := 2560, regs := { x.regs with ltBlockFill := 256, ltCfgThreshNs := 9 } }, by decide +kernel⟩,
   ⟨.mgmt, 20, 0, modJob (modHub s0 fun h => { h with id := { h.id with hubAddr := 0 } }) 0 fun b => { b with
     ranks := [(0, some 0)] }, by decide +kernel⟩,
   ⟨.mgmt, s0, by decide +kernel⟩,
   ⟨.linkA, 1, modIfaceRegs s0 .linkA fun r => { r with ioSelDir := true, ioSelIndex := 5 }, by decide +kernel⟩,
   ⟨.linkA, 0, 1000000000, modIfaceRegs s0 .linkA fun r => { r with ioSelDir := true, ioSelIndex := 5 }, by decide +kernel⟩,
   ⟨.linkA, 2000000000, modTrig (modIfaceRegs (wServo .tsu 2) .linkA fun r => { r with ioSelDir := true, ioSelIndex := 5 }) 5
     fun x => { x with regs := { x.regs with trigMode := 3 } }, by decide +kernel⟩⟩

theorem test_hyps_launches :
    (∃ (l : LinkId) (m : StepReleaseP) (x : Tick) (s : State), l.part = .tsu ∧ s.valid .tsu = true ∧
      TsuRuns s m.job m.epoch ∧ extendStep m.step s.tsu.step.stepNow = some (s.tsu.step.stepNow + 1) ∧
        ((s.tsu.rel.filter fun f => f.step == m.step) = none) ∧ extendWire m.tick (s.now .tsu) = some x ∧
          tickTest x (s.now .tsu) = .inWindow ∧ inGuard s x = true) ∧
    (∃ (h : HeldLaunch) (s : State), launchDueNow s false = some h ∧ s.tsu.seq.regs.seqStatusState = 0) ∧
    (∃ (h : HeldLaunch) (s : State), launchDueNow s true = some h ∧ s.tsu.seq.regs.seqStatusState = 0) ∧
    (∃ (j : BitVec 12) (h : HeldLaunch) (s : State), homeDueNow s j true = some h) ∧
    (∃ (job : BitVec 12) (h : HeldLaunch) (s : State), homeDueNow s job false = some h ∧ (s.job job).seq.loaded = true ∧
      (s.job job).seq.len (.home job) ≠ 0 ∧ (s.job job).seq.regs.seqStatusState = 0) ∧
    (∃ (g : Staged) (a : LaunchAct) (s : State), s.stagedAt .tsu (s.tsu.txnt.ttJob.setWidth 13) = some g ∧ g.kind = 2 ∧
      g.committed = false ∧ launchAct g.share = some a ∧ inGuard s a.l0 = false) :=
  ⟨⟨linkA, {
     job := 3, epoch := false, step := 1, tick := 200000, late := true, rebased := false,
     lag := 5 }, 200000, modTbRegs (modTsu s0 fun h => { h with
       txnt := { h.txnt with ttJobState := 2, ttJob := 3 } }) .tsu fun r => { r with statusValid := true }, by decide +kernel⟩,
   ⟨{ tick := 5, step := 9 }, wHeld { tick := 5, step := 9 }, by decide +kernel⟩,
   ⟨{ tick := 5, step := 9, first := true }, wHeld { tick := 5, step := 9, first := true }, by decide +kernel⟩,
   ⟨3, { tick := 5, step := 9, first := true }, wHome { tick := 5, step := 9, first := true }, by decide +kernel⟩,
   ⟨3, { tick := 5, step := 9 }, modJob (wHome { tick := 5, step := 9 }) 3 fun b => { b with
     seq := { b.seq with words := [(1, some 4)], regs := { b.seq.regs with progStatusState := 3 } } }, by decide +kernel⟩,
   ⟨wLaunchStaged, {
     l0 := 5, first := 0, lag := 0, catchup := 0, tsuDigest := 0,
     homeDigest := 0 }, modTsu s0 fun h => { h with
       step := { h.step with stepCfg := 6 }, staged := [(0, some wLaunchStaged)] }, by decide +kernel⟩⟩

theorem test_hyps_loading_a_program :
    (∃ (i : Iface) (data : Word) (s : State), Answers s i ∧ getB data 62 = false ∧
      (s.seq (s.progSite i)).regs.progStatusState ≠ 2 ∧ beginRefused s (s.progSite i) = false) ∧
    (∃ (i : Iface) (data : Word) (s : State), Answers s i ∧ getB data 63 = false ∧
      (s.seq (s.progSite i)).regs.progStatusState = 1) ∧
    (∃ (i : Iface) (s : State), Answers s i ∧ (s.seq (s.progSite i)).regs.progStatusState = 1 ∧
      (s.seq (s.progSite i)).regs.progAddr.toNat ≤ progMax (s.progSite i)) ∧
    (∃ (i : Iface) (data : Word) (s : State), Answers s i ∧ (s.seq (s.progSite i)).regs.progStatusState ≠ 2 ∧
      (getF data 0 15 : BitVec 15).toNat ≤ progMax (s.progSite i)) ∧
    (∃ (s : State), s.tsu.seq.regs.progStatusState = 2 ∧ (progCheck .tsu s.tsu.seq (0, 0)).1 = 0) ∧
    (∃ (s : State), s.tsu.seq.regs.progStatusState = 2 ∧ (progCheck .tsu s.tsu.seq (0, 0)).1 ≠ 0) :=
  ⟨⟨.linkA, 0, s0, by decide +kernel⟩,
   ⟨.linkA, 0, modSeqRegs s0 .tsu fun r => { r with progStatusState := 1 }, by decide +kernel⟩,
   ⟨.linkA, modSeqRegs s0 .tsu fun r => { r with progStatusState := 1 }, by decide +kernel⟩,
   ⟨.linkA, 16387, s0, by decide +kernel⟩,
   ⟨wProg, by decide +kernel⟩,
   ⟨modSeqRegs s0 .tsu fun r => { r with progStatusState := 2 }, by decide +kernel⟩⟩

theorem test_hyps_control_words :
    (∃ (site : Site) (s : State), AtWord s site 0x00) ∧
    (∃ (s : State), s.wordWaits = true) ∧
    (∃ (site : Site) (s : State), AtWord s site 0x02) ∧
    (∃ (site : Site) (s : State), AtWord s site 0x03 ∧ brTaken (iFn (s.seq site).word) ((s.seq site).x (iA (s.seq
      site).word)) ((s.seq site).x (iB (s.seq site).word)) = true) ∧
    (∃ (site : Site) (s : State), AtWord s site 0x03 ∧ brTaken (iFn (s.seq site).word) ((s.seq site).x (iA (s.seq
      site).word)) ((s.seq site).x (iB (s.seq site).word)) = false) ∧
    (∃ (site : Site) (s : State), AtWord s site 0x04 ∧ Live s site ∧ iA (s.seq site).word ≠ 0 ∧
      (s.seq site).x (iA (s.seq site).word) ≠ 1) ∧
    (∃ (site : Site) (s : State), AtWord s site 0x10 ∧ Live s site) ∧
    (∃ (site : Site) (s : State), AtWord s site 0x11 ∧ Live s site) ∧
    (∃ (site : Site) (s : State), AtWord s site 0x12 ∧ Live s site) ∧
    (∃ (site : Site) (s : State), AtWord s site 0x13 ∧ Live s site) ∧
    (∃ (site : Site) (s : State), AtWord s site 0x14 ∧ Live s site) ∧
    (∃ (site : Site) (s : State), AtWord s site 0x15 ∧ Live s site) ∧
    (∃ (site : Site) (s : State), AtWord s site 0x16 ∧ Live s site) ∧
    (∃ (site : Site) (s : State), AtWord s site 0x17 ∧ Live s site) ∧
    (∃ (site : Site) (s : State), AtWord s site 0x18 ∧ Live s site) ∧
    (∃ (site : Site) (s : State), AtWord s site 0x19 ∧ Live s site) ∧
    (∃ (site : Site) (s : State), AtWord s site 0x1A ∧ Live s site ∧ (s.seq site).bufAddr (s.seq site).word < 8192) ∧
    (∃ (site : Site) (s : State), AtWord s site 0x1B ∧ Live s site ∧
      s.xbufRead ((s.seq site).bufAddr (s.seq site).word) 1 = false ∧ (s.seq site).bufAddr (s.seq site).word < 8192) ∧
    (∃ (site : Site) (s : State), s.xbufRead ((s.seq site).bufAddr (s.seq site).word) 1 = true) :=
  ⟨⟨.tsu, wAt 0x00 0, by decide +kernel⟩,
   ⟨modTsu (wAt 0x00 0) fun h => { h with lateWords := [0] }, by decide +kernel⟩,
   ⟨.tsu, wAt 0x02 7, by decide +kernel⟩,
   ⟨.tsu, wAt 0x03 7, by decide +kernel⟩,
   ⟨.tsu, wAt 0x03 (7 ||| putF 40 1#4), by decide +kernel⟩,
   ⟨.tsu, wAt 0x04 (7 ||| putF 48 1#4), by decide +kernel⟩,
   ⟨.tsu, wAt 0x10 (0x80000000000 ||| putF 48 1#4), by decide +kernel⟩,
   ⟨.tsu, wAt 0x11 (9 ||| putF 48 1#4), by decide +kernel⟩,
   ⟨.tsu, wAt 0x12 (9 ||| putF 48 1#4), by decide +kernel⟩,
   ⟨.tsu, wAt 0x13 (putF 48 1#4), by decide +kernel⟩,
   ⟨.tsu, wAt 0x14 (putF 48 1#4), by decide +kernel⟩,
   ⟨.tsu, wAt 0x15 (putF 48 1#4), by decide +kernel⟩,
   ⟨.tsu, wAt 0x16 (putF 48 1#4 ||| putB 55 true), by decide +kernel⟩,
   ⟨.tsu, wAt 0x17 (putF 48 1#4 ||| putB 55 true), by decide +kernel⟩,
   ⟨.tsu, wAt 0x18 (putF 48 1#4 ||| putB 55 true), by decide +kernel⟩,
   ⟨.tsu, wAt 0x19 (putF 48 1#4 ||| putB 55 true), by decide +kernel⟩,
   ⟨.tsu, wAt 0x1A (putF 48 1#4 ||| 8191), by decide +kernel⟩,
   ⟨.tsu, wAt 0x1B (putF 48 1#4 ||| 8191), by decide +kernel⟩,
   ⟨.tsu, modTsu (wAt 0x1B (putF 48 1#4 ||| 8191)) fun h => { h with xhold := [(8190, 2)] }, by decide +kernel⟩⟩

theorem test_hyps_sync_words :
    (∃ (site : Site) (s : State), AtWord s site 0x20 ∧ s.stepSlot ≠ some (iSlot (s.seq site).word) ∧
      (s.slot (iSlot (s.seq site).word)).regs.soCfgType = tyBarrier ∧
        (s.slot (iSlot (s.seq site).word)).regs.soValArrived = false) ∧
    (∃ (site : Site) (s : State), AtWord s site 0x21 ∧ (s.slot (iSlot (s.seq site).word)).regs.soCfgType = tyCounter ∧
      (s.slot (iSlot (s.seq site).word)).regs.soValValue.toNat + ((s.seq site).v (s.seq site).word).toNat < 2 ^ 48 - 1) ∧
    (∃ (site : Site) (s : State), AtWord s site 0x22 ∧ (s.slot (iSlot (s.seq site).word)).regs.soCfgType = tyCounter ∧
      ((s.seq site).v (s.seq site).word).toNat < 2 ^ 48 - 1) ∧
    (∃ (site : Site) (s : State), AtWord s site 0x23 ∧ (s.slot (iSlot (s.seq site).word)).regs.soCfgType = tyFlag) ∧
    (∃ (site : Site) (s : State), AtWord s site 0x24 ∧ s.winPending (getF (s.seq site).word 6 2) (getF (s.seq site).word 0 6)
      = 0) ∧
    (∃ (site : Site) (r : SyncRegs) (s : State), AtWord s site 0x26 ∧
      r = (({} : SyncRegs).write 0x070 ((s.seq site).x (iA (s.seq site).word))).write 0x078 ((s.seq site).x (iB (s.seq
        site).word)) ∧ s.tsuHasJob = true ∧ (r.sigDestFmask ≠ 0 ∨ r.sigTokenBytes = 0) ∧
          r.sigDestRank.toNat < s.tsu.members.toNat ∧ s.tsu.sends.length < 16 ∧ s.tsu.heldSends = []) ∧
    (∃ (site : Site) (s : State), AtWord s site 0x2A ∧ (s.trig (getF (s.seq site).word 32 4)).regs.trigMode = 4 ∧
      s.valid .tsu = true ∧ tickTest ((s.seq site).launch + (s.seq site).v (s.seq site).word) (s.now .tsu) = .inWindow ∧
        (s.trig (getF (s.seq site).word 32 4)).pend.length < 4) ∧
    (∃ (s : State), AtWord s .tsu 0x2B ∧ s.stepSlot = some (iSlot s.tsu.seq.word) ∧
      (s.slot (iSlot s.tsu.seq.word)).regs.soCfgType = tyBarrier ∧ (s.slot (iSlot s.tsu.seq.word)).regs.soValArrived = false) ∧
    (∃ (j : BitVec 12) (s : State), AtWord s (.home j) 0x01 ∧ (s.job j).seq.next = none ∧ (s.job j).regs.jobStatusState = 2) :=
  ⟨⟨.tsu, modSlotRegs (wAt 0x20 (putF 32 5#12)) 5 fun r => { r with soCfgType := 1, soCfgObj := 4 }, by decide +kernel⟩,
   ⟨.tsu, modSlotRegs (wAt 0x21 (putF 32 5#12)) 5 fun r => { r with soCfgType := 2 }, by decide +kernel⟩,
   ⟨.tsu, modSlotRegs (wAt 0x22 (putF 32 5#12 ||| 9)) 5 fun r => { r with soCfgType := 2 }, by decide +kernel⟩,
   ⟨.tsu, modSlotRegs (wAt 0x23 (putF 32 5#12)) 5 fun r => { r with soCfgType := 3 }, by decide +kernel⟩,
   ⟨.tsu, wAt 0x24 0xFF, by decide +kernel⟩,
   ⟨.tsu, ({} : SyncRegs), modTsu (wAt 0x26 0) fun h => { h with
     members := 4, txnt := { h.txnt with ttJobState := 2 } }, by decide +kernel⟩,
   ⟨.tsu, modTrig (modTbRegs (wAt 0x2A (putF 32 5#4)) .tsu fun r => { r with statusValid := true }) 5 fun x => { x with
     regs := { x.regs with trigMode := 4 } }, by decide +kernel⟩,
   ⟨modSlotRegs (wAt 0x2B (putF 32 5#12)) 5 fun r => { r with soCfgType := 1 }, by decide +kernel⟩,
   ⟨3, wAtHome 0x01 0, by decide +kernel⟩⟩

theorem test_hyps_waiting_words :
    (∃ (site : Site) (s : State), AtWord s site 0x25 ∧ s.uncovered (getF (s.seq site).word 0 4) s.covers = 0) ∧
    (∃ (site : Site) (s : State), AtWord s site 0x27 ∧ (s.slot (iSlot (s.seq site).word)).regs.soCfgType ≠ 0 ∧
      waitHolds (s.slot (iSlot (s.seq site).word)).regs ((s.seq site).v (s.seq site).word) = true) ∧
    (∃ (site : Site) (s : State), AtWord s site 0x28 ∧ s.tsu.evt.evtCtrlEn.getLsbD (iEvt (s.seq site).word).toNat = true) ∧
    (∃ (site : Site) (s : State), AtWord s site 0x29 ∧ s.acting .tsu = true ∧
      ((s.seq site).launch + (s.seq site).v (s.seq site).word).toNat ≤ (s.now .tsu).toNat) ∧
    (∃ (site : Site) (c : BitVec 12) (first : Nat) (s : State), AtWord s site 0x30 ∧ c = iSlot (s.seq site).word ∧
      first = ((s.seq site).x (iA (s.seq site).word)).toNat ∧ s.ctxCfg c ≠ 0 ∧
        iBuf (s.seq site).word + wordsFor (fmtWidth (cIn (s.ctxCfg c))) (iCount (s.seq site).word) ≤ 8192 ∧
          first + iCount (s.seq site).word ≤ cLen (s.ctxCfg c)) ∧
    (∃ (site : Site) (s : State), AtWord s site 0x31 ∧ s.ctxCfg (iSlot (s.seq site).word) ≠ 0 ∧
      iBuf (s.seq site).word + wordsFor (resWidth (s.ctxCfg (iSlot (s.seq site).word))) (iCount (s.seq site).word) ≤ 8192 ∧
        s.elemsHeld (iSlot (s.seq site).word) ((s.seq site).x (iA (s.seq site).word)) (iCount (s.seq site).word) = true) ∧
    (∃ (site : Site) (e : BitVec 64) (s : State), AtWord s site 0x32 ∧ Live s site ∧ s.ctxCfg (iSlot (s.seq site).word) ≠ 0 ∧
      e = (s.seq site).x (iB (s.seq site).word) + (getF (s.seq site).word 0 16 : BitVec 16).setWidth 64 ∧
        s.elemHeld (iSlot (s.seq site).word) e.toNat = true) ∧
    (∃ (site : Site) (kind : BitVec 2) (did : BitVec 8) (s : State), AtWord s site 0x33 ∧
      kind = getF (s.seq site).word 42 2 ∧ did = getF (s.seq site).word 32 8 ∧ dEn (tget 0 s.tsu.plan did.toNat) = true ∧
        dKind (tget 0 s.tsu.plan did.toNat) = kind ∧ s.tsu.issued.getLsbD did.toNat = false ∧
          iBuf (s.seq site).word + 3 ≤ 8192) ∧
    (∃ (j : BitVec 12) (b : Bool × StepBuf) (s : State), AtWord s (.home j) 0x40 ∧
      (s.ctx j (iSlot (s.job j).seq.word)).regs.spCfg ≠ 0 ∧ s.passBuf j (iSlot (s.job j).seq.word) = some b ∧
        2 ≤ b.2.state.toNat) ∧
    (∃ (j : BitVec 12) (s : State), AtWord s (.home j) 0x43) ∧
    (∃ (m : BitVec 4) (x : List (BitVec 64)) (s : State), s.tsu.seq.wait = some (.fence m x) ∧ s.uncovered m x = 0) ∧
    (∃ (n : BitVec 4) (a : Tick) (e : Nat) (s : State), s.tsu.seq.wait = some (.evt n a e) ∧ e < (s.evtLine n).edges) ∧
    (∃ (a : Tick) (s : State), s.tsu.seq.wait = some (.tick a) ∧ s.acting .tsu = true ∧ a.toNat ≤ (s.now .tsu).toNat) ∧
    (∃ (c : BitVec 12) (first : BitVec 64) (n b : Nat) (s : State), s.tsu.seq.wait = some (.result c first n b) ∧
      s.elemsHeld c first n = true) ∧
    (∃ (job c : BitVec 12) (b : Bool × StepBuf) (s : State), (s.job job).seq.wait = some (.hwait c) ∧
      s.passBuf job c = some b ∧ 2 ≤ b.2.state.toNat) ∧
    (∃ (site : Site) (e : RqEntry) (rest : List RqEntry) (s : State), (s.seq site).wait = some .replay ∧
      s.replayQueue site = e :: rest ∧ e.step = (s.seq site).step ∧ e.vidx.toNat = (s.seq site).vidx (s.seq site).cur.toNat) :=
  ⟨⟨.tsu, wAt 0x25 0xF, by decide +kernel⟩,
   ⟨.tsu, modSlotRegs (wAt 0x27 (putF 32 5#12)) 5 fun r => { r with soCfgType := 2 }, by decide +kernel⟩,
   ⟨.tsu, modTsu (wAt 0x28 5) fun h => { h with evt := { h.evt with evtCtrlEn := 0x20 } }, by decide +kernel⟩,
   ⟨.tsu, wActing .tsu (wAt 0x29 9), by decide +kernel⟩,
   ⟨.tsu, 5, 0, modTsu (wAt 0x30 (putF 32 5#12)) fun h => { h with ctxs := [(5, { cfg := 0x10 })] }, by decide +kernel⟩,
   ⟨.tsu, modTsu (wAt 0x31 (putF 32 5#12 ||| putF 48 1#4)) fun h => { h with
     ctxs := [(5, { cfg := 0x10 })], seq := { h.seq with xs := [(1, 70000)] } }, by decide +kernel⟩,
   ⟨.tsu, 70000, modTsu (wAt 0x32 (putF 32 5#12 ||| putF 44 1#4 ||| putF 48 2#4)) fun h => { h with
     ctxs := [(5, { cfg := 0x10 })], seq := { h.seq with xs := [(1, 70000)] } }, by decide +kernel⟩,
   ⟨.tsu, 0, 5, modTsu (wAt 0x33 (putF 32 5#8 ||| 7)) fun h => { h with plan := [(5, wPlan)] }, by decide +kernel⟩,
   ⟨3, (false, { state := 2 }), modJob (wAtHome 0x40 (putF 32 5#12)) 3 fun q => { q with
     ctxs := [(5, { regs := { spCfg := 0x10 }, a := { state := 2 } })] }, by decide +kernel⟩,
   ⟨3, wAtHome 0x43 0, by decide +kernel⟩,
   ⟨3, [0,0,0,0], modTsu s0 fun h => { h with seq := { h.seq with wait := some (.fence 3 [0,0,0,0]) } }, by decide +kernel⟩,
   ⟨3, 0, 0, modTsu s0 fun h => { h with
     evts := [(3, { edges := 1 })], seq := { h.seq with wait := some (.evt 3 0 0) } }, by decide +kernel⟩,
   ⟨9, wActing .tsu (modTsu s0 fun h => { h with seq := { h.seq with wait := some (.tick 9) } }), by decide +kernel⟩,
   ⟨5, 70000, 2, 7, modTsu s0 fun h => { h with
     ctxs := [(5, { cfg := 0x10 })], seq := { h.seq with wait := some (.result 5 70000 2 7) } }, by decide +kernel⟩,
   ⟨3, 5, (false, { state := 2 }), modJob (wAtHome 0x40 (putF 32 5#12)) 3 fun q => { q with
     seq := { q.seq with wait := some (.hwait 5) },
     ctxs := [(5, { regs := { spCfg := 0x10 }, a := { state := 2 } })] }, by decide +kernel⟩,
   ⟨.tsu, { step := 0, vidx := 0, value := 99 }, [], modTsu (wAt 0x10 (putB 55 true)) fun h => { h with
     rq := [{ step := 0, vidx := 0, value := 99 }],
     seq := { h.seq with wait := some .replay, regs := { h.seq.regs with seqStatusPc := 1 } } }, by decide +kernel⟩⟩

theorem test_hyps_reductions_on_the_way :
    (∃ (sender : BitVec 32) (dsn : Option (BitVec 32)) (m : ContribP) (s : State), NewUp s sender dsn ∧
      JobRuns s m.job m.epoch ∧ s.tier ≠ 0 ∧ s.isHome m.job = false ∧ (s.ctx m.job m.ctx).regs.spCfg = 0) ∧
    (∃ (sender : BitVec 32) (dsn : Option (BitVec 32)) (m : ContribP) (s : State), NewUp s sender dsn ∧
      JobRuns s m.job m.epoch ∧ s.tier ≠ 0 ∧ s.isHome m.job = false ∧ (s.ctx m.job m.ctx).regs.spCfg ≠ 0 ∧
        passThrough (s.ctx m.job m.ctx).regs.spCfg = false ∧ m.fonly = false ∧
          (contribElems (s.ctx m.job m.ctx).regs.spCfg m).length = (contribParts (s.ctx m.job m.ctx).regs.spCfg m).length) ∧
    (∃ (sender : BitVec 32) (dsn : Option (BitVec 32)) (m : ContribP) (cfg : Word) (s : State), NewUp s sender dsn ∧
      JobRuns s m.job m.epoch ∧ s.tier ≠ 0 ∧ s.isHome m.job = false ∧ cfg = (s.ctx m.job m.ctx).regs.spCfg ∧ cfg ≠ 0 ∧
        passThrough cfg = false ∧ m.fonly = false ∧ (contribElems cfg m).length ≠ (contribParts cfg m).length) ∧
    (∃ (sender : BitVec 32) (dsn : Option (BitVec 32)) (m : PartlP) (s : State), msgReserved (.partl m) = false ∧
      NewUp s sender dsn ∧ JobRuns s m.job m.epoch ∧ s.isHome m.job = false) ∧
    (∃ (m : PartlP), msgReserved (.partl m) = true) ∧
    (∃ (l : LinkId) (sender : BitVec 32) (dsn : Option (BitVec 32)) (m : PartlP) (x : BitVec 64) (w : Bool) (s : State),
      msgReserved (.partl m) = false ∧ NewUp s sender dsn ∧ JobRuns s m.job m.epoch ∧ s.isHome m.job = true ∧
        s.isTwin l = true ∧ windowOf (s.job m.job) m.step = .ok x ∧ (s.ctx m.job m.ctx).regs.spCfg ≠ 0 ∧
          (s.job m.job).refused.contains (m.ctx, x) = false ∧ (s.ctx m.job m.ctx).find x = some w) ∧
    (∃ (j c : BitVec 12) (w : Bool) (b : StepBuf) (s : State), AtWord s (.home j) 0x41 ∧ c = iSlot (s.job j).seq.word ∧
      s.passBuf j c = some (w, b) ∧ b.state = 2 ∧ (s.ctx j c).regs.spCfg ≠ 0) ∧
    (∃ (j c : BitVec 12) (w : Bool) (b : StepBuf) (s : State), AtWord s (.home j) 0x42 ∧ c = iSlot (s.job j).seq.word ∧
      s.passBuf j c = some (w, b) ∧ (b.state = 2 ∨ b.state = 3) ∧ (s.ctx j c).regs.spCfg ≠ 0) ∧
    (∃ (m : RereqP) (k : BitVec 64 × ResultP) (rest : List (BitVec 64 × ResultP)) (e : BitVec 24) (s : State),
      s.isHome m.job = true ∧ (s.job m.job).kept = k :: rest ∧ k.2.ctx = m.ctx ∧ k.2.step = m.step ∧ k.2.rank = 0xFFFFF ∧
        k.2.epoch = m.epoch ∧ k.2.elem = m.elem ∧ s.rankEp m.job m.rank = some e) ∧
    (∃ (l : LinkId) (m : ResultP) (k : BitVec 64 × ResultP) (rest : List (BitVec 64 × ResultP)) (s : State), l.part = .hub ∧
      s.isLead m.job = false ∧ (s.job m.job).rresDue = k :: rest ∧ sameFlit m k.2 = true ∧ k.2.rres ≠ m.rres) ∧
    (∃ (l : LinkId) (m : ResultP) (k : BitVec 64 × ResultP) (rest : List (BitVec 64 × ResultP)) (s : State), l.part = .hub ∧
      s.isLead m.job = false ∧ (s.job m.job).rresDue = k :: rest ∧ sameFlit m k.2 = true ∧ k.2.rres = m.rres) ∧
    (∃ (l : LinkId) (m : ResultP) (s : State), l.part = .hub ∧ s.isLead m.job = false ∧ s.isHome m.job = true ∧
      (s.job m.job).rresDue = []) :=
  ⟨⟨5, none, wContrib, modJob wJob 3 fun b => { b with lead := 0, other := 0 }, by decide +kernel⟩,
   ⟨5, none, wContrib, modJob wJob 3 fun b => { b with
     lead := 0, other := 0, ctxs := [(5, { regs := { spCfg := wSum } })] }, by decide +kernel⟩,
   ⟨5, none, { wContrib with elem := 0xFFFF }, wSum, modJob wJob 3 fun b => { b with
     lead := 0, other := 0, ctxs := [(5, { regs := { spCfg := wSum } })] }, by decide +kernel⟩,
   ⟨5, (some 0), wPart, modJob wJob 3 fun b => { b with lead := 0, other := 0 }, by decide +kernel⟩,
   ⟨{ wPart with n := 0 }, by decide +kernel⟩,
   ⟨wL, 5, (some 0), wPart, 0, false, modPage (modJob wJob 3 fun b => { b with
     ctxs := [(5, { regs := { spCfg := wSum }, a := { state := 1 } })] }) .hub 9 fun p => { p with
       role := { p.role with portRole := 3 } }, by decide +kernel⟩,
   ⟨3, 5, false, { state := 2 }, modJob (wAtHome 0x41 (putF 32 5#12)) 3 fun q => { q with
     ctxs := [(5, { regs := { spCfg := wSum }, a := { state := 2 } })] }, by decide +kernel⟩,
   ⟨3, 5, false, { state := 3 }, modJob (wAtHome 0x42 (putF 32 5#12)) 3 fun q => { q with
     ctxs := [(5, { regs := { spCfg := wSum }, a := { state := 3 } })] }, by decide +kernel⟩,
   ⟨{
     job := 3, epoch := false, ctx := 5, step := 0, elem := 0,
     rank := 1 }, (0, wRes), [], 64, modJob wJob 3 fun b => { b with
       kept := [(0, wRes)], ranks := [(1, some 64)] }, by decide +kernel⟩,
   ⟨wL, { wRes with rres := 9 }, (0, wRes), [], modJob wJob 3 fun b => { b with leads := false, rresDue := [(0, wRes)] },
     by decide +kernel⟩,
   ⟨wL, wRes, (0, wRes), [], modJob wJob 3 fun b => { b with leads := false, rresDue := [(0, wRes)] }, by decide +kernel⟩,
   ⟨wL, wRes, modJob wJob 3 fun b => { b with leads := false }, by decide +kernel⟩⟩

theorem test_hyps_results_at_the_tsu :
    (∃ (m : ResultP) (s : State), s.tsu.store.length < 1024 ∧ residue m.data.toNat = m.rres ∧ TsuRuns s m.job m.epoch ∧
      s.ctxCfg m.ctx ≠ 0 ∧ extendStep m.step s.tsu.step.stepNow = some s.tsu.step.stepNow) ∧
    (∃ (c : BitVec 12) (first : BitVec 64) (n b : Nat) (s : State), s.tsu.seq.wait = some (.result c first n b)) ∧
    (∃ (l : LinkId) (m : RefuseP) (s : State), l.part = .tsu ∧ TsuRuns s m.job m.epoch ∧
      (extendStep m.step s.tsu.step.stepNow).isSome = true ∧ s.tsu.seq.running = true) ∧
    (∃ (l : LinkId) (m : StepPoisonP) (x : BitVec 64) (s : State), l.part = .tsu ∧ TsuRuns s m.job m.epoch ∧
      extendStep m.step s.tsu.step.stepNow = some x ∧ s.tsu.evqRegs.eqPoisonTgtValid = false) ∧
    (∃ (i : Iface) (s : State), Answers s i ∧ i.part = .tsu ∧ s.tsu.rq.length < 1024) ∧
    (∃ (i : Iface) (s : State), Answers s i ∧ i.part = .tsu ∧ s.tsu.seq.running = false) ∧
    (∃ (i : Iface) (s : State), Answers s i ∧ i.part = .hub ∧ s.hub.hq.length < 1024) ∧
    (∃ (i : Iface) (which : BitVec 3) (s : State), Answers s i ∧ i.part = .tsu ∧ (s.tsuHasJob = false ∨ s.tsuPaused = true) ∧
      which = 0) ∧
    (∃ (i : Iface) (which : BitVec 3) (s : State), Answers s i ∧ i.part = .tsu ∧ (s.tsuHasJob = false ∨ s.tsuPaused = true) ∧
      which = 1) ∧
    (∃ (i : Iface) (word : BitVec 13) (s : State), Answers s i ∧ i.part = .tsu ∧ s.xbufHeld word.toNat = false) :=
  ⟨⟨wRes, modTsu wSigSt fun h => { h with ctxs := [(5, { cfg := wSum })] }, by decide +kernel⟩,
   ⟨5, 0, 1, 0, modTsu s0 fun h => { h with
     ctxs := [(5, { cfg := wSum })], seq := { h.seq with wait := some (.result 5 0 1 0) } }, by decide +kernel⟩,
   ⟨linkA, {
     job := 3, epoch := false, ctx := 5, step := 0,
     rank := 1 }, modSeqRegs wSigSt .tsu fun r => { r with seqStatusState := 2 }, by decide +kernel⟩,
   ⟨linkA, { job := 3, epoch := false, step := 1, target := 0xF05 }, 1, wSigSt, by decide +kernel⟩,
   ⟨.linkA, s0, by decide +kernel⟩,
   ⟨.linkA, modTsu s0 fun h => { h with rq := [{ step := 0, vidx := 0, value := 99 }] }, by decide +kernel⟩,
   ⟨.mgmt, s0, by decide +kernel⟩,
   ⟨.linkA, 0, s0, by decide +kernel⟩,
   ⟨.linkA, 1, s0, by decide +kernel⟩,
   ⟨.linkA, 8191, s0, by decide +kernel⟩⟩

theorem test_hyps_digests_on_hubs :
    (∃ (l : LinkId) (sender : BitVec 32) (dsn : Option (BitVec 32)) (m : DgpP) (x : BitVec 64) (s : State),
      msgReserved (.dgp m) = false ∧ NewUp s sender dsn ∧ JobRuns s m.job m.epoch ∧ s.tier ≠ 0 ∧ s.isHome m.job = true ∧
        s.isTwin l = true ∧ windowOf (s.job m.job) m.step = .ok x) ∧
    (∃ (m : DgpP), msgReserved (.dgp m) = true) ∧
    (∃ (l : LinkId) (sender : BitVec 32) (dsn : Option (BitVec 32)) (m : VmapP) (x : BitVec 64) (s : State),
      msgReserved (.vmap m) = false ∧ NewUp s sender dsn ∧ JobRuns s m.job m.epoch ∧ s.tier ≠ 0 ∧ s.isHome m.job = true ∧
        s.isTwin l = true ∧ windowOf (s.job m.job) m.step = .ok x) ∧
    (∃ (m : VmapP), msgReserved (.vmap m) = true) ∧
    (∃ (l : LinkId) (sender : BitVec 32) (dsn : Option (BitVec 32)) (m : CheckP) (x : BitVec 64) (e : BitVec 24) (s : State),
      msgReserved (.check m) = false ∧ NewUp s sender dsn ∧ JobRuns s m.job m.epoch ∧ s.tier ≠ 0 ∧ s.isHome m.job = true ∧
        s.isTwin l = true ∧ windowOf (s.job m.job) m.step = .ok x ∧ s.rankEp m.job m.rank = some e ∧
          s.isFenced m.job e = false ∧ m.kind = 1 ∧ m.shard.toNat < (s.job m.job).digh.dgJobProvCount.toNat) ∧
    (∃ (m : CheckP), msgReserved (.check m) = true) ∧
    (∃ (job : BitVec 12) (s : State), (s.job job).seq.wait = some .hdigest ∧ (s.job job).closing = none ∧
      (s.job job).twinClose = none ∧ foldsHeld s job (s.job job).seq.step = true ∧ s.isLead job = true) ∧
    (∃ (job : BitVec 12) (s : State), (s.job job).seq.wait = some .hdigest ∧ (s.job job).closing = none ∧
      foldsHeld s job (s.job job).seq.step = true ∧ s.isLead job = false ∧
        ((s.job job).rresDue.all (fun k => k.1 != (s.job job).seq.step) = true)) ∧
    (∃ (d : DgpP) (s : State), (s.job d.job).closing = none ∧ s.isLead d.job = true) ∧
    (∃ (job : BitVec 12) (c : Closing) (s : State), (s.job job).closing = some c ∧ s.isLead job = true ∧ c.events = [] ∧
      c.fold.count = false ∧ c.fold.n = c.expect) :=
  ⟨⟨wL, 5, none, {
     job := 3, epoch := false, step := 0, members := 2, n := 4, nc := 1, d0 := 5, d1 := 6 }, 0, wTwinJob, by decide +kernel⟩,
   ⟨{ job := 3, epoch := false, step := 0, members := 0, n := 4, nc := 1, d0 := 5, d1 := 6 }, by decide +kernel⟩,
   ⟨wL, 5, none, { job := 3, epoch := false, step := 0, members := 2, vcount := 4, map := 1 }, 0, wTwinJob, by decide +kernel⟩,
   ⟨{ job := 3, epoch := false, step := 0, members := 0, vcount := 4, map := 1 }, by decide +kernel⟩,
   ⟨wL, 5, none, {
     job := 3, epoch := false, step := 0, rank := 1, did := 4, kind := 1, shard := 6,
     value := 7 }, 0, 64, modJob wTwinJob 3 fun b => { b with
       ranks := [(1, some 64)], digh := { b.digh with dgJobProvCount := 7 } }, by decide +kernel⟩,
   ⟨{ job := 3, epoch := false, step := 0, rank := 1, did := 4, kind := 3, shard := 6, value := 7 }, by decide +kernel⟩,
   ⟨3, modJob wLeadJob 3 fun b => { b with seq := { b.seq with wait := some .hdigest } }, by decide +kernel⟩,
   ⟨3, modJob wJob 3 fun b => { b with seq := { b.seq with wait := some .hdigest } }, by decide +kernel⟩,
   ⟨{ job := 3, epoch := false, step := 0, members := 2, n := 4, nc := 1, d0 := 5, d1 := 6 }, wLeadJob, by decide +kernel⟩,
   ⟨3, {
     fold := { step := 9 }, expect := 0, groups := 0, events := [],
     suspect := 0 }, modJob wLeadJob 3 fun b => { b with
       closing := some { fold := { step := 9 }, expect := 0, groups := 0, events := [], suspect := 0 } }, by decide +kernel⟩⟩

theorem test_hyps_audit_and_replay_rings :
    (∃ (i : Iface) (data : Word) (s : State), Answers s i ∧ i.part = .hub ∧ s.hub.aud.audTail.toNat ≤ data.toNat ∧
      data.toNat ≤ s.hub.aud.audHead.toNat) ∧
    (∃ (i : Iface) (data : Word) (s : State), Answers s i ∧ i.part = .hub ∧ s.hub.aud.audCtrlEn = false ∧
      1 ≤ (getF data 0 8 : BitVec 8).toNat ∧ (getF data 0 8 : BitVec 8).toNat ≤ 16 ∧ getF data 0 8 ≠ s.hub.aud.audCfg) ∧
    (∃ (i : Iface) (s : State), Answers s i ∧ i.part = .hub) ∧
    (∃ (i : Iface) (s : State), Answers s i ∧ i.part = .hub ∧ s.hub.aud.audTail.toNat ≤ (s.iface i).regs.audRdIdx.toNat ∧
      (s.iface i).regs.audRdIdx.toNat < s.hub.aud.audHead.toNat) ∧
    (∃ (s : State), s.hub.aud.audCtrlExportEn = true ∧ s.hub.aud.audTail.toNat ≤ s.hub.aud.audExported.toNat ∧
      s.hub.aud.audExported.toNat < s.hub.aud.audHead.toNat) ∧
    (∃ (l : LinkId) (sender : BitVec 32) (dsn : Option (BitVec 32)) (m : VrecP) (st : BitVec 64) (la : Tick) (s : State),
      l.part = .hub ∧ s.valid .hub = true ∧ NewUp s sender dsn ∧ JobRuns s m.job m.epoch ∧
        extendStep m.step (s.job m.job).step = some st ∧ extendWire m.launch (s.now .hub) = some la ∧
          (s.tier ≠ 0 ∨ s.role l ≠ 1 ∨ m.rank.toNat < (s.job m.job).members.toNat) ∧ s.hub.deth.rlCfgEn = true ∧
            (s.hub.deth.rlHead - s.hub.deth.rlTail).toNat < rlCap s.hub.deth) ∧
    (∃ (l : LinkId) (sender : BitVec 32) (dsn : Option (BitVec 32)) (m : VrecP) (s : State), s.valid .hub = true ∧
      NewUp s sender dsn ∧ s.holds m.job = true ∧ s.tier = 0 ∧ s.role l = 1 ∧ (s.job m.job).members.toNat ≤ m.rank.toNat) ∧
    (∃ (i : Iface) (data : Word) (s : State), Answers s i ∧ i.part = .hub ∧ s.hub.deth.rlTail.toNat ≤ data.toNat ∧
      data.toNat ≤ s.hub.deth.rlHead.toNat) ∧
    (∃ (i : Iface) (s : State), Answers s i ∧ i.part = .hub ∧ s.hub.deth.rlTail.toNat ≤ (s.iface i).regs.rlRdIdx.toNat ∧
      (s.iface i).regs.rlRdIdx.toNat < s.hub.deth.rlHead.toNat) :=
  ⟨⟨.mgmt, 4, modHub s0 fun h => { h with aud := { h.aud with audHead := 4, audTail := 2 } }, by decide +kernel⟩,
   ⟨.mgmt, 16, modHub s0 fun h => { h with aud := { h.aud with audCtrlEn := false } }, by decide +kernel⟩,
   ⟨.mgmt, s0, by decide +kernel⟩,
   ⟨.mgmt, modHub s0 fun h => { h with audRing := [(0, 77)], aud := { h.aud with audHead := 4 } }, by decide +kernel⟩,
   ⟨modHub s0 fun h => { h with
     audRing := [(0, 77)], aud := { h.aud with audHead := 4, audCtrlExportEn := true } }, by decide +kernel⟩,
   ⟨wL, 5, none, {
     job := 3, epoch := false, rank := 1, step := 0, launch := 9, vidx := 2,
     value := 77 }, 0, 9, modTbRegs wJob .hub fun r => { r with statusValid := true }, by decide +kernel⟩,
   ⟨wL, 5, none, {
     job := 3, epoch := false, rank := 9, step := 0, launch := 9, vidx := 2,
     value := 77 }, modPage (modHub (modTbRegs wJob .hub fun r => { r with statusValid := true }) fun h => { h with
       id := { h.id with hubAddr := 0 } }) .hub 9 fun p => { p with role :=
         { p.role with portRole := 1 } }, by decide +kernel⟩,
   ⟨.mgmt, 4, modHub s0 fun h => { h with deth := { h.deth with rlHead := 4, rlTail := 2 } }, by decide +kernel⟩,
   ⟨.mgmt, modHub s0 fun h => { h with rlRing := [(0, 77)], deth := { h.deth with rlHead := 4 } }, by decide +kernel⟩⟩

theorem test_hyps_events_reported :
    (∃ (p : Part) (w : EvWindow) (rest : List EvWindow) (s : State), (s.sh p).windows = w :: rest ∧ w.count = 0) ∧
    (∃ (p : Part) (w : EvWindow) (rest : List EvWindow) (s : State), (s.sh p).windows = w :: rest ∧ w.count ≠ 0) ∧
    (∃ (l : LinkId) (sender : BitVec 32) (dsn : Option (BitVec 32)) (s : State), l.part = .hub ∧ NewUp s sender dsn) ∧
    (∃ (s : State), s.hub.evh.evCtrl = true ∧ s.hub.evh.evDestIpv4 ≠ 0 ∧ ringOldest s.hub.evh ≤ s.hub.evh.evExported.toNat ∧
      s.hub.evh.evExported.toNat ≤ s.hub.evh.evHead.toNat ∧ s.hub.evh.evHead.toNat ≤ s.hub.evh.evExported.toNat + 16) ∧
    (∃ (ip : BitVec 32) (port : BitVec 16) (data : List (BitVec 8)) (n first : Nat) (s : State),
      port = s.hub.evh.evDestListen ∧ ip = s.hub.evh.evDestIpv4 ∧ bytesAt data 0 2 = 0x4552 ∧ bytesAt data 16 2 = n ∧ 0 < n ∧
        n ≤ 16 ∧ bytesAt data 8 8 = first ∧ ringOldest s.hub.evh ≤ first ∧ first + n ≤ s.hub.evh.evHead.toNat) ∧
    (∃ (port : BitVec 16) (data : List (BitVec 8)) (s : State), port = s.hub.evh.evDestListen ∧ bytesAt data 16 2 = 0) ∧
    (∃ (i : Iface) (r : BitVec 512) (rest : List (BitVec 512)) (s : State), Answers s i ∧ i.part = .tsu ∧
      s.tsu.evq = r :: rest) ∧
    (∃ (i : Iface) (s : State), Answers s i ∧ i.part = .hub ∧
      s.hub.evh.evHead.toNat ≤ (s.iface i).regs.evRdIdx.toNat + ringSize ∧
        (s.iface i).regs.evRdIdx.toNat < s.hub.evh.evHead.toNat) ∧
    (∃ (e : HistEntry) (rest : List HistEntry) (s : State), s.hub.histQueue = e :: rest ∧ s.hub.history.length < historySize) :=
  ⟨⟨.hub, { ev := plainEv 0x0023 0 0 [], count := 0 }, [], modSh s0 .hub fun h => { h with
     windows := [{ ev := plainEv 0x0023 0 0 [], count := 0 }] }, by decide +kernel⟩,
   ⟨.tsu, { ev := plainEv 0x0023 0 0 [], count := 3 }, [], modSh s0 .tsu fun h => { h with
     windows := [{ ev := plainEv 0x0023 0 0 [], count := 3 }] }, by decide +kernel⟩,
   ⟨wL, 5, (some 0), s0, by decide +kernel⟩,
   ⟨modHub s0 fun h => { h with
     ring := [(0, 5), (1, 6)], evh := { h.evh with evCtrl := true, evDestIpv4 := 9, evHead := 2 },
     mgmt := { h.mgmt with mgIpv4Addr := 3 } }, by decide +kernel⟩,
   ⟨9, 0x4552, (natToBytes 2 0x4552 ++ List.replicate 14 0 ++ natToBytes 2 2), 2, 0, modHub s0 fun h => { h with
     ring := [(0, 5), (1, 6)], evh := { h.evh with evCtrl := true, evDestIpv4 := 9, evDestListen := 0x4552, evHead := 2 },
     mgmt := { h.mgmt with mgIpv4Addr := 3 } }, by decide +kernel⟩,
   ⟨0x4552, [], modHub s0 fun h => { h with evh := { h.evh with evDestListen := 0x4552 } }, by decide +kernel⟩,
   ⟨.linkA, 7, [], modTsu s0 fun h => { h with evq := [7] }, by decide +kernel⟩,
   ⟨.mgmt, modHub s0 fun h => { h with ring := [(0, 5), (1, 6)], evh := { h.evh with evHead := 2 } }, by decide +kernel⟩,
   ⟨{
     unit := 5, kind := 2, verdict := 0, opsec := 9, tai := 0,
     fwLow := 0 }, [], modHub s0 fun h => { h with
       histQueue := [{ unit := 5, kind := 2, verdict := 0, opsec := 9, tai := 0, fwLow := 0 }] }, by decide +kernel⟩⟩

theorem test_hyps_units_and_their_tests :
    (∃ (unit : BitVec 16) (pass : Bool) (s : State), pass = true ∧ (s.unit unit).unitState = 2 ∧
      s.hub.katPassed.contains unit = false) ∧
    (∃ (unit : BitVec 16) (pass : Bool) (s : State), pass = true ∧ (s.unit unit).unitState = 2 ∧
      s.hub.katPassed.contains unit = true ∧ s.hub.flt.rotStatusActive = false) ∧
    (∃ (unit : BitVec 16) (pass : Bool) (s : State), pass = false ∧ (s.unit unit).unitState = 2 ∧ unitClass unit = 4 ∧
      hasPrior s unit = true ∧ s.hub.flt.rotStatusActive = false) ∧
    (∃ (s : State), s.hub.flt.fltCtrlRotPeriodS ≠ 0) ∧
    (∃ (i : Iface) (data : Word) (s : State), Answers s i ∧ i.part = .hub ∧ (getF data 48 16 : BitVec 16) ≠ 0) ∧
    (∃ (unit : BitVec 16) (s : State), (s.unit unit).unitState = 3 ∧ (s.unit unit).unitStateShadowSteps = 64 ∧
      unitClass unit = 4 ∧ s.hub.flt.rotStatusActive = false) :=
  ⟨⟨5, true, modUnit s0 5 fun r => { r with unitState := 2 }, by decide +kernel⟩,
   ⟨5, true, modHub (modUnit s0 5 fun r => { r with unitState := 2 }) fun h => { h with katPassed := [5] }, by decide +kernel⟩,
   ⟨0x4001, false, modHub (modUnit s0 0x4001 fun r => { r with unitState := 2 }) fun h => { h with
     histQueue := [{ unit := 0x4001, kind := 0, verdict := 0, opsec := 0, tai := 0, fwLow := 0 }],
     flt := { h.flt with fltCtrlHistWindowH := 9 } }, by decide +kernel⟩,
   ⟨modHub s0 fun h => { h with flt := { h.flt with fltCtrlRotPeriodS := 7 } }, by decide +kernel⟩,
   ⟨.mgmt, 0x1000000000000, s0, by decide +kernel⟩,
   ⟨0x4001, modUnit s0 0x4001 fun r => { r with unitState := 3, unitStateShadowSteps := 64 }, by decide +kernel⟩⟩

theorem test_hyps_delivery_and_failures :
    (∃ (l : LinkId) (s : State), l.part = .tsu ∧ s.tsu.up.waiting = []) ∧
    (∃ (l : LinkId) (m : DackP) (s : State), l.part = .hub ∧ m.sender = (twinOf s.hub.id.hubAddr).setWidth 32) ∧
    (∃ (l : LinkId) (m : HeartbeatP), l.part = .hub ∧ m.origin.getLsbD 31 = true) ∧
    (∃ (l : LinkId) (m : HeartbeatP) (s : State), l.part = .hub ∧ m.origin.getLsbD 31 = false ∧ s.isTwin l = true ∧
      s.tier ≠ 0) ∧
    (∃ (l : LinkId) (a : Nat) (s : State), l.part = .hub ∧ s.tier = 0 ∧
      a = max (tget 0 s.hub.hbSeen (2 * l.key)).toNat (tget 0 s.hub.hbSeen (2 * l.key + 1)).toNat ∧ 0 < a ∧
        a + s.hub.flt.fltHb.toNat * 1000 ≤ s.hub.sh.tb.cycles.toNat ∧ s.hub.declared.contains (s.epOf l) = false) ∧
    (∃ (job : BitVec 12) (rank : BitVec 20) (ep : BitVec 24) (d : Arrivals) (s : State), s.rankEp job rank = some ep ∧
      tget {} (s.job job).detect rank.toNat = d ∧ d.step = (s.job job).step ∧ d.counted = false ∧ d.timeouts < 2 ∧
        (s.job job).flt.detCfgArrTimeoutUs ≠ 0 ∧ (s.job job).regs.jobStatusState = 2 ∧ s.serves ep = true ∧
          s.valid .hub = true ∧ (launchOf (s.job job) (s.job job).step).tick.toNat + (s.job job).flt.detCfgArrTimeoutUs.toNat
            * (d.timeouts + 1) * 1000 ≤ s.hub.sh.tb.tick.toNat) ∧
    (∃ (job : BitVec 12) (rank : BitVec 20) (ep : BitVec 24) (d : Arrivals) (s : State), s.rankEp job rank = some ep ∧
      tget {} (s.job job).detect rank.toNat = d ∧ d.step = (s.job job).step ∧ d.counted = false ∧ d.timeouts = 2 ∧
        (s.job job).flt.detCfgArrTimeoutUs ≠ 0 ∧ (s.job job).regs.jobStatusState = 2 ∧ s.serves ep = true ∧
          s.valid .hub = true ∧ (launchOf (s.job job) (s.job job).step).tick.toNat + (s.job job).flt.detCfgArrTimeoutUs.toNat
            * 3000 ≤ s.hub.sh.tb.tick.toNat ∧ s.hub.declared.contains (s.epOf (linkOfKey .hub (epSlot ep).toNat)) = false) :=
  ⟨⟨linkA, modTsu s0 fun h => { h with up := { h.up with unacked := [(5, .evrec ⟨7⟩), (6, .evrec ⟨8⟩)] } }, by decide +kernel⟩,
   ⟨wL, {
     sender := (twinOf 0xFFFF).setWidth 32,
     dsn := 5 }, modHub s0 fun h => { h with twinUp := [(5, .evrec ⟨7⟩), (6, .evrec ⟨8⟩)] }, by decide +kernel⟩,
   ⟨wL, { origin := 0x80000005, heard := 0 }, by decide +kernel⟩,
   ⟨wL, { origin := 5, heard := 6 }, modHub wTwinJob fun h => { h with id := { h.id with hubAddr := 0x8000 } },
     by decide +kernel⟩,
   ⟨wL, 5, modTb (modHub s0 fun h => { h with
     id := { h.id with hubAddr := 0 },
     hbSeen := [(2 * 38, 5)] }) .hub fun b => { b with cycles := 3000000 }, by decide +kernel⟩,
   ⟨3, 1, 9, { step := 0, counted := false, timeouts := 0 }, modTb (modJob (modHub (wServo .hub 2) fun h => { h with
     id := { h.id with hubAddr := 0 } }) 3 fun b => { b with
       ranks := [(1, some 9)], regs := { b.regs with jobStatusState := 2 },
       flt := { b.flt with detCfgArrTimeoutUs := 5 } }) .hub fun b => { b with tick := 9000 }, by decide +kernel⟩,
   ⟨3, 1, 9, { step := 0, counted := false, timeouts := 2 }, modTb (modJob (modHub (wServo .hub 2) fun h => { h with
     id := { h.id with hubAddr := 0 } }) 3 fun b => { b with
       detect := [(1, { step := 0, counted := false, timeouts := 2 })], ranks := [(1, some 9)],
       regs := { b.regs with jobStatusState := 2 },
       flt := { b.flt with detCfgArrTimeoutUs := 5 } }) .hub fun b => { b with tick := 90000 }, by decide +kernel⟩⟩

theorem test_hyps_composing_a_transaction :
    (∃ (i : Iface) (data : Word) (s : State), Answers s i ∧ i.part = .hub ∧ getB data 61 = false ∧ getB data 62 = false ∧
      getB data 63 = false) ∧
    (∃ (i : Iface) (data : Word) (n : Nat) (s : State), Answers s i ∧ i.part = .hub ∧ getB data 60 = false ∧
      getB data 61 = false ∧ getB data 63 = false ∧ n = (getF data 0 16 : BitVec 16).toNat + 1 ∧
        s.hub.body.length + n ≤ 16777216) ∧
    (∃ (i : Iface) (data : Word) (s : State), Answers s i ∧ i.part = .hub ∧ getB data 60 = false ∧ getB data 61 = false ∧
      getB data 62 = false ∧ bodyReserved s.hub.body = false ∧ bodyOk s.hub.body = false) ∧
    (∃ (i : Iface) (data : Word) (s : State), Answers s i ∧ i.part = .hub ∧ getB data 60 = false ∧ getB data 61 = false ∧
      getB data 62 = false ∧ bodyReserved s.hub.body = true) ∧
    (∃ (i : Iface) (data : Word) (h : TxnHdr) (s : State), Answers s i ∧ i.part = .hub ∧ getB data 60 = false ∧
      getB data 61 = false ∧ getB data 62 = false ∧ h = txnHdr s.hub.body ∧ bodyOk s.hub.body = true ∧
        coordinates s s.hub.body = true ∧ s.valid .hub = true ∧ ticksAhead s s.hub.body = true ∧
          tickTest h.commit (s.now .hub) = .inWindow ∧ s.hub.queue.length < 32) ∧
    (∃ (i : Iface) (data : Word) (tid : BitVec 16) (s : State), Answers s i ∧ i.part = .hub ∧ getB data 60 = false ∧
      getB data 62 = false ∧ getB data 63 = false ∧ tid = (s.iface i).regs.txnSel ∧ (s.txn tid).regs.txnStatusPhase = 1 ∧
        (s.hub.finished.drop 255).contains tid = false) ∧
    (∃ (tid : BitVec 16) (s : State), (s.txn tid).regs.txnStatusPhase = 1 ∧
      tget none s.hub.locks (s.txn tid).regs.txnStatusPartition.toNat = some tid) ∧
    (∃ (tid : BitVec 16) (part : BitVec 13) (s : State), (s.txn tid).regs.txnStatusPhase = 1 ∧
      part = (s.txn tid).regs.txnStatusPartition ∧ tget none s.hub.locks part.toNat = none ∧
        (s.hub.queue.find? (fun x => (s.txn x).regs.txnStatusPartition == part) = some tid) ∧
          (s.txn tid).voteBy.toNat < (s.now .hub).toNat + 10000 ∧ (s.hub.finished.drop 255).contains tid = false) :=
  ⟨⟨.mgmt, 7, modHub s0 fun h => { h with body := [1, 2] }, by decide +kernel⟩,
   ⟨.mgmt, 7, 8, modHub s0 fun h => { h with body := [1, 2], bar2 := [(0, 4), (7, 5)] }, by decide +kernel⟩,
   ⟨.mgmt, 7, modHub s0 fun h => { h with body := wBody.take 63 }, by decide +kernel⟩,
   ⟨.mgmt, 7, s0, by decide +kernel⟩,
   ⟨.mgmt, 7, txnHdr wBody, modHub (modTb wLeadJob .hub fun b => { b with
     tick := 9, regs := { b.regs with statusValid := true } }) fun h => { h with body := wBody }, by decide +kernel⟩,
   ⟨.mgmt, 7, 7, modIfaceRegs (wTxn 1 7) .mgmt fun r => { r with txnSel := 7 }, by decide +kernel⟩,
   ⟨7, wTxn 1 7, by decide +kernel⟩,
   ⟨7, 3, modHub (wTxn 1 7) fun h => { h with locks := [] }, by decide +kernel⟩⟩

theorem test_hyps_votes_and_reports :
    (∃ (m : VoteP), msgReserved (.vote m) = true) ∧
    (∃ (m : VoteP) (s : State), msgReserved (.vote m) = false ∧ m.coord = s.hub.id.hubAddr ∧
      (s.txn m.tid).regs.txnStatusPhase = 2 ∧ (s.txn m.tid).regs.txnStatusPartition = m.partition ∧ m.reason ≠ 0 ∧
        (s.hub.finished.drop 255).contains m.tid = false) ∧
    (∃ (m : VoteP) (s : State), msgReserved (.vote m) = false ∧ m.coord = s.hub.id.hubAddr ∧
      (s.txn m.tid).regs.txnStatusPhase = 2 ∧ (s.txn m.tid).regs.txnStatusPartition = m.partition ∧ m.reason = 0 ∧
        ((s.txn m.tid).regs.txnVotesYes + m.yes.setWidth 32).toNat < (s.txn m.tid).regs.txnVotesExpected.toNat) ∧
    (∃ (m : VoteP) (s : State), msgReserved (.vote m) = false ∧ m.coord = s.hub.id.hubAddr ∧
      (s.txn m.tid).regs.txnStatusPhase = 2 ∧ (s.txn m.tid).regs.txnStatusPartition = m.partition ∧ m.reason = 0 ∧
        (s.txn m.tid).regs.txnVotesExpected.toNat ≤ ((s.txn m.tid).regs.txnVotesYes + m.yes.setWidth 32).toNat) ∧
    (∃ (m : VoteP) (s : State), msgReserved (.vote m) = false ∧ m.coord = s.hub.id.hubAddr ∧
      ((s.txn m.tid).regs.txnStatusPhase ≠ 2 ∨ (s.txn m.tid).regs.txnStatusPartition ≠ m.partition)) ∧
    (∃ (m : VoteP) (s : State), msgReserved (.vote m) = false ∧ m.coord ≠ s.hub.id.hubAddr) ∧
    (∃ (tid : BitVec 16) (s : State), (s.txn tid).regs.txnStatusPhase = 2 ∧ (s.txn tid).voteBy.toNat < (s.now .hub).toNat ∧
      (s.hub.finished.drop 255).contains tid = false) ∧
    (∃ (tid : BitVec 16) (s : State), ((s.txn tid).regs.txnStatusPhase ≠ 2 ∨ (s.now .hub).toNat ≤ (s.txn tid).voteBy.toNat)) ∧
    (∃ (m : DoneP) (drained : Bool), (msgReserved (if drained then .drained {
      coord := m.coord, tid := m.tid, kind := m.kind, partition := m.partition } else .done m) = true)) ∧
    (∃ (m : DoneP) (drained : Bool) (s : State), (msgReserved (if drained then .drained {
      coord := m.coord, tid := m.tid, kind := m.kind,
      partition := m.partition } else .done m) = false) ∧ m.coord = s.hub.id.hubAddr ∧ (s.txn m.tid).regs.txnStatusPhase = 3 ∧ ((s.txn m.tid).regs.txnStatusKind == 7) = drained ∧ (s.txn m.tid).reports + 1 < (s.txn m.tid).hubs.length + (s.txn m.tid).eps.length) ∧
    (∃ (m : DoneP) (drained : Bool) (s : State), (msgReserved (if drained then .drained {
      coord := m.coord, tid := m.tid, kind := m.kind,
      partition := m.partition } else .done m) = false) ∧ m.coord = s.hub.id.hubAddr ∧ (s.txn m.tid).regs.txnStatusPhase = 3 ∧ ((s.txn m.tid).regs.txnStatusKind == 7) = drained ∧ (s.txn m.tid).hubs.length + (s.txn m.tid).eps.length ≤ (s.txn m.tid).reports + 1 ∧ (s.hub.finished.drop 255).contains m.tid = false) ∧
    (∃ (m : DoneP) (drained : Bool) (s : State), (msgReserved (if drained then .drained {
      coord := m.coord, tid := m.tid, kind := m.kind,
      partition := m.partition } else .done m) = false) ∧ m.coord = s.hub.id.hubAddr ∧ ((s.txn m.tid).regs.txnStatusPhase ≠ 3 ∨ ((s.txn m.tid).regs.txnStatusKind == 7) ≠ drained)) ∧
    (∃ (m : DoneP) (drained : Bool) (s : State), (msgReserved (if drained then .drained {
      coord := m.coord, tid := m.tid, kind := m.kind,
      partition := m.partition } else .done m) = false) ∧ m.coord ≠ s.hub.id.hubAddr) ∧
    (∃ (tid : BitVec 16) (s : State), (s.txn tid).regs.txnStatusPhase = 3 ∧
      (s.txn tid).regs.txnTick.toNat + 100000 < (s.now .hub).toNat ∧ (s.hub.finished.drop 255).contains tid = false) ∧
    (∃ (tid : BitVec 16) (s : State), ((s.txn tid).regs.txnStatusPhase ≠ 3 ∨
      (s.now .hub).toNat ≤ (s.txn tid).regs.txnTick.toNat + 100000)) :=
  ⟨⟨(wVote 11), by decide +kernel⟩,
   ⟨(wVote 3), wTxn 2 7, by decide +kernel⟩,
   ⟨(wVote 0), wTxn 2 7, by decide +kernel⟩,
   ⟨{ (wVote 0) with yes := 2 }, wTxn 2 7, by decide +kernel⟩,
   ⟨(wVote 0), wTxn 3 7, by decide +kernel⟩,
   ⟨{ (wVote 0) with coord := 5 }, wTxn 2 7, by decide +kernel⟩,
   ⟨7, wTxn 2 7, by decide +kernel⟩,
   ⟨7, wTxn 3 7, by decide +kernel⟩,
   ⟨{ coord := 0xFFFF, tid := 7, kind := 9, partition := 3 }, true, by decide +kernel⟩,
   ⟨{
     coord := 0xFFFF, tid := 7, kind := 7,
     partition := 3 }, true, modTxn (wTxn 3 7) 7 fun x => { x with hubs := [0xFFFF, 0x2000] }, by decide +kernel⟩,
   ⟨{
     coord := 0xFFFF, tid := 7, kind := 7,
     partition := 3 }, true, modTxn (wTxn 3 7) 7 fun x => { x with hubs := [0xFFFF] }, by decide +kernel⟩,
   ⟨{ coord := 0xFFFF, tid := 7, kind := 7, partition := 3 }, false, wTxn 3 7, by decide +kernel⟩,
   ⟨{ coord := 5, tid := 7, kind := 7, partition := 3 }, true, wTxn 3 7, by decide +kernel⟩,
   ⟨7, modTb (wTxn 3 7) .hub fun b => { b with tick := 200000 }, by decide +kernel⟩,
   ⟨7, wTxn 3 7, by decide +kernel⟩⟩

theorem test_hyps_transactions_at_a_target :
    (∃ (l : LinkId) (m : PrepareP) (cm vb : Tick) (g : Staged) (s : State), msgReserved (.prepare m) = false ∧
      l.part = .tsu ∧ s.valid .tsu = true ∧ extendWire m.commit (s.now .tsu) = some cm ∧
        extendWire m.voteBy (s.now .tsu) = some vb ∧ tickTest cm (s.now .tsu) = .inWindow ∧ g = {
          coord := m.coord, tid := m.tid, kind := m.kind, partition := m.partition, commit := cm, voteBy := vb,
          share := m.share,
          via := some l } ∧ s.stagedAt .tsu m.partition = none ∧ targetReason (taken s l (.prepare m)) .tsu g false = 0) ∧
    (∃ (m : PrepareP), msgReserved (.prepare m) = true) ∧
    (∃ (p : Part) (partition : BitVec 13) (g : Staged) (s : State), s.stagedAt p partition = some g ∧ g.deferred = true ∧
      g.voteBy.toNat < (s.now p).toNat) ∧
    (∃ (l : LinkId) (m : CommitP) (g : Staged) (s : State), msgReserved (.commit m) = false ∧ l.part = .tsu ∧
      s.stagedAt .tsu m.partition = some g ∧ g.coord = m.coord ∧ g.tid = m.tid ∧ g.committed = false ∧ g.deferred = false ∧
        g.kind ≠ 2 ∧ pastGuard s .tsu g = false) ∧
    (∃ (m : CommitP), msgReserved (.commit m) = true) ∧
    (∃ (l : LinkId) (m : AbortP) (g : Staged) (s : State), msgReserved (.abort m) = false ∧ l.part = .tsu ∧
      s.stagedAt .tsu m.partition = some g ∧ g.coord = m.coord ∧ g.tid = m.tid ∧ g.committed = false) ∧
    (∃ (m : AbortP), msgReserved (.abort m) = true) ∧
    (∃ (partition : BitVec 13) (g : Staged) (s : State), s.stagedAt .tsu partition = some g ∧ g.partition = partition ∧
      commitDue s .tsu g = true ∧ g.kind = 3 ∧ actsOf g.share = []) ∧
    (∃ (partition : BitVec 13) (g : Staged) (j : BitVec 12) (s : State), s.stagedAt .hub partition = some g ∧
      g.partition = partition ∧ partition = j.setWidth 13 ∧ commitDue s .hub g = true ∧ g.kind = 4 ∧ actsOf g.share = []) ∧
    (∃ (p : Part) (partition : BitVec 13) (g : Staged) (s : State), p = .tsu ∧ s.stagedAt .tsu partition = some g ∧
      g.partition = partition ∧ g.committed = false ∧ g.deferred = false ∧ s.valid .tsu = true ∧ pastGuard s .tsu g = true ∧
        g.kind ≠ 2) :=
  ⟨⟨linkA, {
     coord := 0x2000, tid := 7, kind := 7, partition := 3, commit := 90000, voteBy := 50000, len := 0, share := [],
     target := .endpoint 9 }, 90000, 50000, {
       coord := 0x2000, tid := 7, kind := 7, partition := 3, commit := 90000, voteBy := 50000, share := [],
       via := some linkA }, wDie 1 none, by decide +kernel⟩,
   ⟨{
     coord := 0x2000, tid := 7, kind := 9, partition := 3, commit := 90000, voteBy := 50000, len := 0, share := [],
     target := .endpoint 9 }, by decide +kernel⟩,
   ⟨.tsu, 3, { (wG .tsu 1) with deferred := true }, modTb (wDie 1 (some { (wG .tsu 1) with deferred := true })) .tsu fun b =>
     { b with tick := 77 }, by decide +kernel⟩,
   ⟨linkA, {
     coord := 0x2000, tid := 7, kind := 7,
     partition := 3 }, { (wG .tsu 7) with commit := 900000 }, wDie 1 (some { (wG .tsu 7) with commit :=
       900000 }), by decide +kernel⟩,
   ⟨{ coord := 0x2000, tid := 7, kind := 9, partition := 3 }, by decide +kernel⟩,
   ⟨linkA, { coord := 0x2000, tid := 7, kind := 7, partition := 3 }, wG .tsu 7, wDie 1 (some (wG .tsu 7)), by decide +kernel⟩,
   ⟨{ coord := 0x2000, tid := 7, kind := 9, partition := 3 }, by decide +kernel⟩,
   ⟨3, { (wG .tsu 3) with committed := true }, modTb (wDie 1 (some { (wG .tsu 3) with committed := true })) .tsu fun b =>
     { b with tick := 9, resolve := false }, by decide +kernel⟩,
   ⟨3, { (wG .hub 4) with committed := true }, 3, modHub (wActing .hub wLeadJob) fun h => { h with
     staged := [(3, some { (wG .hub 4) with committed := true })] }, by decide +kernel⟩,
   ⟨.tsu, 3, wG .tsu 3, wDie 1 (some (wG .tsu 3)), by decide +kernel⟩⟩

theorem test_hyps_pauses_drains_and_aborts :
    (∃ (job : BitVec 12) (x : Tick) (s : State), (s.job job).lastFlip = some x ∧ x.toNat + 50000 ≤ (s.now .hub).toNat) ∧
    (∃ (job : BitVec 12) (x : Tick) (s : State), s.tsu.txnt.ttJob = job ∧ s.tsu.lastFlip = some x ∧
      x.toNat + 50000 ≤ (s.now .tsu).toNat) ∧
    (∃ (l : LinkId) (m : PauseMarkP) (s : State), l.part = .tsu ∧ TsuRuns s m.job m.epoch ∧
      (extendStep m.step s.tsu.step.stepNow).isSome = true) ∧
    (∃ (l : LinkId) (m : PauseMarkP) (s : State), l.part = .tsu ∧ TsuRuns s m.job m.epoch ∧
      extendStep m.step s.tsu.step.stepNow = none) ∧
    (∃ (s : State), s.tsu.pauseMark = true ∧ quiescent s = true ∧
      (s.tsu.txnt.ttJobState ≠ 3 ∨ s.isLead s.tsu.txnt.ttJob = true)) ∧
    (∃ (s : State), s.tsu.pauseMark = true ∧ quiescent s = true ∧ s.tsu.txnt.ttJobState = 3 ∧
      s.isLead s.tsu.txnt.ttJob = false) ∧
    (∃ (l : LinkId) (m : PauseReplyP) (s : State), l.part = .hub ∧ s.isLead m.job = true ∧ (s.job m.job).marked = false ∧
      (s.job m.job).replied.contains m.rank = false) ∧
    (∃ (job : BitVec 12) (s : State), (s.job job).regs.jobStatusState = 6 ∧ s.stagedAt .hub (job.setWidth 13) = none) ∧
    (∃ (job : BitVec 12) (s : State), s.tsu.txnt.ttJob = job ∧ s.tsu.txnt.ttJobState = 6 ∧
      s.stagedAt .tsu (job.setWidth 13) = none) ∧
    (∃ (i : Iface) (data : Word) (j : BitVec 12) (s : State), Answers s i ∧ i.part = .hub ∧ j = getF data 0 12 ∧
      s.isLead j = true ∧ (s.job j).regs.jobStatusState = 2) ∧
    (∃ (l : LinkId) (m : JobAbortP) (s : State), msgReserved (.jobAbort m) = false ∧ l.part = .tsu ∧ s.tsuHasJob = true ∧
      s.tsu.txnt.ttJob = m.job ∧ s.tsu.txnt.ttJobState ≠ 5) ∧
    (∃ (m : JobAbortP), msgReserved (.jobAbort m) = true) ∧
    (∃ (l : LinkId) (m : DoneP) (member : Bool) (j : BitVec 12) (s : State), msgReserved (.done m) = false ∧ l.part = .hub ∧
      member = true ∧ j = m.partition.setWidth 12 ∧ s.isLead j = true ∧ (s.job j).regs.jobStatusState = 5 ∧
        (s.job j).regs.jobStatusAbortPending ≠ 0) ∧
    (∃ (l : LinkId) (m : ReportP) (s : State), l.part = .hub ∧ m.kind = 0 ∧
      (extendStep m.step (s.job m.job).step).isSome = true ∧ s.isLead m.job = true ∧ (s.job m.job).regs.jobStatusState = 2) ∧
    (∃ (m : ReportP), m.kind = 3) ∧
    (∃ (j : BitVec 12) (s : State), ((((List.range 288).map (linkOfKey .hub)).filter fun l => s.role l == 3).any (heardLately
      s) = false) ∧ s.hub.flt.hubRole ≠ 1 ∧ (s.hub.jobs.any (fun e => e.1 == j.toNat) = true) ∧ s.isHome j = true ∧
        (s.job j).leads = false) ∧
    (∃ (l : LinkId) (m : MirrorP) (x : Barrier) (s : State), s.isTwin l = true ∧ l.part = .hub ∧ m.item = 0 ∧
      s.barrier m.job (m.key.setWidth 16) = some x) ∧
    (∃ (l : LinkId) (m : MirrorP) (gen : BitVec 16) (s : State), s.isTwin l = true ∧ l.part = .hub ∧ m.item = 10 ∧
      gen = BitVec.ofNat 16 (bytesAt m.value 0 2) ∧ laterThan gen (s.job m.job).flt.leadStatLeadGen = true ∧
        (s.job m.job).leads = true) :=
  ⟨⟨3, 9, modTb (modJob wJob 3 fun b => { b with lastFlip := some 9 }) .hub fun b => { b with tick := 60000 },
     by decide +kernel⟩,
   ⟨3, 9, modTb (modTsu (wDie 2 none) fun h => { h with lastFlip := some 9 }) .tsu fun b => { b with tick := 60000 },
     by decide +kernel⟩,
   ⟨linkA, { job := 3, epoch := false, step := 9 }, wDie 3 none, by decide +kernel⟩,
   ⟨linkA, { job := 3, epoch := false, step := 0x800000 }, wDie 3 none, by decide +kernel⟩,
   ⟨modTsu (wDie 2 none) fun h => { h with pauseMark := true }, by decide +kernel⟩,
   ⟨modTsu (wDie 3 none) fun h => { h with pauseMark := true }, by decide +kernel⟩,
   ⟨wL, { job := 3, epoch := false, rank := 4 }, wLeadJob, by decide +kernel⟩,
   ⟨3, modJob wLeadJob 3 fun b => { b with
     regs := { b.regs with jobStatusState := 6, jobStatusLastTid := 5 } }, by decide +kernel⟩,
   ⟨3, wDie 6 none, by decide +kernel⟩,
   ⟨.mgmt, 3, 3, wLeadJob, by decide +kernel⟩,
   ⟨linkA, { job := 3, epoch := false, cause := 0 }, modTsu (wDie 2 none) fun h => { h with
     launch := some { tick := 5, step := 9 } }, by decide +kernel⟩,
   ⟨{ job := 3, epoch := false, cause := 7 }, by decide +kernel⟩,
   ⟨wL, {
     coord := 0xFFFF, tid := 0xFFFF, kind := 0,
     partition := 3 }, true, 3, modJob wLeadJob 3 fun b => { b with
       regs := { b.regs with jobStatusState := 5, jobStatusAbortPending := 1 } }, by decide +kernel⟩,
   ⟨wL, { job := 3, epoch := false, step := 0, kind := 0, detail := 1 }, wLeadJob, by decide +kernel⟩,
   ⟨{ job := 3, epoch := false, step := 0, kind := 3, detail := 1 }, by decide +kernel⟩,
   ⟨3, modJob wLeadJob 3 fun b => { b with leads := false }, by decide +kernel⟩,
   ⟨wL, {
     job := 3, item := 0, len := 11, key := 9,
     value := natToBytes 4 5 ++ natToBytes 8 6 }, {
       regs := { shCfgPart := 8, shGen := 4, shCount := 2 } }, modPage wLeadJob .hub 9 fun p => { p with
         role := { p.role with portRole := 3 } }, by decide +kernel⟩,
   ⟨wL, {
     job := 3, item := 10, len := 1, key := 0,
     value := natToBytes 2 4 }, 4, modPage wLeadJob .hub 9 fun p => { p with role :=
       { p.role with portRole := 3 } }, by decide +kernel⟩⟩

theorem test_hyps_link_delivery :
    (∃ (p : Part) (port : BitVec 7) (lane : BitVec 3) (bad : Bool) (slots : List (BitVec 512)) (s : State), bad = false ∧
      slots = [] ∧ (logicalOf s p port lane).isSome = true) ∧
    (∃ (p : Part) (port : BitVec 7) (lane : BitVec 3) (bad : Bool) (s : State), bad = true ∧
      (logicalOf s p port lane).isSome = true) ∧
    (∃ (p : Part) (port : BitVec 7) (lane : BitVec 3) (bad : Bool) (slots : List (BitVec 512)) (u : BitVec 16) (s : State),
      (logicalOf s p port lane).isSome = false ∧ p = .hub ∧ u = laneUnit port lane ∧ (s.unit u).unitState = 3 ∧
        (bad = true ∨ tget [] (s.page p port).words (unitIndex (s.unit u).unitStateStandin % 5) ≠ slots)) ∧
    (∃ (l : LinkId) (s : State), (s.link l).hold = []) ∧
    (∃ (l : LinkId) (m : LnakP) (s : State), (s.link l).hold = [] ∧
      ((s.link l).replay.any (fun e => seqBefore e m.lseq) = true)) ∧
    (∃ (l : LinkId) (m : LnakP) (s : State), (s.link l).hold = [] ∧
      ((s.link l).replay.any (fun e => seqBefore e m.lseq) = false) ∧ (s.link l).nakSeq = m.lseq ∧ (s.link l).nakRun < 7) ∧
    (∃ (l : LinkId) (m : LnakP) (s : State), (Page.link l.port).ordinal l.part ≠ none ∧ (s.link l).hold = [] ∧
      ((s.link l).replay.any (fun e => seqBefore e m.lseq) = false) ∧ (s.link l).nakSeq = m.lseq ∧ (s.link l).nakRun = 7 ∧
        (s.link l).active = true) ∧
    (∃ (l : LinkId) (s : State), (Page.link l.port).ordinal l.part ≠ none ∧ (s.link l).replay ≠ [] ∧ (s.link l).active = true) ∧
    (∃ (l : LinkId) (s : State), (Page.link l.port).ordinal l.part ≠ none ∧ (s.link l).active = true) ∧
    (∃ (l : LinkId) (m : CreditP) (s : State), (s.link l).hold = [] ∧ m.full = true) ∧
    (∃ (l : LinkId) (m : CreditP) (s : State), (s.link l).hold = [] ∧ m.full = false) ∧
    (∃ (p : Part) (s : State), s.partReady p = false) ∧
    (∃ (m : NotReadyP), m.cause.toNat < 2) :=
  ⟨⟨.hub, 9, 2, false, [], s0, by decide +kernel⟩,
   ⟨.hub, 9, 2, true, s0, by decide +kernel⟩,
   ⟨.hub, 9, 4, false, [1], laneUnit 9 4, modUnit s0 (laneUnit 9 4) fun r => { r with unitState := 3 }, by decide +kernel⟩,
   ⟨wL, modLink (wActive wL) wL fun k => { k with
     replay := [(0, none, .evrec ⟨7⟩), (5, none, .evrec ⟨8⟩)] }, by decide +kernel⟩,
   ⟨wL, ⟨5⟩, modLink (wActive wL) wL fun k => { k with
     replay := [(0, none, .evrec ⟨7⟩), (5, none, .evrec ⟨8⟩)] }, by decide +kernel⟩,
   ⟨wL, ⟨5⟩, modLink (wActive wL) wL fun k => { k with
     replay := [(5, none, .evrec ⟨8⟩)], nakSeq := 5, nakRun := 2 }, by decide +kernel⟩,
   ⟨wL, ⟨5⟩, modLink (wActive wL) wL fun k => { k with
     replay := [(5, none, .evrec ⟨8⟩)], nakSeq := 5, nakRun := 7 }, by decide +kernel⟩,
   ⟨wL, modLink (wActive wL) wL fun k => { k with replay := [(0, none, .evrec ⟨7⟩)] }, by decide +kernel⟩,
   ⟨linkB, wActive linkB, by decide +kernel⟩,
   ⟨wL, ⟨credField [1, 2, 3, 4, 5, 6], true⟩, wActive wL, by decide +kernel⟩,
   ⟨wL, ⟨credField [1, 2, 3, 4, 5, 6], false⟩, wActive wL, by decide +kernel⟩,
   ⟨.hub, wActive wL, by decide +kernel⟩,
   ⟨⟨1⟩, by decide +kernel⟩⟩

theorem test_hyps_spare_lane_remap :
    (∃ (p : Part) (port : BitVec 7) (lane : BitVec 3) (s : State),
      ((s.link (linkOfLane s p port lane)).regs.lkCtrlSerLimit = 0 ∨ logicalOf s p port lane = none ∨
        (s.link (linkOfLane s p port lane)).active = false ∨ (s.page p port).remap ≠ none)) ∧
    (∃ (p : Part) (port : BitVec 7) (lane : BitVec 3) (i : Nat) (s : State),
      (s.link (linkOfLane s p port lane)).regs.lkCtrlSerLimit ≠ 0 ∧ (s.link (linkOfLane s p port lane)).active = true ∧
        logicalOf s p port lane = some i ∧ (s.page p port).remap = none ∧ (s.page p port).spare ≠ noLane) ∧
    (∃ (p : Part) (port : BitVec 7) (lane : BitVec 3) (i : Nat) (s : State),
      (s.link (linkOfLane s p port lane)).regs.lkCtrlSerLimit ≠ 0 ∧ (s.link (linkOfLane s p port lane)).active = true ∧
        logicalOf s p port lane = some i ∧ (s.page p port).remap = none ∧ (s.page p port).spare = noLane ∧
          (Page.link port).ordinal p ≠ none) ∧
    (∃ (i : Iface) (port : BitVec 7) (data : Word) (s : State), Answers s i ∧ (Page.link port).ordinal i.part ≠ none ∧
      (getF data 2 3 : BitVec 3).toNat < 4 ∧ getB data 0 = false) ∧
    (∃ (i : Iface) (port : BitVec 7) (data : Word) (s : State), Answers s i ∧ (Page.link port).ordinal i.part ≠ none ∧
      (getF data 2 3 : BitVec 3).toNat < 4 ∧ getB data 0 = true) ∧
    (∃ (i : Iface) (port : BitVec 7) (data : Word) (s : State), Answers s i ∧ (Page.link port).ordinal i.part ≠ none ∧
      4 ≤ (getF data 2 3 : BitVec 3).toNat) ∧
    (∃ (l : LinkId) (s : State), (s.page l.part l.port).remap = none ∧ (s.page l.part l.port).spare ≠ noLane) ∧
    (∃ (l : LinkId) (s : State), (s.page l.part l.port).remap = none ∧ (s.page l.part l.port).spare = noLane) ∧
    (∃ (l : LinkId) (r : Remap) (s : State), (s.page l.part l.port).remap = some r ∧
      (r.initiator = false ∨ r.accepted = true)) ∧
    (∃ (l : LinkId) (r : Remap) (s : State), (s.page l.part l.port).remap = some r ∧ r.initiator = true ∧
      r.accepted = false ∧ l.part = .hub ∧ ((s.link l).peerTsu = true ∨ s.hub.id.hubAddr.toNat < (s.seen l).toNat)) ∧
    (∃ (l : LinkId) (r : Remap) (s : State), (s.page l.part l.port).remap = some r ∧ r.initiator = true ∧
      r.accepted = false ∧ (l.part = .tsu ∨ ((s.link l).peerTsu = false ∧ (s.seen l).toNat ≤ s.hub.id.hubAddr.toNat)) ∧
        (s.link l).active = true) ∧
    (∃ (l : LinkId) (m : RemapAckP) (r : Remap) (s : State), (s.page l.part l.port).remap = some r ∧ r.initiator = true ∧
      r.id = m.id ∧ m.result = 0 ∧ r.clean = false) ∧
    (∃ (l : LinkId) (m : RemapAckP) (r : Remap) (s : State), (s.page l.part l.port).remap = some r ∧ r.initiator = true ∧
      r.id = m.id ∧ m.result = 0 ∧ r.clean = true ∧ r.ack = true ∧ r.sent = false) ∧
    (∃ (l : LinkId) (m : RemapAckP) (r : Remap) (s : State), (s.page l.part l.port).remap = some r ∧ r.initiator = true ∧
      r.id = m.id ∧ m.result = 1 ∧ r.cal = false) ∧
    (∃ (l : LinkId) (m : RemapAckP) (r : Remap) (s : State), (s.page l.part l.port).remap = some r ∧ r.initiator = true ∧
      r.id = m.id ∧ m.result = 1 ∧ r.cal = true) ∧
    (∃ (m : RemapAckP), m.result = 2) ∧
    (∃ (l : LinkId) (m : RemapAckP) (s : State), (s.page l.part l.port).remap = none ∧ m.result ≠ 3) ∧
    (∃ (l : LinkId) (m : RemapAckP) (r : Remap) (s : State), (s.page l.part l.port).remap = some r ∧
      (r.initiator = false ∨ r.id ≠ m.id) ∧ m.result ≠ 3) ∧
    (∃ (m : RemapAckP), m.result = 3) ∧
    (∃ (l : LinkId) (m : RemapAtP) (r : Remap) (s : State), (s.page l.part l.port).remap = some r ∧ r.initiator = false ∧
      r.id = m.id) ∧
    (∃ (l : LinkId) (m : RemapAtP) (s : State), (∀ r, (s.page l.part l.port).remap = some r →
      r.initiator = true ∨ r.id ≠ m.id)) ∧
    (∃ (p : Part) (port : BitVec 7) (s : State), (s.page p port).spwReq = false) ∧
    (∃ (p : Part) (port : BitVec 7) (r : Remap) (s : State), (s.page p port).remap = some r ∧ (s.page p port).spwReq = true ∧
      (r.clean = false ∨ r.sent = true ∨ (r.initiator = true ∧ r.accepted = false))) ∧
    (∃ (p : Part) (port : BitVec 7) (r : Remap) (s : State), (s.page p port).remap = some r ∧ (s.page p port).spwReq = true ∧
      r.clean = true ∧ r.sent = false ∧ r.initiator = false) ∧
    (∃ (p : Part) (port : BitVec 7) (r : Remap) (q : BitVec 14) (s : State), (s.page p port).remap = some r ∧
      (s.page p port).spwReq = true ∧ r.clean = true ∧ r.sent = false ∧ r.initiator = true ∧ r.accepted = true ∧
        (s.link (remapLink s p port)).cwc = q) ∧
    (∃ (p : Part) (port : BitVec 7) (r : Remap) (s : State), (s.page p port).remap = some r ∧ r.initiator = true ∧
      r.accepted = true ∧ r.sent = false ∧ (r.ack = true ∨ (s.link (remapLink s p port)).regs.lkCtrlSpwEn = false)) ∧
    (∃ (p : Part) (port : BitVec 7) (r : Remap) (s : State), (s.page p port).remap = some r ∧ r.initiator = false ∧
      r.sent = false ∧ (r.ack = true ∨ (s.link (remapLink s p port)).regs.lkCtrlSpwEn = false)) ∧
    (∃ (p : Part) (port : BitVec 7) (r : Remap) (s : State), (s.page p port).remap = some r ∧
      (r.sent = true ∨ (r.initiator = true ∧ r.accepted = false) ∨ (r.ack = false ∧
        (s.link (remapLink s p port)).regs.lkCtrlSpwEn = true))) ∧
    (∃ (p : Part) (port : BitVec 7) (cwc : BitVec 14) (r : Remap) (s : State), (Page.link port).ordinal p ≠ none ∧
      (s.page p port).remap = some r ∧ r.at_ = some cwc) ∧
    (∃ (p : Part) (port : BitVec 7) (cwc : BitVec 14) (s : State), (∀ r, (s.page p port).remap = some r → r.at_ ≠ some cwc)) ∧
    (∃ (p : Part) (port : BitVec 7) (r : Remap) (s : State), (s.page p port).remap = some r ∧ r.initiator = true ∧
      r.ack = false ∧ r.cal = false ∧ (s.page p port).spwReq = true) ∧
    (∃ (p : Part) (port : BitVec 7) (r : Remap) (s : State), (s.page p port).remap = some r ∧
      ((r.initiator = false ∨ r.cal = true) ∧ r.ack = false) ∧ (s.page p port).spwReq = true) ∧
    (∃ (p : Part) (port : BitVec 7) (s : State), ((s.page p port).spwReq = false ∨ ∀ r, (s.page p port).remap = some r →
      r.ack = true)) :=
  ⟨⟨.hub, 9, 2, s0, by decide +kernel⟩,
   ⟨.hub, 9, 2, 2, modPage (modLink (wActive ⟨.hub, 9, 0⟩) ⟨.hub, 9, 0⟩ fun k => { k with
     regs := { k.regs with
       lkCtrlSerLimit := 5,
       lkCtrlSpwEn := true } }) .hub 9 fun g => { g with lanes := [0, 1, 2, 3], spare := 4 }, by decide +kernel⟩,
   ⟨.hub, 9, 2, 2, modPage (modLink (wActive ⟨.hub, 9, 0⟩) ⟨.hub, 9, 0⟩ fun k => { k with
     regs := { k.regs with
       lkCtrlSerLimit := 5,
       lkCtrlSpwEn := true } }) .hub 9 fun g => { g with lanes := [0, 1, 2, 3], spare := 7 }, by decide +kernel⟩,
   ⟨.mgmt, 9, 8, s0, by decide +kernel⟩,
   ⟨.mgmt, 9, 9, s0, by decide +kernel⟩,
   ⟨.mgmt, 9, 16, s0, by decide +kernel⟩,
   ⟨wL, modPage s0 .hub 9 fun g => { g with lanes := [0, 1, 2, 3], spare := 4 }, by decide +kernel⟩,
   ⟨wL, modPage s0 .hub 9 fun g => { g with spare := 7 }, by decide +kernel⟩,
   ⟨wL, {
     id := 4, llane := 1, victim := 1,
     initiator := false }, modPage s0 .hub 9 fun g => { g with
       remap := some { id := 4, llane := 1, victim := 1, initiator := false } }, by decide +kernel⟩,
   ⟨wL, {
     id := 4, llane := 1, victim := 1,
     initiator := true }, modPage (modLink s0 wL fun k => { k with peerTsu := true }) .hub 9 fun g => { g with
       remap := some { id := 4, llane := 1, victim := 1, initiator := true } }, by decide +kernel⟩,
   ⟨linkA, {
     id := 4, llane := 1, victim := 1,
     initiator := true }, modPage (wActive linkA) .tsu 0 fun g => { g with
       remap := some { id := 4, llane := 1, victim := 1, initiator := true } }, by decide +kernel⟩,
   ⟨wL, ⟨5, 0⟩, {
     id := 5, llane := 1, victim := 1,
     initiator := true }, modPage s0 .hub 9 fun g => { g with
       remap := some { id := 5, llane := 1, victim := 1, initiator := true } }, by decide +kernel⟩,
   ⟨wL, ⟨5, 0⟩, {
     id := 5, llane := 1, victim := 1, initiator := true, clean := true,
     ack := true }, modPage s0 .hub 9 fun g => { g with
       remap := some { id := 5, llane := 1, victim := 1, initiator := true, clean := true, ack := true } }, by decide +kernel⟩,
   ⟨wL, ⟨5, 1⟩, {
     id := 5, llane := 1, victim := 1,
     initiator := true }, modPage s0 .hub 9 fun g => { g with
       remap := some { id := 5, llane := 1, victim := 1, initiator := true } }, by decide +kernel⟩,
   ⟨wL, ⟨5, 1⟩, {
     id := 5, llane := 1, victim := 1, initiator := true,
     cal := true }, modPage s0 .hub 9 fun g => { g with
       remap := some { id := 5, llane := 1, victim := 1, initiator := true, cal := true } }, by decide +kernel⟩,
   ⟨⟨5, 2⟩, by decide +kernel⟩,
   ⟨wL, ⟨5, 0⟩, s0, by decide +kernel⟩,
   ⟨wL, ⟨5, 0⟩, {
     id := 5, llane := 1, victim := 1,
     initiator := false }, modPage s0 .hub 9 fun g => { g with
       remap := some { id := 5, llane := 1, victim := 1, initiator := false } }, by decide +kernel⟩,
   ⟨⟨5, 3⟩, by decide +kernel⟩,
   ⟨wL, ⟨5, 77⟩, {
     id := 5, llane := 1, victim := 1,
     initiator := false }, modPage s0 .hub 9 fun g => { g with
       remap := some { id := 5, llane := 1, victim := 1, initiator := false } }, by decide +kernel⟩,
   ⟨wL, ⟨5, 77⟩, modPage s0 .hub 9 fun g => { g with
     remap := some { id := 6, llane := 1, victim := 1, initiator := false } }, by decide +kernel⟩,
   ⟨.hub, 9, s0, by decide +kernel⟩,
   ⟨.hub, 9, {
     id := 5, llane := 1, victim := 1,
     initiator := false }, modPage s0 .hub 9 fun g => { g with
       spwReq := true, remap := some { id := 5, llane := 1, victim := 1, initiator := false } }, by decide +kernel⟩,
   ⟨.hub, 9, {
     id := 5, llane := 1, victim := 1, initiator := false,
     clean := true }, modPage s0 .hub 9 fun g => { g with
       spwReq := true,
       remap := some { id := 5, llane := 1, victim := 1, initiator := false, clean := true } }, by decide +kernel⟩,
   ⟨.hub, 9, {
     id := 5, llane := 1, victim := 1, initiator := true, clean := true,
     accepted := true }, 0, modPage s0 .hub 9 fun g => { g with
       spwReq := true,
       remap := some {
         id := 5, llane := 1, victim := 1, initiator := true, clean := true, accepted := true } }, by decide +kernel⟩,
   ⟨.hub, 9, {
     id := 5, llane := 1, victim := 1, initiator := true, accepted := true,
     ack := true }, modPage s0 .hub 9 fun g => { g with
       remap := some {
         id := 5, llane := 1, victim := 1, initiator := true, accepted := true, ack := true } }, by decide +kernel⟩,
   ⟨.hub, 9, {
     id := 5, llane := 1, victim := 1, initiator := false,
     ack := true }, modPage s0 .hub 9 fun g => { g with
       remap := some { id := 5, llane := 1, victim := 1, initiator := false, ack := true } }, by decide +kernel⟩,
   ⟨.hub, 9, {
     id := 5, llane := 1, victim := 1,
     initiator := true }, modPage s0 .hub 9 fun g => { g with
       remap := some { id := 5, llane := 1, victim := 1, initiator := true } }, by decide +kernel⟩,
   ⟨.hub, 9, 100, {
     id := 5, llane := 1, victim := 1, initiator := true,
     at_ := some 100 }, modPage s0 .hub 9 fun g => { g with
       spare := 4,
       remap := some { id := 5, llane := 1, victim := 1, initiator := true, at_ := some 100 } }, by decide +kernel⟩,
   ⟨.hub, 9, 100, modPage s0 .hub 9 fun g => { g with
     spare := 4, remap := some { id := 5, llane := 1, victim := 1, initiator := true, at_ := some 101 } }, by decide +kernel⟩,
   ⟨.hub, 9, {
     id := 5, llane := 1, victim := 1,
     initiator := true }, modPage s0 .hub 9 fun g => { g with
       spwReq := true, remap := some { id := 5, llane := 1, victim := 1, initiator := true } }, by decide +kernel⟩,
   ⟨.hub, 9, {
     id := 5, llane := 1, victim := 1,
     initiator := false }, modPage s0 .hub 9 fun g => { g with
       spwReq := true, remap := some { id := 5, llane := 1, victim := 1, initiator := false } }, by decide +kernel⟩,
   ⟨.hub, 9, s0, by decide +kernel⟩⟩

theorem test_hyps_link_training :
    (∃ (signal : BitVec 72) (port : BitVec 7) (s : State), s.hub.mod_.modStatusBootDone = true ∧ s.hub.id.hubAddr ≠ 0xFFFF ∧
      s.hub.admitQ = [port] ∧ signal.getLsbD port.toNat = true ∧ portWaits s port = true ∧ s.hub.mod_.modStatusPhase ≠ 2) ∧
    (∃ (l : LinkId) (s : State), l.part = .tsu ∧ s.tsu.inReset = false ∧ s.tsu.sh.vern.regs.vernReady.getLsbD 0 = true ∧
      ((s.link l).regs.lkState = 1 ∨ (s.link l).regs.lkState = 7)) ∧
    (∃ (l : LinkId) (s : State), (s.link l).regs.lkState = 2 ∧ (s.page l.part l.port).role.portRoleSplit = false) ∧
    (∃ (l : LinkId) (s : State), (s.link l).regs.lkState = 2) ∧
    (∃ (l : LinkId) (s : State), (s.link l).regs.lkState = 3) ∧
    (∃ (l : LinkId) (m : HelloP) (x : BitVec 8) (s : State), (Page.link l.port).ordinal l.part ≠ none ∧ l.part = .tsu ∧
      (s.link l).regs.lkState = 5 ∧ negotiated s l m = some x ∧ rolesFit s l m = true ∧ s.tsu.epA = none ∧ s.tsu.epB = none ∧
        s.tsu.epReport = false ∧ s.tsu.root.endpointEpConflict = false) ∧
    (∃ (l : LinkId) (m : HelloP) (x : BitVec 8) (s : State), (Page.link l.port).ordinal l.part ≠ none ∧ l.part = .hub ∧
      (s.link l).regs.lkState = 5 ∧ negotiated s l m = some x ∧ rolesFit s l m = true ∧
        ((s.page .hub l.port).role.portRoleExpectHub = 0xFFFF ∨ m.addr = (s.page .hub l.port).role.portRoleExpectHub)) ∧
    (∃ (l : LinkId) (m : HelloP) (x : BitVec 8) (a : BitVec 24) (s : State), l = linkB ∧ (s.link l).regs.lkState = 5 ∧
      negotiated s l m = some x ∧ rolesFit s l m = true ∧ s.tsu.epA = some a ∧ a ≠ m.ep &&& 0xFFFFC0 ∧
        (s.link linkA).active = false) ∧
    (∃ (l : LinkId) (m : HelloP) (x : BitVec 8) (s : State), l.part = .hub ∧ (s.link l).regs.lkState = 5 ∧
      negotiated s l m = some x ∧ rolesFit s l m = true ∧ (s.page .hub l.port).role.portRoleExpectHub ≠ 0xFFFF ∧
        m.addr ≠ (s.page .hub l.port).role.portRoleExpectHub) ∧
    (∃ (i : Iface) (port : BitVec 7) (data : Word) (s : State), Answers s i ∧ (Page.link port).ordinal i.part ≠ none ∧
      (getF data 2 3 : BitVec 3).toNat < 4 ∧ getB data 1 = false) ∧
    (∃ (i : Iface) (port : BitVec 7) (data : Word) (s : State), Answers s i ∧ i.part = .hub ∧
      (Page.link port).ordinal .hub ≠ none ∧ (getF data 0 3 : BitVec 3).toNat < 5 ∧ (s.page .hub port).role.portRole = 0 ∧
        (s.page .hub port).role.write 0x040 data ≠ (s.page .hub port).role) ∧
    (∃ (l : LinkId) (m : RegRdP) (g : Page) (off : Nat) (s : State), locate (linkIface l) m.offset = .reg g off ∧
      shut s (linkIface l) (.reg g off) = false ∧ off = 0x038 ∧ unpowered s (linkIface l) = false) ∧
    (∃ (l : LinkId) (s : State), unpowered s (linkIface l) = false ∧ (s.link l).regs.lkCtrlRemoteWr = false) ∧
    (∃ (l : LinkId) (s : State), unpowered s (linkIface l) = false ∧ (s.link l).regs.lkCtrlRemoteWr = true) ∧
    (∃ (l : LinkId) (m : RegRspP) (s : State), (Page.link l.port).ordinal l.part ≠ none ∧
      (s.link l).regs.lkRegStatusBusy = true ∧ m.tag = (s.link l).regTag - 1 ∧ (s.link l).regs.lkRegCtrlWrite = false) ∧
    (∃ (i : Iface) (port : BitVec 7) (s : State), Answers s i ∧ (Page.link port).ordinal i.part ≠ none ∧
      (s.link (s.ptLink i port)).regs.lkRegStatusBusy = false) ∧
    (∃ (l : LinkId) (sender : BitVec 32) (dsn : Option (BitVec 32)) (m : SignalP) (r : BitVec 20) (e : BitVec 24) (s :
      State), l.part = .hub ∧ NewUp s sender dsn ∧ m.dest = .rank r ∧ JobRuns s m.job m.epoch ∧
        s.isFenced m.job (s.epOf l) = false ∧ r.toNat < (s.job m.job).members.toNat ∧ s.rankEp m.job r = some e ∧
          s.isFenced m.job e = false) ∧
    (∃ (l : LinkId) (sender : BitVec 32) (dsn : Option (BitVec 32)) (m : SignalP) (r : BitVec 20) (s : State),
      l.part = .hub ∧ NewUp s sender dsn ∧ m.dest = .rank r ∧ JobRuns s m.job m.epoch ∧ s.isFenced m.job (s.epOf l) = false ∧
        (s.job m.job).members.toNat ≤ r.toNat) :=
  ⟨⟨0xFFFFFFFFFFFFFFFFFF, 9, modLink (modPage (modHub s0 fun h => { h with
     id := { h.id with hubAddr := 5 }, admitQ := [9],
     mod_ := { h.mod_ with modStatusBootDone := true } }) .hub 9 fun g => { g with role :=
       { g.role with portRole := 2 } }) ⟨.hub, 9, 0⟩ fun k => { k with regs :=
         { k.regs with lkState := 1 } }, by decide +kernel⟩,
   ⟨linkA, modTsu s0 fun h => { h with
     inReset := false,
     sh := { h.sh with vern := { h.sh.vern with regs := { h.sh.vern.regs with vernReady := 1 } } } }, by decide +kernel⟩,
   ⟨⟨.hub, 9, 0⟩, modLink s0 ⟨.hub, 9, 0⟩ fun k => { k with regs := { k.regs with lkState := 2 } }, by decide +kernel⟩,
   ⟨linkA, modLink s0 linkA fun k => { k with regs := { k.regs with lkState := 2 } }, by decide +kernel⟩,
   ⟨wL, modLink s0 wL fun k => { k with regs := { k.regs with lkState := 3 } }, by decide +kernel⟩,
   ⟨linkA, {
     ver := 4, verMin := 3, kind := false, addr := 5, role := 1, subport := 0, ep := 77, ident := 0, fw := 0, cred := 0,
     spw := false }, 4, modLink s0 linkA fun k => { k with regs := { k.regs with lkState := 5 } }, by decide +kernel⟩,
   ⟨wL, {
     ver := 4, verMin := 3, kind := false, addr := 5, role := 3, subport := 0, ep := 77, ident := 0, fw := 0, cred := 0,
     spw := false }, 4, modLink (modPage s0 .hub 9 fun p => { p with
       role := { p.role with
         portRole := 3,
         portRoleExpectHub := 5 } }) wL fun k => { k with regs := { k.regs with lkState := 5 } }, by decide +kernel⟩,
   ⟨linkB, {
     ver := 4, verMin := 3, kind := false, addr := 5, role := 1, subport := 0, ep := 128, ident := 0, fw := 0, cred := 0,
     spw := false }, 4, 64, modTsu (modLink s0 linkB fun k => { k with regs :=
       { k.regs with lkState := 5 } }) fun h => { h with epA := some 64 }, by decide +kernel⟩,
   ⟨wL, {
     ver := 4, verMin := 3, kind := false, addr := 6, role := 3, subport := 0, ep := 77, ident := 0, fw := 0, cred := 0,
     spw := false }, 4, modLink (modPage s0 .hub 9 fun p => { p with
       role := { p.role with
         portRole := 3,
         portRoleExpectHub := 5 } }) wL fun k => { k with regs := { k.regs with lkState := 5 } }, by decide +kernel⟩,
   ⟨.mgmt, 9, 8, s0, by decide +kernel⟩,
   ⟨.mgmt, 9, 2, s0, by decide +kernel⟩,
   ⟨linkA, ⟨3, 0x002038⟩, .timebase, 0x038, wActive linkA, by decide +kernel⟩,
   ⟨linkA, modLink (wActive linkA) linkA fun k => { k with
     regs := { k.regs with lkCtrlRemoteWr := false } }, by decide +kernel⟩,
   ⟨linkA, modLink (wActive linkA) linkA fun k => { k with
     regs := { k.regs with lkCtrlRemoteWr := true } }, by decide +kernel⟩,
   ⟨linkA, ⟨3, false, 77⟩, modLink (wActive linkA) linkA fun k => { k with
     regTag := 4, regs := { k.regs with lkRegStatusBusy := true } }, by decide +kernel⟩,
   ⟨.mgmt, 9, s0, by decide +kernel⟩,
   ⟨wL, 5, (some 0), { wSig with dest := .rank 4 }, 4, 9, modJob wJob 3 fun b => { b with
     members := 8, ranks := [(4, some 9)] }, by decide +kernel⟩,
   ⟨wL, 5, (some 0), { wSig with dest := .rank 4 }, 4, wJob, by decide +kernel⟩⟩

theorem test_hyps_power_and_cooling :
    (∃ (vin : BitVec 16) (s : State), s.hub.power.on = false ∧ 6700 < vin.toNat) ∧
    (∃ (vin : BitVec 16) (s : State), s.hub.power.on = true ∧ vin.toNat < 6400 ∧ s.hub.power.latch = none) ∧
    (∃ (vin : BitVec 16) (x : BitVec 4) (s : State), s.hub.power.on = true ∧ 8800 < vin.toNat ∧ s.hub.power.latch = some x) ∧
    (∃ (vin : BitVec 16) (s : State), s.hub.power.on = true ∧ inWarnBand vin = true ∧ s.hub.mod_.modStatusPwrWarn = false) ∧
    (∃ (vin : BitVec 16) (s : State), s.hub.power.on = true ∧ inWarnBand vin = false) ∧
    (∃ (s : State), s.hub.power.on = true ∧ s.hub.histQueue = []) ∧
    (∃ (tj : BitVec 16) (s : State), s.hub.power.on = true ∧ s.hub.mod_.modTempWarnC.toNat * 10 ≤ tj.toNat ∧
      tj.toNat < 32768 ∧ s.hub.mod_.modStatusThermWarn = false) ∧
    (∃ (tj : BitVec 16) (s : State), s.hub.power.on = true ∧ tj.toNat < s.hub.mod_.modTempWarnC.toNat * 10 ∧ tj.toNat < 32768) ∧
    (∃ (tj : BitVec 16) (s : State), s.hub.power.on = true ∧ 1150 ≤ tj.toNat ∧ tj.toNat < 32768 ∧ s.hub.power.latch = none) :=
  ⟨⟨7000, modHub s0 fun h => { h with power := { h.power with on := false, latch := some 6 } }, by decide +kernel⟩,
   ⟨6399, wJob, by decide +kernel⟩,
   ⟨8801, 7, modHub wJob fun h => { h with power := { h.power with latch := some 7 } }, by decide +kernel⟩,
   ⟨6799, s0, by decide +kernel⟩,
   ⟨6800, s0, by decide +kernel⟩,
   ⟨wActive wL, by decide +kernel⟩,
   ⟨1100, s0, by decide +kernel⟩,
   ⟨100, s0, by decide +kernel⟩,
   ⟨1150, s0, by decide +kernel⟩⟩

theorem test_hyps_boot_and_resets :
    (∃ (s : State), s.hub.power.on = true ∧ s.hub.power.rstLow = false ∧ s.hub.power.coldBoot = true ∧
      s.hub.power.recoverNow = true ∧ s.hub.mod_.modStatusPhase = 0) ∧
    (∃ (k : Bool) (s : State), s.hub.mod_.modStatusPhase = 1 ∧ s.hub.mod_.modStatusRomRecovery = false ∧
      runningSlot s.hub = some k ∧ s.valid .hub = false ∧ s.hub.mod_.modStatusReady = false) ∧
    (∃ (ns : BitVec 32) (s : State), s.hub.power.on = true ∧ 1000 ≤ ns.toNat) ∧
    (∃ (ns : BitVec 32) (s : State), s.hub.power.on = true ∧ ns.toNat < 1000) ∧
    (∃ (i : Iface) (data : Word) (s : State), unpowered s i = false ∧ i.part = .hub ∧ (getF data 0 8 : BitVec 8) = 0xA5) ∧
    (∃ (i : Iface) (data : Word) (s : State), unpowered s i = false ∧ i.part = .hub ∧ (getF data 0 8 : BitVec 8) = 0xA5) ∧
    (∃ (i : Iface) (data : Word) (s : State), unpowered s i = false ∧ i.part = .hub ∧ (getF data 0 8 : BitVec 8) = 0xA5) ∧
    (∃ (s : State), s.hub.power.rstLow = true) ∧
    (∃ (s : State), s.hub.power.rstLow = false) :=
  ⟨⟨modHub s0 fun h => { h with power := { h.power with recoverNow := true, coldBoot := true } }, by decide +kernel⟩,
   ⟨false, modHub s0 fun h => { h with
     fw := { h.fw with fwSlotsS0Running := true }, mod_ := { h.mod_ with modStatusPhase := 1 } }, by decide +kernel⟩,
   ⟨1000, wJob, by decide +kernel⟩,
   ⟨999, wJob, by decide +kernel⟩,
   ⟨.mgmt, 0xA5, wJob, by decide +kernel⟩,
   ⟨.mgmt, 0xA5, wJob, by decide +kernel⟩,
   ⟨.mgmt, 0xA5, wJob, by decide +kernel⟩,
   ⟨modHub s0 fun h => { h with power := { h.power with rstLow := true } }, by decide +kernel⟩,
   ⟨s0, by decide +kernel⟩⟩

theorem test_hyps_firmware_update :
    (∃ (i : Iface) (h : List (BitVec 8)) (k : Bool) (s : State), unpowered s i = false ∧ i.part = .hub ∧
      (i ≠ .pcie ∨ s.hub.mod_.modStatusBootDone = true) ∧ h = mailbox s 512 ∧ k = receiveSlot s.hub ∧ hdrFormat h = true ∧
        hdrHardware h = true ∧ hdrSecure s.hub.fw.fwSlotsMinSec h = true ∧ hdrN h 0x090 1 < 4 ∧
          s.hub.fw.fwSlotsRevoked.getLsbD (hdrN h 0x090 1) = false ∧ hdrBase s h = true ∧ hdrSize h = true ∧
            hdrLink s h = true ∧ s.hub.fw.fwStatusState ≠ 2) ∧
    (∃ (i : Iface) (data : Word) (r : Nat) (s : State), unpowered s i = false ∧ i.part = .hub ∧
      (i ≠ .pcie ∨ s.hub.mod_.modStatusBootDone = true) ∧ (hdrResult (modFw s fun f => f.write 0x040 (oneCommand 63 data))
        (mailbox s 512) = r) ∧ 0 < r ∧ r < 16) ∧
    (∃ (i : Iface) (s : State), unpowered s i = false ∧ i.part = .hub ∧ (i ≠ .pcie ∨ s.hub.mod_.modStatusBootDone = true) ∧
      s.hub.transfer = none) ∧
    (∃ (i : Iface) (data : Word) (x : Transfer) (n : Nat) (s : State), unpowered s i = false ∧ i.part = .hub ∧
      (i ≠ .pcie ∨ s.hub.mod_.modStatusBootDone = true) ∧ s.hub.transfer = some x ∧
        (n = (modFw s fun f => f.write 0x040 (oneCommand 62 data)).hub.fw.fwCtrlIndex.toNat ∧ n ≤ hdrN x.hdr 0x024 4) ∧
          s.hub.fw.fwStatusState = 1 ∧ tget none x.blocks n = none) ∧
    (∃ (x : Transfer) (s : State), s.hub.fw.fwStatusState = 2 ∧ s.hub.transfer = some x ∧ builtImage s.hub x = none) ∧
    (∃ (x : Transfer) (img : List (BitVec 8)) (s : State), s.hub.fw.fwStatusState = 2 ∧ s.hub.transfer = some x ∧
      builtImage s.hub x = some img ∧ (sha384 img).toNat = hdrN x.hdr 0x060 48) ∧
    (∃ (i : Iface) (x : Transfer) (s : State), unpowered s i = false ∧ i.part = .hub ∧
      (i ≠ .pcie ∨ s.hub.mod_.modStatusBootDone = true) ∧ s.hub.fw.fwStatusState = 1 ∧ s.hub.transfer = some x) ∧
    (∃ (i : Iface) (data : Word) (twinVer : BitVec 64) (twinState : BitVec 3) (s : State), unpowered s i = false ∧
      i.part = .hub ∧ (i ≠ .pcie ∨ s.hub.mod_.modStatusBootDone = true) ∧ (getF data 32 8 : BitVec 8) = 0xA5 ∧
        s.hub.fw.fwStatusState = 3 ∧ s.hub.mod_.modStatusRomRecovery = false ∧ (s.roleLinks 3).isEmpty = false ∧
          twinState ≠ 4 ∧ (planeOf s.hub.id.hubAddr = true ∨ s.hub.fw.fwStaged.toNat ≤ twinVer.toNat)) ∧
    (∃ (k : Bool) (s : State), onTrial s.hub = some k) ∧
    (∃ (s : State), (onTrial s.hub).isSome = true) ∧
    (∃ (i : Iface) (data : Word) (s : State), unpowered s i = false ∧ i.part = .hub ∧
      (i ≠ .pcie ∨ s.hub.mod_.modStatusBootDone = true) ∧ (getF data 32 8 : BitVec 8) = 0xA5) ∧
    (∃ (i : Iface) (data : Word) (k : BitVec 2) (s : State), unpowered s i = false ∧ i.part = .hub ∧
      (i ≠ .pcie ∨ s.hub.mod_.modStatusBootDone = true) ∧ (getF data 32 8 : BitVec 8) = 0xA5 ∧ k = getF data 48 2 ∧
        signsConfirmed s.hub k = false) :=
  ⟨⟨.mgmt, mailbox wFwPow 512, true, modHub wFwPow fun h => { h with
     fw := { h.fw with fwSlotsS0Running := true } }, by decide +kernel⟩,
   ⟨.mgmt, 0, 1, s0, by decide +kernel⟩,
   ⟨.mgmt, s0, by decide +kernel⟩,
   ⟨.mgmt, 0, { slot := false, hdr := List.replicate 512 0 }, 0, modHub s0 fun h => { h with
     fw := { h.fw with fwStatusState := 1 },
     transfer := some { slot := false, hdr := List.replicate 512 0 } }, by decide +kernel⟩,
   ⟨{ slot := true, hdr := [] }, modHub s0 fun h => { h with
     fw := { h.fw with fwStatusState := 2 }, transfer := some { slot := true, hdr := [] } }, by decide +kernel⟩,
   ⟨{ slot := true, hdr := wFwHdr.set 0x2B 0 }, [], modHub s0 fun h => { h with
     fw := { h.fw with fwStatusState := 2 }, transfer := some { slot := true, hdr := wFwHdr.set 0x2B 0 } }, by decide +kernel⟩,
   ⟨.mgmt, { slot := true, hdr := [] }, modHub s0 fun h => { h with
     fw := { h.fw with fwStatusState := 1 }, transfer := some { slot := true, hdr := [] } }, by decide +kernel⟩,
   ⟨.mgmt, 0xA500000000, 5, 0, modHub (modPage (wActive wL) .hub 9 fun p => { p with role := { p.role with portRole := 3 } })
     fun h => { h with fw := { h.fw with fwStatusState := 3 } }, by decide +kernel⟩,
   ⟨true, modHub s0 fun h => { h with fw := { h.fw with fwSlotsS1Running := true, fwSlotsS1State := 1 } }, by decide +kernel⟩,
   ⟨modHub s0 fun h => { h with fw := { h.fw with fwSlotsS1Running := true, fwSlotsS1State := 1 } }, by decide +kernel⟩,
   ⟨.mgmt, 0xA500000000, s0, by decide +kernel⟩,
   ⟨.mgmt, 0x200A500000000, 2, s0, by decide +kernel⟩⟩

theorem test_hyps_register_accesses :
    (∃ (i : Iface) (a : BitVec 24) (s : State), Answers s i ∧ locate i a = .nothing) ∧
    (∃ (i : Iface) (a : BitVec 24) (g : Page) (s : State), Answers s i ∧ locate i a = .reg g 0x038 ∧ g.ordinal i.part ≠ none) ∧
    (∃ (i : Iface) (a : BitVec 24) (g : Page) (s : State), Answers s i ∧ locate i a = .reg g 0x038) ∧
    (∃ (i : Iface) (a : BitVec 24) (s : State), Answers s i ∧ i.part = .hub ∧ locate i a = .reg .mgmt 0x060) ∧
    (∃ (i : Iface) (page : BitVec 12) (data : Word) (g : Page) (s : State), Answers s i ∧
      locate i (page ++ (0x010 : BitVec 12)) = .reg g 0x010 ∧ g.ordinal i.part ≠ none ∧ getB data 62 = false) ∧
    (∃ (i : Iface) (page : BitVec 12) (data : Word) (g : Page) (k : Nat) (s : State), Answers s i ∧
      locate i (page ++ (0x010 : BitVec 12)) = .reg g 0x010 ∧ g.ordinal i.part ≠ none ∧
        k = (getF data 16 6 : BitVec 6).toNat ∧ (causesOf g).getLsbD k = true) ∧
    (∃ (i : Iface) (page : BitVec 12) (data : Word) (g : Page) (s : State), Answers s i ∧
      locate i (page ++ (0x010 : BitVec 12)) = .reg g 0x010 ∧ (causesOf g).getLsbD (getF data 16 6 : BitVec 6).toNat = false) ∧
    (∃ (i : Iface) (page : BitVec 12) (g : Page) (s : State), Answers s i ∧
      locate i (page ++ (0x020 : BitVec 12)) = .reg g 0x020) ∧
    (∃ (i : Iface) (page : BitVec 12) (g : Page) (s : State), Answers s i ∧
      locate i (page ++ (0x028 : BitVec 12)) = .reg g 0x028) ∧
    (∃ (a : BitVec 24) (s : State), s.hub.power.perst = false ∧ s.hub.power.on = true ∧ a.toNat % 8 = 0) ∧
    (∃ (a : BitVec 24) (bs : List (BitVec 8)) (s : State), s.hub.power.perst = false ∧ s.hub.power.on = true ∧
      a.toNat % 8 = 0 ∧ bs.length = 8) ∧
    (∃ (s : State), s.hub.power.perst = false ∧ s.hub.power.on = true) ∧
    (∃ (s : State), s.hub.power.perst = false ∧ s.hub.power.on = true) ∧
    (∃ (s : State), s.hub.power.perst = false ∧ s.hub.power.on = true) ∧
    (∃ (data : BitVec 89) (g : Page) (s : State), s.hub.power.on = true ∧ closed s .jtag = false ∧ data.getLsbD 88 = false ∧
      locate .jtag (data.extractLsb' 64 24) = .reg g 0x038) ∧
    (∃ (debugEn : Bool) (data : BitVec 89) (s : State), debugEn = true ∧ s.hub.power.on = true ∧ data.getLsbD 88 = true) :=
  ⟨⟨.linkA, 0x001004, s0, by decide +kernel⟩,
   ⟨.linkA, 0x002038, .timebase, s0, by decide +kernel⟩,
   ⟨.linkA, 0x002038, .timebase, s0, by decide +kernel⟩,
   ⟨.mgmt, 0x004060, modHub s0 fun h => { h with mgmt := { h.mgmt with mgStatusRxDrop := 5 } }, by decide +kernel⟩,
   ⟨.linkA, 2, 0, .timebase, refuse s0 .tsu .timebase, by decide +kernel⟩,
   ⟨.linkA, 4, 0, .servo, 0, s0, by decide +kernel⟩,
   ⟨.linkA, 4, 0x3F0000, .servo, s0, by decide +kernel⟩,
   ⟨.linkA, 2, .timebase, setCause s0 .tsu .timebase 0, by decide +kernel⟩,
   ⟨.linkA, 2, .timebase, s0, by decide +kernel⟩,
   ⟨0x000038, modHub s0 fun h => { h with power := { h.power with perst := false } }, by decide +kernel⟩,
   ⟨0x000038, [1, 2, 3, 4, 5, 6, 7, 8], modHub s0 fun h => { h with
     power := { h.power with perst := false } }, by decide +kernel⟩,
   ⟨modHub s0 fun h => { h with power := { h.power with perst := false } }, by decide +kernel⟩,
   ⟨modHub s0 fun h => { h with power := { h.power with perst := false } }, by decide +kernel⟩,
   ⟨modHub s0 fun h => { h with power := { h.power with perst := false } }, by decide +kernel⟩,
   ⟨0x0050380000000000000000, .timebase, modHub s0 fun h => { h with jtag := { h.jtag with data := 5 } }, by decide +kernel⟩,
   ⟨true, 0x10050380000000000000007, s0, by decide +kernel⟩⟩

theorem test_hyps_interrupts_and_management :
    (∃ (i : Iface) (s : State), Answers s i ∧ i.part = .hub) ∧
    (∃ (v : BitVec 6) (s : State), s.hub.power.perst = false ∧ Answers s .pcie ∧ s.hub.msixPending.getLsbD v.toNat = false) ∧
    (∃ (v : BitVec 6) (s : State), s.hub.power.perst = false ∧ Answers s .pcie ∧ s.hub.msixPending.getLsbD v.toNat = true ∧
      (intVec s).getLsbD v.toNat = true ∧ s.hub.msixEnable = true) ∧
    (∃ (i : Iface) (data : Word) (a : BitVec 16) (s : State), Answers s i ∧ i.part = .hub ∧ a = getF data 0 16 ∧
      (s.hub.sh.pages.all (fun g => g.2.role.portRole == 0) = true) ∧ hubAddrLegal a = true) ∧
    (∃ (i : Iface) (data : Word) (s : State), Answers s i ∧ i.part = .hub ∧ (getF data 0 6 : BitVec 6).toNat ≤ 32) ∧
    (∃ (i : Iface) (s : State), Answers s i ∧ i.part = .hub) ∧
    (∃ (i : Iface) (which : BitVec 2) (s : State), Answers s i ∧ i.part = .hub ∧ (which = 2 ∨ which = 3)) ∧
    (∃ (target : BitVec 32) (s : State), s.hub.power.on = true ∧ s.hub.mgmt.mgIpv4Addr ≠ 0 ∧ target = s.hub.mgmt.mgIpv4Addr) ∧
    (∃ (target : BitVec 32) (s : State), s.hub.power.on = true ∧ target ≠ s.hub.mgmt.mgIpv4Addr) ∧
    (∃ (dst src : BitVec 32) (s : State), s.hub.power.on = true ∧ s.hub.mgmt.mgIpv4Addr ≠ 0 ∧ dst = s.hub.mgmt.mgIpv4Addr ∧
      (inPrefix s.hub.mgmt src = true ∨ s.hub.mgmt.mgGateway ≠ 0)) ∧
    (∃ (ip : BitVec 32) (dst : BitVec 16) (data : List (BitVec 8)) (n : Nat) (s : State), s.hub.power.on = true ∧
      dst = s.hub.mgmt.mgQuery ∧ ip = s.hub.evh.evDestIpv4 ∧ bytesAt data 0 2 = 0x5251 ∧ bytesAt data 3 1 = n ∧ 0 < n ∧
        n ≤ 32 ∧ data.length = 8 + 4 * n) ∧
    (∃ (dst : BitVec 16) (s : State), s.hub.power.on = true ∧ dst ≠ s.hub.mgmt.mgQuery) :=
  ⟨⟨.mgmt, s0, by decide +kernel⟩,
   ⟨5, modHub s0 fun h => { h with
     power := { h.power with perst := false }, mod_ := { h.mod_ with modStatusBootDone := true } }, by decide +kernel⟩,
   ⟨0, modHdr (modHub s0 fun h => { h with
     msixEnable := true, msixPending := 1, power := { h.power with perst := false },
     mod_ := { h.mod_ with modStatusBootDone := true } }) .hub .timebase fun h => { h with
       pageIntStatus := 1, pageIntEnable := 1 }, by decide +kernel⟩,
   ⟨.mgmt, 0x28, 0x28, s0, by decide +kernel⟩,
   ⟨.mgmt, 0x0A00000100000018, s0, by decide +kernel⟩,
   ⟨.mgmt, s0, by decide +kernel⟩,
   ⟨.mgmt, 3, s0, by decide +kernel⟩,
   ⟨9, modHub s0 fun h => { h with mgmt := { h.mgmt with mgIpv4Addr := 9 } }, by decide +kernel⟩,
   ⟨8, modHub s0 fun h => { h with mgmt := { h.mgmt with mgIpv4Addr := 9 } }, by decide +kernel⟩,
   ⟨9, 5, modHub s0 fun h => { h with mgmt := { h.mgmt with mgIpv4Addr := 9, mgGateway := 3 } }, by decide +kernel⟩,
   ⟨9, 0x5251, [0x52, 0x51, 1, 1, 0, 0, 0, 7, 0, 0, 0x50, 0x38], 1, modHub s0 fun h => { h with
     evh := { h.evh with evDestIpv4 := 9 },
     mgmt := { h.mgmt with mgIpv4Addr := 3, mgGateway := 4, mgQuery := 0x5251 } }, by decide +kernel⟩,
   ⟨7, modHub s0 fun h => { h with mgmt := { h.mgmt with mgQuery := 0x5251 } }, by decide +kernel⟩⟩

theorem test_hyps_uncorrectable_reads :
    (∃ (k : BitVec 64) (s : State), ringOldest s.hub.evh ≤ k.toNat ∧ k.toNat < s.hub.evh.evHead.toNat) ∧
    (∃ (job : BitVec 12) (s : State), s.isLead job = true ∧ (s.job job).regs.jobStatusState = 2) ∧
    (∃ (job : BitVec 12) (s : State), s.isHome job = true ∧ s.isLead job = false) ∧
    (∃ (h : HeldLaunch) (s : State), s.tsu.inReset = false ∧ s.tsu.sh.tb.resolve = false ∧ launchDueNow s true = none ∧
      launchDueNow s false = some h ∧ s.tsu.staged = []) ∧
    (∃ (j : BitVec 12) (h : HeldLaunch) (s : State), s.hub.power.on = true ∧ s.hub.sh.tb.resolve = false ∧
      s.jobIds.contains j = true ∧ homeDueNow s j true = none ∧ homeDueNow s j false = some h ∧ s.hub.staged = []) :=
  ⟨⟨1, modHub s0 fun h => { h with ring := [(0, 5), (1, 6)], evh := { h.evh with evHead := 2 } }, by decide +kernel⟩,
   ⟨3, wLeadJob, by decide +kernel⟩,
   ⟨3, modJob wLeadJob 3 fun b => { b with leads := false }, by decide +kernel⟩,
   ⟨{ tick := 5, step := 9 }, modTsu (wHeld { tick := 5, step := 9 }) fun h => { h with inReset := false }, by decide +kernel⟩,
   ⟨3, { tick := 5, step := 9 }, modTb (modJob wJob 3 fun b => { b with
     nextLaunch := some { tick := 5, step := 9 } }) .hub fun b => { b with
       tick := 9, resolve := false, regs := { b.regs with statusValid := true } }, by decide +kernel⟩⟩

/-- Whether the step of a state answers a next state. -/
def stepped (s : State) : Bool := match step s with | .next _ => true | _ => false

theorem step_of_stepped {s : State} (h : stepped s = true) : step s = .next (after s) := by
  unfold stepped at h
  unfold after
  split at h
  · next e => rw [e]
  · cases h

theorem test_hyps_an_empty_queue_idles : ∃ s : State, s.pending = [] := ⟨State.reset, rfl⟩

/-- Fifteen requests are outstanding on the host port. -/
def wFifteen : State := modTsu s0 fun h => { h with
  hp := (List.range 15).map fun k => { id := k, tag := BitVec.ofNat 4 k, write := true, done := none }, hpNext := 15 }

theorem test_hyps_every_step_keeps_the_bounds : ∃ s : State, Bounded s ∧ step s = .next (after s) ∧
    s.tsu.hp.length = 15 ∧ (after s).tsu.hp.length = 16 := by
  refine ⟨given (.hostPortRequest false 0 0 15) wFifteen, ?_, step_of_stepped (by decide +kernel),
    by decide +kernel⟩
  unfold Bounded TsuBounded HubBounded
  decide +kernel

theorem test_hyps_every_step_keeps_the_time_states : ∃ s : State, TimeConsistent s ∧ step s = .next (after s) ∧
    s.valid .hub = true ∧ (after s).valid .hub = false := by
  refine ⟨given (.islandLockLoss .hub) (modTbRegs (wServo .hub 2) .hub fun r => { r with statusIslandLock := true }), ?_,
    step_of_stepped (by decide +kernel), by decide +kernel⟩
  intro p
  cases p <;> decide +kernel

theorem test_hyps_every_step_keeps_causes_named : ∃ s : State, CausesNamed s ∧ step s = .next (after s) ∧ after s ≠ s := by
  refine ⟨given (.islandLock .tsu) s0, fun p g => ?_, step_of_stepped (by decide +kernel), by decide +kernel⟩
  have : (given (.islandLock .tsu) s0).hdr p g = {} := by
    unfold State.hdr
    cases p <;> cases g.ordinal _ <;> rfl
  rw [this]
  simp

theorem test_hyps_fuses_only_blow : ∃ s : State, step s = .next (after s) ∧ s.hub.fw.fwSlotsMinSec = 9 ∧
    s.hub.fw.fwSlotsRevoked.getLsbD 2 = true :=
  ⟨given (.bootDone 40) (modHub s0 fun h => { h with fw := { h.fw with fwSlotsMinSec := 9, fwSlotsRevoked := 4 } }),
    step_of_stepped (by decide +kernel), by decide +kernel⟩

theorem test_hyps_retired_units_stay_retired : ∃ s : State, step s = .next (after s) ∧ (s.unit 5).unitState = 4 :=
  ⟨given (.shadowEnd 5) (modUnit s0 5 fun r => { r with unitState := 4 }), step_of_stepped (by decide +kernel),
    by decide +kernel⟩

theorem test_hyps_saturating_counters : Page.servo.ordinal .hub ≠ none ∧ 2 ^ 48 - 1 ≤ 2 ^ 48 - 1 := by decide

theorem test_hyps_time_reads_latch : Answers s0 .host ∧ locate .host 0x2048 = .reg .timebase 0x048 ∧
    locate .host 0x2050 = .reg .timebase 0x050 ∧ locate .host 0x2058 = .reg .timebase 0x058 := by decide +kernel

theorem test_hyps_pending_pages : ∃ s : State, Answers s .host ∧ locate .host ((4 : BitVec 12) ++ (0x028 : BitVec 12)) = .reg .servo 0x028 ∧
    Page.servo.ordinal .tsu ≠ none ∧ (causesOf .servo).getLsbD 0 = true ∧ (s.hdr .tsu .servo).pageIntStatus.getLsbD 0 = true ∧
    (1 : Word).getLsbD 0 = true := ⟨setCause s0 .tsu .servo 0, by decide +kernel⟩

theorem test_hyps_scheduled_ticks : 0 < 32 ∧ extendWire (7 : BitVec 8) 0x1FE = some 0x207 ∧
    ∃ s : State, (schedWire s .tsu 2000000009).1 = some 2000000009 := ⟨by decide, by decide, wActing .tsu s0, by decide +kernel⟩

theorem test_hyps_mirrored_messages : 0x20 ≤ (msgTypeCode (.arrive wArr)).toNat ∧ (msgTypeCode (.arrive wArr)).toNat ≤ 0x27 := by
  decide

theorem test_hyps_actions_and_credits :
    (∀ a ∈ ([(0x000B, 7, List.replicate 8 1)] : List Act), a.1 < 65536 ∧ a.2.2.length % 8 = 0 ∧ a.2.2.length < 2 ^ 32) ∧
    [1, 2, 3, 4, 5, 4095].length = 6 ∧ ∀ n ∈ [1, 2, 3, 4, 5, 4095], n < 4096 := by decide

end

end Sys2Proof.Tests
end

section
/-! O55: saturating counters stop at their all-ones value (R14, R245). -/

namespace Sys2Proof.Machine

/-- The two sides of the minimum: the all-ones value stays, and below it one more does not overflow the field. -/
theorem toNat_satInc {w : Nat} (x : BitVec w) : (satInc x).toNat = min (x.toNat + 1) (2 ^ w - 1) := by
  have hx : x.toNat < 2 ^ w := x.isLt
  unfold satInc
  split
  case isTrue hmax =>
    have hx' : x.toNat = 2 ^ w - 1 := by rw [hmax, BitVec.toNat_allOnes]
    omega
  case isFalse hmax =>
    have hne : x.toNat ≠ 2 ^ w - 1 := fun h => hmax (BitVec.eq_of_toNat_eq (h.trans BitVec.toNat_allOnes.symm))
    have hadd : (x + 1).toNat = (x.toNat + 1) % 2 ^ w := by simp
    rw [hadd, Nat.mod_eq_of_lt (by omega)]
    omega

theorem toNat_satAdd {w : Nat} (x : BitVec w) (n : Nat) : (satAdd x n).toNat = min (x.toNat + n) (2 ^ w - 1) := by
  unfold satAdd
  split
  case isTrue hfits =>
    rw [BitVec.toNat_ofNat, Nat.mod_eq_of_lt hfits]
    omega
  case isFalse hover =>
    rw [BitVec.toNat_allOnes]
    omega

/-- A page that the part has reads as what its change left. -/
theorem hdr_modHdr {p : Part} {g : Page} (hg : g.ordinal p ≠ none) (s : State) (f : PageHdr → PageHdr) :
    (modHdr s p g f).hdr p g = f (s.hdr p g) := by
  obtain ⟨k, hk⟩ := Option.ne_none_iff_exists'.1 hg
  simp [modHdr, State.hdr, hk]

/-- Reporting leaves every slot as it was. -/
theorem Reported.slot {s t : State} (h : Reported s t) (k : BitVec 12) : t.slot k = s.slot k := by
  unfold Reported at h
  rw [h]
  rfl

@[simp] theorem slot_setCause (s : State) (p : Part) (g : Page) (b : Nat) (k : BitVec 12) :
    (setCause s p g b).slot k = s.slot k :=
  (setCause_reported (.refl s) p g b).slot k

@[simp] theorem slot_raise (s : State) (p : Part) (e : Ev) (k : BitVec 12) : (raise s p e).slot k = s.slot k :=
  (raise_reported (.refl s) p e).slot k

/-- Below the maximum VALUE takes the number and the other registers of the slot stay. -/
theorem setValue_slot_below {n : Nat} (hn : n < 2 ^ 48 - 1) (s : State) (k : BitVec 12) :
    ((setValue s k n).slot k).regs = { (s.slot k).regs with soValValue := BitVec.ofNat 48 n } := by
  simp only [setValue, if_pos hn, modSlotRegs, slot_modSlot]

/-- From the maximum on VALUE is all ones and SATURATED is set, whether or not the event is raised. -/
theorem setValue_slot_max {n : Nat} (hn : ¬ n < 2 ^ 48 - 1) (s : State) (k : BitVec 12) :
    ((setValue s k n).slot k).regs =
      { (s.slot k).regs with soValValue := BitVec.allOnes 48, soValSaturated := true } := by
  simp only [setValue, if_neg hn]
  split <;> simp only [slot_raise, slot_setCause, modSlotRegs, slot_modSlot]

/-- Settles O55, from what `satInc` and `satAdd` do to the number counted, from the page's own header after a refusal, and from
the two cases of `setValue`. -/
theorem saturatingCounters : Obligations.SaturatingCounters := by
  refine ⟨fun _ => toNat_satInc, fun _ => toNat_satAdd, fun s p g hg => ?_, fun s k n => ?_⟩
  · rw [refuse, hdr_modHdr hg]
  · by_cases hn : n < 2 ^ 48 - 1
    · rw [setValue_slot_below hn]
      have hfits : n < 2 ^ 48 := by omega
      exact ⟨by rw [BitVec.toNat_ofNat, Nat.mod_eq_of_lt hfits]; omega, fun hmax => absurd hn (by omega)⟩
    · rw [setValue_slot_max hn]
      exact ⟨by rw [BitVec.toNat_allOnes]; omega, fun _ => rfl⟩

end Sys2Proof.Machine
end

section
/-! O56: a read of NOW_LO latches the time of its cycle for its own interface (R71, R507). -/

namespace Sys2Proof.Machine

/-! ## Each interface's own copies (R507) -/

/-- The interface whose copies lie at a place of the table: the inverse of `Iface.key`. -/
def ifaceOfKey : Nat → Iface
  | 0 => .pcie
  | 1 => .mgmt
  | 2 => .jtag
  | 3 => .host
  | 4 => .linkA
  | 5 => .linkB
  | n + 6 => .port (BitVec.ofNat 7 n)

theorem ifaceOfKey_key : Function.LeftInverse ifaceOfKey Iface.key
  | .port p => by rw [Iface.key, Nat.add_comm, ifaceOfKey, BitVec.ofNat_toNat, BitVec.setWidth_eq]
  | .pcie | .mgmt | .jtag | .host | .linkA | .linkB => rfl

/-- A change of one part's shared blocks leaves those of the other part. -/
theorem modSh_sh_ne {p q : Part} (h : q ≠ p) (s : State) (f : Shared → Shared) : (modSh s p f).sh q = s.sh q :=
  match p, q with
  | .hub, .tsu | .tsu, .hub => rfl
  | .hub, .hub | .tsu, .tsu => absurd rfl h

/-- Another interface's copies lie at another place of the same part's table, or in the other part. -/
theorem iface_modIface_ne {i j : Iface} (h : j ≠ i) (s : State) (f : IfaceCopy → IfaceCopy) :
    (modIface s i f).iface j = s.iface j := by
  have hkey : i.key ≠ j.key := ifaceOfKey_key.injective.ne h.symm
  by_cases hpart : j.part = i.part
  · simp only [State.iface, modIface, hpart, modSh_sh, tget_tmod_ne f hkey]
  · simp only [State.iface, modIface, modSh_sh_ne hpart]

@[simp] theorem iface_emit (s : State) (o : Out) (j : Iface) : (emit s o).iface j = s.iface j := by
  simp only [State.iface, emit_sh]

@[simp] theorem modIface_out (s : State) (i : Iface) (f : IfaceCopy → IfaceCopy) : (modIface s i f).out = s.out :=
  modSh_out s i.part _

/-! ## A read through an interface (R170) -/

section

variable {i : Iface} {a : BitVec 24} {g : Page} {off : Nat} {s : State}

/-- A read of a register that answers gives what its page shows. -/
theorem readAt_reg (hloc : locate i a = .reg g off) (hopen : shut s i (.reg g off) = false) :
    readAt i a s = (false, readReg i g off s) := by
  simp [readAt, hloc, hopen]

theorem exec_registerReadClear_answers (h : Answers s i) (a : BitVec 24) :
    exec (.registerReadClear i a) s = .next (emit (readAt i a s).2.2 (.readData i (readAt i a s).2.1)) := by
  show execRegisterReadClear i a s = _
  simp [execRegisterReadClear, h.1]

/-! ## The time registers (R71) -/

theorem exec_nowLoRead_answers (h : Answers s i) :
    exec (.nowLoRead i) s = .next (emit (nowLoRead i s).2 (.readData i (nowLo s i.part))) :=
  ackRead_answers h (nowLoRead i s)

@[simp] theorem nowLoRead_out (i : Iface) (s : State) : (nowLoRead i s).2.out = s.out := modIface_out ..

/-- A read of NOW_LO writes the three latches of its interface, all from the state it reads. -/
@[simp] theorem nowLoRead_iface_regs (i : Iface) (s : State) : ((nowLoRead i s).2.iface i).regs =
    { (s.iface i).regs with
      nowHi := (s.sec i.part).extractLsb' 16 32, nowTick := s.now i.part, nowFrac := (s.sh i.part).tb.frac } :=
  congrArg IfaceCopy.regs (iface_modIface ..)

theorem nowLoRead_iface_ne {j : Iface} (h : j ≠ i) (s : State) : (nowLoRead i s).2.iface j = s.iface j :=
  iface_modIface_ne h ..

/-- Between NOW_LO and 0x060 the TIMEBASE page shows the interface's own latches and changes nothing. -/
theorem readReg_timebase_latch (hlo : 0x040 < off) (hhi : off < 0x060) (i : Iface) (s : State) :
    readReg i .timebase off s = ((s.iface i).regs.readTimebase off, s) := by
  have hpage : ¬ off < 0x040 := by omega
  have hnow : off ≠ 0x040 := by omega
  simp only [readReg, if_neg hpage, readTimebase, if_neg hnow, if_pos hhi]

/-- A read of a latched time register answers the latch, and the state is otherwise as it was. -/
theorem exec_registerReadClear_timebase_latch (h : Answers s i) (hloc : locate i a = .reg .timebase off)
    (hlo : 0x040 < off) (hhi : off < 0x060) :
    exec (.registerReadClear i a) s = .next (emit s (.readData i ((s.iface i).regs.readTimebase off))) := by
  rw [exec_registerReadClear_answers h, readAt_reg hloc h.2, readReg_timebase_latch hlo hhi]

end

/-- A field that fills its word is the word. -/
theorem putF_zero_word (x : Word) : putF 0 x = x := by
  simp [putF]

/-- Settles O56: a read of NOW_LO writes the latches of its own interface alone, and a read of a latch changes no interface. -/
theorem timeReadsLatch : Obligations.TimeReadsLatch := by
  refine ⟨fun i s h => ⟨_, exec_nowLoRead_answers h, ?_⟩, fun i a off s h hloc hoff => ?_⟩
  · have hother : ∀ j, j ≠ i → (nowLoRead i s).2.iface j = s.iface j := fun _ hne => nowLoRead_iface_ne hne s
    simpa using hother
  · refine ⟨_, exec_registerReadClear_timebase_latch h hloc (by omega) (by omega), ?_, fun _ => iface_emit ..⟩
    rcases hoff with rfl | rfl | rfl <;> simp [IfaceRegs.readTimebase, putF_zero_word]

end Sys2Proof.Machine
end

section
/-! O57: a page is pending while a cause that is set is enabled (R506). -/

namespace Sys2Proof.Machine

/-! ## The pending state of a page (R506) -/

section

variable {s : State} {p : Part} {g : Page}

theorem pending?_iff : s.pending? p g = true ↔ (s.hdr p g).pageIntStatus &&& (s.hdr p g).pageIntEnable ≠ 0 :=
  bne_iff_ne

/-- One cause that is set and enabled makes the page pending. -/
theorem pending?_of_cause {k : Nat} (hset : (s.hdr p g).pageIntStatus.getLsbD k = true)
    (hen : (s.hdr p g).pageIntEnable.getLsbD k = true) : s.pending? p g = true := by
  refine pending?_iff.2 fun hzero => ?_
  have hbit : ((s.hdr p g).pageIntStatus &&& (s.hdr p g).pageIntEnable).getLsbD k = true := by
    rw [BitVec.getLsbD_and, hset, hen, Bool.and_self]
  rw [hzero] at hbit
  exact absurd hbit (by simp)

@[simp] theorem hdr_emit (s : State) (o : Out) (p : Part) (g : Page) : (emit s o).hdr p g = s.hdr p g := by
  simp only [State.hdr, emit_sh]

/-- ERR_SAT stands beside INT_PENDING in PAGE_STATUS and leaves bit 0 to it. -/
theorem readHdr_pageStatus_intPending (p : Part) (g : Page) (s : State) :
    (readHdr p g 0x018 s).getLsbD 0 = s.pending? p g := by
  simp only [readHdr, BitVec.getLsbD_or]
  cases s.pending? p g <;> cases (s.hdr p g).pageErrCount == 0xFFFFFFFF <;> rfl

end

/-! ## A write through an interface (R170) -/

section

variable {i : Iface} {a : BitVec 24} {g : Page} {off : Nat} {s : State}

/-- A part that answers an interface shuts no place from it, the FW page before BOOT_DONE included. -/
theorem shut_of_answers (h : Answers s i) (x : Place) : shut s i x = false := by
  have hopen : closed s i = false := h.2
  unfold shut
  split
  case h_1 => rfl
  case h_2 =>
    by_cases hpcie : i = .pcie
    · subst hpcie
      obtain ⟨hboot, -⟩ : s.hub.mod_.modStatusBootDone = true ∧ s.hub.mod_.modStatusRomRecovery = false := by
        simpa [closed, Iface.part] using hopen
      simp [hboot]
    · simp [hpcie]
  case h_3 => exact hopen

theorem rowWrite_reg (h : Answers s i) (hloc : locate i a = .reg g off) (v : Word) :
    rowWrite i a v s = .next (writeReg (.row i) i g off v s) := by
  simp [rowWrite, h.1, writeAt, hloc, shut_of_answers h]

/-- A write of a header register is answered at once. -/
theorem writeReg_hdr (hoff : off < 0x040) (i : Iface) (g : Page) (v : Word) (s : State) :
    writeReg (.row i) i g off v s =
      emit (hdrWrite i.part g off v s).2 (.writeAck i (hdrWrite i.part g off v s).1) := by
  simp only [writeReg, if_pos hoff, answer]

/-- A write of PAGE_INT_ENABLE takes the bits of the causes that the page names (R505). -/
theorem hdrWrite_pageIntEnable (p : Part) (g : Page) (v : Word) (s : State) :
    hdrWrite p g 0x028 v s = (false, modHdr s p g fun h => { h with pageIntEnable := v &&& causesOf g }) := by
  simp [hdrWrite, accept, PageHdr.write, getF]

theorem exec_pageIntEnableWrite_answers {page : BitVec 12} (h : Answers s i)
    (hloc : locate i (page ++ (0x028 : BitVec 12)) = .reg g 0x028) (data : Word) :
    exec (.pageIntEnableWrite i page data) s = .next
      (emit (modHdr s i.part g fun h => { h with pageIntEnable := data &&& causesOf g }) (.writeAck i false)) := by
  show rowWrite i (page ++ (0x028 : BitVec 12)) data s = _
  rw [rowWrite_reg h hloc, writeReg_hdr (by decide), hdrWrite_pageIntEnable]

end

/-- Settles O57: INT_PENDING is the bit of PAGE_STATUS that shows the condition, and the write's own next state holds the
cause that was set together with its new enable. -/
theorem pendingPages : Obligations.PendingPages := by
  refine ⟨fun s p g => ⟨pending?_iff, readHdr_pageStatus_intPending p g s⟩,
    fun i page data g k s hans hloc hg hnamed hset hdata => ⟨_, exec_pageIntEnableWrite_answers hans hloc data, ?_⟩⟩
  apply pending?_of_cause (k := k)
  · simpa only [hdr_emit, hdr_modHdr hg] using hset
  · simp only [hdr_emit, hdr_modHdr hg, BitVec.getLsbD_and, hdata, hnamed, Bool.and_self]

end Sys2Proof.Machine
end

section
/-! O59, O60, O58 and the statements of tier 1: fields of flits and of transaction bodies read back, ticks on the wire, the step
itself and the state after reset. -/

namespace Sys2Proof.Machine

/-! ## Fields packed and taken (R457) -/

theorem packFields_fst_lt : ∀ fs : List (Nat × Nat), (packFields fs).1 < 2 ^ (packFields fs).2
  | [] => by simp [packFields]
  | (w, x) :: fs => by
    have ih := packFields_fst_lt fs
    have hx : x % 2 ^ w < 2 ^ w := Nat.mod_lt _ (Nat.two_pow_pos w)
    simp only [packFields, Nat.pow_add]
    calc x % 2 ^ w * 2 ^ (packFields fs).2 + (packFields fs).1
        < x % 2 ^ w * 2 ^ (packFields fs).2 + 2 ^ (packFields fs).2 := Nat.add_lt_add_left ih _
      _ = (x % 2 ^ w + 1) * 2 ^ (packFields fs).2 := (Nat.succ_mul _ _).symm
      _ ≤ 2 ^ w * 2 ^ (packFields fs).2 := Nat.mul_le_mul_right _ hx

theorem takeFields_packFields (fs : List (Nat × Nat)) (left hi : Nat) (h : (packFields fs).2 ≤ left) :
    takeFields (fs.map Prod.fst) left (hi * 2 ^ left + (packFields fs).1 * 2 ^ (left - (packFields fs).2)) =
      fs.map fun f => f.2 % 2 ^ f.1 := by
  induction fs generalizing left hi with
  | nil => rfl
  | cons f fs ih =>
    obtain ⟨w, x⟩ := f
    have hlt := packFields_fst_lt fs
    simp only [packFields] at h
    obtain ⟨d, rfl⟩ := Nat.exists_eq_add_of_le h
    simp only [List.map_cons, packFields, takeFields]
    generalize (packFields fs).2 = k at ih hlt ⊢
    generalize (packFields fs).1 = n at ih hlt ⊢
    have hn : n * 2 ^ d < 2 ^ (k + d) := by
      rw [Nat.pow_add]; exact Nat.mul_lt_mul_of_pos_right hlt (Nat.two_pow_pos d)
    have hsplit : hi * 2 ^ (w + k + d) + (x % 2 ^ w * 2 ^ k + n) * 2 ^ d =
        (hi * 2 ^ w + x % 2 ^ w) * 2 ^ (k + d) + n * 2 ^ d := by
      simp only [Nat.pow_add, Nat.add_mul, Nat.mul_assoc, Nat.add_assoc]
    have hhead : ((hi * 2 ^ w + x % 2 ^ w) * 2 ^ (k + d) + n * 2 ^ d) / 2 ^ (k + d) % 2 ^ w = x % 2 ^ w := by
      rw [Nat.mul_comm _ (2 ^ (k + d)), Nat.mul_add_div (Nat.two_pow_pos _), Nat.div_eq_of_lt hn, Nat.add_zero,
        Nat.mul_comm hi, Nat.mul_add_mod, Nat.mod_mod]
    have hleft : w + k + d - (w + k) = d := by omega
    have hrest : w + k + d - w = k + d := by omega
    have htail := ih (k + d) (hi * 2 ^ w + x % 2 ^ w) (by omega)
    rw [show k + d - k = d by omega] at htail
    rw [hleft, hrest, hsplit, hhead, htail]

theorem packFields_snd : ∀ fs : List (Nat × Nat), (packFields fs).2 = (fs.map Prod.fst).sum
  | [] => rfl
  | (w, x) :: fs => by simp only [packFields, List.map_cons, List.sum_cons, packFields_snd fs]

theorem takeFields_msgPayload (m : Msg) (h : ((msgFields m).map Prod.fst).sum ≤ 416) :
    takeFields ((msgFields m).map Prod.fst) 416 (msgPayload m) = (msgFields m).map fun f => f.2 % 2 ^ f.1 := by
  have hp := takeFields_packFields (msgFields m) 416 0 (packFields_snd _ ▸ h)
  rwa [Nat.zero_mul, Nat.zero_add] at hp

@[simp] theorem bytesToNat_append_one (bs : List (BitVec 8)) (b : BitVec 8) :
    bytesToNat (bs ++ [b]) = bytesToNat bs * 256 + b.toNat := by simp [bytesToNat]

@[simp] theorem length_natToBytes : ∀ k n, (natToBytes k n).length = k
  | 0, _ => rfl
  | k + 1, n => by simp [natToBytes, length_natToBytes k]

@[simp] theorem bytesToNat_natToBytes : ∀ k n, bytesToNat (natToBytes k n) = n % 256 ^ k
  | 0, n => by simp [natToBytes, bytesToNat, Nat.mod_one]
  | k + 1, n => by
    rw [natToBytes, bytesToNat_append_one, bytesToNat_natToBytes k, BitVec.toNat_ofNat,
      Nat.pow_succ' (m := 256) (n := k), Nat.mod_mul]
    exact (Nat.add_comm _ _).trans (congrArg _ (Nat.mul_comm _ _))

theorem padTo_of_length {n : Nat} {bs : List (BitVec 8)} (h : bs.length = n) : padTo n bs = bs := by simp [padTo, h]

@[simp] theorem toNat_bool_mod_two_beq (b : Bool) : (b.toNat % 2 == 1) = b := by cases b <;> rfl

theorem upMessage_evrec (p : EvrecP) :
    upMessage (msgTypeCode (.evrec p)) (msgPayload (.evrec p)) (msgTail (.evrec p)) = some (.evrec p) := by
  have hhigh : msgPayload (.evrec p) = p.record.toNat / 2 ^ 96 := by
    have hlt : p.record.toNat / 2 ^ 96 < 2 ^ 416 := by have := p.record.isLt; omega
    simp only [msgPayload, msgFields, packFields, BitVec.toNat_ushiftRight, Nat.shiftRight_eq_div_pow, Nat.mod_eq_of_lt hlt,
      Nat.pow_zero, Nat.mul_one, Nat.add_zero, Nat.sub_self]
  have hlow : bytesToNat (padTo 12 (msgTail (.evrec p))) = p.record.toNat % 2 ^ 96 := by
    rw [msgTail, padTo_of_length (length_natToBytes _ _), bytesToNat_natToBytes]
    omega
  have hrecord : p.record.toNat / 2 ^ 96 * 2 ^ 96 + p.record.toNat % 2 ^ 96 = p.record.toNat := by omega
  simp only [upMessage, msgTypeCode, hhigh, hlow, hrecord, BitVec.ofNat_toNat, BitVec.setWidth_eq]
  rfl

theorem ofNat_toNat_mod {w : Nat} (x : BitVec w) : BitVec.ofNat w (x.toNat % 2 ^ w) = x := by
  rw [Nat.mod_eq_of_lt x.isLt, BitVec.ofNat_toNat, BitVec.setWidth_eq]

/-- Settles O59: the fields of each message fit its 416 bits, so each is taken back, and an EVREC's record is its payload
    and its
continuation bytes. -/
theorem mirroredMessages : Obligations.MirroredMessages := by
  intro m hlo hhi
  have hread := takeFields_msgPayload m
  cases m
  case evrec p => exact upMessage_evrec p
  case arrive | contrib | partl | dgp | vmap | check | vrec =>
    simp only [msgFields, List.map_cons, List.map_nil] at hread
    specialize hread (by decide)
    simp only [upMessage, msgTypeCode, hread, ofNat_toNat_mod, Nat.pow_one, toNat_bool_mod_two_beq]
    rfl
  all_goals simp [msgTypeCode] at hlo hhi

/-! ## Actions and credits (R422, R457) -/

theorem encodeAct_length (a : Act) : (encodeAct a).length = 16 + a.2.2.length := by
  simp [encodeAct, bvBytes]; omega

/-- A number laid out between other bytes is read back from its place. -/
theorem bytesAt_natToBytes (pre post : List (BitVec 8)) (k n : Nat) :
    bytesAt (pre ++ natToBytes k n ++ post) pre.length k = n % 256 ^ k := by
  simp [bytesAt, padTo]

theorem parseActs_cons (a : Act) (rest : List (BitVec 8)) (fuel : Nat) (hcode : a.1 < 65536)
    (hwhole : a.2.2.length % 8 = 0) (hlen : a.2.2.length < 2 ^ 32) :
    parseActs (fuel + 1) (encodeAct a ++ rest) = (parseActs fuel rest).map (a :: ·) := by
  obtain ⟨code, target, payload⟩ := a
  have h0 : bytesAt (encodeAct (code, target, payload) ++ rest) 0 2 = code := by
    have := bytesAt_natToBytes [] ([0, 0] ++ natToBytes 4 payload.length ++ bvBytes 8 target ++ payload ++ rest) 2 code
    simpa [encodeAct, Nat.mod_eq_of_lt hcode] using this
  have h4 : bytesAt (encodeAct (code, target, payload) ++ rest) 4 4 = payload.length := by
    have := bytesAt_natToBytes (natToBytes 2 code ++ [0, 0]) (bvBytes 8 target ++ payload ++ rest) 4 payload.length
    rw [Nat.mod_eq_of_lt (by omega)] at this
    simpa [encodeAct] using this
  have h8 : BitVec.ofNat 64 (bytesAt (encodeAct (code, target, payload) ++ rest) 8 8) = target := by
    have := bytesAt_natToBytes (natToBytes 2 code ++ [0, 0] ++ natToBytes 4 payload.length) (payload ++ rest) 8 target.toNat
    rw [Nat.mod_eq_of_lt (by have := target.isLt; omega)] at this
    have h8 : bytesAt (encodeAct (code, target, payload) ++ rest) 8 8 = target.toNat := by
      simpa [encodeAct, bvBytes] using this
    rw [h8, BitVec.ofNat_toNat, BitVec.setWidth_eq]
  have hl := encodeAct_length (code, target, payload)
  have hne : (encodeAct (code, target, payload) ++ rest).isEmpty = false := by simp [encodeAct, natToBytes]
  have hp : ((encodeAct (code, target, payload) ++ rest).drop 16).take payload.length = payload := by
    have h16 : (natToBytes 2 code ++ [0, 0] ++ natToBytes 4 payload.length ++ bvBytes 8 target).length = 16 := by
      simp [bvBytes]
    rw [encodeAct, List.append_assoc _ payload, List.drop_left' h16, List.take_left]
  have hd : (encodeAct (code, target, payload) ++ rest).drop (16 + payload.length) = rest := by
    rw [← hl, List.drop_left]
  simp only [parseActs, hne, h0, h4, h8, hp, hd, hwhole, List.length_append, hl]
  simp [show ¬ 16 + payload.length + rest.length < 16 + payload.length by omega]

theorem parseActs_encodeAct (as : List Act)
    (h : ∀ a ∈ as, a.1 < 65536 ∧ a.2.2.length % 8 = 0 ∧ a.2.2.length < 2 ^ 32) (fuel : Nat)
    (hfuel : (as.flatMap encodeAct).length ≤ fuel) : parseActs fuel (as.flatMap encodeAct) = some as := by
  induction as generalizing fuel with
  | nil => cases fuel <;> rfl
  | cons a as ih =>
    obtain ⟨hcode, hwhole, hlen⟩ := h a List.mem_cons_self
    have htail := ih fun x hx => h x (List.mem_cons_of_mem _ hx)
    rw [List.flatMap_cons] at hfuel ⊢
    generalize as.flatMap encodeAct = rest at hfuel htail ⊢
    rw [List.length_append, encodeAct_length] at hfuel
    obtain ⟨fuel, rfl⟩ : ∃ k, fuel = k + 1 := ⟨fuel - 1, by omega⟩
    have hrest := htail fuel (by omega)
    rw [parseActs_cons a rest fuel hcode hwhole hlen, hrest]
    rfl

/-- Six fields of 12 bits, written out. -/
theorem packFields_credits (a b c d e f : Nat) :
    (packFields ([a, b, c, d, e, f].map fun n => (12, n))).1 = a % 4096 * 2 ^ 60 + b % 4096 * 2 ^ 48 + c % 4096 * 2 ^ 36 +
      d % 4096 * 2 ^ 24 + e % 4096 * 2 ^ 12 + f % 4096 := by
  simp only [List.map_cons, List.map_nil, packFields]
  omega

theorem toNat_credField (a b c d e f : Nat) :
    (credField [a, b, c, d, e, f]).toNat = a % 4096 * 2 ^ 60 + b % 4096 * 2 ^ 48 + c % 4096 * 2 ^ 36 +
      d % 4096 * 2 ^ 24 + e % 4096 * 2 ^ 12 + f % 4096 := by
  rw [credField, packFields_credits, BitVec.toNat_ofNat, Nat.mod_eq_of_lt]
  omega

theorem credList_eq (c : BitVec 72) : credList c = [c.toNat / 2 ^ 60 % 4096, c.toNat / 2 ^ 48 % 4096,
    c.toNat / 2 ^ 36 % 4096, c.toNat / 2 ^ 24 % 4096, c.toNat / 2 ^ 12 % 4096, c.toNat % 4096] := by
  simp [credList, Nat.shiftRight_eq_div_pow]

theorem credList_credField (c : List Nat) (hlen : c.length = 6) (hlt : ∀ n ∈ c, n < 4096) : credList (credField c) = c := by
  match c, hlen with
  | [a, b, c, d, e, f], _ =>
    simp only [List.forall_mem_cons, List.not_mem_nil, false_imp_iff, implies_true, and_true] at hlt
    rw [credList_eq, toNat_credField]
    simp only [List.cons.injEq, and_true]
    omega

theorem credField_credList (c : BitVec 72) : credField (credList c) = c := by
  apply BitVec.eq_of_toNat_eq
  have hc : c.toNat < 2 ^ 72 := c.isLt
  rw [credList_eq, toNat_credField]
  omega

/-- Settles O60: action after action for the body, field after field for the credits. -/
theorem actionsAndCredits : Obligations.ActionsAndCredits :=
  ⟨fun as h => parseActs_encodeAct as h _ (Nat.le_refl _), credList_credField, credField_credList⟩

/-! ## Ticks on the wire (R62 to R64) -/

theorem setWidth_extendWire {n : Nat} {x : BitVec n} {now t : BitVec 64} (hn : n ≤ 64) (h : extendWire x now = some t) :
    t.setWidth n = x := by
  unfold extendWire at h
  dsimp only at h
  split at h
  · cases h
  · cases h
    have hint : BitVec.ofInt n ((now.toNat : Int) + signedDiff x (now.setWidth n)) = x := by
      rw [BitVec.ofInt_add, signedDiff, BitVec.ofInt_toInt]
      have : BitVec.ofInt n (now.toNat : Int) = now.setWidth n := by
        apply BitVec.eq_of_toNat_eq
        simp
      rw [this, BitVec.add_comm, BitVec.sub_add_cancel]
    obtain ⟨k, hk⟩ := Int.eq_ofNat_of_zero_le (Int.not_lt.1 ‹_›)
    rw [hk] at hint ⊢
    rw [← hint]
    apply BitVec.eq_of_toNat_eq
    simp [Nat.mod_mod_of_dvd _ (Nat.pow_dvd_pow 2 hn)]

theorem tickTest_eq_inWindow {target now : Tick} (h : tickTest target now = .inWindow) :
    now.toNat ≤ target.toNat ∧ target.toNat ≤ now.toNat + 2000000000 := by
  unfold tickTest at h
  split at h
  · cases h
  · split at h
    · omega
    · cases h

theorem schedTest_eq (s : State) (p : Part) (target : Tick) : schedTest s p target =
    if s.valid p = false then (false, countNotValid s p)
    else if target.toNat < (s.now p).toNat then (false, countPast s p)
    else if target.toNat ≤ (s.now p).toNat + 2000000000 then (true, s)
    else (false, countTooFar s p) := by
  unfold schedTest tickTest
  cases s.valid p
  · rfl
  · simp only [Bool.not_true, Bool.false_eq_true, if_false, Bool.true_eq_false, Nat.sub_le_iff_le_add']
    by_cases hpast : target.toNat < (s.now p).toNat
    · simp only [if_pos hpast]
    · by_cases hwin : target.toNat ≤ (s.now p).toNat + 2000000000
      · simp only [if_neg hpast, if_pos hwin]
      · simp only [if_neg hpast, if_neg hwin]

/-- A wire tick is accepted only as the tick that it extends to, in the window. -/
theorem schedWire_eq_some {s u : State} {p : Part} {w : BitVec 32} {t : Tick} (h : schedWire s p w = (some t, u)) :
    u = s ∧ s.valid p = true ∧ extendWire w (s.now p) = some t ∧ tickTest t (s.now p) = .inWindow := by
  unfold schedWire at h
  split at h
  case isTrue => cases h
  case isFalse hvalid =>
    split at h
    case h_1 => cases h
    case h_2 t' hext =>
      split at h
      case h_1 hwin =>
        cases h
        exact ⟨rfl, by simpa using hvalid, hext, hwin⟩
      case h_2 => cases h
      case h_3 => cases h

/-- Settles O58. -/
theorem scheduledTicks : Obligations.ScheduledTicks := by
  refine ⟨fun n a b _ => ⟨BitVec.le_toInt _, BitVec.toInt_lt, BitVec.ofInt_toInt⟩, fun _ _ _ _ => setWidth_extendWire,
    schedTest_eq, fun s u p w t h => ?_⟩
  obtain ⟨hu, hvalid, hext, hwin⟩ := schedWire_eq_some h
  exact ⟨hu, hvalid, setWidth_extendWire (by decide) hext, tickTest_eq_inWindow hwin⟩

/-! ## The step, and the state after reset -/

/-- Settles O45: `step` takes the command from the front of the queue. -/
theorem stepRunsTheFrontCommand : Obligations.StepRunsTheFrontCommand := fun _ _ => rfl

/-- Settles O46: with no command `step` answers its own state. -/
theorem anEmptyQueueIdles : Obligations.AnEmptyQueueIdles := fun s h => by simp only [step, h]

theorem hdr_of_empty {s : State} {p : Part} (h : (s.sh p).hdr = []) (g : Page) : s.hdr p g = {} := by
  unfold State.hdr
  split
  · rw [h]; rfl
  · rfl

/-- Settles O49: every queue and header table is empty after reset. -/
theorem invariantsHoldAtReset : Obligations.InvariantsHoldAtReset := by
  refine ⟨?_, ?_, ?_⟩
  · refine ⟨⟨?_, ?_, ?_, ?_, ?_, ?_, rfl⟩, ?_, ?_, ?_, rfl⟩ <;> exact Nat.zero_le _
  · intro p; cases p <;> decide
  · intro p g
    have hempty : (State.reset.sh p).hdr = [] := by cases p <;> rfl
    rw [hdr_of_empty hempty]
    exact ⟨BitVec.zero_and, BitVec.zero_and⟩

/-- Settles O48: each register of the list is read from the state after reset. -/
theorem resetRegisterValues : Obligations.ResetRegisterValues := by
  unfold Obligations.ResetRegisterValues
  decide +kernel

end Sys2Proof.Machine
end

section
/-! What every operation keeps, from any state on: the queue of commands, what is never taken back, and each of the
    invariants of
Safety.lean that the state had. `Kept` speaks of states that have them all; `Safe` asks for none of them. -/

namespace Sys2Proof.Machine

theorem pagesOf_hub_emu : ∀ i : BitVec 2, (pagesOf .hub)[7 + i.toNat]? = some (.emu i) := by decide
theorem pagesOf_hub_memc : ∀ i : BitVec 6, (pagesOf .hub)[26 + i.toNat]? = some (.memc i) := by decide +kernel
theorem pagesOf_hub_link : ∀ i : BitVec 7, i.toNat < 72 → (pagesOf .hub)[90 + i.toNat]? = some (.link i) := by decide +kernel
theorem pagesOf_hub_phy : ∀ i : BitVec 7, i.toNat < 72 → (pagesOf .hub)[162 + i.toNat]? = some (.phy i) := by decide +kernel
theorem pagesOf_tsu_emu : ∀ i : BitVec 2, i.toNat < 2 → (pagesOf .tsu)[5 + i.toNat]? = some (.emu i) := by decide
theorem pagesOf_tsu_link : ∀ i : BitVec 7, i.toNat < 2 → (pagesOf .tsu)[7 + i.toNat]? = some (.link i) := by decide +kernel
theorem pagesOf_tsu_phy : ∀ i : BitVec 7, i.toNat < 2 → (pagesOf .tsu)[9 + i.toNat]? = some (.phy i) := by decide +kernel

/-- `pagesOf` lists each page of a part at its ordinal (R513, R514). -/
theorem pagesOf_ordinal {p : Part} {g : Page} {k : Nat} (h : g.ordinal p = some k) : (pagesOf p)[k]? = some g := by
  cases p <;> cases g <;> simp only [Page.ordinal, if_true, reduceCtorEq, if_false, Option.some.injEq] at h
  case hub.emu i => exact h ▸ pagesOf_hub_emu i
  case hub.memc i => exact h ▸ pagesOf_hub_memc i
  all_goals try split at h
  all_goals first
    | (subst h; rfl) | cases h
  · exact pagesOf_hub_link _ ‹_›
  · exact pagesOf_hub_phy _ ‹_›
  · exact pagesOf_tsu_emu _ ‹_›
  · exact pagesOf_tsu_link _ ‹_›
  · exact pagesOf_tsu_phy _ ‹_›

/-- Each page of a part has its own ordinal. -/
theorem Page.ordinal_inj {p : Part} {g g' : Page} {k : Nat} (h : g.ordinal p = some k) (h' : g'.ordinal p = some k) :
    g = g' := Option.some.inj ((pagesOf_ordinal h).symm.trans (pagesOf_ordinal h'))

/-- From `b` to `s` the queue of commands stays, nothing is taken back that never is, and each invariant that held still
    does. -/
structure Safe (b s : State) : Prop where
  pending : s.pending = b.pending
  once : Once b.hub s.hub
  time : TimeConsistent b → TimeConsistent s
  bounds : Bounded b → Bounded s
  causes : CausesNamed b → CausesNamed s

variable {b s : State}

theorem Once.refl (h : Hub) : Once h h := ⟨Nat.le_refl _, fun _ hk => hk, fun _ hu => hu⟩

theorem Once.of_eq {x y : Hub} (hmin : y.fw.fwSlotsMinSec = x.fw.fwSlotsMinSec)
    (hrev : y.fw.fwSlotsRevoked = x.fw.fwSlotsRevoked) (hunits : y.units = x.units) : Once x y :=
  (Once.refl x).of_fields hmin hrev hunits

theorem Safe.refl (s : State) : Safe s s := ⟨rfl, .refl _, id, id, id⟩

theorem Safe.trans {t : State} (h : Safe b s) (k : Safe s t) : Safe b t :=
  ⟨k.pending.trans h.pending, h.once.trans k.once, k.time ∘ h.time, k.bounds ∘ h.bounds, k.causes ∘ h.causes⟩

theorem timeConsistent_iff : TimeConsistent s ↔ ShOk s.hub.sh ∧ ShOk s.tsu.sh :=
  ⟨fun h => ⟨h .hub, h .tsu⟩, fun ⟨hhub, htsu⟩ p => match p with | .hub => hhub | .tsu => htsu⟩

/-! ## Page headers: the causes that a chapter names (R505) -/

/-- A page's header shows and enables only causes that the page's chapter names. -/
def PageHdr.Named (g : Page) (x : PageHdr) : Prop :=
  x.pageIntStatus &&& ~~~causesOf g = 0 ∧ x.pageIntEnable &&& ~~~causesOf g = 0

/-- The causes named stay when both parts keep their header tables. -/
theorem CausesNamed.of_hdr {t : State} (h : CausesNamed s) (hh : ∀ p, (t.sh p).hdr = (s.sh p).hdr) : CausesNamed t := by
  intro p g
  have he : t.hdr p g = s.hdr p g := by simp only [State.hdr, hh]
  rw [he]
  exact h p g

/-! ## The parts of the state -/

theorem TsuBounded.modSh (h : TsuBounded s.tsu) (p : Part) (f : Shared → Shared) : TsuBounded (modSh s p f).tsu := by
  cases p <;> exact h

theorem HubBounded.modSh (h : HubBounded s.hub) (p : Part) (f : Shared → Shared) : HubBounded (modSh s p f).hub := by
  cases p <;> exact h

theorem modSh_once (s : State) (p : Part) (f : Shared → Shared) : Once s.hub (modSh s p f).hub := by
  cases p <;> exact .of_eq rfl rfl rfl

theorem TimeConsistent.modSh (h : TimeConsistent s) {p : Part} {f : Shared → Shared} (hf : ShOk (f (s.sh p))) :
    TimeConsistent (modSh s p f) := by
  rw [timeConsistent_iff] at *
  cases p
  · exact ⟨hf, h.2⟩
  · exact ⟨h.1, hf⟩

/-- A change of a part's shared blocks other than its headers. -/
theorem modSh_of_safe (h : Safe b s) (p : Part) (f : Shared → Shared)
    (ht : ShOk (s.sh p) → ShOk (f (s.sh p))) (hc : (f (s.sh p)).hdr = (s.sh p).hdr) : Safe b (modSh s p f) where
  pending := (modSh_pending s p f).trans h.pending
  once := h.once.trans (modSh_once s p f)
  time hb := (h.time hb).modSh (ht (h.time hb p))
  bounds hb := ⟨(h.bounds hb).1.modSh p f, (h.bounds hb).2.modSh p f⟩
  causes hb := (h.causes hb).of_hdr fun q => by
    by_cases hq : q = p
    · subst hq
      rw [modSh_sh, hc]
    · rw [modSh_sh_ne hq]

/-- VALID, HOLDOVER and the servo's state alone decide whether they are consistent (R53, R126). -/
theorem ShOk.of_eq {x y : Shared} (h : ShOk x) (hv : y.tb.regs.statusValid = x.tb.regs.statusValid)
    (hh : y.tb.regs.statusHoldover = x.tb.regs.statusHoldover)
    (hst : y.servo.regs.servoStatusState = x.servo.regs.servoStatusState) : ShOk y := by
  unfold ShOk
  rw [hv, hh, hst]
  exact h

/-- A change of a part's shared blocks that leaves VALID, HOLDOVER, the servo's state and the page headers. -/
theorem modSh_safe (h : Safe b s) (p : Part) (f : Shared → Shared)
    (e : ((f (s.sh p)).tb.regs.statusValid, (f (s.sh p)).tb.regs.statusHoldover, (f (s.sh p)).servo.regs.servoStatusState,
        (f (s.sh p)).hdr) =
      ((s.sh p).tb.regs.statusValid, (s.sh p).tb.regs.statusHoldover, (s.sh p).servo.regs.servoStatusState, (s.sh p).hdr)) :
    Safe b (modSh s p f) := by
  simp only [Prod.mk.injEq] at e
  obtain ⟨hv, hh, hst, hhdr⟩ := e
  exact modSh_of_safe h p f (fun ht => ht.of_eq hv hh hst) hhdr

/-- A change of a page's header under which its causes stay named. -/
theorem modHdr_safe (h : Safe b s) (p : Part) (g : Page) (f : PageHdr → PageHdr)
    (hf : (s.hdr p g).Named g → (f (s.hdr p g)).Named g) : Safe b (modHdr s p g f) := by
  unfold modHdr
  split
  · next k hk =>
    refine ⟨(modSh_pending ..).trans h.pending, h.once.trans (modSh_once ..), fun hb => (h.time hb).modSh (h.time hb p),
      fun hb => ⟨(h.bounds hb).1.modSh .., (h.bounds hb).2.modSh ..⟩, fun hb q g' => ?_⟩
    by_cases hq : q = p
    · subst hq
      by_cases hg : g' = g
      · subst hg
        have he : (modSh s q fun x => { x with hdr := tmod {} x.hdr k f }).hdr q g' = f (s.hdr q g') := by
          simp [State.hdr, hk]
        rw [he]
        exact hf (h.causes hb q g')
      · have he : (modSh s q fun x => { x with hdr := tmod {} x.hdr k f }).hdr q g' = s.hdr q g' := by
          unfold State.hdr
          split
          · next k' hk' =>
            have hne : k ≠ k' := fun e => hg (Page.ordinal_inj hk' (e ▸ hk))
            rw [modSh_sh, tget_tmod_ne f hne]
          · rfl
        rw [he]
        exact h.causes hb q g'
    · have he : (modSh s p fun x => { x with hdr := tmod {} x.hdr k f }).hdr q g' = s.hdr q g' := by
        simp only [State.hdr, modSh_sh_ne hq]
      rw [he]
      exact h.causes hb q g'
  · exact h

theorem refuse_safe (h : Safe b s) (p : Part) (g : Page) : Safe b (refuse s p g) := modHdr_safe h p g _ fun hn => hn

theorem PageHdr.Named.setCause {g : Page} {x : PageHdr} (h : x.Named g) {k : Nat} (hk : (causesOf g).getLsbD k = true) :
    PageHdr.Named g { x with pageIntStatus := setBit x.pageIntStatus k true } := by
  refine ⟨BitVec.eq_of_getLsbD_eq fun i hi => ?_, h.2⟩
  by_cases hik : k = i
  · subst hik
    simp [hk]
  · have hbit : (x.pageIntStatus &&& ~~~causesOf g).getLsbD i = (0#64).getLsbD i := congrArg (·.getLsbD i) h.1
    rw [BitVec.getLsbD_and] at hbit ⊢
    rw [getLsbD_setBit_ne _ _ _ _ hik]
    exact hbit

/-- A cause that the page's chapter names is set. -/
theorem setCause_safe (h : Safe b s) (p : Part) (g : Page) (k : Nat)
    (hk : (causesOf g).getLsbD k = true) : Safe b (setCause s p g k) :=
  modHdr_safe h p g _ fun hn => hn.setCause hk

/-- A change of the hub that leaves its page headers. -/
theorem modHub_sh_safe (h : Safe b s) (f : Hub → Hub) (hb : HubBounded s.hub → HubBounded (f s.hub))
    (ho : Once s.hub (f s.hub)) (ht : ShOk s.hub.sh → ShOk (f s.hub).sh) (hc : (f s.hub).sh.hdr = s.hub.sh.hdr) :
    Safe b (modHub s f) where
  pending := h.pending
  once := h.once.trans ho
  time hT := timeConsistent_iff.2 ⟨ht (h.time hT .hub), h.time hT .tsu⟩
  bounds hB := ⟨(h.bounds hB).1, hb (h.bounds hB).2⟩
  causes hC := (h.causes hC).of_hdr fun p => match p with | .hub => hc | .tsu => rfl

/-- A change of the hub outside its shared blocks. -/
theorem modHub_of_safe (h : Safe b s) (f : Hub → Hub) (hb : HubBounded s.hub → HubBounded (f s.hub))
    (ho : Once s.hub (f s.hub)) (hs : (f s.hub).sh = s.hub.sh) : Safe b (modHub s f) :=
  modHub_sh_safe h f hb ho (fun ht => (congrArg ShOk hs).mpr ht) (congrArg Shared.hdr hs)

/-- A change of the hub that leaves its bounded queues, its fuses, its units and its shared blocks. -/
theorem modHub_safe (h : Safe b s) (f : Hub → Hub)
    (e : ((f s.hub).hq, (f s.hub).queue, (f s.hub).body, (f s.hub).bar2, (f s.hub).fw.fwSlotsMinSec,
        (f s.hub).fw.fwSlotsRevoked, (f s.hub).units, (f s.hub).sh) =
      (s.hub.hq, s.hub.queue, s.hub.body, s.hub.bar2, s.hub.fw.fwSlotsMinSec, s.hub.fw.fwSlotsRevoked, s.hub.units,
        s.hub.sh)) : Safe b (modHub s f) := by
  simp only [Prod.mk.injEq] at e
  obtain ⟨hhq, hqueue, hbody, hbar2, hmin, hrev, hunits, hsh⟩ := e
  refine modHub_of_safe h f (fun hb => ?_) (.of_eq hmin hrev hunits) hsh
  unfold HubBounded
  rw [hhq, hqueue, hbody, hbar2]
  exact hb

/-- A change of the TSU that leaves its page headers. -/
theorem modTsu_sh_safe (h : Safe b s) (f : Tsu → Tsu) (hb : TsuBounded s.tsu → TsuBounded (f s.tsu))
    (ht : ShOk s.tsu.sh → ShOk (f s.tsu).sh) (hc : (f s.tsu).sh.hdr = s.tsu.sh.hdr) : Safe b (modTsu s f) where
  pending := h.pending
  once := h.once
  time hT := timeConsistent_iff.2 ⟨h.time hT .hub, ht (h.time hT .tsu)⟩
  bounds hB := ⟨hb (h.bounds hB).1, (h.bounds hB).2⟩
  causes hC := (h.causes hC).of_hdr fun p => match p with | .hub => rfl | .tsu => hc

/-- A change of the TSU outside its shared blocks. -/
theorem modTsu_of_safe (h : Safe b s) (f : Tsu → Tsu) (hb : TsuBounded s.tsu → TsuBounded (f s.tsu))
    (hs : (f s.tsu).sh = s.tsu.sh) : Safe b (modTsu s f) :=
  modTsu_sh_safe h f hb (fun ht => (congrArg ShOk hs).mpr ht) (congrArg Shared.hdr hs)

/-- A change of the TSU that leaves its bounded queues and its shared blocks. -/
theorem modTsu_safe (h : Safe b s) (f : Tsu → Tsu)
    (e : ((f s.tsu).hp, (f s.tsu).sends, (f s.tsu).rq, (f s.tsu).evq, (f s.tsu).up.unacked, (f s.tsu).pend, (f s.tsu).xbuf,
        (f s.tsu).sh) =
      (s.tsu.hp, s.tsu.sends, s.tsu.rq, s.tsu.evq, s.tsu.up.unacked, s.tsu.pend, s.tsu.xbuf, s.tsu.sh)) :
    Safe b (modTsu s f) := by
  simp only [Prod.mk.injEq] at e
  obtain ⟨hhp, hsends, hrq, hevq, hup, hpend, hxbuf, hsh⟩ := e
  refine modTsu_of_safe h f (fun hb => ?_) hsh
  unfold TsuBounded
  rw [hhp, hsends, hrq, hevq, hup, hpend, hxbuf]
  exact hb

theorem PageHdr.Named.reset (g : Page) : PageHdr.Named g {} := ⟨BitVec.zero_and, BitVec.zero_and⟩

/-- A TSU begins again (R164). -/
theorem resetTsu_safe (h : Safe b s) {t : Tsu} (hb : TsuBounded t) (ht : ShOk t.sh) (hc : t.sh.hdr = []) :
    Safe b { s with tsu := t } where
  pending := h.pending
  once := h.once
  time hT := timeConsistent_iff.2 ⟨h.time hT .hub, ht⟩
  bounds hB := ⟨hb, (h.bounds hB).2⟩
  causes hC p g := by
    cases p
    case hub => exact h.causes hC .hub g
    show PageHdr.Named g (State.hdr { s with tsu := t } .tsu g)
    unfold State.hdr
    split
    · rw [show (State.sh { s with tsu := t } .tsu).hdr = [] from hc]
      exact .reset g
    · exact .reset g

theorem emit_safe (h : Safe b s) (o : Out) : Safe b (emit s o) := ⟨h.pending, h.once, h.time, h.bounds, h.causes⟩

theorem fresh_safe (h : Safe b s) : Safe b s.fresh.2 := ⟨h.pending, h.once, h.time, h.bounds, h.causes⟩

/-! ## Choices and repetitions -/

theorem ite_safe {x y : State} {c : Prop} [Decidable c] (hx : Safe b x) (hy : Safe b y) : Safe b (if c then x else y) := by
  split <;> assumption

theorem snd_ite_safe {α : Type} {x y : α × State} {c : Prop} [Decidable c] (hx : Safe b x.2) (hy : Safe b y.2) :
    Safe b (if c then x else y).2 := by
  split <;> assumption

theorem fst_ite_safe {α : Type} {x y : State × α} {c : Prop} [Decidable c] (hx : Safe b x.1) (hy : Safe b y.1) :
    Safe b (if c then x else y).1 := by
  split <;> assumption

theorem foldl_safe {α : Type} {f : State → α → State} (hf : ∀ s x, Safe b s → Safe b (f s x)) {l : List α} {s : State}
    (h : Safe b s) : Safe b (l.foldl f s) := by
  induction l generalizing s with
  | nil => exact h
  | cons x l ih => exact ih (hf s x h)

theorem snd_safe {α : Type} {r : α × State} {a : α} {t : State} (e : r = (a, t)) (h : Safe b r.2) : Safe b t := by
  rwa [e] at h

theorem fst_safe {α : Type} {r : State × α} {a : α} {t : State} (e : r = (t, a)) (h : Safe b r.1) : Safe b t := by
  rwa [e] at h

/-! ## Outcomes -/

/-- An instruction that answers a next state, neither refused nor a fault, and one that is safe. -/
inductive Runs (b : State) : Host.Outcome State Fault Refusal → Prop
  | next {s : State} (h : Safe b s) : Runs b (.next s)

theorem runs_next (h : Safe b s) : Runs b (.next s) := .next h

theorem Runs.exists_next {r : Host.Outcome State Fault Refusal} (h : Runs b r) : ∃ t, r = .next t ∧ Safe b t := by
  obtain ⟨h⟩ := h
  exact ⟨_, rfl, h⟩

theorem runs_ite {x y : Host.Outcome State Fault Refusal} {c : Prop} [Decidable c] (hx : Runs b x) (hy : Runs b y) :
    Runs b (if c then x else y) := by
  split <;> assumption

/-! ## Accesses that are answered, refused or of one part -/

theorem refused_safe (h : Safe b s) (p : Part) (g : Page) : Safe b (refused s p g).2 := refuse_safe h p g

theorem accept_safe (h : Safe b s) : Safe b (accept s).2 := h

theorem onPart_safe (h : Safe b s) {p : Part} {i : Iface} {f : State → Bool × State} (hf : ∀ s, Safe b s → Safe b (f s).2) :
    Safe b (onPart p i s f).2 := by
  unfold onPart
  split
  · exact hf s h
  · exact refused_safe h _ _

theorem onPartRead_safe (h : Safe b s) {p : Part} {i : Iface} {f : State → Word × State}
    (hf : ∀ s, Safe b s → Safe b (f s).2) : Safe b (onPartRead p i s f).2 := by
  unfold onPartRead
  split
  · exact hf s h
  · exact refuse_safe h _ _

theorem closedOr_runs (h : Safe b s) {c d : Prop} [Decidable c] [Decidable d] {x y : State} (hx : Safe b x) (hy : Safe b y) :
    Runs b (if c then .next s else if d then .next x else .next y) :=
  runs_ite (runs_next h) (runs_ite (runs_next hx) (runs_next hy))

theorem ackWrite_runs (h : Safe b s) {i : Iface} {r : Bool × State} (hr : Safe b r.2) : Runs b (ackWrite i s r) :=
  closedOr_runs h (emit_safe (refuse_safe h _ _) _) (emit_safe hr _)

theorem ackRead_runs (h : Safe b s) {i : Iface} {r : Word × State} (hr : Safe b r.2) : Runs b (ackRead i s r) :=
  closedOr_runs h (emit_safe h _) (emit_safe hr _)

theorem ackMod_runs (h : Safe b s) {i : Iface} {r : Bool × State} (hr : Safe b r.2) : Runs b (ackMod i s r) :=
  runs_ite (runs_next h) (runs_next (emit_safe hr _))

theorem ackFw_runs (h : Safe b s) {i : Iface} {r : Bool × State} (hr : Safe b r.2) : Runs b (ackFw i s r) :=
  closedOr_runs h (emit_safe (refuse_safe h _ _) _) (emit_safe hr _)

end Sys2Proof.Machine
end

section
/-! What the operations of Machine/Ops.lean keep. -/

namespace Sys2Proof.Machine

variable {b s : State}

theorem modTb_of_safe (h : Safe b s) (p f) (ht : ShOk (s.sh p) → ShOk { s.sh p with tb := f (s.sh p).tb }) :
    Safe b (modTb s p f) :=
  modSh_of_safe h _ _ ht rfl

theorem modTb_safe (h : Safe b s) (p f)
    (e : ((f (s.sh p).tb).regs.statusValid, (f (s.sh p).tb).regs.statusHoldover) =
      ((s.sh p).tb.regs.statusValid, (s.sh p).tb.regs.statusHoldover)) : Safe b (modTb s p f) := by
  simp only [Prod.mk.injEq] at e
  exact modTb_of_safe h p f fun ht => ht.of_eq e.1 e.2 rfl

theorem modTbRegs_of_safe (h : Safe b s) (p f)
    (ht : ShOk (s.sh p) → ShOk { s.sh p with tb := { (s.sh p).tb with regs := f (s.sh p).tb.regs } }) :
    Safe b (modTbRegs s p f) :=
  modTb_of_safe h p _ ht

theorem modTbRegs_safe (h : Safe b s) (p f)
    (e : ((f (s.sh p).tb.regs).statusValid, (f (s.sh p).tb.regs).statusHoldover) =
      ((s.sh p).tb.regs.statusValid, (s.sh p).tb.regs.statusHoldover)) : Safe b (modTbRegs s p f) :=
  modTb_safe h p _ e

theorem modServo_of_safe (h : Safe b s) (p f) (ht : ShOk (s.sh p) → ShOk { s.sh p with servo := f (s.sh p).servo }) :
    Safe b (modServo s p f) :=
  modSh_of_safe h _ _ ht rfl

theorem modServo_safe (h : Safe b s) (p f)
    (e : (f (s.sh p).servo).regs.servoStatusState = (s.sh p).servo.regs.servoStatusState) : Safe b (modServo s p f) :=
  modServo_of_safe h p f fun ht => ht.of_eq rfl rfl e

theorem modServoRegs_of_safe (h : Safe b s) (p f)
    (ht : ShOk (s.sh p) → ShOk { s.sh p with servo := { (s.sh p).servo with regs := f (s.sh p).servo.regs } }) :
    Safe b (modServoRegs s p f) :=
  modServo_of_safe h p _ ht

theorem modServoRegs_safe (h : Safe b s) (p f)
    (e : (f (s.sh p).servo.regs).servoStatusState = (s.sh p).servo.regs.servoStatusState) : Safe b (modServoRegs s p f) :=
  modServo_safe h p _ e

theorem modLink_safe (h : Safe b s) (l f) : Safe b (modLink s l f) := by
  unfold modLink
  repeat' first | (with_reducible first | intro _ | assumption) | refine modSh_safe ?_ _ _ rfl

theorem modLinkRegs_safe (h : Safe b s) (l f) : Safe b (modLinkRegs s l f) := by
  unfold modLinkRegs
  repeat' with_reducible first | intro _ | assumption | apply modLink_safe

theorem modPage_safe (h : Safe b s) (p i f) : Safe b (modPage s p i f) := by
  unfold modPage
  repeat' first | (with_reducible first | intro _ | assumption) | refine modSh_safe ?_ _ _ rfl

theorem modIface_safe (h : Safe b s) (i f) : Safe b (modIface s i f) := by
  unfold modIface
  repeat' first | (with_reducible first | intro _ | assumption) | refine modSh_safe ?_ _ _ rfl

theorem modIfaceRegs_safe (h : Safe b s) (i f) : Safe b (modIfaceRegs s i f) := by
  unfold modIfaceRegs
  repeat' with_reducible first | intro _ | assumption | apply modIface_safe

theorem modPoint_safe (h : Safe b s) (k f) : Safe b (modPoint s k f) := by
  unfold modPoint
  repeat' first | (with_reducible first | intro _ | assumption) | refine modSh_safe ?_ _ _ rfl

theorem modEmu_safe (h : Safe b s) (p e f) : Safe b (modEmu s p e f) := by
  unfold modEmu
  repeat' first | (with_reducible first | intro _ | assumption) | refine modSh_safe ?_ _ _ rfl

theorem modCluster_safe (h : Safe b s) (p c f) : Safe b (modCluster s p c f) := by
  unfold modCluster
  repeat' first | (with_reducible first | intro _ | assumption) | refine modSh_safe ?_ _ _ rfl

theorem countPast_safe (h : Safe b s) (p) : Safe b (countPast s p) := by
  unfold countPast
  repeat' first | (with_reducible first | intro _ | assumption) | refine modTbRegs_safe ?_ _ _ rfl

theorem countTooFar_safe (h : Safe b s) (p) : Safe b (countTooFar s p) := by
  unfold countTooFar
  repeat' first | (with_reducible first | intro _ | assumption) | refine modTbRegs_safe ?_ _ _ rfl

theorem countStepFar_safe (h : Safe b s) (p) : Safe b (countStepFar s p) := by
  unfold countStepFar
  repeat' first | (with_reducible first | intro _ | assumption) | refine modTbRegs_safe ?_ _ _ rfl

theorem countNotValid_safe (h : Safe b s) (p) : Safe b (countNotValid s p) := by
  unfold countNotValid
  repeat' first | (with_reducible first | intro _ | assumption) | refine modTbRegs_safe ?_ _ _ rfl

theorem countStepRefused_safe (h : Safe b s) (p w own) : Safe b (countStepRefused s p w own) := by
  unfold countStepRefused
  repeat' with_reducible first | intro _ | assumption | apply countPast_safe | apply countStepFar_safe | apply ite_safe

theorem emitFlit_safe (h : Safe b s) (l lseq dsn m) : Safe b (emitFlit s l lseq dsn m) := by
  unfold emitFlit
  repeat' with_reducible first | intro _ | assumption | apply emit_safe

theorem drainLink_safe (h : Safe b s) (l) : Safe b (drainLink s l) := by
  unfold drainLink
  exact foldl_safe (fun _ _ k => emitFlit_safe k _ _ _ _) (modLink_safe h _ _)

theorem sendLink_safe (h : Safe b s) (l dsn m) : Safe b (sendLink s l dsn m) := by
  unfold sendLink
  repeat' with_reducible first
      | intro _ | assumption | apply drainLink_safe | apply modLink_safe | apply refuse_safe | apply emitFlit_safe
      | apply ite_safe

theorem tsuSendUp_safe (h : Safe b s) (m) : Safe b (tsuSendUp s m) := by
  unfold tsuSendUp
  split
  case isTrue hroom =>
    refine sendLink_safe (modTsu_of_safe h _ ?_ rfl) _ _ _
    rintro ⟨hhp, hsends, hrq, hevq, hup, hrest⟩
    exact ⟨hhp, hsends, hrq, hevq, List.length_append ▸ hroom.1, hrest⟩
  case isFalse => exact modTsu_safe h _ rfl

theorem tsuSend_safe (h : Safe b s) (m) : Safe b (tsuSend s m) := by
  unfold tsuSend
  repeat' with_reducible first | intro _ | assumption | apply sendLink_safe

theorem ringWrite_safe (h : Safe b s) (r) : Safe b (ringWrite s r) := by
  unfold ringWrite
  repeat' first
      | (with_reducible first | intro _ | assumption) | refine modHub_safe ?_ _ rfl
      | refine setCause_safe ?_ _ _ _ (by simp [causesOf])

theorem evqPut_safe (h : Safe b s) (r) : Safe b (evqPut s r) := by
  unfold evqPut
  split
  case isTrue hroom =>
    refine setCause_safe (modTsu_of_safe h _ ?_ rfl) _ _ _ (by simp [causesOf])
    rintro ⟨hhp, hsends, hrq, hevq, hrest⟩
    exact ⟨hhp, hsends, hrq, List.length_append ▸ hroom, hrest⟩
  case isFalse => exact setCause_safe (modTsu_safe h _ rfl) _ _ _ (by simp [causesOf])

theorem formRecord_safe (h : Safe b s) (p e coalesced) : Safe b (formRecord s p e coalesced) := by
  unfold formRecord
  repeat' first
      | (with_reducible first | intro _ | assumption | apply ringWrite_safe | apply tsuSendUp_safe | apply evqPut_safe)
      | refine modSh_safe ?_ _ _ rfl | split

theorem raise_safe (h : Safe b s) (p e) : Safe b (raise s p e) := by
  unfold raise
  repeat' first
      | (with_reducible first | intro _ | assumption | apply formRecord_safe | apply ite_safe)
      | refine modSh_safe ?_ _ _ rfl

theorem raisePlain_safe (h : Safe b s) (p code sub sev fs) : Safe b (raisePlain s p code sub sev fs) := by
  unfold raisePlain
  repeat' with_reducible first | intro _ | assumption | apply raise_safe

theorem timeFault_safe (h : Safe b s) (p sub fs) : Safe b (timeFault s p sub fs) := by
  unfold timeFault
  repeat' with_reducible first | intro _ | assumption | apply raisePlain_safe

theorem answer_safe (h : Safe b s) (w err) : Safe b (answer s w err) := by
  unfold answer
  split
  · exact emit_safe h _
  · exact modTsu_of_safe h _ (fun ⟨hhp, hrest⟩ => ⟨by simpa using hhp, hrest⟩) rfl
  · exact sendLink_safe h _ _ _
  · exact h

theorem schedTest_safe (h : Safe b s) (p target) : Safe b (schedTest s p target).2 := by
  unfold schedTest
  repeat' first
      | (with_reducible first
          | intro _ | assumption | apply countNotValid_safe | apply countPast_safe | apply countTooFar_safe | apply ite_safe)
      | split

theorem schedWire_safe (h : Safe b s) (p w) : Safe b (schedWire s p w).2 := by
  unfold schedWire
  repeat' first
      | (with_reducible first
          | intro _ | assumption | apply countNotValid_safe | apply countPast_safe | apply countTooFar_safe | apply ite_safe)
      | split

theorem modSlot_safe (h : Safe b s) (k f) : Safe b (modSlot s k f) := by
  unfold modSlot
  repeat' first | (with_reducible first | intro _ | assumption) | refine modTsu_safe ?_ _ rfl

theorem modSlotRegs_safe (h : Safe b s) (k f) : Safe b (modSlotRegs s k f) := by
  unfold modSlotRegs
  repeat' with_reducible first | intro _ | assumption | apply modSlot_safe

theorem modTap_safe (h : Safe b s) (y f) : Safe b (modTap s y f) := by
  unfold modTap
  repeat' first | (with_reducible first | intro _ | assumption) | refine modTsu_safe ?_ _ rfl

theorem modTrig_safe (h : Safe b s) (n f) : Safe b (modTrig s n f) := by
  unfold modTrig
  repeat' first | (with_reducible first | intro _ | assumption) | refine modTsu_safe ?_ _ rfl

end Sys2Proof.Machine
end

section
/-! What the operations of Machine/Irq.lean keep. -/

namespace Sys2Proof.Machine

variable {b s : State}

theorem msixSend_safe (h : Safe b s) (v) : Safe b (msixSend s v) := by
  unfold msixSend
  repeat' first | (with_reducible first | intro _ | assumption | apply emit_safe) | refine modHub_safe ?_ _ rfl

theorem msixVector_safe (h : Safe b s) (vec v) : Safe b (msixVector vec s v) := by
  unfold msixVector
  repeat' first
      | (with_reducible first | intro _ | assumption | apply msixSend_safe | apply ite_safe) | refine modHub_safe ?_ _ rfl

theorem msixScan_safe (h : Safe b s) : Safe b (msixScan s) := by
  unfold msixScan
  repeat' with_reducible first | intro _ | assumption | apply msixVector_safe | apply foldl_safe

end Sys2Proof.Machine
end

section
/-! What the operations of Machine/Topology.lean keep. -/

namespace Sys2Proof.Machine

variable {b s : State}

theorem keepFlow_safe (h : Safe b s) (key l) : Safe b (keepFlow s key l) := by
  unfold keepFlow
  repeat' first | (with_reducible first | intro _ | assumption) | refine modHub_safe ?_ _ rfl

theorem noRoute_safe (h : Safe b s) : Safe b (noRoute s) := by
  unfold noRoute
  repeat' with_reducible first | intro _ | assumption | apply refuse_safe

theorem strand_safe (h : Safe b s) (l j dst m) : Safe b (strand s l j dst m) := by
  unfold strand
  repeat' first | (with_reducible first | intro _ | assumption) | refine modHub_safe ?_ _ rfl

theorem onRoute_safe (h : Safe b s) (k r none_ act) (hn : ∀ t, Safe b t → Safe b (none_ t))
    (ha : ∀ l t, Safe b t → Safe b (act l t)) : Safe b (onRoute s k r none_ act) := by
  cases r
  · exact hn s h
  · exact ha _ _ (keepFlow_safe h _ _)

theorem sendTwin_safe (h : Safe b s) (key m) : Safe b (sendTwin s key m) := by
  unfold sendTwin
  repeat' first
      | (with_reducible first | intro _ | assumption | apply sendLink_safe | apply onRoute_safe)
      | split | dsimp only | refine snd_safe (by assumption) ?_ | refine fst_safe (by assumption) ?_ | assumption

theorem mirror_safe (h : Safe b s) (job item key value) : Safe b (mirror s job item key value) := by
  unfold mirror
  repeat' with_reducible first | intro _ | assumption | apply sendTwin_safe

theorem returnCredit_safe (h : Safe b s) (l c n) : Safe b (returnCredit s l c n) := by
  unfold returnCredit
  repeat' first | (with_reducible first | intro _ | assumption | apply sendLink_safe) | split

theorem heardOn_safe (h : Safe b s) (l) : Safe b (heardOn s l) := by
  unfold heardOn
  repeat' with_reducible first | intro _ | assumption | apply modLink_safe

theorem taken_safe (h : Safe b s) (l m) : Safe b (taken s l m) := by
  unfold taken
  repeat' with_reducible first | intro _ | assumption | apply returnCredit_safe | apply heardOn_safe

theorem malformedFlit_safe (h : Safe b s) (l) : Safe b (malformedFlit s l) := by
  unfold malformedFlit
  repeat' with_reducible first | intro _ | assumption | apply refuse_safe | apply modLinkRegs_safe

theorem onMsg_safe (h :
    Safe b s) (l) (m) (act) (h3 : ∀ t, Safe b t → Safe b (act t)) :
    Safe b (onMsg s l m act) := by
  unfold onMsg
  repeat' with_reducible first | intro _ | assumption | apply ite_safe | apply h3 | apply taken_safe | apply malformedFlit_safe

theorem creditFull_safe (h : Safe b s) (p) : Safe b (creditFull s p) := by
  unfold creditFull
  repeat' with_reducible first | intro _ | assumption | apply sendLink_safe | apply foldl_safe

theorem updReady_safe (h : Safe b s) : Safe b (updReady s) := by
  unfold updReady
  repeat' first
      | (with_reducible first | intro _ | assumption | apply creditFull_safe | apply ite_safe)
      | refine modHub_safe ?_ _ rfl | refine setCause_safe ?_ _ _ _ (by simp [causesOf])

end Sys2Proof.Machine
end

section
/-! What the operations of Machine/Units.lean keep. -/

namespace Sys2Proof.Machine

variable {b s : State}

/-- A change of a unit that leaves a retired one retired. -/
theorem modUnit_safe (h : Safe b s) (u f)
    (hf : (s.unit u).unitState = 4 → (f (s.unit u)).unitState = 4) : Safe b (modUnit s u f) := by
  refine modHub_of_safe h _ (fun hb => hb) ⟨Nat.le_refl _, fun _ hk => hk, fun v hv => ?_⟩ rfl
  show ((modUnit s u f).unit v).unitState = 4
  rw [unit_modUnit]
  split
  case isTrue e =>
    subst e
    exact hf hv
  case isFalse => exact hv

theorem laneSpared_safe (h : Safe b s) (p sub u v) : Safe b (laneSpared s p sub u v) := by
  unfold laneSpared
  repeat' with_reducible first | intro _ | assumption | apply raisePlain_safe

theorem laneLeaves_safe (h : Safe b s) (u st) (hst : (s.unit u).unitState = 4 → st = 4) :
    Safe b (laneLeaves s u st) := by
  unfold laneLeaves
  split
  · exact modUnit_safe h _ _ hst
  · have hleft : ∀ v : BitVec 16, Safe b (modUnit s u fun r =>
        { r with unitState := st, unitStateShadowSteps := 0, unitStateStandin := v }) :=
      fun _ => modUnit_safe h _ _ hst
    split
    · next v e =>
      refine laneSpared_safe (modUnit_safe (hleft _) _ _ fun h4 => ?_) _ _ _ _
      have hv : ((s.unit v).unitState == 1) = true := List.find?_some (p := fun u => (s.unit u).unitState == 1) e
      rw [unit_modUnit] at h4 ⊢
      split at h4
      case isTrue e' =>
        subst e'
        rw [if_pos rfl]
        simp_all
      case isFalse => simp_all
    · exact setCause_safe (laneSpared_safe (hleft _) _ _ _ _) _ _ _ (by simp [causesOf])

theorem unitLeaves_safe (h : Safe b s) (u st) (hst : (s.unit u).unitState = 4 → st = 4) :
    Safe b (unitLeaves s u st) := by
  unfold unitLeaves
  have hleft : Safe b (modUnit s u fun r => { r with unitState := st, unitStateShadowSteps := 0 }) := modUnit_safe h _ _ hst
  split
  · exact laneLeaves_safe h _ _ hst
  · exact laneLeaves_safe h _ _ hst
  · exact ite_safe (laneLeaves_safe hleft _ _ fun _ => rfl) hleft
  · exact hleft

theorem queueHistory_safe (h : Safe b s) (u kind verdict) : Safe b (queueHistory s u kind verdict) := by
  unfold queueHistory
  repeat' first | (with_reducible first | intro _ | assumption | apply ite_safe) | refine modHub_safe ?_ _ rfl

theorem chargeAs_safe (h : Safe b s) (u kind verdict) : Safe b (chargeAs s u kind verdict) := by
  unfold chargeAs
  split
  · exact h
  · next hn =>
    have hserving : (s.unit u).unitState ≠ 4 := by simpa using hn
    refine ite_safe ?_ (queueHistory_safe (unitLeaves_safe h _ _ fun e => (hserving e).elim) _ _ _)
    exact setCause_safe (laneSpared_safe (queueHistory_safe (unitLeaves_safe h _ _ fun _ => rfl) _ _ _) _ _ _ _) _ _ _
        (by simp [causesOf])

theorem chargeUnit_safe (h : Safe b s) (u verdict) : Safe b (chargeUnit s u verdict) := by
  unfold chargeUnit
  repeat' with_reducible first | intro _ | assumption | apply chargeAs_safe

/-- A function of the units in SHADOW retires and restores none (R400). -/
theorem shadowStep_units_safe (h : Safe b s) (f : UnitRegs → UnitRegs) (hf : ∀ r : UnitRegs, r.unitState ≠ 3 → f r = r) :
    Safe b (modHub s fun h => { h with units := h.units.map fun e => (e.1, f e.2) }) := by
  refine modHub_of_safe h _ (fun hb => hb) ⟨Nat.le_refl _, fun _ hk => hk, fun u hu => ?_⟩ rfl
  have hd : f (unitReset u.toNat) = unitReset u.toNat := by
    apply hf
    unfold unitReset
    split <;> decide
  show (tget (unitReset u.toNat) (s.hub.units.map fun e => (e.1, f e.2)) u.toNat).unitState = 4
  rw [tget_map _ f hd, hf _ (by rw [hu]; decide)]
  exact hu

theorem shadowStep_safe (h : Safe b s) : Safe b (shadowStep s) := by
  unfold shadowStep
  have hunits := shadowStep_units_safe h (fun r => if r.unitState == 3 then
    { r with unitStateShadowSteps := if r.unitStateShadowSteps.toNat < 64 then r.unitStateShadowSteps + 1 else 64 } else r)
    (fun r hr => if_neg (by simpa using hr))
  refine ite_safe (ite_safe ?_ (laneSpared_safe ?_ _ _ _ _)) hunits
  · exact modHub_safe hunits _ rfl
  · exact modHub_safe hunits _ rfl

end Sys2Proof.Machine
end

section
/-! What the operations of Machine/Time.lean keep. -/

namespace Sys2Proof.Machine

variable {b s : State}

theorem stepTick_safe (h : Safe b s) (p du) : Safe b (stepTick s p du) := by
  unfold stepTick
  repeat' first | (with_reducible first | intro _ | assumption) | refine modTb_safe ?_ _ _ rfl

theorem ShOk.invalid {x : Shared} (hst : x.servo.regs.servoStatusState.toNat ≤ 4)
    (hv : x.tb.regs.statusValid = false) (hh : x.tb.regs.statusHoldover = false) : ShOk x :=
  ⟨fun e => absurd (e.symm.trans hv) (by decide), fun e => absurd (e.symm.trans hh) (by decide), hst⟩

theorem ShOk.locked {x : Shared} (hst : x.servo.regs.servoStatusState = 2) (hv : x.tb.regs.statusValid = true)
    (hh : x.tb.regs.statusHoldover = false) : ShOk x :=
  ⟨fun _ => .inl ⟨hst, hh⟩, fun _ => hv, by rw [hst]; decide⟩

theorem ShOk.holdover {x : Shared} (hst : x.servo.regs.servoStatusState = 3) (hv : x.tb.regs.statusValid = true)
    (hh : x.tb.regs.statusHoldover = true) : ShOk x :=
  ⟨fun _ => .inr ⟨hst, hh⟩, fun _ => hv, by rw [hst]; decide⟩

/-- Two changes of a part's shared blocks, whatever the state between them holds of VALID and of the servo. -/
theorem modSh_modSh_safe (h : Safe b s) (p : Part) (g f : Shared → Shared)
    (ht : ShOk (s.sh p) → ShOk (f (g (s.sh p))))
    (hc : (f (g (s.sh p))).hdr = (s.sh p).hdr) : Safe b (modSh (modSh s p g) p f) := by
  have he : modSh (modSh s p g) p f = modSh s p fun x => f (g x) := by cases p <;> rfl
  rw [he]
  exact modSh_of_safe h p _ ht hc

theorem clearValid_of_cleared (p : Part) (h : Safe b (modTb s p fun t => { t with
      regs := { t.regs with statusValid := false, statusHoldover := false }, resolve := true })) :
    Safe b (clearValid s p) := by
  unfold clearValid
  have hcause := ite_safe (c := s.valid p = true) (setCause_safe h p .servo 2 (by simp [causesOf])) h
  cases p
  · exact updReady_safe (modHub_safe hcause _ rfl)
  · exact modTsu_safe hcause _ rfl

theorem clearValid_safe (h : Safe b s) (p) : Safe b (clearValid s p) :=
  clearValid_of_cleared p (modTb_of_safe h _ _ fun ⟨_, _, hstate⟩ => .invalid hstate rfl rfl)

/-- While VALID is 0 the servo may go to any of its states. -/
theorem modServo_invalid_safe (h : Safe b s) (p f) (hv : ShOk (s.sh p) → s.valid p = false)
    (hf : (f (s.sh p).servo).regs.servoStatusState.toNat ≤ 4) : Safe b (modServo s p f) := by
  refine modServo_of_safe h p f fun ht => ⟨fun e => ?_, ht.2.1, hf⟩
  exact absurd ((hv ht).symm.trans e) (by decide)
/-- A change of the servo that leaves its state. -/
theorem modServo_state_safe (h : Safe b s) (p) (f : Servo → Servo)
    (hf : ∀ v, (f v).regs.servoStatusState = v.regs.servoStatusState) : Safe b (modServo s p f) :=
  modServo_of_safe h p f fun ⟨hv, hh, hst⟩ => ⟨fun e => by rw [hf]; exact hv e, hh, by rw [hf]; exact hst⟩

theorem becomeValid_of_set (p d) (h : Safe b (modTb s p fun t => { t with
      regs := { t.regs with statusValid := true, statusHoldover := d } })) : Safe b (becomeValid s p d) := by
  cases p
  · exact updReady_safe h
  · exact ite_safe h (creditFull_safe h _)

theorem enterFree_safe (h : Safe b s) (p) : Safe b (enterFree s p) := by
  refine modTb_safe (clearValid_of_cleared p (modSh_modSh_safe h p _ _ (fun _ => ?_) rfl)) _ _ rfl
  exact .invalid (Nat.zero_le _) rfl rfl

theorem loseTime_safe (h : Safe b s) (p) : Safe b (loseTime s p) := by
  unfold loseTime
  repeat' with_reducible first | intro _ | assumption | apply clearValid_safe | apply enterFree_safe | apply ite_safe

theorem enterLocked_safe (h : Safe b s) (p) : Safe b (enterLocked s p) := by
  exact setCause_safe (becomeValid_of_set _ _ (modSh_modSh_safe h p _ _ (fun _ => .locked rfl rfl rfl) rfl)) _ _ _ (by
      simp [causesOf])

theorem setRate_safe (h : Safe b s) (p x) : Safe b (setRate s p x) := by
  unfold setRate
  repeat' first | (with_reducible first | intro _ | assumption) | refine modTbRegs_safe ?_ _ _ rfl

theorem enterHoldover_safe (h : Safe b s) (p) : Safe b (enterHoldover s p) := by
  exact setCause_safe (becomeValid_of_set _ _
    (modSh_modSh_safe (setRate_safe h p _) p _ _ (fun _ => .holdover rfl rfl rfl) rfl)) _ _ _ (by simp [causesOf])

theorem setFreqSat_safe (h : Safe b s) (p bs) : Safe b (setFreqSat s p bs) := by
  unfold setFreqSat
  repeat' first
      | (with_reducible first | intro _ | assumption | apply timeFault_safe | apply ite_safe)
      | refine modServoRegs_safe ?_ _ _ rfl

theorem piUpdate_safe (h : Safe b s) (p kp ki e theta) : Safe b (piUpdate s p kp ki e theta) := by
  unfold piUpdate
  repeat' first
      | (with_reducible first | intro _ | assumption | apply setFreqSat_safe | apply setRate_safe)
      | refine modServoRegs_safe ?_ _ _ rfl

theorem holdReturn_safe (h : Safe b s) (p gate theta) : Safe b (holdReturn s p gate theta) := by
  unfold holdReturn
  repeat' with_reducible first
      | intro _ | assumption | apply enterLocked_safe | apply stepTick_safe | apply enterFree_safe | apply ite_safe

/-- In FREE VALID is 0 (R126). -/
theorem invalid_of_free (p : Part) (hfree : (s.sh p).servo.regs.servoStatusState = 0) (ht : ShOk (s.sh p)) :
    s.valid p = false := by
  refine Bool.eq_false_iff.2 fun hv => ?_
  obtain ⟨hvalid, -⟩ := ht
  have hstate := hvalid hv
  rw [hfree] at hstate
  simp at hstate

theorem servoAcquire_safe (h : Safe b s) (p e kp ki theta) : Safe b (servoAcquire s p e kp ki theta) := by
  unfold servoAcquire
  dsimp only
  split
  case isTrue hfree =>
    refine ite_safe (modServo_invalid_safe (stepTick_safe h _ _) _ _ ?_ (by decide : (1#3).toNat ≤ 4)) h
    have hstate : ((stepTick s p (-theta)).sh p).servo.regs.servoStatusState = 0 := by
      cases p <;> exact beq_iff_eq.1 hfree
    exact invalid_of_free p hstate
  case isFalse =>
    repeat' first
        | (with_reducible assumption)
        | refine modServoRegs_safe ?_ _ _ rfl | apply stepTick_safe | refine modServo_safe ?_ _ _ rfl | apply setRate_safe
        | apply piUpdate_safe | apply enterLocked_safe | apply ite_safe | split

theorem servoSample_safe (h : Safe b s) (p e gate theta) : Safe b (servoSample s p e gate theta) := by
  unfold servoSample
  repeat' first
      | (with_reducible first
          | intro _ | assumption | apply servoAcquire_safe | apply piUpdate_safe | apply holdReturn_safe | apply ite_safe)
      | refine modServoRegs_safe ?_ _ _ rfl | split | dsimp only

theorem leadMove_safe (h : Safe b s) : Safe b (leadMove s).2 := by
  unfold leadMove
  repeat' first
      | (with_reducible first | intro _ | assumption | apply fresh_safe | apply ite_safe)
      | refine modServoRegs_safe ?_ _ _ rfl | refine setCause_safe ?_ _ _ _ (by simp [causesOf]) | split | dsimp only

theorem leadCheck_safe (h : Safe b s) : Safe b (leadCheck s) := by
  unfold leadCheck
  repeat' with_reducible first | intro _ | assumption | apply fresh_safe | apply leadMove_safe | apply ite_safe

theorem tapStrobe_safe (h : Safe b s) : Safe b (tapStrobe s) := by
  unfold tapStrobe
  repeat' with_reducible first | intro _ | assumption | apply modTap_safe | apply foldl_safe | apply ite_safe

end Sys2Proof.Machine
end

section
/-! What the operations of Machine/Edge.lean keep. -/

namespace Sys2Proof.Machine

variable {b s : State}

theorem prescale_safe (h : Safe b s) (p e onB rising) : Safe b (prescale s p e onB rising).2 := by
  unfold prescale
  repeat' first | (with_reducible first | intro _ | assumption | apply modEmu_safe | apply ite_safe) | split | dsimp only

theorem beginSet_safe (h : Safe b s) (p e) : Safe b (beginSet s p e) := by
  unfold beginSet
  repeat' with_reducible first | intro _ | assumption | apply modEmu_safe

theorem failSet_safe (h : Safe b s) (p e cause again) : Safe b (failSet s p e cause again) := by
  unfold failSet
  repeat' first
      | (with_reducible first | intro _ | assumption | apply modEmu_safe | apply beginSet_safe)
      | refine setCause_safe ?_ _ _ _ (by simp [causesOf])

theorem intervalSample_safe (h : Safe b s) (p e a bs) : Safe b (intervalSample s p e a bs) := by
  unfold intervalSample
  repeat' with_reducible first | intro _ | assumption | apply modEmu_safe | apply failSet_safe | apply ite_safe

theorem intervalStamp_safe (h : Safe b s) (p e onB st) : Safe b (intervalStamp s p e onB st) := by
  unfold intervalStamp
  repeat' first
      | (with_reducible first | intro _ | assumption | apply modEmu_safe | apply intervalSample_safe | apply ite_safe)
      | split | dsimp only

theorem periodStamp_safe (h : Safe b s) (p e st) : Safe b (periodStamp s p e st) := by
  unfold periodStamp
  repeat' first
      | (with_reducible first | intro _ | assumption | apply modEmu_safe | apply failSet_safe | apply ite_safe)
      | split | dsimp only

theorem emuStamp_safe (h : Safe b s) (p e onB st) : Safe b (emuStamp s p e onB st) := by
  unfold emuStamp
  repeat' first
      | (with_reducible first
          | intro _ | assumption | apply modEmu_safe | apply failSet_safe | apply intervalStamp_safe | apply periodStamp_safe
          | apply ite_safe)
      | split

theorem emuOffer_safe (h : Safe b s) (p e onB st) : Safe b (emuOffer s p e onB st) := by
  unfold emuOffer
  repeat' with_reducible first | intro _ | assumption | apply modEmu_safe | apply emuStamp_safe | apply foldl_safe

theorem toEngines_safe (h : Safe b s) (k st) : Safe b (toEngines s k st) := by
  unfold toEngines
  repeat' with_reducible first | intro _ | assumption | apply emuOffer_safe | apply foldl_safe | apply ite_safe

theorem overrange_safe (h : Safe b s) (k edge) : Safe b (overrange s k edge) := by
  unfold overrange
  repeat' first | (with_reducible first | intro _ | assumption | apply modEmu_safe | apply ite_safe) | split

theorem modLaneCal_safe (h : Safe b s) (p port lane f) : Safe b (modLaneCal s p port lane f) := by
  unfold modLaneCal
  repeat' with_reducible first | intro _ | assumption | apply modPage_safe

theorem markerStamp_safe (h : Safe b s) (k tag st) : Safe b (markerStamp s k tag st) := by
  unfold markerStamp
  repeat' first | (with_reducible first | intro _ | assumption | apply modLaneCal_safe | apply ite_safe) | split

theorem countMissed_safe (h : Safe b s) (k tag) : Safe b (countMissed s k tag) := by
  unfold countMissed
  repeat' first
      | (with_reducible first
          | intro _ | assumption | apply modLink_safe | apply modEmu_safe | apply toEngines_safe | apply markerStamp_safe)
      | split

theorem offerEdge_safe (h : Safe b s) (k tag) : Safe b (offerEdge s k tag) := by
  unfold offerEdge
  repeat' with_reducible first
      | intro _ | assumption | apply modPoint_safe | apply overrange_safe | apply countMissed_safe | apply ite_safe

theorem noteSent_safe (h : Safe b s) (l tag) : Safe b (noteSent s l tag) := by
  unfold noteSent
  repeat' first
      | (with_reducible first | intro _ | assumption | apply modPage_safe | apply modLaneCal_safe | apply ite_safe)
      | split

theorem startConvs_safe (h : Safe b s) (p) : Safe b (startConvs s p) := by
  unfold startConvs
  repeat' first | (with_reducible first | intro _ | assumption) | refine modSh_safe ?_ _ _ rfl

theorem tsqPut_safe (h : Safe b s) (p port en) : Safe b (tsqPut s p port en) := by
  unfold tsqPut
  repeat' first
      | (with_reducible first | intro _ | assumption | apply modPage_safe | apply raisePlain_safe | apply ite_safe)
      | refine setCause_safe ?_ _ _ _ (by simp [causesOf])

theorem tsqFlush_safe (h : Safe b s) (p port) : Safe b (tsqFlush s p port) := by
  unfold tsqFlush
  repeat' first
      | (with_reducible first | intro _ | assumption | apply modPage_safe | apply tsqPut_safe | apply foldl_safe)
      | split

theorem probeStamp_safe (h : Safe b s) (l tsid st) : Safe b (probeStamp s l tsid st) := by
  unfold probeStamp
  repeat' with_reducible first | intro _ | assumption | apply modPage_safe | apply tsqFlush_safe

theorem keepFor_safe (h : Safe b s) (k tag st) : Safe b (keepFor s k tag st) := by
  unfold keepFor
  repeat' first
      | (with_reducible first | intro _ | assumption | apply modLink_safe | apply markerStamp_safe | apply probeStamp_safe)
      | split

theorem setReady_safe (h : Safe b s) (p c bs) : Safe b (setReady s p c bs) := by
  unfold setReady
  repeat' first | (with_reducible first | intro _ | assumption | apply updReady_safe) | refine modSh_safe ?_ _ _ rfl | split

theorem clusterFault_safe (h : Safe b s) (p c) : Safe b (clusterFault s p c) := by
  unfold clusterFault
  repeat' first
      | (with_reducible first | intro _ | assumption | apply setReady_safe | apply modCluster_safe | apply timeFault_safe)
      | refine modSh_safe ?_ _ _ rfl

theorem calibrateAll_safe (h : Safe b s) (p) : Safe b (calibrateAll s p) := by
  unfold calibrateAll
  repeat' with_reducible first | intro _ | assumption | apply modCluster_safe | apply foldl_safe

theorem vernCtrlWrite_safe (h : Safe b s) (i v) : Safe b (vernCtrlWrite i v s).2 := by
  unfold vernCtrlWrite
  repeat' first
      | (with_reducible first | intro _ | assumption | apply accept_safe | apply calibrateAll_safe | apply ite_safe)
      | refine modSh_safe ?_ _ _ rfl

theorem startSet_safe (h : Safe b s) (p e r) : Safe b (startSet s p e r) := by
  unfold startSet
  repeat' with_reducible first | intro _ | assumption | apply fresh_safe | apply modEmu_safe | apply beginSet_safe

theorem emuCtrlWrite_safe (h : Safe b s) (i e v) : Safe b (emuCtrlWrite i e v s).2 := by
  unfold emuCtrlWrite
  repeat' first
      | (with_reducible first
          | intro _ | assumption | apply modEmu_safe | apply accept_safe | apply refused_safe | apply failSet_safe
          | apply startSet_safe | apply ite_safe)
      | split | dsimp only

theorem onEmu_safe (h : Safe b s) (i e f) (hx : Safe b f.2) : Safe b (onEmu i e s f).2 := by
  unfold onEmu
  split
  · exact hx
  · exact refused_safe h _ _

theorem emuMeanRead_safe (h : Safe b s) (i e) : Safe b (emuMeanRead i e s).2 := by
  unfold emuMeanRead
  repeat' with_reducible first | intro _ | assumption | apply modIface_safe

theorem emuLastTickRead_safe (h : Safe b s) (i e) : Safe b (emuLastTickRead i e s).2 := by
  unfold emuLastTickRead
  repeat' with_reducible first | intro _ | assumption | apply modIface_safe

end Sys2Proof.Machine
end

section
/-! What the operations of Machine/Timebase.lean keep. -/

namespace Sys2Proof.Machine

variable {b s : State}

theorem failSets_safe (h : Safe b s) (p) : Safe b (failSets s p) := by
  unfold failSets
  repeat' with_reducible first | intro _ | assumption | apply failSet_safe | apply foldl_safe | apply ite_safe

theorem hallEpochWrite_safe (h : Safe b s) (i v) : Safe b (hallEpochWrite i v s).2 := by
  unfold hallEpochWrite
  repeat' first
      | (with_reducible first
          | intro _ | assumption | apply accept_safe | apply clearValid_safe | apply refused_safe | apply ite_safe)
      | refine modTb_safe ?_ _ _ rfl | split | dsimp only

theorem nowLoRead_safe (h : Safe b s) (i) : Safe b (nowLoRead i s).2 := by
  unfold nowLoRead
  repeat' with_reducible first | intro _ | assumption | apply modIfaceRegs_safe

end Sys2Proof.Machine
end

section
/-! What the operations of Machine/LinkTime.lean keep. -/

namespace Sys2Proof.Machine

variable {b s : State}

theorem dropSample_safe (h : Safe b s) (l d) : Safe b (dropSample s l d) := by
  unfold dropSample
  repeat' with_reducible first | intro _ | assumption | apply modLinkRegs_safe

theorem onTime_safe (h :
    Safe b s) (l) (tag) (f) (h3 : ∀ t, Safe b t → Safe b (f t)) :
    Safe b (onTime s l tag f) := by
  unfold onTime
  repeat' with_reducible first | intro _ | assumption | apply ite_safe | apply h3 | apply modLink_safe | apply dropSample_safe

theorem dropOffset_safe (h : Safe b s) (l d) : Safe b (dropOffset s l d) := by
  unfold dropOffset
  repeat' with_reducible first | intro _ | assumption | apply modLink_safe | apply dropSample_safe

theorem planeCompare_safe (h : Safe b s) : Safe b (planeCompare s) := by
  unfold planeCompare
  repeat' first
      | (with_reducible first | assumption | apply timeFault_safe | apply leadMove_safe | apply ite_safe)
      | refine modServo_safe ?_ _ _ rfl | refine modServoRegs_safe ?_ _ _ rfl
      | refine setCause_safe ?_ _ _ _ (by simp [causesOf]) | split
      | refine modServo_state_safe ?_ _ _ fun v => by split <;> rfl

theorem votedOut_safe (h : Safe b s) (port) : Safe b (votedOut s port) := by
  unfold votedOut
  repeat' first
      | (with_reducible first | intro _ | assumption | apply timeFault_safe)
      | refine modServoRegs_safe ?_ _ _ rfl | refine setCause_safe ?_ _ _ _ (by simp [causesOf])

theorem rowVote_safe (h : Safe b s) (l th) : Safe b (rowVote s l th) := by
  unfold rowVote
  refine foldl_safe (fun _ _ hs => votedOut_safe hs _) (ite_safe ?_ ?_)
  · exact ite_safe (enterHoldover_safe (votedOut_safe (modServo_safe h _ _ rfl) _) _) (votedOut_safe (modServo_safe h _ _
      rfl) _)
  · exact modServo_state_safe h _ _ fun v => by
      dsimp only
      split
      · split
        · split <;> rfl
        · rfl
      · rfl

theorem chooseLead_safe (h : Safe b s) (l first) : Safe b (chooseLead s l first) := by
  unfold chooseLead
  repeat' first | (with_reducible first | intro _ | assumption | apply ite_safe) | refine modServo_safe ?_ _ _ rfl

theorem acceptTheta_safe (h : Safe b s) (l th) : Safe b (acceptTheta s l th) := by
  unfold acceptTheta
  repeat' first
      | (with_reducible first
          | intro _ | assumption | apply modLink_safe | apply servoSample_safe | apply leadCheck_safe
          | apply planeCompare_safe | apply rowVote_safe | apply chooseLead_safe | apply ite_safe)
      | split

theorem takeDrespFu_safe (h : Safe b s) (l m) : Safe b (takeDrespFu s l m) := by
  unfold takeDrespFu
  repeat' first
      | (with_reducible first | intro _ | assumption | apply modLink_safe | apply dropSample_safe | apply ite_safe)
      | split | dsimp only

theorem forwardSync_safe (h : Safe b s) (seq via) : Safe b (forwardSync s seq via) := by
  unfold forwardSync
  repeat' with_reducible first
      | intro _ | assumption | apply sendLink_safe | apply modLink_safe | apply foldl_safe | apply ite_safe

theorem timePathVote_safe (h : Safe b s) (v) : Safe b (timePathVote s v) := by
  unfold timePathVote
  repeat' first
      | (with_reducible first | intro _ | assumption | apply chargeUnit_safe | apply timeFault_safe)
      | refine modHub_safe ?_ _ rfl | split

theorem forgetSync_safe (h : Safe b s) (l seq) : Safe b (forgetSync s l seq) := by
  unfold forgetSync
  repeat' with_reducible first | intro _ | assumption | apply modLink_safe

theorem takeSyncFu_safe (h : Safe b s) (l m) : Safe b (takeSyncFu s l m) := by
  unfold takeSyncFu
  repeat' first
      | (with_reducible first
          | intro _ | assumption | apply modLink_safe | apply countPast_safe | apply dropSample_safe | apply dropOffset_safe
          | apply acceptTheta_safe | apply forgetSync_safe | apply ite_safe)
      | refine modSh_safe ?_ _ _ rfl | split | dsimp only

theorem onLinkPage_safe (h : Safe b s) (i port f) (hx : Safe b f.2) : Safe b (onLinkPage i port s f).2 :=
    by
  unfold onLinkPage
  split
  · exact hx
  · exact refused_safe h _ _

theorem sendHello_safe (h : Safe b s) (l) : Safe b (sendHello s l) := by
  unfold sendHello
  repeat' with_reducible first | intro _ | assumption | apply modLink_safe | apply sendLink_safe

theorem ptProbeWrite_safe (h : Safe b s) (i port v) : Safe b (ptProbeWrite i port v s).2 := by
  unfold ptProbeWrite
  repeat' first
      | (with_reducible first
          | intro _ | assumption | apply refused_safe | apply accept_safe | apply sendLink_safe | apply ite_safe)
      | split | dsimp only

theorem takeProbe_safe (h : Safe b s) (l m) : Safe b (takeProbe s l m) := by
  unfold takeProbe
  repeat' first
      | (with_reducible first | intro _ | assumption | apply modLink_safe | apply sendLink_safe | apply ite_safe)
      | split | dsimp only

theorem ptTsqHeadRead_safe (h : Safe b s) (i port) : Safe b (ptTsqHeadRead i port s).2 := by
  unfold ptTsqHeadRead
  repeat' first | (with_reducible first | intro _ | assumption | apply modPage_safe) | split

theorem wake_safe (h : Safe b s) (l) : Safe b (wake s l) := by
  unfold wake
  repeat' with_reducible first
      | intro _ | assumption | apply modLink_safe | apply takeDrespFu_safe | apply takeSyncFu_safe | apply takeProbe_safe
      | apply foldl_safe

theorem deliverStamp_safe (h : Safe b s) (k tag st) : Safe b (deliverStamp s k tag st) := by
  unfold deliverStamp
  repeat' first
      | (with_reducible first | intro _ | assumption | apply toEngines_safe | apply keepFor_safe | apply wake_safe)
      | split

end Sys2Proof.Machine
end

section
/-! What the operations of Machine/Servo.lean keep. -/

namespace Sys2Proof.Machine

variable {b s : State}

theorem modeChange_safe (h : Safe b s) (p old mode) : Safe b (modeChange s p old mode) := by
  unfold modeChange
  refine ite_safe h ?_
  split
  · exact ite_safe (enterFree_safe h _) h
  · exact enterHoldover_safe h _
  · exact setRate_safe (modServo_invalid_safe (clearValid_safe h _) _ _ (fun _ => clearValid_invalid _ _)
      (by decide : (4#3).toNat ≤ 4)) _ _

theorem forceLead_safe (h : Safe b s) (p) : Safe b (forceLead s p) := by
  unfold forceLead
  repeat' first
      | (with_reducible first | intro _ | assumption | apply ite_safe)
      | refine modServo_safe ?_ _ _ rfl | refine setCause_safe ?_ _ _ _ (by simp [causesOf]) | split

theorem servoCtrlWrite_safe (h : Safe b s) (i v) : Safe b (servoCtrlWrite i v s).2 := by
  unfold servoCtrlWrite
  repeat' first
      | (with_reducible first
          | intro _ | assumption | apply accept_safe | apply refused_safe | apply enterFree_safe | apply leadCheck_safe
          | apply modeChange_safe | apply forceLead_safe | apply ite_safe)
      | refine modServoRegs_safe ?_ _ _ rfl | split

theorem rateManualWrite_safe (h : Safe b s) (i v) : Safe b (rateManualWrite i v s).2 := by
  unfold rateManualWrite
  repeat' first
      | (with_reducible first
          | intro _ | assumption | apply refused_safe | apply accept_safe | apply setRate_safe | apply ite_safe)
      | refine modServoRegs_safe ?_ _ _ rfl | split

theorem announceOrigin_safe (h : Safe b s) : Safe b (announceOrigin s).2.2 := by
  unfold announceOrigin
  repeat' first | (with_reducible first | intro _ | assumption | apply fresh_safe) | split

theorem sendAll_safe (h : Safe b s) (ls m) : Safe b (sendAll s ls m) := by
  unfold sendAll
  repeat' with_reducible first | intro _ | assumption | apply sendLink_safe | apply foldl_safe

theorem announceNow_safe (h : Safe b s) : Safe b (announceNow s) := by
  unfold announceNow
  repeat' first
      | (with_reducible first | intro _ | assumption | apply announceOrigin_safe | apply sendAll_safe)
      | refine modServoRegs_safe ?_ _ _ rfl

theorem becomeMaster_safe (h : Safe b s) (gen) : Safe b (becomeMaster s gen) := by
  unfold becomeMaster
  repeat' first
      | (with_reducible first | intro _ | assumption)
      | refine modSh_safe ?_ _ _ rfl | refine modHub_safe ?_ _ rfl | refine modServoRegs_safe ?_ _ _ rfl

theorem followMaster_safe (h : Safe b s) (m gen) : Safe b (followMaster s m gen) := by
  unfold followMaster
  repeat' first
      | (with_reducible first | intro _ | assumption) | refine modHub_safe ?_ _ rfl | refine modServoRegs_safe ?_ _ _ rfl

theorem initTime_safe (h : Safe b s) : Safe b (initTime s) := by
  unfold initTime
  repeat' first
      | (with_reducible first | intro _ | assumption | apply stepTick_safe | apply clearValid_safe | apply ite_safe)
      | refine modHub_safe ?_ _ rfl | refine modTb_safe ?_ _ _ rfl | split | dsimp only

theorem planHandover_safe (h : Safe b s) (k) : Safe b (planHandover s k) := by
  unfold planHandover
  repeat' first
      | (with_reducible first | intro _ | assumption | apply fresh_safe | apply announceNow_safe)
      | refine modHub_safe ?_ _ rfl

theorem masterCfgWrite_safe (h : Safe b s) (i v) : Safe b (masterCfgWrite i v s).2 := by
  unfold masterCfgWrite
  repeat' first
      | (with_reducible first
          | intro _ | assumption | apply onPart_safe | apply refused_safe | apply accept_safe | apply planHandover_safe
          | apply ite_safe)
      | refine modHub_safe ?_ _ rfl | split | dsimp only

theorem countHandover_safe (h : Safe b s) : Safe b (countHandover s) := by
  unfold countHandover
  repeat' first | (with_reducible first | intro _ | assumption) | refine modHub_safe ?_ _ rfl

theorem handoverReached_safe (h : Safe b s) : Safe b (handoverReached s) := by
  unfold handoverReached
  repeat' first
      | (with_reducible first
          | intro _ | assumption | apply countHandover_safe | apply followMaster_safe | apply announceNow_safe
          | apply becomeMaster_safe | apply ite_safe)
      | refine modHub_safe ?_ _ rfl | refine modServoRegs_safe ?_ _ _ rfl | split

theorem learnEpoch_safe (h : Safe b s) (p e) : Safe b (learnEpoch s p e) := by
  unfold learnEpoch
  repeat' first
      | (with_reducible first | intro _ | assumption | apply loseTime_safe | apply ite_safe)
      | refine modTb_safe ?_ _ _ rfl

theorem showMaster_safe (h : Safe b s) (p m) : Safe b (showMaster s p m) := by
  unfold showMaster
  repeat' first
      | (with_reducible first | intro _ | assumption | apply ite_safe)
      | refine modSh_safe ?_ _ _ rfl | refine modHub_safe ?_ _ rfl | refine modServoRegs_safe ?_ _ _ rfl | split

theorem takeAnnounce_safe (h : Safe b s) (l m) : Safe b (takeAnnounce s l m) := by
  unfold takeAnnounce
  repeat' first
      | (with_reducible first
          | intro _ | assumption | apply showMaster_safe | apply learnEpoch_safe | apply sendAll_safe | apply ite_safe)
      | split

theorem masterHears_safe (h : Safe b s) (l m) : Safe b (masterHears s l m) := by
  unfold masterHears
  repeat' with_reducible first
      | intro _ | assumption | apply takeAnnounce_safe | apply countHandover_safe | apply followMaster_safe
      | apply timeFault_safe | apply ite_safe

theorem setClass_safe (h : Safe b s) (c) : Safe b (setClass s c) := by
  unfold setClass
  repeat' first | (with_reducible first | intro _ | assumption) | refine modHub_safe ?_ _ rfl

theorem steered_safe (h : Safe b s) : Safe b (steered s) := by
  unfold steered
  repeat' with_reducible first | intro _ | assumption | apply setClass_safe | apply ite_safe

theorem refSample_safe (h : Safe b s) (e th vote) : Safe b (refSample s e th vote) := by
  unfold refSample
  repeat' first
      | (with_reducible first
          | intro _ | assumption | apply timeFault_safe | apply enterLocked_safe | apply piUpdate_safe
          | apply servoAcquire_safe | apply timePathVote_safe | apply setClass_safe | apply steered_safe | apply ite_safe)
      | refine modHub_safe ?_ _ rfl | refine modServoRegs_safe ?_ _ _ rfl | refine setCause_safe ?_ _ _ _ (by simp [causesOf])

theorem loadTod_safe (h : Safe b s) (edge) : Safe b (loadTod s edge) := by
  unfold loadTod
  repeat' first
      | (with_reducible first
          | intro _ | assumption | apply countPast_safe | apply stepTick_safe | apply clearValid_safe | apply ite_safe)
      | refine modHub_safe ?_ _ rfl | refine modTb_safe ?_ _ _ rfl

theorem refTodWrite_safe (h : Safe b s) (i v) : Safe b (refTodWrite i v s).2 := by
  unfold refTodWrite
  repeat' first
      | (with_reducible first | intro _ | assumption | apply onPart_safe | apply accept_safe)
      | refine modHub_safe ?_ _ rfl

theorem refAlign_safe (h : Safe b s) : Safe b (refAlign s) := by
  unfold refAlign
  repeat' first
      | (with_reducible first | intro _ | assumption | apply stepTick_safe | apply clearValid_safe | apply ite_safe)
      | refine modHub_safe ?_ _ rfl | refine modTb_safe ?_ _ _ rfl | split

theorem selectRef_safe (h : Safe b s) : Safe b (selectRef s) := by
  unfold selectRef
  repeat' first
      | (with_reducible first | intro _ | assumption | apply setClass_safe | apply ite_safe) | refine modHub_safe ?_ _ rfl

theorem refCtrlWrite_safe (h : Safe b s) (i v) : Safe b (refCtrlWrite i v s).2 := by
  unfold refCtrlWrite
  repeat' first
      | (with_reducible first
          | intro _ | assumption | apply onPart_safe | apply accept_safe | apply refused_safe | apply refAlign_safe
          | apply selectRef_safe | apply ite_safe)
      | refine modHub_safe ?_ _ rfl | split

theorem driveOut_safe (h : Safe b s) (pps level tick frac) : Safe b (driveOut s pps level tick frac) := by
  unfold driveOut
  repeat' first | (with_reducible first | intro _ | assumption | apply emit_safe | apply ite_safe) | refine modHub_safe ?_ _ rfl

theorem outCtrlWrite_safe (h : Safe b s) (i v) : Safe b (outCtrlWrite i v s).2 := by
  unfold outCtrlWrite
  repeat' first
      | (with_reducible first | intro _ | assumption | apply onPart_safe | apply accept_safe)
      | refine modHub_safe ?_ _ rfl

theorem ptpDrop_safe (h : Safe b s) : Safe b (ptpDrop s) := by
  unfold ptpDrop
  repeat' first | (with_reducible first | intro _ | assumption) | refine modHub_safe ?_ _ rfl

theorem ptpExpire_safe (h : Safe b s) : Safe b (ptpExpire s) := by
  unfold ptpExpire
  repeat' first | (with_reducible first | intro _ | assumption | apply ite_safe) | refine modHub_safe ?_ _ rfl

theorem ptpBadStamp_safe (h : Safe b s) (ns) : Safe b (ptpBadStamp s ns) := by
  unfold ptpBadStamp
  repeat' with_reducible first | intro _ | assumption | apply countPast_safe | apply ptpDrop_safe | apply ite_safe

theorem ptpCtrlWrite_safe (h : Safe b s) (i v) : Safe b (ptpCtrlWrite i v s).2 := by
  unfold ptpCtrlWrite
  repeat' first
      | (with_reducible first
          | intro _ | assumption | apply onPart_safe | apply refused_safe | apply accept_safe | apply ite_safe)
      | refine modHub_safe ?_ _ rfl | split

end Sys2Proof.Machine
end

section
/-! What the operations of Machine/Taps.lean keep. -/

namespace Sys2Proof.Machine

variable {b s : State}

theorem sendFrame_safe (h : Safe b s) (f) : Safe b (sendFrame s f) := ite_safe (emit_safe h _) h

theorem placeStrobe_safe (h : Safe b s) (old) : Safe b (placeStrobe s old) := by
  unfold placeStrobe
  repeat' with_reducible first | intro _ | assumption | apply emit_safe | apply tapStrobe_safe | apply ite_safe

theorem sendLaunch_safe (h : Safe b s) (y x) : Safe b (sendLaunch s y x) := by
  unfold sendLaunch
  repeat' with_reducible first | intro _ | assumption | apply sendFrame_safe | apply modTap_safe

theorem tapLaunchMiss_safe (h : Safe b s) (sub y x) : Safe b (tapLaunchMiss s sub y x) := by
  unfold tapLaunchMiss
  repeat' with_reducible first | intro _ | assumption | apply raise_safe

theorem launchUnsent_safe (h : Safe b s) (y x) : Safe b (launchUnsent s y x) := by
  unfold launchUnsent
  repeat' first | (with_reducible first | intro _ | assumption | apply tapLaunchMiss_safe) | refine modTsu_safe ?_ _ rfl

theorem launchTap_safe (h : Safe b s) (x y) : Safe b (launchTap x s y) := by
  unfold launchTap
  repeat' first
      | (with_reducible first
          | intro _ | assumption | apply sendLaunch_safe | apply modTap_safe | apply launchUnsent_safe | apply ite_safe)
      | refine modTsu_safe ?_ _ rfl

theorem launchTaps_safe (h : Safe b s) (target) : Safe b (launchTaps s target) := by
  unfold launchTaps
  repeat' first
      | (with_reducible first | intro _ | assumption | apply launchTap_safe | apply foldl_safe)
      | refine modTsu_safe ?_ _ rfl

theorem launchDue_safe (h : Safe b s) (target) : Safe b (launchDue s target) := by
  unfold launchDue
  repeat' with_reducible first | intro _ | assumption | apply tapLaunchMiss_safe | apply foldl_safe | apply ite_safe

theorem cancelTaps_safe (h : Safe b s) : Safe b (cancelTaps s) := by
  unfold cancelTaps
  repeat' first | (with_reducible first | intro _ | assumption | apply sendFrame_safe) | refine modTsu_safe ?_ _ rfl

theorem tapCause_safe (h : Safe b s) (t k) (hk : (causesOf .tap).getLsbD k = true) :
    Safe b (tapCause s t k) := by
  unfold tapCause
  exact modTsu_safe (setCause_safe h _ _ _ hk) _ rfl

theorem tapGlobalWrite_safe (h : Safe b s) (i v) : Safe b (tapGlobalWrite i v s).2 := by
  unfold tapGlobalWrite
  repeat' first
      | (with_reducible first
          | intro _ | assumption | apply onPart_safe | apply refused_safe | apply tapStrobe_safe | apply accept_safe
          | apply sendFrame_safe | apply foldl_safe | apply ite_safe)
      | refine modTsu_safe ?_ _ rfl | split

theorem tapLossEvent_safe (h : Safe b s) (y cause clear) : Safe b (tapLossEvent s y cause clear) := by
  unfold tapLossEvent
  repeat' with_reducible first | intro _ | assumption | apply raise_safe

theorem noteLoss_safe (h : Safe b s) (y cause clear) : Safe b (noteLoss s y cause clear) := by
  unfold noteLoss
  repeat' with_reducible first | intro _ | assumption | apply modTap_safe

theorem releaseTapWrites_safe (h : Safe b s) (y) : Safe b (releaseTapWrites s y) := by
  unfold releaseTapWrites
  repeat' first
      | (with_reducible first | intro _ | assumption | apply answer_safe | apply foldl_safe) | refine modTsu_safe ?_ _ rfl

theorem stretchOverrun_safe (h : Safe b s) (y cause x) : Safe b (stretchOverrun s y cause x) := by
  unfold stretchOverrun
  repeat' first
      | (with_reducible first | intro _ | assumption | apply raise_safe) | refine tapCause_safe ?_ _ _ (by simp [causesOf])

theorem tapParked_safe (h : Safe b s) (y) : Safe b (tapParked s y) := by
  unfold tapParked
  repeat' with_reducible first | intro _ | assumption | apply modTap_safe | apply releaseTapWrites_safe

theorem tapWrite_safe (h : Safe b s) (w y off v) : Safe b (tapWrite w y off v s) := by
  unfold tapWrite
  repeat' first
      | (with_reducible first
          | intro _ | assumption | apply answer_safe | apply refuse_safe | apply modTap_safe | apply sendFrame_safe
          | apply ite_safe)
      | refine modTsu_safe ?_ _ rfl

theorem tapLaunchRead_safe (h : Safe b s) (i) : Safe b (tapLaunchRead i s).2 := by
  unfold tapLaunchRead
  repeat' with_reducible first | intro _ | assumption | apply onPartRead_safe | apply modIfaceRegs_safe

end Sys2Proof.Machine
end

section
/-! What the operations of Machine/Slots.lean keep. -/

namespace Sys2Proof.Machine

variable {b s : State}

theorem tsuJobOk_safe (h : Safe b s) (job epoch) : Safe b (tsuJobOk s job epoch).2 := by
  unfold tsuJobOk
  repeat' first
      | (with_reducible first | intro _ | assumption | apply ite_safe) | refine modTsu_safe ?_ _ rfl | split | dsimp only

theorem tsuNearStep_safe (h :
    Safe b s) (w) (act) (h2 : ∀ t, Safe b t → Safe b (act t)) :
    Safe b (tsuNearStep s w act) := by
  unfold tsuNearStep
  repeat' with_reducible first | intro _ | assumption | apply ite_safe | apply h2 | apply countStepRefused_safe

theorem modSync_safe (h : Safe b s) (f) : Safe b (modSync s f) := by
  unfold modSync
  repeat' first | (with_reducible first | intro _ | assumption) | refine modTsu_safe ?_ _ rfl

theorem soCfgWrite_safe (h : Safe b s) (i v) : Safe b (soCfgWrite i v s).2 := by
  unfold soCfgWrite
  repeat' first
      | (with_reducible first
          | intro _ | assumption | apply onPart_safe | apply accept_safe | apply modSlot_safe | apply refused_safe
          | apply modSlotRegs_safe | apply ite_safe)
      | split | dsimp only

theorem slotArrive_safe (h : Safe b s) (k) : Safe b (slotArrive s k).2 := by
  unfold slotArrive
  repeat' first
      | (with_reducible first
          | intro _ | assumption | apply modSlotRegs_safe | apply accept_safe | apply tsuSendUp_safe | apply refused_safe
          | apply ite_safe)
      | split | dsimp only

theorem setValue_safe (h : Safe b s) (k n) : Safe b (setValue s k n) := by
  unfold setValue
  repeat' first
      | (with_reducible first | intro _ | assumption | apply modSlotRegs_safe | apply raise_safe | apply ite_safe)
      | refine setCause_safe ?_ _ _ _ (by simp [causesOf])

theorem slotAdd_safe (h : Safe b s) (k n) : Safe b (slotAdd s k n).2 := by
  unfold slotAdd
  repeat' first
      | (with_reducible first
          | intro _ | assumption | apply accept_safe | apply setValue_safe | apply refused_safe | apply ite_safe)
      | split | dsimp only

theorem slotSet_safe (h : Safe b s) (k n) : Safe b (slotSet s k n).2 := by
  unfold slotSet
  repeat' first
      | (with_reducible first
          | intro _ | assumption | apply accept_safe | apply setValue_safe | apply modSlotRegs_safe | apply refused_safe
          | apply ite_safe)
      | split | dsimp only

theorem slotClear_safe (h : Safe b s) (k) : Safe b (slotClear s k).2 := by
  unfold slotClear
  repeat' first
      | (with_reducible first
          | intro _ | assumption | apply accept_safe | apply modSlotRegs_safe | apply refused_safe | apply ite_safe)
      | split | dsimp only

theorem openWindow_safe (h : Safe b s) (g w base) : Safe b (openWindow s g w base) := by
  unfold openWindow
  repeat' first | (with_reducible first | intro _ | assumption) | refine modTsu_safe ?_ _ rfl

theorem slotOpenWindow_safe (h : Safe b s) (g w) : Safe b (slotOpenWindow s g w).2 := by
  unfold slotOpenWindow
  repeat' first
      | (with_reducible first
          | intro _ | assumption | apply refused_safe | apply accept_safe | apply openWindow_safe | apply ite_safe)
      | split

theorem issueSend_safe (h : Safe b s) (w e) : Safe b (issueSend s w e) := by
  unfold issueSend
  split
  case isTrue hroom =>
    have hqueued : Safe b (modTsu s fun t => { t with sends := t.sends ++ [e] }) := by
      refine modTsu_of_safe h _ ?_ rfl
      rintro ⟨hhp, hsends, hrest⟩
      exact ⟨hhp, List.length_append ▸ hroom.1, hrest⟩
    dsimp only
    split
    · exact answer_safe hqueued _ _
    · exact hqueued
  case isFalse => exact modTsu_safe h _ rfl

/-- Each of the 16 host waits has its cause (R240). -/
theorem sync_named : ∀ w : BitVec 4, (causesOf .sync).getLsbD w.toNat = true := by decide

theorem hostSend_safe (h : Safe b s) (w) : Safe b (hostSend w s) := by
  unfold hostSend
  repeat' with_reducible first
      | intro _ | assumption | apply answer_safe | apply refuse_safe | apply issueSend_safe | apply ite_safe

theorem soOpWrite_safe (h : Safe b s) (w slot v) : Safe b (soOpWrite w slot v s) := by
  unfold soOpWrite
  repeat' first
      | (with_reducible first
          | intro _ | assumption | apply answer_safe | apply slotArrive_safe | apply slotAdd_safe | apply slotSet_safe
          | apply slotClear_safe | apply hostSend_safe | apply slotOpenWindow_safe | apply refused_safe)
      | split

theorem sendLeaves_safe (h : Safe b s) (k e) : Safe b (sendLeaves s k e) := by
  unfold sendLeaves
  exact tsuSendUp_safe (modTsu_of_safe h _ (fun ⟨hhp, hsends, hrest⟩ =>
    ⟨hhp, Nat.le_trans (List.eraseIdx_sublist ..).length_le hsends, hrest⟩) rfl) _

theorem waitTimeoutEv_safe (h : Safe b s) (sub obj slot ty kind idx byte6 target value) :
    Safe b (waitTimeoutEv s sub obj slot ty kind idx byte6 target value) := by
  unfold waitTimeoutEv
  repeat' with_reducible first | intro _ | assumption | apply raise_safe

theorem signalEffect_safe (h : Safe b s) (m) : Safe b (signalEffect s m) := by
  unfold signalEffect
  repeat' first | (with_reducible first | intro _ | assumption | apply slotAdd_safe) | split

theorem completeSlot_safe (h : Safe b s) (k) : Safe b (completeSlot s k) := by
  unfold completeSlot
  repeat' with_reducible first | intro _ | assumption | apply modSlot_safe

theorem releaseTake_safe (h : Safe b s) (m) : Safe b (releaseTake s m) := by
  unfold releaseTake
  repeat' first
      | (with_reducible first
          | intro _ | assumption | apply refuse_safe | apply schedWire_safe | apply modSlot_safe | apply tsuJobOk_safe
          | apply tsuNearStep_safe | apply modSync_safe | apply completeSlot_safe | apply ite_safe)
      | split | dsimp only | refine snd_safe (by assumption) ?_

theorem timedComplete_safe (h : Safe b s) (k) : Safe b (timedComplete s k) := by
  unfold timedComplete
  repeat' first | (with_reducible first | intro _ | assumption | apply completeSlot_safe | apply ite_safe) | split

theorem modWait_safe (h : Safe b s) (w f) : Safe b (modWait s w f) := by
  unfold modWait
  repeat' first | (with_reducible first | intro _ | assumption) | refine modTsu_safe ?_ _ rfl

theorem waitDone_safe (h : Safe b s) (k) : Safe b (waitDone s k) := by
  unfold waitDone
  repeat' with_reducible first | intro _ | assumption | apply modSlot_safe

theorem hostWaitComplete_safe (h : Safe b s) (w) : Safe b (hostWaitComplete s w) := by
  unfold hostWaitComplete
  repeat' first
      | (with_reducible first | intro _ | assumption | apply waitDone_safe | apply modWait_safe | apply ite_safe)
      | refine setCause_safe ?_ _ _ _ (sync_named _)

theorem waitArmWrite_safe (h : Safe b s) (i v) : Safe b (waitArmWrite i v s).2 := by
  unfold waitArmWrite
  repeat' first
      | (with_reducible first
          | intro _ | assumption | apply onPart_safe | apply refused_safe | apply modWait_safe | apply accept_safe
          | apply hostWaitComplete_safe | apply ite_safe)
      | split | dsimp only

theorem slotTimeoutEv_safe (h : Safe b s) (k target kind idx) : Safe b (slotTimeoutEv s k target kind idx) := by
  unfold slotTimeoutEv
  repeat' with_reducible first | intro _ | assumption | apply waitTimeoutEv_safe

theorem hostWaitTimeout_safe (h : Safe b s) (w) : Safe b (hostWaitTimeout s w) := by
  unfold hostWaitTimeout
  repeat' first
      | (with_reducible first
          | intro _ | assumption | apply hostWaitComplete_safe | apply modWait_safe | apply slotTimeoutEv_safe
          | apply ite_safe)
      | refine setCause_safe ?_ _ _ _ (sync_named _)

theorem soValWrite_safe (h : Safe b s) (i v) : Safe b (soValWrite i v s).2 := by
  unfold soValWrite
  repeat' with_reducible first | intro _ | assumption | apply onPart_safe | apply accept_safe | apply modSlotRegs_safe

theorem soGenWrite_safe (h : Safe b s) (i v) : Safe b (soGenWrite i v s).2 := by
  unfold soGenWrite
  repeat' first
      | (with_reducible first
          | intro _ | assumption | apply onPart_safe | apply accept_safe | apply modSlotRegs_safe | apply refused_safe
          | apply ite_safe)
      | split

theorem winStateWrite_safe (h : Safe b s) (i v) : Safe b (winStateWrite i v s).2 := by
  unfold winStateWrite
  repeat' first
      | (with_reducible first
          | intro _ | assumption | apply onPart_safe | apply accept_safe | apply openWindow_safe | apply refused_safe
          | apply ite_safe)
      | split

end Sys2Proof.Machine
end

section
/-! What the operations of Machine/TsuIo.lean keep. -/

namespace Sys2Proof.Machine

variable {b s : State}

theorem addPulse_safe (h : Safe b s) (n k y) : Safe b (addPulse s n k y) := by
  unfold addPulse
  repeat' with_reducible first | intro _ | assumption | apply modTrig_safe

theorem dropPulse_safe (h : Safe b s) (n) : Safe b (dropPulse s n) := by
  unfold dropPulse
  repeat' with_reducible first | intro _ | assumption | apply modTrig_safe

theorem schedStepPulses_safe (h : Safe b s) (launch step) : Safe b (schedStepPulses s launch step) := by
  unfold schedStepPulses
  repeat' first
      | (with_reducible first
          | intro _ | assumption | apply schedTest_safe | apply addPulse_safe | apply dropPulse_safe | apply foldl_safe
          | apply ite_safe)
      | split | dsimp only | refine snd_safe (by assumption) ?_

theorem dropStepPulses_safe (h : Safe b s) (launch) : Safe b (dropStepPulses s launch) := by
  unfold dropStepPulses
  repeat' first | (with_reducible first | intro _ | assumption) | refine modTsu_safe ?_ _ rfl

theorem startPulse_safe (h : Safe b s) (n y) : Safe b (startPulse s n y) := by
  unfold startPulse
  repeat' with_reducible first | intro _ | assumption | apply emit_safe | apply modTrig_safe | apply ite_safe

theorem startPend_safe (h : Safe b s) (n p) : Safe b (startPend s n p) := by
  unfold startPend
  repeat' with_reducible first | intro _ | assumption | apply modTrig_safe | apply startPulse_safe | apply ite_safe

theorem pulseStart_safe (h : Safe b s) (n) : Safe b (pulseStart s n) := by
  unfold pulseStart
  repeat' first
      | (with_reducible first
          | intro _ | assumption | apply modTrig_safe | apply startPulse_safe | apply startPend_safe | apply ite_safe)
      | split

theorem trigWrite_safe (h : Safe b s) (off i v) : Safe b (trigWrite off i v s).2 := by
  unfold trigWrite
  repeat' first
      | (with_reducible first
          | intro _ | assumption | apply onPart_safe | apply refused_safe | apply accept_safe | apply modTrig_safe
          | apply ite_safe)
      | split | dsimp only

theorem trigWidthWrite_safe (h : Safe b s) (i v) : Safe b (trigWidthWrite i v s).2 := by
  unfold trigWidthWrite
  repeat' first
      | (with_reducible first
          | intro _ | assumption | apply onPart_safe | apply refused_safe | apply accept_safe | apply modTrig_safe
          | apply ite_safe)
      | split | dsimp only

theorem oneshotWrite_safe (h : Safe b s) (i v) : Safe b (oneshotWrite i v s).2 := by
  unfold oneshotWrite
  repeat' first
      | (with_reducible first
          | intro _ | assumption | apply onPart_safe | apply refused_safe | apply schedTest_safe | apply accept_safe
          | apply addPulse_safe | apply modTrig_safe | apply ite_safe)
      | split | dsimp only | refine snd_safe (by assumption) ?_

theorem trigCtrlWrite_safe (h : Safe b s) (i v) : Safe b (trigCtrlWrite i v s).2 := by
  unfold trigCtrlWrite
  repeat' first
      | (with_reducible first
          | intro _ | assumption | apply onPart_safe | apply accept_safe | apply modTrig_safe | apply foldl_safe
          | apply ite_safe)
      | refine modTsu_safe ?_ _ rfl

end Sys2Proof.Machine
end

section
/-! What the operations of Machine/Jobs.lean keep. -/

namespace Sys2Proof.Machine

variable {b s : State}

theorem modJob_safe (h : Safe b s) (j f) : Safe b (modJob s j f) := by
  unfold modJob
  repeat' first | (with_reducible first | intro _ | assumption) | refine modHub_safe ?_ _ rfl

theorem endFlows_safe (h : Safe b s) (j) : Safe b (endFlows s j) := by
  unfold endFlows
  repeat' first | (with_reducible first | intro _ | assumption) | refine modHub_safe ?_ _ rfl

theorem sendHub_safe (h : Safe b s) (j a m) : Safe b (sendHub s j a m) := by
  unfold sendHub
  repeat' with_reducible first | intro _ | assumption | apply sendLink_safe | apply noRoute_safe | apply onRoute_safe

theorem sendEp_safe (h : Safe b s) (j e m) : Safe b (sendEp s j e m) := by
  unfold sendEp
  repeat' with_reducible first | intro _ | assumption | apply sendLink_safe | apply noRoute_safe | apply onRoute_safe

theorem takeRoutes_safe (h : Safe b s) (rs) : Safe b (takeRoutes s rs).2 := by
  unfold takeRoutes
  repeat' with_reducible first | intro _ | assumption | apply noRoute_safe | apply onRoute_safe | apply foldl_safe

theorem sendTargets_safe (h : Safe b s) (j hubs eps m) : Safe b (sendTargets s j hubs eps m) := by
  unfold sendTargets
  repeat' with_reducible first | intro _ | assumption | apply sendLink_safe | apply takeRoutes_safe | apply foldl_safe

theorem ladle_safe (h : Safe b s) (j g m) : Safe b (ladle s j g m) := by
  unfold ladle
  repeat' first
      | (with_reducible first
          | intro _ | assumption | apply refuse_safe | apply sendLink_safe | apply takeRoutes_safe | apply foldl_safe
          | apply ite_safe)
      | refine modHub_safe ?_ _ rfl

theorem ladleObj_safe (h : Safe b s) (j obj m) : Safe b (ladleObj s j obj m) := by
  unfold ladleObj
  repeat' first | (with_reducible first | intro _ | assumption | apply ladle_safe) | split

theorem ladleAll_safe (h : Safe b s) (j m) : Safe b (ladleAll s j m) := by
  unfold ladleAll
  repeat' with_reducible first | intro _ | assumption | apply ladleObj_safe

theorem bothPlanes_safe (h : Safe b s) (j m) : Safe b (bothPlanes s j m) := by
  unfold bothPlanes
  repeat' with_reducible first | intro _ | assumption | apply sendTwin_safe | apply ladleAll_safe

theorem dsnCheck_safe (h : Safe b s) (sender d) : Safe b (dsnCheck s sender d).2 := by
  unfold dsnCheck
  repeat' first | (with_reducible first | intro _ | assumption) | refine modHub_safe ?_ _ rfl | split | dsimp only

theorem dsnAck_safe (h : Safe b s) (l sender d) : Safe b (dsnAck s l sender d) := by
  unfold dsnAck
  repeat' first | (with_reducible first | intro _ | assumption | apply sendLink_safe | apply mirror_safe) | split

theorem onUp_safe (h : Safe b s) (l sender d m act)
    (hf : ∀ s, Safe b s → Safe b (act s)) : Safe b (onUp s l sender d m act) := by
  unfold onUp
  refine ite_safe (malformedFlit_safe (taken_safe h _ _) _) ?_
  have hd := dsnCheck_safe (taken_safe h l m) sender d
  split
  · next s' e => rw [e] at hd; exact dsnAck_safe (hf _ hd) _ _ _
  · next s' e => rw [e] at hd; exact dsnAck_safe hd _ _ _

theorem hubSendUp_safe (h : Safe b s) (l m) : Safe b (hubSendUp s l m) := by
  unfold hubSendUp
  repeat' first
      | (with_reducible first | intro _ | assumption | apply mirror_safe | apply sendLink_safe | apply ite_safe)
      | refine modHub_safe ?_ _ rfl

theorem sendUp_safe (h : Safe b s) (j dst m) : Safe b (sendUp s j dst m) := by
  unfold sendUp
  repeat' with_reducible first | intro _ | assumption | apply sendLink_safe | apply noRoute_safe | apply onRoute_safe

theorem passUp_safe (h : Safe b s) (j dst m) : Safe b (passUp s j dst m) := by
  unfold passUp
  repeat' with_reducible first | intro _ | assumption | apply strand_safe | apply onRoute_safe | apply hubSendUp_safe

theorem foldUp_safe (h : Safe b s) (l m f) : Safe b (foldUp s l m f) := by
  unfold foldUp
  repeat' first
      | (with_reducible first | intro _ | assumption | apply modLink_safe | apply hubSendUp_safe | apply ite_safe)
      | refine modHub_safe ?_ _ rfl | split | dsimp only

theorem foldTwin_safe (h : Safe b s) (key m f) : Safe b (foldTwin s key m f) := by
  unfold foldTwin
  repeat' first
      | (with_reducible first | intro _ | assumption | apply modLink_safe | apply sendLink_safe | apply onRoute_safe)
      | split | dsimp only | refine snd_safe (by assumption) ?_ | refine fst_safe (by assumption) ?_ | assumption

theorem foldOn_safe (h : Safe b s) (j dst m f) : Safe b (foldOn s j dst m f) := by
  unfold foldOn
  repeat' with_reducible first | intro _ | assumption | apply strand_safe | apply onRoute_safe | apply foldUp_safe

theorem signalOn_safe (h : Safe b s) (l m e) : Safe b (signalOn s l m e) := by
  unfold signalOn
  repeat' with_reducible first
      | intro _ | assumption | apply refuse_safe | apply sendLink_safe | apply strand_safe | apply onRoute_safe
      | apply hubSendUp_safe | apply ite_safe

theorem unstrandOne_safe (h : Safe b s) (x) : Safe b (unstrandOne s x) := by
  unfold unstrandOne
  repeat' first | (with_reducible first | intro _ | assumption | apply passUp_safe | apply signalOn_safe) | split

theorem unstrand_safe (h : Safe b s) : Safe b (unstrand s) := by
  unfold unstrand
  repeat' first
      | (with_reducible first | intro _ | assumption | apply unstrandOne_safe | apply foldl_safe)
      | refine modHub_safe ?_ _ rfl

theorem hubJobOk_safe (h : Safe b s) (j epoch g) : Safe b (hubJobOk s j epoch g).2 := by
  unfold hubJobOk
  repeat' first
      | (with_reducible first | intro _ | assumption | apply refuse_safe | apply ite_safe)
      | refine modHub_safe ?_ _ rfl | split | dsimp only

theorem dropOld_safe (h :
    Safe b s) (j) (g) (count) (h3 : ∀ t, Safe b t → Safe b (count t)) :
    Safe b (dropOld s j g count) := by
  unfold dropOld
  repeat' first | (with_reducible first | intro _ | assumption | apply h3 | apply refuse_safe) | split

theorem nearStep_safe (h :
    Safe b s) (j) (w) (act) (h3 : ∀ t, Safe b t → Safe b (act t)) :
    Safe b (nearStep s j w act) := by
  unfold nearStep
  repeat' with_reducible first | intro _ | assumption | apply ite_safe | apply h3 | apply countStepRefused_safe

theorem ifValid_safe (h : Safe b s) (l act) (h1 : ∀ t, Safe b t → Safe b (act t)) : Safe b (ifValid l act s) := by
  unfold ifValid
  repeat' with_reducible first
      | intro _ | assumption | apply ite_safe | apply h1 | apply countNotValid_safe | apply sendLink_safe

theorem refuseXlat_safe (h : Safe b s) (j) : Safe b (refuseXlat s j) := by
  unfold refuseXlat
  repeat' with_reducible first | intro _ | assumption | apply modJob_safe | apply refuse_safe

theorem atEdge_safe (h :
    Safe b s) (l) (j) (r) (act) (h4 : ∀ t, Safe b t → Safe b (act t)) :
    Safe b (atEdge s l j r act) := by
  unfold atEdge
  repeat' with_reducible first | intro _ | assumption | apply ite_safe | apply h4 | apply refuseXlat_safe

theorem modSynch_safe (h : Safe b s) (f) : Safe b (modSynch s f) := by
  unfold modSynch
  repeat' first | (with_reducible first | intro _ | assumption) | refine modHub_safe ?_ _ rfl

theorem rejectFenced_safe (h : Safe b s) (j e) : Safe b (rejectFenced s j e) := by
  unfold rejectFenced
  repeat' with_reducible first | intro _ | assumption | apply modSynch_safe | apply raise_safe

end Sys2Proof.Machine
end

section
/-! What the operations of Machine/Audit.lean keep. -/

namespace Sys2Proof.Machine

variable {b s : State}

theorem udpSend_safe (h : Safe b s) (ip port data) : Safe b (udpSend s ip port data) := by
  unfold udpSend
  repeat' first | (with_reducible first | intro _ | assumption | apply emit_safe | apply ite_safe) | refine modHub_safe ?_ _ rfl

theorem audLevel_safe (h : Safe b s) : Safe b (audLevel s) := by
  unfold audLevel
  repeat' first
      | (with_reducible first | intro _ | assumption | apply audit_safe | apply ite_safe)
      | refine setCause_safe ?_ _ _ _ (by simp [causesOf])

theorem audAdvance_safe (h : Safe b s) (j chain) : Safe b (audAdvance s j chain) := by
  unfold audAdvance
  repeat' with_reducible first | intro _ | assumption | apply mirror_safe | apply modJob_safe

theorem audPut_safe (h : Safe b s) (j r) : Safe b (audPut s j r) := by
  unfold audPut
  repeat' first
      | (with_reducible first | intro _ | assumption | apply audLevel_safe | apply audAdvance_safe | apply audit_safe)
      | refine modHub_safe ?_ _ rfl | refine setCause_safe ?_ _ _ _ (by simp [causesOf])

theorem audDrop_safe (h : Safe b s) (j r) : Safe b (audDrop s j r) := by
  unfold audDrop
  repeat' first
      | (with_reducible first | intro _ | assumption | apply modJob_safe | apply audAdvance_safe | apply audit_safe)
      | refine modHub_safe ?_ _ rfl | refine setCause_safe ?_ _ _ _ (by simp [causesOf])

theorem audGap_safe (h : Safe b s) (j) : Safe b (audGap s j) := by
  unfold audGap
  repeat' first | (with_reducible first | intro _ | assumption | apply audPut_safe | apply modJob_safe | apply ite_safe) | split

theorem audFlush_safe (h : Safe b s) : Safe b (audFlush s) := by
  unfold audFlush
  repeat' with_reducible first | intro _ | assumption | apply audGap_safe | apply foldl_safe

theorem audit_safe (h : Safe b s) (j r) : Safe b (audit s j r) := by
  unfold audit
  repeat' with_reducible first
      | intro _ | assumption | apply audGap_safe | apply audPut_safe | apply audDrop_safe | apply ite_safe

theorem audTailWrite_safe (h : Safe b s) (i v) : Safe b (audTailWrite i v s).2 := by
  unfold audTailWrite
  repeat' first
      | (with_reducible first
          | intro _ | assumption | apply onPart_safe | apply accept_safe | apply refused_safe | apply audFlush_safe
          | apply audit_safe | apply ite_safe)
      | refine modHub_safe ?_ _ rfl | split

theorem audCfgWrite_safe (h : Safe b s) (i v) : Safe b (audCfgWrite i v s).2 := by
  unfold audCfgWrite
  repeat' first
      | (with_reducible first
          | intro _ | assumption | apply onPart_safe | apply accept_safe | apply refused_safe | apply audit_safe
          | apply ite_safe)
      | refine modHub_safe ?_ _ rfl | split | dsimp only

theorem audCtrlWrite_safe (h : Safe b s) (i v) : Safe b (audCtrlWrite i v s).2 := by
  unfold audCtrlWrite
  repeat' first
      | (with_reducible first | intro _ | assumption | apply onPart_safe | apply accept_safe | apply audFlush_safe)
      | refine modHub_safe ?_ _ rfl

theorem audRd0Read_safe (h : Safe b s) (i) : Safe b (audRd0Read i s).2 := by
  unfold audRd0Read
  repeat' first
      | (with_reducible first
          | intro _ | assumption | apply onPartRead_safe | apply modIface_safe | apply refuse_safe | apply audit_safe
          | apply ite_safe)
      | split | dsimp only

theorem rlAppend_safe (h : Safe b s) (e) : Safe b (rlAppend s e) := by
  unfold rlAppend
  repeat' first
      | (with_reducible first | intro _ | assumption | apply ite_safe)
      | refine modHub_safe ?_ _ rfl | refine setCause_safe ?_ _ _ _ (by simp [causesOf])

theorem vrecTake_safe (h : Safe b s) (m) : Safe b (vrecTake m s) := by
  unfold vrecTake
  repeat' first
      | (with_reducible first
          | intro _ | assumption | apply refuse_safe | apply countPast_safe | apply countStepRefused_safe | apply mirror_safe
          | apply hubJobOk_safe | apply dropOld_safe | apply rlAppend_safe)
      | split | dsimp only | refine snd_safe (by assumption) ?_

theorem rlTailWrite_safe (h : Safe b s) (i v) : Safe b (rlTailWrite i v s).2 := by
  unfold rlTailWrite
  repeat' first
      | (with_reducible first
          | intro _ | assumption | apply onPart_safe | apply refused_safe | apply accept_safe | apply ite_safe)
      | refine modHub_safe ?_ _ rfl | split

theorem rlCfgWrite_safe (h : Safe b s) (i v) : Safe b (rlCfgWrite i v s).2 := by
  unfold rlCfgWrite
  repeat' first
      | (with_reducible first
          | intro _ | assumption | apply onPart_safe | apply refused_safe | apply accept_safe | apply ite_safe)
      | refine modHub_safe ?_ _ rfl | split | dsimp only

theorem rlRd0Read_safe (h : Safe b s) (i) : Safe b (rlRd0Read i s).2 := by
  unfold rlRd0Read
  repeat' first
      | (with_reducible first
          | intro _ | assumption | apply onPartRead_safe | apply modIface_safe | apply refuse_safe | apply ite_safe)
      | split | dsimp only

end Sys2Proof.Machine
end

section
/-! What the operations of Machine/Abort.lean keep. -/

namespace Sys2Proof.Machine

variable {b s : State}

theorem stepRecord_safe (h : Safe b s) (j c flags) : Safe b (stepRecord s j c flags) := by
  unfold stepRecord
  repeat' with_reducible first | intro _ | assumption | apply audit_safe | apply modJob_safe

theorem incompleteRecord_safe (h : Safe b s) (j) : Safe b (incompleteRecord s j) := by
  unfold incompleteRecord
  repeat' with_reducible first | intro _ | assumption | apply stepRecord_safe | apply ite_safe

theorem cancelLaunch_safe (h : Safe b s) : Safe b (cancelLaunch s) := by
  unfold cancelLaunch
  repeat' first
      | (with_reducible first | intro _ | assumption | apply dropStepPulses_safe | apply cancelTaps_safe)
      | refine modTsu_safe ?_ _ rfl | split

theorem abortWaits_safe (h : Safe b s) : Safe b (abortWaits s) := by
  unfold abortWaits
  repeat' first
      | (with_reducible first | intro _ | assumption | apply modWait_safe | apply foldl_safe | apply ite_safe)
      | refine setCause_safe ?_ _ _ _ (sync_named _)

theorem discardSends_safe (h : Safe b s) : Safe b (discardSends s) := by
  unfold discardSends
  refine foldl_safe (fun s x hs => ?_) (modTsu_of_safe h _ (fun ⟨hhp, _, hrest⟩ => ⟨hhp, Nat.zero_le _, hrest⟩) rfl)
  split
  · exact answer_safe hs _ _
  · exact hs

theorem tsuAbort_safe (h : Safe b s) : Safe b (tsuAbort s) := by
  have hdiscarded := discardSends_safe (abortWaits_safe (cancelLaunch_safe h))
  unfold tsuAbort
  generalize discardSends (abortWaits (cancelLaunch s)) = u at hdiscarded ⊢
  refine setCause_safe (modTsu_of_safe hdiscarded _ ?_ rfl) _ _ _ (by simp [causesOf])
  rintro ⟨hhp, hsends, hrq, hevq, hup, hrest⟩
  exact ⟨hhp, hsends, hrq, hevq, Nat.le_trans (List.length_filter_le _ _) hup, hrest⟩

theorem hubAbort_safe (h : Safe b s) (j) : Safe b (hubAbort s j) := by
  unfold hubAbort
  repeat' first | (with_reducible first | intro _ | assumption | apply modJob_safe) | refine modHub_safe ?_ _ rfl

theorem forwardDown_safe (h : Safe b s) (j eps m) : Safe b (forwardDown s j eps m) := by
  unfold forwardDown
  repeat' with_reducible first | intro _ | assumption | apply sendLink_safe | apply takeRoutes_safe | apply foldl_safe

theorem modTxn_safe (h : Safe b s) (tid f) : Safe b (modTxn s tid f) := by
  unfold modTxn
  repeat' first | (with_reducible first | intro _ | assumption) | refine modHub_safe ?_ _ rfl

theorem modTxnRegs_safe (h : Safe b s) (f) : Safe b (modTxnRegs s f) := by
  unfold modTxnRegs
  repeat' first | (with_reducible first | intro _ | assumption) | refine modHub_safe ?_ _ rfl

theorem mirrorTxn_safe (h : Safe b s) (tid v) : Safe b (mirrorTxn s tid v) := by
  unfold mirrorTxn
  repeat' with_reducible first | intro _ | assumption | apply mirror_safe

theorem finishTxn_safe (h : Safe b s) (tid) : Safe b (finishTxn s tid) := by
  unfold finishTxn
  refine foldl_safe (fun s x hs => modTxn_safe hs _ _) (mirrorTxn_safe (modHub_of_safe h _ ?_ (.of_eq rfl rfl rfl) rfl) _ _)
  rintro ⟨hhq, hqueue, hrest⟩
  exact ⟨hhq, Nat.le_trans List.length_erase_le hqueue, hrest⟩

theorem txnAbortEv_safe (h : Safe b s) (sub part tid kind cause voter commit tag) :
    Safe b (txnAbortEv s sub part tid kind cause voter commit tag) := by
  unfold txnAbortEv
  repeat' with_reducible first | intro _ | assumption | apply raise_safe | apply ite_safe

theorem setStaged_safe (h : Safe b s) (p part g) : Safe b (setStaged s p part g) := by
  unfold setStaged
  repeat' first
      | (with_reducible first | intro _ | assumption) | refine modHub_safe ?_ _ rfl | refine modTsu_safe ?_ _ rfl | split

theorem unstage_safe (h : Safe b s) (p part coord tid) : Safe b (unstage s p part coord tid) := by
  unfold unstage
  repeat' first | (with_reducible first | intro _ | assumption | apply setStaged_safe | apply ite_safe) | split

theorem txnAbort_safe (h : Safe b s) (tid sub cause) : Safe b (txnAbort s tid sub cause) := by
  unfold txnAbort
  repeat' first
      | (with_reducible first
          | intro _ | assumption | apply unstage_safe | apply sendTargets_safe | apply modTxn_safe | apply txnAbortEv_safe
          | apply finishTxn_safe | apply ite_safe)
      | refine setCause_safe ?_ _ _ _ (by simp [causesOf])

theorem abortJob_safe (h : Safe b s) (j cause) : Safe b (abortJob s j cause) := by
  unfold abortJob
  repeat' first
      | (with_reducible first
          | intro _ | assumption | apply txnAbortEv_safe | apply sendTwin_safe | apply forwardDown_safe | apply hubAbort_safe
          | apply incompleteRecord_safe | apply modJob_safe | apply txnAbort_safe | apply foldl_safe | apply ite_safe)
      | refine setCause_safe ?_ _ _ _ (by simp [causesOf])

theorem poison_safe (h : Safe b s) (j step sub target) : Safe b (poison s j step sub target) := by
  unfold poison
  repeat' with_reducible first
      | intro _ | assumption | apply raise_safe | apply bothPlanes_safe | apply audit_safe | apply abortJob_safe
      | apply ite_safe

theorem jobAbortTake_safe (h : Safe b s) (l m) : Safe b (jobAbortTake l m s) := by
  unfold jobAbortTake
  repeat' first
      | (with_reducible first
          | intro _ | assumption | apply tsuSend_safe | apply tsuAbort_safe | apply abortJob_safe | apply sendHub_safe
          | apply hubAbort_safe | apply forwardDown_safe | apply ite_safe)
      | refine modTsu_safe ?_ _ rfl | split

theorem abortAckTake_safe (h : Safe b s) (m member) : Safe b (abortAckTake m member s) := by
  unfold abortAckTake
  repeat' with_reducible first | intro _ | assumption | apply modJob_safe | apply sendHub_safe | apply ite_safe

theorem abortCmdWrite_safe (h : Safe b s) (i v) : Safe b (abortCmdWrite i v s).2 := by
  unfold abortCmdWrite
  repeat' first
      | (with_reducible first
          | intro _ | assumption | apply onPart_safe | apply modTxnRegs_safe | apply accept_safe | apply abortJob_safe
          | apply sendHub_safe | apply refused_safe | apply ite_safe)
      | split | dsimp only

theorem tsuReport_safe (h : Safe b s) (kind detail) : Safe b (tsuReport s kind detail) := by
  unfold tsuReport
  repeat' with_reducible first | intro _ | assumption | apply tsuSend_safe

theorem launchMiss_safe (h : Safe b s) (step target cause) : Safe b (launchMiss s step target cause) := by
  unfold launchMiss
  repeat' first
      | (with_reducible first | intro _ | assumption | apply raise_safe | apply tsuReport_safe)
      | refine modTsu_safe ?_ _ rfl | refine setCause_safe ?_ _ _ _ (by simp [causesOf])

theorem reportTake_safe (h : Safe b s) (m) : Safe b (reportTake m s) := by
  unfold reportTake
  repeat' first
      | (with_reducible first
          | intro _ | assumption | apply sendTwin_safe | apply modJob_safe | apply sendUp_safe | apply abortJob_safe
          | apply ite_safe)
      | refine setCause_safe ?_ _ _ _ (by simp [causesOf]) | split

end Sys2Proof.Machine
end

section
/-! What the operations of Machine/Envelope.lean keep. -/

namespace Sys2Proof.Machine

variable {b s : State}

theorem computeEnv_safe (h : Safe b s) (j) : Safe b (computeEnv s j) := by
  unfold computeEnv
  repeat' with_reducible first | intro _ | assumption | apply modJob_safe | apply mirror_safe | apply ite_safe

theorem envChange_safe (h : Safe b s) (j) : Safe b (envChange s j) := by
  unfold envChange
  repeat' with_reducible first | intro _ | assumption | apply computeEnv_safe | apply modJob_safe

theorem envEvent_safe (h : Safe b s) (j step mask basis old new) : Safe b (envEvent s j step mask basis old new) := by
  unfold envEvent
  repeat' first
      | (with_reducible first | intro _ | assumption | apply raise_safe | apply modJob_safe)
      | refine setCause_safe ?_ _ _ _ (by simp [causesOf])

theorem envLaunch_safe (h : Safe b s) (j step) : Safe b (envLaunch s j step) := by
  unfold envLaunch
  repeat' with_reducible first | intro _ | assumption | apply modJob_safe | apply envEvent_safe | apply ite_safe

end Sys2Proof.Machine
end

section
/-! What the operations of Machine/Barriers.lean keep. -/

namespace Sys2Proof.Machine

variable {b s : State}

theorem modLate_safe (h : Safe b s) (j r f) : Safe b (modLate s j r f) := by
  unfold modLate
  repeat' with_reducible first | intro _ | assumption | apply modJob_safe

theorem lateBlockEnd_safe (h : Safe b s) (j r) : Safe b (lateBlockEnd s j r) := by
  unfold lateBlockEnd
  repeat' with_reducible first | intro _ | assumption | apply modLate_safe | apply raise_safe | apply ite_safe

theorem lateSample_safe (h : Safe b s) (j r step v) : Safe b (lateSample s j r step v) := by
  unfold lateSample
  repeat' with_reducible first | intro _ | assumption | apply lateBlockEnd_safe | apply modLate_safe

theorem lateArrive_safe (h : Safe b s) (l j r wire) : Safe b (lateArrive s l j r wire) := by
  unfold lateArrive
  repeat' first
      | (with_reducible first | intro _ | assumption | apply mirror_safe | apply lateSample_safe)
      | refine modHub_safe ?_ _ rfl | split

theorem ltCfgWrite_safe (h : Safe b s) (i v) : Safe b (ltCfgWrite i v s).2 := by
  unfold ltCfgWrite
  repeat' first
      | (with_reducible first
          | intro _ | assumption | apply onPart_safe | apply refused_safe | apply accept_safe | apply modLate_safe
          | apply ite_safe)
      | split | dsimp only

theorem ltMeanRead_safe (h : Safe b s) (i) : Safe b (ltMeanRead i s).2 := by
  unfold ltMeanRead
  repeat' with_reducible first | intro _ | assumption | apply onPartRead_safe | apply modIfaceRegs_safe

theorem mirrorCadence_safe (h : Safe b s) (j) : Safe b (mirrorCadence s j) := by
  unfold mirrorCadence
  repeat' with_reducible first | intro _ | assumption | apply mirror_safe

theorem pauseFollow_safe (h : Safe b s) (j) : Safe b (pauseFollow s j) := by
  unfold pauseFollow
  repeat' with_reducible first | intro _ | assumption | apply modJob_safe | apply ite_safe

theorem stepEnds_safe (h : Safe b s) (j) : Safe b (stepEnds s j) := by
  unfold stepEnds
  repeat' first
      | (with_reducible first
          | intro _ | assumption | apply schedTest_safe | apply modJob_safe | apply bothPlanes_safe
          | apply mirrorCadence_safe | apply ite_safe)
      | refine setCause_safe ?_ _ _ _ (by simp [causesOf])

theorem modBarrier_safe (h : Safe b s) (j o f) : Safe b (modBarrier s j o f) := by
  unfold modBarrier
  repeat' with_reducible first | intro _ | assumption | apply modJob_safe

theorem mirrorBarrier_safe (h : Safe b s) (j o) : Safe b (mirrorBarrier s j o) := by
  unfold mirrorBarrier
  repeat' first | (with_reducible first | intro _ | assumption | apply mirror_safe) | split

theorem seeRelease_safe (h : Safe b s) (j o gen) : Safe b (seeRelease s j o gen) := by
  unfold seeRelease
  repeat' with_reducible first | intro _ | assumption | apply modJob_safe

theorem releaseTick_safe (h : Safe b s) (j timed) : Safe b (releaseTick s j timed).2 := by
  unfold releaseTick
  repeat' first
      | (with_reducible first | intro _ | assumption | apply schedTest_safe | apply ite_safe)
      | split | dsimp only | refine snd_safe (by assumption) ?_

theorem releaseBarrier_safe (h : Safe b s) (j o) : Safe b (releaseBarrier s j o) := by
  unfold releaseBarrier
  repeat' first
      | (with_reducible first
          | intro _ | assumption | apply sendTwin_safe | apply ladleObj_safe | apply stepEnds_safe | apply modBarrier_safe
          | apply seeRelease_safe | apply releaseTick_safe | apply ite_safe)
      | split

theorem barrierFold_safe (h : Safe b s) (m) : Safe b (barrierFold m s) := by
  unfold barrierFold
  repeat' first
      | (with_reducible first
          | intro _ | assumption | apply modSynch_safe | apply hubJobOk_safe | apply mirrorBarrier_safe
          | apply modBarrier_safe | apply releaseBarrier_safe | apply ite_safe)
      | refine setCause_safe ?_ _ _ _ (by simp [causesOf]) | split | dsimp only | refine snd_safe (by assumption) ?_

theorem arriveOn_safe (h : Safe b s) (m) : Safe b (arriveOn m s) := by
  unfold arriveOn
  repeat' with_reducible first
      | intro _ | assumption | apply foldTwin_safe | apply foldOn_safe | apply barrierFold_safe | apply ite_safe

theorem detectArrive_safe (h : Safe b s) (j r) : Safe b (detectArrive s j r) := by
  unfold detectArrive
  repeat' with_reducible first | intro _ | assumption | apply modJob_safe

theorem arriveLeaf_safe (h : Safe b s) (l m) : Safe b (arriveLeaf l m s) := by
  unfold arriveLeaf
  repeat' first
      | (with_reducible first
          | intro _ | assumption | apply mirror_safe | apply modJob_safe | apply hubJobOk_safe | apply dropOld_safe
          | apply modSynch_safe | apply rejectFenced_safe | apply lateArrive_safe | apply arriveOn_safe
          | apply detectArrive_safe | apply ite_safe)
      | split | dsimp only | refine snd_safe (by assumption) ?_

theorem staleRelease_safe (h : Safe b s) (j) : Safe b (staleRelease s j) := by
  unfold staleRelease
  repeat' with_reducible first | intro _ | assumption | apply dropOld_safe | apply modSynch_safe

theorem twinRelease_safe (h : Safe b s) (m) : Safe b (twinRelease m s) := by
  unfold twinRelease
  repeat' first
      | (with_reducible first
          | intro _ | assumption | apply ladleObj_safe | apply hubJobOk_safe | apply modBarrier_safe | apply seeRelease_safe
          | apply staleRelease_safe)
      | split | dsimp only | refine snd_safe (by assumption) ?_

theorem releaseOn_safe (h :
    Safe b s) (l) (m) (act) (h2 : ∀ t, Safe b t → Safe b (act t)) :
    Safe b (releaseOn l m act s) := by
  unfold releaseOn
  repeat' first
      | (with_reducible first | intro _ | assumption | apply ite_safe | apply h2 | apply nearStep_safe | apply ifValid_safe)
      | split

theorem twinLaunch_safe (h : Safe b s) (m st y) : Safe b (twinLaunch s m st y) := by
  unfold twinLaunch
  repeat' first
      | (with_reducible first | intro _ | assumption | apply schedTest_safe | apply modJob_safe)
      | split | dsimp only | refine snd_safe (by assumption) ?_

theorem stepReleaseDown_safe (h : Safe b s) (l m) : Safe b (stepReleaseDown l m s) := by
  unfold stepReleaseDown
  repeat' first
      | (with_reducible first
          | intro _ | assumption | apply countPast_safe | apply countStepRefused_safe | apply shadowStep_safe
          | apply modJob_safe | apply ladleAll_safe | apply twinLaunch_safe | apply ite_safe)
      | split | dsimp only

theorem ifCurrent_safe (h :
    Safe b s) (j) (epoch) (step) (g) (act) (h4 : ∀ t, Safe b t → Safe b (act t)) :
    Safe b (ifCurrent j epoch step g act s) := by
  unfold ifCurrent
  repeat' first
      | (with_reducible first
          | intro _ | assumption | apply h4 | apply refuse_safe | apply hubJobOk_safe | apply dropOld_safe
          | apply nearStep_safe)
      | split | dsimp only | with_reducible exact snd_safe (by assumption) (by assumption)
      | refine snd_safe (by assumption) ?_

theorem sendRank_safe (h : Safe b s) (j r m) : Safe b (sendRank s j r m) := by
  unfold sendRank
  repeat' first | (with_reducible first | intro _ | assumption | apply sendEp_safe | apply refuseXlat_safe) | split

theorem poisonOn_safe (h : Safe b s) (l m) : Safe b (poisonOn l m s) := by
  unfold poisonOn
  repeat' with_reducible first
      | intro _ | assumption | apply sendTwin_safe | apply sendHub_safe | apply ladleAll_safe | apply poison_safe
      | apply ite_safe

theorem downOn_safe (h : Safe b s) (l m) : Safe b (downOn l m s) := by
  unfold downOn
  repeat' first
      | (with_reducible first
          | intro _ | assumption | apply refuse_safe | apply modJob_safe | apply ladleObj_safe | apply ladleAll_safe
          | apply hubJobOk_safe | apply dropOld_safe | apply ifValid_safe | apply pauseFollow_safe | apply seeRelease_safe
          | apply staleRelease_safe | apply twinRelease_safe | apply releaseOn_safe | apply stepReleaseDown_safe
          | apply ifCurrent_safe | apply sendRank_safe | apply poisonOn_safe | apply ite_safe)
      | split | dsimp only | refine snd_safe (by assumption) ?_

theorem shGenWrite_safe (h : Safe b s) (i v) : Safe b (shGenWrite i v s).2 := by
  unfold shGenWrite
  repeat' first
      | (with_reducible first
          | intro _ | assumption | apply onPart_safe | apply accept_safe | apply modBarrier_safe | apply refused_safe
          | apply ite_safe)
      | split | dsimp only

theorem shCountWrite_safe (h : Safe b s) (i v) : Safe b (shCountWrite i v s).2 := by
  unfold shCountWrite
  repeat' first
      | (with_reducible first
          | intro _ | assumption | apply onPart_safe | apply accept_safe | apply modBarrier_safe | apply refused_safe
          | apply ite_safe)
      | split | dsimp only

theorem shJobWrite_safe (h : Safe b s) (i v) : Safe b (shJobWrite i v s).2 := by
  unfold shJobWrite
  repeat' first
      | (with_reducible first
          | intro _ | assumption | apply onPart_safe | apply accept_safe | apply mirrorCadence_safe | apply modJob_safe
          | apply refused_safe | apply ite_safe)
      | split | dsimp only

end Sys2Proof.Machine
end

section
/-! What the operations of Machine/Launch.lean keep. -/

namespace Sys2Proof.Machine

variable {b s : State}

theorem modSeq_safe (h : Safe b s) (x f) : Safe b (modSeq s x f) := by
  unfold modSeq
  repeat' first | (with_reducible first | intro _ | assumption | apply modJob_safe) | refine modTsu_safe ?_ _ rfl | split

theorem modSeqRegs_safe (h : Safe b s) (x f) : Safe b (modSeqRegs s x f) := by
  unfold modSeqRegs
  repeat' with_reducible first | intro _ | assumption | apply modSeq_safe

theorem seqCause_safe (h : Safe b s) (x k) (hk : k < 5) : Safe b (seqCause s x k) := by
  unfold seqCause
  have hnamed : ∀ g : Page, causesOf g = 0x1F → (causesOf g).getLsbD k = true := fun g hg => by
    rw [hg]
    match k, hk with
    | 0, _ | 1, _ | 2, _ | 3, _ | 4, _ => rfl
  cases x
  · exact setCause_safe h _ _ _ (hnamed _ rfl)
  · exact setCause_safe h _ _ _ (hnamed _ rfl)

theorem halt_safe (h : Safe b s) (x cause addr) : Safe b (halt s x cause addr) := by
  unfold halt
  repeat' first
      | (with_reducible first | intro _ | assumption | apply modSeq_safe | apply tsuReport_safe | apply abortJob_safe)
      | refine seqCause_safe ?_ _ _ (by decide) | split

theorem freeStore_safe (h : Safe b s) : Safe b (freeStore s) := by
  unfold freeStore
  repeat' first
      | (with_reducible first | intro _ | assumption | apply returnCredit_safe | apply foldl_safe)
      | refine modTsu_safe ?_ _ rfl

theorem tsuPass_safe (h : Safe b s) (step launch) : Safe b (tsuPass s step launch) := by
  unfold tsuPass
  repeat' first | (with_reducible first | intro _ | assumption) | refine modTsu_safe ?_ _ rfl

theorem launchStep_safe (h : Safe b s) (x) : Safe b (launchStep s x) := by
  unfold launchStep
  repeat' first
      | (with_reducible first
          | intro _ | assumption | apply freeStore_safe | apply launchDue_safe | apply tsuPass_safe | apply modSeqRegs_safe
          | apply halt_safe | apply ite_safe)
      | refine modTsu_safe ?_ _ rfl | refine setCause_safe ?_ _ _ _ (by simp [causesOf, sitePage])

theorem holdLaunch_safe (h : Safe b s) (x) : Safe b (holdLaunch s x) := by
  unfold holdLaunch
  repeat' first
      | (with_reducible first | intro _ | assumption | apply schedStepPulses_safe | apply launchTaps_safe | apply ite_safe)
      | refine modTsu_safe ?_ _ rfl

theorem relFirst_safe (h : Safe b s) (m step) : Safe b (relFirst m step s) := by
  unfold relFirst
  repeat' first
      | (with_reducible first
          | intro _ | assumption | apply schedWire_safe | apply holdLaunch_safe | apply launchMiss_safe | apply ite_safe)
      | refine modTsu_safe ?_ _ rfl | split | dsimp only | refine snd_safe (by assumption) ?_

theorem relSecond_safe (h : Safe b s) (m first step) : Safe b (relSecond m first step s) := by
  unfold relSecond
  repeat' first
      | (with_reducible first
          | intro _ | assumption | apply launchMiss_safe | apply dropStepPulses_safe | apply cancelTaps_safe | apply ite_safe)
      | refine modTsu_safe ?_ _ rfl | split | dsimp only

theorem stepReleaseTake_safe (h : Safe b s) (m) : Safe b (stepReleaseTake m s) := by
  unfold stepReleaseTake
  repeat' first
      | (with_reducible first
          | intro _ | assumption | apply refuse_safe | apply countStepRefused_safe | apply tsuJobOk_safe
          | apply relFirst_safe | apply relSecond_safe | apply ite_safe)
      | refine modTsu_safe ?_ _ rfl | split | dsimp only | refine snd_safe (by assumption) ?_

theorem homePass_safe (h : Safe b s) (j step launch) : Safe b (homePass s j step launch) := by
  unfold homePass
  repeat' first
      | (with_reducible first
          | intro _ | assumption | apply modJob_safe | apply modSeqRegs_safe | apply halt_safe | apply ite_safe)
      | refine seqCause_safe ?_ _ _ (by decide) | split

theorem homeLaunch_safe (h : Safe b s) (j x) : Safe b (homeLaunch s j x) := by
  unfold homeLaunch
  repeat' with_reducible first
      | intro _ | assumption | apply refused_safe | apply modJob_safe | apply envLaunch_safe | apply homePass_safe

end Sys2Proof.Machine
end

section
/-! What the operations of Machine/Prog.lean keep. -/

namespace Sys2Proof.Machine

variable {b s : State}

theorem progRefused_safe (h : Safe b s) (x) : Safe b (progRefused s x).2 := by
  unfold progRefused
  repeat' with_reducible first | intro _ | assumption | apply refused_safe

theorem progCtrlWrite_safe (h : Safe b s) (i v) : Safe b (progCtrlWrite i v s).2 := by
  unfold progCtrlWrite
  repeat' first
      | (with_reducible first
          | intro _ | assumption | apply progRefused_safe | apply accept_safe | apply modSeq_safe | apply modSeqRegs_safe
          | apply ite_safe)
      | split | dsimp only

theorem progDataWrite_safe (h : Safe b s) (i v) : Safe b (progDataWrite i v s).2 := by
  unfold progDataWrite
  repeat' first
      | (with_reducible first
          | intro _ | assumption | apply progRefused_safe | apply modSeq_safe | apply accept_safe | apply ite_safe)
      | split | dsimp only

theorem progDataRead_safe (h : Safe b s) (i) : Safe b (progDataRead i s).2 := by
  unfold progDataRead
  repeat' first | (with_reducible first | intro _ | assumption | apply modSeqRegs_safe | apply ite_safe) | split | dsimp only

theorem progAddrWrite_safe (h : Safe b s) (i v) : Safe b (progAddrWrite i v s).2 := by
  unfold progAddrWrite
  repeat' first
      | (with_reducible first
          | intro _ | assumption | apply progRefused_safe | apply accept_safe | apply modSeqRegs_safe | apply ite_safe)
      | split | dsimp only

end Sys2Proof.Machine
end

section
/-! What the operations of Machine/Checks.lean keep. -/

namespace Sys2Proof.Machine

variable {b s : State}

theorem residueEv_safe (h : Safe b s) (j step sub sev unit ctx elem verdict) :
    Safe b (residueEv s j step sub sev unit ctx elem verdict) := by
  unfold residueEv
  repeat' with_reducible first | intro _ | assumption | apply raise_safe

theorem unresolved_safe (h : Safe b s) (j c step unit elem) : Safe b (unresolved s j c step unit elem) := by
  unfold unresolved
  repeat' first
      | (with_reducible first
          | intro _ | assumption | apply residueEv_safe | apply poison_safe | apply sendTwin_safe | apply sendHub_safe
          | apply ite_safe)
      | refine modHub_safe ?_ _ rfl | refine setCause_safe ?_ _ _ _ (by simp [causesOf])

theorem foldFault_safe (h : Safe b s) (j c step f) : Safe b (foldFault j c step s f) := by
  unfold foldFault
  repeat' first
      | (with_reducible first
          | intro _ | assumption | apply chargeUnit_safe | apply residueEv_safe | apply unresolved_safe | apply ite_safe)
      | refine modHub_safe ?_ _ rfl | split

theorem foldFaults_safe (h : Safe b s) (j c step fs) : Safe b (foldFaults s j c step fs) := by
  unfold foldFaults
  repeat' with_reducible first | intro _ | assumption | apply foldFault_safe | apply foldl_safe

end Sys2Proof.Machine
end

section
/-! What the operations of Machine/Reduce.lean keep. -/

namespace Sys2Proof.Machine

variable {b s : State}

theorem modCtx_safe (h : Safe b s) (j c f) : Safe b (modCtx s j c f) := by
  unfold modCtx
  repeat' with_reducible first | intro _ | assumption | apply modJob_safe

theorem modCtxRegs_safe (h : Safe b s) (j c f) : Safe b (modCtxRegs s j c f) := by
  unfold modCtxRegs
  repeat' with_reducible first | intro _ | assumption | apply modCtx_safe

theorem openBuf_safe (h : Safe b s) (j c y) : Safe b (openBuf s j c y).2 := by
  unfold openBuf
  repeat' first
      | (with_reducible first | intro _ | assumption | apply modCtx_safe | apply ite_safe)
      | refine modHub_safe ?_ _ rfl | refine setCause_safe ?_ _ _ _ (by simp [causesOf]) | split | dsimp only

theorem refuseContrib_safe (h : Safe b s) (j c y wire rank copy) : Safe b (refuseContrib s j c y wire rank copy) := by
  unfold refuseContrib
  repeat' first
      | (with_reducible first
          | intro _ | assumption | apply refuse_safe | apply refused_safe | apply raise_safe | apply modJob_safe
          | apply sendEp_safe | apply modCtxRegs_safe | apply ite_safe)
      | refine setCause_safe ?_ _ _ _ (by simp [causesOf]) | split | dsimp only

theorem excess_safe (h : Safe b s) (j c w) : Safe b (excess s j c w) := by
  unfold excess
  repeat' first
      | (with_reducible first | intro _ | assumption | apply modCtx_safe) | refine setCause_safe ?_ _ _ _ (by simp [causesOf])

theorem foldElems_safe (h : Safe b s) (j c w all ovf) : Safe b (foldElems s j c w all ovf) := by
  unfold foldElems
  repeat' with_reducible first
      | intro _ | assumption | apply modCtx_safe | apply excess_safe | apply foldl_safe | apply ite_safe

theorem stageElems_safe (h : Safe b s) (j c w rank all ovf) : Safe b (stageElems s j c w rank all ovf) := by
  unfold stageElems
  repeat' with_reducible first
      | intro _ | assumption | apply modCtx_safe | apply excess_safe | apply foldl_safe | apply ite_safe

theorem homeFold_safe (h : Safe b s) (j c wire rank copy act)
    (hf : ∀ s w, Safe b s → Safe b (act s w)) : Safe b (homeFold s j c wire rank copy act) := by
  unfold homeFold
  repeat' first
      | (with_reducible first
          | intro _ | assumption | apply ite_safe | apply hf | apply countStepRefused_safe | apply modCtxRegs_safe
          | apply openBuf_safe | apply refuseContrib_safe)
      | split | dsimp only | with_reducible exact snd_safe (by assumption) (by assumption)
      | refine snd_safe (by assumption) ?_

theorem homeContrib_safe (h : Safe b s) (m copy) : Safe b (homeContrib m copy s) := by
  unfold homeContrib
  repeat' with_reducible first
      | intro _ | assumption | apply homeFold_safe | apply stageElems_safe | apply foldElems_safe | apply ite_safe

theorem homePartial_safe (h : Safe b s) (m copy) : Safe b (homePartial m copy s) := by
  unfold homePartial
  repeat' with_reducible first | intro _ | assumption | apply homeFold_safe | apply foldElems_safe

theorem homeTake_safe (h : Safe b s) (l m) : Safe b (homeTake l m s) := by
  unfold homeTake
  repeat' first
      | (with_reducible first
          | intro _ | assumption | apply homeContrib_safe | apply sendTwin_safe | apply homePartial_safe | apply ite_safe)
      | split

theorem partUp_safe (h : Safe b s) (cfg m) : Safe b (partUp cfg m s) := by
  unfold partUp
  repeat' with_reducible first | intro _ | assumption | apply foldOn_safe

theorem contribOn_safe (h : Safe b s) (l m) : Safe b (contribOn l m s) := by
  unfold contribOn
  repeat' with_reducible first
      | intro _ | assumption | apply passUp_safe | apply modCtxRegs_safe | apply homeTake_safe | apply partUp_safe
      | apply foldl_safe | apply ite_safe

theorem staleContrib_safe (h : Safe b s) (j c) : Safe b (staleContrib s j c) := by
  unfold staleContrib
  repeat' with_reducible first | intro _ | assumption | apply dropOld_safe | apply modCtxRegs_safe

theorem contribTake_safe (h : Safe b s) (l m) : Safe b (contribTake l m s) := by
  unfold contribTake
  repeat' first
      | (with_reducible first
          | intro _ | assumption | apply modJob_safe | apply hubJobOk_safe | apply atEdge_safe | apply rejectFenced_safe
          | apply contribOn_safe | apply staleContrib_safe | apply ite_safe)
      | split | dsimp only | refine snd_safe (by assumption) ?_

theorem checkedTake_safe (h : Safe b s) (j epoch c wire faults take)
    (hf : ∀ s, Safe b s → Safe b (take s)) : Safe b (checkedTake j epoch c wire faults take s) := by
  unfold checkedTake
  repeat' with_reducible first | intro _ | assumption | apply hf | apply ite_safe | apply hubJobOk_safe | apply foldFaults_safe

theorem partTake_safe (h : Safe b s) (l m) : Safe b (partTake l m s) := by
  unfold partTake
  repeat' first
      | (with_reducible first
          | intro _ | assumption | apply hubJobOk_safe | apply homeTake_safe | apply partUp_safe | apply staleContrib_safe
          | apply ite_safe)
      | split | dsimp only | refine snd_safe (by assumption) ?_

theorem freeBufs_safe (h : Safe b s) (j y) : Safe b (freeBufs s j y) := by
  unfold freeBufs
  repeat' first
      | (with_reducible first | intro _ | assumption | apply modJob_safe | apply ite_safe)
      | refine setCause_safe ?_ _ _ _ (by simp [causesOf])

theorem rereqTake_safe (h : Safe b s) (m) : Safe b (rereqTake m s) := by
  unfold rereqTake
  repeat' first
      | (with_reducible first
          | intro _ | assumption | apply sendEp_safe | apply sendUp_safe | apply modCtxRegs_safe | apply ite_safe)
      | refine modHub_safe ?_ _ rfl | split | dsimp only

theorem rresDiffer_safe (h : Safe b s) (j y m) : Safe b (rresDiffer s j y m) := by
  unfold rresDiffer
  exact sendTwin_safe (raise_safe h _ _) _ _

theorem rresOwn_safe (h : Safe b s) (j y m) : Safe b (rresOwn j y s m) := by
  unfold rresOwn
  repeat' first
      | (with_reducible first | intro _ | assumption | apply modJob_safe | apply rresDiffer_safe | apply ite_safe)
      | split

theorem rresCompare_safe (h : Safe b s) (m) : Safe b (rresCompare m s) := by
  unfold rresCompare
  repeat' first
      | (with_reducible first | intro _ | assumption | apply rresDiffer_safe | apply modJob_safe | apply ite_safe)
      | split

end Sys2Proof.Machine
end

section
/-! What the operations of Machine/Digest.lean keep. -/

namespace Sys2Proof.Machine

variable {b s : State}

theorem modFold_safe (h : Safe b s) (j y f) : Safe b (modFold s j y f) := by
  unfold modFold
  repeat' with_reducible first | intro _ | assumption | apply modJob_safe

theorem modDigh_safe (h : Safe b s) (j f) : Safe b (modDigh s j f) := by
  unfold modDigh
  repeat' with_reducible first | intro _ | assumption | apply modJob_safe

theorem digStale_safe (h : Safe b s) (j) : Safe b (digStale s j) := by
  unfold digStale
  repeat' with_reducible first | intro _ | assumption | apply modDigh_safe

theorem digWindow_safe (h : Safe b s) (j wire act)
    (hf : ∀ s w, Safe b s → Safe b (act s w)) : Safe b (digWindow s j wire act) := by
  unfold digWindow
  cases windowOf (s.job j) wire
  · exact countStepRefused_safe h _ _ _
  · exact digStale_safe h _
  · exact digStale_safe h _
  · exact hf _ _ h

theorem homeDgp_safe (h : Safe b s) (m) : Safe b (homeDgp m s) := by
  unfold homeDgp
  repeat' with_reducible first | intro _ | assumption | apply digWindow_safe | apply modFold_safe

theorem homeVmap_safe (h : Safe b s) (m) : Safe b (homeVmap m s) := by
  unfold homeVmap
  repeat' with_reducible first | intro _ | assumption | apply digWindow_safe | apply modFold_safe

theorem groupRecord_safe (h : Safe b s) (j step did g vs) : Safe b (groupRecord s j step did g vs) := by
  unfold groupRecord
  repeat' with_reducible first | intro _ | assumption | apply audit_safe | apply ite_safe

theorem checkDropped_safe (h : Safe b s) (j y) : Safe b (checkDropped s j y) := by
  unfold checkDropped
  repeat' with_reducible first | intro _ | assumption | apply modFold_safe

theorem checkHeld_safe (h : Safe b s) (m y) : Safe b (checkHeld s m y) := by
  unfold checkHeld
  repeat' with_reducible first | intro _ | assumption | apply modFold_safe

theorem homeCheckGroup_safe (h : Safe b s) (m y) : Safe b (homeCheckGroup m y s) := by
  unfold homeCheckGroup
  repeat' with_reducible first
      | intro _ | assumption | apply checkDropped_safe | apply modDigh_safe | apply checkHeld_safe | apply groupRecord_safe
      | apply ite_safe

theorem homeCheckProv_safe (h : Safe b s) (m y) : Safe b (homeCheckProv m y s) := by
  unfold homeCheckProv
  repeat' with_reducible first
      | intro _ | assumption | apply checkDropped_safe | apply modDigh_safe | apply checkHeld_safe | apply ite_safe

theorem homeCheck_safe (h : Safe b s) (m) : Safe b (homeCheck m s) := by
  unfold homeCheck
  repeat' with_reducible first
      | intro _ | assumption | apply rejectFenced_safe | apply digWindow_safe | apply homeCheckProv_safe
      | apply homeCheckGroup_safe | apply ite_safe

theorem digTake_safe (h : Safe b s) (l j epoch m home up)
    (h4 : ∀ t, Safe b t → Safe b (home t)) (h5 : ∀ t, Safe b t → Safe b (up t)) :
    Safe b (digTake l j epoch m home up s) := by
  unfold digTake
  repeat' first
      | (with_reducible first
          | intro _ | assumption | apply ite_safe | apply h5 | apply h4 | apply sendTwin_safe | apply hubJobOk_safe
          | apply dropOld_safe | apply rejectFenced_safe | apply digStale_safe)
      | split | dsimp only | with_reducible exact snd_safe (by assumption) (by assumption)
      | refine snd_safe (by assumption) ?_

theorem provUpdate_safe (h : Safe b s) (j y rs shard) :
    Safe b (provUpdate s j y rs shard).1 := by
  have hp : ∀ k v, Safe b (modHub s fun h => { h with prov := tset 0 h.prov k v }) := fun _ _ => modHub_of_safe h _ (fun ht =>
      ht) (.of_eq rfl rfl rfl) rfl
  unfold provUpdate
  extract_lets _ _ _ _ _ _ _ _ _ s1 _ s2
  refine fst_ite_safe (hp _ _) ?_
  have h1 : Safe b s1 := setCause_safe (hp _ _) _ _ _ (by simp [causesOf])
  show Safe b s2
  exact ite_safe (audit_safe (fresh_safe h1) _ _) h1

theorem provApply_safe (h : Safe b s) (j y f x3) : Safe b (provApply j y f x3 s).1 := by
  induction x3 generalizing s with
  | nil => exact h
  | cons k ks ih => exact ih (provUpdate_safe h _ _ _ _)

theorem closeGroups_safe (h : Safe b s) (j y f did d x5) : Safe b (closeGroups j y f did d x5
    s).1 := by
  induction x5 generalizing s with
  | nil => exact h
  | cons g gs ih =>
    simp only [closeGroups]
    split
    · exact ih (ite_safe h (groupRecord_safe h _ _ _ _ _))
    · exact ih (ite_safe h (groupRecord_safe h _ _ _ _ _))

theorem closeDids_safe (h : Safe b s) (j y f x3) : Safe b (closeDids j y f x3 s).1 := by
  induction x3 generalizing s with
  | nil => exact h
  | cons g gs ih =>
    simp only [closeDids]
    split
    · split
      · exact ih (closeGroups_safe h _ _ _ _ _ _)
      · exact ih (closeGroups_safe h _ _ _ _ _ _)
    · exact ih h

theorem mismatchEv_safe (h : Safe b s) (j y m) : Safe b (mismatchEv j y s m) := by
  unfold mismatchEv
  repeat' with_reducible first | intro _ | assumption | apply raise_safe

theorem digestDone_safe (h : Safe b s) (j c) : Safe b (digestDone s j c) := by
  unfold digestDone
  repeat' with_reducible first | intro _ | assumption | apply modJob_safe | apply shadowStep_safe

theorem finishClose_safe (h : Safe b s) (j c diverge missing) : Safe b (finishClose s j c diverge missing) := by
  unfold finishClose
  repeat' first
      | (with_reducible first
          | intro _ | assumption | apply mismatchEv_safe | apply modDigh_safe | apply stepRecord_safe | apply digestDone_safe
          | apply poison_safe | apply foldl_safe | apply ite_safe)
      | refine setCause_safe ?_ _ _ _ (by simp [causesOf]) | split

theorem compareClose_safe (h : Safe b s) (j c d v) : Safe b (compareClose s j c d v) := by
  unfold compareClose
  repeat' with_reducible first | intro _ | assumption | apply finishClose_safe

theorem foldsComplete_safe (h : Safe b s) (j) : Safe b (foldsComplete s j) := by
  unfold foldsComplete
  repeat' first
      | (with_reducible first
          | intro _ | assumption | apply closeDids_safe | apply provApply_safe | apply compareClose_safe | apply modJob_safe
          | apply digestDone_safe | apply sendTwin_safe | apply ite_safe)
      | split

theorem twinCloseTake_safe (h : Safe b s) (d v) : Safe b (twinCloseTake d v s) := by
  unfold twinCloseTake
  repeat' first
      | (with_reducible first | intro _ | assumption | apply compareClose_safe | apply modJob_safe | apply ite_safe)
      | split

end Sys2Proof.Machine
end

section
/-! What the operations of Machine/SeqWords.lean keep. -/

namespace Sys2Proof.Machine

variable {b s : State}

theorem issue_runs {op : Nat} {x : Site} {act : Word → State → State} (h : Safe b s)
    (hf : ∀ w s, Safe b s → Safe b (act w s)) : Runs b (issue op x act s) := by
  unfold issue
  exact runs_ite (runs_next (modTsu_safe h _ rfl)) (runs_ite (runs_next (hf _ _ (modSeq_safe h _ _))) (runs_next h))

theorem holdXbuf_safe (h : Safe b s) (x1 n) : Safe b (holdXbuf s x1 n) := by
  unfold holdXbuf
  repeat' first | (with_reducible first | intro _ | assumption) | refine modTsu_safe ?_ _ rfl

theorem haltHere_safe (h : Safe b s) (x cause) : Safe b (haltHere s x cause) := by
  unfold haltHere
  repeat' with_reducible first | intro _ | assumption | apply halt_safe

theorem refusedHere_safe (h : Safe b s) (x) : Safe b (refusedHere s x) := by
  unfold refusedHere
  repeat' with_reducible first | intro _ | assumption | apply haltHere_safe

theorem rangeHere_safe (h : Safe b s) (x) : Safe b (rangeHere s x) := by
  unfold rangeHere
  repeat' with_reducible first | intro _ | assumption | apply haltHere_safe

theorem jump_safe (h : Safe b s) (x y) : Safe b (jump s x y) := by
  unfold jump
  repeat' with_reducible first | intro _ | assumption | apply modSeqRegs_safe

theorem resume_safe (h : Safe b s) (x) : Safe b (resume s x) := by
  unfold resume
  repeat' with_reducible first | intro _ | assumption | apply modSeq_safe

theorem setXbuf_safe (h : Safe b s) (k v) : Safe b (setXbuf s k v) := by
  exact modTsu_of_safe h _ (fun ⟨hhp, hsends, hrq, hevq, hup, hpend, hxbuf⟩ =>
    ⟨hhp, hsends, hrq, hevq, hup, hpend, twf_tset hxbuf _ _⟩) rfl

theorem putValue_safe (h : Safe b s) (x w v) : Safe b (putValue s x w v) := by
  unfold putValue
  repeat' with_reducible first
      | intro _ | assumption | apply rangeHere_safe | apply setXbuf_safe | apply modSeq_safe | apply jump_safe
      | apply ite_safe

theorem recordVary_safe (h : Safe b s) (x v) : Safe b (recordVary s x v) := by
  unfold recordVary
  repeat' first
      | (with_reducible first | intro _ | assumption | apply tsuSendUp_safe | apply rlAppend_safe | apply ite_safe)
      | split

theorem popReplay_safe (h : Safe b s) (x) : Safe b (popReplay s x) := by
  unfold popReplay
  split
  · exact modTsu_of_safe h _ (fun ⟨hhp, hsends, hrq, hrest⟩ => ⟨hhp, hsends, by simp; omega, hrest⟩) rfl
  · exact modHub_of_safe h _ (fun ⟨hhq, hrest⟩ => ⟨by simp; omega, hrest⟩) (.of_eq rfl rfl rfl) rfl

theorem replayCause_safe (h : Safe b s) (x) : Safe b (replayCause s x) := by
  unfold replayCause
  repeat' first | (with_reducible first | intro _ | assumption) | refine setCause_safe ?_ _ _ _ (by simp [causesOf]) | split

theorem replayWord_safe (h : Safe b s) (x w) : Safe b (replayWord s x w) := by
  unfold replayWord
  repeat' first
      | (with_reducible first
          | intro _ | assumption | apply putValue_safe | apply popReplay_safe | apply refusedHere_safe
          | apply replayCause_safe | apply modSeq_safe | apply ite_safe)
      | split

theorem sourced_safe (h : Safe b s) (x w v) : Safe b (sourced s x w v) := by
  unfold sourced
  repeat' with_reducible first | intro _ | assumption | apply recordVary_safe | apply putValue_safe | apply ite_safe

theorem writes_safe (h : Safe b s) (x f w) : Safe b (writes x f w s) := by
  unfold writes
  repeat' with_reducible first | intro _ | assumption | apply replayWord_safe | apply sourced_safe | apply ite_safe

theorem execNop_runs (h : Safe b s) (x) : Runs b (execNop x s) := by
  unfold execNop
  refine issue_runs h fun w s h => ?_
  assumption

theorem execJmp_runs (h : Safe b s) (x) : Runs b (execJmp x s) := by
  unfold execJmp
  refine issue_runs h fun w s h => ?_
  repeat' with_reducible first | intro _ | assumption | apply jump_safe

theorem execBr_runs (h : Safe b s) (x) : Runs b (execBr x s) := by
  unfold execBr
  refine issue_runs h fun w s h => ?_
  repeat' with_reducible first | intro _ | assumption | apply ite_safe | apply jump_safe

theorem execLoop_runs (h : Safe b s) (x) : Runs b (execLoop x s) := by
  unfold execLoop
  refine issue_runs h fun w s h => ?_
  repeat' with_reducible first | intro _ | assumption | apply writes_safe

theorem execLdi_runs (h : Safe b s) (x) : Runs b (execLdi x s) := by
  unfold execLdi
  refine issue_runs h fun w s h => ?_
  repeat' with_reducible first | intro _ | assumption | apply writes_safe

theorem execLdhi_runs (h : Safe b s) (x) : Runs b (execLdhi x s) := by
  unfold execLdhi
  refine issue_runs h fun w s h => ?_
  repeat' with_reducible first | intro _ | assumption | apply writes_safe

theorem execAlu_runs (h : Safe b s) (x) : Runs b (execAlu x s) := by
  unfold execAlu
  refine issue_runs h fun w s h => ?_
  repeat' with_reducible first | intro _ | assumption | apply writes_safe

theorem execLdstep_runs (h : Safe b s) (x) : Runs b (execLdstep x s) := by
  unfold execLdstep
  refine issue_runs h fun w s h => ?_
  repeat' with_reducible first | intro _ | assumption | apply writes_safe

theorem execLdrank_runs (h : Safe b s) (x) : Runs b (execLdrank x s) := by
  unfold execLdrank
  refine issue_runs h fun w s h => ?_
  repeat' with_reducible first | intro _ | assumption | apply writes_safe

theorem execWhisk_runs (h : Safe b s) (x) : Runs b (execWhisk x s) := by
  unfold execWhisk
  refine issue_runs h fun w s h => ?_
  repeat' with_reducible first | intro _ | assumption | apply writes_safe

theorem execLdtime_runs (h : Safe b s) (x) : Runs b (execLdtime x s) := by
  unfold execLdtime
  refine issue_runs h fun w s h => ?_
  repeat' with_reducible first | intro _ | assumption | apply writes_safe

theorem execLdlaunch_runs (h : Safe b s) (x) : Runs b (execLdlaunch x s) := by
  unfold execLdlaunch
  refine issue_runs h fun w s h => ?_
  repeat' with_reducible first | intro _ | assumption | apply writes_safe

theorem execLdevt_runs (h : Safe b s) (x) : Runs b (execLdevt x s) := by
  unfold execLdevt
  refine issue_runs h fun w s h => ?_
  repeat' with_reducible first | intro _ | assumption | apply writes_safe

theorem execLdso_runs (h : Safe b s) (x) : Runs b (execLdso x s) := by
  unfold execLdso
  refine issue_runs h fun w s h => ?_
  repeat' with_reducible first | intro _ | assumption | apply ite_safe | apply writes_safe

theorem execLdbuf_runs (h : Safe b s) (x) : Runs b (execLdbuf x s) := by
  unfold execLdbuf
  refine issue_runs h fun w s h => ?_
  repeat' with_reducible first | intro _ | assumption | apply ite_safe | apply rangeHere_safe | apply writes_safe

theorem execStbuf_runs (h : Safe b s) (x) : Runs b (execStbuf x s) := by
  unfold execStbuf
  split
  · exact runs_next h
  refine issue_runs h fun w s h => ?_
  repeat' with_reducible first | intro _ | assumption | apply ite_safe | apply rangeHere_safe | apply writes_safe

theorem syncWord_safe {b : State} {r : Bool × State} (h : Safe b r.2) (x) : Safe b (syncWord x r) :=
  ite_safe (refusedHere_safe h _) h

theorem execArrive_runs (h : Safe b s) (x) : Runs b (execArrive x s) := by
  unfold execArrive
  refine issue_runs h fun w s h => ?_
  exact ite_safe (refusedHere_safe h _) (syncWord_safe (slotArrive_safe h _) _)

theorem execSoadd_runs (h : Safe b s) (x) : Runs b (execSoadd x s) := by
  unfold execSoadd
  refine issue_runs h fun w s h => ?_
  exact syncWord_safe (slotAdd_safe h _ _) _

theorem execSoset_runs (h : Safe b s) (x) : Runs b (execSoset x s) := by
  unfold execSoset
  refine issue_runs h fun w s h => ?_
  exact syncWord_safe (slotSet_safe h _ _) _

theorem execSoclr_runs (h : Safe b s) (x) : Runs b (execSoclr x s) := by
  unfold execSoclr
  refine issue_runs h fun w s h => ?_
  exact syncWord_safe (slotClear_safe h _) _

theorem execOpenwin_runs (h : Safe b s) (x) : Runs b (execOpenwin x s) := by
  unfold execOpenwin
  refine issue_runs h fun w s h => ?_
  exact syncWord_safe (slotOpenWindow_safe h _ _) _

theorem execSend_runs (h : Safe b s) (x) : Runs b (execSend x s) := by
  unfold execSend
  refine issue_runs h fun w s h => ?_
  repeat' with_reducible first
      | intro _ | assumption | apply ite_safe | apply refuse_safe | apply issueSend_safe | apply modSeq_safe
      | apply refusedHere_safe

theorem countClamped_safe (h : Safe b s) (c first count) : Safe b (countClamped s c first count) := by
  unfold countClamped
  repeat' first | (with_reducible first | intro _ | assumption) | refine modTsu_safe ?_ _ rfl

theorem putWords_safe (h : Safe b s) (x1 ws) : Safe b (putWords s x1 ws) := by
  unfold putWords
  repeat' with_reducible first | intro _ | assumption | apply setXbuf_safe | apply foldl_safe

theorem freeCopied_safe (h : Safe b s) : Safe b (freeCopied s) := by
  unfold freeCopied
  repeat' first
      | (with_reducible first | intro _ | assumption | apply returnCredit_safe | apply foldl_safe)
      | refine modTsu_safe ?_ _ rfl

theorem copyResult_safe (h : Safe b s) (c first count buf) : Safe b (copyResult s c first count buf) := by
  unfold copyResult
  repeat' first
      | (with_reducible first | intro _ | assumption | apply putWords_safe | apply countClamped_safe | apply freeCopied_safe)
      | refine modTsu_safe ?_ _ rfl

theorem completeWait_safe (h : Safe b s) (x w) : Safe b (completeWait s x w) := by
  unfold completeWait
  have hr := resume_safe h x
  cases w
  case slot => exact waitDone_safe hr _
  case result => exact copyResult_safe hr _ _ _ _
  case resultx => exact sourced_safe (countClamped_safe hr _ _ _) _ _ _
  case replay => exact replayWord_safe hr _ _
  all_goals exact hr

theorem armWait_safe (h : Safe b s) (x w) : Safe b (armWait s x w) := by
  unfold armWait
  repeat' with_reducible first | intro _ | assumption | apply completeWait_safe | apply modSeq_safe | apply ite_safe

theorem execFence_runs (h : Safe b s) (x) : Runs b (execFence x s) := by
  unfold execFence
  refine issue_runs h fun w s h => ?_
  repeat' with_reducible first | intro _ | assumption | apply armWait_safe

theorem execWait_runs (h : Safe b s) (x) : Runs b (execWait x s) := by
  unfold execWait
  refine issue_runs h fun w s h => ?_
  repeat' with_reducible first | intro _ | assumption | apply ite_safe | apply refusedHere_safe | apply armWait_safe

theorem execWaitevt_runs (h : Safe b s) (x) : Runs b (execWaitevt x s) := by
  unfold execWaitevt
  refine issue_runs h fun w s h => ?_
  repeat' with_reducible first | intro _ | assumption | apply ite_safe | apply refusedHere_safe | apply armWait_safe

theorem execWaittick_runs (h : Safe b s) (x) : Runs b (execWaittick x s) := by
  unfold execWaittick
  refine issue_runs h fun w s h => ?_
  repeat' with_reducible first | intro _ | assumption | apply armWait_safe

theorem execTrig_runs (h : Safe b s) (x) : Runs b (execTrig x s) := by
  unfold execTrig
  refine issue_runs h fun w s h => ?_
  repeat' first
      | (with_reducible first
          | intro _ | assumption | apply ite_safe | apply schedTest_safe | apply addPulse_safe | apply refusedHere_safe)
      | split | dsimp only | with_reducible exact snd_safe (by assumption) (by assumption)
      | refine snd_safe (by assumption) ?_

theorem endMaps_safe (h : Safe b s) (x) : Safe b (endMaps s x) := by
  unfold endMaps
  repeat' first
      | (with_reducible first | intro _ | assumption | apply modSeq_safe | apply ite_safe)
      | refine seqCause_safe ?_ _ _ (by decide)

theorem execStepend_runs (h : Safe b s) (x) : Runs b (execStepend x s) := by
  unfold execStepend
  refine issue_runs h fun w s h => ?_
  repeat' with_reducible first
      | intro _ | assumption | apply ite_safe | apply tsuSendUp_safe | apply slotArrive_safe | apply refusedHere_safe
      | apply endMaps_safe

theorem pauseCheck_safe (h : Safe b s) (j) : Safe b (pauseCheck s j) := by
  unfold pauseCheck
  repeat' first
      | (with_reducible first
          | intro _ | assumption | apply modJob_safe | apply mirrorCadence_safe | apply pauseFollow_safe | apply ite_safe)
      | refine modTsu_safe ?_ _ rfl | refine setCause_safe ?_ _ _ _ (by simp [causesOf])

theorem dropBeyond_safe (h : Safe b s) (c n) : Safe b (dropBeyond s c n) := by
  unfold dropBeyond
  repeat' first
      | (with_reducible first | intro _ | assumption | apply raise_safe | apply ite_safe)
      | refine modTsu_safe ?_ _ rfl | refine setCause_safe ?_ _ _ _ (by simp [causesOf])

theorem execContrib_runs (h : Safe b s) (x) : Runs b (execContrib x s) := by
  unfold execContrib
  refine issue_runs h fun w s h => ?_
  repeat' with_reducible first
      | intro _ | assumption | apply ite_safe | apply foldl_safe | apply tsuSendUp_safe | apply holdXbuf_safe
      | apply refusedHere_safe | apply rangeHere_safe | apply dropBeyond_safe

theorem firstRereq_safe (h : Safe b s) : Safe b (firstRereq s) := by
  unfold firstRereq
  repeat' first | (with_reducible first | intro _ | assumption) | refine modTsu_safe ?_ _ rfl

theorem execResult_runs (h : Safe b s) (x) : Runs b (execResult x s) := by
  unfold execResult
  dsimp only
  split
  · exact runs_next h
  refine issue_runs h fun w s h => ?_
  repeat' with_reducible first
      | intro _ | assumption | apply ite_safe | apply refusedHere_safe | apply rangeHere_safe | apply armWait_safe
      | apply firstRereq_safe

theorem execResultx_runs (h : Safe b s) (x) : Runs b (execResultx x s) := by
  unfold execResultx
  refine issue_runs h fun w s h => ?_
  repeat' with_reducible first
      | intro _ | assumption | apply ite_safe | apply refusedHere_safe | apply replayWord_safe | apply armWait_safe
      | apply firstRereq_safe

theorem digestFold_safe (h : Safe b s) (kind did buf) : Safe b (digestFold s kind did buf) := by
  unfold digestFold
  repeat' first
      | (with_reducible first | intro _ | assumption | apply tsuSendUp_safe | apply ite_safe)
      | refine modTsu_safe ?_ _ rfl

theorem execDigest_runs (h : Safe b s) (x) : Runs b (execDigest x s) := by
  unfold execDigest
  refine issue_runs h fun w s h => ?_
  repeat' with_reducible first
      | intro _ | assumption | apply ite_safe | apply holdXbuf_safe | apply refusedHere_safe | apply rangeHere_safe
      | apply digestFold_safe

theorem checkedWord_safe (h : Safe b s) (x c faults act)
    (hf : ∀ j s t, Safe b s → act j s = some t → Safe b t) : Safe b (checkedWord x c faults act s) := by
  unfold checkedWord
  split
  · exact h
  · split
    · exact refusedHere_safe h _
    · next e => exact ite_safe (foldFaults_safe h _ _ _ _) (foldFaults_safe (hf _ _ _ h e) _ _ _ _)

theorem completeIf_safe (h : Safe b s) (x p) : Safe b (completeIf s x p) := by
  unfold completeIf
  repeat' first | (with_reducible first | intro _ | assumption | apply completeWait_safe | apply ite_safe) | split

theorem homeTimeoutEv_safe (h : Safe b s) (j sub ctx target value) :
    Safe b (homeTimeoutEv s j sub ctx target value) := by
  unfold homeTimeoutEv
  repeat' with_reducible first | intro _ | assumption | apply raise_safe

theorem replayTimeoutEv_safe (h : Safe b s) (x) : Safe b (replayTimeoutEv s x) := by
  unfold replayTimeoutEv
  repeat' with_reducible first | intro _ | assumption | apply fresh_safe | apply raise_safe

theorem seqTimeoutEv_safe (h : Safe b s) (x w) : Safe b (seqTimeoutEv s x w) := by
  unfold seqTimeoutEv
  repeat' first
      | (with_reducible first
          | intro _ | assumption | apply waitTimeoutEv_safe | apply slotTimeoutEv_safe | apply replayTimeoutEv_safe
          | apply homeTimeoutEv_safe)
      | split

theorem seqTimeout_safe (h : Safe b s) (x) : Safe b (seqTimeout s x) := by
  unfold seqTimeout
  repeat' first
      | (with_reducible first
          | intro _ | assumption | apply completeWait_safe | apply haltHere_safe | apply seqTimeoutEv_safe | apply ite_safe)
      | split

end Sys2Proof.Machine
end

section
/-! What the operations of Machine/Results.lean keep. -/

namespace Sys2Proof.Machine

variable {b s : State}

theorem sendRereq_safe (h : Safe b s) (l c step elem) : Safe b (sendRereq s l c step elem) := by
  unfold sendRereq
  repeat' first | (with_reducible first | intro _ | assumption | apply sendLink_safe) | refine modTsu_safe ?_ _ rfl

theorem badCopy_safe (h : Safe b s) (l m) : Safe b (badCopy s l m) := by
  unfold badCopy
  repeat' first
      | (with_reducible first
          | intro _ | assumption | apply raise_safe | apply refusedHere_safe | apply sendRereq_safe | apply ite_safe)
      | refine modTsu_safe ?_ _ rfl

theorem staleResult_safe (h : Safe b s) : Safe b (staleResult s) := by
  unfold staleResult
  repeat' with_reducible first | intro _ | assumption | apply modSeqRegs_safe

theorem resultTake_safe (h : Safe b s) (l m) : Safe b (resultTake l m s) := by
  unfold resultTake
  repeat' first
      | (with_reducible first
          | intro _ | assumption | apply refuse_safe | apply countStepRefused_safe | apply returnCredit_safe
          | apply tsuJobOk_safe | apply badCopy_safe | apply staleResult_safe | apply ite_safe)
      | refine modTsu_safe ?_ _ rfl | split | dsimp only | refine snd_safe (by assumption) ?_

theorem rereqWaiting_safe (h : Safe b s) (c first count) : Safe b (rereqWaiting s c first count) := by
  unfold rereqWaiting
  repeat' first
      | (with_reducible first | intro _ | assumption | apply sendRereq_safe | apply foldl_safe | apply ite_safe)
      | refine modTsu_safe ?_ _ rfl

theorem refuseTake_safe (h : Safe b s) (m) : Safe b (refuseTake m s) := by
  unfold refuseTake
  repeat' first
      | (with_reducible first
          | intro _ | assumption | apply refuse_safe | apply tsuJobOk_safe | apply tsuNearStep_safe | apply haltHere_safe
          | apply ite_safe)
      | refine modTsu_safe ?_ _ rfl | refine setCause_safe ?_ _ _ _ (by simp [causesOf]) | split | dsimp only
      | refine snd_safe (by assumption) ?_

theorem poisonTake_safe (h : Safe b s) (m) : Safe b (poisonTake m s) := by
  unfold poisonTake
  refine ite_safe (refuse_safe h _ _) ?_
  split
  · exact refuse_safe (snd_safe (by assumption) (tsuJobOk_safe h _ _)) _ _
  · have hjob := snd_safe (by assumption) (tsuJobOk_safe h _ _)
    split
    · exact countStepRefused_safe hjob _ _ _
    · exact ite_safe hjob (setCause_safe (modTsu_safe (raise_safe (fresh_safe hjob) _ _) _ rfl) _ _ _ (by simp [causesOf]))

theorem rqPushWrite_safe (h : Safe b s) (i v) : Safe b (rqPushWrite i v s).2 := by
  refine onPart_safe h fun s hs => ?_
  split
  · exact refused_safe hs _ _
  · refine accept_safe (modTsu_of_safe hs _ (fun ⟨hhp, hsends, hrq, hrest⟩ => ⟨hhp, hsends, ?_, hrest⟩) rfl)
    simp
    omega

theorem rqStatusWrite_safe (h : Safe b s) (i v) : Safe b (rqStatusWrite i v s).2 := by
  refine onPart_safe h fun s hs => ?_
  have hflushed : Safe b (modTsu s fun t => { t with rq := [] }) :=
    modTsu_of_safe hs _ (fun ⟨hhp, hsends, _, hrest⟩ => ⟨hhp, hsends, Nat.zero_le _, hrest⟩) rfl
  exact snd_ite_safe hs (snd_ite_safe (refused_safe hs _ _) hflushed)

theorem hqPushWrite_safe (h : Safe b s) (i v) : Safe b (hqPushWrite i v s).2 := by
  refine onPart_safe h fun s hs => ?_
  split
  · exact refused_safe hs _ _
  · refine accept_safe (modHub_of_safe hs _ (fun ⟨hhq, hrest⟩ => ⟨?_, hrest⟩) (.of_eq rfl rfl rfl) rfl)
    simp
    omega

theorem detWrite_safe (h : Safe b s) (k i v) : Safe b (detWrite k i v s).2 := by
  unfold detWrite
  repeat' first
      | (with_reducible first
          | intro _ | assumption | apply onPart_safe | apply refused_safe | apply accept_safe | apply ite_safe)
      | refine modTsu_safe ?_ _ rfl | split

theorem xbufWrite_safe (h : Safe b s) (k i v) : Safe b (xbufWrite k i v s).2 := by
  unfold xbufWrite
  repeat' first
      | (with_reducible first
          | intro _ | assumption | apply onPart_safe | apply modSeqRegs_safe | apply accept_safe | apply setXbuf_safe
          | apply ite_safe)
      | split

end Sys2Proof.Machine
end

section
/-! What the operations of Machine/Faults.lean keep. -/

namespace Sys2Proof.Machine

variable {b s : State}

theorem evrecTake_safe (h : Safe b s) (m) : Safe b (evrecTake m s) := by
  unfold evrecTake
  repeat' with_reducible first | intro _ | assumption | apply ringWrite_safe | apply passUp_safe | apply ite_safe

theorem sendRun_safe (h : Safe b s) (first n) : Safe b (sendRun s first n) := by
  unfold sendRun
  repeat' with_reducible first | intro _ | assumption | apply udpSend_safe

theorem sendRuns_safe (h : Safe b s) (fuel first k) : Safe b (sendRuns fuel s first k) := by
  induction fuel generalizing s first k with
  | zero => exact h
  | succ n ih =>
    simp only [sendRuns]
    split
    · exact h
    · split
      · exact ih h _ _
      · exact ih (sendRun_safe h _ _) _ _

theorem sendRecords_safe (h : Safe b s) (first n) : Safe b (sendRecords s first n) := by
  unfold sendRecords
  repeat' with_reducible first | intro _ | assumption | apply sendRuns_safe

theorem modEvh_safe (h : Safe b s) (f) : Safe b (modEvh s f) := by
  unfold modEvh
  repeat' first | (with_reducible first | intro _ | assumption) | refine modHub_safe ?_ _ rfl

theorem eqW0Read_safe (h : Safe b s) (i) : Safe b (eqW0Read i s).2 := by
  refine onPartRead_safe h fun s hs => ?_
  split
  · exact modIface_safe hs _ _
  · next r rest e =>
    refine modIface_safe (modTsu_of_safe hs (fun t => { t with evq := rest }) (fun ⟨hhp, hsends, hrq, hevq, hmore⟩ => ?_)
        rfl) i _
    rw [e, List.length_cons] at hevq
    exact ⟨hhp, hsends, hrq, Nat.le_of_succ_le hevq, hmore⟩

theorem evRd0Read_safe (h : Safe b s) (i) : Safe b (evRd0Read i s).2 := by
  refine onPartRead_safe h fun s hs => ?_
  dsimp only
  split
  · exact modIface_safe hs _ _
  · exact refuse_safe (modIface_safe hs i _) .hub .evh

theorem rotTake_safe (h : Safe b s) (u) : Safe b (rotTake s u) := by
  unfold rotTake
  dsimp only
  by_cases hc : unitClass u = 0
  · simp only [if_pos hc]
    exact modHub_safe h _ rfl
  · simp only [if_neg hc]
    exact modHub_safe h _ rfl

theorem rotClass_safe (h : Safe b s) (c) : Safe b (rotClass s c) := by
  unfold rotClass
  refine ite_safe h ?_
  split
  · by_cases hc : c = 0
    · simp only [if_pos hc]
      exact modHub_safe h _ rfl
    · simp only [if_neg hc]
      exact modHub_safe h _ rfl
  · next u e =>
    have hworks : (s.unit u).unitState.toNat < 2 := by
      simpa using List.find?_some (p := fun u => decide ((s.unit u).unitState.toNat < 2)) e
    have hserving : ∀ {P : Prop}, (s.unit u).unitState = 4 → P := fun h4 => absurd (h4 ▸ hworks) (by decide)
    refine ite_safe (rotTake_safe (modUnit_safe h _ _ hserving) _) ?_
    split
    · exact rotTake_safe (laneLeaves_safe h _ _ hserving) _
    · exact ite_safe (modHub_safe h _ rfl) (rotTake_safe (modUnit_safe h _ _ hserving) _)

theorem rotAdvance_safe (h : Safe b s) : Safe b (rotAdvance s) := by
  unfold rotAdvance
  repeat' first
      | (with_reducible first | intro _ | assumption | apply rotClass_safe | apply ite_safe) | refine modHub_safe ?_ _ rfl

theorem rotStart_safe (h : Safe b s) : Safe b (rotStart s) := by
  unfold rotStart
  repeat' first
      | (with_reducible first | intro _ | assumption | apply rotAdvance_safe | apply ite_safe)
      | refine modHub_safe ?_ _ rfl

theorem fltCtrlWrite_safe (h : Safe b s) (i v) : Safe b (fltCtrlWrite i v s).2 := by
  unfold fltCtrlWrite
  repeat' first
      | (with_reducible first
          | intro _ | assumption | apply onPart_safe | apply refused_safe | apply accept_safe | apply rotStart_safe
          | apply ite_safe)
      | refine modHub_safe ?_ _ rfl | split

theorem fltHbWrite_safe (h : Safe b s) (i v) : Safe b (fltHbWrite i v s).2 := by
  unfold fltHbWrite
  repeat' first
      | (with_reducible first
          | intro _ | assumption | apply onPart_safe | apply refused_safe | apply accept_safe | apply ite_safe)
      | refine modHub_safe ?_ _ rfl | split

theorem testOver_safe (h : Safe b s) (u) : Safe b (testOver s u) := by
  unfold testOver
  repeat' first | (with_reducible first | intro _ | assumption | apply ite_safe) | refine modHub_safe ?_ _ rfl

theorem katFail_safe (h : Safe b s) (u) : Safe b (katFail s u) := by
  unfold katFail
  repeat' first
      | (with_reducible first
          | intro _ | assumption | apply testOver_safe | apply rotAdvance_safe | apply chargeAs_safe
          | apply queueHistory_safe)
      | refine modHub_safe ?_ _ rfl

theorem katDone_safe (h : Safe b s) (u pass) : Safe b (katDone s u pass) := by
  unfold katDone
  dsimp only
  split
  · next htest =>
    refine ite_safe (katFail_safe h _) (ite_safe (rotAdvance_safe (modUnit_safe (testOver_safe h _) _ _ fun h4 => ?_))
      (modHub_safe h _ rfl))
    rw [testOver_unit, htest] at h4
    exact absurd h4 (by decide)
  · exact ite_safe (ite_safe (chargeUnit_safe h _ _) (ite_safe (modUnit_safe h _ _ (fun h4 => h4)) h)) h

theorem shadowEnd_safe (h : Safe b s) (u) : Safe b (shadowEnd s u) := by
  unfold shadowEnd
  dsimp only
  split
  case isFalse => exact h
  next hshadow =>
    obtain ⟨hstate, -⟩ := hshadow
    have hback : ∀ v : BitVec 16, (s.unit v).unitState ≠ 4 → Safe b (modUnit s v fun r => { r with unitState := 1 }) :=
      fun v hv => modUnit_safe h _ _ fun h4 => absurd h4 hv
    have hstays : ∀ v : BitVec 16, ((modUnit s v fun r => { r with unitState := 1 }).unit u).unitState ≠ 4 := fun v => by
      rw [unit_modUnit]
      split
      · simp
      · rw [hstate]
        decide
    refine rotAdvance_safe (laneSpared_safe (queueHistory_safe ?_ _ _ _) _ _ _ _)
    generalize hc : (unitClass u < 2 && (s.unit u).unitStateStandin != 0xFFFF &&
      (s.unit (s.unit u).unitStateStandin).unitState == 0) = c
    cases c
    · refine ite_safe (modPage_safe (modUnit_safe h _ _ fun h4 => ?_) _ _ _) (modUnit_safe h _ _ fun h4 => ?_) <;>
        simp [hstate] at h4
    · have hstandin : (s.unit (s.unit u).unitStateStandin).unitState ≠ 4 := by
        simp only [Bool.and_eq_true, beq_iff_eq] at hc
        simp [hc.2]
      exact ite_safe (modPage_safe (modUnit_safe (hback _ hstandin) _ _ fun h4 => absurd h4 (hstays _)) _ _ _)
        (modUnit_safe (hback _ hstandin) _ _ fun h4 => absurd h4 (hstays _))

theorem tellHome_safe (h : Safe b s) (j e) : Safe b (tellHome s j e) := by
  unfold tellHome
  repeat' with_reducible first | intro _ | assumption | apply passUp_safe | apply ite_safe

theorem declareIn_safe (h : Safe b s) (l ep reason j) : Safe b (declareIn l ep reason s j) := by
  unfold declareIn
  repeat' first
      | (with_reducible first
          | intro _ | assumption | apply raise_safe | apply modJob_safe | apply tellHome_safe | apply ite_safe)
      | split

theorem declare_safe (h : Safe b s) (l reason) : Safe b (declare s l reason) := by
  unfold declare
  repeat' first
      | (with_reducible first | intro _ | assumption | apply declareIn_safe | apply foldl_safe | apply ite_safe)
      | refine modHub_safe ?_ _ rfl | refine setCause_safe ?_ _ _ _ (by simp [causesOf])

theorem arrivalTimeout_safe (h : Safe b s) (j r) : Safe b (arrivalTimeout s j r) := by
  unfold arrivalTimeout
  repeat' first
      | (with_reducible first | intro _ | assumption | apply modJob_safe | apply declare_safe | apply ite_safe)
      | split

end Sys2Proof.Machine
end

section
/-! What the operations of Machine/Links.lean keep. -/

namespace Sys2Proof.Machine

variable {b s : State}

theorem queuePort_safe (h : Safe b s) (port) : Safe b (queuePort s port) := by
  unfold queuePort
  repeat' first | (with_reducible first | intro _ | assumption) | refine modHub_safe ?_ _ rfl

theorem resendUp_safe (h : Safe b s) (l) : Safe b (resendUp s l) := by
  unfold resendUp
  repeat' first
      | (with_reducible first | intro _ | assumption | apply sendLink_safe | apply foldl_safe)
      | refine modHub_safe ?_ _ rfl | split | dsimp only

theorem resetCopies_safe (h : Safe b s) (l) : Safe b (resetCopies s l) := by
  unfold resetCopies
  split
  · exact modSh_of_safe h _ _ (fun ⟨hv, hh, hst⟩ => ⟨hv, hh, hst⟩) rfl
  · exact modSh_of_safe h _ _ (fun ⟨hv, hh, hst⟩ => ⟨hv, hh, hst⟩) rfl

theorem linkLeave_safe (h : Safe b s) (l) : Safe b (linkLeave s l) := by
  unfold linkLeave
  repeat' first
      | (with_reducible first
          | intro _ | assumption | apply modLink_safe | apply resetCopies_safe | apply updReady_safe | apply resendUp_safe
          | apply queuePort_safe | apply leadMove_safe | apply ite_safe)
      | refine setCause_safe ?_ _ _ _ (by simp [causesOf]) | split

theorem ackBefore_safe (h : Safe b s) (l q) : Safe b (ackBefore s l q) := by
  unfold ackBefore
  repeat' with_reducible first | intro _ | assumption | apply modLink_safe | apply drainLink_safe

theorem replayAll_safe (h : Safe b s) (l) : Safe b (replayAll s l) := by
  unfold replayAll
  repeat' with_reducible first | intro _ | assumption | apply emitFlit_safe | apply foldl_safe

theorem sendLnak_safe (h : Safe b s) (l) : Safe b (sendLnak s l) := by
  unfold sendLnak
  repeat' with_reducible first | intro _ | assumption | apply sendLink_safe | apply modLink_safe | apply ite_safe

theorem takeSlot_safe (h : Safe b s) (l f) : Safe b (takeSlot l s f) := by
  unfold takeSlot
  repeat' first
      | (with_reducible first
          | intro _ | assumption | apply modLink_safe | apply modLinkRegs_safe | apply sendLink_safe
          | apply returnCredit_safe | apply malformedFlit_safe | apply sendLnak_safe | apply ite_safe)
      | split

theorem modFec_safe (h : Safe b s) (p port lane f) : Safe b (modFec s p port lane f) := by
  unfold modFec
  repeat' with_reducible first | intro _ | assumption | apply modPage_safe

theorem remapFail_safe (h : Safe b s) (p port lane) : Safe b (remapFail s p port lane) := by
  unfold remapFail
  repeat' with_reducible first | intro _ | assumption | apply modPage_safe | apply linkLeave_safe | apply laneSpared_safe

theorem remapGiveUp_safe (h : Safe b s) (p port r) : Safe b (remapGiveUp s p port r) := by
  unfold remapGiveUp
  repeat' with_reducible first | intro _ | assumption | apply modPage_safe | apply remapFail_safe | apply ite_safe

theorem remapStart_safe (h : Safe b s) (p port lane) : Safe b (remapStart s p port lane) := by
  unfold remapStart
  repeat' first
      | (with_reducible first
          | intro _ | assumption | apply remapFail_safe | apply modPage_safe | apply sendLink_safe | apply ite_safe)
      | split

theorem spareWord_safe (h : Safe b s) (p port lane bad slots) : Safe b (spareWord s p port lane bad slots) := by
  unfold spareWord
  repeat' with_reducible first | intro _ | assumption | apply chargeUnit_safe | apply ite_safe

theorem keepWord_safe (h : Safe b s) (p port lane slots) : Safe b (keepWord s p port lane slots) := by
  unfold keepWord
  repeat' with_reducible first | intro _ | assumption | apply modPage_safe | apply ite_safe

theorem laneShadow_safe (h : Safe b s) (u) : Safe b (laneShadow s u) :=
  modUnit_safe h _ _ fun h4 => by simp [h4]

theorem lkCtrlWrite_safe (h : Safe b s) (i port v) : Safe b (lkCtrlWrite i port v s).2 := by
  unfold lkCtrlWrite
  repeat' first
      | (with_reducible first
          | intro _ | assumption | apply refused_safe | apply modLinkRegs_safe | apply remapStart_safe | apply accept_safe
          | apply linkLeave_safe | apply ite_safe)
      | split | dsimp only

theorem remapAccept_safe (h : Safe b s) (l m) : Safe b (remapAccept s l m) := by
  unfold remapAccept
  repeat' with_reducible first | intro _ | assumption | apply modPage_safe

theorem remapGo_safe (h : Safe b s) (l cwc) : Safe b (remapGo s l cwc) := by
  unfold remapGo
  repeat' first
      | (with_reducible first | intro _ | assumption | apply modPage_safe | apply sendLink_safe | apply ite_safe)
      | split

theorem admitPort_safe (h : Safe b s) (port) : Safe b (admitPort s port) := by
  unfold admitPort
  repeat' first
      | (with_reducible first | intro _ | assumption | apply modLinkRegs_safe | apply foldl_safe | apply ite_safe)
      | refine modHub_safe ?_ _ rfl

theorem trainLane_safe (h : Safe b s) (p port lane) : Safe b (trainLane p port s lane) := by
  unfold trainLane
  repeat' first | (with_reducible first | intro _ | assumption | apply fresh_safe) | refine modSh_safe ?_ _ _ rfl

theorem takeEndpoint_safe (h : Safe b s) (l m) : Safe b (takeEndpoint s l m).2 := by
  unfold takeEndpoint
  repeat' first
      | (with_reducible first | intro _ | assumption | apply linkLeave_safe | apply sendLink_safe | apply ite_safe)
      | refine modTsu_safe ?_ _ rfl | split | dsimp only

theorem tellConflict_safe (h : Safe b s) : Safe b (tellConflict s) := by
  unfold tellConflict
  repeat' first
      | (with_reducible first | intro _ | assumption | apply sendLink_safe | apply ite_safe) | refine modTsu_safe ?_ _ rfl

theorem takeNeighbour_safe (h : Safe b s) (l m) : Safe b (takeNeighbour s l m).2 := by
  unfold takeNeighbour
  repeat' first
      | (with_reducible first
          | intro _ | assumption | apply modPage_safe | apply linkLeave_safe | apply foldl_safe | apply ite_safe)
      | split | dsimp only

theorem setPortRole_safe (h : Safe b s) (port v) : Safe b (setPortRole s port v) := by
  have hoff := foldl_safe (l := s.enabledLinks port) (fun s l hs => modLink_safe (linkLeave_safe hs l) l fun k =>
    { k with peer := 0xFFFF, lastRx := none, regs := { k.regs with lkState := 0 } }) h
  unfold setPortRole
  generalize List.foldl _ s _ = u at hoff ⊢
  have hrole := modPage_safe hoff .hub port fun g => { g with
    role := { g.role.write 0x040 v with portRoleCableMismatch := false, portRoleSeenHub := 0xFFFF } }
  dsimp only
  generalize modPage u _ _ _ = u at hrole ⊢
  have hadmit := foldl_safe (l := u.enabledLinks port)
    (fun s l hs => modLinkRegs_safe hs l fun r => { r with lkState := 1 }) hrole
  generalize List.foldl _ u _ = u at hadmit ⊢
  exact ite_safe (modHub_safe hadmit _ rfl) (queuePort_safe hadmit _)

theorem portRoleWrite_safe (h : Safe b s) (i port v) : Safe b (portRoleWrite i port v s).2 := by
  unfold portRoleWrite
  repeat' first
      | (with_reducible first
          | intro _ | assumption | apply refused_safe | apply accept_safe | apply setPortRole_safe | apply ite_safe)
      | split | dsimp only

theorem cacheRank_safe (h : Safe b s) (j r) : Safe b (cacheRank s j r) := by
  unfold cacheRank
  refine ite_safe h (ite_safe (modHub_safe (modHub_safe h _ rfl) _ rfl) ?_)
  exact modHub_safe (fresh_safe (modHub_safe h _ rfl)) _ rfl

theorem signalRoute_safe (h : Safe b s) (l m) : Safe b (signalRoute l m s) := by
  unfold signalRoute
  repeat' first
      | (with_reducible first
          | intro _ | assumption | apply rejectFenced_safe | apply signalOn_safe | apply hubJobOk_safe
          | apply refuseXlat_safe | apply cacheRank_safe | apply ite_safe)
      | split | dsimp only | refine snd_safe (by assumption) ?_

end Sys2Proof.Machine
end

section
/-! What the operations of Machine/LaneCal.lean keep. -/

namespace Sys2Proof.Machine

variable {b s : State}

theorem calNext_safe (h : Safe b s) (p port) : Safe b (calNext s p port) := by
  unfold calNext
  repeat' first
      | (with_reducible first | intro _ | assumption | apply modPage_safe | apply remapStart_safe | apply ite_safe)
      | split

theorem calibrateLane_safe (h : Safe b s) (p port lane) : Safe b (calibrateLane s p port lane) := by
  unfold calibrateLane
  repeat' with_reducible first | intro _ | assumption | apply modLaneCal_safe | apply ite_safe

theorem ptCtrlWrite_safe (h : Safe b s) (i port v) : Safe b (ptCtrlWrite i port v s).2 := by
  unfold ptCtrlWrite
  repeat' first
      | (with_reducible first
          | intro _ | assumption | apply modLinkRegs_safe | apply accept_safe | apply refused_safe | apply calNext_safe
          | apply calibrateLane_safe | apply foldl_safe | apply ite_safe)
      | split

theorem leaveCal_safe (h : Safe b s) (p port) : Safe b (leaveCal s p port) := by
  unfold leaveCal
  repeat' with_reducible first
      | intro _ | assumption | apply sendHello_safe | apply modLinkRegs_safe | apply foldl_safe | apply ite_safe

end Sys2Proof.Machine
end

section
/-! What the operations of Machine/Apply.lean keep. -/

namespace Sys2Proof.Machine

variable {b s : State}

theorem countReport_safe (h : Safe b s) (tid drained) : Safe b (countReport s tid drained) := by
  unfold countReport
  repeat' first
      | (with_reducible first | intro _ | assumption | apply modTxn_safe | apply finishTxn_safe | apply ite_safe)
      | refine setCause_safe ?_ _ _ _ (by simp [causesOf])

theorem hubReport_safe (h : Safe b s) (g drained) : Safe b (hubReport s g drained) := by
  unfold hubReport
  repeat' with_reducible first | intro _ | assumption | apply countReport_safe | apply sendHub_safe | apply ite_safe

theorem tsuDone_safe (h : Safe b s) (g drained) : Safe b (tsuDone s g drained) := by
  unfold tsuDone
  repeat' with_reducible first | intro _ | assumption | apply tsuSend_safe

theorem addBarrier_safe (h : Safe b s) (j p) : Safe b (addBarrier s j p) := by
  unfold addBarrier
  repeat' with_reducible first | intro _ | assumption | apply modJob_safe

theorem dropBarrier_safe (h : Safe b s) (j o) : Safe b (dropBarrier s j o) := by
  unfold dropBarrier
  repeat' with_reducible first | intro _ | assumption | apply modJob_safe

theorem addCtx_safe (h : Safe b s) (j p) : Safe b (addCtx s j p) := by
  unfold addCtx
  repeat' with_reducible first | intro _ | assumption | apply modCtx_safe

theorem dropCtx_safe (h : Safe b s) (j c) : Safe b (dropCtx s j c) := by
  unfold dropCtx
  repeat' with_reducible first | intro _ | assumption | apply modCtx_safe

theorem unfence_safe (h : Safe b s) (j e) : Safe b (unfence s j e) := by
  unfold unfence
  repeat' first
      | (with_reducible first | intro _ | assumption | apply modJob_safe | apply ite_safe) | refine modHub_safe ?_ _ rfl

theorem remapRank_safe (h : Safe b s) (j r e) : Safe b (remapRank s j r e) := by
  unfold remapRank
  repeat' first
      | (with_reducible first | intro _ | assumption | apply modJob_safe | apply unfence_safe)
      | refine modHub_safe ?_ _ rfl | split

theorem admitHub_safe (h : Safe b s) (j g) : Safe b (admitHub s j g) := by
  unfold admitHub
  repeat' first
      | (with_reducible first | intro _ | assumption | apply modJob_safe | apply ite_safe)
      | refine modHub_safe ?_ _ rfl | split

theorem joinHub_safe (h : Safe b s) (j g) : Safe b (joinHub s j g) := by
  unfold joinHub
  repeat' with_reducible first | intro _ | assumption | apply fresh_safe | apply modJob_safe

theorem launchHub_safe (h : Safe b s) (j a) : Safe b (launchHub s j a) := by
  unfold launchHub
  repeat' with_reducible first | intro _ | assumption | apply modJob_safe

theorem hubAction_safe (h : Safe b s) (j a) : Safe b (hubAction j s a) := by
  unfold hubAction
  repeat' first
      | (with_reducible first
          | intro _ | assumption | apply modJob_safe | apply addBarrier_safe | apply dropBarrier_safe | apply addCtx_safe
          | apply dropCtx_safe | apply remapRank_safe | apply foldl_safe)
      | refine modHub_safe ?_ _ rfl | split

theorem fencedEv_safe (h : Safe b s) (p j e) : Safe b (fencedEv p j s e) := by
  unfold fencedEv
  repeat' first | (with_reducible first | intro _ | assumption | apply raise_safe) | split

theorem fenceRelease_safe (h : Safe b s) (j o) : Safe b (fenceRelease j s o) := by
  unfold fenceRelease
  repeat' first | (with_reducible first | intro _ | assumption | apply releaseBarrier_safe | apply ite_safe) | split

theorem fenceHub_safe (h : Safe b s) (j eps arrived passed) : Safe b (fenceHub s j eps arrived passed) := by
  unfold fenceHub
  repeat' with_reducible first
      | intro _ | assumption | apply modJob_safe | apply fencedEv_safe | apply mirrorBarrier_safe | apply fenceRelease_safe
      | apply poison_safe | apply pauseCheck_safe | apply foldl_safe | apply ite_safe

theorem dropHeld_safe (h : Safe b s) (p j) : Safe b (dropHeld s p j) := by
  unfold dropHeld
  repeat' first | (with_reducible first | intro _ | assumption) | refine modSh_safe ?_ _ _ rfl

theorem teardownHub_safe (h : Safe b s) (j) : Safe b (teardownHub s j) := by
  unfold teardownHub
  repeat' first
      | (with_reducible first | intro _ | assumption | apply dropHeld_safe | apply modJob_safe)
      | refine modHub_safe ?_ _ rfl

theorem tsuState_safe (h : Safe b s) (st) : Safe b (tsuState s st) := by
  unfold tsuState
  repeat' first
      | (with_reducible first | intro _ | assumption | apply ite_safe)
      | refine modTsu_safe ?_ _ rfl | refine setCause_safe ?_ _ _ _ (by simp [causesOf])

theorem teardownTsu_safe (h : Safe b s) (j) : Safe b (teardownTsu s j) := by
  unfold teardownTsu
  refine dropHeld_safe (modTsu_of_safe (discardSends_safe (tsuState_safe h _)) _ ?_ rfl) _ _
  rintro ⟨hhp, hsends, hrq, hevq, hup, _, hxbuf⟩
  exact ⟨hhp, hsends, hrq, hevq, Nat.le_trans (List.length_filter_le _ _) hup, Nat.zero_le _, hxbuf⟩

theorem drainHub_safe (h : Safe b s) (j) : Safe b (drainHub s j) := by
  unfold drainHub
  repeat' first
      | (with_reducible first | intro _ | assumption | apply modJob_safe | apply endFlows_safe)
      | refine modHub_safe ?_ _ rfl

theorem drainTsu_safe (h : Safe b s) : Safe b (drainTsu s) := by
  unfold drainTsu
  repeat' first
      | (with_reducible first | intro _ | assumption | apply freeStore_safe | apply tsuState_safe)
      | refine modTsu_safe ?_ _ rfl

theorem takeVals_safe (h : Safe b s) (j kind vals) : Safe b (takeVals s j kind vals) := by
  unfold takeVals
  repeat' first | (with_reducible first | intro _ | assumption | apply modJob_safe | apply foldl_safe | apply ite_safe) | split

theorem flipHub_safe (h : Safe b s) (j commit) : Safe b (flipHub s j commit) := by
  unfold flipHub
  repeat' with_reducible first | intro _ | assumption | apply modJob_safe

theorem applyFabric_safe (h : Safe b s) (acts) : Safe b (applyFabric s acts) := by
  unfold applyFabric
  repeat' first
      | (with_reducible first | intro _ | assumption | apply setPortRole_safe | apply foldl_safe | apply ite_safe)
      | refine modHub_safe ?_ _ rfl

theorem applyJob_safe (h : Safe b s) (j g) : Safe b (applyJob s j g) := by
  unfold applyJob
  repeat' first
      | (with_reducible first
          | intro _ | assumption | apply modJob_safe | apply computeEnv_safe | apply envChange_safe | apply pauseFollow_safe
          | apply admitHub_safe | apply joinHub_safe | apply launchHub_safe | apply hubAction_safe | apply fenceHub_safe
          | apply teardownHub_safe | apply takeVals_safe | apply flipHub_safe | apply foldl_safe | apply ite_safe)
      | split

theorem applyHub_safe (h : Safe b s) (g) : Safe b (applyHub s g) := by
  unfold applyHub
  repeat' with_reducible first
      | intro _ | assumption | apply hubReport_safe | apply setStaged_safe | apply applyFabric_safe | apply applyJob_safe
      | apply ite_safe

theorem admitTsu_safe (h : Safe b s) (g) : Safe b (admitTsu s g) := by
  unfold admitTsu
  repeat' first | (with_reducible first | intro _ | assumption | apply tsuState_safe) | refine modTsu_safe ?_ _ rfl | split

theorem joinTsu_safe (h : Safe b s) (g r) : Safe b (joinTsu s g r) := by
  unfold joinTsu
  repeat' first
      | (with_reducible first | intro _ | assumption | apply fresh_safe | apply tsuState_safe | apply ite_safe)
      | refine modTsu_safe ?_ _ rfl

theorem tsuAction_safe (h : Safe b s) (g act) : Safe b (tsuAction g s act) := by
  unfold tsuAction
  dsimp only
  split
  · exact foldl_safe (fun _ _ hs => modSlot_safe hs _ _) h
  · split
    · exact modSlot_safe h _ _
    · exact h
  · exact modTsu_safe h _ rfl
  · exact modTsu_safe h _ rfl
  · exact modTsu_safe h _ rfl
  · exact modTsu_safe h _ rfl
  · exact ite_safe (joinTsu_safe h _ _) h
  · exact foldl_safe (fun _ _ hs => fencedEv_safe hs _ _ _) h
  · exact h

theorem flipTsu_safe (h : Safe b s) (commit) : Safe b (flipTsu s commit) := by
  unfold flipTsu
  repeat' first | (with_reducible first | intro _ | assumption) | refine modTsu_safe ?_ _ rfl

theorem applyTsu_safe (h : Safe b s) (g) : Safe b (applyTsu s g) := by
  unfold applyTsu
  repeat' first
      | (with_reducible first
          | intro _ | assumption | apply admitTsu_safe | apply flipTsu_safe | apply tsuAction_safe | apply tsuState_safe
          | apply teardownTsu_safe | apply tsuDone_safe | apply setStaged_safe | apply foldl_safe | apply ite_safe)
      | refine modTsu_safe ?_ _ rfl | split

end Sys2Proof.Machine
end

section
/-! What the operations of Machine/Txns.lean keep. -/

namespace Sys2Proof.Machine

variable {b s : State}

theorem ticksTest_safe (h : Safe b s) (bs) : Safe b (ticksTest s bs).2 := by
  unfold ticksTest
  repeat' first
      | (with_reducible first | intro _ | assumption | apply schedTest_safe)
      | split | dsimp only | refine snd_safe (by assumption) ?_

theorem holdCommit_safe (h : Safe b s) (p part) : Safe b (holdCommit s p part) := by
  unfold holdCommit
  repeat' with_reducible first | intro _ | assumption | apply setStaged_safe

theorem commitTxn_safe (h : Safe b s) (tid) : Safe b (commitTxn s tid) := by
  unfold commitTxn
  repeat' with_reducible first
      | intro _ | assumption | apply mirrorTxn_safe | apply modTxn_safe | apply sendTwin_safe | apply sendTargets_safe
      | apply holdCommit_safe | apply ite_safe

theorem countVote_safe (h : Safe b s) (m arrived passed) : Safe b (countVote s m arrived passed) := by
  unfold countVote
  repeat' with_reducible first
      | intro _ | assumption | apply txnAbort_safe | apply modTxn_safe | apply mirrorTxn_safe | apply commitTxn_safe
      | apply ite_safe

theorem keepArrived_safe (h : Safe b s) (part coord tid arrived) : Safe b (keepArrived s part coord tid arrived) := by
  unfold keepArrived
  repeat' first | (with_reducible first | intro _ | assumption | apply setStaged_safe | apply ite_safe) | split

theorem giveVote_safe (h : Safe b s) (p g reason) : Safe b (giveVote s p g reason) := by
  unfold giveVote
  repeat' first
      | (with_reducible first
          | intro _ | assumption | apply tsuSend_safe | apply sendHub_safe | apply countVote_safe | apply keepArrived_safe
          | apply ite_safe)
      | refine modTsu_safe ?_ _ rfl | split

theorem countDeferred_safe (h : Safe b s) (p) : Safe b (countDeferred s p) := by
  unfold countDeferred
  repeat' first | (with_reducible first | intro _ | assumption | apply modTxnRegs_safe) | refine modTsu_safe ?_ _ rfl | split

theorem countReserved_safe (h : Safe b s) (p g) : Safe b (countReserved s p g) := by
  unfold countReserved
  repeat' with_reducible first | intro _ | assumption | apply refuse_safe | apply ite_safe

theorem prepareTake_safe (h : Safe b s) (p g) : Safe b (prepareTake s p g) := by
  unfold prepareTake
  repeat' first
      | (with_reducible first
          | intro _ | assumption | apply setStaged_safe | apply giveVote_safe | apply countDeferred_safe
          | apply countReserved_safe | apply ite_safe)
      | split | dsimp only

theorem prepareMsgTake_safe (h : Safe b s) (l m) : Safe b (prepareMsgTake l m s) := by
  unfold prepareMsgTake
  repeat' first
      | (with_reducible first
          | intro _ | assumption | apply sendLink_safe | apply countNotValid_safe | apply schedWire_safe
          | apply prepareTake_safe | apply giveVote_safe | apply ite_safe)
      | split | dsimp only | refine snd_safe (by assumption) ?_

theorem relayPrepare_safe (h : Safe b s) (m key l) : Safe b (relayPrepare s m key l) := by
  unfold relayPrepare
  repeat' first
      | (with_reducible first | intro _ | assumption | apply sendLink_safe | apply noRoute_safe | apply onRoute_safe)
      | refine modHub_safe ?_ _ rfl

theorem relayOutcome_safe (h : Safe b s) (coord tid m) : Safe b (relayOutcome s coord tid m) := by
  unfold relayOutcome
  repeat' first
      | (with_reducible first | intro _ | assumption | apply sendLink_safe | apply foldl_safe)
      | refine modHub_safe ?_ _ rfl

theorem prepareOn_safe (h : Safe b s) (l m) : Safe b (prepareOn l m s) := by
  unfold prepareOn
  repeat' first
      | (with_reducible first
          | intro _ | assumption | apply ifValid_safe | apply prepareMsgTake_safe | apply relayPrepare_safe | apply ite_safe)
      | split

theorem sendPrepare_safe (h : Safe b s) (tid) : Safe b (sendPrepare s tid) := by
  unfold sendPrepare
  repeat' first
      | (with_reducible first
          | intro _ | assumption | apply modTxn_safe | apply mirrorTxn_safe | apply sendHub_safe | apply sendEp_safe
          | apply prepareTake_safe | apply foldl_safe | apply ite_safe)
      | refine modHub_safe ?_ _ rfl

theorem lockTake_safe (h : Safe b s) (tid) : Safe b (lockTake s tid) := by
  unfold lockTake
  repeat' first
      | (with_reducible first | intro _ | assumption | apply sendPrepare_safe | apply txnAbort_safe | apply ite_safe)
      | split

theorem acceptBody_safe (h : Safe b s) (hroom : s.hub.queue.length < 32) : Safe b (acceptBody s) := by
  unfold acceptBody
  refine mirrorTxn_safe (modHub_of_safe h _ ?_ (.of_eq rfl rfl rfl) rfl) _ _
  rintro ⟨hhq, -, hrest⟩
  refine ⟨hhq, ?_, hrest⟩
  simp
  omega

theorem submitBody_safe (h : Safe b s) : Safe b (submitBody s) := by
  unfold submitBody
  dsimp only
  split
  · exact modTxnRegs_safe (refuse_safe h _ _) _
  split
  · exact modTxnRegs_safe h _
  split
  · exact modTxnRegs_safe h _
  have hs := ticksTest_safe h s.hub.body
  split
  · next e => rw [e] at hs; exact modTxnRegs_safe hs _
  · next e =>
    rw [e] at hs
    split
    · exact modTxnRegs_safe hs _
    · split
      · exact modTxnRegs_safe hs _
      · exact acceptBody_safe hs (by omega)

theorem appendChunk_safe (h : Safe b s) : Safe b (appendChunk s).2 := by
  unfold appendChunk
  dsimp only
  split
  · exact refused_safe h _ _
  · refine accept_safe (mirror_safe (modHub_of_safe h _ (fun ⟨hhq, hqueue, hbody, hbar2⟩ => ⟨hhq, hqueue, ?_, hbar2⟩)
      (.of_eq rfl rfl rfl) rfl) _ _ _ _)
    simp
    omega

theorem cancelTxn_safe (h : Safe b s) (i) : Safe b (cancelTxn i s).2 := by
  unfold cancelTxn
  repeat' first
      | (with_reducible first
          | intro _ | assumption | apply accept_safe | apply txnAbort_safe | apply refused_safe | apply ite_safe)
      | split | dsimp only

theorem txnCtrlWrite_safe (h : Safe b s) (i v) : Safe b (txnCtrlWrite i v s).2 := by
  refine onPart_safe h fun s hs => ?_
  have h0 := modTxnRegs_safe hs (fun r => { r with txnCtrlChunk := getF v 0 16 })
  have h1 : Safe b (if getB v 60 then modHub (modTxnRegs s fun r => { r with txnCtrlChunk := getF v 0 16 }) fun h =>
      { h with body := [] } else modTxnRegs s fun r => { r with txnCtrlChunk := getF v 0 16 }) :=
    ite_safe (modHub_of_safe h0 _ (fun ⟨hhq, hqueue, _, hbar2⟩ => ⟨hhq, hqueue, Nat.zero_le _, hbar2⟩) (.of_eq rfl rfl
        rfl) rfl) h0
  dsimp only
  have h2 : ∀ {x y : Bool × State} {c : Bool}, Safe b x.2 → Safe b y.2 → Safe b (if c then x else y).2 := by
    intro x y c ha hb; split <;> assumption
  exact h2 (cancelTxn_safe (ite_safe (submitBody_safe (h2 (appendChunk_safe h1) h1)) (h2 (appendChunk_safe h1) h1)) _)
      (ite_safe (submitBody_safe (h2 (appendChunk_safe h1) h1)) (h2 (appendChunk_safe h1) h1))

theorem voteOn_safe (h : Safe b s) (m) : Safe b (voteOn s m) := by
  unfold voteOn
  repeat' first
      | (with_reducible first
          | intro _ | assumption | apply modLink_safe | apply sendLink_safe | apply noRoute_safe | apply onRoute_safe)
      | split

theorem launchAuthority_safe (h : Safe b s) (g) : Safe b (launchAuthority s g) := by
  unfold launchAuthority
  repeat' first
      | (with_reducible first | intro _ | assumption | apply holdLaunch_safe | apply launchMiss_safe | apply ite_safe)
      | split

theorem commitTake_safe (h : Safe b s) (l m) : Safe b (commitTake l m s) := by
  unfold commitTake
  repeat' first
      | (with_reducible first
          | intro _ | assumption | apply relayOutcome_safe | apply forwardDown_safe | apply holdCommit_safe
          | apply launchAuthority_safe | apply ite_safe)
      | split | dsimp only

theorem abortTake_safe (h : Safe b s) (l m) : Safe b (abortTake l m s) := by
  unfold abortTake
  repeat' first
      | (with_reducible first
          | intro _ | assumption | apply forwardDown_safe | apply unstage_safe | apply relayOutcome_safe | apply ite_safe)
      | split

theorem applyStaged_safe (h : Safe b s) (p g) : Safe b (applyStaged s p g) := by
  unfold applyStaged
  repeat' first | (with_reducible first | intro _ | assumption | apply applyHub_safe | apply applyTsu_safe) | split

theorem noCommit_safe (h : Safe b s) (p g missed) : Safe b (noCommit s p g missed) := by
  unfold noCommit
  repeat' first
      | (with_reducible first
          | intro _ | assumption | apply setStaged_safe | apply raise_safe | apply launchMiss_safe | apply tsuReport_safe
          | apply txnAbortEv_safe | apply modTxnRegs_safe | apply abortJob_safe | apply reportTake_safe | apply ite_safe)
      | refine modTsu_safe ?_ _ rfl | refine setCause_safe ?_ _ _ _ (by simp [causesOf]) | split

theorem pauseReplyTake_safe (h : Safe b s) (m) : Safe b (pauseReplyTake m s) := by
  unfold pauseReplyTake
  repeat' with_reducible first
      | intro _ | assumption | apply sendTwin_safe | apply modJob_safe | apply sendUp_safe | apply pauseCheck_safe
      | apply ite_safe

theorem resumeTxn_safe (h : Safe b s) (tid) : Safe b (resumeTxn s tid) := by
  unfold resumeTxn
  repeat' first
      | (with_reducible first
          | intro _ | assumption | apply sendTargets_safe | apply unstage_safe | apply txnAbortEv_safe | apply sendTwin_safe
          | apply holdCommit_safe | apply ite_safe)
      | split | dsimp only

theorem takeLead_safe (h : Safe b s) (j) : Safe b (takeLead s j) := by
  unfold takeLead
  repeat' with_reducible first | intro _ | assumption | apply modJob_safe | apply mirror_safe | apply ite_safe

theorem resendTwin_safe (h : Safe b s) (e) : Safe b (resendTwin s e) := by
  unfold resendTwin
  repeat' first
      | (with_reducible first | intro _ | assumption | apply sendLink_safe)
      | refine modHub_safe ?_ _ rfl | split | dsimp only

end Sys2Proof.Machine
end

section
/-! What the operations of Machine/Mirror.lean keep. -/

namespace Sys2Proof.Machine

variable {b s : State}

theorem hearLeadGen_safe (h : Safe b s) (j gen) : Safe b (hearLeadGen s j gen) := by
  unfold hearLeadGen
  repeat' first
      | (with_reducible first | intro _ | assumption | apply modJob_safe | apply laneSpared_safe | apply ite_safe)
      | refine modHub_safe ?_ _ rfl

theorem mirrorTake_safe (h : Safe b s) (m) : Safe b (mirrorTake m s) := by
  unfold mirrorTake
  dsimp only
  generalize m.item.toNat = n
  split
  · exact modBarrier_safe h _ _ _
  · exact modJob_safe h _ _
  · exact lateSample_safe h _ _ _ _
  · exact modJob_safe h _ _
  · exact modHub_safe h _ rfl
  · cases upMessage (BitVec.ofNat 8 (bytesAt m.value 0 1)) (bytesAt m.value 1 52) (m.value.drop 53)
    · exact h
    · exact modHub_safe h _ rfl
  · exact modJob_safe h _ _
  · exact rlAppend_safe h _
  · exact modHub_safe h _ rfl
  · exact modJob_safe h _ _
  · exact hearLeadGen_safe h _ _
  · exact modHub_safe h _ rfl
  · exact h

end Sys2Proof.Machine
end

section
/-! What the operations of Machine/Image.lean keep. -/

namespace Sys2Proof.Machine

variable {b s : State}

theorem setRunning_safe (h : Safe b s) (v) : Safe b (setRunning s v) := by
  unfold setRunning
  repeat' first
      | (with_reducible first
          | intro _ | assumption | apply envChange_safe | apply modJob_safe | apply foldl_safe | apply ite_safe)
      | refine modHub_safe ?_ _ rfl

theorem runSlot_safe (h : Safe b s) (k) : Safe b (runSlot s k) := by
  unfold runSlot
  repeat' first | (with_reducible first | intro _ | assumption) | refine modHub_safe ?_ _ rfl

theorem modSlotOf_safe (h : Safe b s) (k f) : Safe b (modHub s fun h => modSlotOf h k f) := by
  cases k <;> exact modHub_safe h _ rfl

theorem rejectTried_safe (h : Safe b s) (k) : Safe b (rejectTried s k) := by
  refine ite_safe (setCause_safe (modHub_of_safe h _ (fun hb => hb) ?_ rfl) _ _ _ (by simp [causesOf])) h
  exact (setSlotState_once (.refl _) k 3).of_fields rfl rfl rfl

theorem romBoot_safe (h : Safe b s) (recover) : Safe b (romBoot s recover) := by
  have hreset := modHub_safe (rejectTried_safe (rejectTried_safe h false) true) (fun h => { h with
    transfer := none
    fw := { h.fw with fwSlotsS0Running := false, fwSlotsS1Running := false, fwStaged := 0, fwStatusState := 0 } }) rfl
  unfold romBoot
  dsimp only
  generalize modHub (rejectTried (rejectTried s false) true) _ = u at hreset ⊢
  split
  · have hran : ∀ k v, Safe b (setRunning (runSlot (modHub (modHub u fun h => { h with
        mod_ := { h.mod_ with modStatusRomRecovery := false } }) fun h => modSlotOf h k fun x => { x with tried := true
            }) k) v) :=
      fun k v => setRunning_safe (runSlot_safe (modSlotOf_safe (modHub_safe hreset _ rfl) _ _) _) _
    exact modHub_safe (hran _ _) _ rfl
  · exact setRunning_safe (runSlot_safe (modHub_safe hreset _ rfl) _) _
  · exact modHub_safe (setRunning_safe hreset _) _ rfl

end Sys2Proof.Machine
end

section
/-! What the operations of Machine/Power.lean keep. -/

namespace Sys2Proof.Machine

variable {b s : State}

theorem keepRetired_safe (h : Safe b s) (u) : Safe b (keepRetired s u) := by
  unfold keepRetired
  have hretired : ∀ v, Safe b (modUnit s u fun r => { r with unitState := 4, unitStateStandin := v }) :=
    fun v => modUnit_safe h _ _ fun _ => rfl
  have halone : Safe b (modUnit s u fun r => { r with unitState := 4 }) := modUnit_safe h _ _ fun _ => rfl
  split
  · exact h
  split
  case isFalse => exact halone
  next hserves =>
    simp only [Bool.and_eq_true, beq_iff_eq] at hserves
    split
    · next v e =>
      have hstandby : ((s.unit v).unitState == 1) = true := List.find?_some (p := fun u => (s.unit u).unitState == 1) e
      refine modUnit_safe (hretired v) _ _ fun h4 => ?_
      rw [unit_modUnit] at h4
      split at h4
      · subst_vars
        simp_all
      · simp_all
    · exact halone

theorem resetIface_safe (h : Safe b s) (i) : Safe b (resetIface s i) :=
  modSh_of_safe h _ _ (fun ⟨hv, hh, hst⟩ => ⟨hv, hh, hst⟩) rfl

theorem tget_filter {α : Type} (d : α) (p : Nat → Bool) (t : Tbl α) (k : Nat) :
    tget d (t.filter fun e => p e.1) k = if p k then tget d t k else d := by
  induction t with
  | nil => simp [tget]
  | cons e t ih =>
    by_cases hk : e.1 = k
    · by_cases hp : p e.1 <;> simp_all [tget]
    · by_cases hp : p e.1 <;> simp_all [tget]

/-- A reset of the core keeps a header or begins it again (R482, R504). -/
theorem coreHub_hdr (h : Hub) (o c pcie mc) (k : Nat) :
    tget {} (coreHub h o c pcie mc).sh.hdr k = tget {} h.sh.hdr k ∨ tget {} (coreHub h o c pcie mc).sh.hdr k = {} := by
  cases mc
  · have he : (coreHub h o c pcie false).sh.hdr = h.sh.hdr.filter fun e => e.1 == 2 || e.1 == 4 := by cases pcie <;> rfl
    have hkeep := tget_filter ({} : PageHdr) (fun n => n == 2 || n == 4) h.sh.hdr k
    rw [he]
    split at hkeep
    · exact .inl hkeep
    · exact .inr hkeep
  · refine .inr ?_
    have he : (coreHub h o c pcie true).sh.hdr = [] := by cases pcie <;> rfl
    rw [he]
    rfl

theorem coreHub_causes (h : CausesNamed s) (o c pcie mc) : CausesNamed { s with hub := coreHub s.hub o c pcie mc } := by
  intro p g
  cases p
  case tsu => exact h .tsu g
  have hnamed := h .hub g
  unfold State.hdr at hnamed ⊢
  split
  · next k hk =>
    rw [hk] at hnamed
    rcases coreHub_hdr s.hub o c pcie mc k with he | he
    · show PageHdr.Named g (tget {} (coreHub s.hub o c pcie mc).sh.hdr k)
      rw [he]
      exact hnamed
    · show PageHdr.Named g (tget {} (coreHub s.hub o c pcie mc).sh.hdr k)
      rw [he]
      exact .reset g
  · exact PageHdr.Named.reset g

theorem coreHub_shOk (h : Hub) (o c pcie mc) : ShOk (coreHub h o c pcie mc).sh := by
  cases pcie <;> cases mc <;> exact .invalid (Nat.zero_le _) rfl rfl

theorem coreHub_fuses (h : Hub) (o c pcie mc) : (coreHub h o c pcie mc).fw.fwSlotsMinSec = h.fw.fwSlotsMinSec ∧
    (coreHub h o c pcie mc).fw.fwSlotsRevoked = h.fw.fwSlotsRevoked := by
  cases pcie <;> cases mc <;> exact ⟨rfl, rfl⟩

/-- The hub's reset clears its units, and each that was retired is retired again (R397, R482). -/
theorem coreHub_retired_safe (s : State) (o c pcie mc) :
    Safe s ((retiredUnits s.hub).foldl keepRetired { s with hub := coreHub s.hub o c pcie mc }) := by
  have hfold := foldl_safe (fun s x hs => keepRetired_safe hs x) (l := retiredUnits s.hub)
    (Safe.refl { s with hub := coreHub s.hub o c pcie mc })
  obtain ⟨hmin, hrev⟩ := coreHub_fuses s.hub o c pcie mc
  refine ⟨hfold.pending, ⟨?_, ?_, ?_⟩, ?_, ?_, ?_⟩
  · exact Nat.le_trans (Nat.le_of_eq (congrArg BitVec.toNat hmin).symm) hfold.once.minSec
  · exact fun k hk => hfold.once.revoked k (hrev ▸ hk)
  · exact fun u hu => keepRetired_foldl _ _ u (.inl (retired_mem _ _ hu))
  · exact fun ht => hfold.time (timeConsistent_iff.2 ⟨coreHub_shOk .., ht .tsu⟩)
  · exact fun hb => hfold.bounds ⟨hb.1, coreHub_bounded hb.2 ..⟩
  · exact fun hc => hfold.causes (coreHub_causes hc _ _ _ _)

theorem coreReset_safe (h : Safe b s) (cause pcie mc) : Safe b (coreReset s cause pcie mc) := by
  have hreset := h.trans (coreHub_retired_safe s s.opsec cause pcie mc)
  unfold coreReset
  dsimp only
  generalize List.foldl keepRetired _ _ = u at hreset ⊢
  refine modHub_of_safe hreset _ (fun hb => ?_) ?_ ?_
  · split
    · split <;> exact hb
    · exact hb
  · split
    · split
      · exact .of_eq rfl rfl rfl
      · exact .refl _
    · exact .refl _
  · split
    · split <;> rfl
    · rfl

theorem coldReset_safe (h : Safe b s) (cause) : Safe b (coldReset s cause) := by
  unfold coldReset
  repeat' with_reducible first | intro _ | assumption | apply coreReset_safe

theorem warmReset_safe (h : Safe b s) : Safe b (warmReset s) := by
  unfold warmReset
  repeat' with_reducible first | intro _ | assumption | apply coreReset_safe

theorem mcReset_safe (h : Safe b s) : Safe b (mcReset s) := by
  have hiface := resetIface_safe h .mgmt
  unfold mcReset
  generalize resetIface s .mgmt = u at hiface ⊢
  exact romBoot_safe (modHub_safe hiface _ rfl) _

theorem powerOnReset_safe (h : Safe b s) (cause) : Safe b (powerOnReset s cause) := by
  have hcold := coldReset_safe h cause
  unfold powerOnReset
  generalize coldReset s cause = u at hcold ⊢
  exact modHub_sh_safe hcold _ (fun hb => hb) (.of_eq rfl rfl rfl) (fun ht => ht) rfl

theorem showVin_safe (h : Safe b s) (vin) : Safe b (showVin s vin) := by
  unfold showVin
  repeat' first | (with_reducible first | intro _ | assumption) | refine modHub_safe ?_ _ rfl

theorem powerOff_safe (h : Safe b s) (cause) : Safe b (powerOff s cause) := by
  unfold powerOff
  repeat' first
      | (with_reducible first | intro _ | assumption | apply powerOnReset_safe | apply ite_safe)
      | refine modHub_safe ?_ _ rfl

theorem modResetWrite_safe (h : Safe b s) (i v) : Safe b (modResetWrite i v s).2 := by
  unfold modResetWrite
  repeat' first
      | (with_reducible first
          | intro _ | assumption | apply onPart_safe | apply refused_safe | apply accept_safe | apply coldReset_safe
          | apply warmReset_safe | apply mcReset_safe | apply ite_safe)
      | split

theorem setIr_safe (h : Safe b s) (ir) : Safe b (setIr s ir) := by
  unfold setIr
  repeat' first | (with_reducible first | intro _ | assumption) | refine modHub_safe ?_ _ rfl

end Sys2Proof.Machine
end

section
/-! What the operations of Machine/Fw.lean keep. -/

namespace Sys2Proof.Machine

variable {b s : State}

theorem modFw_of_safe (h : Safe b s) (f)
    (hf : ∀ r : FwRegs, r.fwSlotsMinSec.toNat ≤ (f r).fwSlotsMinSec.toNat ∧
      ∀ k, r.fwSlotsRevoked.getLsbD k = true → (f r).fwSlotsRevoked.getLsbD k = true) : Safe b (modFw s f) :=
  modHub_of_safe h _ (fun hb => hb) ⟨(hf _).1, (hf _).2, fun _ hu => hu⟩ rfl

theorem modFw_safe (h : Safe b s) (f)
    (e : ∀ r : FwRegs, ((f r).fwSlotsMinSec, (f r).fwSlotsRevoked) = (r.fwSlotsMinSec, r.fwSlotsRevoked)) :
    Safe b (modFw s f) := by
  refine modFw_of_safe h f fun r => ?_
  obtain ⟨hmin, hrev⟩ := Prod.mk.injEq .. ▸ e r
  rw [hmin, hrev]
  exact ⟨Nat.le_refl _, fun _ hk => hk⟩

theorem refuseImage_safe (h : Safe b s) (r) : Safe b (refuseImage s r) := by
  unfold refuseImage
  repeat' first
      | (with_reducible first | intro _ | assumption) | refine setCause_safe ?_ _ _ _ (by simp [causesOf])
      | refine modFw_safe ?_ _ (fun _ => rfl)

theorem modHub_eraseSlot_safe (h : Safe b s) (t k) : Safe b (modHub s fun h => eraseSlot { h with transfer := t } k) :=
  have ht : Once s.hub { s.hub with transfer := t } := .of_eq rfl rfl rfl
  modHub_of_safe h _ (fun hb => hb) (eraseSlot_once ht _) rfl

theorem fwHeader_safe (h : Safe b s) : Safe b (fwHeader s) := by
  unfold fwHeader
  exact ite_safe (refuseImage_safe h _) (modFw_safe (modHub_eraseSlot_safe h _ _) _ (fun _ => rfl))

theorem fwRange_safe (h : Safe b s) : Safe b (fwRange s) := by
  unfold fwRange
  repeat' first | (with_reducible first | intro _ | assumption) | refine modFw_safe ?_ _ (fun _ => rfl)

theorem fwBlock_safe (h : Safe b s) : Safe b (fwBlock s) := by
  unfold fwBlock
  dsimp only
  split
  · refine ite_safe (fwRange_safe h) ?_
    split
    · exact modFw_safe h _ (fun _ => rfl)
    · exact modFw_safe h _ (fun _ => rfl)
    · exact modFw_safe (modHub_safe h _ rfl) _ (fun _ => rfl)
  · exact fwRange_safe h

theorem fwAbort_safe (h : Safe b s) : Safe b (fwAbort s).2 :=
  snd_ite_safe (refused_safe h _ _) (snd_ite_safe (accept_safe (modFw_safe (modHub_eraseSlot_safe h _ _) _ (fun _ => rfl))) h)

theorem fwActivate_safe (h : Safe b s) (twinVer twinState) : Safe b (fwActivate s twinVer twinState).2 := by
  unfold fwActivate
  repeat' first
      | (with_reducible first
          | intro _ | assumption | apply refused_safe | apply accept_safe | apply coldReset_safe | apply mcReset_safe
          | apply ite_safe)
      | split

theorem fwRevoke_safe (h : Safe b s) (key) : Safe b (fwRevoke s key).2 := by
  unfold fwRevoke
  split
  · exact refused_safe h _ _
  · refine accept_safe (modFw_of_safe h _ fun r => ⟨Nat.le_refl _, fun k hk => ?_⟩)
    by_cases e : key.toNat = k
    · subst e
      exact getLsbD_setBit_true _ _ (by omega)
    · rw [getLsbD_setBit_ne _ _ _ _ e]
      exact hk

theorem andThen_safe {r : Bool × State} {c : Bool} {f : State → Bool × State} (hr : Safe b r.2)
    (hf : ∀ s, Safe b s → Safe b (f s).2) : Safe b (andThen r c f).2 := by
  unfold andThen
  split
  · exact hf _ hr
  · exact hr

theorem fwCtrlWrite_safe (h : Safe b s) (twinVer twinState i v) : Safe b (fwCtrlWrite twinVer twinState i v s).2 := by
  unfold fwCtrlWrite
  refine onPart_safe h fun s hs => ?_
  have hkeyed : ∀ {f : State → Bool × State} {c : Bool}, (∀ s, Safe b s → Safe b (f s).2) →
      ∀ s, Safe b s → Safe b (if c then f s else refused s .hub .fw).2 :=
    fun hf s hs => snd_ite_safe (hf s hs) (refused_safe hs _ _)
  refine andThen_safe (andThen_safe (andThen_safe (andThen_safe (andThen_safe (andThen_safe ?_ ?_) ?_) ?_) ?_) ?_) ?_
  · exact accept_safe (modFw_safe hs _ (fun _ => rfl))
  · exact fun s hs => accept_safe (fwHeader_safe hs)
  · exact fun s hs => accept_safe (fwBlock_safe hs)
  · exact hkeyed fun s hs => fwActivate_safe hs _ _
  · exact fun s hs => fwAbort_safe hs
  · exact hkeyed fun s hs => accept_safe (modHub_safe hs _ rfl)
  · exact hkeyed fun s hs => fwRevoke_safe hs _

theorem rejectImage_safe (h : Safe b s) (k r) : Safe b (rejectImage s k r) :=
  refuseImage_safe (modFw_safe (modHub_eraseSlot_safe h _ _) (fun f => { f with fwStatusState := 0 }) fun _ => rfl) r

end Sys2Proof.Machine
end

section
/-! What the operations of Machine/Read.lean keep. -/

namespace Sys2Proof.Machine

variable {b s : State}

theorem readTimebase_safe (h : Safe b s) (i off) : Safe b (readTimebase i off s).2 := by
  refine snd_ite_safe (nowLoRead_safe h _) (snd_ite_safe h ?_)
  exact modTbRegs_of_safe h _ (fun r => r.clear off) (tbClear_ok _ _)

theorem readEmu_safe (h : Safe b s) (i e off) : Safe b (readEmu i e off s).2 := by
  unfold readEmu
  repeat' first
      | (with_reducible first
          | intro _ | assumption | apply emuMeanRead_safe | apply emuLastTickRead_safe | apply modEmu_safe | apply ite_safe)
      | split

theorem readServo_safe (h : Safe b s) (p off) : Safe b (readServo p off s).2 :=
  modServoRegs_of_safe h p (fun r => r.clear off) (svClear_ok _ _)

theorem readRef_safe (h : Safe b s) (off) : Safe b (readRef off s).2 := by
  unfold readRef
  repeat' first | (with_reducible first | intro _ | assumption) | refine modHub_safe ?_ _ rfl | split | dsimp only

theorem readFw_safe (h : Safe b s) (off) : Safe b (readFw off s).2 := by
  refine modFw_of_safe h (fun f => f.clear off) fun r => ?_
  unfold FwRegs.clear
  split <;> exact ⟨Nat.le_refl _, fun _ hk => hk⟩

theorem readIntcHub_safe (h : Safe b s) (off) : Safe b (readIntcHub off s).2 := by
  unfold readIntcHub
  repeat' first
      | (with_reducible first | intro _ | assumption | apply ite_safe) | refine modHub_safe ?_ _ rfl | split | dsimp only

theorem readMgmt_safe (h : Safe b s) (off) : Safe b (readMgmt off s).2 := by
  unfold readMgmt
  repeat' first | (with_reducible first | intro _ | assumption) | refine modHub_safe ?_ _ rfl | split | dsimp only

theorem readXlat_safe (h : Safe b s) (i off) : Safe b (readXlat i off s).2 := by
  unfold readXlat
  repeat' first | (with_reducible first | intro _ | assumption | apply modJob_safe) | refine modHub_safe ?_ _ rfl | split

theorem readLadle_safe (h : Safe b s) (i off) : Safe b (readLadle i off s).2 := by
  unfold readLadle
  repeat' first
      | (with_reducible first | intro _ | assumption | apply ladle_safe | apply ite_safe)
      | refine modHub_safe ?_ _ rfl | split | dsimp only

theorem readSynch_safe (h : Safe b s) (i off) : Safe b (readSynch i off s).2 := by
  unfold readSynch
  repeat' first | (with_reducible first | intro _ | assumption | apply modSynch_safe | apply foldl_safe) | split

theorem readSteph_safe (h : Safe b s) (i off) : Safe b (readSteph i off s).2 := by
  unfold readSteph
  repeat' first | (with_reducible first | intro _ | assumption | apply modJob_safe | apply ite_safe) | split | dsimp only

theorem readLate_safe (h : Safe b s) (i off) : Safe b (readLate i off s).2 := by
  unfold readLate
  repeat' first
      | (with_reducible first | intro _ | assumption | apply ltMeanRead_safe)
      | refine modHub_safe ?_ _ rfl | split | dsimp only

theorem readProg_safe (h : Safe b s) (i off) : Safe b (readProg i off s).2 := by
  unfold readProg
  repeat' first
      | (with_reducible first | intro _ | assumption | apply progDataRead_safe | apply modSeqRegs_safe | apply ite_safe)
      | split

theorem readStock_safe (h : Safe b s) (i off) : Safe b (readStock i off s).2 := by
  unfold readStock
  repeat' first
      | (with_reducible first | intro _ | assumption | apply modCtxRegs_safe | apply foldl_safe)
      | refine modHub_safe ?_ _ rfl | split | dsimp only

theorem readDigh_safe (h : Safe b s) (i off) : Safe b (readDigh i off s).2 := by
  unfold readDigh
  repeat' first | (with_reducible first | intro _ | assumption | apply modDigh_safe | apply ite_safe) | split | dsimp only

theorem readAudit_safe (h : Safe b s) (i off) : Safe b (readAudit i off s).2 := by
  unfold readAudit
  repeat' first
      | (with_reducible first | intro _ | assumption | apply audit_safe | apply audRd0Read_safe | apply ite_safe)
      | refine modHub_safe ?_ _ rfl | split | dsimp only

theorem readDeth_safe (h : Safe b s) (i off) : Safe b (readDeth i off s).2 := by
  unfold readDeth
  repeat' first
      | (with_reducible first | intro _ | assumption | apply modJob_safe | apply rlRd0Read_safe | apply ite_safe)
      | refine modHub_safe ?_ _ rfl | split | dsimp only

theorem readEvh_safe (h : Safe b s) (i off) : Safe b (readEvh i off s).2 := by
  unfold readEvh
  repeat' first
      | (with_reducible first | intro _ | assumption | apply evRd0Read_safe | apply modEvh_safe | apply ite_safe)
      | split

theorem readFlt_safe (h : Safe b s) (i off) : Safe b (readFlt i off s).2 := by
  unfold readFlt
  repeat' first
      | (with_reducible first | intro _ | assumption | apply modJob_safe | apply ite_safe)
      | refine modHub_safe ?_ _ rfl | split | dsimp only

theorem readTxn_safe (h : Safe b s) (i off) : Safe b (readTxn i off s).2 := by
  unfold readTxn
  repeat' first | (with_reducible first | intro _ | assumption | apply modTxnRegs_safe | apply ite_safe) | split

theorem readMemc_safe (h : Safe b s) (k off) : Safe b (readMemc k off s).2 := by
  unfold readMemc
  repeat' first
      | (with_reducible first | intro _ | assumption | apply fresh_safe | apply ite_safe)
      | refine modHub_safe ?_ _ rfl | split | dsimp only

theorem readLink_safe (h : Safe b s) (i port off) : Safe b (readLink i port off s).2 := by
  unfold readLink
  repeat' first
      | (with_reducible first
          | intro _ | assumption | apply modPage_safe | apply ptTsqHeadRead_safe | apply modLinkRegs_safe | apply modFec_safe
          | apply foldl_safe | apply ite_safe)
      | split

theorem readPhy_safe (h : Safe b s) (i port off) : Safe b (readPhy i port off s).2 := by
  unfold readPhy
  repeat' first
      | (with_reducible first | intro _ | assumption | apply fresh_safe | apply ite_safe)
      | refine modSh_safe ?_ _ _ rfl | split | dsimp only

theorem readEvtrig_safe (h : Safe b s) (i off) : Safe b (readEvtrig i off s).2 := by
  unfold readEvtrig
  repeat' first
      | (with_reducible first | intro _ | assumption | apply modTrig_safe | apply ite_safe)
      | refine modTsu_safe ?_ _ rfl | split | dsimp only

theorem readTap_safe (h : Safe b s) (i off) : Safe b (readTap i off s).2 := by
  unfold readTap
  repeat' first
      | (with_reducible first | intro _ | assumption | apply tapLaunchRead_safe | apply modTap_safe | apply ite_safe)
      | refine modTsu_safe ?_ _ rfl | split | dsimp only

theorem readSync_safe (h : Safe b s) (i off) : Safe b (readSync i off s).2 := by
  unfold readSync
  repeat' first | (with_reducible first | intro _ | assumption | apply modSync_safe) | split

theorem readSpt_safe (h : Safe b s) (i off) : Safe b (readSpt i off s).2 := by
  unfold readSpt
  repeat' first
      | (with_reducible first | intro _ | assumption | apply foldl_safe)
      | refine modTsu_safe ?_ _ rfl | split | dsimp only

theorem readEvq_safe (h : Safe b s) (i off) : Safe b (readEvq i off s).2 := by
  unfold readEvq
  repeat' first
      | (with_reducible first | intro _ | assumption | apply eqW0Read_safe)
      | refine modTsu_safe ?_ _ rfl | split | dsimp only

theorem readReg_safe (h : Safe b s) (i g off) : Safe b (readReg i g off s).2 := by
  unfold readReg
  repeat' first
      | (with_reducible first
          | intro _ | assumption | apply ladle_safe | apply audit_safe | apply readTimebase_safe | apply readEmu_safe
          | apply readServo_safe | apply readRef_safe | apply readFw_safe | apply readIntcHub_safe | apply readMgmt_safe
          | apply readXlat_safe | apply readLadle_safe | apply readSynch_safe | apply readSteph_safe | apply readLate_safe
          | apply readProg_safe | apply readStock_safe | apply readDigh_safe | apply readAudit_safe | apply readDeth_safe
          | apply readEvh_safe | apply readFlt_safe | apply readTxn_safe | apply readMemc_safe | apply readLink_safe
          | apply readPhy_safe | apply readEvtrig_safe | apply readTap_safe | apply readSync_safe | apply readSpt_safe
          | apply readEvq_safe | apply ite_safe)
      | refine modTsu_safe ?_ _ rfl | split | dsimp only

theorem readAt_safe (h : Safe b s) (i a) : Safe b (readAt i a s).2.2 := by
  unfold readAt
  repeat' first
      | (with_reducible first | intro _ | assumption | apply readReg_safe | apply refuse_safe | apply ite_safe)
      | split | dsimp only

end Sys2Proof.Machine
end

section
/-! What the operations of Machine/Write.lean keep. -/

namespace Sys2Proof.Machine

variable {b s : State}

/-- A write leaves the causes named when a new enable names no other (R504, R506). -/
theorem PageHdr.Named.write {g : Page} {r : PageHdr} (h : r.Named g) (off : Nat) (v : Word)
    (hv : off = 0x028 → v &&& ~~~causesOf g = 0) : PageHdr.Named g (r.write off v) := by
  unfold PageHdr.write
  split
  · exact h
  · refine ⟨?_, h.2⟩
    show r.pageIntStatus &&& ~~~getF v 0 64 &&& ~~~causesOf g = 0
    rw [BitVec.and_assoc, BitVec.and_comm (~~~_) _, ← BitVec.and_assoc, h.1]
    exact BitVec.zero_and
  · exact ⟨h.1, by simpa [getF] using hv rfl⟩
  · exact h
  · exact h

theorem pageCtrlWrite_safe (h : Safe b s) (p g v) : Safe b (pageCtrlWrite p g v s).2 := by
  unfold pageCtrlWrite
  dsimp only
  split
  case isTrue => exact refused_safe h _ _
  next hnamed =>
    refine accept_safe (modHdr_safe h _ _ _ fun hn => ?_)
    by_cases hforce : getB v 62
    · rw [if_pos hforce]
      exact PageHdr.Named.setCause hn (by simpa [hforce] using hnamed)
    · rw [if_neg hforce]
      exact hn

theorem hdrWrite_safe (h : Safe b s) (p g off v) : Safe b (hdrWrite p g off v s).2 := by
  unfold hdrWrite
  split
  · exact pageCtrlWrite_safe h _ _ _
  · exact accept_safe (modHdr_safe h _ _ _ fun hn => hn.write _ _ fun e => absurd e (by decide))
  · refine accept_safe (modHdr_safe h _ _ _ fun hn => hn.write _ _ fun _ => ?_)
    rw [BitVec.and_assoc, BitVec.and_not_self]
    exact BitVec.and_zero
  · exact accept_safe (modHdr_safe h _ _ _ fun hn => hn.write _ _ fun e => (by contradiction))

theorem hubAddrWrite_safe (h : Safe b s) (i v) : Safe b (hubAddrWrite i v s).2 := by
  unfold hubAddrWrite
  repeat' first
      | (with_reducible first
          | intro _ | assumption | apply onPart_safe | apply accept_safe | apply refused_safe | apply ite_safe)
      | refine modHub_safe ?_ _ rfl | split | dsimp only

theorem mgmtWrite_safe (h : Safe b s) (off i v) : Safe b (mgmtWrite off i v s).2 := by
  unfold mgmtWrite
  repeat' first
      | (with_reducible first
          | intro _ | assumption | apply onPart_safe | apply refused_safe | apply accept_safe | apply ite_safe)
      | refine modHub_safe ?_ _ rfl | split

theorem modWrite_safe (h : Safe b s) (off i v) : Safe b (modWrite off i v s).2 := by
  unfold modWrite
  repeat' first
      | (with_reducible first
          | intro _ | assumption | apply onPart_safe | apply refused_safe | apply accept_safe | apply modResetWrite_safe
          | apply ite_safe)
      | refine modHub_safe ?_ _ rfl | split

theorem fwWrite_safe (h : Safe b s) (off i v) : Safe b (fwWrite off i v s).2 := by
  unfold fwWrite
  split
  · split
    · exact fwCtrlWrite_safe (fresh_safe h) _ _ _ _
    · exact fwCtrlWrite_safe h _ _ _ _
  · refine accept_safe (modFw_of_safe h _ fun r => ?_)
    unfold FwRegs.write; split <;> exact ⟨Nat.le_refl _, fun _ hk => hk⟩

theorem eoiWrite_safe (h : Safe b s) (i v) : Safe b (eoiWrite i v s).2 := by
  unfold eoiWrite
  repeat' first
      | (with_reducible first | intro _ | assumption | apply onPart_safe | apply accept_safe | apply msixScan_safe)
      | refine modHub_safe ?_ _ rfl

theorem msixUnmask_safe (h : Safe b s) (v) : Safe b (msixUnmask s v) := by
  unfold msixUnmask
  repeat' first
      | (with_reducible first | intro _ | assumption | apply msixSend_safe | apply ite_safe) | refine modHub_safe ?_ _ rfl

theorem msixWrite_safe (h : Safe b s) (k v) : Safe b (msixWrite k v s) := by
  unfold msixWrite
  repeat' first
      | (with_reducible first | intro _ | assumption | apply msixUnmask_safe | apply ite_safe)
      | refine modHub_safe ?_ _ rfl

theorem vernWrite_safe (h : Safe b s) (off i v) : Safe b (vernWrite off i v s).2 := by
  unfold vernWrite
  repeat' first
      | (with_reducible first
          | intro _ | assumption | apply vernCtrlWrite_safe | apply refused_safe | apply accept_safe | apply ite_safe)
      | refine modSh_safe ?_ _ _ rfl | split | dsimp only

theorem emuWrite_safe (h : Safe b s) (off i e v) : Safe b (emuWrite off i e v s).2 := by
  unfold emuWrite
  repeat' first
      | (with_reducible first
          | intro _ | assumption | apply emuCtrlWrite_safe | apply refused_safe | apply accept_safe | apply modEmu_safe
          | apply ite_safe)
      | split

theorem servoWrite_safe (h : Safe b s) (off i v) : Safe b (servoWrite off i v s).2 := by
  unfold servoWrite
  repeat' first
      | (with_reducible first
          | intro _ | assumption | apply servoCtrlWrite_safe | apply rateManualWrite_safe | apply accept_safe)
      | refine modServoRegs_of_safe ?_ _ _ (svWrite_ok _ _ _) | split

theorem refWrite_safe (h : Safe b s) (off i v) : Safe b (refWrite off i v s).2 := by
  unfold refWrite
  repeat' first
      | (with_reducible first
          | intro _ | assumption | apply accept_safe | apply masterCfgWrite_safe | apply refTodWrite_safe
          | apply refCtrlWrite_safe | apply outCtrlWrite_safe | apply ptpCtrlWrite_safe)
      | refine modHub_safe ?_ _ rfl | split

theorem synchWrite_safe (h : Safe b s) (off i v) : Safe b (synchWrite off i v s).2 := by
  unfold synchWrite
  repeat' first
      | (with_reducible first
          | intro _ | assumption | apply shGenWrite_safe | apply shCountWrite_safe | apply shJobWrite_safe
          | apply accept_safe | apply modIfaceRegs_safe)
      | split

theorem progWrite_safe (h : Safe b s) (off i v) : Safe b (progWrite off i v s).2 := by
  unfold progWrite
  repeat' first
      | (with_reducible first
          | intro _ | assumption | apply accept_safe | apply modIfaceRegs_safe | apply progCtrlWrite_safe
          | apply progAddrWrite_safe | apply progDataWrite_safe)
      | split

theorem auditWrite_safe (h : Safe b s) (off i v) : Safe b (auditWrite off i v s).2 := by
  unfold auditWrite
  repeat' first
      | (with_reducible first
          | intro _ | assumption | apply audCtrlWrite_safe | apply audCfgWrite_safe | apply audTailWrite_safe
          | apply accept_safe | apply modIfaceRegs_safe)
      | refine modHub_safe ?_ _ rfl | split

theorem dethWrite_safe (h : Safe b s) (off i v) : Safe b (dethWrite off i v s).2 := by
  unfold dethWrite
  repeat' first
      | (with_reducible first
          | intro _ | assumption | apply accept_safe | apply modIfaceRegs_safe | apply rlCfgWrite_safe
          | apply rlTailWrite_safe | apply hqPushWrite_safe)
      | refine modHub_safe ?_ _ rfl | split

theorem evhWrite_safe (h : Safe b s) (off i v) : Safe b (evhWrite off i v s).2 := by
  unfold evhWrite
  repeat' first
      | (with_reducible first | intro _ | assumption | apply accept_safe | apply modEvh_safe | apply modIfaceRegs_safe)
      | split

theorem fltWrite_safe (h : Safe b s) (off i v) : Safe b (fltWrite off i v s).2 := by
  unfold fltWrite
  repeat' first
      | (with_reducible first
          | intro _ | assumption | apply fltCtrlWrite_safe | apply fltHbWrite_safe | apply refused_safe | apply accept_safe
          | apply modIfaceRegs_safe | apply ite_safe)
      | split

theorem txnWrite_safe (h : Safe b s) (off i v) : Safe b (txnWrite off i v s).2 := by
  unfold txnWrite
  repeat' first
      | (with_reducible first
          | intro _ | assumption | apply txnCtrlWrite_safe | apply accept_safe | apply modIfaceRegs_safe
          | apply abortCmdWrite_safe)
      | split

theorem lkRegCtrlWrite_safe (h : Safe b s) (i port v) : Safe b (lkRegCtrlWrite i port v s).2 := by
  unfold lkRegCtrlWrite
  repeat' first
      | (with_reducible first
          | intro _ | assumption | apply refused_safe | apply modLinkRegs_safe | apply accept_safe | apply modLink_safe
          | apply sendLink_safe | apply ite_safe)
      | split | dsimp only

theorem linkWrite_safe (h : Safe b s) (off i port v) : Safe b (linkWrite off i port v s).2 := by
  unfold linkWrite
  repeat' first
      | (with_reducible first
          | intro _ | assumption | apply portRoleWrite_safe | apply accept_safe | apply modIface_safe | apply refused_safe
          | apply ptCtrlWrite_safe | apply modLink_safe | apply modPage_safe | apply ptProbeWrite_safe
          | apply lkCtrlWrite_safe | apply lkRegCtrlWrite_safe | apply modLinkRegs_safe | apply ite_safe)
      | split | dsimp only

theorem phyWrite_safe (h : Safe b s) (off i port v) : Safe b (phyWrite off i port v s).2 := by
  unfold phyWrite
  repeat' first
      | (with_reducible first
          | intro _ | assumption | apply accept_safe | apply refused_safe | apply modIface_safe | apply ite_safe)
      | split

theorem evtrigWrite_safe (h : Safe b s) (off i v) : Safe b (evtrigWrite off i v s).2 := by
  unfold evtrigWrite
  repeat' first
      | (with_reducible first
          | intro _ | assumption | apply accept_safe | apply trigCtrlWrite_safe | apply modIfaceRegs_safe
          | apply modTrig_safe | apply trigWidthWrite_safe | apply oneshotWrite_safe | apply trigWrite_safe | apply ite_safe)
      | refine modTsu_safe ?_ _ rfl | split

theorem tapPageWrite_safe (h : Safe b s) (off i v) : Safe b (tapPageWrite off i v s).2 := by
  unfold tapPageWrite
  repeat' first
      | (with_reducible first
          | intro _ | assumption | apply refused_safe | apply accept_safe | apply modIfaceRegs_safe
          | apply tapGlobalWrite_safe | apply ite_safe)
      | refine modTsu_safe ?_ _ rfl | split

theorem syncWrite_safe (h : Safe b s) (off i v) : Safe b (syncWrite off i v s).2 := by
  unfold syncWrite
  repeat' first
      | (with_reducible first
          | intro _ | assumption | apply accept_safe | apply modIfaceRegs_safe | apply soCfgWrite_safe
          | apply soValWrite_safe | apply soGenWrite_safe | apply waitArmWrite_safe | apply modWait_safe
          | apply winStateWrite_safe | apply modSync_safe)
      | split

theorem detPageWrite_safe (h : Safe b s) (off i v) : Safe b (detPageWrite off i v s).2 := by
  unfold detPageWrite
  repeat' first
      | (with_reducible first
          | intro _ | assumption | apply accept_safe | apply rqPushWrite_safe | apply rqStatusWrite_safe
          | apply detWrite_safe | apply ite_safe)
      | refine modTsu_safe ?_ _ rfl | split

theorem pageWrite_safe (h : Safe b s) (i g off v) : Safe b (pageWrite i g off v s).2 := by
  unfold pageWrite
  repeat' first
      | (with_reducible first
          | intro _ | assumption | apply modIfaceRegs_safe | apply accept_safe | apply hallEpochWrite_safe | apply ladle_safe
          | apply audit_safe | apply ltCfgWrite_safe | apply hubAddrWrite_safe | apply mgmtWrite_safe | apply modWrite_safe
          | apply fwWrite_safe | apply eoiWrite_safe | apply vernWrite_safe | apply emuWrite_safe | apply servoWrite_safe
          | apply refWrite_safe | apply synchWrite_safe | apply progWrite_safe | apply auditWrite_safe | apply dethWrite_safe
          | apply evhWrite_safe | apply fltWrite_safe | apply txnWrite_safe | apply linkWrite_safe | apply phyWrite_safe
          | apply evtrigWrite_safe | apply tapPageWrite_safe | apply syncWrite_safe | apply detPageWrite_safe
          | apply ite_safe)
      | refine modTsu_safe ?_ _ rfl | split

theorem writeReg_safe (h : Safe b s) (w i g off v) : Safe b (writeReg w i g off v s) := by
  unfold writeReg
  repeat' with_reducible first
      | intro _ | assumption | apply answer_safe | apply hdrWrite_safe | apply soOpWrite_safe | apply tapWrite_safe
      | apply pageWrite_safe | apply ite_safe

theorem writeAt_safe (h : Safe b s) (w i a v) : Safe b (writeAt w i a v s) := by
  unfold writeAt
  repeat' first
      | (with_reducible first
          | intro _ | assumption | apply answer_safe | apply refuse_safe | apply writeReg_safe | apply xbufWrite_safe
          | apply msixWrite_safe | apply ite_safe)
      | split

end Sys2Proof.Machine
end

section
/-! What the operations of Machine/Late.lean keep. -/

namespace Sys2Proof.Machine

variable {b s : State}

theorem hostAccess_safe (h : Safe b s) (a) : Safe b (hostAccess s a) := by
  unfold hostAccess
  split
  · exact writeAt_safe h _ _ _ _
  · exact modTsu_of_safe (readAt_safe h _ _) _ (fun ⟨hhp, hrest⟩ => ⟨by simpa using hhp, hrest⟩) rfl

theorem tsuWord_runs (h : Safe b s) (op) : Runs b (tsuWord op s) := by
  unfold tsuWord
  split
  all_goals first
    | exact execNop_runs h _ | exact execJmp_runs h _ | exact execBr_runs h _ | exact execLoop_runs h _
    | exact execLdi_runs h _ | exact execLdhi_runs h _ | exact execAlu_runs h _ | exact execLdstep_runs h _
    | exact execLdrank_runs h _ | exact execWhisk_runs h _ | exact execLdtime_runs h _
    | exact execLdlaunch_runs h _ | exact execLdevt_runs h _ | exact execLdso_runs h _
    | exact execLdbuf_runs h _ | exact execStbuf_runs h _ | exact execArrive_runs h _
    | exact execSoadd_runs h _ | exact execSoset_runs h _ | exact execSoclr_runs h _
    | exact execOpenwin_runs h _ | exact execFence_runs h _ | exact execSend_runs h _ | exact execWait_runs h _
    | exact execWaitevt_runs h _ | exact execWaittick_runs h _ | exact execTrig_runs h _
    | exact execStepend_runs h _ | exact execContrib_runs h _ | exact execResult_runs h _
    | exact execResultx_runs h _ | exact execDigest_runs h _ | exact runs_next h

/-- What is safe does not depend on which commands wait. -/
theorem Safe.pend (h : Safe b s) (p : List Instr) : Safe { b with pending := p } { s with pending := p } :=
  ⟨rfl, h.once, h.time, h.bounds, h.causes⟩

theorem lateWord_safe (h : Safe b s) (op) : Safe b (lateWord s op) := by
  obtain ⟨t, e, ht⟩ := (tsuWord_runs (Safe.refl { s with pending := [] }) op).exists_next
  unfold lateWord
  rw [e]
  exact h.trans (ht.pend s.pending)

theorem endCycle_safe (h : Safe b s) : Safe b (endCycle s) := by
  unfold endCycle
  repeat' first
      | (with_reducible first | intro _ | assumption | apply hostAccess_safe | apply lateWord_safe | apply foldl_safe)
      | refine modTsu_safe ?_ _ rfl

end Sys2Proof.Machine
end

section
/-! What the operations of Machine/Sched.lean keep. -/

namespace Sys2Proof.Machine

variable {b s : State}

theorem relaunchTaps_safe (h : Safe b s) (target) : Safe b (relaunchTaps s target) := by
  unfold relaunchTaps
  repeat' with_reducible first | intro _ | assumption | apply launchTap_safe | apply foldl_safe | apply ite_safe

theorem resolveLaunch_safe (h : Safe b s) : Safe b (resolveLaunch s).2 := by
  unfold resolveLaunch
  repeat' first
      | (with_reducible first | intro _ | assumption | apply launchMiss_safe | apply relaunchTaps_safe | apply ite_safe)
      | refine modTsu_safe ?_ _ rfl | split

theorem resolveSlot_safe (h : Safe b s) (k) : Safe b (resolveSlot s k) := by
  unfold resolveSlot
  repeat' first
      | (with_reducible first | intro _ | assumption | apply completeSlot_safe | apply modSync_safe | apply ite_safe)
      | split

theorem resolveTrig_safe (h : Safe b s) (n) : Safe b (resolveTrig s n) := by
  unfold resolveTrig
  repeat' with_reducible first | intro _ | assumption | apply modTrig_safe

theorem resolveCommit_safe (h : Safe b s) (p missed g) : Safe b (resolveCommit p missed s g) := by
  unfold resolveCommit
  repeat' with_reducible first | intro _ | assumption | apply noCommit_safe | apply ite_safe

theorem resolveWaittick_safe (h : Safe b s) : Safe b (resolveWaittick s) := by
  unfold resolveWaittick
  repeat' first | (with_reducible first | intro _ | assumption | apply completeWait_safe | apply ite_safe) | split

theorem resolveHome_safe (h : Safe b s) (j) : Safe b (resolveHome s j) := by
  unfold resolveHome
  repeat' first
      | (with_reducible first | intro _ | assumption | apply reportTake_safe | apply modJob_safe | apply ite_safe)
      | split

theorem resolveKept_safe (h : Safe b s) (p) : Safe b (resolveKept s p) := by
  unfold resolveKept
  repeat' first
      | (with_reducible first
          | intro _ | assumption | apply resolveLaunch_safe | apply resolveTrig_safe | apply resolveSlot_safe
          | apply resolveWaittick_safe | apply resolveCommit_safe | apply resolveHome_safe | apply foldl_safe
          | apply ite_safe)
      | refine modTb_safe ?_ _ _ rfl | split

theorem fireLaunch_safe (h : Safe b s) : Safe b (fireLaunch s) := by
  unfold fireLaunch
  repeat' first | (with_reducible first | intro _ | assumption | apply launchStep_safe) | split

theorem fireHome_safe (h : Safe b s) (j) : Safe b (fireHome s j) := by
  unfold fireHome
  repeat' first | (with_reducible first | intro _ | assumption | apply homeLaunch_safe) | split

theorem fireCommit_safe (h : Safe b s) (p g) : Safe b (fireCommit p s g) := by
  unfold fireCommit
  repeat' with_reducible first | intro _ | assumption | apply applyStaged_safe | apply ite_safe

theorem fireWaittick_safe (h : Safe b s) : Safe b (fireWaittick s) := by
  unfold fireWaittick
  repeat' first | (with_reducible first | intro _ | assumption | apply completeWait_safe | apply ite_safe) | split

end Sys2Proof.Machine
end

section
/-! What the operations of Machine/Access.lean keep. -/

namespace Sys2Proof.Machine

variable {b s : State}

theorem pcieReads_safe (h : Safe b s) (n a) : Safe b (pcieReads n a s).2 := by
  induction n generalizing s a with
  | zero => exact h
  | succ n ih => exact ih (readAt_safe h _ _) _

theorem pcieWrites_safe (h : Safe b s) (n a bs) : Safe b (pcieWrites n a bs s) := by
  induction n generalizing s a bs with
  | zero => exact h
  | succ n ih => exact ih (writeAt_safe h _ _ _ _) _ _

theorem bar0Read_safe (h : Safe b s) (a n) : Safe b (bar0Read a n s) := by
  unfold bar0Read
  repeat' with_reducible first
      | intro _ | assumption | apply emit_safe | apply readAt_safe | apply pcieReads_safe | apply refuse_safe
      | apply ite_safe

theorem bar0Write_safe (h : Safe b s) (a bs) : Safe b (bar0Write a bs s) := by
  unfold bar0Write
  repeat' with_reducible first | intro _ | assumption | apply pcieWrites_safe | apply refuse_safe | apply ite_safe

theorem mgDrop_safe (h : Safe b s) : Safe b (mgDrop s) := by
  unfold mgDrop
  repeat' first | (with_reducible first | intro _ | assumption) | refine modHub_safe ?_ _ rfl

theorem queryAnswers_safe (h : Safe b s) (os) : Safe b (queryAnswers os s).2 := by
  induction os generalizing s with
  | nil => exact h
  | cons o os ih =>
    simp only [queryAnswers]
    split
    · exact ih h
    · exact ih (readAt_safe h _ _)

theorem spillLost_safe (h : Safe b s) (j c second e) : Safe b (spillLost j c second s e) := by
  unfold spillLost
  repeat' with_reducible first
      | intro _ | assumption | apply modCtx_safe | apply unresolved_safe | apply fresh_safe | apply ite_safe

end Sys2Proof.Machine
end

section
/-! What the operations of Machine/Exec0.lean keep. -/

namespace Sys2Proof.Machine

variable {b s : State}

theorem rowWrite_runs (h : Safe b s) {i : Iface} {a : BitVec 24} {v : Word} : Runs b (rowWrite i a v s) :=
  runs_ite (runs_next h) (runs_next (writeAt_safe h _ _ _ _))

theorem soOpRow_runs (h : Safe b s) {op : BitVec 4} {i : Iface} {v : Word} : Runs b (soOpRow op i v s) := by
  unfold soOpRow
  split
  · exact ackWrite_runs h (refused_safe h _ _)
  · exact runs_ite (runs_next h) (runs_next (soOpWrite_safe h _ _ _))

theorem onReport_runs (h : Safe b s) {t : BitVec 7} {r : BitVec 64} {code : BitVec 4}
    {act : State → Host.Outcome State Fault Refusal} (ha : Runs b (act s)) : Runs b (onReport s t r code act) :=
  runs_ite (runs_next (modTap_safe h _ _)) (runs_ite ha (runs_next h))

theorem onFrame_runs (h : Safe b s) {t : BitVec 7} {f : BitVec 128} {ty : BitVec 4}
    {act : State → Host.Outcome State Fault Refusal} (ha : Runs b (act s)) : Runs b (onFrame s t f ty act) :=
  runs_ite (runs_next h) (runs_ite (runs_next (modTap_safe h _ _)) (runs_ite ha (runs_next h)))

theorem execRegisterWrite_runs (h : Safe b s) (i a data) : Runs b (execRegisterWrite i a data s) := by
  unfold execRegisterWrite
  repeat' with_reducible first | intro _ | assumption | apply rowWrite_runs

theorem execRegisterReadClear_runs (h : Safe b s) (i a) : Runs b (execRegisterReadClear i a s) := by
  unfold execRegisterReadClear
  repeat' with_reducible first | intro _ | assumption | apply readAt_safe | apply emit_safe | apply runs_next | apply runs_ite

theorem execPortRoleWrite_runs (h : Safe b s) (i port data) : Runs b (execPortRoleWrite i port data s) := by
  unfold execPortRoleWrite
  repeat' with_reducible first | intro _ | assumption | apply ackWrite_runs | apply onLinkPage_safe | apply portRoleWrite_safe

theorem execEdgeTranslate_runs (h : Safe b s) (l sender dsn m) : Runs b (execEdgeTranslate l sender dsn m s) := by
  unfold execEdgeTranslate
  repeat' with_reducible first | intro _ | assumption | apply onUp_safe | apply signalRoute_safe | apply runs_next

theorem tbSet_regs (t : Timebase) (q : BitVec 112) : (tbSet t q).regs = t.regs := rfl

/-- A cycle of the time base leaves its registers (R59). -/
theorem tbCycle_regs (t : Timebase) : (tbCycle t).regs = t.regs := by
  rw [tbCycle]
  dsimp only
  exact tbSet_regs t _

theorem modTb_tbCycle_safe (h : Safe b s) (p) : Safe b (modTb s p tbCycle) := by
  refine modTb_of_safe h p tbCycle fun ⟨hvalid, hholdover, hstate⟩ => ?_
  have he := tbCycle_regs (s.sh p).tb
  exact ⟨fun e => by rw [he]; exact hvalid (he ▸ e), fun e => by rw [he]; exact hholdover (he ▸ e), hstate⟩

theorem countStalls_safe (h : Safe b s) (p) : Safe b (countStalls s p) := modSh_safe h _ _ rfl

theorem execIslandCycle_runs (h : Safe b s) (p) : Runs b (execIslandCycle p s) := by
  have hcycle : ∀ {s}, Safe b s → Safe b (resolveKept (countStalls (startConvs (modTb s p tbCycle) p) p) p) :=
    fun hs => resolveKept_safe (countStalls_safe (startConvs_safe (modTb_tbCycle_safe hs p) p) p) p
  unfold execIslandCycle
  refine runs_ite (runs_next h) (runs_next ?_)
  cases p
  · exact msixScan_safe (audLevel_safe (handoverReached_safe (ite_safe (rotAdvance_safe (hcycle h)) (hcycle h))))
  · exact placeStrobe_safe (hcycle (endCycle_safe h)) _

theorem execScheduledActionFire_runs (h : Safe b s) (p) : Runs b (execScheduledActionFire p s) := by
  unfold execScheduledActionFire
  repeat' first
      | (with_reducible first
          | intro _ | assumption | apply resolveKept_safe | apply timedComplete_safe | apply fireLaunch_safe
          | apply pulseStart_safe | apply fireWaittick_safe | apply fireCommit_safe | apply handoverReached_safe
          | apply fireHome_safe | apply runs_next | apply foldl_safe | apply runs_ite | apply ite_safe)
      | split

theorem execIslandLock_runs (h : Safe b s) (p) : Runs b (execIslandLock p s) := by
  unfold execIslandLock
  repeat' first
      | (with_reducible first | intro _ | assumption | apply tapStrobe_safe | apply runs_next)
      | refine modTbRegs_safe ?_ _ _ rfl | split

theorem execIslandLockLoss_runs (h : Safe b s) (p) : Runs b (execIslandLockLoss p s) := by
  unfold execIslandLockLoss
  repeat' first
      | (with_reducible first
          | intro _ | assumption | apply failSets_safe | apply raisePlain_safe | apply loseTime_safe | apply fresh_safe
          | apply runs_next)
      | refine modTbRegs_safe ?_ _ _ rfl | refine modTb_safe ?_ _ _ rfl

theorem execHallEpochWrite_runs (h : Safe b s) (i data) : Runs b (execHallEpochWrite i data s) := by
  unfold execHallEpochWrite
  repeat' with_reducible first | intro _ | assumption | apply ackWrite_runs | apply hallEpochWrite_safe

theorem execEpochRevalid_runs (h : Safe b s) : Runs b (execEpochRevalid s) := by
  have hdone : Safe b (modTb s .hub fun t => { t with revalid := false }) := modTb_safe h _ _ rfl
  unfold execEpochRevalid
  refine runs_ite (runs_next ?_) (runs_next h)
  generalize modTb s .hub _ = u at hdone ⊢
  split
  case isFalse => exact hdone
  next hstate =>
    refine becomeValid_of_set _ _ (modTb_of_safe hdone _ _ fun _ => ?_)
    rcases (Bool.or_eq_true _ _).mp hstate with h2 | h3
    · exact .locked (beq_iff_eq.1 h2) rfl (by rw [beq_iff_eq.1 h2]; rfl)
    · exact .holdover (beq_iff_eq.1 h3) rfl h3

theorem execNowLoRead_runs (h : Safe b s) (i) : Runs b (execNowLoRead i s) := by
  unfold execNowLoRead
  repeat' with_reducible first | intro _ | assumption | apply ackRead_runs | apply nowLoRead_safe

theorem execStampEdge_runs (h : Safe b s) (k tag) : Runs b (execStampEdge k tag s) := by
  unfold execStampEdge
  repeat' first
      | (with_reducible first
          | intro _ | assumption | apply offerEdge_safe | apply noteSent_safe | apply prescale_safe | apply runs_next
          | apply runs_ite | apply ite_safe)
      | split

theorem execConversionDone_runs (h : Safe b s) (k second n) : Runs b (execConversionDone k second n s) := by
  unfold execConversionDone
  repeat' first
      | (with_reducible first
          | intro _ | assumption | apply modPoint_safe | apply deliverStamp_safe | apply runs_next | apply runs_ite
          | apply ite_safe)
      | split | dsimp only

theorem execLockGateEnd_runs (h : Safe b s) (p c fast slow) : Runs b (execLockGateEnd p c fast slow s) := by
  unfold execLockGateEnd
  repeat' with_reducible first
      | intro _ | assumption | apply clusterFault_safe | apply modCluster_safe | apply runs_next | apply runs_ite

theorem execCalNow_runs (h : Safe b s) (i data) : Runs b (execCalNow i data s) := by
  unfold execCalNow
  repeat' with_reducible first | intro _ | assumption | apply ackWrite_runs | apply vernCtrlWrite_safe

theorem execClusterCalPeriod_runs (h : Safe b s) (p) : Runs b (execClusterCalPeriod p s) := by
  unfold execClusterCalPeriod
  repeat' with_reducible first | intro _ | assumption | apply calibrateAll_safe | apply runs_next | apply runs_ite

theorem execClusterCalDone_runs (h : Safe b s) (p c results) : Runs b (execClusterCalDone p c results s) := by
  unfold execClusterCalDone
  repeat' with_reducible first
      | intro _ | assumption | apply modCluster_safe | apply modPoint_safe | apply setReady_safe | apply clusterFault_safe
      | apply runs_next | apply foldl_safe | apply runs_ite | apply ite_safe

theorem execEmuStart_runs (h : Safe b s) (i e data) : Runs b (execEmuStart i e data s) := by
  unfold execEmuStart
  repeat' with_reducible first | intro _ | assumption | apply ackWrite_runs | apply onEmu_safe | apply emuCtrlWrite_safe

theorem execEmuAbort_runs (h : Safe b s) (i e data) : Runs b (execEmuAbort i e data s) := by
  unfold execEmuAbort
  repeat' with_reducible first | intro _ | assumption | apply ackWrite_runs | apply onEmu_safe | apply emuCtrlWrite_safe

theorem execEmuIntervalTimeout_runs (h : Safe b s) (p e) : Runs b (execEmuIntervalTimeout p e s) := by
  unfold execEmuIntervalTimeout
  repeat' with_reducible first | intro _ | assumption | apply modEmu_safe | apply runs_next | apply runs_ite

theorem execEmuSetDone_runs (h : Safe b s) (p e) : Runs b (execEmuSetDone p e s) := by
  unfold execEmuSetDone
  repeat' first
      | (with_reducible first
          | intro _ | assumption | apply modEmu_safe | apply beginSet_safe | apply runs_next | apply runs_ite
          | apply ite_safe)
      | refine setCause_safe ?_ _ _ _ (by simp [causesOf])

theorem execEmuMeanRead_runs (h : Safe b s) (i e) : Runs b (execEmuMeanRead i e s) := by
  unfold execEmuMeanRead
  repeat' with_reducible first | intro _ | assumption | apply ackRead_runs | apply emuMeanRead_safe

theorem execEmuLastTickRead_runs (h : Safe b s) (i e) : Runs b (execEmuLastTickRead i e s) := by
  unfold execEmuLastTickRead
  repeat' with_reducible first | intro _ | assumption | apply ackRead_runs | apply emuLastTickRead_safe

theorem execSyncOrigin_runs (h : Safe b s) (vote) : Runs b (execSyncOrigin vote s) := by
  have hvote := timePathVote_safe h vote
  unfold execSyncOrigin
  refine runs_ite ?_ (runs_next h)
  dsimp only
  generalize timePathVote s vote = u at hvote ⊢
  refine runs_ite (runs_next hvote) (runs_next (forwardSync_safe ?_ _ _))
  exact modHub_sh_safe hvote _ (fun hb => hb) (.of_eq rfl rfl rfl) (fun ht => ht) rfl

theorem execSyncReceive_runs (h : Safe b s) (l m) : Runs b (execSyncReceive l m s) := by
  unfold execSyncReceive
  repeat' with_reducible first
      | intro _ | assumption | apply onTime_safe | apply dropOffset_safe | apply modLink_safe | apply forgetSync_safe
      | apply forwardSync_safe | apply runs_next | apply runs_ite | apply ite_safe

theorem execSyncFuReceive_runs (h : Safe b s) (l m) : Runs b (execSyncFuReceive l m s) := by
  unfold execSyncFuReceive
  repeat' with_reducible first
      | intro _ | assumption | apply onTime_safe | apply dropOffset_safe | apply forgetSync_safe | apply modLink_safe
      | apply takeSyncFu_safe | apply runs_next | apply runs_ite | apply ite_safe

theorem execSyncFuForward_runs (h : Safe b s) (l seq vote) : Runs b (execSyncFuForward l seq vote s) := by
  unfold execSyncFuForward
  repeat' first
      | (with_reducible first
          | intro _ | assumption | apply modLink_safe | apply timePathVote_safe | apply dropSample_safe | apply sendLink_safe
          | apply runs_next | apply runs_ite | apply ite_safe)
      | split | dsimp only

theorem execFuTimeout_runs (h : Safe b s) (l seq) : Runs b (execFuTimeout l seq s) := by
  unfold execFuTimeout
  repeat' with_reducible first
      | intro _ | assumption | apply dropOffset_safe | apply forgetSync_safe | apply runs_next | apply runs_ite

theorem execDreqSend_runs (h : Safe b s) (l) : Runs b (execDreqSend l s) := by
  unfold execDreqSend
  repeat' with_reducible first
      | intro _ | assumption | apply modLink_safe | apply sendLink_safe | apply runs_next | apply runs_ite

theorem execDreqReceive_runs (h : Safe b s) (l m) : Runs b (execDreqReceive l m s) := by
  unfold execDreqReceive
  repeat' with_reducible first
      | intro _ | assumption | apply onTime_safe | apply sendLink_safe | apply modLink_safe | apply runs_next
      | apply runs_ite | apply ite_safe

theorem execDrespFuSend_runs (h : Safe b s) (l dseq) : Runs b (execDrespFuSend l dseq s) := by
  unfold execDrespFuSend
  repeat' first
      | (with_reducible first
          | intro _ | assumption | apply modLink_safe | apply sendLink_safe | apply runs_next | apply runs_ite
          | apply ite_safe)
      | split | dsimp only

theorem execDrespReceive_runs (h : Safe b s) (l m) : Runs b (execDrespReceive l m s) := by
  unfold execDrespReceive
  repeat' with_reducible first
      | intro _ | assumption | apply onTime_safe | apply modLink_safe | apply runs_next | apply runs_ite | apply ite_safe

theorem execDrespFuReceive_runs (h : Safe b s) (l m) : Runs b (execDrespFuReceive l m s) := by
  unfold execDrespFuReceive
  repeat' with_reducible first
      | intro _ | assumption | apply onTime_safe | apply modLink_safe | apply takeDrespFu_safe | apply runs_next
      | apply runs_ite | apply ite_safe

theorem execDelayRestart_runs (h : Safe b s) (l) : Runs b (execDelayRestart l s) := by
  unfold execDelayRestart
  repeat' with_reducible first | intro _ | assumption | apply modLink_safe | apply runs_next | apply runs_ite

theorem execAnnounceSend_runs (h : Safe b s) : Runs b (execAnnounceSend s) := by
  unfold execAnnounceSend
  repeat' with_reducible first
      | intro _ | assumption | apply announceNow_safe | apply runs_next | apply runs_ite | apply ite_safe

theorem execAnnounceReceive_runs (h : Safe b s) (l m) : Runs b (execAnnounceReceive l m s) := by
  unfold execAnnounceReceive
  repeat' first
      | (with_reducible first
          | intro _ | assumption | apply malformedFlit_safe | apply dropSample_safe | apply masterHears_safe
          | apply takeAnnounce_safe | apply runs_next | apply runs_ite | apply ite_safe)
      | refine modHub_safe ?_ _ rfl | split

theorem execLaneCalPeriod_runs (h : Safe b s) (p port) : Runs b (execLaneCalPeriod p port s) := by
  unfold execLaneCalPeriod
  repeat' first
      | (with_reducible first
          | intro _ | assumption | apply calNext_safe | apply calibrateLane_safe | apply modPage_safe | apply runs_next)
      | split | dsimp only

theorem execPtCalNow_runs (h : Safe b s) (i port data) : Runs b (execPtCalNow i port data s) := by
  unfold execPtCalNow
  repeat' with_reducible first | intro _ | assumption | apply ackWrite_runs | apply onLinkPage_safe | apply ptCtrlWrite_safe

theorem execLaneCalDone_runs (h : Safe b s) (p port lane txCal rxCal txDev rxDev) :
    Runs b (execLaneCalDone p port lane txCal rxCal txDev rxDev s) := by
  unfold execLaneCalDone
  repeat' first
      | (with_reducible first
          | intro _ | assumption | apply laneShadow_safe | apply modPage_safe | apply modLaneCal_safe
          | apply modLinkRegs_safe | apply timeFault_safe | apply calNext_safe | apply leaveCal_safe | apply runs_next
          | apply runs_ite | apply ite_safe)
      | refine setCause_safe ?_ _ _ _ (by simp [causesOf]) | split

theorem execPtProbeWrite_runs (h : Safe b s) (i port data) : Runs b (execPtProbeWrite i port data s) := by
  unfold execPtProbeWrite
  repeat' with_reducible first | intro _ | assumption | apply ackWrite_runs | apply onLinkPage_safe | apply ptProbeWrite_safe

theorem execProbeReceive_runs (h : Safe b s) (l m) : Runs b (execProbeReceive l m s) := by
  unfold execProbeReceive
  repeat' with_reducible first
      | intro _ | assumption | apply onTime_safe | apply modLink_safe | apply takeProbe_safe | apply runs_next
      | apply runs_ite | apply ite_safe

theorem execProbeEchoReceive_runs (h : Safe b s) (l m) : Runs b (execProbeEchoReceive l m s) := by
  unfold execProbeEchoReceive
  repeat' first
      | (with_reducible first
          | intro _ | assumption | apply onTime_safe | apply tsqFlush_safe | apply modPage_safe | apply countPast_safe
          | apply runs_next)
      | split

theorem execPtTsqHeadRead_runs (h : Safe b s) (i port) : Runs b (execPtTsqHeadRead i port s) := by
  unfold execPtTsqHeadRead
  repeat' with_reducible first | intro _ | assumption | apply ackRead_runs | apply ptTsqHeadRead_safe

theorem execHoldoverEnter_runs (h : Safe b s) (p) : Runs b (execHoldoverEnter p s) := by
  unfold execHoldoverEnter
  repeat' first
      | (with_reducible first
          | intro _ | assumption | apply leadMove_safe | apply enterHoldover_safe | apply runs_next | apply runs_ite
          | apply ite_safe)
      | split

theorem execHoldLimitExpire_runs (h : Safe b s) (p) : Runs b (execHoldLimitExpire p s) := by
  unfold execHoldLimitExpire
  repeat' with_reducible first
      | intro _ | assumption | apply timeFault_safe | apply enterFree_safe | apply runs_next | apply runs_ite

theorem execOffsetGateRun_runs (h : Safe b s) (p) : Runs b (execOffsetGateRun p s) := by
  unfold execOffsetGateRun
  repeat' first
      | (with_reducible first
          | intro _ | assumption | apply modLink_safe | apply holdReturn_safe | apply timeFault_safe | apply runs_next
          | apply runs_ite | apply ite_safe)
      | split

theorem execServoModeAuto_runs (h : Safe b s) (i data) : Runs b (execServoModeAuto i data s) := by
  unfold execServoModeAuto
  repeat' with_reducible first | intro _ | assumption | apply ackWrite_runs | apply servoCtrlWrite_safe

theorem execServoModeFreeze_runs (h : Safe b s) (i data) : Runs b (execServoModeFreeze i data s) := by
  unfold execServoModeFreeze
  repeat' with_reducible first | intro _ | assumption | apply ackWrite_runs | apply servoCtrlWrite_safe

theorem execServoModeManual_runs (h : Safe b s) (i data) : Runs b (execServoModeManual i data s) := by
  unfold execServoModeManual
  repeat' with_reducible first | intro _ | assumption | apply ackWrite_runs | apply servoCtrlWrite_safe

theorem execReacquire_runs (h : Safe b s) (i data) : Runs b (execReacquire i data s) := by
  unfold execReacquire
  repeat' with_reducible first | intro _ | assumption | apply ackWrite_runs | apply servoCtrlWrite_safe

theorem execCandidateAnnounceSend_runs (h : Safe b s) (refOk) : Runs b (execCandidateAnnounceSend refOk s) := by
  unfold execCandidateAnnounceSend
  repeat' first
      | (with_reducible first
          | intro _ | assumption | apply fresh_safe | apply sendAll_safe | apply runs_next | apply runs_ite | apply ite_safe)
      | refine modHub_safe ?_ _ rfl

theorem execMasterElect_runs (h : Safe b s) : Runs b (execMasterElect s) := by
  unfold execMasterElect
  repeat' with_reducible first
      | intro _ | assumption | apply enterLocked_safe | apply becomeMaster_safe | apply initTime_safe
      | apply announceNow_safe | apply runs_next | apply runs_ite

theorem execMasterHandover_runs (h : Safe b s) (i data) : Runs b (execMasterHandover i data s) := by
  unfold execMasterHandover
  repeat' with_reducible first | intro _ | assumption | apply ackWrite_runs | apply masterCfgWrite_safe

theorem execHandoverAuto_runs (h : Safe b s) : Runs b (execHandoverAuto s) := by
  unfold execHandoverAuto
  repeat' first
      | (with_reducible first
          | intro _ | assumption | apply planHandover_safe | apply runs_next | apply runs_ite | apply ite_safe)
      | split

theorem execHandoverTickReached_runs (h : Safe b s) : Runs b (execHandoverTickReached s) := by
  unfold execHandoverTickReached
  repeat' with_reducible first | intro _ | assumption | apply handoverReached_safe | apply runs_next

theorem execMasterLossDetect_runs (h : Safe b s) : Runs b (execMasterLossDetect s) := by
  unfold execMasterLossDetect
  repeat' first
      | (with_reducible first | intro _ | assumption | apply runs_next | apply runs_ite | apply ite_safe)
      | refine modHub_safe ?_ _ rfl

theorem execMasterTakeover_runs (h : Safe b s) : Runs b (execMasterTakeover s) := by
  unfold execMasterTakeover
  repeat' with_reducible first
      | intro _ | assumption | apply enterLocked_safe | apply becomeMaster_safe | apply timeFault_safe
      | apply announceNow_safe | apply runs_next | apply runs_ite

theorem execPpsEdge_runs (h : Safe b s) (y uncal vote) : Runs b (execPpsEdge y uncal vote s) := by
  unfold execPpsEdge
  repeat' first
      | (with_reducible first
          | intro _ | assumption | apply loadTod_safe | apply refSample_safe | apply runs_next | apply runs_ite
          | apply ite_safe)
      | refine modHub_safe ?_ _ rfl

theorem execF10mSample_runs (h : Safe b s) (phase vote) : Runs b (execF10mSample phase vote s) := by
  unfold execF10mSample
  repeat' first
      | (with_reducible first
          | intro _ | assumption | apply refSample_safe | apply runs_next | apply runs_ite | apply ite_safe)
      | refine modHub_safe ?_ _ rfl | split | dsimp only

theorem execRefTodWrite_runs (h : Safe b s) (i data) : Runs b (execRefTodWrite i data s) := by
  unfold execRefTodWrite
  repeat' with_reducible first | intro _ | assumption | apply ackWrite_runs | apply refTodWrite_safe

theorem execRefAlign_runs (h : Safe b s) (i data) : Runs b (execRefAlign i data s) := by
  unfold execRefAlign
  repeat' with_reducible first | intro _ | assumption | apply ackWrite_runs | apply refCtrlWrite_safe

theorem execRefLoss_runs (h : Safe b s) : Runs b (execRefLoss s) := by
  unfold execRefLoss
  dsimp only
  refine runs_ite ?_ (runs_next h)
  generalize hs1 : modHub s _ = s1
  have hlost : Safe b s1 := hs1 ▸ modHub_safe h _ rfl
  refine runs_ite ?_ (runs_next hlost)
  generalize hs2 : setCause (raisePlain (setClass _ 1) .hub 0x0005 5 1 []) .hub .ref 0 = s2
  have hclass : Safe b s2 := hs2 ▸ setCause_safe (raisePlain_safe (setClass_safe (modHub_safe hlost _ rfl) _) _ _ _ _ _)
      _ _ _ (by simp [causesOf])
  refine runs_ite ?_ (runs_next hclass)
  refine runs_next (setCause_safe ?_ _ _ _ (by simp [causesOf]))
  unfold modTbRegs modTb modServo
  refine modSh_modSh_safe (setRate_safe hclass _ _) .hub _ _ ?_ rfl
  rintro ⟨hvalid, hholdover, -⟩
  exact ⟨fun e => .inr ⟨rfl, e⟩, fun e => e, (by decide : (3#3).toNat ≤ 4)⟩

theorem execRefHoldExpire_runs (h : Safe b s) : Runs b (execRefHoldExpire s) := by
  unfold execRefHoldExpire
  repeat' with_reducible first | intro _ | assumption | apply setClass_safe | apply runs_next | apply runs_ite | apply ite_safe

theorem execReferenceOutputEdge_runs (h : Safe b s) (pps rising) : Runs b (execReferenceOutputEdge pps rising s) := by
  unfold execReferenceOutputEdge
  repeat' with_reducible first
      | intro _ | assumption | apply driveOut_safe | apply fresh_safe | apply runs_next | apply runs_ite

theorem execPtpAnnounceReceive_runs (h : Safe b s) (x rank utcOffset utcValid leap61 leap59) :
    Runs b (execPtpAnnounceReceive x rank utcOffset utcValid leap61 leap59 s) := by
  unfold execPtpAnnounceReceive
  repeat' first
      | (with_reducible first
          | intro _ | assumption | apply ptpExpire_safe | apply ptpDrop_safe | apply runs_next | apply runs_ite
          | apply ite_safe)
      | refine modHub_safe ?_ _ rfl

end Sys2Proof.Machine
end

section
/-! What the operations of Machine/Exec1.lean keep. -/

namespace Sys2Proof.Machine

variable {b s : State}

theorem execPtpSyncReceive_runs (h : Safe b s) (x twoStep logInterval t2 uncal) :
    Runs b (execPtpSyncReceive x twoStep logInterval t2 uncal s) := by
  unfold execPtpSyncReceive
  repeat' first
      | (with_reducible first
          | intro _ | assumption | apply ptpExpire_safe | apply ptpDrop_safe | apply runs_next | apply runs_ite
          | apply ite_safe)
      | refine modHub_safe ?_ _ rfl

theorem execPtpFollowUpReceive_runs (h : Safe b s) (x sec ns vote) : Runs b (execPtpFollowUpReceive x sec ns vote s) := by
  unfold execPtpFollowUpReceive
  repeat' first
      | (with_reducible first
          | intro _ | assumption | apply ptpExpire_safe | apply ptpDrop_safe | apply ptpBadStamp_safe | apply refSample_safe
          | apply runs_next | apply runs_ite | apply ite_safe)
      | refine modHub_safe ?_ _ rfl

theorem execPtpDelayReqSend_runs (h : Safe b s) (t3) : Runs b (execPtpDelayReqSend t3 s) := by
  unfold execPtpDelayReqSend
  repeat' first
      | (with_reducible first
          | intro _ | assumption | apply ptpExpire_safe | apply emit_safe | apply runs_next | apply runs_ite | apply ite_safe)
      | refine modHub_safe ?_ _ rfl

theorem execPtpDelayRespReceive_runs (h : Safe b s) (x requester receipt logInterval) :
    Runs b (execPtpDelayRespReceive x requester receipt logInterval s) := by
  unfold execPtpDelayRespReceive
  repeat' first
      | (with_reducible first
          | intro _ | assumption | apply ptpExpire_safe | apply ptpDrop_safe | apply ptpBadStamp_safe | apply runs_next
          | apply runs_ite | apply ite_safe)
      | refine modHub_safe ?_ _ rfl

/-- A TSU whose registers stand at their reset values is within its bounds and consistent. -/
theorem resetTsu_fresh_safe (h : Safe b s) (r : Bool) (c : RootRegs) :
    Safe b { s with tsu := { inReset := r, root := c } } :=
  resetTsu_safe h ⟨Nat.zero_le _, Nat.zero_le _, Nat.zero_le _, Nat.zero_le _, Nat.zero_le _, Nat.zero_le _, rfl⟩
    (.invalid (Nat.zero_le _) rfl rfl) rfl

theorem execTsuReset_runs (h : Safe b s) : Runs b (execTsuReset s) := runs_next (resetTsu_fresh_safe h true {})

theorem execTsuResetRelease_runs (h : Safe b s) (dieType ref156 taps) : Runs b (execTsuResetRelease dieType ref156 taps s) :=
  runs_ite (runs_next (resetTsu_fresh_safe h false _)) (runs_next h)

theorem execHostPortReset_runs (h : Safe b s) : Runs b (execHostPortReset s) :=
  runs_next (modTsu_sh_safe h _ (fun ⟨_, hrest⟩ => ⟨Nat.zero_le _, hrest⟩) (fun ⟨hv, hh, hst⟩ => ⟨hv, hh, hst⟩) rfl)

theorem execHostPortRequest_runs (h : Safe b s) (write addr data tag) :
    Runs b (execHostPortRequest write addr data tag s) := by
  unfold execHostPortRequest
  dsimp only
  split
  case isTrue => exact runs_next h
  next hroom =>
    simp only [Bool.or_eq_true, decide_eq_true_eq, not_or, Nat.not_le] at hroom
    have hput : ∀ {u : State}, Safe b u → u.tsu.hp = s.tsu.hp → ∀ done,
        Safe b (modTsu u fun t => { t with
          hpNext := t.hpNext + 1, hp := t.hp ++ [{ id := t.hpNext, tag := tag, write := write, done := done }] }) :=
      fun hu hp done => by
        refine modTsu_of_safe hu _ (fun ⟨_, hrest⟩ => ⟨?_, hrest⟩) rfl
        simp only [hp, List.length_append, List.length_singleton]
        exact hroom.2
    exact runs_ite (runs_next (hput (refuse_safe h .tsu .root) rfl _))
      (runs_ite (runs_next (modTsu_safe (hput h rfl none) _ rfl)) (runs_next (hostAccess_safe (hput h rfl none) _)))

theorem execHostPortResponse_runs (h : Safe b s) : Runs b (execHostPortResponse s) := by
  unfold execHostPortResponse
  split
  · next e rest hhp =>
    split
    · refine runs_next (emit_safe (modTsu_of_safe h _ (fun ⟨hlen, hrest⟩ => ⟨?_, hrest⟩) rfl) _)
      rw [hhp, List.length_cons] at hlen
      exact Nat.le_of_succ_le hlen
    · exact runs_next h
  · exact runs_next h

/-- Each of the 16 event inputs has its cause (R175). -/
theorem evtrig_named : ∀ n : BitVec 4, (causesOf .evtrig).getLsbD n.toNat = true := by decide

theorem execEventInputEdge_runs (h : Safe b s) (n falling) : Runs b (execEventInputEdge n falling s) := by
  unfold execEventInputEdge
  exact runs_ite (runs_next h) (runs_next (setCause_safe (modTsu_safe h _ rfl) _ _ _ (evtrig_named n)))

theorem execTriggerPulseStart_runs (h : Safe b s) (n) : Runs b (execTriggerPulseStart n s) := by
  unfold execTriggerPulseStart
  repeat' with_reducible first | intro _ | assumption | apply pulseStart_safe | apply runs_next

theorem execTriggerPulseEnd_runs (h : Safe b s) (n) : Runs b (execTriggerPulseEnd n s) := by
  unfold execTriggerPulseEnd
  repeat' with_reducible first | intro _ | assumption | apply emit_safe | apply modTrig_safe | apply runs_next | apply runs_ite

theorem execWcIssuedBeat_runs (h : Safe b s) (w bytes) : Runs b (execWcIssuedBeat w bytes s) := by
  unfold execWcIssuedBeat
  repeat' first
      | (with_reducible first | intro _ | assumption | apply runs_next | apply runs_ite | apply ite_safe)
      | refine modTsu_safe ?_ _ rfl

theorem execWcDoneBeat_runs (h : Safe b s) (w bytes) : Runs b (execWcDoneBeat w bytes s) := by
  unfold execWcDoneBeat
  repeat' first
      | (with_reducible first | intro _ | assumption | apply runs_next | apply runs_ite | apply ite_safe)
      | refine modTsu_safe ?_ _ rfl

theorem execIngressBeat_runs (h : Safe b s) (g bytes) : Runs b (execIngressBeat g bytes s) := by
  unfold execIngressBeat
  repeat' first
      | (with_reducible first | intro _ | assumption | apply runs_next | apply runs_ite | apply ite_safe)
      | refine modTsu_safe ?_ _ rfl

theorem execRootTimeFrameSend_runs (h : Safe b s) : Runs b (execRootTimeFrameSend s) := by
  unfold execRootTimeFrameSend
  repeat' first
      | (with_reducible first
          | intro _ | assumption | apply sendFrame_safe | apply runs_next | apply runs_ite | apply ite_safe)
      | refine modTsu_safe ?_ _ rfl

theorem execTapDllLock_runs (h : Safe b s) (y) : Runs b (execTapDllLock y s) := by
  unfold execTapDllLock
  repeat' with_reducible first | intro _ | assumption | apply modTap_safe | apply runs_next

theorem execStrobeLoss_runs (h : Safe b s) (y) : Runs b (execStrobeLoss y s) := by
  unfold execStrobeLoss
  repeat' with_reducible first | intro _ | assumption | apply modTap_safe | apply runs_next

theorem execTapIdleFrame_runs (h : Safe b s) (y f) : Runs b (execTapIdleFrame y f s) := by
  unfold execTapIdleFrame
  repeat' with_reducible first | intro _ | assumption | apply onFrame_runs | apply runs_next

theorem execTapTimeFrame_runs (h : Safe b s) (y f edges) : Runs b (execTapTimeFrame y f edges s) := by
  unfold execTapTimeFrame
  repeat' with_reducible first
      | intro _ | assumption | apply modTap_safe | apply onFrame_runs | apply runs_next | apply runs_ite

theorem execTapFrameDropRun_runs (h : Safe b s) (y) : Runs b (execTapFrameDropRun y s) := by
  unfold execTapFrameDropRun
  repeat' with_reducible first | intro _ | assumption | apply modTap_safe | apply runs_next

theorem execTapLaunchFrame_runs (h : Safe b s) (y f edges) : Runs b (execTapLaunchFrame y f edges s) := by
  unfold execTapLaunchFrame
  repeat' with_reducible first | intro _ | assumption | apply onFrame_runs | apply modTap_safe | apply runs_next

theorem execTapCancelFrame_runs (h : Safe b s) (y f) : Runs b (execTapCancelFrame y f s) := by
  unfold execTapCancelFrame
  repeat' with_reducible first | intro _ | assumption | apply onFrame_runs | apply modTap_safe | apply runs_next

theorem execTapCfgFrame_runs (h : Safe b s) (y f) : Runs b (execTapCfgFrame y f s) := by
  unfold execTapCfgFrame
  repeat' with_reducible first | intro _ | assumption | apply onFrame_runs | apply modTap_safe | apply runs_next

theorem execTapNbTestFrame_runs (h : Safe b s) (y f) : Runs b (execTapNbTestFrame y f s) := by
  unfold execTapNbTestFrame
  repeat' with_reducible first | intro _ | assumption | apply onFrame_runs | apply modTap_safe | apply runs_next

theorem execRootHeldLaunchSend_runs (h : Safe b s) (y) : Runs b (execRootHeldLaunchSend y s) := by
  unfold execRootHeldLaunchSend
  repeat' first
      | (with_reducible first
          | intro _ | assumption | apply sendLaunch_safe | apply modTap_safe | apply runs_next | apply runs_ite
          | apply ite_safe)
      | split

theorem execLaunchHoldExpire_runs (h : Safe b s) (y) : Runs b (execLaunchHoldExpire y s) := by
  unfold execLaunchHoldExpire
  repeat' first
      | (with_reducible first
          | intro _ | assumption | apply launchUnsent_safe | apply modTap_safe | apply runs_next | apply runs_ite
          | apply ite_safe)
      | split

theorem execTapArm_runs (h : Safe b s) (y time) : Runs b (execTapArm y time s) := by
  unfold execTapArm
  repeat' with_reducible first | intro _ | assumption | apply modTap_safe | apply runs_next

theorem execTapLaunchEdge_runs (h : Safe b s) (y time n) : Runs b (execTapLaunchEdge y time n s) := by
  unfold execTapLaunchEdge
  repeat' with_reducible first | intro _ | assumption | apply emit_safe | apply modTap_safe | apply runs_next | apply runs_ite

theorem execStretchIndicationRise_runs (h : Safe b s) (y) : Runs b (execStretchIndicationRise y s) := by
  unfold execStretchIndicationRise
  repeat' with_reducible first | intro _ | assumption | apply modTap_safe | apply runs_next

theorem execStretchIndicationFall_runs (h : Safe b s) (y time n) : Runs b (execStretchIndicationFall y time n s) := by
  unfold execStretchIndicationFall
  repeat' with_reducible first | intro _ | assumption | apply modTap_safe | apply runs_next

theorem execHoldExtExpire_runs (h : Safe b s) (y) : Runs b (execHoldExtExpire y s) := by
  unfold execHoldExtExpire
  repeat' with_reducible first | intro _ | assumption | apply modTap_safe | apply runs_next

theorem execNeighbourNoticeRise_runs (h : Safe b s) (y input) : Runs b (execNeighbourNoticeRise y input s) := by
  unfold execNeighbourNoticeRise
  repeat' with_reducible first | intro _ | assumption | apply modTap_safe | apply runs_next

theorem execNeighbourNoticeFall_runs (h : Safe b s) (y input) : Runs b (execNeighbourNoticeFall y input s) := by
  unfold execNeighbourNoticeFall
  repeat' with_reducible first | intro _ | assumption | apply modTap_safe | apply runs_next

theorem execPnomMeasured_runs (h : Safe b s) (y cycles) : Runs b (execPnomMeasured y cycles s) := by
  unfold execPnomMeasured
  repeat' with_reducible first | intro _ | assumption | apply modTap_safe | apply runs_next

theorem execNbCheck_runs (h : Safe b s) (i data) : Runs b (execNbCheck i data s) := by
  unfold execNbCheck
  repeat' with_reducible first | intro _ | assumption | apply ackWrite_runs | apply tapGlobalWrite_safe

theorem execNbTestNoticeSeen_runs (h : Safe b s) (y input sender) : Runs b (execNbTestNoticeSeen y input sender s) := by
  unfold execNbTestNoticeSeen
  repeat' with_reducible first | intro _ | assumption | apply modTap_safe | apply runs_next

theorem nbResult_safe (h : Safe b s) (t x) : Safe b (nbResult t s x) := by
  unfold nbResult
  exact ite_safe (modTap_safe h _ _) (tapCause_safe (modTap_safe h _ _) _ _ (by simp [causesOf]))

theorem execNbCheckDone_runs (h : Safe b s) : Runs b (execNbCheckDone s) := by
  unfold execNbCheckDone
  refine runs_ite (runs_next (setCause_safe (foldl_safe (fun _ _ hs => ?_) (modTsu_safe h _ rfl)) _ _ _ (by simp
      [causesOf]))) (runs_next h)
  exact nbResult_safe hs _ _

theorem execFcRequest_runs (h : Safe b s) (y time) : Runs b (execFcRequest y time s) := by
  unfold execFcRequest
  repeat' with_reducible first | intro _ | assumption | apply modTap_safe | apply runs_next

theorem execFcAckDeferEnd_runs (h : Safe b s) (y) : Runs b (execFcAckDeferEnd y s) := by
  unfold execFcAckDeferEnd
  repeat' with_reducible first | intro _ | assumption | apply modTap_safe | apply runs_next

theorem execFcRequestDrop_runs (h : Safe b s) (y) : Runs b (execFcRequestDrop y s) := by
  unfold execFcRequestDrop
  repeat' with_reducible first | intro _ | assumption | apply modTap_safe | apply runs_next

theorem execFcStopOverrun_runs (h : Safe b s) (y) : Runs b (execFcStopOverrun y s) := by
  unfold execFcStopOverrun
  repeat' with_reducible first | intro _ | assumption | apply modTap_safe | apply runs_next

theorem execRegionStop_runs (h : Safe b s) (y) : Runs b (execRegionStop y s) := by
  unfold execRegionStop
  repeat' with_reducible first | intro _ | assumption | apply modTap_safe | apply runs_next

theorem execRegionFreqWindow_runs (h : Safe b s) (y mean stopped) : Runs b (execRegionFreqWindow y mean stopped s) := by
  unfold execRegionFreqWindow
  repeat' with_reducible first | intro _ | assumption | apply modTap_safe | apply runs_next

theorem execTapSilent_runs (h : Safe b s) (y) : Runs b (execTapSilent y s) := by
  unfold execTapSilent
  repeat' first
      | (with_reducible first
          | intro _ | assumption | apply noteLoss_safe | apply modTap_safe | apply releaseTapWrites_safe
          | apply tapLossEvent_safe | apply runs_next)
      | refine tapCause_safe ?_ _ _ (by simp [causesOf])

theorem execReplicaWindowEnd_runs (h : Safe b s) (y count) : Runs b (execReplicaWindowEnd y count s) := by
  unfold execReplicaWindowEnd
  repeat' with_reducible first | intro _ | assumption | apply modTap_safe | apply runs_next

theorem execTapReportSend_runs (h : Safe b s) (y) : Runs b (execTapReportSend y s) := by
  unfold execTapReportSend
  repeat' first | (with_reducible first | intro _ | assumption | apply emit_safe | apply modTap_safe | apply runs_next) | split

theorem execHeartbeatReport_runs (h : Safe b s) (y r) : Runs b (execHeartbeatReport y r s) := by
  unfold execHeartbeatReport
  repeat' with_reducible first
      | intro _ | assumption | apply onReport_runs | apply modTap_safe | apply noteLoss_safe | apply runs_next
      | apply runs_ite | apply ite_safe

theorem execLaunchedReport_runs (h : Safe b s) (y r) : Runs b (execLaunchedReport y r s) := by
  unfold execLaunchedReport
  repeat' first
      | (with_reducible first
          | intro _ | assumption | apply onReport_runs | apply modTap_safe | apply stretchOverrun_safe | apply runs_next
          | apply runs_ite | apply ite_safe)
      | refine tapCause_safe ?_ _ _ (by simp [causesOf])

theorem execSlackReport_runs (h : Safe b s) (y r) : Runs b (execSlackReport y r s) := by
  unfold execSlackReport
  repeat' with_reducible first | intro _ | assumption | apply onReport_runs | apply modTap_safe | apply runs_next

theorem execOverrunReport_runs (h : Safe b s) (y r) : Runs b (execOverrunReport y r s) := by
  unfold execOverrunReport
  repeat' with_reducible first | intro _ | assumption | apply onReport_runs | apply stretchOverrun_safe | apply runs_next

theorem execFcReport_runs (h : Safe b s) (y r) : Runs b (execFcReport y r s) := by
  unfold execFcReport
  repeat' with_reducible first | intro _ | assumption | apply onReport_runs | apply modTap_safe | apply runs_next

theorem execMarginReport_runs (h : Safe b s) (y r) : Runs b (execMarginReport y r s) := by
  unfold execMarginReport
  repeat' first
      | (with_reducible first
          | intro _ | assumption | apply onReport_runs | apply modTap_safe | apply raise_safe | apply runs_next
          | apply runs_ite | apply ite_safe)
      | refine tapCause_safe ?_ _ _ (by simp [causesOf])

theorem execRefLossReport_runs (h : Safe b s) (y r) : Runs b (execRefLossReport y r s) := by
  unfold execRefLossReport
  repeat' first
      | (with_reducible first
          | intro _ | assumption | apply onReport_runs | apply noteLoss_safe | apply modTap_safe | apply tapLossEvent_safe
          | apply runs_next | apply runs_ite | apply ite_safe)
      | refine tapCause_safe ?_ _ _ (by simp [causesOf])

theorem execCfgAckReport_runs (h : Safe b s) (y r) : Runs b (execCfgAckReport y r s) := by
  unfold execCfgAckReport
  repeat' first
      | (with_reducible first
          | intro _ | assumption | apply onReport_runs | apply answer_safe | apply tapParked_safe | apply runs_next
          | apply runs_ite | apply ite_safe)
      | refine modTsu_safe ?_ _ rfl | split

theorem execNbSeenReport_runs (h : Safe b s) (y r) : Runs b (execNbSeenReport y r s) := by
  unfold execNbSeenReport
  repeat' first
      | (with_reducible first
          | intro _ | assumption | apply onReport_runs | apply runs_next | apply runs_ite | apply ite_safe)
      | refine modTsu_safe ?_ _ rfl

theorem execTapRegisterWrite_runs (h : Safe b s) (i reg data) : Runs b (execTapRegisterWrite i reg data s) := by
  unfold execTapRegisterWrite
  repeat' first
      | (with_reducible first
          | intro _ | assumption | apply ackWrite_runs | apply refused_safe | apply tapWrite_safe | apply runs_next
          | apply runs_ite | apply ite_safe)
      | split

theorem execTapLaunchRead_runs (h : Safe b s) (i) : Runs b (execTapLaunchRead i s) := by
  unfold execTapLaunchRead
  repeat' with_reducible first | intro _ | assumption | apply ackRead_runs | apply tapLaunchRead_safe

theorem execSoCfgWrite_runs (h : Safe b s) (i data) : Runs b (execSoCfgWrite i data s) := by
  unfold execSoCfgWrite
  repeat' with_reducible first | intro _ | assumption | apply ackWrite_runs | apply soCfgWrite_safe

theorem execSoOpArrive_runs (h : Safe b s) (i data) : Runs b (execSoOpArrive i data s) := by
  unfold execSoOpArrive
  repeat' with_reducible first | intro _ | assumption | apply soOpRow_runs

theorem execSoOpAdd_runs (h : Safe b s) (i data) : Runs b (execSoOpAdd i data s) := by
  unfold execSoOpAdd
  repeat' with_reducible first | intro _ | assumption | apply soOpRow_runs

theorem execSoOpSet_runs (h : Safe b s) (i data) : Runs b (execSoOpSet i data s) := by
  unfold execSoOpSet
  repeat' with_reducible first | intro _ | assumption | apply soOpRow_runs

theorem execSoOpClear_runs (h : Safe b s) (i data) : Runs b (execSoOpClear i data s) := by
  unfold execSoOpClear
  repeat' with_reducible first | intro _ | assumption | apply soOpRow_runs

theorem execSoOpSend_runs (h : Safe b s) (i data) : Runs b (execSoOpSend i data s) := by
  unfold execSoOpSend
  repeat' with_reducible first | intro _ | assumption | apply soOpRow_runs

theorem execSoOpOpenWindow_runs (h : Safe b s) (i data) : Runs b (execSoOpOpenWindow i data s) := by
  unfold execSoOpOpenWindow
  repeat' with_reducible first | intro _ | assumption | apply soOpRow_runs

theorem execArriveReceive_runs (h : Safe b s) (l sender dsn m) : Runs b (execArriveReceive l sender dsn m s) := by
  unfold execArriveReceive
  repeat' with_reducible first
      | intro _ | assumption | apply onUp_safe | apply nearStep_safe | apply arriveLeaf_safe | apply runs_next

end Sys2Proof.Machine
end

section
/-! What the operations of Machine/Exec2.lean keep. -/

namespace Sys2Proof.Machine

variable {b s : State}

theorem execArrivePartialForward_runs (h : Safe b s) (l sender dsn m) :
    Runs b (execArrivePartialForward l sender dsn m s) := by
  unfold execArrivePartialForward
  repeat' with_reducible first
      | intro _ | assumption | apply onUp_safe | apply nearStep_safe | apply arriveOn_safe | apply runs_next

theorem execBarrierPartialFold_runs (h : Safe b s) (l sender dsn m) : Runs b (execBarrierPartialFold l sender dsn m s) := by
  unfold execBarrierPartialFold
  repeat' with_reducible first
      | intro _ | assumption | apply onUp_safe | apply nearStep_safe | apply arriveOn_safe | apply runs_next

theorem execTwinReleaseReceive_runs (h : Safe b s) (l m) : Runs b (execTwinReleaseReceive l m s) := by
  unfold execTwinReleaseReceive
  repeat' with_reducible first
      | intro _ | assumption | apply releaseOn_safe | apply twinRelease_safe | apply taken_safe | apply runs_next

theorem execReleaseReplicate_runs (h : Safe b s) (l m) : Runs b (execReleaseReplicate l m s) := by
  unfold execReleaseReplicate
  repeat' with_reducible first | intro _ | assumption | apply downOn_safe | apply taken_safe | apply runs_next

theorem execReleaseReceive_runs (h : Safe b s) (l m) : Runs b (execReleaseReceive l m s) := by
  unfold execReleaseReceive
  repeat' with_reducible first
      | intro _ | assumption | apply sendLink_safe | apply countNotValid_safe | apply taken_safe | apply releaseTake_safe
      | apply runs_next | apply runs_ite

theorem execTimedReleaseComplete_runs (h : Safe b s) (slot) : Runs b (execTimedReleaseComplete slot s) := by
  unfold execTimedReleaseComplete
  repeat' with_reducible first | intro _ | assumption | apply timedComplete_safe | apply runs_next

theorem execSendFenceMet_runs (h : Safe b s) : Runs b (execSendFenceMet s) := by
  unfold execSendFenceMet
  repeat' first
      | (with_reducible first
          | intro _ | assumption | apply sendLeaves_safe | apply runs_next | apply runs_ite | apply ite_safe)
      | split

theorem execSendQueueSpace_runs (h : Safe b s) : Runs b (execSendQueueSpace s) := by
  unfold execSendQueueSpace
  split
  case h_2 => exact runs_next h
  next e w rest _ =>
    split
    case isFalse => exact runs_next h
    next hroom =>
      have hqueued : Safe b (modTsu s fun t => { t with sends := t.sends ++ [e], heldSends := rest }) := by
        refine modTsu_of_safe h _ (fun ⟨hhp, _, hrest⟩ => ⟨hhp, ?_, hrest⟩) rfl
        simp
        omega
      dsimp only
      generalize modTsu s _ = u at hqueued ⊢
      cases w
      · refine runs_next (modTsu_of_safe hqueued _ (fun hb => ?_) ?_) <;> split
        · exact hb
        · exact hb
        · rfl
        · rfl
      · exact runs_next (answer_safe hqueued _ _)

theorem execSendTimeout_runs (h : Safe b s) (k) : Runs b (execSendTimeout k s) := by
  unfold execSendTimeout
  split
  · refine runs_ite (runs_next (sendLeaves_safe h _ _)) (runs_next (waitTimeoutEv_safe ?_ _ _ _ _ _ _ _ _ _))
    exact modTsu_of_safe h _ (fun ⟨hhp, hsends, hrest⟩ =>
      ⟨hhp, Nat.le_trans (List.eraseIdx_sublist ..).length_le hsends, hrest⟩) rfl
  · exact runs_next h

theorem tsuJobOk_pend (s : State) (j e) : (tsuJobOk s j e).2.tsu.pend = s.tsu.pend := by
  unfold tsuJobOk
  dsimp only
  split
  · rfl
  · split
    · rfl
    · split <;> rfl

theorem execSignalReceive_runs (h : Safe b s) (l m) : Runs b (execSignalReceive l m s) := by
  unfold execSignalReceive
  split
  case isTrue => exact runs_next (refuse_safe h _ _)
  next hroom =>
    refine runs_ite (runs_next (taken_safe (refuse_safe h _ _) _ _)) ?_
    have hjob := tsuJobOk_safe h m.job m.epoch
    have hpend := tsuJobOk_pend s m.job m.epoch
    dsimp only
    generalize (tsuJobOk s m.job m.epoch).2 = u at hjob hpend ⊢
    refine runs_ite (runs_ite (runs_next (taken_safe (signalEffect_safe hjob _) _ _)) (runs_next (modTsu_of_safe hjob _
        ?_ rfl)))
      (runs_next (taken_safe (setCause_safe (modSync_safe hjob _) _ _ _ (by simp [causesOf])) _ _))
    rintro ⟨hhp, hsends, hrq, hevq, hup, -, hxbuf⟩
    refine ⟨hhp, hsends, hrq, hevq, hup, ?_, hxbuf⟩
    rw [List.length_append, hpend, List.length_singleton]
    omega

theorem execSignalTakeEffect_runs (h : Safe b s) : Runs b (execSignalTakeEffect s) := by
  refine runs_next (foldl_safe (fun _ _ hs => taken_safe (signalEffect_safe hs _) _ _) (modTsu_of_safe h _ ?_ rfl))
  rintro ⟨hhp, hsends, hrq, hevq, hup, hpend, hxbuf⟩
  exact ⟨hhp, hsends, hrq, hevq, hup, Nat.le_trans (List.length_filter_le _ _) hpend, hxbuf⟩

theorem execWaitArm_runs (h : Safe b s) (i data) : Runs b (execWaitArm i data s) := by
  unfold execWaitArm
  repeat' with_reducible first | intro _ | assumption | apply ackWrite_runs | apply waitArmWrite_safe

theorem execWaitCancel_runs (h : Safe b s) (i data) : Runs b (execWaitCancel i data s) := by
  unfold execWaitCancel
  repeat' with_reducible first | intro _ | assumption | apply ackWrite_runs | apply waitArmWrite_safe

theorem execWaitComplete_runs (h : Safe b s) (w) : Runs b (execWaitComplete w s) := by
  unfold execWaitComplete
  repeat' first
      | (with_reducible first | intro _ | assumption | apply hostWaitComplete_safe | apply completeIf_safe | apply runs_next)
      | split

theorem execFlagAutoclr_runs (h : Safe b s) (slot) : Runs b (execFlagAutoclr slot s) := by
  unfold execFlagAutoclr
  repeat' with_reducible first
      | intro _ | assumption | apply hostWaitComplete_safe | apply completeIf_safe | apply modSlot_safe | apply runs_next
      | apply foldl_safe | apply runs_ite | apply ite_safe

theorem execWaitTimeout_runs (h : Safe b s) (y) : Runs b (execWaitTimeout y s) := by
  unfold execWaitTimeout
  repeat' first
      | (with_reducible first | intro _ | assumption | apply hostWaitTimeout_safe | apply seqTimeout_safe | apply runs_next)
      | split

theorem execSoValWrite_runs (h : Safe b s) (i data) : Runs b (execSoValWrite i data s) := by
  unfold execSoValWrite
  repeat' with_reducible first | intro _ | assumption | apply ackWrite_runs | apply soValWrite_safe

theorem execSoGenWrite_runs (h : Safe b s) (i data) : Runs b (execSoGenWrite i data s) := by
  unfold execSoGenWrite
  repeat' with_reducible first | intro _ | assumption | apply ackWrite_runs | apply soGenWrite_safe

theorem execWinProgressWrite_runs (h : Safe b s) (i data) : Runs b (execWinProgressWrite i data s) := by
  unfold execWinProgressWrite
  repeat' with_reducible first | intro _ | assumption | apply ackWrite_runs | apply winStateWrite_safe

theorem execShGenWrite_runs (h : Safe b s) (i data) : Runs b (execShGenWrite i data s) := by
  unfold execShGenWrite
  repeat' with_reducible first | intro _ | assumption | apply ackWrite_runs | apply shGenWrite_safe

theorem execShCountWrite_runs (h : Safe b s) (i data) : Runs b (execShCountWrite i data s) := by
  unfold execShCountWrite
  repeat' with_reducible first | intro _ | assumption | apply ackWrite_runs | apply shCountWrite_safe

theorem execReleaseLeadNsWrite_runs (h : Safe b s) (i data) : Runs b (execReleaseLeadNsWrite i data s) := by
  unfold execReleaseLeadNsWrite
  repeat' with_reducible first | intro _ | assumption | apply ackWrite_runs | apply shJobWrite_safe

theorem execLaunchGuardMiss_runs (h : Safe b s) : Runs b (execLaunchGuardMiss s) := by
  unfold execLaunchGuardMiss
  repeat' first
      | (with_reducible first
          | intro _ | assumption | apply launchMiss_safe | apply setStaged_safe | apply runs_next | apply runs_ite
          | apply ite_safe)
      | split

theorem execJobLaunch_runs (h : Safe b s) (site) : Runs b (execJobLaunch site s) := by
  unfold execJobLaunch
  repeat' first
      | (with_reducible first | intro _ | assumption | apply launchStep_safe | apply homeLaunch_safe | apply runs_next)
      | split

theorem execStepLaunch_runs (h : Safe b s) : Runs b (execStepLaunch s) := by
  unfold execStepLaunch
  repeat' first | (with_reducible first | intro _ | assumption | apply launchStep_safe | apply runs_next) | split

theorem execStepReleaseReceive_runs (h : Safe b s) (l m) : Runs b (execStepReleaseReceive l m s) := by
  unfold execStepReleaseReceive
  repeat' with_reducible first
      | intro _ | assumption | apply taken_safe | apply stepReleaseTake_safe | apply sendLink_safe | apply countNotValid_safe
      | apply runs_next | apply runs_ite

theorem execTrigModeWrite_runs (h : Safe b s) (i data) : Runs b (execTrigModeWrite i data s) := by
  unfold execTrigModeWrite
  repeat' with_reducible first | intro _ | assumption | apply ackWrite_runs | apply trigWrite_safe

theorem execTrigParamWrite_runs (h : Safe b s) (i which data) : Runs b (execTrigParamWrite i which data s) := by
  unfold execTrigParamWrite
  repeat' with_reducible first | intro _ | assumption | apply ackWrite_runs | apply trigWrite_safe

theorem execTrigOneshotWrite_runs (h : Safe b s) (i data) : Runs b (execTrigOneshotWrite i data s) := by
  unfold execTrigOneshotWrite
  repeat' with_reducible first | intro _ | assumption | apply ackWrite_runs | apply oneshotWrite_safe

theorem execLatenessSetEnd_runs (h : Safe b s) (job rank) : Runs b (execLatenessSetEnd job rank s) := by
  unfold execLatenessSetEnd
  repeat' with_reducible first | intro _ | assumption | apply modLate_safe | apply runs_next

theorem execLatenessBlockEnd_runs (h : Safe b s) (job rank) : Runs b (execLatenessBlockEnd job rank s) := by
  unfold execLatenessBlockEnd
  repeat' with_reducible first | intro _ | assumption | apply lateBlockEnd_safe | apply runs_next

theorem execLtCfgWrite_runs (h : Safe b s) (i data) : Runs b (execLtCfgWrite i data s) := by
  unfold execLtCfgWrite
  repeat' with_reducible first | intro _ | assumption | apply ackWrite_runs | apply ltCfgWrite_safe

theorem execLtMeanRead_runs (h : Safe b s) (i) : Runs b (execLtMeanRead i s) := by
  unfold execLtMeanRead
  repeat' with_reducible first | intro _ | assumption | apply ackRead_runs | apply ltMeanRead_safe

theorem execProgBegin_runs (h : Safe b s) (i data) : Runs b (execProgBegin i data s) := by
  unfold execProgBegin
  repeat' with_reducible first | intro _ | assumption | apply ackWrite_runs | apply progCtrlWrite_safe

theorem execProgCommit_runs (h : Safe b s) (i data) : Runs b (execProgCommit i data s) := by
  unfold execProgCommit
  repeat' with_reducible first | intro _ | assumption | apply ackWrite_runs | apply progCtrlWrite_safe

theorem execProgDataWrite_runs (h : Safe b s) (i data) : Runs b (execProgDataWrite i data s) := by
  unfold execProgDataWrite
  repeat' with_reducible first | intro _ | assumption | apply ackWrite_runs | apply progDataWrite_safe

theorem execProgAddrWrite_runs (h : Safe b s) (i data) : Runs b (execProgAddrWrite i data s) := by
  unfold execProgAddrWrite
  repeat' with_reducible first | intro _ | assumption | apply ackWrite_runs | apply progAddrWrite_safe

theorem execProgCheckDone_runs (h : Safe b s) (site) : Runs b (execProgCheckDone site s) := by
  unfold execProgCheckDone
  repeat' first
      | (with_reducible first
          | intro _ | assumption | apply modSeq_safe | apply envChange_safe | apply refuse_safe | apply runs_next
          | apply runs_ite | apply ite_safe)
      | refine seqCause_safe ?_ _ _ (by decide) | split

theorem execHomePassStart_runs (h : Safe b s) (job) : Runs b (execHomePassStart job s) := by
  unfold execHomePassStart
  repeat' first | (with_reducible first | intro _ | assumption | apply homeLaunch_safe | apply runs_next) | split

theorem execEndPass_runs (h : Safe b s) (site) : Runs b (execEndPass site s) := by
  unfold execEndPass
  repeat' first
      | (with_reducible first
          | intro _ | assumption | apply issue_runs | apply freeBufs_safe | apply endMaps_safe | apply modJob_safe
          | apply homePass_safe | apply pauseCheck_safe | apply runs_next)
      | split | dsimp only

theorem execFenceComplete_runs (h : Safe b s) : Runs b (execFenceComplete s) := by
  unfold execFenceComplete
  repeat' with_reducible first | intro _ | assumption | apply completeIf_safe | apply runs_next

theorem execWaitevtComplete_runs (h : Safe b s) : Runs b (execWaitevtComplete s) := by
  unfold execWaitevtComplete
  repeat' with_reducible first | intro _ | assumption | apply completeIf_safe | apply runs_next

theorem execWaittickComplete_runs (h : Safe b s) : Runs b (execWaittickComplete s) := by
  unfold execWaittickComplete
  repeat' with_reducible first | intro _ | assumption | apply completeIf_safe | apply runs_next

theorem execResultComplete_runs (h : Safe b s) : Runs b (execResultComplete s) := by
  unfold execResultComplete
  repeat' with_reducible first | intro _ | assumption | apply completeIf_safe | apply runs_next

theorem execHwait_runs (h : Safe b s) (site) : Runs b (execHwait site s) := by
  unfold execHwait
  repeat' with_reducible first
      | intro _ | assumption | apply issue_runs | apply refusedHere_safe | apply armWait_safe | apply runs_next
      | apply runs_ite | apply ite_safe

theorem execHwaitComplete_runs (h : Safe b s) (job) : Runs b (execHwaitComplete job s) := by
  unfold execHwaitComplete
  repeat' with_reducible first | intro _ | assumption | apply completeIf_safe | apply runs_next

theorem finishCtx_safe {t : State} {j c : BitVec 12} {op : Word} (h : Safe b s) (e : finishCtx s j c op = some t) : Safe
    b t := by
  unfold finishCtx at e
  dsimp only at e
  split at e
  · split at e
    · exact nomatch e
    · exact Option.some.inj e ▸ modCtx_safe h _ _ _
  · exact nomatch e

theorem execFinish_runs (h : Safe b s) (site faults) : Runs b (execFinish site faults s) :=
  issue_runs h fun _ _ hs => checkedWord_safe hs _ _ _ _ fun _ _ _ hu e => finishCtx_safe hu e

theorem releaseCtx_safe {t : State} {j c g : BitVec 12} (h : Safe b s) (e : releaseCtx s j c g = some t) : Safe b t := by
  unfold releaseCtx at e
  dsimp only at e
  split at e
  case h_2 => exact nomatch e
  split at e
  · exact nomatch e
  have hkept := fun f g => modJob_safe (modCtx_safe h j c f) j g
  generalize hu : modJob (modCtx s j c _) j _ = u at e
  have hu : Safe b u := hu ▸ hkept _ _
  split at e
  · refine Option.some.inj e ▸ foldl_safe (fun s f hs => sendTwin_safe (ite_safe (ladle_safe hs _ _ _) ?_) _ _) hu
    split
    · exact sendEp_safe hs _ _ _
    · exact hs
  · exact Option.some.inj e ▸ foldl_safe (fun s f hs => rresOwn_safe hs _ _ _) hu

theorem execHrelease_runs (h : Safe b s) (site faults) : Runs b (execHrelease site faults s) :=
  issue_runs h fun _ _ hs => checkedWord_safe hs _ _ _ _ fun _ _ _ hu e => releaseCtx_safe hu e

theorem execHdigest_runs (h : Safe b s) (site) : Runs b (execHdigest site s) := by
  unfold execHdigest
  repeat' with_reducible first | intro _ | assumption | apply issue_runs | apply armWait_safe

theorem execHdigestFoldsComplete_runs (h : Safe b s) (job) : Runs b (execHdigestFoldsComplete job s) := by
  unfold execHdigestFoldsComplete
  repeat' with_reducible first | intro _ | assumption | apply foldsComplete_safe | apply runs_next

theorem execTwinCloseReceive_runs (h : Safe b s) (l d v) : Runs b (execTwinCloseReceive l d v s) := by
  unfold execTwinCloseReceive
  repeat' with_reducible first | intro _ | assumption | apply twinCloseTake_safe | apply taken_safe | apply runs_next

theorem execTwinCloseTimeout_runs (h : Safe b s) (job) : Runs b (execTwinCloseTimeout job s) := by
  unfold execTwinCloseTimeout
  repeat' first
      | (with_reducible first
          | intro _ | assumption | apply finishClose_safe | apply runs_next | apply runs_ite | apply ite_safe)
      | split

theorem execXbufHostWrite_runs (h : Safe b s) (i word data) : Runs b (execXbufHostWrite i word data s) := by
  unfold execXbufHostWrite
  repeat' with_reducible first | intro _ | assumption | apply ackWrite_runs | apply xbufWrite_safe

theorem execResultFlitReceive_runs (h : Safe b s) (l m) : Runs b (execResultFlitReceive l m s) := by
  unfold execResultFlitReceive
  repeat' with_reducible first
      | intro _ | assumption | apply refuse_safe | apply resultTake_safe | apply runs_next | apply runs_ite

theorem execContribReceive_runs (h : Safe b s) (l sender dsn m faults) :
    Runs b (execContribReceive l sender dsn m faults s) := by
  unfold execContribReceive
  repeat' with_reducible first
      | intro _ | assumption | apply onUp_safe | apply checkedTake_safe | apply contribTake_safe | apply runs_next

theorem execPartialReceive_runs (h : Safe b s) (l sender dsn m faults) :
    Runs b (execPartialReceive l sender dsn m faults s) := by
  unfold execPartialReceive
  repeat' with_reducible first
      | intro _ | assumption | apply onUp_safe | apply checkedTake_safe | apply partTake_safe | apply runs_next

theorem execHomeContribFold_runs (h : Safe b s) (l sender dsn m faults) :
    Runs b (execHomeContribFold l sender dsn m faults s) := by
  unfold execHomeContribFold
  repeat' first
      | (with_reducible first
          | intro _ | assumption | apply onUp_safe | apply checkedTake_safe | apply contribTake_safe | apply partTake_safe
          | apply runs_next)
      | split

theorem execRefuseReceive_runs (h : Safe b s) (l m) : Runs b (execRefuseReceive l m s) := by
  unfold execRefuseReceive
  repeat' with_reducible first
      | intro _ | assumption | apply refuseTake_safe | apply taken_safe | apply refuse_safe | apply runs_next

theorem execRereqReceive_runs (h : Safe b s) (l m) : Runs b (execRereqReceive l m s) := by
  unfold execRereqReceive
  repeat' with_reducible first
      | intro _ | assumption | apply atEdge_safe | apply taken_safe | apply nearStep_safe | apply rereqTake_safe
      | apply runs_next

theorem execResultRerequestTimer_runs (h : Safe b s) : Runs b (execResultRerequestTimer s) := by
  unfold execResultRerequestTimer
  repeat' first | (with_reducible first | intro _ | assumption | apply rereqWaiting_safe | apply runs_next) | split

theorem execTwinRresCompare_runs (h : Safe b s) (l m) : Runs b (execTwinRresCompare l m s) := by
  unfold execTwinRresCompare
  repeat' with_reducible first | intro _ | assumption | apply rresCompare_safe | apply taken_safe | apply runs_next

theorem execDgpReceive_runs (h : Safe b s) (l sender dsn m) : Runs b (execDgpReceive l sender dsn m s) := by
  unfold execDgpReceive
  repeat' with_reducible first
      | intro _ | assumption | apply onUp_safe | apply digTake_safe | apply homeDgp_safe | apply foldOn_safe
      | apply runs_next

theorem execVmapReceive_runs (h : Safe b s) (l sender dsn m) : Runs b (execVmapReceive l sender dsn m s) := by
  unfold execVmapReceive
  repeat' with_reducible first
      | intro _ | assumption | apply onUp_safe | apply digTake_safe | apply homeVmap_safe | apply foldOn_safe
      | apply runs_next

theorem execCheckReceive_runs (h : Safe b s) (l sender dsn m) : Runs b (execCheckReceive l sender dsn m s) := by
  unfold execCheckReceive
  repeat' with_reducible first
      | intro _ | assumption | apply onUp_safe | apply atEdge_safe | apply digTake_safe | apply homeCheck_safe
      | apply passUp_safe | apply runs_next

theorem execStepPoisonReceive_runs (h : Safe b s) (l m) : Runs b (execStepPoisonReceive l m s) := by
  unfold execStepPoisonReceive
  repeat' with_reducible first | intro _ | assumption | apply poisonTake_safe | apply taken_safe | apply runs_next

theorem execAudTailWrite_runs (h : Safe b s) (i data) : Runs b (execAudTailWrite i data s) := by
  unfold execAudTailWrite
  repeat' with_reducible first | intro _ | assumption | apply ackWrite_runs | apply audTailWrite_safe

end Sys2Proof.Machine
end

section
/-! What the operations of Machine/Exec3.lean keep. -/

namespace Sys2Proof.Machine

variable {b s : State}

theorem execAudCfgWrite_runs (h : Safe b s) (i data) : Runs b (execAudCfgWrite i data s) := by
  unfold execAudCfgWrite
  repeat' with_reducible first | intro _ | assumption | apply ackWrite_runs | apply audCfgWrite_safe

theorem execAudCtrlWrite_runs (h : Safe b s) (i data) : Runs b (execAudCtrlWrite i data s) := by
  unfold execAudCtrlWrite
  repeat' with_reducible first | intro _ | assumption | apply ackWrite_runs | apply audCtrlWrite_safe

theorem execAudRd0Read_runs (h : Safe b s) (i) : Runs b (execAudRd0Read i s) := by
  unfold execAudRd0Read
  repeat' with_reducible first | intro _ | assumption | apply ackRead_runs | apply audRd0Read_safe

theorem execAuditExportSend_runs (h : Safe b s) : Runs b (execAuditExportSend s) := by
  unfold execAuditExportSend
  repeat' first
      | (with_reducible first
          | intro _ | assumption | apply udpSend_safe | apply audFlush_safe | apply runs_next | apply runs_ite
          | apply ite_safe)
      | refine modHub_safe ?_ _ rfl

theorem execVrecReceive_runs (h : Safe b s) (l sender dsn m) : Runs b (execVrecReceive l sender dsn m s) := by
  unfold execVrecReceive
  repeat' with_reducible first
      | intro _ | assumption | apply onUp_safe | apply atEdge_safe | apply vrecTake_safe | apply sendLink_safe
      | apply countNotValid_safe | apply runs_next | apply runs_ite | apply ite_safe

theorem execRqPush_runs (h : Safe b s) (i data) : Runs b (execRqPush i data s) := by
  unfold execRqPush
  repeat' with_reducible first | intro _ | assumption | apply ackWrite_runs | apply rqPushWrite_safe

theorem execRqFlush_runs (h : Safe b s) (i data) : Runs b (execRqFlush i data s) := by
  unfold execRqFlush
  repeat' with_reducible first | intro _ | assumption | apply ackWrite_runs | apply rqStatusWrite_safe

theorem execHqPush_runs (h : Safe b s) (i data) : Runs b (execHqPush i data s) := by
  unfold execHqPush
  repeat' with_reducible first | intro _ | assumption | apply ackWrite_runs | apply hqPushWrite_safe

theorem execReplayWaitServed_runs (h : Safe b s) (site) : Runs b (execReplayWaitServed site s) := by
  unfold execReplayWaitServed
  repeat' with_reducible first | intro _ | assumption | apply completeIf_safe | apply runs_next

theorem execRlTailWrite_runs (h : Safe b s) (i data) : Runs b (execRlTailWrite i data s) := by
  unfold execRlTailWrite
  repeat' with_reducible first | intro _ | assumption | apply ackWrite_runs | apply rlTailWrite_safe

theorem execRlRd0Read_runs (h : Safe b s) (i) : Runs b (execRlRd0Read i s) := by
  unfold execRlRd0Read
  repeat' with_reducible first | intro _ | assumption | apply ackRead_runs | apply rlRd0Read_safe

theorem execDetFwWrite_runs (h : Safe b s) (i which data) : Runs b (execDetFwWrite i which data s) := by
  unfold execDetFwWrite
  repeat' with_reducible first | intro _ | assumption | apply ackWrite_runs | apply detWrite_safe

theorem execCoalesceWindowEnd_runs (h : Safe b s) (p) : Runs b (execCoalesceWindowEnd p s) := by
  unfold execCoalesceWindowEnd
  repeat' first
      | (with_reducible first
          | intro _ | assumption | apply formRecord_safe | apply runs_next | apply runs_ite | apply ite_safe)
      | refine modSh_safe ?_ _ _ rfl | split

theorem execEvrecReceive_runs (h : Safe b s) (l sender dsn m) : Runs b (execEvrecReceive l sender dsn m s) := by
  unfold execEvrecReceive
  repeat' with_reducible first | intro _ | assumption | apply onUp_safe | apply evrecTake_safe | apply runs_next

theorem execEventExportSend_runs (h : Safe b s) : Runs b (execEventExportSend s) := by
  unfold execEventExportSend
  repeat' first
      | (with_reducible first
          | intro _ | assumption | apply modEvh_safe | apply sendRecords_safe | apply runs_next | apply runs_ite
          | apply ite_safe)
      | refine setCause_safe ?_ _ _ _ (by simp [causesOf])

theorem execEventRerequestReceive_runs (h : Safe b s) (ip port data) : Runs b (execEventRerequestReceive ip port data s) := by
  unfold execEventRerequestReceive
  repeat' first
      | (with_reducible first
          | intro _ | assumption | apply modEvh_safe | apply sendRecords_safe | apply runs_next | apply foldl_safe
          | apply runs_ite | apply ite_safe)
      | refine modHub_safe ?_ _ rfl

theorem execEqW0Read_runs (h : Safe b s) (i) : Runs b (execEqW0Read i s) := by
  unfold execEqW0Read
  repeat' with_reducible first | intro _ | assumption | apply ackRead_runs | apply eqW0Read_safe

theorem execEvRd0Read_runs (h : Safe b s) (i) : Runs b (execEvRd0Read i s) := by
  unfold execEvRd0Read
  repeat' with_reducible first | intro _ | assumption | apply ackRead_runs | apply evRd0Read_safe

theorem execHistoryAppend_runs (h : Safe b s) : Runs b (execHistoryAppend s) := by
  unfold execHistoryAppend
  repeat' first
      | (with_reducible first | intro _ | assumption | apply runs_next | apply runs_ite | apply ite_safe)
      | refine modHub_safe ?_ _ rfl | refine modUnit_safe ?_ _ _ (fun h4 => h4) | split

theorem execKatRunDone_runs (h : Safe b s) (unit pass) : Runs b (execKatRunDone unit pass s) := by
  unfold execKatRunDone
  repeat' with_reducible first | intro _ | assumption | apply katDone_safe | apply runs_next

theorem execRotationStart_runs (h : Safe b s) : Runs b (execRotationStart s) := by
  unfold execRotationStart
  repeat' with_reducible first | intro _ | assumption | apply rotStart_safe | apply runs_next | apply runs_ite | apply ite_safe

theorem execRotNow_runs (h : Safe b s) (i data) : Runs b (execRotNow i data s) := by
  unfold execRotNow
  repeat' with_reducible first | intro _ | assumption | apply ackWrite_runs | apply fltCtrlWrite_safe

theorem execShadowEnd_runs (h : Safe b s) (unit) : Runs b (execShadowEnd unit s) := by
  unfold execShadowEnd
  repeat' with_reducible first
      | intro _ | assumption | apply shadowEnd_safe | apply calNext_safe | apply runs_next | apply runs_ite | apply ite_safe

theorem execDackReceive_runs (h : Safe b s) (l m) : Runs b (execDackReceive l m s) := by
  have htaken := taken_safe h l (.dack m)
  unfold execDackReceive
  dsimp only
  generalize taken s l (.dack m) = u at htaken ⊢
  split
  · refine runs_next (foldl_safe (fun _ _ hs => tsuSendUp_safe hs _) (modTsu_of_safe htaken _ ?_ rfl))
    rintro ⟨hhp, hsends, hrq, hevq, hup, hrest⟩
    exact ⟨hhp, hsends, hrq, hevq, Nat.le_trans (List.length_filter_le _ _) hup, hrest⟩
  · exact runs_ite (runs_next (modHub_safe htaken _ rfl))
      (runs_next (foldl_safe (fun _ _ hs => hubSendUp_safe hs _ _) (modHub_safe htaken _ rfl)))

theorem execTwinHeartbeatSend_runs (h : Safe b s) : Runs b (execTwinHeartbeatSend s) := by
  unfold execTwinHeartbeatSend
  repeat' with_reducible first | intro _ | assumption | apply sendLink_safe | apply runs_next | apply foldl_safe

theorem execHeartbeatReceive_runs (h : Safe b s) (l m) : Runs b (execHeartbeatReceive l m s) := by
  unfold execHeartbeatReceive
  repeat' first
      | (with_reducible first
          | intro _ | assumption | apply taken_safe | apply runs_next | apply foldl_safe | apply runs_ite | apply ite_safe)
      | refine modHub_safe ?_ _ rfl

theorem execLeadTakeover_runs (h : Safe b s) : Runs b (execLeadTakeover s) := by
  unfold execLeadTakeover
  repeat' first
      | (with_reducible first
          | intro _ | assumption | apply takeLead_safe | apply laneSpared_safe | apply resumeTxn_safe | apply resendTwin_safe
          | apply runs_next | apply foldl_safe | apply runs_ite | apply ite_safe)
      | refine setCause_safe ?_ _ _ _ (by simp [causesOf]) | refine modHub_safe ?_ _ rfl

theorem execShadowCopyDone_runs (h : Safe b s) : Runs b (execShadowCopyDone s) := by
  unfold execShadowCopyDone
  repeat' first
      | (with_reducible first
          | intro _ | assumption | apply laneSpared_safe | apply runs_next | apply runs_ite | apply ite_safe)
      | refine modHub_safe ?_ _ rfl

theorem execTsuHeartbeatSend_runs (h : Safe b s) : Runs b (execTsuHeartbeatSend s) := by
  unfold execTsuHeartbeatSend
  repeat' with_reducible first | intro _ | assumption | apply sendLink_safe | apply runs_next

theorem execHeartbeatLoss_runs (h : Safe b s) (l) : Runs b (execHeartbeatLoss l s) := by
  unfold execHeartbeatLoss
  repeat' with_reducible first | intro _ | assumption | apply declare_safe | apply runs_next | apply runs_ite

theorem execArrivalTimeout_runs (h : Safe b s) (job rank) : Runs b (execArrivalTimeout job rank s) := by
  unfold execArrivalTimeout
  repeat' with_reducible first | intro _ | assumption | apply arrivalTimeout_safe | apply runs_next

theorem execTxnSubmit_runs (h : Safe b s) (i data) : Runs b (execTxnSubmit i data s) := by
  unfold execTxnSubmit
  repeat' with_reducible first | intro _ | assumption | apply ackWrite_runs | apply txnCtrlWrite_safe

theorem execTxnAppend_runs (h : Safe b s) (i data) : Runs b (execTxnAppend i data s) := by
  unfold execTxnAppend
  repeat' with_reducible first | intro _ | assumption | apply ackWrite_runs | apply txnCtrlWrite_safe

theorem execTxnCancel_runs (h : Safe b s) (i data) : Runs b (execTxnCancel i data s) := by
  unfold execTxnCancel
  repeat' with_reducible first | intro _ | assumption | apply ackWrite_runs | apply txnCtrlWrite_safe

theorem execTxnResetBody_runs (h : Safe b s) (i data) : Runs b (execTxnResetBody i data s) := by
  unfold execTxnResetBody
  repeat' with_reducible first | intro _ | assumption | apply ackWrite_runs | apply txnCtrlWrite_safe

theorem execTxnLockTake_runs (h : Safe b s) (tid) : Runs b (execTxnLockTake tid s) := by
  unfold execTxnLockTake
  repeat' with_reducible first | intro _ | assumption | apply lockTake_safe | apply runs_next

theorem execPrepareReceive_runs (h : Safe b s) (l m) : Runs b (execPrepareReceive l m s) := by
  unfold execPrepareReceive
  repeat' with_reducible first | intro _ | assumption | apply onMsg_safe | apply prepareOn_safe | apply runs_next

theorem execDeferredVote_runs (h : Safe b s) (p partition) : Runs b (execDeferredVote p partition s) := by
  unfold execDeferredVote
  repeat' first
      | (with_reducible first
          | intro _ | assumption | apply setStaged_safe | apply giveVote_safe | apply runs_next | apply runs_ite
          | apply ite_safe)
      | split

theorem execVoteReceive_runs (h : Safe b s) (l m arrived passed) : Runs b (execVoteReceive l m arrived passed s) := by
  unfold execVoteReceive
  repeat' with_reducible first
      | intro _ | assumption | apply onMsg_safe | apply countVote_safe | apply voteOn_safe | apply keepArrived_safe
      | apply runs_next | apply runs_ite | apply ite_safe

theorem execVoteTimeout_runs (h : Safe b s) (tid) : Runs b (execVoteTimeout tid s) := by
  unfold execVoteTimeout
  repeat' with_reducible first | intro _ | assumption | apply txnAbort_safe | apply runs_next | apply runs_ite

theorem execCommitReceive_runs (h : Safe b s) (l m) : Runs b (execCommitReceive l m s) := by
  unfold execCommitReceive
  repeat' with_reducible first | intro _ | assumption | apply onMsg_safe | apply commitTake_safe | apply runs_next

theorem execTxnCommitApply_runs (h : Safe b s) (p partition) : Runs b (execTxnCommitApply p partition s) := by
  unfold execTxnCommitApply
  repeat' first
      | (with_reducible first
          | intro _ | assumption | apply applyStaged_safe | apply runs_next | apply runs_ite | apply ite_safe)
      | split

theorem execNoCommit_runs (h : Safe b s) (p partition) : Runs b (execNoCommit p partition s) := by
  unfold execNoCommit
  repeat' first
      | (with_reducible first
          | intro _ | assumption | apply noCommit_safe | apply runs_next | apply runs_ite | apply ite_safe)
      | split

theorem execAbortReceive_runs (h : Safe b s) (l m) : Runs b (execAbortReceive l m s) := by
  unfold execAbortReceive
  repeat' with_reducible first | intro _ | assumption | apply onMsg_safe | apply abortTake_safe | apply runs_next

theorem execDoneReceive_runs (h : Safe b s) (l m drained) : Runs b (execDoneReceive l m drained s) := by
  unfold execDoneReceive
  repeat' with_reducible first
      | intro _ | assumption | apply onMsg_safe | apply countReport_safe | apply sendHub_safe | apply runs_next
      | apply runs_ite | apply ite_safe

theorem execTxnReportTimeout_runs (h : Safe b s) (tid) : Runs b (execTxnReportTimeout tid s) := by
  unfold execTxnReportTimeout
  repeat' with_reducible first
      | intro _ | assumption | apply finishTxn_safe | apply modTxn_safe | apply runs_next | apply runs_ite

theorem execGraceEnd_runs (h : Safe b s) (p job) : Runs b (execGraceEnd p job s) := by
  unfold execGraceEnd
  repeat' first
      | (with_reducible first | intro _ | assumption | apply modJob_safe | apply runs_next | apply runs_ite | apply ite_safe)
      | refine modTsu_safe ?_ _ rfl | split

theorem execPauseMarkReceive_runs (h : Safe b s) (l m) : Runs b (execPauseMarkReceive l m s) := by
  unfold execPauseMarkReceive
  repeat' first
      | (with_reducible first
          | intro _ | assumption | apply taken_safe | apply downOn_safe | apply refuse_safe | apply tsuJobOk_safe
          | apply tsuNearStep_safe | apply runs_next | apply runs_ite | apply ite_safe)
      | refine modTsu_safe ?_ _ rfl | split | dsimp only | refine snd_safe (by assumption) ?_

theorem execPauseReplySend_runs (h : Safe b s) : Runs b (execPauseReplySend s) := by
  unfold execPauseReplySend
  repeat' first
      | (with_reducible first
          | intro _ | assumption | apply tsuSend_safe | apply tsuState_safe | apply runs_next | apply runs_ite
          | apply ite_safe)
      | refine modTsu_safe ?_ _ rfl

theorem execPauseReplyReceive_runs (h : Safe b s) (l m) : Runs b (execPauseReplyReceive l m s) := by
  unfold execPauseReplyReceive
  repeat' with_reducible first
      | intro _ | assumption | apply atEdge_safe | apply taken_safe | apply pauseReplyTake_safe | apply runs_next

theorem execDrainDone_runs (h : Safe b s) (p job) : Runs b (execDrainDone p job s) := by
  unfold execDrainDone
  repeat' first
      | (with_reducible first
          | intro _ | assumption | apply drainHub_safe | apply setStaged_safe | apply hubReport_safe | apply drainTsu_safe
          | apply tsuDone_safe | apply runs_next | apply runs_ite | apply ite_safe)
      | split

theorem execAbortCmd_runs (h : Safe b s) (i data) : Runs b (execAbortCmd i data s) := by
  unfold execAbortCmd
  repeat' with_reducible first | intro _ | assumption | apply ackWrite_runs | apply abortCmdWrite_safe

theorem execJobAbortReceive_runs (h : Safe b s) (l m) : Runs b (execJobAbortReceive l m s) := by
  unfold execJobAbortReceive
  repeat' with_reducible first | intro _ | assumption | apply onMsg_safe | apply jobAbortTake_safe | apply runs_next

theorem execAbortAckReceive_runs (h : Safe b s) (l m member) : Runs b (execAbortAckReceive l m member s) := by
  unfold execAbortAckReceive
  repeat' with_reducible first | intro _ | assumption | apply onMsg_safe | apply abortAckTake_safe | apply runs_next

theorem execReportReceive_runs (h : Safe b s) (l m) : Runs b (execReportReceive l m s) := by
  unfold execReportReceive
  repeat' with_reducible first
      | intro _ | assumption | apply onMsg_safe | apply nearStep_safe | apply reportTake_safe | apply runs_next
      | apply runs_ite | apply ite_safe

theorem execCodewordReceive_runs (h : Safe b s) (p port lane bad corrected slots) :
    Runs b (execCodewordReceive p port lane bad corrected slots s) := by
  unfold execCodewordReceive
  repeat' with_reducible first
      | intro _ | assumption | apply modFec_safe | apply spareWord_safe | apply keepWord_safe | apply remapStart_safe
      | apply sendLnak_safe | apply takeSlot_safe | apply heardOn_safe | apply runs_next | apply foldl_safe | apply runs_ite
      | apply ite_safe

theorem execLackReceive_runs (h : Safe b s) (l m) : Runs b (execLackReceive l m s) := by
  unfold execLackReceive
  repeat' with_reducible first | intro _ | assumption | apply ackBefore_safe | apply heardOn_safe | apply runs_next

theorem execLnakReceive_runs (h : Safe b s) (l m) : Runs b (execLnakReceive l m s) := by
  unfold execLnakReceive
  repeat' with_reducible first
      | intro _ | assumption | apply ackBefore_safe | apply heardOn_safe | apply modLink_safe | apply linkLeave_safe
      | apply replayAll_safe | apply modLinkRegs_safe | apply runs_next | apply runs_ite

theorem execRetryStall_runs (h : Safe b s) (l) : Runs b (execRetryStall l s) := by
  unfold execRetryStall
  repeat' with_reducible first | intro _ | assumption | apply linkLeave_safe | apply runs_next | apply runs_ite | apply ite_safe

theorem execCreditReceive_runs (h : Safe b s) (l m) : Runs b (execCreditReceive l m s) := by
  unfold execCreditReceive
  repeat' with_reducible first
      | intro _ | assumption | apply heardOn_safe | apply drainLink_safe | apply modLink_safe | apply runs_next

theorem execNotReadySend_runs (h : Safe b s) (p) : Runs b (execNotReadySend p s) := by
  unfold execNotReadySend
  repeat' with_reducible first
      | intro _ | assumption | apply modLinkRegs_safe | apply sendLink_safe | apply runs_next | apply foldl_safe
      | apply runs_ite

theorem execNotReadyReceive_runs (h : Safe b s) (l m) : Runs b (execNotReadyReceive l m s) := by
  unfold execNotReadyReceive
  repeat' with_reducible first | intro _ | assumption | apply onMsg_safe | apply modLink_safe | apply runs_next

theorem execLaneLockLoss_runs (h : Safe b s) (p port lane) : Runs b (execLaneLockLoss p port lane s) := by
  unfold execLaneLockLoss
  repeat' with_reducible first | intro _ | assumption | apply remapStart_safe | apply modFec_safe | apply runs_next

theorem execSerLimitExceeded_runs (h : Safe b s) (p port lane) : Runs b (execSerLimitExceeded p port lane s) := by
  unfold execSerLimitExceeded
  repeat' with_reducible first
      | intro _ | assumption | apply remapStart_safe | apply runs_next | apply runs_ite | apply ite_safe

theorem execRemapNow_runs (h : Safe b s) (i port data) : Runs b (execRemapNow i port data s) := by
  unfold execRemapNow
  repeat' with_reducible first | intro _ | assumption | apply ackWrite_runs | apply onLinkPage_safe | apply lkCtrlWrite_safe

theorem execRemapReqReceive_runs (h : Safe b s) (l m) : Runs b (execRemapReqReceive l m s) := by
  unfold execRemapReqReceive
  repeat' first
      | (with_reducible first
          | intro _ | assumption | apply heardOn_safe | apply sendLink_safe | apply modPage_safe | apply remapAccept_safe
          | apply runs_next | apply runs_ite | apply ite_safe)
      | split | dsimp only

end Sys2Proof.Machine
end

section
/-! What the operations of Machine/Exec4.lean keep. -/

namespace Sys2Proof.Machine

variable {b s : State}

theorem execRemapAckReceive_runs (h : Safe b s) (l m) : Runs b (execRemapAckReceive l m s) := by
  unfold execRemapAckReceive
  repeat' first
      | (with_reducible first
          | intro _ | assumption | apply onMsg_safe | apply remapGo_safe | apply modPage_safe | apply remapGiveUp_safe
          | apply runs_next | apply runs_ite | apply ite_safe)
      | split

theorem execRemapAtReceive_runs (h : Safe b s) (l m) : Runs b (execRemapAtReceive l m s) := by
  unfold execRemapAtReceive
  repeat' with_reducible first | intro _ | assumption | apply heardOn_safe | apply modPage_safe | apply runs_next

theorem execSpwAckRise_runs (h : Safe b s) (p port) : Runs b (execSpwAckRise p port s) := by
  unfold execSpwAckRise
  repeat' with_reducible first
      | intro _ | assumption | apply modPage_safe | apply remapGo_safe | apply runs_next | apply runs_ite

theorem execSpareClean_runs (h : Safe b s) (p port cwc) : Runs b (execSpareClean p port cwc s) := by
  unfold execSpareClean
  repeat' with_reducible first
      | intro _ | assumption | apply modPage_safe | apply remapGo_safe | apply modLink_safe | apply runs_next

theorem execRemapSwitch_runs (h : Safe b s) (p port cwc) : Runs b (execRemapSwitch p port cwc s) := by
  unfold execRemapSwitch
  dsimp only
  split
  case h_2 => exact runs_next h
  refine runs_ite ?_ (runs_next h)
  have hmoved : ∀ f l g u v lane c, Safe b (modLaneCal (setCause (laneSpared (modLink (modPage s p port f) l g) p 0 u v)
      p (.link port) 14) p port lane c) :=
    fun _ _ _ _ _ _ _ => modLaneCal_safe (setCause_safe (laneSpared_safe (modLink_safe (modPage_safe h _ _ _) _ _) _ _ _ _)
      _ _ _ (by simp [causesOf])) _ _ _ _
  cases p
  · exact runs_next (modUnit_safe (hmoved _ _ _ _ _ _ _) _ _ fun h4 => if_pos h4)
  · exact runs_next (hmoved _ _ _ _ _ _ _)

theorem execSpwTimeout_runs (h : Safe b s) (p port) : Runs b (execSpwTimeout p port s) := by
  unfold execSpwTimeout
  repeat' first
      | (with_reducible first
          | intro _ | assumption | apply modPage_safe | apply remapGiveUp_safe | apply runs_next | apply runs_ite
          | apply ite_safe)
      | split | dsimp only

theorem execPortAdmit_runs (h : Safe b s) (signal) : Runs b (execPortAdmit signal s) := by
  unfold execPortAdmit
  repeat' first
      | (with_reducible first
          | intro _ | assumption | apply admitPort_safe | apply runs_next | apply foldl_safe | apply runs_ite
          | apply ite_safe)
      | refine modHub_safe ?_ _ rfl

theorem execTrainComplete_runs (h : Safe b s) (l) : Runs b (execTrainComplete l s) := by
  unfold execTrainComplete
  repeat' with_reducible first
      | intro _ | assumption | apply modLink_safe | apply trainLane_safe | apply modPage_safe | apply runs_next
      | apply foldl_safe | apply runs_ite

theorem execTrainTimeout_runs (h : Safe b s) (l) : Runs b (execTrainTimeout l s) := by
  unfold execTrainTimeout
  repeat' first
      | (with_reducible first
          | intro _ | assumption | apply modLinkRegs_safe | apply queuePort_safe | apply runs_next | apply runs_ite
          | apply ite_safe)
      | split

theorem execAlignComplete_runs (h : Safe b s) (l) : Runs b (execAlignComplete l s) := by
  unfold execAlignComplete
  repeat' with_reducible first
      | intro _ | assumption | apply modLinkRegs_safe | apply modLaneCal_safe | apply runs_next | apply foldl_safe
      | apply runs_ite

theorem execHelloReceive_runs (h : Safe b s) (l m) : Runs b (execHelloReceive l m s) := by
  unfold execHelloReceive
  repeat' first
      | (with_reducible first
          | intro _ | assumption | apply heardOn_safe | apply takeEndpoint_safe | apply takeNeighbour_safe
          | apply tellConflict_safe | apply modLink_safe | apply resendUp_safe | apply updReady_safe | apply unstrand_safe
          | apply modLinkRegs_safe | apply runs_next | apply runs_ite | apply ite_safe)
      | refine setCause_safe ?_ _ _ _ (by simp [causesOf]) | split

theorem execLkRetrain_runs (h : Safe b s) (i port data) : Runs b (execLkRetrain i port data s) := by
  unfold execLkRetrain
  repeat' with_reducible first | intro _ | assumption | apply ackWrite_runs | apply onLinkPage_safe | apply lkCtrlWrite_safe

theorem execLinkLeaveService_runs (h : Safe b s) (l) : Runs b (execLinkLeaveService l s) := by
  unfold execLinkLeaveService
  repeat' with_reducible first | intro _ | assumption | apply linkLeave_safe | apply runs_next

theorem execRegRdReceive_runs (h : Safe b s) (l m) : Runs b (execRegRdReceive l m s) := by
  unfold execRegRdReceive
  repeat' with_reducible first
      | intro _ | assumption | apply readAt_safe | apply taken_safe | apply sendLink_safe | apply runs_next | apply runs_ite

theorem execRegWrReceive_runs (h : Safe b s) (l m) : Runs b (execRegWrReceive l m s) := by
  unfold execRegWrReceive
  repeat' with_reducible first
      | intro _ | assumption | apply taken_safe | apply writeAt_safe | apply sendLink_safe | apply runs_next | apply runs_ite

theorem execRegRspReceive_runs (h : Safe b s) (l m) : Runs b (execRegRspReceive l m s) := by
  unfold execRegRspReceive
  repeat' first
      | (with_reducible first
          | intro _ | assumption | apply taken_safe | apply modLinkRegs_safe | apply runs_next | apply runs_ite
          | apply ite_safe)
      | refine setCause_safe ?_ _ _ _ (by simp [causesOf])

theorem execLkRegGo_runs (h : Safe b s) (i port data) : Runs b (execLkRegGo i port data s) := by
  unfold execLkRegGo
  repeat' with_reducible first | intro _ | assumption | apply ackWrite_runs | apply onLinkPage_safe | apply lkRegCtrlWrite_safe

theorem execMirrorReceive_runs (h : Safe b s) (l m) : Runs b (execMirrorReceive l m s) := by
  unfold execMirrorReceive
  repeat' with_reducible first
      | intro _ | assumption | apply onMsg_safe | apply mirror_safe | apply mirrorTake_safe | apply runs_next
      | apply runs_ite | apply ite_safe

theorem execPowerInputRise_runs (h : Safe b s) (vin) : Runs b (execPowerInputRise vin s) := by
  unfold execPowerInputRise
  repeat' with_reducible first
      | intro _ | assumption | apply showVin_safe | apply powerOnReset_safe | apply runs_next | apply runs_ite

theorem execPowerUndervoltage_runs (h : Safe b s) (vin) : Runs b (execPowerUndervoltage vin s) := by
  unfold execPowerUndervoltage
  repeat' with_reducible first | intro _ | assumption | apply powerOff_safe | apply runs_next | apply runs_ite

theorem execPowerOvervoltage_runs (h : Safe b s) (vin) : Runs b (execPowerOvervoltage vin s) := by
  unfold execPowerOvervoltage
  repeat' with_reducible first | intro _ | assumption | apply powerOff_safe | apply runs_next | apply runs_ite

theorem execPwrWarn_runs (h : Safe b s) (vin pin pkg aux) : Runs b (execPwrWarn vin pin pkg aux s) := by
  unfold execPwrWarn
  repeat' first
      | (with_reducible first | intro _ | assumption | apply runs_next | apply runs_ite | apply ite_safe)
      | refine modHub_safe ?_ _ rfl | refine setCause_safe ?_ _ _ _ (by simp [causesOf])

theorem execPowerInterruption_runs (h : Safe b s) : Runs b (execPowerInterruption s) := by
  have hleft := foldl_safe (fun _ l hs => linkLeave_safe hs l) (l := s.activeLinks .hub) h
  unfold execPowerInterruption
  dsimp only
  generalize List.foldl linkLeave s _ = u at hleft ⊢
  exact runs_ite (runs_next h) (runs_next (updReady_safe (modHub_sh_safe hleft _ (fun hb => hb) (.of_eq rfl rfl rfl) (fun
      ht => ht) rfl)))

theorem execThermWarn_runs (h : Safe b s) (tj inlet) : Runs b (execThermWarn tj inlet s) := by
  unfold execThermWarn
  repeat' first
      | (with_reducible first | intro _ | assumption | apply runs_next | apply runs_ite | apply ite_safe)
      | refine modHub_safe ?_ _ rfl | refine setCause_safe ?_ _ _ _ (by simp [causesOf])

theorem execThermalTrip_runs (h : Safe b s) (tj inlet sec) : Runs b (execThermalTrip tj inlet sec s) := by
  unfold execThermalTrip
  repeat' with_reducible first | intro _ | assumption | apply powerOff_safe | apply runs_next | apply runs_ite

theorem execBootRomStart_runs (h : Safe b s) : Runs b (execBootRomStart s) := by
  unfold execBootRomStart
  repeat' first
      | (with_reducible first
          | intro _ | assumption | apply romBoot_safe | apply runSlot_safe | apply runs_next | apply runs_ite
          | apply ite_safe)
      | refine modHub_safe ?_ _ rfl | split

theorem execBootDone_runs (h : Safe b s) (ms) : Runs b (execBootDone ms s) := by
  unfold execBootDone
  repeat' first
      | (with_reducible first
          | intro _ | assumption | apply updReady_safe | apply runs_next | apply runs_ite | apply ite_safe)
      | refine modHub_safe ?_ _ rfl

theorem execModRstN_runs (h : Safe b s) (ns low) : Runs b (execModRstN ns low s) := by
  unfold execModRstN
  repeat' first
      | (with_reducible first
          | intro _ | assumption | apply coldReset_safe | apply runs_next | apply runs_ite | apply ite_safe)
      | refine modHub_safe ?_ _ rfl

theorem execModResetCold_runs (h : Safe b s) (i data) : Runs b (execModResetCold i data s) := by
  unfold execModResetCold
  repeat' with_reducible first | intro _ | assumption | apply ackMod_runs | apply modResetWrite_safe

theorem execModResetWarm_runs (h : Safe b s) (i data) : Runs b (execModResetWarm i data s) := by
  unfold execModResetWarm
  repeat' with_reducible first | intro _ | assumption | apply ackMod_runs | apply modResetWrite_safe

theorem execModResetMc_runs (h : Safe b s) (i data) : Runs b (execModResetMc i data s) := by
  unfold execModResetMc
  repeat' with_reducible first | intro _ | assumption | apply ackMod_runs | apply modResetWrite_safe

theorem execPerst_runs (h : Safe b s) : Runs b (execPerst s) := by
  have hiface := resetIface_safe h .pcie
  unfold execPerst
  generalize resetIface s .pcie = u at hiface ⊢
  exact runs_next (modHub_of_safe hiface _ (fun ⟨hhq, hqueue, hbody, _⟩ => ⟨hhq, hqueue, hbody, rfl⟩) (.of_eq rfl rfl rfl) rfl)

theorem execTrst_runs (h : Safe b s) : Runs b (execTrst s) := by
  have hiface := resetIface_safe h .jtag
  unfold execTrst
  generalize resetIface s .jtag = u at hiface ⊢
  exact runs_next (modHub_safe hiface _ rfl)

theorem execJtagBypass_runs (h : Safe b s) : Runs b (execJtagBypass s) := by
  unfold execJtagBypass
  repeat' with_reducible first | intro _ | assumption | apply emit_safe | apply setIr_safe | apply runs_next

theorem execJtagSamplePreload_runs (h : Safe b s) (pins load) : Runs b (execJtagSamplePreload pins load s) := by
  unfold execJtagSamplePreload
  repeat' first
      | (with_reducible first | intro _ | assumption | apply emit_safe | apply setIr_safe | apply runs_next)
      | refine modHub_safe ?_ _ rfl

theorem execJtagIdcode_runs (h : Safe b s) : Runs b (execJtagIdcode s) := by
  unfold execJtagIdcode
  repeat' with_reducible first | intro _ | assumption | apply emit_safe | apply setIr_safe | apply runs_next

theorem execJtagExtest_runs (h : Safe b s) (pins load) : Runs b (execJtagExtest pins load s) := by
  unfold execJtagExtest
  repeat' first
      | (with_reducible first
          | intro _ | assumption | apply emit_safe | apply setIr_safe | apply runs_next | apply runs_ite | apply ite_safe)
      | refine modHub_safe ?_ _ rfl

theorem execJtagRegacc_runs (h : Safe b s) (debugEn data) : Runs b (execJtagRegacc debugEn data s) := by
  unfold execJtagRegacc
  repeat' first
      | (with_reducible first
          | intro _ | assumption | apply emit_safe | apply setIr_safe | apply writeAt_safe | apply refuse_safe
          | apply readAt_safe | apply runs_next | apply runs_ite | apply ite_safe)
      | refine modHub_safe ?_ _ rfl

theorem execFwHeader_runs (h : Safe b s) (i data) : Runs b (execFwHeader i data s) := by
  unfold execFwHeader
  repeat' with_reducible first | intro _ | assumption | apply ackFw_runs | apply fwCtrlWrite_safe

theorem execFwBlock_runs (h : Safe b s) (i data) : Runs b (execFwBlock i data s) := by
  unfold execFwBlock
  repeat' with_reducible first | intro _ | assumption | apply ackFw_runs | apply fwCtrlWrite_safe

theorem execFwApplyDone_runs (h : Safe b s) : Runs b (execFwApplyDone s) := by
  unfold execFwApplyDone
  refine runs_ite (runs_next h) ?_
  split
  · exact runs_next h
  next t _ =>
  split
  · exact runs_next (rejectImage_safe h _ _)
  refine runs_ite (runs_next (rejectImage_safe h _ _)) (runs_next (setCause_safe ?_ _ _ _ (by simp [causesOf])))
  refine modFw_safe ?_ _ fun _ => rfl
  have hstored : ∀ f, Once s.hub (modSlotOf { s.hub with transfer := none } t.slot f) := fun f => by
    cases t.slot <;> exact .of_eq rfl rfl rfl
  refine modHub_of_safe (fresh_safe h) _ ?_ (setSlotState_once (hstored _) _ _) ?_ <;> cases t.slot
  · exact fun hb => hb
  · exact fun hb => hb
  · rfl
  · rfl

theorem execFwAbort_runs (h : Safe b s) (i data) : Runs b (execFwAbort i data s) := by
  unfold execFwAbort
  repeat' with_reducible first | intro _ | assumption | apply ackFw_runs | apply fwCtrlWrite_safe

theorem execFwActivate_runs (h : Safe b s) (i data twinVer twinState) :
    Runs b (execFwActivate i data twinVer twinState s) := by
  unfold execFwActivate
  repeat' with_reducible first | intro _ | assumption | apply ackFw_runs | apply fwCtrlWrite_safe

theorem foldl_bytes_lt (bs : List (BitVec 8)) (acc : Nat) :
    bs.foldl (fun n b => n * 256 + b.toNat) acc < (acc + 1) * 256 ^ bs.length := by
  induction bs generalizing acc with
  | nil => exact Nat.lt_of_lt_of_eq acc.lt_succ_self (Nat.mul_one _).symm
  | cons b bs ih =>
    have hb : acc * 256 + b.toNat + 1 ≤ (acc + 1) * 256 := by have := b.isLt; omega
    calc bs.foldl (fun n b => n * 256 + b.toNat) (acc * 256 + b.toNat)
        < (acc * 256 + b.toNat + 1) * 256 ^ bs.length := ih _
      _ ≤ (acc + 1) * 256 * 256 ^ bs.length := Nat.mul_le_mul_right _ hb
      _ = (acc + 1) * 256 ^ (bs.length + 1) := by rw [Nat.mul_assoc, Nat.pow_succ']

theorem bytesToNat_lt (bs : List (BitVec 8)) : bytesToNat bs < 256 ^ bs.length :=
  Nat.lt_of_lt_of_eq (foldl_bytes_lt bs 0) (Nat.one_mul _)

theorem bytesAt_lt (bs : List (BitVec 8)) (off n : Nat) : bytesAt bs off n < 256 ^ n :=
  Nat.lt_of_lt_of_le (bytesToNat_lt _) (Nat.pow_le_pow_right (by decide) (by
    simp only [padTo, List.length_append, List.length_replicate]
    have := List.length_take_le n (bs.drop off)
    omega))

theorem execFwConfirm_runs (h : Safe b s) : Runs b (execFwConfirm s) := by
  unfold execFwConfirm
  split
  · exact runs_next h
  next k _ =>
  have hstored : ∀ f, Once s.hub (modSlotOf s.hub k f) := fun f => by cases k <;> exact .of_eq rfl rfl rfl
  refine runs_next (setRunning_safe (modFw_of_safe (modHub_of_safe h _ ?_ (setSlotState_once (hstored _) _ _) ?_) _ ?_) _)
  · cases k <;> exact fun hb => hb
  · cases k <;> rfl
  · refine fun f => ⟨?_, fun _ hk => hk⟩
    dsimp only
    split
    · next hlt =>
      have hsize : hdrN (slotOf s.hub k).hdr 0x01C 4 < 2 ^ 32 := bytesAt_lt _ _ 4
      rw [BitVec.toNat_ofNat, Nat.mod_eq_of_lt hsize]
      exact Nat.le_of_lt hlt
    · exact Nat.le_refl _

theorem execFwTrialTimeout_runs (h : Safe b s) : Runs b (execFwTrialTimeout s) := by
  unfold execFwTrialTimeout
  repeat' first | (with_reducible first | intro _ | assumption | apply mcReset_safe | apply runs_next) | split

theorem execFwRecover_runs (h : Safe b s) (i data) : Runs b (execFwRecover i data s) := by
  unfold execFwRecover
  repeat' with_reducible first | intro _ | assumption | apply ackFw_runs | apply fwCtrlWrite_safe

theorem execFwRevoke_runs (h : Safe b s) (i data) : Runs b (execFwRevoke i data s) := by
  unfold execFwRevoke
  repeat' with_reducible first | intro _ | assumption | apply ackFw_runs | apply fwCtrlWrite_safe

theorem execErrClr_runs (h : Safe b s) (i page data) : Runs b (execErrClr i page data s) := by
  unfold execErrClr
  repeat' with_reducible first | intro _ | assumption | apply rowWrite_runs

theorem execIntForce_runs (h : Safe b s) (i page data) : Runs b (execIntForce i page data s) := by
  unfold execIntForce
  repeat' with_reducible first | intro _ | assumption | apply rowWrite_runs

theorem execPageIntStatusWrite_runs (h : Safe b s) (i page data) : Runs b (execPageIntStatusWrite i page data s) := by
  unfold execPageIntStatusWrite
  repeat' with_reducible first | intro _ | assumption | apply rowWrite_runs

theorem execPageIntEnableWrite_runs (h : Safe b s) (i page data) : Runs b (execPageIntEnableWrite i page data s) := by
  unfold execPageIntEnableWrite
  repeat' with_reducible first | intro _ | assumption | apply rowWrite_runs

theorem execPcieAccess_runs (h : Safe b s) (x) : Runs b (execPcieAccess x s) := by
  unfold execPcieAccess
  refine runs_ite (runs_next h) (runs_next ?_)
  cases x with
  | read0 a n => exact bar0Read_safe h _ _
  | write0 a bs => exact bar0Write_safe h _ _
  | read2 a n => exact emit_safe h _
  | write2 a bs =>
    refine modHub_of_safe h _ ?_ (.of_eq rfl rfl rfl) rfl
    exact fun ⟨hhq, hqueue, hbody, hbar2⟩ => ⟨hhq, hqueue, hbody, twf_mailbox _ _ hbar2⟩
  | msixControl e => exact modHub_safe h _ rfl

theorem execIntEoi_runs (h : Safe b s) (i data) : Runs b (execIntEoi i data s) := by
  unfold execIntEoi
  repeat' with_reducible first | intro _ | assumption | apply ackWrite_runs | apply eoiWrite_safe

theorem execMsixUnmask_runs (h : Safe b s) (v) : Runs b (execMsixUnmask v s) := by
  unfold execMsixUnmask
  repeat' with_reducible first
      | intro _ | assumption | apply refuse_safe | apply msixUnmask_safe | apply runs_next | apply runs_ite

theorem execHubAddrWrite_runs (h : Safe b s) (i data) : Runs b (execHubAddrWrite i data s) := by
  unfold execHubAddrWrite
  repeat' with_reducible first | intro _ | assumption | apply ackWrite_runs | apply hubAddrWrite_safe

theorem execMgmtConfigWrite_runs (h : Safe b s) (i which data) : Runs b (execMgmtConfigWrite i which data s) := by
  unfold execMgmtConfigWrite
  repeat' with_reducible first | intro _ | assumption | apply ackWrite_runs | apply mgmtWrite_safe

theorem execArpReceive_runs (h : Safe b s) (target sender mac) : Runs b (execArpReceive target sender mac s) := by
  unfold execArpReceive
  repeat' with_reducible first
      | intro _ | assumption | apply emit_safe | apply mgDrop_safe | apply runs_next | apply runs_ite | apply ite_safe

theorem execIcmpEchoReceive_runs (h : Safe b s) (dst src data) : Runs b (execIcmpEchoReceive dst src data s) := by
  unfold execIcmpEchoReceive
  repeat' first
      | (with_reducible first
          | intro _ | assumption | apply mgDrop_safe | apply emit_safe | apply runs_next | apply runs_ite | apply ite_safe)
      | refine modHub_safe ?_ _ rfl

theorem execRegisterQuery_runs (h : Safe b s) (ip src dst data) : Runs b (execRegisterQuery ip src dst data s) := by
  unfold execRegisterQuery
  repeat' with_reducible first
      | intro _ | assumption | apply mgDrop_safe | apply modEvh_safe | apply queryAnswers_safe | apply udpSend_safe
      | apply runs_next | apply runs_ite

theorem execHbmUncorrectableRead_runs (h : Safe b s) (channel addr region) :
    Runs b (execHbmUncorrectableRead channel addr region s) := by
  unfold execHbmUncorrectableRead
  dsimp only
  generalize hu : setCause (modHub s _) .hub (.memc channel) 0 = u
  have hcounted : Safe b u := hu ▸ setCause_safe (modHub_safe h _ rfl) _ _ _ (by simp [causesOf])
  refine runs_next ?_
  split
  · exact foldl_safe (fun _ _ hs => spillLost_safe hs _ _ _ _) hcounted
  · exact hcounted
  all_goals
    split
    · exact modHub_of_safe hcounted _ (fun ⟨hhq, hqueue, hbody, hbar2⟩ => ⟨hhq, hqueue, hbody, hbar2⟩) (.of_eq rfl rfl rfl) rfl
    · exact hcounted

theorem execTwinFetchTimeout_runs (h : Safe b s) (job) : Runs b (execTwinFetchTimeout job s) :=
  runs_ite (runs_next h) (runs_ite (runs_next (poison_safe (fresh_safe h) _ _ _ _)) (runs_next (sendTwin_safe (fresh_safe
      h) _ _)))

theorem execLinkSignalDetect_runs (h : Safe b s) (l) : Runs b (execLinkSignalDetect l s) := by
  unfold execLinkSignalDetect
  repeat' with_reducible first
      | intro _ | assumption | apply modLinkRegs_safe | apply runs_next | apply runs_ite | apply ite_safe

theorem execRegionLongCycle_runs (h : Safe b s) (y) : Runs b (execRegionLongCycle y s) := by
  unfold execRegionLongCycle
  repeat' with_reducible first | intro _ | assumption | apply modTap_safe | apply runs_next

theorem execPerstRelease_runs (h : Safe b s) : Runs b (execPerstRelease s) := by
  unfold execPerstRelease
  repeat' first | (with_reducible first | intro _ | assumption | apply runs_next) | refine modHub_safe ?_ _ rfl

theorem execMgmtLinkStateChange_runs (h : Safe b s) (up) : Runs b (execMgmtLinkStateChange up s) := by
  unfold execMgmtLinkStateChange
  repeat' first | (with_reducible first | intro _ | assumption | apply runs_next) | refine modHub_safe ?_ _ rfl

end Sys2Proof.Machine
end

section
/-! Every instruction runs, and what every step keeps. -/

namespace Sys2Proof.Machine

variable {b s t : State}

/-- Each instruction of the table, by the lemma about its meaning. -/
theorem exec_runs (h : Safe b s) : ∀ c, Runs b (exec c s)
  | .registerWrite .. => execRegisterWrite_runs h _ _ _
  | .registerReadClear .. => execRegisterReadClear_runs h _ _
  | .portRoleWrite .. => execPortRoleWrite_runs h _ _ _
  | .edgeTranslate .. => execEdgeTranslate_runs h _ _ _ _
  | .islandCycle .. => execIslandCycle_runs h _
  | .scheduledActionFire .. => execScheduledActionFire_runs h _
  | .islandLock .. => execIslandLock_runs h _
  | .islandLockLoss .. => execIslandLockLoss_runs h _
  | .hallEpochWrite .. => execHallEpochWrite_runs h _ _
  | .epochRevalid => execEpochRevalid_runs h
  | .nowLoRead .. => execNowLoRead_runs h _
  | .stampEdge .. => execStampEdge_runs h _ _
  | .conversionDone .. => execConversionDone_runs h _ _ _
  | .lockGateEnd .. => execLockGateEnd_runs h _ _ _ _
  | .calNow .. => execCalNow_runs h _ _
  | .clusterCalPeriod .. => execClusterCalPeriod_runs h _
  | .clusterCalDone .. => execClusterCalDone_runs h _ _ _
  | .emuStart .. => execEmuStart_runs h _ _ _
  | .emuAbort .. => execEmuAbort_runs h _ _ _
  | .emuIntervalTimeout .. => execEmuIntervalTimeout_runs h _ _
  | .emuSetDone .. => execEmuSetDone_runs h _ _
  | .emuMeanRead .. => execEmuMeanRead_runs h _ _
  | .emuLastTickRead .. => execEmuLastTickRead_runs h _ _
  | .syncOrigin .. => execSyncOrigin_runs h _
  | .syncReceive .. => execSyncReceive_runs h _ _
  | .syncFuReceive .. => execSyncFuReceive_runs h _ _
  | .syncFuForward .. => execSyncFuForward_runs h _ _ _
  | .fuTimeout .. => execFuTimeout_runs h _ _
  | .dreqSend .. => execDreqSend_runs h _
  | .dreqReceive .. => execDreqReceive_runs h _ _
  | .drespFuSend .. => execDrespFuSend_runs h _ _
  | .drespReceive .. => execDrespReceive_runs h _ _
  | .drespFuReceive .. => execDrespFuReceive_runs h _ _
  | .delayRestart .. => execDelayRestart_runs h _
  | .announceSend => execAnnounceSend_runs h
  | .announceReceive .. => execAnnounceReceive_runs h _ _
  | .laneCalPeriod .. => execLaneCalPeriod_runs h _ _
  | .ptCalNow .. => execPtCalNow_runs h _ _ _
  | .laneCalDone .. => execLaneCalDone_runs h _ _ _ _ _ _ _
  | .ptProbeWrite .. => execPtProbeWrite_runs h _ _ _
  | .probeReceive .. => execProbeReceive_runs h _ _
  | .probeEchoReceive .. => execProbeEchoReceive_runs h _ _
  | .ptTsqHeadRead .. => execPtTsqHeadRead_runs h _ _
  | .holdoverEnter .. => execHoldoverEnter_runs h _
  | .holdLimitExpire .. => execHoldLimitExpire_runs h _
  | .offsetGateRun .. => execOffsetGateRun_runs h _
  | .servoModeAuto .. => execServoModeAuto_runs h _ _
  | .servoModeFreeze .. => execServoModeFreeze_runs h _ _
  | .servoModeManual .. => execServoModeManual_runs h _ _
  | .reacquire .. => execReacquire_runs h _ _
  | .candidateAnnounceSend .. => execCandidateAnnounceSend_runs h _
  | .masterElect => execMasterElect_runs h
  | .masterHandover .. => execMasterHandover_runs h _ _
  | .handoverAuto => execHandoverAuto_runs h
  | .handoverTickReached => execHandoverTickReached_runs h
  | .masterLossDetect => execMasterLossDetect_runs h
  | .masterTakeover => execMasterTakeover_runs h
  | .ppsEdge .. => execPpsEdge_runs h _ _ _
  | .f10mSample .. => execF10mSample_runs h _ _
  | .refTodWrite .. => execRefTodWrite_runs h _ _
  | .refAlign .. => execRefAlign_runs h _ _
  | .refLoss => execRefLoss_runs h
  | .refHoldExpire => execRefHoldExpire_runs h
  | .referenceOutputEdge .. => execReferenceOutputEdge_runs h _ _
  | .ptpAnnounceReceive .. => execPtpAnnounceReceive_runs h _ _ _ _ _ _
  | .ptpSyncReceive .. => execPtpSyncReceive_runs h _ _ _ _ _
  | .ptpFollowUpReceive .. => execPtpFollowUpReceive_runs h _ _ _ _
  | .ptpDelayReqSend .. => execPtpDelayReqSend_runs h _
  | .ptpDelayRespReceive .. => execPtpDelayRespReceive_runs h _ _ _ _
  | .tsuReset => execTsuReset_runs h
  | .tsuResetRelease .. => execTsuResetRelease_runs h _ _ _
  | .hostPortReset => execHostPortReset_runs h
  | .hostPortRequest .. => execHostPortRequest_runs h _ _ _ _
  | .hostPortResponse => execHostPortResponse_runs h
  | .eventInputEdge .. => execEventInputEdge_runs h _ _
  | .triggerPulseStart .. => execTriggerPulseStart_runs h _
  | .triggerPulseEnd .. => execTriggerPulseEnd_runs h _
  | .wcIssuedBeat .. => execWcIssuedBeat_runs h _ _
  | .wcDoneBeat .. => execWcDoneBeat_runs h _ _
  | .ingressBeat .. => execIngressBeat_runs h _ _
  | .rootTimeFrameSend => execRootTimeFrameSend_runs h
  | .tapDllLock .. => execTapDllLock_runs h _
  | .strobeLoss .. => execStrobeLoss_runs h _
  | .tapIdleFrame .. => execTapIdleFrame_runs h _ _
  | .tapTimeFrame .. => execTapTimeFrame_runs h _ _ _
  | .tapFrameDropRun .. => execTapFrameDropRun_runs h _
  | .tapLaunchFrame .. => execTapLaunchFrame_runs h _ _ _
  | .tapCancelFrame .. => execTapCancelFrame_runs h _ _
  | .tapCfgFrame .. => execTapCfgFrame_runs h _ _
  | .tapNbTestFrame .. => execTapNbTestFrame_runs h _ _
  | .rootHeldLaunchSend .. => execRootHeldLaunchSend_runs h _
  | .launchHoldExpire .. => execLaunchHoldExpire_runs h _
  | .tapArm .. => execTapArm_runs h _ _
  | .tapLaunchEdge .. => execTapLaunchEdge_runs h _ _ _
  | .stretchIndicationRise .. => execStretchIndicationRise_runs h _
  | .stretchIndicationFall .. => execStretchIndicationFall_runs h _ _ _
  | .holdExtExpire .. => execHoldExtExpire_runs h _
  | .neighbourNoticeRise .. => execNeighbourNoticeRise_runs h _ _
  | .neighbourNoticeFall .. => execNeighbourNoticeFall_runs h _ _
  | .pnomMeasured .. => execPnomMeasured_runs h _ _
  | .nbCheck .. => execNbCheck_runs h _ _
  | .nbTestNoticeSeen .. => execNbTestNoticeSeen_runs h _ _ _
  | .nbCheckDone => execNbCheckDone_runs h
  | .fcRequest .. => execFcRequest_runs h _ _
  | .fcAckDeferEnd .. => execFcAckDeferEnd_runs h _
  | .fcRequestDrop .. => execFcRequestDrop_runs h _
  | .fcStopOverrun .. => execFcStopOverrun_runs h _
  | .regionStop .. => execRegionStop_runs h _
  | .regionFreqWindow .. => execRegionFreqWindow_runs h _ _ _
  | .tapSilent .. => execTapSilent_runs h _
  | .replicaWindowEnd .. => execReplicaWindowEnd_runs h _ _
  | .tapReportSend .. => execTapReportSend_runs h _
  | .heartbeatReport .. => execHeartbeatReport_runs h _ _
  | .launchedReport .. => execLaunchedReport_runs h _ _
  | .slackReport .. => execSlackReport_runs h _ _
  | .overrunReport .. => execOverrunReport_runs h _ _
  | .fcReport .. => execFcReport_runs h _ _
  | .marginReport .. => execMarginReport_runs h _ _
  | .refLossReport .. => execRefLossReport_runs h _ _
  | .cfgAckReport .. => execCfgAckReport_runs h _ _
  | .nbSeenReport .. => execNbSeenReport_runs h _ _
  | .tapRegisterWrite .. => execTapRegisterWrite_runs h _ _ _
  | .tapLaunchRead .. => execTapLaunchRead_runs h _
  | .soCfgWrite .. => execSoCfgWrite_runs h _ _
  | .soOpArrive .. => execSoOpArrive_runs h _ _
  | .soOpAdd .. => execSoOpAdd_runs h _ _
  | .soOpSet .. => execSoOpSet_runs h _ _
  | .soOpClear .. => execSoOpClear_runs h _ _
  | .soOpSend .. => execSoOpSend_runs h _ _
  | .soOpOpenWindow .. => execSoOpOpenWindow_runs h _ _
  | .arriveReceive .. => execArriveReceive_runs h _ _ _ _
  | .arrivePartialForward .. => execArrivePartialForward_runs h _ _ _ _
  | .barrierPartialFold .. => execBarrierPartialFold_runs h _ _ _ _
  | .twinReleaseReceive .. => execTwinReleaseReceive_runs h _ _
  | .releaseReplicate .. => execReleaseReplicate_runs h _ _
  | .releaseReceive .. => execReleaseReceive_runs h _ _
  | .timedReleaseComplete .. => execTimedReleaseComplete_runs h _
  | .sendFenceMet => execSendFenceMet_runs h
  | .sendQueueSpace => execSendQueueSpace_runs h
  | .sendTimeout .. => execSendTimeout_runs h _
  | .signalReceive .. => execSignalReceive_runs h _ _
  | .signalTakeEffect => execSignalTakeEffect_runs h
  | .waitArm .. => execWaitArm_runs h _ _
  | .waitCancel .. => execWaitCancel_runs h _ _
  | .waitComplete .. => execWaitComplete_runs h _
  | .flagAutoclr .. => execFlagAutoclr_runs h _
  | .waitTimeout .. => execWaitTimeout_runs h _
  | .soValWrite .. => execSoValWrite_runs h _ _
  | .soGenWrite .. => execSoGenWrite_runs h _ _
  | .winProgressWrite .. => execWinProgressWrite_runs h _ _
  | .shGenWrite .. => execShGenWrite_runs h _ _
  | .shCountWrite .. => execShCountWrite_runs h _ _
  | .releaseLeadNsWrite .. => execReleaseLeadNsWrite_runs h _ _
  | .launchGuardMiss => execLaunchGuardMiss_runs h
  | .jobLaunch .. => execJobLaunch_runs h _
  | .stepLaunch => execStepLaunch_runs h
  | .stepReleaseReceive .. => execStepReleaseReceive_runs h _ _
  | .trigModeWrite .. => execTrigModeWrite_runs h _ _
  | .trigParamWrite .. => execTrigParamWrite_runs h _ _ _
  | .trigOneshotWrite .. => execTrigOneshotWrite_runs h _ _
  | .latenessSetEnd .. => execLatenessSetEnd_runs h _ _
  | .latenessBlockEnd .. => execLatenessBlockEnd_runs h _ _
  | .ltCfgWrite .. => execLtCfgWrite_runs h _ _
  | .ltMeanRead .. => execLtMeanRead_runs h _
  | .progBegin .. => execProgBegin_runs h _ _
  | .progCommit .. => execProgCommit_runs h _ _
  | .progDataWrite .. => execProgDataWrite_runs h _ _
  | .progAddrWrite .. => execProgAddrWrite_runs h _ _
  | .progCheckDone .. => execProgCheckDone_runs h _
  | .homePassStart .. => execHomePassStart_runs h _
  | .nop .. => execNop_runs h _
  | .endPass .. => execEndPass_runs h _
  | .jmp .. => execJmp_runs h _
  | .br .. => execBr_runs h _
  | .loop .. => execLoop_runs h _
  | .ldi .. => execLdi_runs h _
  | .ldhi .. => execLdhi_runs h _
  | .alu .. => execAlu_runs h _
  | .ldstep .. => execLdstep_runs h _
  | .ldrank .. => execLdrank_runs h _
  | .whisk .. => execWhisk_runs h _
  | .ldtime .. => execLdtime_runs h _
  | .ldlaunch .. => execLdlaunch_runs h _
  | .ldevt .. => execLdevt_runs h _
  | .ldso .. => execLdso_runs h _
  | .ldbuf .. => execLdbuf_runs h _
  | .stbuf .. => execStbuf_runs h _
  | .arrive .. => execArrive_runs h _
  | .soadd .. => execSoadd_runs h _
  | .soset .. => execSoset_runs h _
  | .soclr .. => execSoclr_runs h _
  | .openwin .. => execOpenwin_runs h _
  | .fence .. => execFence_runs h _
  | .fenceComplete => execFenceComplete_runs h
  | .send .. => execSend_runs h _
  | .wait .. => execWait_runs h _
  | .waitevt .. => execWaitevt_runs h _
  | .waitevtComplete => execWaitevtComplete_runs h
  | .waittick .. => execWaittick_runs h _
  | .waittickComplete => execWaittickComplete_runs h
  | .trig .. => execTrig_runs h _
  | .stepend .. => execStepend_runs h _
  | .contrib .. => execContrib_runs h _
  | .result .. => execResult_runs h _
  | .resultComplete => execResultComplete_runs h
  | .resultx .. => execResultx_runs h _
  | .digest .. => execDigest_runs h _
  | .hwait .. => execHwait_runs h _
  | .hwaitComplete .. => execHwaitComplete_runs h _
  | .finish .. => execFinish_runs h _ _
  | .hrelease .. => execHrelease_runs h _ _
  | .hdigest .. => execHdigest_runs h _
  | .hdigestFoldsComplete .. => execHdigestFoldsComplete_runs h _
  | .twinCloseReceive .. => execTwinCloseReceive_runs h _ _ _
  | .twinCloseTimeout .. => execTwinCloseTimeout_runs h _
  | .xbufHostWrite .. => execXbufHostWrite_runs h _ _ _
  | .resultFlitReceive .. => execResultFlitReceive_runs h _ _
  | .contribReceive .. => execContribReceive_runs h _ _ _ _ _
  | .partialReceive .. => execPartialReceive_runs h _ _ _ _ _
  | .homeContribFold .. => execHomeContribFold_runs h _ _ _ _ _
  | .refuseReceive .. => execRefuseReceive_runs h _ _
  | .rereqReceive .. => execRereqReceive_runs h _ _
  | .resultRerequestTimer => execResultRerequestTimer_runs h
  | .twinRresCompare .. => execTwinRresCompare_runs h _ _
  | .dgpReceive .. => execDgpReceive_runs h _ _ _ _
  | .vmapReceive .. => execVmapReceive_runs h _ _ _ _
  | .checkReceive .. => execCheckReceive_runs h _ _ _ _
  | .stepPoisonReceive .. => execStepPoisonReceive_runs h _ _
  | .audTailWrite .. => execAudTailWrite_runs h _ _
  | .audCfgWrite .. => execAudCfgWrite_runs h _ _
  | .audCtrlWrite .. => execAudCtrlWrite_runs h _ _
  | .audRd0Read .. => execAudRd0Read_runs h _
  | .auditExportSend => execAuditExportSend_runs h
  | .vrecReceive .. => execVrecReceive_runs h _ _ _ _
  | .rqPush .. => execRqPush_runs h _ _
  | .rqFlush .. => execRqFlush_runs h _ _
  | .hqPush .. => execHqPush_runs h _ _
  | .replayWaitServed .. => execReplayWaitServed_runs h _
  | .rlTailWrite .. => execRlTailWrite_runs h _ _
  | .rlRd0Read .. => execRlRd0Read_runs h _
  | .detFwWrite .. => execDetFwWrite_runs h _ _ _
  | .coalesceWindowEnd .. => execCoalesceWindowEnd_runs h _
  | .evrecReceive .. => execEvrecReceive_runs h _ _ _ _
  | .eventExportSend => execEventExportSend_runs h
  | .eventRerequestReceive .. => execEventRerequestReceive_runs h _ _ _
  | .eqW0Read .. => execEqW0Read_runs h _
  | .evRd0Read .. => execEvRd0Read_runs h _
  | .historyAppend => execHistoryAppend_runs h
  | .katRunDone .. => execKatRunDone_runs h _ _
  | .rotationStart => execRotationStart_runs h
  | .rotNow .. => execRotNow_runs h _ _
  | .shadowEnd .. => execShadowEnd_runs h _
  | .dackReceive .. => execDackReceive_runs h _ _
  | .twinHeartbeatSend => execTwinHeartbeatSend_runs h
  | .heartbeatReceive .. => execHeartbeatReceive_runs h _ _
  | .leadTakeover => execLeadTakeover_runs h
  | .shadowCopyDone => execShadowCopyDone_runs h
  | .tsuHeartbeatSend => execTsuHeartbeatSend_runs h
  | .heartbeatLoss .. => execHeartbeatLoss_runs h _
  | .arrivalTimeout .. => execArrivalTimeout_runs h _ _
  | .txnSubmit .. => execTxnSubmit_runs h _ _
  | .txnAppend .. => execTxnAppend_runs h _ _
  | .txnCancel .. => execTxnCancel_runs h _ _
  | .txnResetBody .. => execTxnResetBody_runs h _ _
  | .txnLockTake .. => execTxnLockTake_runs h _
  | .prepareReceive .. => execPrepareReceive_runs h _ _
  | .deferredVote .. => execDeferredVote_runs h _ _
  | .voteReceive .. => execVoteReceive_runs h _ _ _ _
  | .voteTimeout .. => execVoteTimeout_runs h _
  | .commitReceive .. => execCommitReceive_runs h _ _
  | .txnCommitApply .. => execTxnCommitApply_runs h _ _
  | .noCommit .. => execNoCommit_runs h _ _
  | .abortReceive .. => execAbortReceive_runs h _ _
  | .doneReceive .. => execDoneReceive_runs h _ _ _
  | .txnReportTimeout .. => execTxnReportTimeout_runs h _
  | .graceEnd .. => execGraceEnd_runs h _ _
  | .pauseMarkReceive .. => execPauseMarkReceive_runs h _ _
  | .pauseReplySend => execPauseReplySend_runs h
  | .pauseReplyReceive .. => execPauseReplyReceive_runs h _ _
  | .drainDone .. => execDrainDone_runs h _ _
  | .abortCmd .. => execAbortCmd_runs h _ _
  | .jobAbortReceive .. => execJobAbortReceive_runs h _ _
  | .abortAckReceive .. => execAbortAckReceive_runs h _ _ _
  | .reportReceive .. => execReportReceive_runs h _ _
  | .codewordReceive .. => execCodewordReceive_runs h _ _ _ _ _ _
  | .lackReceive .. => execLackReceive_runs h _ _
  | .lnakReceive .. => execLnakReceive_runs h _ _
  | .retryStall .. => execRetryStall_runs h _
  | .creditReceive .. => execCreditReceive_runs h _ _
  | .notReadySend .. => execNotReadySend_runs h _
  | .notReadyReceive .. => execNotReadyReceive_runs h _ _
  | .laneLockLoss .. => execLaneLockLoss_runs h _ _ _
  | .serLimitExceeded .. => execSerLimitExceeded_runs h _ _ _
  | .remapNow .. => execRemapNow_runs h _ _ _
  | .remapReqReceive .. => execRemapReqReceive_runs h _ _
  | .remapAckReceive .. => execRemapAckReceive_runs h _ _
  | .remapAtReceive .. => execRemapAtReceive_runs h _ _
  | .spwAckRise .. => execSpwAckRise_runs h _ _
  | .spareClean .. => execSpareClean_runs h _ _ _
  | .remapSwitch .. => execRemapSwitch_runs h _ _ _
  | .spwTimeout .. => execSpwTimeout_runs h _ _
  | .portAdmit .. => execPortAdmit_runs h _
  | .trainComplete .. => execTrainComplete_runs h _
  | .trainTimeout .. => execTrainTimeout_runs h _
  | .alignComplete .. => execAlignComplete_runs h _
  | .helloReceive .. => execHelloReceive_runs h _ _
  | .lkRetrain .. => execLkRetrain_runs h _ _ _
  | .linkLeaveService .. => execLinkLeaveService_runs h _
  | .regRdReceive .. => execRegRdReceive_runs h _ _
  | .regWrReceive .. => execRegWrReceive_runs h _ _
  | .regRspReceive .. => execRegRspReceive_runs h _ _
  | .lkRegGo .. => execLkRegGo_runs h _ _ _
  | .mirrorReceive .. => execMirrorReceive_runs h _ _
  | .powerInputRise .. => execPowerInputRise_runs h _
  | .powerUndervoltage .. => execPowerUndervoltage_runs h _
  | .powerOvervoltage .. => execPowerOvervoltage_runs h _
  | .pwrWarn .. => execPwrWarn_runs h _ _ _ _
  | .powerInterruption => execPowerInterruption_runs h
  | .thermWarn .. => execThermWarn_runs h _ _
  | .thermalTrip .. => execThermalTrip_runs h _ _ _
  | .bootRomStart => execBootRomStart_runs h
  | .bootDone .. => execBootDone_runs h _
  | .modRstN .. => execModRstN_runs h _ _
  | .modResetCold .. => execModResetCold_runs h _ _
  | .modResetWarm .. => execModResetWarm_runs h _ _
  | .modResetMc .. => execModResetMc_runs h _ _
  | .perst => execPerst_runs h
  | .trst => execTrst_runs h
  | .jtagBypass => execJtagBypass_runs h
  | .jtagSamplePreload .. => execJtagSamplePreload_runs h _ _
  | .jtagIdcode => execJtagIdcode_runs h
  | .jtagExtest .. => execJtagExtest_runs h _ _
  | .jtagRegacc .. => execJtagRegacc_runs h _ _
  | .fwHeader .. => execFwHeader_runs h _ _
  | .fwBlock .. => execFwBlock_runs h _ _
  | .fwApplyDone => execFwApplyDone_runs h
  | .fwAbort .. => execFwAbort_runs h _ _
  | .fwActivate .. => execFwActivate_runs h _ _ _ _
  | .fwConfirm => execFwConfirm_runs h
  | .fwTrialTimeout => execFwTrialTimeout_runs h
  | .fwRecover .. => execFwRecover_runs h _ _
  | .fwRevoke .. => execFwRevoke_runs h _ _
  | .errClr .. => execErrClr_runs h _ _ _
  | .intForce .. => execIntForce_runs h _ _ _
  | .pageIntStatusWrite .. => execPageIntStatusWrite_runs h _ _ _
  | .pageIntEnableWrite .. => execPageIntEnableWrite_runs h _ _ _
  | .pcieAccess .. => execPcieAccess_runs h _
  | .intEoi .. => execIntEoi_runs h _ _
  | .msixUnmask .. => execMsixUnmask_runs h _
  | .hubAddrWrite .. => execHubAddrWrite_runs h _ _
  | .mgmtConfigWrite .. => execMgmtConfigWrite_runs h _ _ _
  | .arpReceive .. => execArpReceive_runs h _ _ _
  | .icmpEchoReceive .. => execIcmpEchoReceive_runs h _ _ _
  | .registerQuery .. => execRegisterQuery_runs h _ _ _ _
  | .hbmUncorrectableRead .. => execHbmUncorrectableRead_runs h _ _ _
  | .twinFetchTimeout .. => execTwinFetchTimeout_runs h _
  | .linkSignalDetect .. => execLinkSignalDetect_runs h _
  | .regionLongCycle .. => execRegionLongCycle_runs h _
  | .perstRelease => execPerstRelease_runs h
  | .mgmtLinkStateChange .. => execMgmtLinkStateChange_runs h _

/-- A step: what is safe from the state with the queue's rest. -/
theorem step_safe (e : step s = .next t) : ∃ rest, Safe { s with pending := rest } t := by
  unfold step at e
  split at e
  · exact ⟨s.pending, (congrArg (Safe s) (Host.Outcome.next.inj e)).mp (.refl s)⟩
  · next c rest _ =>
    obtain ⟨t', e', ht⟩ := (exec_runs (Safe.refl { s with pending := rest }) c).exists_next
    exact ⟨rest, Host.Outcome.next.inj (e'.symm.trans e) ▸ ht⟩

/-- Settles O47: each instruction answers a next state and leaves the queue of commands. -/
theorem everyCommandAnswers : Obligations.EveryCommandAnswers := by
  intro c s
  obtain ⟨t, e, ht⟩ := (exec_runs (Safe.refl s) c).exists_next
  exact ⟨t, e, ht.pending⟩

/-- Settles O50: every instruction keeps the bounds. -/
theorem everyStepKeepsTheBounds : Obligations.EveryStepKeepsTheBounds := by
  intro s t hb e
  obtain ⟨rest, ht⟩ := step_safe e
  exact ht.bounds hb

/-- Settles O51: every instruction keeps VALID, HOLDOVER and the servo's state consistent. -/
theorem everyStepKeepsTheTimeStates : Obligations.EveryStepKeepsTheTimeStates := by
  intro s t htime e
  obtain ⟨rest, ht⟩ := step_safe e
  exact ht.time htime

/-- Settles O52: every instruction keeps the causes of the page headers named. -/
theorem everyStepKeepsCausesNamed : Obligations.EveryStepKeepsCausesNamed := by
  intro s t hc e
  obtain ⟨rest, ht⟩ := step_safe e
  exact ht.causes hc

/-- Settles O53: no instruction takes a fuse back. -/
theorem fusesOnlyBlow : Obligations.FusesOnlyBlow := by
  intro s t e
  obtain ⟨rest, ht⟩ := step_safe e
  exact ⟨ht.once.minSec, ht.once.revoked⟩

/-- Settles O54: no instruction takes a retired unit back. -/
theorem retiredUnitsStayRetired : Obligations.RetiredUnitsStayRetired := by
  intro s t u e
  obtain ⟨rest, ht⟩ := step_safe e
  exact ht.once.retired u

end Sys2Proof.Machine
end

section
/-! What a command's state reads as after the shared operations: changes of one entry, causes, and reports. -/

namespace Sys2Proof.Machine

section

set_option Elab.async false

/-! ## Tables by number: two changes of one entry -/

section

variable {α : Type} {d : α} {t : Tbl α} {k : Nat}

theorem tdel_tput (v : α) : tdel k (tput k v t) = tdel k t := by
  induction t with
  | nil => simp [tput, tdel]
  | cons e t ih =>
    obtain ⟨i, u⟩ := e
    unfold tput
    split
    · simp [tdel]
    · simp only [tdel, List.filter_cons] at ih ⊢
      rw [ih]

theorem tdel_tdel : tdel k (tdel k t) = tdel k t := by
  simp [tdel, List.filter_filter]

variable [DecidableEq α]

theorem tdel_tset (v : α) : tdel k (tset d t k v) = tdel k t := by
  unfold tset
  split
  · exact tdel_tdel
  · rw [tdel_tput, tdel_tdel]

/-- The later of two writes of one entry stands. -/
@[simp] theorem tset_tset (v w : α) : tset d (tset d t k v) k w = tset d t k w := by
  show (if w = d then tdel k (tset d t k v) else tput k w (tdel k (tset d t k v))) = tset d t k w
  rw [tdel_tset, tset]

@[simp] theorem tmod_tmod (f g : α → α) : tmod d (tmod d t k f) k g = tmod d t k fun x => g (f x) := by
  simp only [tmod, tset_tset, tget_tset_same]

end

/-! ## What is kept by number reads as what was written -/

variable (s : State)

@[simp] theorem job_modJob (j : BitVec 12) (f : HubJob → HubJob) : (modJob s j f).job j = f (s.job j) := by
  simp [modJob, State.job]

@[simp] theorem seq_modSeq (x : Site) (f : Seq → Seq) : (modSeq s x f).seq x = f (s.seq x) := by
  cases x <;> simp [modSeq, State.seq]

/-- A change of an engine is the setting of the engine to what it comes to. -/
theorem modSeq_eq_const (x : Site) (f : Seq → Seq) : modSeq s x f = modSeq s x fun _ => f (s.seq x) := by
  cases x <;> rfl

@[simp] theorem seq_emit (o : Out) (x : Site) : (emit s o).seq x = s.seq x := by cases x <;> rfl

/-! ## Page headers -/

@[simp] theorem modHdr_hub_tsu (g : Page) (f : PageHdr → PageHdr) : (modHdr s .hub g f).tsu = s.tsu := by
  unfold modHdr
  split <;> rfl

@[simp] theorem modHdr_tsu_hub (g : Page) (f : PageHdr → PageHdr) : (modHdr s .tsu g f).hub = s.hub := by
  unfold modHdr
  split <;> rfl

@[simp] theorem modHdr_out (p : Part) (g : Page) (f : PageHdr → PageHdr) : (modHdr s p g f).out = s.out := by
  unfold modHdr
  split
  · exact modSh_out ..
  · rfl

@[simp] theorem refuse_hub_tsu (g : Page) : (refuse s .hub g).tsu = s.tsu := modHdr_hub_tsu ..
@[simp] theorem refuse_tsu_hub (g : Page) : (refuse s .tsu g).hub = s.hub := modHdr_tsu_hub ..
@[simp] theorem refuse_out (p : Part) (g : Page) : (refuse s p g).out = s.out := modHdr_out ..
@[simp] theorem setCause_hub_tsu (g : Page) (b : Nat) : (setCause s .hub g b).tsu = s.tsu := modHdr_hub_tsu ..
@[simp] theorem setCause_tsu_hub (g : Page) (b : Nat) : (setCause s .tsu g b).hub = s.hub := modHdr_tsu_hub ..
@[simp] theorem setCause_out (p : Part) (g : Page) (b : Nat) : (setCause s p g b).out = s.out := modHdr_out ..

@[simp] theorem modHdr_evqRegs (p : Part) (g : Page) (f : PageHdr → PageHdr) :
    (modHdr s p g f).tsu.evqRegs = s.tsu.evqRegs := by
  unfold modHdr
  split
  · cases p <;> rfl
  · rfl

@[simp] theorem setCause_evqRegs (p : Part) (g : Page) (b : Nat) : (setCause s p g b).tsu.evqRegs = s.tsu.evqRegs :=
  modHdr_evqRegs ..

variable {s}

/-- A cause that is set stands in its page's PAGE_INT_STATUS (R504). -/
theorem setCause_hdr {p : Part} {g : Page} (hg : g.ordinal p ≠ none) {b : Nat} (hb : b < 64) :
    ((setCause s p g b).hdr p g).pageIntStatus.getLsbD b = true := by
  rw [setCause, hdr_modHdr hg]
  exact getLsbD_setBit_true _ _ hb

/-! ## Reports: the state as it was, with headers, links, events and output of another -/

/-- A state with what a report may change taken from another. -/
def report (r s : State) : State :=
  { s with
    hub := { s.hub with
      sh := { s.hub.sh with
        hdr := r.hub.sh.hdr, links := r.hub.sh.links, evSeq := r.hub.sh.evSeq, windows := r.hub.sh.windows }
      ring := r.hub.ring, evh := r.hub.evh, flows := r.hub.flows }
    tsu := { s.tsu with
      sh := { s.tsu.sh with
        hdr := r.tsu.sh.hdr, links := r.tsu.sh.links, evSeq := r.tsu.sh.evSeq, windows := r.tsu.sh.windows }
      evq := r.tsu.evq, evqRegs := r.tsu.evqRegs, up := r.tsu.up, hp := r.tsu.hp }
    out := r.out }

theorem Reported.exists_report {t : State} (h : Reported s t) : ∃ r, t = report r s := ⟨t, h⟩

theorem Reported.trans {t u : State} (h : Reported s t) (k : Reported t u) : Reported s u := by
  obtain ⟨r, rfl⟩ := h.exists_report
  obtain ⟨r', rfl⟩ := k.exists_report
  rfl

end

/-! ## Frames: what a command may change -/

/-- The places a command may change: a state with them taken from another. What a report may change is always among them, and
taking the places twice is taking them once. -/
structure Mask where
  take : State → State → State
  take_take : ∀ s t u, take (take s t) u = take s u
  take_report : ∀ s r, take s (report r s) = report r s

/-- Beyond the places of the mask two states agree. -/
def Mask.Frame (m : Mask) (s t : State) : Prop := t = m.take s t

section

variable {m : Mask} {s t u : State}

theorem Mask.Frame.trans (h : m.Frame s t) (k : m.Frame t u) : m.Frame s u := by
  unfold Mask.Frame at h k
  calc
    u = m.take t u := k
    _ = m.take (m.take s t) u := by rw [← h]
    _ = m.take s u := m.take_take s t u

theorem Reported.frame (m : Mask) (h : Reported s t) : m.Frame s t := by
  obtain ⟨r, rfl⟩ := h.exists_report
  exact (m.take_report s r).symm

theorem Mask.Frame.refl (m : Mask) (s : State) : m.Frame s s := (Reported.refl s).frame m

theorem Mask.Frame.reported (h : m.Frame s t) (k : Reported t u) : m.Frame s u := h.trans (k.frame m)

theorem Mask.Frame.emit (h : m.Frame s t) (o : Out) : m.Frame s (emit t o) := h.reported ((Reported.refl t).emit o)

theorem Mask.Frame.ite {c : Prop} [Decidable c] (ht : m.Frame s t) (hu : m.Frame s u) : m.Frame s (if c then t else u) := by
  split
  · exact ht
  · exact hu

theorem Mask.Frame.foldl {α : Type} {f : State → α → State} (hf : ∀ v x, m.Frame v (f v x)) (h : m.Frame s t) (xs : List α) :
    m.Frame s (xs.foldl f t) := by
  induction xs generalizing t with
  | nil => exact h
  | cons x xs ih => exact ih (h.trans (hf t x))

end

/-! ## Fields and bits of words -/

/-- A row that forces a bit leaves the other bits of its word. -/
theorem getB_or_putB_ne (v : Word) {i k : Nat} (h : k ≠ i) (b : Bool) : getB (v ||| putB k b) i = getB v i := by
  have hne : i - k ≠ 0 ∨ i < k := by omega
  cases b <;> rcases hne with hne | hne <;> simp [getB, putB, BitVec.getLsbD_one, hne]

theorem getB_or_putB_same (v : Word) {k : Nat} (h : k < 64) : getB (v ||| putB k true) k = true := by
  simp [getB, putB, h]

end Sys2Proof.Machine
end

section
/-! What the operations that report on one part leave of the other part. -/

namespace Sys2Proof.Machine

section

set_option Elab.async false

variable {s : State} {l : LinkId}

/-- What no step of a fold changes, the fold does not change. -/
theorem foldl_keeps {α β : Type} (π : State → β) {f : State → α → State} (hf : ∀ t x, π (f t x) = π t) (xs : List α)
    (s : State) : π (xs.foldl f s) = π s := by
  induction xs generalizing s with
  | nil => rfl
  | cons x xs ih => exact (ih _).trans (hf s x)

/-- What both branches leave, the choice of a branch leaves. -/
theorem ite_keeps {β : Type} (π : State → β) {c : Prop} [Decidable c] {a b : State} {x : β} (ha : π a = x) (hb : π b = x) :
    π (if c then a else b) = x := by
  split
  · exact ha
  · exact hb

/-- What depends on neither headers, links nor output, a flit that is sent leaves as it was. -/
theorem sendLink_keeps {β : Type} (π : State → β)
    (hsh : ∀ s p (f : Shared → Shared), (∀ x, f x = { x with hdr := (f x).hdr, links := (f x).links }) → π (modSh s p f) = π s)
    (hemit : ∀ s o, π (emit s o) = π s) (s : State) (l : LinkId) (dsn m) : π (sendLink s l dsn m) = π s := by
  have hlink : ∀ s f, π (modLink s l f) = π s := fun s f => hsh s _ _ fun _ => rfl
  have hrefuse : ∀ s p g, π (refuse s p g) = π s := fun s p g => by
    unfold refuse modHdr
    split
    · exact hsh _ _ _ fun _ => rfl
    · rfl
  unfold sendLink
  refine ite_keeps π (ite_keeps π (hrefuse _ _ _) rfl) (ite_keeps π ?_ ?_)
  · exact (hemit _ _).trans (hlink _ _)
  · exact (foldl_keeps π (fun _ _ => hemit _ _) _ _).trans ((hlink _ _).trans (hlink _ _))

theorem taken_keeps {β : Type} (π : State → β)
    (hsh : ∀ s p (f : Shared → Shared), (∀ x, f x = { x with hdr := (f x).hdr, links := (f x).links }) → π (modSh s p f) = π s)
    (hemit : ∀ s o, π (emit s o) = π s) (s : State) (l : LinkId) (m) : π (taken s l m) = π s := by
  have hlink : ∀ f, π (modLink s l f) = π s := fun f => hsh s _ _ fun _ => rfl
  have hheard : π (heardOn s l) = π s := hlink _
  unfold taken returnCredit
  split
  · exact hheard
  · exact (sendLink_keeps π hsh hemit _ _ _ _).trans hheard

theorem taken_evqRegs (s : State) (l : LinkId) (m : Msg) : (taken s l m).tsu.evqRegs = s.tsu.evqRegs :=
  taken_keeps (fun s => s.tsu.evqRegs) (fun _ p _ _ => by cases p <;> rfl) (fun _ _ => rfl) s l m

theorem modSh_hub_of_tsu {p : Part} (h : p = .tsu) (f : Shared → Shared) : (modSh s p f).hub = s.hub := h ▸ rfl
theorem modSh_tsu_of_hub {p : Part} (h : p = .hub) (f : Shared → Shared) : (modSh s p f).tsu = s.tsu := h ▸ rfl

@[simp] theorem emitFlit_hub (s : State) (l lseq dsn m) : (emitFlit s l lseq dsn m).hub = s.hub := rfl
@[simp] theorem emitFlit_tsu (s : State) (l lseq dsn m) : (emitFlit s l lseq dsn m).tsu = s.tsu := rfl

theorem modLink_hub (h : l.part = .tsu) (f : Link → Link) : (modLink s l f).hub = s.hub := modSh_hub_of_tsu h _
theorem modLink_tsu (h : l.part = .hub) (f : Link → Link) : (modLink s l f).tsu = s.tsu := modSh_tsu_of_hub h _

theorem drainLink_hub (h : l.part = .tsu) : (drainLink s l).hub = s.hub := by
  unfold drainLink
  rw [foldl_keeps State.hub fun _ _ => emitFlit_hub .., modLink_hub h]

theorem drainLink_tsu (h : l.part = .hub) : (drainLink s l).tsu = s.tsu := by
  unfold drainLink
  rw [foldl_keeps State.tsu fun _ _ => emitFlit_tsu .., modLink_tsu h]

theorem refuse_hub_of_tsu {p : Part} (h : p = .tsu) (g : Page) : (refuse s p g).hub = s.hub := by
  subst h; exact refuse_tsu_hub ..

theorem refuse_tsu_of_hub {p : Part} (h : p = .hub) (g : Page) : (refuse s p g).tsu = s.tsu := by
  subst h; exact refuse_hub_tsu ..

/-- A flit sent on a TSU's link leaves the hub as it was. -/
theorem sendLink_hub (h : l.part = .tsu) (dsn m) : (sendLink s l dsn m).hub = s.hub := by
  unfold sendLink
  dsimp only
  split
  · split
    · exact refuse_hub_of_tsu h _
    · rfl
  · split
    · rw [emitFlit_hub, modLink_hub h]
    · rw [drainLink_hub h, modLink_hub h]

/-- A flit sent on a hub's link leaves the TSU as it was. -/
theorem sendLink_tsu (h : l.part = .hub) (dsn m) : (sendLink s l dsn m).tsu = s.tsu := by
  unfold sendLink
  dsimp only
  split
  · split
    · exact refuse_tsu_of_hub h _
    · rfl
  · split
    · rw [emitFlit_tsu, modLink_tsu h]
    · rw [drainLink_tsu h, modLink_tsu h]

theorem returnCredit_hub (h : l.part = .tsu) (c n) : (returnCredit s l c n).hub = s.hub := by
  unfold returnCredit
  split
  · rfl
  · exact sendLink_hub h _ _

theorem taken_hub (h : l.part = .tsu) (m) : (taken s l m).hub = s.hub :=
  (returnCredit_hub h _ _).trans (modLink_hub h _)

theorem upLink_part (s : State) : s.upLink.part = .tsu := by
  have hpick : ∀ l m : LinkId, l.part = .tsu → m.part = .tsu →
      (if (s.link l).active then l else if (s.link m).active then m else l).part = .tsu := fun l m hl hm => by
    split
    · exact hl
    · split
      · exact hm
      · exact hl
  unfold State.upLink
  cases s.tsu.sh.servo.regs.servoStatusLead
  case false => exact hpick linkA linkB rfl rfl
  case true => exact hpick linkB linkA rfl rfl

@[simp] theorem tsuSend_hub (s : State) (m : Msg) : (tsuSend s m).hub = s.hub := sendLink_hub (upLink_part s) _ _

@[simp] theorem tsuSendUp_hub (s : State) (m : Msg) : (tsuSendUp s m).hub = s.hub := by
  unfold tsuSendUp
  split
  · exact sendLink_hub (upLink_part _) _ _
  · rfl

@[simp] theorem evqPut_hub (s : State) (r : BitVec 512) : (evqPut s r).hub = s.hub := by
  unfold evqPut
  split <;> exact setCause_tsu_hub ..

@[simp] theorem ringWrite_tsu (s : State) (r : BitVec 512) : (ringWrite s r).tsu = s.tsu := setCause_hub_tsu ..

@[simp] theorem formRecord_tsu_hub (s : State) (e c) : (formRecord s .tsu e c).hub = s.hub := by
  unfold formRecord
  rw [tsuSendUp_hub, evqPut_hub, modSh_tsu_hub]

@[simp] theorem formRecord_hub_tsu (s : State) (e c) : (formRecord s .hub e c).tsu = s.tsu := by
  unfold formRecord
  rw [ringWrite_tsu, modSh_hub_tsu]

/-- An event of the TSU leaves the hub as it was. -/
@[simp] theorem raise_tsu_hub (s : State) (e : Ev) : (raise s .tsu e).hub = s.hub := by
  unfold raise
  refine ite_keeps State.hub (formRecord_tsu_hub ..) (ite_keeps State.hub rfl ?_)
  rw [formRecord_tsu_hub, modSh_tsu_hub]

/-- An event of the hub leaves the TSU as it was. -/
@[simp] theorem raise_hub_tsu (s : State) (e : Ev) : (raise s .hub e).tsu = s.tsu := by
  unfold raise
  refine ite_keeps State.tsu (formRecord_hub_tsu ..) (ite_keeps State.tsu rfl ?_)
  rw [formRecord_hub_tsu, modSh_hub_tsu]

@[simp] theorem raisePlain_tsu_hub (s : State) (a b c d) : (raisePlain s .tsu a b c d).hub = s.hub := raise_tsu_hub ..
@[simp] theorem raisePlain_hub_tsu (s : State) (a b c d) : (raisePlain s .hub a b c d).tsu = s.tsu := raise_hub_tsu ..
@[simp] theorem timeFault_tsu_hub (s : State) (a b) : (timeFault s .tsu a b).hub = s.hub := raise_tsu_hub ..
@[simp] theorem timeFault_hub_tsu (s : State) (a b) : (timeFault s .hub a b).tsu = s.tsu := raise_hub_tsu ..

theorem tsuReport_reported {t : State} (h : Reported s t) (kind : BitVec 3) (detail : BitVec 8) :
    Reported s (tsuReport t kind detail) := tsuSend_reported h _

@[simp] theorem tsuReport_hub (s : State) (kind : BitVec 3) (detail : BitVec 8) : (tsuReport s kind detail).hub = s.hub :=
  tsuSend_hub ..

end

end Sys2Proof.Machine
end

section
/-! O21: loading a step program and checking it (R277 to R279). -/

namespace Sys2Proof.Machine

section

set_option Elab.async false

variable {i : Iface} {data : Word} {s : State}

/-- What an accepted BEGIN leaves of an engine (R277). -/
def Seq.begun (q : Seq) : Seq :=
  { q with
    words := [], tooLong := false, digest := 0
    regs := { q.regs with
      progStatusState := 1, progAddr := 0, progStatusWords := 0, progStatusVaryCount := 0, progStatusResult := 0
      progStatusFaultAddr := 0 } }

theorem exec_progBegin_accepted (h : Answers s i) (hcommit : getB data 62 = false)
    (hstate : (s.seq (s.progSite i)).regs.progStatusState ≠ 2) (hopen : beginRefused s (s.progSite i) = false) :
    exec (.progBegin i data) s = .next (emit (modSeq s (s.progSite i) Seq.begun) (.writeAck i false)) := by
  show ackWrite i s (progCtrlWrite i (data ||| putB 63 true) s) = _
  rw [ackWrite_answers h, progCtrlWrite, getB_or_putB_same _ (by decide), getB_or_putB_ne _ (by decide), hcommit]
  simp only [hstate, hopen, Bool.false_eq_true, false_or, if_false, if_true]
  rfl

theorem exec_progCommit_accepted (h : Answers s i) (hbegin : getB data 63 = false)
    (hstate : (s.seq (s.progSite i)).regs.progStatusState = 1) :
    exec (.progCommit i data) s =
      .next (emit (modSeqRegs s (s.progSite i) fun r => { r with progStatusState := 2 }) (.writeAck i false)) := by
  show ackWrite i s (progCtrlWrite i (data ||| putB 62 true) s) = _
  rw [ackWrite_answers h, progCtrlWrite, getB_or_putB_same _ (by decide), getB_or_putB_ne _ (by decide), hbegin]
  simp [hstate, accept]

/-- What a word that PROG_DATA takes leaves of an engine (R277). -/
def Seq.took (q : Seq) (v : Word) : Seq :=
  { q with
    words := tset none q.words q.regs.progAddr.toNat (some (loadWord q.regs.progAddr.toNat v))
    regs := { q.regs with
      progAddr := q.regs.progAddr + 1
      progStatusWords :=
        if q.regs.progStatusWords.toNat < q.regs.progAddr.toNat + 1 then q.regs.progAddr + 1 else q.regs.progStatusWords } }

theorem Seq.took_at (q : Seq) (v : Word) :
    (q.took v).at q.regs.progAddr.toNat = loadWord q.regs.progAddr.toNat v := by
  simp [Seq.took, Seq.at]

/-- Below the end of the stream the count of words is the highest address taken so far and one. -/
theorem Seq.took_words {q : Seq} (h : q.regs.progAddr.toNat ≤ 16387) (v : Word) :
    (q.took v).regs.progStatusWords.toNat = max q.regs.progStatusWords.toNat (q.regs.progAddr.toNat + 1) := by
  have hnext : (q.regs.progAddr + 1).toNat = q.regs.progAddr.toNat + 1 := by
    rw [BitVec.toNat_add_of_lt] <;> simp only [show (1 : BitVec 15).toNat = 1 from rfl]
    omega
  unfold Seq.took
  dsimp only
  split
  · omega
  · omega

theorem progMax_le (x : Site) : progMax x ≤ 16387 := by
  cases x
  · exact Nat.le_refl _
  · exact (by decide : 8195 ≤ 16387)

theorem modSeq_took (s : State) (x : Site) (v : Word) :
    modSeq s x (fun _ => (s.seq x).took v) = modSeq s x fun q => q.took v := (modSeq_eq_const s x fun q => q.took v).symm

theorem exec_progDataWrite_accepted (h : Answers s i) (hstate : (s.seq (s.progSite i)).regs.progStatusState = 1)
    (haddr : (s.seq (s.progSite i)).regs.progAddr.toNat ≤ progMax (s.progSite i)) :
    exec (.progDataWrite i data) s =
      .next (emit (modSeq s (s.progSite i) fun q => q.took data) (.writeAck i false)) := by
  show ackWrite i s (progDataWrite i data s) = _
  rw [ackWrite_answers h, progDataWrite]
  simp only [hstate, ne_eq, not_true, if_false, Nat.not_lt.2 haddr, accept]
  rw [modSeq_eq_const, ← modSeq_took]
  rfl

theorem exec_progAddrWrite_accepted (h : Answers s i) (hstate : (s.seq (s.progSite i)).regs.progStatusState ≠ 2)
    (haddr : (getF data 0 15 : BitVec 15).toNat ≤ progMax (s.progSite i)) :
    exec (.progAddrWrite i data) s =
      .next (emit (modSeqRegs s (s.progSite i) fun r => { r with progAddr := getF data 0 15 }) (.writeAck i false)) := by
  show ackWrite i s (progAddrWrite i data s) = _
  simp only [ackWrite_answers h, progAddrWrite, hstate, Nat.not_lt.2 haddr, false_or, if_false, accept]

/-- What a check that passes leaves of an engine (R278, R279). -/
def Seq.passed (q : Seq) : Seq :=
  { q with
    digest := sha384 ((List.range q.regs.progStatusWords.toNat).flatMap fun a => bvBytes 8 (q.at a))
    regs := { q.regs with
      progStatusState := 3, progStatusResult := 0, progStatusFaultAddr := 0
      progStatusVaryCount := satNat 9 ((q.section_ (q.regs.progStatusWords.toNat - 4)).filter iVary).length } }

/-- What a check that fails with a cause at an address leaves of an engine (R278). -/
def Seq.failed (q : Seq) (res addr : Nat) : Seq :=
  { q with
    words := [], digest := 0
    regs := { q.regs with
      progStatusState := 0, progStatusResult := BitVec.ofNat 4 res, progStatusFaultAddr := BitVec.ofNat 14 addr
      progStatusVaryCount := 0 } }

theorem exec_progCheckDone_passed (hstate : s.tsu.seq.regs.progStatusState = 2)
    (hpass : (progCheck .tsu s.tsu.seq (0, 0)).1 = 0) :
    exec (.progCheckDone .tsu) s = .next (seqCause (modTsu s fun t => { t with seq := t.seq.passed }) .tsu 0) := by
  show execProgCheckDone .tsu s = _
  simp only [execProgCheckDone, State.seq, hstate, hpass, ne_eq, not_true, if_false, if_true, modSeq,
    List.flatMap_map]
  rfl

/-- Before a check that failed is shown, a word with a reserved encoding is counted on the page (R13). -/
def checkCounted (s : State) : State :=
  if (progCheck .tsu s.tsu.seq (0, 0)).1 = 4 ∨ (progCheck .tsu s.tsu.seq (0, 0)).1 = 5 then refuse s .tsu .seq else s

theorem exec_progCheckDone_failed (hstate : s.tsu.seq.regs.progStatusState = 2)
    (hfail : (progCheck .tsu s.tsu.seq (0, 0)).1 ≠ 0) :
    exec (.progCheckDone .tsu) s = .next (seqCause (modTsu (checkCounted s) fun t => { t with
      seq := t.seq.failed (progCheck .tsu s.tsu.seq (0, 0)).1 (progCheck .tsu s.tsu.seq (0, 0)).2 }) .tsu 1) := by
  show execProgCheckDone .tsu s = _
  simp only [execProgCheckDone, State.seq, hstate, hfail, ne_eq, not_true, if_false, modSeq]
  rfl

theorem checkCounted_reported : Reported s (checkCounted s) :=
  ite_reported (refuse_reported (.refl s) _ _) (.refl s)

theorem seqCause_tsu_hub (s : State) (b : Nat) : (seqCause s .tsu b).hub = s.hub := setCause_tsu_hub ..

theorem checkCounted_hub : (checkCounted s).hub = s.hub := by
  unfold checkCounted
  split
  · exact refuse_tsu_hub ..
  · rfl

end

/-- Settles O21: each command's condition selects its one branch, and the check's report leaves the hub alone. -/
theorem loadingAProgram : Obligations.LoadingAProgram := by
  refine ⟨?begin_, ?commit, ?data, ?addr, ?passed, ?failed⟩
  case begin_ =>
    intro i data s h hcommit hstate hopen
    refine ⟨_, exec_progBegin_accepted h hcommit hstate hopen, ?_, ?_, ?_, ?_, ?_⟩
    all_goals simp only [seq_emit, seq_modSeq]
    case refine_5 => rw [modSeq_eq_const]
    all_goals rfl
  case commit => exact fun i data s h hbegin hstate => ⟨_, exec_progCommit_accepted h hbegin hstate, rfl⟩
  case data =>
    intro i data s h hstate haddr
    refine ⟨_, exec_progDataWrite_accepted h hstate haddr, ?_, ?_, ?_, ?_⟩
    all_goals simp only [seq_emit, seq_modSeq]
    · exact Seq.took_at _ _
    · rfl
    · exact Seq.took_words (Nat.le_trans haddr (progMax_le _)) _
    · rw [modSeq_took]
  case addr => exact fun i data s h hstate haddr => ⟨_, exec_progAddrWrite_accepted h hstate haddr, rfl⟩
  case passed =>
    intro s hstate hpass
    have hcause := setCause_hdr (s := modTsu s fun t => { t with seq := t.seq.passed }) (p := .tsu) (g := .seq)
      (b := 0) (by decide) (by decide)
    obtain ⟨r, hr⟩ := (setCause_reported (.refl (modTsu s fun t => { t with seq := t.seq.passed })) .tsu .seq 0).exists_report
    refine ⟨_, exec_progCheckDone_passed hstate hpass, ?_, ?_, ?_, ?_, hcause, seqCause_tsu_hub .., ?_⟩
    all_goals
      simp only [seqCause, sitePart, sitePage]
      rw [hr]
      rfl
  case failed =>
    intro s hstate hfail
    obtain ⟨r, hr⟩ := (checkCounted_reported (s := s)).exists_report
    obtain ⟨r', hr'⟩ := (setCause_reported (.refl (modTsu (checkCounted s) fun t => { t with
      seq := t.seq.failed (progCheck .tsu s.tsu.seq (0, 0)).1 (progCheck .tsu s.tsu.seq (0, 0)).2 })) .tsu .seq 1).exists_report
    refine ⟨_, exec_progCheckDone_failed hstate hfail, ?_, ?_, ?_, ?_, ?_, ?_⟩
    case refine_5 => rw [seqCause_tsu_hub, modTsu_hub, checkCounted_hub]
    all_goals
      simp only [seqCause, sitePart, sitePage]
      rw [hr', hr]
      rfl

end Sys2Proof.Machine
end

section
/-! O22: the control and value words of a step program (R281 to R284, R288, R290). -/

namespace Sys2Proof.Machine

section

set_option Elab.async false

/-! ## Engines: what issuing a word and writing X leave -/

theorem modSeq_modSeq (s : State) (x : Site) (f g : Seq → Seq) :
    modSeq (modSeq s x f) x g = modSeq s x fun q => g (f q) := by
  cases x
  · rfl
  · simp only [modSeq, modJob, modHub, tmod_tmod]

section

variable (q : Seq)

@[simp] theorem Seq.advance_xs : q.advance.xs = q.xs := by unfold Seq.advance; split <;> rfl
@[simp] theorem Seq.advance_step : q.advance.step = q.step := by unfold Seq.advance; split <;> rfl
@[simp] theorem Seq.advance_launch : q.advance.launch = q.launch := by unfold Seq.advance; split <;> rfl
@[simp] theorem Seq.advance_words : q.advance.words = q.words := by unfold Seq.advance; split <;> rfl
@[simp] theorem Seq.advance_wait : q.advance.wait = q.wait := by unfold Seq.advance; split <;> rfl
@[simp] theorem Seq.advance_x (n : BitVec 4) : q.advance.x n = q.x n := by simp [Seq.x]
@[simp] theorem Seq.advance_v (w : Word) : q.advance.v w = q.v w := by simp [Seq.v]
@[simp] theorem Seq.advance_bufAddr (w : Word) : q.advance.bufAddr w = q.bufAddr w := by simp [Seq.bufAddr]

theorem Seq.setX_x {n : BitVec 4} (h : n ≠ 0) (v : Word) : (q.setX n v).x n = v := by
  simp only [Seq.setX, Seq.x, if_neg h, tget_tset_same]

theorem Seq.setX_regs (n : BitVec 4) (v : Word) : (q.setX n v).regs = q.regs := by
  unfold Seq.setX; split <;> rfl

end

section

variable (s : State) (x : Site) (f : Seq → Seq)

/-! ## What a change of an engine leaves -/

@[simp] theorem modSeq_rank : (modSeq s x f).tsu.rank = s.tsu.rank := by cases x <;> rfl
@[simp] theorem modSeq_slot (k : BitVec 12) : (modSeq s x f).slot k = s.slot k := by cases x <;> rfl
@[simp] theorem modSeq_evtLine (k : BitVec 4) : (modSeq s x f).evtLine k = s.evtLine k := by cases x <;> rfl
@[simp] theorem modSeq_xbufAt (k : Nat) : (modSeq s x f).xbufAt k = s.xbufAt k := by cases x <;> rfl
@[simp] theorem modSeq_now (p : Part) : (modSeq s x f).now p = s.now p := by cases x <;> cases p <;> rfl
@[simp] theorem modSeq_sh (p : Part) : (modSeq s x f).sh p = s.sh p := by cases x <;> cases p <;> rfl

@[simp] theorem modSeq_replayMode : (modSeq s x f).replayMode x = s.replayMode x := by
  cases x
  · rfl
  · simp [modSeq, State.replayMode]

@[simp] theorem modSeq_seedOf : (modSeq s x f).seedOf x = s.seedOf x := by
  cases x
  · rfl
  · simp [modSeq, State.seedOf]

end

/-! ## Issuing a word (R282, R288) -/

section

variable {s : State} {x : Site} {op : Nat}

theorem AtWord.op_eq (h : AtWord s x op) : iOp (s.seq x).word = op := by
  have hready := h.1
  simp only [Seq.ready, Bool.and_eq_true, beq_iff_eq] at hready
  exact hready.2

/-- An engine at a word of the opcode issues it. -/
theorem issue_atWord (h : AtWord s x op) (act : Word → State → State) :
    issue op x act s = .next (act (s.seq x).word (issuedAt s x)) := by
  have hnow : (x == .tsu && s.wordWaits) = false := by
    by_cases hx : x = .tsu
    · simp [h.2 hx]
    · simp [hx]
  simp [issue, hnow, h.1]

/-- A word of the TSU gives way to the link accesses of its island cycle (R288). -/
theorem issue_gives_way (h : s.wordWaits = true) (op : Nat) (act : Word → State → State) :
    issue op .tsu act s = .next (modTsu s fun t => { t with lateWords := t.lateWords ++ [op] }) := by
  simp [issue, h]

/-! ## Words that write a value (R281, R283) -/

/-- A live word takes its value from its source. -/
theorem writes_live (h : iVary (s.seq x).word = false ∨ s.replayMode x = 0) (f : Seq → Word → State → Word) :
    writes x f (s.seq x).word (issuedAt s x) =
      putValue (issuedAt s x) x (s.seq x).word (f (s.seq x).advance (s.seq x).word (issuedAt s x)) := by
  rcases h with hvary | hmode
  · simp [writes, replays, sourced, hvary]
  · simp [writes, replays, sourced, hmode]

/-- A word that neither stores nor loops writes X[A]. -/
theorem putValue_x {w : Word} (hst : iOp w ≠ 0x1B) (hloop : iOp w ≠ 0x04) (s : State) (x : Site) (v : Word) :
    putValue s x w v = modSeq s x fun q => q.setX (iA w) v := by
  simp [putValue, hst, hloop]

/-- An engine at a word of the opcode that writes X[A] writes it from the word's source. -/
theorem issue_writes_live (hop : op ≠ 0x1B ∧ op ≠ 0x04) (h : AtWord s x op) (hl : Live s x) (f : Seq → Word → State → Word) :
    issue op x (writes x f) s =
      .next (modSeq (issuedAt s x) x fun q =>
        q.setX (iA (s.seq x).word) (f (s.seq x).advance (s.seq x).word (issuedAt s x))) := by
  obtain ⟨hst, hloop⟩ := hop
  rw [issue_atWord h, writes_live hl, putValue_x (by rw [h.op_eq]; exact hst) (by rw [h.op_eq]; exact hloop)]

/-- A LOOP whose count does not come to 0 writes the count and jumps. -/
theorem putValue_loop {w v : Word} (hop : iOp w = 0x04) (ha : iA w ≠ 0) (hv : v ≠ 0) (s : State) (x : Site) :
    putValue s x w v =
      modSeq s x fun q => { q.setX (iA w) v with regs := { q.regs with seqStatusPc := iTarget w } } := by
  have hst : (4 : Nat) ≠ 0x1B := by decide
  simp only [putValue, hop, if_neg hst, seq_modSeq, Seq.setX_x _ ha, ne_eq, hv, not_false_eq_true, and_self, if_true, jump,
    modSeqRegs, modSeq_modSeq, Seq.setX_regs]

theorem putValue_stbuf {w : Word} (hop : iOp w = 0x1B) {s : State} {x : Site} (hin : (s.seq x).bufAddr w < 8192) (v : Word) :
    putValue s x w v = setXbuf s ((s.seq x).bufAddr w) v := by
  simp [putValue, hop, Nat.not_le.2 hin]

theorem xbufAt_setXbuf (s : State) (k : Nat) (v : Word) : (setXbuf s k v).xbufAt k = v := tget_tset_same v

theorem exec_loop_jumps (h : AtWord s x 0x04) (hl : Live s x) (ha : iA (s.seq x).word ≠ 0)
    (hv : (s.seq x).x (iA (s.seq x).word) ≠ 1) :
    exec (.loop x) s = .next (modSeq (issuedAt s x) x fun q =>
      { q.setX (iA (s.seq x).word) ((s.seq x).x (iA (s.seq x).word) - 1) with
        regs := { q.regs with seqStatusPc := iTarget (s.seq x).word } }) := by
  show issue 0x04 x (writes x fun q w _ => q.x (iA w) - 1) s = _
  have hne : (s.seq x).x (iA (s.seq x).word) - 1 ≠ 0 := fun h0 => hv (by
    rw [← BitVec.sub_add_cancel ((s.seq x).x (iA (s.seq x).word)) 1, h0]
    rfl)
  rw [issue_atWord h, writes_live hl, Seq.advance_x, putValue_loop h.op_eq ha hne]

theorem exec_ldbuf_inRange (h : AtWord s x 0x1A) (hl : Live s x) (hin : (s.seq x).bufAddr (s.seq x).word < 8192) :
    exec (.ldbuf x) s = .next (modSeq (issuedAt s x) x fun q =>
      q.setX (iA (s.seq x).word) (s.xbufAt ((s.seq x).bufAddr (s.seq x).word))) := by
  have hout : ¬ 8192 ≤ ((issuedAt s x).seq x).bufAddr (s.seq x).word := by
    rw [seq_modSeq, Seq.advance_bufAddr]
    exact Nat.not_le.2 hin
  show execLdbuf x s = _
  rw [execLdbuf, issue_atWord h, decide_eq_false hout, Bool.and_false, if_neg Bool.false_ne_true, writes_live hl,
    putValue_x (by rw [h.op_eq]; decide) (by rw [h.op_eq]; decide), Seq.advance_bufAddr, modSeq_xbufAt]

theorem exec_stbuf_inRange (h : AtWord s x 0x1B) (hl : Live s x)
    (hfree : s.xbufRead ((s.seq x).bufAddr (s.seq x).word) 1 = false)
    (hin : (s.seq x).bufAddr (s.seq x).word < 8192) :
    exec (.stbuf x) s = .next (setXbuf (issuedAt s x) ((s.seq x).bufAddr (s.seq x).word)
      ((s.seq x).x (iA (s.seq x).word))) := by
  have hbuf : ((issuedAt s x).seq x).bufAddr (s.seq x).word = (s.seq x).bufAddr (s.seq x).word := by
    rw [seq_modSeq, Seq.advance_bufAddr]
  show execStbuf x s = _
  rw [execStbuf, hfree, if_neg Bool.false_ne_true, issue_atWord h, hbuf, decide_eq_false (Nat.not_le.2 hin),
    if_neg Bool.false_ne_true, writes_live hl, putValue_stbuf h.op_eq (by rw [hbuf]; exact hin), hbuf, Seq.advance_x]

end

end

/-- Settles O22: each word is issued at its opcode, and a live word's value goes to its place. -/
theorem controlWords : Obligations.ControlWords := by
  refine ⟨?nop, ?nopWaits, ?jmp, ?brTaken, ?brNot, ?loop, ?ldi, ?ldhi, ?alu, ?ldstep, ?ldrank, ?whisk, ?ldtime, ?ldlaunch,
    ?ldevt, ?ldso, ?ldbuf, ?stbuf, ?stbufHeld⟩
  case nop =>
    intro x s h
    rw [show exec (.nop x) s = execNop x s from rfl, execNop, issue_atWord h]
    exact ⟨_, rfl, rfl⟩
  case nopWaits =>
    intro s h
    rw [show exec (.nop .tsu) s = execNop .tsu s from rfl, execNop, issue_gives_way h]
    exact ⟨_, rfl, rfl⟩
  case jmp =>
    intro x s h
    rw [show exec (.jmp x) s = execJmp x s from rfl, execJmp, issue_atWord h]
    exact ⟨_, rfl, rfl⟩
  case brTaken =>
    intro x s h ht
    rw [show exec (.br x) s = execBr x s from rfl, execBr, issue_atWord h]
    refine ⟨_, rfl, ?_⟩
    simp only [seq_modSeq, Seq.advance_x, ht, if_true, jump]
  case brNot =>
    intro x s h ht
    rw [show exec (.br x) s = execBr x s from rfl, execBr, issue_atWord h]
    refine ⟨_, rfl, ?_⟩
    simp only [seq_modSeq, Seq.advance_x, ht, Bool.false_eq_true, if_false]
  case loop => exact fun x s h hl ha hv => ⟨_, exec_loop_jumps h hl ha hv, rfl⟩
  case ldi =>
    intro x s h hl
    rw [show exec (.ldi x) s = execLdi x s from rfl, execLdi, issue_writes_live (by decide) h hl]
    exact ⟨_, rfl, rfl⟩
  case ldhi =>
    intro x s h hl
    rw [show exec (.ldhi x) s = execLdhi x s from rfl, execLdhi, issue_writes_live (by decide) h hl]
    exact ⟨_, rfl, by simp only [Seq.advance_x]⟩
  case alu =>
    intro x s h hl
    rw [show exec (.alu x) s = execAlu x s from rfl, execAlu, issue_writes_live (by decide) h hl]
    refine ⟨_, rfl, ?_⟩
    simp only [Seq.advance_x, Seq.advance_v]
    rfl
  case ldstep =>
    intro x s h hl
    rw [show exec (.ldstep x) s = execLdstep x s from rfl, execLdstep, issue_writes_live (by decide) h hl]
    exact ⟨_, rfl, by simp only [Seq.advance_step]⟩
  case ldrank =>
    intro x s h hl
    rw [show exec (.ldrank x) s = execLdrank x s from rfl, execLdrank, issue_writes_live (by decide) h hl]
    exact ⟨_, rfl, by simp only [modSeq_rank]⟩
  case whisk =>
    intro x s h hl
    rw [show exec (.whisk x) s = execWhisk x s from rfl, execWhisk, issue_writes_live (by decide) h hl]
    refine ⟨_, rfl, ?_⟩
    simp only [Seq.advance_x, Seq.advance_step, modSeq_seedOf]
  case ldtime =>
    intro x s h hl
    rw [show exec (.ldtime x) s = execLdtime x s from rfl, execLdtime, issue_writes_live (by decide) h hl]
    exact ⟨_, rfl, by simp only [modSeq_now]⟩
  case ldlaunch =>
    intro x s h hl
    rw [show exec (.ldlaunch x) s = execLdlaunch x s from rfl, execLdlaunch, issue_writes_live (by decide) h hl]
    exact ⟨_, rfl, by simp only [Seq.advance_launch]⟩
  case ldevt =>
    intro x s h hl
    rw [show exec (.ldevt x) s = execLdevt x s from rfl, execLdevt, issue_writes_live (by decide) h hl]
    exact ⟨_, rfl, by simp only [modSeq_evtLine]⟩
  case ldso =>
    intro x s h hl
    rw [show exec (.ldso x) s = execLdso x s from rfl, execLdso, issue_writes_live (by decide) h hl]
    exact ⟨_, rfl, by simp only [modSeq_slot]⟩
  case ldbuf => exact fun x s h hl hin => ⟨_, exec_ldbuf_inRange h hl hin, rfl⟩
  case stbuf => exact fun x s h hl hfree hin => ⟨_, exec_stbuf_inRange h hl hfree hin, rfl, xbufAt_setXbuf ..⟩
  case stbufHeld =>
    intro x s h
    refine ⟨s, ?_, rfl⟩
    show execStbuf x s = _
    rw [execStbuf, if_pos h]

end Sys2Proof.Machine
end

section
/-! O23: the sync, send and trigger words of a step program, and the end of a pass (R220, R232 to R237, R265, R282, R284). -/

namespace Sys2Proof.Machine

section

set_option Elab.async false

/-! ## What a change of an engine leaves, and what reports leave of a job -/

section

variable (s : State) (x : Site) (f : Seq → Seq)

@[simp] theorem modSeq_stepSlot : (modSeq s x f).stepSlot = s.stepSlot := by cases x <;> rfl
@[simp] theorem modSeq_winPending (g : BitVec 2) (w : BitVec 6) : (modSeq s x f).winPending g w = s.winPending g w := by
  cases x <;> rfl
@[simp] theorem modSeq_ingress (g : BitVec 2) : (modSeq s x f).ingress g = s.ingress g := by cases x <;> rfl
@[simp] theorem modSeq_covers : (modSeq s x f).covers = s.covers := by cases x <;> rfl
@[simp] theorem modSeq_sends : (modSeq s x f).tsu.sends = s.tsu.sends := by cases x <;> rfl
@[simp] theorem modSeq_heldSends : (modSeq s x f).tsu.heldSends = s.tsu.heldSends := by cases x <;> rfl
@[simp] theorem modSeq_members : (modSeq s x f).tsu.members = s.tsu.members := by cases x <;> rfl
@[simp] theorem modSeq_tsuHasJob : (modSeq s x f).tsuHasJob = s.tsuHasJob := by cases x <;> rfl
@[simp] theorem modSeq_trig (n : BitVec 4) : (modSeq s x f).trig n = s.trig n := by cases x <;> rfl
@[simp] theorem modSeq_valid (p : Part) : (modSeq s x f).valid p = s.valid p := by cases x <;> cases p <;> rfl

end

variable {s t : State} {x : Site} {k : BitVec 12} {j : BitVec 12}

theorem Reported.job (h : Reported s t) (j : BitVec 12) : t.job j = s.job j := by
  obtain ⟨r, rfl⟩ := h.exists_report
  rfl

theorem Reported.seq (h : Reported s t) (x : Site) : t.seq x = s.seq x := by
  obtain ⟨r, rfl⟩ := h.exists_report
  cases x <;> rfl

/-! ## Slots and trigger outputs under an engine's word -/

@[simp] theorem seq_modSlotRegs (s : State) (k : BitVec 12) (f : SlotRegs → SlotRegs) (x : Site) :
    (modSlotRegs s k f).seq x = s.seq x := by cases x <;> rfl

/-- What a change of a slot's registers does depends on the registers it meets. -/
theorem modSlotRegs_congr {f g : SlotRegs → SlotRegs} (h : f (s.slot k).regs = g (s.slot k).regs) :
    modSlotRegs s k f = modSlotRegs s k g := by
  have hslot : ({ s.slot k with regs := f (s.slot k).regs } : Slot) = { s.slot k with regs := g (s.slot k).regs } := by rw [h]
  exact congrArg (fun y => modTsu s fun u => { u with slots := tset {} u.slots k.toNat y }) hslot

/-- What a change of an output does depends on the output it meets. -/
theorem modTrig_congr {n : BitVec 4} {f g : TrigLine → TrigLine} (h : f (s.trig n) = g (s.trig n)) :
    modTrig s n f = modTrig s n g :=
  congrArg (fun y => modTsu s fun u => { u with trigs := tset {} u.trigs n.toNat y }) h

/-- An arrival not yet made sets ARRIVED and is reported upward (R220). -/
theorem slotArrive_accepted (hty : (s.slot k).regs.soCfgType = tyBarrier) (hnew : (s.slot k).regs.soValArrived = false) :
    (slotArrive s k).1 = false ∧ Reported (modSlotRegs s k fun r => { r with soValArrived := true }) (slotArrive s k).2 := by
  unfold slotArrive
  simp only [hty, hnew, Bool.not_false, and_self, if_true, accept]
  exact ⟨trivial, tsuSendUp_reported (.refl _) _⟩

theorem slotArrive_hub (hty : (s.slot k).regs.soCfgType = tyBarrier) (hnew : (s.slot k).regs.soValArrived = false) :
    (slotArrive s k).2.hub = s.hub := by
  unfold slotArrive
  simp only [hty, hnew, Bool.not_false, and_self, if_true, accept]
  exact tsuSendUp_hub ..

/-! ## Sync words (R220, R230, R237) -/

theorem toNat_amount48 {v : Word} (h : v.toNat < 2 ^ 48) : (amount48 v).toNat = v.toNat := by
  rw [amount48, satNat, if_pos h, BitVec.toNat_ofNat, Nat.mod_eq_of_lt h]

theorem setValue_below {n : Nat} (hn : n < 2 ^ 48 - 1) (s : State) (k : BitVec 12) :
    setValue s k n = modSlotRegs s k fun r => { r with soValValue := BitVec.ofNat 48 n } := by
  rw [setValue, if_pos hn]

/-- Below the maximum an ADD adds to VALUE (R230). -/
theorem slotAdd_below (hty : (s.slot k).regs.soCfgType = tyCounter) {v : Word}
    (hv : (s.slot k).regs.soValValue.toNat + v.toNat < 2 ^ 48 - 1) :
    slotAdd s k (amount48 v) = accept (modSlotRegs s k fun r => { r with soValValue := r.soValValue + v.setWidth 48 }) := by
  have hsum : (s.slot k).regs.soValValue.toNat + (amount48 v).toNat < 2 ^ 48 - 1 := by
    rwa [toNat_amount48 (by omega)]
  rw [slotAdd, if_pos (.inl hty), setValue_below hsum]
  refine congrArg accept (modSlotRegs_congr ?_)
  rw [toNat_amount48 (by omega), BitVec.ofNat_add, BitVec.ofNat_toNat, BitVec.ofNat_toNat, BitVec.setWidth_eq]

/-- Below the maximum a SET of a counter writes VALUE (R230). -/
theorem slotSet_below (hty : (s.slot k).regs.soCfgType = tyCounter) {v : Word} (hv : v.toNat < 2 ^ 48 - 1) :
    slotSet s k (amount48 v) = accept (modSlotRegs s k fun r => { r with soValValue := v.setWidth 48 }) := by
  have hamount : (amount48 v).toNat < 2 ^ 48 - 1 := by rwa [toNat_amount48 (by omega)]
  rw [slotSet, if_pos hty, setValue_below hamount, toNat_amount48 (by omega), BitVec.ofNat_toNat]

theorem exec_arrive_accepted (h : AtWord s x 0x20) (hstep : s.stepSlot ≠ some (iSlot (s.seq x).word))
    (hty : (s.slot (iSlot (s.seq x).word)).regs.soCfgType = tyBarrier)
    (hnew : (s.slot (iSlot (s.seq x).word)).regs.soValArrived = false) :
    exec (.arrive x) s = .next (slotArrive (issuedAt s x) (iSlot (s.seq x).word)).2 := by
  have hok := (slotArrive_accepted (s := issuedAt s x) (by rwa [modSeq_slot]) (by rwa [modSeq_slot])).1
  show execArrive x s = _
  rw [execArrive, issue_atWord h, modSeq_stepSlot, if_neg hstep, syncWord, hok, if_neg Bool.false_ne_true]

theorem exec_soadd_below (h : AtWord s x 0x21) (hty : (s.slot (iSlot (s.seq x).word)).regs.soCfgType = tyCounter)
    (hv : (s.slot (iSlot (s.seq x).word)).regs.soValValue.toNat + ((s.seq x).v (s.seq x).word).toNat < 2 ^ 48 - 1) :
    exec (.soadd x) s = .next (modSlotRegs (issuedAt s x) (iSlot (s.seq x).word) fun r => { r with
      soValValue := r.soValValue + ((s.seq x).v (s.seq x).word).setWidth 48 }) := by
  show execSoadd x s = _
  rw [execSoadd, issue_atWord h, seq_modSeq, Seq.advance_v, slotAdd_below (by rwa [modSeq_slot]) (by rwa [modSeq_slot])]
  rfl

theorem exec_soset_below (h : AtWord s x 0x22) (hty : (s.slot (iSlot (s.seq x).word)).regs.soCfgType = tyCounter)
    (hv : ((s.seq x).v (s.seq x).word).toNat < 2 ^ 48 - 1) :
    exec (.soset x) s = .next (modSlotRegs (issuedAt s x) (iSlot (s.seq x).word) fun r => { r with
      soValValue := ((s.seq x).v (s.seq x).word).setWidth 48 }) := by
  show execSoset x s = _
  rw [execSoset, issue_atWord h, seq_modSeq, Seq.advance_v, slotSet_below (by rwa [modSeq_slot]) hv]
  rfl

theorem exec_soclr_flag (h : AtWord s x 0x23) (hty : (s.slot (iSlot (s.seq x).word)).regs.soCfgType = tyFlag) :
    exec (.soclr x) s = .next (modSlotRegs (issuedAt s x) (iSlot (s.seq x).word) fun r => { r with
      soValValue := 0, soValSaturated := false }) := by
  show execSoclr x s = _
  rw [execSoclr, issue_atWord h, slotClear, modSeq_slot, if_pos (.inr (.inl hty))]
  rfl

theorem exec_openwin_free (h : AtWord s x 0x24)
    (hfree : s.winPending (getF (s.seq x).word 6 2) (getF (s.seq x).word 0 6) = 0) :
    exec (.openwin x) s = .next (openWindow (issuedAt s x) (getF (s.seq x).word 6 2) (getF (s.seq x).word 0 6)
      (s.ingress (getF (s.seq x).word 6 2))) := by
  show execOpenwin x s = _
  rw [execOpenwin, issue_atWord h, slotOpenWindow, modSeq_winPending, hfree, if_neg (Nat.lt_irrefl 0), modSeq_ingress]
  rfl

/-! ## SEND and TRIG (R232 to R234, R265) -/

/-- With room in the queue a SEND joins it (R234). -/
theorem issueSend_room (hroom : s.tsu.sends.length < 16) (hheld : s.tsu.heldSends = []) (e : SendE) :
    issueSend s none e = modTsu s fun t => { t with sends := t.sends ++ [e] } := by
  rw [issueSend, if_pos ⟨hroom, hheld⟩]

theorem sendRefused_eq_false {e : SendE} (hjob : s.tsuHasJob = true) (htok : e.fmask ≠ 0 ∨ e.bytes = 0)
    (hrank : e.rank.toNat < s.tsu.members.toNat) : sendRefused s e = false := by
  have hnone : (e.fmask == 0 && e.bytes != 0) = false := by
    rcases htok with hmask | hbytes
    · rw [beq_eq_false_iff_ne.2 hmask, Bool.false_and]
    · rw [hbytes, bne_self_eq_false, Bool.and_false]
  rw [sendRefused, hjob, hnone, decide_eq_false (Nat.not_le.2 hrank)]
  rfl

/-- What the SEND word of an engine asks for: SIG_DEST in X[A] and SIG_TOKEN in X[B] (R232). -/
def sendRegs (q : Seq) (w : Word) : SyncRegs := (({} : SyncRegs).write 0x070 (q.x (iA w))).write 0x078 (q.x (iB w))

/-- The queue entry of a SEND with its covers. -/
def SyncRegs.sendE (r : SyncRegs) (cover : List (BitVec 64)) : SendE :=
  { rank := r.sigDestRank, obj := r.sigDestObj, amount := r.sigDestAmount, fmask := r.sigDestFmask, chan := r.sigTokenChan
    window := r.sigTokenWindow, bytes := r.sigTokenBytes, cover := cover }

theorem exec_send_queued (h : AtWord s x 0x26)
    (hok : sendRefused s ((sendRegs (s.seq x) (s.seq x).word).sendE s.covers) = false)
    (hroom : s.tsu.sends.length < 16) (hheld : s.tsu.heldSends = []) :
    exec (.send x) s = .next (modTsu (issuedAt s x) fun t => { t with
      sends := t.sends ++ [(sendRegs (s.seq x) (s.seq x).word).sendE s.covers] }) := by
  have hroom' : (issuedAt s x).tsu.sends.length < 16 := by rwa [modSeq_sends]
  have hheld' : (issuedAt s x).tsu.heldSends = [] := by rwa [modSeq_heldSends]
  have hok' : sendRefused (issuedAt s x) ((sendRegs (s.seq x) (s.seq x).word).sendE s.covers) = false := by
    rwa [sendRefused, modSeq_tsuHasJob, modSeq_members]
  have hfree : (decide (16 ≤ (issuedAt s x).tsu.sends.length) || !(issuedAt s x).tsu.heldSends.isEmpty) = false := by
    rw [hheld', decide_eq_false (Nat.not_le.2 hroom')]
    rfl
  have he : (((({} : SyncRegs).write 0x070 (((issuedAt s x).seq x).x (iA (s.seq x).word))).write 0x078
      (((issuedAt s x).seq x).x (iB (s.seq x).word))).sendE (issuedAt s x).covers) =
      (sendRegs (s.seq x) (s.seq x).word).sendE s.covers := by
    rw [seq_modSeq, Seq.advance_x, Seq.advance_x, modSeq_covers]
    rfl
  rw [← he] at hok' ⊢
  show execSend x s = _
  rw [execSend, issue_atWord h]
  refine congrArg _ (((if_neg (by rw [SyncRegs.sendE] at hok'; rw [hok']; exact Bool.false_ne_true)).trans
    (if_neg (by rw [hfree]; exact Bool.false_ne_true))).trans (issueSend_room hroom' hheld' _))

/-- A tick from now to 2.0 s ahead passes the test with VALID (R64). -/
theorem schedTest_inWindow {p : Part} {target : Tick} (hvalid : s.valid p = true)
    (hin : tickTest target (s.now p) = .inWindow) : schedTest s p target = (true, s) := by
  rw [schedTest, hvalid, hin]
  rfl

/-- An output with fewer than four pulses waiting takes another (R267). -/
theorem addPulse_room {n : BitVec 4} (hroom : (s.trig n).pend.length < 4) (kind : PulseKind) (target : Tick) :
    addPulse s n kind target = modTrig s n fun o => { o with pend := o.pend ++ [(kind, target)] } :=
  modTrig_congr (if_pos hroom)

theorem exec_trig_scheduled (h : AtWord s x 0x2A) (hmode : (s.trig (getF (s.seq x).word 32 4)).regs.trigMode = 4)
    (hvalid : s.valid .tsu = true)
    (hin : tickTest ((s.seq x).launch + (s.seq x).v (s.seq x).word) (s.now .tsu) = .inWindow)
    (hroom : (s.trig (getF (s.seq x).word 32 4)).pend.length < 4) :
    exec (.trig x) s = .next (modTrig (issuedAt s x) (getF (s.seq x).word 32 4) fun o => { o with
      pend := o.pend ++ [(.program, (s.seq x).launch + (s.seq x).v (s.seq x).word)] }) := by
  show execTrig x s = _
  rw [execTrig, issue_atWord h]
  dsimp only
  rw [modSeq_trig, hmode, if_neg (not_not_intro rfl), seq_modSeq, Seq.advance_v, Seq.advance_launch,
    schedTest_inWindow (by rwa [modSeq_valid]) (by rwa [modSeq_now])]
  exact congrArg _ (addPulse_room (by rwa [modSeq_trig]) _ _)

/-! ## The end of a pass (R284, R325, R337) -/

/-- What the end of the home's pass may change. -/
def passMask : Mask where
  take s t := report t { s with
    hub := { s.hub with
      jobs := t.hub.jobs, aud := t.hub.aud, audRing := t.hub.audRing, txns := t.hub.txns, queue := t.hub.queue
      finished := t.hub.finished, locks := t.hub.locks, staged := t.hub.staged }
    tsu := { s.tsu with txnt := t.tsu.txnt, seq := t.tsu.seq, staged := t.tsu.staged } }
  take_take _ _ _ := rfl
  take_report _ _ := rfl

theorem passMask_modSeq (s : State) (j : BitVec 12) (f : Seq → Seq) : passMask.Frame s (modSeq s (.home j) f) := rfl
theorem passMask_modJob (s : State) (j : BitVec 12) (f : HubJob → HubJob) : passMask.Frame s (modJob s j f) := rfl

/-- What the end of a pass leaves of its engine (R284). -/
def Seq.ended (q : Seq) : Seq :=
  { q with mapStep := q.map, mapRun := q.mapRun ||| q.map, wait := none, regs := { q.regs with seqStatusState := 0 } }

theorem endMaps_reported : Reported (modSeq s x Seq.ended) (endMaps s x) :=
  ite_reported (setCause_reported (.refl _) _ _ _) (.refl _)

theorem endMaps_tsu_hub : (endMaps s .tsu).hub = s.hub := ite_keeps State.hub (setCause_tsu_hub ..) rfl

theorem endMaps_home_tsu : (endMaps s (.home j)).tsu = s.tsu := ite_keeps State.tsu (setCause_hub_tsu ..) rfl

/-- The TSU's state as its pass ends: DGP, VMAP and the arrival have left (R337). -/
def passArrived (s : State) (k : BitVec 12) : State :=
  (slotArrive (tsuSendUp (tsuSendUp s (digestFlits s).1) (digestFlits s).2) k).2

theorem exec_stepend_ends (h : AtWord s .tsu 0x2B) (hstep : s.stepSlot = some (iSlot s.tsu.seq.word))
    (hty : (s.slot (iSlot s.tsu.seq.word)).regs.soCfgType = tyBarrier)
    (hnew : (s.slot (iSlot s.tsu.seq.word)).regs.soValArrived = false) :
    exec (.stepend .tsu) s = .next (endMaps (passArrived (issuedAt s .tsu) (iSlot s.tsu.seq.word)) .tsu) := by
  have hok : (slotArrive (issuedAt s .tsu) (iSlot s.tsu.seq.word)).1 = false :=
    (slotArrive_accepted (s := issuedAt s .tsu) hty hnew).1
  have hslot : (issuedAt s .tsu).stepSlot = some (iSlot s.tsu.seq.word) := hstep
  show execStepend .tsu s = _
  rw [execStepend, issue_atWord h]
  refine congrArg _ ((if_neg (not_not_intro hslot)).trans (if_neg ?_))
  rw [show slotArrive (modSeq s .tsu Seq.advance) (iSlot (s.seq .tsu).word) =
    slotArrive (issuedAt s .tsu) (iSlot s.tsu.seq.word) from rfl, hok]
  exact Bool.false_ne_true

theorem passArrived_reported (hty : (s.slot k).regs.soCfgType = tyBarrier) (hnew : (s.slot k).regs.soValArrived = false) :
    Reported (modSlotRegs s k fun r => { r with soValArrived := true }) (passArrived s k) := by
  have hsent := tsuSendUp_reported (tsuSendUp_reported (.refl s) (digestFlits s).1) (digestFlits s).2
  have harrived := (slotArrive_accepted (by rwa [hsent.slot]) (by rwa [hsent.slot])).2
  obtain ⟨r, hr⟩ := hsent.exists_report
  obtain ⟨r', hr'⟩ := harrived.exists_report
  rw [passArrived, hr', hr]
  rfl

theorem passArrived_hub (hty : (s.slot k).regs.soCfgType = tyBarrier) (hnew : (s.slot k).regs.soValArrived = false) :
    (passArrived s k).hub = s.hub := by
  have hsent := tsuSendUp_reported (tsuSendUp_reported (.refl s) (digestFlits s).1) (digestFlits s).2
  rw [passArrived, slotArrive_hub (by rwa [hsent.slot]) (by rwa [hsent.slot]), tsuSendUp_hub, tsuSendUp_hub]

/-- Freeing a step's buffers changes the job's contexts alone, and may report. -/
theorem freeBufs_reported (s : State) (j : BitVec 12) (st : BitVec 64) :
    ∃ f : HubJob → HubJob, (∀ b, f b = { b with ctxs := (f b).ctxs }) ∧ Reported (modJob s j f) (freeBufs s j st) :=
  ⟨_, fun _ => rfl, ite_reported (setCause_reported (.refl _) _ _ _) (.refl _)⟩

theorem freeBufs_tsu (s : State) (j : BitVec 12) (st : BitVec 64) : (freeBufs s j st).tsu = s.tsu :=
  ite_keeps State.tsu (setCause_hub_tsu ..) rfl

/-- A job that is not PAUSING does not come to be PAUSED. -/
theorem pauseCheck_of_ne (h : (s.job j).regs.jobStatusState ≠ 3) : pauseCheck s j = s := by
  unfold pauseCheck pauseFollow
  simp only [h, false_and, if_false]

/-- The home's state as its pass ends: the buffers and folds of the step and those before it are gone (R325). -/
def homePassEnded (s : State) (j : BitVec 12) : State :=
  modJob (freeBufs (endMaps (issuedAt s (.home j)) (.home j)) j (s.job j).seq.step) j fun b => { b with
    folds := b.folds.filter fun f => decide ((s.job j).seq.step.toNat < f.step.toNat) }

/-- What the job is as its home pass ends. -/
theorem homePassEnded_job (s : State) (j : BitVec 12) :
    ∃ c : Tbl HubCtx, (homePassEnded s j).job j = { s.job j with
      seq := (s.job j).seq.advance.ended, ctxs := c
      folds := (s.job j).folds.filter fun f => decide ((s.job j).seq.step.toNat < f.step.toNat) } := by
  obtain ⟨f, hf, hfree⟩ := freeBufs_reported (endMaps (issuedAt s (.home j)) (.home j)) j (s.job j).seq.step
  have hended : (endMaps (issuedAt s (.home j)) (.home j)).job j = { s.job j with seq := (s.job j).seq.advance.ended } := by
    rw [endMaps_reported.job, modSeq, job_modJob, issuedAt, modSeq, job_modJob]
  refine ⟨(f { s.job j with seq := (s.job j).seq.advance.ended }).ctxs, ?_⟩
  rw [homePassEnded, job_modJob, hfree.job, job_modJob, hf, hended]

theorem exec_endPass_ends (h : AtWord s (.home j) 0x01) (hnext : (s.job j).seq.next = none)
    (hstate : (s.job j).regs.jobStatusState = 2) : exec (.endPass (.home j)) s = .next (homePassEnded s j) := by
  obtain ⟨c, hjob⟩ := homePassEnded_job s j
  have hstep : ((issuedAt s (.home j)).job j).seq.step = (s.job j).seq.step := by
    rw [issuedAt, modSeq, job_modJob, Seq.advance_step]
  have hnone : ((homePassEnded s j).job j).seq.next = none := by
    rw [hjob]
    unfold Seq.ended Seq.advance
    dsimp only
    split <;> exact hnext
  show execEndPass (.home j) s = _
  rw [execEndPass, issue_atWord h]
  dsimp only
  rw [show ((modSeq s (.home j) Seq.advance).job j).seq.step = (s.job j).seq.step from hstep]
  rw [homePassEnded] at hnone
  rw [hnone]
  refine congrArg _ (pauseCheck_of_ne (s := homePassEnded s j) ?_)
  rw [hjob]
  show (s.job j).regs.jobStatusState ≠ 3
  rw [hstate]
  decide

end

/-- Settles O23: each word is issued and does on its object what the host's operation does; the two ends of a pass report and
leave the rest. -/
theorem syncWords : Obligations.SyncWords := by
  refine ⟨?arrive, ?soadd, ?soset, ?soclr, ?openwin, ?send, ?trig, ?stepend, ?endPass⟩
  case arrive =>
    intro x s h hstep hty hnew
    have harrive := (slotArrive_accepted (s := issuedAt s x) (by rwa [modSeq_slot]) (by rwa [modSeq_slot])).2
    refine ⟨_, exec_arrive_accepted h hstep hty hnew, rfl, ?_, ?_⟩
    · rw [harrive.slot, modSlotRegs, slot_modSlot, modSeq_slot]
    · rw [harrive.seq, seq_modSlotRegs, seq_modSeq]
  case soadd => exact fun x s h hty hv => ⟨_, exec_soadd_below h hty hv, rfl⟩
  case soset => exact fun x s h hty hv => ⟨_, exec_soset_below h hty hv, rfl⟩
  case soclr => exact fun x s h hty => ⟨_, exec_soclr_flag h hty, rfl⟩
  case openwin => exact fun x s h hfree => ⟨_, exec_openwin_free h hfree, rfl⟩
  case send =>
    intro x r s h hr hjob htok hrank hroom hheld
    subst hr
    exact ⟨_, exec_send_queued h (sendRefused_eq_false hjob htok hrank) hroom hheld, rfl⟩
  case trig => exact fun x s h hmode hvalid hin hroom => ⟨_, exec_trig_scheduled h hmode hvalid hin hroom, rfl⟩
  case stepend =>
    intro s h hstep hty hnew
    have harrived := passArrived_reported (s := issuedAt s .tsu) hty hnew
    have hhub := passArrived_hub (s := issuedAt s .tsu) hty hnew
    have hended := endMaps_reported (s := passArrived (issuedAt s .tsu) (iSlot s.tsu.seq.word)) (x := .tsu)
    have hseq := hended.seq .tsu
    rw [seq_modSeq, harrived.seq, seq_modSlotRegs, seq_modSeq] at hseq
    refine ⟨_, exec_stepend_ends h hstep hty hnew, ?_, ?_, ?_, ?_, ?_, ?_, ?_⟩
    case refine_1 => rw [hended.slot, modSeq_slot, harrived.slot, modSlotRegs, slot_modSlot]
    case refine_2 => exact congrArg (·.regs.seqStatusState) hseq
    case refine_3 => exact congrArg Seq.wait hseq
    case refine_4 => exact congrArg Seq.mapStep hseq
    case refine_5 =>
      refine (congrArg Seq.mapRun hseq).trans ?_
      show (s.seq .tsu).advance.mapRun ||| _ = _
      rw [show (s.seq .tsu).advance.mapRun = s.tsu.seq.mapRun by unfold Seq.advance; split <;> rfl]
      rfl
    case refine_6 => rw [endMaps_tsu_hub, hhub]; rfl
    case refine_7 =>
      obtain ⟨r, hr⟩ := hended.exists_report
      obtain ⟨r', hr'⟩ := harrived.exists_report
      rw [hr, hr']
      rfl
  case endPass =>
    intro j s h hnext hstate
    obtain ⟨c, hjob⟩ := homePassEnded_job s j
    obtain ⟨f, -, hfree⟩ := freeBufs_reported (endMaps (issuedAt s (.home j)) (.home j)) j (s.job j).seq.step
    refine ⟨_, exec_endPass_ends h hnext hstate, ?_, ?_, ?_, ?_, ?_, ?_⟩
    case refine_1 => rw [hjob]; rfl
    case refine_2 => rw [hjob]; rfl
    case refine_3 => rw [hjob]; rfl
    case refine_4 => rw [hjob]
    case refine_5 =>
      show (freeBufs _ _ _).tsu = _
      rw [freeBufs_tsu, endMaps_home_tsu]
      rfl
    case refine_6 =>
      have hissued : passMask.Frame s (issuedAt s (.home j)) := passMask_modSeq ..
      have hended := (hissued.trans (passMask_modSeq _ j Seq.ended)).reported endMaps_reported
      have hfreed := (hended.trans (passMask_modJob _ j f)).reported hfree
      exact hfreed.trans (passMask_modJob ..)

end Sys2Proof.Machine
end

section
/-! O24: a RESULT word gives way in a cycle in which one of its XBUF words is read (R290), whatever it waits for. -/

namespace Sys2Proof.Machine

section

set_option Elab.async false

/-- A RESULT does nothing in a cycle in which a CONTRIB or DIGEST reads one of its XBUF words (R290). -/
theorem exec_result_held {s : State} {x : Site}
    (h : s.xbufRead (resultWords s (s.seq x).word).1 (resultWords s (s.seq x).word).2 = true) :
    exec (.result x) s = .next s := by
  show execResult x s = _
  rw [execResult, if_pos h]

/-- The TSU at a RESULT of one element of context 5 above its length, while a CONTRIB of the cycle reads the first word of
XBUF, to which the RESULT writes. -/
def resultHeld : State := modTsu State.reset fun h => { h with
  ctxs := [(5, { cfg := 0x10 })], xhold := [(0, 1)]
  seq := {
    words := [(1, some 0x100000000), (4, some (putF 56 (0x31 : BitVec 8) ||| putF 32 5#12 ||| putF 48 1#4))]
    regs := { progStatusState := 3, progStatusWords := 5, seqStatusState := 1 }, xs := [(1, 70000)] } }

/-- The RESULT completed in `resultHeld`. -/
def resultHeldCopied : State :=
  copyResult (resume (firstRereq (issuedAt resultHeld .tsu)) .tsu) (iSlot (resultHeld.seq .tsu).word)
    ((resultHeld.seq .tsu).x (iA (resultHeld.seq .tsu).word)) (iCount (resultHeld.seq .tsu).word)
    (iBuf (resultHeld.seq .tsu).word)

theorem resultHeldCopied_pc : resultHeldCopied.tsu.seq.regs.seqStatusPc = 1 := by decide +kernel

end

/-- Refutes O24: the clause of RESULT does not ask that its XBUF words be free, and in `resultHeld`, where one of them is being
read, the engine stays at its word. -/
theorem not_waitingWords : ¬ Obligations.WaitingWords := by
  intro h
  obtain ⟨-, -, -, -, -, hresult, -⟩ := h
  obtain ⟨t, hstep, ht⟩ := hresult .tsu resultHeld (by decide +kernel) (by decide +kernel) (by decide +kernel) (by decide +kernel)
  rw [exec_result_held (by decide +kernel), Host.Outcome.next.injEq] at hstep
  have hpc : resultHeld.tsu.seq.regs.seqStatusPc = 1 := by
    rw [hstep, ht]
    exact resultHeldCopied_pc
  exact absurd hpc (by decide)

end Sys2Proof.Machine
end

section
/-! O25: a request to send a result flit again whose STEP is too far from the job's is counted and refused (R67), even where a
flit of that step is kept. -/

namespace Sys2Proof.Machine

section

set_option Elab.async false

/-- A flit of a job that the hub holds, with a STEP too far from the job's, is counted (R67). -/
theorem nearStep_far {s : State} {j : BitVec 12} {w : BitVec 24} (hholds : s.holds j = true)
    (hfar : extendStep w (s.job j).step = none) (act : State → State) :
    nearStep s j w act = countStepRefused s .hub w (s.job j).step := by
  rw [nearStep, hholds, hfar]
  rfl

/-- Above the leaf hubs no rank is looked at as a flit enters. -/
theorem atEdge_of_tier {s : State} (h : s.tier ≠ 0) (l : LinkId) (j : BitVec 12) (r : BitVec 20) (act : State → State) :
    atEdge s l j r act = act s := by
  simp [atEdge, h]

/-- The kept flit of step 5,000,000, which lies beyond what a job at step 0 can name. -/
def farResult : ResultP :=
  { job := 3, epoch := false, ctx := 0, step := 5000000, elem := 0, ne := 0, flags := 0, rank := 0xFFFFF, rres := 0, data := 0 }

def farRereq : RereqP := { job := 3, epoch := false, ctx := 0, step := 5000000, elem := 0, rank := 1 }

/-- A home member whose job stands at step 0 and that keeps `farResult`. -/
def farKept : State := modJob State.reset 3 fun b => { b with
  regs := { b.regs with jobStatusState := 2 }, kept := [(0, farResult)], ranks := [(1, some 64)] }

/-- `farKept` once the request has been taken from the hub's first link. -/
def farTaken : State := taken farKept ⟨.hub, 0, 0⟩ (.rereq farRereq)

theorem exec_rereqReceive_farKept :
    exec (.rereqReceive ⟨.hub, 0, 0⟩ farRereq) farKept = .next (countStepRefused farTaken .hub 5000000 0) := by
  show Host.Outcome.next (atEdge farTaken ⟨.hub, 0, 0⟩ 3 1 fun s => nearStep s 3 5000000 (rereqTake farRereq)) = _
  rw [atEdge_of_tier (by decide +kernel), nearStep_far (by decide +kernel) (by decide +kernel)]
  rfl

/-- The request counted and answered, as the clause of the request says. -/
def farAnswered : State :=
  sendEp (modHub farTaken fun h => { h with flt := { h.flt with dlvErrCopyRereq := satInc h.flt.dlvErrCopyRereq } }) 3 64
    (.result { farResult with rank := 1 })

theorem farAnswered_counted : farAnswered.hub.flt.dlvErrCopyRereq = 1 := by decide +kernel

theorem farRefused_uncounted : (countStepRefused farTaken .hub 5000000 0).hub.flt.dlvErrCopyRereq = 0 := by decide +kernel

end

/-- Refutes O25: the clause of the request does not ask that its STEP be near the job's, and `farKept` refuses `farRereq` without
sending the flit it keeps. -/
theorem not_reductionsOnTheWay : ¬ Obligations.ReductionsOnTheWay := by
  intro h
  obtain ⟨-, -, -, -, -, -, -, -, hrereq, -⟩ := h
  obtain ⟨t, hstep, ht⟩ := hrereq ⟨.hub, 0, 0⟩ farRereq (0, farResult) [] 64 farKept (by decide +kernel) (by decide +kernel)
    (by decide +kernel) (by decide +kernel)
  rw [exec_rereqReceive_farKept, Host.Outcome.next.injEq] at hstep
  have hcount : (countStepRefused farTaken .hub 5000000 0).hub.flt.dlvErrCopyRereq = 1 := by
    rw [hstep, ht]
    exact farAnswered_counted
  rw [farRefused_uncounted] at hcount
  exact absurd hcount (by decide)

end Sys2Proof.Machine
end

section
/-! O26: results, refusals and poison at the TSU, the replay queues, what the die declares, and the exchange buffer. -/

namespace Sys2Proof.Machine

section

set_option Elab.async false

variable {s t : State} {j : BitVec 12} {e : Bool} {i : Iface} {data : Word}

/-! ## A flit of the TSU's running job (R416, R418) -/

theorem TsuRuns.not_drains (h : TsuRuns s j e) : s.tsuDrains j = false := by
  obtain ⟨-, hstate, -, -⟩ := h
  have hne : s.tsu.txnt.ttJobState ≠ 6 := fun h6 => by rw [h6] at hstate; exact absurd hstate (by decide)
  rw [State.tsuDrains, beq_eq_false_iff_ne.2 hne, Bool.false_and]

theorem TsuRuns.jobOk (h : TsuRuns s j e) : tsuJobOk s j e = (true, s) := by
  obtain ⟨hjob, -, hj, he⟩ := h
  simp only [tsuJobOk, hjob, hj, he, bne_self_eq_false, Bool.not_true, Bool.or_self, Bool.false_eq_true, if_false,
    beq_self_eq_true,
    if_true]

theorem Reported.tsuRuns (h : Reported s t) (hr : TsuRuns s j e) : TsuRuns t j e := by
  obtain ⟨r, rfl⟩ := h.exists_report
  exact hr

theorem Reported.step (h : Reported s t) : t.tsu.step = s.tsu.step := by
  obtain ⟨r, rfl⟩ := h.exists_report
  rfl

theorem Reported.tsuSeq (h : Reported s t) : t.tsu.seq = s.tsu.seq := h.seq .tsu

theorem taken_reported_self (s : State) (l : LinkId) (m : Msg) : Reported s (taken s l m) := taken_reported (.refl s) l m

/-! ## Results (R291, R323, R324, R392) -/

theorem exec_resultFlitReceive_kept {l : LinkId} {m : ResultP} (hroom : s.tsu.store.length < 1024)
    (hres : residue m.data.toNat = m.rres) (hruns : TsuRuns s m.job m.epoch) (hcfg : s.ctxCfg m.ctx ≠ 0)
    (hstep : extendStep m.step s.tsu.step.stepNow = some s.tsu.step.stepNow) :
    exec (.resultFlitReceive l m) s = .next (modTsu s fun h => { h with
      store := h.store ++ [{ via := l, res := m }], resFlags := tset 0 h.resFlags m.ctx.toNat m.flags }) := by
  show execResultFlitReceive l m s = _
  rw [execResultFlitReceive, if_neg (Nat.not_le.2 hroom), resultTake, hruns.not_drains, if_neg Bool.false_ne_true,
    if_neg (not_not_intro hres), hruns.jobOk]
  dsimp only
  rw [if_neg hcfg, hstep]
  dsimp only
  rw [if_neg (not_not_intro rfl)]

theorem sendRereq_reported (s : State) (l : LinkId) (c : BitVec 12) (st : BitVec 24) (el : BitVec 16) :
    Reported s (sendRereq s l c st el) :=
  sendLink_reported ((Reported.refl s).tsu _ fun _ => rfl) l _ _

theorem sendRereq_hub {l : LinkId} (h : l.part = .tsu) (s : State) (c : BitVec 12) (st : BitVec 24) (el : BitVec 16) :
    (sendRereq s l c st el).hub = s.hub := sendLink_hub h _ _

theorem Reported.rereqB (h : Reported s t) : t.tsu.rereqB = s.tsu.rereqB := by
  obtain ⟨r, rfl⟩ := h.exists_report
  rfl

/-- Asking again for what is missing turns to the other link for the next time (R392). -/
theorem rereqWaiting_rereqB (s : State) (c : BitVec 12) (first count : Nat) :
    (rereqWaiting s c first count).tsu.rereqB = !s.tsu.rereqB :=
  congrArg (!·) (foldl_reported (s := s) (fun u _ k => k.trans (sendRereq_reported u _ c _ _)) (.refl s)).rereqB

theorem rereqWaiting_hub (s : State) (c : BitVec 12) (first count : Nat) : (rereqWaiting s c first count).hub = s.hub := by
  have hpart : (if s.tsu.rereqB then linkB else linkA).part = .tsu := by split <;> rfl
  exact foldl_keeps State.hub (fun u x => sendRereq_hub hpart u _ _ _) _ s

/-! ## REFUSE and STEP_POISON (R293, R314, R394) -/

/-- The TSU halts, counts the halt, and reports it. -/
theorem haltHere_tsu_reported (s : State) (cause : BitVec 3) : Reported (modTsu s fun t => { t with
    seq := { t.seq with
      wait := none
      regs := { t.seq.regs with
        seqStatusState := 3, seqStatusHaltCause := cause, seqStatusHaltPc := t.seq.cur
        seqErrHalts := satInc t.seq.regs.seqErrHalts } } }) (haltHere s .tsu cause) :=
  tsuReport_reported (setCause_reported (.refl _) _ _ _) _ _

theorem haltHere_tsu_hub (s : State) (cause : BitVec 3) : (haltHere s .tsu cause).hub = s.hub :=
  (tsuSend_hub _ _).trans (setCause_tsu_hub _ _ _)

/-- The TSU with a refusal counted and its cause set (R314). -/
def refusalShown (s : State) : State :=
  setCause (modTsu s fun t => { t with spt := { t.spt with sptErrRefused := satInc t.spt.sptErrRefused } }) .tsu .spt 1

theorem exec_refuseReceive_halts {l : LinkId} {m : RefuseP} (hruns : TsuRuns s m.job m.epoch)
    (hnear : (extendStep m.step s.tsu.step.stepNow).isSome = true) (hrun : s.tsu.seq.running = true) :
    exec (.refuseReceive l m) s = .next (haltHere (refusalShown (taken s l (.refuse m))) .tsu 4) := by
  have htaken := taken_reported_self s l (.refuse m)
  have hruns' := htaken.tsuRuns hruns
  have hshown : Reported (modTsu (taken s l (.refuse m)) fun t => { t with
      spt := { t.spt with sptErrRefused := satInc t.spt.sptErrRefused } }) (refusalShown (taken s l (.refuse m))) :=
    setCause_reported (.refl _) _ _ _
  have hrun' : (refusalShown (taken s l (.refuse m))).tsu.seq.running = true := by
    rw [hshown.tsuSeq, modTsu_tsu, htaken.tsuSeq, hrun]
  show Host.Outcome.next (refuseTake m (taken s l (.refuse m))) = _
  rw [refuseTake, hruns'.not_drains, if_neg Bool.false_ne_true, hruns'.jobOk]
  dsimp only
  rw [tsuNearStep, htaken.step, if_pos hnear]
  exact congrArg _ (if_pos hrun')

/-- The TSU that shows a poison of a step and target (R394). -/
def poisonShown (s : State) (st : BitVec 64) (target : BitVec 16) : State :=
  setCause (modTsu s fun h => { h with evqRegs := { h.evqRegs with
    eqPoison := st, eqPoisonTgtValid := true, eqPoisonTgtTarget := target } }) .tsu .evq 2

/-- The record of a poison of a step and target: its SUB is free. -/
def poisonRaised (s : State) (st : BitVec 64) (target : BitVec 16) : State :=
  raise { s with free := s.free + 1 } .tsu
    { tsuEv { s with free := s.free + 1 } 0x0012 (Config.poisonSub s.free) 2 [(16, target.toNat)] with step := st }

theorem exec_stepPoisonReceive_shown {l : LinkId} {m : StepPoisonP} {st : BitVec 64} (hruns : TsuRuns s m.job m.epoch)
    (hstep : extendStep m.step s.tsu.step.stepNow = some st) (hfirst : s.tsu.evqRegs.eqPoisonTgtValid = false) :
    exec (.stepPoisonReceive l m) s =
      .next (poisonShown (poisonRaised (taken s l (.stepPoison m)) st m.target) st m.target) := by
  have htaken := taken_reported_self s l (.stepPoison m)
  have hruns' := htaken.tsuRuns hruns
  show Host.Outcome.next (poisonTake m (taken s l (.stepPoison m))) = _
  rw [poisonTake, hruns'.not_drains, if_neg Bool.false_ne_true, hruns'.jobOk]
  dsimp only
  rw [htaken.step, hstep]
  dsimp only
  rw [taken_evqRegs, hfirst, Bool.false_and, Bool.false_and, if_neg Bool.false_ne_true]
  rfl

/-! ## Replay queues, what the die declares, and XBUF (R290, R361, R371, R372, R377) -/

theorem exec_rqPush_room (h : Answers s i) (hi : i.part = .tsu) (hroom : s.tsu.rq.length < 1024) :
    exec (.rqPush i data) s = .next (emit (modTsu s fun h => { h with
      rq := h.rq ++ [{ step := h.det.rqStep, vidx := getF data 0 8, value := h.det.rqValue }] }) (.writeAck i false)) := by
  show ackWrite i s (rqPushWrite i data s) = _
  rw [ackWrite_answers h, rqPushWrite, onPart_part hi, if_neg (Nat.not_le.2 hroom)]
  rfl

theorem exec_rqFlush_idle (h : Answers s i) (hi : i.part = .tsu) (hidle : s.tsu.seq.running = false) :
    exec (.rqFlush i data) s = .next (emit (modTsu s fun h => { h with rq := [] }) (.writeAck i false)) := by
  show ackWrite i s (rqStatusWrite i (data ||| putB 16 true) s) = _
  rw [ackWrite_answers h, rqStatusWrite, onPart_part hi, getB_or_putB_same _ (by decide), hidle]
  rfl

theorem exec_hqPush_room (h : Answers s i) (hi : i.part = .hub) (hroom : s.hub.hq.length < 1024) :
    exec (.hqPush i data) s = .next (emit (modHub s fun h => { h with
      hq := h.hq ++ [{ step := h.deth.hqStep, vidx := getF data 0 8, value := h.deth.hqValue }] }) (.writeAck i false)) := by
  show ackWrite i s (hqPushWrite i data s) = _
  rw [ackWrite_answers h, hqPushWrite, onPart_part hi, if_neg (Nat.not_le.2 hroom)]
  rfl

/-- Without a job that runs the die may declare its values (R361). -/
theorem detWrite_open (hi : i.part = .tsu) (hopen : s.tsuHasJob = false ∨ s.tsuPaused = true) (k : Nat) :
    detWrite k i data s = accept (modTsu s fun t =>
      if k = 0 then { t with det := { t.det with detFw := data } }
      else { t with
        unitmap := (t.unitmap &&& ~~~((0xFFFFFFFFFFFFFFFF : BitVec 256) <<< (64 * (4 - k)))) |||
          (data.setWidth 256 <<< (64 * (4 - k))) }) := by
  have hfree : (s.tsuHasJob && !s.tsuPaused) = false := by
    rcases hopen with hnone | hpaused
    · rw [hnone, Bool.false_and]
    · rw [hpaused, Bool.not_true, Bool.and_false]
  rw [detWrite, onPart_part hi, hfree, if_neg Bool.false_ne_true]

/-- The unit map with its highest word replaced. -/
def unitmapHigh (u : BitVec 256) (v : Word) : BitVec 256 :=
  (u &&& ~~~((0xFFFFFFFFFFFFFFFF : BitVec 256) <<< 192)) ||| (v.setWidth 256 <<< 192)

theorem unitmapHigh_high (u : BitVec 256) (v : Word) : (unitmapHigh u v).extractLsb' 192 64 = v := by
  refine BitVec.eq_of_getLsbD_eq fun k hk => ?_
  have hones : (0xFFFFFFFFFFFFFFFF : BitVec 256).getLsbD k = true := by
    rw [show (0xFFFFFFFFFFFFFFFF : BitVec 256) = (BitVec.allOnes 64).setWidth 256 from rfl, BitVec.getLsbD_setWidth,
      BitVec.getLsbD_allOnes]
    simp [hk, show k < 256 by omega]
  have hlt : 192 + k < 256 := by omega
  simp only [unitmapHigh, BitVec.getLsbD_extractLsb', BitVec.getLsbD_or, BitVec.getLsbD_and, BitVec.getLsbD_not,
    BitVec.getLsbD_shiftLeft, Nat.add_sub_cancel_left, hones, BitVec.getLsbD_setWidth, hk, hlt]
  simp [show k < 256 by omega, show ¬ 192 + k < 192 by omega]

theorem unitmapHigh_low (u : BitVec 256) (v : Word) : (unitmapHigh u v).extractLsb' 0 192 = u.extractLsb' 0 192 := by
  refine BitVec.eq_of_getLsbD_eq fun k hk => ?_
  have hlt : k < 256 := by omega
  simp only [unitmapHigh, BitVec.getLsbD_extractLsb', BitVec.getLsbD_or, BitVec.getLsbD_and, BitVec.getLsbD_not,
    BitVec.getLsbD_shiftLeft, Nat.zero_add, hk, hlt]
  simp

theorem exec_detFwWrite_fw (h : Answers s i) (hi : i.part = .tsu) (hopen : s.tsuHasJob = false ∨ s.tsuPaused = true) :
    exec (.detFwWrite i 0 data) s =
      .next (emit (modTsu s fun h => { h with det := { h.det with detFw := data } }) (.writeAck i false)) := by
  show ackWrite i s (detWrite 0 i data s) = _
  rw [ackWrite_answers h, detWrite_open hi hopen]
  rfl

theorem exec_detFwWrite_unitmap0 (h : Answers s i) (hi : i.part = .tsu) (hopen : s.tsuHasJob = false ∨ s.tsuPaused = true) :
    exec (.detFwWrite i 1 data) s =
      .next (emit (modTsu s fun h => { h with unitmap := unitmapHigh h.unitmap data }) (.writeAck i false)) := by
  show ackWrite i s (detWrite 1 i data s) = _
  rw [ackWrite_answers h, detWrite_open hi hopen]
  rfl

theorem exec_xbufHostWrite_free {word : BitVec 13} (h : Answers s i) (hi : i.part = .tsu)
    (hfree : s.xbufHeld word.toNat = false) :
    exec (.xbufHostWrite i word data) s = .next (emit (setXbuf s word.toNat data) (.writeAck i false)) := by
  show ackWrite i s (xbufWrite word i data s) = _
  rw [ackWrite_answers h, xbufWrite, onPart_part hi, hfree]
  rfl

end

/-- Settles O26: a flit of the TSU's running job passes its tests, and each write of a queue, a declared value or XBUF its own. -/
theorem resultsAtTheTsu : Obligations.ResultsAtTheTsu := by
  refine ⟨?result, ?rerequest, ?refuse, ?poison, ?rqPush, ?rqFlush, ?hqPush, ?detFw, ?unitmap, ?xbuf⟩
  case result =>
    exact fun l m s hroom hres hruns hcfg hstep => ⟨_, exec_resultFlitReceive_kept hroom hres hruns hcfg hstep, rfl⟩
  case rerequest =>
    intro c first n b s hwait
    refine ⟨rereqWaiting s c first.toNat n, ?_, rfl, rereqWaiting_rereqB .., rereqWaiting_hub ..⟩
    show execResultRerequestTimer s = _
    rw [execResultRerequestTimer, hwait]
  case refuse =>
    intro l m s hl hruns hnear hrun
    have htaken := taken_reported_self s l (.refuse m)
    have hshown : Reported (modTsu (taken s l (.refuse m)) fun t => { t with
        spt := { t.spt with sptErrRefused := satInc t.spt.sptErrRefused } }) (refusalShown (taken s l (.refuse m))) :=
      setCause_reported (.refl _) _ _ _
    have hhalt := haltHere_tsu_reported (refusalShown (taken s l (.refuse m))) 4
    have hseq := hhalt.tsuSeq
    have hhub : (haltHere (refusalShown (taken s l (.refuse m))) .tsu 4).hub = s.hub := by
      rw [haltHere_tsu_hub, refusalShown, setCause_tsu_hub, modTsu_hub, taken_hub hl]
    obtain ⟨r, hr⟩ := htaken.exists_report
    obtain ⟨r', hr'⟩ := hshown.exists_report
    obtain ⟨r'', hr''⟩ := hhalt.exists_report
    refine ⟨_, exec_refuseReceive_halts hruns hnear hrun, congrArg (·.regs.seqStatusState) hseq,
      congrArg (·.regs.seqStatusHaltCause) hseq, congrArg Seq.wait hseq, ?_, hhub, ?_⟩
    all_goals
      rw [hr'', hr', hr]
      rfl
  case poison =>
    intro l m st s hl hruns hstep hfirst
    have htaken := taken_reported_self s l (.stepPoison m)
    have hraised : Reported { taken s l (.stepPoison m) with free := (taken s l (.stepPoison m)).free + 1 }
        (poisonRaised (taken s l (.stepPoison m)) st m.target) := raise_reported (.refl _) _ _
    have hshown : Reported _ (poisonShown (poisonRaised (taken s l (.stepPoison m)) st m.target) st m.target) :=
      setCause_reported (.refl _) _ _ _
    have hhub : (poisonShown (poisonRaised (taken s l (.stepPoison m)) st m.target) st m.target).hub = s.hub := by
      rw [poisonShown, setCause_tsu_hub, modTsu_hub, poisonRaised, raise_tsu_hub]
      exact taken_hub hl _
    refine ⟨_, exec_stepPoisonReceive_shown hruns hstep hfirst, ?_, ?_, ?_, setCause_hdr (by decide) (by decide), hhub, ?_⟩
    case refine_4 =>
      obtain ⟨r, hr⟩ := htaken.exists_report
      obtain ⟨r', hr'⟩ := hraised.exists_report
      obtain ⟨r'', hr''⟩ := hshown.exists_report
      rw [hr'', hr', hr]
      rfl
    all_goals
      rw [poisonShown, setCause_evqRegs]
      rfl
  case rqPush => exact fun i data s h hi hroom => ⟨_, exec_rqPush_room h hi hroom, rfl⟩
  case rqFlush => exact fun i data s h hi hidle => ⟨_, exec_rqFlush_idle h hi hidle, rfl⟩
  case hqPush => exact fun i data s h hi hroom => ⟨_, exec_hqPush_room h hi hroom, rfl⟩
  case detFw =>
    intro i which data s h hi hopen hwhich
    subst hwhich
    exact ⟨_, exec_detFwWrite_fw h hi hopen, rfl⟩
  case unitmap =>
    intro i which data s h hi hopen hwhich
    subst hwhich
    exact ⟨_, exec_detFwWrite_unitmap0 h hi hopen, unitmapHigh_high .., unitmapHigh_low .., rfl⟩
  case xbuf => exact fun i word data s h hi hfree => ⟨_, exec_xbufHostWrite_free h hi hfree, rfl, xbufAt_setXbuf ..⟩

end Sys2Proof.Machine
end

section
/-! O27: the provenance reports of a step change the hub's provenance table as the step's folds complete (R348). -/

namespace Sys2Proof.Machine

section

set_option Elab.async false

/-- A report of shard 0, of KIND 1 (R340, R347). -/
def shardCheck : CheckP :=
  { job := 3, epoch := false, step := 0, rank := 0, did := 0, kind := 1, shard := 0, value := 7 }

/-- The lead of job 3, which has no members left, at HDIGEST of step 0 with `shardCheck` held. -/
def shardHeld : State := modJob State.reset 3 fun b => { b with
  regs := { b.regs with jobStatusState := 2 }, leads := true
  seq := { b.seq with wait := some .hdigest }, folds := [{ step := 0, checks := [shardCheck] }] }

theorem foldsComplete_shardHeld_prov : (foldsComplete shardHeld 3).hub.prov ≠ [] := by decide +kernel

end

/-- Refutes O27: the clause of the folds that complete on the lead leaves the provenance table as it was, and in `shardHeld` the
step's report of a shard writes the shard's entry. -/
theorem not_digestsOnHubs : ¬ Obligations.DigestsOnHubs := by
  intro h
  obtain ⟨-, -, -, -, -, -, hcomplete, -⟩ := h
  obtain ⟨t, hstep, -, -, -, hframe⟩ := hcomplete 3 shardHeld (by decide +kernel) (by decide +kernel) (by decide +kernel)
    (by decide +kernel) (by decide +kernel)
  have hrun : foldsComplete shardHeld 3 = t := Host.Outcome.next.inj hstep
  have hprov : t.hub.prov = shardHeld.hub.prov := by
    obtain ⟨r, hr⟩ := hframe.exists_report
    rw [hr]
    rfl
  rw [← hrun] at hprov
  exact foldsComplete_shardHeld_prov (hprov.trans (by decide +kernel))

end Sys2Proof.Machine
end

section
/-! O34: a hub that coordinates a PAUSE itself counts its own report of the commit in the transaction (R430, R432). -/

namespace Sys2Proof.Machine

section

set_option Elab.async false

/-- A committed PAUSE of job 3, without actions, that this hub coordinates. -/
def ownPause : Staged :=
  { coord := 0xFFFF, tid := 5, kind := 4, partition := 3, commit := 0, voteBy := 0, share := [], via := none, committed := true }

/-- The hub at the tick of `ownPause`, whose transaction waits for the reports of two hubs. -/
def ownPauseDue : State :=
  modHub (modTb State.reset .hub fun b =>
    { b with resolve := false, regs := { b.regs with statusValid := true } }) fun h => { h with
    staged := [(3, some ownPause)]
    txns := [(5, { regs := { txnStatusPhase := 3, txnStatusKind := 4 }, hubs := [0xFFFF, 0xDFFF] })] }

theorem applyHub_ownPause_reports : ((applyHub ownPauseDue ownPause).txn 5).reports = 1 := by decide +kernel

theorem exec_txnCommitApply_due {s : State} {p : Part} {partition : BitVec 13} {g : Staged}
    (hstaged : s.stagedAt p partition = some g) (hdue : commitDue s p g = true) :
    exec (.txnCommitApply p partition) s = .next (applyStaged s p g) := by
  show execTxnCommitApply p partition s = _
  rw [execTxnCommitApply, hstaged]
  exact if_pos hdue

end

/-- Refutes O34: the clause of a PAUSE on the hub leaves the hub's transactions as they were, and in `ownPauseDue` the commit
counts the hub's own report. -/
theorem not_transactionsAtATarget : ¬ Obligations.TransactionsAtATarget := by
  intro h
  obtain ⟨-, -, -, -, -, -, -, -, hpause, -⟩ := h
  obtain ⟨t, hstep, -, -, -, -, hframe⟩ := hpause 3 ownPause 3 ownPauseDue (by decide +kernel) (by decide +kernel)
    (by decide +kernel) (by decide +kernel) (by decide +kernel) (by decide +kernel)
  rw [exec_txnCommitApply_due (g := ownPause) (by decide +kernel) (by decide +kernel), Host.Outcome.next.injEq] at hstep
  have htxn : t.txn 5 = ownPauseDue.txn 5 := by
    obtain ⟨r, hr⟩ := hframe.exists_report
    rw [hr]
    rfl
  have hreports : (t.txn 5).reports = 1 := by
    rw [← hstep]
    exact applyHub_ownPause_reports
  rw [htxn] at hreports
  exact absurd hreports (by decide +kernel)

end Sys2Proof.Machine
end

section
/-! O35: at a leaf hub a PAUSE_REPLY of a rank that lies at or above the job's membership is refused as it enters (R45). -/

namespace Sys2Proof.Machine

section

set_option Elab.async false

/-- A leaf hub refuses a flit of a rank that a job it holds does not have, on a link of one of its dies (R45). -/
theorem atEdge_refuses {s : State} {l : LinkId} {j : BitVec 12} {r : BitVec 20} (htier : s.tier = 0) (hrole : s.role l = 1)
    (hholds : s.holds j = true) (hrank : (s.job j).members.toNat ≤ r.toNat) (act : State → State) :
    atEdge s l j r act = refuseXlat s j := by
  simp [atEdge, htier, hrole, hholds, hrank]

def rankReply : PauseReplyP := { job := 3, epoch := false, rank := 0 }

/-- A leaf hub that leads job 3, which has no member, with a die on its first port. -/
def rankBeyond : State :=
  modJob (modPage (modHub State.reset fun h => { h with id := { h.id with hubAddr := 0 } }) .hub 0 fun g => { g with
    role := { g.role with portRole := 1 } }) 3 fun b => { b with
      regs := { b.regs with jobStatusState := 2 }, lead := 0, leads := true }

/-- `rankBeyond` once the reply has been taken from the die's link. -/
def rankTaken : State := taken rankBeyond ⟨.hub, 0, 0⟩ (.pauseReply rankReply)

theorem exec_pauseReplyReceive_rankBeyond :
    exec (.pauseReplyReceive ⟨.hub, 0, 0⟩ rankReply) rankBeyond = .next (refuseXlat rankTaken 3) := by
  show Host.Outcome.next (atEdge rankTaken ⟨.hub, 0, 0⟩ 3 0 (pauseReplyTake rankReply)) = _
  rw [atEdge_refuses (by decide +kernel) (by decide +kernel) (by decide +kernel) (by decide +kernel)]

theorem refuseXlat_rankTaken_replied : ((refuseXlat rankTaken 3).job 3).replied = [] := by decide +kernel

end

/-- Refutes O35: the clause of the reply does not ask that its rank be a member's, and `rankBeyond` refuses `rankReply` and keeps
no rank. -/
theorem not_pausesDrainsAndAborts : ¬ Obligations.PausesDrainsAndAborts := by
  intro h
  obtain ⟨-, -, -, -, -, -, hreply, -⟩ := h
  obtain ⟨t, hstep, ht, -⟩ := hreply ⟨.hub, 0, 0⟩ rankReply rankBeyond (by decide +kernel) (by decide +kernel) (by decide +kernel)
    (by decide +kernel)
  rw [exec_pauseReplyReceive_rankBeyond, Host.Outcome.next.injEq] at hstep
  have hreplied : (t.job 3).replied ≠ [] := by
    rw [ht, show rankReply.job = 3 from rfl, job_modJob]
    exact List.append_ne_nil_of_right_ne_nil _ (List.cons_ne_nil _ _)
  rw [← hstep, refuseXlat_rankTaken_replied] at hreplied
  exact hreplied rfl

end Sys2Proof.Machine
end

section
/-! O38: a port whose CABLE_MISMATCH is set already stays out of service, whatever HELLO its links bring (R27). -/

namespace Sys2Proof.Machine

section

set_option Elab.async false

/-- The hub's first link. -/
def firstLink : LinkId := ⟨.hub, 0, 0⟩

/-- A HELLO of a TSU at version 4. -/
def tsuHello : HelloP :=
  { ver := 4, verMin := 3, kind := true, addr := 0xFFFF, role := 0, subport := 0, ep := 0, ident := 0, fw := 0, cred := 0
    spw := false }

/-- A DOWN port that expects no neighbour of its own and has seen a wrong one; its link waits for HELLO. -/
def cableMismatched : State :=
  modLinkRegs (modPage State.reset .hub 0 fun g => { g with
    role := { g.role with portRole := 1, portRoleExpectHub := 0xFFFF, portRoleCableMismatch := true } }) firstLink
    fun r => { r with
      lkState := 5 }

/-- The state of the first link in what a command answers. -/
def firstLinkState : Host.Outcome State Fault Refusal → Option (BitVec 3)
  | .next t => some (t.link firstLink).regs.lkState
  | _ => none

theorem helloReceive_cableMismatched : firstLinkState (execHelloReceive firstLink tsuHello cableMismatched) = some 5 := by
  decide +kernel

end

/-- Refutes O38: the clause of a fitting HELLO at a hub does not ask that CABLE_MISMATCH be 0, and `cableMismatched` leaves its
link out of service. -/
theorem not_linkTraining : ¬ Obligations.LinkTraining := by
  intro h
  obtain ⟨-, -, -, -, -, -, hhello, -⟩ := h
  obtain ⟨t, hstep, hregs, -⟩ := hhello firstLink tsuHello 4 cableMismatched (by decide +kernel) (by decide +kernel)
    (by decide +kernel) (by decide +kernel) (by decide +kernel) (by decide +kernel)
  have hrun : execHelloReceive firstLink tsuHello cableMismatched = .next t := hstep
  have hstate := helloReceive_cableMismatched
  rw [hrun, firstLinkState, hregs] at hstate
  exact absurd hstate (by decide)

end Sys2Proof.Machine
end

section
/-! A reading of the state that a command answers, for the counterexamples below. -/

namespace Sys2Proof.Machine

/-- A field of the next state of an outcome. -/
def readNext {α : Type} (f : State → α) : Host.Outcome State Fault Refusal → Option α
  | .next t => some (f t)
  | _ => none

theorem readNext_of_eq_next {α : Type} {o : Host.Outcome State Fault Refusal} {t : State} (f : State → α) {x : α}
    (h : o = .next t) (hx : readNext f o = some x) : f t = x := by
  rw [h] at hx
  exact Option.some.inj hx

end Sys2Proof.Machine
end

section
/-! O1: a part in MANUAL stays there when its island loses lock. -/

namespace Sys2Proof.Machine

section

set_option Elab.async false

/-- A hub whose servo is in MANUAL. -/
def hubInManual : State := modServoRegs State.reset .hub fun r => { r with servoStatusState := 4 }

theorem islandLockLoss_hubInManual :
    readNext (fun t => t.servoState .hub) (execIslandLockLoss .hub hubInManual) = some 4 := by
  decide +kernel

end

/-- Refutes O1: the clause of the island's loss of lock puts every servo in FREE, and one in MANUAL keeps its state. -/
theorem not_islandAndClusters : ¬ Obligations.IslandAndClusters := by
  intro h
  obtain ⟨-, -, -, -, -, -, -, hloss, -⟩ := h
  obtain ⟨t, hstep, -, -, hstate, -⟩ := hloss .hub hubInManual
  have hmanual : t.servoState .hub = 4 := readNext_of_eq_next _ hstep islandLockLoss_hubInManual
  exact absurd (hmanual.symm.trans hstate) (by decide)

end Sys2Proof.Machine
end

section
/-! O2: a missed edge at an engine's own point lets stamps that waited behind it form a sample, whose end may be a missed edge
of a link: the engine then counts two edges as missed. -/

namespace Sys2Proof.Machine

section

set_option Elab.async false

/-- An engine of the hub in INTERVAL mode from its own input to a link's stamps. A stamp of its input waits behind the edges that
are being converted, and a missed edge of the link is kept as the next end of a sample. -/
def waitingEngine : Engine := {
  regs := { emuStatusBusy := true, emuSrcAClass := 1, emuSrcBClass := 3 }
  qA := [{ t := 0 }]
  bs := [{ t := 1, missed := true }] }

/-- The hub with that engine, both of whose converters of its input are at work. -/
def missedBehindStamp : State :=
  modPoint (modEmu State.reset .hub 0 fun _ => waitingEngine) (.engineA .hub 0) fun q =>
    { q with conv0 := some { tag := .edge true, edge := 0 }, conv1 := some { tag := .edge true, edge := 1 }, edges := 2 }

theorem stampEdge_missedBehindStamp :
    readNext (fun t => (t.emu .hub 0).regs.emuDiscardMissed)
      (execStampEdge (.engineA .hub 0) (.edge true) missedBehindStamp) = some 2 := by
  decide +kernel

end

/-- Refutes O2: the clause of a missed edge lets the engine count one, and in `missedBehindStamp` it counts two. -/
theorem not_stampsAndEngines : ¬ Obligations.StampsAndEngines := by
  intro h
  obtain ⟨-, -, -, -, hmissed, -⟩ := h
  obtain ⟨t, hstep, hcount, -⟩ := hmissed (.edge true) .hub 0 missedBehindStamp (by decide +kernel) (by decide +kernel)
    (by decide +kernel) (by decide +kernel)
  have htwo : (t.emu .hub 0).regs.emuDiscardMissed = 2 := readNext_of_eq_next _ hstep stampEdge_missedBehindStamp
  exact absurd (htwo.symm.trans hcount) (by decide +kernel)

end Sys2Proof.Machine
end

section
/-! O5: a follow-up whose link has left service goes nowhere. -/

namespace Sys2Proof.Machine

section

set_option Elab.async false

/-- The hub's first link, which is not in service, on which the SYNC of SEQ 0 went out. -/
def syncedLink : LinkId := ⟨.hub, 0, 0⟩

/-- A follow-up of the master's own SYNC of SEQ 0. -/
def ownFollowUp : FwdFu := {
  fu := {
    seq := 0, hops := 0, bad := false, srcValid := true, srcHoldover := false, master := 0, originTick := 0, originFrac := 0
    corr := 0 }
  r := {}, dIn := 0, badIn := false }

/-- The master with its follow-up and the stamp of its SYNC on a link that has left service. -/
def followUpWithoutLink : State :=
  modLink (modHub State.reset fun h => { h with
    ref := { h.ref with regs := { h.ref.regs with masterStatusIsMaster := true } }
    sh := { h.sh with fus := [ownFollowUp] } }) syncedLink
    fun k => { k with regs := { k.regs with ptGatesResMax := 0 }, fwd := [{ seq := 0, gen := 0 }], tx := [(.sync 0, {})] }

theorem syncFuForward_followUpWithoutLink :
    readNext (fun t => t.out.length) (execSyncFuForward syncedLink 0 .agree followUpWithoutLink) = some 0 := by
  decide +kernel

end

/-- Refutes O5: the clause of the follow-up that leaves does not ask that its link be in service, and in `followUpWithoutLink`
nothing leaves. -/
theorem not_syncExchange : ¬ Obligations.SyncExchange := by
  intro h
  obtain ⟨-, -, -, -, -, -, -, -, -, -, -, -, hforward, -⟩ := h
  obtain ⟨t, hstep, -, -, hout, -⟩ := hforward syncedLink 0 .agree ownFollowUp { seq := 0, gen := 0 } {} followUpWithoutLink rfl
    (by decide +kernel) (by decide +kernel) (by decide +kernel) (by decide +kernel) (by decide +kernel) (by decide +kernel)
    (by decide +kernel)
  have hnone : t.out.length = 0 := readNext_of_eq_next _ hstep syncFuForward_followUpWithoutLink
  rw [hout, List.length_append] at hnone
  exact absurd hnone (by simp)

end Sys2Proof.Machine
end

section
/-! O6: a lane of a link that still calibrates cannot move to the spare. -/

namespace Sys2Proof.Machine

section

set_option Elab.async false

/-- The TSU's first port at the turn of its lane 0, whose link is at HELLO and not in service, with lane 1 as its spare. -/
def calBeforeService : State :=
  modPage (modLinkRegs State.reset ⟨.tsu, 0, 0⟩ fun r => { r with lkState := 5, ptCtrlCalPeriodS := 1 }) .tsu 0
    fun g => { g with lanes := [0], spare := 1, nextCal := 0, remap := none }

theorem laneCalPeriod_calBeforeService :
    readNext (fun t => (t.page .tsu 0).remap.isSome) (execLaneCalPeriod .tsu 0 calBeforeService) = some false := by
  decide +kernel

end

/-- Refutes O6: the clause of the periodic timer lets the move of a lane begin before its link is in service, and in
`calBeforeService` none begins. -/
theorem not_laneCalibrationAndProbes : ¬ Obligations.LaneCalibrationAndProbes := by
  intro h
  obtain ⟨hperiod, -⟩ := h
  obtain ⟨t, hstep, hremap, -⟩ := hperiod .tsu 0 0 0 calBeforeService (by decide +kernel) (by decide +kernel)
    (by decide +kernel) (by decide +kernel) (by decide +kernel) (by decide +kernel)
  have hnone : (t.page .tsu 0).remap.isSome = false := readNext_of_eq_next _ hstep laneCalPeriod_calBeforeService
  rw [hremap] at hnone
  exact absurd hnone (by decide)

end Sys2Proof.Machine
end

section
/-! O7: REACQUIRE is refused with a reserved MODE, whatever MODE stands. -/

namespace Sys2Proof.Machine

section

set_option Elab.async false

/-- A locked hub whose MODE holds the reserved value. -/
def reservedMode : State :=
  modServoRegs State.reset .hub fun r => { r with servoCtrlMode := 3, servoStatusState := 2 }

/-- A write of SERVO_CTRL with the reserved MODE and gains that are taken. -/
def reservedModeWrite : Word := 0x0001000000010003

theorem reacquire_reservedMode :
    readNext (fun t => t.servoState .hub) (execReacquire .mgmt reservedModeWrite reservedMode) = some 2 := by
  decide +kernel

end

/-- Refutes O7: the clause of REACQUIRE asks only that the MODE written be the present one, and with the reserved MODE the
write is refused. -/
theorem not_servoModesAndLosses : ¬ Obligations.ServoModesAndLosses := by
  intro h
  obtain ⟨-, -, -, -, -, -, -, hreacquire⟩ := h
  obtain ⟨t, hstep, hfree, -⟩ := hreacquire .mgmt reservedModeWrite reservedMode (by decide +kernel) (by decide +kernel)
    (by decide +kernel) (by decide +kernel)
  have hlocked : t.servoState .hub = 2 := readNext_of_eq_next _ hstep reacquire_reservedMode
  exact absurd (hlocked.symm.trans hfree) (by decide)

end Sys2Proof.Machine
end

section
/-! O18: the release of a TIMED barrier on a hub without VALID is refused as NOT_VALID, and the refusal is counted (R68). -/

namespace Sys2Proof.Machine

section

set_option Elab.async false

/-- The arrival of the one participant of barrier 5 of job 0. -/
def lastArrival : ArriveP := { job := 0, epoch := false, obj := 5, gen := 0, step := 0, count := 1 }

/-- A TIMED barrier of one participant. -/
def timedBarrier : Barrier := { regs := { shCfgTimed := true, shCfgPart := 1 } }

/-- A lead without VALID whose job 0 runs and has that barrier. -/
def timedBarrierLead : State :=
  modHub State.reset fun h => { h with
    jobs := [(0, { regs := { jobStatusState := 2 }, leads := true, barriers := [(5, some timedBarrier)] })] }

/-- The hub's first link. -/
def arrivalLink : LinkId := ⟨.hub, 0, 0⟩

theorem barrierPartialFold_timedBarrierLead :
    readNext (fun t => t.hub.sh.tb.regs.wireRefuseNotValid) (execBarrierPartialFold arrivalLink 0 none lastArrival
      timedBarrierLead) = some 1 := by
  decide +kernel

theorem timedBarrierLead_notValid : timedBarrierLead.hub.sh.tb.regs.wireRefuseNotValid = 0 := by decide +kernel

end

/-- Refutes O18: the clause of a barrier that completes leaves the timebase as it is, and in `timedBarrierLead` the release counts
its refused tick there. -/
theorem not_barriersOnHubs : ¬ Obligations.BarriersOnHubs := by
  intro h
  obtain ⟨-, -, -, -, -, -, -, hcomplete, -⟩ := h
  obtain ⟨t, hstep, -, -, -, hrep⟩ := hcomplete arrivalLink 0 none lastArrival timedBarrier timedBarrierLead (by decide +kernel)
    rfl rfl (by decide +kernel) (by decide +kernel) (by decide +kernel) (by decide +kernel) (by decide +kernel)
    (by decide +kernel) (by decide +kernel)
  have hcounted : t.hub.sh.tb.regs.wireRefuseNotValid = 1 := readNext_of_eq_next _ hstep barrierPartialFold_timedBarrierLead
  have hsame : t.hub.sh.tb.regs.wireRefuseNotValid = 0 := by
    rw [hrep]
    exact timedBarrierLead_notValid
  exact absurd (hcounted.symm.trans hsame) (by decide)

end Sys2Proof.Machine
end

section
/-! O41: a controller reset to other firmware changes the envelope of the jobs that the hub leads, which their twins mirror. -/

namespace Sys2Proof.Machine

section

set_option Elab.async false

/-- The hub's TWIN link. -/
def twinLinkA : LinkId := ⟨.hub, 0, 0⟩

/-- A hub with its TWIN link in service, on trial of the firmware in slot 0, which leads a running job of its own span. -/
def leadOnTrial : State :=
  modLinkRegs (modPage (modHub State.reset fun h => { h with
      flows := [(0, some twinLinkA)]
      fw := { h.fw with fwSlotsS0Running := true, fwSlotsS0State := 1, fwRunning := 1 }
      jobs := [(0, { regs := { jobStatusState := 2 }, lead := h.id.hubAddr, leads := true, spanSet := [h.id.hubAddr] })] })
    .hub 0 fun g => { g with role := { g.role with portRole := 3 } }) twinLinkA fun r => { r with lkState := 6 }

theorem fwTrialTimeout_leadOnTrial :
    readNext (fun t => (t.link twinLinkA).hold.length) (execFwTrialTimeout leadOnTrial) = some 1 := by
  decide +kernel

theorem leadOnTrial_hold : (leadOnTrial.link twinLinkA).hold.length = 0 := by decide +kernel

end

/-- Refutes O41: the clauses of a controller restart leave the links as they are, and in `leadOnTrial` the lead queues its new
envelope for the twin. -/
theorem not_firmwareUpdate : ¬ Obligations.FirmwareUpdate := by
  intro h
  obtain ⟨-, -, -, -, -, -, -, -, -, htimeout, -⟩ := h
  obtain ⟨t, hstep, -, -, hlinks, -⟩ := htimeout leadOnTrial (by decide +kernel)
  have hqueued : (t.link twinLinkA).hold.length = 1 := readNext_of_eq_next _ hstep fwTrialTimeout_leadOnTrial
  have hsame : (t.link twinLinkA).hold.length = (leadOnTrial.link twinLinkA).hold.length :=
    congrArg (fun ls => (tget (linkReset .hub) ls twinLinkA.key).hold.length) hlinks
  exact absurd ((hqueued.symm.trans hsame).trans leadOnTrial_hold) (by decide)

end Sys2Proof.Machine
end

section
/-! O42: an event of the present cycle keeps its bit of EVTRIG's PAGE_INT_STATUS when that bit is written (R175). -/

namespace Sys2Proof.Machine

section

set_option Elab.async false

/-- A TSU in the cycle of an edge at event input 0. -/
def freshEvent : State := setCause (modTsu State.reset fun h => { h with evtNew := 1 }) .tsu .evtrig 0

/-- EVTRIG's page in the host port's window. -/
def evtrigPage : BitVec 12 := 0x00B

theorem pageIntStatusWrite_freshEvent :
    readNext (fun t => (t.hdr .tsu .evtrig).pageIntStatus) (execPageIntStatusWrite .host evtrigPage 1 freshEvent) = some 1 := by
  decide +kernel

end

/-- Refutes O42: the clause of PAGE_INT_STATUS clears every bit written as 1 on every page, and in `freshEvent` the bit of the
cycle's event stays. -/
theorem not_registerAccesses : ¬ Obligations.RegisterAccesses := by
  intro h
  obtain ⟨-, -, -, -, -, -, -, hstatus, -⟩ := h
  obtain ⟨t, hstep, ht⟩ := hstatus .host evtrigPage 1 .evtrig freshEvent (by decide +kernel) (by decide +kernel)
  have hkept : (t.hdr .tsu .evtrig).pageIntStatus = 1 := readNext_of_eq_next _ hstep pageIntStatusWrite_freshEvent
  rw [ht] at hkept
  exact absurd hkept (by decide +kernel)

end Sys2Proof.Machine
end

section
/-! O10: the PTP port. -/

namespace Sys2Proof.Machine

section

set_option Elab.async false

variable {s : State} {h : PtpHead}

/-- With no foreign master there is none to expire. -/
theorem ptpExpire_of_foreign_nil (hnone : s.hub.ptp.foreign = []) : ptpExpire s = s := by
  simp [ptpExpire, hnone]

theorem exec_ptpAnnounceReceive_dropped (hexpire : ptpExpire s = s) (hen : s.hub.ref.regs.ptpCtrlEn = true)
    (hok : ptpOk s 0xB h = false) (rank utcOffset utcValid leap61 leap59) :
    exec (.ptpAnnounceReceive h rank utcOffset utcValid leap61 leap59) s = .next (ptpDrop s) := by
  show execPtpAnnounceReceive .. = _
  simp only [execPtpAnnounceReceive, hexpire, hen, hok, Bool.not_true, Bool.not_false, Bool.false_eq_true, if_false, if_true]

theorem exec_ptpSyncReceive_taken (hexpire : ptpExpire s = s) (hen : s.hub.ref.regs.ptpCtrlEn = true)
    (hok : ptpOk s 0 h = true) {logInterval : BitVec 8} (hlog : -7 ≤ logInterval.toInt ∧ logInterval.toInt ≤ 0)
    (hparent : fromParent s h = true) (t2) :
    exec (.ptpSyncReceive h true logInterval t2 false) s = .next (modHub s fun x => { x with ptp := { x.ptp with
      syncSeq := some h.seq, corrSync := h.corr.toInt, t2 := t2.toNat, logSync := logInterval.toInt } }) := by
  have hrange : ¬ (logInterval.toInt < -7 ∨ 0 < logInterval.toInt) := by omega
  show execPtpSyncReceive .. = _
  simp only [execPtpSyncReceive, hexpire, hen, hok, hparent, hrange, Bool.not_true, decide_false, Bool.or_self,
    Bool.false_eq_true, if_false, gt_iff_lt]

theorem exec_ptpSyncReceive_dropped (hexpire : ptpExpire s = s) (hen : s.hub.ref.regs.ptpCtrlEn = true) {twoStep : Bool}
    {logInterval : BitVec 8}
    (hout : ptpOk s 0 h = false ∨ twoStep = false ∨ logInterval.toInt < -7 ∨ 0 < logInterval.toInt) (t2 uncal) :
    exec (.ptpSyncReceive h twoStep logInterval t2 uncal) s = .next (ptpDrop s) := by
  have hdrop : (!ptpOk s 0 h || !twoStep || decide (logInterval.toInt < -7 ∨ logInterval.toInt > 0)) = true := by
    rcases hout with hok | htwo | hlog
    · rw [hok]; rfl
    · simp [htwo]
    · simp [hlog]
  show execPtpSyncReceive .. = _
  simp only [execPtpSyncReceive, hexpire, hen, hdrop, Bool.not_true, Bool.false_eq_true, if_false, if_true]

theorem exec_ptpFollowUpReceive_first (hexpire : ptpExpire s = s) (hen : s.hub.ref.regs.ptpCtrlEn = true)
    (hok : ptpOk s 8 h = true) {sec : BitVec 48} {ns : BitVec 32} (hstamp : ptpStampOk s sec ns = true)
    (hparent : fromParent s h = true) (hseq : s.hub.ptp.syncSeq = some h.seq) (hpath : s.hub.ptp.pathCount = 0) (vote) :
    exec (.ptpFollowUpReceive h sec ns vote) s = .next (modHub s fun x => { x with ptp := { x.ptp with
      t1 := ptpTime s sec ns + s.hub.ptp.corrSync + h.corr.toInt, havePair := true, syncSeq := none } }) := by
  show execPtpFollowUpReceive .. = _
  simp only [execPtpFollowUpReceive, hexpire, hen, hok, hstamp, hparent, hseq, hpath, modHub_hub, Bool.not_true, Bool.true_and,
    beq_self_eq_true, Bool.false_eq_true, gt_iff_lt, Nat.lt_irrefl, false_and, if_false, if_true]

theorem exec_ptpFollowUpReceive_badNs (hexpire : ptpExpire s = s) (hen : s.hub.ref.regs.ptpCtrlEn = true)
    (hok : ptpOk s 8 h = true) {ns : BitVec 32} (hns : 1000000000 ≤ ns.toNat) (sec vote) :
    exec (.ptpFollowUpReceive h sec ns vote) s = .next (ptpDrop s) := by
  have hlarge : ¬ ns.toNat < 1000000000 := by omega
  show execPtpFollowUpReceive .. = _
  simp only [execPtpFollowUpReceive, hexpire, hen, hok, ptpStampOk, ptpBadStamp, hlarge, decide_false, Bool.false_and,
    Bool.not_true, Bool.not_false, Bool.false_eq_true, if_false, if_true]

theorem exec_ptpDelayReqSend_sent (hexpire : ptpExpire s = s) (hen : s.hub.ref.regs.ptpCtrlEn = true)
    (hmaster : s.hub.ptp.foreign.isEmpty = false) (t3) :
    exec (.ptpDelayReqSend t3) s = .next (emit (modHub s fun x => { x with ptp := { x.ptp with
      delaySeq := s.hub.ptp.delaySeq + 1, t3 := t3.toNat, delayPending := true } })
      (.ptpDelayReq s.clockIdentity 1 (s.hub.ptp.delaySeq + 1))) := by
  show execPtpDelayReqSend .. = _
  simp only [execPtpDelayReqSend, hexpire, hen, hmaster, Bool.not_false, Bool.and_self, if_true]

theorem exec_ptpDelayRespReceive_first (hexpire : ptpExpire s = s) (hen : s.hub.ref.regs.ptpCtrlEn = true)
    (hok : ptpOk s 9 h = true) {receipt : PtpStamp} (hstamp : ptpStampOk s receipt.sec receipt.ns = true)
    (hparent : fromParent s h = true) (hpending : s.hub.ptp.delayPending = true) (hseq : s.hub.ptp.delaySeq = h.seq)
    (hpair : s.hub.ptp.havePair = true) (hpath : s.hub.ptp.pathCount = 0) (hsum : s.hub.ptp.pathSum = 0) (logInterval) :
    exec (.ptpDelayRespReceive h ⟨s.clockIdentity, 1⟩ receipt logInterval) s = .next (modHub s fun x => { x with
      ptp := { x.ptp with
        delayPending := false, logDelay := logInterval.toInt, pathCount := 1
        pathSum := ((s.hub.ptp.t2 - s.hub.ptp.t1) + (ptpTime s receipt.sec receipt.ns + h.corr.toInt - s.hub.ptp.t3)) / 2 }
      ref := { x.ref with regs := { x.ref.regs with ptpStatusMeanPath := BitVec.ofInt 40 (((s.hub.ptp.t2 - s.hub.ptp.t1) +
        (ptpTime s receipt.sec receipt.ns + h.corr.toInt - s.hub.ptp.t3)) / 2) } } }) := by
  have hfirst : 0 < 2 ^ s.hub.ref.regs.ptpCtrlFilt.toNat := Nat.two_pow_pos _
  show execPtpDelayRespReceive .. = _
  simp only [execPtpDelayRespReceive, hexpire, hen, hok, hstamp, hparent, hpending, hseq, hpair, hpath, hsum, hfirst, modHub,
    Bool.not_true, Bool.and_self, beq_self_eq_true, Bool.false_eq_true, decide_true, if_false, if_true, Nat.zero_add,
    Int.zero_add, Int.natCast_zero, Int.ediv_one]

theorem exec_ptpDelayRespReceive_other (hexpire : ptpExpire s = s) (hen : s.hub.ref.regs.ptpCtrlEn = true)
    (hok : ptpOk s 9 h = true) {receipt : PtpStamp} (hstamp : ptpStampOk s receipt.sec receipt.ns = true)
    {requester : PtpPortId} (hother : requester ≠ ⟨s.clockIdentity, 1⟩) (logInterval) :
    exec (.ptpDelayRespReceive h requester receipt logInterval) s = .next s := by
  show execPtpDelayRespReceive .. = _
  have hne : (requester == ⟨s.clockIdentity, 1⟩) = false := beq_false_of_ne hother
  simp only [execPtpDelayRespReceive, hexpire, hen, hok, hstamp, hne, Bool.not_true, Bool.and_false, Bool.false_and,
    Bool.false_eq_true, if_false]

/-- The first foreign master that is heard is the one tracked. -/
theorem exec_ptpAnnounceReceive_firstMaster (hen : s.hub.ref.regs.ptpCtrlEn = true) (hok : ptpOk s 0xB h = true)
    (hnone : s.hub.ptp.foreign = []) (rank : PtpRank) (utcOffset utcValid leap61 leap59) :
    exec (.ptpAnnounceReceive h rank utcOffset utcValid leap61 leap59) s = .next (modHub s fun x => { x with
      ptp := { x.ptp with foreign := [{
        identity := h.identity, port := h.port, rank := rank.key, utcOffset := utcOffset, utcValid := utcValid
        leap61 := leap61, leap59 := leap59, at_ := s.hub.sh.tb.cycles, logInterval := rank.logInterval.toInt }] }
      ref := { x.ref with regs := { x.ref.regs with
        ptpStatusForeign := 1
        ptpStatusPortState := if x.ref.regs.ptpStatusPortState = 4 then 8 else x.ref.regs.ptpStatusPortState } } }) := by
  show execPtpAnnounceReceive .. = _
  simp only [execPtpAnnounceReceive, ptpExpire_of_foreign_nil hnone, hen, hok, hnone, insertForeign, Bool.not_true,
    List.filter_nil,
    List.length_nil, List.length_singleton, Bool.false_eq_true, ge_iff_le, if_false]
  rfl

end

/-- Settles O10: each frame takes the one branch of its operation that its hypotheses leave. -/
theorem ptpPort : Obligations.PtpPort := by
  refine ⟨fun h rank utcOffset utcValid leap61 leap59 s hexpire hen hok =>
      ⟨_, exec_ptpAnnounceReceive_dropped hexpire hen hok rank utcOffset utcValid leap61 leap59, rfl⟩,
    fun h rank utcOffset utcValid leap61 leap59 s hen hok hnone =>
      ⟨_, exec_ptpAnnounceReceive_firstMaster hen hok hnone rank utcOffset utcValid leap61 leap59, rfl, rfl, rfl, rfl, rfl⟩,
    ?_,
    fun h twoStep logInterval t2 uncal s hexpire hen hout => ⟨_, exec_ptpSyncReceive_dropped hexpire hen hout t2 uncal, rfl⟩,
    fun h sec ns vote s hexpire hen hok hstamp hparent hseq hpath =>
      ⟨_, exec_ptpFollowUpReceive_first hexpire hen hok hstamp hparent hseq hpath vote, rfl⟩,
    fun h sec ns vote s hexpire hen hok hns => ⟨_, exec_ptpFollowUpReceive_badNs hexpire hen hok hns sec vote, rfl⟩,
    fun t3 s hexpire hen hmaster => ⟨_, exec_ptpDelayReqSend_sent hexpire hen hmaster t3, rfl⟩,
    ?_,
    fun h requester receipt logInterval s hexpire hen hok hstamp hother =>
      ⟨_, exec_ptpDelayRespReceive_other hexpire hen hok hstamp hother logInterval, rfl⟩⟩
  · rintro h twoStep logInterval t2 uncal s hexpire hen hok rfl hlog hparent rfl
    exact ⟨_, exec_ptpSyncReceive_taken hexpire hen hok hlog hparent t2, rfl⟩
  · rintro h requester receipt logInterval s hexpire hen hok hstamp hparent rfl hpending hseq hpair hpath hsum
    exact ⟨_, exec_ptpDelayRespReceive_first hexpire hen hok hstamp hparent hpending hseq hpair hpath hsum logInterval,
      rfl, rfl, rfl, rfl, rfl, rfl⟩

end Sys2Proof.Machine
end

section
/-! What a tap is after two changes, and which frames and reports a tap and the root take. -/

namespace Sys2Proof.Machine

section

set_option Elab.async false

variable {s : State} {k : BitVec 7}

/-- A change of a tap is the setting of the tap to what it comes to. -/
theorem modTap_eq_const (s : State) (k : BitVec 7) (f : Tap → Tap) : modTap s k f = modTap s k fun _ => f (s.tap k) := rfl

/-- Two changes that agree on the tap as it stands are one. -/
theorem modTap_congr {f g : Tap → Tap} (h : f (s.tap k) = g (s.tap k)) : modTap s k f = modTap s k g := by
  rw [modTap_eq_const, h, ← modTap_eq_const]

/-- Two changes of one tap are one change. -/
@[simp] theorem modTap_modTap (s : State) (k : BitVec 7) (f g : Tap → Tap) :
    modTap (modTap s k f) k g = modTap s k fun q => g (f q) := by
  simp only [modTap, modTsu, tmod_tmod]

/-- A tap that is changed is set to what it then reads as. -/
theorem modTap_eq_tap (s : State) (k : BitVec 7) (f : Tap → Tap) : modTap s k f = modTap s k fun _ => (modTap s k f).tap k := by
  rw [tap_modTap, ← modTap_eq_const]

/-- A frame of the type that a command names, whole and for the tap, is taken. -/
theorem onFrame_taken {f : BitVec 128} {ty : BitVec 4} (hstate : 2 ≤ (s.tap k).own.tapStatusState.toNat)
    (hf : frameOk f = true ∧ frameFor f k = true ∧ frameType f = ty) (act : State → Host.Outcome State Fault Refusal) :
    onFrame s k f ty act = act s := by
  obtain ⟨hok, hfor, hty⟩ := hf
  rw [onFrame, if_neg (Nat.not_lt.2 hstate), if_neg (by rw [hok]; decide), if_pos (by rw [hfor, hty]; simp)]

/-- A whole report of the code that a command names is taken. -/
theorem onReport_taken {r : BitVec 64} {code : BitVec 4} (hok : reportOk r = true) (hcode : r.extractLsb' 58 4 = code)
    (act : State → Host.Outcome State Fault Refusal) : onReport s k r code act = act s := by
  rw [onReport, if_neg (by rw [hok]; decide), if_pos (beq_iff_eq.2 hcode)]

section

variable (q : Tap) (r : BitVec 64)

/-! ## A report that is queued changes the tap's queue, or counts a loss -/

@[simp] theorem queueReport_state : (queueReport q r).own.tapStatusState = q.own.tapStatusState := by
  unfold queueReport; split <;> rfl

@[simp] theorem queueReport_queue : (queueReport q r).queue = q.queue := by unfold queueReport; split <;> rfl
@[simp] theorem queueReport_anchor : (queueReport q r).anchor = q.anchor := by unfold queueReport; split <;> rfl
@[simp] theorem queueReport_tval : (queueReport q r).tval = q.tval := by unfold queueReport; split <;> rfl
@[simp] theorem queueReport_fcReq : (queueReport q r).fcReq = q.fcReq := by unfold queueReport; split <;> rfl
@[simp] theorem queueReport_fcAck : (queueReport q r).fcAck = q.fcAck := by unfold queueReport; split <;> rfl
@[simp] theorem queueReport_fcRun : (queueReport q r).fcRun = q.fcRun := by unfold queueReport; split <;> rfl
@[simp] theorem queueReport_notice : (queueReport q r).notice = q.notice := by unfold queueReport; split <;> rfl
@[simp] theorem queueReport_stop : (queueReport q r).stop = q.stop := by unfold queueReport; split <;> rfl
@[simp] theorem queueReport_freq : (queueReport q r).freq = q.freq := by unfold queueReport; split <;> rfl
@[simp] theorem queueReport_repPre : (queueReport q r).repPre = q.repPre := by unfold queueReport; split <;> rfl

@[simp] theorem queueReport_slackValid : (queueReport q r).own.tapSlackValid = q.own.tapSlackValid := by
  unfold queueReport; split <;> rfl

@[simp] theorem queueReport_fcCount : (queueReport q r).own.tapCountFcCount = q.own.tapCountFcCount := by
  unfold queueReport; split <;> rfl

@[simp] theorem queueReport_marginC : (queueReport q r).own.tapMarginC = q.own.tapMarginC := by
  unfold queueReport; split <;> rfl

@[simp] theorem queueReport_marginLow : (queueReport q r).own.tapStatusMarginLow = q.own.tapStatusMarginLow := by
  unfold queueReport; split <;> rfl

@[simp] theorem queueReport_holdOut : (queueReport q r).holdOut = q.holdOut := by
  unfold queueReport; split <;> rfl

end

end

end Sys2Proof.Machine
end

section
/-! The windows of the event log: what reports and sends leave, and what an event enters. -/

namespace Sys2Proof.Machine

section

set_option Elab.async false

/-- The windows of a part that are open. -/
def evWindows (p : Part) (s : State) : List EvWindow := (s.sh p).windows

variable (s : State) (p q : Part)

/-- A change of what the parts share that leaves the windows leaves them on every part. -/
theorem modSh_windows {f : Shared → Shared} (hf : ∀ x, (f x).windows = x.windows) :
    evWindows p (modSh s q f) = evWindows p s := by
  cases p <;> cases q
  · exact hf _
  · rfl
  · rfl
  · exact hf _

@[simp] theorem emit_windows (o : Out) : evWindows p (emit s o) = evWindows p s := by cases p <;> rfl

@[simp] theorem modHdr_windows (g : Page) (f : PageHdr → PageHdr) : evWindows p (modHdr s q g f) = evWindows p s := by
  unfold modHdr
  split
  · exact modSh_windows _ _ _ fun _ => rfl
  · rfl

@[simp] theorem setCause_windows (g : Page) (b : Nat) : evWindows p (setCause s q g b) = evWindows p s := modHdr_windows ..
@[simp] theorem refuse_windows (g : Page) : evWindows p (refuse s q g) = evWindows p s := modHdr_windows ..

@[simp] theorem modLink_windows (l : LinkId) (f : Link → Link) : evWindows p (modLink s l f) = evWindows p s :=
  modSh_windows _ _ _ fun _ => rfl

@[simp] theorem sendLink_windows (l : LinkId) (dsn m) : evWindows p (sendLink s l dsn m) = evWindows p s :=
  sendLink_keeps (evWindows p) (fun _ _ _ hf => modSh_windows _ _ _ fun x => by rw [hf]) (fun _ _ => emit_windows ..) s l dsn m

@[simp] theorem tsuSend_windows (m : Msg) : evWindows p (tsuSend s m) = evWindows p s := sendLink_windows ..

@[simp] theorem tsuSendUp_windows (m : Msg) : evWindows p (tsuSendUp s m) = evWindows p s := by
  unfold tsuSendUp
  refine ite_keeps (evWindows p) ((sendLink_windows ..).trans ?_) ?_ <;> cases p <;> rfl

@[simp] theorem evqPut_windows (r : BitVec 512) : evWindows p (evqPut s r) = evWindows p s := by
  unfold evqPut
  refine ite_keeps (evWindows p) ((setCause_windows ..).trans ?_) ((setCause_windows ..).trans ?_) <;> cases p <;> rfl

@[simp] theorem ringWrite_windows (r : BitVec 512) : evWindows p (ringWrite s r) = evWindows p s :=
  (setCause_windows ..).trans (by cases p <;> rfl)

@[simp] theorem formRecord_windows (e : Ev) (c : BitVec 32) : evWindows p (formRecord s q e c) = evWindows p s := by
  have hseq : evWindows p (modSh s q fun h => { h with evSeq := h.evSeq + 1 }) = evWindows p s :=
    modSh_windows _ _ _ fun _ => rfl
  cases q
  · exact (ringWrite_windows ..).trans hseq
  · exact (tsuSendUp_windows ..).trans ((evqPut_windows ..).trans hseq)

/-! ## An event that is raised stands in a window -/

/-- A window of a code and sub-code is open. -/
def named (code sub : BitVec 16) (ws : List EvWindow) : Bool := ws.any fun w => w.ev.code == code && w.ev.sub == sub

theorem raised_iff {code sub : BitVec 16} : Raised s p code sub ↔ named code sub (evWindows p s) = true := Iff.rfl

theorem sameEv_named {a b : Ev} (h : sameEv a b = true) : a.code = b.code ∧ a.sub = b.sub := by
  simp only [sameEv, Bool.and_eq_true, beq_iff_eq] at h
  obtain ⟨⟨⟨⟨hcode, hsub⟩, -⟩, -⟩, -⟩ := h
  exact ⟨hcode, hsub⟩

/-- Folding an event into its window leaves the codes of the windows. -/
theorem foldWindow_named (e : Ev) (code sub : BitVec 16) (ws : List EvWindow) :
    named code sub (foldWindow e ws) = named code sub ws := by
  induction ws with
  | nil => rfl
  | cons w ws ih =>
    unfold foldWindow
    split
    case isTrue h =>
      obtain ⟨hcode, hsub⟩ := sameEv_named h
      simp only [named, List.any_cons, hcode, hsub]
    case isFalse =>
      simp only [named] at ih
      simp only [named, List.any_cons, ih]

theorem named_of_sameEv {e : Ev} {ws : List EvWindow} (h : ws.any (fun w => sameEv w.ev e) = true) :
    named e.code e.sub ws = true := by
  obtain ⟨w, hw, hsame⟩ := List.any_eq_true.1 h
  obtain ⟨hcode, hsub⟩ := sameEv_named hsame
  exact List.any_eq_true.2 ⟨w, hw, by simp [hcode, hsub]⟩

theorem evWindows_modSh {f : Shared → Shared} : evWindows p (modSh s p f) = (f (s.sh p)).windows := by cases p <;> rfl

/-- An event under the time of its part. -/
def stampEv (e : Ev) : Ev :=
  { e with
    tickValid := (s.sh p).tb.regs.statusValid
    tick := if (s.sh p).tb.regs.statusValid then (s.sh p).tb.tick else (s.sh p).tb.cycles }

theorem raise_eq (e : Ev) : raise s p e =
    if neverFolded e.code then formRecord s p (stampEv s p e) 0
    else if (s.sh p).windows.any (fun w => sameEv w.ev (stampEv s p e)) then
      modSh s p fun h => { h with windows := foldWindow (stampEv s p e) h.windows }
    else formRecord (modSh s p fun h => { h with windows := h.windows ++ [{ ev := stampEv s p e, count := 0 }] }) p
      (stampEv s p e) 0 := rfl

/-- An event that is folded is in its window once it is raised (R384). -/
theorem raise_raised {e : Ev} (hfold : neverFolded e.code = false) : Raised (raise s p e) p e.code e.sub := by
  rw [raised_iff, raise_eq, if_neg (by rw [hfold]; decide)]
  split
  case isTrue h =>
    rw [evWindows_modSh, foldWindow_named]
    exact named_of_sameEv (e := stampEv s p e) h
  case isFalse =>
    rw [formRecord_windows, evWindows_modSh]
    simp [named, stampEv]

/-- What is raised stands after another event is raised. -/
theorem Raised.raise {s : State} {p : Part} {code sub : BitVec 16} (h : Raised s p code sub) (q : Part) (e : Ev) :
    Raised (raise s q e) p code sub := by
  rw [raised_iff] at h ⊢
  rw [raise_eq]
  split
  · rwa [formRecord_windows]
  by_cases hpq : p = q
  · subst hpq
    split
    · rwa [evWindows_modSh, foldWindow_named]
    · rw [formRecord_windows, evWindows_modSh]
      simp only [named, List.any_append, Bool.or_eq_true]
      exact .inl h
  · have hother : ∀ f, evWindows p (modSh s q f) = evWindows p s := fun f => by
      cases p <;> cases q
      · exact absurd rfl hpq
      · rfl
      · rfl
      · exact absurd rfl hpq
    split
    · rwa [hother]
    · rwa [formRecord_windows, hother]

theorem Raised.of_windows {s t : State} {p : Part} {code sub : BitVec 16} (h : Raised s p code sub)
    (hw : evWindows p t = evWindows p s) : Raised t p code sub := by
  rw [raised_iff] at h ⊢
  rwa [hw]

theorem tsuEv_code (s : State) (code sub : BitVec 16) (sev fs) : (tsuEv s code sub sev fs).code = code := by
  unfold tsuEv; split <;> rfl

theorem tsuEv_sub (s : State) (code sub : BitVec 16) (sev fs) : (tsuEv s code sub sev fs).sub = sub := by
  unfold tsuEv; split <;> rfl

/-- An event of a TSU's step or job, once it is raised (R383, R384). -/
theorem raise_tsuEv_raised (s r : State) (p : Part) {code : BitVec 16} (hfold : neverFolded code = false) (sub : BitVec 16)
    (sev fs) : Raised (raise s p (tsuEv r code sub sev fs)) p code sub := by
  have h := raise_raised s p (e := tsuEv r code sub sev fs) (by rwa [tsuEv_code])
  rwa [tsuEv_code, tsuEv_sub] at h

theorem raisePlain_raised (s : State) (p : Part) {code : BitVec 16} (hfold : neverFolded code = false) (sub : BitVec 16)
    (sev fs) : Raised (raisePlain s p code sub sev fs) p code sub := by
  unfold raisePlain
  dsimp only
  split
  · exact raise_raised s p (e := { plainEv code sub sev fs with rank := s.tsu.rank.setWidth 32 }) hfold
  · exact raise_raised s p (e := plainEv code sub sev fs) hfold

end

end Sys2Proof.Machine
end

section
/-! O11: the frames of the region time bus. -/

namespace Sys2Proof.Machine

section

set_option Elab.async false

variable {s : State} {k : BitVec 7} {f : BitVec 128}

theorem exec_rootTimeFrameSend_valid (hen : s.tsu.tapPage.tapGlobalEn = true) (hvalid : s.valid .tsu = true) :
    exec .rootTimeFrameSend s = .next (emit s (.tapFrame (mkFrame 1 0xFF (BitVec.ofNat 64 ((s.now .tsu).toNat / 512 * 512) ++
      BitVec.ofBool true ++ BitVec.ofBool s.tsu.sh.tb.regs.statusHoldover ++ 0#30)))) := by
  show execRootTimeFrameSend s = _
  simp only [execRootTimeFrameSend, sendFrame, hen, hvalid, if_true]
  rfl

theorem exec_tapDllLock_locking (hstate : (s.tap k).own.tapStatusState = 1) :
    exec (.tapDllLock k) s = .next (modTap s k fun x => { x with own := { x.own with tapStatusState := 2 } }) := by
  show Host.Outcome.next (modTap s k _) = _
  rw [modTap_congr]
  rw [hstate]
  rfl

theorem exec_tapTimeFrame_taken (hstate : 2 ≤ (s.tap k).own.tapStatusState.toNat)
    (hf : frameOk f = true ∧ frameFor f k = true ∧ frameType f = 1) (edges : BitVec 32) :
    exec (.tapTimeFrame k f edges) s = .next (modTap s k fun q =>
      tapTime q ((framePayload f).extractLsb' 32 64) ((framePayload f).getLsbD 31) edges) := by
  show execTapTimeFrame .. = _
  rw [execTapTimeFrame, if_neg (by simp [hf.1]), onFrame_taken hstate hf]

/-- In WAIT_TIME a TIME frame aligns the tap, or brings it to the frequency change in progress. -/
theorem tapTime_waiting {q : Tap} (hstate : q.own.tapStatusState = 2) (tick valid edges) :
    (tapTime q tick valid edges).own.tapStatusState = (if q.fcRun then 4 else 3) ∧
      (tapTime q tick valid edges).anchor = tick ∧ (tapTime q tick valid edges).tval = valid := by
  simp only [tapTime, hstate, beq_self_eq_true, if_true, queueReport_state, queueReport_anchor, queueReport_tval]
  cases valid <;> simp

/-- A TIME frame that does not count on from the last is a slip (R190). -/
theorem tapTime_slip {q : Tap} (hstate : 3 ≤ q.own.tapStatusState.toNat) {tick : Tick} {edges : BitVec 32}
    (hslip : q.anchor + 8 * edges.setWidth 64 ≠ tick) (valid) :
    (tapTime q tick valid edges).own.tapStatusState = 2 ∧ (tapTime q tick valid edges).queue = [] ∧
      (tapTime q tick valid edges).tval = false := by
  have hne : (q.own.tapStatusState == 2) = false := by
    refine beq_false_of_ne fun h => ?_
    rw [h] at hstate
    exact absurd hstate (by decide)
  simp only [tapTime, hne, Bool.false_eq_true, if_false, if_neg hslip, strobeSlip, queueReport_state, queueReport_queue,
    queueReport_tval, and_self]

theorem exec_tapFrameDropRun_slip (hrun : 3 ≤ (s.tap k).dropRun) (hstate : 3 ≤ (s.tap k).own.tapStatusState.toNat) :
    exec (.tapFrameDropRun k) s = .next (modTap s k strobeSlip) := by
  show Host.Outcome.next (modTap s k _) = _
  rw [modTap_congr]
  simp only [ge_iff_le, hrun, hstate, decide_true, Bool.and_self, if_true]

/-- The bits of an appended value above the low part are those of the high part. -/
theorem extractLsb'_append_high {n m : Nat} (x : BitVec n) (y : BitVec m) (start len : Nat) :
    (x ++ y).extractLsb' (m + start) len = x.extractLsb' start len := by
  refine BitVec.eq_of_getLsbD_eq fun i hi => ?_
  rw [BitVec.getLsbD_extractLsb', BitVec.getLsbD_extractLsb', BitVec.getLsbD_append, if_neg (by omega)]
  congr 2
  omega

/-- The low bits of an appended value are the low part. -/
theorem extractLsb'_append_low {n m : Nat} (x : BitVec n) (y : BitVec m) : (x ++ y).extractLsb' 0 m = y := by
  refine BitVec.eq_of_getLsbD_eq fun i hi => ?_
  rw [BitVec.getLsbD_extractLsb', BitVec.getLsbD_append, Nat.zero_add, if_pos hi, decide_eq_true hi, Bool.true_and]

/-- The payload of a LAUNCH frame gives its launch back. -/
theorem launch_of_payload {x : TapLaunch} {p : BitVec 96} (hp : p = x.target ++ x.frac ++ x.lid ++ 0#8)
    (harmed : x.armed = false) :
    ({ target := p.extractLsb' 32 64, frac := p.extractLsb' 16 16, lid := p.extractLsb' 8 8 } : TapLaunch) = x := by
  obtain ⟨target, frac, lid, armed⟩ := x
  subst hp harmed
  have hlid : (target ++ frac ++ lid ++ 0#8).extractLsb' 8 8 = lid :=
    (extractLsb'_append_high (target ++ frac ++ lid) 0#8 0 8).trans (extractLsb'_append_low (target ++ frac) lid)
  have hfrac : (target ++ frac ++ lid ++ 0#8).extractLsb' 16 16 = frac :=
    (extractLsb'_append_high (target ++ frac ++ lid) 0#8 8 16).trans
      ((extractLsb'_append_high (target ++ frac) lid 0 16).trans (extractLsb'_append_low target frac))
  have htarget : (target ++ frac ++ lid ++ 0#8).extractLsb' 32 64 = target :=
    (extractLsb'_append_high (target ++ frac ++ lid) 0#8 24 64).trans
      ((extractLsb'_append_high (target ++ frac) lid 16 64).trans
        ((extractLsb'_append_high target frac 0 64).trans BitVec.extractLsb'_eq_self))
  rw [hlid, hfrac, htarget]

theorem exec_tapLaunchFrame_queued {edges : BitVec 32} {x : TapLaunch} (hstate : 3 ≤ (s.tap k).own.tapStatusState.toNat)
    (htval : (s.tap k).tval = true) (hf : frameOk f = true ∧ frameFor f k = true ∧ frameType f = 2)
    (hp : framePayload f = x.target ++ x.frac ++ x.lid ++ 0#8) (harmed : x.armed = false)
    (hahead : 67108864 ≤ x.at - (s.tap k).timeAt ⟨edges, 0⟩) (hroom : (s.tap k).queue.length < 4) :
    exec (.tapLaunchFrame k f edges) s = .next (modTap s k fun q => { q with queue := q.queue ++ [x] }) := by
  have hstate' : ¬ (s.tap k).own.tapStatusState.toNat < 3 := Nat.not_lt.2 hstate
  have hahead' : ¬ x.at - (s.tap k).timeAt ⟨edges, 0⟩ < 67108864 := Int.not_lt.2 hahead
  show execTapLaunchFrame .. = _
  rw [execTapLaunchFrame, onFrame_taken (by omega) hf]
  dsimp only
  rw [launch_of_payload hp harmed, modTap_congr]
  simp only [hstate', htval, hahead', hroom, decide_false, Bool.not_true, Bool.or_self, Bool.false_eq_true, if_false, if_true]

theorem exec_tapCancelFrame_all (hstate : 2 ≤ (s.tap k).own.tapStatusState.toNat)
    (hf : frameOk f = true ∧ frameFor f k = true ∧ frameType f = 3) (hall : (framePayload f).getLsbD 87 = true) :
    exec (.tapCancelFrame k f) s = .next (modTap s k fun q => { q with queue := [] }) := by
  show execTapCancelFrame .. = _
  rw [execTapCancelFrame, onFrame_taken hstate hf]
  simp only [hall, if_true]

theorem exec_tapCfgFrame_taken (hstate : 2 ≤ (s.tap k).own.tapStatusState.toNat)
    (hf : frameOk f = true ∧ frameFor f k = true ∧ frameType f = 4) :
    exec (.tapCfgFrame k f) s = .next (modTap s k fun q => queueReport (tapConfig q ((framePayload f).extractLsb' 88 8)
      ((framePayload f).extractLsb' 0 64)) (mkReport 7 [(8, ((framePayload f).extractLsb' 88 8).toNat)])) := by
  show execTapCfgFrame .. = _
  rw [execTapCfgFrame, onFrame_taken hstate hf]

theorem exec_tapNbTestFrame_taken (hstate : 2 ≤ (s.tap k).own.tapStatusState.toNat)
    (hf : frameOk f = true ∧ frameFor f k = true ∧ frameType f = 5) :
    exec (.tapNbTestFrame k f) s = .next (modTap s k fun q => { q with nbTest := some (s.now .tsu) }) := by
  show execTapNbTestFrame .. = _
  rw [execTapNbTestFrame, onFrame_taken hstate hf]

end

/-- Settles O11: each frame, taken by the tap it is for, changes that tap alone. -/
theorem tapFrames : Obligations.TapFrames := by
  refine ⟨fun s hen hvalid => ⟨_, exec_rootTimeFrameSend_valid hen hvalid, rfl⟩,
    fun k s hstate => ⟨_, exec_tapDllLock_locking hstate, rfl⟩,
    fun k s => ⟨_, rfl, tap_modTap .., modTap_eq_tap ..⟩,
    fun k f s hstate hf => ⟨s, onFrame_taken hstate hf _, rfl⟩,
    fun k f edges s hstate hf => ?_, fun k f edges s hstate hf hslip => ?_,
    fun k s hrun hstate => ⟨_, exec_tapFrameDropRun_slip hrun hstate, rfl⟩,
    fun k f edges x s hstate htval hf hp harmed hahead hroom =>
      ⟨_, exec_tapLaunchFrame_queued hstate htval hf hp harmed hahead hroom, rfl⟩,
    fun k f s hstate hf hall => ⟨_, exec_tapCancelFrame_all hstate hf hall, rfl⟩,
    fun k f s hstate hf => ⟨_, exec_tapCfgFrame_taken hstate hf, rfl⟩,
    fun k f s hstate hf => ⟨_, exec_tapNbTestFrame_taken hstate hf, rfl, ?_⟩⟩
  · obtain ⟨hnext, hanchor,
    hval⟩ := tapTime_waiting hstate ((framePayload f).extractLsb' 32 64) ((framePayload f).getLsbD 31) edges
    refine ⟨_, exec_tapTimeFrame_taken (by rw [hstate]; decide) hf edges, ?_, ?_, ?_, modTap_eq_tap ..⟩ <;> rw [tap_modTap]
    · exact hnext
    · exact hanchor
    · exact hval
  · obtain ⟨hnext, hqueue, hval⟩ := tapTime_slip hstate hslip ((framePayload f).getLsbD 31)
    refine ⟨_, exec_tapTimeFrame_taken (by omega) hf edges, ?_, ?_, ?_, modTap_eq_tap ..⟩ <;> rw [tap_modTap]
    · exact hnext
    · exact hqueue
    · exact hval
  · rw [tap_modTap]
    show ((s.tap k).notice || decide ((s.now .tsu - s.now .tsu).toNat < 512)) = true
    simp

end Sys2Proof.Machine
end

section
/-! O13: frequency changes, losses, margins and the neighbour check of the taps. -/

namespace Sys2Proof.Machine

section

set_option Elab.async false

variable {s : State} {k : BitVec 7}

/-! ## Frequency changes -/

theorem exec_fcRequest_acked {time : TapTime} (hreq : (s.tap k).fcReq = false)
    (hnear : (s.tap k).queue.any (fun x => decide (x.at - (s.tap k).timeAt time < 163840000)) = false) :
    exec (.fcRequest k time) s = .next (modTap s k fun q => fcAck { q with fcReq := true }) := by
  show Host.Outcome.next (modTap s k _) = _
  rw [modTap_congr]
  rw [hreq, if_neg Bool.false_ne_true, hnear, if_neg Bool.false_ne_true]

theorem exec_fcRequest_deferred {time : TapTime} (hreq : (s.tap k).fcReq = false)
    (hnear : (s.tap k).queue.any (fun x => decide (x.at - (s.tap k).timeAt time < 163840000)) = true) :
    exec (.fcRequest k time) s = .next (modTap s k fun q => { q with fcReq := true, fcDefer := true }) := by
  show Host.Outcome.next (modTap s k _) = _
  rw [modTap_congr]
  rw [hreq, if_neg Bool.false_ne_true, hnear, if_pos rfl]

theorem fcAck_state (q : Tap) :
    (fcAck q).own.tapStatusState = if q.own.tapStatusState = 3 then 4 else q.own.tapStatusState := by
  simp only [fcAck, queueReport_state, beq_iff_eq]

/-- A tap that is acknowledged is in FREQ_CHANGE and holds its region's launches back. -/
theorem fcAck_holdOut {q : Tap} (h : q.own.tapStatusState = 3) : (fcAck q).holdOut = true := by
  simp [fcAck, Tap.holdOut, h]

theorem exec_fcAckDeferEnd_deferred (h : (s.tap k).fcDefer = true) :
    exec (.fcAckDeferEnd k) s = .next (modTap s k fcAck) := by
  show Host.Outcome.next (modTap s k _) = _
  rw [modTap_congr]
  rw [h, if_pos rfl]

theorem exec_fcRequestDrop_acked (h : (s.tap k).fcAck = true) :
    exec (.fcRequestDrop k) s = .next (modTap s k fun q => queueReport { q with
      fcReq := false, fcAck := false, measuring := true } (mkReport 4 [(2, 1), (24, q.own.tapStatusPNom.toNat)])) := by
  show Host.Outcome.next (modTap s k _) = _
  rw [modTap_congr]
  rw [h, if_pos rfl]

theorem exec_fcRequestDrop_deferred (h : (s.tap k).fcAck = false) :
    exec (.fcRequestDrop k) s = .next (modTap s k fun q => { q with fcReq := false, fcDefer := false }) := by
  show Host.Outcome.next (modTap s k _) = _
  rw [modTap_congr]
  rw [h, if_neg Bool.false_ne_true]

/-! ## Overruns, stops and frequency losses -/

theorem exec_fcStopOverrun_running (h : (s.tap k).fcRun = true) :
    exec (.fcStopOverrun k) s = .next (modTap s k fun q => overrun q 2) := by
  show Host.Outcome.next (modTap s k _) = _
  rw [modTap_congr]
  rw [h, if_pos rfl]

theorem exec_regionLongCycle_aligned (hstate : (s.tap k).own.tapStatusState = 3) (hrun : (s.tap k).fcRun = false) :
    exec (.regionLongCycle k) s = .next (modTap s k fun q => overrun q 1) := by
  show Host.Outcome.next (modTap s k _) = _
  rw [modTap_congr]
  simp only [hstate, hrun, beq_self_eq_true, Bool.not_false, Bool.and_self, if_true]

theorem exec_regionStop_reported (hstop : (s.tap k).stop = false) (hparked : (s.tap k).own.tapCtrlParked = false)
    (hstate : 2 ≤ (s.tap k).own.tapStatusState.toNat) :
    exec (.regionStop k) s = .next (modTap s k fun q => queueReport { q with stop := true } (mkReport 6 [(2, 1), (1, 0)])) := by
  show Host.Outcome.next (modTap s k _) = _
  rw [modTap_congr]
  simp only [hstop, hparked, Nat.not_lt.2 hstate, decide_false, Bool.or_self, Bool.false_eq_true, if_false]

/-- A tap whose region stops, or runs off its frequency, raises hold (R207). -/
theorem holdOut_of_stop {q : Tap} (h : q.stop = true) : q.holdOut = true := by simp [Tap.holdOut, h]

theorem holdOut_of_freq {q : Tap} (h : q.freq = true) : q.holdOut = true := by simp [Tap.holdOut, h]

/-- The report of a mean period that is off by more than the tolerance. -/
def freqLost (q : Tap) : Tap := queueReport { q with freq := true } (mkReport 6 [(2, 2), (1, 0)])

theorem exec_regionFreqWindow_lost {mean : BitVec 40} (stopped : Bool) (hparked : (s.tap k).own.tapCtrlParked = false)
    (hstate : 2 ≤ (s.tap k).own.tapStatusState.toNat) (hstop : (s.tap k).stop = false) (hfreq : (s.tap k).freq = false)
    (htol : (s.tap k).own.tapCtrlLorTol ≠ 0)
    (hoff : (s.tap k).own.tapCtrlLorTol.toNat * ((s.tap k).own.tapStatusPNom.toNat * 65536) <
      ((mean.toNat : Int) - (s.tap k).own.tapStatusPNom.toNat * 65536).natAbs * 1000000) :
    exec (.regionFreqWindow k mean stopped) s = .next (modTap s k freqLost) := by
  have htol' : ((s.tap k).own.tapCtrlLorTol.toNat != 0) = true :=
    bne_iff_ne.2 fun h => htol (BitVec.eq_of_toNat_eq h)
  show Host.Outcome.next (modTap s k _) = _
  rw [modTap_congr]
  simp only [hparked, Nat.not_lt.2 hstate, decide_false, Bool.or_self, Bool.false_eq_true, if_false, htol', hstop, hfreq,
    Bool.false_and, Bool.true_and]
  rw [if_pos (decide_eq_true (by rw [Int.natCast_mul]; exact hoff))]
  simp only [freqLost, hstop]

/-! ## Margins -/

/-- The window of the replica that is the second low one. -/
def marginLost (q : Tap) (count : BitVec 32) : Tap :=
  queueReport { q with
    repPre := (q.repPre + count.toNat) % repDivide q
    own := { q.own with
      tapMarginC := satNat 20 ((q.repPre + count.toNat) / repDivide q), tapStatusMarginLow := true }
    lowRun := q.lowRun + 1, highRun := 0 }
    (mkReport 5 [(1, 1), (20, (satNat 20 ((q.repPre + count.toNat) / repDivide q) : BitVec 20).toNat)])

theorem exec_replicaWindowEnd_low {count : BitVec 32} (hen : (s.tap k).own.tapCtrlRepEn = true)
    (hlow : (satNat 20 (((s.tap k).repPre + count.toNat) / repDivide (s.tap k)) : BitVec 20).toNat <
      (s.tap k).own.tapMarginThresh.toNat)
    (hgood : (s.tap k).own.tapStatusMarginLow = false) (hrun : 1 ≤ (s.tap k).lowRun) :
    exec (.replicaWindowEnd k count) s = .next (modTap s k fun q => marginLost q count) := by
  have hrun' : (s.tap k).lowRun + 1 ≥ 2 := by omega
  show Host.Outcome.next (modTap s k _) = _
  rw [modTap_congr]
  simp only [hen, if_true, replicaWindow, hlow, decide_true, hgood, hrun', Bool.not_false, Bool.and_self, marginLost]

/-! ## The neighbour check -/

theorem exec_nbTestNoticeSeen_enabled {input : BitVec 3} {sender : BitVec 7} (htest : (s.tap sender).nbTest.isSome = true)
    (hstate : 2 ≤ (s.tap k).own.tapStatusState.toNat) (hen : (s.tap k).own.tapCtrlNbEn.getLsbD input.toNat = true) :
    exec (.nbTestNoticeSeen k input sender) s =
      .next (modTap s k fun q => queueReport q (mkReport 8 [(3, input.toNat), (7, sender.toNat)])) := by
  show Host.Outcome.next (modTap s k _) = _
  rw [modTap_congr]
  simp only [htest, ge_iff_le, hstate, decide_true, hen, Bool.and_self, if_true]

theorem exec_nbTestNoticeSeen_idle {sender : BitVec 7} (input : BitVec 3) (htest : (s.tap sender).nbTest = none) :
    exec (.nbTestNoticeSeen k input sender) s = .next (modTap s k fun q => q) := by
  show Host.Outcome.next (modTap s k _) = _
  rw [modTap_congr]
  simp only [htest, Option.isSome_none, Bool.false_and, Bool.false_eq_true, if_false]

/-- A fold of changes of the taps changes the taps alone. -/
theorem foldl_modTap_taps (f : BitVec 7 → Tap → Tap) (ks : List (BitVec 7)) (s : State) :
    ∃ taps, ks.foldl (fun s k => modTap s k (f k)) s = modTsu s fun h => { h with taps := taps } := by
  induction ks generalizing s with
  | nil => exact ⟨s.tsu.taps, rfl⟩
  | cons k ks ih =>
    obtain ⟨taps, h⟩ := ih (modTap s k (f k))
    exact ⟨taps, h⟩

theorem tapStrobe_taps (s : State) : ∃ taps, tapStrobe s = modTsu s fun h => { h with taps := taps } := by
  unfold tapStrobe
  split
  · exact foldl_modTap_taps ..
  · exact ⟨s.tsu.taps, rfl⟩

/-- Frames that are sent change the output alone. -/
theorem foldl_sendFrame_out {α : Type} (f : α → BitVec 128) (xs : List α) (s : State) :
    ∃ out, xs.foldl (fun s x => sendFrame s (f x)) s = { s with out := out } := by
  induction xs generalizing s with
  | nil => exact ⟨s.out, rfl⟩
  | cons x xs ih =>
    have hone : ∃ out, sendFrame s (f x) = { s with out := out } := by
      unfold sendFrame
      split
      · exact ⟨_, rfl⟩
      · exact ⟨s.out, rfl⟩
    obtain ⟨out, h⟩ := ih (sendFrame s (f x))
    obtain ⟨out', h'⟩ := hone
    exact ⟨out, h.trans (by rw [h'])⟩

/-- A TSU whose check begins with a write of TAP_GLOBAL (R203). -/
def nbStarted (v : Word) (taps : Tbl Tap) (h : Tsu) : Tsu :=
  { h with tapPage := h.tapPage.write 0x048 v, nbCheck := true, nbSeen := [], taps := taps }

theorem tapGlobalWrite_started {i : Iface} {v : Word} (hi : i.part = .tsu) (hv : getB v 1 = true)
    (hempty : s.tsu.taps.any (fun e => !e.2.sent.isEmpty || !e.2.held.isEmpty) = false) :
    ∃ taps out, tapGlobalWrite i v s = (false, { modTsu s (nbStarted v taps) with out := out }) := by
  obtain ⟨taps, htaps⟩ := tapStrobe_taps (modTsu s fun h => { h with tapPage := h.tapPage.write 0x048 v })
  rw [tapGlobalWrite, onPart_part hi, hv, hempty]
  simp only [Bool.and_false, Bool.false_eq_true, if_false, if_true, accept]
  rw [htaps]
  obtain ⟨out, hout⟩ := foldl_sendFrame_out (fun k : BitVec 7 => mkFrame 5 (k.setWidth 8) 0) s.tapIds
    (modTsu s (nbStarted v (tmap {} (fun _ k => { k with nbTest := none }) taps)))
  exact ⟨_, out, congrArg (Prod.mk false) hout⟩

/-- The check that NB_CHECK starts (R203). -/
theorem exec_nbCheck_started {i : Iface} (data : Word) (ha : Answers s i) (hi : i.part = .tsu)
    (hempty : s.tsu.taps.any (fun e => !e.2.sent.isEmpty || !e.2.held.isEmpty) = false) :
    ∃ taps out, exec (.nbCheck i data) s =
      .next (emit { modTsu s (nbStarted (data ||| putB 1 true) taps) with out := out } (.writeAck i false)) := by
  obtain ⟨taps, out, h⟩ := tapGlobalWrite_started hi (getB_or_putB_same data (by decide)) hempty
  refine ⟨taps, out, ?_⟩
  show ackWrite i s (tapGlobalWrite i (data ||| putB 1 true) s) = _
  rw [ackWrite_answers ha, h]

/-- Beyond the TAP page and the taps a state is as the reports of the TSU leave it. -/
def tapMask : Mask where
  take s t := report t { s with tsu := { s.tsu with tapPage := t.tsu.tapPage, taps := t.tsu.taps } }
  take_take _ _ _ := rfl
  take_report _ _ := rfl

theorem modTap_tapMask (s : State) (k : BitVec 7) (f : Tap → Tap) : tapMask.Frame s (modTap s k f) := rfl

theorem tapCause_tapMask (s : State) (k : BitVec 7) (b : Nat) : tapMask.Frame s (tapCause s k b) :=
  ((setCause_reported (Reported.refl s) .tsu .tap b).frame tapMask).trans rfl

theorem nbResult_tapMask (found s : State) (k : BitVec 7) : tapMask.Frame s (nbResult found s k) :=
  (modTap_tapMask ..).trans (Mask.Frame.ite (Mask.Frame.refl ..) (tapCause_tapMask ..))

@[simp] theorem tapCause_hub (s : State) (k : BitVec 7) (b : Nat) : (tapCause s k b).hub = s.hub := setCause_tsu_hub ..
@[simp] theorem tapCause_out (s : State) (k : BitVec 7) (b : Nat) : (tapCause s k b).out = s.out := setCause_out ..
@[simp] theorem tapCause_taps (s : State) (k : BitVec 7) (b : Nat) : (tapCause s k b).tsu.taps = s.tsu.taps := by
  show (setCause s .tsu .tap b).tsu.taps = _
  rw [setCause_reported (Reported.refl s) .tsu .tap b]

/-- What a result of the check leaves: the hub, the output, and that the check has ended. -/
theorem foldl_nbResult_keeps {β : Type} (π : State → β) (hcause : ∀ s k b, π (tapCause s k b) = π s)
    (hmod : ∀ s k f, π (modTap s k f) = π s) (found : State) (ks : List (BitVec 7)) (s : State) :
    π (ks.foldl (nbResult found) s) = π s :=
  foldl_keeps π (fun _ _ => ite_keeps π (hmod ..) ((hcause ..).trans (hmod ..))) ks s

/-- The check's results, before its cause is set. -/
def nbResults (s : State) : State :=
  let s := modTsu s fun h => { h with nbCheck := false, taps := tmap {} (fun _ k => { k with nbTest := none }) h.taps }
  s.tapIds.foldl (nbResult s) s

theorem nbResults_hub (s : State) : (nbResults s).hub = s.hub :=
  foldl_nbResult_keeps State.hub (fun _ _ _ => tapCause_hub ..) (fun _ _ _ => rfl) _ _ _

theorem nbResults_out (s : State) : (nbResults s).out = s.out :=
  foldl_nbResult_keeps State.out (fun _ _ _ => tapCause_out ..) (fun _ _ _ => rfl) _ _ _

theorem nbResults_tapMask (s : State) : tapMask.Frame (modTsu s fun h => { h with nbCheck := false }) (nbResults s) :=
  have hstart : tapMask.Frame (modTsu s fun h => { h with nbCheck := false }) (modTsu s fun h => { h with
      nbCheck := false, taps := tmap {} (fun _ k => { k with nbTest := none }) h.taps }) := rfl
  Mask.Frame.foldl (nbResult_tapMask _) hstart _

theorem exec_nbCheckDone_checking (h : s.tsu.nbCheck = true) :
    exec .nbCheckDone s = .next (setCause (nbResults s) .tsu .tap 4) := by
  show execNbCheckDone s = _
  rw [execNbCheckDone, if_pos h]
  rfl

theorem exec_nbCheckDone_idle (h : s.tsu.nbCheck = false) : exec .nbCheckDone s = .next s := by
  show execNbCheckDone s = _
  rw [execNbCheckDone, if_neg (by rw [h]; decide)]

end

/-- Settles O13: what a tap comes to at each change, loss and margin, and the two ends of the neighbour check. -/
theorem tapChangesAndMargins : Obligations.TapChangesAndMargins := by
  refine ⟨fun k time s hreq hnear => ⟨_, exec_fcRequest_acked hreq hnear, ?_⟩,
    fun k time s hreq hnear => ⟨_, exec_fcRequest_deferred hreq hnear, rfl⟩,
    fun k s h => ⟨_, exec_fcAckDeferEnd_deferred h, rfl⟩,
    fun k s h => ⟨_, exec_fcRequestDrop_acked h, rfl⟩, fun k s h => ⟨_, exec_fcRequestDrop_deferred h, rfl⟩,
    fun k s h => ⟨_, exec_fcStopOverrun_running h, rfl⟩,
    fun k s hstate hrun => ⟨_, exec_regionLongCycle_aligned hstate hrun, rfl⟩,
    fun k s hstop hparked hstate => ⟨_, exec_regionStop_reported hstop hparked hstate, ?_, ?_, rfl⟩,
    fun k mean stopped s hparked hstate hstop hfreq htol hoff =>
      ⟨_, exec_regionFreqWindow_lost stopped hparked hstate hstop hfreq htol hoff, ?_, ?_, modTap_eq_tap ..⟩,
    fun k count s hen hlow hgood hrun => ⟨_, exec_replicaWindowEnd_low hen hlow hgood hrun, ?_, ?_, ?_, modTap_eq_tap ..⟩,
    fun k input sender s htest hstate hen => ⟨_, exec_nbTestNoticeSeen_enabled htest hstate hen, rfl⟩,
    fun k input sender s htest => ⟨_, exec_nbTestNoticeSeen_idle input htest, rfl⟩,
    fun i data s ha hi hempty => ?_, fun s h => ?_, fun s h => ⟨s, exec_nbCheckDone_idle h, rfl⟩⟩
  · rw [tap_modTap]
    refine ⟨fcAck_state _, ?_, ?_, ?_, ?_, ?_, ?_, fun h => fcAck_holdOut h, rfl⟩ <;> simp [fcAck]
  · rw [tap_modTap, queueReport_stop]
  · rw [tap_modTap]
    exact holdOut_of_stop (queueReport_stop ..)
  · rw [tap_modTap]
    exact queueReport_freq ..
  · rw [tap_modTap]
    exact holdOut_of_freq (queueReport_freq ..)
  · rw [tap_modTap]
    exact queueReport_marginC ..
  · rw [tap_modTap]
    exact queueReport_repPre ..
  · rw [tap_modTap]
    exact queueReport_marginLow ..
  · obtain ⟨taps, out, h⟩ := exec_nbCheck_started data ha hi hempty
    exact ⟨_, h, rfl, rfl, rfl, List.getLast?_concat, rfl, rfl⟩
  · refine ⟨_, exec_nbCheckDone_checking h, setCause_hdr (by decide) (by decide), ?_, ?_, ?_⟩
    · rw [setCause_tsu_hub, nbResults_hub]
    · rw [setCause_out, nbResults_out]
    · exact (nbResults_tapMask s).reported (setCause_reported (Reported.refl _) ..)

end Sys2Proof.Machine
end

section
/-! O14: the reports of the taps at the root, and the tap registers. -/

namespace Sys2Proof.Machine

section

set_option Elab.async false

variable {s : State} {k : BitVec 7} {r : BitVec 64}

/-- A fault of a tap that is reported leaves the taps, and shows beside them in the TAP page. -/
theorem Reported.tapMask_taps {t : State} (h : Reported s t) : t.tsu.taps = s.tsu.taps := by rw [h]

theorem raise_taps (s : State) (e : Ev) : (raise s .tsu e).tsu.taps = s.tsu.taps :=
  (raise_reported (Reported.refl s) ..).tapMask_taps

theorem tapCause_windows (s : State) (k : BitVec 7) (b : Nat) (p : Part) : evWindows p (tapCause s k b) = evWindows p s := by
  refine Eq.trans ?_ (setCause_windows s p .tsu .tap b)
  cases p <;> rfl

theorem tapCause_hdr (s : State) (k : BitVec 7) {b : Nat} (hb : b < 64) :
    ((tapCause s k b).hdr .tsu .tap).pageIntStatus.getLsbD b = true :=
  setCause_hdr (s := s) (p := .tsu) (g := .tap) (by decide) hb

/-- An event of a tap, with the cause and the bit of its fault. -/
def tapFault (s r : State) (k : BitVec 7) (code sub : BitVec 16) (fs : List (Nat × Nat)) (b : Nat) : State :=
  tapCause (raise s .tsu (tsuEv r code sub 1 fs)) k b

theorem tapFault_tapMask (s r : State) (k code sub fs b) : tapMask.Frame s (tapFault s r k code sub fs b) :=
  ((raise_reported (Reported.refl s) ..).frame tapMask).trans (tapCause_tapMask ..)

theorem tapFault_taps (s r : State) (k code sub fs b) : (tapFault s r k code sub fs b).tsu.taps = s.tsu.taps :=
  (tapCause_taps ..).trans (raise_taps ..)

theorem tapFault_raised (s r : State) (k sub fs b) {code : BitVec 16} (hfold : neverFolded code = false) :
    Raised (tapFault s r k code sub fs b) .tsu code sub :=
  (raise_tsuEv_raised s r .tsu hfold sub 1 fs).of_windows (tapCause_windows ..)

theorem tapFault_hdr (s r : State) (k code sub fs) {b : Nat} (hb : b < 64) :
    ((tapFault s r k code sub fs b).hdr .tsu .tap).pageIntStatus.getLsbD b = true := tapCause_hdr _ _ hb

/-! ## The reports -/

theorem exec_tapReportSend_cons {rest : List (BitVec 64)} (h : (s.tap k).rpt = r :: rest) :
    exec (.tapReportSend k) s = .next (emit (modTap s k fun q => { q with rpt := rest }) (.tapReport k r)) := by
  show execTapReportSend .. = _
  rw [execTapReportSend, h]

/-- What a loss comes to in the root's copy of a tap (R204, R207). -/
def lossNoted (q : Tap) (cause : BitVec 2) (clear : Bool) : Tap :=
  { q with
    losses := setBit q.losses cause.toNat (!clear)
    regs := { q.regs with
      tapStatusLoss := setBit q.losses cause.toNat (!clear) != 0
      tapStatusLossCause := if clear then q.regs.tapStatusLossCause else cause } }

theorem noteLoss_eq (s : State) (k cause clear) : noteLoss s k cause clear = modTap s k fun q => lossNoted q cause clear := rfl

/-- What a heartbeat comes to in the root's copy of a tap, before the losses it ends (R211). -/
def heard (now : Tick) (r : BitVec 64) (q : Tap) : Tap :=
  { q with
    sent := if (reportField r 4 3 : BitVec 3) == 0 then q.sent.filter fun x => decide (now.toNat ≤ x.target.toNat) else q.sent
    seenDrop := reportField r 7 16, seenErr := reportField r 23 16
    regs := { q.regs with
      tapStatusState := reportField r 0 3, tapStatusHold := (reportField r 3 1 : BitVec 1) == 1
      tapStatusDepth := reportField r 4 3
      tapCountRptDrop := satAdd q.regs.tapCountRptDrop ((reportField r 7 16 : BitVec 16).toNat - q.seenDrop.toNat)
      tapCountFrameErr := satAdd q.regs.tapCountFrameErr ((reportField r 23 16 : BitVec 16).toNat - q.seenErr.toNat) } }

/-- A heartbeat ends the loss of silence, and in an aligned tap that of the strobe. -/
def heardLosses (r : BitVec 64) (q : Tap) : Tap :=
  if (reportField r 0 3 : BitVec 3).toNat ≥ 3 then lossNoted (lossNoted q 3 true) 0 true else lossNoted q 3 true

theorem exec_heartbeatReport_heard (hok : reportOk r = true) (hcode : r.extractLsb' 58 4 = 0) :
    exec (.heartbeatReport k r) s = .next (modTap s k fun q => heardLosses r (heard (s.now .tsu) r q)) := by
  show execHeartbeatReport .. = _
  rw [execHeartbeatReport, onReport_taken hok hcode]
  simp only [heardLosses]
  split
  case isTrue => simp only [noteLoss_eq, modTap_modTap, heard]
  case isFalse => simp only [noteLoss_eq, modTap_modTap, heard]

theorem heardLosses_regs (r : BitVec 64) (q : Tap) :
    (heardLosses r q).regs.tapStatusState = q.regs.tapStatusState ∧
      (heardLosses r q).regs.tapStatusDepth = q.regs.tapStatusDepth ∧
      (heardLosses r q).own = q.own := by
  unfold heardLosses
  split <;> exact ⟨rfl, rfl, rfl⟩

theorem heardLosses_silence (r : BitVec 64) (q : Tap) : (heardLosses r q).losses.getLsbD 3 = false := by
  have hclear : ∀ v : BitVec 4, (setBit v 3 false).getLsbD 3 = false ∧
      (setBit (setBit v 3 false) 0 false).getLsbD 3 = false := by decide
  unfold heardLosses
  split
  · exact (hclear q.losses).2
  · exact (hclear q.losses).1

/-- The root's copy of a tap whose launch was in time (R197, R212). -/
def launchHeard (r : BitVec 64) (tick : Tick) (merged : Bool) (slack : BitVec 31) (valid : Bool) (q : Tap) : Tap :=
  { q with
    sent := q.sent.filter fun x => x.lid != reportField r 0 8
    regs := { q.regs with
      tapLaunchLid := reportField r 0 8, tapLaunchLate := false, tapLaunchMerged := merged
      tapLaunchPhase := reportField r 10 32, tapLaunchTick := tick, tapSlackAtLaunch := slack, tapSlackValid := valid } }

theorem exec_launchedReport_inTime (hok : reportOk r = true) (hcode : r.extractLsb' 58 4 = 1)
    (hlate : reportField r 8 1 = 0#1) :
    ∃ tick merged slack valid, exec (.launchedReport k r) s = .next (modTap s k (launchHeard r tick merged slack valid)) := by
  change ∃ tick merged slack valid, execLaunchedReport k r s = .next (modTap s k (launchHeard r tick merged slack valid))
  rw [execLaunchedReport, onReport_taken hok hcode]
  dsimp only
  rw [hlate]
  exact ⟨_, _, _, _, congrArg Host.Outcome.next (modTap_congr (g := launchHeard r _ _ _ _) rfl)⟩

theorem exec_slackReport_taken (hok : reportOk r = true) (hcode : r.extractLsb' 58 4 = 2) :
    exec (.slackReport k r) s = .next (modTap s k fun q => { q with
      regs := { q.regs with
        tapSlackValid := reportField r 0 1 == 1#1, tapSlackNow := reportField r 1 31,
        tapCountEpisodes := satInc q.regs.tapCountEpisodes } }) := by
  show execSlackReport .. = _
  rw [execSlackReport, onReport_taken hok hcode]
  rfl

theorem exec_overrunReport_taken (hok : reportOk r = true) (hcode : r.extractLsb' 58 4 = 3) :
    exec (.overrunReport k r) s = .next (tapFault s s k 0x0007 ((reportField r 0 2).setWidth 16)
      [(8, k.toNat), (24, 0), (32, (reportField r 2 31 : BitVec 31).toNat)] 2) := by
  show execOverrunReport .. = _
  rw [execOverrunReport, onReport_taken hok hcode]
  rfl

theorem exec_fcReport_began (hok : reportOk r = true) (hcode : r.extractLsb' 58 4 = 4) (hph : reportField r 0 2 = 0#2) :
    exec (.fcReport k r) s = .next (modTap s k fun q => { q with
      regs := { q.regs with
        tapStatusPNom := reportField r 2 24, tapStatusState := if q.regs.tapStatusState = 3 then 4 else q.regs.tapStatusState,
        tapSlackValid := false, tapCountFcCount := satInc q.regs.tapCountFcCount } }) := by
  show execFcReport .. = _
  rw [execFcReport, onReport_taken hok hcode]
  simp only [hph, BitVec.ofNat_eq_ofNat, if_true, beq_iff_eq]

theorem exec_fcReport_ended (hok : reportOk r = true) (hcode : r.extractLsb' 58 4 = 4) (hph : reportField r 0 2 = 2#2) :
    exec (.fcReport k r) s = .next (modTap s k fun q => { q with
      regs := { q.regs with tapStatusState := 3, tapStatusPNom := reportField r 2 24 } }) := by
  show execFcReport .. = _
  rw [execFcReport, onReport_taken hok hcode]
  simp only [hph]
  rfl

theorem exec_marginReport_low (hok : reportOk r = true) (hcode : r.extractLsb' 58 4 = 5) (hlow : reportField r 0 1 = 1#1) :
    exec (.marginReport k r) s = .next (tapFault
      (modTap s k fun q => { q with regs := { q.regs with tapStatusMarginLow := true, tapMarginC := reportField r 1 20 } })
      (modTap s k fun q => { q with regs := { q.regs with tapStatusMarginLow := true, tapMarginC := reportField r 1 20 } })
      k 0x0006 0 [(8, k.toNat), (24, 0), (32, (reportField r 1 20 : BitVec 20).toNat)] 1) := by
  show execMarginReport .. = _
  rw [execMarginReport, onReport_taken hok hcode]
  simp only [hlow]
  rfl

/-- The root's copy of a tap that lost its strobe (R207). -/
def strobeLost (q : Tap) : Tap :=
  { lossNoted q 0 false with sent := [], regs := { (lossNoted q 0 false).regs with tapStatusState := 2 } }

theorem exec_refLossReport_strobe (hok : reportOk r = true) (hcode : r.extractLsb' 58 4 = 6)
    (hcause : reportField r 0 2 = 0#2) (hraise : reportField r 2 1 = 0#1) :
    exec (.refLossReport k r) s = .next (tapLossEvent (tapCause (modTap s k strobeLost) k 0) k 0 false) := by
  show execRefLossReport .. = _
  rw [execRefLossReport, onReport_taken hok hcode]
  simp only [hcause, hraise, noteLoss_eq, modTap_modTap]
  rfl

theorem exec_cfgAckReport_row {i : Iface} (hok : reportOk r = true) (hcode : r.extractLsb' 58 4 = 7)
    (hheld : s.tsu.tapWrites.find? (fun x => x.1 == k && x.2.1 == reportField r 0 8) = some (k, reportField r 0 8, .row i))
    (hstate : (s.tap k).own.tapStatusState ≠ 0) :
    exec (.cfgAckReport k r) s = .next (emit (modTsu s fun h => { h with
      tapWrites := h.tapWrites.erase (k, reportField r 0 8, .row i) }) (.writeAck i false)) := by
  show execCfgAckReport .. = _
  rw [execCfgAckReport, onReport_taken hok hcode]
  simp only [hheld, answer]
  rw [if_neg fun h => hstate h.2.1]

theorem exec_nbSeenReport_checking (hcheck : s.tsu.nbCheck = true) (hok : reportOk r = true)
    (hcode : r.extractLsb' 58 4 = 8) :
    exec (.nbSeenReport k r) s =
      .next (modTsu s fun h => { h with nbSeen := h.nbSeen ++ [(k, reportField r 0 3, reportField r 3 7)] }) := by
  show execNbSeenReport .. = _
  rw [execNbSeenReport, onReport_taken hok hcode]
  simp only [hcheck, if_true]

/-! ## A tap that is silent, and the tap registers -/

@[simp] theorem answer_windows (s : State) (w : Waiter) (err : Bool) (p : Part) :
    evWindows p (answer s w err) = evWindows p s := by
  cases w with
  | row i => exact emit_windows ..
  | hp id => cases p <;> rfl
  | reg l tag => exact sendLink_windows ..
  | silent => rfl

theorem answer_taps (s : State) (w : Waiter) (err : Bool) : (answer s w err).tsu.taps = s.tsu.taps :=
  (answer_reported (Reported.refl s) ..).tapMask_taps

theorem releaseTapWrites_windows (s : State) (k : BitVec 7) (p : Part) :
    evWindows p (releaseTapWrites s k) = evWindows p s := by
  refine (foldl_keeps (evWindows p) (fun _ _ => answer_windows ..) _ _).trans ?_
  cases p <;> rfl

theorem releaseTapWrites_taps (s : State) (k : BitVec 7) : (releaseTapWrites s k).tsu.taps = s.tsu.taps :=
  foldl_keeps (fun s => s.tsu.taps) (fun _ _ => answer_taps ..) _ _

/-- Beyond the TAP page, the taps and the writes that wait for them a state is as reports leave it. -/
def tapWriteMask : Mask where
  take s t := report t { s with tsu := { s.tsu with
    tapPage := t.tsu.tapPage, taps := t.tsu.taps, tapWrites := t.tsu.tapWrites } }
  take_take _ _ _ := rfl
  take_report _ _ := rfl

theorem tapMask.Frame.tapWrites {s t : State} (h : tapMask.Frame s t) : tapWriteMask.Frame s t := by
  unfold Mask.Frame at h ⊢
  rw [h]
  rfl

theorem releaseTapWrites_tapWriteMask (s : State) (k : BitVec 7) : tapWriteMask.Frame s (releaseTapWrites s k) := by
  have hstart : tapWriteMask.Frame s (modTsu s fun h => { h with
    tapWrites := h.tapWrites.filter fun x => x.1 != k }) := rfl
  exact Mask.Frame.foldl (fun _ _ => (answer_reported (Reported.refl _) ..).frame _) hstart _

/-- The root's copy of a tap that is silent (R207). -/
def silent (q : Tap) : Tap :=
  lossNoted { q with sent := [], regs := { q.regs with tapStatusState := 0 } } 3 false

theorem exec_tapSilent_eq (s : State) (k : BitVec 7) :
    exec (.tapSilent k) s = .next (releaseTapWrites (tapLossEvent (tapCause (modTap s k silent) k 0) k 3 false) k) := by
  show execTapSilent .. = _
  simp only [execTapSilent, noteLoss_eq, modTap_modTap]
  rfl

theorem tapLossEvent_tapMask (s : State) (k c b) : tapMask.Frame s (tapLossEvent s k c b) :=
  (raise_reported (Reported.refl s) ..).frame tapMask

theorem tapLossEvent_taps (s : State) (k c b) : (tapLossEvent s k c b).tsu.taps = s.tsu.taps := raise_taps ..

theorem tapLossEvent_raised (s : State) (k c b) : Raised (tapLossEvent s k c b) .tsu 0x0005 (c.setWidth 16) :=
  raise_tsuEv_raised s s .tsu (by decide) ..

theorem tap_of_taps {s t : State} (h : t.tsu.taps = s.tsu.taps) (k : BitVec 7) : t.tap k = s.tap k := by
  simp only [State.tap, h]

theorem unpark_regs (root : State) (q : Tap) : (unpark root q).regs = q.regs := by
  unfold unpark
  split
  · dsimp only; split <;> rfl
  · rfl

/-- A tap in OFF takes a write of its registers at once (R212). -/
theorem exec_tapRegisterWrite_off {i : Iface} {reg : BitVec 4} {data : Word} (hi : i.part = .tsu)
    (hpower : unpowered s i = false) (hw : tapWritable (0x060 + 8 * reg.toNat) = true)
    (hv : tapValueOk s (0x060 + 8 * reg.toNat) data = true)
    (hoff : (s.tap (s.iface i).regs.tapSel).regs.tapStatusState = 0) :
    ∃ f : Tap → Tap, (∀ q, (f q).regs = q.regs.write (0x060 + 8 * reg.toNat) data) ∧
      exec (.tapRegisterWrite i reg data) s = .next (emit (modTap s (s.iface i).regs.tapSel f) (.writeAck i false)) := by
  refine ⟨fun q => (fun q => if q.own.tapStatusState == 0 then unpark s q else q) { q with
    regs := q.regs.write (0x060 + 8 * reg.toNat) data }, fun q => ?_, ?_⟩
  · dsimp only
    split
    · exact unpark_regs ..
    · rfl
  · show execTapRegisterWrite .. = _
    simp only [execTapRegisterWrite, hi, hpower, Bool.false_eq_true, if_false, tapWrite, hw, hv, Bool.not_true, hoff,
      beq_self_eq_true, if_true, modTap_modTap, answer]

theorem exec_tapLaunchRead_answers {i : Iface} (ha : Answers s i) (hi : i.part = .tsu) :
    exec (.tapLaunchRead i) s = .next (emit (modIfaceRegs s i fun x => { x with
      tapLaunchTick := (s.tap (s.iface i).regs.tapSel).regs.tapLaunchTick })
      (.readData i ((s.tap (s.iface i).regs.tapSel).regs.read 0x078))) := by
  show ackRead i s (tapLaunchRead i s) = _
  rw [ackRead_answers ha, tapLaunchRead, onPartRead_part hi]

end

/-- Settles O14: each report that the root takes changes its copy of the tap, raises its event, or answers what waits. -/
theorem tapReports : Obligations.TapReports := by
  refine ⟨fun k r rest s h => ⟨_, exec_tapReportSend_cons h, rfl⟩,
    fun k r s hok hcode => ⟨_, exec_heartbeatReport_heard hok hcode, ?_⟩,
    fun k r s hok hcode hlate => ?_,
    fun k r s hok hcode => ⟨_, exec_slackReport_taken hok hcode, rfl⟩,
    fun k r s hok hcode => ⟨_, exec_overrunReport_taken hok hcode, tapFault_raised _ _ _ _ _ _ (by decide),
      tapFault_hdr _ _ _ _ _ _ (by decide), tapFault_taps .., tapFault_tapMask ..⟩,
    fun k r s hok hcode hph => ⟨_, exec_fcReport_began hok hcode hph, rfl⟩,
    fun k r s hok hcode hph => ⟨_, exec_fcReport_ended hok hcode hph, rfl⟩,
    fun k r s hok hcode hlow => ⟨_, exec_marginReport_low hok hcode hlow, tapFault_taps ..,
      tapFault_raised _ _ _ _ _ _ (by decide), tapFault_hdr _ _ _ _ _ _ (by decide),
      (modTap_tapMask ..).trans (tapFault_tapMask ..)⟩,
    fun k r s hok hcode hcause hraise => ⟨_, exec_refLossReport_strobe hok hcode hcause hraise, ?_⟩,
    fun k r i s hok hcode hheld hstate => ⟨_, exec_cfgAckReport_row hok hcode hheld hstate, rfl⟩,
    fun k r s hcheck hok hcode => ⟨_, exec_nbSeenReport_checking hcheck hok hcode, rfl⟩,
    fun k s => ⟨_, exec_tapSilent_eq s k, ?_⟩,
    fun i reg data s hi hpower hw hv hoff => ?_,
    fun i s ha hi => ⟨_, exec_tapLaunchRead_answers ha hi, ?_⟩⟩
  · rw [tap_modTap]
    obtain ⟨hstate, hdepth, hown⟩ := heardLosses_regs r (heard (s.now .tsu) r (s.tap k))
    exact ⟨hstate, hdepth, heardLosses_silence .., hown, rfl⟩
  · obtain ⟨tick, merged, slack, valid, h⟩ := exec_launchedReport_inTime (s := s) (k := k) hok hcode hlate
    refine ⟨_, h, ?_⟩
    rw [tap_modTap]
    exact ⟨rfl, rfl, rfl, rfl, rfl, rfl⟩
  · have htap : (tapLossEvent (tapCause (modTap s k strobeLost) k 0) k 0 false).tap k = strobeLost (s.tap k) := by
      rw [tap_of_taps (tapLossEvent_taps ..), tap_of_taps (tapCause_taps ..), tap_modTap]
    rw [htap]
    refine ⟨rfl, rfl, ?_, tapLossEvent_raised .., ?_⟩
    · exact (by decide : ∀ v : BitVec 4, (setBit v 0 true).getLsbD 0 = true) _
    · exact (modTap_tapMask ..).trans ((tapCause_tapMask ..).trans (tapLossEvent_tapMask ..))
  · have htap : (releaseTapWrites (tapLossEvent (tapCause (modTap s k silent) k 0) k 3 false) k).tap k = silent (s.tap k) := by
      rw [tap_of_taps (releaseTapWrites_taps ..), tap_of_taps (tapLossEvent_taps ..), tap_of_taps (tapCause_taps ..), tap_modTap]
    rw [htap]
    refine ⟨rfl, rfl, ?_, (tapLossEvent_raised ..).of_windows (releaseTapWrites_windows ..), ?_⟩
    · exact (by decide : ∀ v : BitVec 4, (setBit v 3 true).getLsbD 3 = true) _
    · exact (tapMask.Frame.tapWrites ((modTap_tapMask ..).trans ((tapCause_tapMask ..).trans (tapLossEvent_tapMask ..)))).trans
        (releaseTapWrites_tapWriteMask ..)
  · obtain ⟨f, hf, h⟩ := exec_tapRegisterWrite_off hi hpower hw hv hoff
    refine ⟨_, h, ?_, ?_⟩
    · show ((modTap s _ f).tap _).regs = _
      rw [tap_modTap, hf]
    · exact congrArg (emit · _) (modTap_eq_tap ..)
  · refine ⟨?_, ?_, ?_⟩
    · show (modIface s i _).out ++ _ = _
      rw [modIface_out]
    · rw [iface_emit]
      exact congrArg IfaceCopy.regs (iface_modIface ..)
    · simp only [modIfaceRegs, modIface, hi]
      rfl

end Sys2Proof.Machine
end

section
/-! O43: INT_EOI, the MSI-X vectors, the identity region and the management port. -/

namespace Sys2Proof.Machine

section

set_option Elab.async false

variable {s : State} {i : Iface} {data : Word}

/-! ## Interrupts -/

theorem exec_intEoi_answers (ha : Answers s i) (hi : i.part = .hub) (data : Word) :
    exec (.intEoi i data) s = .next (emit (msixScan (modHub s fun h => { h with
      intc := { h.intc with intArmed := h.intc.intArmed ||| data } })) (.writeAck i false)) := by
  show ackWrite i s (eoiWrite i data s) = _
  rw [ackWrite_answers ha, eoiWrite, onPart_part hi]
  rfl

theorem exec_msixUnmask_eq (hperst : s.hub.power.perst = false) (ha : Answers s .pcie) (v : BitVec 6) :
    exec (.msixUnmask v) s = .next (msixUnmask s v) := by
  obtain ⟨hpower, hopen⟩ := ha
  show execMsixUnmask v s = _
  rw [execMsixUnmask, hperst, hpower, hopen]
  rfl

theorem msixUnmask_clear {v : BitVec 6} (h : s.hub.msixPending.getLsbD v.toNat = false) :
    msixUnmask s v = modHub s fun h => { h with msixMasked := setBit h.msixMasked v.toNat false } := by
  simp only [msixUnmask, modHub, h, Bool.not_false, if_true]

/-- A vector that pends over a pending page sends its message as it is unmasked (R527). -/
theorem msixUnmask_sends {v : BitVec 6} (h : s.hub.msixPending.getLsbD v.toNat = true)
    (hvec : (intVec s).getLsbD v.toNat = true) (hen : s.hub.msixEnable = true) :
    msixUnmask s v = msixSend (modHub s fun h => { h with
      msixMasked := setBit h.msixMasked v.toNat false, msixPending := setBit h.msixPending v.toNat false }) v.toNat := by
  have hvec' : (intVec (modHub s fun h => { h with msixMasked := setBit h.msixMasked v.toNat false })).getLsbD v.toNat = true :=
    hvec
  rw [msixUnmask]
  dsimp only
  rw [hvec']
  simp only [modHub, h, hen, Bool.not_true, Bool.false_eq_true, if_false, if_true]

/-! ## The identity region -/

theorem exec_hubAddrWrite_taken (ha : Answers s i) (hi : i.part = .hub)
    (hoff : s.hub.sh.pages.all (fun g => g.2.role.portRole == 0) = true) (hlegal : hubAddrLegal (getF data 0 16) = true) :
    exec (.hubAddrWrite i data) s = .next (emit (modHub s fun h => { h with
      id := { h.id with hubAddr := getF data 0 16 }, flash := { h.flash with hubAddr := getF data 0 16 } })
      (.writeAck i false)) := by
  show ackWrite i s (hubAddrWrite i data s) = _
  rw [ackWrite_answers ha, hubAddrWrite, onPart_part hi]
  dsimp only
  rw [hoff, hlegal]
  rfl

/-- What a write of the management port's registers comes to: the registers, and their copy in the identity region. -/
def mgmtStored (m : MgmtRegs) (h : Hub) : Hub :=
  { h with
    mgmt := m
    flash := { h.flash with ipv4 := m.mgIpv4Addr, prefixLen := m.mgIpv4Prefix, gateway := m.mgGateway, query := m.mgQuery } }

/-- The register that MGMT_CONFIG_WRITE writes (R517, R518). -/
def mgmtOffset (which : BitVec 2) : Nat := match which.toNat with | 0 => 0x040 | 1 => 0x048 | _ => 0x058

theorem mgmtOffset_eq_ipv4 : ∀ {which : BitVec 2}, mgmtOffset which = 0x040 → which = 0 := by decide

theorem exec_mgmtConfigWrite_taken (ha : Answers s i) (hi : i.part = .hub) {which : BitVec 2}
    (hv : which = 0 → (getF data 0 6 : BitVec 6).toNat ≤ 32) :
    exec (.mgmtConfigWrite i which data) s =
      .next (emit (modHub s (mgmtStored (s.hub.mgmt.write (mgmtOffset which) data))) (.writeAck i false)) := by
  have hok : ¬ (mgmtOffset which = 0x040 ∧ 32 < (getF data 0 6 : BitVec 6).toNat) := fun ⟨hwhich, hlong⟩ =>
    absurd (hv (mgmtOffset_eq_ipv4 hwhich)) (Nat.not_le.2 hlong)
  show ackWrite i s (mgmtWrite (mgmtOffset which) i data s) = _
  rw [ackWrite_answers ha, mgmtWrite, onPart_part hi, if_neg hok]
  rfl

/-! ## The management port -/

section

variable (hpower : s.hub.power.on = true)

include hpower

theorem powered_mgmt : unpowered s .mgmt = false := by
  show (!s.hub.power.on) = false
  rw [hpower]
  rfl

theorem exec_arpReceive_own {target : BitVec 32} (sender : BitVec 32) (mac : BitVec 48) (hown : mgOwn s target = true) :
    exec (.arpReceive target sender mac) s = .next (emit s (.arpReply sender mac)) := by
  show execArpReceive .. = _
  simp only [execArpReceive, powered_mgmt hpower, hown, Bool.false_eq_true, if_false, if_true]

theorem exec_arpReceive_other {target : BitVec 32} (sender : BitVec 32) (mac : BitVec 48) (hown : mgOwn s target = false) :
    exec (.arpReceive target sender mac) s = .next (mgDrop s) := by
  show execArpReceive .. = _
  simp only [execArpReceive, powered_mgmt hpower, hown, Bool.false_eq_true, if_false]

theorem exec_icmpEchoReceive_own {dst src : BitVec 32} (data : List (BitVec 8)) (hown : mgOwn s dst = true)
    (hroute : inPrefix s.hub.mgmt src = true ∨ s.hub.mgmt.mgGateway ≠ 0) :
    exec (.icmpEchoReceive dst src data) s = .next (emit s (.icmpReply src data)) := by
  have hroute' : (!inPrefix s.hub.mgmt src && s.hub.mgmt.mgGateway == 0) = false := by
    rcases hroute with h | h
    · rw [h]; rfl
    · rw [beq_false_of_ne h, Bool.and_false]
  show execIcmpEchoReceive .. = _
  simp only [execIcmpEchoReceive, powered_mgmt hpower, hown, hroute', Bool.not_true, Bool.false_eq_true, if_false]

theorem exec_registerQuery_answers {ip : BitVec 32} {dst : BitVec 16} (src : BitVec 16) {data : List (BitVec 8)} {n : Nat}
    (hdst : dst = s.hub.mgmt.mgQuery) (hip : ip = s.hub.evh.evDestIpv4) (hmagic : bytesAt data 0 2 = 0x5251)
    (hn : bytesAt data 3 1 = n ∧ 0 < n ∧ n ≤ 32) (hlen : data.length = 8 + 4 * n) :
    exec (.registerQuery ip src dst data) s =
      .next (udpSend (queryAnswers ((List.range n).map fun k => bytesAt data (8 + 4 * k) 4) s).2 ip src
        (fieldBytes [(2, 0x5252), (1, bytesAt data 2 1), (1, n), (4, bytesAt data 4 4)] ++
          (queryAnswers ((List.range n).map fun k => bytesAt data (8 + 4 * k) 4) s).1)) := by
  obtain ⟨hcount, hpos, hmax⟩ := hn
  have hok : ¬ (ip ≠ s.hub.evh.evDestIpv4 ∨ bytesAt data 0 2 ≠ 0x5251 ∨ n = 0 ∨ 32 < n ∨ data.length ≠ 8 + 4 * n) := by
    rintro (h | h | h | h | h)
    · exact h hip
    · exact h hmagic
    · omega
    · omega
    · exact h hlen
  show execRegisterQuery .. = _
  rw [execRegisterQuery, hcount]
  dsimp only
  rw [powered_mgmt hpower, if_neg Bool.false_ne_true, if_neg (not_not_intro hdst), if_neg hok]

theorem exec_registerQuery_otherPort (ip : BitVec 32) (src : BitVec 16) {dst : BitVec 16} (data : List (BitVec 8))
    (hdst : dst ≠ s.hub.mgmt.mgQuery) : exec (.registerQuery ip src dst data) s = .next (mgDrop s) := by
  show execRegisterQuery .. = _
  rw [execRegisterQuery]
  dsimp only
  rw [powered_mgmt hpower, if_neg Bool.false_ne_true, if_pos hdst]

end

theorem mgOwn_own {ip : BitVec 32} (hset : s.hub.mgmt.mgIpv4Addr ≠ 0) (h : ip = s.hub.mgmt.mgIpv4Addr) : mgOwn s ip = true := by
  rw [mgOwn, h, beq_self_eq_true, Bool.and_true, bne_iff_ne]
  exact hset

theorem mgOwn_other {ip : BitVec 32} (h : ip ≠ s.hub.mgmt.mgIpv4Addr) : mgOwn s ip = false := by
  rw [mgOwn, beq_false_of_ne h, Bool.and_false]

end

/-- Settles O43: what each command comes to when its interface answers, or when the hub has power. -/
theorem interruptsAndManagement : Obligations.InterruptsAndManagement := by
  refine ⟨fun i data s ha hi => ⟨_, exec_intEoi_answers ha hi data, rfl⟩,
    fun v s hperst ha hclear => ⟨_, exec_msixUnmask_eq hperst ha v, msixUnmask_clear hclear⟩,
    fun v s hperst ha hpend hvec hen => ⟨_, exec_msixUnmask_eq hperst ha v, msixUnmask_sends hpend hvec hen, ?_, ?_⟩,
    fun i data a s ha hi haddr hoff hlegal => ?_,
    fun i data s ha hi hprefix => ⟨_, exec_mgmtConfigWrite_taken ha hi fun _ => hprefix, rfl, rfl, rfl, ?_, rfl, rfl, rfl⟩,
    fun i data s ha hi => ⟨_, exec_mgmtConfigWrite_taken ha hi (fun h => absurd h (by decide)), rfl, rfl, ?_, rfl, rfl⟩,
    fun i which data s ha hi hwhich => ?_,
    fun target sender mac s hpower hset h => ⟨_, exec_arpReceive_own hpower sender mac (mgOwn_own hset h), rfl⟩,
    fun target sender mac s hpower h => ⟨_, exec_arpReceive_other hpower sender mac (mgOwn_other h), rfl⟩,
    fun dst src data s hpower hset h hroute => ⟨_, exec_icmpEchoReceive_own hpower data (mgOwn_own hset h) hroute, rfl⟩,
    fun ip src dst data n s hpower hdst hip hmagic hn hlen =>
      ⟨_, exec_registerQuery_answers hpower src hdst hip hmagic hn hlen, rfl⟩,
    fun ip src dst data s hpower hdst => ⟨_, exec_registerQuery_otherPort hpower ip src data hdst, rfl⟩,
    fun up s => ⟨_, rfl, rfl⟩⟩
  · rw [msixUnmask_sends hpend hvec hen]
    rfl
  · rw [msixUnmask_sends hpend hvec hen]
    show s.out ++ [.msix (BitVec.ofNat 6 v.toNat)] = _
    rw [BitVec.ofNat_toNat, BitVec.setWidth_eq]
  · subst haddr
    exact ⟨_, exec_hubAddrWrite_taken ha hi hoff hlegal, rfl⟩
  · exact List.getLast?_concat
  · exact List.getLast?_concat
  · rcases hwhich with rfl | rfl
    · exact ⟨_, exec_mgmtConfigWrite_taken ha hi (fun h => absurd h (by decide)), rfl, rfl, List.getLast?_concat, rfl, rfl⟩
    · exact ⟨_, exec_mgmtConfigWrite_taken ha hi (fun h => absurd h (by decide)), rfl, rfl, List.getLast?_concat, rfl, rfl⟩

end Sys2Proof.Machine
end

section
/-! O3, and what VALID's coming and going leaves: READY, full credit grants, and the time itself. -/

namespace Sys2Proof.Machine

section

set_option Elab.async false

variable {s : State}

/-! ## READY and the credit it grants -/

theorem mem_activeLinks_part {p : Part} {l : LinkId} (h : l ∈ s.activeLinks p) : l.part = p := by
  obtain ⟨e, -, rfl⟩ := List.mem_map.1 h
  rfl

/-- What no step of a fold over a part's links changes, the fold does not change. -/
theorem foldl_links_keeps {β : Type} (π : State → β) {p : Part} {f : State → LinkId → State}
    (hf : ∀ t l, l.part = p → π (f t l) = π t) (ls : List LinkId) (hls : ∀ l ∈ ls, l.part = p) (s : State) :
    π (ls.foldl f s) = π s := by
  induction ls generalizing s with
  | nil => rfl
  | cons l ls ih =>
    exact (ih (fun l hl => hls l (List.mem_cons_of_mem _ hl)) _).trans (hf s l (hls l List.mem_cons_self))

theorem creditFull_tsu (s : State) : (creditFull s .hub).tsu = s.tsu :=
  foldl_links_keeps State.tsu (fun _ _ hl => sendLink_tsu hl _ _) _ (fun _ hl => mem_activeLinks_part hl) s

/-- The module as it becomes READY, and as it leaves READY (R479). -/
def readyBegun (h : Hub) : Hub :=
  { h with mod_ := { h.mod_ with
      modStatusReady := true
      modStatusPhase := 4
      modTimesReadyMs := if h.mod_.modTimesReadyMs = 0 then
          satNat 32 (h.mod_.modTimesBootMs.toNat + (h.sh.tb.cycles - h.power.bootAt).toNat / 1000000)
        else h.mod_.modTimesReadyMs } }

def readyEnded (h : Hub) : Hub := { h with mod_ := { h.mod_ with modStatusReady := false, modStatusPhase := 3 } }

theorem updReady_eq (s : State) : updReady s =
    if readyHolds s && !s.hub.mod_.modStatusReady then creditFull (setCause (modHub s readyBegun) .hub .mod 0) .hub
    else if !readyHolds s && s.hub.mod_.modStatusReady then modHub s readyEnded
    else s := rfl

theorem updReady_tsu (s : State) : (updReady s).tsu = s.tsu := by
  rw [updReady_eq]
  refine ite_keeps State.tsu ?_ (ite_keeps State.tsu rfl rfl)
  rw [creditFull_tsu, setCause_hub_tsu, modHub_tsu]

theorem Mask.Frame.of_take {m : Mask} {s t : State} (h : t = m.take s t) : m.Frame s t := h

/-- Beyond MOD_STATUS and its times a state is as reports leave it. -/
def readyMask : Mask where
  take s t := report t { s with hub := { s.hub with mod_ := t.hub.mod_ } }
  take_take _ _ _ := rfl
  take_report _ _ := rfl

theorem updReady_readyMask (s : State) : readyMask.Frame s (updReady s) := by
  have hbegun : readyMask.Frame s (modHub s readyBegun) := rfl
  have hended : readyMask.Frame s (modHub s readyEnded) := rfl
  rw [updReady_eq]
  refine Mask.Frame.ite (hbegun.reported ?_) (hended.ite (Mask.Frame.refl ..))
  exact creditFull_reported (setCause_reported (Reported.refl _) ..) _

/-- Without VALID the module leaves READY, and sends nothing. -/
theorem updReady_out_of_invalid (h : s.valid .hub = false) : (updReady s).out = s.out := by
  have hr : readyHolds s = false := by rw [readyHolds, h, Bool.and_false, Bool.false_and]
  rw [updReady_eq, hr, Bool.false_and, if_neg Bool.false_ne_true]
  exact ite_keeps State.out rfl rfl

/-! ## VALID as it goes -/

/-- The time base of a part whose VALID is cleared. -/
def tbInvalid (t : Timebase) : Timebase :=
  { t with regs := { t.regs with statusValid := false, statusHoldover := false }, resolve := true }

/-- The hub's reference outputs without time. -/
def outputsOff (h : Hub) : Hub :=
  { h with ref := { h.ref with outPps := false, outF10 := h.ref.outF10 && h.ref.regs.outCtrlFree10 } }

/-- The hub as its VALID is cleared, before READY follows. -/
def validCleared (s : State) : State :=
  modHub (if s.valid .hub then setCause (modTb s .hub tbInvalid) .hub .servo 2 else modTb s .hub tbInvalid) outputsOff

theorem clearValid_hub (s : State) : clearValid s .hub = updReady (validCleared s) := rfl

theorem validCleared_reported (s : State) : Reported (modHub (modTb s .hub tbInvalid) outputsOff) (validCleared s) := by
  unfold validCleared
  split
  · have h := setCause_reported (Reported.refl (modTb s .hub tbInvalid)) .hub .servo 2
    obtain ⟨r, hr⟩ := h.exists_report
    rw [hr]
    rfl
  · exact Reported.refl _

theorem validCleared_tb (s : State) : (validCleared s).hub.sh.tb = tbInvalid s.hub.sh.tb := by
  rw [validCleared_reported s]
  rfl

theorem validCleared_tsu (s : State) : (validCleared s).tsu = s.tsu := ite_keeps State.tsu (setCause_hub_tsu ..) rfl

theorem validCleared_out (s : State) : (validCleared s).out = s.out := ite_keeps State.out (setCause_out ..) rfl

theorem clearValid_hub_tb (s : State) : (clearValid s .hub).hub.sh.tb = tbInvalid s.hub.sh.tb := by
  rw [clearValid_hub, updReady_tb, validCleared_tb]

theorem clearValid_hub_tsu (s : State) : (clearValid s .hub).tsu = s.tsu := by
  rw [clearValid_hub, updReady_tsu, validCleared_tsu]

theorem clearValid_hub_out (s : State) : (clearValid s .hub).out = s.out := by
  have hinvalid : (validCleared s).valid .hub = false := congrArg (fun t : Timebase => t.regs.statusValid) (validCleared_tb s)
  rw [clearValid_hub, updReady_out_of_invalid hinvalid, validCleared_out]

/-- Beyond READY, the reference and the time of both parts a state is as reports leave it. -/
def epochMask : Mask where
  take s t := report t { s with
    hub := { s.hub with mod_ := t.hub.mod_, ref := t.hub.ref, sh := { s.hub.sh with tb := t.hub.sh.tb } },
    tsu := { s.tsu with trigs := t.tsu.trigs, sh := { s.tsu.sh with tb := t.tsu.sh.tb } } }
  take_take _ _ _ := rfl
  take_report _ _ := rfl

theorem clearValid_hub_epochMask (s : State) : epochMask.Frame s (clearValid s .hub) := by
  have hcleared : epochMask.Frame s (modHub (modTb s .hub tbInvalid) outputsOff) := rfl
  have hready : epochMask.Frame (validCleared s) (updReady (validCleared s)) := by
    have h := updReady_readyMask (validCleared s)
    unfold Mask.Frame at h ⊢
    rw [h]
    rfl
  exact (hcleared.reported (validCleared_reported s)).trans hready

/-! ## The hall epoch (R55) -/

variable {i : Iface} {data : Word}

/-- The master's time under another hall epoch. -/
def epochSet (e : BitVec 48) (t : Timebase) : Timebase :=
  { t with
    tick := BitVec.ofInt 64 (t.tick.toNat + ((t.regs.hallEpoch.toNat : Int) - e.toNat) * 1000000000)
    stepGen := t.stepGen + 1, revalid := true, regs := { t.regs with hallEpoch := e, statusEpochLearnt := true } }

theorem exec_hallEpochWrite_taken (ha : Answers s i) (hi : i.part = .hub)
    (hmaster : s.hub.ref.regs.masterStatusIsMaster = true) (hjobs : noJobs s = true)
    (hpast : (getF data 0 48 : BitVec 48).toNat ≤ (s.sec .hub).toNat)
    (hnew : (getF data 0 48 : BitVec 48) ≠ s.hub.sh.tb.regs.hallEpoch) :
    exec (.hallEpochWrite i data) s =
      .next (emit (modTb (clearValid s .hub) .hub (epochSet (getF data 0 48))) (.writeAck i false)) := by
  have hnew' : (getF data 0 48 : BitVec 48) ≠ (s.sh i.part).tb.regs.hallEpoch := by rw [hi]; exact hnew
  have htb : modTb (clearValid s .hub) .hub (epochSet (getF data 0 48)) = modTb (clearValid s .hub) .hub fun t => { t with
      tick := BitVec.ofInt 64 (t.tick.toNat + (((s.sh i.part).tb.regs.hallEpoch.toNat : Int) -
        (getF data 0 48 : BitVec 48).toNat) * 1000000000)
      stepGen := t.stepGen + 1, revalid := true,
      regs := { t.regs with hallEpoch := getF data 0 48, statusEpochLearnt := true } } := by
    simp only [modTb, modSh, epochSet, clearValid_hub_tb, hi]
    rfl
  show ackWrite i s (hallEpochWrite i data s) = _
  rw [ackWrite_answers ha, hallEpochWrite]
  dsimp only
  rw [if_pos ⟨hi, hmaster, hjobs, hpast⟩, if_neg hnew', htb]
  rfl

theorem exec_hallEpochWrite_refused (ha : Answers s i)
    (hno : i.part = .tsu ∨ s.hub.ref.regs.masterStatusIsMaster = false) :
    exec (.hallEpochWrite i data) s = .next (emit (refuse s i.part .timebase) (.writeAck i true)) := by
  have hno' : ¬ (i.part = .hub ∧ s.hub.ref.regs.masterStatusIsMaster ∧ noJobs s ∧
      (getF data 0 48 : BitVec 48).toNat ≤ (s.sec .hub).toNat) := by
    rintro ⟨hpart, hmaster, -⟩
    rcases hno with h | h
    · rw [h] at hpart
      exact Part.noConfusion hpart
    · rw [h] at hmaster
      exact Bool.false_ne_true hmaster
  show ackWrite i s (hallEpochWrite i data s) = _
  rw [ackWrite_answers ha, hallEpochWrite]
  dsimp only
  rw [if_neg hno']
  rfl

/-- The time of a part that is valid again. -/
def tbValid (holdover : Bool) (t : Timebase) : Timebase :=
  { t with revalid := false, regs := { t.regs with statusValid := true, statusHoldover := holdover } }

theorem exec_epochRevalid_kept (hrevalid : s.hub.sh.tb.revalid = true)
    (hstate : s.servoState .hub = 2 ∨ s.servoState .hub = 3) :
    exec .epochRevalid s = .next (updReady (modTb s .hub (tbValid (decide (s.servoState .hub = 3))))) := by
  have hkept : (s.servoState .hub == 2 || s.servoState .hub == 3) = true := by
    simpa only [Bool.or_eq_true, beq_iff_eq] using hstate
  show execEpochRevalid s = _
  rw [execEpochRevalid, if_pos hrevalid]
  show Host.Outcome.next (if (s.servoState .hub == 2 || s.servoState .hub == 3) = true then _ else _) = _
  rw [if_pos hkept]
  rfl

/-! ## The coherent read of the time (R71) -/

/-- A copy of an interface that is changed is set to what it then reads as. -/
theorem modIface_eq_iface (s : State) (i : Iface) (f : IfaceCopy → IfaceCopy) :
    modIface s i f = modIface s i fun _ => (modIface s i f).iface i := by
  rw [iface_modIface]
  cases i <;> rfl

theorem exec_nowLoRead_taken (ha : Answers s i) :
    exec (.nowLoRead i) s = .next (emit (modIfaceRegs s i fun r => { r with
      nowHi := (s.sec i.part).extractLsb' 16 32, nowTick := (s.sh i.part).tb.tick, nowFrac := (s.sh i.part).tb.frac })
      (.readData i (nowLo s i.part))) := by
  show ackRead i s (nowLoRead i s) = _
  rw [ackRead_answers ha]
  rfl

end

/-- Settles O3: an epoch change keeps the time in step with the epoch and takes VALID away until the timer. -/
theorem epochAndTimeReads : Obligations.EpochAndTimeReads := by
  refine ⟨fun i data s ha hi hmaster hjobs hpast hnew =>
      ⟨_, exec_hallEpochWrite_taken ha hi hmaster hjobs hpast hnew, rfl, ?_, ?_, rfl, ?_, clearValid_hub_tsu s, ?_⟩,
    fun i data s ha hno => ⟨_, exec_hallEpochWrite_refused ha hno, rfl⟩,
    fun s hrevalid hstate => ⟨_, exec_epochRevalid_kept hrevalid hstate, ?_, ?_, ?_, ?_, updReady_tsu _, ?_⟩,
    fun i s ha => ⟨_, exec_nowLoRead_taken ha, ?_⟩⟩
  · show (epochSet _ (clearValid s .hub).hub.sh.tb).tick = _
    rw [clearValid_hub_tb]
    rfl
  · show (epochSet _ (clearValid s .hub).hub.sh.tb).regs.statusValid = _
    rw [clearValid_hub_tb]
    rfl
  · show (clearValid s .hub).out ++ _ = _
    rw [clearValid_hub_out]
  · exact (clearValid_hub_epochMask s).trans (t := clearValid s .hub) rfl
  · show (updReady _).hub.sh.tb.regs.statusValid = true
    rw [updReady_tb]
    rfl
  · show (updReady _).hub.sh.tb.regs.statusHoldover = _
    rw [updReady_tb]
    rfl
  · rw [updReady_tb]
    rfl
  · show (updReady _).hub.sh.tb.tick = _
    rw [updReady_tb]
    rfl
  · have h := updReady_readyMask (modTb s .hub (tbValid (decide (s.servoState .hub = 3))))
    unfold Mask.Frame at h
    rw [h]
    rfl
  · refine ⟨?_, ?_, ?_, ?_⟩
    · rw [iface_emit]
      exact congrArg (fun x : IfaceCopy => x.regs.nowHi) (iface_modIface ..)
    · rw [iface_emit]
      exact congrArg (fun x : IfaceCopy => x.regs.nowTick) (iface_modIface ..)
    · rw [iface_emit]
      exact congrArg (fun x : IfaceCopy => x.regs.nowFrac) (iface_modIface ..)
    · exact congrArg (emit · (.readData i (nowLo s i.part))) (modIface_eq_iface ..)

end Sys2Proof.Machine
end

section
/-! Links: two changes of one link, and a flit of the time class as it leaves. -/

namespace Sys2Proof.Machine

section

set_option Elab.async false

variable {s : State} {l : LinkId}

/-- Two changes of one link are one change. -/
@[simp] theorem modLink_modLink (s : State) (l : LinkId) (f g : Link → Link) :
    modLink (modLink s l f) l g = modLink s l fun k => g (f k) := by
  unfold modLink modSh
  split <;> simp only [tmod_tmod]

/-- A change of a link is the setting of the link to what it comes to. -/
theorem modLink_eq_const (s : State) (l : LinkId) (f : Link → Link) : modLink s l f = modLink s l fun _ => f (s.link l) := by
  unfold modLink State.link
  generalize l.part = p
  cases p <;> rfl

/-- A link that is changed is set to what it then reads as. -/
theorem modLink_eq_link (s : State) (l : LinkId) (f : Link → Link) :
    modLink s l f = modLink s l fun _ => (modLink s l f).link l := by
  rw [link_modLink, ← modLink_eq_const]

@[simp] theorem link_emit (s : State) (o : Out) (l : LinkId) : (emit s o).link l = s.link l := by
  unfold State.link
  cases l.part <;> rfl

@[simp] theorem link_emitFlit (s : State) (l k : LinkId) (lseq dsn m) : (emitFlit s k lseq dsn m).link l = s.link l :=
  link_emit ..

@[simp] theorem modLink_out (s : State) (l : LinkId) (f : Link → Link) : (modLink s l f).out = s.out := modSh_out ..

theorem page_modLink (s : State) (l : LinkId) (f : Link → Link) (p : Part) (n : BitVec 7) :
    (modLink s l f).page p n = s.page p n := by
  unfold modLink State.page
  generalize l.part = q
  cases p <;> cases q <;> rfl

/-- A link's own state does not say where a flit stands on its lanes. -/
@[simp] theorem flitPlace_modLink (s : State) (l k : LinkId) (f : Link → Link) (m : Msg) :
    flitPlace (modLink s k f) l m = flitPlace s l m := by
  unfold flitPlace
  rw [modLink_out, page_modLink]

/-- A flit of the time class leaves at once, and takes neither credit nor a place in the replay buffer (R455, R458). -/
theorem sendLink_time {m : Msg} (hm : msgCls m = .time) (hactive : (s.link l).active = true) :
    sendLink s l none m = emitFlit (modLink s l fun k => k) l 0 none m := by
  have hretried : msgRetried m = false := by simp [msgRetried, hm]
  have hcan : canSend (s.link l) m = true := by simp [canSend, hm, hretried, creditIdx]
  have hafter : ∀ k, afterSend k none m = k := fun k => by simp [afterSend, hm, hretried, creditIdx]
  unfold sendLink
  simp only [hactive, Bool.not_true, Bool.false_and, Bool.false_eq_true, if_false, hcan, hm, hretried, hafter, creditIdx,
    beq_self_eq_true, Bool.true_or, Bool.and_self, if_true]

theorem sendLink_time_link {m : Msg} (hm : msgCls m = .time) (hactive : (s.link l).active = true) :
    (sendLink s l none m).link l = s.link l := by
  rw [sendLink_time hm hactive, link_emitFlit, link_modLink]

theorem sendLink_time_out {m : Msg} (hm : msgCls m = .time) (hactive : (s.link l).active = true) :
    (sendLink s l none m).out = s.out ++ [flitAt s l 0 none m] := by
  rw [sendLink_time hm hactive]
  show (modLink s l _).out ++ [_] = _
  rw [modLink_out, flitPlace_modLink]

end

end Sys2Proof.Machine
end

section
/-! O4: the delay exchange of a link. -/

namespace Sys2Proof.Machine

section

set_option Elab.async false

variable {s : State} {l : LinkId}

/-! ## The two ends send -/

/-- The link of an exchange that begins. -/
def exchBegun (k : Link) : Link := { k with exch := some k.dseq, exchAnswered := false, dseq := k.dseq + 1 }

theorem exec_dreqSend_sends (hactive : (s.link l).active = true) (hen : (s.link l).regs.ptCtrlTimeEn = true)
    (hsync : s.receivesSync l = true) :
    exec (.dreqSend l) s = .next (sendLink (modLink s l exchBegun) l none (.dreq ⟨(s.link l).dseq⟩)) := by
  show execDreqSend l s = _
  simp only [execDreqSend, hactive, hen, hsync, Bool.and_self, if_true]
  rfl

theorem exec_dreqSend_idle
    (hno : (s.link l).active = false ∨ (s.link l).regs.ptCtrlTimeEn = false ∨ s.receivesSync l = false) :
    exec (.dreqSend l) s = .next s := by
  show execDreqSend l s = _
  unfold execDreqSend
  refine if_neg ?_
  simp only [Bool.and_eq_true]
  rintro ⟨⟨hactive, hen⟩, hsync⟩
  rcases hno with h | h | h
  · exact Bool.false_ne_true (h.symm.trans hactive)
  · exact Bool.false_ne_true (h.symm.trans hen)
  · exact Bool.false_ne_true (h.symm.trans hsync)

theorem onTime_ready {tag : Option FlitTag} (h : s.laneReady l = true) (f : State → State) : onTime s l tag f = f s := by
  rw [onTime, if_pos h]

/-- A flit that comes in on a lane with no passed calibration is dropped, and its stamp with it (R113). -/
theorem onTime_unready {tag : FlitTag} (h : s.laneReady l = false) (f : State → State) :
    onTime s l (some tag) f = modLink s l fun k => { k with
      rx := dropStamp tag k.rx, regs := { k.regs with ptCol2NotSettled := satInc k.regs.ptCol2NotSettled } } := by
  rw [onTime, if_neg (by rw [h]; decide), dropSample, modLinkRegs, modLink_modLink]
  rfl

theorem exec_dreqReceive_answers (m : DreqP) (hready : s.laneReady l = true) (hpart : s.partReady l.part = true) :
    exec (.dreqReceive l m) s =
      .next (sendLink (modLink s l fun k => { k with resp := k.resp ++ [m.dseq] }) l none (.dresp ⟨m.dseq⟩)) := by
  show Host.Outcome.next (onTime ..) = _
  rw [onTime_ready hready, if_pos hpart]

theorem exec_dreqReceive_dropped (m : DreqP) (hready : s.laneReady l = false) :
    exec (.dreqReceive l m) s = .next (modLink s l fun k => { k with
      rx := dropStamp (.dreq m.dseq) k.rx,
      regs := { k.regs with ptCol2NotSettled := satInc k.regs.ptCol2NotSettled } }) :=
  congrArg Host.Outcome.next (onTime_unready hready _)

/-- The link of an exchange that the partner has answered in full. -/
def exchClosed (dseq : BitVec 16) (k : Link) : Link :=
  { k with
    resp := k.resp.filter (· != dseq), rx := dropStamp (.dreq dseq) k.rx, tx := dropStamp (.dresp dseq) k.tx }

theorem exec_drespFuSend_sends {dseq : BitVec 16} {a b : Stamp} (hresp : (s.link l).resp.contains dseq = true)
    (ha : findStamp (.dreq dseq) (s.link l).rx = some a) (hb : findStamp (.dresp dseq) (s.link l).tx = some b) :
    exec (.drespFuSend l dseq) s = .next (sendLink (modLink s l (exchClosed dseq)) l none (.drespFu {
      dseq := dseq, bad := (firstCause (pairCauses (some a) (some b))).isSome,
      turn := BitVec.ofInt 32 ((b.t + (s.latency l).1) - (a.t - (s.latency l).2)) })) := by
  show execDrespFuSend l dseq s = _
  simp only [execDrespFuSend, ha, hb, hresp, if_true]
  rfl

theorem exec_drespFuSend_waits {dseq : BitVec 16}
    (hno : findStamp (.dreq dseq) (s.link l).rx = none ∨ findStamp (.dresp dseq) (s.link l).tx = none) :
    exec (.drespFuSend l dseq) s = .next s := by
  show execDrespFuSend l dseq s = _
  unfold execDrespFuSend
  rcases hno with h | h <;> simp only [h]
  split <;> simp_all

/-! ## What comes back -/

theorem exec_drespReceive_noted {m : DrespP} (hready : s.laneReady l = true) (hexch : (s.link l).exch = some m.dseq) :
    exec (.drespReceive l m) s = .next (modLink s l fun k => { k with exchAnswered := true }) := by
  show Host.Outcome.next (onTime ..) = _
  rw [onTime_ready hready, if_pos hexch]

theorem exec_drespReceive_dropped (m : DrespP) (hready : s.laneReady l = false) :
    exec (.drespReceive l m) s = .next (modLink s l fun k => { k with
      rx := dropStamp (.dresp m.dseq) k.rx,
      regs := { k.regs with ptCol2NotSettled := satInc k.regs.ptCol2NotSettled } }) :=
  congrArg Host.Outcome.next (onTime_unready hready _)

theorem exec_drespFuReceive_dropped (m : DrespFuP) (hready : s.laneReady l = false) :
    exec (.drespFuReceive l m) s = .next (modLink s l fun k => { k with
      rx := dropStamp (.dresp m.dseq) k.rx,
      regs := { k.regs with ptCol2NotSettled := satInc k.regs.ptCol2NotSettled } }) :=
  congrArg Host.Outcome.next (onTime_unready hready _)

theorem exec_drespFuReceive_waits {m : DrespFuP} (hready : s.laneReady l = true)
    (hconv : converting s (.linkTx l) (.dreq m.dseq) = true ∨ converting s (.linkRx l) (.dresp m.dseq) = true) :
    exec (.drespFuReceive l m) s = .next (modLink s l fun k => { k with waitDresp := k.waitDresp ++ [m] }) := by
  show Host.Outcome.next (onTime ..) = _
  rw [onTime_ready hready, if_pos (by simpa only [Bool.or_eq_true] using hconv)]

theorem exec_drespFuReceive_takes {m : DrespFuP} (hready : s.laneReady l = true)
    (hconv : converting s (.linkTx l) (.dreq m.dseq) = false ∧ converting s (.linkRx l) (.dresp m.dseq) = false) :
    exec (.drespFuReceive l m) s = .next (takeDrespFu s l m) := by
  show Host.Outcome.next (onTime ..) = _
  rw [onTime_ready hready, hconv.1, hconv.2]
  rfl

theorem takeDrespFu_missed {m : DrespFuP} (hexch : (s.link l).exch ≠ some m.dseq) :
    takeDrespFu s l m = modLink s l fun k => { k with
      regs := { k.regs with ptCol0Missed := satInc k.regs.ptCol0Missed } } := by
  rw [takeDrespFu]
  dsimp only
  rw [if_neg hexch]
  rfl

/-- The link of an exchange that is over. -/
def exchOver (dseq : BitVec 16) (k : Link) : Link :=
  { k with exch := none, exchAnswered := false, tx := dropStamp (.dreq dseq) k.tx, rx := dropStamp (.dresp dseq) k.rx }

/-- A change of a link that leaves its exchange and its stamps. -/
def KeepsStamps (f : Link → Link) : Prop :=
  ∀ k, (f k).exch = k.exch ∧ (f k).exchAnswered = k.exchAnswered ∧ (f k).tx = k.tx ∧ (f k).rx = k.rx

theorem delayUpdate_keepsStamps (d : Int) : KeepsStamps fun k => delayUpdate k d := fun k => by
  unfold delayUpdate
  dsimp only
  split <;> exact ⟨rfl, rfl, rfl, rfl⟩

/-- The exchange is over whether its sample counts or not. -/
theorem takeDrespFu_over {m : DrespFuP} (hexch : (s.link l).exch = some m.dseq) :
    ∃ f, KeepsStamps f ∧ takeDrespFu s l m = modLink s l fun k => f (exchOver m.dseq k) := by
  have hdrop : ∀ c, KeepsStamps fun k => { k with regs := countDrop k.regs c } := fun c k => ⟨rfl, rfl, rfl, rfl⟩
  rw [takeDrespFu]
  dsimp only
  rw [if_pos hexch]
  split
  · exact ⟨_, delayUpdate_keepsStamps _, modLink_modLink ..⟩
  · refine ⟨fun k => { k with regs := countDrop k.regs .delayGate, gateDrops := k.gateDrops + 1 }, fun k => ⟨rfl, rfl, rfl,
    rfl⟩, ?_⟩
    rw [dropSample, modLinkRegs, modLink_modLink, modLink_modLink]
    rfl
  · exact ⟨_, hdrop _, modLink_modLink ..⟩

theorem firstCause_append {xs ys : List (Bool × Drop)} (h : firstCause xs = none) : firstCause (xs ++ ys) = firstCause ys := by
  induction xs with
  | nil => rfl
  | cons x xs ih =>
    obtain ⟨b, d⟩ := x
    cases b
    · exact ih h
    · exact absurd h (by simp [firstCause])

/-- The delay that an exchange with nothing wrong measures (R102). -/
theorem takeDrespFu_sample {m : DrespFuP} {a b : Stamp} (hready : s.laneReady l = true)
    (hexch : (s.link l).exch = some m.dseq) (ha : findStamp (.dreq m.dseq) (s.link l).tx = some a)
    (hb : findStamp (.dresp m.dseq) (s.link l).rx = some b) (hcause : firstCause (pairCauses (some a) (some b)) = none)
    (hbad : m.bad = false) (hturn : (s.link l).regs.ptGatesTurnMax = 0) (hgate : (s.link l).regs.ptGatesDelayGate = 0) :
    takeDrespFu s l m = modLink s l fun k => delayUpdate (exchOver m.dseq k)
      (((b.t - (s.latency l).2 - (a.t + (s.latency l).1)) - m.turn.toNat) / 2) := by
  rw [takeDrespFu]
  dsimp only
  rw [if_pos hexch, ha, hb, firstCause_append hcause, hbad, hready, hturn, hgate]
  simp only [firstCause, Bool.not_true, bne_self_eq_false, Bool.false_and, Bool.and_false, Bool.false_eq_true, if_false]
  exact modLink_modLink ..

theorem delayUpdate_settled {k : Link} (h : k.regs.ptDelaySettled = true) (d : Int) :
    (delayUpdate k d).regs.ptDelay =
      BitVec.ofInt 48 (k.regs.ptDelay.toInt + (d - k.regs.ptDelay.toInt) / 2 ^ k.regs.ptCtrlFilt.toNat) := by
  simp only [delayUpdate, h, if_true]

theorem delayUpdate_mean {k : Link} (h : k.regs.ptDelaySettled = false) (d : Int) :
    (delayUpdate k d).dcount = k.dcount + 1 ∧ (delayUpdate k d).dsum = k.dsum + d ∧
      (delayUpdate k d).regs.ptDelay = BitVec.ofInt 48 ((k.dsum + d) / (k.dcount + 1 : Nat)) ∧
      (delayUpdate k d).regs.ptDelaySettled = decide (2 ^ k.regs.ptCtrlFilt.toNat ≤ k.dcount + 1) := by
  simp only [delayUpdate, h, Bool.false_eq_true, if_false, ge_iff_le, true_and]
  exact decide_eq_decide.2 (by norm_cast)

theorem delayUpdate_gateDrops (k : Link) (d : Int) : (delayUpdate k d).gateDrops = 0 := by
  unfold delayUpdate
  dsimp only
  split <;> rfl

theorem exec_delayRestart_restarts (h : 64 ≤ (s.link l).gateDrops) :
    exec (.delayRestart l) s = .next (modLink s l fun k => { k with
      regs := { k.regs with ptDelaySettled := false }, dcount := 0, dsum := 0, gateDrops := 0,
      restarts := satInc k.restarts }) := by
  show execDelayRestart l s = _
  rw [execDelayRestart, if_pos h]

end

/-- Settles O4: what each flit of the exchange comes to at its link. -/
theorem delayExchange : Obligations.DelayExchange := by
  refine ⟨fun l s hactive hen hsync => ⟨_, exec_dreqSend_sends hactive hen hsync, ?_⟩,
    fun l s hno => ⟨s, exec_dreqSend_idle hno, rfl⟩,
    fun l m s hready hpart hactive => ⟨_, exec_dreqReceive_answers m hready hpart, ?_⟩,
    fun l m s hready => ⟨_, exec_dreqReceive_dropped m hready, link_modLink .., modLink_eq_link ..⟩,
    fun l dseq a b s hactive hresp ha hb => ⟨_, exec_drespFuSend_sends hresp ha hb, ?_⟩,
    fun l dseq s hno => ⟨s, exec_drespFuSend_waits hno, rfl⟩,
    fun l m s hready hexch => ⟨_, exec_drespReceive_noted hready hexch, link_modLink .., modLink_eq_link ..⟩,
    fun l m s hready => ⟨_, exec_drespReceive_dropped m hready, link_modLink .., modLink_eq_link ..⟩,
    fun l m s hready hexch hconv => ⟨_, exec_drespFuReceive_takes hready hconv, ?_⟩,
    fun l m a b d s hready hexch hconv ha hb hcause hbad hgates hd => ⟨_, exec_drespFuReceive_takes hready hconv, ?_⟩,
    fun l m s hready hconv => ⟨_, exec_drespFuReceive_waits hready hconv, rfl⟩,
    fun l m s hready hexch hconv => ⟨_, exec_drespFuReceive_takes hready hconv, ?_⟩,
    fun l m s hready => ⟨_, exec_drespFuReceive_dropped m hready, ?_, ?_, modLink_eq_link ..⟩,
    fun l s h => ⟨_, exec_delayRestart_restarts h, link_modLink .., modLink_eq_link ..⟩⟩
  · have hactive' : ((modLink s l exchBegun).link l).active = true := by rw [link_modLink]; exact hactive
    refine ⟨?_, ?_, sendLink_reported (modLink_reported (Reported.refl s) ..) ..⟩
    · rw [sendLink_time_link rfl hactive', link_modLink]
      rfl
    · rw [sendLink_time_out rfl hactive', modLink_out]
      rfl
  · have hactive' : ((modLink s l fun k => { k with resp := k.resp ++ [m.dseq] }).link l).active = true := by
      rw [link_modLink]; exact hactive
    refine ⟨?_, ?_, sendLink_reported (modLink_reported (Reported.refl s) ..) ..⟩
    · rw [sendLink_time_link rfl hactive', link_modLink]
    · rw [sendLink_time_out rfl hactive', modLink_out]
      rfl
  · have hactive' : ((modLink s l (exchClosed dseq)).link l).active = true := by rw [link_modLink]; exact hactive
    refine ⟨?_, ?_, sendLink_reported (modLink_reported (Reported.refl s) ..) ..⟩
    · rw [sendLink_time_link rfl hactive', link_modLink]
      rfl
    · rw [sendLink_time_out rfl hactive', modLink_out, flitAt, flitPlace_modLink]
  · obtain ⟨f, hf, h⟩ := takeDrespFu_over (s := s) (l := l) hexch
    obtain ⟨hexch', hanswered, htx, hrx⟩ := hf (exchOver m.dseq (s.link l))
    rw [h, link_modLink]
    exact ⟨hexch', hanswered, htx, hrx, modLink_eq_const ..⟩
  · rw [takeDrespFu_sample hready hexch ha hb hcause hbad hgates.1 hgates.2, ← hd, link_modLink]
    exact ⟨fun h => delayUpdate_settled (k := exchOver m.dseq (s.link l)) h d,
      fun h => delayUpdate_mean (k := exchOver m.dseq (s.link l)) h d, delayUpdate_gateDrops ..⟩
  · rw [takeDrespFu_missed hexch, link_modLink]
    exact ⟨rfl, modLink_eq_const ..⟩
  · rw [link_modLink]
  · rw [link_modLink]

end Sys2Proof.Machine
end

section
/-! O15: the TSU's resets, host port, event inputs, trigger outputs and completion port. -/

namespace Sys2Proof.Machine

section

set_option Elab.async false

variable {s : State}

/-! ## What a read through the host port leaves -/

/-- No page that the host port reads touches the requests outstanding: each clears or latches its own registers. -/
theorem readReg_host_hp (g : Page) (off : Nat) (s : State) : (readReg .host g off s).2.tsu.hp = s.tsu.hp := by
  unfold readReg
  dsimp only
  split
  · rfl
  cases g <;> dsimp only
  case emu => unfold readEmu emuMeanRead emuLastTickRead; (repeat' split) <;> rfl
  case timebase => unfold readTimebase; (repeat' split) <;> rfl
  case progh | seq => unfold readProg progDataRead; dsimp only; (repeat' split) <;> rfl
  case late => unfold readLate ltMeanRead onPartRead; (repeat' split) <;> rfl
  case audit => unfold readAudit audRd0Read onPartRead; (repeat' split) <;> first | rfl | contradiction
  case xlat => unfold readXlat; split <;> rfl
  case ladle => unfold readLadle; (repeat' split) <;> rfl
  case synch => unfold readSynch; split <;> rfl
  case steph => unfold readSteph; dsimp only; (repeat' split) <;> rfl
  case stock => unfold readStock; (repeat' split) <;> rfl
  case digh => unfold readDigh; dsimp only; (repeat' split) <;> rfl
  case deth => unfold readDeth; dsimp only; (repeat' split) <;> rfl
  case evh => unfold readEvh; (repeat' split) <;> rfl
  case flt => unfold readFlt; (repeat' split) <;> rfl
  case txn => unfold readTxn; (repeat' split) <;> rfl
  case memc => unfold readMemc; (repeat' split) <;> rfl
  case link => unfold readLink ptTsqHeadRead; dsimp only; (repeat' split) <;> rfl
  case phy => unfold readPhy; dsimp only; (repeat' split) <;> rfl
  case evtrig => unfold readEvtrig; dsimp only; (repeat' split) <;> rfl
  case tap => unfold readTap; (repeat' split) <;> rfl
  case sync => unfold readSync; (repeat' split) <;> rfl
  case spt => unfold readSpt; (repeat' split) <;> rfl
  case evq => unfold readEvq eqW0Read onPartRead; dsimp only; (repeat' split) <;> rfl
  all_goals rfl

theorem readAt_host_hp (a : BitVec 24) (s : State) : (readAt .host a s).2.2.tsu.hp = s.tsu.hp := by
  unfold readAt
  dsimp only
  split
  · rfl
  split
  · exact readReg_host_hp ..
  · rfl
  · rfl
  · rfl
  · show (refuse s .tsu _).tsu.hp = _
    unfold refuse modHdr
    split <;> rfl

/-! ## Resets (R164 to R166) -/

theorem exec_tsuReset_eq (s : State) : exec .tsuReset s = .next { s with tsu := { inReset := true } } := rfl

theorem exec_tsuResetRelease_samples (dieType : BitVec 16) (ref156 : Bool) (taps : BitVec 7) (h : s.tsu.inReset = true) :
    exec (.tsuResetRelease dieType ref156 taps) s =
      .next { s with tsu := { root := { integDieType := dieType, integRef156 := ref156, integTaps := taps } } } := by
  show execTsuResetRelease .. = _
  rw [execTsuResetRelease, if_pos h]

/-- What the host port reset leaves of the TSU (R166). -/
def hostPortCleared (h : Tsu) : Tsu :=
  { h with hp := [], sh := { h.sh with ifaces := tset {} h.sh.ifaces Iface.host.key {} } }

theorem iface_hostPortCleared (s : State) : (modTsu s hostPortCleared).iface .host = {} := by
  simp only [State.iface, Iface.part, State.sh, modTsu, hostPortCleared, tget_tset_same]

theorem exec_hostPortReset_eq (s : State) : exec .hostPortReset s = .next (modTsu s hostPortCleared) := rfl

/-! ## Requests and responses (R168 to R171) -/

section

variable (write : Bool) (addr : BitVec 15) (data : Word) (tag : BitVec 4)

/-- A request as it enters the host port's queue. -/
def hostQueued (done : Option (Bool × Word)) (h : Tsu) : Tsu :=
  { h with hpNext := h.hpNext + 1, hp := h.hp ++ [{ id := h.hpNext, tag := tag, write := write, done := done }] }

section

variable (hrun : s.tsu.inReset = false) (hroom : s.tsu.hp.length < 16)

include hrun hroom

theorem exec_hostPortRequest_served (htag : s.tsu.hp.any (fun e => e.tag == tag) = false) (hturn : s.hostWaitsTurn = false) :
    exec (.hostPortRequest write addr data tag) s = .next (hostAccess (modTsu s (hostQueued write tag none))
      { id := s.tsu.hpNext, write := write, addr := addr.setWidth 24 <<< 3, data := data }) := by
  show execHostPortRequest .. = _
  simp only [execHostPortRequest, hrun, Nat.not_le.2 hroom, decide_false, Bool.or_self, Bool.false_eq_true, if_false, htag, hturn]
  rfl

theorem exec_hostPortRequest_waits (htag : s.tsu.hp.any (fun e => e.tag == tag) = false) (hturn : s.hostWaitsTurn = true) :
    exec (.hostPortRequest write addr data tag) s = .next (modTsu (modTsu s (hostQueued write tag none)) fun h => { h with
      lateHost := h.lateHost ++ [{ id := s.tsu.hpNext, write := write, addr := addr.setWidth 24 <<< 3, data := data }] }) := by
  show execHostPortRequest .. = _
  simp only [execHostPortRequest, hrun, Nat.not_le.2 hroom, decide_false, Bool.or_self, Bool.false_eq_true, if_false, htag, hturn]
  rfl

theorem exec_hostPortRequest_tagUsed (htag : s.tsu.hp.any (fun e => e.tag == tag) = true) :
    exec (.hostPortRequest write addr data tag) s =
      .next (modTsu (refuse s .tsu .root) (hostQueued write tag (some (true, 0)))) := by
  show execHostPortRequest .. = _
  simp only [execHostPortRequest, hrun, Nat.not_le.2 hroom, decide_false, Bool.or_self, Bool.false_eq_true, if_false, htag]
  rfl

end

theorem exec_hostPortRequest_idle (h : s.tsu.inReset = true ∨ 16 ≤ s.tsu.hp.length) :
    exec (.hostPortRequest write addr data tag) s = .next s := by
  show execHostPortRequest .. = _
  unfold execHostPortRequest
  exact if_pos (by simpa only [Bool.or_eq_true, decide_eq_true_eq] using h)

theorem hostAccess_write (v : State) (id : Nat) (a : BitVec 24) :
    hostAccess v { id := id, write := true, addr := a, data := data } = writeAt (.hp id) .host a data v := if_pos rfl

/-- A read that is served gives its answer to the request that came last. -/
theorem hostAccess_read_last (v : State) (hp : List HpEntry) (id : Nat) (a : BitVec 24)
    (hv : v.tsu.hp = hp ++ [{ id := id, tag := tag, write := false, done := none }]) :
    ((hostAccess v { id := id, write := false, addr := a, data := data }).tsu.hp.getLast?.map fun e =>
      (e.tag, e.write, e.done)) = some (tag, false, some ((readAt .host a v).1, (readAt .host a v).2.1)) := by
  show (((readAt .host a v).2.2.tsu.hp.map _).getLast?.map _) = _
  rw [readAt_host_hp, hv, List.map_append, List.map_singleton, List.getLast?_concat, Option.map_some, if_pos rfl]

end

theorem exec_hostPortResponse_read {e : HpEntry} {rest : List HpEntry} {x : Word} (hhp : s.tsu.hp = e :: rest)
    (hdone : e.done = some (false, x)) (hread : e.write = false) :
    exec .hostPortResponse s = .next (emit (modTsu s fun h => { h with hp := rest }) (.hpResponse e.tag false x)) := by
  show execHostPortResponse s = _
  simp only [execHostPortResponse, hhp, hdone, hread, Bool.or_self, Bool.false_eq_true, if_false]

/-! ## Event inputs (R175) -/

/-- The TSU after an edge of an event input. -/
def edgeTaken (s : State) (n : BitVec 4) (h : Tsu) : Tsu :=
  let e := tget {} s.tsu.evts n.toNat
  { h with
    evtNew := setBit h.evtNew n.toNat true
    evts := tset {} h.evts n.toNat { lastCyc := some s.tsu.sh.tb.cycles, edges := e.edges + 1, regs := { e.regs with
      evtLast := BitVec.ofInt 64 ((((s.now .tsu).toNat : Int) * 65536 - 196608 - e.regs.ioAdj.toInt) / 65536)
      evtCount := satInc e.regs.evtCount } }
    slots := tmap {} (fun _ x =>
      if x.regs.soCfgType == tyFlag && x.regs.soCfgEvtEn && x.regs.soCfgEvtIdx == n then
        { x with regs := { x.regs with soValValue := 1 } }
      else x) h.slots }

theorem exec_eventInputEdge_taken {n : BitVec 4} {falling : Bool} (hrun : s.tsu.inReset = false)
    (hen : s.tsu.evt.evtCtrlEn.getLsbD n.toNat = true) (hedge : s.tsu.evt.evtCtrlEdge.getLsbD n.toNat = falling)
    (hfirst : (tget {} s.tsu.evts n.toNat).lastCyc = none) :
    exec (.eventInputEdge n falling) s = .next (setCause (modTsu s (edgeTaken s n)) .tsu .evtrig n.toNat) := by
  show execEventInputEdge .. = _
  simp only [execEventInputEdge, hrun, hen, hedge, hfirst, Bool.not_true, bne_self_eq_false, Bool.or_self, Bool.false_eq_true,
    if_false]
  rfl

theorem Reported.evts {t : State} (h : Reported s t) : t.tsu.evts = s.tsu.evts := by rw [h]

/-- The line of an input after its edge. -/
theorem edgeTaken_line (s : State) (n : BitVec 4) :
    tget {} (modTsu s (edgeTaken s n)).tsu.evts n.toNat = {
      lastCyc := some s.tsu.sh.tb.cycles
      edges := (tget {} s.tsu.evts n.toNat).edges + 1
      regs := { (tget {} s.tsu.evts n.toNat).regs with
        evtLast := BitVec.ofInt 64 ((((s.now .tsu).toNat : Int) * 65536 - 196608 -
          (tget {} s.tsu.evts n.toNat).regs.ioAdj.toInt) / 65536)
        evtCount := satInc (tget {} s.tsu.evts n.toNat).regs.evtCount } } := by
  simp only [modTsu, edgeTaken, tget_tset_same]

/-! ## Trigger outputs (R265) -/

@[simp] theorem trig_emit (s : State) (o : Out) (n : BitVec 4) : (emit s o).trig n = s.trig n := rfl

variable {n : BitVec 4}

/-- An output that is idle begins a pulse. -/
theorem startPulse_idle (hidle : (s.trig n).active = false) (t : Int) :
    startPulse s n t = emit (modTrig s n fun x => { x with
      active := true, endAt := t + (x.regs.trigWidth.toNat + 1) * 65536 })
      (.trig n (!s.tsu.evt.trigCtrlPol.getLsbD n.toNat) (BitVec.ofInt 80 t)) := by
  rw [startPulse, hidle]
  rfl

theorem exec_triggerPulseStart_scheduled {p : PulseKind × Tick} (hact : s.acting .tsu = true)
    (hp : firstPulse (s.trig n).pend = some p) (hdue : pulsePlace (s.trig n) p.2 < ((s.now .tsu).toNat + 1) * 65536)
    (hen : s.tsu.evt.trigCtrlEn.getLsbD n.toNat = true) (hmode : (s.trig n).regs.trigMode ≠ 2) :
    exec (.triggerPulseStart n) s = .next (startPulse (modTrig s n fun x => { x with pend := x.pend.erase p }) n
      (pulsePlace (s.trig n) p.2)) := by
  have hmode' : ((s.trig n).regs.trigMode == 2) = false := beq_false_of_ne hmode
  have hen' : (modTrig s n fun x => { x with pend := x.pend.erase p }).tsu.evt.trigCtrlEn.getLsbD n.toNat = true := hen
  show Host.Outcome.next (pulseStart s n) = _
  simp only [pulseStart, hact, hp, hmode', Option.filter_some, decide_eq_true hdue, Bool.not_true, Bool.and_false, Bool.false_and,
    Bool.false_eq_true, if_false, if_true, startPend, hen']

theorem exec_triggerPulseStart_periodic (hact : s.acting .tsu = true) (hpend : (s.trig n).pend = [])
    (hmode : (s.trig n).regs.trigMode = 2) (hnum : (s.trig n).regs.trigPeriodNum ≠ 0)
    (hdue : (nextPeriodic (s.trig n)).2 < ((s.now .tsu).toNat + 1) * 65536)
    (hen : s.tsu.evt.trigCtrlEn.getLsbD n.toNat = true) :
    exec (.triggerPulseStart n) s = .next (startPulse (modTrig s n fun x => { x with
      lastK := some (nextPeriodic (s.trig n)).1 }) n (nextPeriodic (s.trig n)).2) := by
  have hnum' : ((s.trig n).regs.trigPeriodNum != 0) = true := bne_iff_ne.2 hnum
  show Host.Outcome.next (pulseStart s n) = _
  simp only [pulseStart, hact, hpend, firstPulse, List.foldl_nil, Option.filter_none, hen, hmode, hnum', beq_self_eq_true,
    Bool.and_self, if_true, Option.filter_some, decide_eq_true hdue, Bool.not_true, Bool.false_eq_true, if_false]

theorem exec_triggerPulseEnd_ended (hactive : (s.trig n).active = true)
    (hend : (s.trig n).endAt < ((s.now .tsu).toNat + 1) * 65536) :
    exec (.triggerPulseEnd n) s = .next (emit (modTrig s n fun x => { x with active := false })
      (.trig n (s.tsu.evt.trigCtrlPol.getLsbD n.toNat) (BitVec.ofInt 80 (s.trig n).endAt))) := by
  show execTriggerPulseEnd n s = _
  rw [execTriggerPulseEnd, if_pos (by rw [hactive, decide_eq_true hend]; rfl)]

/-! ## Completion port (R179) -/

theorem channel_cases : ∀ w : BitVec 2, w = 0 ∨ w = 1 ∨ w = 2 ∨ w = 3 := by decide

variable (w : BitVec 2) (bytes : BitVec 16)

/-- A beat on WC_ISSUED adds its bytes to its channel's total. -/
theorem exec_wcIssuedBeat_adds (hrun : s.tsu.inReset = false) :
    ∃ d, exec (.wcIssuedBeat w bytes) s = .next (modTsu s fun h => { h with dfc := d }) ∧
      ∀ j : BitVec 2, (modTsu s fun h => { h with dfc := d }).wcIssued j.toNat =
        if j = w then s.wcIssued j.toNat + (bytes.setWidth 64 + 1) else s.wcIssued j.toNat := by
  refine ⟨_, by show execWcIssuedBeat w bytes s = _; rw [execWcIssuedBeat, hrun]; rfl, fun j => ?_⟩
  rcases channel_cases w with rfl | rfl | rfl | rfl <;> rcases channel_cases j with rfl | rfl | rfl | rfl <;> rfl

theorem exec_wcDoneBeat_adds (hrun : s.tsu.inReset = false) :
    ∃ d, exec (.wcDoneBeat w bytes) s = .next (modTsu s fun h => { h with dfc := d }) ∧
      ∀ j : BitVec 2, (modTsu s fun h => { h with dfc := d }).wcDone j.toNat =
        if j = w then s.wcDone j.toNat + (bytes.setWidth 64 + 1) else s.wcDone j.toNat := by
  refine ⟨_, by show execWcDoneBeat w bytes s = _; rw [execWcDoneBeat, hrun]; rfl, fun j => ?_⟩
  rcases channel_cases w with rfl | rfl | rfl | rfl <;> rcases channel_cases j with rfl | rfl | rfl | rfl <;> rfl

theorem exec_ingressBeat_adds (hrun : s.tsu.inReset = false) :
    ∃ d, exec (.ingressBeat w bytes) s = .next (modTsu s fun h => { h with dfc := d }) ∧
      ∀ j : BitVec 2, (modTsu s fun h => { h with dfc := d }).ingress j =
        if j = w then s.ingress j + (bytes.setWidth 64 + 1) else s.ingress j := by
  refine ⟨_, by show execIngressBeat w bytes s = _; rw [execIngressBeat, hrun]; rfl, fun j => ?_⟩
  rcases channel_cases w with rfl | rfl | rfl | rfl <;> rcases channel_cases j with rfl | rfl | rfl | rfl <;> rfl

end

/-- Settles O15: the resets, each answer of the host port, and what an edge, a pulse and a beat change. -/
theorem tsuBoundary : Obligations.TsuBoundary := by
  refine ⟨fun s => ⟨_, exec_tsuReset_eq s, rfl⟩,
    fun dieType ref156 taps s hreset => ⟨_, exec_tsuResetRelease_samples dieType ref156 taps hreset, rfl⟩,
    fun s => ⟨_, exec_hostPortReset_eq s, ?_, ?_, ?_⟩,
    fun write addr data tag s hrun hroom htag hturn hwrite =>
      ⟨_, exec_hostPortRequest_served write addr data tag hrun hroom htag hturn, ?_⟩,
    fun write addr data tag s hrun hroom htag hturn hread =>
      ⟨_, exec_hostPortRequest_served write addr data tag hrun hroom htag hturn, ?_⟩,
    fun write addr data tag s hrun hroom htag hturn =>
      ⟨_, exec_hostPortRequest_waits write addr data tag hrun hroom htag hturn, rfl, rfl, rfl⟩,
    fun write addr data tag s h => ⟨s, exec_hostPortRequest_idle write addr data tag h, rfl⟩,
    fun write addr data tag s hrun hroom htag =>
      ⟨_, exec_hostPortRequest_tagUsed write addr data tag hrun hroom htag, rfl, rfl⟩,
    fun e rest x s hhp hdone hread => ⟨_, exec_hostPortResponse_read hhp hdone hread, rfl⟩,
    fun n falling s hrun hen hedge hfirst => ⟨_, exec_eventInputEdge_taken hrun hen hedge hfirst, ?_⟩,
    fun n p s hact hp hdue hen hmode hidle => ⟨_, exec_triggerPulseStart_scheduled hact hp hdue hen hmode, ?_⟩,
    fun n s hact hpend hmode hdue hen hidle =>
      ⟨_, exec_triggerPulseStart_periodic hact hpend hmode.1 hmode.2 hdue hen, ?_⟩,
    fun n s hactive hend => ⟨_, exec_triggerPulseEnd_ended hactive hend, rfl⟩,
    fun ch bytes s hrun => ?_, fun ch bytes s hrun => ?_, fun ch bytes s hrun => ?_⟩
  · rfl
  · exact iface_hostPortCleared s
  · simp only [modTsu, hostPortCleared]
  · subst hwrite
    exact hostAccess_write data _ _ _
  · subst hread
    exact ⟨rfl, hostAccess_read_last data tag _ _ _ _ rfl⟩
  · refine ⟨?_, ?_, setCause_hdr (by decide) (by omega), ?_, setCause_tsu_hub .., ?_⟩
    · rw [(setCause_reported (Reported.refl _) .tsu .evtrig n.toNat).evts, edgeTaken_line]
    · rw [(setCause_reported (Reported.refl _) .tsu .evtrig n.toNat).evts, edgeTaken_line]
      exact congrArg (fun x : Int => BitVec.ofInt 64 (x / 65536)) (by rw [Int.sub_mul]; rfl)
    · rw [setCause_reported (Reported.refl (modTsu s (edgeTaken s n))) .tsu .evtrig n.toNat]
      rfl
    · obtain ⟨r, hr⟩ := (setCause_reported (Reported.refl (modTsu s (edgeTaken s n))) .tsu .evtrig n.toNat).exists_report
      rw [hr]
      rfl
  · have hidle' : ((modTrig s n fun x => { x with pend := x.pend.erase p }).trig n).active = false := by
      rw [trig_modTrig]; exact hidle
    rw [startPulse_idle hidle']
    refine ⟨?_, ?_, ?_, rfl, rfl⟩ <;> rw [trig_emit, trig_modTrig, trig_modTrig]
    rfl
  · have hidle' : ((modTrig s n fun x => { x with lastK := some (nextPeriodic (s.trig n)).1 }).trig n).active = false := by
      rw [trig_modTrig]; exact hidle
    rw [startPulse_idle hidle']
    refine ⟨?_, ?_, rfl, rfl⟩ <;> rw [trig_emit, trig_modTrig, trig_modTrig]
  · obtain ⟨d, h, htotal⟩ := exec_wcIssuedBeat_adds ch bytes hrun
    exact ⟨_, h, (htotal ch).trans (if_pos rfl), rfl, fun j hj => (htotal j).trans (if_neg hj)⟩
  · obtain ⟨d, h, htotal⟩ := exec_wcDoneBeat_adds ch bytes hrun
    exact ⟨_, h, (htotal ch).trans (if_pos rfl), rfl, fun j hj => (htotal j).trans (if_neg hj)⟩
  · obtain ⟨d, h, htotal⟩ := exec_ingressBeat_adds ch bytes hrun
    exact ⟨_, h, (htotal ch).trans (if_pos rfl), rfl, fun j hj => (htotal j).trans (if_neg hj)⟩

end Sys2Proof.Machine
end

section
/-! A cause that a page shows stands while events are raised and flits are sent. -/

namespace Sys2Proof.Machine

section

set_option Elab.async false

/-- A page shows a cause (R504). -/
def Shows (p : Part) (g : Page) (b : Nat) (s : State) : Prop := (s.hdr p g).pageIntStatus.getLsbD b = true

variable {s t : State} {p : Part} {g : Page} {b : Nat}

theorem Shows.of_hdr (h : Shows p g b s) (heq : (t.sh p).hdr = (s.sh p).hdr) : Shows p g b t := by
  unfold Shows State.hdr at h ⊢
  rwa [heq]

/-- What leaves the headers leaves the causes they show. -/
theorem Shows.modSh (h : Shows p g b s) (q : Part) {f : Shared → Shared} (hf : ∀ x, (f x).hdr = x.hdr) :
    Shows p g b (modSh s q f) := by
  refine h.of_hdr ?_
  cases p <;> cases q
  · exact hf _
  · rfl
  · rfl
  · exact hf _

theorem Shows.modHub (h : Shows p g b s) {f : Hub → Hub} (hf : (f s.hub).sh = s.hub.sh) : Shows p g b (modHub s f) := by
  refine h.of_hdr ?_
  cases p
  · exact congrArg Shared.hdr hf
  · rfl

theorem Shows.modTsu (h : Shows p g b s) {f : Tsu → Tsu} (hf : (f s.tsu).sh = s.tsu.sh) : Shows p g b (modTsu s f) := by
  refine h.of_hdr ?_
  cases p
  · rfl
  · exact congrArg Shared.hdr hf

theorem Shows.emit (h : Shows p g b s) (o : Out) : Shows p g b (emit s o) := h.of_hdr (by rw [emit_sh])

/-- A header that is changed without a cause's clearing goes on to show it. -/
theorem Shows.modHdr (h : Shows p g b s) (q : Part) (k : Page) {f : PageHdr → PageHdr}
    (hf : ∀ x : PageHdr, x.pageIntStatus.getLsbD b = true → (f x).pageIntStatus.getLsbD b = true) :
    Shows p g b (modHdr s q k f) := by
  unfold Machine.modHdr
  split
  case h_2 => exact h
  case h_1 n hn =>
    by_cases hpq : p = q
    · subst hpq
      unfold Shows State.hdr at h ⊢
      split at h
      case h_2 => exact absurd h (by simp)
      case h_1 m hm =>
        rw [modSh_sh]
        by_cases hmn : n = m
        · subst hmn
          rw [tget_tmod_same]
          exact hf _ h
        · rwa [tget_tmod_ne _ hmn]
    · refine h.of_hdr ?_
      cases p <;> cases q
      · exact absurd rfl hpq
      · rfl
      · rfl
      · exact absurd rfl hpq

theorem Shows.refuse (h : Shows p g b s) (q : Part) (k : Page) : Shows p g b (refuse s q k) := h.modHdr q k fun _ hx => hx

theorem Shows.setCause (h : Shows p g b s) (q : Part) (k : Page) (n : Nat) : Shows p g b (setCause s q k n) :=
  h.modHdr q k fun x hx => by
    simp only [setBit, BitVec.getLsbD_or, hx, Bool.true_or, if_true]

theorem shows_setCause (hg : g.ordinal p ≠ none) (hb : b < 64) (s : State) : Shows p g b (setCause s p g b) := setCause_hdr hg hb

theorem Shows.modLink (h : Shows p g b s) (l : LinkId) (f : Link → Link) : Shows p g b (modLink s l f) :=
  h.modSh _ fun _ => rfl

/-- What every step of a fold goes on to show, the fold goes on to show. -/
theorem Shows.foldl {α : Type} {f : State → α → State} (hf : ∀ t x, Shows p g b t → Shows p g b (f t x)) (h : Shows p g b s)
    (xs : List α) : Shows p g b (xs.foldl f s) := by
  induction xs generalizing s with
  | nil => exact h
  | cons x xs ih => exact ih (hf s x h)

theorem Shows.ite {c : Prop} [Decidable c] (hs : Shows p g b s) (ht : Shows p g b t) : Shows p g b (if c then s else t) := by
  split
  · exact hs
  · exact ht

theorem Shows.sendLink (h : Shows p g b s) (l : LinkId) (dsn m) : Shows p g b (sendLink s l dsn m) := by
  unfold Machine.sendLink
  refine Shows.ite (Shows.ite (h.refuse _ _) h) (Shows.ite ((h.modLink _ _).emit _) ?_)
  exact ((h.modLink _ _).modLink _ _).foldl (fun _ _ ht => ht.emit _) _

theorem Shows.tsuSendUp (h : Shows p g b s) (m : Msg) : Shows p g b (tsuSendUp s m) := by
  unfold Machine.tsuSendUp
  exact Shows.ite ((h.modTsu rfl).sendLink ..) (h.modTsu rfl)

theorem Shows.evqPut (h : Shows p g b s) (r : BitVec 512) : Shows p g b (evqPut s r) := by
  unfold Machine.evqPut
  exact Shows.ite ((h.modTsu rfl).setCause ..) ((h.modTsu rfl).setCause ..)

/-- The hub's ring after a record. -/
def ringWritten (s : State) (r : BitVec 512) : State :=
  modHub s fun h => { h with
    ring := tset 0 h.ring (s.hub.evh.evHead.toNat % ringSize) r, evh := { h.evh with evHead := s.hub.evh.evHead + 1 } }

theorem ringWrite_eq (s : State) (r : BitVec 512) : ringWrite s r = setCause (ringWritten s r) .hub .evh 0 := rfl

theorem Shows.ringWrite (h : Shows p g b s) (r : BitVec 512) : Shows p g b (ringWrite s r) := by
  have hwritten : Shows p g b (ringWritten s r) := h.of_hdr (by cases p <;> rfl)
  rw [ringWrite_eq]
  exact hwritten.setCause ..

theorem Shows.formRecord (h : Shows p g b s) (q : Part) (e : Ev) (n : BitVec 32) : Shows p g b (formRecord s q e n) := by
  have hseq := h.modSh q (f := fun x => { x with evSeq := x.evSeq + 1 }) fun _ => rfl
  cases q
  · exact hseq.ringWrite _
  · exact (hseq.evqPut _).tsuSendUp _

theorem Shows.raise (h : Shows p g b s) (q : Part) (e : Ev) : Shows p g b (raise s q e) := by
  rw [raise_eq]
  refine Shows.ite (h.formRecord ..) (Shows.ite ?_ ?_)
  · exact h.modSh q fun _ => rfl
  · refine Shows.formRecord ?_ q _ _
    exact h.modSh q fun _ => rfl

theorem Shows.raisePlain (h : Shows p g b s) (q : Part) (code sub sev fs) : Shows p g b (raisePlain s q code sub sev fs) :=
  h.raise ..

end

end Sys2Proof.Machine
end

section
/-! O16: slots, and the host's operations on them. -/

namespace Sys2Proof.Machine

section

set_option Elab.async false

variable {s : State} {i : Iface} {k : BitVec 12} {data : Word}

/-! ## The operation that a row puts into SO_OP (R248) -/

/-- SO_OP as a row of it writes it. -/
def soOpWord (op : BitVec 4) (v : Word) : Word := (v &&& 0x0FFFFFFFFFFFFFFF) ||| putF 60 op

theorem getF_soOpWord_op (op : BitVec 4) (v : Word) : getF (soOpWord op v) 60 4 = op := by
  refine BitVec.eq_of_getLsbD_eq fun n hn => ?_
  have hmask : (0x0FFFFFFFFFFFFFFF : Word).getLsbD (60 + n) = false := by
    obtain rfl | rfl | rfl | rfl : n = 0 ∨ n = 1 ∨ n = 2 ∨ n = 3 := by omega
    all_goals rfl
  rw [getF, soOpWord, BitVec.getLsbD_extractLsb', BitVec.getLsbD_or, BitVec.getLsbD_and, hmask, Bool.and_false, Bool.false_or]
  simp [putF, hn, show 60 + n < 64 by omega]

theorem getF_soOpWord_arg (op : BitVec 4) (v : Word) {lo w : Nat} (h : lo + w ≤ 60) : getF (soOpWord op v) lo w = getF v lo w
  := by
  refine BitVec.eq_of_getLsbD_eq fun n hn => ?_
  have hmask : ∀ m, m < 60 → (0x0FFFFFFFFFFFFFFF#64).getLsbD m = true := by decide
  have hlow : lo + n < 60 := by omega
  simp [getF, soOpWord, putF, hmask _ hlow, hn, hlow]

/-- A row of SO_OP acts on the slot that the interface selects. -/
theorem soOpRow_tsu (hpower : unpowered s i = false) (hi : i.part = .tsu) (op : BitVec 4) :
    soOpRow op i data s = .next (soOpWrite (.row i) (s.iface i).regs.soSel (soOpWord op data) s) := by
  unfold soOpRow
  rw [hi]
  dsimp only
  rw [if_neg (by rw [hpower]; decide)]
  rfl

section

variable (hpower : unpowered s i = false) (hi : i.part = .tsu)

include hpower hi

theorem exec_soOpArrive_row :
    exec (.soOpArrive i data) s = .next (answer (slotArrive s (s.iface i).regs.soSel).2 (.row i)
      (slotArrive s (s.iface i).regs.soSel).1) := by
  show soOpRow 1 i data s = _
  rw [soOpRow_tsu hpower hi, soOpWrite, getF_soOpWord_op]
  rfl

theorem exec_soOpAdd_row :
    exec (.soOpAdd i data) s = .next (answer (slotAdd s (s.iface i).regs.soSel (getF data 0 48)).2 (.row i)
      (slotAdd s (s.iface i).regs.soSel (getF data 0 48)).1) := by
  show soOpRow 2 i data s = _
  rw [soOpRow_tsu hpower hi, soOpWrite, getF_soOpWord_op, getF_soOpWord_arg _ _ (by decide)]
  rfl

theorem exec_soOpSet_row :
    exec (.soOpSet i data) s = .next (answer (slotSet s (s.iface i).regs.soSel (getF data 0 48)).2 (.row i)
      (slotSet s (s.iface i).regs.soSel (getF data 0 48)).1) := by
  show soOpRow 3 i data s = _
  rw [soOpRow_tsu hpower hi, soOpWrite, getF_soOpWord_op, getF_soOpWord_arg _ _ (by decide)]
  rfl

theorem exec_soOpClear_row :
    exec (.soOpClear i data) s = .next (answer (slotClear s (s.iface i).regs.soSel).2 (.row i)
      (slotClear s (s.iface i).regs.soSel).1) := by
  show soOpRow 4 i data s = _
  rw [soOpRow_tsu hpower hi, soOpWrite, getF_soOpWord_op]
  rfl

theorem exec_soOpOpenWindow_row :
    exec (.soOpOpenWindow i data) s = .next (answer (slotOpenWindow s (getF data 6 2) (getF data 0 6)).2 (.row i)
      (slotOpenWindow s (getF data 6 2) (getF data 0 6)).1) := by
  show soOpRow 6 i data s = _
  rw [soOpRow_tsu hpower hi, soOpWrite, getF_soOpWord_op, getF_soOpWord_arg _ _ (by decide),
    getF_soOpWord_arg _ _ (by decide), getF_soOpWord_arg _ _ (by decide)]
  rfl

end

/-! ## What the operations come to -/

theorem slotAdd_counter_below (hty : (s.slot k).regs.soCfgType = tyCounter) {n : BitVec 48}
    (hn : (s.slot k).regs.soValValue.toNat + n.toNat < 2 ^ 48 - 1) :
    slotAdd s k n = (false, modSlotRegs s k fun r => { r with soValValue := r.soValValue + n }) := by
  rw [slotAdd, if_pos (.inl hty), setValue_below hn]
  refine congrArg (Prod.mk false) (modSlotRegs_congr ?_)
  rw [BitVec.ofNat_add, BitVec.ofNat_toNat, BitVec.ofNat_toNat, BitVec.setWidth_eq, BitVec.setWidth_eq]

/-- A counter that reaches its maximum is saturated, with its cause and its event (R230). -/
theorem setValue_saturates {n : Nat} (hn : ¬ n < 2 ^ 48 - 1) (hfirst : (s.slot k).regs.soValSaturated = false) :
    setValue s k n = raise (setCause (modSlotRegs s k fun r => { r with
      soValValue := BitVec.allOnes 48, soValSaturated := true }) .tsu .sync 16) .tsu
      (tsuEv (setCause (modSlotRegs s k fun r => { r with
        soValValue := BitVec.allOnes 48, soValSaturated := true }) .tsu .sync 16) 0x0002 0 0
        [(16, (s.slot k).regs.soCfgObj.toNat), (16, k.toNat)]) := by
  rw [setValue, if_neg hn]
  dsimp only
  rw [hfirst, if_neg Bool.false_ne_true]

/-- Beyond the objects of the TSU a state is as reports leave it. -/
def slotMask : Mask where
  take s t := report t { s with tsu := { s.tsu with
    slots := t.tsu.slots, wins := t.tsu.wins, sends := t.tsu.sends, heldSends := t.tsu.heldSends } }
  take_take _ _ _ := rfl
  take_report _ _ := rfl

/-- The cause and the event of a counter that is saturated. -/
theorem saturated_raised (u : State) (fs : List (Nat × Nat)) :
    Shows .tsu .sync 16 (raise (setCause u .tsu .sync 16) .tsu (tsuEv (setCause u .tsu .sync 16) 0x0002 0 0 fs)) ∧
      Raised (raise (setCause u .tsu .sync 16) .tsu (tsuEv (setCause u .tsu .sync 16) 0x0002 0 0 fs)) .tsu 0x0002 0 ∧
      Reported u (raise (setCause u .tsu .sync 16) .tsu (tsuEv (setCause u .tsu .sync 16) 0x0002 0 0 fs)) :=
  ⟨(shows_setCause (by decide) (by decide) u).raise .., raise_tsuEv_raised _ _ .tsu (by decide) 0 0 fs,
    raise_reported (setCause_reported (.refl u) ..) ..⟩

theorem slotSet_flag (hty : (s.slot k).regs.soCfgType = tyFlag) (n : BitVec 48) :
    slotSet s k n = (false, modSlotRegs s k fun r => { r with soValValue := 1 }) := by
  rw [slotSet, hty]
  rfl

theorem slotClear_signal (hty : (s.slot k).regs.soCfgType = tySignal) :
    slotClear s k = (false, modSlotRegs s k fun r => { r with soValValue := 0, soValSaturated := false }) := by
  rw [slotClear, if_pos (.inr (.inr hty))]
  rfl

theorem slotOpenWindow_free {g : BitVec 2} {w : BitVec 6} (h : s.winPending g w = 0) :
    slotOpenWindow s g w = (false, openWindow s g w (s.ingress g)) := by
  rw [slotOpenWindow, h]
  rfl

theorem window_openWindow (s : State) (g : BitVec 2) (w : BitVec 6) (base : BitVec 64) :
    (openWindow s g w base).window g w = { isOpen := true, base := base } := by
  simp only [State.window, openWindow, modTsu_tsu, tget_tset_same]

/-- A change of a slot's registers is the setting of the slot to what it then reads as. -/
theorem modSlot_eq_slot (s : State) (k : BitVec 12) (f : Slot → Slot) :
    modSlot s k f = modSlot s k fun _ => (modSlot s k f).slot k := by
  rw [slot_modSlot]
  rfl

@[simp] theorem slot_emit (s : State) (o : Out) (k : BitVec 12) : (emit s o).slot k = s.slot k := rfl

/-! ## Configuration and context (R217, R247) -/

theorem exec_soCfgWrite_created (ha : Answers s i) (hi : i.part = .tsu)
    (hfree : (s.slot (s.iface i).regs.soSel).regs.soCfgType = 0)
    (hty : getF data 61 3 = tyCounter ∨ getF data 61 3 = tyFlag ∨ getF data 61 3 = tySignal) (hjob : s.tsuHasJob = true)
    (hobj : s.objBound (getF data 32 16) = false) :
    exec (.soCfgWrite i data) s = .next (emit (modSlot s (s.iface i).regs.soSel fun _ =>
      { regs := ({} : SlotRegs).write 0x050 data }) (.writeAck i false)) := by
  have hne : (getF data 61 3 : BitVec 3) ≠ 0 := by
    rcases hty with h | h | h <;> rw [h] <;> decide
  have hok : (getF data 61 3 = tyCounter ∨ getF data 61 3 = tyFlag ∨ getF data 61 3 = tySignal) ∧ s.tsuHasJob ∧
      (!s.objBound (getF data 32 16)) = true := ⟨hty, hjob, by rw [hobj]; rfl⟩
  show ackWrite i s (soCfgWrite i data s) = _
  rw [ackWrite_answers ha, soCfgWrite, onPart_part hi]
  dsimp only
  rw [if_pos hfree, if_neg hne, if_pos hok]
  rfl

theorem exec_soValWrite_paused (ha : Answers s i) (hi : i.part = .tsu) (hpaused : s.tsuPaused = true) :
    exec (.soValWrite i data) s = .next (emit (modSlotRegs s (s.iface i).regs.soSel fun r => r.write 0x058 data)
      (.writeAck i false)) := by
  show ackWrite i s (soValWrite i data s) = _
  rw [ackWrite_answers ha, soValWrite, onPart_part hi, hpaused]
  rfl

theorem exec_soGenWrite_barrier (ha : Answers s i) (hi : i.part = .tsu) (hpaused : s.tsuPaused = true)
    (hty : (s.slot (s.iface i).regs.soSel).regs.soCfgType = tyBarrier) :
    exec (.soGenWrite i data) s = .next (emit (modSlotRegs s (s.iface i).regs.soSel fun r => { r with soGen := data })
      (.writeAck i false)) := by
  have hgen : getF data 0 64 = data := by simp [getF]
  show ackWrite i s (soGenWrite i data s) = _
  rw [ackWrite_answers ha, soGenWrite, onPart_part hi, hpaused, if_pos rfl]
  refine congrArg (fun u => Host.Outcome.next (emit u (.writeAck i false))) (modSlotRegs_congr ?_)
  show (if (s.slot _).regs.soCfgType = tyBarrier then (s.slot _).regs.write 0x060 data else _) = _
  rw [if_pos hty, SlotRegs.write, hgen]

theorem exec_winProgressWrite_paused (ha : Answers s i) (hi : i.part = .tsu) (hpaused : s.tsuPaused = true) :
    exec (.winProgressWrite i data) s = .next (emit (openWindow s (s.iface i).regs.winSelChan (s.iface i).regs.winSelWindow
      (s.ingress (s.iface i).regs.winSelChan - (getF data 0 48 : BitVec 48).setWidth 64)) (.writeAck i false)) := by
  show ackWrite i s (winStateWrite i data s) = _
  rw [ackWrite_answers ha, winStateWrite, onPart_part hi]
  dsimp only
  rw [hpaused]
  rfl

/-! ## An AUTOCLR flag (R231) -/

/-- A host wait on a slot looks whether it holds. -/
def hostWaitLooks (k : BitVec 12) (s : State) (w : Nat) : State :=
  if (s.hostWait (BitVec.ofNat 4 w)).waitArmSlot == k then hostWaitComplete s (BitVec.ofNat 4 w) else s

/-- The sequencer's wait on a slot looks whether it holds. -/
def seqWaitsCompletes (s : State) (k : BitVec 12) : State :=
  completeIf s .tsu fun w => match w with | .slot j _ => j == k | _ => false

/-- The state in which a flag clears, after every wait on it has been looked at. -/
def flagCleared (s : State) (k : BitVec 12) : State :=
  modSlot (seqWaitsCompletes ((List.range 16).foldl (hostWaitLooks k) s) k) k fun x => { x with
    clr := false, regs := { x.regs with soValValue := 0 } }

theorem exec_flagAutoclr_clears (hclr : (s.slot k).clr = true) :
    exec (.flagAutoclr k) s = .next (flagCleared s k) := by
  show execFlagAutoclr k s = _
  rw [execFlagAutoclr, if_pos hclr]
  rfl

theorem hostWaitComplete_idle {w : BitVec 4} (h : (s.hostWait w).waitStatusResult ≠ 1) : hostWaitComplete s w = s := by
  rw [hostWaitComplete, beq_false_of_ne h]
  rfl

/-- With no wait on the host port there is none to complete. -/
theorem hostWaitLooks_none (h : s.tsu.waits = []) (k : BitVec 12) (ws : List Nat) : ws.foldl (hostWaitLooks k) s = s := by
  have hidle : ∀ w, hostWaitLooks k s w = s := fun w => by
    refine ite_keeps id (hostWaitComplete_idle ?_) rfl
    show (tget ({} : WaitRegs) s.tsu.waits _).waitStatusResult ≠ 1
    rw [h]
    show (0 : BitVec 2) ≠ 1
    decide
  induction ws with
  | nil => rfl
  | cons w ws ih => rw [List.foldl_cons, hidle, ih]

theorem seqWaitsCompletes_none (h : s.tsu.seq.wait = none) (k : BitVec 12) : seqWaitsCompletes s k = s := by
  rw [seqWaitsCompletes, completeIf, show (s.seq .tsu).wait = none from h]

/-! ### What a wait that completes leaves -/

theorem hostWait_modWait (s : State) (w : BitVec 4) (f : WaitRegs → WaitRegs) : (modWait s w f).hostWait w = f (s.hostWait w) :=
  tget_tmod_same ..

theorem hostWait_modWait_ne {v w : BitVec 4} (h : w ≠ v) (s : State) (f : WaitRegs → WaitRegs) :
    (modWait s w f).hostWait v = s.hostWait v := tget_tmod_ne _ fun hn => h (BitVec.eq_of_toNat_eq hn)

theorem Reported.hostWait {t : State} (h : Reported s t) (w : BitVec 4) : t.hostWait w = s.hostWait w := by
  unfold State.hostWait
  rw [h]

theorem hostWait_setCause (s : State) (p : Part) (g : Page) (b : Nat) (w : BitVec 4) :
    (setCause s p g b).hostWait w = s.hostWait w := (setCause_reported (.refl s) ..).hostWait w

theorem hostWait_modSlot (s : State) (k : BitVec 12) (f : Slot → Slot) (w : BitVec 4) :
    (modSlot s k f).hostWait w = s.hostWait w := rfl

@[simp] theorem hostWait_waitDone (s : State) (k : BitVec 12) (w : BitVec 4) : (waitDone s k).hostWait w = s.hostWait w := rfl

theorem Reported.slots {t : State} (h : Reported s t) : t.tsu.slots = s.tsu.slots := by rw [h]

theorem waitDone_regs (s : State) (k j : BitVec 12) : ((waitDone s k).slot j).regs = (s.slot j).regs := by
  by_cases h : k = j
  · subst h
    rw [waitDone, slot_modSlot]
    split <;> rfl
  · exact congrArg Slot.regs (tget_tmod_ne _ fun hn => h (BitVec.eq_of_toNat_eq hn))

theorem hostWaitComplete_regs (s : State) (w : BitVec 4) (k : BitVec 12) :
    ((hostWaitComplete s w).slot k).regs = (s.slot k).regs := by
  refine ite_keeps (fun s => (s.slot k).regs) ?_ rfl
  rw [slot_setCause, waitDone_regs]
  rfl

theorem hostWaitComplete_ne {v w : BitVec 4} (h : w ≠ v) (s : State) : (hostWaitComplete s w).hostWait v = s.hostWait v := by
  refine ite_keeps (fun s => s.hostWait v) ?_ rfl
  rw [hostWait_setCause, hostWait_waitDone]
  exact hostWait_modWait_ne h ..

/-- A wait that holds is done once it is looked at. -/
theorem hostWaitComplete_done {w : BitVec 4} (harmed : (s.hostWait w).waitStatusResult = 1)
    (hholds : waitHolds (s.slot (s.hostWait w).waitArmSlot).regs ((s.hostWait w).waitArmTarget.setWidth 64) = true) :
    ((hostWaitComplete s w).hostWait w).waitStatusResult = 2 := by
  rw [hostWaitComplete, if_pos (by rw [harmed, hholds]; rfl), hostWait_setCause, hostWait_waitDone]
  exact congrArg WaitRegs.waitStatusResult (hostWait_modWait ..)

theorem hostWaitComplete_stays {v : BitVec 4} (h : (s.hostWait v).waitStatusResult = 2) (w : BitVec 4) :
    ((hostWaitComplete s w).hostWait v).waitStatusResult = 2 := by
  by_cases hw : w = v
  · subst hw
    rw [hostWaitComplete_idle (by rw [h]; decide), h]
  · rw [hostWaitComplete_ne hw, h]

theorem hostWaitLooks_regs (k j : BitVec 12) (s : State) (w : Nat) : ((hostWaitLooks k s w).slot j).regs = (s.slot j).regs :=
  ite_keeps (fun s => (s.slot j).regs) (hostWaitComplete_regs ..) rfl

theorem hostWaitLooks_ne {v : BitVec 4} {w : Nat} (h : BitVec.ofNat 4 w ≠ v) (k : BitVec 12) (s : State) :
    (hostWaitLooks k s w).hostWait v = s.hostWait v := ite_keeps (fun s => s.hostWait v) (hostWaitComplete_ne h s) rfl

theorem foldl_hostWaitLooks_regs (k j : BitVec 12) (ws : List Nat) (s : State) :
    ((ws.foldl (hostWaitLooks k) s).slot j).regs = (s.slot j).regs :=
  foldl_keeps (fun s => (s.slot j).regs) (fun _ _ => hostWaitLooks_regs ..) ws s

theorem foldl_hostWaitLooks_stays {v : BitVec 4} (k : BitVec 12) (ws : List Nat) (s : State)
    (h : (s.hostWait v).waitStatusResult = 2) : ((ws.foldl (hostWaitLooks k) s).hostWait v).waitStatusResult = 2 := by
  induction ws generalizing s with
  | nil => exact h
  | cons w ws ih => exact ih _ (ite_keeps (fun s => (s.hostWait v).waitStatusResult) (hostWaitComplete_stays h _) h)

/-- A wait on a flag that is set is done once every wait on it has been looked at. -/
theorem foldl_hostWaitLooks_done {v : BitVec 4} {ws : List Nat} (hv : v.toNat ∈ ws) (s : State)
    (harmed : (s.hostWait v).waitStatusResult = 1 ∧ (s.hostWait v).waitArmSlot = k)
    (hset : (s.slot k).regs.soCfgType = 3 ∧ (s.slot k).regs.soValValue = 1) :
    ((ws.foldl (hostWaitLooks k) s).hostWait v).waitStatusResult = 2 := by
  induction ws generalizing s with
  | nil => exact absurd hv List.not_mem_nil
  | cons w ws ih =>
    by_cases hw : BitVec.ofNat 4 w = v
    · obtain ⟨hresult, hslot⟩ := harmed
      have hholds : waitHolds (s.slot (s.hostWait v).waitArmSlot).regs ((s.hostWait v).waitArmTarget.setWidth 64) = true := by
        rw [hslot, waitHolds, hset.1, hset.2]
        rfl
      refine foldl_hostWaitLooks_stays k ws _ ?_
      rw [hostWaitLooks, hw, if_pos (beq_iff_eq.2 hslot)]
      exact hostWaitComplete_done hresult hholds
    · have hmem : v.toNat ∈ ws :=
        (List.mem_cons.1 hv).resolve_left fun h => hw (by rw [← h, BitVec.ofNat_toNat, BitVec.setWidth_eq])
      refine ih hmem _ ?_ ?_
      · rwa [hostWaitLooks_ne hw]
      · rwa [hostWaitLooks_regs]

/-- The sequencer's wait on a slot that completes lets the engine go on and marks an AUTOCLR flag, and no more. -/
theorem seqWaitsCompletes_keeps {β : Type} (π : State → β) (hdone : ∀ s j, π (waitDone s j) = π s)
    (hresume : ∀ s, π (resume s .tsu) = π s) (s : State) (k : BitVec 12) : π (seqWaitsCompletes s k) = π s := by
  unfold seqWaitsCompletes completeIf
  split
  case h_1 w hw =>
    cases w with
    | slot j t => exact ite_keeps π ((hdone _ j).trans (hresume s)) rfl
    | _ => rfl
  case h_2 => rfl

/-- A set flag that clears has completed the wait on it, and keeps its configuration. -/
theorem flagCleared_done {w : BitVec 4} (hset : (s.slot k).regs.soCfgType = 3 ∧ (s.slot k).regs.soValValue = 1)
    (harmed : (s.hostWait w).waitStatusResult = 1 ∧ (s.hostWait w).waitArmSlot = k) :
    ((flagCleared s k).hostWait w).waitStatusResult = 2 ∧ ((flagCleared s k).slot k).clr = false ∧
      ((flagCleared s k).slot k).regs.soValValue = 0 ∧
      ((flagCleared s k).slot k).regs.soCfgObj = (s.slot k).regs.soCfgObj := by
  have hregs : ((seqWaitsCompletes ((List.range 16).foldl (hostWaitLooks k) s) k).slot k).regs = (s.slot k).regs :=
    (seqWaitsCompletes_keeps (fun s => (s.slot k).regs) (fun _ _ => waitDone_regs ..) (fun _ => rfl) _ _).trans
      (foldl_hostWaitLooks_regs ..)
  have hwait := seqWaitsCompletes_keeps (fun s => s.hostWait w) (fun _ _ => rfl) (fun _ => rfl)
    ((List.range 16).foldl (hostWaitLooks k) s) k
  have hdone := foldl_hostWaitLooks_done (v := w) (ws := List.range 16) (List.mem_range.2 w.isLt) s harmed hset
  rw [flagCleared]
  generalize seqWaitsCompletes ((List.range 16).foldl (hostWaitLooks k) s) k = u at hregs hwait
  rw [hostWait_modSlot, hwait, slot_modSlot]
  exact ⟨hdone, rfl, rfl, show (u.slot k).regs.soCfgObj = _ by rw [hregs]⟩

/-- A scheduled completion that is due raises GEN and clears ARRIVED (R226). -/
theorem exec_timedReleaseComplete_due {x : Tick} (hdue : (s.slot k).due = some x) (hact : s.acting .tsu = true)
    (htick : x.toNat ≤ (s.now .tsu).toNat) : exec (.timedReleaseComplete k) s = .next (completeSlot s k) := by
  show Host.Outcome.next (timedComplete s k) = _
  rw [timedComplete, hdue]
  dsimp only
  rw [if_pos (by rw [hact, decide_eq_true htick]; rfl)]

end

/-- Settles O16: what each operation comes to on the slot or window it names. -/
theorem slotOperations : Obligations.SlotOperations := by
  refine ⟨fun i data s ha hi hfree hty hjob hobj => ⟨_, exec_soCfgWrite_created ha hi hfree hty hjob hobj, ?_, ?_, ?_, ?_⟩,
    fun i data s ha hi hty hnew => ⟨_, exec_soOpArrive_row ha.1 hi, ?_⟩,
    fun i data s ha hi hty hn => ⟨_, exec_soOpAdd_row ha.1 hi, ?_⟩,
    fun i data s ha hi hty hn hfirst => ⟨_, exec_soOpAdd_row ha.1 hi, ?_⟩,
    fun i data s ha hi hty => ⟨_, exec_soOpSet_row ha.1 hi, ?_⟩,
    fun i data s ha hi hty => ⟨_, exec_soOpClear_row ha.1 hi, ?_⟩,
    fun i data s ha hi hfree => ⟨_, exec_soOpOpenWindow_row ha.1 hi, ?_⟩,
    fun i data s ha hi hpaused => ⟨_, exec_soValWrite_paused ha hi hpaused, rfl⟩,
    fun i data s ha hi hpaused hty => ⟨_, exec_soGenWrite_barrier ha hi hpaused hty, ?_, ?_⟩,
    fun i data s ha hi hpaused => ⟨_, exec_winProgressWrite_paused ha hi hpaused, window_openWindow .., rfl⟩,
    fun slot s hclr hnone => ⟨_, exec_flagAutoclr_clears hclr, ?_⟩,
    fun slot w s hclr hset harmed => ⟨_, exec_flagAutoclr_clears hclr, ?_⟩,
    fun slot x s hdue hact htick => ⟨_, exec_timedReleaseComplete_due hdue hact htick, rfl⟩⟩
  · rw [slot_emit, slot_modSlot]
    rfl
  · rw [slot_emit, slot_modSlot]
    rfl
  · rw [slot_emit, slot_modSlot]
    rfl
  · exact congrArg (emit · _) (modSlot_eq_slot ..)
  · obtain ⟨hok, hrep⟩ := slotArrive_accepted hty hnew
    rw [hok]
    refine ⟨?_, ?_, List.getLast?_concat, slotArrive_hub hty hnew, ?_⟩
    · show ((slotArrive s _).2.slot _).regs = _
      rw [hrep.slot, modSlotRegs, slot_modSlot]
    · show (slotArrive s _).2.tsu.slots = (modSlot s _ fun _ => (slotArrive s _).2.slot _).tsu.slots
      rw [hrep.slots, hrep.slot, modSlotRegs, ← modSlot_eq_slot]
    · obtain ⟨r, hr⟩ := hrep.exists_report
      rw [hr]
      rfl
  · rw [slotAdd_counter_below hty hn]
    rfl
  · have hn' : ¬ (s.slot (s.iface i).regs.soSel).regs.soValValue.toNat + (getF data 0 48 : BitVec 48).toNat < 2 ^ 48 - 1 :=
      Nat.not_lt.2 hn
    have hadd : slotAdd s (s.iface i).regs.soSel (getF data 0 48) = (false, setValue s (s.iface i).regs.soSel
        ((s.slot (s.iface i).regs.soSel).regs.soValValue.toNat + (getF data 0 48 : BitVec 48).toNat)) := by
      rw [slotAdd, if_pos (.inl hty)]
      rfl
    have hregs := setValue_slot_max hn' s (s.iface i).regs.soSel
    rw [hadd]
    refine ⟨congrArg SlotRegs.soValValue hregs, congrArg SlotRegs.soValSaturated hregs, ?_⟩
    rw [setValue_saturates hn' hfirst]
    obtain ⟨hcause, hraised, hrep⟩ := saturated_raised (modSlotRegs s (s.iface i).regs.soSel fun r => { r with
      soValValue := BitVec.allOnes 48, soValSaturated := true })
      [(16, (s.slot (s.iface i).regs.soSel).regs.soCfgObj.toNat), (16, (s.iface i).regs.soSel.toNat)]
    refine ⟨hcause.emit _, hraised.of_windows (emit_windows ..), ?_⟩
    have hset : slotMask.Frame s (modSlotRegs s (s.iface i).regs.soSel fun r => { r with
      soValValue := BitVec.allOnes 48, soValSaturated := true }) := rfl
    exact (hset.reported hrep).emit _
  · rw [slotSet_flag hty]
    rfl
  · rw [slotClear_signal hty]
    rfl
  · rw [slotOpenWindow_free hfree]
    exact ⟨window_openWindow .., rfl⟩
  · rw [slot_emit, modSlotRegs, slot_modSlot]
  · exact congrArg (emit · _) (modSlot_eq_slot ..)
  · rw [flagCleared, hostWaitLooks_none hnone.1, seqWaitsCompletes_none hnone.2]
  · exact flagCleared_done hset harmed

end Sys2Proof.Machine
end

section
/-! O17: sends, signals, releases and host waits on the TSU. -/

namespace Sys2Proof.Machine

section

set_option Elab.async false

variable {s : State} {i : Iface} {k : BitVec 12} {data : Word} {l : LinkId}

/-! ## Sends (R232 to R234, R242) -/

theorem exec_soOpSend_queued (hpower : unpowered s i = false) (hi : i.part = .tsu) (hok : sendRefused s s.sendOf = false)
    (hroom : s.tsu.sends.length < 16) (hheld : s.tsu.heldSends = []) :
    exec (.soOpSend i data) s =
      .next (emit (modTsu s fun h => { h with sends := h.sends ++ [s.sendOf] }) (.writeAck i false)) := by
  show soOpRow 5 i data s = _
  rw [soOpRow_tsu hpower hi, soOpWrite, getF_soOpWord_op]
  show Host.Outcome.next (hostSend (.row i) s) = _
  simp only [hostSend, hok, Bool.false_eq_true, if_false, issueSend, hroom, hheld, and_self, if_true, answer]

/-- The SIGNAL of a SEND (R233). -/
def sendSignal (s : State) (e : SendE) : Msg :=
  .signal {
    job := s.tsu.txnt.ttJob, epoch := s.tsu.txnt.ttJobEpoch, rank := s.tsu.rank, obj := e.obj, amount := e.amount
    chan := e.chan, window := e.window, bytes := e.bytes, dest := .rank e.rank }

theorem sendLeaves_eq (s : State) (n : Nat) (e : SendE) :
    sendLeaves s n e = tsuSendUp (modTsu s fun h => { h with sends := h.sends.eraseIdx n }) (sendSignal s e) := rfl

theorem Reported.sends {t : State} (h : Reported s t) : t.tsu.sends = s.tsu.sends := by rw [h]

theorem sendLeaves_sends (s : State) (n : Nat) (e : SendE) : (sendLeaves s n e).tsu.sends = s.tsu.sends.eraseIdx n := by
  rw [sendLeaves_eq, (tsuSendUp_reported (.refl _) _).sends]
  rfl

theorem exec_sendFenceMet_leaves {e : SendE} {rest : List SendE} (hsends : s.tsu.sends = e :: rest)
    (hcovered : s.uncovered e.fmask e.cover = 0) : exec .sendFenceMet s = .next (sendLeaves s 0 e) := by
  show execSendFenceMet s = _
  simp only [execSendFenceMet, hsends, hcovered, if_true]

theorem exec_sendQueueSpace_row {e : SendE} {rest : List (SendE × Option Waiter)}
    (hheld : s.tsu.heldSends = (e, some (.row i)) :: rest) (hroom : s.tsu.sends.length < 16) :
    exec .sendQueueSpace s =
      .next (emit (modTsu s fun h => { h with sends := h.sends ++ [e], heldSends := rest }) (.writeAck i false)) := by
  show execSendQueueSpace s = _
  simp only [execSendQueueSpace, hheld, hroom, if_true, answer]

/-- A SEND that its timer takes out of the queue. -/
def sendExpired (s : State) (n : BitVec 4) (e : SendE) : State :=
  waitTimeoutEv (modTsu s fun h => { h with sends := h.sends.eraseIdx n.toNat }) 1 e.obj 0xFFFF 4 2 0
    (s.uncovered e.fmask e.cover ++ (0 : BitVec 4)) (e.rank.setWidth 64) (e.amount.setWidth 64 + 1)

theorem exec_sendTimeout_expires {n : BitVec 4} {e : SendE} (he : s.tsu.sends[n.toNat]? = some e)
    (hleft : n ≠ 0 ∨ s.uncovered e.fmask e.cover ≠ 0) : exec (.sendTimeout n) s = .next (sendExpired s n e) := by
  have hno : ¬ (n = 0 ∧ s.uncovered e.fmask e.cover = 0) := fun ⟨hn, hc⟩ => hleft.elim (· hn) (· hc)
  show execSendTimeout n s = _
  rw [execSendTimeout, he]
  dsimp only
  rw [if_neg hno]
  rfl

theorem exec_sendTimeout_leaves {e : SendE} (he : s.tsu.sends.head? = some e) (hcovered : s.uncovered e.fmask e.cover = 0) :
    exec (.sendTimeout 0) s = .next (sendLeaves s 0 e) := by
  have he' : s.tsu.sends[(0 : BitVec 4).toNat]? = some e := by
    rw [← he, List.head?_eq_getElem?]
    rfl
  show execSendTimeout 0 s = _
  rw [execSendTimeout, he']
  dsimp only
  rw [if_pos ⟨rfl, hcovered⟩]

theorem waitTimeoutEv_reported (s : State) (sub obj slot ty kind idx byte6 target value) :
    Reported s (waitTimeoutEv s sub obj slot ty kind idx byte6 target value) := raise_reported (.refl s) ..

theorem waitTimeoutEv_raised (s : State) (sub obj slot ty kind idx byte6 target value) :
    Raised (waitTimeoutEv s sub obj slot ty kind idx byte6 target value) .tsu 0x0001 sub :=
  raise_tsuEv_raised s s .tsu (by decide) ..

theorem waitTimeoutEv_hub (s : State) (sub obj slot ty kind idx byte6 target value) :
    (waitTimeoutEv s sub obj slot ty kind idx byte6 target value).hub = s.hub := raise_tsu_hub ..

/-! ## Signals and releases (R226, R236, R238) -/

section

variable {m : SignalP} (hroom : s.tsu.pend.length < 64) (hruns : TsuRuns s m.job m.epoch)
  (hslot : s.slotOf tySignal m.obj = some k)

include hroom hruns hslot

theorem exec_signalReceive_effect (hmet : signalMet s m = true) :
    exec (.signalReceive l m) s = .next (taken (slotAdd s k (m.amount.setWidth 48 + 1)).2 l (.signal m)) := by
  show execSignalReceive l m s = _
  rw [execSignalReceive, if_neg (Nat.not_le.2 hroom), hruns.not_drains, if_neg Bool.false_ne_true, hruns.jobOk]
  simp only [hslot, Option.isSome_some, Bool.and_self, if_true, hmet, signalEffect]

theorem exec_signalReceive_waits (hmet : signalMet s m = false) :
    exec (.signalReceive l m) s = .next (modTsu s fun h => { h with pend := h.pend ++ [(l, m)] }) := by
  show execSignalReceive l m s = _
  rw [execSignalReceive, if_neg (Nat.not_le.2 hroom), hruns.not_drains, if_neg Bool.false_ne_true, hruns.jobOk]
  simp only [hslot, Option.isSome_some, Bool.and_self, if_true, hmet, Bool.false_eq_true, if_false]

end

theorem exec_signalReceive_full (m : SignalP) (hfull : 64 ≤ s.tsu.pend.length) :
    exec (.signalReceive l m) s = .next (refuse s .tsu .sync) := by
  show execSignalReceive l m s = _
  rw [execSignalReceive, if_pos hfull]

theorem exec_signalTakeEffect_one {m : SignalP} (hpend : s.tsu.pend = [(l, m)]) (hmet : signalMet s m = true) :
    exec .signalTakeEffect s =
      .next (taken (signalEffect (modTsu s fun h => { h with pend := [] }) m) l (.signal m)) := by
  have hfilter : (fun h : Tsu => { h with pend := h.pend.filter fun e => !signalMet s e.2 }) s.tsu =
      (fun h : Tsu => { h with pend := [] }) s.tsu := by
    simp only [hpend, List.filter_cons, hmet, Bool.not_true, Bool.false_eq_true, if_false, List.filter_nil]
  have hleft : (modTsu s fun h => { h with pend := h.pend.filter fun e => !signalMet s e.2 }) =
      modTsu s fun h => { h with pend := [] } := congrArg (fun x => { s with tsu := x }) hfilter
  show execSignalTakeEffect s = _
  rw [execSignalTakeEffect, hleft, hpend]
  simp only [List.filter_cons, hmet, if_true, List.filter_nil, List.foldl_cons, List.foldl_nil]

theorem Reported.pend {t : State} (h : Reported s t) : t.tsu.pend = s.tsu.pend := by rw [h]

theorem setValue_pend (s : State) (k : BitVec 12) (n : Nat) : (setValue s k n).tsu.pend = s.tsu.pend := by
  refine ite_keeps (fun s => s.tsu.pend) rfl (ite_keeps (fun s => s.tsu.pend) ?_ ?_)
  · exact (setCause_reported (.refl _) ..).pend
  · exact (raise_reported (setCause_reported (.refl _) ..) ..).pend

theorem signalEffect_pend (s : State) (m : SignalP) : (signalEffect s m).tsu.pend = s.tsu.pend := by
  unfold signalEffect slotAdd
  split
  case h_2 => rfl
  case h_1 =>
    dsimp only
    split
    · exact setValue_pend ..
    · exact (refuse_reported (.refl s) .tsu .sync).pend

/-- A RELEASE of the slot's generation completes the arrival that stands (R226). -/
theorem exec_releaseReceive_completes {m : ReleaseP} (htimed : m.timed = false) (hruns : TsuRuns s m.job m.epoch)
    (hslot : s.slotOf tyBarrier m.obj = some k) (hstep : (extendStep m.step s.tsu.step.stepNow).isSome = true)
    (hgen : m.gen = (s.slot k).regs.soGen.setWidth 16) (harrived : (s.slot k).regs.soValArrived = true) :
    exec (.releaseReceive l m) s = .next (taken (completeSlot s k) l (.release m)) := by
  show execReleaseReceive l m s = _
  rw [execReleaseReceive, htimed, Bool.false_and, if_neg Bool.false_ne_true, releaseTake, hruns.not_drains,
    if_neg Bool.false_ne_true, hruns.jobOk]
  simp only [if_true, hslot, tsuNearStep, hstep, htimed, Bool.false_and, Bool.false_eq_true, if_false, hgen, harrived,
    beq_self_eq_true, Bool.and_self]

/-! ## Host waits (R240 to R244) -/

/-- A change of a wait is the setting of the wait to what it then reads as. -/
theorem modWait_eq_hostWait (s : State) (w : BitVec 4) (f : WaitRegs → WaitRegs) :
    modWait s w f = modWait s w fun _ => (modWait s w f).hostWait w := by
  rw [hostWait_modWait]
  rfl

@[simp] theorem hostWait_emit (s : State) (o : Out) (w : BitVec 4) : (emit s o).hostWait w = s.hostWait w := rfl

/-- Two changes of one wait are one change. -/
theorem modWait_modWait (s : State) (w : BitVec 4) (f g : WaitRegs → WaitRegs) :
    modWait (modWait s w f) w g = modWait s w fun r => g (f r) := by
  simp only [modWait, modTsu, tmod_tmod]

theorem getF_or_putB {lo w n : Nat} (h : lo + w ≤ n) (v : Word) (b : Bool) : getF (v ||| putB n b) lo w = getF v lo w := by
  refine BitVec.eq_of_getLsbD_eq fun m hm => ?_
  have hbit := getB_or_putB_ne v (show n ≠ lo + m by omega) b
  simpa only [getF, getB, BitVec.getLsbD_extractLsb', hm, decide_true, Bool.true_and] using hbit

/-- The registers of a wait that is armed. -/
def waitArmed (data : Word) (r : WaitRegs) : WaitRegs :=
  { r with
    waitArmSlot := getF data 48 12, waitArmTarget := getF data 0 48, waitStatusResult := 1, waitStatusAborted := false }

theorem waitArmed_of_write (data : Word) (r : WaitRegs) :
    ({ r.write 0x088 (data ||| putB 63 true) with waitStatusResult := 1, waitStatusAborted := false } : WaitRegs) =
      waitArmed data r := by
  simp only [WaitRegs.write, getF_or_putB (show 48 + 12 ≤ 63 by decide), getF_or_putB (show 0 + 48 ≤ 63 by decide), waitArmed]

theorem hostWaitComplete_waits {w : BitVec 4}
    (h : waitHolds (s.slot (s.hostWait w).waitArmSlot).regs ((s.hostWait w).waitArmTarget.setWidth 64) = false) :
    hostWaitComplete s w = s := by
  rw [hostWaitComplete, h, Bool.and_false]
  rfl

theorem exec_waitArm_arms (ha : Answers s i) (hi : i.part = .tsu)
    (hidle : (s.hostWait (s.iface i).regs.waitSel).waitStatusResult ≠ 1)
    (hbound : (s.slot (getF data 48 12)).regs.soCfgType ≠ 0)
    (hwaits : waitHolds (s.slot (getF data 48 12)).regs ((getF data 0 48 : BitVec 48).setWidth 64) = false) :
    exec (.waitArm i data) s =
      .next (emit (modWait s (s.iface i).regs.waitSel (waitArmed data)) (.writeAck i false)) := by
  have hslot : getF (data ||| putB 63 true) 48 12 = getF data 48 12 := getF_or_putB (by decide) ..
  have hnot : hostWaitComplete (modWait s (s.iface i).regs.waitSel (waitArmed data)) (s.iface i).regs.waitSel =
      modWait s (s.iface i).regs.waitSel (waitArmed data) := hostWaitComplete_waits (by
    rw [hostWait_modWait]
    exact hwaits)
  show ackWrite i s (waitArmWrite i (data ||| putB 63 true) s) = _
  rw [ackWrite_answers ha, waitArmWrite, onPart_part hi]
  simp only [getB_or_putB_same data (show 63 < 64 by decide), beq_false_of_ne hidle, Bool.and_false, Bool.false_eq_true, if_false,
    hslot, beq_false_of_ne hbound, if_true, accept, waitArmed_of_write]
  exact congrArg (fun u => Host.Outcome.next (emit u (.writeAck i false))) hnot

/-- The registers of a wait that is cancelled. -/
def waitCancelled (v : Word) (r : WaitRegs) : WaitRegs := { r with waitStatusResult := 0 }.write 0x088 v

theorem waitCancelled_result (v : Word) (r : WaitRegs) : (waitCancelled v r).waitStatusResult = 0 := rfl

theorem exec_waitCancel_cancels (ha : Answers s i) (hi : i.part = .tsu)
    (harmed : (s.hostWait (s.iface i).regs.waitSel).waitStatusResult = 1) :
    ∃ v, exec (.waitCancel i data) s =
      .next (emit (modWait s (s.iface i).regs.waitSel (waitCancelled v)) (.writeAck i false)) := by
  refine ⟨(data &&& ~~~(putB 63 true)) ||| putB 62 true, ?_⟩
  have harm : getB ((data &&& ~~~(putB 63 true)) ||| putB 62 true) 63 = false := by
    rw [getB_or_putB_ne _ (by decide)]
    simp [getB, putB]
  have hcancel : getB ((data &&& ~~~(putB 63 true)) ||| putB 62 true) 62 = true := getB_or_putB_same _ (by decide)
  show ackWrite i s (waitArmWrite i _ s) = _
  rw [ackWrite_answers ha, waitArmWrite, onPart_part hi]
  simp only [harm, hcancel, harmed, Bool.false_and, Bool.false_eq_true, if_false, beq_self_eq_true, Bool.and_self, if_true,
    hostWait_modWait]
  refine congrArg (fun u => Host.Outcome.next (emit u (.writeAck i false))) ?_
  exact modWait_modWait ..

/-- The cause and the event of a host wait that times out (R241 to R243). -/
theorem exec_waitTimeout_host {n : BitVec 4} (harmed : (s.hostWait n).waitStatusResult = 1)
    (hwaits : waitHolds (s.slot (s.hostWait n).waitArmSlot).regs ((s.hostWait n).waitArmTarget.setWidth 64) = false) :
    exec (.waitTimeout (.host n)) s = .next (slotTimeoutEv (setCause (modWait s n fun r => { r with waitStatusResult := 3 })
      .tsu .sync n.toNat) (s.hostWait n).waitArmSlot ((s.hostWait n).waitArmTarget.setWidth 64) 0 n) := by
  show Host.Outcome.next (hostWaitTimeout s n) = _
  rw [hostWaitTimeout]
  dsimp only
  rw [if_pos (beq_iff_eq.2 harmed), if_neg (by rw [hwaits]; decide)]

/-- Beyond the waits and the slots a state is as reports leave it. -/
def waitMask : Mask where
  take s t := report t { s with tsu := { s.tsu with waits := t.tsu.waits, slots := t.tsu.slots } }
  take_take _ _ _ := rfl
  take_report _ _ := rfl

/-- A host wait that completes: its result, and the mark of an AUTOCLR flag. -/
def waitCompleted (s : State) (w : BitVec 4) : State :=
  waitDone (modWait s w fun r => { r with waitStatusResult := 2 }) (s.hostWait w).waitArmSlot

theorem hostWaitComplete_holds {w : BitVec 4} (harmed : (s.hostWait w).waitStatusResult = 1)
    (hholds : waitHolds (s.slot (s.hostWait w).waitArmSlot).regs ((s.hostWait w).waitArmTarget.setWidth 64) = true) :
    hostWaitComplete s w = setCause (waitCompleted s w) .tsu .sync w.toNat := by
  rw [hostWaitComplete, if_pos (by rw [harmed, hholds]; rfl)]
  rfl

theorem waitCompleted_waitMask (s : State) (w : BitVec 4) : waitMask.Frame s (waitCompleted s w) := rfl

/-- Beyond the waits and the free values a state is as reports leave it. -/
def waitFreeMask : Mask where
  take s t := report t { s with tsu := { s.tsu with waits := t.tsu.waits }, free := t.free }
  take_take _ _ _ := rfl
  take_report _ _ := rfl

theorem slotTimeoutEv_reported (s : State) (k target kind idx) : Reported s (slotTimeoutEv s k target kind idx) :=
  waitTimeoutEv_reported ..

theorem slotTimeoutEv_shows {p g b} (h : Shows p g b s) (k target kind idx) :
    Shows p g b (slotTimeoutEv s k target kind idx) := h.raise ..

end

/-- Settles O17: what leaves, what waits and what completes. -/
theorem sendsSignalsAndWaits : Obligations.SendsSignalsAndWaits := by
  refine ⟨fun i data s ha hi hok hroom hheld => ⟨_, exec_soOpSend_queued ha.1 hi hok hroom hheld, rfl⟩,
    fun e rest s hsends hcovered => ⟨_, exec_sendFenceMet_leaves hsends hcovered, ?_, ?_⟩,
    fun e i rest s hheld hroom => ⟨_, exec_sendQueueSpace_row hheld hroom, rfl⟩,
    fun k e s he hleft => ⟨_, exec_sendTimeout_expires he hleft, ?_, waitTimeoutEv_raised .., waitTimeoutEv_hub .., ?_⟩,
    fun k e s hk he hcovered => ?_,
    fun l m k s hroom hruns hslot hmet => ⟨_, exec_signalReceive_effect hroom hruns hslot hmet, rfl⟩,
    fun l m k s hroom hruns hslot hmet => ⟨_, exec_signalReceive_waits hroom hruns hslot hmet, rfl⟩,
    fun l m s hfull => ⟨_, exec_signalReceive_full m hfull, rfl⟩,
    fun l m s hpend hmet => ⟨_, exec_signalTakeEffect_one hpend hmet, ?_, rfl⟩,
    fun l m k s htimed hruns hslot hstep hgen harrived =>
      ⟨_, exec_releaseReceive_completes htimed hruns hslot hstep hgen harrived, rfl, ?_⟩,
    fun i data s ha hi hidle hbound hwaits => ⟨_, exec_waitArm_arms ha hi hidle hbound hwaits, ?_⟩,
    fun i data s ha hi harmed => ?_,
    fun n s harmed hholds => ⟨_, congrArg Host.Outcome.next (hostWaitComplete_holds harmed hholds), ?_⟩,
    fun n s harmed hwaits => ⟨_, exec_waitTimeout_host harmed hwaits, ?_⟩⟩
  · rw [sendLeaves_eq]
    simp only [modTsu, hsends, List.eraseIdx_cons_zero]
    rfl
  · rw [sendLeaves_sends, hsends]
    rfl
  · exact (waitTimeoutEv_reported ..).sends
  · obtain ⟨r, hr⟩ := (waitTimeoutEv_reported (modTsu s fun h => { h with sends := h.sends.eraseIdx k.toNat }) 1 e.obj 0xFFFF 4 2
      0 (s.uncovered e.fmask e.cover ++ (0 : BitVec 4)) (e.rank.setWidth 64) (e.amount.setWidth 64 + 1)).exists_report
    rw [sendExpired, hr]
    rfl
  · subst hk
    exact ⟨_, exec_sendTimeout_leaves he hcovered, rfl, by rw [sendLeaves_sends, List.eraseIdx_zero, List.drop_one]⟩
  · rw [(taken_reported_self ..).pend, signalEffect_pend]
    rfl
  · rw [(taken_reported_self ..).slot, completeSlot, slot_modSlot]
  · refine ⟨?_, ?_, ?_, congrArg (emit · _) (modWait_eq_hostWait ..)⟩ <;> rw [hostWait_emit, hostWait_modWait] <;> rfl
  · obtain ⟨v, h⟩ := exec_waitCancel_cancels (data := data) ha hi harmed
    refine ⟨_, h, ?_, congrArg (emit · _) (modWait_eq_hostWait ..)⟩
    rw [hostWait_emit, hostWait_modWait, waitCancelled_result]
  · have hrep := setCause_reported (.refl (waitCompleted s n)) .tsu .sync n.toNat
    refine ⟨?_, setCause_hdr (by decide) (by omega), ?_, setCause_tsu_hub .., ?_⟩
    · rw [hrep.hostWait, waitCompleted, hostWait_waitDone, hostWait_modWait]
    · rw [hrep.slot, waitCompleted, waitDone_regs]
      rfl
    · exact (waitCompleted_waitMask s n).reported hrep
  · have hset := setCause_reported (.refl (modWait s n fun r => { r with waitStatusResult := 3 })) .tsu .sync n.toNat
    have hev := slotTimeoutEv_reported (setCause (modWait s n fun r => { r with waitStatusResult := 3 }) .tsu .sync n.toNat)
      (s.hostWait n).waitArmSlot ((s.hostWait n).waitArmTarget.setWidth 64) 0 n
    have hmod : waitFreeMask.Frame s (modWait s n fun r => { r with waitStatusResult := 3 }) := rfl
    refine ⟨?_, slotTimeoutEv_shows (shows_setCause (by decide) (by omega) _) .., waitTimeoutEv_raised .., ?_,
      (hmod.reported hset).reported hev⟩
    · rw [hev.hostWait, hset.hostWait, hostWait_modWait]
    · exact (waitTimeoutEv_hub ..).trans (setCause_tsu_hub ..)

end Sys2Proof.Machine
end

section
/-! O9: the building reference and the reference outputs. -/

namespace Sys2Proof.Machine

section

set_option Elab.async false

variable {s : State} {i : Iface} {data : Word}

/-! ## The vote on the time path (R391) -/

/-- The unit of the time path that a vote names (R397). -/
def timeUnit (u : BitVec 2) : BitVec 16 := 0x4000 ||| u.setWidth 16

theorem timeUnit_class : ∀ u : BitVec 2, unitClass (timeUnit u) = 4 := by decide

/-- A unit of the time path leaves service alone. -/
theorem unitLeaves_timeUnit (s : State) (u : BitVec 2) (st : BitVec 3) :
    unitLeaves s (timeUnit u) st = modUnit s (timeUnit u) fun r => { r with unitState := st, unitStateShadowSteps := 0 } := by
  rw [unitLeaves, timeUnit_class]
  rfl

/-- What a vote on the time path changes: the units and their history, and whether the master is halted. -/
def voteMask : Mask where
  take s t := report t { s with hub := { s.hub with
    units := t.hub.units, histQueue := t.hub.histQueue, ref := { s.hub.ref with halted := t.hub.ref.halted } } }
  take_take _ _ _ := rfl
  take_report _ _ := rfl

theorem chargeUnit_timeUnit_voteMask (s : State) (u : BitVec 2) (verdict : BitVec 8) :
    voteMask.Frame s (chargeUnit s (timeUnit u) verdict) := by
  have hleaves : ∀ st kind, voteMask.Frame s (queueHistory (unitLeaves s (timeUnit u) st) (timeUnit u) kind verdict) :=
    fun st kind => by
      rw [unitLeaves_timeUnit]
      exact Mask.Frame.of_take rfl
  unfold chargeUnit chargeAs
  refine Mask.Frame.ite (Mask.Frame.refl ..) (Mask.Frame.ite ?_ (hleaves ..))
  exact (hleaves 4 1).reported (setCause_reported (raisePlain_reported (.refl _) ..) ..)

theorem chargeUnit_timeUnit_tsu (s : State) (u : BitVec 2) (verdict : BitVec 8) :
    (chargeUnit s (timeUnit u) verdict).tsu = s.tsu := by
  have hleaves : ∀ st, (unitLeaves s (timeUnit u) st).tsu = s.tsu := fun st => by
    rw [unitLeaves_timeUnit]
    rfl
  unfold chargeUnit chargeAs
  refine ite_keeps State.tsu rfl (ite_keeps State.tsu ?_ (hleaves 2))
  rw [setCause_hub_tsu, laneSpared, raisePlain_hub_tsu]
  exact hleaves 4

theorem timePathVote_voteMask (s : State) (v : TimeVote) : voteMask.Frame s (timePathVote s v) := by
  cases v with
  | agree => exact Mask.Frame.refl ..
  | odd u => exact ((timeFault_reported (.refl s) ..).frame voteMask).trans (chargeUnit_timeUnit_voteMask _ u _)
  | split =>
    have hhalt : voteMask.Frame (timeFault s .hub 10 [(16, 0xFFFF)]) (timePathVote s .split) := rfl
    exact ((timeFault_reported (.refl s) ..).frame voteMask).trans hhalt

theorem timePathVote_tsu (s : State) (v : TimeVote) : (timePathVote s v).tsu = s.tsu := by
  cases v with
  | agree => rfl
  | odd u => exact (chargeUnit_timeUnit_tsu _ u _).trans (timeFault_hub_tsu ..)
  | split => exact timeFault_hub_tsu s 10 _

/-! ## A sample of the reference (R146, R148) -/

/-- Beyond READY, the units, the reference, and the time and servo of both parts a state is as reports leave it. -/
def refMask : Mask where
  take s t := report t { s with
    hub := { s.hub with
      mod_ := t.hub.mod_, units := t.hub.units, histQueue := t.hub.histQueue, ref := t.hub.ref,
      sh := { s.hub.sh with tb := t.hub.sh.tb, servo := t.hub.sh.servo } },
    tsu := { s.tsu with sh := { s.tsu.sh with tb := t.tsu.sh.tb, servo := t.tsu.sh.servo } } }
  take_take _ _ _ := rfl
  take_report _ _ := rfl

/-- What the servo's proportional and integral parts change: the rate word and the servo's own registers. -/
def piMask : Mask where
  take s t := report t { s with hub := { s.hub with sh := { s.hub.sh with
    tb := { s.hub.sh.tb with regs := { s.hub.sh.tb.regs with rateNow := t.hub.sh.tb.regs.rateNow } },
    servo := { s.hub.sh.servo with regs := { s.hub.sh.servo.regs with
      servoInteg := t.hub.sh.servo.regs.servoInteg, servoStatusFreqSat := t.hub.sh.servo.regs.servoStatusFreqSat } } } } }
  take_take _ _ _ := rfl
  take_report _ _ := rfl

theorem setFreqSat_piMask (s : State) (b : Bool) : piMask.Frame s (setFreqSat s .hub b) := by
  have hset : piMask.Frame s (modServoRegs s .hub fun r => { r with servoStatusFreqSat := b }) := rfl
  exact Mask.Frame.ite (hset.reported (timeFault_reported (.refl _) ..)) hset

theorem setFreqSat_tsu (s : State) (b : Bool) : (setFreqSat s .hub b).tsu = s.tsu :=
  ite_keeps State.tsu (timeFault_hub_tsu ..) rfl

theorem piUpdate_piMask (s : State) (kp ki e : Nat) (th : Int) : piMask.Frame s (piUpdate s .hub kp ki e th) := by
  refine Mask.Frame.trans (Mask.Frame.of_take ?_) (setFreqSat_piMask _ _)
  rfl

theorem piUpdate_tsu (s : State) (kp ki e : Nat) (th : Int) : (piUpdate s .hub kp ki e th).tsu = s.tsu := setFreqSat_tsu ..

/-- A LOCKED master that follows its reference is of CLASS 0. -/
theorem steered_locked (hmode : s.hub.sh.servo.regs.servoCtrlMode = 0) (hstate : s.servoState .hub = 2) :
    steered s = setClass s 0 := by
  rw [steered, if_pos (by rw [hmode, hstate]; rfl)]

/-- The reference as a sample comes in. -/
def refSampled (th : Int) (h : Hub) : Hub :=
  { h with ref := { h.ref with last := some th, regs := { h.ref.regs with refStatusRefOk := true } } }

/-- The state in which a sample within REF_STEP_NS is given to the servo. -/
def refAccepted (s : State) (th : Int) (vote : TimeVote) : State :=
  modServoRegs (modHub (timePathVote (modHub s (refSampled th)) vote) fun h => { h with
    ref := { h.ref with regs := { h.ref.regs with refStatusMisaligned := false } } }) .hub fun v => { v with
      servoTheta := BitVec.ofInt 48 th }

/-- A sample of the reference leaves everything but the reference, the units and the servo's THETA. -/
theorem refAccepted_eq (s : State) (th : Int) (vote : TimeVote) : ∃ r b units hist, refAccepted s th vote =
    report r (modHub s fun h => { h with
      units := units, histQueue := hist
      ref := { h.ref with
        last := some th, halted := b, regs := { h.ref.regs with refStatusRefOk := true, refStatusMisaligned := false } }
      sh := { h.sh with servo := { h.sh.servo with regs := { h.sh.servo.regs with servoTheta := BitVec.ofInt 48 th } } } }) := by
  have h := timePathVote_voteMask (modHub s (refSampled th)) vote
  unfold Mask.Frame at h
  exact ⟨_, _, _, _, by rw [refAccepted, h]; rfl⟩

/-- A sample beyond REF_STEP_NS: the master is misaligned and of CLASS 2. -/
def refMisaligned (s : State) (th : Int) : State :=
  setCause (setClass (modHub (modHub s (refSampled th)) fun h => { h with
    ref := { h.ref with regs := { h.ref.regs with refStatusMisaligned := true } } }) 2) .hub .ref 1

/-- What the servo does with a sample of the reference. -/
def refServo (s : State) (kp ki e : Nat) (th : Int) : State :=
  if s.hub.sh.servo.regs.servoCtrlMode != 0 then s
  else
    let s := if s.servoState .hub == 3 then enterLocked s .hub else s
    steered (if s.servoState .hub == 2 then piUpdate s .hub kp ki e th
      else if s.servoState .hub == 0 || s.servoState .hub == 1 then servoAcquire s .hub e kp ki th
      else s)

theorem refSample_eq (s : State) (e : Nat) (th : Int) (vote : TimeVote) : refSample s e th vote =
    if !s.hub.ref.regs.masterStatusIsMaster then modHub s (refSampled th)
    else if th.natAbs > s.hub.ref.regs.refCtrlRefStepNs.toNat * 65536 then timeFault (refMisaligned s th) .hub 9 [sField 64 th]
    else refServo (refAccepted s th vote) s.hub.ref.regs.refKp.toNat s.hub.ref.regs.refKi.toNat e th := rfl

theorem refServo_locked (hmode : s.hub.sh.servo.regs.servoCtrlMode = 0) (hstate : s.servoState .hub = 2) (kp ki e : Nat)
    (th : Int) : refServo s kp ki e th = setClass (piUpdate s .hub kp ki e th) 0 := by
  have hpi := piUpdate_piMask s kp ki e th
  unfold Mask.Frame at hpi
  rw [← steered_locked (s := piUpdate s .hub kp ki e th) (by rw [hpi]; exact hmode) (by rw [hpi]; exact hstate)]
  have hlocked : (if s.servoState .hub == 3 then enterLocked s .hub else s) = s := if_neg (by rw [hstate]; decide)
  rw [refServo, if_neg (by rw [hmode]; decide)]
  dsimp only
  rw [hlocked, if_pos (by rw [hstate]; rfl)]

theorem refSample_within {th : Int} (e : Nat) (vote : TimeVote) (hmode : s.hub.sh.servo.regs.servoCtrlMode = 0)
    (hstate : s.servoState .hub = 2) (hmaster : s.hub.ref.regs.masterStatusIsMaster = true)
    (hnear : th.natAbs ≤ s.hub.ref.regs.refCtrlRefStepNs.toNat * 65536) :
    refSample s e th vote = setClass (piUpdate (refAccepted s th vote) .hub s.hub.ref.regs.refKp.toNat
      s.hub.ref.regs.refKi.toNat e th) 0 := by
  obtain ⟨r, b, units, hist, heq⟩ := refAccepted_eq s th vote
  rw [refSample_eq, hmaster, if_neg (by decide), if_neg (Nat.not_lt.2 hnear),
    refServo_locked (by rw [heq]; exact hmode) (by rw [heq]; exact hstate)]

theorem refSample_beyond {th : Int} (e : Nat) (vote : TimeVote) (hmaster : s.hub.ref.regs.masterStatusIsMaster = true)
    (hfar : s.hub.ref.regs.refCtrlRefStepNs.toNat * 65536 < th.natAbs) :
    refSample s e th vote = timeFault (refMisaligned s th) .hub 9 [sField 64 th] := by
  rw [refSample_eq, hmaster, if_neg (by decide), if_pos hfar]

theorem loadTod_idle (h : s.hub.ref.regs.refTodPending = false) (edge : Int) : loadTod s edge = s := by
  rw [loadTod, h]
  rfl

/-- The deviation of a 1PPS edge from its second. -/
def ppsDeviation (s : State) (x : BitVec 80) : Int :=
  x.toNat - s.hub.ref.regs.refInDelayPpsDelay.toInt - nearestSecond (x.toNat - s.hub.ref.regs.refInDelayPpsDelay.toInt)

theorem exec_ppsEdge_sample {x : BitVec 80} {vote : TimeVote} (htier : s.tier = 2) (hsel : s.hub.ref.regs.refCtrlRefSel = 2)
    (htod : s.hub.ref.regs.refTodPending = false) :
    exec (.ppsEdge x false vote) s = .next (refSample s 0 (ppsDeviation s x) vote) := by
  show execPpsEdge .. = _
  simp only [execPpsEdge, htier, hsel, bne_self_eq_false, Bool.or_self, Bool.false_eq_true, if_false, loadTod_idle htod]
  rfl

theorem exec_ppsEdge_ignored (x : BitVec 80) {uncal : Bool} (vote : TimeVote) (h : uncal = true ∨ s.tier ≠ 2) :
    exec (.ppsEdge x uncal vote) s = .next s := by
  show execPpsEdge .. = _
  rw [execPpsEdge]
  dsimp only
  exact if_pos (by simpa only [Bool.or_eq_true, bne_iff_ne] using h)

theorem exec_f10mSample_held (phase : BitVec 32) (vote : TimeVote) (htier : s.tier = 2) (hsel : s.hub.ref.regs.refCtrlRefSel = 1)
    (hpps : s.hub.ref.pps = none) :
    exec (.f10mSample phase vote) s = .next (modHub s fun h => { h with
      ref := { h.ref with phi := some (phase.toInt - s.hub.ref.regs.refInDelayF10mDelay.toInt) } }) := by
  show execF10mSample .. = _
  simp only [execF10mSample, hsel, htier, decide_true, beq_self_eq_true, Bool.and_self, if_true, modHub, hpps]

theorem exec_refTodWrite_pends (ha : Answers s i) (hi : i.part = .hub) :
    exec (.refTodWrite i data) s = .next (emit (modHub s fun h => { h with
      ref := { h.ref with regs := { h.ref.regs with refTodPending := true, refTodSec := getF data 0 48 } } })
      (.writeAck i false)) := by
  show ackWrite i s (refTodWrite i data s) = _
  rw [ackWrite_answers ha, refTodWrite, onPart_part hi]
  rfl

/-! ## Alignment, loss and outputs (R148 to R150) -/

theorem tbTime_tbSet (t : Timebase) (q : BitVec 112) : tbTime (tbSet t q) = q := by
  show q.extractLsb' 48 64 ++ q.extractLsb' 0 48 = q
  refine BitVec.eq_of_getLsbD_eq fun n hn => ?_
  rw [BitVec.getLsbD_append]
  split <;> rw [BitVec.getLsbD_extractLsb']
  · simp only [*, decide_true, Bool.true_and, Nat.zero_add]
  · rw [show 48 + (n - 48) = n by omega, decide_eq_true (by omega), Bool.true_and]

/-- The time base after a step. -/
def tbStepped (du : Int) (t : Timebase) : Timebase :=
  { tbSet t (tbTime t + BitVec.ofInt 112 (du * 2 ^ 32)) with stepGen := t.stepGen + 1 }

theorem tbTime_tbStepped (du : Int) (t : Timebase) : tbTime (tbStepped du t) = tbTime t + BitVec.ofInt 112 (du * 2 ^ 32) :=
  tbTime_tbSet t (tbTime t + BitVec.ofInt 112 (du * 2 ^ 32))

/-- REF_CTRL as REF_ALIGN is written, with the reference it selects as it was. -/
def refCtrlWritten (data : Word) (h : Hub) : Hub :=
  { h with ref := { h.ref with regs := h.ref.regs.write 0x050 (data ||| putB 3 true) } }

theorem exec_refAlign_aligns (ha : Answers s i) (hi : i.part = .hub) (hok : getB data 2 = false)
    (hsel : (s.hub.ref.regs.write 0x050 data).refCtrlRefSel = s.hub.ref.regs.refCtrlRefSel) :
    exec (.refAlign i data) s = .next (emit (refAlign (modHub s (refCtrlWritten data))) (.writeAck i false)) := by
  have hok' : getB (data ||| putB 3 true) 2 = false := (getB_or_putB_ne data (by decide) true).trans hok
  have hsel' : (modHub s (refCtrlWritten data)).hub.ref.regs.refCtrlRefSel = s.hub.ref.regs.refCtrlRefSel :=
    (getF_or_putB (show 0 + 3 ≤ 3 by decide) data true).trans hsel
  have hset : getB (data ||| putB 3 true) 3 = true := getB_or_putB_same data (by decide)
  show ackWrite i s (refCtrlWrite i (data ||| putB 3 true) s) = _
  rw [ackWrite_answers ha, refCtrlWrite, onPart_part hi, hok', if_neg Bool.false_ne_true]
  show Host.Outcome.next (emit (accept (if getB (data ||| putB 3 true) 3 then
    refAlign (if (modHub s (refCtrlWritten data)).hub.ref.regs.refCtrlRefSel = s.hub.ref.regs.refCtrlRefSel then
      modHub s (refCtrlWritten data) else _) else _)).2 _) = _
  rw [hset, if_pos rfl, if_pos hsel']
  rfl

/-- The reference without its sample. -/
def sampleTaken (h : Hub) : Hub := { h with ref := { h.ref with last := none } }

theorem refAlign_forward {th : Int} (hmaster : s.hub.ref.regs.masterStatusIsMaster = true) (hlast : s.hub.ref.last = some th)
    (hth : th < 0) : refAlign s = modTb (modHub s sampleTaken) .hub (tbStepped (-th)) := by
  rw [refAlign, hlast]
  dsimp only
  rw [if_pos hmaster, if_pos hth]
  rfl

theorem refAlign_back {th : Int} (hmaster : s.hub.ref.regs.masterStatusIsMaster = true) (hlast : s.hub.ref.last = some th)
    (hth : 0 < th) : refAlign s = modTb (clearValid (modHub s sampleTaken) .hub) .hub fun t =>
      { tbStepped (-th) t with revalid := true } := by
  rw [refAlign, hlast]
  dsimp only
  rw [if_pos hmaster, if_neg (by omega), if_pos hth]
  rfl

/-- The hub without its samples, and with the loss counted. -/
def refStopped (r : RefRegs) (h : Hub) : Hub :=
  { h with
    ref := { h.ref with
      pps := none, phi := none, last := none
      regs := { h.ref.regs with
        refStatusRefOk := false, ptpStatusPortState := if r.refCtrlRefSel = 3 then 4 else h.ref.regs.ptpStatusPortState } }
    ptp := { h.ptp with havePair := false, syncSeq := none, pathCount := 0, pathSum := 0 } }

def lossCounted (h : Hub) : Hub :=
  { h with ref := { h.ref with regs := { h.ref.regs with refStatusLosses := satInc h.ref.regs.refStatusLosses } } }

def classOne (h : Hub) : Hub := { h with ref := { h.ref with regs := { h.ref.regs with masterStatusClass := 1 } } }

/-- The hub as its reference falls silent (R149). -/
def refSilent (r : RefRegs) (h : Hub) : Hub := classOne (lossCounted (refStopped r h))

theorem setClass_lossCounted (s : State) :
    setClass (modHub (modHub s (refStopped s.hub.ref.regs)) lossCounted) 1 = modHub s (refSilent s.hub.ref.regs) := rfl

/-- The master that has lost its reference, with its event. -/
def refLost (s : State) : State :=
  setCause (raisePlain (setClass (modHub (modHub s (refStopped s.hub.ref.regs)) lossCounted) 1) .hub 0x0005 5 1 []) .hub .ref 0

/-- A LOCKED master goes on at the rate it has (R149). -/
def refHeld (s : State) : State :=
  modTbRegs (modServo (setRate s .hub (frozenRate s.hub.sh.servo.regs.servoInteg.toInt)) .hub fun v => { v with
    regs := { v.regs with servoStatusState := 3 }, holdAt := s.hub.sh.tb.cycles }) .hub fun t => { t with
      statusHoldover := s.valid .hub }

/-- HOLDOVER with its interrupt cause. -/
def refHoldover (s : State) : State := setCause (refHeld s) .hub .servo 1

theorem exec_refLoss_lost (hok : s.hub.ref.regs.refStatusRefOk = true) (hmaster : s.hub.ref.regs.masterStatusIsMaster = true) :
    exec .refLoss s = .next (if (refLost s).servoState .hub == 2 then refHoldover (refLost s) else refLost s) := by
  show execRefLoss s = _
  rw [execRefLoss]
  dsimp only
  rw [hok, Bool.true_or, if_pos rfl, hmaster, if_pos rfl, apply_ite Host.Outcome.next]
  rfl

theorem exec_refHoldExpire_expires (hmaster : s.hub.ref.regs.masterStatusIsMaster = true)
    (hclass : s.hub.ref.regs.masterStatusClass = 1) : exec .refHoldExpire s = .next (setClass s 2) := by
  show execRefHoldExpire s = _
  simp only [execRefHoldExpire, hmaster, hclass, beq_self_eq_true, Bool.and_self, if_true]

theorem exec_referenceOutputEdge_drives (pps rising : Bool) (hen : s.hub.ref.regs.outCtrlEn = true)
    (hvalid : s.valid .hub = true) :
    exec (.referenceOutputEdge pps rising) s = .next (driveOut s pps rising (BitVec.ofInt 64 (outEdgeAt s pps rising / 65536))
      (BitVec.ofInt 48 (outEdgeAt s pps rising * 2 ^ 32))) := by
  show execReferenceOutputEdge .. = _
  simp only [execReferenceOutputEdge, hen, hvalid, Bool.not_true, Bool.false_eq_true, if_false, if_true]

/-! ## What each of them leaves -/

theorem ppsEdge_within {x : BitVec 80} (vote : TimeVote) (htier : s.tier = 2) (hmode : s.hub.sh.servo.regs.servoCtrlMode = 0)
    (hstate : s.servoState .hub = 2) (hsel : s.hub.ref.regs.refCtrlRefSel = 2)
    (hmaster : s.hub.ref.regs.masterStatusIsMaster = true) (htod : s.hub.ref.regs.refTodPending = false)
    (hnear : (ppsDeviation s x).natAbs ≤ s.hub.ref.regs.refCtrlRefStepNs.toNat * 65536) :
    ∃ t, exec (.ppsEdge x false vote) s = .next t ∧
      t.hub.ref.last = some (ppsDeviation s x) ∧ t.hub.ref.regs.refStatusRefOk = true ∧
      t.hub.ref.regs.refStatusMisaligned = false ∧ t.hub.ref.regs.masterStatusClass = 0 ∧ t.tsu = s.tsu ∧
      refMask.Frame s t := by
  have hexec := exec_ppsEdge_sample (x := x) (vote := vote) htier hsel htod
  rw [refSample_within 0 vote hmode hstate hmaster hnear] at hexec
  obtain ⟨r, b, units, hist, heq⟩ := refAccepted_eq s (ppsDeviation s x) vote
  have hpi := piUpdate_piMask (refAccepted s (ppsDeviation s x) vote) s.hub.ref.regs.refKp.toNat s.hub.ref.regs.refKi.toNat 0
    (ppsDeviation s x)
  have htsu := piUpdate_tsu (refAccepted s (ppsDeviation s x) vote) s.hub.ref.regs.refKp.toNat s.hub.ref.regs.refKi.toNat 0
    (ppsDeviation s x)
  have hacc : (refAccepted s (ppsDeviation s x) vote).tsu = s.tsu := timePathVote_tsu ..
  unfold Mask.Frame at hpi
  have hkept := congrArg (fun t : State => t.hub.ref) heq
  have href : (piUpdate (refAccepted s (ppsDeviation s x) vote) .hub s.hub.ref.regs.refKp.toNat s.hub.ref.regs.refKi.toNat 0
      (ppsDeviation s x)).hub.ref = _ := (congrArg (fun t : State => t.hub.ref) hpi).trans hkept
  refine ⟨_, hexec, ?_, ?_, ?_, rfl, htsu.trans hacc, ?_⟩
  · exact congrArg Ref.last href
  · exact congrArg (fun h : Ref => h.regs.refStatusRefOk) href
  · exact congrArg (fun h : Ref => h.regs.refStatusMisaligned) href
  · unfold Mask.Frame
    rw [hpi, heq]
    rfl

theorem ppsEdge_beyond {x : BitVec 80} (vote : TimeVote) (htier : s.tier = 2) (hsel : s.hub.ref.regs.refCtrlRefSel = 2)
    (hmaster : s.hub.ref.regs.masterStatusIsMaster = true) (htod : s.hub.ref.regs.refTodPending = false)
    (hfar : s.hub.ref.regs.refCtrlRefStepNs.toNat * 65536 < (ppsDeviation s x).natAbs) :
    ∃ t, exec (.ppsEdge x false vote) s = .next t ∧
      t.hub.ref.regs.refStatusMisaligned = true ∧ t.hub.ref.regs.masterStatusClass = 2 ∧ t.hub.sh.servo = s.hub.sh.servo ∧
      t.hub.sh.tb = s.hub.sh.tb ∧ Raised t .hub 0x0004 9 ∧ refMask.Frame s t := by
  have hexec := exec_ppsEdge_sample (x := x) (vote := vote) htier hsel htod
  rw [refSample_beyond 0 vote hmaster hfar] at hexec
  obtain ⟨r, hr⟩ := (timeFault_reported (setCause_reported (.refl (setClass (modHub (modHub s
    (refSampled (ppsDeviation s x))) fun h => { h with
      ref := { h.ref with regs := { h.ref.regs with refStatusMisaligned := true } } }) 2)) .hub .ref 1) .hub 9
    [sField 64 (ppsDeviation s x)]).exists_report
  have ht : timeFault (refMisaligned s (ppsDeviation s x)) .hub 9 [sField 64 (ppsDeviation s x)] = report r _ := hr
  refine ⟨_, hexec, ?_, ?_, ?_, ?_, raisePlain_raised _ .hub (by decide) 9 1 _, ?_⟩ <;> rw [ht] <;> rfl

/-- Beyond READY, the reference, the triggers and the time of both parts a state is as reports leave it. -/
def alignMask : Mask where
  take s t := report t { s with
    hub := { s.hub with mod_ := t.hub.mod_, ref := t.hub.ref, sh := { s.hub.sh with tb := t.hub.sh.tb } },
    tsu := { s.tsu with trigs := t.tsu.trigs, sh := { s.tsu.sh with tb := t.tsu.sh.tb } } }
  take_take _ _ _ := rfl
  take_report _ _ := rfl

theorem refAlign_aligns_forward {th : Int} (ha : Answers s i) (hi : i.part = .hub) (hok : getB data 2 = false)
    (hsel : (s.hub.ref.regs.write 0x050 data).refCtrlRefSel = s.hub.ref.regs.refCtrlRefSel)
    (hmaster : s.hub.ref.regs.masterStatusIsMaster = true) (hlast : s.hub.ref.last = some th) (hth : th < 0) :
    ∃ t, exec (.refAlign i data) s = .next t ∧
      tbTime t.hub.sh.tb = tbTime s.hub.sh.tb + BitVec.ofInt 112 (-th * 2 ^ 32) ∧ t.valid .hub = s.valid .hub ∧
      t.hub.ref.last = none ∧ t.tsu = s.tsu ∧ alignMask.Frame s t := by
  have hexec := exec_refAlign_aligns ha hi hok hsel
  rw [refAlign_forward (s := modHub s (refCtrlWritten data)) hmaster hlast hth] at hexec
  exact ⟨_, hexec, tbTime_tbStepped .., rfl, rfl, rfl, rfl⟩

/-- What a loss of VALID changes lies within what an alignment changes. -/
theorem alignMask_of_epochMask {t : State} (h : epochMask.Frame s t) : alignMask.Frame s t := by
  unfold Mask.Frame at h ⊢
  rw [h]
  rfl

theorem refAlign_aligns_back {th : Int} (ha : Answers s i) (hi : i.part = .hub) (hok : getB data 2 = false)
    (hsel : (s.hub.ref.regs.write 0x050 data).refCtrlRefSel = s.hub.ref.regs.refCtrlRefSel)
    (hmaster : s.hub.ref.regs.masterStatusIsMaster = true) (hlast : s.hub.ref.last = some th) (hth : 0 < th) :
    ∃ t, exec (.refAlign i data) s = .next t ∧
      tbTime t.hub.sh.tb = tbTime s.hub.sh.tb + BitVec.ofInt 112 (-th * 2 ^ 32) ∧ t.valid .hub = false ∧
      t.hub.sh.tb.revalid = true ∧ t.tsu = s.tsu ∧ alignMask.Frame s t := by
  have hexec := exec_refAlign_aligns ha hi hok hsel
  rw [refAlign_back (s := modHub s (refCtrlWritten data)) hmaster hlast hth] at hexec
  have htb := clearValid_hub_tb (modHub (modHub s (refCtrlWritten data)) sampleTaken)
  have htsu := clearValid_hub_tsu (modHub (modHub s (refCtrlWritten data)) sampleTaken)
  have hcleared := alignMask_of_epochMask (clearValid_hub_epochMask (modHub (modHub s (refCtrlWritten data)) sampleTaken))
  generalize clearValid (modHub (modHub s (refCtrlWritten data)) sampleTaken) .hub = c at hexec htb htsu hcleared
  have hstepped : tbTime (tbStepped (-th) c.hub.sh.tb) = tbTime s.hub.sh.tb + BitVec.ofInt 112 (-th * 2 ^ 32) := by
    rw [tbTime_tbStepped, htb]
    rfl
  have hwritten : alignMask.Frame s (modHub (modHub s (refCtrlWritten data)) sampleTaken) := rfl
  have hback : alignMask.Frame c (modTb c .hub fun t => { tbStepped (-th) t with revalid := true }) := rfl
  refine ⟨_, hexec, hstepped, ?_, rfl, htsu, ((hwritten.trans hcleared).trans hback).emit _⟩
  exact congrArg (fun t : Timebase => t.regs.statusValid) htb

/-- What the loss of the reference changes: the reference, the PTP port, and the time and servo of both parts. -/
def lossMask : Mask where
  take s t := report t { s with
    hub := { s.hub with
      ref := t.hub.ref, ptp := t.hub.ptp, sh := { s.hub.sh with tb := t.hub.sh.tb, servo := t.hub.sh.servo } },
    tsu := { s.tsu with sh := { s.tsu.sh with tb := t.tsu.sh.tb, servo := t.tsu.sh.servo } } }
  take_take _ _ _ := rfl
  take_report _ _ := rfl

theorem refLost_eq (s : State) : ∃ r, refLost s = report r (modHub s (refSilent s.hub.ref.regs)) := by
  obtain ⟨r, hr⟩ := (setCause_reported (raisePlain_reported (.refl (modHub s (refSilent s.hub.ref.regs))) .hub 0x0005 5 1 []) .hub
    .ref 0).exists_report
  exact ⟨r, by rw [refLost, setClass_lossCounted, hr]⟩

theorem refLost_tsu (s : State) : (refLost s).tsu = s.tsu := by
  rw [refLost, setCause_hub_tsu, raisePlain_hub_tsu]
  rfl

theorem refHoldover_tsu (s : State) : (refHoldover s).tsu = s.tsu := setCause_hub_tsu ..

theorem refHoldover_windows (s : State) (p : Part) : evWindows p (refHoldover s) = evWindows p s :=
  (setCause_windows ..).trans (by cases p <;> rfl)

theorem refHoldover_eq (s : State) : ∃ r, refHoldover s = report r (refHeld s) :=
  (setCause_reported (.refl (refHeld s)) .hub .servo 1).exists_report

/-- What entering HOLDOVER on the loss changes is the time and the servo, with the interrupt cause. -/
theorem refHoldover_lossMask (s : State) : lossMask.Frame s (refHoldover s) := by
  obtain ⟨r, hr⟩ := refHoldover_eq s
  rw [hr]
  rfl

theorem refHoldover_ref (s : State) : (refHoldover s).hub.ref = s.hub.ref := by
  obtain ⟨r, hr⟩ := refHoldover_eq s
  rw [hr]
  rfl

theorem refHoldover_valid (s : State) : (refHoldover s).valid .hub = s.valid .hub := by
  obtain ⟨r, hr⟩ := refHoldover_eq s
  rw [hr]
  rfl

theorem refLoss_lost (hok : s.hub.ref.regs.refStatusRefOk = true) (hmaster : s.hub.ref.regs.masterStatusIsMaster = true) :
    ∃ t, exec .refLoss s = .next t ∧
      t.hub.ref.regs.refStatusRefOk = false ∧ t.hub.ref.regs.masterStatusClass = 1 ∧
      t.hub.ref.regs.refStatusLosses = satInc s.hub.ref.regs.refStatusLosses ∧ t.hub.ref.last = none ∧
      t.valid .hub = s.valid .hub ∧ Raised t .hub 0x0005 5 ∧ t.tsu = s.tsu ∧ lossMask.Frame s t := by
  obtain ⟨r, hr⟩ := refLost_eq s
  have href : (refLost s).hub.ref = (refSilent s.hub.ref.regs s.hub).ref := congrArg (fun t : State => t.hub.ref) hr
  have hvalid : (refLost s).valid .hub = s.valid .hub := by
    rw [hr]
    rfl
  have hraised : Raised (refLost s) .hub 0x0005 5 := by
    rw [refLost]
    exact (raisePlain_raised _ .hub (by decide) 5 1 _).of_windows (setCause_windows ..)
  have hframe : lossMask.Frame s (refLost s) := by
    rw [hr]
    rfl
  have hlast : ∀ t : State, t.hub.ref = (refSilent s.hub.ref.regs s.hub).ref → t.hub.ref.regs.refStatusRefOk = false ∧
      t.hub.ref.regs.masterStatusClass = 1 ∧ t.hub.ref.regs.refStatusLosses = satInc s.hub.ref.regs.refStatusLosses ∧
      t.hub.ref.last = none := fun t ht => by
    rw [ht]
    exact ⟨rfl, rfl, rfl, rfl⟩
  refine ⟨_, exec_refLoss_lost hok hmaster, ?_⟩
  split
  · obtain ⟨hrefOk, hclass, hlosses, hnone⟩ := hlast _ ((refHoldover_ref _).trans href)
    exact ⟨hrefOk, hclass, hlosses, hnone, (refHoldover_valid _).trans hvalid,
      hraised.of_windows (refHoldover_windows ..), (refHoldover_tsu _).trans (refLost_tsu s),
      hframe.trans (refHoldover_lossMask _)⟩
  · obtain ⟨hrefOk, hclass, hlosses, hnone⟩ := hlast _ href
    exact ⟨hrefOk, hclass, hlosses, hnone, hvalid, hraised, refLost_tsu s, hframe⟩

/-- An output edge drives its pin and changes nothing else. -/
theorem referenceOutputEdge_drives (pps rising : Bool) (hen : s.hub.ref.regs.outCtrlEn = true) (hvalid : s.valid .hub = true) :
    ∃ t, exec (.referenceOutputEdge pps rising) s = .next t ∧
      t.hub.ref = (if pps then { s.hub.ref with outPps := rising } else { s.hub.ref with outF10 := rising }) ∧
      t.out = s.out ++ [.refEdge pps rising (BitVec.ofInt 64 (outEdgeAt s pps rising / 65536)) (BitVec.ofInt 48 (outEdgeAt s
        pps rising * 2 ^ 32))] ∧
      t.tsu = s.tsu ∧ Reported { s with hub := { s.hub with ref := t.hub.ref }, free := t.free } t := by
  exact ⟨_, exec_referenceOutputEdge_drives pps rising hen hvalid, rfl, rfl, rfl, rfl⟩

end

/-- Settles O9, with one lemma for what each operation of the reference leaves. -/
theorem buildingReference : Obligations.BuildingReference := by
  unfold Obligations.BuildingReference
  refine ⟨?_, ?_, ?_, ?_, ?_, ?_, ?_, ?_, ?_, ?_⟩
  · exact fun x vote s htier hmode hstate hsel hmaster htod hnear =>
      ppsEdge_within vote htier hmode hstate hsel hmaster htod hnear
  · exact fun x uncal vote s h => ⟨s, exec_ppsEdge_ignored x vote h, rfl⟩
  · exact fun x vote s htier hsel hmaster htod hfar => ppsEdge_beyond vote htier hsel hmaster htod hfar
  · exact fun phase vote s htier hsel hpps => ⟨_, exec_f10mSample_held phase vote htier hsel hpps, rfl⟩
  · exact fun i data s ha hi => ⟨_, exec_refTodWrite_pends ha hi, rfl⟩
  · exact fun i data th s ha hi hok hsel hmaster hlast hth => refAlign_aligns_forward ha hi hok hsel hmaster hlast hth
  · exact fun i data th s ha hi hok hsel hmaster hlast hth => refAlign_aligns_back ha hi hok hsel hmaster hlast hth
  · exact fun s hok hmaster => refLoss_lost hok hmaster
  · exact fun s hmaster hclass => ⟨_, exec_refHoldExpire_expires hmaster hclass, rfl⟩
  · exact fun pps rising s hen hvalid => referenceOutputEdge_drives pps rising hen hvalid

end Sys2Proof.Machine
end

section
/-! What the abort of a job leaves: the TSU, the hub's time, the step of every job, and the launches that are held. -/

namespace Sys2Proof.Machine

section

set_option Elab.async false

variable {s t : State} {j : BitVec 12}

/-! ## Every route is over a link of the hub -/

theorem choices_sub {l : LinkId} {ls : List LinkId} (h : l ∈ s.choices ls) : l ∈ ls := by
  unfold State.choices at h
  dsimp only at h
  split at h
  · exact h
  · exact (List.mem_filter.1 h).1

theorem flowChoice_mem {key : Nat} {ls : List LinkId} {l : LinkId} (h : flowChoice s key ls = some l) : l ∈ ls := by
  unfold flowChoice at h
  dsimp only at h
  split at h
  · next l' heq =>
    injection h with h
    subst h
    have hin := (Option.filter_eq_some_iff.1 heq).2
    exact choices_sub (List.contains_iff_mem.1 hin)
  · exact choices_sub (List.mem_of_getElem? h)

theorem flowChoice_hub {key : Nat} {ls : List LinkId} (hls : ∀ l ∈ ls, l.part = .hub) {l : LinkId}
    (h : flowChoice s key ls = some l) : l.part = .hub := hls l (flowChoice_mem h)

theorem roleLinks_hub (r : BitVec 3) : ∀ l ∈ s.roleLinks r, l.part = .hub :=
  fun _ hl => mem_activeLinks_part (List.mem_filter.1 hl).1

theorem linksTo_hub {ls : List LinkId} (hls : ∀ l ∈ ls, l.part = .hub) (p : BitVec 16 → Bool) :
    ∀ l ∈ s.linksTo ls p, l.part = .hub := fun l hl => hls l (List.mem_filter.1 hl).1

theorem ownPlane_hub {ls : List LinkId} (hls : ∀ l ∈ ls, l.part = .hub) : ∀ l ∈ s.ownPlane ls, l.part = .hub := by
  intro l hl
  unfold State.ownPlane at hl
  dsimp only at hl
  split at hl
  · exact hls l hl
  · exact linksTo_hub hls _ l hl

theorem upFor_hub {key : Nat} {l : LinkId} (h : s.upFor key j = some l) : l.part = .hub := by
  refine flowChoice_hub ?_ h
  split
  · exact linksTo_hub (roleLinks_hub 2) _
  · exact roleLinks_hub 2

theorem twinLink_hub {key : Nat} {l : LinkId} (h : s.twinLink key = some l) : l.part = .hub := flowChoice_hub (roleLinks_hub 3) h

theorem downTo_hub {key : Nat} {e : BitVec 24} {l : LinkId} (h : s.downTo key e = some l) : l.part = .hub := by
  unfold State.downTo at h
  dsimp only at h
  split at h
  · split at h
    · exact roleLinks_hub 1 l (List.mem_of_find?_eq_some h)
    · cases h
  · exact flowChoice_hub (ownPlane_hub (linksTo_hub (roleLinks_hub 1) _)) h
  · exact flowChoice_hub (ownPlane_hub (linksTo_hub (roleLinks_hub 1) _)) h

theorem toEp_hub {key : Nat} {e : BitVec 24} {l : LinkId} (h : s.toEp key j e = some l) : l.part = .hub := by
  unfold State.toEp at h
  split at h
  · next l' heq =>
    injection h with h
    exact h ▸ downTo_hub heq
  · exact upFor_hub h

theorem routed_hub (a : BitVec 16) : ∀ l ∈ s.routed a, l.part = .hub := by
  intro l hl
  unfold State.routed at hl
  dsimp only at hl
  split at hl
  · cases hl
  · exact mem_activeLinks_part (List.mem_filter.1 hl).1

/-- The links that lead to a hub directly: its route, or those whose neighbour it is. -/
def directLinks (s : State) (a : BitVec 16) : List LinkId :=
  if (s.routed a).isEmpty then s.linksTo (s.activeLinks .hub) fun x => x == a else s.routed a

theorem directLinks_hub (a : BitVec 16) : ∀ l ∈ directLinks s a, l.part = .hub := by
  unfold directLinks
  split
  · exact linksTo_hub (fun _ hl => mem_activeLinks_part hl) _
  · exact routed_hub a

theorem toHub_eq (key : Nat) (a : BitVec 16) : s.toHub key j a =
    if (directLinks s a).isEmpty then
      match s.tier with
      | 2 => flowChoice s key (s.ownPlane (s.linksTo (s.roleLinks 1) fun x => hubRow x == hubRow a))
      | _ => s.upFor key j
    else flowChoice s key (directLinks s a) := rfl

theorem toHub_hub {key : Nat} {a : BitVec 16} {l : LinkId} (h : s.toHub key j a = some l) : l.part = .hub := by
  rw [toHub_eq] at h
  split at h
  · split at h
    · exact flowChoice_hub (ownPlane_hub (linksTo_hub (roleLinks_hub 1) _)) h
    · exact upFor_hub h
  · exact flowChoice_hub (directLinks_hub a) h

theorem mem_maskLinks_hub (m : BitVec 288) : ∀ l ∈ maskLinks m, l.part = .hub := by
  intro l hl
  obtain ⟨i, -, rfl⟩ := List.mem_map.1 hl
  rfl

theorem ladleLink_hub {key : Nat} {k l : LinkId} (hk : k.part = .hub) (h : s.ladleLink key k = some l) : l.part = .hub := by
  unfold State.ladleLink at h
  dsimp only at h
  split at h
  · injection h with h
    exact h ▸ hk
  · split at h
    · cases h
    · refine flowChoice_hub ?_ h
      split <;> exact linksTo_hub (roleLinks_hub 1) _

/-! ## What leaves over them -/

theorem onRoute_tsu {l : Option LinkId} (hl : ∀ k, l = some k → k.part = .hub) {none_ : State → State}
    {act : LinkId → State → State} (hnone : ∀ u, (none_ u).tsu = u.tsu)
    (hact : ∀ k u, k.part = .hub → (act k u).tsu = u.tsu) (s : State) (key : Nat) :
    (onRoute s key l none_ act).tsu = s.tsu := by
  cases l with
  | none => exact hnone s
  | some k => exact hact k _ (hl k rfl)

@[simp] theorem sendTwin_tsu (s : State) (key : Nat) (m : Msg) : (sendTwin s key m).tsu = s.tsu :=
  onRoute_tsu (fun _ => twinLink_hub) (fun _ => rfl) (fun _ _ hk => sendLink_tsu hk ..) ..

theorem noRoute_tsu (s : State) : (noRoute s).tsu = s.tsu := refuse_tsu_of_hub rfl _

theorem foldl_sendLink_tsu {ls : List LinkId} (hls : ∀ l ∈ ls, l.part = .hub) (m : Msg) (s : State) :
    (ls.foldl (fun s l => sendLink s l none m) s).tsu = s.tsu :=
  foldl_links_keeps State.tsu (fun _ _ hl => sendLink_tsu hl ..) ls hls s

/-- Every route of a list is over a link of the hub. -/
def HubRoutes (rs : List (Nat × Option LinkId)) : Prop := ∀ r ∈ rs, ∀ l, r.2 = some l → l.part = .hub

theorem mem_of_mem_dedup {α : Type} [DecidableEq α] {a : α} {as : List α} (h : a ∈ dedup as) : a ∈ as := by
  induction as with
  | nil => exact h
  | cons b as ih =>
    unfold dedup at h
    split at h
    · exact List.mem_cons_of_mem _ (ih h)
    · rcases List.mem_cons.1 h with rfl | h
      · exact List.mem_cons_self
      · exact List.mem_cons_of_mem _ (ih h)

theorem takeRoutes_links {rs : List (Nat × Option LinkId)} (hrs : HubRoutes rs) :
    ∀ l ∈ (takeRoutes s rs).1, l.part = .hub := by
  intro l hl
  unfold takeRoutes at hl
  obtain ⟨r, hr, heq⟩ := List.mem_filterMap.1 (mem_of_mem_dedup hl)
  exact hrs r hr l heq

theorem takeRoutes_tsu (s : State) (rs : List (Nat × Option LinkId)) : (takeRoutes s rs).2.tsu = s.tsu :=
  foldl_keeps State.tsu (fun u r => by
    cases h : r.2 with
    | none => exact noRoute_tsu u
    | some k => rfl) rs s

theorem takeRoutes_reported (h : Reported s t) (rs : List (Nat × Option LinkId)) : Reported s (takeRoutes t rs).2 :=
  foldl_reported (fun _ _ hu => onRoute_reported (fun _ _ hv => hv) (fun _ hv => refuse_reported hv ..) hu ..) h

theorem HubRoutes.sent_tsu {rs : List (Nat × Option LinkId)} (hrs : HubRoutes rs) (s : State) (m : Msg) :
    ((takeRoutes s rs).1.foldl (fun s l => sendLink s l none m) (takeRoutes s rs).2).tsu = s.tsu :=
  (foldl_sendLink_tsu (takeRoutes_links hrs) m _).trans (takeRoutes_tsu s rs)

theorem sent_reported (h : Reported s t) (ls : List LinkId) (m : Msg) :
    Reported s (ls.foldl (fun s l => sendLink s l none m) t) :=
  foldl_reported (fun _ _ hu => sendLink_reported hu ..) h

theorem forwardDown_tsu (s : State) (j : BitVec 12) (eps : List (BitVec 24)) (m : Msg) :
    (forwardDown s j eps m).tsu = s.tsu := by
  refine HubRoutes.sent_tsu (fun r hr l hl => ?_) s m
  obtain ⟨e, -, rfl⟩ := List.mem_map.1 (List.mem_filter.1 hr).1
  exact downTo_hub hl

theorem forwardDown_reported (h : Reported s t) (j : BitVec 12) (eps : List (BitVec 24)) (m : Msg) :
    Reported s (forwardDown t j eps m) := sent_reported (takeRoutes_reported h _) ..

theorem sendTargets_tsu (s : State) (j : BitVec 12) (hubs : List (BitVec 16)) (eps : List (BitVec 24)) (m : Msg) :
    (sendTargets s j hubs eps m).tsu = s.tsu := by
  refine HubRoutes.sent_tsu (fun r hr l hl => ?_) s m
  rcases List.mem_append.1 hr with hr | hr
  · obtain ⟨a, -, rfl⟩ := List.mem_map.1 hr
    exact toHub_hub hl
  · obtain ⟨e, -, rfl⟩ := List.mem_map.1 hr
    exact toEp_hub hl

theorem sendTargets_reported (h : Reported s t) (j : BitVec 12) (hubs eps) (m : Msg) :
    Reported s (sendTargets t j hubs eps m) := sent_reported (takeRoutes_reported h _) ..

/-! ## What a step and an abort turn on: the TSU, the time, the staged transactions, and the keys of the jobs -/

/-- Of a job, its step, the launch that is held, its state and its home pair. -/
structure JobKey where
  step : BitVec 64
  nextLaunch : Option HeldLaunch
  state : BitVec 4
  lead : BitVec 16
  other : BitVec 16
  leads : Bool

def jobKey (b : HubJob) : JobKey :=
  { step := b.step, nextLaunch := b.nextLaunch, state := b.regs.jobStatusState, lead := b.lead, other := b.other,
    leads := b.leads }

/-- Of a state, the TSU, the hub's time and address, and the keys of its jobs. -/
structure HomeCore where
  tsu : Tsu
  tb : Timebase
  hubAddr : BitVec 16
  keys : BitVec 12 → JobKey

def homeCore (s : State) : HomeCore :=
  { tsu := s.tsu, tb := s.hub.sh.tb, hubAddr := s.hub.id.hubAddr, keys := fun k => jobKey (s.job k) }

theorem Reported.homeCore (h : Reported s t) (htsu : t.tsu = s.tsu) : homeCore t = homeCore s := by
  obtain ⟨r, hr⟩ := h.exists_report
  have htb : t.hub.sh.tb = s.hub.sh.tb := by rw [hr]; rfl
  have haddr : t.hub.id.hubAddr = s.hub.id.hubAddr := by rw [hr]; rfl
  have hjob : (fun k => jobKey (t.job k)) = fun k => jobKey (s.job k) := funext fun k => congrArg jobKey (h.job k)
  rw [Machine.homeCore, Machine.homeCore, htsu, htb, haddr, hjob]

theorem job_modJob_ne {k : BitVec 12} (h : k ≠ j) (f : HubJob → HubJob) : (modJob s j f).job k = s.job k :=
  tget_tmod_ne f fun he => h (BitVec.eq_of_toNat_eq he).symm

theorem modJob_homeCore {f : HubJob → HubJob} (hf : jobKey (f (s.job j)) = jobKey (s.job j)) :
    homeCore (modJob s j f) = homeCore s := by
  have hkeys : (fun k => jobKey ((modJob s j f).job k)) = fun k => jobKey (s.job k) := funext fun k => by
    by_cases hk : k = j
    · rw [hk, job_modJob, hf]
    · rw [job_modJob_ne hk]
  exact congrArg (HomeCore.mk s.tsu s.hub.sh.tb s.hub.id.hubAddr) hkeys

theorem modHub_homeCore {f : Hub → Hub} (htb : (f s.hub).sh.tb = s.hub.sh.tb) (hid : (f s.hub).id = s.hub.id)
    (hjobs : (f s.hub).jobs = s.hub.jobs) : homeCore (modHub s f) = homeCore s := by
  show HomeCore.mk s.tsu (f s.hub).sh.tb (f s.hub).id.hubAddr (fun k => jobKey (tget {} (f s.hub).jobs k.toNat)) = _
  rw [htb, hid, hjobs]
  rfl

theorem setCause_homeCore (s : State) (g : Page) (b : Nat) : homeCore (setCause s .hub g b) = homeCore s :=
  (setCause_reported (.refl s) .hub g b).homeCore (setCause_hub_tsu ..)

theorem raise_homeCore (s : State) (e : Ev) : homeCore (raise s .hub e) = homeCore s :=
  (raise_reported (.refl s) .hub e).homeCore (raise_hub_tsu ..)

theorem refuse_homeCore (s : State) (g : Page) : homeCore (refuse s .hub g) = homeCore s :=
  (refuse_reported (.refl s) .hub g).homeCore (refuse_tsu_of_hub rfl g)

theorem sendTwin_homeCore (s : State) (key : Nat) (m : Msg) : homeCore (sendTwin s key m) = homeCore s :=
  (sendTwin_reported (.refl s) key m).homeCore (sendTwin_tsu ..)

theorem mirror_homeCore (s : State) (j : BitVec 12) (item key value) : homeCore (mirror s j item key value) = homeCore s :=
  sendTwin_homeCore ..

theorem takeRoutes_homeCore (s : State) (rs : List (Nat × Option LinkId)) : homeCore (takeRoutes s rs).2 = homeCore s :=
  (takeRoutes_reported (.refl s) rs).homeCore (takeRoutes_tsu ..)

theorem foldl_sendLink_homeCore {ls : List LinkId} (hls : ∀ l ∈ ls, l.part = .hub) (m : Msg) (s : State) :
    homeCore (ls.foldl (fun s l => sendLink s l none m) s) = homeCore s :=
  (sent_reported (.refl s) ls m).homeCore (foldl_sendLink_tsu hls m s)

theorem forwardDown_homeCore (s : State) (j : BitVec 12) (eps) (m : Msg) : homeCore (forwardDown s j eps m) = homeCore s :=
  (forwardDown_reported (.refl s) ..).homeCore (forwardDown_tsu ..)

theorem sendTargets_homeCore (s : State) (j : BitVec 12) (hubs eps) (m : Msg) :
    homeCore (sendTargets s j hubs eps m) = homeCore s :=
  (sendTargets_reported (.refl s) ..).homeCore (sendTargets_tsu ..)

/-! ## The audit log -/

theorem audAdvance_homeCore (s : State) (j : BitVec 12) (chain : BitVec 384) : homeCore (audAdvance s j chain) = homeCore s :=
  (mirror_homeCore ..).trans (modJob_homeCore rfl)

theorem audLevel_homeCore (s : State) : homeCore (audLevel s) = homeCore s := ite_keeps homeCore (setCause_homeCore ..) rfl

theorem audPut_homeCore (s : State) (j : BitVec 12) (r : AudRec) : homeCore (audPut s j r) = homeCore s :=
  (audLevel_homeCore _).trans ((setCause_homeCore ..).trans ((audAdvance_homeCore ..).trans (modHub_homeCore rfl rfl rfl)))

theorem audDrop_homeCore (s : State) (j : BitVec 12) (r : AudRec) : homeCore (audDrop s j r) = homeCore s :=
  (setCause_homeCore ..).trans ((audAdvance_homeCore ..).trans ((modHub_homeCore rfl rfl rfl).trans (modJob_homeCore rfl)))

theorem audGap_homeCore (s : State) (j : BitVec 12) : homeCore (audGap s j) = homeCore s := by
  unfold audGap
  split
  · exact ite_keeps homeCore ((audPut_homeCore ..).trans (modJob_homeCore rfl)) rfl
  · rfl

theorem audit_homeCore (s : State) (j : BitVec 12) (r : AudRec) : homeCore (audit s j r) = homeCore s :=
  (ite_keeps homeCore (audPut_homeCore ..) (audDrop_homeCore ..)).trans (audGap_homeCore s j)

theorem incompleteRecord_homeCore (s : State) (j : BitVec 12) : homeCore (incompleteRecord s j) = homeCore s :=
  ite_keeps homeCore ((audit_homeCore ..).trans (modJob_homeCore rfl)) rfl

/-! ## Transactions that abort -/

theorem txnAbortEv_homeCore (s : State) (sub part tid kind cause voter commit tag) :
    homeCore (txnAbortEv s sub part tid kind cause voter commit tag) = homeCore s :=
  ite_keeps homeCore (raise_homeCore ..) (raise_homeCore ..)

theorem finishTxn_homeCore (s : State) (tid : BitVec 16) : homeCore (finishTxn s tid) = homeCore s :=
  (foldl_keeps homeCore (fun _ _ => modHub_homeCore rfl rfl rfl) _ _).trans
    ((mirror_homeCore ..).trans (modHub_homeCore rfl rfl rfl))

theorem unstage_homeCore (s : State) (part : BitVec 13) (coord tid : BitVec 16) :
    homeCore (unstage s .hub part coord tid) = homeCore s := by
  unfold unstage
  split
  · exact ite_keeps homeCore rfl rfl
  · rfl

/-- A transaction whose targets are told of its abort, when it has been sent to them. -/
def targetsTold (s : State) (tid : BitVec 16) : State :=
  if (s.txn tid).regs.txnStatusPhase = 2 then
    unstage (sendTargets s ((s.txn tid).regs.txnStatusPartition.setWidth 12) (s.txn tid).hubs (s.txn tid).eps (s.abortMsg tid))
      .hub (s.txn tid).regs.txnStatusPartition s.hub.id.hubAddr tid
  else s

theorem targetsTold_homeCore (s : State) (tid : BitVec 16) : homeCore (targetsTold s tid) = homeCore s :=
  ite_keeps homeCore ((unstage_homeCore ..).trans (sendTargets_homeCore ..)) rfl

theorem txnAbort_told (s : State) (tid sub : BitVec 16) (cause : BitVec 8) :
    homeCore (txnAbort s tid sub cause) = homeCore (targetsTold s tid) :=
  (finishTxn_homeCore ..).trans ((setCause_homeCore ..).trans ((txnAbortEv_homeCore ..).trans rfl))

theorem txnAbort_homeCore (s : State) (tid sub : BitVec 16) (cause : BitVec 8) :
    homeCore (txnAbort s tid sub cause) = homeCore s :=
  (txnAbort_told ..).trans (targetsTold_homeCore ..)

/-! ## A job that aborts -/

/-- The keys of the jobs as one of them aborts: it holds no launch and is ABORTED. -/
def jobAborted (s : State) (j : BitVec 12) : State :=
  modJob s j fun b => { b with regs := { b.regs with jobStatusState := 5 }, nextLaunch := none }

theorem jobKey_of_homeCore (h : homeCore t = homeCore s) (k : BitVec 12) : jobKey (t.job k) = jobKey (s.job k) :=
  congrFun (congrArg HomeCore.keys h) k

theorem modJob_homeCore_congr {f g : HubJob → HubJob} (hfg : jobKey (f (t.job j)) = jobKey (g (s.job j)))
    (h : homeCore t = homeCore s) : homeCore (modJob t j f) = homeCore (modJob s j g) := by
  have hkeys : (fun k => jobKey ((modJob t j f).job k)) = fun k => jobKey ((modJob s j g).job k) := funext fun k => by
    by_cases hk : k = j
    · rw [hk, job_modJob, job_modJob, hfg]
    · rw [job_modJob_ne hk, job_modJob_ne hk, jobKey_of_homeCore h k]
  have hcore := congrArg (fun c : HomeCore => { c with keys := fun k => jobKey ((modJob s j g).job k) }) h
  refine (congrArg (fun keys => { homeCore t with keys := keys }) hkeys).trans hcore

/-- The hub without the transactions of a job that it staged and that are not committed to end it. -/
def stagedDropped (j : BitVec 12) (h : Hub) : Hub :=
  { h with staged := tmod none h.staged j.toNat fun g => g.filter fun g => g.kind == 7 && !g.committed }

theorem hubAbort_job (s : State) (j : BitVec 12) : homeCore (hubAbort s j) = homeCore (modJob s j fun b => { b with
    regs := { b.regs with jobStatusState := 5 }, seq := idleSeq b.seq, nextLaunch := none, closing := none, marked := false }) :=
  modHub_homeCore (f := stagedDropped j) rfl rfl rfl

theorem step_of_jobKey {a b : HubJob} (h : jobKey a = jobKey b) : a.step = b.step := congrArg JobKey.step h
theorem nextLaunch_of_jobKey {a b : HubJob} (h : jobKey a = jobKey b) : a.nextLaunch = b.nextLaunch :=
  congrArg JobKey.nextLaunch h
theorem state_of_jobKey {a b : HubJob} (h : jobKey a = jobKey b) : a.regs.jobStatusState = b.regs.jobStatusState :=
  congrArg JobKey.state h

/-- The key of a job that aborts. -/
def JobKey.aborted (k : JobKey) : JobKey := { k with nextLaunch := none, state := 5 }

theorem jobAborted_congr (h : homeCore t = homeCore s) : homeCore (jobAborted t j) = homeCore (jobAborted s j) :=
  modJob_homeCore_congr (congrArg JobKey.aborted (jobKey_of_homeCore h j)) h

theorem hubAbort_homeCore (h : homeCore t = homeCore s) : homeCore (hubAbort t j) = homeCore (jobAborted s j) :=
  (hubAbort_job t j).trans (modJob_homeCore_congr (congrArg JobKey.aborted (jobKey_of_homeCore h j)) h)

/-- The members and the twin told that a job aborts, and the record of its open step. -/
def abortTold (s : State) (j : BitVec 12) (cause : BitVec 3) : State :=
  let b := s.job j
  let s := txnAbortEv s 7 (j.setWidth 13) 0xFFFF 0 (cause.setWidth 8) 0 0 0
  let s := setCause s .hub .txn 2
  let m : Msg := .jobAbort { job := j, epoch := b.regs.jobStatusEpoch, cause := cause }
  incompleteRecord (sendTwin (forwardDown s j (s.memberEps j) m) j.toNat m) j

theorem abortTold_homeCore (s : State) (j : BitVec 12) (cause : BitVec 3) : homeCore (abortTold s j cause) = homeCore s :=
  (incompleteRecord_homeCore ..).trans ((sendTwin_homeCore ..).trans ((forwardDown_homeCore ..).trans
    ((setCause_homeCore ..).trans (txnAbortEv_homeCore ..))))

/-- A job that aborts counts the members and hubs that have to acknowledge it. -/
def jobCounted (hubs members : Nat) (b : HubJob) : HubJob :=
  { b with
    hubsPending := hubs - 1
    regs := { b.regs with
      jobStatusAbortPending := BitVec.ofNat 19 members
      jobStatusAbortDone := decide (members = 0) && decide (hubs ≤ 1) } }

theorem jobKey_jobCounted (hubs members : Nat) (b : HubJob) : jobKey (jobCounted hubs members b) = jobKey b := rfl

def abortCounted (s : State) (j : BitVec 12) : State :=
  modJob s j (jobCounted (dedup (s.span j)).length ((s.memberEps j).filter fun e => !s.isFenced j e).length)

/-- The transactions of a job that have not ended, beside its end. -/
def openTxns (s : State) (j : BitVec 12) : List (BitVec 16) :=
  s.hub.queue.filter fun t => (s.txn t).regs.txnStatusPartition == j.setWidth 13 && (s.txn t).regs.txnStatusKind != 7 &&
    decide ((s.txn t).regs.txnStatusPhase.toNat ≤ 2)

/-- The hub as it ends a job, before the transactions of the job abort. -/
def jobHalted (s : State) (j : BitVec 12) (cause : BitVec 3) : State := abortCounted (hubAbort (abortTold s j cause) j) j

/-- What is left of the end of a job once its members are told. -/
theorem abortEnded_eq (u : State) (j : BitVec 12) :
    (let s := hubAbort u j
     let n := ((s.memberEps j).filter fun e => !s.isFenced j e).length
     let s := modJob s j fun b => { b with
       hubsPending := (dedup (s.span j)).length - 1
       regs := { b.regs with
         jobStatusAbortPending := BitVec.ofNat 19 n
         jobStatusAbortDone := decide (n = 0) && decide ((dedup (s.span j)).length ≤ 1) } }
     (s.hub.queue.filter fun t =>
         let r := (s.txn t).regs
         r.txnStatusPartition == j.setWidth 13 && r.txnStatusKind != 7 && decide (r.txnStatusPhase.toNat ≤ 2)).foldl
       (fun s t => txnAbort s t 5 0) s) =
    (openTxns (abortCounted (hubAbort u j) j) j).foldl (fun s t => txnAbort s t 5 0) (abortCounted (hubAbort u j) j) := rfl

theorem abortJob_eq {cause : BitVec 3} (hlead : s.isLead j = true) (h5 : (s.job j).regs.jobStatusState ≠ 5)
    (h6 : (s.job j).regs.jobStatusState ≠ 6) : abortJob s j cause =
      (openTxns (jobHalted s j cause) j).foldl (fun s t => txnAbort s t 5 0) (jobHalted s j cause) := by
  rw [abortJob]
  dsimp only
  rw [hlead, if_neg (by simp only [Bool.not_true, Bool.false_or, Bool.or_eq_true, beq_iff_eq, not_or]; exact ⟨h5, h6⟩),
    jobHalted, ← abortTold]
  generalize abortTold s j cause = u
  exact abortEnded_eq u j

theorem abortJob_idle {cause : BitVec 3} (h : s.isLead j = false ∨ (s.job j).regs.jobStatusState = 5 ∨
    (s.job j).regs.jobStatusState = 6) : abortJob s j cause = s := by
  rw [abortJob]
  dsimp only
  rw [if_pos]
  rcases h with h | h | h <;> simp [h]

theorem jobHalted_homeCore (s : State) (j : BitVec 12) (cause : BitVec 3) :
    homeCore (jobHalted s j cause) = homeCore (jobAborted s j) :=
  (modJob_homeCore (jobKey_jobCounted ..)).trans (hubAbort_homeCore (abortTold_homeCore ..))

theorem abortJob_homeCore {cause : BitVec 3} (hlead : s.isLead j = true) (h5 : (s.job j).regs.jobStatusState ≠ 5)
    (h6 : (s.job j).regs.jobStatusState ≠ 6) : homeCore (abortJob s j cause) = homeCore (jobAborted s j) := by
  rw [abortJob_eq hlead h5 h6]
  exact (foldl_keeps homeCore (fun _ _ => txnAbort_homeCore ..) _ _).trans (jobHalted_homeCore ..)

theorem abortJob_homeCore_or (s : State) (j : BitVec 12) (cause : BitVec 3) :
    homeCore (abortJob s j cause) = homeCore s ∨ homeCore (abortJob s j cause) = homeCore (jobAborted s j) := by
  by_cases h : s.isLead j = false ∨ (s.job j).regs.jobStatusState = 5 ∨ (s.job j).regs.jobStatusState = 6
  · exact .inl (congrArg homeCore (abortJob_idle h))
  · simp only [not_or, Bool.not_eq_false] at h
    obtain ⟨hlead, h5, h6⟩ := h
    exact .inr (abortJob_homeCore hlead h5 h6)

end

end Sys2Proof.Machine
end

section
/-! O20: launches on the TSU and at the home, and missed launches. -/

namespace Sys2Proof.Machine

section

set_option Elab.async false

variable {s : State}

/-! ## A launch that is held: its pulses and its taps (R251, R260) -/

/-- What the pulses and the taps of a launch change: the triggers, the taps, and the TSU's count of wire refusals. -/
def heldMask : Mask where
  take s t := report t { s with tsu := { s.tsu with
    trigs := t.tsu.trigs, tapPage := t.tsu.tapPage, taps := t.tsu.taps, lid := t.tsu.lid
    sh := { s.tsu.sh with tb := t.tsu.sh.tb } } }
  take_take _ _ _ := rfl
  take_report _ _ := rfl

theorem tapLaunchMiss_reported {t : State} (h : Reported s t) (sub : BitVec 16) (k : BitVec 7) (x : TapLaunch) :
    Reported s (tapLaunchMiss t sub k x) := raise_reported h ..

theorem tapLaunchMiss_hub (s : State) (sub : BitVec 16) (k : BitVec 7) (x : TapLaunch) :
    (tapLaunchMiss s sub k x).hub = s.hub := raise_tsu_hub ..

theorem sendFrame_reported (s : State) (f : BitVec 128) : Reported s (sendFrame s f) :=
  ite_reported ((Reported.refl s).emit _) (Reported.refl s)

theorem sendFrame_hub (s : State) (f : BitVec 128) : (sendFrame s f).hub = s.hub := ite_keeps State.hub rfl rfl

theorem sendLaunch_heldMask (s : State) (k : BitVec 7) (x : TapLaunch) : heldMask.Frame s (sendLaunch s k x) := by
  have hset : heldMask.Frame (sendFrame s (launchFrame k x)) (sendLaunch s k x) := rfl
  exact ((sendFrame_reported s (launchFrame k x)).frame heldMask).trans hset

theorem launchUnsent_heldMask (s : State) (k : BitVec 7) (x : TapLaunch) : heldMask.Frame s (launchUnsent s k x) := by
  have hcount : heldMask.Frame s (modTsu s fun h => { h with tapPage := { h.tapPage with
    tapQfullMissed := satInc h.tapPage.tapQfullMissed } }) := rfl
  exact hcount.reported (tapLaunchMiss_reported (.refl _) ..)

theorem launchTap_heldMask (x : TapLaunch) (s : State) (k : BitVec 7) : heldMask.Frame s (launchTap x s k) := by
  unfold launchTap
  dsimp only
  refine Mask.Frame.ite (.refl ..) (Mask.Frame.ite (.refl ..) (Mask.Frame.ite (sendLaunch_heldMask ..)
    (Mask.Frame.ite ?_ (launchUnsent_heldMask ..))))
  exact rfl

theorem launchTap_hub (x : TapLaunch) (s : State) (k : BitVec 7) : (launchTap x s k).hub = s.hub := by
  unfold launchTap
  dsimp only
  exact ite_keeps State.hub rfl (ite_keeps State.hub rfl (ite_keeps State.hub (sendFrame_hub s _)
    (ite_keeps State.hub rfl (tapLaunchMiss_hub ..))))

theorem launchTaps_heldMask (s : State) (target : Tick) : heldMask.Frame s (launchTaps s target) := by
  have hlid : heldMask.Frame s (modTsu s fun t => { t with lid := s.tsu.lid + 1 }) := rfl
  exact Mask.Frame.foldl (fun v k => launchTap_heldMask _ v k) hlid _

theorem launchTaps_hub (s : State) (target : Tick) : (launchTaps s target).hub = s.hub :=
  foldl_keeps State.hub (fun t k => launchTap_hub _ t k) _ _

theorem schedTest_heldMask (s : State) (target : Tick) : heldMask.Frame s (schedTest s .tsu target).2 := by
  rw [schedTest]
  split
  · rfl
  · split <;> rfl

theorem schedTest_hub (s : State) (target : Tick) : (schedTest s .tsu target).2.hub = s.hub := by
  rw [schedTest]
  split
  · rfl
  · split <;> rfl

/-- One trigger as the pulses of a launch are scheduled. -/
def schedStepPulse (launch : Tick) (step : BitVec 64) (s : State) (n : BitVec 4) : State :=
  if (s.trig n).regs.trigMode == 1 && step.toNat % ((s.trig n).regs.trigModeDiv.toNat + 1) == 0 then
    match schedTest s .tsu (launch + (s.trig n).regs.trigOffset.setWidth 64) with
    | (true, u) => addPulse u n (.step launch) (launch + (s.trig n).regs.trigOffset.setWidth 64)
    | (false, u) => dropPulse u n
  else s

theorem schedStepPulse_heldMask (launch : Tick) (step : BitVec 64) (s : State) (n : BitVec 4) :
    heldMask.Frame s (schedStepPulse launch step s n) := by
  rw [schedStepPulse]
  refine Mask.Frame.ite ?_ (.refl ..)
  have h := schedTest_heldMask s (launch + (s.trig n).regs.trigOffset.setWidth 64)
  split
  · next t heq => rw [heq] at h; exact h.trans rfl
  · next t heq => rw [heq] at h; exact h.trans rfl

theorem schedStepPulse_hub (launch : Tick) (step : BitVec 64) (s : State) (n : BitVec 4) :
    (schedStepPulse launch step s n).hub = s.hub := by
  rw [schedStepPulse]
  refine ite_keeps State.hub ?_ rfl
  have h := schedTest_hub s (launch + (s.trig n).regs.trigOffset.setWidth 64)
  split
  · next t heq => rw [heq] at h; exact h
  · next t heq => rw [heq] at h; exact h

theorem schedStepPulses_eq (s : State) (launch : Tick) (step : BitVec 64) :
    schedStepPulses s launch step = trigIds.foldl (schedStepPulse launch step) s := by
  rw [schedStepPulses]
  exact congrArg (fun f => trigIds.foldl f s) (funext fun t => funext fun n => rfl)

theorem schedStepPulses_heldMask (s : State) (launch : Tick) (step : BitVec 64) :
    heldMask.Frame s (schedStepPulses s launch step) := by
  rw [schedStepPulses_eq]
  exact Mask.Frame.foldl (schedStepPulse_heldMask launch step) (.refl ..) _

theorem schedStepPulses_hub (s : State) (launch : Tick) (step : BitVec 64) : (schedStepPulses s launch step).hub = s.hub := by
  rw [schedStepPulses_eq]
  exact foldl_keeps State.hub (schedStepPulse_hub launch step) _ _

/-- The TSU as it holds a launch that is not the first. -/
def launchHeld (s : State) (h : HeldLaunch) : State :=
  modTsu s fun t => { t with launch := some h, step := { t.step with stepNext := h.tick, stepStatusNextValid := true } }

theorem holdLaunch_next {h : HeldLaunch} (hfirst : h.first = false) :
    holdLaunch s h = schedStepPulses (launchTaps (launchHeld s h) h.tick) h.tick h.step := by
  rw [holdLaunch, hfirst]
  rfl

theorem holdLaunch_heldMask {h : HeldLaunch} (hfirst : h.first = false) : heldMask.Frame (launchHeld s h) (holdLaunch s h) := by
  rw [holdLaunch_next hfirst]
  exact (launchTaps_heldMask ..).trans (schedStepPulses_heldMask ..)

theorem holdLaunch_hub {h : HeldLaunch} (hfirst : h.first = false) : (holdLaunch s h).hub = s.hub := by
  rw [holdLaunch_next hfirst, schedStepPulses_hub, launchTaps_hub]
  rfl

/-! ## The first STEP_RELEASE of the next step (R251, R260) -/

theorem schedWire_inWindow {p : Part} {w : BitVec 32} {x : Tick} (hvalid : s.valid p = true)
    (hext : extendWire w (s.now p) = some x) (hin : tickTest x (s.now p) = .inWindow) : schedWire s p w = (some x, s) := by
  rw [schedWire, hvalid, hext]
  simp only [Bool.not_true, Bool.false_eq_true, if_false, hin]

/-- The TSU with the release of a step as it keeps it. -/
def relKept (m : StepReleaseP) (s : State) : State :=
  modTsu s fun t => { t with
    rel := some m
    step := { t.step with stepStatusLate := m.late, stepStatusRebased := m.rebased, stepStatusLagNs := m.lag } }

theorem relFirst_holds {m : StepReleaseP} {x : Tick} (step : BitVec 64) (hvalid : s.valid .tsu = true)
    (hext : extendWire m.tick (s.now .tsu) = some x) (hin : tickTest x (s.now .tsu) = .inWindow) (hguard : inGuard s x = true) :
    relFirst m step s = holdLaunch (relKept m s) { tick := x, step := step } := by
  have hsched : schedWire (relKept m s) .tsu m.tick = (some x, relKept m s) := schedWire_inWindow hvalid hext hin
  have hguard' : inGuard (relKept m s) x = true := hguard
  show (match schedWire (relKept m s) .tsu m.tick with
    | (some t, s) => if inGuard s t then holdLaunch s { tick := t, step := step } else launchMiss s step t 1
    | (none, s) => launchMiss s step ((extendWire m.tick (s.now .tsu)).getD 0) 1) = _
  rw [hsched]
  exact if_pos hguard'

theorem stepReleaseTake_first {m : StepReleaseP} {st : BitVec 64} (hruns : TsuRuns s m.job m.epoch)
    (hstep : extendStep m.step s.tsu.step.stepNow = some st) (hnext : st = s.tsu.step.stepNow + 1)
    (hnew : (s.tsu.rel.filter fun f => f.step == m.step) = none) : stepReleaseTake m s = relFirst m st s := by
  have hstate : ¬ (s.tsu.txnt.ttJobState == 5) = true := fun h => by
    have hlt := hruns.2.1
    rw [eq_of_beq h] at hlt
    exact absurd hlt (by decide)
  rw [stepReleaseTake]
  dsimp only
  rw [hruns.not_drains, if_neg Bool.false_ne_true, if_neg hstate, hruns.jobOk]
  dsimp only
  rw [hstep]
  dsimp only
  rw [hnew]
  exact if_neg (not_not_intro hnext)

theorem stepRelease_held {l : LinkId} {m : StepReleaseP} {x : Tick} (hl : l.part = .tsu) (hvalid : s.valid .tsu = true)
    (hruns : TsuRuns s m.job m.epoch) (hstep : extendStep m.step s.tsu.step.stepNow = some (s.tsu.step.stepNow + 1))
    (hnew : (s.tsu.rel.filter fun f => f.step == m.step) = none) (hext : extendWire m.tick (s.now .tsu) = some x)
    (hin : tickTest x (s.now .tsu) = .inWindow) (hguard : inGuard s x = true) :
    ∃ u t, Reported s u ∧ u.hub = s.hub ∧ exec (.stepReleaseReceive l m) s = .next t ∧ t.hub = s.hub ∧
      heldMask.Frame (launchHeld (relKept m u) { tick := x, step := s.tsu.step.stepNow + 1 }) t := by
  have htaken := taken_reported_self s l (.stepRelease m)
  obtain ⟨r, hr⟩ := htaken.exists_report
  have hexec : exec (.stepReleaseReceive l m) s =
      .next (holdLaunch (relKept m (taken s l (.stepRelease m))) { tick := x, step := s.tsu.step.stepNow + 1 }) := by
    show execStepReleaseReceive .. = _
    rw [execStepReleaseReceive, if_pos (by rw [hr]; exact hvalid), stepReleaseTake_first (htaken.tsuRuns hruns)
      (by rw [hr]; exact hstep)
        (by rw [hr]; rfl) (by rw [hr]; exact hnew),
      relFirst_holds _ (by rw [hr]; exact hvalid) (by rw [hr]; exact hext) (by rw [hr]; exact hin) (by rw [hr]; exact hguard)]
  exact ⟨_, _, htaken, taken_hub hl _, hexec, (holdLaunch_hub rfl).trans (taken_hub hl _), holdLaunch_heldMask rfl⟩

/-! ## A launch at its tick (R261, R286, R294) -/

theorem launchDue_reported (s : State) (target : Tick) : Reported s (launchDue s target) := by
  exact foldl_reported (fun u k hu => ite_reported (tapLaunchMiss_reported hu ..) hu) (.refl s)

theorem freeStore_reported (s : State) : Reported (modTsu s fun t => { t with store := [] }) (freeStore s) :=
  foldl_reported (fun _ h hu => returnCredit_reported hu h.via .result 1) (.refl _)

/-- The TSU as it takes the step of a launch, before its sequencer starts. -/
def launchTaken (h : HeldLaunch) (s : State) : State :=
  modTsu s fun t => { t with
    launch := none, rel := if h.first then none else t.rel, ovf := [], badCopies := [], joined := false, missed := none
    launched := true, step := { t.step with stepNow := h.step, stepLast := h.tick, stepStatusNextValid := false } }

/-- A launch that is not the first keeps the release that named it. -/
def nextTaken (h : HeldLaunch) (s : State) : State :=
  modTsu s fun t => { t with
    launch := none, ovf := [], badCopies := [], joined := false, missed := none
    launched := true, step := { t.step with stepNow := h.step, stepLast := h.tick, stepStatusNextValid := false } }

theorem launchTaken_next {h : HeldLaunch} (hfirst : h.first = false) (s : State) : launchTaken h s = nextTaken h s := by
  rw [launchTaken, hfirst]
  rfl

theorem launchStep_idle (h : HeldLaunch) (hidle : s.tsu.seq.regs.seqStatusState = 0) :
    ∃ r, launchStep s h = tsuPass (report r (launchTaken h (modTsu s fun t => { t with store := [] }))) h.step h.tick := by
  obtain ⟨r₁, h₁⟩ := (launchDue_reported s h.tick).exists_report
  obtain ⟨r₂, h₂⟩ := (freeStore_reported (launchDue s h.tick)).exists_report
  obtain ⟨r₃, h₃⟩ := (setCause_reported (.refl (launchTaken h (freeStore (launchDue s h.tick)))) .tsu .step 0).exists_report
  refine ⟨r₃, ?_⟩
  have hstate : (setCause (launchTaken h (freeStore (launchDue s h.tick))) .tsu .step 0).tsu.seq.regs.seqStatusState = 0 := by
    rw [h₃, h₂, h₁]
    exact hidle
  show (if (setCause (launchTaken h (freeStore (launchDue s h.tick))) .tsu .step 0).tsu.seq.regs.seqStatusState = 0 then
    tsuPass (setCause (launchTaken h (freeStore (launchDue s h.tick))) .tsu .step 0) h.step h.tick else _) = _
  rw [if_pos hstate, h₃, h₂, h₁]
  rfl

theorem launchDueNow_first {first : Bool} {h : HeldLaunch} (hdue : launchDueNow s first = some h) : h.first = first := by
  unfold launchDueNow at hdue
  split at hdue
  · split at hdue
    · next hc =>
      injection hdue with heq
      simp only [Bool.and_eq_true, beq_iff_eq] at hc
      rw [← heq]
      exact hc.1.1
    · cases hdue
  · cases hdue

theorem exec_stepLaunch_due {h : HeldLaunch} (hdue : launchDueNow s false = some h) :
    exec .stepLaunch s = .next (launchStep s h) := by
  show execStepLaunch s = _
  rw [execStepLaunch, hdue]

theorem exec_jobLaunch_tsu {h : HeldLaunch} (hdue : launchDueNow s true = some h) :
    exec (.jobLaunch .tsu) s = .next (launchStep s h) := by
  show execJobLaunch .tsu s = _
  simp only [execJobLaunch, hdue]

theorem exec_jobLaunch_home {j : BitVec 12} {h : HeldLaunch} (hdue : homeDueNow s j true = some h) :
    exec (.jobLaunch (.home j)) s = .next (homeLaunch s j h) := by
  show execJobLaunch (.home j) s = _
  simp only [execJobLaunch, hdue]

theorem exec_homePassStart_due {j : BitVec 12} {h : HeldLaunch} (hdue : homeDueNow s j false = some h) :
    exec (.homePassStart j) s = .next (homeLaunch s j h) := by
  show execHomePassStart .. = _
  rw [execHomePassStart, hdue]

/-! ## A launch that is missed (R252) -/

/-- The TSU with a launch more that it missed. -/
def missCounted (s : State) : State :=
  modTsu s fun t => { t with step := { t.step with stepErrLaunchMiss := satInc t.step.stepErrLaunchMiss } }

theorem missCounted_reported {t : State} (h : Reported s t) : Reported (missCounted s) (missCounted t) := by
  obtain ⟨r, hr⟩ := h.exists_report
  rw [hr]
  rfl

theorem launchMiss_eq (s : State) (step : BitVec 64) (target : Tick) (cause : BitVec 16) : launchMiss s step target cause =
    tsuReport (setCause (missCounted (raise s .tsu { tsuEv s 0x0003 cause 2 [(64, target.toNat)] with step := step }))
      .tsu .step 1) 0 (cause.setWidth 8) := rfl

theorem launchMiss_reported (s : State) (step : BitVec 64) (target : Tick) (cause : BitVec 16) :
    Reported (missCounted s) (launchMiss s step target cause) := by
  rw [launchMiss_eq]
  exact tsuReport_reported (setCause_reported (missCounted_reported (raise_reported (.refl s) ..)) ..) ..

theorem launchMiss_hub (s : State) (step : BitVec 64) (target : Tick) (cause : BitVec 16) :
    (launchMiss s step target cause).hub = s.hub := by
  rw [launchMiss_eq, tsuReport_hub, setCause_tsu_hub]
  exact raise_tsu_hub ..

theorem launchMiss_shows (s : State) (step : BitVec 64) (target : Tick) (cause : BitVec 16) :
    Shows .tsu .step 1 (launchMiss s step target cause) := by
  rw [launchMiss_eq]
  exact (shows_setCause (by decide) (by decide) _).sendLink ..

theorem stagedAt_setStaged_tsu (s : State) (part : BitVec 13) : (setStaged s .tsu part none).stagedAt .tsu part = none := by
  show tget none (tset none s.tsu.staged part.toNat none) part.toNat = none
  exact tget_tset_same _

theorem exec_launchGuardMiss_missed {g : Staged} {a : LaunchAct}
    (hstaged : s.stagedAt .tsu (s.tsu.txnt.ttJob.setWidth 13) = some g) (hkind : g.kind = 2) (hopen : g.committed = false)
    (hact : launchAct g.share = some a) (hlate : inGuard s a.l0 = false) :
    exec .launchGuardMiss s =
      .next (launchMiss (setStaged s .tsu (s.tsu.txnt.ttJob.setWidth 13) none) a.first a.l0 0) := by
  show execLaunchGuardMiss s = _
  simp only [execLaunchGuardMiss, hstaged, hkind, hopen, hact, hlate, beq_self_eq_true, Bool.not_false, Bool.and_self, if_true,
    Bool.false_eq_true, if_false]

theorem launchGuardMiss_missed {g : Staged} {a : LaunchAct}
    (hstaged : s.stagedAt .tsu (s.tsu.txnt.ttJob.setWidth 13) = some g) (hkind : g.kind = 2) (hopen : g.committed = false)
    (hact : launchAct g.share = some a) (hlate : inGuard s a.l0 = false) :
    ∃ t, exec .launchGuardMiss s = .next t ∧
      t.stagedAt .tsu (s.tsu.txnt.ttJob.setWidth 13) = none ∧
      t.tsu.step.stepErrLaunchMiss = satInc s.tsu.step.stepErrLaunchMiss ∧
      (t.hdr .tsu .step).pageIntStatus.getLsbD 1 = true ∧ t.hub = s.hub ∧
      Reported { s with
        hub := { s.hub with staged := t.hub.staged }, tsu := { s.tsu with step := t.tsu.step, staged := t.tsu.staged } } t := by
  have hexec := exec_launchGuardMiss_missed hstaged hkind hopen hact hlate
  have hhub := launchMiss_hub (setStaged s .tsu (s.tsu.txnt.ttJob.setWidth 13) none) a.first a.l0 0
  have hshows := launchMiss_shows (setStaged s .tsu (s.tsu.txnt.ttJob.setWidth 13) none) a.first a.l0 0
  obtain ⟨r, hr⟩ := (launchMiss_reported (setStaged s .tsu (s.tsu.txnt.ttJob.setWidth 13) none) a.first a.l0 0).exists_report
  generalize launchMiss (setStaged s .tsu (s.tsu.txnt.ttJob.setWidth 13) none) a.first a.l0 0 = t at *
  have hgone : t.stagedAt .tsu (s.tsu.txnt.ttJob.setWidth 13) = none := by
    rw [hr]
    exact stagedAt_setStaged_tsu s _
  have hcount : t.tsu.step.stepErrLaunchMiss = satInc s.tsu.step.stepErrLaunchMiss := by
    rw [hr]
    rfl
  refine ⟨t, hexec, hgone, hcount, hshows, hhub, ?_⟩
  rw [hr]
  rfl

/-! ## The home launches (R261, R286) -/

/-- What a launch at the home changes is its jobs. -/
def jobsMask : Mask where
  take s t := report t { s with hub := { s.hub with jobs := t.hub.jobs } }
  take_take _ _ _ := rfl
  take_report _ _ := rfl

variable {j : BitVec 12}

/-- The home's job as it takes the step of a launch. -/
def stepTaken (h : HeldLaunch) (b : HubJob) : HubJob :=
  { b with
    step := h.step, nextLaunch := none
    kept := b.kept.filter fun k => decide (h.step.toNat < k.1.toNat + 2)
    rresDue := b.rresDue.filter fun k => decide (h.step.toNat < k.1.toNat + 2)
    rresIn := b.rresIn.filter fun m => decide (0 ≤ signedDiff (m.step + 1) (h.step.setWidth 24))
    refused := b.refused.filter fun k => decide (h.step.toNat ≤ k.2.toNat + 1) }

/-- The home with the step of a launch taken, before its engine starts. -/
def stepEntered (s : State) (j : BitVec 12) (h : HeldLaunch) : State := envLaunch (modJob s j (stepTaken h)) j h.step

theorem homeLaunch_eq (s : State) (j : BitVec 12) (h : HeldLaunch) :
    homeLaunch s j h = homePass (stepEntered s j h) j h.step h.tick := rfl

theorem envEvent_homeCore (s : State) (j : BitVec 12) (step mask basis old new) :
    homeCore (envEvent s j step mask basis old new) = homeCore s :=
  (setCause_homeCore ..).trans ((modJob_homeCore rfl).trans (raise_homeCore ..))

theorem envLaunch_homeCore (s : State) (j : BitVec 12) (step : BitVec 64) : homeCore (envLaunch s j step) = homeCore s :=
  ite_keeps homeCore ((envEvent_homeCore ..).trans (modJob_homeCore rfl)) (modJob_homeCore rfl)

theorem modJob_jobsMask (s : State) (j : BitVec 12) (f : HubJob → HubJob) : jobsMask.Frame s (modJob s j f) := rfl

theorem modJob_seq {f : HubJob → HubJob} (hf : ∀ b, (f b).seq = b.seq) : ((modJob s j f).job j).seq = (s.job j).seq := by
  rw [job_modJob, hf]

theorem envEvent_jobsMask (s : State) (j : BitVec 12) (step mask basis old new) :
    jobsMask.Frame s (envEvent s j step mask basis old new) := by
  refine Mask.Frame.reported ?_ (setCause_reported (.refl _) ..)
  exact ((raise_reported (.refl s) ..).frame jobsMask).trans rfl

theorem envLaunch_jobsMask (s : State) (j : BitVec 12) (step : BitVec 64) : jobsMask.Frame s (envLaunch s j step) := by
  exact Mask.Frame.ite ((modJob_jobsMask ..).trans (envEvent_jobsMask ..)) (modJob_jobsMask ..)

theorem envEvent_seq (s : State) (j : BitVec 12) (step mask basis old new) :
    ((envEvent s j step mask basis old new).job j).seq = (s.job j).seq := by
  rw [envEvent, (setCause_reported (.refl _) ..).job, job_modJob, (raise_reported (.refl s) ..).job]

theorem envLaunch_seq (s : State) (j : BitVec 12) (step : BitVec 64) : ((envLaunch s j step).job j).seq = (s.job j).seq := by
  refine ite_keeps (fun u : State => (u.job j).seq) ((envEvent_seq ..).trans ?_) ?_ <;> exact modJob_seq fun _ => rfl

/-- The engine of the home as a pass starts. -/
def passStarted (step : BitVec 64) (launch : Tick) (b : HubJob) : HubJob :=
  { b with seq := startPass b.seq step launch, closed := false, closing := none, twinClose := none }

theorem homePass_start (step : BitVec 64) (launch : Tick) (hloaded : (s.job j).seq.loaded = true)
    (hlen : (s.job j).seq.len (.home j) ≠ 0) (hidle : (s.job j).seq.regs.seqStatusState = 0) :
    homePass s j step launch = modJob s j (passStarted step launch) := by
  rw [homePass]
  dsimp only
  rw [hloaded, if_neg (by simpa using hlen), if_pos hidle]
  rfl

/-- The engine of a pass that is to start while another runs. -/
def passNext (step : BitVec 64) (launch : Tick) (b : HubJob) : HubJob :=
  { b with seq := { b.seq with next := some (step, launch) } }

/-- The engine as it halts. -/
def seqHalted (cause : BitVec 3) (addr : BitVec 14) (q : Seq) : Seq :=
  { q with
    wait := none
    regs := { q.regs with seqStatusState := 3, seqStatusHaltCause := cause, seqStatusHaltPc := addr
                          seqErrHalts := satInc q.regs.seqErrHalts } }

theorem halt_home (s : State) (j : BitVec 12) (cause : BitVec 3) (addr : BitVec 14) : halt s (.home j) cause addr =
    abortJob (seqCause (modSeq s (.home j) (seqHalted cause addr)) (.home j) 2) j 2 := rfl

theorem modSeq_homeCore (s : State) (j : BitVec 12) (f : Seq → Seq) : homeCore (modSeq s (.home j) f) = homeCore s :=
  modJob_homeCore rfl

theorem seqHalted_homeCore (s : State) (j : BitVec 12) (f : Seq → Seq) (b : Nat) :
    homeCore (seqCause (modSeq s (.home j) f) (.home j) b) = homeCore s :=
  (setCause_homeCore ..).trans (modSeq_homeCore ..)

/-- A home's engine that is still busy with two passes: it halts. -/
def busyHalted (s : State) (j : BitVec 12) : State :=
  halt (seqCause (modSeqRegs s (.home j) fun r => { r with seqErrBusyLaunch := satInc r.seqErrBusyLaunch }) (.home j) 3)
    (.home j) 5 (s.job j).seq.busyAt

theorem homePass_eq (s : State) (j : BitVec 12) (step : BitVec 64) (launch : Tick) : homePass s j step launch =
    if !(s.job j).seq.loaded || (s.job j).seq.len (.home j) == 0 then s
    else if (s.job j).seq.regs.seqStatusState = 0 then modJob s j (passStarted step launch)
    else if !(s.job j).seq.running then s
    else match (s.job j).seq.next with
      | none => modJob s j (passNext step launch)
      | some _ => busyHalted s j := rfl

theorem busyHalted_homeCore (s : State) (j : BitVec 12) :
    homeCore (busyHalted s j) = homeCore s ∨ homeCore (busyHalted s j) = homeCore (jobAborted s j) := by
  rw [busyHalted, halt_home]
  refine (abortJob_homeCore_or ..).imp (fun h => h.trans ?_) fun h => h.trans (jobAborted_congr ?_) <;>
    exact ((seqHalted_homeCore ..).trans (seqHalted_homeCore ..))

theorem homePass_homeCore (s : State) (j : BitVec 12) (step : BitVec 64) (launch : Tick) :
    homeCore (homePass s j step launch) = homeCore s ∨ homeCore (homePass s j step launch) = homeCore (jobAborted s j) := by
  rw [homePass_eq]
  split
  · exact .inl rfl
  split
  · exact .inl ((modJob_homeCore rfl))
  split
  · exact .inl rfl
  split
  · exact .inl ((modJob_homeCore rfl))
  · exact busyHalted_homeCore s j

theorem homePass_jobsMask (step : BitVec 64) (launch : Tick) (hrun : (s.job j).seq.running = false) :
    jobsMask.Frame s (homePass s j step launch) := by
  rw [homePass_eq, hrun, Bool.not_false, if_pos rfl]
  exact .ite (.refl ..) (.ite (modJob_jobsMask ..) (.refl ..))

theorem stepEntered_homeCore (s : State) (j : BitVec 12) (h : HeldLaunch) :
    homeCore (stepEntered s j h) = homeCore (modJob s j (stepTaken h)) := envLaunch_homeCore ..

theorem stepEntered_seq (s : State) (j : BitVec 12) (h : HeldLaunch) : ((stepEntered s j h).job j).seq = (s.job j).seq :=
  (envLaunch_seq ..).trans (modJob_seq fun _ => rfl)

/-- A launch at the home leaves the TSU and the hub's time. -/
theorem homeLaunch_tsu_tb (s : State) (j : BitVec 12) (h : HeldLaunch) :
    (homeLaunch s j h).tsu = s.tsu ∧ (homeLaunch s j h).hub.sh.tb = s.hub.sh.tb := by
  have hentered := (stepEntered_homeCore s j h)
  have hkept : ∀ {u v : State}, homeCore u = homeCore v → u.tsu = v.tsu ∧ u.hub.sh.tb = v.hub.sh.tb := fun h =>
    ⟨congrArg HomeCore.tsu h, congrArg HomeCore.tb h⟩
  rw [homeLaunch_eq]
  rcases homePass_homeCore (stepEntered s j h) j h.step h.tick with hpass | hpass
  · have h := hkept (hpass.trans hentered)
    exact h
  · have h := hkept (hpass.trans (jobAborted_congr hentered))
    exact h

/-- The job that launches is at the step, and holds no launch. -/
theorem homeLaunch_key (s : State) (j : BitVec 12) (h : HeldLaunch) :
    ((homeLaunch s j h).job j).step = h.step ∧ ((homeLaunch s j h).job j).nextLaunch = none := by
  have hentered := (stepEntered_homeCore s j h)
  have htaken : (modJob s j (stepTaken h)).job j = stepTaken h (s.job j) := job_modJob ..
  rw [homeLaunch_eq]
  rcases homePass_homeCore (stepEntered s j h) j h.step h.tick with hpass | hpass
  · have hkey := jobKey_of_homeCore (hpass.trans hentered) j
    rw [htaken] at hkey
    exact ⟨step_of_jobKey hkey, nextLaunch_of_jobKey hkey⟩
  · have hkey := jobKey_of_homeCore (hpass.trans (jobAborted_congr hentered)) j
    rw [jobAborted, job_modJob, htaken] at hkey
    exact ⟨step_of_jobKey hkey, nextLaunch_of_jobKey hkey⟩

/-- A launch at the home leaves the keys of the other jobs. -/
theorem homeLaunch_key_ne {k : BitVec 12} (hk : k ≠ j) (h : HeldLaunch) :
    jobKey ((homeLaunch s j h).job k) = jobKey (s.job k) := by
  have hentered := (stepEntered_homeCore s j h)
  rw [homeLaunch_eq]
  rcases homePass_homeCore (stepEntered s j h) j h.step h.tick with hpass | hpass
  · rw [jobKey_of_homeCore (hpass.trans hentered) k, job_modJob_ne hk]
  · rw [jobKey_of_homeCore (hpass.trans (jobAborted_congr hentered)) k, jobAborted, job_modJob_ne hk, job_modJob_ne hk]

theorem homeLaunch_jobsMask (h : HeldLaunch) (hrun : (s.job j).seq.running = false) : jobsMask.Frame s (homeLaunch s j h) := by
  have hentered : jobsMask.Frame s (stepEntered s j h) := (modJob_jobsMask ..).trans (envLaunch_jobsMask ..)
  rw [homeLaunch_eq]
  exact hentered.trans (homePass_jobsMask _ _ (by rwa [stepEntered_seq]))

/-- The job that launches with its engine idle starts a pass. -/
theorem homeLaunch_start (h : HeldLaunch) (hloaded : (s.job j).seq.loaded = true) (hlen : (s.job j).seq.len (.home j) ≠ 0)
    (hidle : (s.job j).seq.regs.seqStatusState = 0) :
    homeLaunch s j h = modJob (stepEntered s j h) j (passStarted h.step h.tick) := by
  have hseq := stepEntered_seq s j h
  rw [homeLaunch_eq]
  exact homePass_start _ _ (by rw [hseq, hloaded]) (by rwa [hseq]) (by rw [hseq, hidle])

end

/-- Settles O20, from one lemma for each way a launch is held, taken or missed. -/
theorem launches : Obligations.Launches := by
  unfold Obligations.Launches
  refine ⟨?_, ?_, ?_, ?_, ?_, ?_⟩
  · intro l m x s hl hvalid hruns hstep hnew hext hin hguard
    obtain ⟨u, t, hu, huhub, hexec, hhub, hheld⟩ := stepRelease_held hl hvalid hruns hstep hnew hext hin hguard
    obtain ⟨r, hr⟩ := hu.exists_report
    unfold Mask.Frame at hheld
    have hstep : t.tsu.step = (launchHeld (relKept m u) { tick := x, step := s.tsu.step.stepNow + 1 }).tsu.step := by
      rw [hheld]
      rfl
    refine ⟨t, hexec, ?_, ?_, ?_, ?_, ?_, ?_, ?_, ?_, hhub, ?_⟩
    · rw [hheld]; rfl
    · rw [hheld]; rfl
    · rw [hstep]; rfl
    · rw [hstep]; rfl
    · rw [hstep]; rfl
    · rw [hstep]; rfl
    · rw [hstep]; rfl
    · rw [hstep, hr]; rfl
    · rw [hheld, hr]; rfl
  · intro h s hdue hidle
    obtain ⟨r, hr⟩ := launchStep_idle h hidle
    rw [launchTaken_next (launchDueNow_first hdue)] at hr
    refine ⟨_, exec_stepLaunch_due hdue, ?_, ?_, ?_, ?_, ?_, ?_, ?_, ?_, ?_, ?_, ?_, ?_⟩ <;> rw [hr] <;> rfl
  · intro h s hdue hidle
    obtain ⟨r, hr⟩ := launchStep_idle h hidle
    have hrel : (launchStep s h).tsu.rel = none := by
      rw [hr]
      exact if_pos (launchDueNow_first hdue)
    refine ⟨_, exec_jobLaunch_tsu hdue, ?_, ?_, ?_, hrel, ?_, ?_, ?_, ?_, ?_⟩ <;> rw [hr] <;> rfl
  · intro j h s hdue
    obtain ⟨hstep, hnext⟩ := homeLaunch_key s j h
    exact ⟨_, exec_jobLaunch_home hdue, hstep, hnext, (homeLaunch_tsu_tb s j h).1, homeLaunch_jobsMask h⟩
  · intro j h s hdue hloaded hlen hidle
    obtain ⟨hstep, hnext⟩ := homeLaunch_key s j h
    have hstart := homeLaunch_start h hloaded hlen hidle
    have hjob : (homeLaunch s j h).job j = passStarted h.step h.tick ((stepEntered s j h).job j) := by
      rw [hstart, job_modJob]
    have hframe := homeLaunch_jobsMask h (s := s) (j := j) (by rw [Seq.running, hidle]; rfl)
    refine ⟨_, exec_homePassStart_due hdue, hstep, hnext, ?_, ?_, ?_, ?_, ?_, ?_, (homeLaunch_tsu_tb s j h).1, hframe⟩ <;>
      rw [hjob] <;> rfl
  · exact fun g a s hstaged hkind hopen hact hlate => launchGuardMiss_missed hstaged hkind hopen hact hlate

end Sys2Proof.Machine
end

section
/-! O44: uncorrectable reads of the on-package memory, and the launches that are due. -/

namespace Sys2Proof.Machine

section

set_option Elab.async false

variable {s t : State} {j : BitVec 12}

/-! ## An uncorrectable read (R523, R524) -/

/-- The pseudo-channel with an uncorrectable read more. -/
def eccCounted (channel : BitVec 6) (addr : BitVec 40) (s : State) : State :=
  modHub s fun h => { h with memc := tmod {} h.memc channel.toNat fun r => { r with
    mcEccUncorrected := satInc r.mcEccUncorrected, mcErrAddr := addr } }

/-- With its interrupt cause. -/
def eccShown (channel : BitVec 6) (addr : BitVec 40) (s : State) : State :=
  setCause (eccCounted channel addr s) .hub (.memc channel) 0

theorem eccShown_reported (channel : BitVec 6) (addr : BitVec 40) (s : State) :
    Reported (eccCounted channel addr s) (eccShown channel addr s) := setCause_reported (.refl _) ..

theorem ring_reported (h : Reported s t) (f : Tbl (BitVec 512) → Tbl (BitVec 512)) :
    Reported s (modHub t fun h => { h with ring := f h.ring }) := h.hub _ fun _ => rfl

theorem eccShown_ring (channel : BitVec 6) (addr : BitVec 40) (s : State) (n : Nat) :
    (modHub (eccShown channel addr s) fun h => { h with ring := tset 0 h.ring n 0 }).hub.ring = tset 0 s.hub.ring n 0 := by
  have hring : (eccShown channel addr s).hub.ring = s.hub.ring := rfl
  dsimp only [modHub]
  rw [hring]

theorem eccShown_shows (channel : BitVec 6) (addr : BitVec 40) (s : State) :
    Shows .hub (.memc channel) 0 (eccShown channel addr s) := by
  have hpage : (Page.memc channel).ordinal .hub ≠ none := Option.some_ne_none (26 + channel.toNat)
  exact shows_setCause hpage (by decide) _

theorem exec_hbmUncorrectableRead_event {channel : BitVec 6} {addr : BitVec 40} {k : BitVec 64}
    (hk : ringOldest s.hub.evh ≤ k.toNat ∧ k.toNat < s.hub.evh.evHead.toNat) :
    exec (.hbmUncorrectableRead channel addr (.event k)) s =
      .next (modHub (eccShown channel addr s) fun h => { h with ring := tset 0 h.ring (k.toNat % ringSize) 0 }) := by
  have hevh : (eccShown channel addr s).hub.evh = s.hub.evh := rfl
  show Host.Outcome.next (if ringOldest (eccShown channel addr s).hub.evh ≤ k.toNat ∧
    k.toNat < (eccShown channel addr s).hub.evh.evHead.toNat then
      modHub (eccShown channel addr s) fun h => { h with ring := tset 0 h.ring (k.toNat % ringSize) 0 }
    else eccShown channel addr s) = _
  rw [hevh, if_pos hk]

theorem exec_hbmUncorrectableRead_jobState (channel : BitVec 6) (addr : BitVec 40) (j : BitVec 12) (s : State) :
    exec (.hbmUncorrectableRead channel addr (.jobState j)) s = .next (eccShown channel addr s) := rfl

/-! ## A step that is poisoned (R394) -/

theorem ladle_homeCore (s : State) (j g : BitVec 12) (m : Msg) : homeCore (ladle s j g m) = homeCore s := by
  unfold ladle
  dsimp only
  refine (foldl_sendLink_homeCore (takeRoutes_links fun r hr l hl => ?_) m _).trans ((modHub_homeCore rfl rfl rfl).trans
    ((foldl_keeps homeCore (fun _ _ => refuse_homeCore ..) _ _).trans (takeRoutes_homeCore ..)))
  obtain ⟨k, hk, rfl⟩ := List.mem_map.1 (List.mem_filter.1 hr).1
  refine ladleLink_hub ?_ hl
  split at hk
  · cases hk
  · exact mem_maskLinks_hub _ k hk

theorem ladleAll_homeCore (s : State) (j : BitVec 12) (m : Msg) : homeCore (ladleAll s j m) = homeCore s := by
  unfold ladleAll ladleObj
  split
  · exact ladle_homeCore ..
  · rfl

theorem bothPlanes_homeCore (s : State) (j : BitVec 12) (m : Msg) : homeCore (bothPlanes s j m) = homeCore s :=
  (sendTwin_homeCore ..).trans (ladleAll_homeCore ..)

theorem isLead_of_homeCore (h : homeCore t = homeCore s) (j : BitVec 12) : t.isLead j = s.isLead j := by
  have hkey := jobKey_of_homeCore h j
  have hlead : (t.job j).lead = (s.job j).lead := congrArg JobKey.lead hkey
  have hother : (t.job j).other = (s.job j).other := congrArg JobKey.other hkey
  have hleads : (t.job j).leads = (s.job j).leads := congrArg JobKey.leads hkey
  have haddr : t.hub.id.hubAddr = s.hub.id.hubAddr := congrArg HomeCore.hubAddr h
  unfold State.isLead State.isHome State.holds
  rw [state_of_jobKey hkey, hlead, hother, hleads, haddr]

/-- A step that is poisoned, told to the members and recorded. -/
def poisonTold (s : State) (j : BitVec 12) (step : BitVec 64) (sub target : BitVec 16) : State :=
  let s := raise s .hub (jobEv s j 0x0012 sub 2 0xFFFFFFFF step [(16, target.toNat)])
  let s := bothPlanes s j (.stepPoison {
    job := j, epoch := (s.job j).regs.jobStatusEpoch, step := step.setWidth 24, target := target })
  audit s j { type := 4, flags := 0, step := step, body := bvBytes 8 step ++ bvBytes 2 target }

theorem poisonTold_homeCore (s : State) (j : BitVec 12) (step : BitVec 64) (sub target : BitVec 16) :
    homeCore (poisonTold s j step sub target) = homeCore s :=
  (audit_homeCore ..).trans ((bothPlanes_homeCore ..).trans (raise_homeCore ..))

theorem poison_lead (step : BitVec 64) (sub target : BitVec 16) (hlead : s.isLead j = true) :
    poison s j step sub target = abortJob (poisonTold s j step sub target) j 3 := by
  rw [poison, hlead, poisonTold]
  exact if_neg (by decide)

/-- A lead that poisons a step of a running job aborts the job. -/
theorem poison_homeCore (step : BitVec 64) (sub target : BitVec 16) (hlead : s.isLead j = true)
    (hruns : (s.job j).regs.jobStatusState = 2) : homeCore (poison s j step sub target) = homeCore (jobAborted s j) := by
  have htold := (poisonTold_homeCore s j step sub target)
  have hstate : ((poisonTold s j step sub target).job j).regs.jobStatusState = 2 :=
    (state_of_jobKey (jobKey_of_homeCore htold j)).trans hruns
  rw [poison_lead step sub target hlead]
  exact (abortJob_homeCore ((isLead_of_homeCore htold j).trans hlead) (by rw [hstate]; decide) (by rw [hstate]; decide)).trans
    (jobAborted_congr htold)

theorem exec_twinFetchTimeout_lead (hlead : s.isLead j = true) :
    exec (.twinFetchTimeout j) s = .next (poison s.fresh.2 j (s.job j).step 1 (Config.fetchTarget s.free)) := by
  have hhome : s.isHome j = true := by
    rw [State.isLead, Bool.and_eq_true] at hlead
    exact hlead.1
  have hlead' : s.fresh.2.isLead j = true := hlead
  show execTwinFetchTimeout j s = _
  rw [execTwinFetchTimeout, hhome]
  dsimp only
  rw [hlead']
  rfl

theorem exec_twinFetchTimeout_other (hhome : s.isHome j = true) (hlead : s.isLead j = false) :
    exec (.twinFetchTimeout j) s = .next (sendTwin s.fresh.2 j.toNat (.stepPoison {
      job := j, epoch := (s.job j).regs.jobStatusEpoch, step := (s.job j).step.setWidth 24
      target := Config.fetchTarget s.free })) := by
  have hlead' : s.fresh.2.isLead j = false := hlead
  show execTwinFetchTimeout j s = _
  rw [execTwinFetchTimeout, hhome]
  dsimp only
  rw [hlead']
  rfl

/-! ## The launches that are due (R261) -/

theorem resolveKept_hub_kept (h : s.hub.sh.tb.resolve = false) : resolveKept s .hub = s := by
  have hresolve : (s.sh .hub).tb.resolve = false := h
  rw [resolveKept, hresolve, Bool.and_false]
  rfl

theorem resolveKept_tsu_kept (h : s.tsu.sh.tb.resolve = false) : resolveKept s .tsu = s := by
  have hresolve : (s.sh .tsu).tb.resolve = false := h
  rw [resolveKept, hresolve, Bool.and_false]
  rfl

theorem homeDueNow_of_key {k : BitVec 12} {first : Bool} (htb : t.hub.sh.tb = s.hub.sh.tb)
    (hkey : jobKey (t.job k) = jobKey (s.job k)) : homeDueNow t k first = homeDueNow s k first := by
  have hsh : (t.sh .hub).tb = (s.sh .hub).tb := htb
  unfold homeDueNow State.acting State.valid State.now
  rw [nextLaunch_of_jobKey hkey, hsh]

theorem homeDueNow_none {k : BitVec 12} (h : (s.job k).nextLaunch = none) (first : Bool) : homeDueNow s k first = none := by
  rw [homeDueNow, h]

theorem fireHome_none {k : BitVec 12} (h : (s.job k).nextLaunch = none) : fireHome s k = s := by
  rw [fireHome, homeDueNow_none h, homeDueNow_none h]
  rfl

theorem fireHome_launches {k : BitVec 12} {h : HeldLaunch} (hfirst : homeDueNow s k true = none)
    (hdue : homeDueNow s k false = some h) : fireHome s k = homeLaunch s k h := by
  rw [fireHome, hfirst, hdue]
  rfl

theorem fireHome_tsu_tb (s : State) (k : BitVec 12) :
    (fireHome s k).tsu = s.tsu ∧ (fireHome s k).hub.sh.tb = s.hub.sh.tb := by
  unfold fireHome
  split
  · exact homeLaunch_tsu_tb s k _
  · exact ⟨rfl, rfl⟩

theorem fireHome_key_ne {k : BitVec 12} (hk : j ≠ k) : jobKey ((fireHome s k).job j) = jobKey (s.job j) := by
  unfold fireHome
  split
  · exact homeLaunch_key_ne hk _
  · rfl

theorem foldl_fireHome_tsu (s : State) (ks : List (BitVec 12)) : (ks.foldl fireHome s).tsu = s.tsu :=
  foldl_keeps State.tsu (fun u k => (fireHome_tsu_tb u k).1) ks s

/-- A job that holds no launch keeps its key as the others launch. -/
theorem foldl_fireHome_launched (hnext : (s.job j).nextLaunch = none) (ks : List (BitVec 12)) :
    jobKey ((ks.foldl fireHome s).job j) = jobKey (s.job j) := by
  induction ks generalizing s with
  | nil => rfl
  | cons k ks ih =>
    by_cases hk : j = k
    · rw [List.foldl_cons, ← hk, fireHome_none hnext, ih hnext]
    · have hkey := fireHome_key_ne (s := s) hk
      exact (ih ((nextLaunch_of_jobKey hkey).trans hnext)).trans hkey

/-- A job of the list that is due launches, whatever the others do. -/
theorem foldl_fireHome_due {h : HeldLaunch} (hfirst : homeDueNow s j true = none) (hdue : homeDueNow s j false = some h)
    (ks : List (BitVec 12)) (hj : j ∈ ks) :
    ((ks.foldl fireHome s).job j).step = h.step ∧ ((ks.foldl fireHome s).job j).nextLaunch = none := by
  induction ks generalizing s with
  | nil => cases hj
  | cons k ks ih =>
    by_cases hk : j = k
    · obtain ⟨hstep, hnext⟩ := homeLaunch_key s j h
      have hkey := foldl_fireHome_launched hnext ks
      rw [List.foldl_cons, ← hk, fireHome_launches hfirst hdue]
      exact ⟨(step_of_jobKey hkey).trans hstep, (nextLaunch_of_jobKey hkey).trans hnext⟩
    · have hkey := fireHome_key_ne (s := s) hk
      have htb := (fireHome_tsu_tb s k).2
      have hmem : j ∈ ks := (List.mem_cons.1 hj).resolve_left hk
      exact ih ((homeDueNow_of_key htb hkey).trans hfirst) ((homeDueNow_of_key htb hkey).trans hdue) hmem

/-! ## The handover of the master, which may come with them (R141) -/

theorem sendAll_homeCore {ls : List LinkId} (hls : ∀ l ∈ ls, l.part = .hub) (m : Msg) (s : State) :
    homeCore (sendAll s ls m) = homeCore s := foldl_sendLink_homeCore hls m s

theorem modServoRegs_homeCore (s : State) (f : ServoRegs → ServoRegs) : homeCore (modServoRegs s .hub f) = homeCore s := rfl

theorem treeLinks_hub : ∀ l ∈ treeLinks s, l.part = .hub := by
  intro l hl
  unfold treeLinks at hl
  dsimp only at hl
  split at hl
  · split at hl
    · rcases List.mem_append.1 hl with hl | hl
      · rcases List.mem_append.1 hl with hl | hl
        · exact roleLinks_hub 1 l hl
        · exact roleLinks_hub 3 l hl
      · exact roleLinks_hub 4 l hl
    · exact roleLinks_hub 1 l hl
  · exact roleLinks_hub 1 l (List.mem_filter.1 hl).1
  · exact roleLinks_hub 1 l hl

theorem announceOrigin_homeCore (s : State) : homeCore (announceOrigin s).2.2 = homeCore s := by
  unfold announceOrigin
  split <;> rfl

theorem announceNow_homeCore (s : State) : homeCore (announceNow s) = homeCore s :=
  (sendAll_homeCore treeLinks_hub ..).trans ((modServoRegs_homeCore ..).trans (announceOrigin_homeCore s))

theorem countHandover_homeCore (s : State) : homeCore (countHandover s) = homeCore s := modHub_homeCore rfl rfl rfl

theorem followMaster_homeCore (s : State) (m gen : BitVec 16) : homeCore (followMaster s m gen) = homeCore s :=
  (modServoRegs_homeCore ..).trans (modHub_homeCore rfl rfl rfl)

theorem becomeMaster_homeCore (s : State) (gen : BitVec 16) : homeCore (becomeMaster s gen) = homeCore s :=
  (modServoRegs_homeCore ..).trans rfl

theorem handoverReached_homeCore (s : State) : homeCore (handoverReached s) = homeCore s := by
  unfold handoverReached
  dsimp only
  refine ite_keeps homeCore (ite_keeps homeCore ((countHandover_homeCore _).trans (followMaster_homeCore ..)) rfl) ?_
  split
  · refine ite_keeps homeCore (ite_keeps homeCore (ite_keeps homeCore rfl ?_) (ite_keeps homeCore ?_ rfl)) rfl
    · exact (announceNow_homeCore _).trans ((countHandover_homeCore _).trans (becomeMaster_homeCore ..))
    · exact (modHub_homeCore rfl rfl rfl).trans (modServoRegs_homeCore ..)
  · rfl

/-- With nothing staged on the hub, its launches are what falls due, and the handover. -/
theorem exec_scheduledActionFire_hub (hon : s.hub.power.on = true) (hkept : s.hub.sh.tb.resolve = false)
    (hstaged : s.hub.staged = []) :
    exec (.scheduledActionFire .hub) s = .next (handoverReached (s.jobIds.foldl fireHome s)) := by
  have hruns : islandRuns s .hub = true := hon
  have hnone : stagedOf s .hub = [] := by rw [stagedOf, hstaged]; rfl
  show execScheduledActionFire .hub s = _
  rw [execScheduledActionFire, hruns, resolveKept_hub_kept hkept, if_neg (by decide)]
  dsimp only
  rw [hnone]
  rfl

/-- The TSU's scheduled completions and pulses that are due. -/
def pulsesFired (s : State) : State := trigIds.foldl (fun s n => (List.range 5).foldl (fun s _ => pulseStart s n) s) s

/-- The TSU's launch with the completions and pulses that fall due with it. -/
def launchFired (s : State) (h : HeldLaunch) : State :=
  pulsesFired (s.slotIds.foldl timedComplete (launchStep s h))

theorem exec_scheduledActionFire_tsu {h : HeldLaunch} (hout : s.tsu.inReset = false) (hkept : s.tsu.sh.tb.resolve = false)
    (hfirst : launchDueNow s true = none) (hdue : launchDueNow s false = some h) :
    exec (.scheduledActionFire .tsu) s =
      .next (fireWaittick ((stagedOf (launchFired s h) .tsu).foldl (fireCommit .tsu) (launchFired s h))) := by
  have hruns : islandRuns s .tsu = true := by rw [islandRuns, hout]; rfl
  have hfire : fireLaunch s = launchStep s h := by rw [fireLaunch, hfirst, hdue]; rfl
  show execScheduledActionFire .tsu s = _
  rw [execScheduledActionFire, hruns, resolveKept_tsu_kept hkept, if_neg (by decide)]
  dsimp only
  rw [hfire, launchFired, pulsesFired]

/-- Of a state, the TSU's step, its launch, what it has staged, and the hub's jobs. -/
structure StepView where
  now : BitVec 64
  last : Tick
  launch : Option HeldLaunch
  staged : Tbl (Option Staged)
  jobs : Tbl HubJob

def stepView (s : State) : StepView :=
  { now := s.tsu.step.stepNow, last := s.tsu.step.stepLast, launch := s.tsu.launch, staged := s.tsu.staged, jobs := s.hub.jobs }

theorem Reported.stepView (h : Reported s t) : stepView t = stepView s := by
  obtain ⟨r, hr⟩ := h.exists_report
  rw [hr]
  rfl

theorem StepView.fields {v : StepView} (h : Machine.stepView s = v) :
    s.tsu.step.stepNow = v.now ∧ s.tsu.step.stepLast = v.last ∧ s.tsu.launch = v.launch ∧ s.tsu.staged = v.staged ∧
      s.hub.jobs = v.jobs := by
  subst h
  exact ⟨rfl, rfl, rfl, rfl, rfl⟩

theorem modSeq_stepView (s : State) (f : Seq → Seq) : stepView (modSeq s .tsu f) = stepView s := rfl

theorem halt_tsu_stepView (s : State) (cause : BitVec 3) (addr : BitVec 14) : stepView (halt s .tsu cause addr) = stepView s :=
  (tsuReport_reported (setCause_reported (.refl (modSeq s .tsu (seqHalted cause addr))) ..) ..).stepView

/-- The TSU as a launch is due that it takes, with its cause. -/
def launchEntered (s : State) (h : HeldLaunch) : State :=
  setCause (launchTaken h (freeStore (launchDue s h.tick))) .tsu .step 0

theorem launchStep_eq (s : State) (h : HeldLaunch) : launchStep s h =
    if (launchEntered s h).tsu.seq.regs.seqStatusState = 0 then tsuPass (launchEntered s h) h.step h.tick
    else
      let s := modSeqRegs (launchEntered s h) .tsu fun r => { r with seqErrBusyLaunch := satInc r.seqErrBusyLaunch }
      let s := seqCause s .tsu 3
      halt s .tsu 5 s.tsu.seq.busyAt := rfl

theorem launchEntered_stepView (s : State) (h : HeldLaunch) :
    stepView (launchEntered s h) = { stepView s with now := h.step, last := h.tick, launch := none } := by
  have hfreed : stepView (freeStore (launchDue s h.tick)) = stepView s :=
    (freeStore_reported _).stepView.trans (launchDue_reported s h.tick).stepView
  exact (setCause_reported (.refl _) ..).stepView.trans (congrArg (fun v : StepView =>
    { v with now := h.step, last := h.tick, launch := none }) hfreed)

theorem launchStep_stepView (s : State) (h : HeldLaunch) :
    stepView (launchStep s h) = { stepView s with now := h.step, last := h.tick, launch := none } := by
  rw [← launchEntered_stepView, launchStep_eq]
  refine ite_keeps stepView rfl ((halt_tsu_stepView ..).trans ?_)
  exact (setCause_reported (.refl _) ..).stepView.trans (modSeq_stepView ..)

theorem timedComplete_stepView (s : State) (k : BitVec 12) : stepView (timedComplete s k) = stepView s := by
  unfold timedComplete
  split
  · exact ite_keeps stepView rfl rfl
  · rfl

theorem modTrig_stepView (s : State) (n : BitVec 4) (f : TrigLine → TrigLine) : stepView (modTrig s n f) = stepView s := rfl

theorem startPulse_stepView (s : State) (n : BitVec 4) (at_ : Int) : stepView (startPulse s n at_) = stepView s :=
  ite_keeps stepView rfl rfl

theorem startPend_stepView (s : State) (n : BitVec 4) (p : PulseKind × Tick) : stepView (startPend s n p) = stepView s :=
  ite_keeps stepView ((startPulse_stepView ..).trans (modTrig_stepView ..)) (modTrig_stepView ..)

theorem pulseStart_stepView (s : State) (n : BitVec 4) : stepView (pulseStart s n) = stepView s := by
  unfold pulseStart
  dsimp only
  refine ite_keeps stepView rfl ?_
  split
  · exact ite_keeps stepView (startPend_stepView ..) ((startPulse_stepView ..).trans (modTrig_stepView ..))
  · exact startPend_stepView ..
  · exact (startPulse_stepView ..).trans (modTrig_stepView ..)
  · rfl

theorem pulsesFired_stepView (s : State) : stepView (pulsesFired s) = stepView s :=
  foldl_keeps stepView (fun _ _ => foldl_keeps stepView (fun _ _ => pulseStart_stepView ..) _ _) _ _

theorem fireWaittick_stepView (s : State) : stepView (fireWaittick s) = stepView s := by
  unfold fireWaittick
  split
  · exact ite_keeps stepView (modSeq_stepView ..) rfl
  · rfl

theorem launchFired_stepView (s : State) (h : HeldLaunch) :
    stepView (launchFired s h) = { stepView s with now := h.step, last := h.tick, launch := none } :=
  (pulsesFired_stepView _).trans ((foldl_keeps stepView timedComplete_stepView _ _).trans (launchStep_stepView s h))

end

/-- Settles O44, from what an abort and the launches that are due leave. -/
theorem uncorrectableReads : Obligations.UncorrectableReads := by
  unfold Obligations.UncorrectableReads
  refine ⟨?_, ?_, ?_, ?_, ?_, ?_⟩
  · intro channel addr k s hk
    refine ⟨_, exec_hbmUncorrectableRead_event hk, rfl, eccShown_ring channel addr s _, rfl, ?_, rfl, rfl, ?_⟩
    · exact (eccShown_shows channel addr s).modHub rfl
    · have hreported := ring_reported (eccShown_reported channel addr s) fun ring => tset 0 ring (k.toNat % ringSize) 0
      exact hreported
  · intro channel addr j s
    refine ⟨_, exec_hbmUncorrectableRead_jobState channel addr j s, rfl, eccShown_shows channel addr s, rfl, rfl, rfl, rfl⟩
  · intro j s hlead hruns
    have hcore := poison_homeCore (s := s.fresh.2) (s.job j).step 1 (Config.fetchTarget s.free) hlead hruns
    have hkey := jobKey_of_homeCore hcore j
    rw [jobAborted, job_modJob] at hkey
    exact ⟨_, exec_twinFetchTimeout_lead hlead, rfl, state_of_jobKey hkey, congrArg HomeCore.tsu hcore⟩
  · intro j s hhome hlead
    obtain ⟨r, hr⟩ := (sendTwin_reported (.refl s.fresh.2) j.toNat (.stepPoison {
      job := j, epoch := (s.job j).regs.jobStatusEpoch, step := (s.job j).step.setWidth 24
      target := Config.fetchTarget s.free })).exists_report
    refine ⟨_, exec_twinFetchTimeout_other hhome hlead, rfl, ?_, sendTwin_tsu ..⟩
    rw [hr]
    rfl
  · intro h s hout hkept hfirst hdue hstaged
    have hview := launchFired_stepView s h
    obtain ⟨-, -, -, hkeeps, -⟩ := StepView.fields hview
    have hnone : stagedOf (launchFired s h) .tsu = [] := by
      rw [stagedOf, hkeeps]
      exact congrArg (List.filterMap fun e => e.2) hstaged
    have hexec := exec_scheduledActionFire_tsu hout hkept hfirst hdue
    rw [hnone, List.foldl_nil] at hexec
    obtain ⟨hnow, hlast, hlaunch, -, hjobs⟩ := StepView.fields ((fireWaittick_stepView (launchFired s h)).trans hview)
    exact ⟨_, hexec, hnow, hlast, hlaunch, hjobs⟩
  · intro j h s hon hkept hj hfirst hdue hstaged
    obtain ⟨hstep, hnext⟩ := foldl_fireHome_due hfirst hdue s.jobIds (List.contains_iff_mem.1 hj)
    have hcore := handoverReached_homeCore (s.jobIds.foldl fireHome s)
    have hkey := jobKey_of_homeCore hcore j
    exact ⟨_, exec_scheduledActionFire_hub hon hkept hstaged, (step_of_jobKey hkey).trans hstep,
      (nextLaunch_of_jobKey hkey).trans hnext, (congrArg HomeCore.tsu hcore).trans (foldl_fireHome_tsu s s.jobIds)⟩

end Sys2Proof.Machine
end

section
/-! O36: as a TSU link leaves service, what is unacknowledged upward is sent again, even over that link. -/

namespace Sys2Proof.Machine

section

set_option Elab.async false

/-- A TSU whose link A alone is in service, and that has a CREDIT unacknowledged upward. -/
def creditUnacked : State :=
  modTsu (modLinkRegs State.reset linkA fun r => { r with lkState := 6 }) fun t => { t with
    up := { t.up with unacked := [(0, .credit { cred := 0, full := false })] } }

theorem linkLeaveService_creditUnacked :
    readNext (fun t => (t.link linkA).replay.length) (exec (.linkLeaveService linkA) creditUnacked) = some 1 := by
  decide +kernel

end

/-- Refutes O36: a link that leaves service has an empty replay buffer in the statement, whatever the state. What is
unacknowledged upward is sent again as it leaves, over that link itself where no other is in service; a flit that takes credit
is dropped there, and the CREDIT of `creditUnacked`, which takes none, enters the buffer. -/
theorem not_linkDelivery : ¬ Obligations.LinkDelivery := by
  intro h
  obtain ⟨-, -, -, -, -, -, -, -, hleave, -⟩ := h
  obtain ⟨t, hstep, -, hempty, -⟩ := hleave linkA creditUnacked (by decide) (by decide +kernel)
  have hkept : (t.link linkA).replay.length = 1 := readNext_of_eq_next _ hstep linkLeaveService_creditUnacked
  rw [hempty] at hkept
  exact absurd hkept (by decide)

end Sys2Proof.Machine
end

section
/-! O39: the input power and its interruption, and the temperatures of the module. -/

namespace Sys2Proof.Machine

section

set_option Elab.async false

variable {s t : State}

/-! ## A core reset, and what it keeps (R469, R482) -/

/-- A state with other units. -/
def withUnits (s : State) (units : Tbl UnitRegs) : State := modHub s fun h => { h with units := units }

theorem modUnit_units (s : State) (u : BitVec 16) (f : UnitRegs → UnitRegs) : ∃ units, modUnit s u f = withUnits s units :=
  ⟨_, rfl⟩

theorem keepRetired_units (s : State) (u : BitVec 16) : ∃ units, keepRetired s u = withUnits s units := by
  unfold keepRetired
  split
  · exact ⟨s.hub.units, rfl⟩
  split
  · split
    · obtain ⟨units, h⟩ := modUnit_units s u _
      rw [h]
      exact modUnit_units ..
    · exact modUnit_units ..
  · exact modUnit_units ..

theorem foldl_keepRetired_units (us : List (BitVec 16)) (s : State) :
    ∃ units, us.foldl keepRetired s = withUnits s units := by
  induction us generalizing s with
  | nil => exact ⟨s.hub.units, rfl⟩
  | cons u us ih =>
    obtain ⟨units, h⟩ := keepRetired_units s u
    rw [List.foldl_cons, h]
    exact ih _

/-- The hub out of a power-on reset has its units alone from before. -/
theorem coldReset_eq (s : State) (cause : BitVec 4) :
    ∃ units, coldReset s cause = { s with hub := { coreHub s.hub s.opsec cause true true with units := units } } := by
  obtain ⟨units, h⟩ := foldl_keepRetired_units (retiredUnits s.hub) { s with hub := coreHub s.hub s.opsec cause true true }
  rw [coldReset, coreReset]
  dsimp only
  rw [h]
  exact ⟨units, rfl⟩

/-- What a power-on reset shows and leaves. -/
theorem powerOnReset_fields (s : State) (cause : BitVec 4) :
    (powerOnReset s cause).hub.power.on = true ∧ (powerOnReset s cause).hub.mod_.modResetCause = cause ∧
      (powerOnReset s cause).hub.flash = s.hub.flash ∧ (powerOnReset s cause).hub.jobs = [] ∧
      (powerOnReset s cause).hub.sh.tb.tick = 0 ∧ (powerOnReset s cause).hub.jtag = {} ∧
      (powerOnReset s cause).tsu = s.tsu := by
  obtain ⟨units, h⟩ := coldReset_eq s cause
  rw [powerOnReset, h]
  exact ⟨rfl, rfl, rfl, rfl, rfl, rfl, rfl⟩

theorem exec_powerInputRise_starts {vin : BitVec 16} (hoff : s.hub.power.on = false) (hvin : 6700 < vin.toNat) :
    exec (.powerInputRise vin) s = .next (showVin (powerOnReset s (s.hub.power.latch.getD 0)) vin) := by
  show execPowerInputRise vin s = _
  rw [execPowerInputRise, hoff, if_neg (by simpa using hvin)]

/-! ## Conversion stops (R469, R470, R472) -/

/-- The hub with conversion stopped and a cause latched. -/
def powerLatched (c : BitVec 4) (h : Hub) : Hub := { h with power := { h.power with on := false, latch := some c } }

theorem powerOff_unlatched {cause : BitVec 4} (hon : s.hub.power.on = true) (hlatch : s.hub.power.latch = none) :
    powerOff s cause = modHub (powerOnReset s cause) (powerLatched cause) := by
  rw [powerOff, if_pos hon, hlatch]
  rfl

theorem powerOff_latched {cause x : BitVec 4} (hon : s.hub.power.on = true) (hlatch : s.hub.power.latch = some x) :
    powerOff s cause = modHub (powerOnReset s x) (powerLatched x) := by
  rw [powerOff, if_pos hon, hlatch]
  rfl

theorem exec_powerUndervoltage_stops {vin : BitVec 16} (hvin : vin.toNat < 6400) :
    exec (.powerUndervoltage vin) s = .next (powerOff s 4) := by
  show execPowerUndervoltage vin s = _
  rw [execPowerUndervoltage, if_pos hvin]

theorem exec_powerOvervoltage_stops {vin : BitVec 16} (hvin : 8800 < vin.toNat) :
    exec (.powerOvervoltage vin) s = .next (powerOff s 5) := by
  show execPowerOvervoltage vin s = _
  rw [execPowerOvervoltage, if_pos hvin]

theorem exec_thermalTrip_stops {tj : BitVec 16} (inlet sec : BitVec 16) (htj : 1150 ≤ tj.toNat) (hpos : tj.toNat < 32768) :
    exec (.thermalTrip tj inlet sec) s = .next (powerOff s 6) := by
  have htj' : (1150 : Int) ≤ tj.toInt := by
    rw [BitVec.toInt_eq_toNat_of_lt (by omega)]
    omega
  show execThermalTrip tj inlet sec s = _
  rw [execThermalTrip, if_pos (.inl htj')]

/-! ## Readings and their warnings (R469, R471, R472, R486) -/

/-- The readings of the input and of the temperatures as they are shown. -/
def powerShown (vin pin pkg aux : BitVec 16) (warn : Bool) (h : Hub) : Hub :=
  { h with mod_ := { h.mod_ with
    modPowerVin := vin, modPowerPin := pin, modPowerPkg := pkg, modPowerAux := aux, modStatusPwrWarn := warn } }

def tempShown (tj inlet : BitVec 16) (warn : Bool) (h : Hub) : Hub :=
  { h with mod_ := { h.mod_ with modTempTj := tj, modTempInlet := inlet, modStatusThermWarn := warn } }

theorem exec_pwrWarn_begins {vin : BitVec 16} (pin pkg aux : BitVec 16) (hon : s.hub.power.on = true)
    (hband : inWarnBand vin = true) (hnew : s.hub.mod_.modStatusPwrWarn = false) :
    exec (.pwrWarn vin pin pkg aux) s = .next (setCause (modHub s (powerShown vin pin pkg aux true)) .hub .mod 2) := by
  show execPwrWarn .. = _
  rw [execPwrWarn, hon, hband, hnew]
  rfl

theorem exec_pwrWarn_clear {vin : BitVec 16} (pin pkg aux : BitVec 16) (hon : s.hub.power.on = true)
    (hband : inWarnBand vin = false) :
    exec (.pwrWarn vin pin pkg aux) s = .next (modHub s (powerShown vin pin pkg aux false)) := by
  show execPwrWarn .. = _
  rw [execPwrWarn, hon, hband]
  rfl

theorem exec_thermWarn_begins {tj : BitVec 16} (inlet : BitVec 16) (hon : s.hub.power.on = true)
    (hwarn : s.hub.mod_.modTempWarnC.toNat * 10 ≤ tj.toNat) (hpos : tj.toNat < 32768)
    (hnew : s.hub.mod_.modStatusThermWarn = false) :
    exec (.thermWarn tj inlet) s = .next (setCause (modHub s (tempShown tj inlet true)) .hub .mod 1) := by
  have hbegins : decide ((s.hub.mod_.modTempWarnC.toNat * 10 : Int) ≤ tj.toInt) = true := by
    rw [decide_eq_true_iff, BitVec.toInt_eq_toNat_of_lt (by omega)]
    omega
  show execThermWarn .. = _
  rw [execThermWarn, hon, hbegins, hnew]
  rfl

theorem exec_thermWarn_clear {tj : BitVec 16} (inlet : BitVec 16) (hon : s.hub.power.on = true)
    (hcool : tj.toNat < s.hub.mod_.modTempWarnC.toNat * 10) (hpos : tj.toNat < 32768) :
    exec (.thermWarn tj inlet) s = .next (modHub s (tempShown tj inlet false)) := by
  have hwarn : decide ((s.hub.mod_.modTempWarnC.toNat * 10 : Int) ≤ tj.toInt) = false := by
    rw [decide_eq_false_iff_not, BitVec.toInt_eq_toNat_of_lt (by omega)]
    omega
  show execThermWarn .. = _
  rw [execThermWarn, hon, hwarn]
  rfl

/-! ## A link that leaves service (R459, R465) -/

/-- What a link that leaves service changes beside the links: READY, what is sent again, the ports that wait for admission, and
the copies and the lead of the link. -/
def leaveMask : Mask where
  take s t := report t { s with
    hub := { s.hub with
      mod_ := t.hub.mod_, flt := t.hub.flt, admitQ := t.hub.admitQ,
      sh := { s.hub.sh with ifaces := t.hub.sh.ifaces, servo := t.hub.sh.servo } },
    tsu := { s.tsu with sh := { s.tsu.sh with ifaces := t.tsu.sh.ifaces, servo := t.tsu.sh.servo } } }
  take_take _ _ _ := rfl
  take_report _ _ := rfl

/-- A link as it stops. -/
def linkStopped (k : Link) : Link :=
  { k with
    regs := { k.regs with lkState := 7, lkStateNotReady := false, lkRegStatusBusy := false }
    replay := [], hold := [], credit := [0, 0, 0, 0, 0, 0], begun := [0, 0, 0, 0, 0, 0], stall := 0
    txSeq := 0, ackSeq := 0, rxSeq := 0, nakRun := 0, cont := 0
    helloSent := false }

/-- A link of the hub that is stopped, with its cause and its port waiting for admission. -/
def hubLinkStopped (s : State) (l : LinkId) : State :=
  queuePort (setCause (resetCopies (modLink s l linkStopped) l) .hub (.link l.port) 13) l.port

theorem linkLeave_hub_eq {l : LinkId} (hl : l.part = .hub) (hact : (s.link l).active = true) :
    linkLeave s l = updReady (resendUp (hubLinkStopped s l) l) := by
  obtain ⟨p, port, sub⟩ := l
  subst hl
  rw [linkLeave, hact, if_neg (by decide)]
  rfl

theorem linkLeave_inactive {l : LinkId} (hact : (s.link l).active = false) : linkLeave s l = s := by
  rw [linkLeave, hact]
  rfl

theorem queuePort_leaveMask (s : State) (port : BitVec 7) : leaveMask.Frame s (queuePort s port) := rfl

theorem modIfaces_leaveMask (s : State) (p : Part) (f : Tbl IfaceCopy → Tbl IfaceCopy) :
    leaveMask.Frame s (modSh s p fun h => { h with ifaces := f h.ifaces }) := by
  cases p <;> rfl

theorem resetCopies_leaveMask (s : State) (l : LinkId) : leaveMask.Frame s (resetCopies s l) := by
  obtain ⟨p, port, sub⟩ := l
  cases p
  · exact modIfaces_leaveMask s .hub fun t => tset {} t (Iface.port port).key {}
  · exact modIfaces_leaveMask s .tsu fun t => tset {} t (if port = 0 then Iface.linkA else Iface.linkB).key {}

theorem hubLinkStopped_leaveMask (s : State) (l : LinkId) : leaveMask.Frame s (hubLinkStopped s l) := by
  have hcopies := ((modLink_reported (.refl s) l linkStopped).frame leaveMask).trans (resetCopies_leaveMask _ l)
  exact (hcopies.reported (setCause_reported (.refl _) .hub (.link l.port) 13)).trans (queuePort_leaveMask ..)

theorem hubLinkStopped_tsu {l : LinkId} (hl : l.part = .hub) : (hubLinkStopped s l).tsu = s.tsu := by
  obtain ⟨p, port, sub⟩ := l
  subst hl
  exact (setCause_hub_tsu ..).trans (modLink_tsu rfl _)

/-- What is unacknowledged counted as it is sent again. -/
def resentCounted (n : Nat) (h : Hub) : Hub := { h with flt := { h.flt with dlvErrResent := satAdd h.flt.dlvErrResent n } }

/-- What a hub that resends upward does: nothing, or it counts and sends over another of its links. -/
theorem resendUp_hub_eq {l : LinkId} (hl : l.part = .hub) : resendUp s l = s ∨ ∃ x, x ∈ s.activeLinks .hub ∧
    resendUp s l = (s.upSender (s.pairKey l)).unacked.foldl (fun s e => sendLink s x (some e.1) e.2)
      (modHub s (resentCounted (s.upSender (s.pairKey l)).unacked.length)) := by
  obtain ⟨p, port, sub⟩ := l
  subst hl
  rw [resendUp]
  dsimp only
  split
  · next x hx => exact .inr ⟨x, List.mem_of_find?_eq_some hx, rfl⟩
  · exact .inl rfl

theorem resentCounted_leaveMask (s : State) (n : Nat) : leaveMask.Frame s (modHub s (resentCounted n)) := rfl

theorem resendUp_hub_leaveMask {l : LinkId} (hl : l.part = .hub) : leaveMask.Frame s (resendUp s l) := by
  rcases resendUp_hub_eq (s := s) hl with h | ⟨x, -, h⟩
  · rw [h]
    exact .refl ..
  · rw [h]
    exact (resentCounted_leaveMask ..).reported (foldl_reported (fun _ _ hu => sendLink_reported hu ..) (.refl _))

theorem resendUp_hub_tsu {l : LinkId} (hl : l.part = .hub) : (resendUp s l).tsu = s.tsu := by
  rcases resendUp_hub_eq (s := s) hl with h | ⟨x, hx, h⟩
  · rw [h]
  · rw [h]
    exact foldl_keeps State.tsu (fun _ _ => sendLink_tsu (mem_activeLinks_part hx) ..) _ _

theorem updReady_leaveMask (s : State) : leaveMask.Frame s (updReady s) := by
  have h := updReady_readyMask s
  unfold Mask.Frame at h ⊢
  rw [h]
  rfl

theorem linkLeave_hub_leaveMask {l : LinkId} (hl : l.part = .hub) : leaveMask.Frame s (linkLeave s l) := by
  by_cases hact : (s.link l).active = true
  · rw [linkLeave_hub_eq hl hact]
    exact (hubLinkStopped_leaveMask s l).trans ((resendUp_hub_leaveMask hl).trans (updReady_leaveMask _))
  · rw [linkLeave_inactive (Bool.eq_false_iff.2 hact)]
    exact .refl ..

theorem linkLeave_hub_tsu {l : LinkId} (hl : l.part = .hub) : (linkLeave s l).tsu = s.tsu := by
  by_cases hact : (s.link l).active = true
  · rw [linkLeave_hub_eq hl hact, updReady_tsu, resendUp_hub_tsu hl, hubLinkStopped_tsu hl]
  · rw [linkLeave_inactive (Bool.eq_false_iff.2 hact)]

/-! ## An interruption of the input power (R470) -/

/-- Every link of the hub out of service. -/
def linksLeft (s : State) : State := (s.activeLinks .hub).foldl linkLeave s

theorem linksLeft_tsu (s : State) : (linksLeft s).tsu = s.tsu :=
  foldl_links_keeps State.tsu (fun _ _ hl => linkLeave_hub_tsu hl) _ (fun _ => mem_activeLinks_part) s

theorem foldl_linkLeave_leaveMask {ls : List LinkId} (hls : ∀ l ∈ ls, l.part = .hub) (s : State) :
    leaveMask.Frame s (ls.foldl linkLeave s) := by
  induction ls generalizing s with
  | nil => exact .refl ..
  | cons l ls ih =>
    exact (linkLeave_hub_leaveMask (hls l List.mem_cons_self)).trans (ih (fun k hk => hls k (List.mem_cons_of_mem _ hk)) _)

theorem linksLeft_leaveMask (s : State) : leaveMask.Frame s (linksLeft s) :=
  foldl_linkLeave_leaveMask (fun _ => mem_activeLinks_part) s

/-- A link that is out of service for good. -/
def linkDisabled (k : Link) : Link := { k with regs := { k.regs with lkState := 0 } }

/-- The hub as its input is interrupted. -/
def interrupted (h : Hub) : Hub :=
  { h with
    admitQ := []
    sh := { h.sh with links := tmap {} (fun _ k => linkDisabled k) h.sh.links }
    history := match h.histQueue with
      | e :: _ => (if h.history.length < historySize then h.history else compactHistory h.history) ++ [e]
      | [] => h.history
    histQueue := []
    power := { h.power with latch := some 7 } }

theorem exec_powerInterruption_interrupts (hon : s.hub.power.on = true) :
    exec .powerInterruption s = .next (updReady (modHub (linksLeft s) interrupted)) := by
  show execPowerInterruption s = _
  rw [execPowerInterruption, hon]
  rfl

/-- Every link of the hub is disabled. -/
def AllDisabled (s : State) : Prop := s.hub.sh.links.all (fun e => e.2.regs.lkState == 0) = true

theorem interrupted_allDisabled (s : State) : AllDisabled (modHub s interrupted) := by
  refine List.all_eq_true.2 fun e he => ?_
  obtain ⟨⟨k, v⟩, -, heq⟩ := List.mem_filterMap.1 he
  dsimp only at heq
  split at heq
  · cases heq
  · injection heq with heq
    rw [← heq]
    rfl

theorem AllDisabled.activeLinks (h : AllDisabled s) : s.activeLinks .hub = [] := by
  have hnone : (s.hub.sh.links.filter fun e => e.2.active) = [] := by
    refine List.filter_eq_nil_iff.2 fun e he hact => ?_
    have h0 : e.2.regs.lkState = 0 := eq_of_beq (List.all_eq_true.1 h e he)
    rw [Link.active, h0] at hact
    exact absurd hact (by decide)
  exact congrArg (List.map fun e => linkOfKey .hub e.1) hnone

theorem setCause_links (s : State) (g : Page) (b : Nat) : (setCause s .hub g b).hub.sh.links = s.hub.sh.links := by
  unfold setCause modHdr
  split <;> rfl

theorem updReady_allDisabled (h : AllDisabled s) : AllDisabled (updReady s) := by
  rw [updReady_eq]
  split
  · have hset : AllDisabled (setCause (modHub s readyBegun) .hub .mod 0) := by
      rw [AllDisabled, setCause_links]
      exact h
    rw [creditFull, hset.activeLinks]
    exact hset
  · split
    · exact h
    · exact h

/-- What an interruption changes beside the links. -/
def interruptMask : Mask where
  take s t := report t { s with
    hub := { s.hub with
      mod_ := t.hub.mod_, history := t.hub.history, histQueue := t.hub.histQueue, flt := t.hub.flt, admitQ := t.hub.admitQ,
      power := t.hub.power, sh := { s.hub.sh with ifaces := t.hub.sh.ifaces, servo := t.hub.sh.servo } },
    tsu := { s.tsu with sh := { s.tsu.sh with ifaces := t.tsu.sh.ifaces, servo := t.tsu.sh.servo } } }
  take_take _ _ _ := rfl
  take_report _ _ := rfl

theorem interrupted_interruptMask (s : State) : interruptMask.Frame s (modHub s interrupted) := rfl

theorem interruptMask_of_leaveMask (h : leaveMask.Frame s t) : interruptMask.Frame s t := by
  unfold Mask.Frame at h ⊢
  rw [h]
  rfl

theorem powerInterruption_stops (hon : s.hub.power.on = true) (hqueue : s.hub.histQueue = []) :
    ∃ t, exec .powerInterruption s = .next t ∧
      t.hub.power.latch = some 7 ∧
      (t.hub.sh.links.all (fun e => e.2.regs.lkState == 0) = true) ∧
      t.hub.admitQ = [] ∧ t.hub.history = s.hub.history ∧ t.hub.jobs = s.hub.jobs ∧ t.tsu = s.tsu ∧
      Reported { s with
        hub := { s.hub with
          mod_ := t.hub.mod_, history := t.hub.history, histQueue := t.hub.histQueue, flt := t.hub.flt, admitQ := t.hub.admitQ,
          power := t.hub.power, sh := { s.hub.sh with ifaces := t.hub.sh.ifaces, servo := t.hub.sh.servo } },
        tsu := { s.tsu with sh := { s.tsu.sh with ifaces := t.tsu.sh.ifaces, servo := t.tsu.sh.servo } } } t := by
  have hexec := exec_powerInterruption_interrupts hon
  have hleft := linksLeft_leaveMask s
  have hframe : interruptMask.Frame s (updReady (modHub (linksLeft s) interrupted)) :=
    (interruptMask_of_leaveMask hleft).trans ((interrupted_interruptMask _).trans
      (interruptMask_of_leaveMask (updReady_leaveMask _)))
  have htsu := linksLeft_tsu s
  have hready := updReady_readyMask (modHub (linksLeft s) interrupted)
  have hlinks := updReady_allDisabled (interrupted_allDisabled (linksLeft s))
  have hkept : (updReady (modHub (linksLeft s) interrupted)).tsu = s.tsu := (updReady_tsu _).trans htsu
  unfold Mask.Frame at hleft hready
  have hqueue' : (linksLeft s).hub.histQueue = [] := by
    rw [hleft]
    exact hqueue
  have hhistory : (modHub (linksLeft s) interrupted).hub.history = s.hub.history := by
    show (match (linksLeft s).hub.histQueue with
      | e :: _ => _
      | [] => (linksLeft s).hub.history) = _
    rw [hqueue', hleft]
    rfl
  have hhistory' : (updReady (modHub (linksLeft s) interrupted)).hub.history = s.hub.history := by
    rw [hready]
    exact hhistory
  refine ⟨_, hexec, ?_, hlinks, ?_, hhistory', ?_, hkept, hframe⟩
  · rw [hready]
    rfl
  · rw [hready]
    rfl
  · rw [hready]
    show (linksLeft s).hub.jobs = _
    rw [hleft]
    rfl

end

/-- Settles O39, from what a power-on reset, a reading and an interruption each leave. -/
theorem powerAndCooling : Obligations.PowerAndCooling := by
  unfold Obligations.PowerAndCooling
  refine ⟨?_, ?_, ?_, ?_, ?_, ?_, ?_, ?_, ?_⟩
  · intro vin s hoff hvin
    obtain ⟨hon, -, hflash, hjobs, htick, -, htsu⟩ := powerOnReset_fields s (s.hub.power.latch.getD 0)
    exact ⟨_, exec_powerInputRise_starts hoff hvin, rfl, hon, hflash, hjobs, htick, htsu⟩
  · intro vin s hon hvin hlatch
    obtain ⟨-, hcause, hflash, hjobs, -, hjtag, htsu⟩ := powerOnReset_fields s 4
    have hexec := exec_powerUndervoltage_stops (s := s) hvin
    refine ⟨_, hexec, ?_⟩
    rw [powerOff_unlatched hon hlatch]
    exact ⟨rfl, rfl, hcause, hflash, hjobs, htsu, hjtag, rfl⟩
  · intro vin x s hon hvin hlatch
    obtain ⟨-, -, hflash, hjobs, -, -, htsu⟩ := powerOnReset_fields s x
    refine ⟨_, exec_powerOvervoltage_stops (s := s) hvin, ?_⟩
    rw [powerOff_latched hon hlatch]
    exact ⟨rfl, rfl, hflash, hjobs, htsu, rfl⟩
  · intro vin pin pkg aux s hon hband hnew
    have hcause := setCause_reported (.refl (modHub s (powerShown vin pin pkg aux true))) .hub .mod 2
    refine ⟨_, exec_pwrWarn_begins pin pkg aux hon hband hnew, rfl, ?_, rfl, rfl, hcause⟩
    exact shows_setCause (by decide) (by decide) _
  · exact fun vin pin pkg aux s hon hband => ⟨_, exec_pwrWarn_clear pin pkg aux hon hband, rfl⟩
  · exact fun s hon hqueue => powerInterruption_stops hon hqueue
  · intro tj inlet s hon ⟨hwarn, hpos⟩ hnew
    have hcause := setCause_reported (.refl (modHub s (tempShown tj inlet true))) .hub .mod 1
    refine ⟨_, exec_thermWarn_begins inlet hon hwarn hpos hnew, rfl, ?_, rfl, rfl, hcause⟩
    exact shows_setCause (by decide) (by decide) _
  · exact fun tj inlet s hon ⟨hcool, hpos⟩ => ⟨_, exec_thermWarn_clear inlet hon hcool hpos, rfl⟩
  · intro tj inlet sec s hon ⟨htj, hpos⟩ hlatch
    obtain ⟨-, hcause, hflash, -, -, -, htsu⟩ := powerOnReset_fields s 6
    refine ⟨_, exec_thermalTrip_stops inlet sec htj hpos, ?_⟩
    rw [powerOff_unlatched hon hlatch]
    exact ⟨rfl, rfl, hcause, hflash, htsu, rfl⟩

end Sys2Proof.Machine
end
